-- ==== Sys2Proof/Word.lean ====
section
/-!
DEFINITION. The word and byte types, the reference to one register field, and the shape of a sparse table.
The management space is made of 32-bit registers (the text above R8); memory structures are little-endian bytes (R6).
-/
namespace Sys2Proof

/-- A management register's contents: 32 bits. -/
abbrev Word := BitVec 32

/-- One byte of a memory structure, of a frame or of a payload. -/
abbrev Byte := BitVec 8

/-- A ring descriptor: 64 bytes, byte `i` in bits `[8i+7:8i]` (R6, R7). -/
abbrev Desc := BitVec 512

/-- A reference to one field of one management register: its register's address, its lowest bit, its width. -/
structure RF where
  addr : Nat
  lo   : Nat
  w    : Nat
  deriving DecidableEq, Repr

/-- A sparse table: entries by strictly rising key, none equal to what an unlisted key reads as. -/
abbrev Tab (α : Type) := List (Nat × α)

end Sys2Proof
end

