-- ==== Sys2Proof/Syntax.lean ====
section
/-!
DEFINITION. The commands: one constructor of `Instr` for each row of the table of operations and events, in the table's
order. A row that a write begins carries its requester and the written word; a row that a ring command begins carries its
ring and its 64-byte descriptor, with what the device reads from host memory for it; a row that time, a line or firmware
begins carries the quantities that only the outside gives. JOB_COMPLETE's are the job's measured complexity (its bins, for a
decode job), the bytes of its slice (of its entropy input), and the CTUs it concealed with whether a vector of it reached beyond
the bands waited for (R230); BOW_AHEAD_DECODE's `wrote` are the bins decoded and the bytes of the syntax records.
-/
namespace Sys2Proof

/-- Who makes a management access (R619, R622): the host through Clexia on a control port, a Cox core, or a Hoist through the
mirror (treated as Cox firmware). -/
inductive Who where
  | host (cp : Fin 2)
  | cox (t : Fin 4)
  | hoist (h : Fin 3)
  deriving DecidableEq, Repr

/-- A ring command: the command ring it stands in and its descriptor (R328). -/
structure Cmd where
  ring : Fin 32
  desc : Desc
  deriving DecidableEq, Repr

/-- What a read of host memory returns: its bytes, or none where it fails (R311, R334). -/
abbrev HostRead := Option (List Byte)

/-- How a Clexia frame is carried (R287): the peer's MAC address and the priority tag of the frame, and the EtherType of a raw frame
or, over UDP, the destination address and port and the source's. -/
structure ClxPath where
  mac  : BitVec 48
  prio : Option (BitVec 3)
  et   : BitVec 16
  udp  : Option (BitVec 32 × BitVec 16 × BitVec 32 × BitVec 16)
  deriving DecidableEq, Repr

/-- A Clexia request as it arrives (R287, R288): its port, how it is carried, the header fields and the bytes after the
header. -/
structure ClxReq where
  port : Fin 2
  path : ClxPath
  ver  : Byte
  opc  : Byte
  len  : BitVec 16
  seq  : BitVec 32
  tag  : BitVec 128
  body : List Byte
  deriving DecidableEq, Repr

/-- A RoCEv2 packet as it arrives (R299): kind 0 WRITE, 1 READ response, 2 ACK, 3 a NAK for a PSN
sequence error, 4 other; its PSN, remote key, virtual
address, payload, and whether ECN CE marks it. -/
structure RocePkt where
  kind : Fin 5
  psn  : BitVec 24
  rkey : BitVec 32
  va   : BitVec 64
  data : List Byte
  ce   : Bool
  deriving DecidableEq, Repr

/-- The ST 2059-2 synchronization metadata TLV of a received PTP message (R33, R362): the frame rate, the local offset, the locking status and the
address flags; and whether the best master clock algorithm, which Cox firmware runs, has the device as a slave. -/
structure PtpSync where
  num   : BitVec 32
  den   : BitVec 32
  offs  : BitVec 32
  lock  : BitVec 8
  flags : BitVec 8
  slave : Bool
  deriving DecidableEq, Repr

/-- What the parse of a coded picture's headers gives (R219, R221, R235-R237): whether the picture can start decoding, whether
it is an IRAP, the pictures until recovery of a GDR or recovery-point picture; of its active parameter sets the profile (as R335 numbers them), tier, level,
 chroma format, bit depth, size, picture buffer size, the largest number of reorder pictures, the use of WPP, the CTB size (0: 32, 1: 64, 2: 128, 3: 16) and
the tiles or subpictures as (column, columns, row, rows) in units of 64 luma samples (none listed: one); its references and the marks its first slice header carries, and pic_output_flag. A reference or mark names a picture of the stream by
the index of the picture that carried its POC (a number that no picture has where none did), a mark with whether it is long-term. -/
structure AuHead where
  start : Bool
  irap  : Bool
  recov : Nat
  profile : Nat
  tier    : Nat
  level   : Nat
  chroma  : Nat
  bits10  : Bool
  w       : Nat
  h       : Nat
  dpb     : Nat
  reorder : Nat
  wpp   : Bool
  ctb   : Fin 4
  lay   : List (Nat × Nat × Nat × Nat)
  refs  : List Nat
  marks : List (Nat × Bool)
  shown : Bool
  deriving DecidableEq, Repr

/-- The fields of an RTP header beside payload type, sequence number, timestamp and SSRC (R424): marker, CSRCs, extension. -/
structure RtpRest where
  marker : Bool := false
  csrc   : List (BitVec 32) := []
  ext    : Option (List Byte) := none
  deriving DecidableEq, Repr

/-- The data of one job in a NAL unit (R229, R232): the job's row and tile or subpicture, whether the job's data begins and whether it ends in
the NAL unit, and whether entropy decoding can start afresh there, at an independent slice or slice segment. -/
structure JobIn where
  row    : Nat
  reg    : Nat
  begins : Bool := true
  ends   : Bool := true
  fresh  : Bool := true
  deriving DecidableEq, Repr

/-- A NAL unit that begins in a received packet of a coded flow, as its parse gives it (R219, R229): the header of the picture, where the NAL unit brings it
(with the parameter sets that are active), and the jobs whose syntax it holds. -/
structure NalIn where
  head : Option AuHead := none
  jobs : List JobIn := []
  deriving DecidableEq, Repr

/-- A frame received on a media port: its bytes from the destination MAC address on, without FCS, whether its FCS is right, what the parse of the NAL
units of a coded packet gives, in order, and of a PTP message its synchronization metadata. With `cp` it arrived on that control port (R33). -/
structure RxFrame where
  data  : List Byte
  fcsOk : Bool := true
  nals  : List NalIn := []
  sync  : Option PtpSync := none
  cp    : Option (Fin 2) := none
  deriving DecidableEq, Repr

/-- A request that arrives at a Cellar pseudo-channel (R492-R497): the address of its granule, whether it writes, whether it
is of class A, its OPEN hint, and the data it writes. -/
structure CelReq where
  addr  : Nat
  write : Bool
  clsA  : Bool
  hint  : Bool
  data  : BitVec 256
  deriving DecidableEq, Repr

/-- Who a read of a protected array serves (R525): a test or firmware read, the scrubber, or a Scull that reads original
samples, a search-cache line, provisional samples or context, its Larder context, or a reference; the packetiser or a decode
stream's staging; or the output of a decoded picture. -/
inductive Reader where
  | plain
  | scrub
  | samples (u : Fin 144)
  | cacheLine (u : Fin 144)
  | context (u : Fin 144)
  | larder (u : Fin 144)
  | reference (u : Fin 144)
  | packet (p : Fin 64)
  | staging (n : Fin 128) (pic row reg : Nat)
  | output (n : Fin 128) (pic : Nat)
  deriving DecidableEq, Repr

/-- A motion vector of a prediction block (R103): its list, the index of its reference in the list, its components in quarter luma
samples, and the prediction block of the CU that it serves. -/
structure CuMv where
  list : Fin 2
  ref  : Nat
  x    : Int
  y    : Int
  pb   : Fin 2
  deriving DecidableEq, Repr

/-- A multi-type split of VVC (R105) with the part it leads to. -/
inductive MtSplit where
  | binH (i : Fin 2)
  | binV (i : Fin 2)
  | terH (i : Fin 3)
  | terV (i : Fin 3)
  deriving DecidableEq, Repr

/-- A CU as Decide chose it (R93, R104, R105): its quadtree leaf within the CTU and the multi-type splits below it; whether it is
intra, its intra luma mode and, where it is split N x N, those of its other three blocks, its chroma mode (0 DM, 1 to 3 CCLM, 4 planar, 5 DC, 6 horizontal, 7
vertical); whether it is skipped, its merge index, its inter partition (0 2Nx2N, 1 2NxN, 2 Nx2N), its motion vectors and the
merge candidates that it has; the depth of its transform tree and log2 of its smallest and largest transform; and its levels:
those outside the DC coefficients (whether any is coded), and the DC levels. -/
structure CuCode where
  x      : Nat
  y      : Nat
  size   : Nat
  path   : List MtSplit
  intra  : Bool
  mode   : Nat
  nxn    : Option (Nat × Nat × Nat)
  chroma : Nat
  skip   : Bool
  merge  : Option Nat
  part   : Fin 3
  mvs    : List CuMv
  cands  : List (List CuMv)
  depth  : Nat
  tLo    : Nat
  tHi    : Nat
  ac     : Bool
  dc     : List Int
  deriving DecidableEq, Repr

/-- The coding of a CTU (R93, R104, R105): its CUs, the modes rough-costed and fully costed for its intra CUs, whether RDOQ was used,
SAO (0 off, 1 edge, 2 band), and the fixed ALF filter set. -/
structure CtuCode where
  cus   : List CuCode
  rough : Nat
  full  : Nat
  rdoq  : Bool
  sao   : Fin 3
  alf   : Option (Fin 16)
  deriving DecidableEq, Repr

/-- The conditions that a microword meets when it executes (R250-R259): the 64 condition inputs, of which the sequencer computes its own,
which of its units cannot accept a command in this cycle (bit 0 SRCH, 1 INTP, 2 XFM, 3 MDEC, 4 REC, 5 BOWQ, 6 LDR), the coding of the CTU
that a CTU_END ends, the estimated bits and the samples of the candidate that an MDEC command costs (R107), each sample with its plane and
place in the picture, and the samples of a plane that a REC command writes to the Rack, those of its CTU and those of the lines it completes
above (R98). -/
structure UCond where
  conds  : BitVec 64
  refuse : BitVec 7
  code   : Option CtuCode := none
  bits   : Nat := 0
  cand   : List (Nat × Nat × Nat × Nat) := []
  recon  : List Nat := []
  above  : List Nat := []
  deriving DecidableEq, Repr

/-- The home and shadow Crews that Cox firmware chooses for a stream at the basic level (R135, R155): the STRMn_SCHED fields,
and for a canvas the home Crew of each subpicture in order. -/
structure Homes where
  home    : Fin 4
  shadow0 : Fin 5
  shadow1 : Fin 5
  sub     : List (Fin 4)
  deriving DecidableEq, Repr

/-- The commands: the rows of the table of operations and events. -/
inductive Instr where
  | timeInit (w : Who) (d : Word)
  | timeStepGo (w : Who) (d : Word)
  | timeRateLoad (w : Who) (d : Word)
  | clksrcWrite (w : Who) (d : Word)
  | pllRelock
  | timeinLost
  | ppsInCapture
  | ppsOutRise
  | ppsOutFall
  | stroke (g : Fin 4)
  | strokeEnable (w : Who) (g : Fin 4) (d : Word)
  | strokeDisable (w : Who) (g : Fin 4) (d : Word)
  | timeNowRead (w : Who)
  | ppsSecRead (w : Who)
  | strokeIdxRead (w : Who) (g : Fin 4)
  | streamOpen (c : Cmd) (blk : HostRead) (homes : Homes)
  | allocationEnd (n : Fin 128)
  | streamClose (c : Cmd)
  | streamOff (n : Fin 128)
  | slotFree (n : Fin 128) (pic band : Nat)
  | feedCut (n : Fin 128) (pic band : Nat)
  | mediaFrameRx (p : Fin 64) (f : RxFrame)
  | queueWaitEnter (c : Fin 4)
  | jobTake (u : Fin 144)
  | jobComplete (u : Fin 144) (lc bytes : Nat) (concealed : Nat × Bool)
  | pictureRecordStage (n : Fin 128)
  | crewCeiling (c : Fin 4)
  | rowDeadline (n : Fin 128) (pic row : Nat)
  | seatWrite (w : Who) (c : Fin 4) (j : Fin 32) (d : Word)
  | crewOn (c : Fin 4)
  | crewOff (c : Fin 4)
  | admissionRerun (homes : List (Fin 128 × Homes))
  | leaseRequest (u : Fin 144) (ctxBins bypBins : Nat)
  | ctuCharge (u : Fin 144) (x bits : Nat)
  | rackSlotTake (n : Fin 128)
  | slotRetire (i : Fin 4096)
  | shelfRefill (n : Fin 128) (slots : List (Fin 4096))
  | decodeJobRelease (n : Fin 128) (pic row reg : Nat)
  | decodeInputCut (n : Fin 128) (pic row reg : Nat)
  | bowAheadDecode (n : Fin 128) (bytes : Nat) (wrote : Nat × Nat) (jobs : List (Nat × Nat × Nat))
  | uCont (u : Fin 144) (c : UCond)
  | uGoto (u : Fin 144) (c : UCond)
  | uCase (u : Fin 144) (c : UCond)
  | uCall (u : Fin 144) (c : UCond)
  | uRet (u : Fin 144) (c : UCond)
  | uLoop (u : Fin 144) (c : UCond)
  | uCtu (u : Fin 144) (c : UCond)
  | uEndj (u : Fin 144) (c : UCond)
  | uAbort (u : Fin 144) (c : UCond)
  | uMret (u : Fin 144) (c : UCond)
  | uIdle (u : Fin 144) (c : UCond)
  | trapEntry (u : Fin 144)
  | ucWaitTo (u : Fin 144)
  | preemptArrive (u : Fin 144)
  | residueVerdict (u : Fin 144) (real : Bool) (unit : Fin 3)
  | ucsCeWriteback (u : Fin 144) (a : BitVec 12)
  | ucsWordRepair (u : Fin 144)
  | selfTestStart (u : Fin 144)
  | ucsAddrWrite (w : Who) (u : Fin 144) (d : Word)
  | ucsData4Write (w : Who) (u : Fin 144) (d : Word)
  | ucsData4Read (w : Who) (u : Fin 144)
  | runWrite (w : Who) (u : Fin 144) (d : Word)
  | tmodeWrite (w : Who) (u : Fin 144) (d : Word)
  | sumGo (w : Who) (u : Fin 144) (d : Word)
  | sumDone (u : Fin 144)
  | ustartGo (w : Who) (u : Fin 144) (d : Word)
  | clxRead (r : ClxReq)
  | clxWrite (r : ClxReq)
  | clxBlockWrite (r : ClxReq)
  | fwPush (r : ClxReq)
  | fwVerifyDone
  | clxDoorbell (r : ClxReq)
  | clxWake (r : ClxReq)
  | resetReq (r : ClxReq)
  | clxPing (r : ClxReq)
  | cpArpReply (port : Fin 2) (target : BitVec 32) (mac : BitVec 48) (ip : BitVec 32)
  | pfcFrameRx (port : Fin 2) (prio : Fin 8) (pause : Bool)
  | qpCtlWrite (w : Who) (q : Fin 64) (d : Word)
  | qpAckTimeout (q : Fin 64)
  | qpNak (q : Fin 64) (code : Fin 3)
  | rocePacketRx (q : Fin 64) (k : RocePkt)
  | cnpReceive (q : Fin 64)
  | dcqcnRateTimer (q : Fin 64)
  | hwinCtlWrite (w : Who) (x : Fin 64) (d : Word)
  | ringCtlWrite (w : Who) (i : Fin 256) (d : Word)
  | rdmaDoorbell (q : Fin 64) (va : BitVec 64) (rkey : BitVec 32) (data : List Byte)
  | commandFetch (i : Fin 32)
  | commandFetchReturn (i : Fin 32) (entries : Option (List Desc))
  | ringWriteAck (i : Fin 256) (n : Nat) (ok : Bool)
  | feedSetAdd (c : Cmd)
  | feedSetChange (c : Cmd)
  | feedSetRemove (c : Cmd)
  | rateSet (c : Cmd)
  | keyReq (c : Cmd)
  | seiInsert (c : Cmd) (pay : HostRead)
  | prioSet (c : Cmd)
  | hold (c : Cmd)
  | release (c : Cmd)
  | subOpen (c : Cmd)
  | subClose (c : Cmd)
  | subOff (i : Fin 4096)
  | svcSet (c : Cmd)
  | hoistCopy (c : Cmd) (chan : Fin 192)
  | hoistFill (c : Cmd) (chan : Fin 192)
  | timeStep (c : Cmd)
  | timeStepInit (c : Cmd)
  | strokeSet (c : Cmd)
  | strokeSetDisable (c : Cmd)
  | ptpSet (c : Cmd)
  | unitEnable (c : Cmd)
  | unitDisable (c : Cmd)
  | celLaneRepairSet (c : Cmd)
  | celRecalSet (c : Cmd)
  | celRepairThresholdSet (c : Cmd)
  | scrubRateSet (c : Cmd)
  | scrubEnSet (c : Cmd)
  | gateEntrySet (c : Cmd)
  | gateListSet (c : Cmd)
  | gateArmSet (c : Cmd)
  | gateCancel (c : Cmd)
  | laneTapsSet (c : Cmd)
  | laneAdaptSet (c : Cmd)
  | laneAdaptRestart (c : Cmd)
  | tallyWinSet (c : Cmd)
  | tallyNsevSet (c : Cmd)
  | ucodeLoad (c : Cmd) (img : HostRead)
  | ucodeLoadDone
  | sleep (c : Cmd)
  | laneEnableReq (w : Who) (l : Fin 66) (d : Word)
  | laneDisableReq (w : Who) (l : Fin 66) (d : Word)
  | laneOn (l : Fin 66)
  | laneOff (l : Fin 66)
  | qmodeWrite (w : Who) (l : Fin 66) (d : Word)
  | laneCfgWrite (w : Who) (l : Fin 66) (d : Word)
  | blModeWrite (w : Who) (l : Fin 66) (d : Word)
  | loopbackSet (w : Who) (l : Fin 66) (d : Word)
  | anDone (l : Fin 66) (fec : Fin 3) (par : Bool)
  | trainDone (l : Fin 66) (pre main post : Nat)
  | blockLock (l : Fin 66) (slips : Nat)
  | laneBlLoss (l : Fin 66)
  | slip (w : Who) (l : Fin 66) (d : Word)
  | laneLos (l : Fin 66)
  | losDeassert (l : Fin 66)
  | laneLol (l : Fin 66)
  | lolDeassert (l : Fin 66)
  | fecUcw (l : Fin 66) (corr uncorr : Nat)
  | txDoze (w : Who) (l : Fin 66) (d : Word)
  | txWake (w : Who) (l : Fin 66) (d : Word)
  | rxDoze (w : Who) (l : Fin 66) (d : Word)
  | rxWake (w : Who) (l : Fin 66) (d : Word)
  | dozeTransitionDone (l : Fin 66) (rx : Bool)
  | txeqWrite (w : Who) (l : Fin 66) (d : Word)
  | adaptRestart (w : Who) (l : Fin 66) (d : Word)
  | adaptDone (l : Fin 66) (ctle : Fin 16)
  | prbsCtlWrite (w : Who) (l : Fin 66) (d : Word)
  | prbsInj (w : Who) (l : Fin 66) (d : Word)
  | prbsChkLock (l : Fin 66)
  | portEnableReq (w : Who) (p : Fin 64) (d : Word)
  | portDisableReq (w : Who) (p : Fin 64) (d : Word)
  | portOn (p : Fin 64)
  | portOff (p : Fin 64)
  | binPtr (p : Fin 64) (bin : Nat)
  | ptpRxBinRead (p : Fin 64)
  | ptpTxBinWrite (p : Fin 64) (data : List Byte)
  | tsbIdRead (w : Who) (p : Fin 64)
  | egressFrameStart (p : Fin 64)
  | frameStale (p : Fin 64)
  | shaperRefill
  | gateEntry (p : Fin 64)
  | gateTakeover (p : Fin 64)
  | gateArm (w : Who) (p : Fin 64) (d : Word)
  | hoistChEnableReq (w : Who) (h : Fin 4) (c : Fin 64) (d : Word)
  | hoistChDisableReq (w : Who) (h : Fin 4) (c : Fin 64) (d : Word)
  | hoistChOn (h : Fin 4) (c : Fin 64)
  | hoistChOff (h : Fin 4) (c : Fin 64)
  | hoistGo (w : Who) (h : Fin 4) (c : Fin 64) (d : Word)
  | hoistEntryFetch (h : Fin 4) (c : Fin 64) (e : List Byte)
  | hoistBurstStart (h : Fin 4) (req : List (Fin 64)) (data : List Byte)
  | hoistBurstDone (h : Fin 4) (c : Fin 64)
  | hoistBuserr (h : Fin 4) (c : Fin 64) (cause : Fin 8) (addr : BitVec 48)
  | hoistTargetTimeout (h : Fin 4) (c : Fin 64) (addr : BitVec 48)
  | hoistPoison (h : Fin 4) (c : Fin 64) (addr : BitVec 48) (entry : Bool)
  | hoistResume (w : Who) (h : Fin 4) (d : Word)
  | hoistFwResume (h : Fin 4)
  | cellarRequestIssue (k : Fin 2) (p : Fin 32) (arr : List CelReq)
  | arrayReadReturn (fam : Fin 5) (addr : Nat) (r : Reader)
  | cellarRefresh (k : Fin 2)
  | cellarTempReading (k : Fin 2) (t : Int)
  | cellarPowerDown (k : Fin 2) (p : Fin 32)
  | cellarPdWake (k : Fin 2) (p : Fin 32)
  | rowCloseTimeout (k : Fin 2) (p : Fin 32)
  | trnGo (w : Who) (k : Fin 2) (d : Word)
  | trnDone (k : Fin 2) (errs : List Nat)
  | mrwGo (w : Who) (k : Fin 2) (d : Word)
  | repairWrite (w : Who) (k : Fin 2) (ca : Bool) (i : Fin 32) (d : Word)
  | trafficEnWrite (w : Who) (k : Fin 2) (d : Word)
  | celPll (k : Fin 2)
  | scrubCtlWrite (w : Who) (d : Word)
  | scrubRead
  | walkerRead (fam : Fin 5) (addr : Nat)
  | flipArm (w : Who) (f : Fin 5) (d : Word)
  | flipClr (w : Who) (f : Fin 5) (d : Word)
  | chkInjArm (w : Who) (d : Word)
  | ldrDataWrite (w : Who) (c : Fin 4) (d : Word)
  | ldrDataRead (w : Who) (c : Fin 4)
  | slideCrc (link : Fin 50) (second real : Bool)
  | queuePar (p : Fin 64) (real : Bool)
  | tallyMessage
  | tallyWindowStart (c : Fin 8)
  | tallyAck (w : Who) (d : Word)
  | tallySevClear (w : Who) (i : Fin 128) (d : Word)
  | thermSecond
  | evcClaim (t : Fin 8)
  | evcClaimRead (w : Who) (t : Fin 4)
  | evcDoneWrite (w : Who) (t : Fin 4) (d : Word)
  | evcTimer (i : Fin 4)
  | evtInFilter (i : Fin 16) (level : Bool)
  | evtInCfgWrite (w : Who) (i : Fin 16) (d : Word)
  | holdOffExpiry (g : Fin 64) (t : Fin 8)
  | evcPreemptWrite (w : Who) (d : Word)
  | evcPendClear (w : Who) (i : Fin 32) (d : Word)
  | evcTgtWrite (w : Who) (n : Fin 1024) (d : Word)
  | pdEnableReq (w : Who) (n : Fin 72) (d : Word)
  | pdDisableReq (w : Who) (n : Fin 72) (d : Word)
  | pdOn (n : Fin 72)
  | pdOff (n : Fin 72)
  | poreset
  | resetN
  | clxReset
  | ready
  | swapStart
  | swapRevert
  | sleepCommit
  | mooredReached
  | wakeNFall
  | ptpAlarm
  | wakeReady
  | thermalSample (temps : List Int)
  | railSample (mv : List Nat)
  | avsLoop (counts : List Nat)
  | pmbAlert (status : BitVec 16)
  | handWrite (w : Who) (d : Word)
  | mgmtRegisterWrite (w : Who) (a : BitVec 32) (d : Word)
  | poresetNRelease (straps : BitVec 4)
  | warmResetEnd
  | wakeNRelease
  | swapResume
  | recalibrationRound (k : Fin 2)
  | tallySweepEnd
  deriving DecidableEq, Repr

end Sys2Proof
end

