-- ==== Sys2Proof/Decode.lean ====
section
/-!
DEFINITION. The words of the table: no row of the table of operations and events gives bits (every row's list of fields is
empty), because the commands come from outside as writes, reads, events and ring descriptors. No word spells a command.
-/
namespace Sys2Proof

/-- The command that a word spells by the table's bits: none, since the table gives no row any bits. -/
def decodeTableWord (_nbits _w : Nat) : Option Instr := none

end Sys2Proof
end

