-- ==== Sys2Proof/Config.lean ====
section
/-!
DEFINITION. What one part or one factory setting fixes, and the free values: constants without a body, of which no proof can
see a value. eFuse contents are the factory's (R651), the keyed and signed checks are those of the named standards, which the
manual does not restate (00, Out of scope), and `freeValue` stands wherever the spec states no value.
-/
namespace Sys2Proof.Config

/-- The eFuse value of the register at an address (R651): the manual gives its form, not its value. UNVERIFIED (log 4), safe: free. -/
opaque efuse : Nat → BitVec 32

/-- A value the spec leaves open, `w` bits wide; the argument is the draw's number (State.freeCtr). Safe: free. -/
opaque freeValue : (w : Nat) → Nat → BitVec w

/-- The management key in eFuse (R289). Safe: free. -/
opaque mgmtKey : BitVec 256

/-- The hash of the image key in eFuse (R298). Safe: free. -/
opaque keyHash : BitVec 384

/-- The level tables of the standards (R66, R69, R218, R434): for VVC or HEVC, a level and an item, which is 0 the largest picture size, 1 the largest
width and height, 2 the largest luma sample rate, 3 and 4 MaxBR of Main and High tier, 5 and 6 MaxCPB, 7 the slices per picture, 8 the
tile columns, 9 the tiles. The manual names the tables and does not restate them. Safe: free. -/
opaque levelLimit : Bool → Nat → Nat → Nat

/-- The VCL factor of a profile (R66), the standards'. Safe: free. -/
opaque vclFactor : Nat → Nat

/-- The largest number of tile or subpicture columns that a level allows in a picture of a width (R653); the standard's
table. Safe: free. -/
opaque levelMaxCols : Nat → Nat → Nat → Nat

/-- The lengths of the Larder's templates (R177), by stream parameters' digest: at 0 the longest slice header's in bits, from 8 on
those of the other NAL units in bytes. The templates are firmware's. Safe: free. -/
opaque overheadBits : Nat → List Nat → Nat

/-- The update of LA in R189 to the register's 16 fraction bits, by draw: the spec states no rounding. Safe: free. -/
opaque laRound : Nat → Int

/-- The fixed prediction of R185 at a place of a picture, as stream, picture, plane, column and line: what DC intra predicts there, or a sample of a reference
that is not written yet. Safe: free. -/
opaque dcPred : List Nat → Nat

/-- A sample of input staging that nothing has written, by stream, picture, plane, column and line. Safe: free. -/
opaque staged : List Nat → Nat

/-- What a codeword of an array holds before anything has written it (R531): data at an even argument, check bits at the odd
one after it. Safe: free. -/
opaque powerUp : Nat → Nat

/-- The word at an address of the vendor's microcode image, which firmware loads at boot (R279): 144 bits. Safe: free. -/
opaque vendorWord : Nat → BitVec 144

/-- The data lane or check lane of a burst that carries a bit of a granule (R491, R510): the spec fixes the lanes of data and
of check bits, not each bit's. Safe: free. -/
opaque cellarLane : Nat → Nat

/-- The bank of a row of a pseudo-channel (R490): the mapping is not part of the product. Safe: free. -/
opaque cellarBank : Nat → Nat

/-- A byte of a slot's packed planes where no sample has been written since the slot was taken, by the number of its taking and its place. Safe: free. -/
opaque slotByte : Nat → Nat → BitVec 8

/-- A sample of a slot where none has been written since the slot was taken, by the number of its taking, plane, column and line. Safe: free. -/
opaque slotSample : List Nat → Nat

/-- The granules that a block of samples takes when compressed (R199): the compression is not part of the product. Safe: free. -/
opaque packedLen : List Nat → Nat

/-- The line pitch and the CTU step of an address generator's window (R251), by the stream, the window and which of the two. -/
opaque aguStep : List Nat → BitVec 32

/-- The bytes that a syntax record of a BOWQ type takes in the queue (R101, R252): the spec gives no size. Safe: free. -/
opaque recordBytes : Nat → BitVec 12

end Sys2Proof.Config
end

