-- ==== Sys2Proof/Machine/Regs.lean ====
section
/-!
DEFINITION. The names of the management registers and of their fields, as the chapters' register tables give them
(R60, R61, R91, R92, R128, R163-R165, R196, R215-R217, R247, R282, R324-R327, R397, R429, R455-R458, R486, R487, R518,
R545, R568, R584, R613, R614, R625; the block bases are R615's). `A.<register>` is an address; `R.<register>_<field>`
is one field: its register's address, its lowest bit and its width.
-/

namespace Sys2Proof.Machine

namespace A
/-- R60. -/ abbrev TIME_CTL : Nat := 0x30000
/-- R60. -/ abbrev TIME_STAT : Nat := 0x30004
/-- R60. -/ abbrev TIME_NOW_SECL : Nat := 0x30010
/-- R60. -/ abbrev TIME_NOW_SECH : Nat := 0x30014
/-- R60. -/ abbrev TIME_NOW_NS : Nat := 0x30018
/-- R60. -/ abbrev TIME_NOW_FRAC : Nat := 0x3001C
/-- R60. -/ abbrev TIME_STEP_SECL : Nat := 0x30020
/-- R60. -/ abbrev TIME_STEP_SECH : Nat := 0x30024
/-- R60. -/ abbrev TIME_STEP_NS : Nat := 0x30028
/-- R60. -/ abbrev TIME_RATE_L : Nat := 0x30030
/-- R60. -/ abbrev TIME_RATE_H : Nat := 0x30034
/-- R60. -/ abbrev TIME_PPS_SEC : Nat := 0x30040
/-- R60. -/ abbrev TIME_PPS_NS : Nat := 0x30044
/-- R60. -/ abbrev TIME_PPSO_WIDTH : Nat := 0x30048
/-- R61. -/ abbrev STRKg_CTL (g : Nat) : Nat := 0x30100 + g * 0x40
/-- R61. -/ abbrev STRKg_PNUM (g : Nat) : Nat := 0x30104 + g * 0x40
/-- R61. -/ abbrev STRKg_PDEN (g : Nat) : Nat := 0x30108 + g * 0x40
/-- R61. -/ abbrev STRKg_PHASE (g : Nat) : Nat := 0x3010C + g * 0x40
/-- R61. -/ abbrev STRKg_IDX_L (g : Nat) : Nat := 0x30110 + g * 0x40
/-- R61. -/ abbrev STRKg_IDX_H (g : Nat) : Nat := 0x30114 + g * 0x40
/-- R61. -/ abbrev STRKg_LAST_NS (g : Nat) : Nat := 0x30118 + g * 0x40
/-- R91. -/ abbrev STRMn_STATE (n : Nat) : Nat := 0x320000 + n * 0x200
/-- R91. -/ abbrev STRMn_EPOCH (n : Nat) : Nat := 0x320004 + n * 0x200
/-- R91. -/ abbrev STRMn_KOPEN (n : Nat) : Nat := 0x320008 + n * 0x200
/-- R92. -/ abbrev FEEDf_EARLY (f : Nat) : Nat := 0x341000 + f * 0x10
/-- R92. -/ abbrev FEEDf_LATE (f : Nat) : Nat := 0x341004 + f * 0x10
/-- R92. -/ abbrev FEEDf_FILLED (f : Nat) : Nat := 0x341008 + f * 0x10
/-- R128. -/ abbrev STRMn_REFRESH (n : Nat) : Nat := 0x320010 + n * 0x200
/-- R128. -/ abbrev STRMn_KEYS (n : Nat) : Nat := 0x320014 + n * 0x200
/-- R163. -/ abbrev CREWc_CTL (c : Nat) : Nat := 0x100000 + c * 0x10000
/-- R163. -/ abbrev CREWc_STAT (c : Nat) : Nat := 0x100004 + c * 0x10000
/-- R163. -/ abbrev CREWc_QSTAT (c : Nat) : Nat := 0x100008 + c * 0x10000
/-- R163. -/ abbrev CREWc_GUARD (c : Nat) : Nat := 0x100010 + c * 0x10000
/-- R163. -/ abbrev CREWc_HORIZON (c : Nat) : Nat := 0x100014 + c * 0x10000
/-- R163. -/ abbrev CREWc_RETIRE (c : Nat) : Nat := 0x100018 + c * 0x10000
/-- R163. -/ abbrev CREWc_LATE (c : Nat) : Nat := 0x100020 + c * 0x10000
/-- R163. -/ abbrev CREWc_STEALS (c : Nat) : Nat := 0x100024 + c * 0x10000
/-- R163. -/ abbrev CREWc_QFULL (c : Nat) : Nat := 0x100028 + c * 0x10000
/-- R163. -/ abbrev CREWc_LDR_CARRY (c : Nat) : Nat := 0x10002C + c * 0x10000
/-- R163. -/ abbrev CREWc_STATE (c : Nat) : Nat := 0x100030 + c * 0x10000
/-- R163. -/ abbrev CREWc_EPOCH (c : Nat) : Nat := 0x100034 + c * 0x10000
/-- R163. -/ abbrev CREWc_SEATj (c j : Nat) : Nat := 0x100080 + c * 0x10000 + j * 0x4
/-- R163. -/ abbrev CREWc_SCULLq (c q : Nat) : Nat := 0x100100 + c * 0x10000 + q * 0x4
/-- R163. -/ abbrev CREWc_LDR_ADDR (c : Nat) : Nat := 0x100300 + c * 0x10000
/-- R163. -/ abbrev CREWc_LDR_DATA (c : Nat) : Nat := 0x100304 + c * 0x10000
/-- R163. -/ abbrev CREWc_LDR_SLOTs (c s : Nat) : Nat := 0x100400 + c * 0x10000 + s * 0x4
/-- R164. -/ abbrev STRMn_SCHED (n : Nat) : Nat := 0x320018 + n * 0x200
/-- R164. -/ abbrev STRMn_LATE (n : Nat) : Nat := 0x32001C + n * 0x200
/-- R165. -/ abbrev CNVv_HOMEw (v w : Nat) : Nat := 0x344000 + v * 0x80 + w * 0x4
/-- R196. -/ abbrev RRCn_CTL (n : Nat) : Nat := 0x300000 + n * 0x100
/-- R196. -/ abbrev RRCn_RATE (n : Nat) : Nat := 0x300004 + n * 0x100
/-- R196. -/ abbrev RRCn_RMAX (n : Nat) : Nat := 0x300008 + n * 0x100
/-- R196. -/ abbrev RRCn_BUF (n : Nat) : Nat := 0x30000C + n * 0x100
/-- R196. -/ abbrev RRCn_QP (n : Nat) : Nat := 0x300010 + n * 0x100
/-- R196. -/ abbrev RRCn_KEY (n : Nat) : Nat := 0x300014 + n * 0x100
/-- R196. -/ abbrev RRCn_MARGIN (n : Nat) : Nat := 0x300018 + n * 0x100
/-- R196. -/ abbrev RRCn_SLICE (n : Nat) : Nat := 0x30001C + n * 0x100
/-- R196. -/ abbrev RRCn_ALPHA_P (n : Nat) : Nat := 0x300020 + n * 0x100
/-- R196. -/ abbrev RRCn_ALPHA_I (n : Nat) : Nat := 0x300024 + n * 0x100
/-- R196. -/ abbrev RRCn_MODEL (n : Nat) : Nat := 0x300028 + n * 0x100
/-- R196. -/ abbrev RRCn_OCC (n : Nat) : Nat := 0x300030 + n * 0x100
/-- R196. -/ abbrev RRCn_DEBT (n : Nat) : Nat := 0x300034 + n * 0x100
/-- R196. -/ abbrev RRCn_LOAN (n : Nat) : Nat := 0x300038 + n * 0x100
/-- R196. -/ abbrev RRCn_FREE (n : Nat) : Nat := 0x30003C + n * 0x100
/-- R196. -/ abbrev RRCn_STAT (n : Nat) : Nat := 0x300040 + n * 0x100
/-- R196. -/ abbrev RRCn_FLOORS (n : Nat) : Nat := 0x300044 + n * 0x100
/-- R196. -/ abbrev RRCn_NOLOAN (n : Nat) : Nat := 0x300048 + n * 0x100
/-- R196. -/ abbrev RRCn_SEIDEFER (n : Nat) : Nat := 0x30004C + n * 0x100
/-- R196. -/ abbrev RRCn_OVHMAX (n : Nat) : Nat := 0x300050 + n * 0x100
/-- R196. -/ abbrev RRCn_OVHMIN (n : Nat) : Nat := 0x300054 + n * 0x100
/-- R215. -/ abbrev RACK_CTL : Nat := 0x310000
/-- R215. -/ abbrev RACK_STAT : Nat := 0x310004
/-- R215. -/ abbrev RACK_LOST : Nat := 0x310008
/-- R215. -/ abbrev RACK_FREE : Nat := 0x31000C
/-- R216. -/ abbrev SHLFn_CFG (n : Nat) : Nat := 0x310800 + n * 0x10
/-- R216. -/ abbrev SHLFn_SLOTSZ (n : Nat) : Nat := 0x310804 + n * 0x10
/-- R216. -/ abbrev SHLFn_HOLD (n : Nat) : Nat := 0x310808 + n * 0x10
/-- R216. -/ abbrev SHLFn_STAT (n : Nat) : Nat := 0x31080C + n * 0x10
/-- R217. -/ abbrev SLOTs_ADDR (s : Nat) : Nat := 0x318000 + s * 0x8
/-- R217. -/ abbrev SLOTs_MARK (s : Nat) : Nat := 0x318004 + s * 0x8
/-- R247. -/ abbrev STRMn_DCTL (n : Nat) : Nat := 0x320040 + n * 0x200
/-- R247. -/ abbrev STRMn_DSTAT (n : Nat) : Nat := 0x320044 + n * 0x200
/-- R247. -/ abbrev STRMn_DCONC (n : Nat) : Nat := 0x320048 + n * 0x200
/-- R247. -/ abbrev STRMn_DSEGS (n : Nat) : Nat := 0x32004C + n * 0x200
/-- R247. -/ abbrev STRMn_DSUBS (n : Nat) : Nat := 0x320050 + n * 0x200
/-- R247. -/ abbrev STRMn_DNOAU (n : Nat) : Nat := 0x320054 + n * 0x200
/-- R247. -/ abbrev STRMn_DLATE (n : Nat) : Nat := 0x320058 + n * 0x200
/-- R247. -/ abbrev STRMn_DDROP (n : Nat) : Nat := 0x32005C + n * 0x200
/-- R282. -/ abbrev UCTL (u : Nat) : Nat := 0x200000 + u * 0x1000
/-- R282. -/ abbrev USTAT (u : Nat) : Nat := 0x200004 + u * 0x1000
/-- R282. -/ abbrev USTART (u : Nat) : Nat := 0x200008 + u * 0x1000
/-- R282. -/ abbrev UCS_ADDR (u : Nat) : Nat := 0x200010 + u * 0x1000
/-- R282. -/ abbrev UCS_DATA0 (u : Nat) : Nat := 0x200014 + u * 0x1000
/-- R282. -/ abbrev UCS_DATA1 (u : Nat) : Nat := 0x200018 + u * 0x1000
/-- R282. -/ abbrev UCS_DATA2 (u : Nat) : Nat := 0x20001C + u * 0x1000
/-- R282. -/ abbrev UCS_DATA3 (u : Nat) : Nat := 0x200020 + u * 0x1000
/-- R282. -/ abbrev UCS_DATA4 (u : Nat) : Nat := 0x200024 + u * 0x1000
/-- R282. -/ abbrev UCS_SUM (u : Nat) : Nat := 0x200028 + u * 0x1000
/-- R282. -/ abbrev UCS_BADADDR (u : Nat) : Nat := 0x20002C + u * 0x1000
/-- R282. -/ abbrev UTRAP_CAUSE (u : Nat) : Nat := 0x200040 + u * 0x1000
/-- R282. -/ abbrev UTRAP_UPC (u : Nat) : Nat := 0x200044 + u * 0x1000
/-- R282. -/ abbrev UTRAP_LC01 (u : Nat) : Nat := 0x200048 + u * 0x1000
/-- R282. -/ abbrev UTRAP_LC2 (u : Nat) : Nat := 0x20004C + u * 0x1000
/-- R282. -/ abbrev UTRAP_CONDL (u : Nat) : Nat := 0x200050 + u * 0x1000
/-- R282. -/ abbrev UTRAP_CONDH (u : Nat) : Nat := 0x200054 + u * 0x1000
/-- R282. -/ abbrev UTRAP_AGU0 (u : Nat) : Nat := 0x200058 + u * 0x1000
/-- R282. -/ abbrev UTRAP_AGU1 (u : Nat) : Nat := 0x20005C + u * 0x1000
/-- R282. -/ abbrev UTRAP_TOKEN (u : Nat) : Nat := 0x200060 + u * 0x1000
/-- R324. -/ abbrev HOST_CTL : Nat := 0x60000
/-- R324. -/ abbrev HOST_STAT : Nat := 0x60004
/-- R324. -/ abbrev HOST_UDP : Nat := 0x60008
/-- R324. -/ abbrev HOST_MGMTSEQ0 : Nat := 0x60010
/-- R324. -/ abbrev HOST_MGMTSEQ1 : Nat := 0x60014
/-- R324. -/ abbrev HOST_AUTHFAIL : Nat := 0x60020
/-- R324. -/ abbrev HOST_SEQERR : Nat := 0x60024
/-- R324. -/ abbrev HOST_DBSTALE : Nat := 0x60028
/-- R324. -/ abbrev HOST_DBBAD : Nat := 0x6002C
/-- R324. -/ abbrev HOST_EVLOST : Nat := 0x60030
/-- R324. -/ abbrev HOST_STLOST : Nat := 0x60034
/-- R324. -/ abbrev HOST_DB_RKEY : Nat := 0x60040
/-- R324. -/ abbrev HOST_IP0 : Nat := 0x60044
/-- R324. -/ abbrev HOST_IP1 : Nat := 0x60048
/-- R324. -/ abbrev HOST_MAC0_L : Nat := 0x60050
/-- R324. -/ abbrev HOST_MAC1_L : Nat := 0x60058
/-- R324. -/ abbrev HOST_MAC0_H : Nat := 0x60054
/-- R324. -/ abbrev HOST_MAC1_H : Nat := 0x6005C
/-- R325. -/ abbrev QPq_CTL (q : Nat) : Nat := 0x61000 + q * 0x40
/-- R325. -/ abbrev QPq_STAT (q : Nat) : Nat := 0x61004 + q * 0x40
/-- R325. -/ abbrev QPq_RQPN (q : Nat) : Nat := 0x61008 + q * 0x40
/-- R325. -/ abbrev QPq_SPSN (q : Nat) : Nat := 0x6100C + q * 0x40
/-- R325. -/ abbrev QPq_EPSN (q : Nat) : Nat := 0x61010 + q * 0x40
/-- R325. -/ abbrev QPq_DIP (q : Nat) : Nat := 0x61014 + q * 0x40
/-- R325. -/ abbrev QPq_DMAC_L (q : Nat) : Nat := 0x61018 + q * 0x40
/-- R325. -/ abbrev QPq_DMAC_H (q : Nat) : Nat := 0x6101C + q * 0x40
/-- R326. -/ abbrev HWINw_CTL (w : Nat) : Nat := 0x62000 + w * 0x20
/-- R326. -/ abbrev HWINw_BASE (w : Nat) : Nat := 0x62004 + w * 0x20
/-- R326. -/ abbrev HWINw_SIZE (w : Nat) : Nat := 0x62008 + w * 0x20
/-- R326. -/ abbrev HWINw_RKEY (w : Nat) : Nat := 0x6200C + w * 0x20
/-- R326. -/ abbrev HWINw_RVA_L (w : Nat) : Nat := 0x62010 + w * 0x20
/-- R326. -/ abbrev HWINw_RVA_H (w : Nat) : Nat := 0x62014 + w * 0x20
/-- R327. -/ abbrev RINGi_CTL (i : Nat) : Nat := 0x64000 + i * 0x20
/-- R327. -/ abbrev RINGi_EPOCH (i : Nat) : Nat := 0x64004 + i * 0x20
/-- R327. -/ abbrev RINGi_PI (i : Nat) : Nat := 0x64008 + i * 0x20
/-- R327. -/ abbrev RINGi_CI (i : Nat) : Nat := 0x6400C + i * 0x20
/-- R327. -/ abbrev RINGi_ADDR_L (i : Nat) : Nat := 0x64010 + i * 0x20
/-- R327. -/ abbrev RINGi_SHAD_L (i : Nat) : Nat := 0x64018 + i * 0x20
/-- R327. -/ abbrev RINGi_ADDR_H (i : Nat) : Nat := 0x64014 + i * 0x20
/-- R327. -/ abbrev RINGi_SHAD_H (i : Nat) : Nat := 0x6401C + i * 0x20
/-- R397. -/ abbrev LANEl_STATE (l : Nat) : Nat := 0x400000 + l * 0x400
/-- R397. -/ abbrev LANEl_EPOCH (l : Nat) : Nat := 0x400004 + l * 0x400
/-- R397. -/ abbrev LANEl_CFG (l : Nat) : Nat := 0x400008 + l * 0x400
/-- R397. -/ abbrev LANEl_QMODE (l : Nat) : Nat := 0x40000C + l * 0x400
/-- R397. -/ abbrev LANEl_STAT (l : Nat) : Nat := 0x400010 + l * 0x400
/-- R397. -/ abbrev LANEl_DOZE (l : Nat) : Nat := 0x400014 + l * 0x400
/-- R397. -/ abbrev LANEl_TXEQ (l : Nat) : Nat := 0x400020 + l * 0x400
/-- R397. -/ abbrev LANEl_RXEQ (l : Nat) : Nat := 0x400024 + l * 0x400
/-- R397. -/ abbrev LANEl_EQ_STAT (l : Nat) : Nat := 0x400028 + l * 0x400
/-- R397. -/ abbrev LANEl_BL_CTL (l : Nat) : Nat := 0x400030 + l * 0x400
/-- R397. -/ abbrev LANEl_BL_STAT (l : Nat) : Nat := 0x400034 + l * 0x400
/-- R397. -/ abbrev LANEl_LOS_CFG (l : Nat) : Nat := 0x400038 + l * 0x400
/-- R397. -/ abbrev LANEl_PRBS_CTL (l : Nat) : Nat := 0x400040 + l * 0x400
/-- R397. -/ abbrev LANEl_PRBS_STAT (l : Nat) : Nat := 0x400044 + l * 0x400
/-- R397. -/ abbrev LANEl_PRBS_ERR (l : Nat) : Nat := 0x400048 + l * 0x400
/-- R397. -/ abbrev LANEl_FEC_CORR (l : Nat) : Nat := 0x40004C + l * 0x400
/-- R397. -/ abbrev LANEl_FEC_UNCORR (l : Nat) : Nat := 0x400050 + l * 0x400
/-- R397. -/ abbrev LANEl_BL_LOSSES (l : Nat) : Nat := 0x400054 + l * 0x400
/-- R429. -/ abbrev PORTp_STATE (p : Nat) : Nat := 0x500000 + p * 0x2000
/-- R429. -/ abbrev PORTp_EPOCH (p : Nat) : Nat := 0x500004 + p * 0x2000
/-- R429. -/ abbrev PORTp_CFG (p : Nat) : Nat := 0x500008 + p * 0x2000
/-- R429. -/ abbrev PORTp_QOS (p : Nat) : Nat := 0x50000C + p * 0x2000
/-- R429. -/ abbrev PORTp_MAC_L (p : Nat) : Nat := 0x500010 + p * 0x2000
/-- R429. -/ abbrev PORTp_MAC_H (p : Nat) : Nat := 0x500014 + p * 0x2000
/-- R429. -/ abbrev PORTp_IP (p : Nat) : Nat := 0x500018 + p * 0x2000
/-- R429. -/ abbrev PORTp_NH_L (p : Nat) : Nat := 0x500020 + p * 0x2000
/-- R429. -/ abbrev PORTp_NH_H (p : Nat) : Nat := 0x500024 + p * 0x2000
/-- R429. -/ abbrev PORTp_PTP (p : Nat) : Nat := 0x500030 + p * 0x2000
/-- R429. -/ abbrev PORTp_TS_ADJ (p : Nat) : Nat := 0x500034 + p * 0x2000
/-- R429. -/ abbrev PORTp_TSB_STAT (p : Nat) : Nat := 0x500080 + p * 0x2000
/-- R429. -/ abbrev PORTp_TSB_ID (p : Nat) : Nat := 0x500084 + p * 0x2000
/-- R429. -/ abbrev PORTp_TSB_SECL (p : Nat) : Nat := 0x500088 + p * 0x2000
/-- R429. -/ abbrev PORTp_TSB_SECH (p : Nat) : Nat := 0x50008C + p * 0x2000
/-- R429. -/ abbrev PORTp_TSB_NS (p : Nat) : Nat := 0x500090 + p * 0x2000
/-- R429. -/ abbrev PORTp_TSB_FRAC (p : Nat) : Nat := 0x500094 + p * 0x2000
/-- R429. -/ abbrev PORTp_RX_FRAMES (p : Nat) : Nat := 0x500100 + p * 0x2000
/-- R429. -/ abbrev PORTp_RX_BAD (p : Nat) : Nat := 0x500104 + p * 0x2000
/-- R429. -/ abbrev PORTp_RX_UNMATCHED (p : Nat) : Nat := 0x500108 + p * 0x2000
/-- R429. -/ abbrev PORTp_RX_LOST (p : Nat) : Nat := 0x50010C + p * 0x2000
/-- R429. -/ abbrev PORTp_MERGE_DUP (p : Nat) : Nat := 0x500110 + p * 0x2000
/-- R429. -/ abbrev PORTp_MERGE_SAVE (p : Nat) : Nat := 0x500114 + p * 0x2000
/-- R429. -/ abbrev PORTp_TSB_LOST (p : Nat) : Nat := 0x500118 + p * 0x2000
/-- R429. -/ abbrev PORTp_PTP_LOST (p : Nat) : Nat := 0x50011C + p * 0x2000
/-- R429. -/ abbrev PORTp_TX_FRAMES (p : Nat) : Nat := 0x500120 + p * 0x2000
/-- R455. -/ abbrev EGRp_RATE (p : Nat) : Nat := 0x600000 + p * 0x2000
/-- R455. -/ abbrev EGRp_BURST (p : Nat) : Nat := 0x600004 + p * 0x2000
/-- R455. -/ abbrev EGRp_CLS (p : Nat) : Nat := 0x600008 + p * 0x2000
/-- R455. -/ abbrev EGRp_GCTL (p : Nat) : Nat := 0x600010 + p * 0x2000
/-- R455. -/ abbrev EGRp_GSTAT (p : Nat) : Nat := 0x600014 + p * 0x2000
/-- R455. -/ abbrev EGRp_TAKE_L (p : Nat) : Nat := 0x600018 + p * 0x2000
/-- R455. -/ abbrev EGRp_TAKE_H (p : Nat) : Nat := 0x60001C + p * 0x2000
/-- R455. -/ abbrev EGRp_OVERSIZE (p : Nat) : Nat := 0x600020 + p * 0x2000
/-- R455. -/ abbrev EGRp_STALE (p : Nat) : Nat := 0x600024 + p * 0x2000
/-- R455. -/ abbrev EGRp_GCLb_i (p b i : Nat) : Nat := 0x601000 + p * 0x2000 + b * 0x800 + i * 0x8
/-- R455. -/ abbrev EGRp_GCLb_i_DUR (p b i : Nat) : Nat := 0x601004 + p * 0x2000 + b * 0x800 + i * 0x8
/-- R456. -/ abbrev EGR_SUBs_STATE (s : Nat) : Nat := 0x680000 + s * 0x10
/-- R456. -/ abbrev EGR_SUBs_EPOCH (s : Nat) : Nat := 0x680004 + s * 0x10
/-- R456. -/ abbrev EGR_SUBs_RATE (s : Nat) : Nat := 0x680008 + s * 0x10
/-- R456. -/ abbrev EGR_SUBs_BURST (s : Nat) : Nat := 0x68000C + s * 0x10
/-- R457. -/ abbrev EGR_SVCs_v_CFG (s v : Nat) : Nat := 0x6A0000 + s * 0x40 + v * 0x10
/-- R457. -/ abbrev EGR_SVCs_v_RATE (s v : Nat) : Nat := 0x6A0004 + s * 0x40 + v * 0x10
/-- R457. -/ abbrev EGR_SVCs_v_BURST (s v : Nat) : Nat := 0x6A0008 + s * 0x40 + v * 0x10
/-- R458. -/ abbrev SPX_CTL : Nat := 0x700000
/-- R458. -/ abbrev SPX_CNVv_SUBBR (v : Nat) : Nat := 0x700100 + v * 0x4
/-- R458. -/ abbrev SPX_SUBs_CFG (s : Nat) : Nat := 0x701000 + s * 0x10
/-- R458. -/ abbrev SPX_SUBs_DONDIFF (s : Nat) : Nat := 0x701004 + s * 0x10
/-- R458. -/ abbrev SPX_SUBs_HRDOVER (s : Nat) : Nat := 0x701008 + s * 0x10
/-- R458. -/ abbrev SPX_SUBs_DROP (s : Nat) : Nat := 0x70100C + s * 0x10
/-- R486. -/ abbrev HOISTh_CTL (h : Nat) : Nat := 0x80000 + h * 0x4000
/-- R486. -/ abbrev HOISTh_STAT (h : Nat) : Nat := 0x80004 + h * 0x4000
/-- R486. -/ abbrev HOISTh_ERR_L (h : Nat) : Nat := 0x80008 + h * 0x4000
/-- R486. -/ abbrev HOISTh_ERR_H (h : Nat) : Nat := 0x8000C + h * 0x4000
/-- R486. -/ abbrev HOISTh_STOPS (h : Nat) : Nat := 0x80010 + h * 0x4000
/-- R487. -/ abbrev HOISTh_CHc_STATE (h c : Nat) : Nat := 0x81000 + h * 0x4000 + c * 0x40
/-- R487. -/ abbrev HOISTh_CHc_EPOCH (h c : Nat) : Nat := 0x81004 + h * 0x4000 + c * 0x40
/-- R487. -/ abbrev HOISTh_CHc_CFG (h c : Nat) : Nat := 0x81008 + h * 0x4000 + c * 0x40
/-- R487. -/ abbrev HOISTh_CHc_DMAX (h c : Nat) : Nat := 0x8100C + h * 0x4000 + c * 0x40
/-- R487. -/ abbrev HOISTh_CHc_LIST_L (h c : Nat) : Nat := 0x81010 + h * 0x4000 + c * 0x40
/-- R487. -/ abbrev HOISTh_CHc_LIST_H (h c : Nat) : Nat := 0x81014 + h * 0x4000 + c * 0x40
/-- R487. -/ abbrev HOISTh_CHc_CTL (h c : Nat) : Nat := 0x81018 + h * 0x4000 + c * 0x40
/-- R487. -/ abbrev HOISTh_CHc_STAT (h c : Nat) : Nat := 0x8101C + h * 0x4000 + c * 0x40
/-- R487. -/ abbrev HOISTh_CHc_BYTES_L (h c : Nat) : Nat := 0x81020 + h * 0x4000 + c * 0x40
/-- R487. -/ abbrev HOISTh_CHc_BYTES_H (h c : Nat) : Nat := 0x81024 + h * 0x4000 + c * 0x40
/-- R487. -/ abbrev HOISTh_CHc_DCOUNT (h c : Nat) : Nat := 0x81028 + h * 0x4000 + c * 0x40
/-- R487. -/ abbrev HOISTh_CHc_CUR_L (h c : Nat) : Nat := 0x8102C + h * 0x4000 + c * 0x40
/-- R487. -/ abbrev HOISTh_CHc_CUR_H (h c : Nat) : Nat := 0x81030 + h * 0x4000 + c * 0x40
/-- R518. -/ abbrev CEL_CTL (k : Nat) : Nat := 0xA0000 + k * 0x10000
/-- R518. -/ abbrev CEL_STAT (k : Nat) : Nat := 0xA0004 + k * 0x10000
/-- R518. -/ abbrev CEL_TEMP (k : Nat) : Nat := 0xA0008 + k * 0x10000
/-- R518. -/ abbrev CEL_PD_IDLE (k : Nat) : Nat := 0xA000C + k * 0x10000
/-- R518. -/ abbrev CEL_PAGE_TMO (k : Nat) : Nat := 0xA0010 + k * 0x10000
/-- R518. -/ abbrev CEL_MRW (k : Nat) : Nat := 0xA0014 + k * 0x10000
/-- R518. -/ abbrev CEL_TRN_CTL (k : Nat) : Nat := 0xA0020 + k * 0x10000
/-- R518. -/ abbrev CEL_TRN_STAT (k : Nat) : Nat := 0xA0024 + k * 0x10000
/-- R518. -/ abbrev CEL_TRN_ROW (k : Nat) : Nat := 0xA0028 + k * 0x10000
/-- R518. -/ abbrev CEL_TRN_USERi (k i : Nat) : Nat := 0xA0040 + k * 0x10000 + i * 0x4
/-- R518. -/ abbrev CEL_TRN_ERRd (k d : Nat) : Nat := 0xA0080 + k * 0x10000 + d * 0x4
/-- R518. -/ abbrev CEL_LSEL (k : Nat) : Nat := 0xA0100 + k * 0x10000
/-- R518. -/ abbrev CEL_LANE_DLY (k : Nat) : Nat := 0xA0104 + k * 0x10000
/-- R518. -/ abbrev CEL_LANE_CE (k : Nat) : Nat := 0xA0108 + k * 0x10000
/-- R518. -/ abbrev CEL_PC_VREF (k : Nat) : Nat := 0xA010C + k * 0x10000
/-- R518. -/ abbrev CEL_REPAIRp (k p : Nat) : Nat := 0xA0200 + k * 0x10000 + p * 0x4
/-- R518. -/ abbrev CEL_CAREPc (k c : Nat) : Nat := 0xA0280 + k * 0x10000 + c * 0x4
/-- R518. -/ abbrev CEL_LOST_L (k : Nat) : Nat := 0xA0300 + k * 0x10000
/-- R518. -/ abbrev CEL_LOST_H (k : Nat) : Nat := 0xA0304 + k * 0x10000
/-- R518. -/ abbrev CEL_RAWWAIT (k : Nat) : Nat := 0xA0310 + k * 0x10000
/-- R518. -/ abbrev CEL_RECALS (k : Nat) : Nat := 0xA0314 + k * 0x10000
/-- R518. -/ abbrev CEL_LOSTS (k : Nat) : Nat := 0xA0318 + k * 0x10000
/-- R545. -/ abbrev SCRUB_CTL : Nat := 0xC0000
/-- R545. -/ abbrev SCRUB_STAT : Nat := 0xC0004
/-- R545. -/ abbrev SCRUB_RATE : Nat := 0xC0008
/-- R545. -/ abbrev SCRUB_PASSES : Nat := 0xC000C
/-- R545. -/ abbrev SCRUB_POS_L : Nat := 0xC0010
/-- R545. -/ abbrev SCRUB_POS_H : Nat := 0xC0014
/-- R545. -/ abbrev SCRUB_RNGr_BASE (r : Nat) : Nat := 0xC0020 + r * 0x8
/-- R545. -/ abbrev SCRUB_RNGr_SIZE (r : Nat) : Nat := 0xC0024 + r * 0x8
/-- R545. -/ abbrev ECC_FLIPf_DATAi (f i : Nat) : Nat := 0xC0100 + f * 0x40 + i * 0x4
/-- R545. -/ abbrev ECC_FLIPf_CHECK (f : Nat) : Nat := 0xC0114 + f * 0x40
/-- R545. -/ abbrev ECC_FLIPf_CTL (f : Nat) : Nat := 0xC0118 + f * 0x40
/-- R545. -/ abbrev ECC_FLIPf_ADDR_L (f : Nat) : Nat := 0xC011C + f * 0x40
/-- R545. -/ abbrev ECC_FLIPf_ADDR_H (f : Nat) : Nat := 0xC0120 + f * 0x40
/-- R545. -/ abbrev CHK_INJ_SEL : Nat := 0xC0300
/-- R545. -/ abbrev CHK_INJ_CTL : Nat := 0xC0304
/-- R545. -/ abbrev ECC_CEf (f : Nat) : Nat := 0xC0400 + f * 0x8
/-- R545. -/ abbrev ECC_UCEf (f : Nat) : Nat := 0xC0404 + f * 0x8
/-- R568. -/ abbrev TALLY_CTL : Nat := 0x50000
/-- R568. -/ abbrev TALLY_STAT : Nat := 0x50004
/-- R568. -/ abbrev TALLY_UNACK : Nat := 0x50008
/-- R568. -/ abbrev TALLY_UNACK_LVL : Nat := 0x5000C
/-- R568. -/ abbrev TALLY_REPL : Nat := 0x50010
/-- R568. -/ abbrev TALLY_THERM_S : Nat := 0x50014
/-- R568. -/ abbrev TALLY_MERGED : Nat := 0x50018
/-- R568. -/ abbrev TALLY_SRC_SEL : Nat := 0x50020
/-- R568. -/ abbrev TALLY_SRC_DATA : Nat := 0x50024
/-- R568. -/ abbrev TALLY_WINc (c : Nat) : Nat := 0x50040 + c * 0x8
/-- R568. -/ abbrev TALLY_NSEVc (c : Nat) : Nat := 0x50044 + c * 0x8
/-- R568. -/ abbrev TALLY_STICKYi (i : Nat) : Nat := 0x50100 + i * 0x4
/-- R568. -/ abbrev TALLY_SEVi (i : Nat) : Nat := 0x50300 + i * 0x4
/-- R584. -/ abbrev EVC_SPURIOUSt (t : Nat) : Nat := 0x40010 + t * 0x4
/-- R584. -/ abbrev EVC_CLAIMt (t : Nat) : Nat := 0x40040 + t * 0x10
/-- R584. -/ abbrev EVC_DONEt (t : Nat) : Nat := 0x40044 + t * 0x10
/-- R584. -/ abbrev EVC_CLAIMPIC_Lt (t : Nat) : Nat := 0x40048 + t * 0x10
/-- R584. -/ abbrev EVC_CLAIMPIC_Ht (t : Nat) : Nat := 0x4004C + t * 0x10
/-- R584. -/ abbrev EVC_INSVt (t : Nat) : Nat := 0x40100 + t * 0x4
/-- R584. -/ abbrev EVC_INCFGi (i : Nat) : Nat := 0x40180 + i * 0x4
/-- R584. -/ abbrev EVC_HOLDg (g : Nat) : Nat := 0x40200 + g * 0x4
/-- R584. -/ abbrev EVC_TMRi (i : Nat) : Nat := 0x40300 + i * 0x4
/-- R584. -/ abbrev EVC_PREEMPT : Nat := 0x40340
/-- R584. -/ abbrev EVC_PENDi (i : Nat) : Nat := 0x40400 + i * 0x4
/-- R584. -/ abbrev EVC_ACTi (i : Nat) : Nat := 0x40480 + i * 0x4
/-- R584. -/ abbrev EVC_TGTn (n : Nat) : Nat := 0x41000 + n * 0x4
/-- R613. -/ abbrev CLKPWR_RSTCAUSE : Nat := 0x10000
/-- R613. -/ abbrev CLKPWR_CLKRUN : Nat := 0x10004
/-- R613. -/ abbrev CLKPWR_SLEEP : Nat := 0x10010
/-- R613. -/ abbrev CLKPWR_SWAP : Nat := 0x10018
/-- R613. -/ abbrev CLKPWR_PDn (n : Nat) : Nat := 0x10100 + n * 0x4
/-- R614. -/ abbrev MON_TMAX : Nat := 0x20000
/-- R614. -/ abbrev MON_TEMPi (i : Nat) : Nat := 0x20100 + i * 0x4
/-- R614. -/ abbrev MON_RAILr_MV (r : Nat) : Nat := 0x20200 + r * 0x8
/-- R614. -/ abbrev MON_RAILr_CFG (r : Nat) : Nat := 0x20204 + r * 0x8
/-- R614. -/ abbrev MON_PROCf (f : Nat) : Nat := 0x20300 + f * 0x4
/-- R614. -/ abbrev MON_AVS_CTL : Nat := 0x20400
/-- R614. -/ abbrev MON_AVS_TGT : Nat := 0x20404
/-- R614. -/ abbrev MON_AVS_STAT : Nat := 0x20408
/-- R625. -/ abbrev DEV_ID : Nat := 0x0
/-- R625. -/ abbrev DEV_REV : Nat := 0x4
/-- R625. -/ abbrev DEV_STRAP : Nat := 0x8
/-- R625. -/ abbrev DEV_UNITS : Nat := 0xC
/-- R625. -/ abbrev DEV_HAND : Nat := 0x10
/-- R625. -/ abbrev DEV_HEALTH : Nat := 0x14
/-- R625. -/ abbrev DEV_FWVER : Nat := 0x18
/-- R625. -/ abbrev DEV_SCRATCH : Nat := 0x1C
/-- R625. -/ abbrev DEV_UID_L : Nat := 0x20
/-- R625. -/ abbrev DEV_UID_H : Nat := 0x24
end A

namespace R
abbrev TIME_CTL_INIT : RF := ⟨0x30000, 0, 1⟩
abbrev TIME_CTL_CLKSRC : RF := ⟨0x30000, 1, 1⟩
abbrev TIME_CTL_FALLBACK : RF := ⟨0x30000, 2, 1⟩
abbrev TIME_CTL_PPSO_EN : RF := ⟨0x30000, 3, 1⟩
abbrev TIME_CTL_DOMAIN : RF := ⟨0x30000, 16, 8⟩
abbrev TIME_STAT_STEP_AVAIL : RF := ⟨0x30004, 0, 1⟩
abbrev TIME_STAT_SVC_BUSY : RF := ⟨0x30004, 1, 1⟩
abbrev TIME_STAT_CLKSRC_ACT : RF := ⟨0x30004, 2, 1⟩
abbrev TIME_STAT_TIMEIN_LOST : RF := ⟨0x30004, 3, 1⟩
abbrev TIME_STAT_STEP_SPENT : RF := ⟨0x30004, 4, 1⟩
abbrev TIME_STAT_STEP_LIVE : RF := ⟨0x30004, 5, 1⟩
abbrev TIME_STAT_PPS_SEEN : RF := ⟨0x30004, 6, 1⟩
abbrev TIME_STAT_TEPOCH : RF := ⟨0x30004, 8, 8⟩
abbrev TIME_NOW_SECL_SECL : RF := ⟨0x30010, 0, 32⟩
abbrev TIME_NOW_SECH_SECH : RF := ⟨0x30014, 0, 32⟩
abbrev TIME_NOW_NS_NS : RF := ⟨0x30018, 0, 30⟩
abbrev TIME_NOW_FRAC_FRAC : RF := ⟨0x3001C, 0, 32⟩
abbrev TIME_STEP_SECL_SECL : RF := ⟨0x30020, 0, 32⟩
abbrev TIME_STEP_SECH_SECH : RF := ⟨0x30024, 0, 32⟩
abbrev TIME_STEP_NS_NS : RF := ⟨0x30028, 0, 30⟩
abbrev TIME_STEP_NS_GO : RF := ⟨0x30028, 31, 1⟩
abbrev TIME_RATE_L_RATE_L : RF := ⟨0x30030, 0, 32⟩
abbrev TIME_RATE_H_RATE_H : RF := ⟨0x30034, 0, 8⟩
abbrev TIME_PPS_SEC_SEC : RF := ⟨0x30040, 0, 32⟩
abbrev TIME_PPS_NS_NS : RF := ⟨0x30044, 0, 30⟩
abbrev TIME_PPSO_WIDTH_WIDTH : RF := ⟨0x30048, 0, 16⟩
abbrev STRKg_CTL_EN (g : Nat) : RF := ⟨0x30100 + g * 0x40, 0, 1⟩
abbrev STRKg_CTL_ARMED (g : Nat) : RF := ⟨0x30100 + g * 0x40, 1, 1⟩
abbrev STRKg_CTL_BOUND (g : Nat) : RF := ⟨0x30100 + g * 0x40, 8, 8⟩
abbrev STRKg_PNUM_PNUM (g : Nat) : RF := ⟨0x30104 + g * 0x40, 0, 32⟩
abbrev STRKg_PDEN_PDEN (g : Nat) : RF := ⟨0x30108 + g * 0x40, 0, 16⟩
abbrev STRKg_PHASE_PHASE (g : Nat) : RF := ⟨0x3010C + g * 0x40, 0, 30⟩
abbrev STRKg_IDX_L_IDX_L (g : Nat) : RF := ⟨0x30110 + g * 0x40, 0, 32⟩
abbrev STRKg_IDX_H_IDX_H (g : Nat) : RF := ⟨0x30114 + g * 0x40, 0, 32⟩
abbrev STRKg_LAST_NS_NS (g : Nat) : RF := ⟨0x30118 + g * 0x40, 0, 30⟩
abbrev STRMn_STATE_STATE (n : Nat) : RF := ⟨0x320000 + n * 0x200, 0, 2⟩
abbrev STRMn_STATE_PEND (n : Nat) : RF := ⟨0x320000 + n * 0x200, 2, 2⟩
abbrev STRMn_STATE_TYPE (n : Nat) : RF := ⟨0x320000 + n * 0x200, 4, 3⟩
abbrev STRMn_STATE_GEN (n : Nat) : RF := ⟨0x320000 + n * 0x200, 8, 2⟩
abbrev STRMn_STATE_CANVAS (n : Nat) : RF := ⟨0x320000 + n * 0x200, 10, 3⟩
abbrev STRMn_EPOCH_EPOCH (n : Nat) : RF := ⟨0x320004 + n * 0x200, 0, 32⟩
abbrev STRMn_KOPEN_KOPEN (n : Nat) : RF := ⟨0x320008 + n * 0x200, 0, 32⟩
abbrev FEEDf_EARLY_COUNT (f : Nat) : RF := ⟨0x341000 + f * 0x10, 0, 32⟩
abbrev FEEDf_LATE_COUNT (f : Nat) : RF := ⟨0x341004 + f * 0x10, 0, 32⟩
abbrev FEEDf_FILLED_COUNT (f : Nat) : RF := ⟨0x341008 + f * 0x10, 0, 32⟩
abbrev STRMn_REFRESH_POS (n : Nat) : RF := ⟨0x320010 + n * 0x200, 0, 8⟩
abbrev STRMn_REFRESH_FAST (n : Nat) : RF := ⟨0x320010 + n * 0x200, 8, 1⟩
abbrev STRMn_REFRESH_KEY_PEND (n : Nat) : RF := ⟨0x320010 + n * 0x200, 9, 1⟩
abbrev STRMn_REFRESH_IRAP_NEXT (n : Nat) : RF := ⟨0x320010 + n * 0x200, 10, 1⟩
abbrev STRMn_KEYS_ACTED (n : Nat) : RF := ⟨0x320014 + n * 0x200, 0, 16⟩
abbrev STRMn_KEYS_MERGED (n : Nat) : RF := ⟨0x320014 + n * 0x200, 16, 16⟩
abbrev CREWc_CTL_AUTOSPARE (c : Nat) : RF := ⟨0x100000 + c * 0x10000, 0, 1⟩
abbrev CREWc_CTL_STEAL_EN (c : Nat) : RF := ⟨0x100000 + c * 0x10000, 1, 1⟩
abbrev CREWc_CTL_CEIL (c : Nat) : RF := ⟨0x100000 + c * 0x10000, 2, 2⟩
abbrev CREWc_CTL_FB_GEN (c : Nat) : RF := ⟨0x100000 + c * 0x10000, 4, 2⟩
abbrev CREWc_STAT_LIVE (c : Nat) : RF := ⟨0x100004 + c * 0x10000, 0, 6⟩
abbrev CREWc_STAT_SPARES (c : Nat) : RF := ⟨0x100004 + c * 0x10000, 6, 3⟩
abbrev CREWc_STAT_SUB_PEND (c : Nat) : RF := ⟨0x100004 + c * 0x10000, 9, 1⟩
abbrev CREWc_STAT_CEIL_ACT (c : Nat) : RF := ⟨0x100004 + c * 0x10000, 10, 2⟩
abbrev CREWc_QSTAT_DEPTH (c : Nat) : RF := ⟨0x100008 + c * 0x10000, 0, 11⟩
abbrev CREWc_QSTAT_STARTABLE (c : Nat) : RF := ⟨0x100008 + c * 0x10000, 16, 11⟩
abbrev CREWc_GUARD_NS (c : Nat) : RF := ⟨0x100010 + c * 0x10000, 0, 16⟩
abbrev CREWc_HORIZON_NS (c : Nat) : RF := ⟨0x100014 + c * 0x10000, 0, 20⟩
abbrev CREWc_RETIRE_LIMIT (c : Nat) : RF := ⟨0x100018 + c * 0x10000, 0, 4⟩
abbrev CREWc_LATE_COUNT (c : Nat) : RF := ⟨0x100020 + c * 0x10000, 0, 32⟩
abbrev CREWc_STEALS_COUNT (c : Nat) : RF := ⟨0x100024 + c * 0x10000, 0, 32⟩
abbrev CREWc_QFULL_COUNT (c : Nat) : RF := ⟨0x100028 + c * 0x10000, 0, 32⟩
abbrev CREWc_LDR_CARRY_COUNT (c : Nat) : RF := ⟨0x10002C + c * 0x10000, 0, 32⟩
abbrev CREWc_STATE_STATE (c : Nat) : RF := ⟨0x100030 + c * 0x10000, 0, 2⟩
abbrev CREWc_STATE_PEND (c : Nat) : RF := ⟨0x100030 + c * 0x10000, 2, 2⟩
abbrev CREWc_EPOCH_EPOCH (c : Nat) : RF := ⟨0x100034 + c * 0x10000, 0, 32⟩
abbrev CREWc_SEATj_SCULL (c j : Nat) : RF := ⟨0x100080 + c * 0x10000 + j * 0x4, 0, 6⟩
abbrev CREWc_SEATj_VALID (c j : Nat) : RF := ⟨0x100080 + c * 0x10000 + j * 0x4, 7, 1⟩
abbrev CREWc_SCULLq_STATE (c q : Nat) : RF := ⟨0x100100 + c * 0x10000 + q * 0x4, 0, 2⟩
abbrev CREWc_SCULLq_RCNT (c q : Nat) : RF := ⟨0x100100 + c * 0x10000 + q * 0x4, 2, 4⟩
abbrev CREWc_LDR_ADDR_ADDR (c : Nat) : RF := ⟨0x100300 + c * 0x10000, 0, 20⟩
abbrev CREWc_LDR_DATA_DATA (c : Nat) : RF := ⟨0x100304 + c * 0x10000, 0, 32⟩
abbrev CREWc_LDR_SLOTs_STREAM (c s : Nat) : RF := ⟨0x100400 + c * 0x10000 + s * 0x4, 0, 7⟩
abbrev CREWc_LDR_SLOTs_USED (c s : Nat) : RF := ⟨0x100400 + c * 0x10000 + s * 0x4, 7, 1⟩
abbrev CREWc_LDR_SLOTs_CUR (c s : Nat) : RF := ⟨0x100400 + c * 0x10000 + s * 0x4, 8, 5⟩
abbrev STRMn_SCHED_HOME (n : Nat) : RF := ⟨0x320018 + n * 0x200, 0, 2⟩
abbrev STRMn_SCHED_SHADOW0 (n : Nat) : RF := ⟨0x320018 + n * 0x200, 2, 3⟩
abbrev STRMn_SCHED_SHADOW1 (n : Nat) : RF := ⟨0x320018 + n * 0x200, 5, 3⟩
abbrev STRMn_SCHED_PRIO (n : Nat) : RF := ⟨0x320018 + n * 0x200, 8, 4⟩
abbrev STRMn_SCHED_CAP (n : Nat) : RF := ⟨0x320018 + n * 0x200, 12, 2⟩
abbrev STRMn_LATE_COUNT (n : Nat) : RF := ⟨0x32001C + n * 0x200, 0, 32⟩
abbrev CNVv_HOMEw_HOME (v w : Nat) : RF := ⟨0x344000 + v * 0x80 + w * 0x4, 0, 32⟩
abbrev RRCn_CTL_FLOOR_EVT (n : Nat) : RF := ⟨0x300000 + n * 0x100, 0, 1⟩
abbrev RRCn_RATE_KBPS (n : Nat) : RF := ⟨0x300004 + n * 0x100, 0, 32⟩
abbrev RRCn_RMAX_KBPS (n : Nat) : RF := ⟨0x300008 + n * 0x100, 0, 32⟩
abbrev RRCn_BUF_US (n : Nat) : RF := ⟨0x30000C + n * 0x100, 0, 20⟩
abbrev RRCn_QP_QP_MIN (n : Nat) : RF := ⟨0x300010 + n * 0x100, 0, 6⟩
abbrev RRCn_QP_QP_MAX (n : Nat) : RF := ⟨0x300010 + n * 0x100, 8, 6⟩
abbrev RRCn_QP_QP_INIT (n : Nat) : RF := ⟨0x300010 + n * 0x100, 16, 6⟩
abbrev RRCn_KEY_BORROW (n : Nat) : RF := ⟨0x300014 + n * 0x100, 0, 7⟩
abbrev RRCn_KEY_REPAY (n : Nat) : RF := ⟨0x300014 + n * 0x100, 8, 7⟩
abbrev RRCn_MARGIN_BITS (n : Nat) : RF := ⟨0x300018 + n * 0x100, 0, 32⟩
abbrev RRCn_SLICE_BITS (n : Nat) : RF := ⟨0x30001C + n * 0x100, 0, 16⟩
abbrev RRCn_ALPHA_P_LA (n : Nat) : RF := ⟨0x300020 + n * 0x100, 0, 24⟩
abbrev RRCn_ALPHA_I_LA (n : Nat) : RF := ⟨0x300024 + n * 0x100, 0, 24⟩
abbrev RRCn_MODEL_GAIN (n : Nat) : RF := ⟨0x300028 + n * 0x100, 0, 4⟩
abbrev RRCn_MODEL_CINIT (n : Nat) : RF := ⟨0x300028 + n * 0x100, 16, 16⟩
abbrev RRCn_OCC_UNITS (n : Nat) : RF := ⟨0x300030 + n * 0x100, 0, 32⟩
abbrev RRCn_DEBT_UNITS (n : Nat) : RF := ⟨0x300034 + n * 0x100, 0, 32⟩
abbrev RRCn_LOAN_UNITS (n : Nat) : RF := ⟨0x300038 + n * 0x100, 0, 32⟩
abbrev RRCn_FREE_UNITS (n : Nat) : RF := ⟨0x30003C + n * 0x100, 0, 32⟩
abbrev RRCn_STAT_FLOOR (n : Nat) : RF := ⟨0x300040 + n * 0x100, 0, 1⟩
abbrev RRCn_STAT_LOAN_OK (n : Nat) : RF := ⟨0x300040 + n * 0x100, 1, 1⟩
abbrev RRCn_STAT_QP_LAST (n : Nat) : RF := ⟨0x300040 + n * 0x100, 8, 6⟩
abbrev RRCn_FLOORS_COUNT (n : Nat) : RF := ⟨0x300044 + n * 0x100, 0, 32⟩
abbrev RRCn_NOLOAN_COUNT (n : Nat) : RF := ⟨0x300048 + n * 0x100, 0, 32⟩
abbrev RRCn_SEIDEFER_COUNT (n : Nat) : RF := ⟨0x30004C + n * 0x100, 0, 32⟩
abbrev RRCn_OVHMAX_BITS (n : Nat) : RF := ⟨0x300050 + n * 0x100, 0, 32⟩
abbrev RRCn_OVHMIN_BITS (n : Nat) : RF := ⟨0x300054 + n * 0x100, 0, 32⟩
abbrev RACK_CTL_RET_LIM : RF := ⟨0x310000, 0, 4⟩
abbrev RACK_STAT_RETIRED : RF := ⟨0x310004, 0, 13⟩
abbrev RACK_STAT_WAIT : RF := ⟨0x310004, 13, 1⟩
abbrev RACK_LOST_UNITS : RF := ⟨0x310008, 0, 21⟩
abbrev RACK_FREE_COUNT : RF := ⟨0x31000C, 0, 13⟩
abbrev SHLFn_CFG_N (n : Nat) : RF := ⟨0x310800 + n * 0x10, 0, 13⟩
abbrev SHLFn_CFG_NMIN (n : Nat) : RF := ⟨0x310800 + n * 0x10, 16, 6⟩
abbrev SHLFn_SLOTSZ_UNITS (n : Nat) : RF := ⟨0x310804 + n * 0x10, 0, 16⟩
abbrev SHLFn_HOLD_HOLDS (n : Nat) : RF := ⟨0x310808 + n * 0x10, 0, 13⟩
abbrev SHLFn_HOLD_SPARE (n : Nat) : RF := ⟨0x310808 + n * 0x10, 16, 13⟩
abbrev SHLFn_STAT_WSLOT (n : Nat) : RF := ⟨0x31080C + n * 0x10, 0, 12⟩
abbrev SHLFn_STAT_WAIT (n : Nat) : RF := ⟨0x31080C + n * 0x10, 12, 1⟩
abbrev SHLFn_STAT_SHORT (n : Nat) : RF := ⟨0x31080C + n * 0x10, 13, 1⟩
abbrev SLOTs_ADDR_BASE (s : Nat) : RF := ⟨0x318000 + s * 0x8, 0, 21⟩
abbrev SLOTs_ADDR_VALID (s : Nat) : RF := ⟨0x318000 + s * 0x8, 31, 1⟩
abbrev SLOTs_MARK_CODING (s : Nat) : RF := ⟨0x318004 + s * 0x8, 0, 1⟩
abbrev SLOTs_MARK_REF_SHORT (s : Nat) : RF := ⟨0x318004 + s * 0x8, 1, 1⟩
abbrev SLOTs_MARK_REF_LONG (s : Nat) : RF := ⟨0x318004 + s * 0x8, 2, 1⟩
abbrev SLOTs_MARK_OUT_PENDING (s : Nat) : RF := ⟨0x318004 + s * 0x8, 3, 1⟩
abbrev SLOTs_MARK_HOST_HOLD (s : Nat) : RF := ⟨0x318004 + s * 0x8, 4, 1⟩
abbrev SLOTs_MARK_CONCEAL_SRC (s : Nat) : RF := ⟨0x318004 + s * 0x8, 5, 1⟩
abbrev SLOTs_MARK_SHELVED (s : Nat) : RF := ⟨0x318004 + s * 0x8, 6, 1⟩
abbrev SLOTs_MARK_RETIRED (s : Nat) : RF := ⟨0x318004 + s * 0x8, 7, 1⟩
abbrev SLOTs_MARK_UCE (s : Nat) : RF := ⟨0x318004 + s * 0x8, 8, 4⟩
abbrev SLOTs_MARK_STREAM (s : Nat) : RF := ⟨0x318004 + s * 0x8, 16, 7⟩
abbrev STRMn_DCTL_BOW (n : Nat) : RF := ⟨0x320040 + n * 0x200, 0, 6⟩
abbrev STRMn_DCTL_AHEAD (n : Nat) : RF := ⟨0x320040 + n * 0x200, 6, 1⟩
abbrev STRMn_DCTL_CTB (n : Nat) : RF := ⟨0x320040 + n * 0x200, 7, 2⟩
abbrev STRMn_DCTL_REF_ROWS (n : Nat) : RF := ⟨0x320040 + n * 0x200, 9, 4⟩
abbrev STRMn_DCTL_PLI_EN (n : Nat) : RF := ⟨0x320040 + n * 0x200, 13, 1⟩
abbrev STRMn_DSTAT_STARTED (n : Nat) : RF := ⟨0x320044 + n * 0x200, 0, 1⟩
abbrev STRMn_DSTAT_TAINT (n : Nat) : RF := ⟨0x320044 + n * 0x200, 1, 1⟩
abbrev STRMn_DSTAT_NO_SRC (n : Nat) : RF := ⟨0x320044 + n * 0x200, 2, 1⟩
abbrev STRMn_DSTAT_PSET_ERR (n : Nat) : RF := ⟨0x320044 + n * 0x200, 3, 1⟩
abbrev STRMn_DCONC_COUNT (n : Nat) : RF := ⟨0x320048 + n * 0x200, 0, 32⟩
abbrev STRMn_DSEGS_COUNT (n : Nat) : RF := ⟨0x32004C + n * 0x200, 0, 32⟩
abbrev STRMn_DSUBS_COUNT (n : Nat) : RF := ⟨0x320050 + n * 0x200, 0, 32⟩
abbrev STRMn_DNOAU_COUNT (n : Nat) : RF := ⟨0x320054 + n * 0x200, 0, 32⟩
abbrev STRMn_DLATE_COUNT (n : Nat) : RF := ⟨0x320058 + n * 0x200, 0, 32⟩
abbrev STRMn_DDROP_COUNT (n : Nat) : RF := ⟨0x32005C + n * 0x200, 0, 32⟩
abbrev UCTL_RUN (u : Nat) : RF := ⟨0x200000 + u * 0x1000, 0, 1⟩
abbrev UCTL_TMODE (u : Nat) : RF := ⟨0x200000 + u * 0x1000, 1, 1⟩
abbrev UCTL_SUM_GO (u : Nat) : RF := ⟨0x200000 + u * 0x1000, 2, 1⟩
abbrev UCTL_WTO (u : Nat) : RF := ⟨0x200000 + u * 0x1000, 16, 16⟩
abbrev USTAT_BUSY (u : Nat) : RF := ⟨0x200004 + u * 0x1000, 0, 1⟩
abbrev USTAT_INTRAP (u : Nat) : RF := ⟨0x200004 + u * 0x1000, 1, 1⟩
abbrev USTAT_UCS_BAD (u : Nat) : RF := ⟨0x200004 + u * 0x1000, 2, 1⟩
abbrev USTAT_SUM_BUSY (u : Nat) : RF := ⟨0x200004 + u * 0x1000, 3, 1⟩
abbrev USTAT_LS_MISS (u : Nat) : RF := ⟨0x200004 + u * 0x1000, 4, 1⟩
abbrev USTAT_RETRY (u : Nat) : RF := ⟨0x200004 + u * 0x1000, 5, 1⟩
abbrev USTAT_RES1 (u : Nat) : RF := ⟨0x200004 + u * 0x1000, 6, 1⟩
abbrev USTAT_RSD (u : Nat) : RF := ⟨0x200004 + u * 0x1000, 7, 3⟩
abbrev USTAT_EFF (u : Nat) : RF := ⟨0x200004 + u * 0x1000, 10, 2⟩
abbrev USTART_ADDR (u : Nat) : RF := ⟨0x200008 + u * 0x1000, 0, 12⟩
abbrev USTART_GO (u : Nat) : RF := ⟨0x200008 + u * 0x1000, 31, 1⟩
abbrev UCS_ADDR_ADDR (u : Nat) : RF := ⟨0x200010 + u * 0x1000, 0, 12⟩
abbrev UCS_ADDR_AUTOINC (u : Nat) : RF := ⟨0x200010 + u * 0x1000, 16, 1⟩
abbrev UCS_DATA0_DATA (u : Nat) : RF := ⟨0x200014 + u * 0x1000, 0, 32⟩
abbrev UCS_DATA1_DATA (u : Nat) : RF := ⟨0x200018 + u * 0x1000, 0, 32⟩
abbrev UCS_DATA2_DATA (u : Nat) : RF := ⟨0x20001C + u * 0x1000, 0, 32⟩
abbrev UCS_DATA3_DATA (u : Nat) : RF := ⟨0x200020 + u * 0x1000, 0, 32⟩
abbrev UCS_DATA4_DATA (u : Nat) : RF := ⟨0x200024 + u * 0x1000, 0, 16⟩
abbrev UCS_DATA4_CHK (u : Nat) : RF := ⟨0x200024 + u * 0x1000, 16, 9⟩
abbrev UCS_DATA4_CE (u : Nat) : RF := ⟨0x200024 + u * 0x1000, 25, 1⟩
abbrev UCS_DATA4_UE (u : Nat) : RF := ⟨0x200024 + u * 0x1000, 26, 1⟩
abbrev UCS_SUM_CRC (u : Nat) : RF := ⟨0x200028 + u * 0x1000, 0, 32⟩
abbrev UCS_BADADDR_ADDR (u : Nat) : RF := ⟨0x20002C + u * 0x1000, 0, 12⟩
abbrev UTRAP_CAUSE_CAUSE (u : Nat) : RF := ⟨0x200040 + u * 0x1000, 0, 3⟩
abbrev UTRAP_CAUSE_ABORT (u : Nat) : RF := ⟨0x200040 + u * 0x1000, 3, 1⟩
abbrev UTRAP_CAUSE_LEVEL (u : Nat) : RF := ⟨0x200040 + u * 0x1000, 4, 2⟩
abbrev UTRAP_UPC_UPC (u : Nat) : RF := ⟨0x200044 + u * 0x1000, 0, 12⟩
abbrev UTRAP_LC01_LC0 (u : Nat) : RF := ⟨0x200048 + u * 0x1000, 0, 12⟩
abbrev UTRAP_LC01_LC1 (u : Nat) : RF := ⟨0x200048 + u * 0x1000, 16, 12⟩
abbrev UTRAP_LC2_LC2 (u : Nat) : RF := ⟨0x20004C + u * 0x1000, 0, 12⟩
abbrev UTRAP_CONDL_COND (u : Nat) : RF := ⟨0x200050 + u * 0x1000, 0, 32⟩
abbrev UTRAP_CONDH_COND (u : Nat) : RF := ⟨0x200054 + u * 0x1000, 0, 32⟩
abbrev UTRAP_AGU0_PTR (u : Nat) : RF := ⟨0x200058 + u * 0x1000, 0, 32⟩
abbrev UTRAP_AGU1_PTR (u : Nat) : RF := ⟨0x20005C + u * 0x1000, 0, 32⟩
abbrev UTRAP_TOKEN_TOKEN (u : Nat) : RF := ⟨0x200060 + u * 0x1000, 0, 32⟩
abbrev HOST_CTL_CLX_RAW_EN : RF := ⟨0x60000, 0, 1⟩
abbrev HOST_CTL_CLX_UDP_EN : RF := ⟨0x60000, 1, 1⟩
abbrev HOST_CTL_ROCE_PRIO : RF := ⟨0x60000, 2, 3⟩
abbrev HOST_CTL_PFC_EN : RF := ⟨0x60000, 5, 1⟩
abbrev HOST_CTL_ECN_EN : RF := ⟨0x60000, 6, 1⟩
abbrev HOST_STAT_OPEN : RF := ⟨0x60004, 0, 1⟩
abbrev HOST_STAT_ETYPE_SEL : RF := ⟨0x60004, 1, 1⟩
abbrev HOST_STAT_CP_SEL : RF := ⟨0x60004, 2, 1⟩
abbrev HOST_STAT_ACT_BANK : RF := ⟨0x60004, 3, 1⟩
abbrev HOST_STAT_VALID : RF := ⟨0x60004, 4, 2⟩
abbrev HOST_STAT_PUSH_ACT : RF := ⟨0x60004, 6, 1⟩
abbrev HOST_STAT_CP0_LINK : RF := ⟨0x60004, 7, 1⟩
abbrev HOST_STAT_CP1_LINK : RF := ⟨0x60004, 8, 1⟩
abbrev HOST_STAT_SEQ0_INIT : RF := ⟨0x60004, 9, 1⟩
abbrev HOST_STAT_SEQ1_INIT : RF := ⟨0x60004, 10, 1⟩
abbrev HOST_UDP_PORT : RF := ⟨0x60008, 0, 16⟩
abbrev HOST_MGMTSEQ0_SEQ : RF := ⟨0x60010, 0, 32⟩
abbrev HOST_MGMTSEQ1_SEQ : RF := ⟨0x60014, 0, 32⟩
abbrev HOST_AUTHFAIL_COUNT : RF := ⟨0x60020, 0, 32⟩
abbrev HOST_SEQERR_COUNT : RF := ⟨0x60024, 0, 32⟩
abbrev HOST_DBSTALE_COUNT : RF := ⟨0x60028, 0, 32⟩
abbrev HOST_DBBAD_COUNT : RF := ⟨0x6002C, 0, 32⟩
abbrev HOST_EVLOST_COUNT : RF := ⟨0x60030, 0, 32⟩
abbrev HOST_STLOST_COUNT : RF := ⟨0x60034, 0, 32⟩
abbrev HOST_DB_RKEY_RKEY : RF := ⟨0x60040, 0, 32⟩
abbrev HOST_IP0_ADDR : RF := ⟨0x60044, 0, 32⟩
abbrev HOST_IP1_ADDR : RF := ⟨0x60048, 0, 32⟩
abbrev HOST_MAC0_L_MAC : RF := ⟨0x60050, 0, 32⟩
abbrev HOST_MAC1_L_MAC : RF := ⟨0x60058, 0, 32⟩
abbrev HOST_MAC0_H_MAC : RF := ⟨0x60054, 0, 16⟩
abbrev HOST_MAC1_H_MAC : RF := ⟨0x6005C, 0, 16⟩
abbrev QPq_CTL_EN (q : Nat) : RF := ⟨0x61000 + q * 0x40, 0, 1⟩
abbrev QPq_CTL_PORT (q : Nat) : RF := ⟨0x61000 + q * 0x40, 1, 1⟩
abbrev QPq_CTL_MTU (q : Nat) : RF := ⟨0x61000 + q * 0x40, 2, 2⟩
abbrev QPq_CTL_TIMEOUT (q : Nat) : RF := ⟨0x61000 + q * 0x40, 4, 5⟩
abbrev QPq_CTL_RETRY (q : Nat) : RF := ⟨0x61000 + q * 0x40, 9, 3⟩
abbrev QPq_STAT_STATE (q : Nat) : RF := ⟨0x61004 + q * 0x40, 0, 2⟩
abbrev QPq_STAT_CAUSE (q : Nat) : RF := ⟨0x61004 + q * 0x40, 2, 3⟩
abbrev QPq_RQPN_VALUE (q : Nat) : RF := ⟨0x61008 + q * 0x40, 0, 24⟩
abbrev QPq_SPSN_VALUE (q : Nat) : RF := ⟨0x6100C + q * 0x40, 0, 24⟩
abbrev QPq_EPSN_VALUE (q : Nat) : RF := ⟨0x61010 + q * 0x40, 0, 24⟩
abbrev QPq_DIP_ADDR (q : Nat) : RF := ⟨0x61014 + q * 0x40, 0, 32⟩
abbrev QPq_DMAC_L_MAC (q : Nat) : RF := ⟨0x61018 + q * 0x40, 0, 32⟩
abbrev QPq_DMAC_H_MAC (q : Nat) : RF := ⟨0x6101C + q * 0x40, 0, 16⟩
abbrev HWINw_CTL_EN (w : Nat) : RF := ⟨0x62000 + w * 0x20, 0, 1⟩
abbrev HWINw_CTL_QP (w : Nat) : RF := ⟨0x62000 + w * 0x20, 1, 6⟩
abbrev HWINw_BASE_BASE (w : Nat) : RF := ⟨0x62004 + w * 0x20, 0, 31⟩
abbrev HWINw_SIZE_SIZE (w : Nat) : RF := ⟨0x62008 + w * 0x20, 0, 28⟩
abbrev HWINw_RKEY_RKEY (w : Nat) : RF := ⟨0x6200C + w * 0x20, 0, 32⟩
abbrev HWINw_RVA_L_RVA (w : Nat) : RF := ⟨0x62010 + w * 0x20, 0, 32⟩
abbrev HWINw_RVA_H_RVA (w : Nat) : RF := ⟨0x62014 + w * 0x20, 0, 32⟩
abbrev RINGi_CTL_EN (i : Nat) : RF := ⟨0x64000 + i * 0x20, 0, 1⟩
abbrev RINGi_CTL_STALL (i : Nat) : RF := ⟨0x64000 + i * 0x20, 1, 1⟩
abbrev RINGi_CTL_LOG2SIZE (i : Nat) : RF := ⟨0x64000 + i * 0x20, 2, 5⟩
abbrev RINGi_CTL_CQ (i : Nat) : RF := ⟨0x64000 + i * 0x20, 7, 5⟩
abbrev RINGi_CTL_PRIO (i : Nat) : RF := ⟨0x64000 + i * 0x20, 12, 2⟩
abbrev RINGi_EPOCH_EPOCH (i : Nat) : RF := ⟨0x64004 + i * 0x20, 0, 32⟩
abbrev RINGi_PI_INDEX (i : Nat) : RF := ⟨0x64008 + i * 0x20, 0, 24⟩
abbrev RINGi_CI_INDEX (i : Nat) : RF := ⟨0x6400C + i * 0x20, 0, 24⟩
abbrev RINGi_ADDR_L_ADDR (i : Nat) : RF := ⟨0x64010 + i * 0x20, 12, 20⟩
abbrev RINGi_SHAD_L_ADDR (i : Nat) : RF := ⟨0x64018 + i * 0x20, 3, 29⟩
abbrev RINGi_ADDR_H_ADDR (i : Nat) : RF := ⟨0x64014 + i * 0x20, 0, 16⟩
abbrev RINGi_SHAD_H_ADDR (i : Nat) : RF := ⟨0x6401C + i * 0x20, 0, 16⟩
abbrev LANEl_STATE_STATE (l : Nat) : RF := ⟨0x400000 + l * 0x400, 0, 2⟩
abbrev LANEl_STATE_PEND (l : Nat) : RF := ⟨0x400000 + l * 0x400, 2, 2⟩
abbrev LANEl_STATE_REQ (l : Nat) : RF := ⟨0x400000 + l * 0x400, 4, 2⟩
abbrev LANEl_EPOCH_EPOCH (l : Nat) : RF := ⟨0x400004 + l * 0x400, 0, 32⟩
abbrev LANEl_CFG_PMD (l : Nat) : RF := ⟨0x400008 + l * 0x400, 0, 3⟩
abbrev LANEl_CFG_FEC (l : Nat) : RF := ⟨0x400008 + l * 0x400, 3, 2⟩
abbrev LANEl_CFG_AN_EN (l : Nat) : RF := ⟨0x400008 + l * 0x400, 5, 1⟩
abbrev LANEl_CFG_TX_INV (l : Nat) : RF := ⟨0x400008 + l * 0x400, 6, 1⟩
abbrev LANEl_CFG_RX_INV (l : Nat) : RF := ⟨0x400008 + l * 0x400, 7, 1⟩
abbrev LANEl_CFG_BL_MODE (l : Nat) : RF := ⟨0x400008 + l * 0x400, 8, 2⟩
abbrev LANEl_CFG_LB (l : Nat) : RF := ⟨0x400008 + l * 0x400, 10, 2⟩
abbrev LANEl_QMODE_QMODE (l : Nat) : RF := ⟨0x40000C + l * 0x400, 0, 1⟩
abbrev LANEl_STAT_LOS (l : Nat) : RF := ⟨0x400010 + l * 0x400, 0, 1⟩
abbrev LANEl_STAT_LOL (l : Nat) : RF := ⟨0x400010 + l * 0x400, 1, 1⟩
abbrev LANEl_STAT_BLOCK_LOCK (l : Nat) : RF := ⟨0x400010 + l * 0x400, 2, 1⟩
abbrev LANEl_STAT_AN_DONE (l : Nat) : RF := ⟨0x400010 + l * 0x400, 3, 1⟩
abbrev LANEl_STAT_TRAIN_DONE (l : Nat) : RF := ⟨0x400010 + l * 0x400, 4, 1⟩
abbrev LANEl_STAT_LINK (l : Nat) : RF := ⟨0x400010 + l * 0x400, 5, 1⟩
abbrev LANEl_STAT_FEC_ACT (l : Nat) : RF := ⟨0x400010 + l * 0x400, 6, 2⟩
abbrev LANEl_STAT_LOS_SEEN (l : Nat) : RF := ⟨0x400010 + l * 0x400, 8, 1⟩
abbrev LANEl_STAT_LOL_SEEN (l : Nat) : RF := ⟨0x400010 + l * 0x400, 9, 1⟩
abbrev LANEl_STAT_BL_LOST (l : Nat) : RF := ⟨0x400010 + l * 0x400, 10, 1⟩
abbrev LANEl_DOZE_TX_DOZE (l : Nat) : RF := ⟨0x400014 + l * 0x400, 0, 1⟩
abbrev LANEl_DOZE_TX_WAKE (l : Nat) : RF := ⟨0x400014 + l * 0x400, 1, 1⟩
abbrev LANEl_DOZE_RX_DOZE (l : Nat) : RF := ⟨0x400014 + l * 0x400, 2, 1⟩
abbrev LANEl_DOZE_RX_WAKE (l : Nat) : RF := ⟨0x400014 + l * 0x400, 3, 1⟩
abbrev LANEl_DOZE_RX_WAKE_LOS (l : Nat) : RF := ⟨0x400014 + l * 0x400, 4, 1⟩
abbrev LANEl_DOZE_TX_PWR (l : Nat) : RF := ⟨0x400014 + l * 0x400, 8, 2⟩
abbrev LANEl_DOZE_RX_PWR (l : Nat) : RF := ⟨0x400014 + l * 0x400, 10, 2⟩
abbrev LANEl_DOZE_TX_PEND (l : Nat) : RF := ⟨0x400014 + l * 0x400, 12, 2⟩
abbrev LANEl_DOZE_RX_PEND (l : Nat) : RF := ⟨0x400014 + l * 0x400, 14, 2⟩
abbrev LANEl_TXEQ_PRE (l : Nat) : RF := ⟨0x400020 + l * 0x400, 0, 4⟩
abbrev LANEl_TXEQ_MAIN (l : Nat) : RF := ⟨0x400020 + l * 0x400, 8, 6⟩
abbrev LANEl_TXEQ_POST (l : Nat) : RF := ⟨0x400020 + l * 0x400, 16, 5⟩
abbrev LANEl_RXEQ_ADAPT (l : Nat) : RF := ⟨0x400024 + l * 0x400, 0, 2⟩
abbrev LANEl_RXEQ_RESTART (l : Nat) : RF := ⟨0x400024 + l * 0x400, 2, 1⟩
abbrev LANEl_RXEQ_CTLE (l : Nat) : RF := ⟨0x400024 + l * 0x400, 4, 4⟩
abbrev LANEl_EQ_STAT_BUSY (l : Nat) : RF := ⟨0x400028 + l * 0x400, 0, 1⟩
abbrev LANEl_EQ_STAT_CTLE_ACT (l : Nat) : RF := ⟨0x400028 + l * 0x400, 4, 4⟩
abbrev LANEl_BL_CTL_SLIP (l : Nat) : RF := ⟨0x400030 + l * 0x400, 0, 1⟩
abbrev LANEl_BL_STAT_VHC (l : Nat) : RF := ⟨0x400034 + l * 0x400, 0, 7⟩
abbrev LANEl_BL_STAT_VHC_VALID (l : Nat) : RF := ⟨0x400034 + l * 0x400, 7, 1⟩
abbrev LANEl_BL_STAT_OFFSET (l : Nat) : RF := ⟨0x400034 + l * 0x400, 8, 7⟩
abbrev LANEl_LOS_CFG_TH (l : Nat) : RF := ⟨0x400038 + l * 0x400, 0, 4⟩
abbrev LANEl_PRBS_CTL_GEN (l : Nat) : RF := ⟨0x400040 + l * 0x400, 0, 3⟩
abbrev LANEl_PRBS_CTL_CHK (l : Nat) : RF := ⟨0x400040 + l * 0x400, 4, 3⟩
abbrev LANEl_PRBS_CTL_INJ (l : Nat) : RF := ⟨0x400040 + l * 0x400, 8, 1⟩
abbrev LANEl_PRBS_STAT_CHK_LOCK (l : Nat) : RF := ⟨0x400044 + l * 0x400, 0, 1⟩
abbrev LANEl_PRBS_ERR_COUNT (l : Nat) : RF := ⟨0x400048 + l * 0x400, 0, 32⟩
abbrev LANEl_FEC_CORR_COUNT (l : Nat) : RF := ⟨0x40004C + l * 0x400, 0, 32⟩
abbrev LANEl_FEC_UNCORR_COUNT (l : Nat) : RF := ⟨0x400050 + l * 0x400, 0, 32⟩
abbrev LANEl_BL_LOSSES_COUNT (l : Nat) : RF := ⟨0x400054 + l * 0x400, 0, 32⟩
abbrev PORTp_STATE_STATE (p : Nat) : RF := ⟨0x500000 + p * 0x2000, 0, 2⟩
abbrev PORTp_STATE_PEND (p : Nat) : RF := ⟨0x500000 + p * 0x2000, 2, 2⟩
abbrev PORTp_STATE_REQ (p : Nat) : RF := ⟨0x500000 + p * 0x2000, 4, 2⟩
abbrev PORTp_EPOCH_EPOCH (p : Nat) : RF := ⟨0x500004 + p * 0x2000, 0, 32⟩
abbrev PORTp_CFG_MFS (p : Nat) : RF := ⟨0x500008 + p * 0x2000, 0, 14⟩
abbrev PORTp_CFG_VLAN_EN (p : Nat) : RF := ⟨0x500008 + p * 0x2000, 14, 1⟩
abbrev PORTp_CFG_IGMP_EN (p : Nat) : RF := ⟨0x500008 + p * 0x2000, 15, 1⟩
abbrev PORTp_CFG_VID (p : Nat) : RF := ⟨0x500008 + p * 0x2000, 16, 12⟩
abbrev PORTp_QOS_TTL (p : Nat) : RF := ⟨0x50000C + p * 0x2000, 0, 8⟩
abbrev PORTp_QOS_DSCP_MEDIA (p : Nat) : RF := ⟨0x50000C + p * 0x2000, 8, 6⟩
abbrev PORTp_QOS_DSCP_PTP (p : Nat) : RF := ⟨0x50000C + p * 0x2000, 14, 6⟩
abbrev PORTp_MAC_L_MAC (p : Nat) : RF := ⟨0x500010 + p * 0x2000, 0, 32⟩
abbrev PORTp_MAC_H_MAC (p : Nat) : RF := ⟨0x500014 + p * 0x2000, 0, 16⟩
abbrev PORTp_IP_ADDR (p : Nat) : RF := ⟨0x500018 + p * 0x2000, 0, 32⟩
abbrev PORTp_NH_L_MAC (p : Nat) : RF := ⟨0x500020 + p * 0x2000, 0, 32⟩
abbrev PORTp_NH_H_MAC (p : Nat) : RF := ⟨0x500024 + p * 0x2000, 0, 16⟩
abbrev PORTp_PTP_PTP_EN (p : Nat) : RF := ⟨0x500030 + p * 0x2000, 0, 1⟩
abbrev PORTp_TS_ADJ_RX_ADJ (p : Nat) : RF := ⟨0x500034 + p * 0x2000, 0, 16⟩
abbrev PORTp_TS_ADJ_TX_ADJ (p : Nat) : RF := ⟨0x500034 + p * 0x2000, 16, 16⟩
abbrev PORTp_TSB_STAT_COUNT (p : Nat) : RF := ⟨0x500080 + p * 0x2000, 0, 7⟩
abbrev PORTp_TSB_ID_ID (p : Nat) : RF := ⟨0x500084 + p * 0x2000, 0, 16⟩
abbrev PORTp_TSB_ID_VALID (p : Nat) : RF := ⟨0x500084 + p * 0x2000, 31, 1⟩
abbrev PORTp_TSB_SECL_VALUE (p : Nat) : RF := ⟨0x500088 + p * 0x2000, 0, 32⟩
abbrev PORTp_TSB_SECH_VALUE (p : Nat) : RF := ⟨0x50008C + p * 0x2000, 0, 32⟩
abbrev PORTp_TSB_NS_VALUE (p : Nat) : RF := ⟨0x500090 + p * 0x2000, 0, 32⟩
abbrev PORTp_TSB_FRAC_VALUE (p : Nat) : RF := ⟨0x500094 + p * 0x2000, 0, 32⟩
abbrev PORTp_RX_FRAMES_COUNT (p : Nat) : RF := ⟨0x500100 + p * 0x2000, 0, 32⟩
abbrev PORTp_RX_BAD_COUNT (p : Nat) : RF := ⟨0x500104 + p * 0x2000, 0, 32⟩
abbrev PORTp_RX_UNMATCHED_COUNT (p : Nat) : RF := ⟨0x500108 + p * 0x2000, 0, 32⟩
abbrev PORTp_RX_LOST_COUNT (p : Nat) : RF := ⟨0x50010C + p * 0x2000, 0, 32⟩
abbrev PORTp_MERGE_DUP_COUNT (p : Nat) : RF := ⟨0x500110 + p * 0x2000, 0, 32⟩
abbrev PORTp_MERGE_SAVE_COUNT (p : Nat) : RF := ⟨0x500114 + p * 0x2000, 0, 32⟩
abbrev PORTp_TSB_LOST_COUNT (p : Nat) : RF := ⟨0x500118 + p * 0x2000, 0, 32⟩
abbrev PORTp_PTP_LOST_COUNT (p : Nat) : RF := ⟨0x50011C + p * 0x2000, 0, 32⟩
abbrev PORTp_TX_FRAMES_COUNT (p : Nat) : RF := ⟨0x500120 + p * 0x2000, 0, 32⟩
abbrev EGRp_RATE_KBPS (p : Nat) : RF := ⟨0x600000 + p * 0x2000, 0, 32⟩
abbrev EGRp_BURST_BYTES (p : Nat) : RF := ⟨0x600004 + p * 0x2000, 0, 24⟩
abbrev EGRp_CLS_FLOW (p : Nat) : RF := ⟨0x600008 + p * 0x2000, 0, 3⟩
abbrev EGRp_CLS_PTP (p : Nat) : RF := ⟨0x600008 + p * 0x2000, 4, 3⟩
abbrev EGRp_CLS_RTCP (p : Nat) : RF := ⟨0x600008 + p * 0x2000, 8, 3⟩
abbrev EGRp_CLS_STALE_US (p : Nat) : RF := ⟨0x600008 + p * 0x2000, 16, 16⟩
abbrev EGRp_GCTL_ARM (p : Nat) : RF := ⟨0x600010 + p * 0x2000, 0, 1⟩
abbrev EGRp_GCTL_PMODE (p : Nat) : RF := ⟨0x600010 + p * 0x2000, 1, 1⟩
abbrev EGRp_GCTL_PGEN (p : Nat) : RF := ⟨0x600010 + p * 0x2000, 2, 2⟩
abbrev EGRp_GCTL_PLEN (p : Nat) : RF := ⟨0x600010 + p * 0x2000, 4, 9⟩
abbrev EGRp_GSTAT_GATES (p : Nat) : RF := ⟨0x600014 + p * 0x2000, 0, 8⟩
abbrev EGRp_GSTAT_ENTRY (p : Nat) : RF := ⟨0x600014 + p * 0x2000, 8, 8⟩
abbrev EGRp_GSTAT_ACT (p : Nat) : RF := ⟨0x600014 + p * 0x2000, 16, 1⟩
abbrev EGRp_GSTAT_MODE (p : Nat) : RF := ⟨0x600014 + p * 0x2000, 17, 1⟩
abbrev EGRp_GSTAT_GEN (p : Nat) : RF := ⟨0x600014 + p * 0x2000, 18, 2⟩
abbrev EGRp_GSTAT_LISTED (p : Nat) : RF := ⟨0x600014 + p * 0x2000, 20, 1⟩
abbrev EGRp_TAKE_L_NS (p : Nat) : RF := ⟨0x600018 + p * 0x2000, 0, 32⟩
abbrev EGRp_TAKE_H_NS (p : Nat) : RF := ⟨0x60001C + p * 0x2000, 0, 32⟩
abbrev EGRp_OVERSIZE_COUNT (p : Nat) : RF := ⟨0x600020 + p * 0x2000, 0, 32⟩
abbrev EGRp_STALE_COUNT (p : Nat) : RF := ⟨0x600024 + p * 0x2000, 0, 32⟩
abbrev EGRp_GCLb_i_GATES (p b i : Nat) : RF := ⟨0x601000 + p * 0x2000 + b * 0x800 + i * 0x8, 0, 8⟩
abbrev EGRp_GCLb_i_DUR_DUR (p b i : Nat) : RF := ⟨0x601004 + p * 0x2000 + b * 0x800 + i * 0x8, 0, 32⟩
abbrev EGR_SUBs_STATE_STATE (s : Nat) : RF := ⟨0x680000 + s * 0x10, 0, 2⟩
abbrev EGR_SUBs_STATE_PEND (s : Nat) : RF := ⟨0x680000 + s * 0x10, 2, 2⟩
abbrev EGR_SUBs_EPOCH_EPOCH (s : Nat) : RF := ⟨0x680004 + s * 0x10, 0, 32⟩
abbrev EGR_SUBs_RATE_VALUE (s : Nat) : RF := ⟨0x680008 + s * 0x10, 0, 32⟩
abbrev EGR_SUBs_BURST_VALUE (s : Nat) : RF := ⟨0x68000C + s * 0x10, 0, 24⟩
abbrev EGR_SVCs_v_CFG_PORT_A (s v : Nat) : RF := ⟨0x6A0000 + s * 0x40 + v * 0x10, 0, 8⟩
abbrev EGR_SVCs_v_CFG_PORT_B (s v : Nat) : RF := ⟨0x6A0000 + s * 0x40 + v * 0x10, 8, 8⟩
abbrev EGR_SVCs_v_CFG_CLASS (s v : Nat) : RF := ⟨0x6A0000 + s * 0x40 + v * 0x10, 16, 3⟩
abbrev EGR_SVCs_v_CFG_EN (s v : Nat) : RF := ⟨0x6A0000 + s * 0x40 + v * 0x10, 24, 1⟩
abbrev EGR_SVCs_v_RATE_VALUE (s v : Nat) : RF := ⟨0x6A0004 + s * 0x40 + v * 0x10, 0, 32⟩
abbrev EGR_SVCs_v_BURST_VALUE (s v : Nat) : RF := ⟨0x6A0008 + s * 0x40 + v * 0x10, 0, 32⟩
abbrev SPX_CTL_JOIN_KEY : RF := ⟨0x700000, 0, 1⟩
abbrev SPX_CNVv_SUBBR_KBPS (v : Nat) : RF := ⟨0x700100 + v * 0x4, 0, 32⟩
abbrev SPX_SUBs_CFG_CANVAS (s : Nat) : RF := ⟨0x701000 + s * 0x10, 0, 7⟩
abbrev SPX_SUBs_CFG_NSUB (s : Nat) : RF := ⟨0x701000 + s * 0x10, 8, 5⟩
abbrev SPX_SUBs_CFG_LEVEL (s : Nat) : RF := ⟨0x701000 + s * 0x10, 16, 8⟩
abbrev SPX_SUBs_CFG_TIER (s : Nat) : RF := ⟨0x701000 + s * 0x10, 24, 1⟩
abbrev SPX_SUBs_CFG_DON (s : Nat) : RF := ⟨0x701000 + s * 0x10, 25, 1⟩
abbrev SPX_SUBs_DONDIFF_DIFF (s : Nat) : RF := ⟨0x701004 + s * 0x10, 0, 16⟩
abbrev SPX_SUBs_HRDOVER_COUNT (s : Nat) : RF := ⟨0x701008 + s * 0x10, 0, 32⟩
abbrev SPX_SUBs_DROP_COUNT (s : Nat) : RF := ⟨0x70100C + s * 0x10, 0, 32⟩
abbrev HOISTh_CTL_RESUME (h : Nat) : RF := ⟨0x80000 + h * 0x4000, 0, 1⟩
abbrev HOISTh_CTL_TMO (h : Nat) : RF := ⟨0x80000 + h * 0x4000, 8, 8⟩
abbrev HOISTh_STAT_STOPPED (h : Nat) : RF := ⟨0x80004 + h * 0x4000, 0, 1⟩
abbrev HOISTh_STAT_SCAUSE (h : Nat) : RF := ⟨0x80004 + h * 0x4000, 1, 2⟩
abbrev HOISTh_STAT_RUNNING (h : Nat) : RF := ⟨0x80004 + h * 0x4000, 8, 7⟩
abbrev HOISTh_ERR_L_ADDR (h : Nat) : RF := ⟨0x80008 + h * 0x4000, 0, 32⟩
abbrev HOISTh_ERR_H_ADDR (h : Nat) : RF := ⟨0x8000C + h * 0x4000, 0, 32⟩
abbrev HOISTh_STOPS_COUNT (h : Nat) : RF := ⟨0x80010 + h * 0x4000, 0, 32⟩
abbrev HOISTh_CHc_STATE_STATE (h c : Nat) : RF := ⟨0x81000 + h * 0x4000 + c * 0x40, 0, 2⟩
abbrev HOISTh_CHc_STATE_PEND (h c : Nat) : RF := ⟨0x81000 + h * 0x4000 + c * 0x40, 2, 2⟩
abbrev HOISTh_CHc_STATE_REQ (h c : Nat) : RF := ⟨0x81000 + h * 0x4000 + c * 0x40, 4, 2⟩
abbrev HOISTh_CHc_EPOCH_EPOCH (h c : Nat) : RF := ⟨0x81004 + h * 0x4000 + c * 0x40, 0, 32⟩
abbrev HOISTh_CHc_CFG_REQSEL (h c : Nat) : RF := ⟨0x81008 + h * 0x4000 + c * 0x40, 0, 9⟩
abbrev HOISTh_CHc_CFG_BURST (h c : Nat) : RF := ⟨0x81008 + h * 0x4000 + c * 0x40, 9, 3⟩
abbrev HOISTh_CHc_CFG_PRIO (h c : Nat) : RF := ⟨0x81008 + h * 0x4000 + c * 0x40, 12, 2⟩
abbrev HOISTh_CHc_DMAX_DESC_MAX (h c : Nat) : RF := ⟨0x8100C + h * 0x4000 + c * 0x40, 0, 21⟩
abbrev HOISTh_CHc_LIST_L_ADDR (h c : Nat) : RF := ⟨0x81010 + h * 0x4000 + c * 0x40, 4, 28⟩
abbrev HOISTh_CHc_LIST_H_ADDR (h c : Nat) : RF := ⟨0x81014 + h * 0x4000 + c * 0x40, 0, 16⟩
abbrev HOISTh_CHc_CTL_GO (h c : Nat) : RF := ⟨0x81018 + h * 0x4000 + c * 0x40, 0, 1⟩
abbrev HOISTh_CHc_STAT_RUN (h c : Nat) : RF := ⟨0x8101C + h * 0x4000 + c * 0x40, 0, 1⟩
abbrev HOISTh_CHc_STAT_DONE (h c : Nat) : RF := ⟨0x8101C + h * 0x4000 + c * 0x40, 1, 1⟩
abbrev HOISTh_CHc_STAT_HCAUSE (h c : Nat) : RF := ⟨0x8101C + h * 0x4000 + c * 0x40, 4, 4⟩
abbrev HOISTh_CHc_BYTES_L_COUNT (h c : Nat) : RF := ⟨0x81020 + h * 0x4000 + c * 0x40, 0, 32⟩
abbrev HOISTh_CHc_BYTES_H_COUNT (h c : Nat) : RF := ⟨0x81024 + h * 0x4000 + c * 0x40, 0, 32⟩
abbrev HOISTh_CHc_DCOUNT_COUNT (h c : Nat) : RF := ⟨0x81028 + h * 0x4000 + c * 0x40, 0, 21⟩
abbrev HOISTh_CHc_CUR_L_ADDR (h c : Nat) : RF := ⟨0x8102C + h * 0x4000 + c * 0x40, 0, 32⟩
abbrev HOISTh_CHc_CUR_H_ADDR (h c : Nat) : RF := ⟨0x81030 + h * 0x4000 + c * 0x40, 0, 32⟩
abbrev CEL_CTL_TRAFFIC_EN (k : Nat) : RF := ⟨0xA0000 + k * 0x10000, 0, 1⟩
abbrev CEL_CTL_RECAL_EN (k : Nat) : RF := ⟨0xA0000 + k * 0x10000, 1, 1⟩
abbrev CEL_STAT_PLL_LOCK (k : Nat) : RF := ⟨0xA0004 + k * 0x10000, 0, 1⟩
abbrev CEL_STAT_BAND (k : Nat) : RF := ⟨0xA0004 + k * 0x10000, 1, 2⟩
abbrev CEL_STAT_SREF (k : Nat) : RF := ⟨0xA0004 + k * 0x10000, 3, 1⟩
abbrev CEL_STAT_REP_PEND (k : Nat) : RF := ⟨0xA0004 + k * 0x10000, 4, 1⟩
abbrev CEL_STAT_REP_OUT (k : Nat) : RF := ⟨0xA0004 + k * 0x10000, 5, 1⟩
abbrev CEL_STAT_FENCED (k : Nat) : RF := ⟨0xA0004 + k * 0x10000, 6, 1⟩
abbrev CEL_TEMP_TJ (k : Nat) : RF := ⟨0xA0008 + k * 0x10000, 0, 8⟩
abbrev CEL_PD_IDLE_CYC (k : Nat) : RF := ⟨0xA000C + k * 0x10000, 0, 16⟩
abbrev CEL_PAGE_TMO_CYC (k : Nat) : RF := ⟨0xA0010 + k * 0x10000, 0, 12⟩
abbrev CEL_MRW_DATA (k : Nat) : RF := ⟨0xA0014 + k * 0x10000, 0, 8⟩
abbrev CEL_MRW_MR (k : Nat) : RF := ⟨0xA0014 + k * 0x10000, 8, 4⟩
abbrev CEL_MRW_CH (k : Nat) : RF := ⟨0xA0014 + k * 0x10000, 12, 4⟩
abbrev CEL_MRW_ALLCH (k : Nat) : RF := ⟨0xA0014 + k * 0x10000, 16, 1⟩
abbrev CEL_MRW_GO (k : Nat) : RF := ⟨0xA0014 + k * 0x10000, 31, 1⟩
abbrev CEL_TRN_CTL_GO (k : Nat) : RF := ⟨0xA0020 + k * 0x10000, 0, 1⟩
abbrev CEL_TRN_CTL_TGT (k : Nat) : RF := ⟨0xA0020 + k * 0x10000, 1, 2⟩
abbrev CEL_TRN_CTL_PAT (k : Nat) : RF := ⟨0xA0020 + k * 0x10000, 3, 3⟩
abbrev CEL_TRN_CTL_PC (k : Nat) : RF := ⟨0xA0020 + k * 0x10000, 6, 5⟩
abbrev CEL_TRN_CTL_LOG2N (k : Nat) : RF := ⟨0xA0020 + k * 0x10000, 11, 5⟩
abbrev CEL_TRN_STAT_BUSY (k : Nat) : RF := ⟨0xA0024 + k * 0x10000, 0, 1⟩
abbrev CEL_TRN_STAT_DONE (k : Nat) : RF := ⟨0xA0024 + k * 0x10000, 1, 1⟩
abbrev CEL_TRN_ROW_ROW (k : Nat) : RF := ⟨0xA0028 + k * 0x10000, 0, 21⟩
abbrev CEL_TRN_USERi_PAT (k i : Nat) : RF := ⟨0xA0040 + k * 0x10000 + i * 0x4, 0, 32⟩
abbrev CEL_TRN_ERRd_COUNT (k d : Nat) : RF := ⟨0xA0080 + k * 0x10000 + d * 0x4, 0, 32⟩
abbrev CEL_LSEL_PC (k : Nat) : RF := ⟨0xA0100 + k * 0x10000, 0, 5⟩
abbrev CEL_LSEL_LANE (k : Nat) : RF := ⟨0xA0100 + k * 0x10000, 5, 6⟩
abbrev CEL_LANE_DLY_RD (k : Nat) : RF := ⟨0xA0104 + k * 0x10000, 0, 7⟩
abbrev CEL_LANE_DLY_WR (k : Nat) : RF := ⟨0xA0104 + k * 0x10000, 16, 7⟩
abbrev CEL_LANE_CE_COUNT (k : Nat) : RF := ⟨0xA0108 + k * 0x10000, 0, 32⟩
abbrev CEL_PC_VREF_VREF (k : Nat) : RF := ⟨0xA010C + k * 0x10000, 0, 6⟩
abbrev CEL_REPAIRp_SP0_LANE (k p : Nat) : RF := ⟨0xA0200 + k * 0x10000 + p * 0x4, 0, 6⟩
abbrev CEL_REPAIRp_SP0_EN (k p : Nat) : RF := ⟨0xA0200 + k * 0x10000 + p * 0x4, 6, 1⟩
abbrev CEL_REPAIRp_SP1_LANE (k p : Nat) : RF := ⟨0xA0200 + k * 0x10000 + p * 0x4, 8, 6⟩
abbrev CEL_REPAIRp_SP1_EN (k p : Nat) : RF := ⟨0xA0200 + k * 0x10000 + p * 0x4, 14, 1⟩
abbrev CEL_REPAIRp_FENCE (k p : Nat) : RF := ⟨0xA0200 + k * 0x10000 + p * 0x4, 16, 1⟩
abbrev CEL_CAREPc_LANE (k c : Nat) : RF := ⟨0xA0280 + k * 0x10000 + c * 0x4, 0, 5⟩
abbrev CEL_CAREPc_EN (k c : Nat) : RF := ⟨0xA0280 + k * 0x10000 + c * 0x4, 5, 1⟩
abbrev CEL_LOST_L_ADDR (k : Nat) : RF := ⟨0xA0300 + k * 0x10000, 0, 32⟩
abbrev CEL_LOST_H_ADDR (k : Nat) : RF := ⟨0xA0304 + k * 0x10000, 0, 32⟩
abbrev CEL_RAWWAIT_COUNT (k : Nat) : RF := ⟨0xA0310 + k * 0x10000, 0, 32⟩
abbrev CEL_RECALS_COUNT (k : Nat) : RF := ⟨0xA0314 + k * 0x10000, 0, 32⟩
abbrev CEL_LOSTS_COUNT (k : Nat) : RF := ⟨0xA0318 + k * 0x10000, 0, 32⟩
abbrev SCRUB_CTL_EN : RF := ⟨0xC0000, 0, 1⟩
abbrev SCRUB_STAT_BUSY : RF := ⟨0xC0004, 0, 1⟩
abbrev SCRUB_STAT_RANGE : RF := ⟨0xC0004, 1, 3⟩
abbrev SCRUB_RATE_KBPS : RF := ⟨0xC0008, 0, 20⟩
abbrev SCRUB_PASSES_VALUE : RF := ⟨0xC000C, 0, 32⟩
abbrev SCRUB_POS_L_VALUE : RF := ⟨0xC0010, 0, 32⟩
abbrev SCRUB_POS_H_VALUE : RF := ⟨0xC0014, 0, 32⟩
abbrev SCRUB_RNGr_BASE_UNITS (r : Nat) : RF := ⟨0xC0020 + r * 0x8, 0, 32⟩
abbrev SCRUB_RNGr_SIZE_UNITS (r : Nat) : RF := ⟨0xC0024 + r * 0x8, 0, 32⟩
abbrev ECC_FLIPf_DATAi_MASK (f i : Nat) : RF := ⟨0xC0100 + f * 0x40 + i * 0x4, 0, 32⟩
abbrev ECC_FLIPf_CHECK_MASK (f : Nat) : RF := ⟨0xC0114 + f * 0x40, 0, 9⟩
abbrev ECC_FLIPf_CTL_ARM (f : Nat) : RF := ⟨0xC0118 + f * 0x40, 0, 1⟩
abbrev ECC_FLIPf_CTL_MATCH (f : Nat) : RF := ⟨0xC0118 + f * 0x40, 1, 1⟩
abbrev ECC_FLIPf_CTL_CW (f : Nat) : RF := ⟨0xC0118 + f * 0x40, 2, 2⟩
abbrev ECC_FLIPf_CTL_CLR (f : Nat) : RF := ⟨0xC0118 + f * 0x40, 4, 1⟩
abbrev ECC_FLIPf_CTL_RECS (f : Nat) : RF := ⟨0xC0118 + f * 0x40, 8, 4⟩
abbrev ECC_FLIPf_ADDR_L_ADDR (f : Nat) : RF := ⟨0xC011C + f * 0x40, 0, 32⟩
abbrev ECC_FLIPf_ADDR_H_ADDR (f : Nat) : RF := ⟨0xC0120 + f * 0x40, 0, 16⟩
abbrev CHK_INJ_SEL_GROUP : RF := ⟨0xC0300, 0, 2⟩
abbrev CHK_INJ_SEL_UNIT : RF := ⟨0xC0300, 8, 8⟩
abbrev CHK_INJ_CTL_COUNT : RF := ⟨0xC0304, 0, 8⟩
abbrev CHK_INJ_CTL_ARM : RF := ⟨0xC0304, 8, 1⟩
abbrev ECC_CEf_COUNT (f : Nat) : RF := ⟨0xC0400 + f * 0x8, 0, 32⟩
abbrev ECC_UCEf_COUNT (f : Nat) : RF := ⟨0xC0404 + f * 0x8, 0, 32⟩
abbrev TALLY_CTL_FWD_EN : RF := ⟨0x50000, 0, 1⟩
abbrev TALLY_CTL_FWD_Q : RF := ⟨0x50000, 1, 2⟩
abbrev TALLY_CTL_FWD_MIN : RF := ⟨0x50000, 3, 3⟩
abbrev TALLY_CTL_INJ_COUNT : RF := ⟨0x50000, 6, 1⟩
abbrev TALLY_STAT_FATAL : RF := ⟨0x50004, 0, 1⟩
abbrev TALLY_STAT_ALERT : RF := ⟨0x50004, 1, 1⟩
abbrev TALLY_STAT_SWEEP : RF := ⟨0x50004, 2, 1⟩
abbrev TALLY_STAT_REPLACE : RF := ⟨0x50004, 3, 1⟩
abbrev TALLY_UNACK_UNACK : RF := ⟨0x50008, 0, 9⟩
abbrev TALLY_UNACK_LVL_LVL : RF := ⟨0x5000C, 0, 27⟩
abbrev TALLY_REPL_CAUSE : RF := ⟨0x50010, 0, 5⟩
abbrev TALLY_THERM_S_SECONDS : RF := ⟨0x50014, 0, 32⟩
abbrev TALLY_MERGED_COUNT : RF := ⟨0x50018, 0, 32⟩
abbrev TALLY_SRC_SEL_ID : RF := ⟨0x50020, 0, 12⟩
abbrev TALLY_SRC_DATA_COUNT : RF := ⟨0x50024, 0, 16⟩
abbrev TALLY_SRC_DATA_STICKY : RF := ⟨0x50024, 16, 1⟩
abbrev TALLY_SRC_DATA_SEV : RF := ⟨0x50024, 17, 1⟩
abbrev TALLY_SRC_DATA_STREAK : RF := ⟨0x50024, 18, 2⟩
abbrev TALLY_SRC_DATA_REACHED : RF := ⟨0x50024, 20, 1⟩
abbrev TALLY_WINc_SECONDS (c : Nat) : RF := ⟨0x50040 + c * 0x8, 0, 17⟩
abbrev TALLY_NSEVc_N (c : Nat) : RF := ⟨0x50044 + c * 0x8, 0, 16⟩
abbrev TALLY_STICKYi_STICKY (i : Nat) : RF := ⟨0x50100 + i * 0x4, 0, 32⟩
abbrev TALLY_SEVi_SEV (i : Nat) : RF := ⟨0x50300 + i * 0x4, 0, 32⟩
abbrev EVC_SPURIOUSt_COUNT (t : Nat) : RF := ⟨0x40010 + t * 0x4, 0, 32⟩
abbrev EVC_CLAIMt_SOURCE (t : Nat) : RF := ⟨0x40040 + t * 0x10, 0, 10⟩
abbrev EVC_CLAIMt_EVENT (t : Nat) : RF := ⟨0x40040 + t * 0x10, 10, 6⟩
abbrev EVC_CLAIMt_VALID (t : Nat) : RF := ⟨0x40040 + t * 0x10, 16, 1⟩
abbrev EVC_DONEt_SOURCE (t : Nat) : RF := ⟨0x40044 + t * 0x10, 0, 10⟩
abbrev EVC_CLAIMPIC_Lt_PIC (t : Nat) : RF := ⟨0x40048 + t * 0x10, 0, 32⟩
abbrev EVC_CLAIMPIC_Ht_PIC (t : Nat) : RF := ⟨0x4004C + t * 0x10, 0, 32⟩
abbrev EVC_INSVt_SOURCE (t : Nat) : RF := ⟨0x40100 + t * 0x4, 0, 10⟩
abbrev EVC_INSVt_VALID (t : Nat) : RF := ⟨0x40100 + t * 0x4, 16, 1⟩
abbrev EVC_INSVt_GONE (t : Nat) : RF := ⟨0x40100 + t * 0x4, 17, 1⟩
abbrev EVC_INCFGi_GF_CYC (i : Nat) : RF := ⟨0x40180 + i * 0x4, 0, 10⟩
abbrev EVC_INCFGi_MODE (i : Nat) : RF := ⟨0x40180 + i * 0x4, 10, 2⟩
abbrev EVC_INCFGi_RAW (i : Nat) : RF := ⟨0x40180 + i * 0x4, 16, 1⟩
abbrev EVC_INCFGi_FILT (i : Nat) : RF := ⟨0x40180 + i * 0x4, 17, 1⟩
abbrev EVC_HOLDg_HOLD (g : Nat) : RF := ⟨0x40200 + g * 0x4, 0, 16⟩
abbrev EVC_TMRi_PERIOD (i : Nat) : RF := ⟨0x40300 + i * 0x4, 0, 20⟩
abbrev EVC_TMRi_EN (i : Nat) : RF := ⟨0x40300 + i * 0x4, 31, 1⟩
abbrev EVC_PREEMPT_SCULL : RF := ⟨0x40340, 0, 8⟩
abbrev EVC_PREEMPT_LEVEL : RF := ⟨0x40340, 8, 2⟩
abbrev EVC_PREEMPT_ABORT : RF := ⟨0x40340, 10, 1⟩
abbrev EVC_PENDi_PEND (i : Nat) : RF := ⟨0x40400 + i * 0x4, 0, 32⟩
abbrev EVC_ACTi_ACT (i : Nat) : RF := ⟨0x40480 + i * 0x4, 0, 32⟩
abbrev EVC_TGTn_TGT (n : Nat) : RF := ⟨0x41000 + n * 0x4, 0, 4⟩
abbrev CLKPWR_RSTCAUSE_POR : RF := ⟨0x10000, 0, 1⟩
abbrev CLKPWR_RSTCAUSE_PIN : RF := ⟨0x10000, 1, 1⟩
abbrev CLKPWR_RSTCAUSE_CLX : RF := ⟨0x10000, 2, 1⟩
abbrev CLKPWR_CLKRUN_RUN : RF := ⟨0x10004, 0, 22⟩
abbrev CLKPWR_SLEEP_WAKE_EN : RF := ⟨0x10010, 0, 3⟩
abbrev CLKPWR_SLEEP_WAKE_SRC : RF := ⟨0x10010, 3, 3⟩
abbrev CLKPWR_SLEEP_ABORTED : RF := ⟨0x10010, 6, 1⟩
abbrev CLKPWR_SLEEP_SCRUB_HOLD : RF := ⟨0x10010, 7, 1⟩
abbrev CLKPWR_SLEEP_ABORTS : RF := ⟨0x10010, 16, 16⟩
abbrev CLKPWR_SWAP_BUSY : RF := ⟨0x10018, 0, 1⟩
abbrev CLKPWR_SWAP_REVERTED : RF := ⟨0x10018, 1, 1⟩
abbrev CLKPWR_PDn_STATE (n : Nat) : RF := ⟨0x10100 + n * 0x4, 0, 2⟩
abbrev CLKPWR_PDn_PEND (n : Nat) : RF := ⟨0x10100 + n * 0x4, 2, 2⟩
abbrev CLKPWR_PDn_REQ (n : Nat) : RF := ⟨0x10100 + n * 0x4, 4, 2⟩
abbrev MON_TMAX_TJ : RF := ⟨0x20000, 0, 8⟩
abbrev MON_TMAX_SRC : RF := ⟨0x20000, 8, 6⟩
abbrev MON_TMAX_CEIL : RF := ⟨0x20000, 16, 2⟩
abbrev MON_TEMPi_TJ (i : Nat) : RF := ⟨0x20100 + i * 0x4, 0, 8⟩
abbrev MON_RAILr_MV_MV (r : Nat) : RF := ⟨0x20200 + r * 0x8, 0, 12⟩
abbrev MON_RAILr_CFG_WARN (r : Nat) : RF := ⟨0x20204 + r * 0x8, 0, 8⟩
abbrev MON_RAILr_CFG_FAULT (r : Nat) : RF := ⟨0x20204 + r * 0x8, 8, 8⟩
abbrev MON_RAILr_CFG_WARN_SEEN (r : Nat) : RF := ⟨0x20204 + r * 0x8, 16, 1⟩
abbrev MON_RAILr_CFG_FAULT_SEEN (r : Nat) : RF := ⟨0x20204 + r * 0x8, 17, 1⟩
abbrev MON_PROCf_COUNT (f : Nat) : RF := ⟨0x20300 + f * 0x4, 0, 16⟩
abbrev MON_AVS_CTL_EN : RF := ⟨0x20400, 0, 1⟩
abbrev MON_AVS_CTL_PEC : RF := ⟨0x20400, 1, 1⟩
abbrev MON_AVS_CTL_ADDR : RF := ⟨0x20400, 2, 7⟩
abbrev MON_AVS_TGT_COUNT : RF := ⟨0x20404, 0, 16⟩
abbrev MON_AVS_TGT_HYST : RF := ⟨0x20404, 16, 8⟩
abbrev MON_AVS_STAT_MV : RF := ⟨0x20408, 0, 12⟩
abbrev MON_AVS_STAT_LIMIT : RF := ⟨0x20408, 12, 1⟩
abbrev MON_AVS_STAT_PMB_ERR : RF := ⟨0x20408, 13, 1⟩
abbrev DEV_ID_ID : RF := ⟨0x0, 0, 32⟩
abbrev DEV_REV_MINOR : RF := ⟨0x4, 0, 4⟩
abbrev DEV_REV_MAJOR : RF := ⟨0x4, 4, 4⟩
abbrev DEV_REV_ROM : RF := ⟨0x4, 8, 8⟩
abbrev DEV_STRAP_MGMT_ETYPE_SEL : RF := ⟨0x8, 0, 1⟩
abbrev DEV_STRAP_MGMT_OPEN : RF := ⟨0x8, 1, 1⟩
abbrev DEV_STRAP_CP_SEL : RF := ⟨0x8, 2, 1⟩
abbrev DEV_STRAP_BOOT_WAIT : RF := ⟨0x8, 3, 1⟩
abbrev DEV_UNITS_CREWS : RF := ⟨0xC, 0, 4⟩
abbrev DEV_UNITS_STACKS : RF := ⟨0xC, 4, 2⟩
abbrev DEV_HAND_PTP_SERVO : RF := ⟨0x10, 0, 1⟩
abbrev DEV_HAND_STROKE : RF := ⟨0x10, 1, 1⟩
abbrev DEV_HAND_CEL_TRAIN : RF := ⟨0x10, 2, 1⟩
abbrev DEV_HAND_SCRUB : RF := ⟨0x10, 3, 1⟩
abbrev DEV_HAND_ADMIT : RF := ⟨0x10, 4, 1⟩
abbrev DEV_HAND_RC_MODEL : RF := ⟨0x10, 5, 1⟩
abbrev DEV_HAND_GATES : RF := ⟨0x10, 6, 1⟩
abbrev DEV_HAND_LANE_EQ : RF := ⟨0x10, 7, 1⟩
abbrev DEV_HAND_HOIST_HI : RF := ⟨0x10, 8, 1⟩
abbrev DEV_HAND_UCODE : RF := ⟨0x10, 9, 1⟩
abbrev DEV_HAND_TALLY_THR : RF := ⟨0x10, 10, 1⟩
abbrev DEV_HEALTH_DSTATE : RF := ⟨0x14, 0, 2⟩
abbrev DEV_HEALTH_REPLACE : RF := ⟨0x14, 2, 1⟩
abbrev DEV_HEALTH_ALERT : RF := ⟨0x14, 3, 1⟩
abbrev DEV_HEALTH_FATAL : RF := ⟨0x14, 4, 1⟩
abbrev DEV_HEALTH_DEMOTED : RF := ⟨0x14, 5, 1⟩
abbrev DEV_HEALTH_CEIL : RF := ⟨0x14, 6, 2⟩
abbrev DEV_HEALTH_LIVE : RF := ⟨0x14, 16, 8⟩
abbrev DEV_FWVER_BUILD : RF := ⟨0x18, 0, 16⟩
abbrev DEV_FWVER_MINOR : RF := ⟨0x18, 16, 8⟩
abbrev DEV_FWVER_MAJOR : RF := ⟨0x18, 24, 8⟩
abbrev DEV_SCRATCH_DATA : RF := ⟨0x1C, 0, 32⟩
abbrev DEV_UID_L_UID : RF := ⟨0x20, 0, 32⟩
abbrev DEV_UID_H_UID : RF := ⟨0x24, 0, 32⟩
end R

end Sys2Proof.Machine
end

