-- ==== Sys2Proof/Machine/RegMap.lean ====
section
/-!
DEFINITION. The management register map (R615-R620): every register of the part as a template, with its owner and its
fields' types, reset values and legal encodings, written from the register tables of the chapters. A template covers the
instances `base + i*s1 + j*s2 + k*s3` with `i < n1`, `j < n2`, `k < n3`.
-/
namespace Sys2Proof.Machine

/-- The types of a register field (R8). No register of the part holds a W1S or a WONCE field. -/
inductive FKind where
  | rw | ro | w1c | w1s | wo | wonce
  deriving DecidableEq, Repr

/-- One field of a template: lowest bit, width, type, reset value, least and greatest legal encoding (R15), whether it is
sticky, and whether eFuse gives its reset value (R11). -/
structure FieldT where
  lo : Nat
  w : Nat
  kind : FKind
  reset : Nat
  minV : Nat
  maxV : Nat
  sticky : Bool
  fuse : Bool
  deriving DecidableEq, Repr

/-- Who writes a register's writable fields (the owner column above R620): the host, Cox firmware, the writer that a
DEV_HAND bit selects, the owner of a Hoist's registers (R460), or nobody. -/
inductive Owner where
  | host | fw | hand (bit : Nat) | hoist | none
  deriving DecidableEq, Repr

/-- One register template. -/
structure RegT where
  base : Nat
  n1 : Nat
  s1 : Nat
  n2 : Nat
  s2 : Nat
  n3 : Nat
  s3 : Nat
  owner : Owner
  fields : List FieldT
  deriving DecidableEq, Repr

/-- The register templates of block TIME (R615). -/
def regMapTime : List RegT := [
  -- TIME_CTL (R60)
  ⟨0x30000, 1, 0x0, 1, 0x0, 1, 0x0, .hand 0, [⟨0, 1, .wo, 0, 0, 1, false, false⟩, ⟨1, 1, .rw, 0, 0, 1, false, false⟩, ⟨2, 1, .rw, 1, 0, 1, false, false⟩, ⟨3, 1, .rw, 0, 0, 1, false, false⟩, ⟨16, 8, .rw, 127, 0, 255, false, false⟩]⟩,
  -- TIME_STAT (R60)
  ⟨0x30004, 1, 0x0, 1, 0x0, 1, 0x0, .host, [⟨0, 1, .ro, 1, 0, 1, false, false⟩, ⟨1, 1, .ro, 0, 0, 1, false, false⟩, ⟨2, 1, .ro, 0, 0, 1, false, false⟩, ⟨3, 1, .w1c, 0, 0, 1, false, false⟩, ⟨4, 1, .w1c, 0, 0, 1, false, false⟩, ⟨5, 1, .w1c, 0, 0, 1, false, false⟩, ⟨6, 1, .w1c, 0, 0, 1, false, false⟩, ⟨8, 8, .ro, 0, 0, 255, false, false⟩]⟩,
  -- TIME_NOW_SECL (R60)
  ⟨0x30010, 1, 0x0, 1, 0x0, 1, 0x0, .none, [⟨0, 32, .ro, 0, 0, 4294967295, false, false⟩]⟩,
  -- TIME_NOW_SECH (R60)
  ⟨0x30014, 1, 0x0, 1, 0x0, 1, 0x0, .none, [⟨0, 32, .ro, 0, 0, 4294967295, false, false⟩]⟩,
  -- TIME_NOW_NS (R60)
  ⟨0x30018, 1, 0x0, 1, 0x0, 1, 0x0, .none, [⟨0, 30, .ro, 0, 0, 1073741823, false, false⟩]⟩,
  -- TIME_NOW_FRAC (R60)
  ⟨0x3001C, 1, 0x0, 1, 0x0, 1, 0x0, .none, [⟨0, 32, .ro, 0, 0, 4294967295, false, false⟩]⟩,
  -- TIME_STEP_SECL (R60)
  ⟨0x30020, 1, 0x0, 1, 0x0, 1, 0x0, .hand 0, [⟨0, 32, .rw, 0, 0, 4294967295, false, false⟩]⟩,
  -- TIME_STEP_SECH (R60)
  ⟨0x30024, 1, 0x0, 1, 0x0, 1, 0x0, .hand 0, [⟨0, 32, .rw, 0, 0, 4294967295, false, false⟩]⟩,
  -- TIME_STEP_NS (R60)
  ⟨0x30028, 1, 0x0, 1, 0x0, 1, 0x0, .hand 0, [⟨0, 30, .rw, 0, 0, 999999999, false, false⟩, ⟨31, 1, .wo, 0, 0, 1, false, false⟩]⟩,
  -- TIME_RATE_L (R60)
  ⟨0x30030, 1, 0x0, 1, 0x0, 1, 0x0, .hand 0, [⟨0, 32, .rw, 0, 0, 4294967295, false, false⟩]⟩,
  -- TIME_RATE_H (R60)
  ⟨0x30034, 1, 0x0, 1, 0x0, 1, 0x0, .hand 0, [⟨0, 8, .rw, 0, 0, 255, false, false⟩]⟩,
  -- TIME_PPS_SEC (R60)
  ⟨0x30040, 1, 0x0, 1, 0x0, 1, 0x0, .none, [⟨0, 32, .ro, 0, 0, 4294967295, false, false⟩]⟩,
  -- TIME_PPS_NS (R60)
  ⟨0x30044, 1, 0x0, 1, 0x0, 1, 0x0, .none, [⟨0, 30, .ro, 0, 0, 1073741823, false, false⟩]⟩,
  -- TIME_PPSO_WIDTH (R60)
  ⟨0x30048, 1, 0x0, 1, 0x0, 1, 0x0, .hand 0, [⟨0, 16, .rw, 100, 1, 65535, false, false⟩]⟩,
  -- STRKg_CTL (R61)
  ⟨0x30100, 4, 0x40, 1, 0x0, 1, 0x0, .hand 1, [⟨0, 1, .rw, 0, 0, 1, false, false⟩, ⟨1, 1, .ro, 0, 0, 1, false, false⟩, ⟨8, 8, .ro, 0, 0, 255, false, false⟩]⟩,
  -- STRKg_PNUM (R61)
  ⟨0x30104, 4, 0x40, 1, 0x0, 1, 0x0, .hand 1, [⟨0, 32, .rw, 50000000, 0, 4294967295, false, false⟩]⟩,
  -- STRKg_PDEN (R61)
  ⟨0x30108, 4, 0x40, 1, 0x0, 1, 0x0, .hand 1, [⟨0, 16, .rw, 3, 0, 65535, false, false⟩]⟩,
  -- STRKg_PHASE (R61)
  ⟨0x3010C, 4, 0x40, 1, 0x0, 1, 0x0, .hand 1, [⟨0, 30, .rw, 0, 0, 1073741823, false, false⟩]⟩,
  -- STRKg_IDX_L (R61)
  ⟨0x30110, 4, 0x40, 1, 0x0, 1, 0x0, .none, [⟨0, 32, .ro, 0, 0, 4294967295, false, false⟩]⟩,
  -- STRKg_IDX_H (R61)
  ⟨0x30114, 4, 0x40, 1, 0x0, 1, 0x0, .none, [⟨0, 32, .ro, 0, 0, 4294967295, false, false⟩]⟩,
  -- STRKg_LAST_NS (R61)
  ⟨0x30118, 4, 0x40, 1, 0x0, 1, 0x0, .none, [⟨0, 30, .ro, 0, 0, 1073741823, false, false⟩]⟩]

/-- The register templates of block STREAM (R615). -/
def regMapStream : List RegT := [
  -- STRMn_STATE (R91)
  ⟨0x320000, 128, 0x200, 1, 0x0, 1, 0x0, .none, [⟨0, 2, .ro, 0, 0, 3, false, false⟩, ⟨2, 2, .ro, 0, 0, 3, false, false⟩, ⟨4, 3, .ro, 0, 0, 7, false, false⟩, ⟨8, 2, .ro, 0, 0, 3, false, false⟩, ⟨10, 3, .ro, 0, 0, 7, false, false⟩]⟩,
  -- STRMn_EPOCH (R91)
  ⟨0x320004, 128, 0x200, 1, 0x0, 1, 0x0, .none, [⟨0, 32, .ro, 0, 0, 4294967295, false, false⟩]⟩,
  -- STRMn_KOPEN (R91)
  ⟨0x320008, 128, 0x200, 1, 0x0, 1, 0x0, .none, [⟨0, 32, .ro, 0, 0, 4294967295, false, false⟩]⟩,
  -- STRMn_REFRESH (R128)
  ⟨0x320010, 128, 0x200, 1, 0x0, 1, 0x0, .none, [⟨0, 8, .ro, 0, 0, 255, false, false⟩, ⟨8, 1, .ro, 0, 0, 1, false, false⟩, ⟨9, 1, .ro, 0, 0, 1, false, false⟩, ⟨10, 1, .ro, 0, 0, 1, false, false⟩]⟩,
  -- STRMn_KEYS (R128)
  ⟨0x320014, 128, 0x200, 1, 0x0, 1, 0x0, .none, [⟨0, 16, .ro, 0, 0, 65535, false, false⟩, ⟨16, 16, .ro, 0, 0, 65535, false, false⟩]⟩,
  -- STRMn_SCHED (R164)
  ⟨0x320018, 128, 0x200, 1, 0x0, 1, 0x0, .hand 4, [⟨0, 2, .rw, 0, 0, 3, false, false⟩, ⟨2, 3, .rw, 4, 0, 4, false, false⟩, ⟨5, 3, .rw, 4, 0, 4, false, false⟩, ⟨8, 4, .rw, 8, 0, 15, false, false⟩, ⟨12, 2, .rw, 0, 0, 3, false, false⟩]⟩,
  -- STRMn_LATE (R164)
  ⟨0x32001C, 128, 0x200, 1, 0x0, 1, 0x0, .none, [⟨0, 32, .ro, 0, 0, 4294967295, false, false⟩]⟩,
  -- STRMn_DCTL (R247)
  ⟨0x320040, 128, 0x200, 1, 0x0, 1, 0x0, .none, [⟨0, 6, .ro, 0, 0, 63, false, false⟩, ⟨6, 1, .ro, 0, 0, 1, false, false⟩, ⟨7, 2, .ro, 0, 0, 3, false, false⟩, ⟨9, 4, .ro, 0, 0, 15, false, false⟩, ⟨13, 1, .ro, 0, 0, 1, false, false⟩]⟩,
  -- STRMn_DSTAT (R247)
  ⟨0x320044, 128, 0x200, 1, 0x0, 1, 0x0, .none, [⟨0, 1, .ro, 0, 0, 1, false, false⟩, ⟨1, 1, .ro, 0, 0, 1, false, false⟩, ⟨2, 1, .ro, 0, 0, 1, false, false⟩, ⟨3, 1, .ro, 0, 0, 1, false, false⟩]⟩,
  -- STRMn_DCONC (R247)
  ⟨0x320048, 128, 0x200, 1, 0x0, 1, 0x0, .none, [⟨0, 32, .ro, 0, 0, 4294967295, false, false⟩]⟩,
  -- STRMn_DSEGS (R247)
  ⟨0x32004C, 128, 0x200, 1, 0x0, 1, 0x0, .none, [⟨0, 32, .ro, 0, 0, 4294967295, false, false⟩]⟩,
  -- STRMn_DSUBS (R247)
  ⟨0x320050, 128, 0x200, 1, 0x0, 1, 0x0, .none, [⟨0, 32, .ro, 0, 0, 4294967295, false, false⟩]⟩,
  -- STRMn_DNOAU (R247)
  ⟨0x320054, 128, 0x200, 1, 0x0, 1, 0x0, .none, [⟨0, 32, .ro, 0, 0, 4294967295, false, false⟩]⟩,
  -- STRMn_DLATE (R247)
  ⟨0x320058, 128, 0x200, 1, 0x0, 1, 0x0, .none, [⟨0, 32, .ro, 0, 0, 4294967295, false, false⟩]⟩,
  -- STRMn_DDROP (R247)
  ⟨0x32005C, 128, 0x200, 1, 0x0, 1, 0x0, .none, [⟨0, 32, .ro, 0, 0, 4294967295, false, false⟩]⟩]

/-- The register templates of block CANVAS (R615). -/
def regMapCanvas : List RegT := [
  -- FEEDf_EARLY (R92)
  ⟨0x341000, 256, 0x10, 1, 0x0, 1, 0x0, .none, [⟨0, 32, .ro, 0, 0, 4294967295, false, false⟩]⟩,
  -- FEEDf_LATE (R92)
  ⟨0x341004, 256, 0x10, 1, 0x0, 1, 0x0, .none, [⟨0, 32, .ro, 0, 0, 4294967295, false, false⟩]⟩,
  -- FEEDf_FILLED (R92)
  ⟨0x341008, 256, 0x10, 1, 0x0, 1, 0x0, .none, [⟨0, 32, .ro, 0, 0, 4294967295, false, false⟩]⟩,
  -- CNVv_HOMEw (R165)
  ⟨0x344000, 8, 0x80, 32, 0x4, 1, 0x0, .hand 4, [⟨0, 32, .rw, 0, 0, 4294967295, false, false⟩]⟩]

/-- The register templates of block CREW (R615). -/
def regMapCrew : List RegT := [
  -- CREWc_CTL (R163)
  ⟨0x100000, 4, 0x10000, 1, 0x0, 1, 0x0, .hand 4, [⟨0, 1, .rw, 1, 0, 1, false, false⟩, ⟨1, 1, .rw, 1, 0, 1, false, false⟩, ⟨2, 2, .rw, 0, 0, 3, false, false⟩, ⟨4, 2, .rw, 0, 0, 3, false, false⟩]⟩,
  -- CREWc_STAT (R163)
  ⟨0x100004, 4, 0x10000, 1, 0x0, 1, 0x0, .none, [⟨0, 6, .ro, 32, 0, 63, false, false⟩, ⟨6, 3, .ro, 4, 0, 7, false, false⟩, ⟨9, 1, .ro, 0, 0, 1, false, false⟩, ⟨10, 2, .ro, 0, 0, 3, false, false⟩]⟩,
  -- CREWc_QSTAT (R163)
  ⟨0x100008, 4, 0x10000, 1, 0x0, 1, 0x0, .none, [⟨0, 11, .ro, 0, 0, 2047, false, false⟩, ⟨16, 11, .ro, 0, 0, 2047, false, false⟩]⟩,
  -- CREWc_GUARD (R163)
  ⟨0x100010, 4, 0x10000, 1, 0x0, 1, 0x0, .fw, [⟨0, 16, .rw, 2000, 0, 65535, false, false⟩]⟩,
  -- CREWc_HORIZON (R163)
  ⟨0x100014, 4, 0x10000, 1, 0x0, 1, 0x0, .fw, [⟨0, 20, .rw, 200000, 10000, 1000000, false, false⟩]⟩,
  -- CREWc_RETIRE (R163)
  ⟨0x100018, 4, 0x10000, 1, 0x0, 1, 0x0, .fw, [⟨0, 4, .rw, 3, 1, 15, false, false⟩]⟩,
  -- CREWc_LATE (R163)
  ⟨0x100020, 4, 0x10000, 1, 0x0, 1, 0x0, .none, [⟨0, 32, .ro, 0, 0, 4294967295, false, false⟩]⟩,
  -- CREWc_STEALS (R163)
  ⟨0x100024, 4, 0x10000, 1, 0x0, 1, 0x0, .none, [⟨0, 32, .ro, 0, 0, 4294967295, false, false⟩]⟩,
  -- CREWc_QFULL (R163)
  ⟨0x100028, 4, 0x10000, 1, 0x0, 1, 0x0, .none, [⟨0, 32, .ro, 0, 0, 4294967295, false, false⟩]⟩,
  -- CREWc_LDR_CARRY (R163)
  ⟨0x10002C, 4, 0x10000, 1, 0x0, 1, 0x0, .none, [⟨0, 32, .ro, 0, 0, 4294967295, false, false⟩]⟩,
  -- CREWc_STATE (R163)
  ⟨0x100030, 4, 0x10000, 1, 0x0, 1, 0x0, .none, [⟨0, 2, .ro, 0, 0, 3, false, false⟩, ⟨2, 2, .ro, 0, 0, 3, false, false⟩]⟩,
  -- CREWc_EPOCH (R163)
  ⟨0x100034, 4, 0x10000, 1, 0x0, 1, 0x0, .none, [⟨0, 32, .ro, 0, 0, 4294967295, false, false⟩]⟩,
  -- CREWc_SEATj (R163)
  ⟨0x100080, 4, 0x10000, 32, 0x4, 1, 0x0, .hand 4, [⟨0, 6, .rw, 0, 0, 35, false, false⟩, ⟨7, 1, .rw, 1, 0, 1, false, false⟩]⟩,
  -- CREWc_SCULLq (R163)
  ⟨0x100100, 4, 0x10000, 36, 0x4, 1, 0x0, .none, [⟨0, 2, .ro, 0, 0, 3, true, false⟩, ⟨2, 4, .ro, 0, 0, 15, true, false⟩]⟩,
  -- CREWc_LDR_ADDR (R163)
  ⟨0x100300, 4, 0x10000, 1, 0x0, 1, 0x0, .fw, [⟨0, 20, .rw, 0, 0, 786431, false, false⟩]⟩,
  -- CREWc_LDR_DATA (R163)
  ⟨0x100304, 4, 0x10000, 1, 0x0, 1, 0x0, .fw, [⟨0, 32, .rw, 0, 0, 4294967295, false, false⟩]⟩,
  -- CREWc_LDR_SLOTs (R163)
  ⟨0x100400, 4, 0x10000, 48, 0x4, 1, 0x0, .none, [⟨0, 7, .ro, 0, 0, 127, false, false⟩, ⟨7, 1, .ro, 0, 0, 1, false, false⟩, ⟨8, 5, .ro, 0, 0, 31, false, false⟩]⟩]

/-- The register templates of block RRC (R615). -/
def regMapRrc : List RegT := [
  -- RRCn_CTL (R196)
  ⟨0x300000, 128, 0x100, 1, 0x0, 1, 0x0, .fw, [⟨0, 1, .rw, 0, 0, 1, false, false⟩]⟩,
  -- RRCn_RATE (R196)
  ⟨0x300004, 128, 0x100, 1, 0x0, 1, 0x0, .fw, [⟨0, 32, .rw, 0, 0, 4294967295, false, false⟩]⟩,
  -- RRCn_RMAX (R196)
  ⟨0x300008, 128, 0x100, 1, 0x0, 1, 0x0, .fw, [⟨0, 32, .rw, 0, 0, 4294967295, false, false⟩]⟩,
  -- RRCn_BUF (R196)
  ⟨0x30000C, 128, 0x100, 1, 0x0, 1, 0x0, .fw, [⟨0, 20, .rw, 0, 0, 1048575, false, false⟩]⟩,
  -- RRCn_QP (R196)
  ⟨0x300010, 128, 0x100, 1, 0x0, 1, 0x0, .fw, [⟨0, 6, .rw, 10, 0, 63, false, false⟩, ⟨8, 6, .rw, 51, 0, 63, false, false⟩, ⟨16, 6, .rw, 32, 0, 63, false, false⟩]⟩,
  -- RRCn_KEY (R196)
  ⟨0x300014, 128, 0x100, 1, 0x0, 1, 0x0, .fw, [⟨0, 7, .rw, 50, 0, 90, false, false⟩, ⟨8, 7, .rw, 25, 1, 50, false, false⟩]⟩,
  -- RRCn_MARGIN (R196)
  ⟨0x300018, 128, 0x100, 1, 0x0, 1, 0x0, .fw, [⟨0, 32, .rw, 4096, 0, 4294967295, false, false⟩]⟩,
  -- RRCn_SLICE (R196)
  ⟨0x30001C, 128, 0x100, 1, 0x0, 1, 0x0, .none, [⟨0, 16, .ro, 0, 0, 65535, false, false⟩]⟩,
  -- RRCn_ALPHA_P (R196)
  ⟨0x300020, 128, 0x100, 1, 0x0, 1, 0x0, .hand 5, [⟨0, 24, .rw, 0, 0, 16777215, false, false⟩]⟩,
  -- RRCn_ALPHA_I (R196)
  ⟨0x300024, 128, 0x100, 1, 0x0, 1, 0x0, .hand 5, [⟨0, 24, .rw, 0, 0, 16777215, false, false⟩]⟩,
  -- RRCn_MODEL (R196)
  ⟨0x300028, 128, 0x100, 1, 0x0, 1, 0x0, .hand 5, [⟨0, 4, .rw, 4, 1, 8, false, false⟩, ⟨16, 16, .rw, 4096, 0, 65535, false, false⟩]⟩,
  -- RRCn_OCC (R196)
  ⟨0x300030, 128, 0x100, 1, 0x0, 1, 0x0, .none, [⟨0, 32, .ro, 0, 0, 4294967295, false, false⟩]⟩,
  -- RRCn_DEBT (R196)
  ⟨0x300034, 128, 0x100, 1, 0x0, 1, 0x0, .none, [⟨0, 32, .ro, 0, 0, 4294967295, false, false⟩]⟩,
  -- RRCn_LOAN (R196)
  ⟨0x300038, 128, 0x100, 1, 0x0, 1, 0x0, .none, [⟨0, 32, .ro, 0, 0, 4294967295, false, false⟩]⟩,
  -- RRCn_FREE (R196)
  ⟨0x30003C, 128, 0x100, 1, 0x0, 1, 0x0, .none, [⟨0, 32, .ro, 0, 0, 4294967295, false, false⟩]⟩,
  -- RRCn_STAT (R196)
  ⟨0x300040, 128, 0x100, 1, 0x0, 1, 0x0, .none, [⟨0, 1, .ro, 0, 0, 1, false, false⟩, ⟨1, 1, .ro, 0, 0, 1, false, false⟩, ⟨8, 6, .ro, 0, 0, 63, false, false⟩]⟩,
  -- RRCn_FLOORS (R196)
  ⟨0x300044, 128, 0x100, 1, 0x0, 1, 0x0, .none, [⟨0, 32, .ro, 0, 0, 4294967295, false, false⟩]⟩,
  -- RRCn_NOLOAN (R196)
  ⟨0x300048, 128, 0x100, 1, 0x0, 1, 0x0, .none, [⟨0, 32, .ro, 0, 0, 4294967295, false, false⟩]⟩,
  -- RRCn_SEIDEFER (R196)
  ⟨0x30004C, 128, 0x100, 1, 0x0, 1, 0x0, .none, [⟨0, 32, .ro, 0, 0, 4294967295, false, false⟩]⟩,
  -- RRCn_OVHMAX (R196)
  ⟨0x300050, 128, 0x100, 1, 0x0, 1, 0x0, .none, [⟨0, 32, .ro, 0, 0, 4294967295, false, false⟩]⟩,
  -- RRCn_OVHMIN (R196)
  ⟨0x300054, 128, 0x100, 1, 0x0, 1, 0x0, .none, [⟨0, 32, .ro, 0, 0, 4294967295, false, false⟩]⟩]

/-- The register templates of block RACK (R615). -/
def regMapRack : List RegT := [
  -- RACK_CTL (R215)
  ⟨0x310000, 1, 0x0, 1, 0x0, 1, 0x0, .fw, [⟨0, 4, .rw, 2, 1, 15, false, false⟩]⟩,
  -- RACK_STAT (R215)
  ⟨0x310004, 1, 0x0, 1, 0x0, 1, 0x0, .none, [⟨0, 13, .ro, 0, 0, 8191, true, false⟩, ⟨13, 1, .ro, 0, 0, 1, false, false⟩]⟩,
  -- RACK_LOST (R215)
  ⟨0x310008, 1, 0x0, 1, 0x0, 1, 0x0, .none, [⟨0, 21, .ro, 0, 0, 2097151, true, false⟩]⟩,
  -- RACK_FREE (R215)
  ⟨0x31000C, 1, 0x0, 1, 0x0, 1, 0x0, .none, [⟨0, 13, .ro, 0, 0, 8191, false, false⟩]⟩,
  -- SHLFn_CFG (R216)
  ⟨0x310800, 128, 0x10, 1, 0x0, 1, 0x0, .none, [⟨0, 13, .ro, 0, 0, 8191, false, false⟩, ⟨16, 6, .ro, 0, 0, 63, false, false⟩]⟩,
  -- SHLFn_SLOTSZ (R216)
  ⟨0x310804, 128, 0x10, 1, 0x0, 1, 0x0, .none, [⟨0, 16, .ro, 0, 0, 65535, false, false⟩]⟩,
  -- SHLFn_HOLD (R216)
  ⟨0x310808, 128, 0x10, 1, 0x0, 1, 0x0, .none, [⟨0, 13, .ro, 0, 0, 8191, false, false⟩, ⟨16, 13, .ro, 0, 0, 8191, false, false⟩]⟩,
  -- SHLFn_STAT (R216)
  ⟨0x31080C, 128, 0x10, 1, 0x0, 1, 0x0, .none, [⟨0, 12, .ro, 0, 0, 4095, false, false⟩, ⟨12, 1, .ro, 0, 0, 1, false, false⟩, ⟨13, 1, .ro, 0, 0, 1, false, false⟩]⟩,
  -- SLOTs_ADDR (R217)
  ⟨0x318000, 4096, 0x8, 1, 0x0, 1, 0x0, .fw, [⟨0, 21, .rw, 0, 0, 2097151, false, false⟩, ⟨31, 1, .rw, 0, 0, 1, false, false⟩]⟩,
  -- SLOTs_MARK (R217)
  ⟨0x318004, 4096, 0x8, 1, 0x0, 1, 0x0, .none, [⟨0, 1, .ro, 0, 0, 1, false, false⟩, ⟨1, 1, .ro, 0, 0, 1, false, false⟩, ⟨2, 1, .ro, 0, 0, 1, false, false⟩, ⟨3, 1, .ro, 0, 0, 1, false, false⟩, ⟨4, 1, .ro, 0, 0, 1, false, false⟩, ⟨5, 1, .ro, 0, 0, 1, false, false⟩, ⟨6, 1, .ro, 0, 0, 1, false, false⟩, ⟨7, 1, .ro, 0, 0, 1, true, false⟩, ⟨8, 4, .ro, 0, 0, 15, true, false⟩, ⟨16, 7, .ro, 0, 0, 127, false, false⟩]⟩]

/-- The register templates of block FOUR (R615). DESIGN CHOICE (log entry 44): a field whose Reset entry is a dash, which has no defined value
after reset (R11: UCS_DATA0-3, UCS_DATA4.DATA), holds 0. -/
def regMapFour : List RegT := [
  -- UCTL (R282)
  ⟨0x200000, 144, 0x1000, 1, 0x0, 1, 0x0, .hand 9, [⟨0, 1, .rw, 0, 0, 1, false, false⟩, ⟨1, 1, .rw, 0, 0, 1, false, false⟩, ⟨2, 1, .wo, 0, 0, 1, false, false⟩, ⟨16, 16, .rw, 1200, 1, 65535, false, false⟩]⟩,
  -- USTAT (R282)
  ⟨0x200004, 144, 0x1000, 1, 0x0, 1, 0x0, .hand 9, [⟨0, 1, .ro, 0, 0, 1, false, false⟩, ⟨1, 1, .ro, 0, 0, 1, false, false⟩, ⟨2, 1, .ro, 0, 0, 1, false, false⟩, ⟨3, 1, .ro, 0, 0, 1, false, false⟩, ⟨4, 1, .w1c, 0, 0, 1, false, false⟩, ⟨5, 1, .ro, 0, 0, 1, false, false⟩, ⟨6, 1, .ro, 0, 0, 1, false, false⟩, ⟨7, 3, .ro, 0, 0, 7, false, false⟩, ⟨10, 2, .ro, 0, 0, 3, false, false⟩]⟩,
  -- USTART (R282)
  ⟨0x200008, 144, 0x1000, 1, 0x0, 1, 0x0, .hand 9, [⟨0, 12, .rw, 0, 0, 4095, false, false⟩, ⟨31, 1, .wo, 0, 0, 1, false, false⟩]⟩,
  -- UCS_ADDR (R282)
  ⟨0x200010, 144, 0x1000, 1, 0x0, 1, 0x0, .hand 9, [⟨0, 12, .rw, 0, 0, 4095, false, false⟩, ⟨16, 1, .rw, 1, 0, 1, false, false⟩]⟩,
  -- UCS_DATA0 (R282)
  ⟨0x200014, 144, 0x1000, 1, 0x0, 1, 0x0, .hand 9, [⟨0, 32, .rw, 0, 0, 4294967295, false, false⟩]⟩,
  -- UCS_DATA1 (R282)
  ⟨0x200018, 144, 0x1000, 1, 0x0, 1, 0x0, .hand 9, [⟨0, 32, .rw, 0, 0, 4294967295, false, false⟩]⟩,
  -- UCS_DATA2 (R282)
  ⟨0x20001C, 144, 0x1000, 1, 0x0, 1, 0x0, .hand 9, [⟨0, 32, .rw, 0, 0, 4294967295, false, false⟩]⟩,
  -- UCS_DATA3 (R282)
  ⟨0x200020, 144, 0x1000, 1, 0x0, 1, 0x0, .hand 9, [⟨0, 32, .rw, 0, 0, 4294967295, false, false⟩]⟩,
  -- UCS_DATA4 (R282)
  ⟨0x200024, 144, 0x1000, 1, 0x0, 1, 0x0, .hand 9, [⟨0, 16, .rw, 0, 0, 65535, false, false⟩, ⟨16, 9, .ro, 0, 0, 511, false, false⟩, ⟨25, 1, .ro, 0, 0, 1, false, false⟩, ⟨26, 1, .ro, 0, 0, 1, false, false⟩]⟩,
  -- UCS_SUM (R282)
  ⟨0x200028, 144, 0x1000, 1, 0x0, 1, 0x0, .none, [⟨0, 32, .ro, 0, 0, 4294967295, false, false⟩]⟩,
  -- UCS_BADADDR (R282)
  ⟨0x20002C, 144, 0x1000, 1, 0x0, 1, 0x0, .none, [⟨0, 12, .ro, 0, 0, 4095, false, false⟩]⟩,
  -- UTRAP_CAUSE (R282)
  ⟨0x200040, 144, 0x1000, 1, 0x0, 1, 0x0, .none, [⟨0, 3, .ro, 0, 0, 7, false, false⟩, ⟨3, 1, .ro, 0, 0, 1, false, false⟩, ⟨4, 2, .ro, 0, 0, 3, false, false⟩]⟩,
  -- UTRAP_UPC (R282)
  ⟨0x200044, 144, 0x1000, 1, 0x0, 1, 0x0, .none, [⟨0, 12, .ro, 0, 0, 4095, false, false⟩]⟩,
  -- UTRAP_LC01 (R282)
  ⟨0x200048, 144, 0x1000, 1, 0x0, 1, 0x0, .none, [⟨0, 12, .ro, 0, 0, 4095, false, false⟩, ⟨16, 12, .ro, 0, 0, 4095, false, false⟩]⟩,
  -- UTRAP_LC2 (R282)
  ⟨0x20004C, 144, 0x1000, 1, 0x0, 1, 0x0, .none, [⟨0, 12, .ro, 0, 0, 4095, false, false⟩]⟩,
  -- UTRAP_CONDL (R282)
  ⟨0x200050, 144, 0x1000, 1, 0x0, 1, 0x0, .none, [⟨0, 32, .ro, 0, 0, 4294967295, false, false⟩]⟩,
  -- UTRAP_CONDH (R282)
  ⟨0x200054, 144, 0x1000, 1, 0x0, 1, 0x0, .none, [⟨0, 32, .ro, 0, 0, 4294967295, false, false⟩]⟩,
  -- UTRAP_AGU0 (R282)
  ⟨0x200058, 144, 0x1000, 1, 0x0, 1, 0x0, .none, [⟨0, 32, .ro, 0, 0, 4294967295, false, false⟩]⟩,
  -- UTRAP_AGU1 (R282)
  ⟨0x20005C, 144, 0x1000, 1, 0x0, 1, 0x0, .none, [⟨0, 32, .ro, 0, 0, 4294967295, false, false⟩]⟩,
  -- UTRAP_TOKEN (R282)
  ⟨0x200060, 144, 0x1000, 1, 0x0, 1, 0x0, .none, [⟨0, 32, .ro, 0, 0, 4294967295, false, false⟩]⟩]

/-- The register templates of block HOST (R615). -/
def regMapHost : List RegT := [
  -- HOST_CTL (R324)
  ⟨0x60000, 1, 0x0, 1, 0x0, 1, 0x0, .host, [⟨0, 1, .rw, 1, 0, 1, false, false⟩, ⟨1, 1, .rw, 1, 0, 1, false, false⟩, ⟨2, 3, .rw, 3, 0, 7, false, false⟩, ⟨5, 1, .rw, 1, 0, 1, false, false⟩, ⟨6, 1, .rw, 1, 0, 1, false, false⟩]⟩,
  -- HOST_STAT (R324)
  ⟨0x60004, 1, 0x0, 1, 0x0, 1, 0x0, .host, [⟨0, 1, .ro, 0, 0, 1, false, false⟩, ⟨1, 1, .ro, 0, 0, 1, false, false⟩, ⟨2, 1, .ro, 0, 0, 1, false, false⟩, ⟨3, 1, .ro, 0, 0, 1, false, false⟩, ⟨4, 2, .ro, 0, 0, 3, false, false⟩, ⟨6, 1, .ro, 0, 0, 1, false, false⟩, ⟨7, 1, .ro, 0, 0, 1, false, false⟩, ⟨8, 1, .ro, 0, 0, 1, false, false⟩, ⟨9, 1, .ro, 0, 0, 1, false, false⟩, ⟨10, 1, .ro, 0, 0, 1, false, false⟩]⟩,
  -- HOST_UDP (R324)
  ⟨0x60008, 1, 0x0, 1, 0x0, 1, 0x0, .host, [⟨0, 16, .rw, 31744, 0, 65535, false, false⟩]⟩,
  -- HOST_MGMTSEQ0 (R324)
  ⟨0x60010, 1, 0x0, 1, 0x0, 1, 0x0, .host, [⟨0, 32, .ro, 0, 0, 4294967295, false, false⟩]⟩,
  -- HOST_MGMTSEQ1 (R324)
  ⟨0x60014, 1, 0x0, 1, 0x0, 1, 0x0, .host, [⟨0, 32, .ro, 0, 0, 4294967295, false, false⟩]⟩,
  -- HOST_AUTHFAIL (R324)
  ⟨0x60020, 1, 0x0, 1, 0x0, 1, 0x0, .host, [⟨0, 32, .ro, 0, 0, 4294967295, false, false⟩]⟩,
  -- HOST_SEQERR (R324)
  ⟨0x60024, 1, 0x0, 1, 0x0, 1, 0x0, .host, [⟨0, 32, .ro, 0, 0, 4294967295, false, false⟩]⟩,
  -- HOST_DBSTALE (R324)
  ⟨0x60028, 1, 0x0, 1, 0x0, 1, 0x0, .host, [⟨0, 32, .ro, 0, 0, 4294967295, false, false⟩]⟩,
  -- HOST_DBBAD (R324)
  ⟨0x6002C, 1, 0x0, 1, 0x0, 1, 0x0, .host, [⟨0, 32, .ro, 0, 0, 4294967295, false, false⟩]⟩,
  -- HOST_EVLOST (R324)
  ⟨0x60030, 1, 0x0, 1, 0x0, 1, 0x0, .host, [⟨0, 32, .ro, 0, 0, 4294967295, false, false⟩]⟩,
  -- HOST_STLOST (R324)
  ⟨0x60034, 1, 0x0, 1, 0x0, 1, 0x0, .host, [⟨0, 32, .ro, 0, 0, 4294967295, false, false⟩]⟩,
  -- HOST_DB_RKEY (R324)
  ⟨0x60040, 1, 0x0, 1, 0x0, 1, 0x0, .host, [⟨0, 32, .rw, 0, 0, 4294967295, false, false⟩]⟩,
  -- HOST_IP0 (R324)
  ⟨0x60044, 1, 0x0, 1, 0x0, 1, 0x0, .host, [⟨0, 32, .rw, 0, 0, 4294967295, false, false⟩]⟩,
  -- HOST_IP1 (R324)
  ⟨0x60048, 1, 0x0, 1, 0x0, 1, 0x0, .host, [⟨0, 32, .rw, 0, 0, 4294967295, false, false⟩]⟩,
  -- HOST_MAC0_L (R324)
  ⟨0x60050, 1, 0x0, 1, 0x0, 1, 0x0, .host, [⟨0, 32, .ro, 0, 0, 4294967295, false, true⟩]⟩,
  -- HOST_MAC1_L (R324)
  ⟨0x60058, 1, 0x0, 1, 0x0, 1, 0x0, .host, [⟨0, 32, .ro, 0, 0, 4294967295, false, true⟩]⟩,
  -- HOST_MAC0_H (R324)
  ⟨0x60054, 1, 0x0, 1, 0x0, 1, 0x0, .host, [⟨0, 16, .ro, 0, 0, 65535, false, true⟩]⟩,
  -- HOST_MAC1_H (R324)
  ⟨0x6005C, 1, 0x0, 1, 0x0, 1, 0x0, .host, [⟨0, 16, .ro, 0, 0, 65535, false, true⟩]⟩,
  -- QPq_CTL (R325)
  ⟨0x61000, 64, 0x40, 1, 0x0, 1, 0x0, .host, [⟨0, 1, .rw, 0, 0, 1, false, false⟩, ⟨1, 1, .rw, 0, 0, 1, false, false⟩, ⟨2, 2, .rw, 2, 0, 2, false, false⟩, ⟨4, 5, .rw, 14, 8, 20, false, false⟩, ⟨9, 3, .rw, 7, 0, 7, false, false⟩]⟩,
  -- QPq_STAT (R325)
  ⟨0x61004, 64, 0x40, 1, 0x0, 1, 0x0, .host, [⟨0, 2, .ro, 0, 0, 3, false, false⟩, ⟨2, 3, .ro, 0, 0, 7, false, false⟩]⟩,
  -- QPq_RQPN (R325)
  ⟨0x61008, 64, 0x40, 1, 0x0, 1, 0x0, .host, [⟨0, 24, .rw, 0, 0, 16777215, false, false⟩]⟩,
  -- QPq_SPSN (R325)
  ⟨0x6100C, 64, 0x40, 1, 0x0, 1, 0x0, .host, [⟨0, 24, .rw, 0, 0, 16777215, false, false⟩]⟩,
  -- QPq_EPSN (R325)
  ⟨0x61010, 64, 0x40, 1, 0x0, 1, 0x0, .host, [⟨0, 24, .rw, 0, 0, 16777215, false, false⟩]⟩,
  -- QPq_DIP (R325)
  ⟨0x61014, 64, 0x40, 1, 0x0, 1, 0x0, .host, [⟨0, 32, .rw, 0, 0, 4294967295, false, false⟩]⟩,
  -- QPq_DMAC_L (R325)
  ⟨0x61018, 64, 0x40, 1, 0x0, 1, 0x0, .host, [⟨0, 32, .rw, 0, 0, 4294967295, false, false⟩]⟩,
  -- QPq_DMAC_H (R325)
  ⟨0x6101C, 64, 0x40, 1, 0x0, 1, 0x0, .host, [⟨0, 16, .rw, 0, 0, 65535, false, false⟩]⟩,
  -- HWINw_CTL (R326)
  ⟨0x62000, 64, 0x20, 1, 0x0, 1, 0x0, .host, [⟨0, 1, .rw, 0, 0, 1, false, false⟩, ⟨1, 6, .rw, 0, 0, 63, false, false⟩]⟩,
  -- HWINw_BASE (R326)
  ⟨0x62004, 64, 0x20, 1, 0x0, 1, 0x0, .host, [⟨0, 31, .rw, 0, 0, 2147483647, false, false⟩]⟩,
  -- HWINw_SIZE (R326)
  ⟨0x62008, 64, 0x20, 1, 0x0, 1, 0x0, .host, [⟨0, 28, .rw, 0, 0, 268435455, false, false⟩]⟩,
  -- HWINw_RKEY (R326)
  ⟨0x6200C, 64, 0x20, 1, 0x0, 1, 0x0, .host, [⟨0, 32, .rw, 0, 0, 4294967295, false, false⟩]⟩,
  -- HWINw_RVA_L (R326)
  ⟨0x62010, 64, 0x20, 1, 0x0, 1, 0x0, .host, [⟨0, 32, .rw, 0, 0, 4294967295, false, false⟩]⟩,
  -- HWINw_RVA_H (R326)
  ⟨0x62014, 64, 0x20, 1, 0x0, 1, 0x0, .host, [⟨0, 32, .rw, 0, 0, 4294967295, false, false⟩]⟩,
  -- RINGi_CTL (R327)
  ⟨0x64000, 256, 0x20, 1, 0x0, 1, 0x0, .host, [⟨0, 1, .rw, 0, 0, 1, false, false⟩, ⟨1, 1, .ro, 0, 0, 1, false, false⟩, ⟨2, 5, .rw, 6, 6, 16, false, false⟩, ⟨7, 5, .rw, 0, 0, 31, false, false⟩, ⟨12, 2, .rw, 0, 0, 3, false, false⟩]⟩,
  -- RINGi_EPOCH (R327)
  ⟨0x64004, 256, 0x20, 1, 0x0, 1, 0x0, .host, [⟨0, 32, .ro, 0, 0, 4294967295, false, false⟩]⟩,
  -- RINGi_PI (R327)
  ⟨0x64008, 256, 0x20, 1, 0x0, 1, 0x0, .host, [⟨0, 24, .ro, 0, 0, 16777215, false, false⟩]⟩,
  -- RINGi_CI (R327)
  ⟨0x6400C, 256, 0x20, 1, 0x0, 1, 0x0, .host, [⟨0, 24, .ro, 0, 0, 16777215, false, false⟩]⟩,
  -- RINGi_ADDR_L (R327)
  ⟨0x64010, 256, 0x20, 1, 0x0, 1, 0x0, .host, [⟨12, 20, .rw, 0, 0, 1048575, false, false⟩]⟩,
  -- RINGi_SHAD_L (R327)
  ⟨0x64018, 256, 0x20, 1, 0x0, 1, 0x0, .host, [⟨3, 29, .rw, 0, 0, 536870911, false, false⟩]⟩,
  -- RINGi_ADDR_H (R327)
  ⟨0x64014, 256, 0x20, 1, 0x0, 1, 0x0, .host, [⟨0, 16, .rw, 0, 0, 65535, false, false⟩]⟩,
  -- RINGi_SHAD_H (R327)
  ⟨0x6401C, 256, 0x20, 1, 0x0, 1, 0x0, .host, [⟨0, 16, .rw, 0, 0, 65535, false, false⟩]⟩]

/-- The register templates of block LANE (R615). -/
def regMapLane : List RegT := [
  -- LANEl_STATE (R397)
  ⟨0x400000, 66, 0x400, 1, 0x0, 1, 0x0, .host, [⟨0, 2, .ro, 0, 0, 3, false, false⟩, ⟨2, 2, .ro, 0, 0, 3, false, false⟩, ⟨4, 2, .wo, 0, 0, 2, false, false⟩]⟩,
  -- LANEl_EPOCH (R397)
  ⟨0x400004, 66, 0x400, 1, 0x0, 1, 0x0, .none, [⟨0, 32, .ro, 0, 0, 4294967295, false, false⟩]⟩,
  -- LANEl_CFG (R397)
  ⟨0x400008, 66, 0x400, 1, 0x0, 1, 0x0, .host, [⟨0, 3, .rw, 0, 0, 7, false, false⟩, ⟨3, 2, .rw, 3, 0, 3, false, false⟩, ⟨5, 1, .rw, 1, 0, 1, false, false⟩, ⟨6, 1, .rw, 0, 0, 1, false, false⟩, ⟨7, 1, .rw, 0, 0, 1, false, false⟩, ⟨8, 2, .rw, 0, 0, 2, false, false⟩, ⟨10, 2, .rw, 0, 0, 3, false, false⟩]⟩,
  -- LANEl_QMODE (R397)
  ⟨0x40000C, 66, 0x400, 1, 0x0, 1, 0x0, .host, [⟨0, 1, .rw, 0, 0, 1, false, false⟩]⟩,
  -- LANEl_STAT (R397)
  ⟨0x400010, 66, 0x400, 1, 0x0, 1, 0x0, .host, [⟨0, 1, .ro, 1, 0, 1, false, false⟩, ⟨1, 1, .ro, 1, 0, 1, false, false⟩, ⟨2, 1, .ro, 0, 0, 1, false, false⟩, ⟨3, 1, .ro, 0, 0, 1, false, false⟩, ⟨4, 1, .ro, 0, 0, 1, false, false⟩, ⟨5, 1, .ro, 0, 0, 1, false, false⟩, ⟨6, 2, .ro, 0, 0, 3, false, false⟩, ⟨8, 1, .w1c, 0, 0, 1, false, false⟩, ⟨9, 1, .w1c, 0, 0, 1, false, false⟩, ⟨10, 1, .w1c, 0, 0, 1, false, false⟩]⟩,
  -- LANEl_DOZE (R397)
  ⟨0x400014, 66, 0x400, 1, 0x0, 1, 0x0, .host, [⟨0, 1, .wo, 0, 0, 1, false, false⟩, ⟨1, 1, .wo, 0, 0, 1, false, false⟩, ⟨2, 1, .wo, 0, 0, 1, false, false⟩, ⟨3, 1, .wo, 0, 0, 1, false, false⟩, ⟨4, 1, .rw, 0, 0, 1, false, false⟩, ⟨8, 2, .ro, 0, 0, 3, false, false⟩, ⟨10, 2, .ro, 0, 0, 3, false, false⟩, ⟨12, 2, .ro, 0, 0, 3, false, false⟩, ⟨14, 2, .ro, 0, 0, 3, false, false⟩]⟩,
  -- LANEl_TXEQ (R397)
  ⟨0x400020, 66, 0x400, 1, 0x0, 1, 0x0, .hand 7, [⟨0, 4, .rw, 0, 0, 15, false, false⟩, ⟨8, 6, .rw, 32, 0, 63, false, false⟩, ⟨16, 5, .rw, 0, 0, 31, false, false⟩]⟩,
  -- LANEl_RXEQ (R397)
  ⟨0x400024, 66, 0x400, 1, 0x0, 1, 0x0, .hand 7, [⟨0, 2, .rw, 0, 0, 2, false, false⟩, ⟨2, 1, .wo, 0, 0, 1, false, false⟩, ⟨4, 4, .rw, 8, 0, 15, false, false⟩]⟩,
  -- LANEl_EQ_STAT (R397)
  ⟨0x400028, 66, 0x400, 1, 0x0, 1, 0x0, .none, [⟨0, 1, .ro, 0, 0, 1, false, false⟩, ⟨4, 4, .ro, 8, 0, 15, false, false⟩]⟩,
  -- LANEl_BL_CTL (R397)
  ⟨0x400030, 66, 0x400, 1, 0x0, 1, 0x0, .host, [⟨0, 1, .wo, 0, 0, 1, false, false⟩]⟩,
  -- LANEl_BL_STAT (R397)
  ⟨0x400034, 66, 0x400, 1, 0x0, 1, 0x0, .none, [⟨0, 7, .ro, 0, 0, 127, false, false⟩, ⟨7, 1, .ro, 0, 0, 1, false, false⟩, ⟨8, 7, .ro, 0, 0, 127, false, false⟩]⟩,
  -- LANEl_LOS_CFG (R397)
  ⟨0x400038, 66, 0x400, 1, 0x0, 1, 0x0, .host, [⟨0, 4, .rw, 7, 0, 15, false, false⟩]⟩,
  -- LANEl_PRBS_CTL (R397)
  ⟨0x400040, 66, 0x400, 1, 0x0, 1, 0x0, .host, [⟨0, 3, .rw, 0, 0, 7, false, false⟩, ⟨4, 3, .rw, 0, 0, 7, false, false⟩, ⟨8, 1, .wo, 0, 0, 1, false, false⟩]⟩,
  -- LANEl_PRBS_STAT (R397)
  ⟨0x400044, 66, 0x400, 1, 0x0, 1, 0x0, .none, [⟨0, 1, .ro, 0, 0, 1, false, false⟩]⟩,
  -- LANEl_PRBS_ERR (R397)
  ⟨0x400048, 66, 0x400, 1, 0x0, 1, 0x0, .none, [⟨0, 32, .ro, 0, 0, 4294967295, false, false⟩]⟩,
  -- LANEl_FEC_CORR (R397)
  ⟨0x40004C, 66, 0x400, 1, 0x0, 1, 0x0, .none, [⟨0, 32, .ro, 0, 0, 4294967295, false, false⟩]⟩,
  -- LANEl_FEC_UNCORR (R397)
  ⟨0x400050, 66, 0x400, 1, 0x0, 1, 0x0, .none, [⟨0, 32, .ro, 0, 0, 4294967295, false, false⟩]⟩,
  -- LANEl_BL_LOSSES (R397)
  ⟨0x400054, 66, 0x400, 1, 0x0, 1, 0x0, .none, [⟨0, 32, .ro, 0, 0, 4294967295, false, false⟩]⟩]

/-- The register templates of block PORT (R615). -/
def regMapPort : List RegT := [
  -- PORTp_STATE (R429)
  ⟨0x500000, 64, 0x2000, 1, 0x0, 1, 0x0, .host, [⟨0, 2, .ro, 0, 0, 3, false, false⟩, ⟨2, 2, .ro, 0, 0, 3, false, false⟩, ⟨4, 2, .wo, 0, 0, 2, false, false⟩]⟩,
  -- PORTp_EPOCH (R429)
  ⟨0x500004, 64, 0x2000, 1, 0x0, 1, 0x0, .none, [⟨0, 32, .ro, 0, 0, 4294967295, false, false⟩]⟩,
  -- PORTp_CFG (R429)
  ⟨0x500008, 64, 0x2000, 1, 0x0, 1, 0x0, .host, [⟨0, 14, .rw, 1522, 64, 9216, false, false⟩, ⟨14, 1, .rw, 0, 0, 1, false, false⟩, ⟨15, 1, .rw, 1, 0, 1, false, false⟩, ⟨16, 12, .rw, 0, 0, 4095, false, false⟩]⟩,
  -- PORTp_QOS (R429)
  ⟨0x50000C, 64, 0x2000, 1, 0x0, 1, 0x0, .host, [⟨0, 8, .rw, 64, 1, 255, false, false⟩, ⟨8, 6, .rw, 34, 0, 63, false, false⟩, ⟨14, 6, .rw, 46, 0, 63, false, false⟩]⟩,
  -- PORTp_MAC_L (R429)
  ⟨0x500010, 64, 0x2000, 1, 0x0, 1, 0x0, .none, [⟨0, 32, .ro, 0, 0, 4294967295, false, true⟩]⟩,
  -- PORTp_MAC_H (R429)
  ⟨0x500014, 64, 0x2000, 1, 0x0, 1, 0x0, .none, [⟨0, 16, .ro, 0, 0, 4294967295, false, true⟩]⟩,
  -- PORTp_IP (R429)
  ⟨0x500018, 64, 0x2000, 1, 0x0, 1, 0x0, .host, [⟨0, 32, .rw, 0, 0, 4294967295, false, false⟩]⟩,
  -- PORTp_NH_L (R429)
  ⟨0x500020, 64, 0x2000, 1, 0x0, 1, 0x0, .host, [⟨0, 32, .rw, 0, 0, 4294967295, false, false⟩]⟩,
  -- PORTp_NH_H (R429)
  ⟨0x500024, 64, 0x2000, 1, 0x0, 1, 0x0, .host, [⟨0, 16, .rw, 0, 0, 65535, false, false⟩]⟩,
  -- PORTp_PTP (R429)
  ⟨0x500030, 64, 0x2000, 1, 0x0, 1, 0x0, .host, [⟨0, 1, .rw, 1, 0, 1, false, false⟩]⟩,
  -- PORTp_TS_ADJ (R429)
  ⟨0x500034, 64, 0x2000, 1, 0x0, 1, 0x0, .host, [⟨0, 16, .rw, 0, 0, 65535, false, false⟩, ⟨16, 16, .rw, 0, 0, 65535, false, false⟩]⟩,
  -- PORTp_TSB_STAT (R429)
  ⟨0x500080, 64, 0x2000, 1, 0x0, 1, 0x0, .none, [⟨0, 7, .ro, 0, 0, 127, false, false⟩]⟩,
  -- PORTp_TSB_ID (R429)
  ⟨0x500084, 64, 0x2000, 1, 0x0, 1, 0x0, .none, [⟨0, 16, .ro, 0, 0, 65535, false, false⟩, ⟨31, 1, .ro, 0, 0, 1, false, false⟩]⟩,
  -- PORTp_TSB_SECL (R429)
  ⟨0x500088, 64, 0x2000, 1, 0x0, 1, 0x0, .none, [⟨0, 32, .ro, 0, 0, 4294967295, false, false⟩]⟩,
  -- PORTp_TSB_SECH (R429)
  ⟨0x50008C, 64, 0x2000, 1, 0x0, 1, 0x0, .none, [⟨0, 32, .ro, 0, 0, 4294967295, false, false⟩]⟩,
  -- PORTp_TSB_NS (R429)
  ⟨0x500090, 64, 0x2000, 1, 0x0, 1, 0x0, .none, [⟨0, 32, .ro, 0, 0, 4294967295, false, false⟩]⟩,
  -- PORTp_TSB_FRAC (R429)
  ⟨0x500094, 64, 0x2000, 1, 0x0, 1, 0x0, .none, [⟨0, 32, .ro, 0, 0, 4294967295, false, false⟩]⟩,
  -- PORTp_RX_FRAMES (R429)
  ⟨0x500100, 64, 0x2000, 1, 0x0, 1, 0x0, .none, [⟨0, 32, .ro, 0, 0, 4294967295, false, false⟩]⟩,
  -- PORTp_RX_BAD (R429)
  ⟨0x500104, 64, 0x2000, 1, 0x0, 1, 0x0, .none, [⟨0, 32, .ro, 0, 0, 4294967295, false, false⟩]⟩,
  -- PORTp_RX_UNMATCHED (R429)
  ⟨0x500108, 64, 0x2000, 1, 0x0, 1, 0x0, .none, [⟨0, 32, .ro, 0, 0, 4294967295, false, false⟩]⟩,
  -- PORTp_RX_LOST (R429)
  ⟨0x50010C, 64, 0x2000, 1, 0x0, 1, 0x0, .none, [⟨0, 32, .ro, 0, 0, 4294967295, false, false⟩]⟩,
  -- PORTp_MERGE_DUP (R429)
  ⟨0x500110, 64, 0x2000, 1, 0x0, 1, 0x0, .none, [⟨0, 32, .ro, 0, 0, 4294967295, false, false⟩]⟩,
  -- PORTp_MERGE_SAVE (R429)
  ⟨0x500114, 64, 0x2000, 1, 0x0, 1, 0x0, .none, [⟨0, 32, .ro, 0, 0, 4294967295, false, false⟩]⟩,
  -- PORTp_TSB_LOST (R429)
  ⟨0x500118, 64, 0x2000, 1, 0x0, 1, 0x0, .none, [⟨0, 32, .ro, 0, 0, 4294967295, false, false⟩]⟩,
  -- PORTp_PTP_LOST (R429)
  ⟨0x50011C, 64, 0x2000, 1, 0x0, 1, 0x0, .none, [⟨0, 32, .ro, 0, 0, 4294967295, false, false⟩]⟩,
  -- PORTp_TX_FRAMES (R429)
  ⟨0x500120, 64, 0x2000, 1, 0x0, 1, 0x0, .none, [⟨0, 32, .ro, 0, 0, 4294967295, false, false⟩]⟩]

/-- The register templates of block EGRESS (R615). -/
def regMapEgress : List RegT := [
  -- EGRp_RATE (R455)
  ⟨0x600000, 64, 0x2000, 1, 0x0, 1, 0x0, .host, [⟨0, 32, .rw, 0, 0, 4294967295, false, false⟩]⟩,
  -- EGRp_BURST (R455)
  ⟨0x600004, 64, 0x2000, 1, 0x0, 1, 0x0, .host, [⟨0, 24, .rw, 16384, 0, 16777215, false, false⟩]⟩,
  -- EGRp_CLS (R455)
  ⟨0x600008, 64, 0x2000, 1, 0x0, 1, 0x0, .host, [⟨0, 3, .rw, 5, 0, 7, false, false⟩, ⟨4, 3, .rw, 7, 0, 7, false, false⟩, ⟨8, 3, .rw, 6, 0, 7, false, false⟩, ⟨16, 16, .rw, 2000, 1, 65535, false, false⟩]⟩,
  -- EGRp_GCTL (R455)
  ⟨0x600010, 64, 0x2000, 1, 0x0, 1, 0x0, .hand 6, [⟨0, 1, .rw, 0, 0, 1, false, false⟩, ⟨1, 1, .rw, 0, 0, 1, false, false⟩, ⟨2, 2, .rw, 0, 0, 3, false, false⟩, ⟨4, 9, .rw, 1, 1, 256, false, false⟩]⟩,
  -- EGRp_GSTAT (R455)
  ⟨0x600014, 64, 0x2000, 1, 0x0, 1, 0x0, .none, [⟨0, 8, .ro, 255, 0, 255, false, false⟩, ⟨8, 8, .ro, 0, 0, 255, false, false⟩, ⟨16, 1, .ro, 0, 0, 1, false, false⟩, ⟨17, 1, .ro, 0, 0, 1, false, false⟩, ⟨18, 2, .ro, 0, 0, 3, false, false⟩, ⟨20, 1, .ro, 0, 0, 1, false, false⟩]⟩,
  -- EGRp_TAKE_L (R455)
  ⟨0x600018, 64, 0x2000, 1, 0x0, 1, 0x0, .hand 6, [⟨0, 32, .rw, 0, 0, 4294967295, false, false⟩]⟩,
  -- EGRp_TAKE_H (R455)
  ⟨0x60001C, 64, 0x2000, 1, 0x0, 1, 0x0, .hand 6, [⟨0, 32, .rw, 0, 0, 4294967295, false, false⟩]⟩,
  -- EGRp_OVERSIZE (R455)
  ⟨0x600020, 64, 0x2000, 1, 0x0, 1, 0x0, .none, [⟨0, 32, .ro, 0, 0, 4294967295, false, false⟩]⟩,
  -- EGRp_STALE (R455)
  ⟨0x600024, 64, 0x2000, 1, 0x0, 1, 0x0, .none, [⟨0, 32, .ro, 0, 0, 4294967295, false, false⟩]⟩,
  -- EGRp_GCLb_i (R455)
  ⟨0x601000, 64, 0x2000, 2, 0x800, 256, 0x8, .hand 6, [⟨0, 8, .rw, 255, 0, 255, false, false⟩]⟩,
  -- EGRp_GCLb_i_DUR (R455)
  ⟨0x601004, 64, 0x2000, 2, 0x800, 256, 0x8, .hand 6, [⟨0, 32, .rw, 1000, 64, 4294967295, false, false⟩]⟩,
  -- EGR_SUBs_STATE (R456)
  ⟨0x680000, 4096, 0x10, 1, 0x0, 1, 0x0, .none, [⟨0, 2, .ro, 0, 0, 3, false, false⟩, ⟨2, 2, .ro, 0, 0, 3, false, false⟩]⟩,
  -- EGR_SUBs_EPOCH (R456)
  ⟨0x680004, 4096, 0x10, 1, 0x0, 1, 0x0, .none, [⟨0, 32, .ro, 0, 0, 4294967295, false, false⟩]⟩,
  -- EGR_SUBs_RATE (R456)
  ⟨0x680008, 4096, 0x10, 1, 0x0, 1, 0x0, .host, [⟨0, 32, .rw, 0, 0, 4294967295, false, false⟩]⟩,
  -- EGR_SUBs_BURST (R456)
  ⟨0x68000C, 4096, 0x10, 1, 0x0, 1, 0x0, .host, [⟨0, 24, .rw, 0, 0, 16777215, false, false⟩]⟩,
  -- EGR_SVCs_v_CFG (R457)
  ⟨0x6A0000, 4096, 0x40, 4, 0x10, 1, 0x0, .none, [⟨0, 8, .ro, 0, 0, 255, false, false⟩, ⟨8, 8, .ro, 255, 0, 255, false, false⟩, ⟨16, 3, .ro, 0, 0, 7, false, false⟩, ⟨24, 1, .ro, 0, 0, 1, false, false⟩]⟩,
  -- EGR_SVCs_v_RATE (R457)
  ⟨0x6A0004, 4096, 0x40, 4, 0x10, 1, 0x0, .none, [⟨0, 32, .ro, 0, 0, 4294967295, false, false⟩]⟩,
  -- EGR_SVCs_v_BURST (R457)
  ⟨0x6A0008, 4096, 0x40, 4, 0x10, 1, 0x0, .none, [⟨0, 32, .ro, 0, 0, 4294967295, false, false⟩]⟩]

/-- The register templates of block SPX (R615). -/
def regMapSpx : List RegT := [
  -- SPX_CTL (R458)
  ⟨0x700000, 1, 0x0, 1, 0x0, 1, 0x0, .host, [⟨0, 1, .rw, 1, 0, 1, false, false⟩]⟩,
  -- SPX_CNVv_SUBBR (R458)
  ⟨0x700100, 8, 0x4, 1, 0x0, 1, 0x0, .host, [⟨0, 32, .rw, 0, 0, 4294967295, false, false⟩]⟩,
  -- SPX_SUBs_CFG (R458)
  ⟨0x701000, 4096, 0x10, 1, 0x0, 1, 0x0, .none, [⟨0, 7, .ro, 0, 0, 127, false, false⟩, ⟨8, 5, .ro, 0, 0, 31, false, false⟩, ⟨16, 8, .ro, 0, 0, 255, false, false⟩, ⟨24, 1, .ro, 0, 0, 1, false, false⟩, ⟨25, 1, .ro, 0, 0, 1, false, false⟩]⟩,
  -- SPX_SUBs_DONDIFF (R458)
  ⟨0x701004, 4096, 0x10, 1, 0x0, 1, 0x0, .none, [⟨0, 16, .ro, 0, 0, 65535, false, false⟩]⟩,
  -- SPX_SUBs_HRDOVER (R458)
  ⟨0x701008, 4096, 0x10, 1, 0x0, 1, 0x0, .none, [⟨0, 32, .ro, 0, 0, 4294967295, false, false⟩]⟩,
  -- SPX_SUBs_DROP (R458)
  ⟨0x70100C, 4096, 0x10, 1, 0x0, 1, 0x0, .none, [⟨0, 32, .ro, 0, 0, 4294967295, false, false⟩]⟩]

/-- The register templates of block HOIST (R615). -/
def regMapHoist : List RegT := [
  -- HOISTh_CTL (R486)
  ⟨0x80000, 4, 0x4000, 1, 0x0, 1, 0x0, .hoist, [⟨0, 1, .wo, 0, 0, 1, false, false⟩, ⟨8, 8, .rw, 64, 1, 255, false, false⟩]⟩,
  -- HOISTh_STAT (R486)
  ⟨0x80004, 4, 0x4000, 1, 0x0, 1, 0x0, .none, [⟨0, 1, .ro, 0, 0, 1, false, false⟩, ⟨1, 2, .ro, 0, 0, 3, false, false⟩, ⟨8, 7, .ro, 0, 0, 127, false, false⟩]⟩,
  -- HOISTh_ERR_L (R486)
  ⟨0x80008, 4, 0x4000, 1, 0x0, 1, 0x0, .none, [⟨0, 32, .ro, 0, 0, 4294967295, false, false⟩]⟩,
  -- HOISTh_ERR_H (R486)
  ⟨0x8000C, 4, 0x4000, 1, 0x0, 1, 0x0, .none, [⟨0, 32, .ro, 0, 0, 4294967295, false, false⟩]⟩,
  -- HOISTh_STOPS (R486)
  ⟨0x80010, 4, 0x4000, 1, 0x0, 1, 0x0, .none, [⟨0, 32, .ro, 0, 0, 4294967295, false, false⟩]⟩,
  -- HOISTh_CHc_STATE (R487)
  ⟨0x81000, 4, 0x4000, 64, 0x40, 1, 0x0, .hoist, [⟨0, 2, .ro, 0, 0, 3, false, false⟩, ⟨2, 2, .ro, 0, 0, 3, false, false⟩, ⟨4, 2, .wo, 0, 0, 2, false, false⟩]⟩,
  -- HOISTh_CHc_EPOCH (R487)
  ⟨0x81004, 4, 0x4000, 64, 0x40, 1, 0x0, .none, [⟨0, 32, .ro, 0, 0, 4294967295, false, false⟩]⟩,
  -- HOISTh_CHc_CFG (R487)
  ⟨0x81008, 4, 0x4000, 64, 0x40, 1, 0x0, .hoist, [⟨0, 9, .rw, 0, 0, 511, false, false⟩, ⟨9, 3, .rw, 6, 0, 6, false, false⟩, ⟨12, 2, .rw, 0, 0, 3, false, false⟩]⟩,
  -- HOISTh_CHc_DMAX (R487)
  ⟨0x8100C, 4, 0x4000, 64, 0x40, 1, 0x0, .hoist, [⟨0, 21, .rw, 65536, 1, 1048575, false, false⟩]⟩,
  -- HOISTh_CHc_LIST_L (R487)
  ⟨0x81010, 4, 0x4000, 64, 0x40, 1, 0x0, .hoist, [⟨4, 28, .rw, 0, 0, 268435455, false, false⟩]⟩,
  -- HOISTh_CHc_LIST_H (R487)
  ⟨0x81014, 4, 0x4000, 64, 0x40, 1, 0x0, .hoist, [⟨0, 16, .rw, 0, 0, 65535, false, false⟩]⟩,
  -- HOISTh_CHc_CTL (R487)
  ⟨0x81018, 4, 0x4000, 64, 0x40, 1, 0x0, .hoist, [⟨0, 1, .wo, 0, 0, 1, false, false⟩]⟩,
  -- HOISTh_CHc_STAT (R487)
  ⟨0x8101C, 4, 0x4000, 64, 0x40, 1, 0x0, .hoist, [⟨0, 1, .ro, 0, 0, 1, false, false⟩, ⟨1, 1, .w1c, 0, 0, 1, false, false⟩, ⟨4, 4, .ro, 0, 0, 15, false, false⟩]⟩,
  -- HOISTh_CHc_BYTES_L (R487)
  ⟨0x81020, 4, 0x4000, 64, 0x40, 1, 0x0, .none, [⟨0, 32, .ro, 0, 0, 4294967295, false, false⟩]⟩,
  -- HOISTh_CHc_BYTES_H (R487)
  ⟨0x81024, 4, 0x4000, 64, 0x40, 1, 0x0, .none, [⟨0, 32, .ro, 0, 0, 4294967295, false, false⟩]⟩,
  -- HOISTh_CHc_DCOUNT (R487)
  ⟨0x81028, 4, 0x4000, 64, 0x40, 1, 0x0, .none, [⟨0, 21, .ro, 0, 0, 2097151, false, false⟩]⟩,
  -- HOISTh_CHc_CUR_L (R487)
  ⟨0x8102C, 4, 0x4000, 64, 0x40, 1, 0x0, .none, [⟨0, 32, .ro, 0, 0, 4294967295, false, false⟩]⟩,
  -- HOISTh_CHc_CUR_H (R487)
  ⟨0x81030, 4, 0x4000, 64, 0x40, 1, 0x0, .none, [⟨0, 32, .ro, 0, 0, 4294967295, false, false⟩]⟩]

/-- The register templates of block CELLAR (R615). -/
def regMapCellar : List RegT := [
  -- CEL_CTL (R518)
  ⟨0xA0000, 2, 0x10000, 1, 0x0, 1, 0x0, .hand 2, [⟨0, 1, .rw, 0, 0, 1, false, false⟩, ⟨1, 1, .rw, 1, 0, 1, false, false⟩]⟩,
  -- CEL_STAT (R518)
  ⟨0xA0004, 2, 0x10000, 1, 0x0, 1, 0x0, .none, [⟨0, 1, .ro, 0, 0, 1, false, false⟩, ⟨1, 2, .ro, 0, 0, 3, false, false⟩, ⟨3, 1, .ro, 0, 0, 1, false, false⟩, ⟨4, 1, .ro, 0, 0, 1, false, false⟩, ⟨5, 1, .ro, 0, 0, 1, true, false⟩, ⟨6, 1, .ro, 0, 0, 1, true, false⟩]⟩,
  -- CEL_TEMP (R518)
  ⟨0xA0008, 2, 0x10000, 1, 0x0, 1, 0x0, .none, [⟨0, 8, .ro, 0, 0, 255, false, false⟩]⟩,
  -- CEL_PD_IDLE (R518)
  ⟨0xA000C, 2, 0x10000, 1, 0x0, 1, 0x0, .fw, [⟨0, 16, .rw, 1024, 0, 65535, false, false⟩]⟩,
  -- CEL_PAGE_TMO (R518)
  ⟨0xA0010, 2, 0x10000, 1, 0x0, 1, 0x0, .fw, [⟨0, 12, .rw, 256, 1, 4095, false, false⟩]⟩,
  -- CEL_MRW (R518)
  ⟨0xA0014, 2, 0x10000, 1, 0x0, 1, 0x0, .hand 2, [⟨0, 8, .rw, 0, 0, 255, false, false⟩, ⟨8, 4, .rw, 0, 0, 15, false, false⟩, ⟨12, 4, .rw, 0, 0, 15, false, false⟩, ⟨16, 1, .rw, 0, 0, 1, false, false⟩, ⟨31, 1, .wo, 0, 0, 1, false, false⟩]⟩,
  -- CEL_TRN_CTL (R518)
  ⟨0xA0020, 2, 0x10000, 1, 0x0, 1, 0x0, .hand 2, [⟨0, 1, .wo, 0, 0, 1, false, false⟩, ⟨1, 2, .rw, 0, 0, 2, false, false⟩, ⟨3, 3, .rw, 0, 0, 6, false, false⟩, ⟨6, 5, .rw, 0, 0, 31, false, false⟩, ⟨11, 5, .rw, 10, 0, 20, false, false⟩]⟩,
  -- CEL_TRN_STAT (R518)
  ⟨0xA0024, 2, 0x10000, 1, 0x0, 1, 0x0, .hand 2, [⟨0, 1, .ro, 0, 0, 1, false, false⟩, ⟨1, 1, .w1c, 0, 0, 1, false, false⟩]⟩,
  -- CEL_TRN_ROW (R518)
  ⟨0xA0028, 2, 0x10000, 1, 0x0, 1, 0x0, .hand 2, [⟨0, 21, .rw, 0, 0, 1179647, false, false⟩]⟩,
  -- CEL_TRN_USERi (R518)
  ⟨0xA0040, 2, 0x10000, 8, 0x4, 1, 0x0, .hand 2, [⟨0, 32, .rw, 0, 0, 4294967295, false, false⟩]⟩,
  -- CEL_TRN_ERRd (R518)
  ⟨0xA0080, 2, 0x10000, 38, 0x4, 1, 0x0, .none, [⟨0, 32, .ro, 0, 0, 4294967295, false, false⟩]⟩,
  -- CEL_LSEL (R518)
  ⟨0xA0100, 2, 0x10000, 1, 0x0, 1, 0x0, .hand 2, [⟨0, 5, .rw, 0, 0, 31, false, false⟩, ⟨5, 6, .rw, 0, 0, 37, false, false⟩]⟩,
  -- CEL_LANE_DLY (R518)
  ⟨0xA0104, 2, 0x10000, 1, 0x0, 1, 0x0, .hand 2, [⟨0, 7, .rw, 64, 0, 127, false, false⟩, ⟨16, 7, .rw, 64, 0, 127, false, false⟩]⟩,
  -- CEL_LANE_CE (R518)
  ⟨0xA0108, 2, 0x10000, 1, 0x0, 1, 0x0, .none, [⟨0, 32, .ro, 0, 0, 4294967295, true, false⟩]⟩,
  -- CEL_PC_VREF (R518)
  ⟨0xA010C, 2, 0x10000, 1, 0x0, 1, 0x0, .hand 2, [⟨0, 6, .rw, 32, 0, 63, false, false⟩]⟩,
  -- CEL_REPAIRp (R518)
  ⟨0xA0200, 2, 0x10000, 32, 0x4, 1, 0x0, .hand 2, [⟨0, 6, .rw, 0, 0, 35, false, false⟩, ⟨6, 1, .rw, 0, 0, 1, false, false⟩, ⟨8, 6, .rw, 0, 0, 35, false, false⟩, ⟨14, 1, .rw, 0, 0, 1, false, false⟩, ⟨16, 1, .ro, 0, 0, 1, true, false⟩]⟩,
  -- CEL_CAREPc (R518)
  ⟨0xA0280, 2, 0x10000, 16, 0x4, 1, 0x0, .hand 2, [⟨0, 5, .rw, 0, 0, 17, false, false⟩, ⟨5, 1, .rw, 0, 0, 1, false, false⟩]⟩,
  -- CEL_LOST_L (R518)
  ⟨0xA0300, 2, 0x10000, 1, 0x0, 1, 0x0, .none, [⟨0, 32, .ro, 0, 0, 4294967295, true, false⟩]⟩,
  -- CEL_LOST_H (R518)
  ⟨0xA0304, 2, 0x10000, 1, 0x0, 1, 0x0, .none, [⟨0, 32, .ro, 0, 0, 4294967295, true, false⟩]⟩,
  -- CEL_RAWWAIT (R518)
  ⟨0xA0310, 2, 0x10000, 1, 0x0, 1, 0x0, .none, [⟨0, 32, .ro, 0, 0, 4294967295, false, false⟩]⟩,
  -- CEL_RECALS (R518)
  ⟨0xA0314, 2, 0x10000, 1, 0x0, 1, 0x0, .none, [⟨0, 32, .ro, 0, 0, 4294967295, false, false⟩]⟩,
  -- CEL_LOSTS (R518)
  ⟨0xA0318, 2, 0x10000, 1, 0x0, 1, 0x0, .none, [⟨0, 32, .ro, 0, 0, 4294967295, true, false⟩]⟩]

/-- The register templates of block ATTIC (R615). -/
def regMapAttic : List RegT := [
  -- SCRUB_CTL (R545)
  ⟨0xC0000, 1, 0x0, 1, 0x0, 1, 0x0, .hand 3, [⟨0, 1, .rw, 0, 0, 1, false, false⟩]⟩,
  -- SCRUB_STAT (R545)
  ⟨0xC0004, 1, 0x0, 1, 0x0, 1, 0x0, .none, [⟨0, 1, .ro, 0, 0, 1, false, false⟩, ⟨1, 3, .ro, 0, 0, 7, false, false⟩]⟩,
  -- SCRUB_RATE (R545)
  ⟨0xC0008, 1, 0x0, 1, 0x0, 1, 0x0, .hand 3, [⟨0, 20, .rw, 895, 64, 1000000, false, false⟩]⟩,
  -- SCRUB_PASSES (R545)
  ⟨0xC000C, 1, 0x0, 1, 0x0, 1, 0x0, .none, [⟨0, 32, .ro, 0, 0, 4294967295, false, false⟩]⟩,
  -- SCRUB_POS_L (R545)
  ⟨0xC0010, 1, 0x0, 1, 0x0, 1, 0x0, .none, [⟨0, 32, .ro, 0, 0, 4294967295, false, false⟩]⟩,
  -- SCRUB_POS_H (R545)
  ⟨0xC0014, 1, 0x0, 1, 0x0, 1, 0x0, .none, [⟨0, 32, .ro, 0, 0, 4294967295, false, false⟩]⟩,
  -- SCRUB_RNGr_BASE (R545)
  ⟨0xC0020, 8, 0x8, 1, 0x0, 1, 0x0, .hand 3, [⟨0, 32, .rw, 0, 0, 4294967295, false, false⟩]⟩,
  -- SCRUB_RNGr_SIZE (R545)
  ⟨0xC0024, 8, 0x8, 1, 0x0, 1, 0x0, .hand 3, [⟨0, 32, .rw, 0, 0, 4294967295, false, false⟩]⟩,
  -- ECC_FLIPf_DATAi (R545)
  ⟨0xC0100, 5, 0x40, 5, 0x4, 1, 0x0, .host, [⟨0, 32, .rw, 0, 0, 4294967295, false, false⟩]⟩,
  -- ECC_FLIPf_CHECK (R545)
  ⟨0xC0114, 5, 0x40, 1, 0x0, 1, 0x0, .host, [⟨0, 9, .rw, 0, 0, 511, false, false⟩]⟩,
  -- ECC_FLIPf_CTL (R545)
  ⟨0xC0118, 5, 0x40, 1, 0x0, 1, 0x0, .host, [⟨0, 1, .rw, 0, 0, 1, false, false⟩, ⟨1, 1, .rw, 0, 0, 1, false, false⟩, ⟨2, 2, .rw, 0, 0, 3, false, false⟩, ⟨4, 1, .wo, 0, 0, 1, false, false⟩, ⟨8, 4, .ro, 0, 0, 15, false, false⟩]⟩,
  -- ECC_FLIPf_ADDR_L (R545)
  ⟨0xC011C, 5, 0x40, 1, 0x0, 1, 0x0, .host, [⟨0, 32, .rw, 0, 0, 4294967295, false, false⟩]⟩,
  -- ECC_FLIPf_ADDR_H (R545)
  ⟨0xC0120, 5, 0x40, 1, 0x0, 1, 0x0, .host, [⟨0, 16, .rw, 0, 0, 65535, false, false⟩]⟩,
  -- CHK_INJ_SEL (R545)
  ⟨0xC0300, 1, 0x0, 1, 0x0, 1, 0x0, .host, [⟨0, 2, .rw, 0, 0, 2, false, false⟩, ⟨8, 8, .rw, 0, 0, 255, false, false⟩]⟩,
  -- CHK_INJ_CTL (R545)
  ⟨0xC0304, 1, 0x0, 1, 0x0, 1, 0x0, .host, [⟨0, 8, .rw, 1, 1, 255, false, false⟩, ⟨8, 1, .rw, 0, 0, 1, false, false⟩]⟩,
  -- ECC_CEf (R545)
  ⟨0xC0400, 5, 0x8, 1, 0x0, 1, 0x0, .none, [⟨0, 32, .ro, 0, 0, 4294967295, true, false⟩]⟩,
  -- ECC_UCEf (R545)
  ⟨0xC0404, 5, 0x8, 1, 0x0, 1, 0x0, .none, [⟨0, 32, .ro, 0, 0, 4294967295, true, false⟩]⟩]

/-- The register templates of block TALLY (R615). -/
def regMapTally : List RegT := [
  -- TALLY_CTL (R568)
  ⟨0x50000, 1, 0x0, 1, 0x0, 1, 0x0, .host, [⟨0, 1, .rw, 0, 0, 1, false, false⟩, ⟨1, 2, .rw, 0, 0, 3, false, false⟩, ⟨3, 3, .rw, 1, 0, 4, false, false⟩, ⟨6, 1, .rw, 0, 0, 1, false, false⟩]⟩,
  -- TALLY_STAT (R568)
  ⟨0x50004, 1, 0x0, 1, 0x0, 1, 0x0, .none, [⟨0, 1, .ro, 0, 0, 1, false, false⟩, ⟨1, 1, .ro, 0, 0, 1, false, false⟩, ⟨2, 1, .ro, 0, 0, 1, false, false⟩, ⟨3, 1, .ro, 0, 0, 1, true, false⟩]⟩,
  -- TALLY_UNACK (R568)
  ⟨0x50008, 1, 0x0, 1, 0x0, 1, 0x0, .host, [⟨0, 9, .w1c, 0, 0, 511, false, false⟩]⟩,
  -- TALLY_UNACK_LVL (R568)
  ⟨0x5000C, 1, 0x0, 1, 0x0, 1, 0x0, .none, [⟨0, 27, .ro, 0, 0, 134217727, false, false⟩]⟩,
  -- TALLY_REPL (R568)
  ⟨0x50010, 1, 0x0, 1, 0x0, 1, 0x0, .none, [⟨0, 5, .ro, 0, 0, 31, true, false⟩]⟩,
  -- TALLY_THERM_S (R568)
  ⟨0x50014, 1, 0x0, 1, 0x0, 1, 0x0, .none, [⟨0, 32, .ro, 0, 0, 4294967295, true, false⟩]⟩,
  -- TALLY_MERGED (R568)
  ⟨0x50018, 1, 0x0, 1, 0x0, 1, 0x0, .none, [⟨0, 32, .ro, 0, 0, 4294967295, false, false⟩]⟩,
  -- TALLY_SRC_SEL (R568)
  ⟨0x50020, 1, 0x0, 1, 0x0, 1, 0x0, .host, [⟨0, 12, .rw, 0, 0, 4095, false, false⟩]⟩,
  -- TALLY_SRC_DATA (R568)
  ⟨0x50024, 1, 0x0, 1, 0x0, 1, 0x0, .none, [⟨0, 16, .ro, 0, 0, 65535, false, false⟩, ⟨16, 1, .ro, 0, 0, 1, true, false⟩, ⟨17, 1, .ro, 0, 0, 1, false, false⟩, ⟨18, 2, .ro, 0, 0, 3, true, false⟩, ⟨20, 1, .ro, 0, 0, 1, false, false⟩]⟩,
  -- TALLY_WINc (R568)
  ⟨0x50040, 8, 0x8, 1, 0x0, 1, 0x0, .hand 10, [⟨0, 17, .rw, 3600, 1, 86400, false, false⟩]⟩,
  -- TALLY_NSEVc (R568)
  ⟨0x50044, 8, 0x8, 1, 0x0, 1, 0x0, .hand 10, [⟨0, 16, .rw, 0, 0, 65535, false, false⟩]⟩,
  -- TALLY_STICKYi (R568)
  ⟨0x50100, 128, 0x4, 1, 0x0, 1, 0x0, .host, [⟨0, 32, .w1c, 0, 0, 4294967295, true, false⟩]⟩,
  -- TALLY_SEVi (R568)
  ⟨0x50300, 128, 0x4, 1, 0x0, 1, 0x0, .host, [⟨0, 32, .w1c, 0, 0, 4294967295, false, false⟩]⟩]

/-- The register templates of block EVC (R615). -/
def regMapEvc : List RegT := [
  -- EVC_SPURIOUSt (R584)
  ⟨0x40010, 8, 0x4, 1, 0x0, 1, 0x0, .none, [⟨0, 32, .ro, 0, 0, 4294967295, false, false⟩]⟩,
  -- EVC_CLAIMt (R584)
  ⟨0x40040, 4, 0x10, 1, 0x0, 1, 0x0, .fw, [⟨0, 10, .ro, 0, 0, 1023, false, false⟩, ⟨10, 6, .ro, 0, 0, 63, false, false⟩, ⟨16, 1, .ro, 0, 0, 1, false, false⟩]⟩,
  -- EVC_DONEt (R584)
  ⟨0x40044, 4, 0x10, 1, 0x0, 1, 0x0, .fw, [⟨0, 10, .wo, 0, 0, 1023, false, false⟩]⟩,
  -- EVC_CLAIMPIC_Lt (R584)
  ⟨0x40048, 4, 0x10, 1, 0x0, 1, 0x0, .fw, [⟨0, 32, .ro, 0, 0, 4294967295, false, false⟩]⟩,
  -- EVC_CLAIMPIC_Ht (R584)
  ⟨0x4004C, 4, 0x10, 1, 0x0, 1, 0x0, .fw, [⟨0, 32, .ro, 0, 0, 4294967295, false, false⟩]⟩,
  -- EVC_INSVt (R584)
  ⟨0x40100, 8, 0x4, 1, 0x0, 1, 0x0, .none, [⟨0, 10, .ro, 0, 0, 1023, false, false⟩, ⟨16, 1, .ro, 0, 0, 1, false, false⟩, ⟨17, 1, .ro, 0, 0, 1, false, false⟩]⟩,
  -- EVC_INCFGi (R584)
  ⟨0x40180, 16, 0x4, 1, 0x0, 1, 0x0, .host, [⟨0, 10, .rw, 10, 1, 1023, false, false⟩, ⟨10, 2, .rw, 0, 0, 3, false, false⟩, ⟨16, 1, .ro, 0, 0, 1, false, false⟩, ⟨17, 1, .ro, 0, 0, 1, false, false⟩]⟩,
  -- EVC_HOLDg (R584)
  ⟨0x40200, 64, 0x4, 1, 0x0, 1, 0x0, .host, [⟨0, 16, .rw, 0, 0, 65535, false, false⟩]⟩,
  -- EVC_TMRi (R584)
  ⟨0x40300, 4, 0x4, 1, 0x0, 1, 0x0, .host, [⟨0, 20, .rw, 1000, 1, 1000000, false, false⟩, ⟨31, 1, .rw, 0, 0, 1, false, false⟩]⟩,
  -- EVC_PREEMPT (R584)
  ⟨0x40340, 1, 0x0, 1, 0x0, 1, 0x0, .fw, [⟨0, 8, .wo, 0, 0, 143, false, false⟩, ⟨8, 2, .wo, 0, 0, 3, false, false⟩, ⟨10, 1, .wo, 0, 0, 1, false, false⟩]⟩,
  -- EVC_PENDi (R584)
  ⟨0x40400, 32, 0x4, 1, 0x0, 1, 0x0, .host, [⟨0, 32, .w1c, 0, 0, 4294967295, false, false⟩]⟩,
  -- EVC_ACTi (R584)
  ⟨0x40480, 32, 0x4, 1, 0x0, 1, 0x0, .none, [⟨0, 32, .ro, 0, 0, 4294967295, false, false⟩]⟩,
  -- EVC_TGTn (R584)
  ⟨0x41000, 1024, 0x4, 1, 0x0, 1, 0x0, .host, [⟨0, 4, .rw, 8, 0, 15, false, false⟩]⟩]

/-- The register templates of block CLKPWR (R615). -/
def regMapClkpwr : List RegT := [
  -- CLKPWR_RSTCAUSE (R613)
  ⟨0x10000, 1, 0x0, 1, 0x0, 1, 0x0, .host, [⟨0, 1, .w1c, 1, 0, 1, false, false⟩, ⟨1, 1, .w1c, 0, 0, 1, false, false⟩, ⟨2, 1, .w1c, 0, 0, 1, false, false⟩]⟩,
  -- CLKPWR_CLKRUN (R613)
  ⟨0x10004, 1, 0x0, 1, 0x0, 1, 0x0, .none, [⟨0, 22, .ro, 7, 0, 4194303, false, false⟩]⟩,
  -- CLKPWR_SLEEP (R613)
  ⟨0x10010, 1, 0x0, 1, 0x0, 1, 0x0, .none, [⟨0, 3, .ro, 0, 0, 7, false, false⟩, ⟨3, 3, .ro, 0, 0, 7, false, false⟩, ⟨6, 1, .ro, 0, 0, 1, false, false⟩, ⟨7, 1, .ro, 0, 0, 1, false, false⟩, ⟨16, 16, .ro, 0, 0, 65535, false, false⟩]⟩,
  -- CLKPWR_SWAP (R613)
  ⟨0x10018, 1, 0x0, 1, 0x0, 1, 0x0, .host, [⟨0, 1, .ro, 0, 0, 1, false, false⟩, ⟨1, 1, .w1c, 0, 0, 1, false, false⟩]⟩,
  -- CLKPWR_PDn (R613)
  ⟨0x10100, 72, 0x4, 1, 0x0, 1, 0x0, .fw, [⟨0, 2, .ro, 0, 0, 3, false, false⟩, ⟨2, 2, .ro, 0, 0, 3, false, false⟩, ⟨4, 2, .wo, 0, 0, 2, false, false⟩]⟩]

/-- The register templates of block MON (R615). -/
def regMapMon : List RegT := [
  -- MON_TMAX (R614)
  ⟨0x20000, 1, 0x0, 1, 0x0, 1, 0x0, .none, [⟨0, 8, .ro, 0, 0, 255, false, false⟩, ⟨8, 6, .ro, 0, 0, 63, false, false⟩, ⟨16, 2, .ro, 0, 0, 3, false, false⟩]⟩,
  -- MON_TEMPi (R614)
  ⟨0x20100, 48, 0x4, 1, 0x0, 1, 0x0, .none, [⟨0, 8, .ro, 0, 0, 255, false, false⟩]⟩,
  -- MON_RAILr_MV (R614)
  ⟨0x20200, 12, 0x8, 1, 0x0, 1, 0x0, .none, [⟨0, 12, .ro, 0, 0, 4095, false, false⟩]⟩,
  -- MON_RAILr_CFG (R614)
  ⟨0x20204, 12, 0x8, 1, 0x0, 1, 0x0, .host, [⟨0, 8, .rw, 6, 0, 255, false, false⟩, ⟨8, 8, .rw, 16, 0, 255, false, false⟩, ⟨16, 1, .w1c, 0, 0, 1, false, false⟩, ⟨17, 1, .w1c, 0, 0, 1, false, false⟩]⟩,
  -- MON_PROCf (R614)
  ⟨0x20300, 36, 0x4, 1, 0x0, 1, 0x0, .none, [⟨0, 16, .ro, 0, 0, 65535, false, false⟩]⟩,
  -- MON_AVS_CTL (R614)
  ⟨0x20400, 1, 0x0, 1, 0x0, 1, 0x0, .fw, [⟨0, 1, .rw, 0, 0, 1, false, false⟩, ⟨1, 1, .rw, 1, 0, 1, false, false⟩, ⟨2, 7, .rw, 64, 0, 127, false, false⟩]⟩,
  -- MON_AVS_TGT (R614)
  ⟨0x20404, 1, 0x0, 1, 0x0, 1, 0x0, .fw, [⟨0, 16, .rw, 0, 0, 65535, false, true⟩, ⟨16, 8, .rw, 8, 0, 255, false, false⟩]⟩,
  -- MON_AVS_STAT (R614)
  ⟨0x20408, 1, 0x0, 1, 0x0, 1, 0x0, .fw, [⟨0, 12, .ro, 750, 0, 4095, false, false⟩, ⟨12, 1, .ro, 0, 0, 1, false, false⟩, ⟨13, 1, .w1c, 0, 0, 1, false, false⟩]⟩]

/-- The register templates of block DEV (R615). -/
def regMapDev : List RegT := [
  -- DEV_ID (R625)
  ⟨0x0, 1, 0x0, 1, 0x0, 1, 0x0, .none, [⟨0, 32, .ro, 191103057, 0, 4294967295, false, false⟩]⟩,
  -- DEV_REV (R625)
  ⟨0x4, 1, 0x0, 1, 0x0, 1, 0x0, .none, [⟨0, 4, .ro, 0, 0, 15, false, true⟩, ⟨4, 4, .ro, 0, 0, 15, false, true⟩, ⟨8, 8, .ro, 0, 0, 255, false, true⟩]⟩,
  -- DEV_STRAP (R625)
  ⟨0x8, 1, 0x0, 1, 0x0, 1, 0x0, .none, [⟨0, 1, .ro, 0, 0, 1, false, false⟩, ⟨1, 1, .ro, 0, 0, 1, false, false⟩, ⟨2, 1, .ro, 0, 0, 1, false, false⟩, ⟨3, 1, .ro, 0, 0, 1, false, false⟩]⟩,
  -- DEV_UNITS (R625)
  ⟨0xC, 1, 0x0, 1, 0x0, 1, 0x0, .none, [⟨0, 4, .ro, 15, 0, 15, false, false⟩, ⟨4, 2, .ro, 3, 0, 3, false, false⟩]⟩,
  -- DEV_HAND (R625)
  ⟨0x10, 1, 0x0, 1, 0x0, 1, 0x0, .host, [⟨0, 1, .rw, 0, 0, 1, false, false⟩, ⟨1, 1, .rw, 0, 0, 1, false, false⟩, ⟨2, 1, .rw, 0, 0, 1, false, false⟩, ⟨3, 1, .rw, 0, 0, 1, false, false⟩, ⟨4, 1, .rw, 0, 0, 1, false, false⟩, ⟨5, 1, .rw, 0, 0, 1, false, false⟩, ⟨6, 1, .rw, 0, 0, 1, false, false⟩, ⟨7, 1, .rw, 0, 0, 1, false, false⟩, ⟨8, 1, .rw, 0, 0, 1, false, false⟩, ⟨9, 1, .rw, 0, 0, 1, false, false⟩, ⟨10, 1, .rw, 0, 0, 1, false, false⟩]⟩,
  -- DEV_HEALTH (R625)
  ⟨0x14, 1, 0x0, 1, 0x0, 1, 0x0, .none, [⟨0, 2, .ro, 0, 0, 3, false, false⟩, ⟨2, 1, .ro, 0, 0, 1, true, false⟩, ⟨3, 1, .ro, 0, 0, 1, false, false⟩, ⟨4, 1, .ro, 0, 0, 1, false, false⟩, ⟨5, 1, .ro, 0, 0, 1, false, false⟩, ⟨6, 2, .ro, 0, 0, 3, false, false⟩, ⟨16, 8, .ro, 0, 0, 255, false, false⟩]⟩,
  -- DEV_FWVER (R625)
  ⟨0x18, 1, 0x0, 1, 0x0, 1, 0x0, .fw, [⟨0, 16, .rw, 0, 0, 65535, false, false⟩, ⟨16, 8, .rw, 0, 0, 255, false, false⟩, ⟨24, 8, .rw, 0, 0, 255, false, false⟩]⟩,
  -- DEV_SCRATCH (R625)
  ⟨0x1C, 1, 0x0, 1, 0x0, 1, 0x0, .host, [⟨0, 32, .rw, 0, 0, 4294967295, false, false⟩]⟩,
  -- DEV_UID_L (R625)
  ⟨0x20, 1, 0x0, 1, 0x0, 1, 0x0, .none, [⟨0, 32, .ro, 0, 0, 4294967295, false, true⟩]⟩,
  -- DEV_UID_H (R625)
  ⟨0x24, 1, 0x0, 1, 0x0, 1, 0x0, .none, [⟨0, 32, .ro, 0, 0, 4294967295, false, true⟩]⟩]

/-- The instance indices of template `t` at address `a`, where `a` is one of its instances. -/
def RegT.index (t : RegT) (a : Nat) : Option (Nat × Nat × Nat) :=
  if a < t.base then none else
  let d := a - t.base
  let i := if t.n1 ≤ 1 then 0 else d / t.s1
  let d1 := d - i * t.s1
  let j := if t.n2 ≤ 1 then 0 else d1 / t.s2
  let d2 := d1 - j * t.s2
  let k := if t.n3 ≤ 1 then 0 else d2 / t.s3
  let d3 := d2 - k * t.s3
  if d3 = 0 ∧ i < t.n1 ∧ j < t.n2 ∧ k < t.n3 then some (i, j, k) else none

/-- The templates of the block that holds address `a` (R615). -/
def regBlock (a : Nat) : List RegT :=
  if a < 0x10000 then regMapDev else
  if a < 0x20000 then regMapClkpwr else
  if a < 0x30000 then regMapMon else
  if a < 0x40000 then regMapTime else
  if a < 0x50000 then regMapEvc else
  if a < 0x60000 then regMapTally else
  if a < 0x80000 then regMapHost else
  if a < 0xA0000 then regMapHoist else
  if a < 0xC0000 then regMapCellar else
  if a < 0x100000 then regMapAttic else
  if a < 0x200000 then regMapCrew else
  if a < 0x300000 then regMapFour else
  if a < 0x310000 then regMapRrc else
  if a < 0x320000 then regMapRack else
  if a < 0x340000 then regMapStream else
  if a < 0x400000 then regMapCanvas else
  if a < 0x500000 then regMapLane else
  if a < 0x600000 then regMapPort else
  if a < 0x700000 then regMapEgress else
  if a < 0x800000 then regMapSpx else []

/-- The template that covers address `a` in a list of templates, with the instance indices. -/
def regFind (a : Nat) : List RegT → Option (RegT × Nat × Nat × Nat)
  | [] => none
  | t :: r => match t.index a with
    | some ix => some (t, ix)
    | none => regFind a r

/-- The register at address `a`; none where `a` is unmapped (R618). -/
def regInfo (a : Nat) : Option (RegT × Nat × Nat × Nat) :=
  if a % 4 = 0 then regFind a (regBlock a) else none

/-- The reset value of one field of instance `(i, j)` at address `a` (R11): the table's value, the eFuse value, or the
instance-dependent values of CREWc_SEATj (R163), CREWc_SCULLq (R131, R163), TALLY_NSEVc (R568) and CLKPWR_PDn (R613). -/
def fieldReset (a : Nat) (t : RegT) (i j : Nat) (f : FieldT) : Nat :=
  if f.fuse then (Config.efuse a).toNat / 2 ^ f.lo % 2 ^ f.w else
  if t.base = 0x100080 ∧ f.lo = 0 then j else
  if t.base = 0x100100 ∧ f.lo = 0 then (if j < 32 then 0 else 1) else
  if t.base = 0x50044 then ([256, 4, 1024, 16, 16, 4, 4, 4][i]?).getD 0 else
  if t.base = 0x10100 ∧ f.lo = 0 then (if i = 66 then 2 else 0) else
  f.reset

/-- The contents register `a` has after PORESET_N (R11, R12); an unmapped address reads as zero (R618). -/
def regReset (a : Nat) : Word :=
  match regInfo a with
  | none => 0
  | some (t, i, j, _) =>
    BitVec.ofNat 32 (t.fields.foldl (fun n f => n + fieldReset a t i j f * 2 ^ f.lo) 0)

end Sys2Proof.Machine
end

