-- ==== Sys2Proof/Machine/State.lean ====
section
/-!
DEFINITION. The whole state of the part as plain data. Every register that the management space shows lives in `regs`, keyed
by its address (an unlisted register holds its reset value, RegMap.lean); the other fields hold the state that the chapters
give the part beside its registers. Sparse tables (`Tab`) list only entries that differ from what an unlisted entry reads as.
-/
namespace Sys2Proof.Machine

/-! ## NAL units (R111) -/

/-- A syntax element set to a value. -/
abbrev Elem := String × Nat

/-- What a NAL unit is: the orders of R111, with the payload of a host SEI in bits. -/
inductive NalKind where
  | aud | vps | sps | pps | recovery | mdcv | cll
  | hostSei (bits : Nat) (messages : List Byte)
  | ph
  | slice (row reg : Nat)
  deriving DecidableEq, Repr

/-- A NAL unit: its kind and the elements whose values are given. -/
structure Nal where
  kind : NalKind
  elems : List Elem := []
  deriving DecidableEq, Repr

/-! ## Packets -/

/-- The RTP header of a packet that is sent (R412, R418, R424): with DON the decoding order number of its first NAL unit (R417). -/
structure Rtp where
  pt   : Nat := 0
  seq  : Nat := 0
  ts   : Nat := 0
  ssrc : Nat := 0
  rest : RtpRest := {}
  don  : Option Nat := none
  deriving DecidableEq, Repr

/-- The Ethernet, IPv4 and UDP headers of a packet that the device forms (R401): the tag as VID and PCP, DF, and the UDP checksum. -/
structure NetHead where
  dstMac : Nat := 0
  srcMac : Nat := 0
  tag    : Option (Nat × Nat) := none
  srcIp  : Nat := 0
  dstIp  : Nat := 0
  ttl    : Nat := 0
  dscp   : Nat := 0
  df     : Bool := true
  sport  : Nat := 0
  dport  : Nat := 0
  sum    : Nat := 0
  deriving DecidableEq, Repr

/-- A packet of a transport stream (R422): its PID; of the PAT the program number and the PID of its PMT; of the PMT the program number, the video PID
and the stream type; whether a PES packet starts in it, with its PTS; and a PCR in units of 27 MHz. -/
structure TsPkt where
  pid     : Nat
  pat     : Option (Nat × Nat) := none
  program : Option (Nat × Nat × Nat) := none
  pts     : Option Nat := none
  pcr     : Option Nat := none
  deriving DecidableEq, Repr

/-- A stream's transport stream (R421, R422): bytes of the PES packet not yet in a packet, the PTS that its first packet takes, the packets not yet
sent, and the device time of the last PAT and the last PCR in nanoseconds. -/
structure TsS where
  bytes : Nat := 0
  pts   : Option Nat := none
  pkts  : List TsPkt := []
  pat   : Option Nat := none
  pcr   : Option Nat := none
  deriving DecidableEq, Repr

/-! ## PTP -/

/-- What firmware's PTP servo holds: the settings of PTP_SET (R352), priority1, priority2, the flags of byte 19, and the masks of media ports and of CP0 and CP1;
and the synchronization metadata that it has reported last (R362). DESIGN CHOICE (log 133): the manual gives the settings before the first PTP_SET no value,
and they are 0. -/
structure PtpServo where
  prio1 : Nat := 0
  prio2 : Nat := 0
  flags : Nat := 0
  ports : Nat := 0
  cps   : Nat := 0
  sync  : Option PtpSync := none
  deriving DecidableEq, Repr

/-! ## Parameters of an open (R335-R337) -/

/-- A flow entry (R336). -/
structure Flow where
  portA : Nat := 0
  portB : Nat := 255
  pt    : Nat := 0
  ts    : Bool := false
  udpA  : Nat := 0
  udpB  : Nat := 0
  ipA   : Nat := 0
  ipB   : Nat := 0
  ssrc  : Nat := 0
  deriving DecidableEq, Repr

/-- A subpicture entry (in CTUs) or a region entry (in luma samples) of a parameter block (R337). -/
structure Region where
  x : Nat := 0
  y : Nat := 0
  w : Nat := 0
  h : Nat := 0
  flow : Flow := {}
  deriving DecidableEq, Repr

/-- A feed entry (R337). The offset is a signed value. -/
structure FeedP where
  feed   : Nat := 0
  fill   : Bool := false
  bits10 : Bool := false
  lostN  : Nat := 8
  x      : Nat := 0
  y      : Nat := 0
  w      : Nat := 0
  h      : Nat := 0
  tso    : Int := 0
  flow   : Flow := {}
  deriving DecidableEq, Repr

/-- The fields of RATE_SET (R341): none where MASK leaves a field. -/
structure RateP where
  br      : Option Nat := none
  qpMin   : Option Nat := none
  qpMax   : Option Nat := none
  margin  : Option Nat := none
  at_     : Nat := 0
  deriving DecidableEq, Repr

/-- A stream's parameters, with every default applied (R335), and of a decode stream the layout of its active parameter sets: its
tiles or subpictures in units of 64 luma samples (none: one), whether its CTBs are of 128 or of 32 samples (R223), whether it uses WPP, and the size of
its pictures (0: the declared one). -/
structure Params where
  typ      : Nat := 0
  profile  : Nat := 0
  tier     : Nat := 0
  level    : Nat := 0
  chroma   : Nat := 0
  bits10   : Bool := false
  frame    : Bool := false
  gen      : Nat := 0
  w        : Nat := 0
  h        : Nat := 0
  delay    : Nat := 4
  nref     : Nat := 1
  nh       : Nat := 2
  keyTrue  : Bool := false
  keySrc   : Nat := 7
  refresh  : Nat := 60
  fast     : Nat := 4
  keyPer   : Nat := 64
  shelfN   : Nat := 0
  inOfs    : Nat := 0
  pace     : Nat := 20000
  grace    : Nat := 0
  prio     : Nat := 0
  statRing : Nat := 0
  statEn   : Bool := false
  bg       : Nat := 0
  br       : Nat := 0
  brMax    : Nat := 0
  bufUs    : Nat := 0
  margin   : Nat := 4096
  qpMin    : Nat := 10
  qpMax    : Nat := 51
  qpInit   : Nat := 32
  borrow   : Nat := 50
  repay    : Nat := 25
  floorEvt : Bool := false
  dpbMax   : Nat := 0
  refRows  : Nat := 0
  pliEn    : Bool := false
  pliHold  : Nat := 0
  decTso   : Int := 0
  inBrMax  : Nat := 0
  binMax   : Nat := 0
  anc      : Nat := 0
  ancDid   : Nat := 0
  ancSdid  : Nat := 0
  vui      : Nat := 0
  vuiFlags : Nat := 0
  mdcv     : Nat := 0
  cll      : Nat := 0
  inFlow   : Flow := {}
  outFlow  : Flow := {}
  regs     : List Region := []
  feeds    : List FeedP := []
  lay      : List (Nat × Nat × Nat × Nat) := []
  big      : Bool := false
  small    : Bool := false
  wpp      : Bool := false
  dims     : Nat × Nat := (0, 0)
  deriving DecidableEq, Repr

/-- The part that the state describes (R1-R4). -/
inductive Part where
  | fa | ha
  deriving DecidableEq, Repr

/-- Why a command can stop the model. The spec gives every command of the table an effect, so no meaning stops; the one
constructor stands for a stop no command raises. Safe: nothing raises it. -/
inductive Fault where
  /-- Raised by no meaning. Safe. -/
  | none
  deriving DecidableEq, Repr

/-- Why a command can be refused. -/
inductive Refusal where
  /-- The command of that mnemonic has no meaning yet. Raised only by a refused arm of `exec`. Safe. -/
  | notModelled (mnemonic : String)
  deriving DecidableEq, Repr

/-- An exact instant, `num / den` nanoseconds after the PTP epoch (R44). -/
structure Inst where
  num : Nat := 0
  den : Nat := 1
  deriving DecidableEq, Repr

/-! ## Stroke and network time -/

/-- A Stroke generator beside its registers (R44, R46): the index `next` of the Stroke to fire next, the remainder of
`next * PNUM` modulo PDEN, and the index and nanoseconds of the most recent Stroke. -/
structure GenS where
  next   : Nat := 0
  rem    : Nat := 0
  last   : Nat := 0
  lastNs : Nat := 0
  deriving DecidableEq, Repr

/-! ## The Tally -/

/-- A Tally message (R546) in a holding register: its fields, the cycle it arrived in, and how many messages of a
class other than CFG were merged into it, real and injected (R551). -/
structure Msg where
  src    : Nat
  kind   : Nat
  lvl    : Nat
  inj    : Bool := false
  addr   : Nat := 0
  ns     : Nat := 0
  detail : Nat := 0
  cyc    : Nat := 0
  merged : Nat := 0
  mergedInj : Nat := 0
  deriving DecidableEq, Repr

/-- What the Tally keeps of one source beside its sticky and severe bits (R553, R564). -/
structure TSrc where
  count   : Nat := 0
  reached : Bool := false
  streak  : Nat := 0
  deriving DecidableEq, Repr

/-- The counting window in force of one class (R555, R567): its length in seconds and the second at which it ends. -/
structure TWin where
  len  : Nat := 3600
  stop : Nat := 3600
  nsev : Nat := 0
  deriving DecidableEq, Repr

/-! ## The Event Controller -/

/-- Gathered per-stream events (R572) and the picture index of the earliest. -/
structure Gath where
  ev  : Nat := 0
  pic : Nat := 0
  deriving DecidableEq, Repr

/-- An EVT_IN pin (R570): whether its filter has settled since its last restart. -/
structure PinS where
  settled : Bool := false
  deriving DecidableEq, Repr

/-- A preemption on its way to a Scull (R582). -/
structure Preempt where
  level : Nat := 0
  abort : Bool := false
  deriving DecidableEq, Repr

/-! ## Rings -/

/-- An entry that the device writes into a ring: a completion (R357), the event records (R359-R362), a statistics record
(R364, R365) as its 512 bits. -/
inductive RingEntry where
  | compl (tag status opc ring epoch data : Nat)
  | tally (seq sec ns : Nat) (body : Nat)
  | claim (seq sec ns source unit event pic target : Nat)
  | ptpMeta (seq sec ns num den offs lock flags : Nat)
  | stat (body : Nat)
  deriving DecidableEq, Repr

/-- A ring beside its registers: the next SEQ of an event ring (R363), the entries whose RDMA WRITE is not acknowledged
(R308), the number of entries in a read that has been asked for (R309), and the base and shadow address taken at its enable (R623). -/
structure RingS where
  seq   : Nat := 0
  unack : List RingEntry := []
  since : Nat := 0
  asked : Nat := 0
  askAt : Nat := 0
  base  : Nat := 0
  shad  : Nat := 0
  deriving DecidableEq, Repr

/-- A command fetched and not begun (R309): its ring, the completion ring that its ring named, its descriptor. -/
structure Fetched where
  ring : Nat
  cq   : Nat
  desc : Desc
  deriving DecidableEq, Repr

/-- What a begun command waits for before its completion is written (R333). -/
inductive Await where
  | unitOn (kind idx : Nat)      -- the unit reaches ON, begun by or merged with this enable (R590)
  | unitOff (kind idx : Nat)     -- the unit reaches OFF
  | latched (kind idx : Nat)     -- held as ENABLE_PENDING or DISABLE_PENDING (R332)
  | feed (stream feed : Nat)     -- the Stroke at which a feed change takes effect (R83)
  | rate (stream : Nat)          -- the Stroke at which a rate change takes effect (R193)
  | hold (stream pic : Nat)      -- the slot's CODING mark clears (R209)
  | hoist (chan : Nat)           -- a Hoist job's last byte (R349)
  | stroke (gen : Nat)           -- a generator's first Stroke (R351)
  | ucode                        -- every unretired Scull runs the new store (R355)
  | sleep                        -- the sleep commit point (R356)
  | gate (port : Nat)            -- a gate take-over (R454)
  | svc (q : Nat) (v : List Nat) -- the shaper's next refill, at which service `q` takes the values (R348)
  deriving DecidableEq, Repr

/-- A begun command that has not completed. -/
structure Owed where
  wait : Await
  ring : Nat
  cq   : Nat
  opc  : Nat
  tag  : Nat
  kind : Nat
  idx  : Nat
  deriving DecidableEq, Repr

/-! ## Streams, feeds and canvases -/

/-- A sample in input staging (R76, R80, R81, R652): the feed it belongs to, its plane and its place in that plane of the feed's picture, and its
value. -/
structure Smp where
  feed  : Nat
  plane : Nat
  x     : Nat
  y     : Nat
  v     : Nat
  deriving DecidableEq, Repr

/-- A band in input staging (R78, R89): its picture, its number, and the samples of its feeds, the latest written first. Where no feed lies, the
canvas's background colour stands (R80). -/
structure StripB where
  pic  : Nat
  b    : Nat
  smps : List Smp := []
  deriving DecidableEq, Repr

/-- A stretch of a line that a packet has brought (R413, R414), while the line is not whole: its picture, the line, the first column and the column after the
last, and its samples. -/
structure LineSeg where
  pic   : Nat
  line  : Nat
  from_ : Nat
  to_   : Nat
  smps  : List Smp := []
  deriving DecidableEq, Repr

/-- A feed, or the one input of an ENCODE stream (R652): the stream it belongs to, its parameters, the lines received whole for
each picture in hand, what has come of others, the pictures with a fill, newest first (R82), and the placements that pictures before a given one still
have (R83, R340). -/
structure FeedS where
  stream : Option Nat := none
  p      : FeedP := {}
  lines  : List (Nat × Nat) := []
  segs   : List LineSeg := []
  filled : List Nat := []
  prev   : List (Nat × FeedP) := []
  deriving DecidableEq, Repr

/-- A feed change that waits for its Stroke (R83): 0 add, 1 change, 2 remove; and the cycle of its acceptance. -/
structure FeedChange where
  sub  : Nat
  p    : FeedP
  at_  : Nat
  deriving DecidableEq, Repr

/-- A picture record of a Larder slot (R139). `swift` says that its sweep is a fast one: what FAST shows, but for a carried record, whose flags are
cleared (R142). It is no part of the record's bytes. -/
structure Record where
  pic        : Nat := 0
  stroke     : Nat := 0
  valid      : Bool := false
  carried    : Bool := false
  startup    : Bool := false
  irap       : Bool := false
  sweepStart : Bool := false
  fast       : Bool := false
  swift      : Bool := false
  cap        : Nat := 0
  sweepJ     : Nat := 0
  colS       : Nat := 0
  colE       : Nat := 0
  poc        : Nat := 0
  wslot      : Nat := 0
  ref0       : Nat := 0
  ref1       : Nat := 0
  ref0Poc    : Nat := 0
  ref1Poc    : Nat := 0
  deriving DecidableEq, Repr

/-- A picture whose Stroke has fired and whose totals RRC still needs (R170, R171, R179): its record, its slot, its bits,
and what its statistics record reports (R194, R364). `refDue` marks a decoded picture that waits for a slot and whose header has given it
REF_SHORT, `dropDue` one whose header removes marks once the picture before has completed (R204), and `nrefAt` is the NREF in
force at the Stroke after it (R203); `marks` are the marks that headers give it before then; `lay`, `big`, `small`, `wpp` and `dims` are the layout of a decoded picture (R223); `whole` says that it is
concealed whole because decoding has not started (R237), `far` that a vector read beyond what was waited for (R230), and `miss` holds the references that a
substitute stands for (R235). -/
structure Pic where
  n        : Nat
  k        : Nat
  t        : Inst
  record   : Record := {}
  waiting  : Bool := false
  jobsLeft : Nat := 0
  bPic     : Nat := 0
  spent    : Nat := 0
  lease    : Nat := 0
  reserve  : Nat := 0
  floor    : Bool := false
  loan     : Nat := 0
  fin      : Option Nat := none
  sei      : List (Nat × List Byte) := []
  seiDefer : Bool := false
  noloan   : Bool := false
  acted    : Nat := 0
  merged   : Nat := 0
  filled   : Bool := false
  lateRows : Nat := 0
  qpSum    : Nat := 0
  ctus     : Nat := 0
  qpLo     : Nat := 63
  qpHi     : Nat := 0
  floorCtus : Nat := 0
  ctuE1    : Nat := 0
  ctuE2    : Nat := 0
  ctuE3    : Nat := 0
  refs     : List Nat := []
  dirty    : Bool := false
  tainted  : Bool := false
  noAu     : Bool := false
  grey     : Bool := false
  repeat_  : Bool := false
  subst    : Nat := 0
  concCtus : Nat := 0
  lostPkts : Nat := 0
  bins     : Nat := 0
  lateBands : Nat := 0
  shown    : Bool := true
  recover  : Bool := false
  far      : Bool := false
  whole    : Bool := false
  miss     : List Nat := []
  marks    : List Bool := []
  outLeft  : Nat := 0
  doneOfs  : Nat := 0
  headDone : Bool := false
  refDue   : Bool := false
  dropDue  : Bool := false
  nrefAt   : Nat := 0
  lay      : List (Nat × Nat × Nat × Nat) := []
  big      : Bool := false
  small    : Bool := false
  wpp      : Bool := false
  dims     : Nat × Nat := (0, 0)
  deriving DecidableEq, Repr

/-- A host SEI insert held by a stream (R343): the pictures it names and its charge in bits. -/
structure SeiIns where
  first : Nat
  last  : Nat
  bits  : Nat
  pay   : List Byte := []
  deriving DecidableEq, Repr

/-- One job's model value: the `c` of the co-located job of the last picture that completed it (R185, R186). -/
structure JobC where
  pic : Nat
  row : Nat
  reg : Nat
  lw  : Nat
  deriving DecidableEq, Repr

/-- An access unit of a decode stream matched to a picture (R221): its RTP timestamp and, once a packet has brought it, its parsed
header. -/
structure Au where
  pic   : Nat
  ts    : Nat := 0
  head  : Option AuHead := none
  deriving DecidableEq, Repr

/-- The packet types of the coded payload formats (R417, R419): whole NAL units, single or aggregated; a fragment, with whether it is the first and the last of
its NAL unit; and a PACI packet. -/
inductive CodedPkt where
  | whole
  | frag (first last : Bool)
  | paci
  deriving DecidableEq, Repr

/-- A packet of an access unit in hand (R231): its number, counted on beyond 16 bits, its picture, its type, and the NAL units that begin in it; or a packet that has
been declared lost. -/
structure RxPkt where
  seq  : Nat
  pic  : Nat
  kind : CodedPkt := .whole
  nals : List NalIn := []
  lost : Bool := false
  deriving DecidableEq, Repr

/-- The decoding context of a DECODE stream (R218-R247): whether a picture that starts decoding has been found and whether the stream
waits after a parameter-set error, its access units, the picture from which a PLI may be sent again, the jobs whose input is
committed, whose syntax the Bow has written, whose cut has passed and whose input was lost there, the starts of recovery each with the
picture from which taint before it is ignored, the timestamps of discarded access units, the tainted pictures with the latest picture whose own taint each took, the bytes
used and reserved in bitstream staging, and those of decoded syntax (R220), the sender's IP address, UDP port and SSRC (R420), the packets of the access units in hand, the
newest number received, the conditions reported of each picture (R245), the jobs with concealed CTUs with the first of them (R232), and, of the CONCEAL_SRC slot, the cycle of the last read and
the slots that the mark has left, each until the cycle after its last read (R234), and the Bow that A7 counts it on (R227). -/
structure DecS where
  started : Bool := false
  psetErr : Bool := false
  aus     : List Au := []
  pliTil  : Nat := 0
  inputs  : List (Nat × Nat × Nat) := []
  syn     : List (Nat × Nat × Nat) := []
  cut     : List (Nat × Nat × Nat) := []
  lost    : List (Nat × Nat × Nat) := []
  recAt   : List (Nat × Nat) := []
  taint   : List (Nat × Nat) := []
  dropTs  : List Nat := []
  staged  : Nat := 0
  stage   : Nat := 0
  synUsed : Nat := 0
  synStage : Nat := 0
  sender  : Nat × Nat × Nat := (0, 0, 0)
  pkts    : List RxPkt := []
  newest  : Option Nat := none
  told    : List (Nat × Nat) := []
  conc    : List (Nat × Nat × Nat × Nat) := []
  srcRead : Option Nat := none
  srcHeld : List (Nat × Nat) := []
  bow     : Option Nat := none
  deriving DecidableEq, Repr

/-- The Crew set in force of a stream (R135, R136): home, shadows (4: none) and the homes of a canvas's subpictures. -/
structure CrewSet where
  home : Nat := 0
  sh0  : Nat := 4
  sh1  : Nat := 4
  sub  : List Nat := []
  deriving DecidableEq, Repr

/-- The merge of an input flow (R410, R411): numbers merged, each with the port that delivered it and whether the other path
has brought it, and the newest. -/
structure MergeS where
  seen   : List (Nat × Nat × Bool) := []
  newest : Option Nat := none
  deriving DecidableEq, Repr

/-- A stream context beside its registers. `cur` is the record of its most recent picture and `nextRec` the one firmware staged; `strip` is
its strip, or in frame mode its loft, and `hatch` the hatch (R78, R89); `shut` are the bands whose CUT came before their arrival window opened (R81), and `look` the
complexities measured at the loft (R116); `level` is the level it signals (R66, R67); `dons` the DON of its next picture's first NAL unit (R113); `ts` its transport stream; `began` says whether a latched
open began with ADMIT and with RC_MODEL at expert (R24). -/
structure StreamS where
  p        : Params := {}
  latched  : Option Params := none
  homesNew : Option Homes := none
  allocEnd : Option Nat := none
  kOpen    : Nat := 0
  nextPic  : Nat := 0
  lastPic  : Option Nat := none
  crates   : Nat := 0
  loft     : Nat := 0
  loftAt   : Nat := 0
  nref     : Nat := 1
  eff      : CrewSet := {}
  setAt    : Option Nat := none
  staged   : Option Nat := none
  cur      : Record := {}
  nextRec  : Record := {}
  stagedKeys : Nat × Nat × Bool := (0, 0, false)
  pics     : List Pic := []
  lastIrap : Nat := 0
  occ      : Nat := 0
  debt     : Nat := 0
  qpLast   : Option Nat := none
  keyWait  : List Nat := []
  sinceKey : Nat := 0
  jobC     : List JobC := []
  slotFree : List (Nat × Nat) := []
  cutDone  : List (Nat × Nat) := []
  enq      : List (Nat × Nat × Nat) := []
  lateDone : List (Nat × Nat) := []
  dlDone   : List (Nat × Nat) := []
  changes  : List FeedChange := []
  rates    : List RateP := []
  sei      : List SeiIns := []
  seiDef   : List (Nat × List Byte) := []
  fir      : List (Nat × Nat) := []
  ceilTil  : Option Nat := none
  slices   : List (Nat × Nat × Nat × Nat) := []
  outPic   : Nat := 0
  outRow   : Nat := 0
  merge    : List (Nat × MergeS) := []
  dec      : DecS := {}
  strip    : List StripB := []
  hatch    : List StripB := []
  shut     : List (Nat × Nat) := []
  look     : List JobC := []
  level    : Nat := 0
  dons     : Nat := 0
  ts       : TsS := {}
  began    : Bool × Bool := (false, false)
  deriving DecidableEq, Repr

/-! ## Crews, jobs and Sculls -/

/-- A row job (R70, R74): stream, picture, CTU row, tile or subpicture, whether it decodes, its CTUs, its deadline, and
whether it was aborted and put back (R158). -/
structure Job where
  stream : Nat
  pic    : Nat
  row    : Nat
  reg    : Nat
  dec    : Bool := false
  nCtu   : Nat := 1
  dl     : Inst := {}
  again  : Bool := false
  late   : Bool := false
  deriving DecidableEq, Repr

/-- What a Scull and RRC hold of the job that the Scull runs. `srch` is the CTU in the search stage (R94), `sent` the CTUs whose CTU_END the
Bow's queue has accepted (R268), `asked` the CTU whose lease request RRC has answered (R252), `finals` the final bands of each
reference at the job's start (R99), `wins` the search window of each reference, as slot, first and last CTU column and row
(R97), and `qpLo`, `qpHi` and `effs` what the picture's statistics take of it (R194). -/
structure RunS where
  job     : Job
  home    : Nat
  own     : Nat := 0
  eff     : Nat := 0
  x       : Nat := 0
  recon   : Nat := 0
  qpRow   : Nat := 32
  delta   : Int := 0
  bNum    : Int := 0
  bDen    : Nat := 1
  lw      : Nat := 0
  bits    : Nat := 0
  qpSum   : Nat := 0
  charged : Nat := 0
  leases  : List (Nat × Nat × Nat) := []
  qpX     : Nat := 32
  floors  : Nat := 0
  spent   : Nat := 0
  chFloor : Nat := 0
  told    : Nat := 0
  srch    : Nat := 0
  sent    : Nat := 0
  asked   : Option Nat := none
  finals  : List (Nat × Nat) := []
  back    : List Nat := []
  wins    : List (Nat × Nat × Nat × Nat × Nat × Nat) := []
  qpLo    : Nat := 63
  qpHi    : Nat := 0
  effs    : Nat × Nat × Nat := (0, 0, 0)
  deriving DecidableEq, Repr

/-- How far a job of a picture has come (R94, R144, R145): its CTUs reconstructed, whether it completed, and its CTUs filtered. What the
next row needs of it is kept with it, in the Attic's WPP and steal context area (R100): the CUs of the bottom line of each CTU
coded, and, in HEVC, the CABAC state stored after its second CTU. -/
structure Prog where
  stream : Nat
  pic    : Nat
  row    : Nat
  reg    : Nat
  recon  : Nat
  done   : Bool
  filt   : Nat := 0
  ctx    : List (Nat × List CuCode) := []
  cabac  : Option Nat := none
  deriving DecidableEq, Repr

/-- The part of a stream's frame context that firmware writes as tables and templates (R137): the tile or subpicture table, as first column,
columns, first row and rows in CTUs with the slice's address; the QP model snapshot (LA of P and of I pictures, the model); and the
parameter-set, picture-header and slice-header templates. -/
structure LdrCtx where
  table : List (Nat × Nat × Nat × Nat × Nat) := []
  model : Nat × Nat × Nat := (0, 0, 0)
  nals  : List Nal := []
  deriving DecidableEq, Repr

/-- A Crew beside its registers: its queue in order (R143), the jobs that wait outside it (R146), the vacant seats with the
spares chosen for them (R159), and the streams whose frame context in its Larder is poisoned,
with the granule of each (R527), the tables and templates of the streams whose context it holds, and whether ADMIT and UCODE were at the
expert level when its last enable began (R24). -/
structure CrewS where
  queue  : List Job := []
  wait   : List Job := []
  chosen : List (Nat × Nat) := []
  bad    : List (Nat × Nat) := []
  ctx    : List (Nat × LdrCtx) := []
  began  : Bool × Bool := (false, false)
  deriving DecidableEq, Repr

/-! ## The control ports, power and outside -/

/-- A response that a control port keeps for a retransmission (R291). -/
structure Resp where
  opc     : Nat := 0
  seq     : Nat := 0
  path    : ClxPath
  payload : List Byte := []
  deriving DecidableEq, Repr

/-- What a queue pair sends (R299-R303): an RDMA WRITE or READ of a remote virtual address under a remote key, an ACK, a NAK with its code, 0 a PSN
sequence error, 1 an invalid request, 2 a remote access error, a CNP, and every packet outstanding again. -/
inductive RoceOp where
  | write (va rkey : Nat) (data : List Byte)
  | read (va rkey len : Nat)
  | ack
  | nak (code : Nat)
  | cnp
  | again
  deriving DecidableEq, Repr

/-- The head of what a queue pair sends (R286, R299, R300): the peer's queue pair, MAC and IP address, the PSN of the first packet, the 802.1Q
priority, and whether it is marked ECT(0). -/
structure RoceHead where
  qpn  : Nat
  mac  : Nat
  ip   : Nat
  psn  : Nat
  prio : Option Nat
  ect  : Bool
  deriving DecidableEq, Repr

/-- A control port beside its registers: the stored response (R291), whether a PFC frame pauses its RoCEv2 traffic, and what waits for the pause to
end, each with its queue pair (R286). -/
structure CpS where
  resp   : Option Resp := none
  paused : Bool := false
  outq   : List (Nat × RoceHead × RoceOp) := []
  deriving DecidableEq, Repr

/-- A queue pair beside its registers (R299-R302): its next send and expected PSN, the retries made, the current and target rates in
kbit/s, the congestion estimate in units of 2^-16, the timer's rate increases since the last CNP, the cycle of the last CNP it sent, the cycles from which
its ACK timeout and its rate-increase timer run, the bytes sent since the byte counter last went off, and the increases it has made. -/
structure QpS where
  psnS   : Nat := 0
  psnE   : Nat := 0
  tries  : Nat := 0
  rate   : Nat := 25000000
  target : Nat := 25000000
  alpha  : Nat := 65536
  stage  : Nat := 0
  cnpAt  : Option Nat := none
  ackAt  : Nat := 0
  rateAt : Nat := 0
  sent   : Nat := 0
  bStage : Nat := 0
  deriving DecidableEq, Repr

/-- A source or destination entry of a Hoist job (R464, R465): its address or pattern, or the slot with 2^12 times the offset in its packed planes, its
length, how much of it is taken, and its flags. -/
structure HEnt where
  at_  : Nat := 0
  len  : Nat := 0
  used : Nat := 0
  fill : Bool := false
  slot : Bool := false
  opn  : Bool := false
  deriving DecidableEq, Repr

/-- A burst in flight (R474-R482): its source address (none for a pattern or a slot), whether a slot is its source, its destination, its bytes, the first poisoned
address it met, the cycle of its start, and whether an access of it has failed with its queue pair (R300). -/
structure HBurst where
  src    : Option Nat := none
  slot   : Bool := false
  dst    : Nat := 0
  data   : List Byte := []
  poison : Option Nat := none
  at_    : Nat := 0
  dead   : Bool := false
  deriving DecidableEq, Repr

/-- A Hoist channel beside its registers (R462-R483): the address of the entry to fetch next, whether LAST has been fetched, its
entries not used up, the totals fetched of each kind, the byte counts at which EVT asserts, its burst, a burst
whose address failed (address and length) and whose error return waits, and the command it serves with that command's own two entries while its record starts. -/
structure HchS where
  next  : Nat := 0
  last  : Bool := false
  srcs  : List HEnt := []
  dsts  : List HEnt := []
  nSrc  : Nat := 0
  nDst  : Nat := 0
  evts  : List Nat := []
  burst : Option HBurst := none
  err   : Option (Nat × Nat) := none
  cmd   : Bool := false
  todo  : Option (HEnt × HEnt) := none
  deriving DecidableEq, Repr

/-- A firmware push in progress (R297): the bank, the bytes received, and whether its LAST chunk awaits its check (R298). -/
structure PushS where
  bank  : Nat := 0
  bytes : List Byte := []
  last  : Option (Nat × Resp) := none
  deriving DecidableEq, Repr

/-- A sleep in hand (R356, R603-R607): the alarm in nanoseconds, whether a WAKE frame has arrived since acceptance, whether its
commit point has passed, the wake sources asserted since, whether a wake has started, and the domains, lanes and ports that
entry switched off. -/
structure SleepS where
  alarm  : Nat := 0
  wake   : Bool := false
  commit : Bool := false
  src    : Nat := 0
  waking : Bool := false
  doms   : List Nat := []
  lanes  : List Nat := []
  ports  : List Nat := []
  deriving DecidableEq, Repr

/-- A swap pending or running (R599-R601): the bank, the instant from which a Stroke may start it, whether it runs, and its
start. -/
structure SwapS where
  bank    : Nat := 0
  after   : Nat := 0
  gen     : Option Nat := none
  running : Bool := false
  start   : Nat := 0
  deriving DecidableEq, Repr

/-- Where the part stands among its resets (R593). -/
inductive ResetS where
  | run | poreset | warmPin | warmReq
  deriving DecidableEq, Repr

/-- A technology of Clause 73 (R371). -/
inductive LinkTech where
  | kr25 | krS25 | cr25 | crS25 | cr4 | kr4
  deriving DecidableEq, Repr

/-- What leaves the part: a Clexia response, a value returned to a requester of the management space, what a queue pair sends, a frame of a port, a
PTP frame with its bytes, a PMBus write, a PTP servo setting, an inverted PRBS bit, an IGMP report, the NAL units of a picture, of the stream or of a subscriber's, an entry of a PTP receive Bin that firmware reads, a frame that a far-end loopback
sends back, the pattern of a lane in RAW66, and what negotiation advertises. -/
inductive Out where
  | clexia (port : Nat) (path : ClxPath) (opc seq : Nat) (payload : List Byte) (tag : BitVec 128)
  | value (w : Who) (addr : Nat) (v : Word)
  | roce (q : Nat) (head : RoceHead) (op : RoceOp)
  | igmp (port group : Nat) (join : Bool) (net : NetHead)
  | arp (port : Nat) (ip : Nat) (mac : Nat) (toMac : Nat) (tag : Option (Nat × Nat))
  | pmbus (adr cmd data : Nat) (pec : Bool)
  | ptp (domain prio1 prio2 flags : Nat) (ports : Nat) (cps : Nat)
  | prbsInv (lane : Nat)
  | pattern (lane gen : Nat)
  | advert (lane : Nat) (techs : List LinkTech) (fecs : List Nat)
  | frame (port : Nat) (id : Nat) (net : NetHead) (rtp : Option Rtp) (ts : List TsPkt) (data : List Byte)
  | nals (stream pic : Nat) (sub : Option Nat) (l : List Nal)
  | ptpFrame (port : Nat) (bytes : List Byte)
  | binEntry (port : Nat) (bytes : List Byte)
  | echo (port : Nat) (bytes : List Byte)
  | loftWrite (stream pic : Nat)
  deriving DecidableEq, Repr

/-! ## Protected arrays and the Cellar -/

/-- A recorded injection (R541): its family, its address, its codeword in the granule, and its predicted syndrome. -/
structure InjRec where
  fam  : Nat
  addr : Nat
  cw   : Nat
  syn  : Nat
  deriving DecidableEq, Repr

/-- A request that waits in a pseudo-channel or on the Slide, with the instant it arrived in half nanoseconds and its place in the order of arrival
(R492, R494). -/
structure QReq where
  req : CelReq
  at_ : Nat
  no  : Nat
  deriving DecidableEq, Repr

/-- A pseudo-channel (R492-R498, R503): its queues, the requests held on the Slide, whether it drains writes, its open rows with
the instant of their last access, power-down, the instant from which it may issue, the instant from which it is idle, and how many
requests have entered. -/
structure PcS where
  reads  : List QReq := []
  writes : List QReq := []
  held   : List QReq := []
  drain  : Bool := false
  rows   : List (Nat × Nat) := []
  down   : Bool := false
  ready  : Nat := 0
  idle   : Nat := 0
  seq    : Nat := 0
  deriving DecidableEq, Repr

/-- A stack beside its registers (R499-R511): the next refresh instant and the end of the stall in half nanoseconds, the band
decided last, the next pseudo-channel of a recalibration round and when the last round began, the drift of each pseudo-channel since training, and the
repairs that wait for a stall as pseudo-channel and lane, or channel and lane of a CA repair. -/
structure StackS where
  refNext : Option Nat := none
  stall   : Nat := 0
  band    : Nat := 0
  recal   : Option Nat := none
  roundAt : Option Nat := none
  drift   : List (Nat × Int) := []
  repair  : List (Bool × Nat × Nat) := []
  thr     : Nat := 64
  mrs     : List (Nat × Nat × Nat) := []
  deriving DecidableEq, Repr

/-- The words that a Larder window has collected (R530). -/
structure LdrCol where
  base  : Nat
  words : List Word
  deriving DecidableEq, Repr

/-! ## Scull sequencers -/

/-- A Scull's sequencer (R254-R273): whether it runs a job or a test, its micro-PC, loop counters, address generators (pointer
and window), resume token, return stack, condition latch, the CTU index, the instant from which a word waits, the run of HOLDPRE
words, a preemption that has arrived, the cause of a trap that is raised, the syntax records pushed since the last CTU_END, RUN written
0 while a job runs, the image its control store was loaded with (0 none, 1 the
vendor's, 2 + i the i-th of `State.images`), the staging word of R276, the furthest stage of R93 that the CTU has reached, the cost of the
candidate last costed and of the best one, and whether the last COMPARE found the new cost lower (R107), the reads and writes
that are outstanding (R252), and the bytes of the syntax queue: those pushed since the last CTU_END, and those of each CTU that
the Bow has not coded (R101). -/
structure SeqS where
  on     : Bool := false
  test   : Bool := false
  upc    : Nat := 0
  lc0    : Nat := 0
  lc1    : Nat := 0
  lc2    : Nat := 0
  agu0   : Nat := 0
  agu1   : Nat := 0
  win0   : Nat := 0
  win1   : Nat := 0
  token  : Nat := 0
  stack  : List Nat := []
  cond   : BitVec 64 := 0#64
  x      : Nat := 0
  ctus   : Nat := 0
  wait   : Option Nat := none
  hold   : Nat := 0
  pre    : Option Preempt := none
  raised : Nat := 0
  recs   : Nat := 0
  runOff : Bool := false
  img    : Nat := 0
  stg    : BitVec 144 := 0#144
  stage  : Nat := 0
  costs  : List (Nat × Nat × Nat) := []
  best   : Option (Nat × Nat) := none
  less   : Bool := false
  rd     : Bool := false
  wr     : Bool := false
  recB   : Nat := 0
  bowq   : List Nat := []
  stuck  : Bool := false
  res    : Option Nat := none
  deriving DecidableEq, Repr

/-! ## Egress -/

/-- What a packet of decoded lines carries (R243, R416): its region, the picture's line, the first column in the region and the columns, and the tiles or
subpictures of the band that were late at its deadline (R241), with what the slot held of the lines where it was read then. -/
structure LineRef where
  reg  : Nat
  line : Nat
  off  : Nat
  cols : Nat
  late : List Nat := []
  kept : Option (List Byte) := none
  deriving DecidableEq, Repr

/-- A frame that waits on a media port (R439-R442): its queue's kind (0 flow, 1 service, 2 PTP, 3 RTCP), the queue's number (the
stream, or 4 x subscriber + service) and region, its wire bytes, its eligibility instant, the stream and picture it serves and
whether it is that picture's last, the number it shares with its copy on the other path, a PTP frame's bytes and flags, and of an RTP
packet its header and the TS packets that it carries, its destination as IP address and UDP port, and of a packet of decoded lines what they are. -/
structure Frame where
  kind   : Nat := 0
  key    : Nat := 0
  reg    : Nat := 0
  wire   : Nat := 84
  elig   : Inst := {}
  stream : Option Nat := none
  pic    : Nat := 0
  last   : Bool := false
  pair   : Nat := 0
  seen   : Bool := false
  bytes  : List Byte := []
  flags  : Nat := 0
  rtp    : Option Rtp := none
  tsp    : List TsPkt := []
  dst    : Nat × Nat := (0, 0)
  vid    : Option LineRef := none
  deriving DecidableEq, Repr

/-- A subscriber beside its registers (R346, R430-R437): its canvas, service, subpictures, destination, the signalled buffer of
R435 in kbit/s (0: the canvas's), its occupancy in units of 2^-16 bits, the cycle of acceptance, the DON of its next picture's first
NAL unit (R433), and its first and last pictures. -/
structure SubS where
  canvas : Nat
  svc    : Nat
  ids    : List Nat
  ip     : Nat
  udp    : Nat
  pt     : Nat
  ssrc   : Nat
  subbr  : Nat
  occ    : Nat := 0
  acc    : List (Nat × Nat) := []
  at_    : Nat := 0
  dons   : Nat := 0
  first  : Option Nat := none
  last   : Option Nat := none
  deriving DecidableEq, Repr

/-- A shaper (R444-R447): its credit in wire bytes with 16 fraction bits, and whether it is enabled in force. -/
structure ShaperS where
  credit : Nat := 0
  on     : Bool := false
  deriving DecidableEq, Repr

/-- The gates of a port beside its registers (R448-R452): the instant at which the entry in force ends, the instant of the
arming write, and the entries of the list in force. -/
structure GateS where
  ends  : Option Nat := none
  armAt : Nat := 0
  len   : Nat := 0
  deriving DecidableEq, Repr

/-! ## The contents of Rack slots (R199, R212) -/

/-- A reconstructed CTU in a slot: its column and row, its samples, luma then Cb then Cr, each plane line by line, the planes
whose last lines, eight of luma, are provisional (R98), and whether a part of it is concealed, whose edges no in-loop filter touches (R233). -/
structure SlotCtu where
  x       : Nat
  row     : Nat
  samples : List Nat := []
  prov    : List Nat := [0, 1, 2]
  conc    : Bool := false
  deriving DecidableEq, Repr

/-- The picture that a slot holds: its dimensions and format, and its reconstructed CTUs; where none stands its bytes are free values, numbered by
`seed`. -/
structure SlotC where
  w      : Nat := 0
  h      : Nat := 0
  chroma : Nat := 0
  bits10 : Bool := false
  ctus   : List SlotCtu := []
  seed   : Nat := 0
  deriving DecidableEq, Repr

/-! ## The state -/

/-- The state of the part. -/
structure State where
  /-- The commands that wait, first in, first out: the model's own field. -/
  pending : List Instr := []
  /-- Every management register; an unlisted one holds its reset value. -/
  regs    : Tab Word := []
  part    : Part := .fa
  rst     : ResetS := .run
  /-- Device time in units of 2^-48 ns (R30, R31), and device time at the cycle before, for the instants crossed since. -/
  now     : Nat := 0
  prev    : Nat := 0
  /-- The cycles of CK_TIME since the last reset: equal stamps come from equal cycles (R32). -/
  cyc     : Nat := 0
  /-- What has already fired in this cycle: the model's own field. -/
  fired   : List Nat := []
  /-- The W1C bits that a hardware event has set in this cycle (R10), as address and bit: the model's own field. -/
  hot     : List (Nat × Nat) := []
  /-- The slots whose last mark has cleared in this cycle, and the pictures that found no slot in it (R207, R208): the model's own. -/
  freed   : List Nat := []
  waitDue : List (Nat × Nat) := []
  /-- The accesses to a stream made in this cycle whose order the spec fixes (R181, R187), as class, stream and Scull: the model's own. -/
  turns   : List (Nat × Nat × Nat) := []
  /-- The 40-bit RATE in effect (R31, R38). -/
  rate    : BitVec 40 := 0
  ppsNs   : Nat := 0
  ppsHigh : Option Nat := none
  relock  : Option Nat := none
  gens    : Tab GenS := []
  /-- The number of free values drawn: the model's own field. DESIGN CHOICE (log 5): its reset value is 0. -/
  freeCtr : Nat := 0
  -- the Tally
  held    : List Msg := []
  heldWait : List Msg := []
  tsrc    : Tab TSrc := []
  twin    : Tab TWin := []
  -- the Event Controller
  gath    : Tab Gath := []
  claimed : Tab Gath := []
  tgtDef  : Tab (Option Nat) := []
  holdOff : Tab (Option Nat) := []
  pins    : Tab PinS := []
  looked  : List Nat := []
  preempt : Tab (Option Preempt) := []
  -- rings and commands
  rings   : Tab RingS := []
  fetched : List Fetched := []
  /-- A stream has reached OFF since admission was last run again (R161): the model's own field. -/
  lifted  : Bool := false
  owed    : List Owed := []
  turn    : Nat := 0
  outbox  : List Out := []
  -- streams
  streams : Tab StreamS := []
  feeds   : Tab FeedS := []
  -- Crews and Sculls
  crews   : Tab CrewS := []
  runs    : Tab (Option RunS) := []
  ended   : Tab (List RunS) := []
  seqs    : Tab SeqS := []
  therm   : Nat := 0
  progs   : List Prog := []
  /-- The search cache of each Four (R97): its luma lines as slot, CTU column and CTU row, most recently used first. -/
  scache  : Tab (List (Nat × Nat × Nat)) := []
  -- the Rack
  slotPic : Tab (Option Nat) := []
  slotSz  : Tab Nat := []
  slotNref : Tab Nat := []
  slotC   : Tab SlotC := []
  retPend : List Nat := []
  -- egress
  egr     : Tab (List Frame) := []
  txFree  : Tab Nat := []
  frameNo : Nat := 0
  /-- The next RTP sequence number of each output flow that has sent (R418): a stream's region at 128 x the stream, a subscriber's from 2^16. -/
  rtpSeq  : Tab (Option Nat) := []
  subs    : Tab (Option SubS) := []
  shapers : Tab ShaperS := []
  gates   : Tab GateS := []
  /-- The PTP receive Bins (R426) and the timestamp Bins (R428: identifier, seconds, nanoseconds, fraction), oldest first. -/
  ptpRx   : Tab (List (List Byte)) := []
  tsb     : Tab (List (Nat × Nat × Nat × Nat)) := []
  ptpServo : PtpServo := {}
  -- protected arrays and the Cellar
  mem     : Tab (Option (List (Nat × Nat))) := []
  injRecs : List InjRec := []
  /-- The families whose every granule firmware has filled (R531, R595). -/
  filled  : List Nat := []
  /-- The microcode images that UCODE_LOAD has brought (R355). -/
  images  : List (List Byte) := []
  chkLeft : Nat := 0
  badRows : List (Nat × Nat) := []
  lost    : List Nat := []
  celCe   : Tab Nat := []
  celDly  : Tab (Nat × Nat) := []
  celVref : Tab Nat := []
  pcs     : Tab PcS := []
  stackTab : Tab StackS := []
  ldrCol  : Tab (Option LdrCol) := []
  -- lanes: in training, in a ONCE adaptation, with equalisation a FUNC_SET set, the cycle of the last restart of a lock window
  training : List Nat := []
  adapting : List Nat := []
  laneSet : List Nat := []
  blFrom  : Tab (Option Nat) := []
  -- queue pairs and Hoists
  qps     : Tab QpS := []
  hchs    : Tab HchS := []
  hgrant  : Tab Nat := []
  ptpPos  : Tab Nat := []
  -- the control ports, power, firmware
  cps     : Tab CpS := []
  push    : Option PushS := none
  bank0   : List Byte := []
  bank1   : List Byte := []
  sleep   : Option SleepS := none
  swap    : Option SwapS := none
  -- a reset asked for (R296), the filtered WAKE_N pin, the rail excursions (R610) and a PMBus request to send again (R612)
  resetReq : Option Nat := none
  wakeN   : Bool := false
  rails   : Tab Nat := []
  railF   : List Nat := []
  avsAgain : Bool := false
  -- the exponent of VOUT_MODE that the regulator answered, as its five bits (R612)
  voutExp : Nat := 0
  straps  : BitVec 4 := 0
  deriving DecidableEq, Repr

/-- The part right after reset. DESIGN CHOICE (log entry 45): no strap pin has been sampled yet, and `straps` stands at 0 until PORESET_N_RELEASE samples
them; so the strap bits of DEV_STRAP and HOST_STAT read 0 before. -/
def State.reset : State := {}

end Sys2Proof.Machine
end

