-- ==== Sys2Proof/Machine/Tab.lean ====
section
/-!
DEFINITION. The operations of a sparse table (`Tab`): a lookup with the value an unlisted key reads as, and a write that
keeps the one canonical form, so that equal contents are equal data. The default may depend on the key (a register's reset
value does).
-/
namespace Sys2Proof.Machine

/-- What key `k` holds; an unlisted key holds `d`. -/
def tabGet {α : Type} (d : α) (t : Tab α) (k : Nat) : α :=
  match t with
  | [] => d
  | (i, v) :: r => if i = k then v else tabGet d r k

/-- `t` without any entry for `k`. -/
def tabDel {α : Type} (t : Tab α) (k : Nat) : Tab α :=
  t.filter (fun e => e.1 != k)

/-- `t` with `(k, v)` put in before the first larger key. -/
def tabIns {α : Type} (t : Tab α) (k : Nat) (v : α) : Tab α :=
  match t with
  | [] => [(k, v)]
  | (i, w) :: r => if k < i then (k, v) :: (i, w) :: r else (i, w) :: tabIns r k v

/-- Key `k` set to `v`; a value equal to the default `d` removes the entry, which keeps the canonical form. -/
def tabSet {α : Type} [DecidableEq α] (d : α) (t : Tab α) (k : Nat) (v : α) : Tab α :=
  if v = d then tabDel t k else tabIns (tabDel t k) k v

/-- The contents of key `k` changed by `f`. -/
def tabUpd {α : Type} [DecidableEq α] (d : α) (t : Tab α) (k : Nat) (f : α → α) : Tab α :=
  tabSet d t k (f (tabGet d t k))

/-- Every entry changed by `f`, which the key may enter; entries that come to equal their default (`d` of the key) go. -/
def tabMap {α : Type} [DecidableEq α] (d : Nat → α) (f : Nat → α → α) (t : Tab α) : Tab α :=
  t.foldl (fun r e => tabSet (d e.1) r e.1 (f e.1 e.2)) []

/-- The keys of `t` rise strictly from `lo` on. -/
def tabRising {α : Type} : Nat → Tab α → Bool
  | _, [] => true
  | lo, (i, _) :: r => decide (lo ≤ i) && tabRising (i + 1) r

/-- The canonical form: keys strictly rising, and no entry equal to the default of its key. -/
def tabWf {α : Type} [DecidableEq α] (d : Nat → α) (t : Tab α) : Bool :=
  tabRising 0 t && t.all (fun e => decide (e.2 ≠ d e.1))

/-- Replace element `i` of a list (unchanged where there is none). -/
def listSet {α : Type} (l : List α) (i : Nat) (v : α) : List α := l.set i v

/-- Remove the first element that satisfies `p`. -/
def removeFirst {α : Type} (p : α → Bool) : List α → List α
  | [] => []
  | x :: r => if p x then r else x :: removeFirst p r

/-- Insert `x` before the first element that `x` strictly precedes in the order `lt`: elements that tie keep their order. -/
def insertBy {α : Type} (lt : α → α → Bool) (x : α) : List α → List α
  | [] => [x]
  | y :: r => if lt x y then x :: y :: r else y :: insertBy lt x r

end Sys2Proof.Machine
end

