-- ==== Sys2Proof/Machine/Ops.lean ====
section
/-!
DEFINITION. The named operations over the register file, over device time and over the sparse tables of the state. Every
read and write of a management register goes through `State.reg`, `State.get`, `State.set` and `State.setReg`.
-/
namespace Sys2Proof.Machine

/-! ## Words and fields -/

/-- Bits `[lo+w-1:lo]` of a word, as a number. -/
def wordGet (v : Word) (lo w : Nat) : Nat := v.toNat / 2 ^ lo % 2 ^ w

/-- A word with bits `[lo+w-1:lo]` replaced by the low `w` bits of `x`. -/
def wordSet (v : Word) (lo w x : Nat) : Word :=
  BitVec.ofNat 32 (v.toNat / 2 ^ (lo + w) * 2 ^ (lo + w) + x % 2 ^ w * 2 ^ lo + v.toNat % 2 ^ lo)

/-- Bit `i` of a number. -/
def natBit (n i : Nat) : Bool := n / 2 ^ i % 2 == 1

/-- 1 for true, 0 for false. -/
def b2n (b : Bool) : Nat := if b then 1 else 0

/-- The least multiple of `b` at or above `a`, divided by `b`: the ceiling of `a / b`. -/
def ceilDiv (a b : Nat) : Nat := (a + b - 1) / b

/-- A `w`-bit two's complement value as an integer. -/
def signed (w n : Nat) : Int := if n % 2 ^ w < 2 ^ (w - 1) then (n % 2 ^ w : Int) else (n % 2 ^ w : Int) - 2 ^ w

/-- An integer as a `w`-bit two's complement value. -/
def unsigned (w : Nat) (i : Int) : Nat := (i % (2 ^ w : Int)).toNat

/-! ## The register file -/

/-- The contents of the register at address `a` (R617). -/
def State.reg (s : State) (a : Nat) : Word := tabGet (regReset a) s.regs a

/-- The register at address `a` set to `v`. -/
def State.setReg (s : State) (a : Nat) (v : Word) : State :=
  { s with regs := tabSet (regReset a) s.regs a v }

/-- One field of a register. -/
def State.get (s : State) (f : RF) : Nat := wordGet (s.reg f.addr) f.lo f.w

/-- One field of a register set to the low bits of `x`. -/
def State.set (s : State) (f : RF) (x : Nat) : State :=
  s.setReg f.addr (wordSet (s.reg f.addr) f.lo f.w x)

/-- A hardware event sets a W1C bit, which a clearing write of the same cycle leaves set (R10). -/
def State.raise (s : State) (f : RF) : State := { s.set f 1 with hot := (f.addr, f.lo) :: s.hot }

/-- What a write of `d` to the register at `a` clears: no bit that an event has set in this cycle (R10). -/
def State.cool (s : State) (a : Nat) (d : Word) : Word :=
  s.hot.foldl (fun d e => if e.1 = a then wordSet d e.2 1 0 else d) d

/-- A flag of a register. -/
def State.flag (s : State) (f : RF) : Bool := s.get f == 1

/-- A field counted up by `n`, saturating at its largest value. -/
def State.addSat (s : State) (f : RF) (n : Nat) : State :=
  s.set f (min (s.get f + n) (2 ^ f.w - 1))

/-- A saturating counter counted up by one (R92, R163, R196, R324, R397, R429, R455, R545, R584). -/
def State.bump (s : State) (f : RF) : State := s.addSat f 1

/-- A modular counter counted up by one (R60, R317). -/
def State.incMod (s : State) (f : RF) : State := s.set f (s.get f + 1)

/-- Every listed register between two addresses returns to its reset value (R588, R593): entries for which `keep` holds
stay. -/
def State.dropRegs (s : State) (drop : Nat → Bool) : State :=
  { s with regs := s.regs.filter (fun e => !drop e.1) }

/-! ## Free values -/

/-- A value the spec leaves open, `w` bits wide, and the state with the draw counted. -/
def State.draw (s : State) (w : Nat) : Nat × State :=
  ((Config.freeValue w s.freeCtr).toNat, { s with freeCtr := s.freeCtr + 1 })

/-! ## Device time (R30-R32) -/

/-- Units of device time in one nanosecond: 48 fraction bits (R31). -/
def unitsPerNs : Nat := 2 ^ 48

/-- Units of device time in one second. -/
def unitsPerSec : Nat := 10 ^ 9 * 2 ^ 48

/-- The range of device time: 2^64 seconds. -/
def timeWrap : Nat := 2 ^ 64 * unitsPerSec

/-- Device time in whole nanoseconds since the PTP epoch. -/
def State.ns (s : State) : Nat := s.now / unitsPerNs

/-- The seconds of device time. -/
def State.sec (s : State) : Nat := s.now / unitsPerSec

/-- The nanoseconds field of device time. -/
def State.subNs (s : State) : Nat := s.now / unitsPerNs % 10 ^ 9

/-- TIME_NOW_FRAC: the upper 32 of the 48 fraction bits (R31). -/
def State.frac (s : State) : Nat := s.now % unitsPerNs / 2 ^ 16

/-- Device time is at or past an exact instant (R44, R55). -/
def State.reached (s : State) (i : Inst) : Bool := decide (i.num * unitsPerNs ≤ s.now * i.den)

/-- An instant is before another, compared exactly. -/
def Inst.lt (a b : Inst) : Bool := decide (a.num * b.den < b.num * a.den)

/-- Two instants are equal, compared exactly. -/
def Inst.same (a b : Inst) : Bool := decide (a.num * b.den = b.num * a.den)

/-- A whole number of nanoseconds after an instant. -/
def Inst.addNs (a : Inst) (ns : Nat) : Inst := ⟨a.num + ns * a.den, a.den⟩

/-- The instant `floor`-ed to whole nanoseconds. -/
def Inst.ns (a : Inst) : Nat := a.num / a.den

/-- Device time as an instant of whole units. -/
def nowInst (u : Nat) : Inst := ⟨u, unitsPerNs⟩

/-- A periodic instant of `period` nanoseconds lies in the cycle that ended at `now` (R49, R571): the count of whole
periods has changed since the cycle before, and device time did not go back. -/
def State.crossed (s : State) (period : Nat) : Bool :=
  decide (period ≠ 0) && decide (s.prev < s.now) && decide (s.prev / (period * unitsPerNs) ≠ s.now / (period * unitsPerNs))

/-- An action named `key` has not fired in this cycle, and is recorded as fired. -/
def State.once (s : State) (key : Nat) (f : State → State) : State :=
  if key ∈ s.fired then s else f { s with fired := key :: s.fired }

/-- What one CK_TIME cycle adds: 2 ns times (1 + RATE * 2^-48) (R31). -/
def State.cycleStep (s : State) : Nat := (2 * (2 ^ 48 + s.rate.toInt)).toNat

/-- One CK_TIME cycle passes. -/
def State.tick (s : State) : State :=
  { s with prev := s.now, now := (s.now + s.cycleStep) % timeWrap, cyc := s.cyc + 1, fired := [], hot := [], freed := [], turns := [] }

/-! ## Sparse tables of the state -/

def State.gen (s : State) (g : Nat) : GenS := tabGet {} s.gens g
def State.setGen (s : State) (g : Nat) (v : GenS) : State := { s with gens := tabSet {} s.gens g v }
def State.strm (s : State) (n : Nat) : StreamS := tabGet {} s.streams n
def State.setStrm (s : State) (n : Nat) (v : StreamS) : State := { s with streams := tabSet {} s.streams n v }
def State.updStrm (s : State) (n : Nat) (f : StreamS → StreamS) : State := s.setStrm n (f (s.strm n))
def State.feed (s : State) (f : Nat) : FeedS := tabGet {} s.feeds f
def State.setFeed (s : State) (f : Nat) (v : FeedS) : State := { s with feeds := tabSet {} s.feeds f v }
def State.crew (s : State) (c : Nat) : CrewS := tabGet {} s.crews c
def State.setCrew (s : State) (c : Nat) (v : CrewS) : State := { s with crews := tabSet {} s.crews c v }
def State.run (s : State) (u : Nat) : Option RunS := tabGet none s.runs u
def State.setRun (s : State) (u : Nat) (v : Option RunS) : State := { s with runs := tabSet none s.runs u v }
def State.ring (s : State) (i : Nat) : RingS := tabGet {} s.rings i
def State.setRing (s : State) (i : Nat) (v : RingS) : State := { s with rings := tabSet {} s.rings i v }
def State.tallySrc (s : State) (i : Nat) : TSrc := tabGet {} s.tsrc i
def State.setTallySrc (s : State) (i : Nat) (v : TSrc) : State := { s with tsrc := tabSet {} s.tsrc i v }
def State.cp (s : State) (p : Nat) : CpS := tabGet {} s.cps p
def State.setCp (s : State) (p : Nat) (v : CpS) : State := { s with cps := tabSet {} s.cps p v }
def State.slotPicOf (s : State) (i : Nat) : Option Nat := tabGet none s.slotPic i
def State.setSlotPic (s : State) (i : Nat) (v : Option Nat) : State := { s with slotPic := tabSet none s.slotPic i v }

/-- Something leaves the part. -/
def State.emit (s : State) (o : Out) : State := { s with outbox := s.outbox ++ [o] }

/-! ## Little-endian and big-endian bytes (R6) -/

/-- A number of `n` bytes, least significant byte first. -/
def leBytes (n v : Nat) : List Byte :=
  match n with
  | 0 => []
  | k + 1 => BitVec.ofNat 8 v :: leBytes k (v / 256)

/-- A number of `n` bytes, most significant byte first. -/
def beBytes (n v : Nat) : List Byte := (leBytes n v).reverse

/-- The number that bytes spell, least significant byte first. -/
def leNat : List Byte → Nat
  | [] => 0
  | b :: r => b.toNat + 256 * leNat r

/-- The number that bytes spell, most significant byte first. -/
def beNat (l : List Byte) : Nat := leNat l.reverse

/-- `n` bytes of a list from an offset. -/
def slice (l : List Byte) (off n : Nat) : List Byte := (l.drop off).take n

end Sys2Proof.Machine
end

