-- ==== Sys2Proof/Machine/Flags.lean ====
section
/-!
DEFINITION. Every line and flag that the part computes from other state: the Event Controller's source bits (R569, R573), the
Tally level lines, ALERT_N, FAULT_N and REPLACE_N (R559, R565), the sending of a Tally message into its holding register
(R551), and the report of an ignored or refused register write (R618, R620).
-/
namespace Sys2Proof.Machine

/-! ## Event sources -/

/-- The PEND bit of a source: set while it is PENDING or ACTIVE_PENDING (R584). -/
def pendRF (n : Nat) : RF := ⟨A.EVC_PENDi (n / 32), n % 32, 1⟩

/-- The ACT bit of a source: set while it is ACTIVE or ACTIVE_PENDING (R584). -/
def actRF (n : Nat) : RF := ⟨A.EVC_ACTi (n / 32), n % 32, 1⟩

/-- A source that the table of R569 lists. -/
def evcListed (n : Nat) : Bool :=
  decide (n ≤ 12) || (decide (16 ≤ n) && decide (n ≤ 40)) || (decide (44 ≤ n) && decide (n ≤ 47)) ||
  (decide (64 ≤ n) && decide (n ≤ 321)) || (decide (384 ≤ n) && decide (n ≤ 639))

/-- A level source (R569): a Tally line, or an EVT_IN pin in MODE 0 or 1. -/
def State.evcLevel (s : State) (n : Nat) : Bool :=
  decide (n ≤ 3) || (decide (44 ≤ n) && decide (n ≤ 47)) ||
  (decide (16 ≤ n) && decide (n ≤ 31) && decide (s.get (R.EVC_INCFGi_MODE (n - 16)) ≤ 1))

/-- An edge source asserts: IDLE goes to PENDING, ACTIVE to ACTIVE_PENDING, and anything else merges (R573). -/
def State.evcAssert (s : State) (n : Nat) : State := s.raise (pendRF n)

/-- A level source's line takes a level: its PEND bit is the line in every state (R573). -/
def State.evcLine (s : State) (n : Nat) (on : Bool) : State := s.set (pendRF n) (b2n on)

/-- The bit of a per-stream event in a gathered set (R361). -/
inductive StreamEv where
  | rowLate | feedLost | demoted | floorEntry | rackWait | rackShort
  deriving DecidableEq, Repr

def StreamEv.bit : StreamEv → Nat
  | .rowLate => 0 | .feedLost => 1 | .demoted => 2 | .floorEntry => 3 | .rackWait => 4 | .rackShort => 5

/-- A per-stream event (R572): its bit is gathered, the picture index is recorded where the set was empty, and the stream's
source asserts. -/
def State.streamEvent (s : State) (n : Nat) (e : StreamEv) (pic : Nat) : State :=
  let g := tabGet {} s.gath n
  let g' : Gath := { ev := if natBit g.ev e.bit then g.ev else g.ev + 2 ^ e.bit, pic := if g.ev = 0 then pic else g.pic }
  ({ s with gath := tabSet {} s.gath n g' } : State).evcAssert (64 + n)

/-! ## Tally lines and pins -/

/-- The unacknowledged level of class `c` (R557), 0 where nothing is unacknowledged. -/
def State.unackLvl (s : State) (c : Nat) : Nat :=
  if natBit (s.get R.TALLY_UNACK_UNACK) c then s.get R.TALLY_UNACK_LVL_LVL / 2 ^ (3 * c) % 8 else 0

/-- The highest unacknowledged level of any class. -/
def State.maxUnack (s : State) : Nat :=
  (List.range 9).foldl (fun m c => max m (s.unackLvl c)) 0

/-- Any source is severe (R559): some TALLY_SEVi bit is set. -/
def State.anySevere (s : State) : Bool :=
  s.regs.any (fun e => decide (0x50300 ≤ e.1) && decide (e.1 < 0x50500) && decide (e.2 ≠ 0))

/-- The Tally level line `l` (R559). -/
def State.tallyLine (s : State) (l : Nat) : Bool :=
  decide (l ≤ s.maxUnack) || (decide (l = 4) && s.flag R.TALLY_STAT_FATAL)

/-- The Tally's lines, ALERT_N and REPLACE_N follow what the Tally holds (R559, R565). -/
def State.tallyLines (s : State) : State :=
  let s := s.set R.TALLY_STAT_ALERT (b2n (s.anySevere || decide (3 ≤ s.maxUnack)))
  let s := s.set R.TALLY_STAT_REPLACE (b2n (decide (s.get R.TALLY_REPL_CAUSE ≠ 0)))
  (List.range 4).foldl (fun s i => (s.evcLine i (s.tallyLine (4 - i))).evcLine (44 + i) (s.tallyLine (4 - i))) s

/-! ## Tally messages -/

/-- The home class of a source (R547); none for a reserved ID, which never sends. -/
def homeClass (i : Nat) : Option Nat :=
  if i ≤ 0x8F then some 1 else if i < 0x90 then none else
  if i ≤ 0xB3 then some 4 else if i < 0xB8 then none else
  if i ≤ 0xDB then some 0 else if i < 0xE0 then none else
  if i ≤ 0xE3 then some 4 else if i < 0xE8 then none else
  if i ≤ 0xEF then some 0 else if i < 0x100 then none else
  if i ≤ 0x13F then some 0 else if i = 0x140 ∨ i = 0x141 then some 0 else if i < 0x180 then none else
  if i ≤ 0x1BF then some 2 else if i < 0x200 then none else
  if i ≤ 0x241 then some 2 else if i < 0x280 then none else
  if i ≤ 0x283 then some 3 else if i < 0x300 then none else
  if i ≤ 0x3FF then some 3 else if i ≤ 0x47F then some 2 else if i = 0x480 then some 4 else
  if 0x4C0 ≤ i ∧ i ≤ 0x4C3 then some 4 else if 0x500 ≤ i ∧ i ≤ 0x531 then some 3 else
  if i = 0x580 then some 5 else if i = 0x581 then some 4 else if i = 0x582 then some 0 else
  if i = 0x590 then some 4 else if 0x5C0 ≤ i ∧ i ≤ 0x5FF then some 2 else
  if 0x600 ≤ i ∧ i ≤ 0x67F then some 3 else if 0x700 ≤ i ∧ i ≤ 0x72F then some 6 else
  if 0x740 ≤ i ∧ i ≤ 0x74B then some 7 else if 0x780 ≤ i ∧ i ≤ 0x7A3 then some 7 else
  if i = 0x7E0 then some 8 else if i = 0x7FF then some 4 else none

/-- The base level of a kind (R549): 0 Corrected, 1 Minor, 2 Major, 3 Severe, 4 Fatal. -/
def baseLevel (kind : Nat) : Nat :=
  if kind ∈ [0x00, 0x02, 0x03, 0x10, 0x27, 0x33, 0x41] then 0 else
  if kind ∈ [0x07, 0x09, 0x0B, 0x11, 0x24, 0x30, 0x31, 0x47, 0x49, 0x61, 0x73, 0x84] then 2 else
  if kind ∈ [0x08, 0x4B] then 3 else
  if kind ∈ [0x0A, 0x62, 0x71] then 4 else 1

/-- Message `a` is taken before message `b` (R552). -/
def Msg.before (a b : Msg) : Bool :=
  decide (a.cyc < b.cyc) || (decide (a.cyc = b.cyc) && decide (a.src < b.src))

/-- A message reaches its source's holding register (R551): it is held, merged into the message held there, or waits in the
sender behind a held DOUBLE_WITH_INJ. -/
def State.holdMsg (s : State) (m : Msg) : State :=
  match s.held.find? (fun h => h.src == m.src) with
  | none => { s with held := insertBy Msg.before m s.held }
  | some h =>
    if h.kind % 16 = 15 ∧ m.inj then { s with heldWait := s.heldWait ++ [m] } else
    let cfg := m.kind / 16 = 8
    let h' := { h with lvl := max h.lvl m.lvl,
                       merged := h.merged + (if cfg ∨ m.inj then 0 else 1) + m.merged,
                       mergedInj := h.mergedInj + (if ¬cfg ∧ m.inj then 1 else 0) + m.mergedInj }
    ({ s with held := s.held.map (fun (x : Msg) => if x.src = m.src then h' else x) } : State).bump R.TALLY_MERGED_COUNT

/-- A unit sends a message (R546): the time is the low 40 bits of the stamp in nanoseconds. -/
def State.send (s : State) (src kind : Nat) (addr : Nat := 0) (detail : Nat := 0) (inj : Bool := false)
    (lvl : Option Nat := none) : State :=
  if homeClass src = none then s else
  s.holdMsg { src := src, kind := kind, lvl := lvl.getD (baseLevel kind), inj := inj, addr := addr % 2 ^ 48,
              ns := s.ns % 2 ^ 40, detail := detail % 2 ^ 12, cyc := s.cyc }

/-- The report of an ignored or refused register write (R618, R620, R549): class CFG, kind CFG_IGNORED, source 0x7E0, with
the register's address. -/
def State.cfgReport (s : State) (a : Nat) : State := s.send 0x7E0 0x80 a

/-- Replacement causes set (R565): bits that were clear set, REPLACE_N is asserted, and the Tally sends itself a REPLACE
message with the newly set bits. -/
def State.replace (s : State) (bits : Nat) : State :=
  let old := s.get R.TALLY_REPL_CAUSE
  let new := (List.range 5).foldl (fun n i => if natBit bits i && !natBit old i then n + 2 ^ i else n) 0
  if new = 0 then s else
  ((s.set R.TALLY_REPL_CAUSE (old + new)).set R.TALLY_STAT_REPLACE 1).send 0x7FF 0x4B 0 new

/-- A change of device time by a step or an initialisation ends every counting window at the change; the windows that
contain the new time begin (R555). `TWin` of a class that has none listed is the reset window of that class. -/
def twinDflt (c : Nat) : TWin :=
  { len := 3600, stop := 3600, nsev := ([256, 4, 1024, 16, 16, 4, 4, 4][c]?).getD 0 }

def State.window (s : State) (c : Nat) : TWin := tabGet (twinDflt c) s.twin c
def State.setWindow (s : State) (c : Nat) (v : TWin) : State := { s with twin := tabSet (twinDflt c) s.twin c v }

end Sys2Proof.Machine
end

