-- ==== Sys2Proof/Machine/Arrays.lean ====
section
/-!
DEFINITION. The protected arrays (R519-R531, R540, R541): the Keel codes, granules as they are stored, writes with their check
bits, stored poison and the armed flip, and the classification of a read.
-/
namespace Sys2Proof.Machine

/-! ## The Keel code (R519-R521) -/

/-- The check bits of a codeword of family `f`. -/
def keelW (f : Nat) : Nat := if f = 0 then 8 else 9

/-- The data bits of a codeword of family `f`. -/
def keelD (f : Nat) : Nat := if f = 0 then 64 else if f = 4 then 144 else 128

/-- The codewords of a write granule of family `f`. -/
def keelN (f : Nat) : Nat := if f = 0 then 4 else 1

/-- The addresses that a granule spans: bytes, or one word of a control store. -/
def granSpan (f : Nat) : Nat := if f = 0 then 32 else if f = 4 then 1 else 16

/-- The set bits of a number below 2^16. -/
def bitCount (n : Nat) : Nat := (List.range 16).foldl (fun k i => k + n / 2 ^ i % 2) 0

/-- The data columns of a code of `w` check bits (R520): weight 3 in ascending order, then weight 5. -/
def keelCols (w n : Nat) : List Nat :=
  ((List.range (2 ^ w)).filter (fun v => bitCount v == 3) ++ (List.range (2 ^ w)).filter (fun v => bitCount v == 5)).take n

/-- The XOR of the `w`-bit fields of a number, from bit 0 (R519). -/
def foldFields (w : Nat) : Nat → Nat → Nat
  | 0, _ => 0
  | k + 1, v => Nat.xor (v % 2 ^ w) (foldFields w k (v / 2 ^ w))

/-- The address tag of codeword `c` of the granule at `a` (R519). -/
def keelTag (f a c : Nat) : Nat :=
  if f = 0 then foldFields 7 7 ((a + 8 * c) / 8 % 2 ^ 45)
  else if f = 3 then foldFields 8 3 (a / 16 % 2 ^ 17)
  else if f = 4 then foldFields 8 2 (a % 2 ^ 12)
  else foldFields 8 6 (a / 16 % 2 ^ 44)

/-- The XOR of the columns of the set bits of `v`. -/
def colXor : List Nat → Nat → Nat
  | [], _ => 0
  | c :: r, v => if v % 2 = 1 then Nat.xor c (colXor r (v / 2)) else colXor r (v / 2)

/-- The columns of the tag bits: 0x3 << j (R520). -/
def tagCols : List Nat := (List.range 8).map (fun j => 3 * 2 ^ j)

/-- The check bits of a codeword (R521). -/
def keelCheck (f a c d : Nat) : Nat :=
  Nat.xor (colXor (keelCols (keelW f) (keelD f)) d) (colXor tagCols (keelTag f a c))

/-- The poison mask of a family (R519). -/
def poisonMask (f : Nat) : Nat := if f = 0 then 0x7F else 0x1FF

/-- What a syndrome says (R522). -/
inductive Synd where
  | clean | checkBit | dataBit (i : Nat) | poison | bad
  deriving DecidableEq, Repr

/-- The reading of a syndrome of family `f`. -/
def syndOf (f v : Nat) : Synd :=
  if v = 0 then .clean else if bitCount v = 1 then .checkBit else if v = poisonMask f then .poison else
  match (keelCols (keelW f) (keelD f)).idxOf? v with
  | some i => .dataBit i
  | none => .bad

/-- A codeword's data as delivered: the one wrong bit corrected. -/
def Synd.fix (y : Synd) (d : Nat) : Nat :=
  match y with
  | .dataBit i => Nat.xor d (2 ^ i)
  | _ => d

/-- The codeword cannot be delivered without a poison mark (R523). -/
def Synd.lost : Synd → Bool
  | .poison => true
  | .bad => true
  | _ => false

/-- The codeword was corrected. -/
def Synd.fixed : Synd → Bool
  | .checkBit => true
  | .dataBit _ => true
  | _ => false

/-! ## Storage -/

/-- The key of the granule of family `f` at `a`. -/
def famKey (f a : Nat) : Nat := f * 2 ^ 56 + a

/-- The data of codeword `i` of a granule that nothing has written since its power-up or its load: a control store holds the
image it was loaded with (R276, R279), everything else what no one knows (R531, R532). -/
def State.freshData (s : State) (f a i : Nat) : Nat :=
  match if f = 4 then (tabGet {} s.seqs (a / 2 ^ 12)).img else 0 with
  | 0 => Config.powerUp (2 * (4 * famKey f a + i)) % 2 ^ keelD f
  | 1 => (Config.vendorWord (a % 2 ^ 12)).toNat
  | k + 2 => leNat (slice ((s.images[k]?).getD []) (18 * (a % 2 ^ 12)) 18)

/-- Such a granule holds codewords with their check bits: a control store that is loaded (R249), a search cache, which hardware
writes in full at power-up (R532), and a family that firmware has filled (R531, R595). -/
def State.fresh (s : State) (f a : Nat) : Bool :=
  if f = 4 then decide ((tabGet {} s.seqs (a / 2 ^ 12)).img ≠ 0) else decide (f = 3) || decide (f ∈ s.filled)

/-- The granule of family `f` at `a` as stored: data and check bits of each codeword. -/
def State.gran (s : State) (f a : Nat) : List (Nat × Nat) :=
  match tabGet none s.mem (famKey f a) with
  | some g => g
  | none => (List.range (keelN f)).map (fun i =>
      let d := s.freshData f a i
      (d, if s.fresh f a then keelCheck f a i d else Config.powerUp (2 * (4 * famKey f a + i) + 1) % 2 ^ keelW f))

/-- The syndrome of codeword `c` of the granule (R522). -/
def syndrome (f a c : Nat) (w : Nat × Nat) : Nat := Nat.xor w.2 (keelCheck f a c w.1)

/-- The records that a family holds (R541) show in RECS. -/
def State.showRecs (s : State) (f : Nat) : State :=
  s.set (R.ECC_FLIPf_CTL_RECS f) (s.injRecs.filter (fun r => r.fam == f)).length

/-- The data flip mask of a family. -/
def State.flipData (s : State) (f : Nat) : Nat :=
  (List.range 5).foldl (fun n i => n + s.get (R.ECC_FLIPf_DATAi_MASK f i) * 2 ^ (32 * i)) 0 % 2 ^ keelD f

/-- The armed flip takes a write of the granule at `a` (R540). -/
def State.flipTakes (s : State) (f a : Nat) : Bool :=
  s.flag (R.ECC_FLIPf_CTL_ARM f) && (!s.flag (R.ECC_FLIPf_CTL_MATCH f) ||
    decide ((s.get (R.ECC_FLIPf_ADDR_L_ADDR f) + s.get (R.ECC_FLIPf_ADDR_H_ADDR f) * 2 ^ 32) / granSpan f = a / granSpan f))

/-- The flip is spent: the masks and ARM clear (R540). -/
def State.flipSpent (s : State) (f : Nat) : State :=
  let s := (List.range 5).foldl (fun s i => s.set (R.ECC_FLIPf_DATAi_MASK f i) 0) s
  (s.set (R.ECC_FLIPf_CHECK_MASK f) 0).set (R.ECC_FLIPf_CTL_ARM f) 0

/-- A whole granule is written: fresh check bits, the poison mask where `poison`, records of its codewords removed, and the
armed flip applied unless the write is a write-back (R528, R529, R540, R541). -/
def State.granWrite (s : State) (f a : Nat) (ds : List Nat) (poison back : Bool) : State :=
  let g := (ds.zip (List.range ds.length)).map (fun e =>
    (e.1, if poison then Nat.xor (keelCheck f a e.2 e.1) (poisonMask f) else keelCheck f a e.2 e.1))
  let s := ({ s with injRecs := s.injRecs.filter (fun r => !(r.fam == f && r.addr == a)) } : State).showRecs f
  if ¬ back ∧ s.flipTakes f a then
    let c := if f = 0 then s.get (R.ECC_FLIPf_CTL_CW f) else 0
    let dm := s.flipData f
    let cm := s.get (R.ECC_FLIPf_CHECK_MASK f) % 2 ^ keelW f
    let w := (g[c]?).getD (0, 0)
    let g := g.set c (Nat.xor w.1 dm, Nat.xor w.2 cm)
    let syn := Nat.xor (colXor (keelCols (keelW f) (keelD f)) dm) cm
    let s : State := { s with mem := tabSet none s.mem (famKey f a) (some g),
                              injRecs := s.injRecs ++ [{ fam := f, addr := a, cw := c, syn := syn }] }
    (s.flipSpent f).showRecs f
  else { s with mem := tabSet none s.mem (famKey f a) (some g) }

/-- The bytes of a granule's codewords, least significant byte first. -/
def granBytes (f : Nat) (ds : List Nat) : List Byte := ds.flatMap (fun d => leBytes (keelD f / 8) d)

/-- The codewords' data that a granule's bytes spell. -/
def granData (f : Nat) (bs : List Byte) : List Nat :=
  (List.range (keelN f)).map (fun i => leNat (slice bs (i * (keelD f / 8)) (keelD f / 8)))

/-! ## Addresses -/

/-- The stack, the pseudo-channel and the offset in it of a Cellar address (R489). -/
def State.celPlace (s : State) (a : Nat) : Nat × Nat × Nat :=
  if s.part = .ha then (0, a / 2 ^ 8 % 8 + a / 2 ^ 11 % 4 * 8, a / 2 ^ 13 % 2 ^ 23 * 256 + a % 256)
  else (a / 2 ^ 11 % 2, a / 2 ^ 8 % 8 + a / 2 ^ 12 % 4 * 8, a / 2 ^ 14 % 2 ^ 23 * 256 + a % 256)

/-- The device address of the Attic (R471), and its size. -/
def atticBase : Nat := 0x2000000000
def atticSize : Nat := 192 * 2 ^ 20

/-- The source of a family's report (R547): the Cellar's pseudo-channel, the Attic's bank of 24 MiB, the Crew of the Larder,
the Four of the search cache, the Scull of the control store. -/
def State.arrSource (s : State) (f a : Nat) : Nat :=
  if f = 0 then 0x100 + 32 * (s.celPlace a).1 + (s.celPlace a).2.1
  else if f = 1 then 0xE8 + (a - atticBase) / (24 * 2 ^ 20) % 8
  else if f = 2 then 0xE0 + a / 2 ^ 20 % 4
  else if f = 3 then 0xB8 + a / 2 ^ 21 % 36
  else a / 2 ^ 12 % 144

end Sys2Proof.Machine
end

