-- ==== Sys2Proof/Machine/Records.lean ====
section
/-!
DEFINITION. The rings that the device writes (R305-R311, R357-R366), completions, unit state records under the re-enable
rule (R316, R317, R590-R592), and the beginning of a ring command (R318, R319, R328-R333).
-/
namespace Sys2Proof.Machine

/-! ## Status codes (R358) -/

namespace St
abbrev ok : Nat := 0
abbrev rsvdNonzero : Nat := 1
abbrev noUnit : Nat := 2
abbrev staleEpoch : Nat := 3
abbrev levelExpert : Nat := 4
abbrev paramRead : Nat := 5
abbrev busy : Nat := 6
abbrev canvasLimit : Nat := 7
abbrev strokeOff : Nat := 8
abbrev formatUnsupported : Nat := 9
abbrev geometry : Nat := 10
abbrev feedConflict : Nat := 11
abbrev atticFull : Nat := 12
abbrev cellarFull : Nat := 13
abbrev rackFull : Nat := 14
abbrev noSeats : Nat := 15
abbrev wrongType : Nat := 16
abbrev notOn : Nat := 17
abbrev keyDisabled : Nat := 18
abbrev shelfFull : Nat := 19
abbrev picGone : Nat := 20
abbrev notHeld : Nat := 21
abbrev stepSpent : Nat := 22
abbrev streamsLive : Nat := 23
abbrev badValue : Nat := 24
abbrev addrDenied : Nat := 25
abbrev busErr : Nat := 26
abbrev dataPoison : Nat := 27
abbrev fwSig : Nat := 28
abbrev badLen : Nat := 29
abbrev sleepAborted : Nat := 30
abbrev superseded : Nat := 31
end St

/-! ## Rings that the device writes -/

/-- The entries a ring holds: 2^LOG2SIZE (R305). -/
def State.ringSize (s : State) (i : Nat) : Nat := 2 ^ s.get (R.RINGi_CTL_LOG2SIZE i)

/-- The unconsumed entries of a ring: (PI - CI) mod 2^24 (R306). -/
def State.ringFill (s : State) (i : Nat) : Nat :=
  (s.get (R.RINGi_PI_INDEX i) + 2 ^ 24 - s.get (R.RINGi_CI_INDEX i)) % 2 ^ 24

/-- A ring is enabled and not stopped (R307, R311). -/
def State.ringLive (s : State) (i : Nat) : Bool := s.flag (R.RINGi_CTL_EN i) && !s.flag (R.RINGi_CTL_STALL i)

/-- A ring is enabled, not stopped, and has room for one more entry (R310). -/
def State.ringRoom (s : State) (i : Nat) : Bool := s.ringLive i && decide (s.ringFill i < s.ringSize i)

/-- The bytes of an entry (R6, R14, R357, R359-R365): little-endian, reserved bytes zero. -/
def RingEntry.bytes : RingEntry → List Byte
  | .compl tag status opc ring epoch data =>
    leBytes 4 tag ++ leBytes 2 status ++ leBytes 1 opc ++ leBytes 1 ring ++ leBytes 4 epoch ++ leBytes 4 data
  | .tally seq sec ns body => leBytes 4 1 ++ leBytes 4 seq ++ leBytes 4 sec ++ leBytes 4 ns ++ leBytes 16 body
  | .claim seq sec ns source unit event pic _ =>
    leBytes 4 2 ++ leBytes 4 seq ++ leBytes 4 sec ++ leBytes 4 ns ++ leBytes 2 source ++ leBytes 2 unit ++ leBytes 2 event ++ leBytes 2 0 ++
    leBytes 8 pic
  | .ptpMeta seq sec ns num den offs lock flags =>
    leBytes 4 3 ++ leBytes 4 seq ++ leBytes 4 sec ++ leBytes 4 ns ++ leBytes 4 num ++ leBytes 4 den ++ leBytes 4 offs ++ leBytes 1 lock ++
    leBytes 1 flags ++ leBytes 2 0
  | .stat body => leBytes 64 body

/-- An entry is written into a ring: PI advances, and the entry's RDMA WRITE is outstanding (R306, R308). -/
def State.ringPut (s : State) (i : Nat) (e : RingEntry) : State :=
  let s := s.incMod (R.RINGi_PI_INDEX i)
  let r := s.ring i
  s.setRing i { r with unack := r.unack ++ [e], since := if r.unack = [] then s.cyc else r.since }

/-- A record of an event ring that is not a claim: written, or lost and counted in HOST_EVLOST; SEQ counts it while the ring
is enabled (R310, R363). -/
def State.eventRecord (s : State) (i : Nat) (mk : Nat → RingEntry) : State :=
  if ¬ s.flag (R.RINGi_CTL_EN i) then s.bump R.HOST_EVLOST_COUNT else
  let r := s.ring i
  let s1 := s.setRing i { r with seq := (r.seq + 1) % 2 ^ 32 }
  if s.ringRoom i then s1.ringPut i (mk r.seq) else s1.bump R.HOST_EVLOST_COUNT

/-- A statistics record: written, or lost and counted in HOST_STLOST (R310, R366). -/
def State.statRecord (s : State) (i : Nat) (body : Nat) : State :=
  if s.ringRoom i then s.ringPut i (.stat body) else s.bump R.HOST_STLOST_COUNT

/-- The ring of a forwarded Tally message is 0x40 + FWD_Q; its record carries the message with its delivered level in the bit
positions of R360. -/
def Msg.body (m : Msg) (lvl : Nat) : Nat :=
  m.src + m.kind * 2 ^ 12 + lvl * 2 ^ 20 + b2n m.inj * 2 ^ 23 + m.kind / 16 * 2 ^ 24 + m.addr * 2 ^ 28 + m.ns * 2 ^ 76 +
  m.detail * 2 ^ 116

/-! ## Unit state records -/

/-- Where a unit's record is held: its STATE and PEND fields, and its EPOCH where it has one. -/
structure URec where
  state : RF
  pend  : RF
  epoch : Option RF
  deriving DecidableEq, Repr

/-- The units with a record: the KINDs of R329, then Hoist channels (6, index 64h + c), power domains (7) and the two
directions of a lane's doze (8 transmit, 9 receive). -/
def urec (kind i : Nat) : URec :=
  match kind with
  | 1 => ⟨R.STRMn_STATE_STATE i, R.STRMn_STATE_PEND i, some (R.STRMn_EPOCH_EPOCH i)⟩
  | 2 => ⟨R.EGR_SUBs_STATE_STATE i, R.EGR_SUBs_STATE_PEND i, some (R.EGR_SUBs_EPOCH_EPOCH i)⟩
  | 3 => ⟨R.PORTp_STATE_STATE i, R.PORTp_STATE_PEND i, some (R.PORTp_EPOCH_EPOCH i)⟩
  | 4 => ⟨R.LANEl_STATE_STATE i, R.LANEl_STATE_PEND i, some (R.LANEl_EPOCH_EPOCH i)⟩
  | 5 => ⟨R.CREWc_STATE_STATE i, R.CREWc_STATE_PEND i, some (R.CREWc_EPOCH_EPOCH i)⟩
  | 6 => ⟨R.HOISTh_CHc_STATE_STATE (i / 64) (i % 64), R.HOISTh_CHc_STATE_PEND (i / 64) (i % 64),
          some (R.HOISTh_CHc_EPOCH_EPOCH (i / 64) (i % 64))⟩
  | 7 => ⟨R.CLKPWR_PDn_STATE i, R.CLKPWR_PDn_PEND i, none⟩
  | 8 => ⟨R.LANEl_DOZE_TX_PWR i, R.LANEl_DOZE_TX_PEND i, none⟩
  | _ => ⟨R.LANEl_DOZE_RX_PWR i, R.LANEl_DOZE_RX_PEND i, none⟩

/-- The epoch of a unit, 0 for the device and for a unit without one (R317, R330). -/
def State.unitEpoch (s : State) (kind i : Nat) : Nat :=
  if kind = 0 then 0 else
  match (urec kind i).epoch with
  | some f => s.get f
  | none => 0

/-- A begun command completes (R331, R357): its entry goes into its completion ring, or is lost where that ring is not
enabled or is stopped (R310, R311). DATA is 0 for every status but OK, BUS_ERR and DATA_POISON. -/
def State.complete (s : State) (o : Owed) (status : Nat) (data : Nat := 0) : State :=
  let i := 0x20 + o.cq
  if s.ringLive i then
    s.ringPut i (.compl o.tag status o.opc o.ring (s.unitEpoch o.kind o.idx)
      (if status = St.ok ∨ status = St.busErr ∨ status = St.dataPoison then data % 2 ^ 32 else 0))
  else s

/-- Commands complete with `status`, in the order of the list. -/
def State.completeAll (s : State) (l : List Owed) (status : Nat) (data : Nat := 0) : State :=
  l.foldl (fun s o => s.complete o status data) s

/-- Every command that waits for `w` completes with `status`, in the order in which it began. -/
def State.settle (s : State) (w : Await) (status : Nat) (data : Nat := 0) : State :=
  ({ s with owed := s.owed.filter (fun o => o.wait != w) } : State).completeAll (s.owed.filter (fun o => o.wait == w)) status data

/-- A begun command waits. -/
def State.await (s : State) (o : Owed) (w : Await) : State := { s with owed := s.owed ++ [{ o with wait := w }] }

/-- The commands latched on a unit now wait for its record to reach a state. -/
def State.promote (s : State) (kind i : Nat) (w : Await) : State :=
  { s with owed := s.owed.map (fun o => if o.wait = .latched kind i then { o with wait := w } else o) }

/-- EPOCH increments by 1 modulo 2^32 (R317). -/
def State.bumpEpoch (s : State) (u : URec) : State :=
  match u.epoch with
  | some f => s.incMod f
  | none => s

/-- What a request does to a record (R590). -/
inductive ReqRes where
  | already    -- the unit is in the state asked for
  | moving     -- the unit is moving towards it
  | began      -- the unit begins to move
  | cancelled  -- the request removes a pending request
  | latched    -- the request is held as pending
  deriving DecidableEq, Repr

/-- What a request finds, from STATE and PEND (R590). -/
def reqRes (state pend : Nat) (enable : Bool) : ReqRes :=
  match state, enable with
  | 0, true => .began
  | 0, false => .already
  | 1, true => if pend = 2 then .cancelled else .moving
  | 1, false => .latched
  | 2, true => .already
  | 2, false => .began
  | _, true => .latched
  | _, false => if pend = 1 then .cancelled else .moving

/-- An enable or disable request on a unit's record, by a command or by a management write (R590, R592, R317): STATE, PEND
and EPOCH change as the table gives, and a command whose pending request is replaced or removed completes SUPERSEDED. -/
def State.request (s : State) (kind i : Nat) (enable : Bool) : State × ReqRes :=
  let u := urec kind i
  let r := reqRes (s.get u.state) (s.get u.pend) enable
  match r with
  | .already => (s, r)
  | .moving => (s, r)
  | .began => ((s.set u.state (if enable then 1 else 3)).bumpEpoch u, r)
  | .cancelled => (((s.set u.pend 0).bumpEpoch u).settle (.latched kind i) St.superseded, r)
  | .latched => (((s.set u.pend (if enable then 1 else 2)).bumpEpoch u).settle (.latched kind i) St.superseded, r)

/-- A request by a command: the command completes at once, when the unit reaches the state, or stays latched (R590). -/
def State.requestCmd (s : State) (o : Owed) (kind i : Nat) (enable : Bool) (data : Nat := 0) : State :=
  let (s, r) := s.request kind i enable
  let w : Await := if enable then .unitOn kind i else .unitOff kind i
  match r with
  | .already => s.complete o St.ok data
  | .latched => s.await o (.latched kind i)
  | _ => s.await o w

/-- A STARTING unit reaches ON: the enables complete with OK, and a pending disable takes it to STOPPING in the same cycle
(R591). Any other STATE is left. -/
def State.reachOn (s : State) (kind i : Nat) (data : Nat := 0) : State :=
  let u := urec kind i
  if s.get u.state = 1 then
    let s := (s.set u.state 2).settle (.unitOn kind i) St.ok data
    if s.get u.pend = 2 then ((s.set u.state 3).set u.pend 0).promote kind i (.unitOff kind i) else s
  else s

/-- A STOPPING unit reaches OFF: the disables complete with OK. A pending enable takes it to STARTING in the same cycle where
`check` passes; where it gives a status, the unit stays OFF and the latched commands complete with it (R591). -/
def State.reachOff (s : State) (kind i : Nat) (check : Option Nat := none) (data : Nat := 0) : State :=
  let u := urec kind i
  if s.get u.state = 3 then
    let s := (s.set u.state 0).settle (.unitOff kind i) St.ok data
    if s.get u.pend = 1 then
      let s := s.set u.pend 0
      match check with
      | none => (s.set u.state 1).promote kind i (.unitOn kind i)
      | some st => s.settle (.latched kind i) st
    else s
  else s

/-- A management write of a record's REQ field (R386, R392, R398, R461): 1 enables, 2 disables, 0 has no effect. -/
def State.requestWrite (s : State) (kind i req : Nat) : State :=
  if req = 1 then (s.request kind i true).1 else if req = 2 then (s.request kind i false).1 else s

/-! ## Commands -/

/-- `w` bits of a descriptor from bit `lo` of byte `off` (R328). -/
def dget (d : Desc) (off lo w : Nat) : Nat := d.toNat / 2 ^ (8 * off + lo) % 2 ^ w

/-- The header fields of a descriptor (R328). -/
def dOpc (d : Desc) : Nat := dget d 0 0 8
def dSub (d : Desc) : Nat := dget d 1 0 8
def dIdx (d : Desc) : Nat := dget d 2 0 12
def dKind (d : Desc) : Nat := dget d 2 12 4
def dEpoch (d : Desc) : Nat := dget d 4 0 32
def dTag (d : Desc) : Nat := dget d 8 0 32

/-- The bits that a list of (byte, bit, width) fields covers. -/
def dMask (fs : List (Nat × Nat × Nat)) : Nat :=
  fs.foldl (fun m f => m ||| ((2 ^ f.2.2 - 1) * 2 ^ (8 * f.1 + f.2.1))) 0

/-- Every bit of the descriptor outside its header and the given body fields is zero (R14, R328). SUBOP is covered only where
the opcode defines variants, EPOCH only where the command names a unit with a record (R330). -/
def dClean (d : Desc) (fs : List (Nat × Nat × Nat)) (sub : Bool := false) : Bool :=
  let m := dMask (fs ++ [(0, 0, 8), (2, 0, 16), (8, 0, 32)] ++ (if sub then [(1, 0, 8)] else []) ++
    (if dKind d = 0 then [] else [(4, 0, 32)]))
  decide (d.toNat &&& m = d.toNat)

/-- The opcodes of R333. -/
def opcListed (o : Nat) : Bool :=
  o ∈ [0x01, 0x02, 0x03, 0x04, 0x05, 0x06, 0x07, 0x08, 0x09, 0x10, 0x11, 0x12, 0x20, 0x21, 0x30, 0x31, 0x32, 0x40, 0x41,
    0x50, 0x60, 0x70]

/-- A unit of that KIND and INDEX exists on the part (R4, R329). -/
def State.unitExists (s : State) (kind i : Nat) : Bool :=
  match kind with
  | 0 => decide (i = 0)
  | 1 => decide (i < 128)
  | 2 => decide (i < 4096)
  | 3 => decide (i < 64)
  | 4 => decide (i < 66)
  | 5 => decide (i < (if s.part = .ha then 2 else 4))
  | _ => false

/-- Cox firmware fetches commands: it runs, and neither a sleep nor a swap has stopped it (R600, R603, R604). -/
def State.fetching (s : State) : Bool :=
  decide (s.get R.DEV_HEALTH_DSTATE = 2) && s.sleep.isNone && !s.swap.any (fun w => w.running)

/-- The entries that a completion ring has room for, counted over every command fetched or asked for and not completed. -/
def State.complRoom (s : State) (cq : Nat) : Nat :=
  let i := 0x20 + cq
  if ¬ s.ringLive i then 0 else
  s.ringSize i - (s.ringFill i + (s.fetched.filter (fun f => f.cq == cq)).length + (s.owed.filter (fun o => o.cq == cq)).length +
    s.rings.foldl (fun n e => if s.get (R.RINGi_CTL_CQ e.1) = cq then n + e.2.asked else n) 0)

/-- The ring whose fetched command begins next (R309): of the highest PRIO, rings of equal PRIO in turn. -/
def State.nextRing (s : State) : Option Nat :=
  let prio := fun (f : Fetched) => s.get (R.RINGi_CTL_PRIO f.ring)
  let top := s.fetched.foldl (fun m f => max m (prio f)) 0
  let l := (s.fetched.filter (fun f => decide (prio f = top))).map (fun f => f.ring)
  (List.range 32).findSome? (fun k => if (s.turn + 1 + k) % 32 ∈ l then some ((s.turn + 1 + k) % 32) else none)

/-- A fetched command begins in its turn: it is the first fetched of the ring whose turn it is (R309). -/
def State.inOrder (s : State) (c : Cmd) : Bool :=
  decide (s.nextRing = some c.ring.val) && (s.fetched.find? (fun f => f.ring == c.ring.val)).any (fun f => f.desc == c.desc)

/-- A command may begin (R309, R311). One that is not among those fetched stands for one fetched in this cycle (log 14): its ring and its completion
ring are enabled and not stopped, the completion ring has room, and it has its turn among those fetched. -/
def State.mayBegin (s : State) (c : Cmd) : Bool :=
  if s.fetched.any (fun f => f.ring == c.ring.val && f.desc == c.desc) then s.inOrder c else
  let cq := s.get (R.RINGi_CTL_CQ c.ring.val)
  s.fetching && s.ringLive c.ring.val && decide (0 < s.complRoom cq) &&
    ({ s with fetched := s.fetched ++ [{ ring := c.ring.val, cq := cq, desc := c.desc }] } : State).inOrder c

/-- A command is taken from its ring's fetched commands, where it stands there, and its ring has had its turn (R309). -/
def State.takeFetched (s : State) (c : Cmd) : State :=
  { s with fetched := removeFirst (fun f => f.ring == c.ring.val && f.desc == c.desc) s.fetched, turn := c.ring.val }

/-- What a begun command carries to its completion. The completion ring is the one its ring names (R309). -/
def State.owedOf (s : State) (c : Cmd) : Owed :=
  { wait := .ucode, ring := c.ring.val, cq := s.get (R.RINGi_CTL_CQ c.ring.val), opc := dOpc c.desc, tag := dTag c.desc,
    kind := dKind c.desc, idx := dIdx c.desc }

/-- A ring command begins (R318, R319). `opc` is the row's opcode and `this` says whether SUBOP and FUNC spell the row:
a descriptor of another listed opcode is not this command and changes nothing; an unlisted opcode is a reserved encoding. A command
whose turn has not come (R309) changes nothing.
The checks come in the order of R318: `clean` (check 1), the unit (2; `ex` says that what the body names exists on the part,
R4), the epoch (3), the function's level `fn` (4). -/
def State.begin (s : State) (c : Cmd) (opc : Nat) (this clean : Bool) (kinds : List Nat) (fn : Option Nat)
    (k : State → Owed → State) (ex : Bool := true) : State :=
  let d := c.desc
  if dOpc d ≠ opc ∧ opcListed (dOpc d) then s else
  if dOpc d = opc ∧ ¬ this then s else
  if ¬ s.mayBegin c then s else
  let o := s.owedOf c
  let s := s.takeFetched c
  if dOpc d ≠ opc ∨ ¬ clean ∨ dKind d ∉ kinds then s.complete o St.rsvdNonzero else
  if ¬ s.unitExists (dKind d) (dIdx d) ∨ ¬ ex then s.complete o St.noUnit else
  if dKind d ≠ 0 ∧ dEpoch d ≠ s.unitEpoch (dKind d) (dIdx d) then s.complete o St.staleEpoch else
  match fn with
  | some b => if s.get ⟨A.DEV_HAND, b, 1⟩ = 1 then s.complete o St.levelExpert else k s o
  | none => k s o

/-- The PARAM codes that the functions of FUNC_SET list (R354, R377, R454, R517, R544, R567). -/
def funcListed (func code : Nat) : Bool :=
  match func with
  | 2 => decide (1 ≤ code ∧ code ≤ 3)
  | 3 => decide (1 ≤ code ∧ code ≤ 2)
  | 6 => decide (1 ≤ code ∧ code ≤ 4)
  | 7 => decide (1 ≤ code ∧ code ≤ 3)
  | 10 => decide (1 ≤ code ∧ code ≤ 2)
  | _ => false

/-- The PARAM and VALUE of a FUNC_SET. -/
def dUnit8 (d : Desc) : Nat := dget d 19 0 8
def dValue (d : Desc) : Nat := dget d 24 0 64

/-- A FUNC_SET of one function and code begins (R354). `high` says which PARAM[15:8] are no reserved encoding. A descriptor of
another listed code is not this command; an unlisted one is a reserved encoding. -/
def State.beginFunc (s : State) (c : Cmd) (func code : Nat) (high : Nat → Bool) (k : State → Owed → State)
    (ex : Bool := true) : State :=
  let f := dget c.desc 16 0 8
  let p := dget c.desc 18 0 8
  s.begin c 0x50 (decide (f = func ∧ p = code) || !funcListed f p)
    (dSub c.desc = 0 ∧ f = func ∧ p = code ∧ high (dUnit8 c.desc) ∧ dClean c.desc [(16, 0, 8), (18, 0, 16), (24, 0, 64)]) [0]
    (some func) k ex

end Sys2Proof.Machine
end

