-- ==== Sys2Proof/Machine/Gate.lean ====
section
/-!
DEFINITION. The gate that every management write passes (R3, R4, R15, R22, R28, R588, R618, R620, R628): the register exists,
its power domain is on, the requester owns it, and no field carries a reserved encoding. A write that fails is ignored and
reported; a write that passes acts by the register's own behaviour, or field by field (R8, R10).
-/
namespace Sys2Proof.Machine

/-- The DEV_HAND bit of a function is at the expert level (R21). -/
def State.expert (s : State) (b : Nat) : Bool := s.flag ⟨A.DEV_HAND, b, 1⟩

/-- The host makes the access (R622). -/
def isHost : Who → Bool
  | .host _ => true
  | _ => false

/-- The block is absent on the part: CREW2, CREW3, FOUR18-FOUR35 and CELLAR_B of OB3200-HA (R3). -/
def State.absent (s : State) (a : Nat) : Bool :=
  decide (s.part = .ha) &&
  ((decide (0x120000 ≤ a) && decide (a < 0x140000)) || (decide (0x248000 ≤ a) && decide (a < 0x290000)) ||
   (decide (0xB0000 ≤ a) && decide (a < 0xC0000)))

/-- A register that its chapter defines to read as zero and to ignore writes, because what it would serve does not exist
(R618): EVC_TGTn of a reserved source (R569), a reserved ring ID (R305, R327), LANEl_QMODE outside lanes 4q (R397). -/
def reservedReg (a : Nat) : Bool :=
  if 0x41000 ≤ a ∧ a < 0x42000 then !evcListed ((a - 0x41000) / 4)
  else if 0x64000 ≤ a ∧ a < 0x66000 then
    let i := (a - 0x64000) / 0x20
    !(decide (i < 0x44) || (decide (0x50 ≤ i) && decide (i < 0x60)))
  else if 0x400000 ≤ a ∧ a < 0x410800 ∧ (a - 0x400000) % 0x400 = 0x00C then
    !decide ((a - 0x400000) / 0x400 % 4 = 0 ∧ (a - 0x400000) / 0x400 < 64)
  else false

/-- The switched domain that holds a block's registers (R615, R616); none where they are in PD_MAIN or PD_AON. -/
def holdDomain (a : Nat) : Option Nat :=
  if 0x60000 ≤ a ∧ a < 0x70000 then some 66 else
  if 0x80000 ≤ a ∧ a < 0x90000 then some (67 + (a - 0x80000) / 0x4000) else
  if 0x200000 ≤ a ∧ a < 0x290000 then some ((a - 0x200000) / 0x4000) else
  if 0x700000 ≤ a ∧ a < 0x712000 then some 71 else none

/-- The domain that holds the register is ON, or is never switched (R588). -/
def State.domainOn (s : State) (a : Nat) : Bool :=
  match holdDomain a with
  | none => true
  | some n => s.get (R.CLKPWR_PDn_STATE n) == 2

/-- The requester owns the register (R620, R628), by the owner column of the index, with the instance-dependent owners of
EVC_HOLDg and EVC_TGTn (R583) and of the Hoists (R460). -/
def State.owns (s : State) (w : Who) (a : Nat) : Bool :=
  if 0x41000 ≤ a ∧ a < 0x42000 then
    let n := (a - 0x41000) / 4
    (decide ((32 ≤ n ∧ n ≤ 47) ∨ (384 ≤ n ∧ n ≤ 575))) == !(isHost w)
  else if 0x40200 ≤ a ∧ a < 0x40300 then
    let g := (a - 0x40200) / 4
    (decide (g = 2 ∨ (24 ≤ g ∧ g ≤ 35))) == !(isHost w)
  else match regInfo a with
    | none => false
    | some (t, _) =>
      match t.owner with
      | .host => isHost w
      | .fw => !(isHost w)
      | .hand b => isHost w == s.expert b
      | .hoist => isHost w == (decide (0x8C000 ≤ a) && s.expert 8)
      | .none => false

/-- No field of a template meets a reserved encoding in `d` (R15): RO fields and reserved bits are ignored (R13, R620). -/
def fieldsLegal (t : RegT) (d : Word) : Bool :=
  t.fields.all (fun f => f.kind == .ro || (decide (f.minV ≤ wordGet d f.lo f.w) && decide (wordGet d f.lo f.w ≤ f.maxV)))

/-- The transmit taps that R374 allows. -/
def tapsLegal (pre main post : Nat) : Bool :=
  decide (pre ≤ 8) && decide (post ≤ 12) && decide (8 ≤ main) && decide (main ≤ 32) && decide (pre + main + post ≤ 32) &&
  decide (pre + post + 8 ≤ main)

/-- The reserved encodings that a range of one field does not say: EVC_TGTn (R574, R583), the rail limits (R614), the
injected checkers' units (R545), the codeword of a flip (R545), and the lane fields of R369, R374 and R395, and a Hoist's request lines (R473). -/
def encExtra (a : Nat) (d : Word) : Bool :=
  if 0x41000 ≤ a ∧ a < 0x42000 then
    let n := (a - 0x41000) / 4
    let v := wordGet d 0 4
    decide (v ≤ 8) && (decide ((32 ≤ n ∧ n ≤ 47) ∨ (384 ≤ n ∧ n ≤ 575)) || decide (4 ≤ v))
  else if 0x20204 ≤ a ∧ a < 0x20264 ∧ a % 8 = 4 then decide (wordGet d 0 8 < wordGet d 8 8)
  else if a = A.CHK_INJ_SEL then
    let u := wordGet d 8 8
    match wordGet d 0 2 with
    | 0 => decide (u ≤ 143)
    | 1 => decide (u ≤ 63)
    | _ => decide (u ≤ 49)
  else if 0x80000 ≤ a ∧ a < 0x90000 ∧ 0x1000 ≤ (a - 0x80000) % 0x4000 ∧ (a - 0x80000) % 0x4000 < 0x2000 ∧ a % 0x40 = 0x08 then
    let v := wordGet d 0 9
    decide (v = 0) || (decide (0x80 ≤ v) && decide (v ≤ 0x123)) || (decide (0x140 ≤ v) && decide (v ≤ 0x17F))
  else if 0xC0100 ≤ a ∧ a < 0xC0240 ∧ (a - 0xC0100) % 0x40 = 0x18 then
    decide (a = A.ECC_FLIPf_CTL 0) || decide (wordGet d 2 2 = 0)
  else if 0x400000 ≤ a ∧ a < 0x410800 ∧ (a - 0x400000) % 0x400 = 0x008 then
    decide (wordGet d 0 3 ≤ 4)
  else if 0x400000 ≤ a ∧ a < 0x410800 ∧ (a - 0x400000) % 0x400 = 0x020 then tapsLegal (wordGet d 0 4) (wordGet d 8 6) (wordGet d 16 5)
  else if 0x400000 ≤ a ∧ a < 0x410800 ∧ (a - 0x400000) % 0x400 = 0x040 then
    decide (wordGet d 0 3 ≤ 6) && decide (wordGet d 4 3 ≤ 5)
  else true

/-- The write carries no reserved encoding (R15). -/
def encLegal (a : Nat) (d : Word) : Bool :=
  match regInfo a with
  | none => false
  | some (t, _) => fieldsLegal t d && encExtra a d

/-- The Tally source of a unit that OB3200-HA lacks (R547): its Sculls, Bows, caches, Crews and Cellar, the Slide links to them, numbered as the
link units of CHK_INJ_SEL, and the thermal sensors and process monitors that sit in them (R608). -/
def haLacksSource (i : Nat) : Bool :=
  decide (72 ≤ i ∧ i ≤ 0x8F) || decide (0xA2 ≤ i ∧ i ≤ 0xB3) || decide (0xCA ≤ i ∧ i ≤ 0xDB) || decide (i = 0xE2 ∨ i = 0xE3) ||
  decide (0x120 ≤ i ∧ i ≤ 0x13F) || decide (i = 0x141) || decide (0x512 ≤ i ∧ i ≤ 0x523) || decide (i = 0x529) ||
  decide (0x712 ≤ i ∧ i ≤ 0x723) || decide (i = 0x72D) || decide (0x792 ≤ i ∧ i ≤ 0x7A3)

/-- The write names a Crew, Four, Scull or stack that the part lacks (R4): in EVC_PREEMPT, CHK_INJ_SEL, a Hoist's REQSEL and STRMn_SCHED, the
homes of CNVv_HOMEw, the flip addresses of families 2 to 4 (R540) and the source of TALLY_SRC_SEL. -/
def State.namesAbsent (s : State) (a : Nat) (d : Word) : Bool :=
  decide (s.part = .ha) &&
  (if a = A.EVC_PREEMPT then decide (72 ≤ wordGet d 0 8)
   else if a = A.CHK_INJ_SEL then
     let u := wordGet d 8 8
     (decide (wordGet d 0 2 = 0) && decide (72 ≤ u)) || (decide (wordGet d 0 2 = 2) && (decide (18 ≤ u ∧ u ≤ 35) || decide (u = 41)))
   else if 0x80000 ≤ a ∧ a < 0x90000 ∧ 0x1000 ≤ (a - 0x80000) % 0x4000 ∧ (a - 0x80000) % 0x4000 < 0x2000 ∧ a % 0x40 = 0x08 then
     decide (0x112 ≤ wordGet d 0 9 ∧ wordGet d 0 9 ≤ 0x123)
   else if 0x320000 ≤ a ∧ a < 0x330000 ∧ a % 0x200 = 0x18 then
     decide (2 ≤ wordGet d 0 2) || decide (wordGet d 2 3 = 2 ∨ wordGet d 2 3 = 3) || decide (wordGet d 5 3 = 2 ∨ wordGet d 5 3 = 3)
   else if a = A.ECC_FLIPf_ADDR_L 2 then decide (2 ≤ wordGet d 20 2)
   else if a = A.ECC_FLIPf_ADDR_L 3 then decide (18 ≤ wordGet d 21 6)
   else if a = A.ECC_FLIPf_ADDR_L 4 then decide (72 ≤ wordGet d 12 8)
   else if a = A.TALLY_SRC_SEL then haLacksSource (wordGet d 0 12)
   else if 0x344000 ≤ a ∧ a < 0x344400 then (List.range 16).any (fun i => decide (2 ≤ wordGet d (2 * i) 2))
   else false)

/-- The register belongs to an absent media port (R398, R429): its quad runs QMODE 1 and the port is no multiple of 4. -/
def State.portGone (s : State) (a : Nat) : Bool :=
  decide (0x500000 ≤ a ∧ a < 0x580000) &&
  (let p := (a - 0x500000) / 0x2000
   decide (p % 4 ≠ 0) && s.flag (R.LANEl_QMODE_QMODE (4 * (p / 4))))

/-- The port exists (R398). -/
def State.portExists (s : State) (p : Nat) : Bool := decide (p < 64) && !s.portGone (A.PORTp_STATE p)

/-- The media ports that a command names are there (R329, R368): a number above 63 names none. -/
def State.portsThere (s : State) (l : List Nat) : Bool := l.all (fun p => decide (63 < p) || s.portExists p)

/-- A management write acts: the register exists on the part and in a domain that is on, the requester owns it, and the word
carries no reserved encoding and names nothing absent. -/
def State.gate (s : State) (w : Who) (a : Nat) (d : Word) : Bool :=
  !s.absent a && !reservedReg a && !s.portGone a && s.domainOn a && s.owns w a && encLegal a d && !s.namesAbsent a d

/-- A management write: it acts by `f`, or is ignored and reported in class CFG (R618, R620). -/
def State.ownWrite (s : State) (w : Who) (a : Nat) (d : Word) (f : State → State) : State :=
  if s.gate w a d then f s else s.cfgReport a

/-- What a write makes of one field (R8, R10): RW takes the written bits, W1C clears the bits written as 1, and RO, WO and
reserved bits store nothing. -/
def fieldWrite (old d : Word) (f : FieldT) : Word :=
  match f.kind with
  | .rw => wordSet old f.lo f.w (wordGet d f.lo f.w)
  | .w1c => wordSet old f.lo f.w (Nat.land (wordGet old f.lo f.w) (2 ^ f.w - 1 - wordGet d f.lo f.w))
  | .w1s => wordSet old f.lo f.w (Nat.lor (wordGet old f.lo f.w) (wordGet d f.lo f.w))
  | _ => old

/-- A register of no behaviour of its own takes a write field by field; a W1C bit that an event set in this cycle stays set (R10). -/
def State.plainWrite (s : State) (a : Nat) (d : Word) : State :=
  match regInfo a with
  | none => s
  | some (t, _) => s.setReg a (t.fields.foldl (fun w f => fieldWrite w (s.cool a d) f) (s.reg a))

end Sys2Proof.Machine
end

