-- ==== Sys2Proof/Machine/Time.lean ====
section
/-!
DEFINITION. Stroke and network time (R30-R61): initialisation, the one step, RATE, the reference clock, PPS, the generators'
enable and disable, the latching reads, and the counting windows of the Tally that device time ends (R555).
-/
namespace Sys2Proof.Machine

/-! ## Counting windows of the Tally (R555, R564, R567) -/

/-- The window of class `c` ends: the streaks of its sources follow, their counts clear, and the window in force from here is
the one of the registers, which ends at the first multiple of its length after device time. -/
def State.windowStart (s : State) (c : Nat) : State :=
  let three := s.tsrc.any (fun e => homeClass e.1 == some c && e.2.reached && decide (2 ≤ e.2.streak))
  let next := fun (t : TSrc) => ({ count := 0, reached := false, streak := if t.reached then min (t.streak + 1) 3 else 0 } : TSrc)
  let s := { s with tsrc := tabMap (fun _ => {}) (fun i t => if homeClass i == some c then next t else t) s.tsrc }
  let len := s.get (R.TALLY_WINc_SECONDS c)
  let s := s.setWindow c { len := len, stop := (s.sec / len + 1) * len, nsev := s.get (R.TALLY_NSEVc_N c) }
  let s := s.set R.TALLY_STAT_SWEEP 1
  if three then s.replace 8 else s

/-! ## Changes of device time -/

/-- Any stream is in STARTING, ON or STOPPING (R37). -/
def State.streamsLive (s : State) : Bool :=
  (List.range 128).any (fun n => decide (s.get (R.STRMn_STATE_STATE n) ≠ 0))

/-- The instant of Stroke `k` of generator `g` (R44). -/
def State.strokeAt (s : State) (g k : Nat) : Inst :=
  ⟨s.get (R.STRKg_PHASE_PHASE g) * s.get (R.STRKg_PDEN_PDEN g) + k * s.get (R.STRKg_PNUM_PNUM g), s.get (R.STRKg_PDEN_PDEN g)⟩

/-- The smallest `k` with t_k at or after device time plus 1 ms (R46). -/
def State.firstStroke (s : State) (g : Nat) : Nat :=
  let t := s.now + 10 ^ 6 * unitsPerNs
  let ph := s.get (R.STRKg_PHASE_PHASE g) * unitsPerNs
  ceilDiv ((t - ph) * s.get (R.STRKg_PDEN_PDEN g)) (s.get (R.STRKg_PNUM_PNUM g) * unitsPerNs)

/-- A generator arms (R46): its next Stroke is the first at or after device time plus 1 ms, with the exact remainder. -/
def State.arm (s : State) (g : Nat) : State :=
  let k := s.firstStroke g
  let s := s.setGen g { s.gen g with next := k, rem := k * s.get (R.STRKg_PNUM_PNUM g) % s.get (R.STRKg_PDEN_PDEN g) }
  s.set (R.STRKg_CTL_ARMED g) 1

/-- The key of a change of device time among what has fired in a cycle. -/
abbrev changeKey : Nat := 500

/-- No step or initialisation falls in this cycle: a single future instant that a forward step passes is acted on in the cycle after
the change (R49). -/
def State.steady (s : State) : Bool := decide (changeKey ∉ s.fired)

/-- Device time is changed by a step or an initialisation (R48, R49, R555): the change is a cycle of its own, so that stamps of one cycle
stay equal (R32; DEDUCED, log entry 29); nothing periodic fires in it, every enabled generator re-arms, every counting window ends
at the change, and a frame on the wire keeps the time it still takes. -/
def State.timeChange (s : State) (new : Nat) : State :=
  let old := s.now
  let s := { s with now := new % timeWrap, prev := new % timeWrap, cyc := s.cyc + 1, fired := [changeKey], hot := [], freed := [], turns := [],
                    txFree := tabMap (fun _ => 0) (fun _ t => new % timeWrap + (t - old)) s.txFree }
  let s := (List.range 4).foldl (fun s g => if s.flag (R.STRKg_CTL_EN g) then s.arm g else s) s
  (List.range 8).foldl (fun s c => s.windowStart c) s

/-- The Time Unit is initialised (R35). -/
def State.initTime (s : State) : State :=
  ((({ s with rate := 0 }.set R.TIME_RATE_L_RATE_L 0).set R.TIME_RATE_H_RATE_H 0).set R.TIME_STAT_STEP_AVAIL 1).timeChange 0

/-- An initialisation asked for by a register write or a command (R35, R37): its status. -/
def State.askInit (s : State) : State × Nat :=
  if s.streamsLive then (s.raise R.TIME_STAT_STEP_LIVE, St.streamsLive)
  else ((s.incMod R.TIME_STAT_TEPOCH).initTime, St.ok)

/-- The signed offset of the step registers, in nanoseconds, with `ns` the NS field (R36). -/
def State.stepOffset (s : State) (ns : Nat) : Int :=
  signed 64 (s.get R.TIME_STEP_SECH_SECH * 2 ^ 32 + s.get R.TIME_STEP_SECL_SECL) * 10 ^ 9 + ns

/-- A step asked for by a register write or a command: refused while a stream is live (R37), refused when none is left
(R36), applied otherwise. DESIGN CHOICE (log entry 30): a step whose result lies below zero or past 2^64 s wraps modulo 2^64 s. -/
def State.askStep (s : State) (ns : Nat) : State × Nat :=
  if s.streamsLive then (s.raise R.TIME_STAT_STEP_LIVE, St.streamsLive) else
  if ¬ s.flag R.TIME_STAT_STEP_AVAIL then
    ((s.raise R.TIME_STAT_STEP_SPENT).send 0x580 0x50, St.stepSpent)
  else
    let new := (s.now + s.stepOffset ns * 2 ^ 48) % (timeWrap : Int)
    let s := (s.set R.TIME_STEP_NS_NS ns).set R.TIME_STAT_STEP_AVAIL 0
    ((s.incMod R.TIME_STAT_TEPOCH).timeChange new.toNat, St.ok)

/-! ## Register writes of the TIME block -/

/-- A write of TIME_CTL (R35, R37, R40, R43): an initialisation that is refused leaves the write without effect; a changed
CLKSRC, or one that is written again after a fallback, starts a relock; PPS_OUT is held low while PPSO_EN is 0. -/
def State.timeCtlWrite (s : State) (d : Word) : State :=
  let init := wordGet d 0 1 = 1
  if init ∧ s.streamsLive then s.raise R.TIME_STAT_STEP_LIVE else
  let old := s.get R.TIME_CTL_CLKSRC
  let new := wordGet d 1 1
  let s := s.plainWrite A.TIME_CTL d
  let s := if new ≠ old ∨ s.relock.getD (s.get R.TIME_STAT_CLKSRC_ACT) ≠ new then { s with relock := some new } else s
  let s := if wordGet d 3 1 = 0 then { s with ppsHigh := none } else s
  if init then (s.askInit).1 else s

/-- A write of TIME_STEP_NS (R36): with GO the step is asked for, without it the field is stored. -/
def State.stepNsWrite (s : State) (d : Word) : State :=
  if wordGet d 31 1 = 1 then (s.askStep (wordGet d 0 30)).1 else s.plainWrite A.TIME_STEP_NS d

/-- A write of TIME_RATE_H loads RATE (R38): it takes effect at the next cycle. -/
def State.rateWrite (s : State) (d : Word) : State :=
  let s := s.plainWrite A.TIME_RATE_H d
  { s with rate := BitVec.ofNat 40 (wordGet d 0 8 * 2 ^ 32 + s.get R.TIME_RATE_L_RATE_L) }

/-- The settings of a generator can be enabled (R45). -/
def strokeLegal (pnum pden phase : Nat) : Bool :=
  decide (pden ≠ 0) && decide (4000000 * pden ≤ pnum) && decide (pnum ≤ 1001000000 * pden) && decide (phase * pden < pnum)

/-- A generator's EN goes from 0 to 1, or is refused (R45, R46). -/
def State.strokeEnable (s : State) (g : Nat) : State :=
  if s.flag (R.STRKg_CTL_EN g) then s else
  if strokeLegal (s.get (R.STRKg_PNUM_PNUM g)) (s.get (R.STRKg_PDEN_PDEN g)) (s.get (R.STRKg_PHASE_PHASE g)) then
    (s.set (R.STRKg_CTL_EN g) 1).arm g
  else s.cfgReport (A.STRKg_CTL g)

/-- A generator's EN goes to 0, ignored while streams are bound (R47). -/
def State.strokeDisable (s : State) (g : Nat) : State :=
  if ¬ s.flag (R.STRKg_CTL_EN g) then s else
  if s.get (R.STRKg_CTL_BOUND g) ≠ 0 then s.cfgReport (A.STRKg_CTL g)
  else (s.set (R.STRKg_CTL_EN g) 0).set (R.STRKg_CTL_ARMED g) 0

/-- A write of STRKg_CTL. -/
def State.strokeCtlWrite (s : State) (g : Nat) (d : Word) : State :=
  if wordGet d 0 1 = 1 then s.strokeEnable g else s.strokeDisable g

/-- A write of STRKg_PNUM, STRKg_PDEN or STRKg_PHASE, ignored and reported while EN is 1 (R47). -/
def State.strokeParWrite (s : State) (g : Nat) (a : Nat) (d : Word) : State :=
  if s.flag (R.STRKg_CTL_EN g) then s.cfgReport a else s.plainWrite a d

/-! ## Latching reads (R60, R61, R624) -/

/-- A read of TIME_NOW_SECL: the seconds, and the rest latched from the same cycle. -/
def State.readNow (s : State) : State × Word :=
  let s := (s.set R.TIME_NOW_SECH_SECH (s.sec / 2 ^ 32)).set R.TIME_NOW_NS_NS s.subNs
  let s := s.set R.TIME_NOW_FRAC_FRAC s.frac
  (s, BitVec.ofNat 32 s.sec)

/-- A read of TIME_PPS_SEC latches TIME_PPS_NS. -/
def State.readPps (s : State) : State × Word :=
  (s.set R.TIME_PPS_NS_NS s.ppsNs, s.reg A.TIME_PPS_SEC)

/-- A read of STRKg_IDX_L latches STRKg_IDX_H and STRKg_LAST_NS. -/
def State.readIdx (s : State) (g : Nat) : State × Word :=
  let s := (s.set (R.STRKg_IDX_H_IDX_H g) ((s.gen g).last / 2 ^ 32)).set (R.STRKg_LAST_NS_NS g) (s.gen g).lastNs
  (s, BitVec.ofNat 32 (s.gen g).last)

/-! ## The commands -/

/-- TIME_INIT (R35). -/
def execTimeInit (w : Who) (d : Word) (s : State) : Host.Outcome State Fault Refusal :=
  .next (if wordGet d 0 1 = 1 then s.ownWrite w A.TIME_CTL d (fun s => s.timeCtlWrite d) else s)

/-- TIME_STEP_GO (R36, R37). -/
def execTimeStepGo (w : Who) (d : Word) (s : State) : Host.Outcome State Fault Refusal :=
  .next (if wordGet d 31 1 = 1 then s.ownWrite w A.TIME_STEP_NS d (fun s => s.stepNsWrite d) else s)

/-- RATE lies within 100 ppm (R39). -/
def rateBound (r : BitVec 40) : Bool := decide (r.toInt.natAbs ≤ 28147497671)

/-- TIME_RATE_LOAD (R38). Firmware loads no RATE beyond the bound of R39 while a stream is live: DEDUCED (log 127), such a command from it does nothing. -/
def execTimeRateLoad (w : Who) (d : Word) (s : State) : Host.Outcome State Fault Refusal :=
  .next (if isHost w = false ∧ s.streamsLive = true ∧ rateBound (BitVec.ofNat 40 (wordGet d 0 8 * 2 ^ 32 + s.get R.TIME_RATE_L_RATE_L)) = false then s else
    s.ownWrite w A.TIME_RATE_H d (fun s => s.rateWrite d))

/-- CLKSRC_WRITE (R40). -/
def execClksrcWrite (w : Who) (d : Word) (s : State) : Host.Outcome State Fault Refusal :=
  .next (s.ownWrite w A.TIME_CTL d (fun s => s.timeCtlWrite d))

/-- PLL_RELOCK (R40, R41): the relock completes, and CLKSRC_ACT shows the new reference. -/
def execPllRelock (s : State) : Host.Outcome State Fault Refusal :=
  .next (match s.relock with
    | some r => { s with relock := none }.set R.TIME_STAT_CLKSRC_ACT r
    | none => s)

/-- TIMEIN_LOST (R40, R41): while TIME_IN is selected, in use or being locked to, its loss is recorded and reported. Where the PLL was on
TIME_IN or moving to it, it holds, so CLKSRC_ACT reads 0, and with FALLBACK it relocks to REFCLK_SYS; a relock to REFCLK_SYS goes on. -/
def execTimeinLost (s : State) : Host.Outcome State Fault Refusal :=
  .next (if s.flag R.TIME_STAT_CLKSRC_ACT ∨ s.relock = some 1 ∨ s.flag R.TIME_CTL_CLKSRC then
    let used := s.flag R.TIME_STAT_CLKSRC_ACT ∨ s.relock = some 1
    let s := (s.raise R.TIME_STAT_TIMEIN_LOST).send 0x580 0x51
    if used then
      let s := s.set R.TIME_STAT_CLKSRC_ACT 0
      { s with relock := if s.flag R.TIME_CTL_FALLBACK ∨ s.relock = some 0 then some 0 else none }
    else s
  else s)

/-- PPS_IN_CAPTURE (R42). -/
def execPpsInCapture (s : State) : Host.Outcome State Fault Refusal :=
  .next ((({ s with ppsNs := s.subNs }.set R.TIME_PPS_SEC_SEC s.sec).raise R.TIME_STAT_PPS_SEEN).evcAssert 8 |>.evcAssert 40)

/-- PPS_OUT_RISE (R43, R49): with PPSO_EN, PPS_OUT rises in the cycle that reaches a whole second. DESIGN CHOICE (log entry 31): its fall
stays at the absolute device time fixed here, also where a step or an initialisation comes between. -/
def execPpsOutRise (s : State) : Host.Outcome State Fault Refusal :=
  .next (if s.flag R.TIME_CTL_PPSO_EN ∧ s.crossed (10 ^ 9) then
    { s with ppsHigh := some (s.now + s.get R.TIME_PPSO_WIDTH_WIDTH * 1000 * unitsPerNs) } else s)

/-- PPS_OUT_FALL (R43). -/
def execPpsOutFall (s : State) : Host.Outcome State Fault Refusal :=
  .next (match s.ppsHigh with
    | some t => if t ≤ s.now ∧ s.steady then { s with ppsHigh := none } else s
    | none => s)

/-- STROKE_ENABLE (R45, R46). -/
def execStrokeEnable (w : Who) (g : Fin 4) (d : Word) (s : State) : Host.Outcome State Fault Refusal :=
  .next (if wordGet d 0 1 = 1 then s.ownWrite w (A.STRKg_CTL g) d (fun s => s.strokeEnable g) else s)

/-- STROKE_DISABLE (R47). -/
def execStrokeDisable (w : Who) (g : Fin 4) (d : Word) (s : State) : Host.Outcome State Fault Refusal :=
  .next (if wordGet d 0 1 = 0 then s.ownWrite w (A.STRKg_CTL g) d (fun s => s.strokeDisable g) else s)

/-- TIME_NOW_READ (R60). -/
def execTimeNowRead (w : Who) (s : State) : Host.Outcome State Fault Refusal :=
  .next (s.readNow.1.emit (.value w A.TIME_NOW_SECL s.readNow.2))

/-- PPS_SEC_READ (R60). -/
def execPpsSecRead (w : Who) (s : State) : Host.Outcome State Fault Refusal :=
  .next (s.readPps.1.emit (.value w A.TIME_PPS_SEC s.readPps.2))

/-- STROKE_IDX_READ (R61). -/
def execStrokeIdxRead (w : Who) (g : Fin 4) (s : State) : Host.Outcome State Fault Refusal :=
  .next ((s.readIdx g).1.emit (.value w (A.STRKg_IDX_L g) (s.readIdx g).2))

/-- TIME_STEP (R350): firmware writes the step registers and GO, and completes the command with the refusal or OK. -/
def execTimeStep (c : Cmd) (s : State) : Host.Outcome State Fault Refusal :=
  .next (s.begin c 0x30 (dSub c.desc ≠ 1) (dSub c.desc = 0 ∧ dClean c.desc [(16, 0, 64), (24, 0, 32)] true ∧
      dget c.desc 24 0 32 < 10 ^ 9) [0] (some 0) (fun s o =>
    let s := (s.set R.TIME_STEP_SECL_SECL (dget c.desc 16 0 32)).set R.TIME_STEP_SECH_SECH (dget c.desc 20 0 32)
    let r := s.askStep (dget c.desc 24 0 32)
    r.1.complete o r.2))

/-- TIME_STEP_INIT (R350). -/
def execTimeStepInit (c : Cmd) (s : State) : Host.Outcome State Fault Refusal :=
  .next (s.begin c 0x30 (dSub c.desc ≠ 0) (dSub c.desc = 1 ∧ dClean c.desc [] true) [0] (some 0) (fun s o =>
    (s.askInit).1.complete o (s.askInit).2))

/-- STROKE_SET, SUBOP 0 (R351): an enabled generator is BUSY, values that break R45 are BAD_VALUE; otherwise the values load,
the generator arms, and the command completes at its first Stroke. -/
def execStrokeSet (c : Cmd) (s : State) : Host.Outcome State Fault Refusal :=
  let g := dget c.desc 16 0 2
  let pnum := dget c.desc 20 0 32
  let pden := dget c.desc 24 0 16
  let phase := dget c.desc 28 0 32
  .next (s.begin c 0x31 (dSub c.desc ≠ 1)
      (dSub c.desc = 0 ∧ dClean c.desc [(16, 0, 2), (20, 0, 32), (24, 0, 16), (28, 0, 32)] true) [0] (some 1) (fun s o =>
    if s.flag (R.STRKg_CTL_EN g) then s.complete o St.busy else
    if ¬ strokeLegal pnum pden phase then s.complete o St.badValue else
    let s := ((s.set (R.STRKg_PNUM_PNUM g) pnum).set (R.STRKg_PDEN_PDEN g) pden).set (R.STRKg_PHASE_PHASE g) phase
    (s.strokeEnable g).await o (.stroke g)))

/-- STROKE_SET, SUBOP 1 (R351): BUSY while streams are bound. -/
def execStrokeSetDisable (c : Cmd) (s : State) : Host.Outcome State Fault Refusal :=
  let g := dget c.desc 16 0 2
  .next (s.begin c 0x31 (dSub c.desc ≠ 0)
      (dSub c.desc = 1 ∧ dClean c.desc [(16, 0, 2), (20, 0, 32), (24, 0, 16), (28, 0, 32)] true) [0] (some 1) (fun s o =>
    if s.get (R.STRKg_CTL_BOUND g) ≠ 0 then s.complete o St.busy else (s.strokeDisable g).complete o St.ok))

/-- The media ports of a mask. -/
def maskPorts (m : Nat) : List Nat := (List.range 64).filter (natBit m)

/-- PTP_SET (R352): an empty port set is BAD_VALUE; otherwise firmware's servo takes the settings, DOMAIN with them, and begins the choice of its master anew. -/
def execPtpSet (c : Cmd) (s : State) : Host.Outcome State Fault Refusal :=
  let d := c.desc
  .next (s.begin c 0x32 true (dSub d = 0 ∧ dClean d [(16, 0, 8), (17, 0, 8), (18, 0, 8), (19, 0, 3), (24, 0, 64), (32, 0, 2)])
      [0] (some 0) (fun s o =>
    if dget d 24 0 64 = 0 ∧ dget d 32 0 2 = 0 then s.complete o St.badValue else
    let s : State := { s.set R.TIME_CTL_DOMAIN (dget d 16 0 8) with
      ptpServo := { prio1 := dget d 17 0 8, prio2 := dget d 18 0 8, flags := dget d 19 0 3, ports := dget d 24 0 64, cps := dget d 32 0 2 } }
    (s.emit (.ptp (dget d 16 0 8) (dget d 17 0 8) (dget d 18 0 8) (dget d 19 0 3) (dget d 24 0 64) (dget d 32 0 2))).complete
      o St.ok) (s.portsThere (maskPorts (dget d 24 0 64))))

end Sys2Proof.Machine
end

