-- ==== Sys2Proof/Machine/Cellar.lean ====
section
/-!
DEFINITION. The Cellar (R488-R518): queues and the order of issue, page policy, refresh and its bands, power-down, training,
recalibration, lane repair and loss; and the reading of every protected array with its reports (R522-R524, R561), because a
Cellar error is counted against lanes, rows and Rack slots.
-/
namespace Sys2Proof.Machine

/-! ## Access to the tables -/

/-- Time of the local clocks in half nanoseconds: CK_TIME cycles of 2 ns, which no step of device time moves (R500). -/
def State.lt (s : State) : Nat := 4 * s.cyc

def State.pc (s : State) (k p : Nat) : PcS := tabGet {} s.pcs (32 * k + p)
def State.setPc (s : State) (k p : Nat) (v : PcS) : State := { s with pcs := tabSet {} s.pcs (32 * k + p) v }
def State.stack (s : State) (k : Nat) : StackS := tabGet {} s.stackTab k
def State.setStack (s : State) (k : Nat) (v : StackS) : State := { s with stackTab := tabSet {} s.stackTab k v }

/-- The Cellar's bytes on the part (R2, R471). -/
def State.cellarSize (s : State) : Nat := if s.part = .ha then 36 * 2 ^ 30 else 72 * 2 ^ 30

/-- The key of a lane's delays and counts. -/
def laneKey (k p l : Nat) : Nat := (32 * k + p) * 64 + l

/-- A pseudo-channel is fenced (R513). -/
def State.fenced (s : State) (k p : Nat) : Bool := s.flag (R.CEL_REPAIRp_FENCE k p)

/-! ## Lane repair (R510-R513) -/

/-- A pseudo-channel is fenced: CEL_PC_FENCE at Severe. -/
def State.fence (s : State) (k p : Nat) : State :=
  if s.fenced k p then s else
  ((s.set (R.CEL_REPAIRp_FENCE k p) 1).set (R.CEL_STAT_FENCED k) 1).send (0x100 + 32 * k + p) 0x08

/-- A spare of the pseudo-channel already replaces the lane. -/
def State.laneReplaced (s : State) (k p lane : Nat) : Bool :=
  (s.flag (R.CEL_REPAIRp_SP0_EN k p) && decide (s.get (R.CEL_REPAIRp_SP0_LANE k p) = lane)) ||
  (s.flag (R.CEL_REPAIRp_SP1_EN k p) && decide (s.get (R.CEL_REPAIRp_SP1_LANE k p) = lane))

/-- The pseudo-channel's next free spare; none where both are in use. -/
def State.freeSpare (s : State) (k p : Nat) : Option Nat :=
  if ¬ s.flag (R.CEL_REPAIRp_SP0_EN k p) then some 0
  else if ¬ s.flag (R.CEL_REPAIRp_SP1_EN k p) then some 1 else none

/-- A repair waits for the stack's next refresh stall (R511). -/
def State.repairPend (s : State) (k : Nat) (r : Bool × Nat × Nat) : State :=
  let t := s.stack k
  (s.setStack k { t with repair := t.repair ++ [r] }).set (R.CEL_STAT_REP_PEND k) 1

/-- A lane is repaired with the pseudo-channel's next free spare; true where there was one. -/
def State.laneRepair (s : State) (k p lane : Nat) : State × Bool :=
  match s.freeSpare k p with
  | none => (s, false)
  | some 0 => (((s.set (R.CEL_REPAIRp_SP0_LANE k p) lane).set (R.CEL_REPAIRp_SP0_EN k p) 1).repairPend k (false, p, lane), true)
  | some _ => (((s.set (R.CEL_REPAIRp_SP1_LANE k p) lane).set (R.CEL_REPAIRp_SP1_EN k p) 1).repairPend k (false, p, lane), true)

/-- A lane whose count reaches the repair threshold is repaired by firmware at the basic level (R510); where no spare is left
its pseudo-channel is fenced (R513). -/
def State.laneError (s : State) (k p lane : Nat) : State :=
  let n := min (tabGet 0 s.celCe (laneKey k p lane) + 1) (2 ^ 32 - 1)
  let s := { s with celCe := tabSet 0 s.celCe (laneKey k p lane) n }
  if n < (s.stack k).thr ∨ s.expert 2 ∨ s.laneReplaced k p lane ∨ s.fenced k p then s else
  let r := s.laneRepair k p lane
  if r.2 then r.1 else s.fence k p

/-- The lane that carries a bit of a granule: a data bit of codeword `c` on lanes 0-31, a check bit on lanes 32-35 (R491). -/
def laneOf (c : Nat) (y : Synd) (syn : Nat) : Nat :=
  match y with
  | .dataBit i => Config.cellarLane (64 * c + i) % 32
  | _ => 32 + Config.cellarLane (256 + 8 * c + Nat.log2 syn) % 4

/-! ## Loss of a range and of slots (R213, R514) -/

/-- The slots whose place overlaps a range of Cellar addresses. -/
def State.slotsIn (s : State) (lo hi : Nat) : List Nat :=
  s.slotSz.filterMap (fun e =>
    let b := s.get (R.SLOTs_ADDR_BASE e.1) * 65536
    if b < hi ∧ lo < b + e.2 * 65536 then some e.1 else none)

/-- Slots are to be retired once their marks are clear (R213). -/
def State.retireSlots (s : State) (l : List Nat) : State :=
  { s with retPend := s.retPend ++ l.filter (fun i => !decide (i ∈ s.retPend) && !s.flag (R.SLOTs_MARK_RETIRED i)) }

/-- A 64 KiB range is lost (R514). -/
def State.rangeLost (s : State) (k a : Nat) : State :=
  let b := a / 65536 * 65536
  if b ∈ s.lost then s else
  let s : State := { s with lost := b :: s.lost }
  let s := (s.set (R.CEL_LOST_L_ADDR k) b).set (R.CEL_LOST_H_ADDR k) (b / 2 ^ 32)
  ((s.bump (R.CEL_LOSTS_COUNT k)).send (0x140 + k) 0x09 b).retireSlots (s.slotsIn b (b + 65536))

/-- An uncorrectable Cellar error counts against its row and against the slot that holds the address. -/
def State.cellarUce (s : State) (a : Nat) : State :=
  let pl := s.celPlace a
  let row := (32 * pl.1 + pl.2.1, pl.2.2 / 1024)
  let known := (s.badRows.filter (fun r => decide (r.1 / 32 = pl.1))).length
  let s := if row ∈ s.badRows ∨ 1024 ≤ known then s.rangeLost pl.1 a else { s with badRows := row :: s.badRows }
  (s.slotsIn a (a + 1)).foldl (fun s i =>
    let s := s.addSat (R.SLOTs_MARK_UCE i) 1
    if s.get R.RACK_CTL_RET_LIM ≤ s.get (R.SLOTs_MARK_UCE i) then s.retireSlots [i] else s) s

/-! ## Reads of a protected array (R522-R524, R541, R561, R562) -/

/-- One codeword of a read is classified and reported. The result is its data as delivered and whether it is poisoned. -/
def State.wordRead (s : State) (f a c : Nat) (w : Nat × Nat) : State × Nat × Bool :=
  let v := syndrome f a c w
  let y := syndOf f v
  let src := s.arrSource f a
  let ad := if f = 4 then a % 2 ^ 12 else a
  match s.injRecs.find? (fun r => r.fam == f && r.addr == a && r.cw == c) with
  | some r =>
    if v = r.syn then
      if y.fixed then ((s.bump (R.ECC_CEf_COUNT f)).send src 0x00 ad (v + f * 512) true, y.fix w.1, false)
      else if y = .poison then (s.send src 0x02 ad (v + f * 512) true, w.1, true)
      else if y = .bad then ((s.bump (R.ECC_UCEf_COUNT f)).send src 0x01 ad (v + f * 512) true, w.1, true)
      else (s, w.1, false)
    else
      let s := (s.bump (R.ECC_UCEf_COUNT f)).send src 0x0F ad (v + f * 512)
      (if f = 0 then s.cellarUce a else s, w.1, true)
  | none =>
    if y.fixed then
      let s := (s.bump (R.ECC_CEf_COUNT f)).send src 0x00 ad (v + f * 512)
      (if f = 0 then s.laneError (s.celPlace a).1 (s.celPlace a).2.1 (laneOf c y v) else s, y.fix w.1, false)
    else if y = .poison then (s.send src 0x02 ad (v + f * 512), w.1, true)
    else if y = .bad then
      let s := (s.bump (R.ECC_UCEf_COUNT f)).send src 0x01 ad (v + f * 512)
      (if f = 0 then s.cellarUce a else s, w.1, true)
    else (s, w.1, false)

/-- A read of the granule of family `f` at `a`: the data of its codewords as delivered, and whether any is poisoned. A fenced
pseudo-channel returns poisoned data (R513). -/
def State.arrRead (s : State) (f a : Nat) : State × List Nat × Bool :=
  if f = 0 ∧ s.fenced (s.celPlace a).1 (s.celPlace a).2.1 then (s, (s.gran f a).map (fun w => w.1), true) else
  ((s.gran f a).zip (List.range (keelN f))).foldl (fun (acc : State × List Nat × Bool) e =>
    let r := acc.1.wordRead f a e.2 e.1
    (r.1, acc.2.1 ++ [r.2.1], acc.2.2 || r.2.2)) (s, [], false)

/-- A whole granule is written; a write to a fenced pseudo-channel is discarded (R513). -/
def State.arrWrite (s : State) (f a : Nat) (ds : List Nat) (back : Bool := false) : State :=
  if f = 0 ∧ s.fenced (s.celPlace a).1 (s.celPlace a).2.1 then s else s.granWrite f a ds false back

/-- Part of a granule is written: it is read, merged and written, with stored poison where its read was uncorrectable (R528,
R529). -/
def State.arrMerge (s : State) (f a off : Nat) (bs : List Byte) : State :=
  let r := s.arrRead f a
  let old := granBytes f r.2.1
  let new := old.take off ++ bs ++ old.drop (off + bs.length)
  if f = 0 ∧ s.fenced (s.celPlace a).1 (s.celPlace a).2.1 then r.1
  else r.1.granWrite f a (granData f new) r.2.2 false

/-! ## Refresh (R499-R502) -/

/-- tREFI of a band in half nanoseconds (R501). -/
def tRefi (band : Nat) : Nat := match band with | 0 => 7800 | 1 => 3900 | _ => 1950

/-- The band that a reading `t` decides from band `b` (R501). DEDUCED (log 46): a rise enters the band whose threshold it passes, a fall leaves one band
a reading. -/
def bandStep (b : Nat) (t : Int) : Nat :=
  match b with
  | 0 => if 105 < t then 2 else if 85 < t then 1 else 0
  | 1 => if 105 < t then 2 else if t ≤ 82 then 0 else 1
  | _ => if t ≤ 102 then 1 else 2

/-- The hotter stack's reading (R501). -/
def State.hotter (s : State) : Int :=
  let a := signed 8 (s.get (R.CEL_TEMP_TJ 0))
  if s.part = .ha then a else max a (signed 8 (s.get (R.CEL_TEMP_TJ 1)))

/-- Refresh starts (R500, R507): stack A's instants from now, stack B's half a tREFI later. -/
def State.startRefresh (s : State) (k : Nat) : State :=
  let t := s.stack k
  if t.refNext.isSome then s else
  s.setStack k { t with refNext := some (s.lt + (if k = 0 then 0 else tRefi (s.get (R.CEL_STAT_BAND 0)) / 2)) }

/-- A drift step of one pseudo-channel in a stall (R509): every tap moves by at most one towards the measured value, which is
the silicon's: a free value. More than 4 taps since training is reported once per round. -/
def State.recalStep (s : State) (k p : Nat) : State :=
  let r := s.draw 2
  let mv : Int := if r.1 = 1 then 1 else if r.1 = 2 then -1 else 0
  let s := r.2
  let tap := fun (v : Nat) => ((max 0 (min 127 ((v : Int) + mv))) : Int).toNat
  let s := (List.range 38).foldl (fun s l =>
    let d := tabGet (64, 64) s.celDly (laneKey k p l)
    { s with celDly := tabSet (64, 64) s.celDly (laneKey k p l) (tap d.1, tap d.2) }) s
  let t := s.stack k
  let d := ((t.drift.find? (fun e => e.1 == p)).map (fun e => e.2)).getD 0 + mv
  let s := s.setStack k { t with drift := (p, d) :: t.drift.filter (fun e => e.1 != p) }
  if 4 < d.natAbs then s.send (0x100 + 32 * k + p) 0x05 else s

/-- The repairs that waited switch in during a stall (R511, R512, R565). -/
def State.repairsTake (s : State) (k : Nat) : State :=
  let t := s.stack k
  let s := (s.setStack k { t with repair := [] }).set (R.CEL_STAT_REP_PEND k) 0
  let s := t.repair.foldl (fun s r => s.send (if r.1 then 0x140 + k else 0x100 + 32 * k + r.2.1) 0x06) s
  let out := t.repair.any (fun r => r.1 || (s.flag (R.CEL_REPAIRp_SP0_EN k r.2.1) && s.flag (R.CEL_REPAIRp_SP1_EN k r.2.1)))
  if out ∧ ¬ s.flag (R.CEL_STAT_REP_OUT k) then ((s.set (R.CEL_STAT_REP_OUT k) 1).send (0x140 + k) 0x07).replace 2 else s

/-- At its instant a stack stalls with every bank precharged (R499). -/
def State.closeRows (s : State) (k : Nat) : State :=
  (List.range 32).foldl (fun s p =>
    let c := s.pc k p
    if c.rows = [] then s else s.setPc k p { c with rows := [] }) s

/-- The stack's next instant and its stall of 410 ns (R499-R502); a band decided takes effect at stack A's refresh, and both
stacks' instants restart from it (R509). -/
def State.rearmRefresh (s : State) (k : Fin 2) (t : Nat) : State :=
  if k.val = 0 then
    let b := (s.stack 0).band
    if b ≠ s.get (R.CEL_STAT_BAND 0) then
      let s := (s.set (R.CEL_STAT_BAND 0) b).set (R.CEL_STAT_BAND 1) b
      let s := s.setStack 0 { s.stack 0 with refNext := some (t + tRefi b), stall := t + 820 }
      if (s.stack 1).refNext.isSome then s.setStack 1 { s.stack 1 with refNext := some (t + tRefi b / 2) } else s
    else s.setStack 0 { s.stack 0 with refNext := some (t + tRefi b), stall := t + 820 }
  else
    let b := s.get (R.CEL_STAT_BAND 1)
    s.setStack 1 { s.stack 1 with refNext := some (t + tRefi b), stall := t + 820 }

/-- A periodic recalibration takes one pseudo channel at each refresh and counts when it has taken them all (R511). -/
def State.recalRefresh (s : State) (k : Nat) : State :=
  match (s.stack k).recal with
  | none => s
  | some p =>
    let s := s.recalStep k p
    let st := s.stack k
    if p + 1 < 32 then s.setStack k { st with recal := some (p + 1) }
    else (s.setStack k { st with recal := none }).bump (R.CEL_RECALS_COUNT k)

/-- CELLAR_REFRESH (R499-R502, R509, R511): what a stack does at its refresh instant. -/
def execCellarRefresh (k : Fin 2) (s : State) : Host.Outcome State Fault Refusal :=
  .next (match (s.stack k).refNext with
  | none => s
  | some t =>
    if s.lt < t then s else
    let s := (s.closeRows k).rearmRefresh k t
    (if s.flag (R.CEL_STAT_REP_PEND k) then s.repairsTake k else s).recalRefresh k)

/-- CELLAR_TEMP_READING (R501, R502): the reading is stored and a band is decided, the later decision holding. -/
def execCellarTempReading (k : Fin 2) (t : Int) (s : State) : Host.Outcome State Fault Refusal :=
  .next (if s.part = .ha ∧ k.val = 1 then s else
    let s := s.set (R.CEL_TEMP_TJ k) (unsigned 8 t)
    let st := s.stack 0
    s.setStack 0 { st with band := bandStep st.band s.hotter })

/-- RECALIBRATION_ROUND (R509): while RECAL_EN is 1 a round begins 60 s after the one before, one pseudo-channel per refresh stall. -/
def execRecalibrationRound (k : Fin 2) (s : State) : Host.Outcome State Fault Refusal :=
  .next (if s.flag (R.CEL_CTL_RECAL_EN k) ∧ (s.stack k).recal.isNone ∧ (s.stack k).refNext.isSome ∧
      (s.stack k).roundAt.all (fun c => decide (c + 30000000000 ≤ s.cyc))
    then s.setStack k { s.stack k with recal := some 0, roundAt := some s.cyc } else s)

/-! ## Queues and the order of issue (R492-R498, R503, R508) -/

/-- A request enters its queue, or is held on the Slide where it is full (R492, R494): a full-granule write to a granule with a
queued write replaces that write's data, and a read of such a granule is counted as waiting. -/
def State.pcEnter (s : State) (k p : Nat) (q : QReq) : State :=
  let c := s.pc k p
  if q.req.write then
    if c.writes.any (fun w => w.req.addr == q.req.addr) then
      s.setPc k p { c with writes := c.writes.map (fun w => if w.req.addr = q.req.addr then { w with req := q.req } else w) }
    else if c.writes.length < 64 then s.setPc k p { c with writes := c.writes ++ [q], seq := c.seq + 1 }
    else s.setPc k p { c with held := c.held ++ [q], seq := c.seq + 1 }
  else if c.reads.length < 32 then
    let s := s.setPc k p { c with reads := c.reads ++ [q], seq := c.seq + 1 }
    if c.writes.any (fun w => w.req.addr == q.req.addr) then s.bump (R.CEL_RAWWAIT_COUNT k) else s
  else s.setPc k p { c with held := c.held ++ [q], seq := c.seq + 1 }

/-- The row of a request (R490). -/
def State.reqRow (s : State) (q : QReq) : Nat := (s.celPlace q.req.addr).2.2 / 1024

/-- The request that R493 picks next. -/
def State.pcPick (s : State) (k p : Nat) : Option QReq :=
  let c := s.pc k p
  let wOk := c.writes.filter (fun w => !c.reads.any (fun r => r.req.addr == w.req.addr && decide (r.no ≤ w.no)))
  let rOk := c.reads.filter (fun r => !c.writes.any (fun w => w.req.addr == r.req.addr && decide (w.no ≤ r.no)))
  let match1 := wOk.find? (fun w => c.reads.any (fun r => r.req.addr == w.req.addr))
  let drain := if c.drain then wOk.head? else none
  let old := rOk.find? (fun r => r.req.clsA && decide (r.at_ + 2000 < s.lt))
  let opn := rOk.find? (fun r => c.rows.any (fun e => e.1 == s.reqRow r))
  let last := if c.reads = [] then wOk.head? else none
  match1 <|> drain <|> old <|> opn <|> rOk.head? <|> last

/-- The stack serves requests: TRAFFIC_EN, its PLL, no self-refresh, and no stall or precharge window (R493, R499, R508). -/
def State.stackServes (s : State) (k : Nat) : Bool :=
  let t := s.stack k
  s.flag (R.CEL_CTL_TRAFFIC_EN k) && s.flag (R.CEL_STAT_PLL_LOCK k) && !s.flag (R.CEL_STAT_SREF k) && decide (t.stall ≤ s.lt) &&
  (match t.refNext with | none => true | some r => decide (s.lt + 32 < r))

/-- The row of a served request stays open or is closed (R497, R498). -/
def State.pageAfter (s : State) (c : PcS) (q : QReq) : List (Nat × Nat) :=
  let row := s.reqRow q
  let others := c.rows.filter (fun e => e.1 != row && Config.cellarBank e.1 != Config.cellarBank row)
  if ¬ q.req.clsA ∧ q.req.hint then (row, s.lt) :: others else others

/-- CELLAR_REQUEST_ISSUE (R492-R498, R503): the requests that arrive enter their queues, and the request that the order picks is
issued; a write stores its granule. -/
def execCellarRequestIssue (k : Fin 2) (p : Fin 32) (arr : List CelReq) (s : State) : Host.Outcome State Fault Refusal :=
  let mine := arr.filter (fun r => decide (r.addr < s.cellarSize) && decide ((s.celPlace r.addr).1 = k.val) &&
    decide ((s.celPlace r.addr).2.1 = p.val))
  let s := mine.foldl (fun s r => s.pcEnter k p { req := { r with addr := r.addr / 32 * 32 }, at_ := s.lt, no := (s.pc k p).seq }) s
  let c := s.pc k p
  let s := s.setPc k p { c with drain := if c.drain then decide (16 < c.writes.length) else decide (48 ≤ c.writes.length) }
  let c := s.pc k p
  .next (if ¬ s.stackServes k ∨ c.down ∨ s.lt < c.ready then s else
  match s.pcPick k p with
  | none => s
  | some q =>
    let s := s.setPc k p { c with
      reads := if q.req.write then c.reads else removeFirst (fun x => x == q) c.reads,
      writes := if q.req.write then removeFirst (fun x => x == q) c.writes else c.writes,
      rows := s.pageAfter c q, idle := s.lt }
    let s := if q.req.write then
        s.arrWrite 0 q.req.addr ((List.range 4).map (fun i => q.req.data.toNat / 2 ^ (64 * i) % 2 ^ 64))
      else s
    let held := (s.pc k p).held
    held.foldl (fun s q => s.pcEnter k p q) (s.setPc k p { s.pc k p with held := [] }))

/-- CELLAR_POWER_DOWN (R503). -/
def execCellarPowerDown (k : Fin 2) (p : Fin 32) (s : State) : Host.Outcome State Fault Refusal :=
  let c := s.pc k p
  let n := s.get (R.CEL_PD_IDLE_CYC k)
  .next (if c.reads = [] ∧ c.writes = [] ∧ c.rows = [] ∧ n ≠ 0 ∧ c.idle + 2 * n ≤ s.lt then s.setPc k p { c with down := true } else s)

/-- CELLAR_PD_WAKE (R503): a request's command is issued 10 ns later; before a refresh the pseudo-channel is out 20 ns ahead of
the precharge window. -/
def execCellarPdWake (k : Fin 2) (p : Fin 32) (s : State) : Host.Outcome State Fault Refusal :=
  let c := s.pc k p
  let due : Bool := match (s.stack k).refNext with | none => false | some r => decide (r ≤ s.lt + 72)
  .next (if c.down ∧ (c.reads ≠ [] ∨ c.writes ≠ [] ∨ due = true) then
    s.setPc k p { c with down := false, ready := s.lt + 20, idle := s.lt } else s)

/-- ROW_CLOSE_TIMEOUT (R498): rows without an access for CEL_PAGE_TMO cycles are closed. -/
def execRowCloseTimeout (k : Fin 2) (p : Fin 32) (s : State) : Host.Outcome State Fault Refusal :=
  let c := s.pc k p
  .next (s.setPc k p { c with rows := c.rows.filter (fun e => decide (s.lt < e.2 + 2 * s.get (R.CEL_PAGE_TMO_CYC k))) })

/-! ## Training and control -/

/-- A write of CEL_TRN_CTL (R506). -/
def State.trnWrite (s : State) (k : Nat) (d : Word) : State :=
  let go := wordGet d 0 1 = 1
  if go ∧ (s.flag (R.CEL_CTL_TRAFFIC_EN k) ∨ s.flag (R.CEL_TRN_STAT_BUSY k)) then s.cfgReport (A.CEL_TRN_CTL k) else
  let s := s.plainWrite (A.CEL_TRN_CTL k) d
  if go then (List.range 38).foldl (fun s i => s.set (R.CEL_TRN_ERRd_COUNT k i) 0) (s.set (R.CEL_TRN_STAT_BUSY k) 1) else s

/-- TRN_GO. -/
def execTrnGo (w : Who) (k : Fin 2) (d : Word) (s : State) : Host.Outcome State Fault Refusal :=
  .next (if wordGet d 0 1 = 1 then s.ownWrite w (A.CEL_TRN_CTL k) d (fun s => s.trnWrite k d) else s)

/-- The distance between the consecutive 16 KiB or 8 KiB blocks that a row is spread over (R489, R490). -/
def State.celStep (s : State) : Nat := if s.part = .ha then 2 ^ 13 else 2 ^ 14

/-- The first Cellar address of a row of a pseudo-channel (R489, R490). -/
def State.celAddr (s : State) (k p row : Nat) : Nat :=
  row * 4 * s.celStep + p % 8 * 2 ^ 8 + (if s.part = .ha then p / 8 * 2 ^ 11 else p / 8 * 2 ^ 12 + k * 2 ^ 11)

/-- TRN_DONE (R506): the mismatches of each lane; a write run has overwritten its row, with what the manual leaves open: free values. -/
def execTrnDone (k : Fin 2) (errs : List Nat) (s : State) : Host.Outcome State Fault Refusal :=
  .next (if s.flag (R.CEL_TRN_STAT_BUSY k) then
    let s := (s.set (R.CEL_TRN_STAT_BUSY k) 0).raise (R.CEL_TRN_STAT_DONE k)
    let s := (List.range 38).foldl (fun s i => s.set (R.CEL_TRN_ERRd_COUNT k i) (min ((errs[i]?).getD 0) (2 ^ 32 - 1))) s
    if s.get (R.CEL_TRN_CTL_TGT k) = 2 then
      let p := s.get (R.CEL_TRN_CTL_PC k)
      let row := s.get (R.CEL_TRN_ROW_ROW k)
      let at_ := s.celAddr k p row
      (List.range 32).foldl (fun (s : State) i =>
        let a := at_ + 32 * (i % 8) + (i / 8) * s.celStep
        let (v, s) := s.draw 288
        let g := (List.range 4).map (fun c => (v / 2 ^ (72 * c) % 2 ^ 64, v / 2 ^ (72 * c + 64) % 2 ^ 8))
        let left := s.injRecs.filter (fun r => !(r.fam == 0 && r.addr == a))
        { s with mem := tabSet none s.mem a (some g), injRecs := left }) s
    else s
  else s)

/-- A write of CEL_MRW: GO writes a stack mode register while TRAFFIC_EN is 0 (R518). -/
def State.mrwWrite (s : State) (k : Nat) (d : Word) : State :=
  let go := wordGet d 31 1 = 1
  if go ∧ s.flag (R.CEL_CTL_TRAFFIC_EN k) then s.cfgReport (A.CEL_MRW k) else
  let s := s.plainWrite (A.CEL_MRW k) d
  if go then
    let mr := wordGet d 8 4
    let channels := if wordGet d 16 1 = 1 then List.range 16 else [wordGet d 12 4]
    let t := s.stack k
    let old := t.mrs.filter (fun e => !(e.2.1 == mr && decide (e.1 ∈ channels)))
    s.setStack k { t with mrs := channels.map (fun c => (c, mr, wordGet d 0 8)) ++ old }
  else s

/-- MRW_GO. -/
def execMrwGo (w : Who) (k : Fin 2) (d : Word) (s : State) : Host.Outcome State Fault Refusal :=
  .next (if wordGet d 31 1 = 1 then s.ownWrite w (A.CEL_MRW k) d (fun s => s.mrwWrite k d) else s)

/-- The write disables an enabled spare, or names a lane that another spare already replaces (R511). -/
def State.repairBad (s : State) (k p : Nat) (d : Word) : Bool :=
  let e0 := wordGet d 6 1 == 1
  let e1 := wordGet d 14 1 == 1
  let o0 := s.flag (R.CEL_REPAIRp_SP0_EN k p)
  let o1 := s.flag (R.CEL_REPAIRp_SP1_EN k p)
  (o0 && !e0) || (o1 && !e1) || (e0 && e1 && decide (wordGet d 0 6 = wordGet d 8 6))

/-- A write of CEL_REPAIRp or CEL_CAREPc (R511). -/
def State.repairWrite (s : State) (k : Nat) (ca : Bool) (i : Nat) (d : Word) : State :=
  if ca then
    let was := s.flag (R.CEL_CAREPc_EN k i)
    if was ∧ wordGet d 5 1 = 0 then s.cfgReport (A.CEL_CAREPc k i) else
    let s := s.plainWrite (A.CEL_CAREPc k i) d
    if ¬ was ∧ wordGet d 5 1 = 1 then s.repairPend k (true, i, wordGet d 0 5) else s
  else
    if s.repairBad k i d then s.cfgReport (A.CEL_REPAIRp k i) else
    let o0 := s.flag (R.CEL_REPAIRp_SP0_EN k i)
    let o1 := s.flag (R.CEL_REPAIRp_SP1_EN k i)
    let s := s.plainWrite (A.CEL_REPAIRp k i) d
    let s := if ¬ o0 ∧ wordGet d 6 1 = 1 then s.repairPend k (false, i, wordGet d 0 6) else s
    if ¬ o1 ∧ wordGet d 14 1 = 1 then s.repairPend k (false, i, wordGet d 8 6) else s

/-- REPAIR_WRITE (R511): `i` beyond the channels of a CA repair names no register. -/
def execRepairWrite (w : Who) (k : Fin 2) (ca : Bool) (i : Fin 32) (d : Word) (s : State) : Host.Outcome State Fault Refusal :=
  .next (if ca ∧ 16 ≤ i.val then s else
    s.ownWrite w (if ca then A.CEL_CAREPc k i else A.CEL_REPAIRp k i) d (fun s => s.repairWrite k ca i d))

/-- A write of CEL_CTL (R507, R508). -/
def State.celCtlWrite (s : State) (k : Nat) (d : Word) : State :=
  if wordGet d 0 1 = 0 ∧ s.flag (R.CEL_CTL_TRAFFIC_EN k) ∧ s.streamsLive then s.cfgReport (A.CEL_CTL k) else
  let s := s.plainWrite (A.CEL_CTL k) d
  if wordGet d 0 1 = 1 then s.startRefresh k else s

/-- TRAFFIC_EN_WRITE (R508). -/
def execTrafficEnWrite (w : Who) (k : Fin 2) (d : Word) (s : State) : Host.Outcome State Fault Refusal :=
  .next (s.ownWrite w (A.CEL_CTL k) d (fun s => s.celCtlWrite k d))

/-- CEL_PLL (R515): the PLL loses lock while TRAFFIC_EN is 1, and the stack's traffic stops. -/
def execCelPll (k : Fin 2) (s : State) : Host.Outcome State Fault Refusal :=
  .next (if s.flag (R.CEL_CTL_TRAFFIC_EN k) ∧ s.flag (R.CEL_STAT_PLL_LOCK k) then
    (s.set (R.CEL_STAT_PLL_LOCK k) 0).send (0x140 + k) 0x0A else s)

/-! ## FUNC_SET with FUNC 2 (R517) -/

/-- The stack that PARAM names is on the part. -/
def State.celUnit (s : State) (c : Cmd) : Bool := decide (dUnit8 c.desc = 0) || decide (s.part = .fa)

/-- CEL_LANE_REPAIR_SET. -/
def execCelLaneRepairSet (c : Cmd) (s : State) : Host.Outcome State Fault Refusal :=
  let k := dUnit8 c.desc
  let p := dValue c.desc % 32
  let lane := dValue c.desc / 32 % 64
  .next (s.beginFunc c 2 1 (fun h => decide (h ≤ 1)) (fun s o =>
    if 2 ^ 11 ≤ dValue c.desc ∨ 35 < lane ∨ (s.freeSpare k p).isNone then s.complete o St.badValue
    else if s.laneReplaced k p lane then (s.cfgReport (A.CEL_REPAIRp k p)).complete o St.ok
    else (s.laneRepair k p lane).1.complete o St.ok) (s.celUnit c))

/-- CEL_RECAL_SET. -/
def execCelRecalSet (c : Cmd) (s : State) : Host.Outcome State Fault Refusal :=
  .next (s.beginFunc c 2 2 (fun h => decide (h ≤ 1)) (fun s o =>
    if 1 < dValue c.desc then s.complete o St.badValue
    else (s.set (R.CEL_CTL_RECAL_EN (dUnit8 c.desc)) (dValue c.desc)).complete o St.ok) (s.celUnit c))

/-- CEL_REPAIR_THRESHOLD_SET. -/
def execCelRepairThresholdSet (c : Cmd) (s : State) : Host.Outcome State Fault Refusal :=
  let k := dUnit8 c.desc
  .next (s.beginFunc c 2 3 (fun h => decide (h ≤ 1)) (fun s o =>
    if dValue c.desc = 0 ∨ 65535 < dValue c.desc then s.complete o St.badValue
    else (s.setStack k { s.stack k with thr := dValue c.desc }).complete o St.ok) (s.celUnit c))

end Sys2Proof.Machine
end

