-- ==== Sys2Proof/Machine/Evc.lean ====
section
/-!
DEFINITION. The Event Controller (R569-R584): claims, looks, completions, hold-off, timers, the EVT_IN filters, targets, and
the preemption path.
-/
namespace Sys2Proof.Machine

/-- The target in force of a source (R574): EVC_TGTn, or the earlier target while a write waits for the source's
completion. -/
def State.target (s : State) (n : Nat) : Nat :=
  match tabGet none s.tgtDef n with
  | some t => t
  | none => s.get (R.EVC_TGTn_TGT n)

/-- The group of a source is held off for a target (R579); an end that a forward step passes is reached in the cycle after it (R49). -/
def State.heldOff (s : State) (g t : Nat) : Bool :=
  match tabGet none s.holdOff (8 * g + t) with
  | some e => decide (s.now < e) || !s.steady
  | none => false

/-- The keys, among what has fired in a cycle, of a target's claim and of a completion that left its source PENDING. -/
abbrev claimKey (t : Nat) : Nat := 600 + t
abbrev doneKey (n : Nat) : Nat := 2000 + n

/-- A source can be offered to a target (R575): it is PENDING, its target is `t`, and its group is not held off for `t`. A source that
completed in PENDING is offered again from the next cycle (R578). -/
def State.offerable (s : State) (t n : Nat) : Bool :=
  evcListed n && s.get (pendRF n) == 1 && s.get (actRF n) == 0 && s.target n == t && !s.heldOff (n / 16) t &&
  decide (doneKey n ∉ s.fired)

/-- The candidate of a target: the lowest-numbered source that can be offered to it. -/
def State.candidate (s : State) (t : Nat) : Option Nat :=
  (List.range 32).findSome? (fun i =>
    if s.reg (A.EVC_PENDi i) = 0 then none
    else (List.range 32).findSome? (fun j => if s.offerable t (32 * i + j) then some (32 * i + j) else none))

/-- The UNIT of a claim (R361, R569). -/
def claimUnit (n : Nat) : Nat :=
  if 64 ≤ n ∧ n ≤ 191 then 0x1000 + (n - 64) else
  if 192 ≤ n ∧ n ≤ 255 then 0x3000 + (n - 192) else
  if 256 ≤ n ∧ n ≤ 321 then 0x4000 + (n - 256) else 0

/-- What a stream's source has gathered goes to the claim that takes it. -/
def State.takeGathered (s : State) (t n : Nat) (g : Gath) : State :=
  { s with gath := if 64 ≤ n ∧ n ≤ 191 then tabSet {} s.gath (n - 64) {} else s.gath,
           claimed := tabSet {} s.claimed t g, looked := s.looked.filter (fun x => x != t) }

/-- The registers of a claim of source `n` by target `t`: in service, active, and no longer pending where the source is an edge. -/
def State.claimMarks (s : State) (t n : Nat) : State :=
  let s := ((s.set (R.EVC_INSVt_SOURCE t) n).set (R.EVC_INSVt_VALID t) 1).set (R.EVC_INSVt_GONE t) 0
  let s := s.set (actRF n) 1
  if s.evcLevel n then s else s.set (pendRF n) 0

/-- The hold-off of the source's group runs for the target from here. -/
def State.holdStart (s : State) (t n : Nat) : State :=
  let h := s.get (R.EVC_HOLDg_HOLD (n / 16))
  { s with holdOff := tabSet none s.holdOff (8 * (n / 16) + t) (if h = 0 then none else some (s.now + h * 100 * unitsPerNs)) }

/-- A target claims a source (R572, R573, R575, R579): the in-service record is written, the source becomes ACTIVE or, while
its line is asserted, ACTIVE_PENDING, the gathered events move into the claim, and the group is held off. A COX target's claim
register is loaded; a HOSTQ target's record goes to its ring. -/
def State.claim (s : State) (t n : Nat) : State :=
  let g := if 64 ≤ n ∧ n ≤ 191 then tabGet {} s.gath (n - 64) else {}
  let s := ((s.takeGathered t n g).claimMarks t n).holdStart t n
  if t < 4 then
    let s := ((s.set (R.EVC_CLAIMt_SOURCE t) n).set (R.EVC_CLAIMt_EVENT t) g.ev).set (R.EVC_CLAIMt_VALID t) 1
    (s.set (R.EVC_CLAIMPIC_Lt_PIC t) g.pic).set (R.EVC_CLAIMPIC_Ht_PIC t) (g.pic / 2 ^ 32)
  else
    s.eventRecord (0x40 + (t - 4)) (fun q => .claim q (s.sec % 2 ^ 32) s.subNs n (claimUnit n) g.ev g.pic t)

/-- The look of a target's claim (R576): GONE sets where the claimed source is a level source whose line is de-asserted. Only
the first counts. -/
def State.look (s : State) (t : Nat) : State :=
  if s.flag (R.EVC_INSVt_VALID t) ∧ t ∉ s.looked then
    let n := s.get (R.EVC_INSVt_SOURCE t)
    let s := { s with looked := t :: s.looked }
    if s.evcLevel n ∧ s.get (pendRF n) = 0 then s.set (R.EVC_INSVt_GONE t) 1 else s
  else s

/-- A target's in-service record and its claim registers are cleared, and a waiting target of the source takes effect. -/
def State.endClaim (s : State) (t n : Nat) : State :=
  let s := { s with claimed := tabSet {} s.claimed t {}, tgtDef := tabSet none s.tgtDef n none,
                    looked := s.looked.filter (fun x => x != t) }
  let s := (((s.set (R.EVC_INSVt_SOURCE t) 0).set (R.EVC_INSVt_VALID t) 0).set (R.EVC_INSVt_GONE t) 0).set (actRF n) 0
  if t < 4 then
    let s := ((s.set (R.EVC_CLAIMt_SOURCE t) 0).set (R.EVC_CLAIMt_EVENT t) 0).set (R.EVC_CLAIMt_VALID t) 0
    (s.set (R.EVC_CLAIMPIC_Lt_PIC t) 0).set (R.EVC_CLAIMPIC_Ht_PIC t) 0
  else s

/-- A completion of target `t` that names source `n` (R577, R578): it ends the claim of that source, counting it as spurious where
the look found the line gone and it still is, and any other completion is refused and reported. -/
def State.evcComplete (s : State) (t n : Nat) : State :=
  if s.flag (R.EVC_INSVt_VALID t) ∧ s.get (R.EVC_INSVt_SOURCE t) = n then
    let gone := s.flag (R.EVC_INSVt_GONE t) ∧ s.get (pendRF n) = 0
    let s := s.endClaim t n
    let s := if s.get (pendRF n) = 1 then { s with fired := doneKey n :: s.fired } else s
    if gone then s.bump (R.EVC_SPURIOUSt_COUNT t) else s
  else s.send 0x581 0x42 t n

/-- The in-service claim of HOSTQq is abandoned (R580): the source returns to PENDING where it is an edge source or its line
is asserted, else to IDLE, and a stream source's claimed events return to its gathered set. -/
def State.abandon (s : State) (q : Nat) : State :=
  let t := 4 + q
  if s.flag (R.EVC_INSVt_VALID t) then
    let n := s.get (R.EVC_INSVt_SOURCE t)
    let g := tabGet {} s.claimed t
    let old := tabGet {} s.gath (n - 64)
    let back := 64 ≤ n ∧ n ≤ 191 ∧ g.ev ≠ 0
    let s := s.endClaim t n
    let s := if s.evcLevel n then s else s.evcAssert n
    if back then { s with gath := tabSet {} s.gath (n - 64) { ev := Nat.lor old.ev g.ev, pic := g.pic } } else s
  else s

/-- A preemption is sent to a Scull (R582): it merges with one that waits there, taking the higher level, and it is an abort
if either was. -/
def State.sendPreempt (s : State) (u level : Nat) (abort : Bool) : State :=
  let p : Preempt := match tabGet none s.preempt u with
    | some p => { level := max p.level level, abort := p.abort || abort }
    | none => { level := level, abort := abort }
  { s with preempt := tabSet none s.preempt u (some p) }

/-! ## Register writes of the EVC block -/

/-- A write of EVC_INCFGi (R570): a changed MODE or GF_CYC restarts the filter and discards an unclaimed assertion. -/
def State.incfgWrite (s : State) (i : Nat) (d : Word) : State :=
  let change := wordGet d 0 10 ≠ s.get (R.EVC_INCFGi_GF_CYC i) ∨ wordGet d 10 2 ≠ s.get (R.EVC_INCFGi_MODE i)
  let s := s.plainWrite (A.EVC_INCFGi i) d
  if change then
    let s := { s with pins := tabSet {} s.pins i { settled := false } }
    (s.set (R.EVC_INCFGi_FILT i) 0).set (pendRF (16 + i)) 0
  else s

/-- A write of EVC_PENDi (R584): a 1 discards the pending assertion of an edge source, with a stream's gathered events. -/
def State.pendClear (s : State) (i : Nat) (d : Word) : State :=
  let d := s.cool (A.EVC_PENDi i) d
  (List.range 32).foldl (fun s j =>
    let n := 32 * i + j
    if natBit d.toNat j ∧ evcListed n ∧ ¬ s.evcLevel n then
      let s := s.set (pendRF n) 0
      if 64 ≤ n ∧ n ≤ 191 then { s with gath := tabSet {} s.gath (n - 64) {} } else s
    else s) s

/-- A write of EVC_TGTn (R574): in force at once, or at the source's completion while it is in service. -/
def State.tgtWrite (s : State) (n : Nat) (d : Word) : State :=
  let old := s.target n
  let s := s.plainWrite (A.EVC_TGTn n) d
  if s.get (actRF n) = 1 then { s with tgtDef := tabSet none s.tgtDef n (some old) } else s

/-- A write of EVC_PREEMPT (R582). -/
def State.preemptWrite (s : State) (d : Word) : State :=
  s.sendPreempt (wordGet d 0 8) (wordGet d 8 2) (wordGet d 10 1 == 1)

/-! ## The commands -/

/-- EVC_CLAIM (R575): a target with no claim in service is offered its candidate, once in a cycle; a COX target always claims, a HOSTQ
target where its event ring has room. -/
def execEvcClaim (t : Fin 8) (s : State) : Host.Outcome State Fault Refusal :=
  .next (if s.flag (R.EVC_INSVt_VALID t) then s else
    match s.candidate t with
    | none => s
    | some n => if t.val < 4 ∨ s.ringRoom (0x40 + (t.val - 4)) then s.once (claimKey t) (fun s => s.claim t n) else s)

/-- EVC_CLAIM_READ (R576, R624): the claim is returned; the first read by Cox core t itself is the look. -/
def execEvcClaimRead (w : Who) (t : Fin 4) (s : State) : Host.Outcome State Fault Refusal :=
  .next ((if w = .cox t then s.look t else s).emit (.value w (A.EVC_CLAIMt t) (s.reg (A.EVC_CLAIMt t))))

/-- EVC_DONE_WRITE (R577). -/
def execEvcDoneWrite (w : Who) (t : Fin 4) (d : Word) (s : State) : Host.Outcome State Fault Refusal :=
  .next (s.ownWrite w (A.EVC_DONEt t) d (fun s => s.evcComplete t (wordGet d 0 10)))

/-- EVC_TIMER (R571, R49): while EN is 1 the timer fires in the cycle that reaches a multiple of its period. -/
def execEvcTimer (i : Fin 4) (s : State) : Host.Outcome State Fault Refusal :=
  .next (if s.flag (R.EVC_TMRi_EN i) ∧ s.crossed (s.get (R.EVC_TMRi_PERIOD i) * 1000) then
    s.once (100 + i) (fun s => s.evcAssert (9 + i)) else s)

/-- EVT_IN_FILTER (R570): the pin has held `level` for GF_CYC cycles, and the filtered line takes it. Settling after a restart
is no edge. -/
def execEvtInFilter (i : Fin 16) (level : Bool) (s : State) : Host.Outcome State Fault Refusal :=
  let settled := (tabGet {} s.pins i : PinS).settled
  let mode := s.get (R.EVC_INCFGi_MODE i)
  let edge := settled ∧ s.flag (R.EVC_INCFGi_FILT i) ≠ level ∧ ((mode = 2 ∧ level) ∨ (mode = 3 ∧ ¬ level))
  let s := (s.set (R.EVC_INCFGi_RAW i) (b2n level)).set (R.EVC_INCFGi_FILT i) (b2n level)
  let s := { s with pins := tabSet {} s.pins i { settled := true } }
  .next (if mode ≤ 1 then s.evcLine (16 + i) (level == decide (mode = 0)) else if edge then s.evcAssert (16 + i) else s)

/-- EVT_IN_CFG_WRITE (R570). -/
def execEvtInCfgWrite (w : Who) (i : Fin 16) (d : Word) (s : State) : Host.Outcome State Fault Refusal :=
  .next (s.ownWrite w (A.EVC_INCFGi i) d (fun s => s.incfgWrite i d))

/-- HOLD_OFF_EXPIRY (R579). -/
def execHoldOffExpiry (g : Fin 64) (t : Fin 8) (s : State) : Host.Outcome State Fault Refusal :=
  .next (match tabGet none s.holdOff (8 * g + t) with
    | some e => if e ≤ s.now ∧ s.steady then { s with holdOff := tabSet none s.holdOff (8 * g + t) none } else s
    | none => s)

/-- EVC_PREEMPT_WRITE (R582). -/
def execEvcPreemptWrite (w : Who) (d : Word) (s : State) : Host.Outcome State Fault Refusal :=
  .next (s.ownWrite w A.EVC_PREEMPT d (fun s => s.preemptWrite d))

/-- EVC_PEND_CLEAR (R584). -/
def execEvcPendClear (w : Who) (i : Fin 32) (d : Word) (s : State) : Host.Outcome State Fault Refusal :=
  .next (s.ownWrite w (A.EVC_PENDi i) d (fun s => s.pendClear i d))

/-- EVC_TGT_WRITE (R574). -/
def execEvcTgtWrite (w : Who) (n : Fin 1024) (d : Word) (s : State) : Host.Outcome State Fault Refusal :=
  .next (s.ownWrite w (A.EVC_TGTn n) d (fun s => s.tgtWrite n d))

end Sys2Proof.Machine
end

