-- ==== Sys2Proof/Machine/Operands.lean ====
section
/-!
DEFINITION. The operand forms of ring commands beyond the descriptor's header: the parameter block of an open (R334-R337)
with its reserved fields, its defaults and its entries, flow and feed entries, and host windows (R303).
-/
namespace Sys2Proof.Machine

/-! ## Host windows (R303) -/

/-- The first device address of host window `w`. -/
def State.winBase (s : State) (w : Nat) : Nat := 0x800000000000 + s.get (R.HWINw_BASE_BASE w) * 65536

/-- The bytes of host window `w`. -/
def State.winSize (s : State) (w : Nat) : Nat := s.get (R.HWINw_SIZE_SIZE w) * 65536

/-- The enabled window that holds a whole range of device addresses. -/
def State.window1 (s : State) (a len : Nat) : Option Nat :=
  (List.range 64).find? (fun w => s.flag (R.HWINw_CTL_EN w) && decide (s.winBase w ≤ a) &&
    decide (a + len ≤ s.winBase w + s.winSize w))

/-- A range of device addresses lies wholly in one enabled host window. -/
def State.inWindow (s : State) (a len : Nat) : Bool := (s.window1 a len).isSome

/-- A range of device addresses lies in enabled host windows, of which up to `k` adjoin. -/
def State.inWindows (s : State) : Nat → Nat → Nat → Bool
  | 0, _, _ => false
  | k + 1, a, len =>
    match s.window1 a 1 with
    | none => false
    | some w => let stop := s.winBase w + s.winSize w
                decide (a + len ≤ stop) || s.inWindows k stop (a + len - stop)

/-- The queue pair is in RTS. -/
def State.rts (s : State) (q : Nat) : Bool := decide (s.get (R.QPq_STAT_STATE q) = 1)

/-- The queue pair through which a range of device addresses is reached: its window is enabled and the queue pair is in RTS. -/
def State.reachQp (s : State) (a len : Nat) : Option Nat :=
  match s.window1 a len with
  | some w => if s.rts (s.get (R.HWINw_CTL_QP w)) then some (s.get (R.HWINw_CTL_QP w)) else none
  | none => none

/-! ## Parameter block -/

/-- `w` bits of a block of bytes, held as a number, from bit `lo` of byte `off`. -/
def pget (n off lo w : Nat) : Nat := n / 2 ^ (8 * off + lo) % 2 ^ w

/-- A flow entry (R336) of a block held as a number. -/
def flowAt (n off : Nat) : Flow :=
  { portA := pget n off 0 8, portB := pget n (off + 1) 0 8, pt := pget n (off + 2) 0 7, ts := pget n (off + 3) 0 1 == 1,
    udpA := pget n (off + 4) 0 16, udpB := pget n (off + 6) 0 16, ipA := pget n (off + 8) 0 32, ipB := pget n (off + 12) 0 32,
    ssrc := pget n (off + 16) 0 32 }

/-- A flow entry carries no reserved field and no reserved encoding: PT bit 7, the TS bit of an input flow, bits [7:1] of
byte 3, bytes 20-31, and a port number outside R336 are reserved. -/
def flowClean (n off : Nat) (input : Bool) : Bool :=
  decide (pget n (off + 2) 7 1 = 0) && decide (pget n (off + 3) (if input then 0 else 1) (if input then 8 else 7) = 0) &&
  decide (pget n (off + 20) 0 96 = 0) && decide (pget n off 0 8 ≤ 63) &&
  (decide (pget n (off + 1) 0 8 ≤ 63) || decide (pget n (off + 1) 0 8 = 255))

/-- A feed entry (R337); LOST_N 0 selects the default of 8 (R82). -/
def feedAt (n off : Nat) : FeedP :=
  { feed := pget n off 0 8, fill := pget n (off + 1) 0 1 == 1, bits10 := pget n (off + 2) 0 1 == 1,
    lostN := if pget n (off + 3) 0 8 = 0 then 8 else pget n (off + 3) 0 8,
    x := pget n (off + 4) 0 16, y := pget n (off + 6) 0 16, w := pget n (off + 8) 0 16, h := pget n (off + 10) 0 16,
    tso := signed 32 (pget n (off + 12) 0 32), flow := flowAt n (off + 16) }

/-- A feed entry carries no reserved field and no reserved encoding. -/
def feedClean (n off : Nat) : Bool :=
  decide (pget n (off + 1) 1 7 = 0) && decide (pget n (off + 2) 1 7 = 0) && flowClean n (off + 16) true

/-- A feed entry of which only FEED is read carries no reserved field (R328, R340); its other fields may hold any value. -/
def feedBare (n off : Nat) : Bool :=
  decide (pget n (off + 1) 1 7 = 0) && decide (pget n (off + 2) 1 7 = 0) && decide (pget n (off + 18) 7 1 = 0) &&
  decide (pget n (off + 19) 1 7 = 0) && decide (pget n (off + 36) 0 96 = 0)

/-- The levels of the two codecs up to 6.2, as general_level_idc (R66). PRESUMED (log 7): the values are the standards'. -/
def levelCodes (vvc : Bool) : List Nat :=
  if vvc then [16, 32, 35, 48, 51, 64, 67, 80, 83, 86, 96, 99, 102]
  else [30, 60, 63, 90, 93, 120, 123, 150, 153, 156, 180, 183, 186]

/-- A level's limits in a tier contain a stream (R66, R434): its size and dimensions, its luma sample rate, its bit rate in bit/s and buffer in bits, as
signalled, its slices per picture, its tile columns and its tiles. -/
def levelFits (profile tier l w h pnum pden bitRate cpb slices cols tiles : Nat) : Bool :=
  let m := Config.levelLimit (decide (4 ≤ profile)) l
  let k := Config.vclFactor profile
  decide (w * h ≤ m 0) && decide (w ≤ m 1) && decide (h ≤ m 1) && decide (w * h * pden * 10 ^ 9 ≤ m 2 * pnum) &&
  decide (bitRate ≤ m (3 + tier) * k) && decide (cpb ≤ m (5 + tier) * k) && decide (slices ≤ m 7) && decide (cols ≤ m 8) &&
  decide (tiles ≤ m 9)

/-- The header fields that a stream of each type uses, as (byte, bit, width); every other header bit is reserved (R335). -/
def headerFields (typ : Nat) : List (Nat × Nat × Nat) :=
  let common := [(0x00, 0, 8), (0x03, 4, 2), (0xC0, 0, 21)]
  let coded := [(0x01, 0, 4), (0x03, 0, 4), (0x04, 0, 16), (0x06, 0, 16), (0x08, 0, 8), (0x12, 0, 16), (0x14, 0, 32),
    (0x18, 0, 32), (0x1C, 0, 32), (0x20, 0, 4), (0x21, 0, 4), (0x21, 7, 1)]
  let enc := [(0x09, 0, 8), (0x0A, 0, 8), (0x0B, 0, 4), (0x0C, 0, 16), (0x0E, 0, 16), (0x10, 0, 16), (0x30, 0, 32),
    (0x34, 0, 32), (0x38, 0, 32), (0x3C, 0, 32), (0x40, 0, 32), (0x44, 0, 8), (0x45, 0, 1), (0x60, 0, 24), (0x63, 0, 3),
    (0x64, 0, 192), (0x7C, 0, 32)]
  match typ with
  | 0 => common ++ coded ++ enc ++ [(0x02, 0, 8), (0x80, 0, 256), (0xA0, 0, 256)]
  | 1 => common ++ coded ++ [(0x02, 0, 8), (0x22, 0, 16), (0x48, 0, 8), (0x49, 0, 8), (0x4A, 0, 1), (0x4B, 0, 8),
      (0x4C, 0, 32), (0x50, 0, 32), (0x54, 0, 32), (0x58, 0, 4), (0x59, 0, 8), (0x5A, 0, 8), (0x80, 0, 256)]
  | 2 => common ++ [(0x80, 0, 256), (0xA0, 0, 256)]
  | _ => common ++ coded ++ enc ++ [(0x22, 0, 16), (0x24, 0, 16), (0x28, 0, 48)]

/-- The DEF bits that a type uses (R335). -/
def defBits (typ : Nat) : List Nat :=
  match typ with
  | 1 => [0, 7, 16, 17, 18, 19, 20]
  | 2 => []
  | _ => [0, 1, 2, 3, 4, 5, 6, 7, 8, 9, 10, 11, 12, 13, 14, 15]

/-- The media ports that a flow entry names. -/
def Flow.ports (f : Flow) : List Nat := [f.portA, f.portB]

/-- The header holds no reserved field and no reserved encoding (R334, R335). -/
def headerClean (n : Nat) : Bool :=
  let typ := pget n 0 0 8
  let df := pget n 0xC0 0 32
  let vvc := decide (4 ≤ pget n 1 0 3)
  let lvl := pget n 2 0 8
  let m := dMask (headerFields typ)
  let hdr := n % 2 ^ 2048
  let depth := if pget n 3 2 1 = 1 then 10 else 8
  decide (typ ≤ 3) && decide (Nat.land hdr m = hdr) && (List.range 32).all (fun i => !natBit df i || decide (i ∈ defBits typ)) &&
  (decide (typ = 2) || (decide (pget n 1 0 3 ≤ 5) && decide (pget n 3 0 2 ≤ 2))) &&
  (decide (typ ≠ 0) || (decide (lvl = 0) || decide (lvl ∈ levelCodes vvc))) &&
  (decide (typ ≠ 1) || (decide (lvl ∈ levelCodes vvc) || (decide (lvl = 255) && vvc))) &&
  (decide (typ ≠ 3) || (decide (pget n 0x28 0 16 < 2 ^ depth) && decide (pget n 0x2A 0 16 < 2 ^ depth) &&
    decide (pget n 0x2C 0 16 < 2 ^ depth))) &&
  (decide (typ = 3) || flowClean n 0x80 true) &&
  (decide (typ = 1) || decide (typ = 3) || flowClean n 0xA0 false)

/-- The bytes of one subpicture entry, or of one region entry of a DECODE stream (R337). -/
def regSize (typ : Nat) : Nat := if typ = 1 then 40 else 8

/-- The length that a block declares: the header and its entries (R334). -/
def blockLen (n : Nat) : Nat := 256 + pget n 0x22 0 16 * regSize (pget n 0 0 8) + pget n 0x24 0 16 * 48

/-- The subpicture or region entries of a block. -/
def blockRegs (n : Nat) : List Region :=
  let typ := pget n 0 0 8
  (List.range (pget n 0x22 0 16)).map (fun i =>
    let o := 256 + i * regSize typ
    { x := pget n o 0 16, y := pget n (o + 2) 0 16, w := pget n (o + 4) 0 16, h := pget n (o + 6) 0 16,
      flow := if typ = 1 then flowAt n (o + 8) else {} })

/-- The feed entries of a block. -/
def blockFeeds (n : Nat) : List FeedP :=
  (List.range (pget n 0x24 0 16)).map (fun i => feedAt n (256 + pget n 0x22 0 16 * 8 + i * 48))

/-- Every entry that follows the header is clean (R334). -/
def entriesClean (n : Nat) : Bool :=
  (decide (pget n 0 0 8 ≠ 1) || (List.range (pget n 0x22 0 16)).all (fun i => flowClean n (256 + i * 40 + 8) false)) &&
  (decide (pget n 0 0 8 ≠ 3) || (List.range (pget n 0x24 0 16)).all (fun i => feedClean n (256 + pget n 0x22 0 16 * 8 + i * 48)))

/-- The media ports that a block's flow entries name. -/
def blockPorts (n : Nat) : List Nat :=
  let typ := pget n 0 0 8
  (if typ = 3 then [] else (flowAt n 0x80).ports) ++ (if typ = 0 ∨ typ = 2 then (flowAt n 0xA0).ports else []) ++
  (if typ = 1 then (blockRegs n).flatMap (fun r => r.flow.ports) else []) ++ (if typ = 3 then (blockFeeds n).flatMap (fun f => f.flow.ports) else [])

/-- A parameter with a default takes it where its DEF bit is 1 (R335). -/
def dflt (n bit : Nat) (d v : Nat) : Nat := if natBit (pget n 0xC0 0 32) bit then d else v

/-- The rows of D x T_row - T_row: the bound of FEED_GRACE and IN_GRACE (R78, R218). DESIGN CHOICE (log 37): the manual gives it with D; in frame mode, where a row's
delay is DF x P (R51), D is read as the rows of DF pictures. -/
def graceRows (frame : Bool) (delay nRows : Nat) : Nat := (if frame then delay * nRows else delay) - 1

/-- The parameters of a block, every default applied (R115, R167, R218, R335). `pnum` and `pden` are the period of the named
generator, from which BUF_US, D x T_row and the grace defaults follow. -/
def blockParams (n pnum pden : Nat) : Params :=
  let typ := pget n 0 0 8
  let frame := pget n 3 3 1 == 1
  let h := pget n 6 0 16 + 1
  let nRows := ceilDiv h 64
  let delay := dflt n 0 (if frame then 1 else 4) (pget n 8 0 8)
  let inBr := dflt n 18 (Config.levelLimit (decide (4 ≤ pget n 1 0 3)) (pget n 2 0 8) (3 + pget n 1 3 1)) (pget n 0x50 0 32)
  let br := pget n 0x30 0 32
  let graceMax := graceRows frame delay nRows * pnum / (pden * nRows)
  { typ := typ, profile := pget n 1 0 3, tier := pget n 1 3 1, level := pget n 2 0 8, chroma := pget n 3 0 2,
    bits10 := pget n 3 2 1 == 1, frame := frame, gen := pget n 3 4 2, w := pget n 4 0 16 + 1, h := h, delay := delay,
    nref := dflt n 1 1 (pget n 9 0 8), nh := dflt n 2 2 (pget n 0xA 0 8), keyTrue := pget n 0xB 0 1 == 1,
    keySrc := dflt n 6 7 (pget n 0xB 1 3), refresh := dflt n 3 60 (pget n 0xC 0 16), fast := dflt n 4 4 (pget n 0xE 0 16),
    keyPer := dflt n 5 64 (pget n 0x10 0 16), shelfN := pget n 0x12 0 16, inOfs := pget n 0x14 0 32,
    pace := dflt n 7 20000 (pget n 0x18 0 32),
    grace := if pget n 0x1C 0 32 = 0xFFFFFFFF then min 10000 graceMax else pget n 0x1C 0 32,
    prio := pget n 0x20 0 4, statRing := pget n 0x21 0 4, statEn := pget n 0x21 7 1 == 1, bg := pget n 0x28 0 48,
    br := br, brMax := dflt n 8 br (pget n 0x34 0 32), bufUs := dflt n 9 (2 * ceilDiv pnum (pden * 1000)) (pget n 0x38 0 32),
    margin := dflt n 10 4096 (pget n 0x3C 0 32), qpMin := dflt n 11 10 (pget n 0x40 0 8),
    qpMax := dflt n 12 (if 4 ≤ pget n 1 0 3 then 63 else 51) (pget n 0x41 0 8), qpInit := dflt n 13 32 (pget n 0x42 0 8),
    borrow := dflt n 14 50 (pget n 0x43 0 8), repay := dflt n 15 25 (pget n 0x44 0 8), floorEvt := pget n 0x45 0 1 == 1,
    dpbMax := dflt n 16 6 (pget n 0x48 0 8), refRows := pget n 0x49 0 8,
    pliEn := dflt n 17 1 (pget n 0x4A 0 1) == 1, pliHold := dflt n 17 8 (pget n 0x4B 0 8),
    decTso := signed 32 (pget n 0x4C 0 32), inBrMax := inBr, binMax := dflt n 19 (ceilDiv (4 * inBr) 3000) (pget n 0x54 0 32),
    anc := dflt n 20 0 (pget n 0x58 0 4), ancDid := dflt n 20 0x50 (pget n 0x59 0 8), ancSdid := dflt n 20 0x01 (pget n 0x5A 0 8),
    vui := pget n 0x60 0 24, vuiFlags := pget n 0x63 0 3, mdcv := pget n 0x64 0 192, cll := pget n 0x7C 0 32,
    inFlow := flowAt n 0x80, outFlow := flowAt n 0xA0,
    regs := if typ = 1 ∨ typ = 3 then blockRegs n else [], feeds := if typ = 3 then blockFeeds n else [] }

end Sys2Proof.Machine
end

