-- ==== Sys2Proof/Machine/Rack.lean ====
section
/-!
DEFINITION. The Rack (R197-R217): slot and shelf sizes, marks, allocation at a Stroke, waiting pictures, holds and releases,
retirement and refill.
-/
namespace Sys2Proof.Machine

/-! ## Sizes -/

/-- The CTU rows of a picture: ceil(H / 64) (R50). -/
def Params.nRows (p : Params) : Nat := ceilDiv p.h 64

/-- The CTU columns of a picture. -/
def Params.wCtu (p : Params) : Nat := ceilDiv p.w 64

/-- A coded stream in VVC (R335: profiles 4 and 5). -/
def Params.vvc (p : Params) : Bool := decide (4 ≤ p.profile)

/-- Samples per pixel, doubled: 3, 4 or 6 for 4:2:0, 4:2:2 and 4:4:4 (R89). -/
def Params.spp2 (p : Params) : Nat := match p.chroma with | 0 => 3 | 1 => 4 | _ => 6

/-- The 64 x 4 blocks of the three planes (R198). -/
def Params.blocks (p : Params) : Nat :=
  let cw := if p.chroma = 2 then p.w else ceilDiv p.w 2
  let ch := if p.chroma = 0 then ceilDiv p.h 2 else p.h
  ceilDiv p.w 64 * ceilDiv p.h 4 + 2 * (ceilDiv cw 64 * ceilDiv ch 4)

/-- SLOT_BYTES in units of 64 KiB (R198). -/
def Params.slotUnits (p : Params) : Nat :=
  ceilDiv (p.blocks * (if p.bits10 then 320 else 256) + ceilDiv p.blocks 2) 65536

/-- The span S of R201, with the period PNUM / PDEN. -/
def Params.span (p : Params) (pnum pden : Nat) : Nat :=
  if p.frame then p.delay + 2
  else 1 + ceilDiv (p.inOfs * pden * p.nRows + p.delay * pnum) (pnum * p.nRows)

/-- N_MIN of R201. -/
def Params.nMin (p : Params) (pnum pden : Nat) : Nat :=
  if p.typ = 1 then p.dpbMax + p.span pnum pden + 1 else p.nref + p.span pnum pden

/-- The largest number of Rack slots of the part (R2, R20). -/
def State.maxSlots (s : State) : Nat := if s.part = .ha then 2048 else 4096

/-- The Cellar of the part in units of 64 KiB (R2, R20). -/
def State.cellarUnits (s : State) : Nat := if s.part = .ha then 589824 else 1179648

/-- The stretches of the Cellar in use by slots and lofts, and those lost (R514), as start and length in units of 64 KiB, by rising start (R197). -/
def State.cellarSpans (s : State) : List (Nat × Nat) :=
  let slots : List (Nat × Nat) := s.slotSz.map (fun e => (s.get (R.SLOTs_ADDR_BASE e.1), e.2))
  let lofts : List (Nat × Nat) := s.streams.filterMap (fun e => if e.2.loft = 0 then none else some (e.2.loftAt, ceilDiv e.2.loft 65536))
  (slots ++ lofts ++ s.lost.map (fun a => (a / 65536, 1))).foldl
    (fun l e => insertBy (fun (a b : Nat × Nat) => decide (a.1 < b.1)) e l) []

/-- The free stretches between stretches in use, from `at_` to `stop`. -/
def gapsFrom : Nat → Nat → List (Nat × Nat) → List (Nat × Nat)
  | at_, stop, [] => if at_ < stop then [(at_, stop - at_)] else []
  | at_, stop, e :: l => (if at_ < e.1 then [(at_, e.1 - at_)] else []) ++ gapsFrom (max at_ (e.1 + e.2)) stop l

/-- The free stretches of the Cellar. -/
def State.cellarGaps (s : State) : List (Nat × Nat) := gapsFrom 0 s.cellarUnits s.cellarSpans

/-- How many pieces of `units` the free Cellar holds. -/
def State.cellarFits (s : State) (units : Nat) : Nat := s.cellarGaps.foldl (fun k g => k + g.2 / units) 0

/-- Where firmware places a piece of the Cellar: at the start of a free stretch that holds it, which of them is firmware's choice, a
free value. -/
def State.cellarPlace (s : State) (units : Nat) : Nat × State :=
  let l := s.cellarGaps.filter (fun g => decide (units ≤ g.2))
  let (b, s) := s.draw 21
  (((l[b % max 1 l.length]?).getD (0, 0)).1, s)

/-! ## Slots -/

/-- The slots of a stream's shelf, by rising number: the listed SLOTs_MARK registers that are SHELVED for the stream. -/
def State.shelf (s : State) (n : Nat) : List Nat :=
  s.regs.filterMap (fun e =>
    if 0x318000 ≤ e.1 ∧ e.1 < 0x320000 ∧ e.1 % 8 = 4 ∧ wordGet e.2 6 1 = 1 ∧ wordGet e.2 16 7 = n
    then some ((e.1 - 0x318000) / 8) else none)

/-- A slot is free (R205): its six marks are clear, it is on a shelf, it is not retired, no retirement waits for it, and no read of it as the CONCEAL_SRC slot returns in this cycle (R234). -/
def State.slotIsFree (s : State) (i : Nat) : Bool :=
  decide (s.get ⟨A.SLOTs_MARK i, 0, 6⟩ = 0) && s.flag (R.SLOTs_MARK_SHELVED i) && !s.flag (R.SLOTs_MARK_RETIRED i) &&
  !decide (i ∈ s.retPend) &&
  !(s.strm (s.get (R.SLOTs_MARK_STREAM i))).dec.srcHeld.any (fun e => e.1 == i && decide (s.cyc ≤ e.2))

/-- The lowest-numbered free slot of a shelf (R206). -/
def State.freeSlot (s : State) (n : Nat) : Option Nat := (s.shelf n).find? (fun i => s.slotIsFree i)

/-- The slot of a shelf that holds picture `pic` under some mark. -/
def State.slotOf (s : State) (n pic : Nat) : Option Nat :=
  (s.shelf n).find? (fun i => s.slotPicOf i == some pic && decide (s.get ⟨A.SLOTs_MARK i, 0, 6⟩ ≠ 0))

/-- A slot is unassigned: on no shelf, not held, not retired, within the part's slots (R197). -/
def State.unassigned (s : State) (i : Nat) : Bool :=
  decide (i < s.maxSlots) && !s.flag (R.SLOTs_MARK_SHELVED i) && !s.flag (R.SLOTs_MARK_HOST_HOLD i) &&
  !s.flag (R.SLOTs_MARK_RETIRED i) && !decide (i ∈ s.retPend)

/-- The number of unassigned slots. -/
def State.unassignedCount (s : State) : Nat :=
  let taken := fun (v : Word) => wordGet v 6 1 == 1 || wordGet v 4 1 == 1 || wordGet v 7 1 == 1
  s.maxSlots - ((s.regs.filter (fun e => decide (0x318000 ≤ e.1) && decide (e.1 < 0x320000) && decide (e.1 % 8 = 4) && taken e.2)).length +
    (s.retPend.eraseDups.filter (fun i => !taken (s.reg (A.SLOTs_MARK i)))).length)

/-- RACK_FREE shows the slots with a base address that are neither on a shelf, held nor retired (R215). -/
def State.rackFree (s : State) : State :=
  s.set R.RACK_FREE_COUNT (s.regs.filter (fun e => decide (0x318000 ≤ e.1) && decide (e.1 < 0x320000) && decide (e.1 % 8 = 0) &&
    (wordGet e.2 31 1 == 1) && s.unassigned ((e.1 - 0x318000) / 8))).length

/-- Cox firmware assigns a slot to a shelf (R197): its base lies in the free Cellar, where no other slot and no loft lies. -/
def State.assignSlot (s : State) (n i units : Nat) : State :=
  let (b, s) := s.cellarPlace units
  let s := (s.set (R.SLOTs_ADDR_BASE i) b).set (R.SLOTs_ADDR_VALID i) 1
  let s := (s.set (R.SLOTs_MARK_SHELVED i) 1).set (R.SLOTs_MARK_STREAM i) n
  { s with slotSz := tabSet 0 s.slotSz i units }.rackFree

/-- A slot returns to the unassigned pool; STREAM keeps the stream that last held it. One whose retirement waits keeps its size. DESIGN CHOICE (log
129): SLOTs_ADDR.UCE is a count of the slot's number, which the manual clears nowhere, and stays when the slot is assigned again elsewhere. -/
def State.unassignSlot (s : State) (i : Nat) : State :=
  let s := (s.set ⟨A.SLOTs_MARK i, 0, 7⟩ 0).setSlotPic i none
  { s with slotSz := if i ∈ s.retPend then s.slotSz else tabSet 0 s.slotSz i 0, slotNref := tabSet 0 s.slotNref i 0,
           slotC := tabSet {} s.slotC i {} }.rackFree

/-- Cox firmware makes a shelf of `k` slots for stream `n`, from the lowest-numbered unassigned slots (R200). -/
def State.makeShelf (s : State) (n k units nMin : Nat) : State :=
  let s := ((List.range s.maxSlots).filter (fun i => s.unassigned i)).take k |>.foldl (fun s i => s.assignSlot n i units) s
  let s := (s.set (R.SHLFn_CFG_N n) k).set (R.SHLFn_CFG_NMIN n) nMin
  let s := (s.set (R.SHLFn_SLOTSZ_UNITS n) units).set (R.SHLFn_HOLD_SPARE n) (k - nMin)
  s.set (R.SHLFn_HOLD_HOLDS n) 0

/-- RACK_STAT.WAIT shows whether any shelf has a waiting picture (R215). -/
def State.rackWaitFlag (s : State) : State :=
  s.set R.RACK_STAT_WAIT (b2n ((List.range 128).any (fun n => s.flag (R.SHLFn_STAT_WAIT n))))

/-- The slot numbers of a picture's references: the slots of the pictures its lists name (R109, R206). DESIGN CHOICE (log 129): 0 where the picture has
no such reference, for which the manual gives no number. -/
def State.refSlots (s : State) (n : Nat) (refs : List Nat) : Nat × Nat :=
  ((refs[0]?.bind (s.slotOf n)).getD 0, (refs[1]?.bind (s.slotOf n)).getD 0)

/-! ## The contents of a slot (R199, R212) -/

/-- The width and height of plane `p` (0 luma, 1 Cb, 2 Cr), of `w` x `h` luma samples. -/
def planeDim (chroma p w h : Nat) : Nat × Nat :=
  if p = 0 then (w, h) else (if chroma = 2 then w else ceilDiv w 2, if chroma = 0 then ceilDiv h 2 else h)

/-- The sample of a plane of a slot's picture, where its CTU has been written. -/
def SlotC.sample (c : SlotC) (p x y : Nat) : Option Nat :=
  let u := planeDim c.chroma p 64 64
  match c.ctus.find? (fun k => k.x == x / u.1 && k.row == y / u.2) with
  | none => none
  | some k =>
    let d := fun (p : Nat) => planeDim c.chroma p (min 64 (c.w - 64 * k.x)) (min 64 (c.h - 64 * k.row))
    let before := (List.range p).foldl (fun n q => n + (d q).1 * (d q).2) 0
    k.samples[before + y % u.2 * (d p).1 + x % u.1]?

/-- The bytes of one packed line of a plane, by the line_bytes rule (R89, R212). -/
def SlotC.lineBytes (c : SlotC) (p : Nat) : Nat :=
  ceilDiv ((planeDim c.chroma p c.w c.h).1 * (if c.bits10 then 10 else 8)) 512 * 64

/-- The bytes of a plane's packed lines. -/
def SlotC.planeBytes (c : SlotC) (p : Nat) : Nat := (planeDim c.chroma p c.w c.h).2 * c.lineBytes p

/-- The bytes of a slot's packed planes: luma, Cb, Cr. -/
def SlotC.size (c : SlotC) : Nat := if c.w = 0 then 0 else c.planeBytes 0 + c.planeBytes 1 + c.planeBytes 2

/-- Byte `k` of a packed line: 8-bit samples in one byte, 10-bit samples four to 5 bytes, the first in the lowest bits (PRESUMED (log 82)). None
where a sample has not been written, and beyond the line's end. -/
def SlotC.lineByte (c : SlotC) (p y k : Nat) : Option Byte :=
  let w := (planeDim c.chroma p c.w c.h).1
  if ¬ c.bits10 then (if k < w then (c.sample p k y).map (BitVec.ofNat 8) else none) else
  let bit := 8 * (k % 5)
  let get := fun (i : Nat) => if 4 * (k / 5) + i < w then c.sample p (4 * (k / 5) + i) y else some 0
  if w ≤ 4 * (k / 5) then none else
  match get (bit / 10), get (min 3 (bit / 10 + 1)) with
  | some a, some b => some (BitVec.ofNat 8 ((a % 1024 + b % 1024 * 1024) / 2 ^ (bit % 10)))
  | _, _ => none

/-- Byte `off` of a slot's packed planes. -/
def SlotC.byte (c : SlotC) (off : Nat) : Option Byte :=
  let in_ := fun (p off : Nat) => c.lineByte p (off / c.lineBytes p) (off % c.lineBytes p)
  if c.size ≤ off then none
  else if off < c.planeBytes 0 then in_ 0 off
  else if off < c.planeBytes 0 + c.planeBytes 1 then in_ 1 (off - c.planeBytes 0)
  else in_ 2 (off - c.planeBytes 0 - c.planeBytes 1)

/-- Bytes of a slot's packed planes as a copy of them reads (R212). -/
def SlotC.bytes (c : SlotC) (off n : Nat) : List Byte :=
  (List.range n).map (fun i => (c.byte (off + i)).getD (Config.slotByte c.seed (off + i)))

/-- L of a block of a plane (R199): the 32-byte granules that its stored form takes, from 1 to raw; its tag. What a block compresses to is a
free value, and reading restores the block bit for bit. -/
def SlotC.blockLen (c : SlotC) (p bx by_ : Nat) : Nat :=
  let raw := if c.bits10 then 10 else 8
  let l := (List.range 256).filterMap (fun i => c.sample p (64 * bx + i % 64) (4 * by_ + i / 64))
  max 1 (min raw (Config.packedLen l))

def State.slotCont (s : State) (i : Nat) : SlotC := tabGet {} s.slotC i

/-- A sample of a slot: what stands there, else a free value. -/
def SlotC.value (c : SlotC) (p x y : Nat) : Nat := (c.sample p x y).getD (Config.slotSample [c.seed, p, x, y])

/-- The samples of the CTU at column `x`, row `row`, of a plane, line by line. -/
def SlotC.ctuPlane (c : SlotC) (p x row : Nat) : List Nat :=
  let u := planeDim c.chroma p 64 64
  let d := planeDim c.chroma p (min 64 (c.w - 64 * x)) (min 64 (c.h - 64 * row))
  (List.range (d.1 * d.2)).map (fun i => c.value p (u.1 * x + i % d.1) (u.2 * row + i / d.1))

/-- A plane of a CTU is written into its slot, its last lines provisional unless `fin` (R98, R199); the other planes stay. -/
def SlotC.write (c : SlotC) (x row plane : Nat) (samples : List Nat) (fin : Bool) : SlotC :=
  let here := fun (k : SlotCtu) => k.x == x && k.row == row
  let old := c.ctus.find? here
  let prov := ((old.map (fun k => k.prov)).getD []).filter (fun p => p != plane)
  let l := [0, 1, 2].flatMap (fun p =>
    let was := c.ctuPlane p x row
    if p = plane then samples.take was.length ++ was.drop samples.length else was)
  { c with ctus := { x := x, row := row, samples := l, prov := if fin then prov else plane :: prov,
                     conc := (old.map (fun k => k.conc)).getD false } :: c.ctus.filter (fun k => !here k) }

/-- The samples of a rectangle, in luma samples, are replaced by concealed ones (R233). -/
def SlotC.overlay (c : SlotC) (rx ry rw rh : Nat) (f : Nat → Nat → Nat → Nat) : SlotC :=
  let areas := (List.range (ceilDiv (rx % 64 + rw) 64 * ceilDiv (ry % 64 + rh) 64)).map (fun i =>
    (rx / 64 + i % ceilDiv (rx % 64 + rw) 64, ry / 64 + i / ceilDiv (rx % 64 + rw) 64))
  areas.foldl (fun c a =>
    let l := [0, 1, 2].flatMap (fun p =>
      let u := planeDim c.chroma p 64 64
      let d := planeDim c.chroma p (min 64 (c.w - 64 * a.1)) (min 64 (c.h - 64 * a.2))
      (List.range (d.1 * d.2)).map (fun i =>
        let x := u.1 * a.1 + i % d.1
        let y := u.2 * a.2 + i / d.1
        let lx := x * (64 / u.1)
        let ly := y * (64 / u.2)
        if rx ≤ lx ∧ lx < rx + rw ∧ ry ≤ ly ∧ ly < ry + rh then f p x y else c.value p x y))
    { c with ctus := { x := a.1, row := a.2, samples := l, prov := [], conc := true } ::
                     c.ctus.filter (fun k => !(k.x == a.1 && k.row == a.2)) }) c

/-- The provisional lines of a plane of a CTU, the last eight of luma or those of chroma that match them, are rewritten as final (R98). -/
def SlotC.finish (c : SlotC) (x row plane : Nat) (lines : List Nat) : SlotC :=
  let keep := planeDim c.chroma plane (min 64 (c.w - 64 * x)) (min 56 (c.h - 64 * row))
  if c.ctus.any (fun k => k.x == x && k.row == row && k.prov.contains plane) then
    c.write x row plane ((c.ctuPlane plane x row).take (keep.1 * keep.2) ++ lines) true
  else c

/-- The search-cache lines of a slot are no more: its picture changes (R97). -/
def cacheDrop (slot : Nat) (t : Tab (List (Nat × Nat × Nat))) : Tab (List (Nat × Nat × Nat)) :=
  tabMap (fun _ => []) (fun _ l => l.filter (fun x => x.1 != slot)) t

/-! ## Holds (R209, R216) -/

/-- SHLFn_HOLD shows the slots of the shelf with HOST_HOLD. -/
def State.holdShow (s : State) (n : Nat) : State :=
  s.set (R.SHLFn_HOLD_HOLDS n) ((s.shelf n).filter (fun i => s.flag (R.SLOTs_MARK_HOST_HOLD i))).length

/-- The holds that a shelf carries: its held slots, and the holds accepted for pictures that wait for a slot. -/
def State.holdCount (s : State) (n : Nat) : Nat :=
  ((s.shelf n).filter (fun i => s.flag (R.SLOTs_MARK_HOST_HOLD i))).length +
  (((s.strm n).pics.filter (fun p => p.waiting && s.owed.any (fun o => o.wait == .hold n p.n)))).length

/-- The slots of a shelf that have lost their last mark since `old`, in this cycle (R207). -/
def State.noteFreed (s old : State) (n : Nat) : State :=
  { s with freed := s.freed ++ (s.shelf n).filter (fun i =>
      decide (s.get ⟨A.SLOTs_MARK i, 0, 6⟩ = 0) && decide (old.get ⟨A.SLOTs_MARK i, 0, 6⟩ ≠ 0)) }

/-- A slot starts empty for a picture of a stream: the picture's size and form, free contents, and no line of it in a search cache. -/
def State.slotStart (s : State) (n slot nref : Nat) : State :=
  let q := (s.strm n).p
  { s with slotNref := tabSet 0 s.slotNref slot nref, freed := s.freed.filter (fun i => i != slot), scache := cacheDrop slot s.scache,
           slotC := tabSet {} s.slotC slot { w := q.w, h := q.h, chroma := q.chroma, bits10 := q.bits10, seed := s.freeCtr },
           freeCtr := s.freeCtr + 1 }

/-- A picture takes a slot (R206): CODING and, for encode, REF_SHORT are set, and the slot numbers go into its record. A hold
that waits for the picture sets HOST_HOLD in the same cycle (R209). A picture that has waited takes the marks that its header gave it
(R204), and what refers to it counts as if it had not waited (R203). DESIGN CHOICE (log 129): SHLFn_STAT.WSLOT shows the slot taken last, also
where the picture of the most recent Stroke still waits. -/
def State.takeSlot (s : State) (n slot : Nat) (p : Pic) : State × Pic :=
  let enc := (s.strm n).p.typ ≠ 1
  let s := (s.set (R.SLOTs_MARK_CODING slot) 1).setSlotPic slot (some p.n)
  let s := s.slotStart n slot p.nrefAt
  let s := if enc ∨ p.refDue ∨ false ∈ p.marks then s.set (R.SLOTs_MARK_REF_SHORT slot) 1 else s
  let s := if true ∈ p.marks then s.set (R.SLOTs_MARK_REF_LONG slot) 1 else s
  let s := if s.owed.any (fun o => o.wait == .hold n p.n) then (s.set (R.SLOTs_MARK_HOST_HOLD slot) 1).holdShow n else s
  let r := s.refSlots n p.refs
  let s := s.set (R.SHLFn_STAT_WSLOT n) slot
  (s, { p with waiting := false, refDue := false, marks := [], record := { p.record with wslot := slot, ref0 := r.1, ref1 := r.2 } })

/-- A picture at its Stroke takes the lowest free slot, or waits (R206, R208); a picture that waits already takes a slot before it. A
slot freed later in the same cycle is still allocated at once, so the wait shows when the cycle ends. -/
def State.allocate (s : State) (n : Nat) (p : Pic) : State × Pic :=
  match (if (s.strm n).pics.any (fun q => q.waiting) then none else s.freeSlot n) with
  | some i => s.takeSlot n i p
  | none => ({ s with waitDue := s.waitDue ++ [(n, p.n)] }, { p with waiting := true })

/-- The cycle ends (R208): each picture that found no slot in it and has none yet raises WAIT, RACK_WAIT and its Tally message. -/
def State.waitShow (s : State) : State :=
  s.waitDue.foldl (fun s e =>
    if (s.strm e.1).pics.any (fun p => decide (p.n = e.2) && p.waiting) then
      (((s.set (R.SHLFn_STAT_WAIT e.1) 1).set R.RACK_STAT_WAIT 1).streamEvent e.1 .rackWait e.2).send 0x582 0x40 0 e.1
    else s) { s with waitDue := [] }

/-- One cycle of CK_TIME passes with no command in it: what the cycle's end decides, then the next cycle (R31). -/
def State.idleStep (s : State) : State := s.waitShow.tick

/-- Picture `m` of a stream has completed: its Stroke has fired and it is not in flight. -/
def StreamS.complete (t : StreamS) (m : Nat) : Bool :=
  decide (m < t.nextPic) && t.pics.all (fun p => decide (p.n ≠ m) || p.fin.isSome)

/-- The release rule of encode references (R203): REF_SHORT of picture m clears when pictures m + 1 to m + NREF have all
completed, with the NREF in force at the Stroke of picture m + 1. -/
def State.releaseRefs (s : State) (n : Nat) : State :=
  let t := s.strm n
  (s.shelf n).foldl (fun s i =>
    match s.slotPicOf i with
    | none => s
    | some m =>
      let k := tabGet 0 s.slotNref i
      if k ≠ 0 ∧ (List.range k).all (fun j => t.complete (m + 1 + j)) then s.set (R.SLOTs_MARK_REF_SHORT i) 0 else s) s

/-- A picture's last job completes: CODING clears (R202), and a hold of it completes with its slot number (R209). -/
def State.codingDone (s : State) (n pic : Nat) : State :=
  match (s.shelf n).find? (fun i => s.slotPicOf i == some pic && s.flag (R.SLOTs_MARK_CODING i)) with
  | none => s
  | some i => (s.set (R.SLOTs_MARK_CODING i) 0).settle (.hold n pic) St.ok i

/-- A stream reaches OFF (R86, R211): held slots leave the shelf and stay held, every other slot is unassigned. -/
def State.dropShelf (s : State) (n : Nat) : State :=
  let s := (s.shelf n).foldl (fun s i =>
    if s.flag (R.SLOTs_MARK_HOST_HOLD i) then
      (s.set ⟨A.SLOTs_MARK i, 0, 4⟩ 0).set ⟨A.SLOTs_MARK i, 5, 2⟩ 0
    else s.unassignSlot i) s
  let s := (s.setReg (A.SHLFn_CFG n) 0).setReg (A.SHLFn_SLOTSZ n) 0
  ((s.setReg (A.SHLFn_HOLD n) 0).setReg (A.SHLFn_STAT n) 0).rackWaitFlag.rackFree

/-! ## The commands -/

/-- SLOT_RETIRE (R213, R550, R565): a slot whose retirement waits retires once its marks are clear. -/
def execSlotRetire (i : Fin 4096) (s : State) : Host.Outcome State Fault Refusal :=
  .next (if i.val ∈ s.retPend ∧ s.get ⟨A.SLOTs_MARK i, 0, 6⟩ = 0 then
    let n := s.get (R.SLOTs_MARK_STREAM i)
    let sz := tabGet 0 s.slotSz i
    let shelved := s.flag (R.SLOTs_MARK_SHELVED i)
    let s := { s with retPend := s.retPend.filter (fun x => x != i.val) }
    let s := (s.set (R.SLOTs_MARK_RETIRED i) 1).set (R.SLOTs_MARK_SHELVED i) 0
    let s := if shelved then
        let k := s.get (R.SHLFn_CFG_N n) - 1
        (s.set (R.SHLFn_CFG_N n) k).set (R.SHLFn_HOLD_SPARE n) (k - s.get (R.SHLFn_CFG_NMIN n))
      else s
    let s := ((s.addSat R.RACK_STAT_RETIRED 1).addSat R.RACK_LOST_UNITS sz).rackFree
    (s.send 0x582 0x0B i).replace 4
  else s)

/-- SHELF_REFILL (R214, R216): firmware adds unassigned slots up to the shelf's size at open, in an order that it chooses; a shelf that falls below
N_MIN lowers NREF to 1 from the next Stroke, shows SHORT and raises RACK_SHORT with the index of the next picture. DESIGN CHOICE (log 129): NMIN and
SPARE keep the N_MIN of the open, and NREF stays 1 for the rest of the stream, also after a refill to N_MIN. -/
def execShelfRefill (n : Fin 128) (slots : List (Fin 4096)) (s : State) : Host.Outcome State Fault Refusal :=
  .next (let t := s.strm n
    let full := if t.p.shelfN = 0 then s.get (R.SHLFn_CFG_NMIN n) else t.p.shelfN
    let have_ := s.get (R.SHLFn_CFG_N n)
    if s.get (R.STRMn_STATE_STATE n) = 0 ∨ full ≤ have_ then s else
    let units := s.get (R.SHLFn_SLOTSZ_UNITS n)
    let free := ((slots.map Fin.val ++ List.range s.maxSlots).filter (fun i => s.unassigned i)).eraseDups
    let add := free.take (min (full - have_) (s.cellarFits units))
    let s := add.foldl (fun s i => s.assignSlot n i units) s
    let k := have_ + add.length
    let nm := s.get (R.SHLFn_CFG_NMIN n)
    let s := (s.set (R.SHLFn_CFG_N n) k).set (R.SHLFn_HOLD_SPARE n) (k - nm)
    if nm ≤ k then s.set (R.SHLFn_STAT_SHORT n) 0
    else if s.flag (R.SHLFn_STAT_SHORT n) then s
    else
      let s := s.updStrm n (fun t => { t with nref := 1 })
      (s.set (R.SHLFn_STAT_SHORT n) 1).streamEvent n .rackShort t.nextPic)

/-- HOLD (R207, R209, R345): a slot whose last other mark cleared in this cycle is still the picture's. -/
def execHold (c : Cmd) (s : State) : Host.Outcome State Fault Refusal :=
  let n := dIdx c.desc
  let pic := dget c.desc 16 0 64
  .next (s.begin c 0x08 true (dSub c.desc = 0 ∧ dClean c.desc [(16, 0, 64)]) [1] none (fun s o =>
    let t := s.strm n
    if s.get (R.STRMn_STATE_TYPE n) = 2 then s.complete o St.wrongType else
    if s.get (R.SHLFn_HOLD_SPARE n) ≤ s.holdCount n then s.complete o St.shelfFull else
    if t.nextPic ≤ pic then s.complete o St.picGone else
    if t.pics.any (fun p => p.n = pic ∧ p.waiting) then s.await o (.hold n pic) else
    match (s.shelf n).find? (fun i => s.slotPicOf i == some pic && (decide (s.get ⟨A.SLOTs_MARK i, 0, 6⟩ ≠ 0) || decide (i ∈ s.freed))) with
    | none => s.complete o St.picGone
    | some i =>
      let s := ({ s with freed := s.freed.filter (fun j => j != i) }.set (R.SLOTs_MARK_HOST_HOLD i) 1).holdShow n
      if s.flag (R.SLOTs_MARK_CODING i) then s.await o (.hold n pic) else s.complete o St.ok i))

/-- RELEASE (R210, R211, R345): the hold is cleared, a hold of the slot that has not completed completes first (R209), and a
slot that has left its shelf returns to the unassigned pool. -/
def execRelease (c : Cmd) (s : State) : Host.Outcome State Fault Refusal :=
  let i := dget c.desc 16 0 16
  .next (s.begin c 0x09 true (dSub c.desc = 0 ∧ dClean c.desc [(16, 0, 16)] ∧ i < 4096) [0] none (fun s o =>
    if ¬ s.flag (R.SLOTs_MARK_HOST_HOLD i) then s.complete o St.notHeld else
    let s0 := s
    let s := s.set (R.SLOTs_MARK_HOST_HOLD i) 0
    let n := s.get (R.SLOTs_MARK_STREAM i)
    if s.flag (R.SLOTs_MARK_SHELVED i) then
      let s := (s.noteFreed s0 n).holdShow n
      let s := match s.slotPicOf i with
        | some pic => s.settle (.hold n pic) St.ok i
        | none => s
      s.complete o St.ok
    else (s.unassignSlot i).complete o St.ok))

end Sys2Proof.Machine
end

