-- ==== Sys2Proof/Machine/Frames.lean ====
section
/-!
DEFINITION. Received frames as bytes (R399, R408, R409, R413, R417, R419, R420): Ethernet, IPv4, UDP and RTP headers with their checks, ARP,
IGMP and RTCP, the sample rows of ST 2110-20, and the packet types of the coded payload formats. PRESUMED (log 119): the manual names the standards'
formats and does not restate them.
-/
namespace Sys2Proof.Machine

/-! ## Ethernet, IPv4 and UDP -/

/-- A frame's Ethernet header: destination and source, the tag as PCP and VID, the EtherType, and what follows it. -/
structure EthIn where
  dst  : Nat
  src  : Nat
  tag  : Option (Nat × Nat)
  et   : Nat
  rest : List Byte
  deriving DecidableEq, Repr

def ethIn (b : List Byte) : EthIn :=
  let tagged : Bool := decide (beNat (slice b 12 2) = 0x8100)
  let o := if tagged then 4 else 0
  let tci := beNat (slice b 14 2)
  { dst := beNat (slice b 0 6), src := beNat (slice b 6 6), tag := if tagged then some (tci / 2 ^ 13, tci % 2 ^ 12) else none,
    et := beNat (slice b (12 + o) 2), rest := b.drop (14 + o) }

/-- The ones' complement sum of 16-bit words, an odd last byte padded with zero. -/
def onesSum : List Byte → Nat
  | [] => 0
  | [a] => 256 * a.toNat
  | a :: b :: r => let n := 256 * a.toNat + b.toNat + onesSum r; n % 65536 + n / 65536

/-- An IPv4 packet: its addresses and protocol, whether its header checksum is right, and what it carries. -/
structure IpIn where
  src   : Nat
  dst   : Nat
  proto : Nat
  sumOk : Bool
  rest  : List Byte
  deriving DecidableEq, Repr

/-- The IPv4 packet of a frame; a fragment carries no header that could be read. -/
def ipIn (e : EthIn) : Option IpIn :=
  let b := e.rest
  let n := 4 * (beNat (slice b 0 1) % 16)
  let len := beNat (slice b 2 2)
  if e.et ≠ 0x0800 ∨ beNat (slice b 0 1) / 16 ≠ 4 ∨ n < 20 ∨ len < n ∨ b.length < len ∨ beNat (slice b 6 2) % 2 ^ 14 ≠ 0 then none else
  some { src := beNat (slice b 12 4), dst := beNat (slice b 16 4), proto := beNat (slice b 9 1),
         sumOk := decide (onesSum (b.take n) = 0xFFFF), rest := (b.take len).drop n }

/-- A UDP datagram over IPv4: its addresses and ports, whether both checksums are right, a UDP checksum of 0 counting as none, and what it carries. -/
structure UdpIn where
  srcIp : Nat
  dstIp : Nat
  sport : Nat
  dport : Nat
  sumOk : Bool
  data  : List Byte
  deriving DecidableEq, Repr

def udpIn (e : EthIn) : Option UdpIn :=
  match ipIn e with
  | none => none
  | some i =>
    let len := beNat (slice i.rest 4 2)
    if i.proto ≠ 17 ∨ len < 8 ∨ i.rest.length < len then none else
    let pseudo := beBytes 4 i.src ++ beBytes 4 i.dst ++ beBytes 2 17 ++ beBytes 2 len
    some { srcIp := i.src, dstIp := i.dst, sport := beNat (slice i.rest 0 2), dport := beNat (slice i.rest 2 2),
           sumOk := i.sumOk && (decide (beNat (slice i.rest 6 2) = 0) || decide (onesSum (pseudo ++ i.rest.take len) = 0xFFFF)),
           data := (i.rest.take len).drop 8 }

/-! ## ARP and IGMP (R400) -/

/-- An ARP request: its target, and its sender's IPv4 and MAC addresses. -/
def arpIn (e : EthIn) : Option (Nat × Nat × Nat) :=
  if e.et = 0x0806 ∧ beNat (slice e.rest 6 2) = 1 then
    some (beNat (slice e.rest 24 4), beNat (slice e.rest 14 4), beNat (slice e.rest 8 6))
  else none

/-- An IGMP message: a membership query with its group (0: general), or another message. -/
def igmpIn (e : EthIn) : Option (Option Nat) :=
  match ipIn e with
  | some i => if i.proto ≠ 2 then none else some (if beNat (slice i.rest 0 1) = 0x11 then some (beNat (slice i.rest 4 4)) else none)
  | none => none

/-! ## PTP (R408, R425) -/

/-- A PTP message: over Ethernet, or over UDP to port 319 or 320. -/
def ptpIn (e : EthIn) : Option (List Byte) :=
  if e.et = 0x88F7 then some e.rest else
  match udpIn e with
  | some u => if u.dport = 319 ∨ u.dport = 320 then some u.data else none
  | none => none

/-- An event message: Sync, Delay_Req, Pdelay_Req or Pdelay_Resp. -/
def ptpEvent (m : List Byte) : Bool := decide (beNat (slice m 0 1) % 16 < 4)

/-- The domain of a message. -/
def ptpDomain (m : List Byte) : Nat := beNat (slice m 4 1)

/-! ## RTP (R409) -/

/-- An RTP packet. -/
structure RtpIn where
  pt   : Nat
  seq  : Nat
  ts   : Nat
  ssrc : Nat
  rest : RtpRest
  data : List Byte
  deriving DecidableEq, Repr

/-- The RTP packet of a datagram whose header passes R409: version 2, and a length that holds what it declares. -/
def rtpIn (d : List Byte) : Option RtpIn :=
  let b := beNat (slice d 0 1)
  let o := 12 + 4 * (b % 16)
  let xl := if natBit b 4 then 4 + 4 * beNat (slice d (o + 2) 2) else 0
  let pl := if natBit b 5 then beNat (slice d (d.length - 1) 1) else 0
  if b / 64 ≠ 2 ∨ d.length < o + min xl 4 ∨ d.length < o + xl + pl ∨ (natBit b 5 ∧ pl = 0) then none else
  let m := beNat (slice d 1 1)
  some { pt := m % 128, seq := beNat (slice d 2 2), ts := beNat (slice d 4 4), ssrc := beNat (slice d 8 4),
         rest := { marker := natBit m 7, csrc := (List.range (b % 16)).map (fun i => BitVec.ofNat 32 (beNat (slice d (12 + 4 * i) 4))),
                   ext := if natBit b 4 then some (slice d o xl) else none },
         data := (d.take (d.length - pl)).drop (o + xl) }

/-! ## RTCP (R122, R420) -/

/-- A feedback message: a PLI with the SSRC it names, or a FIR with the SSRC and the sequence number of each of its FCI entries. -/
inductive RtcpFb where
  | pli (ssrc : Nat)
  | fir (fci : List (Nat × Nat))
  deriving DecidableEq, Repr

/-- The PLI and FIR messages of an RTCP packet, compound or reduced-size; others are ignored. -/
def rtcpIn : Nat → List Byte → List RtcpFb
  | 0, _ => []
  | k + 1, d =>
    let len := 4 * (beNat (slice d 2 2) + 1)
    let b := beNat (slice d 0 1)
    if d.length < 8 ∨ d.length < len ∨ b / 64 ≠ 2 then [] else
    let fmt := b % 32
    (if beNat (slice d 1 1) ≠ 206 then []
     else if fmt = 1 ∧ 12 ≤ len then [.pli (beNat (slice d 8 4))]
     else if fmt = 4 then [.fir ((List.range ((len - 12) / 8)).map (fun i => (beNat (slice d (12 + 8 * i) 4), beNat (slice d (16 + 8 * i) 1))))]
     else []) ++ rtcpIn k (d.drop len)

/-! ## ST 2110-20 (R413) -/

/-- A pixel group of ST 2110-20: its pixels along a line and its octets, by format. -/
def Params.pgroup (p : Params) : Nat × Nat :=
  match p.chroma, p.bits10 with
  | 0, false => (4, 6)
  | 0, true => (8, 15)
  | 1, false => (2, 4)
  | 1, true => (2, 5)
  | _, false => (1, 3)
  | _, true => (4, 15)

/-- The format of a feed's samples (R76): the stream's, at the feed's bit depth. -/
def Params.feedFormat (p : Params) (f : FeedP) : Params := { p with bits10 := f.bits10 }

/-- The lines that a pixel group covers: two of a 4:2:0 picture. -/
def Params.groupLines (p : Params) : Nat := if p.chroma = 0 then 2 else 1

/-- A sample row data header: its length, the field bit, the row and the offset. -/
structure Srd where
  len   : Nat
  field : Bool
  row   : Nat
  off   : Nat
  deriving DecidableEq, Repr

/-- The sample row data headers of a payload, up to `k`, as the continuation bits chain them, and the data after them. -/
def srdHeads : Nat → List Byte → List Srd × List Byte
  | 0, d => ([], d)
  | k + 1, d =>
    if d.length < 6 then ([], d) else
    let h : Srd := { len := beNat (slice d 0 2), field := natBit (beNat (slice d 2 1)) 7, row := beNat (slice d 2 2) % 2 ^ 15,
                     off := beNat (slice d 4 2) % 2 ^ 15 }
    if natBit (beNat (slice d 4 1)) 7 then let r := srdHeads k (d.drop 6); (h :: r.1, r.2) else ([h], d.drop 6)

/-- Samples of `w` bits, the first in the highest bits. -/
def beSamples (w : Nat) (l : List Byte) : List Nat :=
  let n := beNat l
  (List.range (8 * l.length / w)).map (fun i => n / 2 ^ (8 * l.length - w * (i + 1)) % 2 ^ w)

/-- The order of samples within a pixel group, as plane, column and line, for each unit of one or two columns; and the unit's columns. -/
def Params.groupOrder (p : Params) : List (Nat × Nat × Nat) × Nat :=
  match p.chroma with
  | 0 => ([(0, 0, 0), (0, 1, 0), (0, 0, 1), (0, 1, 1), (1, 0, 0), (2, 0, 0)], 2)
  | 1 => ([(1, 0, 0), (0, 0, 0), (2, 0, 0), (0, 1, 0)], 2)
  | _ => ([(1, 0, 0), (0, 0, 0), (2, 0, 0)], 1)

/-- The samples of a stretch of a row at depth `bits`, as plane, column and line in the plane, and value: whole pixel groups alone. -/
def Params.rowSamples (p : Params) (h : Srd) (d : List Byte) : List (Nat × Nat × Nat × Nat) :=
  let o := p.groupOrder
  let n := o.1.length
  let k := d.length / p.pgroup.2 * p.pgroup.2
  let vs := beSamples (if p.bits10 then 10 else 8) (d.take k)
  (vs.zip (List.range vs.length)).map (fun e =>
    let q := (o.1[e.2 % n]?).getD (0, 0, 0)
    let x := h.off + o.2 * (e.2 / n)
    if q.1 = 0 then (0, x + q.2.1, h.row + q.2.2, e.1)
    else (q.1, if p.chroma = 2 then x else x / 2, if p.chroma = 0 then h.row / 2 else h.row, e.1))

/-- A stretch of a line that a packet brings: the line, the first column and the column after the last, and the samples of the line as plane, column and
line in the plane, and value. -/
def Params.rowSegs (p : Params) (h : Srd) (d : List Byte) : List (Nat × Nat × Nat × List (Nat × Nat × Nat × Nat)) :=
  let l := p.rowSamples h d
  let cols := d.length / p.pgroup.2 * p.pgroup.1
  (List.range p.groupLines).map (fun i =>
    (h.row + i, h.off, h.off + cols,
     l.filter (fun e => if e.1 = 0 then decide (e.2.2.1 = h.row + i) else decide (i = 0))))

/-- The stretches of lines that the payload of an ST 2110-20 packet brings, or none where a field bit is set (R413). -/
def Params.videoIn (p : Params) (d : List Byte) : Option (List (Nat × Nat × Nat × List (Nat × Nat × Nat × Nat))) :=
  let r := srdHeads 3 (d.drop 2)
  if r.1.any (fun h => h.field) then none else
  some (r.1.foldl (fun (acc : List (Nat × Nat × Nat × List (Nat × Nat × Nat × Nat)) × List Byte) h =>
    (acc.1 ++ p.rowSegs h (acc.2.take h.len), acc.2.drop h.len)) ([], r.2)).1

/-! ## Coded payloads (R417, R419) -/

/-- The type of a coded payload: of HEVC the types 49 and 50 of the payload header stand for fragments and PACI, of VVC the type 29 for fragments. -/
def codedIn (vvc : Bool) (d : List Byte) : CodedPkt :=
  let typ := if vvc then beNat (slice d 1 1) / 8 else beNat (slice d 0 1) / 2 % 64
  let fu := beNat (slice d 2 1)
  if typ = (if vvc then 29 else 49) then .frag (natBit fu 7) (natBit fu 6)
  else if ¬ vvc ∧ typ = 50 then .paci else .whole

end Sys2Proof.Machine
end

