-- ==== Sys2Proof/Machine/Rrc.lean ====
section
/-!
DEFINITION. Row rate control (R166-R196): the buffer model and picture budget, floor costs and the reserve, leases and charges,
the row budget and QP, the model update. Quantities of the buffer model are held in units of 2^-16 bits (R169).
-/
namespace Sys2Proof.Machine

/-! ## Layout of jobs -/

/-- The tile columns of an ENCODE picture (R70). -/
def Params.tiles (p : Params) : Nat := ceilDiv p.w 4096

/-- The tiles or subpictures of a picture. -/
def Params.nReg (p : Params) : Nat :=
  if p.typ = 3 then p.regs.length else if p.typ = 0 then p.tiles else if p.lay = [] then 1 else p.lay.length

/-- The first CTU column, the CTU columns, the first CTU row and the CTU rows of a tile or subpicture (R70, R72). -/
def Params.region (p : Params) (reg : Nat) : Nat × Nat × Nat × Nat :=
  if p.typ = 3 then
    let r := (p.regs[reg]?).getD {}
    (r.x, r.w, r.y, r.h)
  else if p.typ = 0 then
    let x0 := reg * p.wCtu / p.tiles
    (x0, (reg + 1) * p.wCtu / p.tiles - x0, 0, p.nRows)
  else if p.typ = 1 then
    (p.lay[reg]?).getD (if p.dims = (0, 0) then (0, p.wCtu, 0, p.nRows) else (0, ceilDiv p.dims.1 64, 0, ceilDiv p.dims.2 64))
  else (0, p.wCtu, 0, p.nRows)

/-- The bands that a job covers: 2 with a CTB size of 128 (R223). -/
def Params.jobRows (p : Params) : Nat := if p.big then 2 else 1

/-- The row jobs of a picture, as (first band, tile or subpicture). -/
def Params.jobs (p : Params) : List (Nat × Nat) :=
  (List.range p.nReg).flatMap (fun reg =>
    let r := p.region reg
    (List.range (ceilDiv r.2.2.2 p.jobRows)).map (fun i => (r.2.2.1 + i * p.jobRows, reg)))

/-! ## The buffer model (R169) -/

/-- N, in units of 2^-16 bits. -/
def rrcN (br pnum pden : Nat) : Nat := 2 ^ 16 * br * pnum / (pden * 10 ^ 6)

/-- BR_MAX as signalled, in bit/s: rounded down to the unit of the smallest scale, 64 bit/s. -/
def brSignalled (brMax : Nat) : Nat := brMax * 1000 / 64 * 64

/-- N_MAX, in units of 2^-16 bits. -/
def rrcNMax (brMax pnum pden : Nat) : Nat := 2 ^ 16 * brSignalled brMax * pnum / (pden * 10 ^ 9)

/-- B_MAX as signalled, in units of 2^-16 bits: rounded down to the unit of the smallest scale, 16 bits. -/
def rrcBMax (brMax bufUs : Nat) : Nat := brMax * bufUs / 1000 / 16 * 16 * 2 ^ 16

/-- The period of a generator. -/
def State.pnum (s : State) (g : Nat) : Nat := s.get (R.STRKg_PNUM_PNUM g)
def State.pden (s : State) (g : Nat) : Nat := s.get (R.STRKg_PDEN_PDEN g)

/-- N, N_MAX and B_MAX of a stream, from its RRC registers and its generator. -/
def State.rrcNs (s : State) (n : Nat) : Nat :=
  rrcN (s.get (R.RRCn_RATE_KBPS n)) (s.pnum (s.strm n).p.gen) (s.pden (s.strm n).p.gen)
def State.rrcNMaxs (s : State) (n : Nat) : Nat :=
  rrcNMax (s.get (R.RRCn_RMAX_KBPS n)) (s.pnum (s.strm n).p.gen) (s.pden (s.strm n).p.gen)
def State.rrcBMaxs (s : State) (n : Nat) : Nat := rrcBMax (s.get (R.RRCn_RMAX_KBPS n)) (s.get (R.RRCn_BUF_US n))

/-- One step of the two recursions over a picture of `bits` bits (R170). -/
def rrcStep (nMax n bits : Nat) (od : Nat × Nat) : Nat × Nat :=
  (od.1 + bits * 2 ^ 16 - nMax, od.2 + bits * 2 ^ 16 - n)

/-- OCC_EST and DEBT_EST after the pictures in hand (R170): S of a completed picture, B_PIC of one in flight. DESIGN CHOICE (log 33): a
rate change gives its N to every picture in hand from its Stroke on; the spec does not say which N one in flight keeps. -/
def State.rrcEst (s : State) (n : Nat) : Nat × Nat :=
  let t := s.strm n
  t.pics.foldl (fun od p => rrcStep (s.rrcNMaxs n) (s.rrcNs n) (p.fin.getD p.bPic) od) (t.occ, t.debt)

/-- The free bits of a picture (R179). -/
def Pic.free (p : Pic) : Int := (p.bPic : Int) - p.spent - p.lease - p.reserve

/-- The registers that report RRC's estimates and its oldest picture in flight (R196): the start-up picture is coded wholly in floor mode
(R176). -/
def State.rrcRegs (s : State) (n : Nat) : State :=
  let e := s.rrcEst n
  let s := (s.set (R.RRCn_OCC_UNITS n) (e.1 / 2 ^ 22)).set (R.RRCn_DEBT_UNITS n) (e.2 / 2 ^ 22)
  match (s.strm n).pics.find? (fun p => p.fin.isNone) with
  | none => (s.set (R.RRCn_FREE_UNITS n) 0).set (R.RRCn_STAT_FLOOR n) 0
  | some p => (s.set (R.RRCn_FREE_UNITS n) (p.free.toNat / 64)).set (R.RRCn_STAT_FLOOR n) (b2n (p.floor || p.record.startup))

/-- RRCn_LOAN and LOAN_OK, computed at a Stroke (R190). -/
def State.rrcLoan (s : State) (n : Nat) : State :=
  let b := s.rrcBMaxs n
  let k := s.get (R.RRCn_KEY_BORROW n)
  let bound := min (b * k / 100) (b - (s.rrcEst n).1 - s.rrcNs n)
  (s.set (R.RRCn_LOAN_UNITS n) (bound / 2 ^ 22)).set (R.RRCn_STAT_LOAN_OK n) (b2n (decide (0 < k) && decide (b * k ≤ bound * 200)))

/-! ## Floor costs (R175-R177) -/

/-- The floor cost of an intra CTU. -/
def Params.floorIntra (p : Params) : Nat := match p.chroma with | 0 => 160 | 1 => 192 | _ => 256

/-- The refresh column of sweep position `j` of a sweep of `g` pictures over `nc` CTU columns (R118). -/
def sweepEnd (g nc j : Nat) : Nat := ceilDiv ((j + 1) * nc) g
def sweepStart (g nc j : Nat) : Nat :=
  if j = 0 then 0 else
  let e := sweepEnd g nc j
  let e1 := sweepEnd g nc (j - 1)
  if e = e1 then e - 1 else e1 - 1

/-- CTU `x` of a job counts as intra (R177): it is in the refresh column, or in an IRAP or the start-up picture. A canvas
sweeps each subpicture on its own, any other stream the whole width (R118). -/
def Params.isIntra (p : Params) (r : Record) (reg x : Nat) : Bool :=
  let rg := p.region reg
  let g := if r.swift then p.fast else p.refresh
  let lo := if p.typ = 3 then sweepStart g rg.2.1 r.sweepJ else r.colS
  let hi := if p.typ = 3 then sweepEnd g rg.2.1 r.sweepJ else r.colE
  let xr := if p.typ = 3 then x else rg.1 + x
  r.irap || r.startup || (!p.frame && decide (lo ≤ xr) && decide (xr < hi))

/-- The floor cost of CTU `x` of a job. -/
def Params.floorCost (p : Params) (r : Record) (reg x : Nat) : Nat := if p.isIntra r reg x then p.floorIntra else 32

/-- The floor costs of a job's CTUs. -/
def Params.rowFloor (p : Params) (r : Record) (reg : Nat) : Nat :=
  (List.range (p.region reg).2.1).foldl (fun n x => n + p.floorCost r reg x) 0

/-- The reserve of a whole picture: every CTU's floor cost, and C_SLICE for every job. -/
def Params.picFloor (p : Params) (r : Record) (cSlice : Nat) : Nat :=
  p.jobs.foldl (fun n j => n + p.rowFloor r j.2 + cSlice) 0

/-- The floor cost of a picture at position `j` of a fast sweep: one picture, in which every subpicture of a canvas is at that
position (R118). -/
def Params.fastFloor (p : Params) (cSlice j : Nat) : Nat :=
  p.picFloor { swift := true, sweepJ := j, colS := sweepStart p.fast p.wCtu j, colE := sweepEnd p.fast p.wCtu j } cSlice

/-- The floor cost of the picture whose refresh column is the widest of a fast sweep. -/
def Params.wideFloor (p : Params) (cSlice : Nat) : Nat := (List.range p.fast).foldl (fun m j => max m (p.fastFloor cSlice j)) 0

/-- The feasibility tests of R178, in bits. A frame-mode stream has no refresh column. -/
def Params.feasible (p : Params) (br margin repay cSlice ovhMax pnum pden : Nat) : Bool :=
  let n := rrcN br pnum pden
  let ord := if p.frame then p.picFloor {} cSlice else p.wideFloor cSlice
  let all := p.picFloor { irap := true } cSlice
  decide ((ovhMax + ord + margin) * 2 ^ 16 * 100 ≤ n * (100 - repay)) && decide ((ovhMax + all + margin) * 2 ^ 16 ≤ n)

/-! ## Leases and charges -/

/-- A picture of a stream changed by `f`. -/
def State.updPic (s : State) (n pic : Nat) (f : Pic → Pic) : State :=
  s.updStrm n (fun t => { t with pics := t.pics.map (fun p => if p.n = pic then f p else p) })

/-- A picture in hand of a stream. -/
def State.pic (s : State) (n pic : Nat) : Option Pic := (s.strm n).pics.find? (fun p => p.n == pic)

/-- A stream's parameters as they hold for a picture in hand: a decoded picture has the layout of its own parameter sets (R223). -/
def State.picP (s : State) (n pic : Nat) : Params :=
  let p := (s.strm n).p
  if p.typ ≠ 1 then p else
  match s.pic n pic with
  | some q => { p with lay := q.lay, big := q.big, small := q.small, wpp := q.wpp, dims := q.dims }
  | none => p

/-- The floor flag of a picture is set (R182): its first setting counts in RRCn_FLOORS and, with FLOOR_EVT, raises
FLOOR_ENTRY. The start-up picture is no floor entry (R176). -/
def State.floorEntry (s : State) (n pic : Nat) : State :=
  match s.pic n pic with
  | none => s
  | some p =>
    if p.floor then s else
    let s := s.updPic n pic (fun p => { p with floor := true })
    if p.record.startup then s else
    let s := s.bump (R.RRCn_FLOORS_COUNT n)
    if s.flag (R.RRCn_CTL_FLOOR_EVT n) then s.streamEvent n .floorEntry pic else s

/-- The upper bound of a CTU (R179). -/
def leaseUB (ctx byp floor : Nat) : Nat := max floor (ceilDiv (4 * (16 * ctx + byp)) 3 + 64)

/-- One access of a class to a stream (R181, R187): its place in the order of its cycle is `u`. It is out of turn where a later one of the
class has been made in the cycle. -/
def State.inTurn (s : State) (cls n u : Nat) : Bool := s.turns.all (fun t => !(t.1 == cls && t.2.1 == n) || decide (t.2.2 ≤ u))

/-- The access is made. -/
def State.turn_ (s : State) (cls n u : Nat) : State := { s with turns := (cls, n, u) :: s.turns }

/-- LEASE_REQUEST (R179-R182): the CTU the Scull codes asks for a lease; it is granted, or the CTU is coded in floor mode, and
the picture enters floor mode by refusal or by margin. A lease that the CTU already holds is released first (R270). RRC takes the
requests of a cycle by Scull number, after its charges (R181): one out of turn is not made. Nor is one of a CTU that has reached Reconstruct,
or whose syntax has left (R179). -/
def execLeaseRequest (u : Fin 144) (ctxBins bypBins : Nat) (s : State) : Host.Outcome State Fault Refusal :=
  .next (match s.run u with
  | none => s
  | some r =>
    if r.job.dec ∨ ¬ s.inTurn 0 r.job.stream (144 + u) ∨ r.x < max r.sent r.charged ∨ 5 ≤ (tabGet {} s.seqs u.val).stage then s else
    let s := s.turn_ 0 r.job.stream (144 + u)
    let r := { r with asked := some r.x }
    match s.pic r.job.stream r.job.pic with
    | none => s
    | some p =>
      let n := r.job.stream
      let held := r.leases.filter (fun l => l.1 == r.x)
      let r := { r with leases := r.leases.filter (fun l => l.1 != r.x) }
      let p : Pic := held.foldl (fun p l => { p with lease := p.lease - l.2.1,
                                                     reserve := p.reserve + (s.strm n).p.floorCost p.record r.job.reg r.x }) p
      let s := (s.updPic n r.job.pic (fun _ => p)).setRun u (some r)
      let fc := (s.strm n).p.floorCost p.record r.job.reg r.x
      let ub := leaseUB ctxBins bypBins fc
      if p.floor ∨ p.record.startup then s else
      if p.free - ((ub : Int) - fc) < 0 then (s.floorEntry n r.job.pic).rrcRegs n else
      let p' := { p with lease := p.lease + ub, reserve := p.reserve - fc }
      let s := (s.updPic n r.job.pic (fun _ => p')).setRun u (some { r with leases := (r.x, ub, r.qpX) :: r.leases })
      if p'.free ≤ s.get (R.RRCn_MARGIN_BITS n) then (s.floorEntry n r.job.pic).rrcRegs n else s.rrcRegs n)

/-- The job whose bits a Scull's Bow writes next: the oldest that has ended and still has a CTU uncharged, else the job the
Scull runs. -/
def State.charging (s : State) (u : Nat) : Option RunS :=
  match (tabGet [] s.ended u).find? (fun r => decide (r.charged < r.job.nCtu)) with
  | some r => some r
  | none => s.run u

/-- That job changed. -/
def State.setCharging (s : State) (u : Nat) (r : RunS) : State :=
  let l := tabGet [] s.ended u
  if l.any (fun x => decide (x.charged < x.job.nCtu)) then
    { s with ended := tabSet [] s.ended u (l.map (fun x => if x.job = r.job then r else x)) }
  else s.setRun u (some r)

/-- The Bow of Scull `u` serves its queue (R101): of the queues of its Four's Sculls that hold a CTU, the job at its head has the earliest
deadline, and of equal ones it is the lowest-numbered. What the Bow decodes of a decode job between takes no time of its own here. -/
def State.bowServes (s : State) (u : Nat) (dl : Inst) : Bool :=
  (List.range 4).all (fun k =>
    let v := 4 * (u / 4) + k
    decide (v = u) || (match s.charging v with
      | some r => r.job.dec || decide (r.sent ≤ r.charged) || dl.lt r.job.dl || (dl.same r.job.dl && decide (u < v))
      | none => true))

/-- The Bow takes the records of one CTU out of a Scull's queue (R101). -/
def State.bowPop (s : State) (u : Nat) : State :=
  { s with seqs := tabUpd {} s.seqs u (fun q => { q with bowq := q.bowq.tail }) }

/-- CTU_CHARGE (R101, R180, R188): the Bow, which serves its four queues by deadline, has written CTU x, whose CTU_END it had; a leased CTU
is charged its bits, at least its floor cost and at most its bound, a floor-mode CTU its floor cost, and the QP offset of the job
follows. RRC takes the charges of a cycle by Scull number, before its lease requests (R181). -/
def execCtuCharge (u : Fin 144) (x bits : Nat) (s : State) : Host.Outcome State Fault Refusal :=
  .next (match s.charging u with
  | none => s
  | some r =>
    if r.job.dec ∨ x ≠ r.charged ∨ r.sent ≤ x ∨ ¬ s.bowServes u r.job.dl ∨ ¬ s.inTurn 0 r.job.stream u then s else
    let s := (s.turn_ 0 r.job.stream u).bowPop u
    match s.pic r.job.stream r.job.pic with
    | none => s
    | some p =>
      let n := r.job.stream
      let t := s.strm n
      let fc := t.p.floorCost p.record r.job.reg x
      let qpMax := s.get (R.RRCn_QP_QP_MAX n)
      let lease := r.leases.find? (fun l => l.1 == x)
      let cost := match lease with | some l => max (min bits l.2.1) fc | none => fc
      let qp := match lease with | some l => l.2.2 | none => qpMax
      let p' : Pic := match lease with
        | some l => { p with lease := p.lease - l.2.1, spent := p.spent + cost }
        | none => { p with reserve := p.reserve - fc, spent := p.spent + cost }
      let b := r.bits + cost
      let lhs : Int := (b * 4 * r.job.nCtu * r.bDen : Nat)
      let share : Int := r.bNum * ((x + 1 : Nat) : Int)
      let d : Int := if lhs > 5 * share then r.delta + 1 else if lhs < 3 * share then r.delta - 1 else r.delta
      let r' := { r with leases := r.leases.filter (fun l => l.1 != x), bits := b, charged := x + 1, qpSum := r.qpSum + qp,
                         floors := r.floors + (if lease.isNone then 1 else 0), spent := r.spent + cost,
                         chFloor := r.chFloor + fc, qpLo := min r.qpLo qp, qpHi := max r.qpHi qp, delta := max (-3) (min 6 d) }
      ((s.updPic n r.job.pic (fun _ => p')).setCharging u r').rrcRegs n)

/-- What a completed job gives to its picture's statistics (R194): the QPs of its CTUs, those in floor mode but for the start-up
picture's, and those at E1 to E3. An aborted job gives none. -/
def State.jobStats (s : State) (r : RunS) : State :=
  s.updPic r.job.stream r.job.pic (fun p => { p with
    qpSum := p.qpSum + r.qpSum, ctus := p.ctus + r.charged, qpLo := min p.qpLo r.qpLo, qpHi := max p.qpHi r.qpHi,
    floorCtus := p.floorCtus + (if p.record.startup then 0 else r.floors),
    ctuE1 := p.ctuE1 + r.effs.1, ctuE2 := p.ctuE2 + r.effs.2.1, ctuE3 := p.ctuE3 + r.effs.2.2 })

/-- A job aborted and put back returns its charges and leases (R183): the floor costs of its CTUs are reserve again. -/
def State.leaseReturn (s : State) (r : RunS) : State :=
  match s.pic r.job.stream r.job.pic with
  | none => s
  | some p =>
    let n := r.job.stream
    let back := r.leases.foldl (fun k l => k + (s.strm n).p.floorCost p.record r.job.reg l.1) r.chFloor
    let leased := r.leases.foldl (fun k l => k + l.2.1) 0
    (s.updPic n r.job.pic (fun p => { p with spent := p.spent - r.spent, lease := p.lease - leased,
                                              reserve := p.reserve + back })).rrcRegs n

/-! ## Row budget and QP (R185-R189) -/

/-- floor(2^16 x 2^(f / 256)) for f below 256, by bisection over the 256th power. -/
def rootBits (f : Nat) : Nat → Nat → Nat → Nat
  | 0, lo, _ => lo
  | k + 1, lo, hi =>
    let m := (lo + hi) / 2
    if m ^ 256 ≤ 2 ^ (16 * 256 + f) then rootBits f k m hi else rootBits f k lo m

/-- The weight 2^(lw / 256) of a log2 value with 8 fraction bits, in units of 2^-16 rounded down. DESIGN CHOICE (log 12): the spec
states no precision of a weight. -/
def weight (lw : Nat) : Nat := rootBits (lw % 256) 17 65536 131072 * 2 ^ (lw / 256)

/-- The co-located job's entry of the most recent picture before `pic`. -/
def StreamS.jobBefore (t : StreamS) (pic row reg : Nat) : Option JobC :=
  (t.jobC.filter (fun j => j.row == row && j.reg == reg && decide (j.pic < pic))).foldl (fun b j =>
    match b with | some x => if x.pic < j.pic then some j else b | none => some j) none

/-- The log2 weight of a job (R186): the c of the co-located job in the most recent earlier picture in which it completed, the look-ahead's
in frame mode, or CINIT. -/
def State.jobLw (s : State) (n pic row reg : Nat) : Nat :=
  let t := s.strm n
  match (if t.p.frame then t.look.find? (fun c => c.pic == pic && c.row == row && c.reg == reg) else t.jobBefore pic row reg) with
  | some j => j.lw
  | none => s.get (R.RRCn_MODEL_CINIT n)

/-- The c of a job is kept for the pictures after it (R185): with it stay those of pictures that can still be the most recent before
one in hand. -/
def StreamS.jobKeep (t : StreamS) (c : JobC) : List JobC :=
  let old := (t.pics.head?.map (fun p => p.n)).getD c.pic
  let l := c :: t.jobC.filter (fun j => !(j.pic == c.pic && j.row == c.row && j.reg == c.reg))
  l.filter (fun j => decide (old ≤ j.pic) ||
    l.all (fun k => !(k.row == j.row && k.reg == j.reg) || decide (k.pic ≤ j.pic) || decide (old ≤ k.pic)))

/-- c of a job as a log2 value with 8 fraction bits (R185), of the measured sum of absolute Hadamard differences; which of the two
neighbours it takes is free where the value lies between them. -/
def State.complexityLw (s : State) (sum : Nat) : Nat × State :=
  let c := 1 + sum
  let l := Nat.log2 (c ^ 256)
  if c ^ 256 = 2 ^ l then (l % 2 ^ 16, s) else
  let (b, s) := s.draw 1
  ((l + b) % 2 ^ 16, s)

/-- The jobs in flight: those that Sculls run, and those that have ended and wait for their completion (R102). -/
def State.running (s : State) : List RunS := s.runs.filterMap (fun e => e.2) ++ s.ended.flatMap (fun e => e.2)

/-- The weights of a picture's jobs that are left, scaled (R186): a job not started counts whole, a job in flight by its CTUs
neither leased nor charged. -/
def State.weightLeft (s : State) (n pic : Nat) : Nat :=
  ((s.strm n).p.jobs).foldl (fun k j =>
    if s.progs.any (fun g => g.stream == n && g.pic == pic && g.row == j.1 && g.reg == j.2 && g.done) then k else
    let w := weight (s.jobLw n pic j.1 j.2)
    match s.running.find? (fun r => r.job.stream == n && r.job.pic == pic && r.job.row == j.1 && r.job.reg == j.2) with
    | some r => k + w * (r.job.nCtu - r.charged - r.leases.length) / r.job.nCtu
    | none => k + w) 0

/-- QP_mod of R187 for free bits `b` > 0, weights left `w` (scaled by 2^16) and LA with 16 fraction bits: the largest q up to
63 with 6 x (LA + log2 w - log2 b) at or above q - 1/2, compared exactly; 0 where there is none. -/
def qpMod (la : Int) (w b : Nat) : Nat :=
  let l := w ^ 196608 * (if 0 ≤ la then 2 ^ (3 * la).toNat else 1)
  let r := (2 ^ 16 * b) ^ 196608 * (if 0 ≤ la then 1 else 2 ^ (-3 * la).toNat)
  ((List.range 64).filter (fun q => decide (1 ≤ q) && decide (r * 2 ^ (16384 * (2 * q - 1)) ≤ l))).length

/-- The row budget and QP of a job taken (R187), for an encode job. The weights include the job itself. -/
def State.rowQp (s : State) (n pic row reg : Nat) : Int × Nat × Nat × Nat :=
  match s.pic n pic with
  | none => (0, 1, s.get (R.RRCn_QP_QP_MAX n), 0)
  | some p =>
    let lw := s.jobLw n pic row reg
    let w := weight lw
    let sum := s.weightLeft n pic
    let la := signed 24 (s.get (if p.record.irap then R.RRCn_ALPHA_I_LA n else R.RRCn_ALPHA_P_LA n))
    let lo := s.get (R.RRCn_QP_QP_MIN n)
    let hi := s.get (R.RRCn_QP_QP_MAX n)
    let last := ((s.strm n).qpLast).getD (s.get (R.RRCn_QP_QP_INIT n))
    let m := if p.free ≤ 0 then hi else qpMod la sum p.free.toNat
    let q := max lo (min hi (max (last - 3) (min (last + 3) m)))
    (p.free * w, max sum 1, q, lw)

/-- floor(2^16 x log2 b) for b ≥ 1. -/
def log2Fix (b : Nat) : Nat := Nat.log2 (b ^ 65536)

/-- The key, among what has fired in a cycle, of the owner's write of the register at `a`. -/
abbrev wroteKey (a : Nat) : Nat := 2 ^ 32 + a

/-- The model update of a completed job with no floor CTU (R189), unless the owner writes the register in this cycle (R621). The spec states no rounding of the result to 16 fraction
bits: a free choice of the two neighbours. -/
def State.modelUpdate (s : State) (r : RunS) (irap : Bool) (lc : Nat) : State :=
  let n := r.job.stream
  let f := if irap then R.RRCn_ALPHA_I_LA n else R.RRCn_ALPHA_P_LA n
  let la := signed 24 (s.get f)
  let g := s.get (R.RRCn_MODEL_GAIN n)
  let goal : Int := (log2Fix (max r.bits 1) : Int) - (lc * 256 : Nat) + (r.qpSum * 65536 / (6 * r.job.nCtu) : Nat)
  let up := la + (goal - la) / (2 ^ g : Int) + Config.laRound s.freeCtr % 2
  { (if wroteKey f.addr ∈ s.fired then s else s.set f (unsigned 24 up)) with freeCtr := s.freeCtr + 1 }

end Sys2Proof.Machine
end

