-- ==== Sys2Proof/Machine/Tools.lean ====
section
/-!
DEFINITION. The coding tools of an encoded CTU (R97-R99, R103-R109, R117-R121, R176): the tool set of each codec and effort level, the
blocks that motion vectors reach, and what makes a coding one that Decide may choose. The numbers of intra modes are the
standards' (PRESUMED, log 8): 0 planar, 1 DC, horizontal 10 or 18, vertical 26 or 50.
-/
namespace Sys2Proof.Machine

/-! ## The tool sets (R104, R105) -/

/-- The tools of one effort level: the smallest and largest luma CU, the multi-type depth and whether it may be ternary, the inter
partitions, the search range and the step of a searched vector in quarter samples, whether every reference and bi-prediction is
used, the merge candidates and whether they serve skip alone, the intra modes rough-costed and fully costed and those allowed
(none listed: all), the chroma modes, the intra CU sizes and N x N, the transform tree's depth and sizes, RDOQ, SAO up to edge
(1) or band (2), and ALF. -/
structure Tools where
  cuLo    : Nat
  mt      : Nat := 0
  ternary : Bool := false
  parts   : Nat := 1
  rangeH  : Nat
  rangeV  : Nat
  step    : Nat
  all     : Bool
  merge   : Nat
  skipOnly : Bool := false
  rough   : Nat := 0
  full    : Nat
  modes   : List Nat := []
  chroma  : List Nat := [0, 1, 2, 3, 4, 5, 6, 7]
  intraLo : Nat
  intraHi : Nat
  nxn     : Bool := false
  depth   : Nat := 0
  tLo     : Nat
  tHi     : Nat
  rdoq    : Bool := false
  sao     : Nat
  alf     : Bool := false
  deriving DecidableEq, Repr

/-- The table of R104. -/
def toolsHevc (e : Nat) : Tools :=
  match e with
  | 0 => { cuLo := 8, parts := 3, rangeH := 256, rangeV := 128, step := 1, all := true, merge := 5, rough := 35, full := 8,
           intraLo := 8, intraHi := 64, nxn := true, depth := 2, tLo := 2, tHi := 5, rdoq := true, sao := 2 }
  | 1 => { cuLo := 8, rangeH := 128, rangeV := 64, step := 1, all := true, merge := 5, rough := 35, full := 3,
           intraLo := 8, intraHi := 32, depth := 1, tLo := 2, tHi := 5, sao := 2 }
  | 2 => { cuLo := 16, rangeH := 32, rangeV := 16, step := 2, all := false, merge := 2, full := 4, modes := [0, 1, 10, 26],
           intraLo := 16, intraHi := 32, tLo := 3, tHi := 5, sao := 1 }
  | _ => { cuLo := 32, rangeH := 0, rangeV := 0, step := 4, all := false, merge := 2, skipOnly := true, full := 2, modes := [0, 1],
           intraLo := 32, intraHi := 64, tLo := 5, tHi := 5, sao := 0 }

/-- The table of R105. -/
def toolsVvc (e : Nat) : Tools :=
  match e with
  | 0 => { cuLo := 8, mt := 2, ternary := true, rangeH := 256, rangeV := 128, step := 1, all := true, merge := 6, rough := 67,
           full := 8, intraLo := 8, intraHi := 64, tLo := 2, tHi := 6, rdoq := true, sao := 2, alf := true }
  | 1 => { cuLo := 8, mt := 1, rangeH := 128, rangeV := 64, step := 1, all := true, merge := 6, rough := 67, full := 3,
           chroma := [0, 1, 2, 3, 4], intraLo := 8, intraHi := 64, tLo := 2, tHi := 6, sao := 2, alf := true }
  | 2 => { cuLo := 16, rangeH := 32, rangeV := 16, step := 2, all := false, merge := 2, full := 4, modes := [0, 1, 18, 50],
           chroma := [0, 4], intraLo := 16, intraHi := 64, tLo := 2, tHi := 5, sao := 1 }
  | _ => { cuLo := 32, rangeH := 0, rangeV := 0, step := 4, all := false, merge := 2, skipOnly := true, full := 2, modes := [0, 1],
           chroma := [0], intraLo := 32, intraHi := 64, tLo := 2, tHi := 5, sao := 0 }

def toolsOf (vvc : Bool) (e : Nat) : Tools := if vvc then toolsVvc e else toolsHevc e

/-! ## The shape of a CU -/

/-- A rectangle: left, top, width, height. -/
abbrev Rect := Nat × Nat × Nat × Nat

/-- The part of a CTU at luma (`x0`, `y0`) that lies in a picture of `w` x `h`: a partial CTU at the right and bottom edges (R69). -/
def ctuClip (w h x0 y0 : Nat) : Nat × Nat := (min 64 (w - x0), min 64 (h - y0))

/-- A quadtree node is split without a choice: it crosses the edge of the picture. -/
def quadForced (clip : Nat × Nat) (x y size : Nat) : Bool := decide (clip.1 < x + size) || decide (clip.2 < y + size)

def rectInside (clip : Nat × Nat) (r : Rect) : Bool := decide (r.1 + r.2.2.1 ≤ clip.1) && decide (r.2.1 + r.2.2.2 ≤ clip.2)

def rectApart (a b : Rect) : Bool :=
  decide (a.1 + a.2.2.1 ≤ b.1) || decide (b.1 + b.2.2.1 ≤ a.1) || decide (a.2.1 + a.2.2.2 ≤ b.2.1) || decide (b.2.1 + b.2.2.2 ≤ a.2.1)

/-- No rectangle of the list meets another. -/
def rectsApart : List Rect → Bool
  | [] => true
  | r :: l => l.all (rectApart r) && rectsApart l

/-- Log2 of a power of two up to 64. -/
def lg (n : Nat) : Nat := Nat.log2 n

end Sys2Proof.Machine

namespace Sys2Proof
open Sys2Proof.Machine

/-- The part of a rectangle that a multi-type split leads to. -/
def MtSplit.part (r : Rect) (m : MtSplit) : Rect :=
  let (x, y, w, h) := r
  match m with
  | .binH i => (x, y + i * (h / 2), w, h / 2)
  | .binV i => (x + i * (w / 2), y, w / 2, h)
  | .terH i => (x, y + (if i.val = 0 then 0 else if i.val = 1 then h / 4 else h / 4 * 3), w, if i.val = 1 then h / 2 else h / 4)
  | .terV i => (x + (if i.val = 0 then 0 else if i.val = 1 then w / 4 else w / 4 * 3), y, if i.val = 1 then w / 2 else w / 4, h)

def MtSplit.ternary (m : MtSplit) : Bool := match m with | .terH _ => true | .terV _ => true | _ => false

/-- The rectangle of a CU within its CTU. -/
def CuCode.rect (u : CuCode) : Rect := u.path.foldl MtSplit.part (u.x, u.y, u.size, u.size)

/-- The rectangle of a prediction block of a CU. -/
def CuCode.pbRect (u : CuCode) (i : Nat) : Rect :=
  let (x, y, w, h) := u.rect
  match u.part.val with
  | 1 => (x, y + i * (h / 2), w, h / 2)
  | 2 => (x + i * (w / 2), y, w / 2, h)
  | _ => (x, y, w, h)

/-- The luma modes of an intra CU, and those of its blocks on its right edge. -/
def CuCode.modes (u : CuCode) : List Nat × List Nat :=
  match u.nxn with
  | none => ([u.mode], [u.mode])
  | some m => ([u.mode, m.1, m.2.1, m.2.2], [m.1, m.2.2])

/-- A CU is a leaf of a quadtree, aligned to its size. -/
def CuCode.aligned (u : CuCode) : Bool :=
  decide (u.size ∈ [8, 16, 32, 64]) && decide (u.x % u.size = 0) && decide (u.y % u.size = 0)

/-- A leaf is as large as the picture's edge allows: it is the whole CTU, or the node around it crosses the edge. -/
def CuCode.largest (u : CuCode) (clip : Nat × Nat) : Bool :=
  decide (u.size = 64) || quadForced clip (u.x / (2 * u.size) * (2 * u.size)) (u.y / (2 * u.size) * (2 * u.size)) (2 * u.size)

/-- The CUs cover the CTU's part of the picture exactly, without overlap. -/
def CtuCode.covers (c : CtuCode) (clip : Nat × Nat) : Bool :=
  let l := c.cus.map CuCode.rect
  l.all (rectInside clip) && rectsApart l && decide ((l.map (fun r => r.2.2.1 * r.2.2.2)).foldl (· + ·) 0 = clip.1 * clip.2)

/-- The transforms and levels of a CU: its tree, which N x N deepens by one, reaches no further down than its depth allows, and a CU larger than the largest
transform is split down to that; a skip CU has no levels. -/
def CuCode.okResidual (t : Tools) (u : CuCode) : Bool :=
  let top := lg (min u.rect.2.2.1 u.rect.2.2.2)
  decide (u.depth ≤ t.depth) && decide (u.tLo ≤ u.tHi) && decide (u.tHi ≤ min t.tHi (max top 2)) &&
  decide (max (min t.tLo top) (min t.tHi (top - u.depth - b2n u.nxn.isSome)) ≤ u.tLo) && (!u.skip || (!u.ac && u.dc.all (fun l => decide (l = 0))))

/-- The CUs of the bottom line of a CTU, whose modes and vectors the next row needs (R100). -/
def CtuCode.bottom (k : CtuCode) : List CuCode :=
  let low := (k.cus.map (fun u => u.rect.2.1 + u.rect.2.2.2)).foldl max 0
  k.cus.filter (fun u => decide (u.rect.2.1 + u.rect.2.2.2 = low))

end Sys2Proof

namespace Sys2Proof.Machine

/-! ## Where a motion vector reaches (R99, R120) -/

/-- The samples that a prediction block of `n` samples at `at_` reads in one dimension, taps included, in luma samples: of luma, with the
8-tap filter, and of chroma subsampled by `c`, with the 4-tap filter. -/
def mvSpan (at_ n : Nat) (v : Int) (c : Nat) : Int × Int :=
  let i := v / 4
  let f : Bool := decide (v % 4 ≠ 0)
  let lo := (at_ : Int) + i - (if f then 3 else 0)
  let hi := (at_ : Int) + n - 1 + i + (if f then 4 else 0)
  let ic := v / (4 * c)
  let fc : Bool := decide (v % (4 * c) ≠ 0)
  let lc := ((at_ / c : Nat) : Int) + ic - (if fc then 1 else 0)
  let hc := (((at_ + n) / c : Nat) : Int) - 1 + ic + (if fc then 2 else 0)
  (min lo (lc * c), max hi (hc * c + c - 1))

/-- The subsampling of chroma, horizontal and vertical. -/
def Params.subH (p : Params) : Nat := if p.chroma = 2 then 1 else 2
def Params.subV (p : Params) : Nat := if p.chroma = 0 then 2 else 1

/-- What a CTU's coding depends on: the codec, its effort level (none: floor mode), the parameters, the record, the tile or
subpicture, the CTU's column in it and its band; for each reference of the lists its distance in pictures and the bands of it
that were final when the job started. -/
structure CtuPlace where
  level : Option Nat
  p     : Params
  rcd   : Record
  reg   : Nat
  x     : Nat
  row   : Nat
  refs  : List (Nat × Nat)
  deriving DecidableEq, Repr

/-- The CTU's place in the picture, in luma samples. -/
def CtuPlace.origin (c : CtuPlace) : Nat × Nat := (64 * ((c.p.region c.reg).1 + c.x), 64 * c.row)

/-- The sweep of the CTU's picture (R118): the region's CTU columns, the position of the CTU in it, the column in force. A canvas sweeps
each subpicture, any other stream the whole width. -/
def CtuPlace.nc (c : CtuPlace) : Nat := if c.p.typ = 3 then (c.p.region c.reg).2.1 else c.p.wCtu
def CtuPlace.xr (c : CtuPlace) : Nat := if c.p.typ = 3 then c.x else (c.p.region c.reg).1 + c.x
def CtuPlace.g (c : CtuPlace) : Nat := if c.rcd.swift then c.p.fast else c.p.refresh

/-- The picture belongs to a sweep (R118): the stream is row-locked and the picture is no IRAP and not the start-up picture. -/
def CtuPlace.sweeps (c : CtuPlace) : Bool := !c.p.frame && !c.rcd.irap && !c.rcd.startup

/-- The CTU lies left of the refresh column: in the clean area (R120). -/
def CtuPlace.clean (c : CtuPlace) : Bool := c.sweeps && decide (c.xr < sweepStart c.g c.nc c.rcd.sweepJ)

/-- The CTU lies in the refresh column (R118, R121). -/
def CtuPlace.inColumn (c : CtuPlace) : Bool :=
  c.sweeps && decide (sweepStart c.g c.nc c.rcd.sweepJ ≤ c.xr) && decide (c.xr < sweepEnd c.g c.nc c.rcd.sweepJ)

/-- The clean-area rule for one vector (R120): it names a picture of the same sweep, and its block with taps lies left of the area
that was clean there, less 8 samples, in luma and in chroma. -/
def CtuPlace.cleanMv (c : CtuPlace) (r : Rect) (v : CuMv) : Bool :=
  match c.refs[v.ref]? with
  | none => false
  | some (d, _) =>
    let e := sweepEnd c.g c.nc (c.rcd.sweepJ - d)
    let left := if c.p.typ = 3 then 64 * c.x + r.1 else c.origin.1 + r.1
    decide (1 ≤ d) && decide (d ≤ c.rcd.sweepJ) && decide ((mvSpan left r.2.2.1 v.x c.p.subH).2 < 64 * (e : Int) - 8)

/-- The bounds that R99 sets for a vector whatever the level: its block with taps lies in bands that were final at the start of the
job, or below the picture, and within the picture or subpicture extended by 64 samples. -/
def CtuPlace.reachMv (c : CtuPlace) (r : Rect) (v : CuMv) : Bool :=
  match c.refs[v.ref]? with
  | none => false
  | some (_, bands) =>
    let o := c.origin
    let (x0, x1, y0, y1) : Nat × Nat × Nat × Nat :=
      if c.p.typ = 3 then
        let g := c.p.region c.reg
        (64 * g.1, 64 * (g.1 + g.2.1), 64 * g.2.2.1, 64 * (g.2.2.1 + g.2.2.2))
      else (0, c.p.w, 0, c.p.h)
    let sx := mvSpan (o.1 + r.1) r.2.2.1 v.x c.p.subH
    let sy := mvSpan (o.2 + r.2.1) r.2.2.2 v.y c.p.subV
    decide ((x0 : Int) - 64 ≤ sx.1) && decide (sx.2 < x1 + 64) && decide ((y0 : Int) - 64 ≤ sy.1) && decide (sy.2 < y1 + 64) &&
    decide (min sy.2 ((y1 : Int) - 1) < 64 * bands)

/-- A vector that may be coded at all (R99, R109, R120): no level's range aside. -/
def CtuPlace.okMv (c : CtuPlace) (r : Rect) (v : CuMv) : Bool := c.reachMv r v && (!c.clean || c.cleanMv r v)

/-- A vector that the level may choose (R99, R104, R105): within its range and of its references. -/
def CtuPlace.levelMv (c : CtuPlace) (t : Tools) (r : Rect) (v : CuMv) : Bool :=
  c.okMv r v && decide (v.x.natAbs ≤ 4 * t.rangeH) && decide (v.y.natAbs ≤ 4 * t.rangeV) &&
  (t.all || (decide (v.list.val = 0) && decide (v.ref = 0)))

/-! ## Intra modes at the column's right edge (R121) -/

/-- A luma mode that reads no sample right of its block. DEDUCED (log 61): DC, vertical and horizontal, in HEVC also the modes from 2 to 10, which
read the left column alone, and at 4 x 4, where no smoothing reads one sample further, those up to 26. -/
def noRight (vvc : Bool) (tHi mode : Nat) : Bool :=
  if vvc then decide (mode ∈ [1, 18, 50])
  else decide (1 ≤ mode ∧ mode ≤ 10) || decide (mode = 26) || (decide (tHi ≤ 2) && decide (mode ≤ 26) && decide (mode ≠ 0))

/-- A chroma mode that reads none: not planar, and not the CCLM mode of the row above alone, which reads above-right. -/
def chromaNoRight (m : Nat) : Bool := decide (m ≠ 3) && decide (m ≠ 4)

/-! ## The coding that Decide may choose -/

/-- An intra CU of a level. -/
def CtuPlace.okIntra (c : CtuPlace) (t : Tools) (clip : Nat × Nat) (u : CuCode) : Bool :=
  let vvc := c.p.vvc
  u.modes.1.all (fun m => decide (m < if vvc then 67 else 35) && (decide (t.modes = []) || decide (m ∈ t.modes))) &&
  (if vvc then decide (u.chroma ∈ t.chroma) else decide (u.chroma = 0 ∨ 4 ≤ u.chroma) && decide (u.chroma ≤ 7)) &&
  ((decide (t.intraLo ≤ u.size) || u.largest clip) && decide (u.size ≤ t.intraHi)) &&
  (u.nxn.isNone || (t.nxn && decide (u.size = 8) && !vvc)) && u.mvs.isEmpty && !u.skip && u.merge.isNone && decide (u.part.val = 0) &&
  (!(c.inColumn && decide (c.xr + 1 = sweepEnd c.g c.nc c.rcd.sweepJ) && decide (u.rect.1 + u.rect.2.2.1 = clip.1)) ||
    (u.modes.2.all (noRight vvc u.tHi) && chromaNoRight u.chroma))

/-- An inter CU of a level: every prediction block has a vector, one per list; a merge index names the candidate whose vectors the CU
takes; other vectors are searched to the level's precision. -/
def CtuPlace.okInter (c : CtuPlace) (t : Tools) (u : CuCode) : Bool :=
  let pbs := if u.part.val = 0 then 1 else 2
  decide (pbs ≤ t.parts) && (c.p.vvc → decide (u.part.val = 0)) && !c.rcd.irap && !c.rcd.startup && !c.inColumn && u.nxn.isNone &&
  (List.range pbs).all (fun i => u.mvs.any (fun v => decide (v.pb.val = i))) &&
  u.mvs.all (fun v => decide (v.pb.val < pbs) && c.levelMv t (u.pbRect v.pb) v) &&
  decide ((u.mvs.map (fun v => (v.list, v.pb))).eraseDups.length = u.mvs.length) &&
  (t.all || decide (u.mvs.length = pbs)) &&
  (match u.merge with
   | some m => decide (m < t.merge) && decide (u.cands[m]? = some u.mvs) && (!t.skipOnly || u.skip)
   | none => !u.skip && u.mvs.all (fun v => decide (v.x % t.step = 0) && decide (v.y % t.step = 0)))

/-- A CU of a level (R104, R105). DESIGN CHOICE (log 124): the manual bounds the quadtree and the depth of the multi-type splits and no side of a CU; the splits
lead down to sides of 4. -/
def CtuPlace.okCu (c : CtuPlace) (t : Tools) (clip : Nat × Nat) (u : CuCode) : Bool :=
  u.aligned && (decide (t.cuLo ≤ u.size) || u.largest clip) && decide (u.path.length ≤ t.mt) &&
  (t.ternary || u.path.all (fun m => !m.ternary)) && decide (4 ≤ u.rect.2.2.1) && decide (4 ≤ u.rect.2.2.2) &&
  (if u.intra then c.okIntra t clip u else c.okInter t u) && u.okResidual t

/-- The coding of a CTU at an effort level (R104-R106, R120, R121). -/
def CtuPlace.okLevel (c : CtuPlace) (e : Nat) (clip : Nat × Nat) (k : CtuCode) : Bool :=
  let t := toolsOf c.p.vvc e
  k.cus.all (c.okCu t clip) && decide (k.rough ≤ t.rough) && decide (k.full ≤ t.full) && (!k.rdoq || t.rdoq) &&
  decide (k.sao.val ≤ t.sao) && (k.alf.isNone || (t.alf && c.p.vvc))

/-! ## Floor mode (R108, R117, R176) -/

/-- The merge index of a skip CU in floor mode: the lowest whose candidate obeys the clean-area rule. DEDUCED (log 62): and the bounds that R99
sets for every vector. -/
def CtuPlace.floorMerge (c : CtuPlace) (u : CuCode) : Option Nat :=
  (List.range u.cands.length).find? (fun i => ((u.cands[i]?).getD []).all (fun v => c.okMv u.rect v) && (u.cands[i]?).getD [] ≠ [])

/-- A CU of floor mode: as large as the picture's edge allows, one 64 x 64 CU where the CTU is whole; DC intra where intra is required,
with DC levels of magnitude up to 15 and none in the start-up picture; else skip, else inter with MV (0, 0) on L0[0] and no
residual. -/
def CtuPlace.floorCu (c : CtuPlace) (clip : Nat × Nat) (u : CuCode) : Bool :=
  u.aligned && u.largest clip && u.path.isEmpty && !u.ac && u.nxn.isNone && decide (u.part.val = 0) &&
  (if c.p.isIntra c.rcd c.reg c.x then
     u.intra && decide (u.mode = 1) && !u.skip && u.merge.isNone && u.mvs.isEmpty &&
     u.dc.all (fun l => decide (l.natAbs ≤ 15) && (!c.rcd.startup || decide (l = 0)))
   else
     !u.intra && u.dc.all (fun l => decide (l = 0)) &&
     (match c.floorMerge u with
      | some m => u.skip && decide (u.merge = some m) && decide (u.cands[m]? = some u.mvs)
      | none => !u.skip && u.merge.isNone && decide (u.mvs = [{ list := 0, ref := 0, x := 0, y := 0, pb := 0 }])))

/-- A coding that a CTU may have: at its effort level, or in floor mode. DESIGN CHOICE (log 62): in floor mode without SAO and ALF, which the manual's
description of it does not mention. -/
def CtuPlace.ok (c : CtuPlace) (k : CtuCode) : Bool :=
  let o := c.origin
  let clip := ctuClip c.p.w c.p.h o.1 o.2
  k.covers clip && (match c.level with
    | some e => c.okLevel e clip k
    | none => k.cus.all (c.floorCu clip) && k.alf.isNone && decide (k.sao.val = 0))

/-! ## The cost of a candidate (R107) -/

/-- The cost J = D + lambda x B of one candidate is below that of another, with lambda = 0.57 x 2^((QP - 12) / 3), compared exactly: the
cubes of both sides of lambda x (B - B') < D' - D. -/
def costLess (qp : Nat) (a b : Nat × Nat) : Bool :=
  let bits : Int := (a.2 : Int) - b.2
  let dist : Int := (b.1 : Int) - a.1
  decide (57 ^ 3 * 2 ^ qp * bits ^ 3 < 10 ^ 6 * 2 ^ 12 * dist ^ 3)

end Sys2Proof.Machine
end

