-- ==== Sys2Proof/Machine/Nals.lean ====
section
/-!
DEFINITION. The NAL units of a coded picture (R66-R70, R73, R103, R106, R109-R113, R119, R169): their order, when each is sent, and the
syntax elements whose values the manual gives. Elements that the manual leaves to the standards, and sizes, are not listed: a NAL
unit's size is a free value of its template.
-/
namespace Sys2Proof.Machine

/-- The digest of a stream's parameters that its templates depend on (R177). -/
def Params.digest (p : Params) : List Nat :=
  [p.typ, p.profile, p.tier, p.level, p.chroma, b2n p.bits10, p.w, p.h, p.nref, p.refresh, p.fast, p.brMax, p.bufUs, p.vui, p.vuiFlags,
    p.regs.length]

def flagOn (b : Bool) (s : String) : List Elem := [(s, b2n b)]

/-! ## VUI and HRD (R68, R112, R169) -/

/-- The timing information of the VUI: the picture period in seconds, in lowest terms, where both parts fit in 32 bits. -/
def vuiTiming (pnum pden : Nat) : List Elem :=
  let g := Nat.gcd pnum (pden * 10 ^ 9)
  let a := pnum / g
  let b := pden * 10 ^ 9 / g
  if a < 2 ^ 32 ∧ b < 2 ^ 32 then
    [("vui_timing_info_present_flag", 1), ("num_units_in_tick", a), ("time_scale", b)]
  else [("vui_timing_info_present_flag", 0)]

/-- The HRD parameters: bit_rate and cpb_size in the units of the smallest scale. -/
def hrdElems (brMax bufUs : Nat) : List Elem :=
  [("bit_rate_scale", 0), ("bit_rate_value", brSignalled brMax / 64), ("cpb_size_scale", 0),
    ("cpb_size_value", brMax * bufUs / 1000 / 16), ("cbr_flag", 0), ("low_delay_hrd_flag", 1)]

/-- The VUI: the colour description is the open command's, unchanged. -/
def Params.vuiElems (p : Params) (pnum pden : Nat) : List Elem :=
  [("colour_primaries", p.vui % 256), ("transfer_characteristics", p.vui / 256 % 256), ("matrix_coeffs", p.vui / 65536 % 256),
    ("video_full_range_flag", p.vuiFlags % 2)] ++ vuiTiming pnum pden ++ hrdElems p.brMax p.bufUs

/-! ## Parameter sets (R67-R70, R73, R103, R106) -/

/-- What both codecs' sequence parameter sets say: profile, tier and level, format and size, and the settings of R103. The smallest CU of VVC is the one
that R105 reaches (log 124). -/
def Params.spsCommon (p : Params) (level : Nat) : List Elem :=
  [("general_tier_flag", p.tier), ("general_level_idc", level), ("chroma_format_idc", p.chroma + 1), ("width", p.w), ("height", p.h),
    ("bit_depth", if p.bits10 then 10 else 8), ("ctu_size", 64), ("min_luma_cu_size", if p.vvc then 4 else 8), ("sao_enabled_flag", 1),
    ("temporal_mvp_enabled_flag", 0), ("scaling_list_enabled_flag", 0), ("long_term_ref_pics_flag", 0),
    ("max_num_ref_pics", p.nref), ("entropy_coding_sync_enabled_flag", 1)]

/-- The HEVC sequence parameter set: what R104 uses, and nothing else. -/
def Params.spsHevc (p : Params) (level pnum pden : Nat) : List Elem :=
  p.spsCommon level ++
  [("max_transform_size", 32), ("min_transform_size", 4), ("max_transform_hierarchy_depth", 2), ("amp_enabled_flag", 0),
    ("pcm_enabled_flag", 0), ("range_extension_tools", 0)] ++ p.vuiElems pnum pden

/-- The VVC sequence parameter set: what R105 uses, each other tool of R106 disabled, and a canvas's subpictures, each treated as a
picture, with no loop filter across its edges, with their IDs (R431, R432). -/
def Params.spsVvc (p : Params) (ids : List Nat) (level pnum pden : Nat) : List Elem :=
  p.spsCommon level ++ [("sps_video_parameter_set_id", 0)] ++
  [("max_transform_size", 64), ("min_qt_size", 8), ("max_mtt_hierarchy_depth", 2), ("max_num_merge_cand", 6), ("sps_alf_enabled_flag", 1), ("sps_cclm_enabled_flag", 1),
    ("sps_gdr_enabled_flag", b2n (!p.frame))] ++
  (["sps_affine_enabled_flag", "sps_sbtmvp_enabled_flag", "sps_mmvd_enabled_flag", "sps_gpm_enabled_flag", "sps_ciip_enabled_flag",
    "sps_bdof_enabled_flag", "sps_dmvr_enabled_flag", "sps_prof_enabled_flag", "sps_bcw_enabled_flag", "sps_amvr_enabled_flag",
    "sps_smvd_enabled_flag", "sps_mts_enabled_flag", "sps_lfnst_enabled_flag", "sps_isp_enabled_flag", "sps_mrl_enabled_flag",
    "sps_mip_enabled_flag", "sps_ibc_enabled_flag", "sps_palette_enabled_flag", "sps_act_enabled_flag", "sps_lmcs_enabled_flag",
    "sps_ccalf_enabled_flag", "sps_dep_quant_enabled_flag", "sps_joint_cbcr_enabled_flag", "sps_transform_skip_enabled_flag",
    "sps_bdpcm_enabled_flag", "sps_ref_pic_resampling_enabled_flag"].map (fun s => (s, 0))) ++
  (if p.typ = 3 then
    [("sps_subpic_info_present_flag", 1), ("sps_num_subpics_minus1", p.regs.length - 1), ("sps_subpic_id_len_minus1", 8),
      ("sps_subpic_id_mapping_explicitly_signalled_flag", 1)] ++
    (p.regs.zip ids).flatMap (fun e =>
      [("sps_subpic_ctu_top_left_x", e.1.x), ("sps_subpic_ctu_top_left_y", e.1.y), ("sps_subpic_width", e.1.w),
        ("sps_subpic_height", e.1.h), ("sps_subpic_id", e.2), ("sps_subpic_treated_as_pic_flag", 1),
        ("sps_loop_filter_across_subpic_enabled_flag", 0)])
   else [("sps_subpic_info_present_flag", 0)]) ++ p.vuiElems pnum pden

/-- The spans between the edges of intervals. -/
def gridSpans (l : List (Nat × Nat)) : List Nat :=
  let e := (l.flatMap (fun x => [x.1, x.1 + x.2])).eraseDups.foldl (fun l i => insertBy (fun (x y : Nat) => decide (x < y)) i l) []
  (e.zip (e.drop 1)).map (fun x => x.2 - x.1)

/-- The widths of the tile columns and the heights of the tile rows of a VVC picture in CTUs (R70, R432). DESIGN CHOICE (log 125): a canvas has a tile column
and a tile row between any two edges of its subpictures. -/
def Params.tileGrid (p : Params) : List Nat × List Nat :=
  let rs := (List.range p.nReg).map p.region
  (gridSpans (rs.map (fun r => (r.1, r.2.1))), gridSpans (rs.map (fun r => (r.2.2.1, r.2.2.2))))

/-- The tile columns and rows (R70, R432): HEVC's uniform spacing, VVC's explicit widths and heights. -/
def Params.tileElems (p : Params) : List Elem :=
  if p.vvc then
    [("pps_no_pic_partition_flag", 0), ("pps_num_exp_tile_columns_minus1", p.tileGrid.1.length - 1),
      ("pps_num_exp_tile_rows_minus1", p.tileGrid.2.length - 1), ("loop_filter_across_tiles_enabled_flag", 0)] ++
    p.tileGrid.1.map (fun w => ("pps_tile_column_width_minus1", w - 1)) ++ p.tileGrid.2.map (fun h => ("pps_tile_row_height_minus1", h - 1))
  else if p.tiles ≤ 1 then flagOn false "tiles_enabled_flag" else
  [("tiles_enabled_flag", 1), ("num_tile_rows_minus1", 0), ("loop_filter_across_tiles_enabled_flag", 0),
    ("num_tile_columns_minus1", p.tiles - 1), ("uniform_spacing_flag", 1)]

/-- The rectangular slices of a VVC picture in order (R110, R432): the place of each in CTUs, and its width; each is one CTU row high. -/
def Params.sliceElems (p : Params) : List Elem :=
  p.jobs.flatMap (fun j => [("slice_ctu_x", (p.region j.2).1), ("slice_ctu_y", j.1), ("slice_ctu_width", (p.region j.2).2.1)])

/-- The picture parameter set (R103, R106). -/
def Params.pps (p : Params) : List Elem :=
  [("cu_qp_delta_enabled_flag", 1), ("diff_cu_qp_delta_depth", 0), ("sign_data_hiding_enabled_flag", 1), ("weighted_pred_flag", 0),
    ("weighted_bipred_flag", 0), ("deblocking_filter_disabled_flag", 0), ("beta_offset_div2", 0), ("tc_offset_div2", 0),
    ("loop_filter_across_slices_enabled_flag", 1)] ++ p.tileElems ++
  (if p.vvc then [("pps_pic_width_in_luma_samples", p.w), ("pps_pic_height_in_luma_samples", p.h), ("pps_subpic_id_mapping_present_flag", 0),
      ("pps_chroma_alf_enabled_flag", 0), ("pps_rect_slice_flag", 1), ("pps_num_slices_in_pic_minus1", p.jobs.length - 1)] ++ p.sliceElems
   else [("transquant_bypass_enabled_flag", 0), ("transform_skip_enabled_flag", 0), ("dependent_slice_segments_enabled_flag", 1)])

/-! ## The NAL units of a picture (R110-R112, R119) -/

/-- The order of a NAL unit in its picture. -/
def NalKind.order : NalKind → Nat
  | .aud => 1 | .vps => 2 | .sps => 2 | .pps => 2 | .recovery => 3 | .mdcv => 3 | .cll => 3 | .hostSei _ _ => 4 | .ph => 5
  | .slice _ _ => 6

/-- A picture sends parameter sets and the SEI of order 3 (R112). -/
def Record.sendsSets (r : Record) : Bool := r.startup || r.irap || r.sweepStart

/-- The pictures of the sweep in force. -/
def Params.sweepLen (p : Params) (r : Record) : Nat := if r.swift then p.fast else p.refresh

/-- The picture's type (R109, R116, R117, R119): an IDR_N_LP, in VVC the GDR picture of a sweep's start with its recovery POC count, else a
trailing picture of B slices. Every picture is output. -/
def Params.picType (p : Params) (r : Record) : List Elem :=
  (if r.irap ∨ r.startup then [("IDR_N_LP", 1)]
   else if r.sweepStart ∧ p.vvc then [("GDR_NUT", 1), ("ph_recovery_poc_cnt", p.sweepLen r - 1)]
   else [("TRAIL", 1)]) ++ [("pic_output_flag", 1), ("pic_order_cnt", r.poc)]

/-- The type of a NAL unit in its header (R111, R116, R119). PRESUMED (log 47): the numbers are the standards'. -/
def Params.nalType (p : Params) (r : Record) (k : NalKind) : Nat :=
  let v := fun (h w : Nat) => if p.vvc then w else h
  match k with
  | .aud => v 35 20 | .vps => v 32 14 | .sps => v 33 15 | .pps => v 34 16 | .recovery => v 39 23 | .mdcv => v 39 23 | .cll => v 39 23
  | .hostSei _ _ => v 39 23 | .ph => v 39 19
  | .slice _ _ => if r.irap ∨ r.startup then v 20 8 else if r.sweepStart then v 1 10 else v 1 0

/-- The recovery point SEI of HEVC (R119). The manual gives its fields for the first picture of a sweep alone. -/
def Params.recovery (p : Params) (r : Record) : List Elem :=
  if r.irap ∨ r.startup then []
  else [("recovery_poc_cnt", p.sweepLen r - 1), ("exact_match_flag", 1), ("broken_link_flag", 0)]

/-- The NAL units of orders 1 to 5 of a picture, in order, with its host SEI in between (R111); `sets` says that it sends parameter sets and
the SEI of order 3. -/
def Params.headNals (p : Params) (level : Nat) (r : Record) (pnum pden : Nat) (sei : List (Nat × List Byte)) (sets : Bool) : List Nal :=
  [{ kind := .aud }] ++
  (if sets then
    (if p.vvc then [{ kind := .sps, elems := p.spsVvc (List.range p.regs.length) level pnum pden }]
     else [{ kind := .vps }, { kind := .sps, elems := p.spsHevc level pnum pden }]) ++
    [{ kind := .pps, elems := p.pps }] ++
    (if p.vvc then [] else [{ kind := .recovery, elems := p.recovery r }]) ++
    (if natBit p.vuiFlags 1 then [{ kind := .mdcv, elems := [("mdcv_payload", p.mdcv)] }] else []) ++
    (if natBit p.vuiFlags 2 then [{ kind := .cll, elems := [("cll_payload", p.cll)] }] else [])
   else []) ++
  sei.map (fun b => { kind := .hostSei b.1 b.2 }) ++
  (if p.vvc then [{ kind := .ph, elems := p.picType r }] else [])

/-- The slice of a job (R109, R110): in HEVC an independent segment for row 0 of the first tile and dependent segments for every other
row, in VVC a rectangular slice of its own; B slices, in an IRAP and the start-up picture I slices, with L1 equal to L0; no entry
points. -/
def Params.sliceNal (p : Params) (r : Record) (refs : List Nat) (row reg : Nat) : Nal :=
  let b := !(r.irap || r.startup)
  { kind := .slice row reg,
    elems := (if p.vvc then [("sh_rectangular", 1)]
      else [("dependent_slice_segment_flag", b2n (decide (row ≠ 0) || decide (reg ≠ 0)))] ++ p.picType r) ++
      [("slice_type_B", b2n b), ("num_entry_points", 0)] ++
      (refs.map (fun m => ("ref_l0", m))) ++ (refs.map (fun m => ("ref_l1", m))) }

/-- The bytes of a NAL unit of a stream (R177): of its template, whose length is free; of a host SEI, its charge. -/
def Params.nalBytes (p : Params) (k : NalKind) : Nat :=
  let t := fun (i : Nat) => Config.overheadBits (8 + i) p.digest % 2 ^ 16 + 3
  match k with
  | .aud => t 0 | .vps => t 1 | .sps => t 2 | .pps => t 3 | .recovery => t 4 | .mdcv => t 5 | .cll => t 6 | .ph => t 7
  | .hostSei b _ => ceilDiv b 8
  | .slice _ _ => 0

/-- The bytes of a list of NAL units. -/
def Params.nalsBytes (p : Params) (l : List Nal) : Nat := l.foldl (fun n x => n + p.nalBytes x.kind) 0

/-- C_SLICE (R177): the longest slice header template and 64 bits. -/
def Params.cSlice (p : Params) : Nat := Config.overheadBits 0 p.digest % 2 ^ 15 + 64

/-- OVH_MAX and OVH_MIN (R177, R178): the sizes of orders 1 to 5 without host SEI, in a picture that sends parameter sets, and those of orders 1 and
5 in one that sends none. -/
def Params.ovhMax (p : Params) : Nat := 8 * p.nalsBytes (p.headNals 0 {} 1 1 [] true)
def Params.ovhMin (p : Params) : Nat := 8 * p.nalsBytes (p.headNals 0 {} 1 1 [] false)

/-- DON as sent in the stream's session (R113): the VCL NAL units per picture minus 1, where DON is used. -/
def Params.donDiff (p : Params) (don : Bool) : Nat := if don then p.jobs.length - 1 else 0

end Sys2Proof.Machine
end

