-- ==== Sys2Proof/Machine/Packets.lean ====
section
/-!
DEFINITION. Deadlines (R50, R51), packet sizes (R401, R417, R421), and the placing of frames into the queues of media ports and
of subscriber services (R439, R440).
-/
namespace Sys2Proof.Machine

/-! ## Ports (R368, R382, R396, R398) -/

/-- The port is ON. -/
def State.portOn (s : State) (p : Nat) : Bool := decide (s.get (R.PORTp_STATE_STATE p) = 2)

/-- The lanes on which a port runs (R368). -/
def State.portLanes (s : State) (p : Nat) : List Nat :=
  if s.flag (R.LANEl_QMODE_QMODE (4 * (p / 4))) then (List.range 4).map (fun i => 4 * (p / 4) + i) else [p]

/-- The port receives: it is ON and has link, which a lane in RAW66, OFF or in receive doze denies (R382, R387, R392). DEDUCED (log 84): a frame passes
no lane without block lock. -/
def State.portHears (s : State) (p : Nat) : Bool := s.portExists p && s.portOn p && s.flag (R.LANEl_STAT_LINK p)

/-- What the port sends reaches its line: every lane is ON with its driver awake, outside transmit doze (R387, R392). -/
def State.portLit (s : State) (p : Nat) : Bool :=
  (s.portLanes p).all (fun l => decide (s.get (R.LANEl_STATE_STATE l) = 2) && decide (s.get (R.LANEl_DOZE_TX_PWR l) < 2))

/-- The port's receiver hears its own transmitter: a lane runs a near-end loopback (R396). -/
def State.portNear (s : State) (p : Nat) : Bool :=
  (s.portLanes p).any (fun l => decide (s.get (R.LANEl_CFG_LB l) = 1) || decide (s.get (R.LANEl_CFG_LB l) = 2))

/-- A lane of the port is in RAW66, so the port receives and sends nothing (R382). -/
def State.portRaw (s : State) (p : Nat) : Bool := (s.portLanes p).any (fun l => decide (s.get (R.LANEl_CFG_BL_MODE l) = 2))

/-- The port's own transmit data is discarded: a lane runs a far-end loopback (R396). -/
def State.portFar (s : State) (p : Nat) : Bool := (s.portLanes p).any (fun l => decide (s.get (R.LANEl_CFG_LB l) = 3))

/-- The RFC 1112 mapping of an IPv4 group. -/
def groupMac (ip : Nat) : Nat := 0x01005E000000 + ip % 2 ^ 23

/-- The port's own address. -/
def State.portMac (s : State) (p : Nat) : Nat := s.get (R.PORTp_MAC_H_MAC p) * 2 ^ 32 + s.get (R.PORTp_MAC_L_MAC p)

/-- The tag of a frame that the port forms, of traffic class `c` (R401). -/
def State.portTag (s : State) (p c : Nat) : Option (Nat × Nat) :=
  if s.flag (R.PORTp_CFG_VLAN_EN p) then some (s.get (R.PORTp_CFG_VID p), c) else none

/-- Something leaves on a port's line, where its lanes send. -/
def State.emitLit (s : State) (p : Nat) (o : Out) : State := if s.portLit p then s.emit o else s

/-- A membership report, or a leave, of a port that is ON and sends them (R398, R400, R401): to the group of IGMPv3 reports. Its traffic class and its DSCP, which the
manual gives for other packets alone, are free values. -/
def State.igmpSend (s : State) (p g : Nat) (join : Bool) : State :=
  if ¬ s.flag (R.PORTp_CFG_IGMP_EN p) ∨ ¬ s.portExists p ∨ ¬ s.portOn p ∨ s.portRaw p then s else
  let (c, s) := s.draw 3
  let (d, s) := s.draw 6
  (s.bump (R.PORTp_TX_FRAMES_COUNT p)).emitLit p (.igmp p g join
    { dstMac := groupMac 0xE0000016, srcMac := s.portMac p, tag := s.portTag p c, srcIp := s.get (R.PORTp_IP_ADDR p), dstIp := 0xE0000016,
      ttl := s.get (R.PORTp_QOS_TTL p), dscp := d })

/-! ## Instants of a picture -/

/-- The instant of Stroke `k` plus IN_OFS plus `r` row periods plus `ns`, exactly (R44, R50, R78, R228). -/
def State.rowInst (s : State) (p : Params) (k r ns : Nat) : Inst :=
  let den := s.pden p.gen * p.nRows
  ⟨(s.get (R.STRKg_PHASE_PHASE p.gen) + p.inOfs + ns) * den + k * s.pnum p.gen * p.nRows + r * s.pnum p.gen, den⟩

/-- DL of row `r` of the picture of Stroke `k` (R50, R51). -/
def State.rowDl (s : State) (p : Params) (k r : Nat) : Inst :=
  if p.frame then s.rowInst p k (p.delay * p.nRows + r + 1) 0 else s.rowInst p k (r + 1 + p.delay) 0

/-- CUT of band `b` (R78, R228). -/
def State.cutInst (s : State) (p : Params) (k b : Nat) : Inst := s.rowInst p k (b + 1) p.grace

/-- The 90 kHz stamp of Stroke `k` (R77, R221, R239, R418). -/
def State.stamp90 (s : State) (g k : Nat) : Nat :=
  let t := s.strokeAt g k
  t.num * 90000 / (t.den * 10 ^ 9) % 2 ^ 32

/-- The first Stroke of a stream: the one it opened at, or, while it is STARTING and its allocation has ended, the one at which it
will (R85): the first whose cycle comes 1 ms after the end, so whose instant lies past the last cycle before that. -/
def State.openStroke (s : State) (n : Nat) : Option Nat :=
  let t := s.strm n
  let g := t.p.gen
  if s.get (R.STRMn_STATE_STATE n) ≠ 1 then some t.kOpen else
  match t.allocEnd with
  | none => none
  | some a =>
    let step := max 1 s.cycleStep
    let before := a + (ceilDiv (10 ^ 6 * unitsPerNs) step - 1) * step
    let phase := s.get (R.STRKg_PHASE_PHASE g) * unitsPerNs
    some (max (s.gen g).next (if before < phase then 0 else (before - phase) * s.pden g / (s.pnum g * unitsPerNs) + 1))

/-- The Stroke of picture `pic` of a stream: counted, while it is STARTING, from the Stroke at which it will open. -/
def State.strokeOf (s : State) (n pic : Nat) : Nat := (s.openStroke n).getD (s.strm n).kOpen + pic

/-! ## Sizes -/

/-- The header bytes of a frame around its IP datagram, FCS included (R401). -/
def State.ethBytes (s : State) (p : Nat) : Nat := if s.flag (R.PORTp_CFG_VLAN_EN p) then 22 else 18

/-- The largest RTP payload of a port (R401). -/
def State.payMax (s : State) (p : Nat) : Nat := s.get (R.PORTp_CFG_MFS p) - s.ethBytes p - 40

/-- The wire bytes of an RTP packet of a payload (R445): the frame with FCS, of at least 64 bytes, plus 20. -/
def State.wireRtp (s : State) (p payload : Nat) : Nat := max 64 (payload + 40 + s.ethBytes p) + 20

/-- `n` bytes cut into pieces of at most `m`, the first of at most `m0`. -/
def pieces : Nat → Nat → Nat → Nat → List Nat
  | 0, _, _, _ => []
  | k + 1, n, m0, m => if n ≤ m0 ∨ m0 = 0 then [n] else m0 :: pieces k (n - m0) m m

/-- An RTP payload to form (R417): its bytes, the DON that it carries, and the headers that it begins with. -/
structure Pay where
  size : Nat
  don  : Option Nat
  head : List Byte
  deriving DecidableEq, Repr

/-- The two header bytes of a NAL unit or of a payload of type `typ`. PRESUMED (log 47): the layer is 0 and the temporal layer the lowest. -/
def nalHead (vvc : Bool) (typ : Nat) : List Byte :=
  if vvc then [0, BitVec.ofNat 8 (8 * typ + 1)] else [BitVec.ofNat 8 (2 * typ), 1]

/-- The header of a fragmentation unit: the first or the last of its NAL unit, in VVC of the last NAL unit of a picture, and the type. -/
def fuHead (vvc : Bool) (typ : Nat) (first last end_ : Bool) : Byte :=
  BitVec.ofNat 8 (b2n first * 128 + b2n last * 64 + (if vvc then b2n (last && end_) * 32 + typ % 32 else typ % 64))

/-- The DONL field. -/
def donl (don : Option Nat) : List Byte := match don with | some d => beBytes 2 d | none => []

/-- The RTP payloads of a NAL unit of `n` bytes (R417): whole, or fragmentation units with a 3-byte header, each as full as the limit allows, the first
with DONL where DON is sent; `end_` says that it ends its picture. -/
def nalPays (vvc : Bool) (typ n max : Nat) (don : Option Nat) (end_ : Bool) : List Pay :=
  let d := (donl don).length
  if n + d ≤ max then [{ size := n + d, don := don, head := nalHead vvc typ ++ donl don }] else
  let l := pieces (n + 1) (n - 2) (max - 3 - d) (max - 3)
  (l.zip (List.range l.length)).map (fun e =>
    let first : Bool := decide (e.2 = 0)
    let don := if first then don else none
    { size := e.1 + 3 + (donl don).length, don := don,
      head := nalHead vvc (if vvc then 29 else 49) ++ [fuHead vvc typ first (decide (e.2 + 1 = l.length)) end_] ++ donl don })

/-- The payload of an aggregation packet that holds NAL units of these sizes, each behind its size, with DONL for the first and DOND for
the others where DON is sent (R417). -/
def apSize (l : List Nat) (don : Bool) : Nat := 2 + l.foldl (fun n x => n + 2 + x) 0 + if don then l.length + 1 else 0

/-- NAL units gathered for one packet leave: one alone as a single NAL unit packet or as fragmentation units. PRESUMED (log 47): the RTP payload
format's, whose aggregation packets hold two or more. Each NAL unit comes as its type and its bytes; `don` is the first one's. -/
def apFlush (vvc : Bool) (l : List (Nat × Nat)) (max : Nat) (don : Option Nat) : List Pay :=
  match l with
  | [] => []
  | [n] => nalPays vvc n.1 n.2 max don false
  | _ => [{ size := apSize (l.map (fun n => n.2)) don.isSome, don := don, head := nalHead vvc (if vvc then 28 else 48) ++ donl don }]

/-- The RTP payloads of NAL units of orders 1 to 5, in aggregation packets filled in order up to the payload limit (R417); `don` is the first one's. -/
def headPays (vvc : Bool) (nals : List (Nat × Nat)) (max : Nat) (don : Option Nat) : List Pay :=
  let at_ := fun (k : Nat) => don.map (fun d => (d + k) % 2 ^ 16)
  let r := nals.foldl (fun (acc : List (Nat × Nat) × Nat × List Pay) n =>
    if acc.1 ≠ [] ∧ max < apSize ((acc.1 ++ [n]).map (fun n => n.2)) don.isSome then
      ([n], acc.2.1 + acc.1.length, acc.2.2 ++ apFlush vvc acc.1 max (at_ acc.2.1))
    else (acc.1 ++ [n], acc.2.1, acc.2.2)) ([], 0, [])
  r.2.2 ++ apFlush vvc r.1 max (at_ r.2.1)

/-! ## Placing frames -/

def State.frames (s : State) (p : Nat) : List Frame := tabGet [] s.egr p
def State.setFrames (s : State) (p : Nat) (l : List Frame) : State := { s with egr := tabSet [] s.egr p l }

/-- A frame enters a port's queues. -/
def State.putFrame (s : State) (p : Nat) (f : Frame) : State := s.setFrames p (s.frames p ++ [f])

/-- A packet of a payload enters queue `f` on one port, or on both with one pair number, each copy to its path's destination (R412). -/
def State.pushPair (s : State) (fl : Flow) (payload : Nat) (f : Frame) : State :=
  let a : Frame := { f with wire := s.wireRtp fl.portA payload, dst := (fl.ipA, fl.udpA) }
  if fl.portB = 255 then s.putFrame fl.portA a else
  let s : State := { s with frameNo := s.frameNo + 1 }
  (s.putFrame fl.portA { a with pair := s.frameNo }).putFrame fl.portB
    { f with wire := s.wireRtp fl.portB payload, dst := (fl.ipB, fl.udpB), pair := s.frameNo }

/-- The next sequence number of an output flow (R416, R418): it starts at a random value, a free one, and increases by 1 per packet. -/
def State.rtpNext (s : State) (key : Nat) : Nat × State :=
  let (v, s) := match (tabGet none s.rtpSeq key : Option Nat) with
    | some v => (v, s)
    | none => s.draw 32
  (v, { s with rtpSeq := tabSet none s.rtpSeq key (some ((v + 1) % 2 ^ 32)) })

/-- The RTP header of the next packet of a flow: `key` names its sequence, `ts` is its timestamp, of 16 bits of sequence number unless
`wide` (R416, R418). -/
def State.rtpHead (s : State) (key pt ssrc ts : Nat) (marker wide : Bool) (don : Option Nat) : Rtp × State :=
  let r := s.rtpNext key
  ({ pt := pt, seq := if wide then r.1 else r.1 % 2 ^ 16, ts := ts, ssrc := ssrc, rest := { marker := marker }, don := don }, r.2)

/-- A packet with the next header of its flow enters its queue. -/
def State.pushRtp (s : State) (fl : Flow) (payload key ts : Nat) (marker wide : Bool) (don : Option Nat) (f : Frame) : State :=
  let h := s.rtpHead key fl.pt fl.ssrc ts marker wide don
  h.2.pushPair fl payload { f with rtp := some h.1 }

/-- The output ports of a flow take at most the smaller payload limit of its paths, so that both copies are identical (R412). -/
def State.flowMax (s : State) (pa pb : Nat) : Nat :=
  if pb = 255 then s.payMax pa else min (s.payMax pa) (s.payMax pb)

def State.sub (s : State) (i : Nat) : Option SubS := tabGet none s.subs i
def State.setSub (s : State) (i : Nat) (v : Option SubS) : State := { s with subs := tabSet none s.subs i v }

/-- The subscribers of a canvas. -/
def State.subsOf (s : State) (n : Nat) : List (Nat × SubS) :=
  s.subs.filterMap (fun e => match e.2 with
    | some b => if b.canvas = n then some (e.1, b) else none
    | none => none)

/-- A subscriber is sent picture `pic` (R346, R347, R437). -/
def SubS.sends (b : SubS) (pic : Nat) : Bool :=
  (match b.first with | some f => decide (f ≤ pic) | none => false) &&
  (match b.last with | some l => decide (pic ≤ l) | none => true)

/-! ## The rows of an encoded picture (R52, R113, R114) -/

/-- A stream is sent with DON (R113): it has more than one tile or subpicture across. -/
def Params.don (p : Params) : Bool :=
  if p.typ = 3 then p.regs.any (fun r => decide (r.x ≠ 0)) else decide (1 < p.tiles)

/-- A subscriber's rectangle is more than one subpicture across (R433). -/
def SubS.don (b : SubS) (p : Params) : Bool :=
  let xs := b.ids.map (fun i => ((p.regs[i]?).getD {}).x)
  xs.any (fun x => xs.any (fun y => decide (x ≠ y)))

/-- The instant from which packets due at `i` may leave: `i`, or now where it has passed (R153). -/
def State.notBefore (s : State) (i : Inst) : Inst := if s.reached i then nowInst s.now else i

/-! ## Extracted streams (R432-R435) -/

/-- Packets of a subscriber enter its service's queue, or are discarded and counted where the service is disabled (R438). -/
def State.pushSub (s : State) (i : Nat) (b : SubS) (pays : Nat → List Pay) (elig : Inst) (pic : Nat) (last : Bool) : State :=
  let q := 4 * i + b.svc
  let pa := s.get (R.EGR_SVCs_v_CFG_PORT_A i b.svc)
  let pb := s.get (R.EGR_SVCs_v_CFG_PORT_B i b.svc)
  let l := pays (s.flowMax pa pb)
  let p := (s.strm b.canvas).p
  let fl : Flow := { portA := pa, portB := pb, pt := b.pt, ssrc := b.ssrc, ipA := b.ip, ipB := b.ip, udpA := b.udp, udpB := b.udp }
  if ¬ s.flag (R.EGR_SVCs_v_CFG_EN i b.svc) then s.addSat (R.SPX_SUBs_DROP_COUNT i) l.length else
  (l.zip (List.range l.length)).foldl (fun s e =>
    let fin := last && decide (e.2 + 1 = l.length)
    s.pushRtp fl e.1.size (2 ^ 16 + i) (s.stamp90 p.gen (s.strokeOf b.canvas pic)) fin false e.1.don
      { kind := 1, key := q, elig := elig, stream := some b.canvas, pic := pic, last := fin, bytes := e.1.head }) s

/-- The subpictures of an extracted stream in their raster order, in which their canvas IDs rise (R73, R433). -/
def SubS.order (b : SubS) : List Nat := b.ids.foldl (fun l i => insertBy (fun (x y : Nat) => decide (x < y)) i l) []

/-- The parameters of an extracted stream (R432, R435): the rectangle that its subpictures fill, with their places relative to its top
left, in raster order, and the rate and buffer that it signals. -/
def State.subParams (s : State) (b : SubS) : Params :=
  let p := (s.strm b.canvas).p
  let l := b.order.map (fun i => (p.regs[i]?).getD {})
  let x0 := l.foldl (fun m r => min m r.x) 65536
  let y0 := l.foldl (fun m r => min m r.y) 65536
  let x1 := l.foldl (fun m r => max m (r.x + r.w)) 0
  let y1 := l.foldl (fun m r => max m (r.y + r.h)) 0
  { p with w := 64 * (x1 - x0), h := 64 * (y1 - y0), regs := l.map (fun r => { r with x := r.x - x0, y := r.y - y0 }),
           brMax := if b.subbr = 0 then p.brMax else b.subbr }

/-- The NAL units of orders 1 to 5 of a picture of a stream. -/
def State.picNals (s : State) (n : Nat) (q : Pic) : List Nal :=
  let t := s.strm n
  t.p.headNals t.level q.record (s.pnum t.p.gen) (s.pden t.p.gen) q.sei q.record.sendsSets

/-- Those of an extracted stream (R432): the parameter sets rewritten for the subscriber, with its tier and level (R434), every other one
unchanged. The subscriber's first picture sends the sets and the SEI of order 3 whatever its kind (R437). -/
def State.subNals (s : State) (i : Nat) (b : SubS) (q : Pic) : List Nal :=
  let g := (s.strm b.canvas).p.gen
  let p := { s.subParams b with tier := s.get (R.SPX_SUBs_CFG_TIER i) }
  let level := s.get (R.SPX_SUBs_CFG_LEVEL i)
  let t := s.strm b.canvas
  (t.p.headNals t.level q.record (s.pnum g) (s.pden g) q.sei (q.record.sendsSets || decide (b.first = some q.n))).map (fun x => match x.kind with
    | .sps => { x with elems := p.spsVvc b.order level (s.pnum g) (s.pden g) }
    | .pps => { x with elems := p.pps }
    | _ => x)

/-- Their sizes: a rewritten set has a length of its own. -/
def State.subSizes (s : State) (i : Nat) (b : SubS) (q : Pic) : List Nat :=
  (s.subNals i b q).map (fun x => match x.kind with
    | .sps => (s.subParams b).nalBytes .sps
    | .pps => (s.subParams b).nalBytes .pps
    | k => (s.strm b.canvas).p.nalBytes k)

/-! ## Transport streams (R421, R422) -/

/-- The clock of a PCR: device time at 27 MHz, in its field of 33 bits at 90 kHz and a remainder of 300. -/
def State.pcrNow (s : State) : Nat := s.ns * 27 / 1000 % (2 ^ 33 * 300)

/-- TS packets are cut from the PES packet's bytes while a whole one fills, or, with `flush`, until none are left. A PCR takes 8 bytes of a
packet's 184: in the first packet of a picture, and in the first one formed 20 ms after the last. DESIGN CHOICE (log 34): the manual asks for one at least
every 40 ms. -/
def State.tsCut (s : State) (flush : Bool) : Nat → TsS → TsS
  | 0, t => t
  | k + 1, t =>
    let due := t.pts.isSome || (match t.pcr with | none => true | some a => decide (a + 20000000 ≤ s.ns))
    let room := if due then 176 else 184
    if t.bytes = 0 ∨ (t.bytes < room ∧ ¬ flush) then t else
    s.tsCut flush k { t with
      bytes := t.bytes - room, pts := none, pcr := if due then some s.ns else t.pcr,
      pkts := t.pkts ++ [{ pid := 0x100, pts := t.pts, pcr := if due then some s.pcrNow else none }] }

/-- A transport stream on a port, in which 40 ms have passed since its last PCR, sends one in a packet of its own; null packets fill the RTP packet (R422).
DESIGN CHOICE (log 34): it is formed as the port looks for a frame to send. -/
def State.pcrDue (s : State) (p : Nat) : State :=
  s.streams.foldl (fun s e =>
    let q := e.2.p
    match e.2.ts.pcr with
    | none => s
    | some a =>
      if ¬ q.outFlow.ts ∨ q.outFlow.portA ≠ p ∨ s.get (R.STRMn_STATE_STATE e.1) < 2 ∨ s.ns < a + 40000000 then s else
      let s := s.updStrm e.1 (fun t => { t with ts := { t.ts with pcr := some s.ns } })
      s.pushRtp { q.outFlow with pt := 33 } (188 * 7) (128 * e.1) (s.stamp90 q.gen (s.strokeOf e.1 e.2.outPic)) false false none
        { kind := 0, key := e.1, elig := nowInst s.now, stream := some e.1, pic := e.2.outPic,
          tsp := { pid := 0x100, pcr := some s.pcrNow } :: List.replicate 6 { pid := 0x1FFF } }) s

/-- A picture begins in a transport stream: PAT and PMT where 100 ms have passed, and the header of its PES packet, of 14 bytes with its PTS. -/
def State.tsBegin (s : State) (n pic : Nat) (t : TsS) : TsS :=
  let p := (s.strm n).p
  let at_ := s.strokeAt p.gen (s.strokeOf n pic)
  let due := match t.pat with | none => true | some a => decide (a + 100000000 ≤ s.ns)
  { t with
    pkts := t.pkts ++ (if due then [{ pid := 0, pat := some (1, 0x20) }, { pid := 0x20, program := some (1, 0x100, if p.vvc then 0x33 else 0x24) }] else []),
    pat := if due then some s.ns else t.pat, bytes := t.bytes + 14, pts := some (at_.num * 90000 / (at_.den * 10 ^ 9) % 2 ^ 33) }

/-- Seven TS packets make an RTP packet, or fewer in the last packet of a picture. -/
def State.tsSend (s : State) (n pic : Nat) (elig : Inst) (last : Bool) : Nat → TsS → State × TsS
  | 0, t => (s, t)
  | k + 1, t =>
    if t.pkts.length < 7 ∧ (¬ last ∨ t.pkts = []) then (s, t) else
    let p := (s.strm n).p
    let now_ := t.pkts.take 7
    let rest := t.pkts.drop 7
    let fin := last && rest.isEmpty
    let s := s.pushRtp { p.outFlow with pt := 33 } (188 * now_.length) (128 * n)
      (s.stamp90 p.gen (s.strokeOf n pic)) fin false none
      { kind := 0, key := n, elig := elig, stream := some n, pic := pic, last := fin, tsp := now_ }
    State.tsSend s n pic elig last k { t with pkts := rest }

/-- Bytes of NAL units, with their start codes, enter a stream's transport stream and leave as packets. -/
def State.pushTs (s : State) (n pic bytes : Nat) (first last : Bool) (elig : Inst) : State :=
  let t := (s.strm n).ts
  let t := if first then s.tsBegin n pic t else t
  let t := { t with bytes := t.bytes + bytes }
  let t := s.tsCut last (t.bytes + 1) t
  let r := s.tsSend n pic elig last (t.pkts.length + 1) t
  r.1.updStrm n (fun u => { u with ts := r.2 })

/-! ## The packets of a picture -/

/-- Packets of stream `n` enter its flow's queue; with `last`, the last of them ends the picture (R418). -/
def State.pushFlow (s : State) (n : Nat) (fl : Flow) (pays : List Pay) (elig : Inst) (pic : Nat) (last : Bool) : State :=
  let p := (s.strm n).p
  (pays.zip (List.range pays.length)).foldl (fun s e =>
    let fin := last && decide (e.2 + 1 = pays.length)
    s.pushRtp fl e.1.size (128 * n) (s.stamp90 p.gen (s.strokeOf n pic)) fin false e.1.don
      { kind := 0, key := n, elig := elig, stream := some n, pic := pic, last := fin, bytes := e.1.head }) s

/-- The NAL units of orders 1 to 5 of a picture enter the queues of everything that carries them (R111, R417, R432). -/
def State.pushHead (s : State) (n : Nat) (q : Pic) (elig : Inst) : State :=
  let t := s.strm n
  let p := t.p
  if p.typ = 3 then
    (s.subsOf n).foldl (fun s e =>
      let b := e.2
      if ¬ b.sends q.n then s else
      let l := s.subNals e.1 b q
      let nals := (l.zip (s.subSizes e.1 b q)).map (fun x => (p.nalType q.record x.1.kind, x.2))
      (s.emit (.nals n q.n (some e.1) l)).pushSub e.1 b
        (fun m => headPays p.vvc nals m (if b.don p then some b.dons else none)) elig q.n false) s
  else
    let l := s.picNals n q
    let s := s.emit (.nals n q.n none l)
    let sizes := l.map (fun x => p.nalBytes x.kind)
    let fl := p.outFlow
    if fl.ts then s.pushTs n q.n (sizes.foldl (fun k x => k + x + 4) 0) true false elig
    else s.pushFlow n fl (headPays p.vvc (l.map (fun x => (p.nalType q.record x.kind, p.nalBytes x.kind))) (s.flowMax fl.portA fl.portB)
      (if p.don then some t.dons else none)) elig q.n false

/-- The place of a job's slice among the VCL NAL units of a picture in decoding order (R113): tile or subpicture by tile or subpicture. -/
def vclPlace (jobs : List (Nat × Nat)) (row reg : Nat) : Nat := (jobs.takeWhile (fun j => j != (row, reg))).length

/-- A job's slice is the last to leave of the jobs of its picture (R113, R418): of the last row, that of the highest tile or subpicture. -/
def lastSlice (jobs : List (Nat × Nat)) (row reg : Nat) : Bool :=
  jobs.all (fun j => decide (j.1 < row) || (decide (j.1 = row) && decide (j.2 ≤ reg)))

/-- The slice of a job (R109, R110) enters the queues of everything that carries it. -/
def State.pushSlice (s : State) (n : Nat) (q : Pic) (row reg bytes : Nat) (elig : Inst) : State :=
  let t := s.strm n
  let p := t.p
  let nal := p.sliceNal q.record q.refs row reg
  let typ := p.nalType q.record nal.kind
  if p.typ = 3 then
    (s.subsOf n).foldl (fun s e =>
      let b := e.2
      if ¬ b.sends q.n ∨ reg ∉ b.ids then s else
      let jobs := p.jobs.filter (fun j => decide (j.2 ∈ b.ids))
      let don := (b.dons + (s.subNals e.1 b q).length + vclPlace jobs row reg) % 2 ^ 16
      let last := lastSlice jobs row reg
      (s.emit (.nals n q.n (some e.1) [nal])).pushSub e.1 b (fun m => nalPays p.vvc typ bytes m (if b.don p then some don else none) last) elig q.n last) s
  else
    let fl := p.outFlow
    let s := s.emit (.nals n q.n none [nal])
    let don := (t.dons + (s.picNals n q).length + vclPlace p.jobs row reg) % 2 ^ 16
    let last := lastSlice p.jobs row reg
    if fl.ts then s.pushTs n q.n (bytes + 4) false last elig
    else s.pushFlow n fl (nalPays p.vvc typ bytes (s.flowMax fl.portA fl.portB) (if p.don then some don else none) last) elig q.n last

/-- A picture's packets are all queued: the DON of what follows it. -/
def State.donNext (s : State) (n : Nat) (q : Pic) : State :=
  let p := (s.strm n).p
  if p.typ = 3 then
    (s.subsOf n).foldl (fun s e =>
      let b := e.2
      if ¬ b.sends q.n then s else
      s.setSub e.1 (some { b with
        dons := (b.dons + (s.subNals e.1 b q).length + (p.jobs.filter (fun j => decide (j.2 ∈ b.ids))).length) % 2 ^ 16 })) s
  else s.updStrm n (fun t => { t with dons := (t.dons + (s.picNals n q).length + p.jobs.length) % 2 ^ 16 })

/-- The row at which a stream's output stands leaves once every slice of the row is complete; the NAL units of orders 1 to 5
leave ahead of row 0 (R113, R114). -/
def State.pushRows : Nat → Nat → State → State
  | 0, _, s => s
  | fuel + 1, n, s =>
    let t := s.strm n
    let p := t.p
    let pic := t.outPic
    let row := t.outRow
    let jobs := p.jobs.filter (fun j => j.1 == row)
    let have_ := jobs.map (fun j => t.slices.find? (fun x => x.1 == pic && x.2.1 == row && x.2.2.1 == j.2))
    match s.pic n pic with
    | none => s
    | some q =>
    if jobs ≠ [] ∧ have_.all (fun x => x.isSome) then
      let elig := s.notBefore ((s.rowDl p (s.strokeOf n pic) row).addNs p.pace)
      let s := if row = 0 then s.pushHead n q elig else s
      let lastRow := decide (row + 1 = p.nRows)
      let s := have_.foldl (fun s x => match x with
        | some x => s.pushSlice n q row x.2.2.1 x.2.2.2 elig
        | none => s) s
      let s := if lastRow then s.donNext n q else s
      let s := s.updStrm n (fun t => { t with
        slices := t.slices.filter (fun x => !(x.1 == pic && x.2.1 == row)),
        outPic := if lastRow then pic + 1 else pic, outRow := if lastRow then 0 else row + 1 })
      State.pushRows fuel n s
    else s

/-- Frames of a picture, or of any picture, of a stream still wait on some port. -/
def State.framesLeft (s : State) (n : Nat) (pic : Option Nat) : Bool :=
  s.egr.any (fun e => e.2.any (fun f => f.stream == some n && (match pic with | some k => f.pic == k | none => true)))

end Sys2Proof.Machine
end

