-- ==== Sys2Proof/Machine/Crew.lean ====
section
/-!
DEFINITION. Crews (R129-R165): seats, spares and retirement, the Larder's slots, queues and readiness, the effort ladder, taking
and aborting a job, and the Crew record.
-/
namespace Sys2Proof.Machine

/-! ## Seats (R129-R132) -/

/-- Crew `c` is on the part (R132). -/
def State.crewPresent (s : State) (c : Nat) : Bool := decide (c < (if s.part = .ha then 2 else 4))

/-- Crew `c` is ON (R133). -/
def State.crewOn (s : State) (c : Nat) : Bool := decide (s.get (R.CREWc_STATE_STATE c) = 2)

/-- The STATE of Scull `u` (R163): 0 seated, 1 spare, 2 retired. -/
def State.sculState (s : State) (u : Nat) : Nat := s.get (R.CREWc_SCULLq_STATE (u / 36) (u % 36))

/-- Scull `u` is retired (R157). -/
def State.retired (s : State) (u : Nat) : Bool := decide (s.sculState u = 2)

/-- Seat `j` of Crew `c` is valid and names local Scull `q`. -/
def State.seatHolds (s : State) (c j q : Nat) : Bool :=
  s.flag (R.CREWc_SEATj_VALID c j) && decide (s.get (R.CREWc_SEATj_SCULL c j) = q)

/-- The seat of a local Scull. -/
def State.seatOf (s : State) (c q : Nat) : Option Nat := (List.range 32).find? (fun j => s.seatHolds c j q)

/-- L_c (R132). -/
def State.live (s : State) (c : Nat) : Nat :=
  if s.crewPresent c ∧ s.crewOn c then
    ((List.range 32).filter (fun j => s.flag (R.CREWc_SEATj_VALID c j) &&
      !s.retired (36 * c + s.get (R.CREWc_SEATj_SCULL c j)))).length
  else 0

/-- The spares of a Crew that no vacant seat has been given (R159), by rising local index. -/
def State.spares (s : State) (c : Nat) : List Nat :=
  (List.range 36).filter (fun q => decide (s.sculState (36 * c + q) = 1) && !((s.crew c).chosen.any (fun e => e.2 == q)))

/-- CREWc_STAT shows L_c, the spares left and a substitution that waits (R132, R159, R163). DESIGN CHOICE (log 35): SPARES has room for 4
alone, so where software has unseated more it shows 4; and at reset, while a Crew is OFF, LIVE shows the register table's 32. -/
def State.crewStat (s : State) (c : Nat) : State :=
  ((s.set (R.CREWc_STAT_LIVE c) (s.live c)).set (R.CREWc_STAT_SPARES c) (min 4 (s.spares c).length)).set
    (R.CREWc_STAT_SUB_PEND c) (b2n (decide ((s.crew c).chosen ≠ [])))

/-- The STATE of every unretired Scull of a Crew follows the seat map (R130). -/
def State.seatStates (s : State) (c : Nat) : State :=
  ((List.range 36).foldl (fun s q =>
    if s.retired (36 * c + q) then s
    else s.set (R.CREWc_SCULLq_STATE c q) (b2n (s.seatOf c q).isNone)) s).crewStat c

/-- A write of CREWc_SEATj (R130): one that would seat a Scull twice is ignored. A seat that software fills is vacant no more, and
a spare that software seats is no longer chosen. -/
def State.seatWrite (s : State) (c j : Nat) (d : Word) : State :=
  let q := wordGet d 0 6
  if wordGet d 7 1 = 1 ∧ (List.range 32).any (fun i => decide (i ≠ j) && s.seatHolds c i q) then s.cfgReport (A.CREWc_SEATj c j) else
  let s := s.plainWrite (A.CREWc_SEATj c j) d
  let w := s.crew c
  (s.setCrew c { w with chosen := w.chosen.filter (fun e => !(e.1 == j || (decide (wordGet d 7 1 = 1) && e.2 == q))) }).seatStates c

/-- SEAT_WRITE (R130). -/
def execSeatWrite (w : Who) (c : Fin 4) (j : Fin 32) (d : Word) (s : State) : Host.Outcome State Fault Refusal :=
  .next (s.ownWrite w (A.CREWc_SEATj c j) d (fun s => s.seatWrite c j d))

/-! ## Crew sets and the Larder's slots (R135, R136, R163) -/

/-- The Crews of a set: its homes and its shadows. -/
def CrewSet.crews (e : CrewSet) (typ : Nat) : List Nat :=
  ((if typ = 3 then e.sub else [e.home]) ++ [e.sh0, e.sh1].filter (fun c => decide (c < 4))).eraseDups

/-- The Crews of a stream's set in force. -/
def StreamS.crews (t : StreamS) : List Nat := if t.p.typ = 2 then [] else t.eff.crews t.p.typ

/-- The home Crew of a job of a tile or subpicture. -/
def StreamS.homeOf (t : StreamS) (reg : Nat) : Nat := if t.p.typ = 3 then (t.eff.sub[reg]?).getD 0 else t.eff.home

/-- The set that the registers name (R164, R165). -/
def State.regSet (s : State) (n : Nat) : CrewSet :=
  let v := s.get (R.STRMn_STATE_CANVAS n)
  let k := (s.strm n).p.regs.length
  { home := s.get (R.STRMn_SCHED_HOME n), sh0 := s.get (R.STRMn_SCHED_SHADOW0 n), sh1 := s.get (R.STRMn_SCHED_SHADOW1 n),
    sub := if (s.strm n).p.typ = 3 then (List.range k).map (fun i => wordGet (s.reg (A.CNVv_HOMEw v (i / 16))) (2 * (i % 16)) 2)
           else [] }

/-- The Larder slot that holds a stream's context. -/
def State.ldrSlot (s : State) (c n : Nat) : Option Nat :=
  (List.range 48).find? (fun i => s.flag (R.CREWc_LDR_SLOTs_USED c i) && decide (s.get (R.CREWc_LDR_SLOTs_STREAM c i) = n))

/-- The byte of the device's Larder address space at an offset of a slot (R137, R540). -/
def ldrAt (c slot off : Nat) : Nat := c * 2 ^ 20 + slot * 16384 + off

/-- The stream header of a Larder slot (R138). -/
def State.ldrHeader (s : State) (n : Nat) : List Byte :=
  let t := s.strm n
  let p := t.p
  let kind := p.typ + (if p.vvc then 4 else 0) + 8 * p.chroma + (if p.bits10 then 32 else 0) + (if p.frame then 64 else 0)
  leBytes 1 n ++ leBytes 1 kind ++ leBytes 1 p.delay ++ leBytes 1 t.nref ++ leBytes 2 p.wCtu ++ leBytes 2 p.nRows ++
  leBytes 2 p.nReg ++ leBytes 2 p.refresh ++ leBytes 2 p.fast ++ leBytes 2 0 ++ leBytes 4 (s.pnum p.gen) ++
  leBytes 2 (s.pden p.gen) ++ leBytes 2 0 ++ leBytes 4 p.inOfs ++ leBytes 4 (s.unitEpoch 1 n) ++ leBytes 32 0

/-- A poisoned granule of the Crew's Larder keeps the jobs of a stream from it (R527). -/
def CrewS.fails (w : CrewS) (n : Nat) : Bool := w.bad.any (fun e => e.1 == n)

/-- A whole granule of a Larder is written; where it was poisoned its stream is served again (R527). -/
def State.ldrGranule (s : State) (at_ : Nat) (bs : List Byte) : State :=
  let s := s.arrWrite 2 at_ (granData 2 bs)
  let c := at_ / 2 ^ 20
  let w := s.crew c
  if w.bad = [] then s else s.setCrew c { w with bad := w.bad.filter (fun e => e.2 != at_) }

/-- Bytes are written into a Larder as whole granules. -/
def State.ldrWrite (s : State) (at_ : Nat) (bs : List Byte) : State :=
  (List.range (bs.length / 16)).foldl (fun s i => s.ldrGranule (at_ + 16 * i) (slice bs (16 * i) 16)) s

/-- Granules of a slot whose bytes the manual does not lay out are written (R137): each is a free value. -/
def State.ldrFree (s : State) (at_ granules : Nat) : State :=
  (List.range granules).reverse.foldl (fun s i =>
    let (d, s) := s.draw 128
    s.ldrGranule (at_ + 16 * i) (leBytes 16 d)) s

/-- The tables and templates of a stream's context (R137): the slice address of a tile or subpicture is its number. -/
def State.ldrCtx (s : State) (n : Nat) : LdrCtx :=
  let t := s.strm n
  let p := t.p
  { table := (List.range p.nReg).map (fun i => let r := p.region i; (r.1, r.2.1, r.2.2.1, r.2.2.2, i)),
    model := (s.get (R.RRCn_ALPHA_P_LA n), s.get (R.RRCn_ALPHA_I_LA n), (s.reg (A.RRCn_MODEL n)).toNat),
    nals := if p.typ = 1 then [] else p.headNals t.level {} (s.pnum p.gen) (s.pden p.gen) [] true ++ [p.sliceNal {} [] 0 0] }

/-- They stand in a Crew's Larder. -/
def State.ldrTables (s : State) (c n : Nat) : State :=
  let w := s.crew c
  s.setCrew c { w with ctx := (n, s.ldrCtx n) :: w.ctx.filter (fun e => e.1 != n) }

/-- Row rate control writes the QP model snapshot of a stream into every Larder that holds its context (R137, R189). -/
def State.ldrModel (s : State) (n : Nat) : State :=
  (List.range 4).foldl (fun s c =>
    if (s.crew c).ctx.any (fun e => e.1 == n) then
      let s := match s.ldrSlot c n with | some i => s.ldrFree (ldrAt c i 0x0100) 64 | none => s
      s.ldrTables c n
    else s) s

/-- Cox firmware loads a stream's context into a Crew's Larder (R85, R135): the lowest free slot, its header, its tables and templates. The
manual gives their places and not their bytes (R137), so what they say is held beside their bytes (log 110). -/
def State.ldrLoad (s : State) (c n : Nat) : State :=
  match s.ldrSlot c n with
  | some _ => s
  | none =>
    match (List.range 48).find? (fun i => !s.flag (R.CREWc_LDR_SLOTs_USED c i)) with
    | none => s
    | some i =>
      let s := ((s.set (R.CREWc_LDR_SLOTs_USED c i) 1).set (R.CREWc_LDR_SLOTs_STREAM c i) n).set (R.CREWc_LDR_SLOTs_CUR c i) 0
      ((s.ldrFree (ldrAt c i 0x0040) 764).ldrWrite (ldrAt c i 0) (s.ldrHeader n)).ldrTables c n

/-- A Larder slot is freed. -/
def State.ldrDrop (s : State) (c n : Nat) : State :=
  match s.ldrSlot c n with
  | none => s
  | some i =>
    let w := s.crew c
    (s.setReg (A.CREWc_LDR_SLOTs c i) 0).setCrew c { w with bad := w.bad.filter (fun x => x.1 != n), ctx := w.ctx.filter (fun x => x.1 != n) }

/-! ## Sequencers -/

def State.seq (s : State) (u : Nat) : SeqS := tabGet {} s.seqs u
def State.setSeq (s : State) (u : Nat) (q : SeqS) : State := { s with seqs := tabSet {} s.seqs u q }

/-- A Scull's sequencer stops: its job has ended, or its test. RUN written 0 meanwhile takes effect (R275). -/
def State.seqStop (s : State) (u : Nat) : State :=
  let q := s.seq u
  let s := s.setSeq u { img := q.img, stg := q.stg, token := q.token, agu0 := q.agu0, agu1 := q.agu1, lc0 := q.lc0, lc1 := q.lc1,
                        lc2 := q.lc2, cond := q.cond, stack := q.stack, upc := q.upc, bowq := q.bowq }
  let s := ((s.set (R.USTAT_BUSY u) 0).set (R.USTAT_INTRAP u) 0).set (R.USTAT_RETRY u) 0
  if q.runOff then s.set (R.UCTL_RUN u) 0 else s

/-- The job entry of the control store (R258): codec, decode, chroma. -/
def Params.jobEntry (p : Params) : Nat := 0x10 + (if p.vvc then 1 else 0) + (if p.typ = 1 then 2 else 0) + 4 * p.chroma

/-- A job starts at its entry, with counters, pointers and token zero and the stack empty (R258). -/
def State.seqStart (s : State) (u entry : Nat) : State :=
  let q := s.seq u
  let s := s.setSeq u { on := true, upc := entry, img := q.img, stg := q.stg, bowq := q.bowq }
  let s := ((s.set (R.USTAT_BUSY u) 1).set (R.USTAT_RSD u) 0).set (R.USTAT_RETRY u) 0
  s.set (R.USTAT_RES1 u) 0

/-! ## Queues and readiness (R143-R146) -/

/-- The order of a queue: a job put back stands ahead of every other; then the deadline, the stream, the tile or subpicture. -/
def Job.before (a b : Job) : Bool :=
  !b.again && (a.again || a.dl.lt b.dl || (a.dl.same b.dl && (decide (a.stream < b.stream) ||
    (decide (a.stream = b.stream) && decide (a.reg < b.reg)))))

/-- A job enters its home Crew's queue, or waits outside a full one, which is counted (R143, R146). -/
def State.enqueue (s : State) (c : Nat) (j : Job) : State :=
  let w := s.crew c
  if w.queue.length < 1024 then s.setCrew c { w with queue := insertBy Job.before j w.queue }
  else (s.setCrew c { w with wait := insertBy Job.before j w.wait }).bump (R.CREWc_QFULL_COUNT c)

/-- A job is put back ahead of every other (R143, R158). -/
def State.requeue (s : State) (c : Nat) (j : Job) : State :=
  let w := s.crew c
  let j := { j with again := true }
  if w.queue.length < 1024 then s.setCrew c { w with queue := j :: w.queue }
  else (s.setCrew c { w with wait := j :: w.wait }).bump (R.CREWc_QFULL_COUNT c)

/-- QUEUE_WAIT_ENTER (R146): the first job that waits outside enters once an entry is free. -/
def execQueueWaitEnter (c : Fin 4) (s : State) : Host.Outcome State Fault Refusal :=
  let w := s.crew c
  .next (match w.wait with
    | [] => s
    | j :: r => if w.queue.length < 1024 then
        s.setCrew c { w with wait := r, queue := if j.again then j :: w.queue else insertBy Job.before j w.queue }
      else s)

/-- How far a job has come. -/
def State.prog (s : State) (n pic row reg : Nat) : Option Prog :=
  s.progs.find? (fun g => g.stream == n && g.pic == pic && g.row == row && g.reg == reg)

def State.setProg (s : State) (g : Prog) : State :=
  { s with progs := s.progs.filter (fun h => !(h.stream == g.stream && h.pic == g.pic && h.row == g.row && h.reg == g.reg)) ++ [g] }

/-- A job has completed. -/
def State.jobDone (s : State) (n pic row reg : Nat) : Bool :=
  match s.prog n pic row reg with | some g => g.done | none => false

/-- The row above has completed Reconstruct for CTU `x + 1`, has completed, or does not exist (R144, R145). -/
def State.aboveReady (s : State) (j : Job) (x : Nat) : Bool :=
  decide (j.row = ((s.picP j.stream j.pic).region j.reg).2.2.1) ||
  (match s.prog j.stream j.pic (j.row - (s.picP j.stream j.pic).jobRows) j.reg with
   | some g => g.done || decide (x + 2 ≤ g.recon)
   | none => false)

/-- A luma line of a CTU row is final (R98) once its CTU is written back, but for lines 56 to 63, which wait for the next row of the tile or
subpicture, where there is one. -/
def State.lineFinal (s : State) (n pic row reg x line : Nat) : Bool :=
  let g := (s.strm n).p.region reg
  let done := fun (r : Nat) => match s.prog n pic r reg with | some g => g.done || decide (x < g.recon) | none => false
  done row && (decide (line < 56) || decide (row + 1 = g.2.2.1 + g.2.2.2) || done (row + 1))

/-- Bands 0 to `b` of a picture are final (R98): in each tile or subpicture the job of the row below has completed, or its own where it is
the last. A picture that is no longer in hand has completed. -/
def State.bandsFinal (s : State) (n pic b : Nat) : Bool :=
  match s.pic n pic with
  | none => true
  | some p =>
    let q := s.picP n pic
    p.fin.isSome || (List.range q.nReg).all (fun k =>
      let g := q.region k
      (List.range (b + 1 - g.2.2.1)).all (fun i =>
        let below := min (i + 1) (g.2.2.2 - 1)
        decide (g.2.2.2 ≤ i) || s.jobDone n pic (g.2.2.1 + below / q.jobRows * q.jobRows) k))

/-- How many bands of a picture, from its top, are final for a tile or subpicture (R98, R99): in a canvas those of the subpicture, whose vectors stay in it,
else those of every tile. -/
def State.finalBands (s : State) (n pic reg : Nat) : Nat :=
  let p := (s.strm n).p
  match s.pic n pic with
  | none => p.nRows
  | some q =>
    if q.fin.isSome then p.nRows else
    let g := p.region reg
    let (y0, y1) := if p.typ = 3 then (g.2.2.1, g.2.2.1 + g.2.2.2) else (0, p.nRows)
    let regs := if p.typ = 3 then [reg] else List.range p.nReg
    y0 + ((List.range (y1 - y0)).takeWhile (fun i =>
      regs.all (fun k => s.jobDone n pic (min (y0 + i + 1) (y1 - 1)) k))).length

/-- The reach of references of a decode job of row `r` (R218, R227, R229). -/
def Params.refReach (p : Params) (r : Nat) : Nat := min (r + if p.refRows = 0 then p.nRows - 1 else p.refRows) (p.nRows - 1)

/-- A decode job's entropy input is available (R229): everything that covers it is committed or written by the Bow, and its references
are final as far as it may reach; or its missing input has been declared lost. -/
def State.entropyReady (s : State) (j : Job) : Bool :=
  let d := (s.strm j.stream).dec
  let key := (j.pic, j.row, j.reg)
  decide (key ∈ d.lost) || (decide (key ∈ (if s.flag (R.STRMn_DCTL_AHEAD j.stream) then d.syn else d.inputs)) &&
    (match s.pic j.stream j.pic with
     | some p => p.refs.all (fun m => s.bandsFinal j.stream m ((s.strm j.stream).p.refReach j.row))
     | none => true))

/-- A queued job is startable (R144, R208): its picture's Stroke has fired and it has a slot, the row above is far enough, and a decode
job has its input. -/
def State.startable (s : State) (j : Job) : Bool :=
  (match s.pic j.stream j.pic with | some p => !p.waiting | none => false) && s.aboveReady j 0 && (!j.dec || s.entropyReady j)

/-! ## Cost and the effort ladder (R149-R153) -/

/-- The samples of a CTU (R95). -/
def Params.ctuSamples (p : Params) : Nat := 2048 * p.spp2

/-- The factor of R149 in hundredths. -/
def effFactor (e : Nat) : Nat := match e with | 0 => 100 | 1 => 80 | 2 => 65 | _ => 50

/-- The cost of `k` CTUs at level `e`, in units of 1/108 ns (R149): a decode job costs its E3 cost at every level (R224). -/
def Params.cost108 (p : Params) (dec : Bool) (k e : Nat) : Nat := k * p.ctuSamples * effFactor (if dec then 3 else e)

/-- `k` CTUs at level `e` and the guard fit before a deadline. -/
def State.fitsDl (s : State) (p : Params) (dl : Inst) (k e guard : Nat) : Bool :=
  decide ((s.now * 108 + (p.cost108 false k e + guard * 108) * unitsPerNs) * dl.den ≤ dl.num * 108 * unitsPerNs)

/-- The lowest level from `e` on that fits, else E3. -/
def State.lowestFit (s : State) (p : Params) (dl : Inst) (k guard e : Nat) : Nat :=
  ((List.range 4).find? (fun i => decide (e ≤ i) && s.fitsDl p dl k i guard)).getD 3

/-- The jobs of a picture are capped at E3 after a late row of it or of the one before (R153). -/
def StreamS.capE3 (t : StreamS) (pic : Nat) : Bool := match t.ceilTil with | some m => decide (pic ≤ m) | none => false

/-- The level at which Scull `u` codes the next CTU of its job (R96, R152, R153). -/
def State.levelOf (s : State) (u : Nat) (r : RunS) : Nat :=
  let c := u / 36
  let t := s.strm r.job.stream
  let cap := ((s.pic r.job.stream r.job.pic).map (fun p => p.record.cap)).getD 0
  let base := max r.told (max r.own (max (s.get (R.CREWc_STAT_CEIL_ACT c)) (max cap (max (s.get (R.CREWc_CTL_CEIL c))
    (max s.therm (if r.job.late ∨ t.capE3 r.job.pic then 3 else 0))))))
  s.lowestFit t.p r.job.dl (r.job.nCtu - r.x) (s.get (R.CREWc_GUARD_NS c)) (min base 3)

/-- A running encode job whose level must rise is preempted to it (R152). -/
def State.raiseLevel (s : State) (u : Nat) : State :=
  match s.run u with
  | none => s
  | some r =>
    let e := s.levelOf u r
    if r.job.dec ∨ e ≤ r.told then s else (s.setRun u (some { r with told := e })).sendPreempt u e false

/-- Every running job of a Crew's Sculls. -/
def State.raiseCrew (s : State) (c : Nat) : State := (List.range 36).foldl (fun s q => s.raiseLevel (36 * c + q)) s

/-- The cost at level `e` of every queued or running job of a Crew's queue whose deadline is within the horizon (R151), in 1/108 ns. -/
def State.horizonCost (s : State) (c e : Nat) : Nat :=
  let lim := nowInst (s.now + s.get (R.CREWc_HORIZON_NS c) * unitsPerNs)
  let near := fun (j : Job) => !(lim.lt j.dl)
  let cost := fun (j : Job) (k : Nat) => (s.strm j.stream).p.cost108 j.dec k e
  ((s.crew c).queue.filter near).foldl (fun n j => n + cost j j.nCtu) 0 +
  (s.runs.filterMap (fun x => x.2)).foldl (fun n r => n + if r.home = c ∧ near r.job = true then cost r.job (r.job.nCtu - r.x) else 0) 0

/-- CREW_CEILING (R151, R152): the ceiling, and the jobs whose level must rise. -/
def execCrewCeiling (c : Fin 4) (s : State) : Host.Outcome State Fault Refusal :=
  let room := s.live c * s.get (R.CREWc_HORIZON_NS c) * 108
  let e := ((List.range 4).find? (fun e => decide (s.horizonCost c e ≤ room))).getD 3
  .next ((s.set (R.CREWc_STAT_CEIL_ACT c) e).raiseCrew c)

/-! ## Taking (R147, R148) -/

/-- Scull `u` is idle: seated, unretired, its Crew ON, RUN, WAITING mode, its control store sound, and no job or test. -/
def State.idle (s : State) (u : Nat) : Bool :=
  s.crewPresent (u / 36) && s.crewOn (u / 36) && decide (s.sculState u = 0) && s.flag (R.UCTL_RUN u) && !s.flag (R.UCTL_TMODE u) &&
  !s.flag (R.USTAT_UCS_BAD u) && !s.flag (R.USTAT_BUSY u) && (s.run u).isNone

/-- The idle Sculls of a Crew. -/
def State.idleCount (s : State) (c : Nat) : Nat := ((List.range 36).filter (fun q => s.idle (36 * c + q))).length

/-- Crew `c` holds the frame context of a stream, and its Larder does not fail for it (R135, R527). -/
def State.contextPresent (s : State) (c n : Nat) : Bool := decide (c ∈ (s.strm n).crews) && !(s.crew c).fails n

/-- The job that a Scull of Crew `c` would take now, with its queue: at home, else stolen. -/
def State.takeChoice (s : State) (c : Nat) : Option (Nat × Job) :=
  match (s.crew c).queue.find? (fun j => s.startable j && !(s.crew c).fails j.stream) with
  | some j => some (c, j)
  | none =>
    if ¬ s.flag (R.CREWc_CTL_STEAL_EN c) then none else
    [1, 2, 3].findSome? (fun i =>
      let v := (c + i) % 4
      if ¬ s.crewPresent v ∨ ¬ s.crewOn v then none
      else (((s.crew v).queue.filter (fun j => s.startable j)).drop (s.idleCount v)).find?
        (fun j => s.contextPresent c j.stream) |>.map (fun j => (v, j)))

/-- Scull `u` wins the take of queue `v` (R148): no idle Scull of the queue's own Crew contends with a thief, and no lower-numbered
one among equals. -/
def State.winsTake (s : State) (u v : Nat) : Bool :=
  let c := u / 36
  (List.range 4).all (fun d =>
    let contends : Bool := match s.takeChoice d with | some e => decide (e.1 = v) | none => false
    if d = c then !((List.range (u % 36)).any (fun q => s.idle (36 * c + q)))
    else if contends = false then true
    else if d = v then decide (s.idleCount d = 0)
    else if c = v ∨ c < d then true
    else decide (s.idleCount d = 0))

/-- Scull `u` starts job `j` of queue `v` (R148, R150, R187, R258). -/
def State.startJob (s : State) (u v : Nat) (j : Job) : State :=
  let c := u / 36
  let n := j.stream
  let p := (s.strm n).p
  let w := s.crew v
  let s := s.setCrew v { w with queue := removeFirst (fun x => x == j) w.queue }
  let s := if c = v then s else s.bump (R.CREWc_STEALS_COUNT c)
  let q := if j.dec then (0, 1, 0, 0) else s.rowQp n j.pic j.row j.reg
  let own := if j.dec then 3 else s.lowestFit p j.dl j.nCtu (s.get (R.CREWc_GUARD_NS c)) 0
  let r : RunS := { job := { j with again := false }, home := v, own := own, bNum := q.1, bDen := q.2.1, qpRow := q.2.2.1,
                    qpX := q.2.2.1, lw := q.2.2.2,
                    finals := ((s.pic n j.pic).map (fun q => q.refs.map (fun m => (j.pic - m, s.finalBands n m j.reg)) ++
                      q.miss.map (fun m => (j.pic - m, p.nRows)))).getD [] }
  let r := { r with told := if j.dec then 0 else s.levelOf u r }
  let s := if (s.prog n j.pic j.row j.reg).isSome then s
    else s.setProg { stream := n, pic := j.pic, row := j.row, reg := j.reg, recon := 0, done := false }
  let s := s.setRun u (some r)
  let s := if j.dec then s else
    (s.updStrm n (fun t => { t with qpLast := some r.qpRow })).set (R.RRCn_STAT_QP_LAST n) r.qpRow
  s.seqStart u p.jobEntry

/-- JOB_TAKE (R147, R148, R187): the jobs of one stream that are taken in one cycle are taken by Scull number; a take out of turn is not made. -/
def execJobTake (u : Fin 144) (s : State) : Host.Outcome State Fault Refusal :=
  .next (if ¬ s.idle u then s else
    match s.takeChoice (u / 36) with
    | none => s
    | some e => if s.winsTake u e.1 ∧ s.inTurn 1 e.2.stream u then (s.turn_ 1 e.2.stream u).startJob u e.1 e.2 else s)

/-! ## Abort and retirement (R157-R159, R183) -/

/-- The job of a Scull is aborted and put back (R158): its charges and leases return, the CTUs that its Bow has not coded leave the syntax
queue, and a preemption on its way is discarded. -/
def State.abortJob (s : State) (u : Nat) : State :=
  match s.run u with
  | none => s.seqStop u
  | some r =>
    let s := if r.job.dec then s else s.leaseReturn r
    let q := s.seq u
    let s := s.setSeq u { q with bowq := q.bowq.take (q.bowq.length - (r.sent - r.charged)) }
    let s : State := { s.setRun u none with preempt := tabSet none s.preempt u none }
    (s.requeue r.home r.job).seqStop u

/-- A seat that a retirement left vacant is given the first spare not chosen (R159). -/
def State.chooseSpare (s : State) (c j : Nat) : State :=
  if ¬ s.flag (R.CREWc_CTL_AUTOSPARE c) then s else
  match s.spares c with
  | [] => s
  | q :: _ => s.setCrew c { s.crew c with chosen := (s.crew c).chosen ++ [(j, q)] }

/-- Seats of Crew `c` that lose their Scull choose spares, in the order given (R157, R158). -/
def State.chooseSpares (s : State) (c : Nat) (l : List Nat) : State := l.foldl (fun s j => s.chooseSpare c j) s

/-- A Scull retires (R157, R159, R550, R565), with the reason of its message: 0 a Major message, 1 its retirement count, 2 its Four. -/
def State.retire (s : State) (u reason : Nat) : State :=
  if s.retired u then s else
  let c := u / 36
  let q := u % 36
  let s := if s.flag (R.USTAT_BUSY u) then s.abortJob u else s
  let seat := s.seatOf c q
  let given := ((s.crew c).chosen.filter (fun e => e.2 == q)).map (fun e => e.1)
  let none_ := (s.spares c).isEmpty
  let s := s.set (R.CREWc_SCULLq_STATE c q) 2
  let s := s.setCrew c { s.crew c with chosen := (s.crew c).chosen.filter (fun e => e.2 != q) }
  let s := ((s.chooseSpares c (given ++ seat.toList)).crewStat c).send u 0x4A 0 reason
  if seat.isSome ∧ none_ = true then s.replace 1 else s

/-- A Scull's retirement count rises, and at the Crew's limit it retires (R157, R271). -/
def State.countRetire (s : State) (u : Nat) : State :=
  let c := u / 36
  let s := s.addSat (R.CREWc_SCULLq_RCNT c (u % 36)) 1
  if s.get (R.CREWc_RETIRE_LIMIT c) ≤ s.get (R.CREWc_SCULLq_RCNT c (u % 36)) then s.retire u 1 else s

/-- The four Sculls of a Four retire (R157). -/
def State.retireFour (s : State) (f : Nat) : State := (List.range 4).foldl (fun s k => s.retire (4 * f + k) 2) s

/-- The chosen spares of a Crew take their seats at a Stroke of FB_GEN (R159). -/
def State.substitute (s : State) (c : Nat) : State :=
  let l := (s.crew c).chosen
  if l = [] then s else
  let s := l.foldl (fun s e => s.set (R.CREWc_SEATj_SCULL c e.1) e.2) (s.setCrew c { s.crew c with chosen := [] })
  s.seatStates c

/-! ## The Crew record (R133, R134) -/

/-- What a switched domain holds is lost as it goes OFF (R588): its registers, arrays and their records. -/
def State.pdLose (s : State) (n : Nat) : State :=
  let s := s.dropRegs (fun a => holdDomain a == some n)
  let gone := fun (k : Nat) =>
    let f := k / 2 ^ 56
    let a := k % 2 ^ 56
    (decide (n < 36) && ((f == 3 && a / 2 ^ 21 == n) || (f == 4 && a / 2 ^ 14 == n))) ||
    (decide (36 ≤ n ∧ n < 44) && f == 1 && (a - atticBase) / (24 * 2 ^ 20) == n - 36)
  let s : State := { s with mem := s.mem.filter (fun e => !gone e.1),
                            injRecs := s.injRecs.filter (fun r => !gone (famKey r.fam r.addr)) }
  let s : State := if n < 36 then { s with seqs := s.seqs.filter (fun e => e.1 / 4 != n), scache := s.scache.filter (fun e => e.1 != n) }
    else if 67 ≤ n ∧ n ≤ 70 then
      { s with hchs := s.hchs.filter (fun e => e.1 / 64 != n - 67), hgrant := s.hgrant.filter (fun e => e.1 != n - 67) }
    else if n < 44 then { s with filled := s.filled.filter (fun f => f != 1) } else s
  (List.range 5).foldl (fun s f => s.showRecs f) s

/-- A domain's record goes straight to ON or OFF as a Crew's own transition (R134), keeping its contents while it is ON. -/
def State.fourPower (s : State) (f : Nat) (on : Bool) : State :=
  let was := s.get (R.CLKPWR_PDn_STATE f) = 2
  let s := s.set (R.CLKPWR_PDn_PEND f) 0
  if on then (if was then s else (s.pdLose f).set (R.CLKPWR_PDn_STATE f) 2)
  else (s.pdLose f).set (R.CLKPWR_PDn_STATE f) 0

/-- The image that firmware loads: the vendor's, or the last that UCODE_LOAD brought (R279, R355). -/
def State.imageNow (s : State) : Nat := if s.images.isEmpty then 1 else s.images.length + 1

/-- One bit of the CRC-32 of IEEE 802.3, least significant bit first. -/
def crcBit (c : Nat) : Nat := if c % 2 = 1 then Nat.xor (c / 2) 0xEDB88320 else c / 2

/-- One byte of the CRC. -/
def crcByte (c : Nat) (b : Byte) : Nat := (List.range 8).foldl (fun c _ => crcBit c) (Nat.xor c b.toNat)

/-- The CRC of bytes, from the initial value and with the final complement (R278). -/
def crc32 (l : List Byte) : Nat := Nat.xor (l.foldl crcByte 0xFFFFFFFF) 0xFFFFFFFF

/-- The sum of an image (R278, R355). -/
def State.imageSum (s : State) (img : Nat) : Nat :=
  match img with
  | 0 => 0
  | 1 => crc32 ((List.range (2 ^ 12)).flatMap (fun a => leBytes 18 (Config.vendorWord a).toNat))
  | k + 2 => crc32 (((s.images[k]?).getD []).take 73728)

/-- Firmware loads a control store (R276, R279): every word is written, with an armed flip of the family taken by the word it names,
or by the first. -/
def State.loadStore (s : State) (u : Nat) : State :=
  let mine := fun (a : Nat) => decide (a / 2 ^ 12 = u)
  let s : State := { s with
    mem := s.mem.filter (fun e => !(e.1 / 2 ^ 56 == 4 && mine (e.1 % 2 ^ 56))),
    injRecs := s.injRecs.filter (fun r => !(r.fam == 4 && mine r.addr)) }
  let s := (s.setSeq u { s.seq u with img := s.imageNow }).showRecs 4
  let s := s.set (R.USTAT_UCS_BAD u) 0
  let m := s.get (R.ECC_FLIPf_ADDR_L_ADDR 4)
  let a := if s.flag (R.ECC_FLIPf_CTL_MATCH 4) then m else u * 2 ^ 12
  if s.flag (R.ECC_FLIPf_CTL_ARM 4) ∧ mine a = true then s.granWrite 4 a ((s.gran 4 a).map (fun w => w.1)) false false else s

/-- An uncorrectable word (R271): UCS_BAD and its address; a real one counts towards retirement (R524). -/
def State.ucsBad (s : State) (u a : Nat) (real : Bool) : State :=
  let s := (s.set (R.USTAT_UCS_BAD u) 1).set (R.UCS_BADADDR_ADDR u) a
  if real then s.addSat (R.CREWc_SCULLq_RCNT (u / 36) (u % 36)) 1 else s

/-- What a fetch gives: its data, whether it is uncorrectable, and whether that error is real. -/
structure UFetch where
  word : Nat
  bad  : Bool := false
  real : Bool := true
  deriving DecidableEq, Repr

/-- The fetch of word `a` of a Scull's store, with the reports of R274 in place of those of R524. -/
def State.uFetch (s : State) (u a : Nat) : State × UFetch :=
  let at_ := u * 2 ^ 12 + a
  let w := ((s.gran 4 at_)[0]?).getD (0, 0)
  let v := syndrome 4 at_ 0 w
  let y := syndOf 4 v
  let ce := fun (inj : Bool) => ((s.bump (R.ECC_CEf_COUNT 4)).send u 0x03 u a inj, ({ word := y.fix w.1 } : UFetch))
  let ue := fun (inj : Bool) =>
    ((if y = .poison then s else s.bump (R.ECC_UCEf_COUNT 4)).send u 0x04 u a inj, ({ word := w.1, bad := true, real := !inj } : UFetch))
  match s.injRecs.find? (fun r => r.fam == 4 && r.addr == at_) with
  | some r =>
    if v ≠ r.syn then ((s.bump (R.ECC_UCEf_COUNT 4)).send u 0x0F u a, { word := w.1, bad := true })
    else if y.fixed then ce true else if y.lost then ue true else (s, { word := w.1 })
  | none => if y.fixed then ce false else if y.lost then ue false else (s, { word := w.1 })

/-- The word of a firmware image. -/
def State.imageWord (s : State) (img a : Nat) : Nat :=
  if img ≤ 1 then (Config.vendorWord a).toNat else leNat (slice ((s.images[img - 2]?).getD []) (18 * a) 18)

/-- The sum takes word `a` of a store: corrected, or as stored where it is uncorrectable, which is then handled as R271. -/
def State.sumWord (s : State) (u a : Nat) : State × List Byte :=
  let f := s.uFetch u a
  (if f.2.bad then f.1.ucsBad u a f.2.real else f.1, leBytes 18 f.2.word)

/-- Firmware loads a control store and checks it (R278, R279): the sum is that of the image unless a word that a flip has changed reads otherwise;
then it loads the store again. The sum shows in UCS_SUM. -/
def State.loadChecked (s : State) (u : Nat) : State :=
  let m := s.get (R.ECC_FLIPf_ADDR_L_ADDR 4)
  let a := if s.flag (R.ECC_FLIPf_CTL_MATCH 4) then m % 2 ^ 12 else 0
  let img := s.imageNow
  let r := (s.loadStore u).sumWord u a
  (if r.2 = leBytes 18 (s.imageWord img a) then r.1 else r.1.loadStore u).set (R.UCS_SUM_CRC u) (s.imageSum img)

/-- Firmware loads and checks the stores of Sculls, and sets their RUN (R134, R279, R607). -/
def State.loadRun (s : State) (us : List Nat) : State :=
  us.foldl (fun s u => s.set (R.UCTL_RUN u) 1) (us.foldl (fun s u => s.loadChecked u) s)

/-- The seat map is rebuilt around retired Sculls (R134): each vacant seat takes a free Scull, and no spare waits for a Stroke any more. -/
def State.seatRebuild (s : State) (c : Nat) : State :=
  let free := (List.range 36).filter (fun q => decide (s.sculState (36 * c + q) ≠ 2) && (s.seatOf c q).isNone)
  let vac := (List.range 32).filter (fun j => s.flag (R.CREWc_SEATj_VALID c j) && s.retired (36 * c + s.get (R.CREWc_SEATj_SCULL c j)))
  let s := (vac.zip free).foldl (fun s e => s.set (R.CREWc_SEATj_SCULL c e.1) e.2) s
  s.setCrew c { s.crew c with chosen := [] }

/-- The unretired Sculls of a Crew. -/
def State.crewSculls (s : State) (c : Nat) : List Nat := ((List.range 36).map (fun q => 36 * c + q)).filter (fun u => !s.retired u)

/-- CREW_ON (R134, R591): the Fours that hold an unretired Scull are powered, their Sculls loaded, the seat map is rebuilt around
retired Sculls, and RUN is set. Under the expert level of UCODE the Crew waits until the host has loaded them and set RUN; under that of ADMIT the
seat map is the host's (R23). The levels are those that the command began under (R24). -/
def execCrewOn (c : Fin 4) (s : State) : Host.Outcome State Fault Refusal :=
  .next (if ¬ s.crewPresent c ∨ s.get (R.CREWc_STATE_STATE c) ≠ 1 then s else
    let us := s.crewSculls c
    let s := (us.map (fun u => u / 4)).eraseDups.foldl (fun s f => s.fourPower f true) s
    let lv := (s.crew c).began
    if lv.2 = true ∧ us.any (fun u => !s.flag (R.UCTL_RUN u)) then s else
    let s := if lv.2 then s else s.loadRun us
    let s := if lv.1 then s else s.seatRebuild c
    ((s.reachOn 5 c).seatStates c))

/-- CREW_OFF (R134, R591): with no job in flight, RUN clears on every Scull and the Fours are switched off. -/
def execCrewOff (c : Fin 4) (s : State) : Host.Outcome State Fault Refusal :=
  let us := (List.range 36).map (fun q => 36 * c.val + q)
  .next (if s.get (R.CREWc_STATE_STATE c) ≠ 3 ∨ us.any (fun u => (s.run u).isSome || decide (tabGet [] s.ended u ≠ [])) then s else
    let s := us.foldl (fun s u => (s.set (R.UCTL_RUN u) 0)) s
    let s := (List.range 9).foldl (fun s i => s.fourPower (9 * c.val + i) false) s
    (s.reachOff 5 c).crewStat c)

end Sys2Proof.Machine
end

