-- ==== Sys2Proof/Machine/Feeds.lean ====
section
/-!
DEFINITION. Raw input (R75-R83, R414, R415, R652): the match of a line to a picture, the arrival window of a band, fills and runs of
filled pictures, and the jobs that become complete as input.
-/
namespace Sys2Proof.Machine

/-! ## Bands -/

/-- NB of R89: the strip depth in bands. -/
def Params.nb (p : Params) : Nat := p.delay + 2

/-- The number of band `b` of picture `pic` in the stream's sequence of bands (R78). -/
def Params.bandNo (p : Params) (pic b : Nat) : Nat := pic * p.nRows + b

/-- A band has been read by every job that uses it. DESIGN CHOICE (log 120): R78 does not say when a job has read its band; the model takes the job's
completion (R102), not the end of its Fetch of the last CTU (R93). -/
def State.bandRead (s : State) (n pic b : Nat) : Bool :=
  let t := s.strm n
  t.complete pic || (t.p.jobs.filter (fun j => j.1 == b)).all (fun j => s.jobDone n pic j.1 j.2)

/-- The arrival window of a band has opened (R78): its strip slot is free, or, in frame mode, its picture's place in the loft (R89). The
slots are free at open. DESIGN CHOICE (log 120): R78 names the strip slot alone; in frame mode the window opens when the picture whose place in the loft
this one takes, DF + 2 before, is complete. -/
def State.bandOpen (s : State) (n pic b : Nat) : Bool :=
  let t := s.strm n
  if t.p.frame then decide (pic < t.p.delay + 2) || t.complete (pic - (t.p.delay + 2))
  else decide (t.p.bandNo pic b < t.p.nb) || decide ((pic, b) ∈ t.slotFree)

/-- The cycle of CUT of a band has come (R55, R78). -/
def State.bandCut (s : State) (n pic b : Nat) : Bool := s.reached (s.cutInst (s.strm n).p (s.strokeOf n pic) b)

/-- The feeds that deliver to a stream: a canvas's feeds, or the one input of an ENCODE stream (R652). -/
def State.feedsOf (s : State) (n : Nat) : List (Nat × FeedS) := s.feeds.filter (fun e => e.2.stream == some n)

/-- The placement of a feed in picture `pic` (R83, R340): a change leaves that of the pictures before its Stroke. -/
def FeedS.at_ (f : FeedS) (pic : Nat) : FeedP :=
  ((f.prev.filter (fun e => decide (pic < e.1))).foldl (fun (b : Option (Nat × FeedP)) e =>
    match b with | some x => if e.1 < x.1 then some e else b | none => some e) none |>.map (fun e => e.2)).getD f.p

/-- The feed lines that fall in band `b`. -/
def FeedP.bandLines (f : FeedP) (b : Nat) : List Nat :=
  (List.range f.h).filter (fun l => decide ((f.y + l) / 64 = b))

/-- A feed meets the columns of a tile or subpicture of `p`. -/
def FeedP.meets (f : FeedP) (p : Params) (reg : Nat) : Bool :=
  let r := p.region reg
  decide (f.x < 64 * (r.1 + r.2.1)) && decide (64 * r.1 < f.x + f.w)

/-- Every line of band `b` of a feed has arrived. -/
def FeedS.bandWhole (f : FeedS) (pic b : Nat) : Bool := ((f.at_ pic).bandLines b).all (fun l => decide ((pic, l) ∈ f.lines))

/-- A feed's area in picture `pic` holds a place of the picture. -/
def FeedP.holds (f : FeedP) (x y : Nat) : Bool := decide (f.x ≤ x ∧ x < f.x + f.w ∧ f.y ≤ y ∧ y < f.y + f.h)

/-! ## Input flows and their groups (R400, R408) -/

/-- The input flows of streams that are not OFF: the stream, the number of the feed (256 + the stream for its one flow), and the flow.
-/
def State.inputFlows (s : State) : List (Nat × Nat × Flow) :=
  s.feeds.filterMap (fun e => match e.2.stream with
    | some n => if s.get (R.STRMn_STATE_STATE n) = 0 then none else some (n, e.1, e.2.p.flow)
    | none => none) ++
  s.streams.filterMap (fun e =>
    if (e.2.p.typ = 1 ∨ e.2.p.typ = 2) ∧ s.get (R.STRMn_STATE_STATE e.1) ≠ 0 then some (e.1, 256 + e.1, e.2.p.inFlow) else none)

/-- The destination addresses of the input flows on a port. -/
def State.portDests (s : State) (p : Nat) : List Nat :=
  (s.inputFlows.flatMap (fun e => (if e.2.2.portA = p then [e.2.2.ipA] else []) ++
    (if e.2.2.portB = p then [e.2.2.ipB] else []))).eraseDups

/-- An IPv4 group. -/
def isGroup (ip : Nat) : Bool := decide (ip / 2 ^ 28 = 14)

/-- The groups that the input flows on a port name. -/
def State.portGroups (s : State) (p : Nat) : List Nat := (s.portDests p).filter isGroup

/-- The membership reports of a change of flows from `old`: a join for each group that a first flow names, a leave for each that
the last has left. A port that is not ON sends nothing (R398). -/
def State.igmpSync (s old : State) : State :=
  (List.range 64).foldl (fun s p =>
    let was := old.portGroups p
    let is := s.portGroups p
    let s := (is.filter (fun g => !decide (g ∈ was))).foldl (fun s g => s.igmpSend p g true) s
    (was.filter (fun g => !decide (g ∈ is))).foldl (fun s g => s.igmpSend p g false) s) s

/-! ## Jobs whose input is complete (R81, R143) -/

/-- The job of a row and tile or subpicture of a picture. -/
def State.mkJob (s : State) (n pic row reg : Nat) : Job :=
  let p := s.picP n pic
  let rg := p.region reg
  let last := min (row + p.jobRows - 1) (rg.2.2.1 + rg.2.2.2 - 1)
  { stream := n, pic := pic, row := row, reg := reg, dec := decide (p.typ = 1), nCtu := rg.2.1 * (last + 1 - row),
    dl := s.rowDl p (s.strokeOf n pic) last }

/-- A job that is not queued yet enters its home Crew's queue. -/
def State.enqueueJob (s : State) (n pic row reg : Nat) : State :=
  let t := s.strm n
  if (pic, row, reg) ∈ t.enq ∨ t.complete pic then s else
  (s.setStrm n { t with enq := (pic, row, reg) :: t.enq }).enqueue (t.homeOf reg) (s.mkJob n pic row reg)

/-- Every job of a band is complete as input. -/
def State.enqueueBand (s : State) (n pic b : Nat) : State :=
  (((s.strm n).p.jobs).filter (fun j => j.1 == b)).foldl (fun s j => s.enqueueJob n pic j.1 j.2) s

/-- The jobs of a band whose rectangles every feed line has reached. -/
def State.enqueueWhole (s : State) (n pic b : Nat) : State :=
  let p := (s.strm n).p
  let fs := s.feedsOf n
  (p.jobs.filter (fun j => j.1 == b)).foldl (fun s j =>
    if fs.all (fun e => !((e.2.at_ pic).meets p j.2) || e.2.bandWhole pic b) then s.enqueueJob n pic j.1 j.2 else s) s

/-! ## Fills (R81, R82, R652) -/

/-- The length of the run of filled pictures that holds picture `m` (R82). -/
def fillRun (l : List Nat) (m : Nat) : Nat :=
  let up := ((List.range 256).takeWhile (fun i => decide (m + i ∈ l))).length
  let down := ((List.range 256).takeWhile (fun i => decide (i ≤ m ∧ m - i ∈ l))).length
  up + down - 1

/-- A region of a feed is filled in picture `pic`: counted once per picture, and a run that reaches FEED_LOST_N raises FEED_LOST. -/
def State.fill (s : State) (f n pic : Nat) : State :=
  let s := s.updPic n pic (fun p => { p with filled := true })
  let e := s.feed f
  if pic ∈ e.filled then s else
  let l := (pic :: e.filled).take 520
  let s := s.setFeed f { e with filled := l }
  if 256 ≤ f then s else
  let s := s.bump (R.FEEDf_FILLED_COUNT f)
  let k := (e.at_ pic).lostN
  if k ≤ fillRun l pic ∧ fillRun (e.filled) (pic - 1) < k ∧ fillRun e.filled (pic + 1) < k
  then s.streamEvent n .feedLost pic else s

/-! ## Input staging (R76, R80, R81, R89, R652) -/

/-- Samples are written into a band of the strip, or in frame mode of the loft. -/
def State.stripAdd (s : State) (n pic b : Nat) (l : List Smp) : State :=
  s.updStrm n (fun t =>
    let old := (t.strip.find? (fun e => e.pic == pic && e.b == b)).getD { pic := pic, b := b }
    { t with strip := { old with smps := l ++ old.smps } :: t.strip.filter (fun e => !(e.pic == pic && e.b == b)) })

/-- A sample of a feed in input staging. -/
def StreamS.staged? (t : StreamS) (feed pic plane x y : Nat) : Option Nat :=
  (t.hatch ++ t.strip).findSome? (fun e => if e.pic ≠ pic then none else
    (e.smps.find? (fun m => m.feed == feed && m.plane == plane && m.x == x && m.y == y)).map (fun m => m.v))

/-- One component of a colour held as three fields of 16 bits. -/
def colourOf (c plane : Nat) : Nat := c / 2 ^ (16 * plane) % 2 ^ 16

/-- The original sample of a picture at a place in a plane (R80, R81): of the feed whose area holds it, or the background colour. A sample that nothing has
written is a free value. -/
def State.origSample (s : State) (n pic plane x y : Nat) : Nat :=
  let t := s.strm n
  let u := planeDim t.p.chroma plane 2 2
  let lx := if u.1 = 2 then x else 2 * x
  let ly := if u.2 = 2 then y else 2 * y
  match (s.feedsOf n).find? (fun e => (e.2.at_ pic).holds lx ly) with
  | none => colourOf t.p.bg plane
  | some e =>
    let f := e.2.at_ pic
    (t.staged? e.1 pic plane (x - (if u.1 = 2 then f.x else f.x / 2)) (y - (if u.2 = 2 then f.y else f.y / 2))).getD
      (Config.staged [n, pic, plane, x, y])

/-- A band takes its slot: of the strip, where its background is written; of the hatch, into which it is read from the loft. The band that had
the slot is no more. -/
def State.stripTake (s : State) (n pic b gone : Nat) : State :=
  let s := s.stripAdd n pic b []
  s.updStrm n (fun t =>
    let stays := fun (e : StripB) => decide (gone ≤ t.p.bandNo e.pic e.b)
    if t.p.frame then
      { t with hatch := t.strip.filter (fun e => e.pic == pic && e.b == b) ++ t.hatch.filter stays,
               strip := t.strip.filter (fun e => !(e.pic == pic && e.b == b)) }
    else { t with strip := t.strip.filter stays })

/-- Mid-grey at the stream's bit depth, as a colour (R652). -/
def Params.grey (p : Params) : Nat := let g := if p.bits10 then 512 else 128; g + g * 2 ^ 16 + g * 2 ^ 32

/-- What fills a sample of a feed (R81, R652): the background colour; or the previous picture's co-located sample where it has been written, else the
colour, of an ENCODE stream mid-grey. -/
def State.fillValue (s : State) (n pic : Nat) (p : FeedP) (plane x y : Nat) : Nat :=
  let t := s.strm n
  let c := colourOf (if t.p.typ = 3 then t.p.bg else t.p.grey) plane
  if (t.p.typ = 3 ∧ ¬ p.fill) ∨ pic = 0 then c else
  match (s.shelf n).find? (fun i => s.slotPicOf i == some (pic - 1)) with
  | none => c
  | some i =>
    let u := planeDim t.p.chroma plane 2 2
    ((s.slotCont i).sample plane (x + (if u.1 = 2 then p.x else p.x / 2)) (y + (if u.2 = 2 then p.y else p.y / 2))).getD c

/-- The places of the samples of a line of a feed, as plane, column and line in the plane: those of chroma go with the even line of a 4:2:0 picture. -/
def Params.lineAt (p : Params) (w l : Nat) : List (Nat × Nat × Nat) :=
  (List.range w).map (fun x => (0, x, l)) ++
  (if p.chroma = 0 ∧ l % 2 = 1 then [] else
   [1, 2].flatMap (fun q => (List.range (planeDim p.chroma 1 w 1).1).map (fun x => (q, x, if p.chroma = 0 then l / 2 else l))))

/-- The parts of a line of a feed that are missing are filled: what has come of the line stays (R81, R414). -/
def State.fillLine (s : State) (f n pic b : Nat) (p : FeedP) (l : Nat) : State :=
  let segs := (s.feed f).segs.filter (fun g => g.pic == pic && g.line == l)
  let s := s.stripAdd n pic b (segs.flatMap (fun g => g.smps))
  let t := s.strm n
  s.stripAdd n pic b (((t.p.lineAt p.w l).filter (fun q => (t.staged? f pic q.1 q.2.1 q.2.2).isNone)).map (fun q =>
    { feed := f, plane := q.1, x := q.2.1, y := q.2.2, v := s.fillValue n pic p q.1 q.2.1 q.2.2 }))

/-- Every feed of band `b` with a line missing is filled there, and the band's lines are spent. -/
def State.fillBand (s : State) (n pic b : Nat) : State :=
  (s.feedsOf n).foldl (fun s e =>
    let p := e.2.at_ pic
    if p.bandLines b = [] then s else
    let miss := (p.bandLines b).filter (fun l => !decide ((pic, l) ∈ e.2.lines))
    let s := if miss = [] then s else (miss.foldl (fun s l => s.fillLine e.1 n pic b p l) s).fill e.1 n pic
    let g := s.feed e.1
    let spent := fun (q l : Nat) => q == pic && decide ((p.y + l) / 64 = b)
    s.setFeed e.1 { g with lines := g.lines.filter (fun x => !spent x.1 x.2), segs := g.segs.filter (fun x => !spent x.pic x.line) }) s

/-! ## Lines (R77, R79, R414) -/

/-- The picture whose Stroke a timestamp names within one tick (R77, R221), whichever Stroke it is: of the ticks that the 32 bits can mean, the one
nearest to device time is compared. A stream that is STARTING has pictures from the Stroke at which it will open (R85). -/
def State.matchPic (s : State) (n : Nat) (ts : BitVec 32) (tso : Int) : Option Nat :=
  let t := s.strm n
  let g := t.p.gen
  let at_ := unsigned 32 ((ts.toNat : Int) + tso)
  let now90 : Nat := s.ns * 90000 / 10 ^ 9
  let tick : Nat := ((now90 : Int) + signed 32 (unsigned 32 ((at_ : Int) - (now90 : Nat)))).toNat
  let near := fun (a : Nat) => decide ((a + 2 ^ 32 - at_) % 2 ^ 32 ≤ 1) || decide ((at_ + 2 ^ 32 - a) % 2 ^ 32 ≤ 1)
  if s.get (R.STRMn_STATE_STATE n) = 0 ∨ (s.openStroke n).isNone then none else
  let first := s.strokeOf n 0
  let k := (tick * 10 ^ 9 / 90000 - s.get (R.STRKg_PHASE_PHASE g)) * s.pden g / max 1 (s.pnum g)
  ([k, k + 1, k + 2, k - 1].find? (fun k => near (s.stamp90 g k) && decide (first ≤ k) &&
    (match t.lastPic with | some l => decide (k - first ≤ l) | none => true))).map (fun k => k - first)

/-- One line of a feed is whole, with its samples, and is stamped (R79, R414). -/
def State.feedLine (s : State) (f n pic l : Nat) (smps : List Smp) : State :=
  let e := s.feed f
  let p := e.at_ pic
  let b := (p.y + l) / 64
  let count := fun (s : State) (r : RF) => if f < 256 then s.bump r else s
  if s.bandCut n pic b then count s (R.FEEDf_LATE_COUNT f) else
  if ¬ s.bandOpen n pic b then count s (R.FEEDf_EARLY_COUNT f) else
  let s := (s.setFeed f { e with lines := (pic, l) :: e.lines }).stripAdd n pic b smps
  if (s.strm n).p.frame then s else s.enqueueWhole n pic b

/-- Stretches cover the columns of a line. -/
def lineCovered (w : Nat) (l : List LineSeg) : Bool :=
  (List.range w).all (fun x => l.any (fun g => decide (g.from_ ≤ x) && decide (x < g.to_)))

/-- A stretch of a line of a feed is committed (R76, R413, R414): samples beyond the feed's size are ignored, an 8-bit sample of a 10-bit canvas is shifted left
by 2, and the stretch that brings a line's last sample makes the line whole. -/
def State.feedSeg (s : State) (f n pic : Nat) (g : Nat × Nat × Nat × List (Nat × Nat × Nat × Nat)) : State :=
  let e := s.feed f
  let p := e.at_ pic
  let q := (s.strm n).p
  if p.h ≤ g.1 ∨ (pic, g.1) ∈ e.lines then s else
  let up := if q.bits10 ∧ ¬ p.bits10 then 4 else 1
  let smps := (g.2.2.2.filter (fun m => decide (m.2.1 < (planeDim q.chroma m.1 p.w 1).1))).map (fun m =>
    ({ feed := f, plane := m.1, x := m.2.1, y := m.2.2.1, v := up * m.2.2.2 } : Smp))
  let all : List LineSeg := { pic := pic, line := g.1, from_ := g.2.1, to_ := min p.w g.2.2.1, smps := smps } ::
    e.segs.filter (fun x => x.pic == pic && x.line == g.1)
  let rest := e.segs.filter (fun x => !(x.pic == pic && x.line == g.1))
  if lineCovered p.w all then (s.setFeed f { e with segs := rest }).feedLine f n pic g.1 (all.flatMap (fun x => x.smps))
  else s.setFeed f { e with segs := all ++ rest }

/-- The picture that a timestamp names for a feed (R77, R83): by the offset that the feed has in that picture. -/
def State.feedPic (s : State) (n : Nat) (e : FeedS) (ts : BitVec 32) : Option Nat :=
  (e.p :: e.prev.map (fun x => x.2)).findSome? (fun p =>
    match s.matchPic n ts p.tso with
    | some pic => if (e.at_ pic).tso = p.tso then some pic else none
    | none => none)

/-- The stretches of lines that a packet brings reach a feed: they match a picture, or are discarded (R77). DEDUCED (log 121): of a frame that matches no picture
a line counts where its last sample comes. -/
def State.feedPacket (s : State) (f : Nat) (ts : BitVec 32) (segs : List (Nat × Nat × Nat × List (Nat × Nat × Nat × Nat))) : State :=
  let e := s.feed f
  match e.stream with
  | none => s
  | some n =>
    match s.feedPic n e ts with
    | some pic => segs.foldl (fun s g => s.feedSeg f n pic g) s
    | none =>
      let ends := segs.filter (fun g => decide (g.1 < e.p.h) && decide (g.2.1 < e.p.w) && decide (e.p.w ≤ g.2.2.1))
      if f < 256 then s.addSat (R.FEEDf_EARLY_COUNT f) ends.length else s

/-! ## The commands -/

/-- A stream that takes raw input and has pictures. -/
def State.rawLive (s : State) (n pic : Nat) : Bool :=
  let t := s.strm n
  decide (2 ≤ s.get (R.STRMn_STATE_STATE n)) && (decide (t.p.typ = 0) || decide (t.p.typ = 3)) &&
  (match t.lastPic with | some l => decide (pic ≤ l) | none => true)

/-- The whole of a picture is in the loft (R116): every band is whole or cut. -/
def State.picIn (s : State) (n pic : Nat) : Bool :=
  (List.range (s.strm n).p.nRows).all (fun b => decide ((pic, b) ∈ (s.strm n).cutDone) ||
    (s.feedsOf n).all (fun e => e.2.bandWhole pic b))

/-! ## Row complexity (R89, R116, R185) -/

/-- The differences of the butterflies of a Hadamard transform over 2^k values. -/
def hadamard : Nat → List Int → List Int
  | 0, l => l
  | k + 1, l =>
    let a := l.take (2 ^ k)
    let b := l.drop (2 ^ k)
    hadamard k (List.zipWith (· + ·) a b) ++ hadamard k (List.zipWith (· - ·) a b)

/-- The fixed prediction of R185 at a place of a plane: the sample there of L0[0], for inter pictures, and DC intra for IRAPs. The prediction that DC intra makes,
and a sample that the reference does not hold yet, are free values. -/
def State.fixedPred (s : State) (n pic plane x y : Nat) : Nat :=
  match s.pic n pic with
  | none => Config.dcPred [n, pic, plane, x, y]
  | some p =>
    if p.record.irap ∨ p.record.startup then Config.dcPred [n, pic, plane, x, y] else
    (((p.refs[0]?.bind (fun m => s.slotOf n m)).bind (fun i => (s.slotCont i).sample plane x y))).getD (Config.dcPred [n, pic, plane, x, y])

/-- The sum of R185 over the CTU at column `x`, row `row`: the absolute values of the 8 x 8 Hadamard transform of the differences, block by block. DESIGN
CHOICE (log 122): of every plane, unscaled, a block that crosses the picture's edge with no difference beyond it. -/
def State.ctuComplexity (s : State) (n pic x row : Nat) : Nat :=
  let p := (s.strm n).p
  [0, 1, 2].foldl (fun k q =>
    let u := planeDim p.chroma q 64 64
    let d := planeDim p.chroma q p.w p.h
    (List.range (u.1 / 8 * (u.2 / 8))).foldl (fun k i =>
      let x0 := u.1 * x + 8 * (i % (u.1 / 8))
      let y0 := u.2 * row + 8 * (i / (u.1 / 8))
      let l := (List.range 64).map (fun j =>
        let a := x0 + j % 8
        let b := y0 + j / 8
        if a < d.1 ∧ b < d.2 then (s.origSample n pic q a b : Int) - (s.fixedPred n pic q a b : Int) else 0)
      (hadamard 6 l).foldl (fun k v => k + v.natAbs) k) k) 0

/-- The sum of R185 over the CTUs of a job. -/
def State.jobSum (s : State) (n pic row reg : Nat) : Nat :=
  let g := (s.strm n).p.region reg
  (List.range g.2.1).foldl (fun k i => k + s.ctuComplexity n pic (g.1 + i) row) 0

/-- The complexities of a picture's jobs are measured as its last line is in the loft (R89, R116). -/
def State.lookAhead (s : State) (n pic : Nat) : State :=
  let t := s.strm n
  if t.look.any (fun c => c.pic == pic) then s else
  t.p.jobs.foldl (fun s j =>
    let c := s.complexityLw (s.jobSum n pic j.1 j.2)
    c.2.updStrm n (fun t => { t with look := { pic := pic, row := j.1, reg := j.2, lw := c.1 } :: t.look }))
    (s.updStrm n (fun t => { t with look := t.look.filter (fun c => decide (pic ≤ c.pic + 64)) }))

/-- SLOT_FREE (R78, R80, R81, R89): the band that used the slot before has been read by every job; the background is written. In frame mode, the hatch
slot is free and the picture is in the loft, so the band enters the hatch, after the band before it, and its jobs the queue. A band whose CUT
came before its arrival window opened is filled whole, and a job that no feed meets has its input. -/
def execSlotFree (n : Fin 128) (pic b : Nat) (s : State) : Host.Outcome State Fault Refusal :=
  let t := s.strm n
  let p := t.p
  let depth := if p.frame then p.nh else p.nb
  let g := p.bandNo pic b
  let prev := g - depth
  .next (if ¬ s.rawLive n pic ∨ p.nRows ≤ b ∨ (pic, b) ∈ t.slotFree ∨ t.complete pic ∨
      (depth ≤ g ∧ ¬ s.bandRead n (prev / p.nRows) (prev % p.nRows)) ∨ (p.frame ∧ ¬ s.picIn n pic) ∨
      (p.frame ∧ g ≠ 0 ∧ ¬ ((g - 1) / p.nRows, (g - 1) % p.nRows) ∈ t.slotFree ∧ ¬ t.complete ((g - 1) / p.nRows)) then s else
    let s := s.setStrm n { t with slotFree := (pic, b) :: t.slotFree, shut := t.shut.filter (fun e => e != (pic, b)) }
    let late : Bool := decide ((pic, b) ∈ t.shut)
    if p.frame then
      let s := if late then s.fillBand n pic b else s
      ((s.lookAhead n pic).stripTake n pic b (g + 1 - depth)).enqueueBand n pic b
    else
      let s := s.stripTake n pic b (g + 1 - depth)
      if late then (s.fillBand n pic b).enqueueBand n pic b else s.enqueueWhole n pic b)

/-- FEED_CUT (R78, R79, R81): the arrival window of a band closes, missing parts are filled, and its jobs are complete as input. A band
whose slot is not free yet waits for SLOT_FREE. -/
def execFeedCut (n : Fin 128) (pic b : Nat) (s : State) : Host.Outcome State Fault Refusal :=
  let t := s.strm n
  .next (if ¬ s.rawLive n pic ∨ t.p.nRows ≤ b ∨ (pic, b) ∈ t.cutDone ∨ t.complete pic ∨ ¬ s.bandCut n pic b then s else
    let s := s.setStrm n { t with cutDone := (pic, b) :: t.cutDone }
    if ¬ s.bandOpen n pic b then s.updStrm n (fun t => { t with shut := (pic, b) :: t.shut }) else
    let s := s.fillBand n pic b
    if t.p.frame then s else s.enqueueBand n pic b)

end Sys2Proof.Machine
end

