-- ==== Sys2Proof/Machine/Jobs.lean ====
section
/-!
DEFINITION. The end of a job and of a picture: completion (R102, R180, R189), late rows (R153, R240, R241), marks and taint of a
decoded picture (R202-R204, R236), statistics records (R194, R246, R364-R366), the buffers of extracted streams (R436), the PLI that a
decode stream sends (R238), the reports of R245, and key requests (R122, R123).
-/
namespace Sys2Proof.Machine

/-- The last band that a job covers. -/
def Params.lastBand (p : Params) (row reg : Nat) : Nat :=
  let r := p.region reg
  min (row + p.jobRows - 1) (r.2.2.1 + r.2.2.2 - 1)

/-! ## Key requests (R117, R122, R123) -/

/-- The first picture whose Stroke instant is at or after device time plus 500 µs (R123, R343). -/
def State.effPic (s : State) (n : Nat) : Nat :=
  let g := (s.strm n).p.gen
  match s.openStroke n with
  | none => 0
  | some k0 => ceilDiv ((s.now + 500000 * unitsPerNs - s.get (R.STRKg_PHASE_PHASE g) * unitsPerNs) * s.pden g)
      (s.pnum g * unitsPerNs) - k0

/-- A key request that acts (R122): it waits for the staging of its effective picture. One for the start-up picture merges at once
(R117), and one for a later picture of the running fast sweep sets KEY_PEND (R124). The result is the effective picture. -/
def State.keyRequest (s : State) (n : Nat) : State × Nat :=
  let m := s.effPic n
  let t := s.strm n
  let s := if m = 0 then s.addSat (R.STRMn_KEYS_MERGED n) 1 else s
  let s := if ¬ t.p.frame ∧ ¬ t.p.keyTrue ∧ t.cur.swift ∧ t.cur.pic < m ∧ t.cur.sweepJ + (m - t.cur.pic) < t.p.fast
    then s.set (R.STRMn_REFRESH_KEY_PEND n) 1 else s
  (s.updStrm n (fun t => { t with keyWait := t.keyWait ++ [m] }), m)

/-- A key request from a source whose bit of KEY_SRC is `bit`: 0 DESC, 1 PLI, 2 FIR. -/
def State.keyFrom (s : State) (n bit : Nat) : State :=
  let t := s.strm n
  if (t.p.typ = 0 ∨ t.p.typ = 3) ∧ 1 ≤ s.get (R.STRMn_STATE_STATE n) ∧ natBit t.p.keySrc bit then (s.keyRequest n).1 else s

/-! ## Reports of a decode stream (R238, R245) -/

/-- A condition of R245 on a picture: one message per kind per picture, in hand or not. -/
def State.decReport (s : State) (n pic kind : Nat) : State :=
  if (pic, kind) ∈ (s.strm n).dec.told then s else
  (s.updStrm n (fun t => { t with dec := { t.dec with told := (pic, kind) :: t.dec.told } })).send (0x400 + n) kind

/-- One RTCP PLI, a reduced-size packet that names the sender's SSRC, to the sender's source IP at one above its source UDP port (R238, R420), unless one was
sent within PLI_HOLD pictures. The SSRC of its own that the device names is a free value. -/
def State.sendPli (s : State) (n pic : Nat) : State :=
  let t := s.strm n
  if ¬ t.p.pliEn ∨ pic < t.dec.pliTil then s else
  let (own, s) := s.draw 32
  let s := s.updStrm n (fun t => { t with dec := { t.dec with pliTil := pic + t.p.pliHold } })
  s.putFrame t.p.inFlow.portA { kind := 3, wire := 84, elig := nowInst s.now, dst := (t.dec.sender.1, t.dec.sender.2.1 + 1),
                                bytes := [0x81, 206] ++ beBytes 2 2 ++ beBytes 4 own ++ beBytes 4 t.dec.sender.2.2 }

/-- A job's data is concealed for loss or for a bitstream error. -/
def State.concealReport (s : State) (n pic : Nat) (loss : Bool) : State :=
  (s.decReport n pic (if loss then 0x25 else 0x81)).sendPli n pic

/-! ## Marks of a decode shelf (R202, R204, R233) -/

/-- The slot of a shelf with the CONCEAL_SRC mark. -/
def State.concealSlot (s : State) (n : Nat) : Option Nat :=
  (s.shelf n).find? (fun i => s.flag (R.SLOTs_MARK_CONCEAL_SRC i))

/-- The slot with CONCEAL_SRC is read in this cycle (R234). -/
def State.readConceal (s : State) (n : Nat) : State :=
  s.updStrm n (fun t => { t with dec := { t.dec with srcRead := some s.cyc } })

/-- CONCEAL_SRC moves to a slot, and NO_SRC shows whether any has it. The slot that it leaves is no free one in the cycle of a read of it (R234). -/
def State.moveConceal (s : State) (n i : Nat) : State :=
  let s := match s.concealSlot n, (s.strm n).dec.srcRead with
    | some j, some c => if j = i then s else
        s.updStrm n (fun t => { t with dec := { t.dec with srcHeld := (j, c) :: t.dec.srcHeld.filter (fun e => decide (s.cyc ≤ e.2)) } })
    | _, _ => s
  let s := (s.shelf n).foldl (fun s j => s.set (R.SLOTs_MARK_CONCEAL_SRC j) (b2n (j == i))) s
  s.set (R.STRMn_DSTAT_NO_SRC n) 0

/-- The marks that a picture's first slice header sets on earlier pictures of the shelf; one that waits for a slot takes them with it. -/
def State.setMarks (s : State) (n : Nat) (marks : List (Nat × Bool)) : State :=
  marks.foldl (fun s m =>
    match s.slotOf n m.1 with
    | none => s.updPic n m.1 (fun p => if p.waiting then { p with marks := m.2 :: p.marks } else p)
    | some i => if m.2 then s.set (R.SLOTs_MARK_REF_LONG i) 1 else s.set (R.SLOTs_MARK_REF_SHORT i) 1) s

/-- The marks that it removes: every reference mark of an earlier picture that the header does not carry. -/
def State.dropMarks (s : State) (n pic : Nat) (marks : List (Nat × Bool)) : State :=
  let s := s.updStrm n (fun t => { t with pics := t.pics.map (fun (p : Pic) => if p.waiting ∧ p.n < pic then
    { p with refDue := p.refDue && decide ((p.n, false) ∈ marks), marks := p.marks.filter (fun l => decide ((p.n, l) ∈ marks)) } else p) })
  (s.shelf n).foldl (fun s i =>
    match s.slotPicOf i with
    | none => s
    | some m =>
      if pic ≤ m then s else
      let s := if (m, false) ∈ marks then s else s.set (R.SLOTs_MARK_REF_SHORT i) 0
      if (m, true) ∈ marks then s else s.set (R.SLOTs_MARK_REF_LONG i) 0) s

/-! ## Taint (R236) -/

/-- A picture's own taint: a concealed CTU, a substitute reference, or a read under R230. -/
def Pic.ownTaint (p : Pic) : Bool :=
  p.tainted || p.noAu || decide (p.concCtus ≠ 0) || decide (p.subst ≠ 0) || p.far

/-- The tainted pictures with a further picture judged: a picture takes the latest taint among its references, and from the recovery
picture on none from before the recovery start; of several that have come to their recovery picture, the latest counts. -/
def taintStep (rec : List (Nat × Nat)) (l : List (Nat × Nat)) (p : Pic) : List (Nat × Nat) :=
  let from_ : List Nat := (p.refs.filterMap (fun m => (l.find? (fun e => e.1 == m)).map (fun e => e.2)))
  let start : Nat := (rec.filter (fun r => decide (r.2 ≤ p.n))).foldl (fun m r => max m r.1) 0
  let from_ := from_.filter (fun (o : Nat) => decide (start ≤ o))
  if p.ownTaint then (p.n, p.n) :: l
  else if p.record.irap ∨ from_ = [] then l else (p.n, from_.foldl max 0) :: l

/-- The tainted pictures of a stream, those in hand included. -/
def State.taints (s : State) (n : Nat) : List (Nat × Nat) :=
  let t := s.strm n
  t.pics.foldl (taintStep t.dec.recAt) t.dec.taint

/-! ## Statistics records (R364-R366) -/

/-- A number in a field of `w` bits, saturating. -/
def satBits (w v : Nat) : Nat := min v (2 ^ w - 1)

/-- The record of an encoded picture; `debt` is DEBT_n in units of 2^-16 bits. -/
def Pic.encStat (p : Pic) (n typ debt : Nat) : Nat :=
  let r := p.record
  let flags := b2n (p.floor && !r.startup) + b2n p.seiDefer * 2 + b2n p.noloan * 4 + b2n (r.irap || r.startup) * 8 +
    b2n r.sweepStart * 16 + b2n r.fast * 32 + b2n r.carried * 64 + b2n p.filled * 128 + b2n (decide (0 < r.cap)) * 256 +
    b2n (decide (0 < p.lateRows)) * 512 + b2n r.startup * 1024
  n + typ * 2 ^ 8 + flags * 2 ^ 16 + satBits 16 p.lateRows * 2 ^ 32 + (min p.acted 15 + 16 * min p.merged 15) * 2 ^ 48 +
  p.n % 2 ^ 64 * 2 ^ 64 + p.fin.getD 0 * 2 ^ 128 + p.bPic * 2 ^ 192 + satBits 32 (p.loan / 2 ^ 22) * 2 ^ 256 +
  satBits 32 (debt / 2 ^ 22) * 2 ^ 288 + satBits 16 (p.qpSum * 256 / max 1 p.ctus) * 2 ^ 320 + satBits 8 p.qpLo * 2 ^ 336 +
  satBits 8 p.qpHi * 2 ^ 344 + satBits 32 p.floorCtus * 2 ^ 352 + satBits 32 p.doneOfs * 2 ^ 384 + satBits 32 p.ctuE1 * 2 ^ 416 +
  satBits 32 p.ctuE2 * 2 ^ 448 + satBits 32 p.ctuE3 * 2 ^ 480

/-- The record of a decoded picture. -/
def Pic.decStat (p : Pic) (n : Nat) (concealed : Bool) : Nat :=
  n + 2 ^ 8 + (b2n concealed + b2n p.noAu * 2 + b2n p.grey * 4 + b2n p.repeat_ * 8) * 2 ^ 16 + satBits 16 p.lateBands * 2 ^ 32 +
  min p.subst 15 * 2 ^ 48 + p.n % 2 ^ 64 * 2 ^ 64 + p.bins % 2 ^ 64 * 2 ^ 128 + satBits 32 p.concCtus * 2 ^ 192 +
  satBits 32 p.lostPkts * 2 ^ 224 + satBits 16 p.lateRows * 2 ^ 256

/-- A stream's record goes to its statistics ring, where the stream writes records. -/
def State.statOut (s : State) (n body : Nat) : State :=
  let p := (s.strm n).p
  if p.statEn then s.statRecord (0x50 + p.statRing) body else s

/-- The pictures that head a stream's list and have completed, decoded ones also output, leave it in order: OCC and DEBT follow,
and an encoded picture's record is written (R170, R364). -/
def State.popDone (s : State) (n : Nat) : State :=
  let t := s.strm n
  let out := t.pics.takeWhile (fun p => p.fin.isSome && (decide (t.p.typ ≠ 1) || decide (p.outLeft = 0)))
  let s := s.setStrm n { t with
    pics := t.pics.drop out.length,
    enq := t.enq.filter (fun e => decide (t.nextPic ≤ e.1 + 64)),
    strip := t.strip.filter (fun e => decide (t.nextPic ≤ e.pic + 64)),
    hatch := t.hatch.filter (fun e => decide (t.nextPic ≤ e.pic + 64)),
    slotFree := t.slotFree.filter (fun e => decide (t.nextPic ≤ e.1 + 64)),
    cutDone := t.cutDone.filter (fun e => decide (t.nextPic ≤ e.1 + 64)),
    lateDone := t.lateDone.filter (fun e => decide (t.nextPic ≤ e.1 + 64)),
    dlDone := t.dlDone.filter (fun e => decide (t.nextPic ≤ e.1 + 64)) }
  let s : State := { s with progs := s.progs.filter (fun g => !(g.stream == n && out.any (fun p => p.n == g.pic))) }
  out.foldl (fun s p =>
    if t.p.typ = 1 then
      let l := taintStep t.dec.recAt (s.strm n).dec.taint p
      s.updStrm n (fun t => { t with dec := { t.dec with taint := l.filter (fun e => decide (e.1 = p.n) || (s.slotOf n e.1).isSome) } })
    else
      let od := rrcStep (s.rrcNMaxs n) (s.rrcNs n) (p.fin.getD 0) ((s.strm n).occ, (s.strm n).debt)
      (s.updStrm n (fun t => { t with occ := od.1, debt := od.2 })).statOut n (p.encStat n t.p.typ od.2)) s

/-! ## Late rows (R153) -/

/-- A job is late: it counts in its home Crew, its row once for the stream and its picture, and the first late row of a picture raises
ROW_LATE. The rest of the picture and the next one are capped at E3. -/
def State.lateJob (s : State) (c n pic row : Nat) : State :=
  let s := s.bump (R.CREWc_LATE_COUNT c)
  let t := s.strm n
  let s := s.setStrm n { t with ceilTil := some (max (pic + 1) (t.ceilTil.getD 0)),
                                lateDone := if (pic, row) ∈ t.lateDone then t.lateDone else (pic, row) :: t.lateDone }
  if (pic, row) ∈ t.lateDone then s else
  let s := (s.bump (R.STRMn_LATE_COUNT n)).updPic n pic (fun p => { p with lateRows := p.lateRows + 1 })
  if t.lateDone.any (fun e => e.1 == pic) then s else s.streamEvent n .rowLate pic

/-! ## Extracted streams (R432, R436) -/

/-- The values that a subscriber's stream signals, in the units of R169: N_MAX and B_MAX. -/
def State.subHrd (s : State) (b : SubS) : Nat × Nat :=
  let g := (s.strm b.canvas).p.gen
  (rrcNMax b.subbr (s.pnum g) (s.pden g), rrcBMax b.subbr (s.get (R.RRCn_BUF_US b.canvas)))

/-- A slice of a canvas counts in the picture sizes of the subscribers that carry it. -/
def State.subSlice (s : State) (n pic reg bytes : Nat) : State :=
  (s.subsOf n).foldl (fun s e =>
    let b := e.2
    if b.subbr = 0 ∨ ¬ b.sends pic ∨ reg ∉ b.ids then s else
    let old := ((b.acc.find? (fun x => x.1 == pic)).map (fun x => x.2)).getD 0
    s.setSub e.1 (some { b with acc := (pic, old + 8 * bytes) :: b.acc.filter (fun x => x.1 != pic) })) s

/-- A canvas picture is complete: each subscriber's recursion takes its extracted size, in picture order of completion, and an
overflow of the signalled buffer is counted and reported. -/
def State.subPicture (s : State) (n pic : Nat) : State :=
  (s.subsOf n).foldl (fun s e =>
    let b := e.2
    match b.acc.find? (fun x => x.1 == pic) with
    | none => s
    | some x =>
      let h := s.subHrd b
      let size := x.2 + (match s.pic n pic with | some q => 8 * (s.subSizes e.1 b q).foldl (fun k y => k + y) 0 | none => 0)
      let full := b.occ + size * 2 ^ 16
      let s := s.setSub e.1 (some { b with occ := full - h.1, acc := b.acc.filter (fun y => y.1 != pic) })
      if h.2 < full then (s.bump (R.SPX_SUBs_HRDOVER_COUNT e.1)).send 0x480 0x85 e.1 else s) s

/-! ## Completion of a picture -/

/-- The last job of a picture has completed (R102, R180, R202, R203). -/
def State.pictureDone (s : State) (n pic : Nat) : State :=
  let t := s.strm n
  let at_ := s.strokeAt t.p.gen (s.strokeOf n pic)
  let ofs := (s.now * at_.den - at_.num * unitsPerNs) / (unitsPerNs * at_.den)
  let s0 := s
  let s := s.updPic n pic (fun p => { p with fin := some p.spent, doneOfs := ofs })
  if t.p.typ = 1 then
    match s.pic n pic, s.slotOf n pic with
    | some p, some i =>
      let s := if p.shown ∧ ¬ p.noAu ∧ p.outLeft ≠ 0 then s.set (R.SLOTs_MARK_OUT_PENDING i) 1 else s
      let s := if p.concCtus = 0 ∧ p.subst = 0 ∧ ¬ p.noAu then s.moveConceal n i else s
      let s := s.codingDone n pic
      let s := match s.pic n (pic + 1), t.dec.aus.find? (fun a => a.pic == pic + 1) with
        | some q, some a => (match a.head with
            | some h => if q.dropDue then (s.dropMarks n (pic + 1) h.marks).updPic n (pic + 1) (fun q => { q with dropDue := false }) else s
            | none => s)
        | _, _ => s
      (s.noteFreed s0 n).popDone n
    | _, _ => s.popDone n
  else
    let s := ((s.codingDone n pic).releaseRefs n).noteFreed s0 n
    ((s.subPicture n pic).popDone n).rrcRegs n

/-! ## JOB_COMPLETE -/

/-- The part of a completion that an encode job has: the slice cost is charged, the Scull's measure of the row (R185) is kept and the model
follows, the slice goes to the packetiser. -/
def State.encodeDone (s : State) (r : RunS) (bytes : Nat) : State :=
  let j := r.job
  let n := j.stream
  let cs := s.get (R.RRCn_SLICE_BITS n)
  let s := s.updPic n j.pic (fun p => { p with reserve := p.reserve - cs, spent := p.spent + cs })
  let c := if (s.strm n).p.frame = true then (s.jobLw n j.pic j.row j.reg, s) else s.complexityLw (s.jobSum n j.pic j.row j.reg)
  let lc := c.1
  let s := c.2.jobStats r
  let rec_ := ((s.pic n j.pic).map (fun p => p.record)).getD {}
  let s := if r.floors = 0 ∧ ¬ rec_.startup then (s.modelUpdate r rec_.irap lc).ldrModel n else s
  let s := s.updStrm n (fun t => { t with
    jobC := t.jobKeep { pic := j.pic, row := j.row, reg := j.reg, lw := lc },
    slices := t.slices ++ [(j.pic, j.row, j.reg, bytes)] })
  (s.subSlice n j.pic j.reg bytes).pushRows (2 * (s.strm n).p.nRows) n

/-- The side of a CTB of a decoded picture (R223). -/
def Params.ctbSize (p : Params) : Nat := if p.big then 128 else if p.small then 32 else 64

/-- The CTUs of a decode job, in its one or two rows of them, as columns and rows (R223). -/
def Params.jobGrid (p : Params) (row reg : Nat) : Nat × Nat :=
  let g := p.region reg
  let dims := if p.dims = (0, 0) then (p.w, p.h) else p.dims
  (ceilDiv (min (64 * g.2.1) (dims.1 - 64 * g.1)) p.ctbSize, ceilDiv (min (64 * (p.lastBand row reg + 1)) dims.2 - 64 * row) p.ctbSize)

/-- The place of CTU `m` of a decode job, in luma samples. -/
def Params.jobCtu (p : Params) (row reg m : Nat) : Nat × Nat :=
  let g := p.jobGrid row reg
  (64 * (p.region reg).1 + p.ctbSize * (m % g.1), 64 * row + p.ctbSize * (m / g.1))

/-- The data of a job begins in a NAL unit received in a packet of picture `pic`: `fresh` asks whether entropy decoding can start afresh there (R232). -/
def DecS.begins (d : DecS) (pic row reg : Nat) (fresh : Bool) : Bool :=
  d.pkts.any (fun k => k.pic == pic && !k.lost && k.nals.any (fun x => x.jobs.any (fun j =>
    j.row == row && j.reg == reg && j.begins && (j.fresh || !fresh))))

/-- Entropy decoding of a job cannot resume at its start (R232): the job before in its tile or subpicture ended concealed, no slice starts afresh there, and no
stored context of the row above comes from a CTU that was decoded, the second of the row in HEVC, the first in VVC. -/
def State.carried (s : State) (j : Job) : Bool :=
  let p := s.picP j.stream j.pic
  let d := (s.strm j.stream).dec
  let up := j.row - p.jobRows
  if j.row ≤ (p.region j.reg).2.2.1 ∨ d.begins j.pic j.row j.reg true then false else
  match d.conc.find? (fun e => e.1 == j.pic && e.2.1 == up && e.2.2.1 == j.reg) with
  | none => false
  | some e =>
    let g := p.jobGrid up j.reg
    !(p.wpp && decide (g.1 * (g.2 - 1) + (if p.vvc then 0 else min 1 (g.1 - 1)) < e.2.2.2))

/-- The concealed CTUs of a decode job (R232): all of them in a picture that is wholly concealed (R222, R237) or whose headers did not come, where its first NAL
unit is lost, or where entropy decoding cannot resume; at least one where its input was declared lost (R229); else those that the Scull found. -/
def State.jobConcealed (s : State) (j : Job) (k : Nat) : Nat :=
  let d := (s.strm j.stream).dec
  let g := (s.picP j.stream j.pic).jobGrid j.row j.reg
  let all := g.1 * g.2
  match s.pic j.stream j.pic with
  | none => min k all
  | some p =>
    if p.noAu ∨ p.whole ∨ (d.aus.find? (fun a => a.pic == j.pic)).bind (fun a => a.head) = none ∨ s.carried j = true then all
    else if (j.pic, j.row, j.reg) ∈ d.lost then (if d.begins j.pic j.row j.reg false then max 1 (min k all) else all)
    else min k all

/-- What a concealed CTU counts as for the prediction of later CUs (R233). -/
def concealedCu : CuCode :=
  { x := 0, y := 0, size := 64, path := [], intra := false, mode := 0, nxn := none, chroma := 0, skip := false, merge := none, part := 0,
    mvs := [{ list := 0, ref := 0, x := 0, y := 0, pb := 0 }], cands := [], depth := 0, tLo := 2, tHi := 2, ac := false, dc := [] }

/-- The concealed CTUs of a job, its last `k`, take the co-located samples of the slot with CONCEAL_SRC, or mid-grey where there is none
(R232, R233). -/
def State.concealWrite (s : State) (j : Job) (k : Nat) : State :=
  let n := j.stream
  let p := s.picP n j.pic
  match s.slotOf n j.pic with
  | none => s
  | some i =>
    let g := p.jobGrid j.row j.reg
    let src := s.concealSlot n
    let f := fun (q x y : Nat) => match src with
      | some c => (s.slotCont c).value q x y
      | none => 2 ^ (if p.bits10 then 9 else 7)
    let l := (List.range k).map (fun m => p.jobCtu j.row j.reg (g.1 * g.2 - 1 - m))
    let s := if src.isSome then s.readConceal n else s
    let s : State := { s with slotC := tabUpd {} s.slotC i (fun c => l.foldl (fun c a =>
      c.overlay a.1 a.2 (min p.ctbSize (c.w - a.1)) (min p.ctbSize (c.h - a.2)) f) c) }
    match s.prog n j.pic j.row j.reg with
    | some q => s.setProg { q with ctx := l.map (fun a => (a.1 / 64 - (p.region j.reg).1, [concealedCu])) ++ q.ctx }
    | none => s

/-- The part of a completion that a decode job has: its bins, the staging or, Bow-ahead, the decoded syntax that it used, its concealed
CTUs, and a vector that reached a band R229 did not wait for (R230). A picture that is concealed whole because decoding has not started (R237) has no loss to
report. -/
def State.decodeDone (s : State) (j : Job) (bins bytes concealed : Nat) (far : Bool) : State :=
  let n := j.stream
  let concealed := s.jobConcealed j concealed
  let s := s.updPic n j.pic (fun p => { p with bins := p.bins + bins, concCtus := p.concCtus + concealed, far := p.far || far })
  let ahead := s.flag (R.STRMn_DCTL_AHEAD n)
  let used := fun (d : DecS) => if ahead then { d with synUsed := d.synUsed - bytes } else { d with staged := d.staged - bytes }
  let s := s.updStrm n (fun t => { t with dec := used t.dec })
  let s := if far then s.decReport n j.pic 0x83 else s
  if concealed = 0 then s else
  let s := s.concealWrite j concealed
  let g := (s.picP n j.pic).jobGrid j.row j.reg
  let s := s.updStrm n (fun t => { t with dec := { t.dec with conc := (j.pic, j.row, j.reg, g.1 * g.2 - concealed) :: t.dec.conc } })
  let d := (s.strm n).dec
  let grey := (s.concealSlot n).isNone
  let s := (s.bump (R.STRMn_DSEGS_COUNT n)).updPic n j.pic (fun p => { p with grey := p.grey || grey })
  let loss := d.lost.any (fun e => e.1 == j.pic && e.2.2 == j.reg && decide (e.2.1 ≤ j.row))
  let whole : Bool := match s.pic n j.pic with | some p => p.whole | none => false
  if whole = true ∧ ¬ loss = true then s else s.concealReport n j.pic loss

/-- A job completes. -/
def State.completeJob (s : State) (r : RunS) (lc bytes concealed : Nat) (far : Bool) : State :=
  let j := r.job
  let n := j.stream
  let g : Prog := (s.prog n j.pic j.row j.reg).getD { stream := n, pic := j.pic, row := j.row, reg := j.reg, recon := 0, done := false }
  let s := s.setProg { g with recon := j.nCtu, filt := j.nCtu, done := true }
  let s := if s.reached j.dl ∧ (j.pic, (s.picP n j.pic).lastBand j.row j.reg) ∉ (s.strm n).dlDone then s.lateJob r.home n j.pic j.row else s
  let s := if j.dec then s.decodeDone j lc bytes concealed far else s.encodeDone r bytes
  let s := s.updPic n j.pic (fun p => { p with jobsLeft := p.jobsLeft - 1 })
  match s.pic n j.pic with
  | some p => if p.jobsLeft = 0 ∧ p.fin.isNone then s.pictureDone n j.pic else (if j.dec then s else s.rrcRegs n)
  | none => s

/-- JOB_COMPLETE (R102): the oldest job of a Scull that has ended completes once the Bow has written all of it. Of an encode job `bytes` are its
slice, which holds no more bits than have been charged for it, C_SLICE included (R180); of a decode job `lc` and `bytes` are its bins and the staging or
syntax bytes it used. `concealed` holds the CTUs it concealed and whether a vector reached beyond the bands waited for (R230). -/
def execJobComplete (u : Fin 144) (lc bytes : Nat) (concealed : Nat × Bool) (s : State) : Host.Outcome State Fault Refusal :=
  .next (match tabGet [] s.ended u with
    | [] => s
    | r :: rest =>
      if ¬ r.job.dec ∧ (r.charged < r.job.nCtu ∨ r.bits + s.get (R.RRCn_SLICE_BITS r.job.stream) < 8 * bytes) then s else
      ({ s with ended := tabSet [] s.ended u rest } : State).completeJob r lc bytes concealed.1 concealed.2)

/-! ## Output of a decode stream (R239-R244, R416) -/

/-- The RTP payloads of one line of a region of width `w` with a payload limit `m`: 8 bytes of payload header, then whole pixel
groups. -/
def Params.linePays (p : Params) (w m : Nat) : List Nat :=
  let g := p.pgroup
  let per := max 1 ((m - 8) / g.2)
  (pieces (w + 1) (ceilDiv w g.1) per per).map (fun k => 8 + k * g.2)

/-- The lines of a band of a picture. -/
def Params.rowLines (p : Params) (row : Nat) : Nat := min 64 (p.h - 64 * row)

/-- The instant of packet `j` of `m` of line `i` of the `l` lines of a band whose deadline is `dl` (R239). -/
def State.lineInst (s : State) (p : Params) (dl : Inst) (i l j m : Nat) : Inst :=
  let q := max 1 (l * m)
  ⟨(dl.num + p.pace * dl.den) * q + s.pnum p.gen * (q + i * m + j), dl.den * q⟩

/-- Line `i` of the `l` lines of band `row` enters the queues of its region `g`, packet by packet, with the extended sequence number; `last` says that it
is the region's last line, whose last packet ends the picture (R243, R416). What the packets hold is read as they leave. -/
def State.pushLine (s : State) (n pic row g i : Nat) (r : Region) (dl : Inst) (late : List Nat) (last : Bool) : State :=
  let p := (s.strm n).p
  let pays := p.linePays r.w (s.flowMax r.flow.portA r.flow.portB)
  let cols := fun (x : Nat) => (x - 8) / p.pgroup.2 * p.pgroup.1
  (pays.zip (List.range pays.length)).foldl (fun s x =>
    s.pushRtp r.flow x.1 (128 * n + g) (s.stamp90 p.gen (s.strokeOf n pic))
      (last && decide (x.2 + 1 = pays.length)) true none
      { kind := 0, key := n, reg := g, elig := s.lineInst p dl i (p.rowLines row) x.2 pays.length, stream := some n, pic := pic,
        vid := some { reg := g, line := 64 * row + i, off := x.2 * cols (pays.headD 0), cols := cols x.1, late := late } }) s

/-- The lines of a band that region `g` holds (R243): of a 4:2:0 picture two lines go together, as a pixel group covers both. -/
def State.pushRegion (s : State) (n pic row g : Nat) (r : Region) (dl : Inst) (late : List Nat) : State :=
  let p := (s.strm n).p
  let m := p.groupLines
  ((List.range (p.rowLines row)).filter (fun i =>
    decide (r.y ≤ 64 * row + i ∧ 64 * row + i < r.y + r.h) && decide ((64 * row + i - r.y) % m = 0))).foldl (fun s i =>
      s.pushLine n pic row g i r dl late (decide (r.y + r.h ≤ 64 * row + i + m))) s

/-- A picture's output is known to be CONCEALED (R222, R236, R237, R241, R242): it is tainted, not output or without an access unit, or a
band of it was substituted. -/
def State.concealedNow (s : State) (n pic : Nat) : Bool :=
  match s.pic n pic with
  | none => false
  | some p => (s.taints n).any (fun e => e.1 == pic) || p.noAu || !p.shown || decide (p.lateBands ≠ 0)

/-- The output of a band enters the queues of the regions that hold its lines, and with the first band the concealment flag's packet
(R244). PRESUMED (log 59): that packet leaves on the flow of region 0 and carries 20 bytes of payload. -/
def State.pushBand (s : State) (n pic row : Nat) (late : List Nat) : State :=
  let p := (s.strm n).p
  let dl := s.rowDl p (s.strokeOf n pic) row
  let s := (p.regs.zip (List.range p.regs.length)).foldl (fun s e => s.pushRegion n pic row e.2 e.1 dl late) s
  if natBit p.anc 0 ∧ row = 0 then
    let f := ((p.regs[0]?).getD ({} : Region)).flow
    s.pushRtp f 20 (128 * n + 64) (s.stamp90 p.gen (s.strokeOf n pic)) true false none
      { kind := 0, key := n, reg := 64, elig := s.lineInst p dl 0 (p.rowLines row) 0 1, stream := some n, pic := pic }
  else s

/-! ## What an output packet holds (R241-R244, R416) -/

/-- The slot that an output sample is read from: the picture's own; for a picture that is not output or has no access unit (R242), and for the area of a
job that was late (R241), the slot with CONCEAL_SRC. None gives mid-grey, as does a place outside a smaller picture (R243). The flag says that CONCEAL_SRC is
addressed. -/
def State.outSlot (s : State) (n pic : Nat) (v : LineRef) (x y : Nat) : Option Nat × Bool :=
  let p := s.picP n pic
  let dims := if p.dims = (0, 0) then (p.w, p.h) else p.dims
  if dims.1 ≤ x ∨ dims.2 ≤ y then (none, false) else
  let dull : Bool := match s.pic n pic with | some q => q.noAu || !q.shown | none => true
  let in_ := fun (g : Nat) => let r := p.region g
    decide (r.1 ≤ x / 64 ∧ x / 64 < r.1 + r.2.1 ∧ r.2.2.1 ≤ y / 64 ∧ y / 64 < r.2.2.1 + r.2.2.2)
  if dull = true ∨ v.late.any in_ = true then (s.concealSlot n, true) else (s.slotOf n pic, false)

/-- The places of the samples of a packet of lines in the order of ST 2110-20, as plane, column and line in the plane, with the place in luma samples. -/
def State.lineAt (s : State) (n : Nat) (v : LineRef) : List (Nat × Nat × Nat × Nat × Nat) :=
  let p := (s.strm n).p
  let r := (p.regs[v.reg]?).getD {}
  let o := p.groupOrder
  (List.range (v.cols / o.2)).flatMap (fun k => o.1.map (fun q =>
    let x := r.x + v.off + k * o.2 + q.2.1
    let y := v.line + q.2.2
    if q.1 = 0 then (0, x, y, x, y) else (q.1, x / p.subH, y / p.subV, x, y)))

/-- The samples of a packet of lines, packed, the first in the highest bits. -/
def packBE (w : Nat) (l : List Nat) : List Byte :=
  let b := ceilDiv (w * l.length) 8
  beBytes b (l.foldl (fun k v => k * 2 ^ w + v % 2 ^ w) 0 * 2 ^ (8 * b - w * l.length))

/-- The samples that a packet of lines holds, as they stand now. -/
def State.lineData (s : State) (n pic : Nat) (v : LineRef) : List Byte :=
  let p := (s.strm n).p
  packBE (if p.bits10 then 10 else 8) ((s.lineAt n v).map (fun q =>
    match (s.outSlot n pic v q.2.2.2.1 q.2.2.2.2).1 with
    | some i => (s.slotCont i).value q.1 q.2.1 q.2.2.1
    | none => 2 ^ (if p.bits10 then 9 else 7)))

/-- A 10-bit word of ancillary data: eight bits, their even parity, and its complement. -/
def ancWord (v : Nat) : Nat :=
  let par := ((List.range 8).filter (fun i => natBit v i)).length % 2
  v % 256 + par * 256 + (1 - par) * 512

/-- The payload of the concealment flag's packet (R244): the header of RFC 8331 and one ANC packet, with its DID, its SDID and one word, in which CONC_BIT
alone may be set. PRESUMED (log 59): it names no line and no place in the line. -/
def Params.ancPayload (p : Params) (seq : Nat) (conc : Bool) : List Byte :=
  let ws := [ancWord p.ancDid, ancWord p.ancSdid, ancWord 1, ancWord (if conc then 2 ^ (p.anc / 2 % 8) else 0)]
  let sum := ws.foldl (fun k w => k + w % 512) 0 % 512
  let all := ws ++ [sum + (if sum < 256 then 512 else 0)]
  beBytes 2 (seq / 2 ^ 16) ++ beBytes 2 12 ++ beBytes 4 (1 * 2 ^ 24) ++ beBytes 4 (0x7FF * 2 ^ 20 + 0xFFF * 2 ^ 8) ++
  (let b := packBE 10 all; b ++ List.replicate (8 - b.length) 0)

/-- A packet of a decode stream is formed as it leaves: its lines are read from their slot, and mid-grey counts for the picture (R242, R246); the
concealment flag says what is known of its picture then (R244). -/
def State.formOut (s : State) (f : Frame) : Frame × State :=
  match f.stream with
  | none => (f, s)
  | some n =>
    let p := (s.strm n).p
    let seq := (f.rtp.map (fun r => r.seq)).getD 0
    if p.typ ≠ 1 then (f, s) else
    match f.vid with
    | none => if f.kind = 0 ∧ f.reg = 64 then ({ f with bytes := p.ancPayload seq (s.concealedNow n f.pic) }, s) else (f, s)
    | some v =>
      let src := (s.lineAt n v).map (fun q => s.outSlot n f.pic v q.2.2.2.1 q.2.2.2.2)
      let d := v.kept.getD (s.lineData n f.pic v)
      let row := v.line - ((p.regs[v.reg]?).getD {}).y
      let s := if src.any (fun e => e.1.isNone) then s.updPic n f.pic (fun q => { q with grey := true }) else s
      let s := if src.any (fun e => e.2 && e.1.isSome) then s.readConceal n else s
      ({ f with bytes := beBytes 2 (seq / 2 ^ 16) ++ beBytes 2 d.length ++ beBytes 2 row ++ beBytes 2 v.off ++ d }, s)

/-- The lines 56 to 63 of band `row` of a picture that still wait to leave keep what the slot holds of them now (R241). -/
def State.keepLines (s : State) (n pic row : Nat) : State :=
  { s with egr := tabMap (fun _ => []) (fun _ q => q.map (fun f =>
      match f.vid with
      | none => f
      | some v =>
        if f.stream = some n ∧ f.pic = pic ∧ 64 * row + 56 ≤ v.line ∧ v.line < 64 * row + 64 ∧ v.kept = none
        then { f with vid := some { v with kept := some (s.lineData n pic v) } } else f)) s.egr }

/-- A decoded picture's last line has left (R202, R246, R365): OUT_PENDING clears, and its record is written. -/
def State.outputDone (s : State) (n pic : Nat) : State :=
  match s.pic n pic with
  | none => s
  | some p =>
    if p.outLeft ≠ 1 ∨ s.framesLeft n (some pic) then s else
    let taint := (s.taints n).any (fun e => e.1 == pic)
    let conc := s.concealedNow n pic
    let s0 := s
    let p' : Pic := { p with outLeft := 0, repeat_ := p.noAu || !p.shown }
    let s := match s.slotOf n pic with
      | some i => s.set (R.SLOTs_MARK_OUT_PENDING i) 0
      | none => s
    let s := s.updPic n pic (fun _ => p')
    let s := s.set (R.STRMn_DSTAT_TAINT n) (b2n taint)
    let s := if conc then s.bump (R.STRMn_DCONC_COUNT n) else s
    ((s.noteFreed s0 n).statOut n (p'.decStat n conc)).popDone n

/-! ## ROW_DEADLINE -/

/-- The tiles or subpictures whose job of a band has not completed. -/
def State.lateRegs (s : State) (n pic row : Nat) : List Nat :=
  let p := s.picP n pic
  (p.jobs.filter (fun j => decide (j.1 ≤ row ∧ row < j.1 + p.jobRows) && !s.jobDone n pic j.1 j.2)).map (fun j => j.2)

/-- The band areas of a decode stream's row that are not complete at its deadline are output by substitution; the last lines of the band above are output as
they stand (R241). -/
def State.lateOut (s : State) (n pic row : Nat) : State :=
  let late := s.lateRegs n pic row
  let s := if late = [] ∨ row = 0 then s else s.keepLines n pic (row - 1)
  late.foldl (fun s _ =>
    ((s.bump (R.STRMn_DLATE_COUNT n)).updPic n pic (fun p => { p with lateBands := p.lateBands + 1 })).decReport n pic 0x46) s

/-- Every Four that codes a job of stream `n` raises its level where it must (R56). -/
def State.raiseStream (s : State) (n : Nat) : State :=
  (s.runs.map (fun e => e.1)).foldl (fun s u => if (s.run u).any (fun r => r.job.stream == n) then s.raiseLevel u else s) s

/-- The home Crew of a job: the Crew whose queue holds or held it, else the one that the set in force gives it (R130, R153). -/
def State.jobHome (s : State) (n pic row reg : Nat) : Nat :=
  let is := fun (j : Job) => j.stream == n && j.pic == pic && j.row == row && j.reg == reg
  match s.running.find? (fun r => is r.job) with
  | some r => r.home
  | none => ((List.range 4).find? (fun c => (s.crew c).queue.any is || (s.crew c).wait.any is)).getD ((s.strm n).homeOf reg)

/-- At a row's deadline every job whose last band it is and that has not completed is late, and the jobs that must rise are preempted to E3 (R56,
R153, R223, R240). -/
def State.lateRow (s : State) (n pic row : Nat) : State :=
  let t := s.strm n
  let p := s.picP n pic
  let late := p.jobs.filter (fun j => decide (p.lastBand j.1 j.2 = row) && !s.jobDone n pic j.1 j.2 && !t.complete pic)
  let s := late.foldl (fun s j => s.lateJob (s.jobHome n pic j.1 j.2) n pic j.1) s
  if late = [] ∨ p.typ = 1 then s else s.raiseStream n

/-- ROW_DEADLINE (R56, R153, R240, R241): every job of the row that has not completed is late, and the jobs that must rise are
preempted to E3; the row of a decode stream goes to output. -/
def execRowDeadline (n : Fin 128) (pic row : Nat) (s : State) : Host.Outcome State Fault Refusal :=
  let t := s.strm n
  let p := t.p
  .next (if p.typ = 2 ∨ s.get (R.STRMn_STATE_STATE n) < 2 ∨ t.nextPic ≤ pic ∨ p.nRows ≤ row ∨ (pic, row) ∈ t.dlDone ∨
      ¬ s.reached (s.rowDl p (s.strokeOf n pic) row) ∨ (s.pic n pic).isNone ∧ p.typ = 1 then s else
    let s := (s.setStrm n { t with dlDone := (pic, row) :: t.dlDone }).lateRow n pic row
    if p.typ = 1 then
      (((s.lateOut n pic row).pushBand n pic row (s.lateRegs n pic row)).updPic n pic (fun p => { p with outLeft := p.outLeft - 1 })).outputDone n pic
    else s)

end Sys2Proof.Machine
end

