-- ==== Sys2Proof/Machine/Picture.lean ====
section
/-!
DEFINITION. The Stroke (R44, R53, R54) and what begins with it: the picture records of the Larder and their staging (R117-R126,
R139-R142, R191), the picture's budget and charges (R171, R173), its slot (R206), and the changes that take effect at a Stroke (R83,
R85, R136, R159, R193, R346, R449).
-/
namespace Sys2Proof.Machine

/-! ## Picture records (R139) -/

/-- The 48 bytes of a record; its other 80 are reserved. -/
def Record.bytes (r : Record) : List Byte :=
  leBytes 8 r.pic ++ leBytes 8 r.stroke ++ leBytes 4 r.poc ++
  leBytes 4 (b2n r.valid + 2 * b2n r.carried + 4 * b2n r.startup + 8 * b2n r.irap + 16 * b2n r.sweepStart + 32 * b2n r.fast +
    64 * (r.cap % 4)) ++
  leBytes 2 r.sweepJ ++ leBytes 2 r.colS ++ leBytes 2 r.colE ++ leBytes 2 0 ++ leBytes 2 r.wslot ++ leBytes 2 r.ref0 ++
  leBytes 2 r.ref1 ++ leBytes 2 0 ++ leBytes 4 r.ref0Poc ++ leBytes 4 r.ref1Poc

/-- The record that 48 bytes hold. -/
def recordOf (bs : List Byte) : Record :=
  let f := fun (o n : Nat) => leNat (slice bs o n)
  let fl := f 0x14 4
  { pic := f 0 8, stroke := f 8 8, poc := f 0x10 4, valid := natBit fl 0, carried := natBit fl 1, startup := natBit fl 2,
    irap := natBit fl 3, sweepStart := natBit fl 4, fast := natBit fl 5, swift := natBit fl 5, cap := fl / 64 % 4, sweepJ := f 0x18 2, colS := f 0x1A 2,
    colE := f 0x1C 2, wslot := f 0x20 2, ref0 := f 0x22 2, ref1 := f 0x24 2, ref0Poc := f 0x28 4, ref1Poc := f 0x2C 4 }

/-- Where picture `m`'s record stands in a Larder (R137). -/
def recordAt (c slot m : Nat) : Nat := ldrAt c slot (0x3000 + 128 * (m % 32))

/-- A record is written into the Larder of every given Crew. -/
def State.recordPut (s : State) (n : Nat) (crews : List Nat) (r : Record) : State :=
  crews.foldl (fun s c => match s.ldrSlot c n with
    | some i => s.ldrWrite (recordAt c i r.pic) r.bytes
    | none => s) s

/-- The record of picture `m` in one Crew's Larder; none where its read is poisoned. -/
def State.recordGet (s : State) (c n m : Nat) : State × Option Record :=
  match s.ldrSlot c n with
  | none => (s, none)
  | some i =>
    let r := (List.range 3).foldl (fun (acc : State × List Byte × Bool) k =>
      let x := acc.1.arrRead 2 (recordAt c i m + 16 * k)
      (x.1, acc.2.1 ++ granBytes 2 x.2.1, acc.2.2 || x.2.2)) (s, [], false)
    (r.1, if r.2.2 then none else some (recordOf r.2.1))

/-! ## Sweeps (R118, R124) -/

/-- The columns of a record's sweep position over the whole width. -/
def Params.columns (p : Params) (r : Record) : Record :=
  if p.frame ∨ p.typ = 1 ∨ r.irap ∨ r.startup then { r with colS := 0, colE := 0 } else
  let g := if r.swift then p.fast else p.refresh
  { r with colS := sweepStart g p.wCtu r.sweepJ, colE := sweepEnd g p.wCtu r.sweepJ }

/-- The sweep position after `prev`; `pend` says that a fast sweep is pending. A decoded picture has no sweep. -/
def Params.advance (p : Params) (prev : Record) (pend : Bool) : Record :=
  let g := if prev.swift then p.fast else p.refresh
  if p.frame ∨ p.typ = 1 then {} else
  if prev.startup ∨ prev.irap then { sweepStart := true, fast := pend, swift := pend } else
  if prev.sweepJ + 1 < g ∧ (prev.swift ∨ pend = false) then { sweepJ := prev.sweepJ + 1, fast := prev.swift, swift := prev.swift }
  else { sweepStart := true, fast := pend, swift := pend }

/-- The pictures that a picture's lists name (R109): the most recent earlier ones, back to the last IRAP. -/
def refsOf (nref last m : Nat) : List Nat :=
  (((List.range nref).map (fun i => m - 1 - i)).filter (fun k => decide (last ≤ k ∧ k < m))).eraseDups

/-- The record of picture `m` with everything but its sweep and key state. -/
def State.recordFill (s : State) (n m : Nat) (r : Record) : Record :=
  let t := s.strm n
  let refs := if r.irap = true ∨ t.p.typ = 1 then [] else refsOf t.nref t.lastIrap m
  { (t.p.columns r) with
    pic := m, stroke := s.strokeOf n m, poc := m % 2 ^ 32, valid := true,
    cap := s.get (R.STRMn_SCHED_CAP n), ref0Poc := (refs[0]?.getD 0) % 2 ^ 32, ref1Poc := (refs[1]?.getD 0) % 2 ^ 32 }

/-- Picture `m` comes after a stream's last. -/
def StreamS.past (t : StreamS) (m : Nat) : Bool := match t.lastPic with | some l => decide (l < m) | none => false

/-! ## PICTURE_RECORD_STAGE (R117, R124-R126, R191) -/

/-- The decision on `k` key requests of a picture whose record stands at `r`: the record, the requests that acted, and whether
LOAN_OK was read as 0. `loan` is LOAN_OK, `read` says that it was read for this picture before. -/
def Params.keyDecide (p : Params) (r : Record) (k : Nat) (loan read : Bool) : Record × Nat × Bool :=
  if k = 0 ∨ r.irap then (r, 0, false) else
  if p.frame then ({ r with irap := true }, 1, false) else
  if p.keyTrue ∧ loan ∧ ¬ read then ({ irap := true }, 1, false) else
  let nol := p.keyTrue && !read
  if r.swift then (r, 0, nol) else ({ sweepStart := true, fast := true, swift := true }, 1, nol)

/-- PICTURE_RECORD_STAGE: firmware stages the record of the next picture in every Crew of the set in force and of the set written;
a second staging of one picture takes the requests that came since. -/
def execPictureRecordStage (n : Fin 128) (s : State) : Host.Outcome State Fault Refusal :=
  let t := s.strm n
  let p := t.p
  let m := t.nextPic
  let busy := t.pics.any (fun q => decide (q.n + 32 ≤ m) && q.fin.isNone)
  .next (if p.typ = 2 ∨ s.get (R.STRMn_STATE_STATE n) < 2 ∨ busy ∨ m = 0 ∨ t.past m then s else
    let again := t.staged = some m
    let pend := s.flag (R.STRMn_REFRESH_KEY_PEND n)
    let period := p.frame && decide (p.typ ≠ 1) && decide (t.sinceKey + p.keyPer ≤ m)
    let base : Record := if again then t.nextRec else { (p.advance t.cur pend) with irap := period }
    let k := if p.typ = 1 then 0 else (t.keyWait.filter (fun e => decide (e ≤ m))).length
    let old : Nat × Nat × Bool := if again then t.stagedKeys else (0, 0, false)
    let d := p.keyDecide base k (s.flag (R.RRCn_STAT_LOAN_OK n)) old.2.2
    let r := s.recordFill n m d.1
    let s := s.setStrm n { t with staged := some m, nextRec := r, keyWait := t.keyWait.filter (fun e => decide (m < e)),
                                  stagedKeys := (old.1 + d.2.1, old.2.1 + (k - d.2.1), old.2.2 || d.2.2) }
    let s := if d.2.2 then s.bump (R.RRCn_NOLOAN_COUNT n) else s
    let s := (s.addSat (R.STRMn_KEYS_ACTED n) d.2.1).addSat (R.STRMn_KEYS_MERGED n) (k - d.2.1)
    let s := if 0 < k ∧ ¬ r.irap ∧ r.swift ∧ 0 < r.sweepJ then s.set (R.STRMn_REFRESH_KEY_PEND n) 1 else s
    let s := if r.irap then s.set (R.STRMn_REFRESH_IRAP_NEXT n) 1 else s
    let new := (s.regSet n).crews p.typ
    let s := new.foldl (fun s c => if s.crewPresent c then s.ldrLoad c n else s) s
    s.recordPut n ((t.eff.crews p.typ ++ new).eraseDups) r)

/-! ## The Larder switch (R136, R140, R142) -/

/-- A Crew that has left a stream's set and holds no job of it drops the stream's context (R136). -/
def State.dropContexts (s : State) (n : Nat) : State :=
  let keep := (s.strm n).crews
  (List.range 4).foldl (fun s c =>
    let used := (List.range 36).any (fun q => match s.run (36 * c + q) with
        | some r => r.job.stream == n
        | none => (tabGet [] s.ended (36 * c + q)).any (fun r => r.job.stream == n)) ||
      (s.crew c).queue.any (fun j => j.stream == n) || (s.crew c).wait.any (fun j => j.stream == n)
    if c ∈ keep ∨ used = true then s else s.ldrDrop c n) s

/-- A written change of homes or shadows takes effect, but not in the cycle of its write: a Crew that is new holds the full frame context, the
records of the pictures in flight and the staged one among it (R136, R141). -/
def State.setSwitch (s : State) (n : Nat) : State :=
  let t := s.strm n
  match t.setAt with
  | none => s
  | some c =>
    if s.cyc ≤ c then s else
    let e := s.regSet n
    let new := (e.crews t.p.typ).filter (fun c => s.crewPresent c)
    let s := new.foldl (fun s c => s.ldrLoad c n) s
    let fresh := new.filter (fun c => !decide (c ∈ t.eff.crews t.p.typ))
    let s := t.pics.foldl (fun s q => s.recordPut n fresh q.record) s
    let s := if t.staged = some t.nextPic then s.recordPut n fresh t.nextRec else s
    s.updStrm n (fun t => { t with eff := e, setAt := none })

/-- The slots of stream `n` show the picture whose record is current. -/
def State.showCur (s : State) (n m : Nat) (crews : List Nat) : State :=
  crews.foldl (fun s c => match s.ldrSlot c n with
    | some i => s.set (R.CREWc_LDR_SLOTs_CUR c i) (m % 32)
    | none => s) s

/-- The record of picture `m` as each Crew's Larder gives it. -/
def State.recordsGet (s : State) (n m : Nat) (crews : List Nat) : State × List (Option Record) :=
  crews.foldl (fun (acc : State × List (Option Record)) c =>
    let x := acc.1.recordGet c n m
    (x.1, acc.2 ++ [x.2])) (s, [])

/-- The record of picture `m` at its Stroke: the staged one where it is valid in the Larder of every Crew of the set, else the one that
hardware builds from the record before, with every flag but CAP clear (R142). DESIGN CHOICE (log 36): one with VALID set and the PIC of another
picture, 32 or more pictures old, counts as not valid; the spec names VALID alone. -/
def State.switchRecord (s : State) (n m : Nat) : State × Record :=
  let t := s.strm n
  let crews := t.crews
  let g := s.recordsGet n m crews
  let s := g.1.showCur n m crews
  let ok := g.2.all (fun r => match r with | some r => r.valid && decide (r.pic = m) | none => false)
  match g.2.head?, ok with
  | some (some r), true => (s, r)
  | _, _ =>
    if m = 0 then (s, t.nextRec) else
    let r := { (t.p.columns (t.p.advance t.cur false)) with
      pic := m, stroke := t.cur.stroke + 1, poc := (t.cur.poc + 1) % 2 ^ 32, carried := true, sweepStart := false, fast := false, cap := t.cur.cap,
      ref0Poc := (m - 1) % 2 ^ 32, ref1Poc := t.cur.ref0Poc }
    let s := crews.foldl (fun s c => s.bump (R.CREWc_LDR_CARRY_COUNT c)) s
    (s.recordPut n crews r, r)

/-! ## The budget of a picture (R171, R173) -/

/-- One host SEI is charged to a picture and goes with it, or moves on to the next. -/
def seiStep (margin : Int) (acc : Pic × List (Nat × List Byte)) (e : Nat × List Byte) : Pic × List (Nat × List Byte) :=
  let p := acc.1
  if p.free - e.1 < margin then ({ p with seiDefer := true }, acc.2 ++ [e])
  else ({ p with spent := p.spent + e.1, sei := p.sei ++ [e] }, acc.2)

/-- The picture's cap, loan, budget, reserve and its first charges: the NAL units of orders 1 to 5 (R173, R177). -/
def State.budget (s : State) (n : Nat) (p : Pic) : State × Pic :=
  let t := s.strm n
  let e := s.rrcEst n
  let nn := s.rrcNs n
  let b := s.rrcBMaxs n
  let cap := b - e.1
  let repay := min e.2 (nn * s.get (R.RRCn_KEY_REPAY n) / 100)
  let loan := min (b * s.get (R.RRCn_KEY_BORROW n) / 100) (cap - nn)
  let big := p.record.irap || p.record.startup
  let bPic := (if big then min cap (nn + loan) else min cap (nn - repay)) / 2 ^ 16
  let head := 8 * t.p.nalsBytes (s.picNals n p)
  let p := { p with bPic := bPic, loan := if big then loan else 0, spent := head,
                    reserve := t.p.picFloor p.record (s.get (R.RRCn_SLICE_BITS n)) }
  let due := t.seiDef ++ (t.sei.filter (fun i => decide (i.first ≤ p.n ∧ p.n ≤ i.last))).map (fun i => (i.bits, i.pay))
  let r := due.foldl (seiStep (s.get (R.RRCn_MARGIN_BITS n))) (p, [])
  let s := s.updStrm n (fun t => { t with seiDef := r.2, sei := t.sei.filter (fun i => decide (p.n < i.last)) })
  (s.addSat (R.RRCn_SEIDEFER_COUNT n) r.2.length, r.1)

/-! ## Changes that take effect at a Stroke -/

/-- The first `k` commands that wait for `w` complete. -/
def State.settleFirst (s : State) (w : Await) (k status data : Nat) : State :=
  match k with
  | 0 => s
  | k + 1 =>
    match s.owed.find? (fun o => o.wait == w) with
    | none => s
    | some o => (({ s with owed := removeFirst (fun o => o.wait == w) s.owed } : State).complete o status data).settleFirst w k status data

/-- A field that a rate command selects. -/
def State.setSome (s : State) (f : RF) (v : Option Nat) : State := match v with | some x => s.set f x | none => s

/-- The rate changes accepted before this cycle take effect at the Stroke of picture `m`; one accepted in its cycle waits for the next (R193). -/
def State.rateSwitch (s : State) (n m : Nat) : State :=
  let t := s.strm n
  let now_ := t.rates.filter (fun r => decide (r.at_ < s.cyc))
  let s := s.setStrm n { t with rates := t.rates.drop now_.length }
  let s := now_.foldl (fun s r => (((s.setSome (R.RRCn_RATE_KBPS n) r.br).setSome (R.RRCn_QP_QP_MIN n) r.qpMin).setSome
    (R.RRCn_QP_QP_MAX n) r.qpMax).setSome (R.RRCn_MARGIN_BITS n) r.margin) s
  s.settleFirst (.rate n) now_.length St.ok m

/-- From picture `m` on nothing has come of a feed that is placed anew: its lines were staged at the place that it had, and the merge of its flow begins
again (R83, R410). -/
def State.feedAfresh (s : State) (n m f : Nat) : State :=
  let e := s.feed f
  let s := s.setFeed f { e with lines := e.lines.filter (fun x => decide (x.1 < m)), segs := e.segs.filter (fun x => decide (x.pic < m)) }
  let keep := fun (b : StripB) => if b.pic < m then b else { b with smps := b.smps.filter (fun x => decide (x.feed ≠ f)) }
  s.updStrm n (fun t => { t with strip := t.strip.map keep })

/-- The merge of a feed's flow begins again. -/
def State.mergeAfresh (s : State) (n f : Nat) : State := s.updStrm n (fun t => { t with merge := t.merge.filter (fun x => x.1 != f) })

/-- A feed comes to a canvas with picture `m`: its counters clear (R92). The pictures before have no line of it, or those of the feed of that number that the
canvas had. -/
def State.feedAdd (s : State) (n m : Nat) (p : FeedP) : State :=
  let old := s.feed p.feed
  let mine : Bool := old.stream == some n
  let before := (m, if mine then old.p else { p with w := 0, h := 0 }) :: (if mine then old.prev else [])
  let s := s.setFeed p.feed { stream := some n, p := p, lines := if mine then old.lines else [], prev := if m = 0 then [] else before }
  let s := s.mergeAfresh n p.feed
  let s := s.feedAfresh n m p.feed
  ((s.set (R.FEEDf_EARLY_COUNT p.feed) 0).set (R.FEEDf_LATE_COUNT p.feed) 0).set (R.FEEDf_FILLED_COUNT p.feed) 0

/-- One change of a canvas's feeds takes effect from picture `m` on, and the command that asked for it completes. The pictures before keep the
placement that the feed had (R83, R340); a removed feed has no lines from `m` on, and one that is placed anew begins without any. -/
def State.feedChange (s : State) (n m : Nat) (c : FeedChange) : State :=
  let old := s.feed c.p.feed
  let s := match c.sub with
    | 0 => s.feedAdd n m c.p
    | 1 =>
      let s := s.setFeed c.p.feed { old with p := c.p, prev := (m, old.p) :: old.prev }
      let s := if c.p.flow = old.p.flow then s else s.mergeAfresh n c.p.feed
      if (c.p.x, c.p.y, c.p.w, c.p.h) = (old.p.x, old.p.y, old.p.w, old.p.h) then s else s.feedAfresh n m c.p.feed
    | _ => if m = 0 then (s.setFeed c.p.feed {}).mergeAfresh n c.p.feed
        else ((s.setFeed c.p.feed { old with p := { old.p with w := 0, h := 0 }, prev := (m, old.p) :: old.prev }).mergeAfresh n c.p.feed).feedAfresh n m c.p.feed
  s.settleFirst (.feed n c.p.feed) 1 St.ok m

/-- A feed's placements before picture `m` that no picture in hand has are dropped; a feed that was removed is then on no canvas. -/
def State.feedPrune (s : State) (n m : Nat) : State :=
  let old := ((s.strm n).pics.head?.map (fun p => p.n)).getD m
  (s.feedsOf n).foldl (fun s e =>
    let l : List (Nat × FeedP) := e.2.prev.filter (fun x => decide (old < x.1))
    s.setFeed e.1 (if e.2.p.h = 0 ∧ l = [] then {} else { e.2 with prev := l })) s

/-- The feed changes accepted before this cycle take effect (R83); a job that no feed with a line missing meets any more has its input (R81). -/
def State.feedSwitch (s : State) (n m : Nat) : State :=
  let old := s
  let s := s.feedPrune n m
  let t := s.strm n
  let now_ := t.changes.filter (fun c => decide (c.at_ < s.cyc) || decide (m = 0))
  let s := s.setStrm n { t with changes := t.changes.drop now_.length }
  let s := (now_.foldl (fun s c => s.feedChange n m c) s).igmpSync old
  if now_ = [] ∨ t.p.frame = true then s
  else ((s.strm n).strip.filter (fun b => decide (m ≤ b.pic))).foldl (fun s b => s.enqueueWhole n b.pic b.b) s

/-- The subscribers of a canvas that wait for its Stroke become ON (R346). -/
def State.subSwitch (s : State) (n m : Nat) : State :=
  (s.subsOf n).foldl (fun s e =>
    let b := e.2
    if s.get (R.EGR_SUBs_STATE_STATE e.1) ≠ 1 ∨ (s.cyc ≤ b.at_ ∧ m ≠ 0) then s else
    let s := (s.setSub e.1 (some { b with first := some m })).reachOn 2 e.1 m
    if s.get (R.EGR_SUBs_STATE_STATE e.1) = 3 then s.setSub e.1 (some { b with first := some m, last := some m }) else s) s

/-! ## The Stroke of one stream -/

/-- What a stream knows of its next picture as it begins, from the picture's record (R54, R105, R142). -/
def State.picFor (s : State) (n m k : Nat) (r : Record) : Pic :=
  let t := s.strm n
  let p := t.p
  let keys := if t.staged = some m then t.stagedKeys else (0, 0, false)
  let keys := if m = 0 then (keys.1, keys.2.1 + (t.keyWait.filter (fun e => e == 0)).length, keys.2.2) else keys
  { n := m, k := k, t := s.strokeAt p.gen k, record := r, jobsLeft := p.jobs.length,
    refs := if p.typ = 1 ∨ r.irap ∨ r.startup then [] else refsOf t.nref t.lastIrap m,
    acted := keys.1, merged := keys.2.1, noloan := keys.2.2, outLeft := p.nRows + 1,
    whole := decide (p.typ = 1) && !t.dec.started, lay := p.lay, big := p.big, small := p.small, wpp := p.wpp, dims := p.dims }

/-- The picture before, and its slot where it has one, keep how many pictures after it refer to it (R203). -/
def State.markRefs (s : State) (n m : Nat) : State :=
  let s := if m = 0 then s else s.updPic n (m - 1) (fun p => { p with nrefAt := (s.strm n).nref })
  match (s.shelf n).find? (fun i => s.slotPicOf i == some (m - 1)) with
  | some i => if m = 0 ∨ (s.strm n).p.typ = 1 then s else { s with slotNref := tabSet 0 s.slotNref i (s.strm n).nref }
  | none => s

/-- The picture joins the stream's; what a staged record that is not valid held comes one picture later (R142). -/
def State.pictureJoin (s : State) (n : Nat) (pic : Pic) (r : Record) (staged : Bool) : State :=
  let m := pic.n
  s.updStrm n (fun t => { t with
    pics := t.pics ++ [pic], nextPic := m + 1, cur := pic.record, lastIrap := if r.irap ∨ r.startup then m else t.lastIrap,
    staged := none, stagedKeys := (0, 0, false),
    keyWait := t.keyWait.filter (fun e => decide (e ≠ 0)) ++ (if r.carried ∧ staged ∧ 0 < pic.acted then [m + 1] else []),
    sinceKey := if m = 0 then 1 else if r.irap ∧ t.p.frame then m else t.sinceKey })

/-- What the refresh and rate registers of a coded stream show as a picture begins. -/
def State.refreshShow (s : State) (n : Nat) (r : Record) : State :=
  let s := (s.set (R.STRMn_REFRESH_POS n) r.sweepJ).set (R.STRMn_REFRESH_FAST n) (b2n r.swift)
  let s := s.set (R.STRMn_REFRESH_IRAP_NEXT n) 0
  let s := if r.irap ∨ (r.sweepStart ∧ r.swift) then s.set (R.STRMn_REFRESH_KEY_PEND n) 0 else s
  (s.rrcRegs n).rrcLoan n

/-- The parameters, rate and feeds that a picture begins under are in place first. -/
def State.paramSwitch (s : State) (n m : Nat) : State :=
  let s := (s.setSwitch n).rateSwitch n m
  if (s.strm n).p.typ = 3 then s.feedSwitch n m else s

/-- A picture begins with its record `r`: its budget, its slot, its place among the stream's pictures. -/
def State.pictureBegin (s : State) (n m k : Nat) (r : Record) : State :=
  let t := s.strm n
  let typ := t.p.typ
  let pic := s.picFor n m k r
  let b := if typ = 1 then (s, pic) else s.budget n pic
  let a := (b.1.markRefs n m).allocate n b.2
  let s := (a.1.pictureJoin n a.2 r (decide (t.staged = some m))).recordPut n t.crews a.2.record
  let s := if typ = 1 then s else s.refreshShow n r
  (s.subSwitch n m).dropContexts n

/-- Picture `m` of a stream begins. -/
def State.pictureStart (s : State) (n k : Nat) : State :=
  let m := (s.strm n).nextPic
  let sw := (s.paramSwitch n m).switchRecord n m
  sw.1.pictureBegin n m k sw.2

/-- A Stroke of a stream's generator: a STARTING stream whose allocation ended at least 1 ms before the cycle in which the Stroke fires becomes ON (R85),
and a stream that has pictures left begins its next. -/
def State.streamStroke (s : State) (n k : Nat) : State :=
  let t := s.strm n
  let st := s.get (R.STRMn_STATE_STATE n)
  let opens : Bool := decide (st = 1) && (match t.allocEnd with
    | some a => decide (a + 10 ^ 6 * unitsPerNs ≤ s.now)
    | none => false)
  let s := if opens then
      let s := (s.setStrm n { t with kOpen := k, nextPic := 0, allocEnd := none }).set (R.STRMn_KOPEN_KOPEN n) k
      let s := s.reachOn 1 n k
      if s.get (R.STRMn_STATE_STATE n) = 3 then s.updStrm n (fun t => { t with lastPic := some 0 }) else s
    else s
  let t := s.strm n
  if s.get (R.STRMn_STATE_STATE n) < 2 ∨ t.past t.nextPic then s
  else if t.p.typ = 2 then s.setStrm n { t with nextPic := t.nextPic + 1 }
  else s.pictureStart n k

/-- RACK_SLOT_TAKE (R208): the first waiting picture of a stream takes the slot that is free now. -/
def execRackSlotTake (n : Fin 128) (s : State) : Host.Outcome State Fault Refusal :=
  let t := s.strm n
  .next (match t.pics.find? (fun p => p.waiting), s.freeSlot n with
    | some p, some i =>
      let (s, p') := s.takeSlot n i p
      let pics := t.pics.map (fun q => if q.n = p.n then p' else q)
      let s := (s.updStrm n (fun t => { t with pics := pics, cur := if t.cur.pic = p.n then p'.record else t.cur })).recordPut n t.crews p'.record
      (s.set (R.SHLFn_STAT_WAIT n) (b2n (pics.any (fun q => q.waiting)))).rackWaitFlag
    | _, _ => s)

/-! ## Gates at a Stroke (R449) -/

/-- Entry `i` of a port's list in force begins at an instant in units of device time: its gates and its end. The last entry of a list
has no end. -/
def State.gateEnter (s : State) (p i at_ len : Nat) : State :=
  let b := s.get (R.EGRp_GSTAT_ACT p)
  let s := (s.set (R.EGRp_GSTAT_GATES p) (s.get (R.EGRp_GCLb_i_GATES p b i))).set (R.EGRp_GSTAT_ENTRY p) i
  { s with gates := tabUpd {} s.gates p (fun g => { g with
      ends := if i + 1 < len then some (at_ + s.get (R.EGRp_GCLb_i_DUR_DUR p b i) * unitsPerNs) else none }) }

/-- The entries of a port's list in force. -/
def State.gateLen (s : State) (p : Nat) : Nat := (tabGet {} s.gates p : GateS).len

/-- A cyclic list on a stroke port starts its entry 0 at every Stroke of its generator. -/
def State.gateStroke (s : State) (g : Nat) (at_ : Nat) : State :=
  (List.range 4).foldl (fun s p =>
    if s.flag (R.EGRp_GSTAT_LISTED p) ∧ s.flag (R.EGRp_GSTAT_MODE p) ∧ s.get (R.EGRp_GSTAT_GEN p) = g
    then s.gateEnter p 0 at_ (s.gateLen p) else s) s

/-! ## STROKE -/

/-- The mark of a Stroke of generator `g` in this cycle, for what else begins with it. -/
def strokeKey (g : Nat) : Nat := 200 + g

/-- STROKE (R44, R53, R54, R569): generator `g` fires its next Stroke at the first cycle at or past its instant, and asserts its event
source and firmware's copy. -/
def execStroke (g : Fin 4) (s : State) : Host.Outcome State Fault Refusal :=
  let x := s.gen g
  let k := x.next
  .next (if ¬ s.flag (R.STRKg_CTL_EN g) ∨ ¬ s.reached (s.strokeAt g k) then s else
    let s : State := { s with fired := strokeKey g :: s.fired }
    let s := s.setGen g { next := k + 1, rem := (x.rem + s.pnum g) % s.pden g, last := k, lastNs := s.subNs }
    let s := (s.set (R.STRKg_CTL_ARMED g) 0).settle (.stroke g) St.ok k
    let s := (List.range 128).foldl (fun s n =>
      if s.get (R.STRMn_STATE_STATE n) ≠ 0 ∧ (s.strm n).p.gen = g.val then s.streamStroke n k else s) s
    let s := (List.range 4).foldl (fun s c => if s.get (R.CREWc_CTL_FB_GEN c) = g.val then s.substitute c else s) s
    let i := s.strokeAt g k
    ((s.gateStroke g (ceilDiv (i.num * unitsPerNs) i.den)).evcAssert (4 + g)).evcAssert (36 + g))

end Sys2Proof.Machine
end

