-- ==== Sys2Proof/Machine/Admission.lean ====
section
/-!
DEFINITION. Admission (R154, R155, R160, R161, R227, R653), and the checks of an open (R62-R76, R84, R89, R90, R115, R167, R168, R178,
R200, R218, R220, R243, R421).
-/
namespace Sys2Proof.Machine

/-! ## A stream as admission sees it -/

/-- One stream of a set to be admitted: its number, its parameters, its Crew set, and whether it is capped at E3. -/
structure Cand where
  n   : Nat
  p   : Params
  set : CrewSet
  cap : Bool
  deriving DecidableEq, Repr

/-- 2 / m_i: 1 where the stream's CAP is E3, 2 otherwise; a decode stream counts with m_i = 1 (R224). -/
def Cand.wt (c : Cand) : Nat := if c.cap ∧ c.p.typ ≠ 1 then 1 else 2

/-- The streams that are not OFF and hold seats, but for stream `n`, with the set in force or written. -/
def State.cands (s : State) (except : Option Nat) : List Cand :=
  (List.range 128).filterMap (fun n =>
    let t := s.strm n
    if s.get (R.STRMn_STATE_STATE n) = 0 ∨ t.p.typ = 2 ∨ except = some n then none
    else some { n := n, p := t.p, set := s.regSet n, cap := s.get (R.STRMn_SCHED_CAP n) == 3 })

/-- The samples of luma area `a` times spp times 2/m, to be divided by 4 and by the period: the load of a stream. -/
def Cand.load (c : Cand) (a : Nat) : Nat := a * c.p.spp2 * c.wt

/-- A sum of loads of generators A to D, as samples per second times 4 times the product of the four period numerators. -/
def State.rate4 (s : State) (l : List (Nat × Nat)) : Nat :=
  (List.range 4).foldl (fun k g =>
    let sum := l.foldl (fun k e => if e.1 = g then k + e.2 else k) 0
    let others := (List.range 4).foldl (fun q h => if h = g then q else q * s.pnum h) 1
    k + sum * s.pden g * 10 ^ 9 * others) 0

/-- 1.0001 times a rate in the units of `rate4` is at most `seats` times 1.08 G samples/s. -/
def State.fitsSeats (s : State) (rate seats : Nat) : Bool :=
  decide (rate * 10001 ≤ seats * 1080000000 * 4 * 10000 * ((List.range 4).foldl (fun q h => q * s.pnum h) 1))

/-- A1. -/
def State.admitA1 (s : State) (l : List Cand) : Bool :=
  s.fitsSeats (s.rate4 (l.map (fun c => (c.p.gen, c.load (c.p.w * c.p.h)))))
    ((List.range 4).foldl (fun k c => k + s.live c) 0)

/-- The load that a stream must put on the Crews of `k`: all of it where its set lies within them, and of a canvas the rates of the
subpictures homed there. -/
def Cand.within (c : Cand) (k : List Nat) : Nat :=
  if c.p.typ = 3 then
    (c.p.regs.zip c.set.sub).foldl (fun x e => if e.2 ∈ k then x + c.load (64 * e.1.w * (64 * e.1.h)) else x) 0
  else if (c.set.crews c.p.typ).all (fun x => decide (x ∈ k)) then c.load (c.p.w * c.p.h) else 0

/-- A2: shares exist, by the marriage condition over every group of Crews. -/
def State.admitA2 (s : State) (l : List Cand) : Bool :=
  (List.range 16).all (fun m =>
    let k := (List.range 4).filter (fun c => natBit m c)
    s.fitsSeats (s.rate4 (l.map (fun c => (c.p.gen, c.within k)))) (k.foldl (fun x c => x + s.live c) 0))

/-- The CTUs of the longest job (R154, R653). -/
def Params.longest (p : Params) : Nat :=
  if p.typ = 1 then p.wCtu else (List.range p.nReg).foldl (fun m i => max m (p.region i).2.1) 0

/-- A3, with the row period times its denominator. -/
def State.admitA3 (s : State) (p : Params) : Bool :=
  let c := p.cost108 true (p.longest + 1) 3
  let den := s.pden p.gen * p.nRows
  let pn := s.pnum p.gen
  if p.frame then decide (c * den + 108 * p.grace * den ≤ 108 * ((p.delay - 1) * pn * p.nRows + pn))
  else decide (c * den + 108 * pn + 108 * p.grace * den ≤ 108 * (p.delay * pn))

/-- A8. -/
def State.admitA8 (s : State) (p : Params) : Bool :=
  let q := if p.refRows = 0 then p.nRows - 1 else p.refRows
  decide (p.cost108 true (p.longest + 1) 3 * (s.pden p.gen * p.nRows) ≤ 108 * ((p.nRows - q) * s.pnum p.gen))

/-- The jobs per band of a stream homed at Crew `c` (R154, R653). DEDUCED (log 38): of a canvas every subpicture homed there counts, whatever its rows,
as in the values 128 x 6 and 131 x 6 of the manual's examples. -/
def Cand.bandJobs (c : Cand) (v : Nat) : Nat :=
  if c.p.typ = 3 then (c.set.sub.filter (fun x => decide (x = v))).length
  else if c.set.home ≠ v then 0
  else if c.p.typ = 1 then min (Config.levelMaxCols c.p.profile c.p.level c.p.w) (ceilDiv c.p.w 32)
  else c.p.tiles

/-- The bands of a stream that A5 counts. -/
def Params.bandsIn (p : Params) : Nat :=
  if p.typ = 1 then (if p.frame then p.delay * p.nRows + 2 else p.delay + 2) else if p.frame then p.nh else p.nb

/-- The BIN_MAX in Mbin/s that the streams of a set put on a Bow: those decoded Bow-ahead, and those whose sets have not come and which may be. -/
def State.bowLoad (s : State) (l : List Cand) (f : Nat) : Nat :=
  l.foldl (fun k c => if c.p.typ = 1 ∧ s.get (R.STRMn_STATE_STATE c.n) ≠ 0 ∧ (s.strm c.n).dec.bow = some f then k + c.p.binMax else k) 0

/-- A stream to be opened could be decoded Bow-ahead: A7 counts it on a Bow of its home Crew. DEDUCED (log 39) from R653: no parameter set has come, so
the layout is the worst that the declared limits allow; a stream above 1.6 Gbin/s is no Bow-ahead stream. -/
def Cand.mayAhead (c : Cand) : Bool := decide (c.p.typ = 1) && decide (c.p.binMax ≤ 1600)

/-- A7 for a stream to be opened, beside the others. -/
def State.admitA7 (s : State) (l : List Cand) (c : Cand) : Bool :=
  !c.mayAhead || (List.range 9).any (fun b => decide (s.bowLoad l (9 * c.set.home + b) + c.p.binMax ≤ 1600))

/-- A set of streams is admissible: A1 to A8. -/
def State.admissible (s : State) (l : List Cand) : Bool :=
  s.admitA1 l && s.admitA2 l && l.all (fun c => s.admitA3 c.p && (decide (c.p.typ ≠ 1) || s.admitA8 c.p)) &&
  (List.range 4).all (fun v =>
    decide ((l.filter (fun c => decide (v ∈ c.set.crews c.p.typ))).length ≤ 48) &&
    decide (l.foldl (fun k c => k + c.bandJobs v * c.p.bandsIn) 0 ≤ 1024)) &&
  decide (l.foldl (fun k c => k + if c.p.typ = 1 then 10 * c.p.binMax * 10 ^ 6 else 6 * c.p.brMax * 10 ^ 3) 0 ≤ 576 * 10 ^ 9) &&
  (List.range 36).all (fun f => decide (s.bowLoad l f ≤ 1600))

/-! ## The checks of an open (R84) -/

/-- A codec's profile takes a chroma format and bit depth (R65, R67). -/
def Params.formatOk (p : Params) : Bool :=
  match p.profile with
  | 0 => decide (p.chroma = 0) && !p.bits10 && decide (p.typ ≠ 3)
  | 1 => decide (p.chroma = 0) && decide (p.typ ≠ 3)
  | 2 => decide (p.chroma ≤ 1) && decide (p.typ ≠ 3)
  | 3 => decide (p.typ ≠ 3)
  | 4 => decide (p.chroma = 0)
  | _ => true

/-- A canvas's size (R71). -/
def Params.canvasSize (p : Params) : Bool :=
  decide (1024 ≤ p.w ∧ p.w ≤ 65536 ∧ 1024 ≤ p.h ∧ p.h ≤ 32768 ∧ p.w % 64 = 0 ∧ p.h % 64 = 0 ∧ p.w * p.h ≤ 2 ^ 30)

/-- Two rectangles share no area. -/
def apart (ax ay aw ah bx by_ bw bh : Nat) : Bool := decide (ax + aw ≤ bx ∨ bx + bw ≤ ax ∨ ay + ah ≤ by_ ∨ by_ + bh ≤ ay)

/-- Every two elements of a list are related. -/
def pairsOk {α : Type} (f : α → α → Bool) : List α → Bool
  | [] => true
  | x :: r => r.all (fun y => f x y) && pairsOk f r

/-- The subpictures cover the canvas exactly (R72). -/
def Params.layoutOk (p : Params) : Bool :=
  decide (1 ≤ p.regs.length ∧ p.regs.length ≤ 512) &&
  p.regs.all (fun r => decide (4 ≤ r.w ∧ r.w ≤ 64 ∧ 4 ≤ r.h ∧ r.x + r.w ≤ p.wCtu ∧ r.y + r.h ≤ p.nRows)) &&
  decide (p.regs.foldl (fun k r => k + r.w * r.h) 0 = p.wCtu * p.nRows) &&
  pairsOk (fun a b => apart a.x a.y a.w a.h b.x b.y b.w b.h) p.regs

/-- The parity rules of a rectangle in samples (R75). -/
def Params.parity (p : Params) (x y w h : Nat) : Bool :=
  (decide (p.chroma = 2) || decide (x % 2 = 0 ∧ w % 2 = 0)) && (decide (p.chroma ≠ 0) || decide (y % 2 = 0 ∧ h % 2 = 0))

/-- The ranges of the coding parameters (R115). -/
def Params.codingOk (p : Params) : Bool :=
  decide (1 ≤ p.nref ∧ p.nref ≤ 2) &&
  (if p.frame then decide (1 ≤ p.delay ∧ p.delay ≤ 3 ∧ 2 ≤ p.nh ∧ p.nh ≤ 8 ∧ 1 ≤ p.keyPer ∧ p.keyPer ≤ 4096)
   else decide (2 ≤ p.delay ∧ p.delay ≤ 16 ∧ 4 ≤ p.refresh ∧ p.refresh ≤ 256 ∧ 2 ≤ p.fast ∧ p.fast ≤ 64 ∧ p.fast ≤ p.refresh))

/-- The sum of BR_MAX over the open encode and canvas streams but `n` (R168), in kbit/s. -/
def State.brMaxSum (s : State) (n : Nat) : Nat :=
  ((s.cands (some n)).filter (fun c => decide (c.p.typ ≠ 1))).foldl (fun k c => k + c.p.brMax) 0

/-- The ranges of the rate parameters and the feasibility tests (R167, R168, R178). -/
def State.rateOk (s : State) (n : Nat) (p : Params) : Bool :=
  let pn := s.pnum p.gen
  let pd := s.pden p.gen
  decide (100 ≤ p.br ∧ p.br ≤ p.brMax ∧ p.brMax ≤ 48000000 ∧ ceilDiv pn (pd * 1000) ≤ p.bufUs ∧ p.bufUs ≤ 1000000 ∧ p.qpMin ≤ p.qpMax ∧
    p.qpMax ≤ (if p.vvc then 63 else 51) ∧ p.qpMin ≤ p.qpInit ∧ p.qpInit ≤ p.qpMax ∧ p.borrow ≤ 90 ∧ 1 ≤ p.repay ∧ p.repay ≤ 50 ∧
    s.brMaxSum n + p.brMax ≤ 96000000) &&
  p.feasible p.br p.margin p.repay p.cSlice p.ovhMax pn pd

/-- The lowest level up to 6.2 whose limits in the named tier contain a stream (R66): bit_rate and cpb_size are those it signals. -/
def State.lowLevel (s : State) (p : Params) : Option Nat :=
  (levelCodes p.vvc).find? (fun l => levelFits p.profile p.tier l p.w p.h (s.pnum p.gen) (s.pden p.gen) (brSignalled p.brMax)
    (p.brMax * p.bufUs / 1000 / 16 * 16) p.jobs.length p.tiles 0)

/-- The level of an ENCODE stream contains it, and the area of a DECODE stream is within its LEVEL_MAX (R66, R69). -/
def State.levelOk (s : State) (p : Params) : Bool :=
  if p.typ = 1 then decide (p.w * p.h ≤ Config.levelLimit p.vvc p.level 0)
  else match s.lowLevel p with
    | none => false
    | some low => decide (p.level = 0) || decide (low ≤ p.level)

/-- The level that a coded stream signals (R66, R67): a canvas level 15.5, any other the level it names or the lowest that fits. -/
def State.signalLevel (s : State) (p : Params) : Nat :=
  if p.typ = 3 then 255 else if p.typ ≠ 0 then 0 else if p.level ≠ 0 then p.level else (s.lowLevel p).getD 0

/-- The ranges of a decode stream (R218, R243). -/
def State.decodeOk (s : State) (n : Nat) (p : Params) : Bool :=
  let others := ((s.cands (some n)).filter (fun c => decide (c.p.typ = 1))).foldl (fun k c => k + c.p.regs.length) 0
  decide (1 ≤ p.dpbMax ∧ p.dpbMax ≤ 16 ∧ (if p.frame then 1 ≤ p.delay ∧ p.delay ≤ 3 else 2 ≤ p.delay ∧ p.delay ≤ 16) ∧
    100 ≤ p.inBrMax ∧ p.inBrMax ≤ 4000000 ∧ 1 ≤ p.binMax ∧ p.binMax ≤ 57600 ∧ p.refRows ≤ 15 ∧ 1 ≤ p.pliHold ∧ p.pliHold ≤ 255 ∧
    1 ≤ p.regs.length ∧ p.regs.length ≤ 64 ∧ p.regs.length + others ≤ 256 ∧ 0x50 ≤ p.ancDid ∧ p.ancDid ≤ 0x5F) &&
  p.regs.all (fun r => decide (1 ≤ r.w ∧ 1 ≤ r.h ∧ r.x + r.w ≤ p.w ∧ r.y + r.h ≤ p.h) && p.parity r.x r.y r.w r.h)

/-- Check 5: geometry. IN_OFS lies below P, of a DECODE stream at most P - 1 ns (R84, R218). DESIGN CHOICE (log 37): the bound of the grace is given with D, and
in frame mode D is read as DF. -/
def State.geometryOk (s : State) (n : Nat) (p : Params) : Bool :=
  let pn := s.pnum p.gen
  let pd := s.pden p.gen
  decide ((if p.typ = 1 then p.inOfs + 1 else p.inOfs) * pd ≤ pn ∧ p.inOfs * pd < pn) && decide (2000 ≤ p.pace ∧ p.pace ≤ 1000000) &&
  decide (p.grace * (pd * p.nRows) ≤ graceRows p.frame p.delay p.nRows * pn) &&
  (if p.typ = 3 ∨ (p.typ = 1 ∧ p.level = 255) then p.canvasSize
   else decide (p.w % 8 = 0 ∧ p.h % 8 = 0 ∧ 128 ≤ p.w ∧ p.w ≤ 16384 ∧ 64 ≤ p.h ∧ p.h ≤ 16384) && s.levelOk p) &&
  (decide (p.typ ≠ 3) || p.layoutOk) &&
  (if p.typ = 1 then s.decodeOk n p else p.codingOk && s.rateOk n p) &&
  !(p.outFlow.ts && p.don)

/-- A set of feeds can stand on a canvas (R75, R76). DESIGN CHOICE (log 130): R62 gives a canvas 1 to 256 feeds and no status for none, and an open with no
feed or a REMOVE of the last one is accepted; the canvas codes its background. -/
def Params.feedsOk (p : Params) (l : List FeedP) : Bool :=
  l.all (fun f => decide (16 ≤ f.w ∧ f.w ≤ 16384 ∧ 16 ≤ f.h ∧ f.h ≤ 8640 ∧ f.x + f.w ≤ p.w ∧ f.y + f.h ≤ p.h) && p.parity f.x f.y f.w f.h &&
    (p.bits10 || !f.bits10)) &&
  pairsOk (fun a b => decide (a.feed ≠ b.feed) && apart a.x a.y a.w a.h b.x b.y b.w b.h) l

/-- The feeds of a canvas once every accepted change has taken effect. -/
def State.feedsNext (s : State) (n : Nat) : List FeedP :=
  ((s.strm n).changes).foldl (fun l c =>
    match c.sub with
    | 0 => l ++ [c.p]
    | 1 => l.map (fun f => if f.feed = c.p.feed then c.p else f)
    | _ => l.filter (fun f => decide (f.feed ≠ c.p.feed)))
    ((s.feedsOf n).filterMap (fun e => if e.1 < 256 ∧ e.2.p.h ≠ 0 then some e.2.p else none))

/-- A feed number is in use on a canvas, or will be. -/
def State.feedUsed (s : State) (f : Nat) : Bool :=
  ((s.feed f).stream.isSome && decide ((s.feed f).p.h ≠ 0)) || s.streams.any (fun e => e.2.changes.any (fun c => decide (c.sub = 0) && decide (c.p.feed = f)))

/-- Check 6: the feeds of an open. -/
def State.feedCheck (s : State) (p : Params) : Bool :=
  decide (p.typ ≠ 3) || (p.feedsOk p.feeds && p.feeds.all (fun f => !s.feedUsed f.feed))

/-- Bytes of one band of input (R89). -/
def Params.bandBytes (p : Params) : Nat := 64 * (ceilDiv (p.w * p.spp2 * (if p.bits10 then 10 else 8)) 1024 * 64)

/-- The crates of a stream (R90). -/
def Params.crates (p : Params) : Nat :=
  if p.typ = 0 ∨ p.typ = 3 then ceilDiv ((if p.frame then p.nh else p.nb) * p.bandBytes) 65536 else 0

/-- The input loft of a stream in bytes (R89). -/
def Params.loft (p : Params) : Nat :=
  if (p.typ = 0 ∨ p.typ = 3) ∧ p.frame then (p.delay + 2) * p.nRows * p.bandBytes else 0

/-- STAGE of a decode stream in bytes (R220), from the window W_IN. -/
def State.stageOf (s : State) (p : Params) : Nat :=
  if p.typ ≠ 1 then 0 else
  let den := s.pden p.gen * p.nRows
  let win := if p.frame then (p.delay * p.nRows + 2) * s.pnum p.gen else (p.delay + 2) * s.pnum p.gen
  max 262144 (ceilDiv (ceilDiv (p.inBrMax * win) (8 * 10 ^ 6 * den)) 65536 * 65536)

/-- The second STAGE, for decoded syntax (R220, R226). DEDUCED (log 39) from R653: at open no parameter set has come, so every stream that could be decoded
Bow-ahead reserves it. -/
def State.stage2 (s : State) (p : Params) : Nat := if p.typ = 1 ∧ p.binMax ≤ 1600 then s.stageOf p else 0

/-- Check 7: the Attic. -/
def State.atticOk (s : State) (p : Params) : Bool :=
  decide (s.streams.foldl (fun k e => k + e.2.crates) 0 + p.crates ≤ 2560) &&
  decide (s.streams.foldl (fun k e => k + e.2.dec.stage + e.2.dec.synStage) 0 + s.stageOf p + s.stage2 p ≤ 24 * 2 ^ 20)

/-- Every present stack carries traffic (R597). -/
def State.trafficOn (s : State) : Bool :=
  s.flag (R.CEL_CTL_TRAFFIC_EN 0) && (decide (s.part = .ha) || s.flag (R.CEL_CTL_TRAFFIC_EN 1))

/-- The slots of a stream's shelf (R200). -/
def State.shelfSize (s : State) (p : Params) : Nat :=
  if p.shelfN = 0 then p.nMin (s.pnum p.gen) (s.pden p.gen) else p.shelfN

/-- The free stretches of the Cellar in which a loft leaves room for `k` slots of `units` (R89, R200). -/
def State.loftGaps (s : State) (loft k units : Nat) : List (Nat × Nat) :=
  s.cellarGaps.filter (fun g => decide (loft ≤ g.2 ∧ k + g.2 / units ≤ s.cellarFits units + (g.2 - loft) / units))

/-- Check 9: the Rack. -/
def State.rackOk (s : State) (p : Params) : Bool :=
  let k := s.shelfSize p
  decide (p.typ = 2) || (decide (p.nMin (s.pnum p.gen) (s.pden p.gen) ≤ k) && decide (k ≤ s.unassignedCount) &&
    (if p.loft = 0 then decide (k ≤ s.cellarFits p.slotUnits) else !(s.loftGaps (ceilDiv p.loft 65536) k p.slotUnits).isEmpty))

/-- The Crew set that firmware chooses. -/
def homesSet (p : Params) (h : Homes) : CrewSet :=
  { home := h.home.val, sh0 := h.shadow0.val, sh1 := h.shadow1.val,
    sub := if p.typ = 3 then (List.range p.regs.length).map (fun i => ((h.sub[i]?).map Fin.val).getD 0) else [] }

/-- Check 10: admission, with the homes that firmware chooses; where the open began with ADMIT at the expert level it is skipped (R24, R338). -/
def State.admitOk (s : State) (n : Nat) (p : Params) (h : Homes) (expert : Bool) : Bool :=
  let e := homesSet p h
  let c : Cand := { n := n, p := p, set := e, cap := false }
  let others := s.cands (some n)
  decide (p.typ = 2) || expert ||
  ((e.crews p.typ).all (fun c => s.crewPresent c) && s.admissible (c :: others) && s.admitA7 others c)

/-- Checks 2 to 10 of an open, in order: the status of the first that fails. `expert` is the level of ADMIT at which it began. -/
def State.openCheck (s : State) (n : Nat) (p : Params) (h : Homes) (expert : Bool) : Option Nat :=
  let canv := ((List.range 128).filter (fun i => decide (i ≠ n ∧ s.get (R.STRMn_STATE_STATE i) ≠ 0 ∧ (s.strm i).p.typ = 3))).length
  if p.typ = 3 ∧ 8 ≤ canv then some St.canvasLimit else
  if ¬ s.flag (R.STRKg_CTL_EN p.gen) then some St.strokeOff else
  if p.typ ≠ 2 ∧ ¬ p.formatOk then some St.formatUnsupported else
  if p.typ ≠ 2 ∧ ¬ s.geometryOk n p then some St.geometry else
  if ¬ s.feedCheck p then some St.feedConflict else
  if ¬ s.atticOk p then some St.atticFull else
  if ¬ s.trafficOn ∨ (0 < p.loft ∧ s.cellarFits (ceilDiv p.loft 65536) = 0) then some St.cellarFull else
  if ¬ s.rackOk p then some St.rackFull else
  if ¬ s.admitOk n p h expert then some St.noSeats else none

/-! ## ADMISSION_RERUN (R155, R160, R161) -/

/-- The homes and shadows of a stream are written (R164, R165). -/
def State.writeHomes (s : State) (n : Nat) (h : Homes) : State :=
  let p := (s.strm n).p
  let s := ((s.set (R.STRMn_SCHED_HOME n) h.home.val).set (R.STRMn_SCHED_SHADOW0 n) h.shadow0.val).set (R.STRMn_SCHED_SHADOW1 n) h.shadow1.val
  if p.typ ≠ 3 then s else
  let v := s.get (R.STRMn_STATE_CANVAS n)
  (List.range p.regs.length).foldl (fun s i =>
    s.set ⟨A.CNVv_HOMEw v (i / 16), 2 * (i % 16), 2⟩ (((h.sub[i]?).map Fin.val).getD 0)) s

/-- The next stream to demote: the lowest priority, and of equals the highest number, among those not capped at E3. -/
def State.nextDemote (s : State) : Option Nat :=
  let l := (s.cands none).filter (fun c => !c.cap)
  (l.foldl (fun (b : Option (Nat × Nat)) c =>
    let pr := s.get (R.STRMn_SCHED_PRIO c.n)
    match b with
    | some x => if x.1 < pr then some x else some (pr, c.n)
    | none => some (pr, c.n)) none).map (fun x => x.2)

/-- The next cap to lift: the reverse order. -/
def State.lifts (s : State) : List Nat :=
  let l := (s.cands none).filter (fun c => c.cap)
  l.foldl (fun (b : List Nat) c =>
    insertBy (fun x y => decide (s.get (R.STRMn_SCHED_PRIO y) < s.get (R.STRMn_SCHED_PRIO x)) ||
      (decide (s.get (R.STRMn_SCHED_PRIO y) = s.get (R.STRMn_SCHED_PRIO x)) && decide (x < y))) c.n b) []

/-- A stream's CAP is set, also in the record that is staged for its next picture, at whose Stroke it takes effect (R160). -/
def State.capSet (s : State) (n v : Nat) : State :=
  let s := s.set (R.STRMn_SCHED_CAP n) v
  let t := s.strm n
  if t.staged = none then s else
  let r := { t.nextRec with cap := v }
  (s.setStrm n { t with nextRec := r }).recordPut n t.crews r

/-- Streams are capped one at a time until the set passes. -/
def State.demote : Nat → State → State
  | 0, s => s
  | k + 1, s =>
    if s.admissible (s.cands none) then s else
    match s.nextDemote with
    | none => s
    | some n => State.demote k ((s.capSet n 3).streamEvent n .demoted (s.strm n).nextPic)

/-- Caps are lifted one at a time for as long as the set still passes. -/
def State.liftCaps (l : List Nat) (s : State) : State :=
  match l with
  | [] => s
  | n :: r =>
    let s' := s.capSet n 0
    if s'.admissible (s'.cands none) then State.liftCaps r s' else s

/-- ADMISSION_RERUN: at the basic level of ADMIT, firmware writes the homes that it chooses; after a close it lifts caps while the set passes
(R161), and where the set fails it demotes streams until it passes. -/
def execAdmissionRerun (homes : List (Fin 128 × Homes)) (s : State) : Host.Outcome State Fault Refusal :=
  .next (if s.expert 4 then s else
    let s := homes.foldl (fun s e =>
      let t := s.strm e.1
      if s.get (R.STRMn_STATE_STATE e.1) = 0 ∨ t.p.typ = 2 ∨ ¬ ((homesSet t.p e.2).crews t.p.typ).all (fun c => s.crewPresent c) = true then s
      else (s.writeHomes e.1 e.2).updStrm e.1 (fun t => { t with setAt := some s.cyc })) s
    let s' : State := { s with lifted := false }
    if ¬ s.admissible (s.cands none) then State.demote 128 s' else if s.lifted then State.liftCaps s.lifts s' else s')

end Sys2Proof.Machine
end

