-- ==== Sys2Proof/Machine/Crypto.lean ====
section
/-!
DEFINITION. The cryptography that the part checks and makes: SHA-256 and SHA-384 (FIPS 180-4), HMAC (RFC 2104) and the verification of ECDSA over P-384
(FIPS 186-5), as R289 and R298 name them.
-/
namespace Sys2Proof.Machine

/-! ## SHA-2 -/

/-- A hash of the SHA-2 family: its word's width, its rounds, the rotations of its four functions, the last of the small ones a shift, and what it starts from. -/
structure Sha where
  w     : Nat
  n     : Nat
  big0  : Nat × Nat × Nat
  big1  : Nat × Nat × Nat
  sml0  : Nat × Nat × Nat
  sml1  : Nat × Nat × Nat
  start : List Nat

/-- The round constants with 64 bits; SHA-256 takes the upper half of the first 64. -/
def shaK : List Nat :=
  [0x428A2F98D728AE22, 0x7137449123EF65CD, 0xB5C0FBCFEC4D3B2F, 0xE9B5DBA58189DBBC, 0x3956C25BF348B538,
   0x59F111F1B605D019, 0x923F82A4AF194F9B, 0xAB1C5ED5DA6D8118, 0xD807AA98A3030242, 0x12835B0145706FBE,
   0x243185BE4EE4B28C, 0x550C7DC3D5FFB4E2, 0x72BE5D74F27B896F, 0x80DEB1FE3B1696B1, 0x9BDC06A725C71235,
   0xC19BF174CF692694, 0xE49B69C19EF14AD2, 0xEFBE4786384F25E3, 0x0FC19DC68B8CD5B5, 0x240CA1CC77AC9C65,
   0x2DE92C6F592B0275, 0x4A7484AA6EA6E483, 0x5CB0A9DCBD41FBD4, 0x76F988DA831153B5, 0x983E5152EE66DFAB,
   0xA831C66D2DB43210, 0xB00327C898FB213F, 0xBF597FC7BEEF0EE4, 0xC6E00BF33DA88FC2, 0xD5A79147930AA725,
   0x06CA6351E003826F, 0x142929670A0E6E70, 0x27B70A8546D22FFC, 0x2E1B21385C26C926, 0x4D2C6DFC5AC42AED,
   0x53380D139D95B3DF, 0x650A73548BAF63DE, 0x766A0ABB3C77B2A8, 0x81C2C92E47EDAEE6, 0x92722C851482353B] ++
  [0xA2BFE8A14CF10364, 0xA81A664BBC423001, 0xC24B8B70D0F89791, 0xC76C51A30654BE30, 0xD192E819D6EF5218,
   0xD69906245565A910, 0xF40E35855771202A, 0x106AA07032BBD1B8, 0x19A4C116B8D2D0C8, 0x1E376C085141AB53,
   0x2748774CDF8EEB99, 0x34B0BCB5E19B48A8, 0x391C0CB3C5C95A63, 0x4ED8AA4AE3418ACB, 0x5B9CCA4F7763E373,
   0x682E6FF3D6B2B8A3, 0x748F82EE5DEFB2FC, 0x78A5636F43172F60, 0x84C87814A1F0AB72, 0x8CC702081A6439EC,
   0x90BEFFFA23631E28, 0xA4506CEBDE82BDE9, 0xBEF9A3F7B2C67915, 0xC67178F2E372532B, 0xCA273ECEEA26619C,
   0xD186B8C721C0C207, 0xEADA7DD6CDE0EB1E, 0xF57D4F7FEE6ED178, 0x06F067AA72176FBA, 0x0A637DC5A2C898A6,
   0x113F9804BEF90DAE, 0x1B710B35131C471B, 0x28DB77F523047D84, 0x32CAAB7B40C72493, 0x3C9EBE0A15C9BEBC,
   0x431D67C49C100D4C, 0x4CC5D4BECB3E42B6, 0x597F299CFC657E2A, 0x5FCB6FAB3AD6FAEC, 0x6C44198C4A475817]

def sha256 : Sha :=
  { w := 32, n := 64, big0 := (2, 13, 22), big1 := (6, 11, 25), sml0 := (7, 18, 3), sml1 := (17, 19, 10),
    start := [0x6A09E667, 0xBB67AE85, 0x3C6EF372, 0xA54FF53A, 0x510E527F, 0x9B05688C, 0x1F83D9AB, 0x5BE0CD19] }

def sha384 : Sha :=
  { w := 64, n := 80, big0 := (28, 34, 39), big1 := (14, 18, 41), sml0 := (1, 8, 7), sml1 := (19, 61, 6),
    start := [0xCBBB9D5DC1059ED8, 0x629A292A367CD507, 0x9159015A3070DD17, 0x152FECD8F70E5939,
      0x67332667FFC00B31, 0x8EB44A8768581511, 0xDB0C2E0D64F98FA7, 0x47B5481DBEFA4FA4] }

/-- A word rotated right. -/
def Sha.rot (h : Sha) (n x : Nat) : Nat := (x / 2 ^ n + x * 2 ^ (h.w - n)) % 2 ^ h.w

def Sha.big (h : Sha) (r : Nat × Nat × Nat) (x : Nat) : Nat := Nat.xor (Nat.xor (h.rot r.1 x) (h.rot r.2.1 x)) (h.rot r.2.2 x)

def Sha.sml (h : Sha) (r : Nat × Nat × Nat) (x : Nat) : Nat := Nat.xor (Nat.xor (h.rot r.1 x) (h.rot r.2.1 x)) (x / 2 ^ r.2.2)

/-- The words of the schedule of a block, the last first. -/
def Sha.sched (h : Sha) (m : List Nat) : List Nat :=
  (List.range (h.n - 16)).foldl (fun l _ =>
    let at_ := fun (i : Nat) => (l[i]?).getD 0
    ((h.sml h.sml1 (at_ 1) + at_ 6 + h.sml h.sml0 (at_ 14) + at_ 15) % 2 ^ h.w) :: l) m.reverse

/-- One round, with the schedule's word and the round's constant. -/
def Sha.round (h : Sha) (v : List Nat) (wk : Nat × Nat) : List Nat :=
  match v with
  | [a, b, c, d, e, f, g, z] =>
    let ch := Nat.xor (Nat.land e f) (Nat.land (2 ^ h.w - 1 - e) g)
    let maj := Nat.xor (Nat.xor (Nat.land a b) (Nat.land a c)) (Nat.land b c)
    let t := z + h.big h.big1 e + ch + wk.1 + wk.2
    [(t + h.big h.big0 a + maj) % 2 ^ h.w, a, b, c, (d + t) % 2 ^ h.w, e, f, g]
  | v => v

/-- A block of sixteen words. -/
def Sha.block (h : Sha) (v m : List Nat) : List Nat :=
  let k := shaK.map (fun x => x / 2 ^ (64 - h.w))
  List.zipWith (fun x y => (x + y) % 2 ^ h.w) v (((h.sched m).reverse.zip k).foldl h.round v)

/-- A message with its padding and its length. -/
def Sha.padded (h : Sha) (b : List Byte) : List Byte :=
  let k := 2 * h.w
  b ++ [0x80] ++ List.replicate ((k - (b.length + 1 + k / 8) % k) % k) 0 ++ beBytes (k / 8) (8 * b.length)

/-- The digest's words. -/
def Sha.words (h : Sha) (b : List Byte) : List Nat :=
  let p := h.padded b
  let k := h.w / 8
  (List.range (p.length / (16 * k))).foldl (fun v i =>
    h.block v ((List.range 16).map (fun j => beNat ((p.drop (16 * k * i + k * j)).take k)))) h.start

/-- SHA-256. -/
def digest256 (b : List Byte) : List Byte := (sha256.words b).flatMap (beBytes 4)

/-- SHA-384. -/
def digest384 (b : List Byte) : List Byte := ((sha384.words b).take 6).flatMap (beBytes 8)

/-- HMAC-SHA-256 under a key of up to 64 bytes. -/
def hmac256 (key b : List Byte) : List Byte :=
  let k := key ++ List.replicate (64 - key.length) 0
  digest256 (k.map (fun x => x ^^^ 0x5C) ++ digest256 (k.map (fun x => x ^^^ 0x36) ++ b))

/-! ## ECDSA over P-384 -/

def p384P : Nat := 2 ^ 384 - 2 ^ 128 - 2 ^ 96 + 2 ^ 32 - 1
def p384B : Nat := 0xb3312fa7e23ee7e4988e056be3f82d19181d9c6efe8141120314088f5013875ac656398d8a2ed19d2a85c8edd3ec2aef
def p384N : Nat := 0xffffffffffffffffffffffffffffffffffffffffffffffffc7634d81f4372ddf581a0db248b0a77aecec196accc52973
def p384G : Nat × Nat :=
  (0xaa87ca22be8b05378eb1c71ef320ad746e1d3b628ba79b9859f741e082542a385502f25dbf55296c3a545e3872760ab7,
   0x3617de4a96262c6f5d9e98bf9292dc29f8f41dbd289a147ce9da3113b5f0b8c00a60b1ce1d7e819d7a431d7c90ea0e5f)

/-- `x` to the power of the number that bits spell, the least significant first. -/
def powMod (m : Nat) : List Bool → Nat → Nat
  | [], _ => 1
  | b :: l, x => (if b then x else 1) * powMod m l (x * x % m) % m

/-- The lowest 384 bits of a number, the least significant first. -/
def bits384 (n : Nat) : List Bool := (List.range 384).map (fun i => n / 2 ^ i % 2 == 1)

/-- The inverse modulo a prime. -/
def invMod (m x : Nat) : Nat := powMod m (bits384 (m - 2)) (x % m)

/-- The sum of two points of the curve; none is the point at infinity. -/
def p384Add (a b : Option (Nat × Nat)) : Option (Nat × Nat) :=
  match a, b with
  | none, q => q
  | q, none => q
  | some u, some v =>
    let m := p384P
    if u.1 = v.1 ∧ (u.2 + v.2) % m = 0 then none else
    let l := if u.1 = v.1 then (3 * u.1 * u.1 + (m - 3)) * invMod m (2 * u.2) % m
             else (v.2 + m - u.2) * invMod m (v.1 + m - u.1) % m
    let x := (l * l + (m - u.1) + (m - v.1)) % m
    some (x, (l * (u.1 + m - x) + (m - u.2)) % m)

/-- A point taken as many times as bits say. -/
def p384Mul : List Bool → Option (Nat × Nat) → Option (Nat × Nat)
  | [], _ => none
  | b :: l, q => p384Add (if b then q else none) (p384Mul l (p384Add q q))

/-- A point lies on the curve. -/
def p384On (q : Nat × Nat) : Bool :=
  decide (q.1 < p384P) && decide (q.2 < p384P) && decide (q.2 * q.2 % p384P = (q.1 * q.1 * q.1 + (p384P - 3) * q.1 + p384B) % p384P)

/-- The signature (r, s) of a digest verifies under a public key. -/
def ecdsaOk (key : Nat × Nat) (r s e : Nat) : Bool :=
  let m := p384N
  let w := invMod m s
  p384On key && decide (0 < r ∧ r < m ∧ 0 < s ∧ s < m) &&
  (match p384Add (p384Mul (bits384 (e * w % m)) (some p384G)) (p384Mul (bits384 (r * w % m)) (some key)) with
   | none => false
   | some x => decide (x.1 % m = r))

/-! ## What R289 and R298 make of them -/

/-- The tag of a Clexia frame (R289): the first 16 bytes of HMAC-SHA-256 under the management key. PRESUMED (log 131): a key of eFuse has its most
significant byte first, as have the numbers of a key and a signature, and a tag's first byte is its most significant. -/
def clexiaTag (covered : List Byte) : BitVec 128 :=
  BitVec.ofNat 128 (beNat ((hmac256 (beBytes 32 Config.mgmtKey.toNat) covered).take 16))

/-- An image is genuine (R298): the hash of the public key in its last 192 bytes is that in eFuse, and the signature there verifies over its
other bytes and the key. -/
def imageGood (b : List Byte) : Bool :=
  let key := (b.drop (b.length - 192)).take 96
  let sig := b.drop (b.length - 96)
  decide (192 ≤ b.length) && decide (beNat (digest384 key) = Config.keyHash.toNat) &&
  ecdsaOk (beNat (key.take 48), beNat (key.drop 48)) (beNat (sig.take 48)) (beNat (sig.drop 48)) (beNat (digest384 (b.take (b.length - 96))))

end Sys2Proof.Machine
end

