-- ==== Sys2Proof/Machine/Stream.lean ====
section
/-!
DEFINITION. Streams opened and closed (R84-R88, R334-R339) and the commands on an open stream (R340-R344).
-/
namespace Sys2Proof.Machine

/-! ## Opening -/

/-- The registers of a stream at an accepted open: its parameters as Cox firmware writes them, and cleared counters (R91, R128, R164,
R195, R196, R247). At the expert level of ADMIT the schedule, and at that of RC_MODEL the model, are the host's (R23); `x` says whether each was so when the
open began. DESIGN CHOICE (log 40): a canvas takes the lowest of the numbers 0 to 7 that no other has. -/
def State.openRegs (s : State) (n : Nat) (p : Params) (h : Homes) (x : Bool × Bool) : State :=
  let basic := !x.1
  let canv := ((List.range 8).find? (fun v => (List.range 128).all (fun i =>
    !decide (i ≠ n ∧ s.get (R.STRMn_STATE_STATE i) ≠ 0 ∧ (s.strm i).p.typ = 3 ∧ s.get (R.STRMn_STATE_CANVAS i) = v)))).getD 0
  let s := ((s.set (R.STRMn_STATE_TYPE n) p.typ).set (R.STRMn_STATE_GEN n) p.gen).set (R.STRMn_STATE_CANVAS n) (if p.typ = 3 then canv else 0)
  let s := s.set (R.STRKg_CTL_BOUND p.gen) (s.get (R.STRKg_CTL_BOUND p.gen) + 1)
  let s := [A.STRMn_REFRESH n, A.STRMn_KEYS n, A.STRMn_LATE n, A.STRMn_DCTL n, A.STRMn_DSTAT n, A.STRMn_DCONC n, A.STRMn_DSEGS n,
    A.STRMn_DSUBS n, A.STRMn_DNOAU n, A.STRMn_DLATE n, A.STRMn_DDROP n].foldl (fun s a => s.setReg a 0) s
  let s := if basic then (s.set (R.STRMn_SCHED_PRIO n) p.prio).set (R.STRMn_SCHED_CAP n) 0 else s
  let s := if basic ∧ p.typ ≠ 2 then s.writeHomes n h else s
  if p.typ = 2 then s
  else if p.typ = 1 then
    ((s.set (R.STRMn_DCTL_REF_ROWS n) p.refRows).set (R.STRMn_DCTL_PLI_EN n) (b2n p.pliEn)).set (R.STRMn_DSTAT_NO_SRC n) 1
  else
    let s := (s.set (R.RRCn_CTL_FLOOR_EVT n) (b2n p.floorEvt)).set (R.RRCn_RATE_KBPS n) p.br
    let s := (s.set (R.RRCn_RMAX_KBPS n) p.brMax).set (R.RRCn_BUF_US n) p.bufUs
    let s := ((s.set (R.RRCn_QP_QP_MIN n) p.qpMin).set (R.RRCn_QP_QP_MAX n) p.qpMax).set (R.RRCn_QP_QP_INIT n) p.qpInit
    let s := ((s.set (R.RRCn_KEY_BORROW n) p.borrow).set (R.RRCn_KEY_REPAY n) p.repay).set (R.RRCn_MARGIN_BITS n) p.margin
    let s := ((s.set (R.RRCn_SLICE_BITS n) p.cSlice).set (R.RRCn_OVHMAX_BITS n) p.ovhMax).set (R.RRCn_OVHMIN_BITS n) p.ovhMin
    let s := if x.2 then s else
      [A.RRCn_ALPHA_P n, A.RRCn_ALPHA_I n, A.RRCn_MODEL n].foldl (fun s a => s.setReg a (regReset a)) s
    [A.RRCn_OCC n, A.RRCn_DEBT n, A.RRCn_LOAN n, A.RRCn_FREE n, A.RRCn_STAT n, A.RRCn_FLOORS n, A.RRCn_NOLOAN n, A.RRCn_SEIDEFER n].foldl
      (fun s a => s.setReg a 0) s

/-- Subpictures are numbered in raster order of their top-left CTUs (R73). -/
def sortRegs (l : List Region) : List Region :=
  l.foldl (fun b r => insertBy (fun x y => decide (x.y < y.y) || (decide (x.y = y.y) && decide (x.x < y.x))) r b) []

/-- The Bow of a decode stream that is or may be decoded Bow-ahead: of the nine of its home Crew, one that the stream's BIN_MAX still fits (R226, R227); which is
firmware's choice, a free value. It keeps the one it has. DESIGN CHOICE (log 39): where none has room, any of the nine. -/
def State.bowChoose (s : State) (n : Nat) : State :=
  let t := s.strm n
  let all := (List.range 9).map (fun b => 9 * t.eff.home + b)
  if all.any (fun f => t.dec.bow == some f) then s else
  let fit := all.filter (fun f => decide (s.bowLoad (s.cands (some n)) f + t.p.binMax ≤ 1600))
  let l := if fit = [] then all else fit
  let (b, s) := s.draw 8
  s.updStrm n (fun t => { t with dec := { t.dec with bow := l[b % max 1 l.length]? } })

/-- An accepted open takes its strips, loft and shelf, its feeds, and its registers (R85, R90, R197, R200); the loft stands where it leaves
room for the shelf. -/
def State.openTake (s : State) (n : Nat) (p : Params) (h : Homes) (x : Bool × Bool) : State :=
  let old := s
  let k := s.shelfSize p
  let l := s.loftGaps (ceilDiv p.loft 65536) k p.slotUnits
  let (b, s) := if p.loft = 0 then (0, s) else s.draw 21
  let s := s.setStrm n { p := p, crates := p.crates, loft := p.loft, loftAt := ((l[b % max 1 l.length]?).getD (0, 0)).1, nref := p.nref,
                         level := s.signalLevel p, dec := { stage := s.stageOf p, synStage := s.stage2 p } }
  let s := s.openRegs n p h x
  let s := s.updStrm n (fun t => { t with eff := s.regSet n })
  let s := if p.typ = 1 ∧ p.binMax ≤ 1600 then s.bowChoose n else s
  let s := if p.typ = 2 then s else s.makeShelf n k p.slotUnits (p.nMin (s.pnum p.gen) (s.pden p.gen))
  let s := if p.typ = 3 then p.feeds.foldl (fun s f => s.feedAdd n 0 f) s
    else if p.typ = 0 then
      s.setFeed (256 + n) { stream := some n, p := { feed := 0, fill := true, bits10 := p.bits10, w := p.w, h := p.h, flow := p.inFlow } }
    else s
  s.igmpSync old

/-- What a STREAM_OPEN reads from its parameter block: the parameters, or the status of the first check that fails (R334-R336). -/
def State.openBlock (s : State) (d : Desc) (blk : HostRead) : Except Nat Params :=
  let len := dget d 24 0 16
  let at_ := dget d 16 0 64
  match (if at_ % 64 = 0 ∧ (s.reachQp at_ len).isSome = true then blk else none) with
  | none => .error St.paramRead
  | some bs =>
    let x := leNat (bs.take len)
    if bs.length < len then .error St.paramRead else
    if len < 256 ∨ len ≠ blockLen x then .error St.geometry else
    if ¬ headerClean x ∨ ¬ entriesClean x then .error St.rsvdNonzero else
    if ¬ s.portsThere (blockPorts x) then .error St.noUnit else
    let g := pget x 3 4 2
    let p := blockParams x (s.pnum g) (s.pden g)
    .ok (if p.typ = 3 then { p with regs := sortRegs p.regs } else p)

/-- A STREAM_OPEN with parameters `p`, by the state of the stream (R85, R87, R88). One that is latched keeps the levels at which it began (R24, R319). -/
def State.openStream (s : State) (o : Owed) (n : Nat) (p : Params) (homes : Homes) : State :=
  let x := (s.expert 4, s.expert 5)
  let st := s.get (R.STRMn_STATE_STATE n)
  if st = 2 ∨ (st = 1 ∧ s.get (R.STRMn_STATE_PEND n) ≠ 2) then s.complete o St.busy else
  if st = 0 then
    match s.openCheck n p homes x.1 with
    | some e => s.complete o e
    | none => (s.requestCmd o 1 n true).openTake n p homes x
  else if st = 3 then
    (s.requestCmd o 1 n true).updStrm n (fun t => { t with latched := some p, homesNew := some homes, began := x })
  else s.requestCmd o 1 n true

/-- STREAM_OPEN (R84, R85, R87, R88, R334). -/
def execStreamOpen (c : Cmd) (blk : HostRead) (homes : Homes) (s : State) : Host.Outcome State Fault Refusal :=
  let d := c.desc
  .next (s.begin c 0x01 true (dSub d = 0 ∧ dClean d [(16, 0, 64), (24, 0, 16)]) [1] none (fun s o =>
    match s.openBlock d blk with
    | .error e => s.complete o e
    | .ok p => s.openStream o (dIdx d) p homes))

/-- ALLOCATION_END (R85, R137): the frame context stands in the Larders, with the record of the start-up picture (R117), and the wait
for k_open begins. -/
def execAllocationEnd (n : Fin 128) (s : State) : Host.Outcome State Fault Refusal :=
  let t := s.strm n
  .next (if s.get (R.STRMn_STATE_STATE n) ≠ 1 ∨ t.allocEnd.isSome then s else
    let s := t.crews.foldl (fun s c => if s.crewPresent c then s.ldrLoad c n else s) s
    let s := s.updStrm n (fun t => { t with allocEnd := some s.now })
    if t.p.typ = 2 then s else
    let r0 : Record := if t.p.typ = 1 then {} else { startup := true, irap := true }
    let r := { s.recordFill n 0 r0 with stroke := (s.openStroke n).getD 0 }
    (s.updStrm n (fun t => { t with staged := some 0, nextRec := r })).recordPut n t.crews r)

/-! ## Closing -/

/-- The picture whose Stroke period contains this cycle (R55, R86). -/
def State.pictureNow (s : State) (n : Nat) : Nat :=
  let t := s.strm n
  let g := t.p.gen
  if s.flag (R.STRKg_CTL_EN g) ∧ s.reached (s.strokeAt g (s.gen g).next) = true then t.nextPic else t.nextPic - 1

/-- STREAM_CLOSE (R86, R87, R339). -/
def execStreamClose (c : Cmd) (s : State) : Host.Outcome State Fault Refusal :=
  let n := dIdx c.desc
  .next (s.begin c 0x02 true (dSub c.desc = 0 ∧ dClean c.desc []) [1] none (fun s o =>
    let st := s.get (R.STRMn_STATE_STATE n)
    if st = 0 then s.complete o St.busy else
    let last := s.pictureNow n
    let s := s.requestCmd o 1 n false last
    if st = 2 then s.updStrm n (fun t => { t with lastPic := some last })
    else if st = 3 then s.updStrm n (fun t => { t with latched := none, homesNew := none })
    else s))

/-- A subscriber is OFF: its registers of the SPX read zero (R458). -/
def State.subClear (s : State) (i : Nat) : State :=
  let s : State := { s.setSub i none with rtpSeq := s.rtpSeq.filter (fun e => decide (e.1 ≠ 2 ^ 16 + i)) }
  [A.SPX_SUBs_CFG i, A.SPX_SUBs_DONDIFF i, A.SPX_SUBs_HRDOVER i, A.SPX_SUBs_DROP i].foldl (fun s a => s.setReg a 0) s

/-- A subscriber whose canvas reaches OFF reaches OFF in the same cycle: an open that waits completes NOT_ON, a close OK (R346,
R347). -/
def State.subEnd (s : State) (i : Nat) : State :=
  let s := s.settle (.unitOn 2 i) St.notOn
  let s := (s.set (R.EGR_SUBs_STATE_STATE i) 0).set (R.EGR_SUBs_STATE_PEND i) 0
  ((s.settle (.unitOff 2 i) St.ok).settle (.latched 2 i) St.ok).subClear i

/-- Nothing of a STOPPING stream is left to code, output or send (R86). -/
def State.drained (s : State) (n : Nat) : Bool :=
  let t := s.strm n
  (decide (t.p.typ = 2) || (t.past t.nextPic && decide (t.pics = []) && decide (t.slices = []))) && !s.framesLeft n none

/-- STREAM_OFF (R86, R87, R211, R340, R341, R346): the stream's resources are freed, the commands that can no longer take effect complete
with NOT_ON, and a latched open is checked. DESIGN CHOICE (log 41): TYPE, GEN and CANVAS of STRMn_STATE keep what the last open wrote. -/
def execStreamOff (n : Fin 128) (s : State) : Host.Outcome State Fault Refusal :=
  let t := s.strm n
  .next (if s.get (R.STRMn_STATE_STATE n) ≠ 3 ∨ ¬ s.drained n then s else
    let old := s
    let s := (s.settle (.rate n) St.notOn)
    let s := t.changes.foldl (fun s c => s.settle (.feed n c.p.feed) St.notOn) s
    let s := (s.subsOf n).foldl (fun s e => s.subEnd e.1) s
    let s := (List.range 4).foldl (fun s c => s.ldrDrop c n) s
    let s := if t.p.typ = 2 then s else s.dropShelf n
    let s : State := { s with feeds := s.feeds.filter (fun e => e.2.stream != some n.val),
                              progs := s.progs.filter (fun g => g.stream != n.val), lifted := true,
                              rtpSeq := s.rtpSeq.filter (fun e => decide (e.1 / 128 ≠ n.val)) }
    let s := s.set (R.STRKg_CTL_BOUND t.p.gen) (s.get (R.STRKg_CTL_BOUND t.p.gen) - 1)
    let s := (s.setStrm n {}).igmpSync old
    let data := t.lastPic.getD 0
    match s.get (R.STRMn_STATE_PEND n), t.latched with
    | 1, some p =>
      let h : Homes := t.homesNew.getD { home := 0, shadow0 := 4, shadow1 := 4, sub := [] }
      -- the stream itself holds nothing any more while its latched open is checked
      let chk := (s.set (R.STRMn_STATE_STATE n) 0).openCheck n p h t.began.1
      let s := s.reachOff 1 n chk data
      if chk.isNone then s.openTake n p h t.began else s
    | _, _ => s.reachOff 1 n none data)

/-! ## FEED_SET (R340) -/

/-- A FEED_SET that is accepted waits for its Stroke. -/
def State.feedSet (s : State) (o : Owed) (sub : Nat) (f : FeedP) : State :=
  let n := o.idx
  let t := s.strm n
  let st := s.get (R.STRMn_STATE_STATE n)
  let l := s.feedsNext n
  let mine := l.any (fun x => x.feed == f.feed)
  let l' := match sub with
    | 0 => l ++ [f]
    | 1 => l.map (fun x => if x.feed = f.feed then f else x)
    | _ => l
  if st ≠ 0 ∧ t.p.typ ≠ 3 then s.complete o St.wrongType else
  if st = 0 ∨ st = 3 then s.complete o St.notOn else
  if (if sub = 0 then s.feedUsed f.feed else !mine) ∨ (sub ≠ 2 ∧ ¬ t.p.feedsOk l') then s.complete o St.feedConflict else
  (s.setStrm n { t with changes := t.changes ++ [{ sub := sub, p := f, at_ := s.cyc }] }).await o (.feed n f.feed)

/-- The feed entry of a FEED_SET: the 48 bytes of the body. -/
def feedBody (d : Desc) : Nat := d.toNat / 2 ^ 128

/-- The media ports that it names. -/
def feedPorts (d : Desc) : List Nat := (flowAt (feedBody d) 16).ports

/-- The fields that FEED_SET defines: the whole body. -/
def feedFields : List (Nat × Nat × Nat) := [(16, 0, 384)]

/-- FEED_SET, SUBOP 0 ADD. -/
def execFeedSetAdd (c : Cmd) (s : State) : Host.Outcome State Fault Refusal :=
  .next (s.begin c 0x03 (dSub c.desc ≠ 1 ∧ dSub c.desc ≠ 2)
    (dSub c.desc = 0 ∧ dClean c.desc feedFields true ∧ feedClean (feedBody c.desc) 0 = true) [1] none
    (fun s o => s.feedSet o 0 (feedAt (feedBody c.desc) 0)) (s.portsThere (feedPorts c.desc)))

/-- FEED_SET, SUBOP 1 CHANGE. -/
def execFeedSetChange (c : Cmd) (s : State) : Host.Outcome State Fault Refusal :=
  .next (s.begin c 0x03 (dSub c.desc = 1) (dClean c.desc feedFields true ∧ feedClean (feedBody c.desc) 0 = true) [1] none
    (fun s o => s.feedSet o 1 (feedAt (feedBody c.desc) 0)) (s.portsThere (feedPorts c.desc)))

/-- FEED_SET, SUBOP 2 REMOVE: only FEED is read. -/
def execFeedSetRemove (c : Cmd) (s : State) : Host.Outcome State Fault Refusal :=
  .next (s.begin c 0x03 (dSub c.desc = 2) (dClean c.desc feedFields true ∧ feedBare (feedBody c.desc) 0 = true) [1] none
    (fun s o => s.feedSet o 2 { feed := dget c.desc 16 0 8 }))

/-! ## RATE_SET, KEY_REQ, SEI_INSERT, PRIO_SET -/

/-- The type and state check of the commands on encode and canvas streams: a status, or none where both hold. -/
def State.codedOpen (s : State) (n : Nat) (on : Bool) : Option Nat :=
  let st := s.get (R.STRMn_STATE_STATE n)
  let typ := (s.strm n).p.typ
  if st ≠ 0 ∧ (typ = 1 ∨ typ = 2) then some St.wrongType else
  if st = 2 ∨ (on = false ∧ st = 1) then none else some St.notOn

/-- The change that a RATE_SET asks for: each value that its MASK names (R341). -/
def State.rateOf (s : State) (d : Desc) : RateP :=
  let r : Nat → Nat → Option Nat := fun b v => if natBit (dget d 16 0 4) b then some v else none
  { br := r 0 (dget d 20 0 32), qpMin := r 1 (dget d 17 0 8), qpMax := r 2 (dget d 18 0 8), margin := r 3 (dget d 24 0 32), at_ := s.cyc }

/-- The parameters after the rate changes accepted before, and `x` (R341). DESIGN CHOICE (log 42): R193 checks a change against R167, whose QP_INIT lies between QP_MIN and
QP_MAX; QP_INIT has been used up and no change names it, so it does not count. -/
def State.rateSum (s : State) (n : Nat) (x : RateP) : Params :=
  let t := s.strm n
  let now_ : Params := { t.p with
    br := s.get (R.RRCn_RATE_KBPS n), qpMin := s.get (R.RRCn_QP_QP_MIN n), qpMax := s.get (R.RRCn_QP_QP_MAX n),
    margin := s.get (R.RRCn_MARGIN_BITS n) }
  let p := (t.rates ++ [x]).foldl (fun (p : Params) y => { p with
    br := y.br.getD p.br, qpMin := y.qpMin.getD p.qpMin, qpMax := y.qpMax.getD p.qpMax, margin := y.margin.getD p.margin }) now_
  { p with qpInit := p.qpMin }

/-- RATE_SET (R193, R341): checked with the rate changes accepted before it. -/
def execRateSet (c : Cmd) (s : State) : Host.Outcome State Fault Refusal :=
  let d := c.desc
  let n := dIdx d
  .next (s.begin c 0x04 true
      (dSub d = 0 ∧ dClean d [(16, 0, 4), (17, 0, 8), (18, 0, 8), (20, 0, 32), (24, 0, 32)] ∧ dget d 16 0 4 ≠ 0) [1] none
    (fun s o =>
      match s.codedOpen n false with
      | some e => s.complete o e
      | none =>
        if ¬ s.rateOk n (s.rateSum n (s.rateOf d)) then s.complete o St.geometry
        else (s.updStrm n (fun t => { t with rates := t.rates ++ [s.rateOf d] })).await o (.rate n)))

/-- KEY_REQ (R122, R342). -/
def execKeyReq (c : Cmd) (s : State) : Host.Outcome State Fault Refusal :=
  let n := dIdx c.desc
  .next (s.begin c 0x05 true (dSub c.desc = 0 ∧ dClean c.desc []) [1] none (fun s o =>
    match s.codedOpen n true with
    | some e => s.complete o e
    | none =>
      if ¬ natBit (s.strm n).p.keySrc 0 then s.complete o St.keyDisabled else
      (s.keyRequest n).1.complete o St.ok (s.keyRequest n).2))

/-- The emulation prevention bytes of a NAL unit's payload: one before every byte of 0 to 3 that follows two zero bytes. -/
def emulation : Nat → List Byte → Nat
  | _, [] => 0
  | z, b :: r =>
    if 2 ≤ z ∧ b.toNat ≤ 3 then 1 + emulation (if b = 0 then 1 else 0) r
    else emulation (if b = 0 then z + 1 else 0) r

/-- The bits of the prefix SEI NAL unit around a payload: two header bytes, the payload, the trailing bits in one byte, and the emulation
prevention bytes (R173, R343). -/
def seiBits (pay : List Byte) : Nat := 8 * (3 + pay.length + emulation 0 (pay ++ [0x80]))

/-- SEI_INSERT (R343). DEDUCED (log 13): a LEN or COUNT outside its range is a reserved encoding (R15). -/
def execSeiInsert (c : Cmd) (pay : HostRead) (s : State) : Host.Outcome State Fault Refusal :=
  let d := c.desc
  let n := dIdx d
  let len := dget d 24 0 16
  let count := dget d 26 0 16
  let first := dget d 32 0 64
  .next (s.begin c 0x06 true (dSub d = 0 ∧ dClean d [(16, 0, 64), (24, 0, 16), (26, 0, 16), (32, 0, 64)] ∧ 2 ≤ len ∧ len ≤ 1024 ∧
      1 ≤ count) [1] none (fun s o =>
    match s.codedOpen n false with
    | some e => s.complete o e
    | none =>
      match (if (s.reachQp (dget d 16 0 64) len).isSome = true then pay else none) with
      | none => s.complete o St.paramRead
      | some bs =>
        if bs.length < len then s.complete o St.paramRead else
        let used := max first (s.effPic n)
        let last := first + count - 1
        let t := s.strm n
        if last < used then s.complete o St.picGone else
        if 4 ≤ (t.sei.filter (fun i => decide (t.nextPic ≤ i.last))).length then s.complete o St.busy else
        (s.setStrm n { t with sei := t.sei ++ [{ first := used, last := last, bits := seiBits (bs.take len), pay := bs.take len }] }).complete o St.ok used))

/-- PRIO_SET (R344). -/
def execPrioSet (c : Cmd) (s : State) : Host.Outcome State Fault Refusal :=
  let n := dIdx c.desc
  .next (s.begin c 0x07 true (dSub c.desc = 0 ∧ dClean c.desc [(16, 0, 4)]) [1] (some 4) (fun s o =>
    if s.get (R.STRMn_STATE_STATE n) = 0 then s.complete o St.notOn
    else (s.set (R.STRMn_SCHED_PRIO n) (dget c.desc 16 0 4)).complete o St.ok))

end Sys2Proof.Machine
end

