-- ==== Sys2Proof/Machine/DecodeStream.lean ====
section
/-!
DEFINITION. Input of a decode stream (R218-R238): access units and their headers, staging, the release of a job, its input cut, and
the Bow-ahead path.
-/
namespace Sys2Proof.Machine

/-- The decoding context of a stream changed by `f`. -/
def State.updDec (s : State) (n : Nat) (f : DecS → DecS) : State := s.updStrm n (fun t => { t with dec := f t.dec })

/-- What a decode context keeps of pictures long past is dropped. -/
def DecS.trim (d : DecS) (next : Nat) : DecS :=
  let new := fun (e : Nat × Nat × Nat) => decide (next ≤ e.1 + 64)
  { d with aus := d.aus.filter (fun a => decide (next ≤ a.pic + 64)), inputs := d.inputs.filter new, syn := d.syn.filter new,
           cut := d.cut.filter new, lost := d.lost.filter new, pkts := d.pkts.filter (fun k => decide (next ≤ k.pic + 64)),
           told := d.told.filter (fun e => decide (next ≤ e.1 + 64)), conc := d.conc.filter (fun e => decide (next ≤ e.1 + 64)) }

/-! ## Discards (R220, R221, R231) -/

/-- Something received is discarded, for picture `pic` of the stream. -/
def State.decDrop (s : State) (n pic : Nat) : State := (s.bump (R.STRMn_DDROP_COUNT n)).decReport n pic 0x27

/-- A packet of an access unit that matches no picture, or one that already has another: the access unit counts once. -/
def State.auDrop (s : State) (n ts : Nat) (pic : Option Nat) : State :=
  if ts ∈ (s.strm n).dec.dropTs then s else
  let s := s.updDec n (fun d => { d with dropTs := (ts :: d.dropTs).take 64 })
  match pic with
  | some m => s.decDrop n m
  | none => (s.bump (R.STRMn_DDROP_COUNT n)).send (0x400 + n) 0x27

/-! ## Headers (R219, R223, R226, R235-R237) -/

/-- A parameter-set error (R237): the decoding state is discarded, every reference mark with it, and every picture from this one on is concealed whole until the
next that can start decoding. -/
def State.psetError (s : State) (n pic : Nat) : State :=
  let s0 := s
  let s := (s.decReport n pic 0x84).updDec n (fun d => { d with started := false, psetErr := true, recAt := [] })
  let s := s.updStrm n (fun t => { t with pics := t.pics.map (fun (p : Pic) =>
    let p := { p with refDue := false, marks := [] }
    if pic ≤ p.n then { p with whole := true } else p) })
  let s := (s.shelf n).foldl (fun s i => (s.set (R.SLOTs_MARK_REF_SHORT i) 0).set (R.SLOTs_MARK_REF_LONG i) 0) s
  ((s.noteFreed s0 n).set (R.STRMn_DSTAT_STARTED n) 0).set (R.STRMn_DSTAT_PSET_ERR n) 1

/-- A picture's parameter sets break R219: they exceed a declared limit of R218, reorder pictures, or name a CTB size of 16. The chroma format and the
bit depth are those of every picture. -/
def Params.headBad (p : Params) (h : AuHead) : Bool :=
  decide (h.reorder ≠ 0) || decide (h.ctb.val = 3) || decide (p.vvc ≠ decide (4 ≤ h.profile)) || decide (p.profile < h.profile) ||
  decide (p.tier < h.tier) || decide (p.level < h.level) || decide (p.w < h.w) || decide (p.h < h.h) || decide (p.dpbMax < h.dpb) ||
  decide (p.chroma ≠ h.chroma) || decide (p.bits10 ≠ h.bits10)

/-- A picture with neither WPP nor more than one tile or subpicture is decoded Bow-ahead (R225, R226). -/
def headAhead (h : AuHead) : Bool := !h.wpp && decide (h.lay.length ≤ 1)

/-- Decoding starts, where it has not, at a picture that can start it. -/
def State.decStart (s : State) (n pic : Nat) (h : AuHead) : State :=
  let s := if h.start then
      (((s.updDec n (fun d => { d with started := true, psetErr := false })).set (R.STRMn_DSTAT_STARTED n) 1).set
        (R.STRMn_DSTAT_PSET_ERR n) 0)
    else s
  let s := if h.start ∧ ¬ h.irap then s.updDec n (fun d => { d with recAt := (pic, pic + h.recov) :: d.recAt.take 63 }) else s
  let on := (s.strm n).dec.started
  s.updPic n pic (fun p => { p with whole := !on, shown := h.shown, record := { p.record with irap := h.irap } })

/-- The layout that the parameter sets of picture `pic` give it and the pictures after it: the CTB size, the tiles or subpictures, and the path of R225 or
R226. A picture before keeps its own. -/
def State.decLayout (s : State) (n pic : Nat) (h : AuHead) : State :=
  let t := s.strm n
  let big := decide (h.ctb.val = 2)
  let small := decide (h.ctb.val = 0)
  let s := s.setStrm n { t with p := { t.p with lay := h.lay, big := big, small := small, wpp := h.wpp, dims := (h.w, h.h) } }
  let s : State := match s.slotOf n pic with
    | some i => { s with slotC := tabUpd {} s.slotC i (fun c => { c with w := h.w, h := h.h }) }
    | none => s
  let s := s.set (R.STRMn_DCTL_CTB n) h.ctb
  let s := if headAhead h then s.bowChoose n else s.updDec n (fun d => { d with bow := none })
  let s := s.set (R.STRMn_DCTL_BOW n) (((s.strm n).dec.bow).getD 0)
  let s := s.set (R.STRMn_DCTL_AHEAD n) (b2n (headAhead h))
  let k := (s.strm n).p.jobs.length
  let began := fun (m : Nat) => s.progs.any (fun g => g.stream == n && g.pic == m)
  s.updStrm n (fun t => { t with pics := t.pics.map (fun (p : Pic) =>
    if p.n < pic ∨ began p.n then p else { p with jobsLeft := k, lay := h.lay, big := big, small := small, wpp := h.wpp, dims := (h.w, h.h) }) })

/-- A missing reference of a picture: no slot of the shelf holds it marked as a reference (R235). -/
def State.refMissing (s : State) (n m : Nat) : Bool :=
  match s.slotOf n m with
  | none => true
  | some i => !s.flag (R.SLOTs_MARK_REF_SHORT i) && !s.flag (R.SLOTs_MARK_REF_LONG i)

/-- The references of a picture: those that are missing are substituted, counted and reported. The substitute of each is, at every read, the slot that then
carries CONCEAL_SRC, or a mid-grey picture without a slot where none does (R234, R235). -/
def State.decRefs (s : State) (n pic : Nat) (refs : List Nat) : State :=
  let miss := (refs.eraseDups).filter (fun m => s.refMissing n m)
  let grey := (s.concealSlot n).isNone
  let s := s.updPic n pic (fun p => { p with refs := (refs.eraseDups).filter (fun m => !decide (m ∈ miss)), miss := miss })
  if miss = [] then s else
  let s := s.updPic n pic (fun p => { p with subst := p.subst + miss.length, grey := p.grey || grey })
  (s.addSat (R.STRMn_DSUBS_COUNT n) miss.length).decReport n pic 0x82

/-- The header of a picture's first slice takes effect, once the picture has begun (R204, R219, R235-R237): its marks are set at once, those that it does
not carry are removed when the picture before has completed. A picture that waits for a slot takes its REF_SHORT with the slot. -/
def State.applyHead (s : State) (n pic : Nat) (h : AuHead) : State :=
  let s := s.updPic n pic (fun p => { p with headDone := true })
  if (s.strm n).p.headBad h then s.psetError n pic else
  let s := (s.decStart n pic h).decLayout n pic h
  if ¬ (s.strm n).dec.started then s else
  let s := s.decRefs n pic h.refs
  let s := match s.slotOf n pic with
    | some i => s.set (R.SLOTs_MARK_REF_SHORT i) 1
    | none => s.updPic n pic (fun p => { p with refDue := true })
  let s := s.setMarks n h.marks
  if pic = 0 ∨ (s.strm n).complete (pic - 1) then
    (s.dropMarks n pic h.marks).noteFreed s n
  else s.updPic n pic (fun p => { p with dropDue := true })

/-- The header that has come for a picture takes effect, where it has not. -/
def State.headNow (s : State) (n pic : Nat) : State :=
  match s.pic n pic with
  | none => s
  | some p =>
    if p.headDone then s else
    match (s.strm n).dec.aus.find? (fun a => a.pic == pic) with
    | none => s
    | some a => match a.head with
      | none => s
      | some h => s.applyHead n pic h

/-! ## Packets (R220, R221, R231) -/

/-- The number of a packet, counted on from the newest beyond 16 bits. -/
def DecS.number (d : DecS) (seq : Nat) : Nat :=
  match d.newest with
  | none => 2 ^ 16 + seq
  | some m => ((m : Int) + signed 16 (unsigned 16 ((seq : Int) - m))).toNat

/-- The number of the last packet of the NAL unit that a fragment begins or goes on with, where every fragment up to it has come. -/
def DecS.fragEnd (d : DecS) : Nat → Nat → Bool → Option Nat
  | 0, _, _ => none
  | k + 1, q, first =>
    match d.pkts.find? (fun e => e.seq == q && !e.lost) with
    | some e => match e.kind with
      | .frag f l => if f ≠ first then none else if l then some q else DecS.fragEnd d k (q + 1) false
      | _ => none
    | none => none

/-- The packets of a NAL unit that begins in packet `k`, first and last, where all have come; a PACI packet counts as lost (R419). -/
def DecS.span (d : DecS) (k : RxPkt) : Option (Nat × Nat) :=
  if k.lost then none else
  match k.kind with
  | .whole => some (k.seq, k.seq)
  | .frag true _ => (d.fragEnd d.pkts.length k.seq true).map (fun e => (k.seq, e))
  | _ => none

/-- The packets of the NAL units that hold data of a job, where `f` holds of the job's part. -/
def DecS.spans (d : DecS) (pic row reg : Nat) (f : JobIn → Bool) : List (Nat × Nat) :=
  (d.pkts.filter (fun k => k.pic == pic && k.nals.any (fun x => x.jobs.any (fun j => j.row == row && j.reg == reg && f j)))).filterMap d.span

/-- Every byte of a job has come (R229): the NAL units in which its data begins and ends, and every packet between them. DEDUCED (log 123): a job within one NAL unit
needs that one alone, in whatever order NAL units of other jobs come (R419). -/
def DecS.jobIn (d : DecS) (pic row reg : Nat) : Bool :=
  (d.spans pic row reg (fun j => j.begins && j.ends)) ≠ [] ||
  (d.spans pic row reg (fun j => j.begins)).any (fun a => (d.spans pic row reg (fun j => j.ends)).any (fun b =>
    decide (a.1 ≤ b.2) && (List.range (b.2 + 1 - a.1)).all (fun i => d.pkts.any (fun k => k.seq == a.1 + i && !k.lost && k.kind != .paci))))

/-- The jobs of an access unit whose input has become whole before their cut are committed. -/
def State.decCommit (s : State) (n pic : Nat) : State :=
  let t := s.strm n
  let new := (s.picP n pic).jobs.filter (fun j =>
    decide ((pic, j.1, j.2) ∉ t.dec.cut ∧ (pic, j.1, j.2) ∉ t.dec.inputs) && t.dec.jobIn pic j.1 j.2)
  s.updDec n (fun d => { d with inputs := new.map (fun j => (pic, j.1, j.2)) ++ d.inputs })

/-- Two packets received with numbers missing between them. -/
def DecS.gaps (d : DecS) : List (RxPkt × RxPkt) :=
  let l := d.pkts.foldl (fun l k => insertBy (fun (a b : RxPkt) => decide (a.seq < b.seq)) k l) []
  (l.zip (l.drop 1)).filter (fun e => decide (e.1.seq + 1 < e.2.seq))

/-- The place of a job in decoding order among those of a stream: its picture and its place in it. -/
def State.jobPlace (s : State) (n : Nat) (k : Nat × Nat × Nat) : Nat × Nat := (k.1, vclPlace (s.picP n k.1).jobs k.2.1 k.2.2)

/-- The missing numbers between two packets may hold data of a job: the job comes no earlier than the last that a packet before the gap holds data of, and no later
than the first of a packet after it. -/
def State.gapServes (s : State) (n : Nat) (g : RxPkt × RxPkt) (k : Nat × Nat × Nat) : Bool :=
  let d := (s.strm n).dec
  let jobs := fun (e : RxPkt) => (e.nals.flatMap (fun x => x.jobs)).map (fun j => (e.pic, j.row, j.reg))
  let le := fun (a b : Nat × Nat) => decide (a.1 < b.1) || (decide (a.1 = b.1) && decide (a.2 ≤ b.2))
  let lo := (d.pkts.filter (fun e => decide (e.seq ≤ g.1.seq) && decide (jobs e ≠ []))).foldl (fun (b : Option RxPkt) e =>
    match b with | some x => if x.seq < e.seq then some e else b | none => some e) none
  let hi := (d.pkts.filter (fun e => decide (g.2.seq ≤ e.seq) && decide (jobs e ≠ []))).foldl (fun (b : Option RxPkt) e =>
    match b with | some x => if e.seq < x.seq then some e else b | none => some e) none
  (match lo.bind (fun e => (jobs e).getLast?) with | some a => le (s.jobPlace n a) (s.jobPlace n k) | none => true) &&
  (match hi.bind (fun e => (jobs e).head?) with | some b => le (s.jobPlace n k) (s.jobPlace n b) | none => true)

/-- The packets missing in a gap are declared lost for a job whose cut has passed, and a NAL unit with a missing fragment is discarded whole (R231). -/
def State.declareGaps (s : State) (n : Nat) (k : Nat × Nat × Nat) : State :=
  ((s.strm n).dec.gaps.filter (fun g => s.gapServes n g k)).foldl (fun s g =>
    let m := g.2.seq - g.1.seq - 1
    let s := (s.updDec n (fun d => { d with pkts := (List.range m).map (fun i => { seq := g.1.seq + 1 + i, pic := k.1, lost := true }) ++ d.pkts })).updPic
      n k.1 (fun p => { p with lostPkts := p.lostPkts + m })
    let cut := (match g.1.kind with | .frag _ false => !g.1.lost | _ => false) || (match g.2.kind with | .frag false _ => !g.2.lost | _ => false)
    if cut then s.decDrop n k.1 else s) s

/-- A packet comes after the cut of every job that it would serve: its number has been declared lost, or its NAL units hold data of such jobs alone. -/
def DecS.tooLate (d : DecS) (seq pic : Nat) (nals : List NalIn) : Bool :=
  let l := nals.flatMap (fun x => x.jobs)
  d.pkts.any (fun k => k.seq == seq && k.lost) || (l ≠ [] && l.all (fun j => decide ((pic, j.row, j.reg) ∈ d.cut)))

/-- A packet of the merged flow of a decode stream (R220, R221, R231, R419): it enters staging, its headers take effect, the jobs that it makes whole are
committed, and gaps before it that jobs whose cut has passed were waiting for are declared. -/
def State.decPacket (s : State) (n : Nat) (r : RtpIn) (nals : List NalIn) : State :=
  let t := s.strm n
  match s.matchPic n (BitVec.ofNat 32 r.ts) t.p.decTso with
  | none => s.auDrop n r.ts none
  | some pic =>
    let old := t.dec.aus.find? (fun a => a.pic == pic)
    if old.any (fun a => a.ts != r.ts) then s.auDrop n r.ts (some pic) else
    let q := t.dec.number r.seq
    if t.dec.tooLate q pic nals then s.decDrop n pic else
    if t.dec.stage < t.dec.staged + r.data.length then s.decDrop n pic else
    let head := nals.findSome? (fun x => x.head)
    let aus := if old.isSome then t.dec.aus else { pic := pic, ts := r.ts } :: t.dec.aus
    let s := s.updDec n (fun d => ({ d with
      staged := d.staged + r.data.length, newest := some (max q (d.newest.getD q)),
      pkts := { seq := q, pic := pic, kind := codedIn t.p.vvc r.data, nals := nals } :: d.pkts,
      aus := aus.map (fun b => if b.pic = pic ∧ b.head.isNone then { b with head := head } else b) } : DecS).trim t.nextPic)
    let s := (s.headNow n pic).decCommit n pic
    (s.strm n).dec.lost.foldl (fun s k => s.declareGaps n k) s

/-! ## The commands -/

/-- A job of a picture in hand of a decode stream. -/
def State.decJob (s : State) (n pic row reg : Nat) : Bool :=
  let t := s.strm n
  decide (t.p.typ = 1) && decide (2 ≤ s.get (R.STRMn_STATE_STATE n)) && (s.pic n pic).isSome && decide ((row, reg) ∈ (s.picP n pic).jobs)

/-- DECODE_JOB_RELEASE (R223, R228): the job enters its home queue at the window of its first band. -/
def execDecodeJobRelease (n : Fin 128) (pic row reg : Nat) (s : State) : Host.Outcome State Fault Refusal :=
  let t := s.strm n
  .next (if ¬ s.decJob n pic row reg ∨ ¬ s.reached (s.rowInst t.p (s.strokeOf n pic) row 0) then s else
    (s.headNow n pic).enqueueJob n pic row reg)

/-- A job's missing input is declared lost (R229, R231, R238), and the gaps in the sequence that may hold it are. -/
def State.declareLost (s : State) (n pic row reg : Nat) : State :=
  ((s.updDec n (fun d => { d with lost := (pic, row, reg) :: d.lost })).declareGaps n (pic, row, reg)).concealReport n pic true

/-- No access unit has come for a picture by the cut of its last row (R222). -/
def State.noAccessUnit (s : State) (n pic : Nat) : State :=
  match s.pic n pic with
  | none => s
  | some p =>
    if p.noAu ∨ (s.strm n).dec.aus.any (fun a => a.pic == pic) then s else
    let s := (s.updPic n pic (fun p => { p with noAu := true })).bump (R.STRMn_DNOAU_COUNT n)
    (s.decReport n pic 0x26).sendPli n pic

/-- DECODE_INPUT_CUT (R222, R229, R231). -/
def execDecodeInputCut (n : Fin 128) (pic row reg : Nat) (s : State) : Host.Outcome State Fault Refusal :=
  let t := s.strm n
  let k := (pic, row, reg)
  let b := (s.picP n pic).lastBand row reg
  .next (if ¬ s.decJob n pic row reg ∨ k ∈ t.dec.cut ∨ ¬ s.reached (s.cutInst t.p (s.strokeOf n pic) b) then s else
    let s := s.headNow n pic
    let s := s.updDec n (fun d => ({ d with cut := k :: d.cut } : DecS).trim t.nextPic)
    let s := if k ∈ t.dec.inputs ∨ k ∈ t.dec.syn ∨ s.jobDone n pic row reg = true then s else s.declareLost n pic row reg
    if b + 1 = t.p.nRows then s.noAccessUnit n pic else s)

/-- The jobs of a Bow-ahead stream whose syntax is still to be written, in decoding order. -/
def State.aheadNext (s : State) (n : Nat) : List (Nat × Nat × Nat) :=
  let t := s.strm n
  t.pics.flatMap (fun p => ((s.picP n p.n).jobs.map (fun j => (p.n, j.1, j.2))).filter (fun k =>
    decide (k ∉ t.dec.syn) && decide (k ∉ t.dec.lost) && !s.jobDone n k.1 k.2.1 k.2.2))

/-- The deadline of the next stretch of a stream's Bow, where its input is committed (R226). -/
def State.aheadDl (s : State) (n : Nat) : Option Inst :=
  match s.aheadNext n with
  | [] => none
  | k :: _ => if k ∈ (s.strm n).dec.inputs then some (s.mkJob n k.1 k.2.1 k.2.2).dl else none

/-- The Bow of stream `n` serves it (R101, R226): no stream that it also serves has an earlier deadline. -/
def State.aheadTurn (s : State) (n : Nat) : Bool :=
  (List.range 128).all (fun m =>
    decide (m = n) || decide (s.get (R.STRMn_STATE_STATE m) < 2) || !s.flag (R.STRMn_DCTL_AHEAD m) ||
    decide (s.get (R.STRMn_DCTL_BOW m) ≠ s.get (R.STRMn_DCTL_BOW n)) ||
    (match s.aheadDl m, s.aheadDl n with
     | some a, some b => !a.lt b
     | some _, none => false
     | none, _ => true))

/-- BOW_AHEAD_DECODE (R220, R226, R229): the Bow has decoded `bytes` of staging, in order, `wrote.1` bins in all, and has written `wrote.2` bytes of syntax records, with which
the syntax of `jobs`, the next ones whose input is committed, is whole. What does not fit the syntax reservation is not written. -/
def execBowAheadDecode (n : Fin 128) (bytes : Nat) (wrote : Nat × Nat) (jobs : List (Nat × Nat × Nat)) (s : State) :
    Host.Outcome State Fault Refusal :=
  let t := s.strm n
  let next_ := s.aheadNext n
  .next (if t.p.typ ≠ 1 ∨ ¬ s.flag (R.STRMn_DCTL_AHEAD n) ∨ s.get (R.STRMn_STATE_STATE n) < 2 ∨ ¬ s.aheadTurn n ∨
      t.dec.staged < bytes ∨ t.dec.synStage < t.dec.synUsed + wrote.2 ∨ jobs ≠ next_.take jobs.length ∨
      ¬ jobs.all (fun k => decide (k ∈ t.dec.inputs)) then s else
    let s := s.updDec n (fun d => { d with staged := d.staged - bytes, synUsed := d.synUsed + wrote.2, syn := jobs ++ d.syn })
    match next_ with
    | k :: _ => s.updPic n k.1 (fun p => { p with bins := p.bins + wrote.1 })
    | [] => s)

end Sys2Proof.Machine
end

