-- ==== Sys2Proof/Machine/Ports.lean ====
section
/-!
DEFINITION. Media ports (R398-R429): the checks and classes of a received frame, the ST 2022-7 merge, delivery to feeds, decode
streams and pass streams, RTCP feedback, the PTP and timestamp Bins, and the port record.
-/
namespace Sys2Proof.Machine

/-! ## Acceptance (R399, R400) -/

/-- The multicast addresses of PTP over IPv4 and over Ethernet. PRESUMED (log 76): those of the standard's Annexes C and E. -/
def ptpMacs : List Nat := [groupMac 0xE0000181, groupMac 0xE000006B, 0x011B19000000, 0x0180C200000E]

/-- The frame's destination is the port's: its own address, the broadcast address or an admitted group. DEDUCED (log 77): general IGMP queries
reach the port on the group of all systems while it answers them. -/
def State.destOk (s : State) (p mac : Nat) : Bool :=
  decide (mac = s.portMac p) || decide (mac = 2 ^ 48 - 1) || decide (mac ∈ ptpMacs) ||
  decide (mac ∈ (s.portGroups p).map groupMac) || (s.flag (R.PORTp_CFG_IGMP_EN p) && decide (mac = groupMac 0xE0000001))

/-- An IEEE 802.3 PAUSE or PFC frame: of EtherType 0x8808, with opcode 0x0001 or 0x0101. -/
def EthIn.pause (e : EthIn) : Bool := decide (e.et = 0x8808) && decide (beNat (slice e.rest 0 2) ∈ [0x0001, 0x0101])

/-- A received frame passes the checks of R399 and its FCS. -/
def State.rxAccept (s : State) (p : Nat) (f : RxFrame) : Bool :=
  let e := ethIn f.data
  f.fcsOk && decide (f.data.length + 4 ≤ s.get (R.PORTp_CFG_MFS p)) &&
  (match e.tag with
   | none => !s.flag (R.PORTp_CFG_VLAN_EN p)
   | some v => s.flag (R.PORTp_CFG_VLAN_EN p) && decide (v.2 = s.get (R.PORTp_CFG_VID p))) &&
  s.destOk p e.dst && !e.pause

/-! ## Merge (R410, R411) -/

/-- What the merge does with a packet. -/
inductive MergeRes where
  | used | dup
  deriving DecidableEq, Repr

/-- A packet of number `seq`, `w` bits wide, that comes on port `p`: the merge's new memory, what becomes of the packet, and the ports
whose packets the other path has not brought within 4,096 later numbers. -/
def MergeS.step (m : MergeS) (w seq p : Nat) : MergeS × MergeRes × List Nat :=
  let behind := (m.newest.getD seq + 2 ^ w - seq) % 2 ^ w
  if m.seen.any (fun e => e.1 == seq) then
    ({ m with seen := m.seen.map (fun e => if e.1 = seq ∧ e.2.1 ≠ p then (e.1, e.2.1, true) else e) }, .dup, [])
  else if 4096 < behind ∧ behind < 2 ^ (w - 1) then (m, .dup, [])
  else
    let l := (seq, p, false) :: m.seen
    let out := l.drop 4096
    ({ seen := l.take 4096, newest := some (if behind < 2 ^ (w - 1) then m.newest.getD seq else seq) }, .used,
     (out.filter (fun e => !e.2.2)).map (fun e => e.2.1))

/-! ## Delivery of RTP packets (R408, R409, R423) -/

/-- The input flows on port `p` that a destination names. -/
def State.rxFlows (s : State) (p ip udp : Nat) : List (Nat × Nat × Flow) :=
  (s.inputFlows).filter (fun e =>
    let f := e.2.2
    decide (s.get (R.STRMn_STATE_STATE e.1) = 1 ∨ s.get (R.STRMn_STATE_STATE e.1) = 2) &&
    ((decide (f.portA = p) && decide (f.ipA = ip) && decide (f.udpA = udp)) ||
     (decide (f.portB = p) && decide (f.ipB = ip) && decide (f.udpB = udp))))

/-- A packet of a PASS stream leaves again from the cycle after its commit, with the payload type and SSRC of the output flow, every other
field of its RTP header and its payload as they came (R423, R424). -/
def State.passPacket (s : State) (n : Nat) (r : RtpIn) : State :=
  let t := s.strm n
  let f := t.p.outFlow
  let h : Rtp := { pt := f.pt, seq := r.seq, ts := r.ts, ssrc := f.ssrc, rest := r.rest }
  let len := 4 * r.rest.csrc.length + (match r.rest.ext with | some x => x.length | none => 0) + r.data.length
  s.pushPair f len { kind := 0, key := n, elig := nowInst (s.now + s.cycleStep), stream := some n, pic := t.nextPic, rtp := some h, bytes := r.data }

/-- A packet of one input flow is used: by a raw stream's feed, by a decode stream, which remembers its sender (R420), or by a pass stream. -/
def State.rxUse (s : State) (e : Nat × Nat × Flow) (r : RtpIn) (nals : List NalIn) (src : Nat × Nat) : State :=
  let n := e.1
  let p := (s.strm n).p
  if p.typ = 0 ∨ p.typ = 3 then s.feedPacket e.2.1 (BitVec.ofNat 32 r.ts) ((p.feedFormat (s.feed e.2.1).p).videoIn r.data |>.getD [])
  else if p.typ = 1 then (s.updStrm n (fun t => { t with dec := { t.dec with sender := (src.1, src.2, r.ssrc) } })).decPacket n r nals
  else s.passPacket n r

/-- The sequence number of a packet by which the merge knows it, and its bits (R410): the extended one of ST 2110-20. -/
def RtpIn.number (r : RtpIn) (raw : Bool) : Nat × Nat := if raw then (32, beNat (slice r.data 0 2) * 2 ^ 16 + r.seq) else (16, r.seq)

/-- A packet of one input flow: merged where the flow has two paths, then used. -/
def State.rxDeliver (s : State) (p : Nat) (e : Nat × Nat × Flow) (r : RtpIn) (nals : List NalIn) (src : Nat × Nat) : State :=
  let n := e.1
  let typ := (s.strm n).p.typ
  if e.2.2.portB = 255 then s.rxUse e r nals src else
  let q := r.number (decide (typ = 0 ∨ typ = 3))
  let m := (((s.strm n).merge.find? (fun x => x.1 == e.2.1)).map (fun x => x.2)).getD {}
  let m := m.step q.1 q.2 p
  let s := s.updStrm n (fun t => { t with merge := (e.2.1, m.1) :: t.merge.filter (fun x => x.1 != e.2.1) })
  let s := m.2.2.foldl (fun s q => s.bump (R.PORTp_MERGE_SAVE_COUNT q)) s
  match m.2.1 with
  | .dup => s.bump (R.PORTp_MERGE_DUP_COUNT p)
  | .used => s.rxUse e r nals src

/-- A packet passes the checks of R409 for an input flow, and of a raw flow carries no field bit (R413). -/
def State.rxOk (s : State) (e : Nat × Nat × Flow) (r : RtpIn) : Bool :=
  let p := (s.strm e.1).p
  decide (e.2.2.pt = r.pt) && (decide (e.2.2.ssrc = 0) || decide (e.2.2.ssrc = r.ssrc)) &&
  ((decide (p.typ ≠ 0) && decide (p.typ ≠ 3)) || ((p.feedFormat (s.feed e.2.1).p).videoIn r.data).isSome)

/-- A datagram matched to input flows: it is rewound where its checksums or its RTP header fail, or where no flow takes it (R403, R409). -/
def State.rxRtp (s : State) (p : Nat) (fl : List (Nat × Nat × Flow)) (u : UdpIn) (nals : List NalIn) : State :=
  match (if u.sumOk then rtpIn u.data else none) with
  | none => s.bump (R.PORTp_RX_BAD_COUNT p)
  | some r =>
    if fl.all (fun e => !s.rxOk e r) then s.bump (R.PORTp_RX_BAD_COUNT p)
    else (fl.filter (fun e => s.rxOk e r)).foldl (fun s e => s.rxDeliver p e r nals (u.srcIp, u.sport)) s

/-! ## RTCP (R122, R408, R420) -/

/-- The streams and SSRCs whose feedback comes to a UDP port of port `p`: an output flow there, or a subscriber's stream. -/
def State.rtcpOf (s : State) (p udp : Nat) : List (Nat × Nat) :=
  let mine := fun (f : Flow) => (decide (f.portA = p) && decide (f.udpA + 1 = udp)) || (decide (f.portB = p) && decide (f.udpB + 1 = udp))
  s.streams.flatMap (fun e =>
    if s.get (R.STRMn_STATE_STATE e.1) = 0 then []
    else if e.2.p.typ = 1 then (e.2.p.regs.filter (fun r => mine r.flow)).map (fun r => (e.1, r.flow.ssrc))
    else if e.2.p.typ = 3 then []
    else if mine e.2.p.outFlow then [(e.1, e.2.p.outFlow.ssrc)] else []) ++
  s.subs.filterMap (fun e => match e.2 with
    | none => none
    | some b =>
      if b.udp + 1 = udp ∧ (s.get (R.EGR_SVCs_v_CFG_PORT_A e.1 b.svc) = p ∨ s.get (R.EGR_SVCs_v_CFG_PORT_B e.1 b.svc) = p)
      then some (b.canvas, b.ssrc) else none)

/-- The FCI entries of a FIR that name an SSRC of stream `n` with a sequence number other than the last acted on for it. -/
def State.firNew (s : State) (dst : List (Nat × Nat)) (n : Nat) (fci : List (Nat × Nat)) : List (Nat × Nat) :=
  fci.filter (fun e => decide ((n, e.1) ∈ dst) && !decide (e ∈ (s.strm n).fir))

/-- One feedback message asks for a key of each stream that it names, a whole canvas at once: a PLI, or a FIR with a new entry, whose numbers
are then the last acted on (R122, R127). -/
def State.rtcpFb (s : State) (dst : List (Nat × Nat)) (f : RtcpFb) : State :=
  let to_ := (dst.map (fun e => e.1)).eraseDups
  match f with
  | .pli ssrc => (to_.filter (fun n => decide ((n, ssrc) ∈ dst))).foldl (fun s n => s.keyFrom n 1) s
  | .fir fci => to_.foldl (fun s n =>
      let new := s.firNew dst n fci
      if new = [] ∨ ¬ natBit (s.strm n).p.keySrc 2 then s else
      (s.updStrm n (fun t => { t with fir := new.foldl (fun l e => e :: l.filter (fun x => x.1 != e.1)) t.fir })).keyFrom n 2) s

/-! ## PTP (R425, R426) -/

/-- An instant with a signed correction in nanoseconds, as seconds, nanoseconds and 16 bits of fraction. -/
def State.stampAdj (s : State) (adj : Nat) : Nat × Nat × Nat :=
  let t := ((s.now : Int) + signed 16 adj * (unitsPerNs : Int)) % (timeWrap : Int)
  (t.toNat / unitsPerSec, t.toNat / unitsPerNs % 10 ^ 9, t.toNat % unitsPerNs / 2 ^ 32)

/-- A message is stamped: an event message of the device's domain (R33, R425). -/
def State.ptpStamped (s : State) (m : List Byte) : Bool := ptpEvent m && decide (ptpDomain m = s.get R.TIME_CTL_DOMAIN)

/-- A Bin entry of 256 bytes. DESIGN CHOICE (log 78): the frame's start crosses the MAC and PCS boundary in the cycle of the event. -/
def State.ptpEntry (s : State) (p : Nat) (data m : List Byte) : List Byte :=
  let stamped := s.ptpStamped m
  let t := if stamped then s.stampAdj (s.get (R.PORTp_TS_ADJ_RX_ADJ p)) else (0, 0, 0)
  leBytes 8 t.1 ++ leBytes 4 t.2.1 ++ leBytes 2 data.length ++ leBytes 2 (b2n stamped) ++
  ((data.take 240) ++ List.replicate (240 - min 240 data.length) 0)

def State.ptpBin (s : State) (p : Nat) : List (List Byte) := tabGet [] s.ptpRx p
def State.setPtpBin (s : State) (p : Nat) (l : List (List Byte)) : State :=
  { s with ptpRx := tabSet [] s.ptpRx p l, ptpPos := tabSet 0 s.ptpPos p 0 }

/-- An entry is committed to a PTP receive Bin of 64 entries; the oldest is overwritten where it is full (R404). -/
def State.ptpCommit (s : State) (p : Nat) (e : List Byte) : State :=
  let l := s.ptpBin p ++ [e]
  if l.length ≤ 64 then { s with ptpRx := tabSet [] s.ptpRx p l }
  else (s.setPtpBin p (l.drop (l.length - 64))).addSat (R.PORTp_PTP_LOST_COUNT p) (l.length - 64)

/-- The synchronization metadata of a message in the device's domain is reported where it has changed, while the device is a slave and firmware runs
the servo (R33, R34, R362). The manual names no event ring: which it is, a free value. -/
def State.ptpReport (s : State) (domain : Nat) (y : Option PtpSync) : State :=
  match y with
  | none => s
  | some y =>
    if ¬ y.slave ∨ s.expert 0 ∨ domain ≠ s.get R.TIME_CTL_DOMAIN ∨ s.ptpServo.sync = some y then s else
    let (b, s) := s.draw 2
    ({ s with ptpServo := { s.ptpServo with sync := some y } } : State).eventRecord (0x40 + b) (fun q => .ptpMeta q (s.sec % 2 ^ 32) s.subNs y.num.toNat y.den.toNat
      y.offs.toNat y.lock.toNat y.flags.toNat)

/-! ## MEDIA_FRAME_RX (R399, R408) -/

/-- An ARP request for the port's address is answered (R400, R401). -/
def State.arpAnswer (s : State) (p : Nat) (a : Nat × Nat × Nat) : State :=
  if a.1 ≠ s.get (R.PORTp_IP_ADDR p) then s else
  let (c, s) := s.draw 3
  (s.bump (R.PORTp_TX_FRAMES_COUNT p)).emitLit p (.arp p a.2.1 (s.portMac p) a.2.2 (s.portTag p c))

/-- An IGMP query of a group, or a general one, is answered with a report of each group that it asks for (R400). -/
def State.igmpAnswer (s : State) (p : Nat) (q : Option Nat) : State :=
  match q with
  | none => s
  | some group => ((s.portGroups p).filter (fun g => decide (group = 0) || g == group)).foldl (fun s g => s.igmpSend p g true) s

/-- An IPv4 UDP datagram that no rule before takes (R408, rules 3 to 5). -/
def State.rxUdp (s : State) (p : Nat) (f : RxFrame) : State :=
  match udpIn (ethIn f.data) with
  | none => s.bump (R.PORTp_RX_UNMATCHED_COUNT p)
  | some u =>
    let fl := s.rxFlows p u.dstIp u.dport
    if fl ≠ [] then s.rxRtp p fl u f.nals else
    let dst := s.rtcpOf p u.dport
    if u.dstIp = s.get (R.PORTp_IP_ADDR p) ∧ dst ≠ [] then (rtcpIn u.data.length u.data).foldl (fun s x => s.rtcpFb dst x) s
    else s.bump (R.PORTp_RX_UNMATCHED_COUNT p)

/-- An accepted frame goes where the first rule that applies sends it. -/
def State.rxClass (s : State) (p : Nat) (f : RxFrame) : State :=
  let e := ethIn f.data
  if e.et = 0x0806 then (match arpIn e with | some a => s.arpAnswer p a | none => s) else
  match igmpIn e with
  | some q => s.igmpAnswer p q
  | none =>
    match (if s.flag (R.PORTp_PTP_PTP_EN p) then ptpIn e else none) with
    | some m => (s.ptpCommit p (s.ptpEntry p f.data m)).ptpReport (ptpDomain m) f.sync
    | none => s.rxUdp p f

/-- A frame reaches the port's MAC: one that fails the checks is discarded and counted, any other is classified; a far-end loopback sends it back (R396). -/
def State.rxFrame (s : State) (p : Nat) (f : RxFrame) : State :=
  let s := if s.portFar p then s.emitLit p (.echo p f.data) else s
  if s.rxAccept p f then (s.bump (R.PORTp_RX_FRAMES_COUNT p)).rxClass p f else s.bump (R.PORTp_RX_BAD_COUNT p)

/-- MEDIA_FRAME_RX: a frame on the line of a port that receives. A PTP message on a control port reports what it brings (R33): DESIGN CHOICE (log 116), the
table has no row of its own for it. -/
def execMediaFrameRx (p : Fin 64) (f : RxFrame) (s : State) : Host.Outcome State Fault Refusal :=
  .next (match f.cp with
    | some _ => (match ptpIn (ethIn f.data) with
        | some m => if f.fcsOk then s.ptpReport (ptpDomain m) f.sync else s
        | none => s)
    | none => if ¬ s.portHears p ∨ s.portNear p = true then s else s.rxFrame p f)

/-! ## Bins of PTP (R402-R407, R426-R428) -/

def State.tsBin (s : State) (p : Nat) : List (Nat × Nat × Nat × Nat) := tabGet [] s.tsb p

/-- The entries of a timestamp Bin, with its count. -/
def State.setTsBin (s : State) (p : Nat) (l : List (Nat × Nat × Nat × Nat)) : State :=
  ({ s with tsb := tabSet [] s.tsb p l } : State).set (R.PORTp_TSB_STAT_COUNT p) l.length

/-- A transmit stamp enters the timestamp Bin of 64 entries (R404, R428). -/
def State.tsCommit (s : State) (p : Nat) (e : Nat × Nat × Nat × Nat) : State :=
  let l := s.tsBin p ++ [e]
  if l.length ≤ 64 then s.setTsBin p l
  else (s.setTsBin p (l.drop (l.length - 64))).addSat (R.PORTp_TSB_LOST_COUNT p) (l.length - 64)

/-- The PTP transmit Bin of a port: its frames that wait. -/
def State.ptpTx (s : State) (p : Nat) : List Frame := (s.frames p).filter (fun f => f.kind == 2)

/-- Every Bin of a port is emptied; the lost counters are kept (R398). -/
def State.emptyBins (s : State) (p : Nat) : State :=
  ((s.setPtpBin p []).setTsBin p []).setFrames p ((s.frames p).filter (fun f => f.kind != 2))

/-- PTP_RX_BIN_READ (R426): the reader takes the oldest entry, which is removed. -/
def execPtpRxBinRead (p : Fin 64) (s : State) : Host.Outcome State Fault Refusal :=
  .next (match s.ptpBin p with
    | [] => s
    | e :: l => (s.setPtpBin p l).emit (.binEntry p e))

/-- The first byte of the PTP transmit Bin window (R427). -/
def ptpTxWindow (p : Nat) : Nat := 0x4000000000 + p * 0x10000 + 0x8000

/-- An entry is written to the PTP transmit Bin (R404, R427, R439): it is committed, its frame to leave as its class gate allows; its reserved bits are ignored
(R13); one with a reserved encoding is discarded and reported. DEDUCED (log 79): the report has the port's source and the window's address. -/
def State.ptpTxPut (s : State) (p : Nat) (data : List Byte) : State :=
  let len := leNat (slice data 0 1)
  let fl := leNat (slice data 1 1) % 4
  let frame := data.drop 16
  let ok := 60 ≤ len ∧ len ≤ 240 ∧ fl ≤ 2 ∧ frame.length = len
  if ¬ s.portExists p then s else
  if ¬ ok then s.send (0x180 + p) 0x80 (ptpTxWindow p) else
  let s := if (s.ptpTx p).length < 16 then s else s.setFrames p (removeFirst (fun f => f.kind == 2) (s.frames p))
  s.putFrame p { kind := 2, wire := len + 24, elig := nowInst (s.now + s.cycleStep), bytes := frame, flags := fl }

/-- PTP_TX_BIN_WRITE (R427). -/
def execPtpTxBinWrite (p : Fin 64) (data : List Byte) (s : State) : Host.Outcome State Fault Refusal := .next (s.ptpTxPut p data)

/-- A read of PORTp_TSB_ID (R428): the oldest entry is taken and its time latched. -/
def State.readTsb (s : State) (p : Nat) : State × Word :=
  match s.tsBin p with
  | [] => let s := (s.set (R.PORTp_TSB_ID_VALID p) 0).set (R.PORTp_TSB_ID_ID p) 0
          (s, s.reg (A.PORTp_TSB_ID p))
  | e :: r =>
    let s := (s.setTsBin p r).set (R.PORTp_TSB_SECL_VALUE p) e.2.1
    let s := ((s.set (R.PORTp_TSB_SECH_VALUE p) (e.2.1 / 2 ^ 32 % 2 ^ 16)).set (R.PORTp_TSB_NS_VALUE p) e.2.2.1).set
      (R.PORTp_TSB_FRAC_VALUE p) e.2.2.2
    let s := (s.set (R.PORTp_TSB_ID_ID p) e.1).set (R.PORTp_TSB_ID_VALID p) 1
    (s, s.reg (A.PORTp_TSB_ID p))

/-- TSB_ID_READ: an absent port reads as zero (R429). -/
def execTsbIdRead (w : Who) (p : Fin 64) (s : State) : Host.Outcome State Fault Refusal :=
  .next (if ¬ s.portExists p then s.emit (.value w (A.PORTp_TSB_ID p) 0)
    else (s.readTsb p).1.emit (.value w (A.PORTp_TSB_ID p) (s.readTsb p).2))

/-- BIN_PTR (R406): Bin 0 receive, 1 PTP receive, 2 PTP transmit, 3 timestamp. Its entries are discarded and counted, and the Tally is
told. DESIGN CHOICE (log 80): the merge takes an entry of the receive Bin in the cycle of its commit, so none is left there; the PTP transmit
Bin has no lost counter in R429. -/
def execBinPtr (p : Fin 64) (bin : Nat) (s : State) : Host.Outcome State Fault Refusal :=
  .next (if ¬ s.portExists p ∨ 3 < bin then s else
    let s := match bin with
      | 1 => (s.addSat (R.PORTp_PTP_LOST_COUNT p) (s.ptpBin p).length).setPtpBin p []
      | 2 => s.setFrames p ((s.frames p).filter (fun f => f.kind != 2))
      | 3 => (s.addSat (R.PORTp_TSB_LOST_COUNT p) (s.tsBin p).length).setTsBin p []
      | _ => s
    s.send (0x180 + p) 0x47)

/-! ## The port record (R398) -/

/-- A write of PORTp_STATE. -/
def State.portStateWrite (s : State) (p : Nat) (d : Word) : State := s.requestWrite 3 p (wordGet d 4 2)

/-- PORT_ENABLE_REQ. -/
def execPortEnableReq (w : Who) (p : Fin 64) (d : Word) (s : State) : Host.Outcome State Fault Refusal :=
  .next (if wordGet d 4 2 = 1 then s.ownWrite w (A.PORTp_STATE p) d (fun s => s.portStateWrite p d) else s)

/-- PORT_DISABLE_REQ. -/
def execPortDisableReq (w : Who) (p : Fin 64) (d : Word) (s : State) : Host.Outcome State Fault Refusal :=
  .next (if wordGet d 4 2 = 2 then s.ownWrite w (A.PORTp_STATE p) d (fun s => s.portStateWrite p d) else s)

/-- PORT_ON (R398, R569). -/
def execPortOn (p : Fin 64) (s : State) : Host.Outcome State Fault Refusal :=
  .next (if s.get (R.PORTp_STATE_STATE p) ≠ 1 then s else ((s.emptyBins p).reachOn 3 p).evcAssert (192 + p))

/-- PORT_OFF (R398, R569): frames already started have finished. -/
def execPortOff (p : Fin 64) (s : State) : Host.Outcome State Fault Refusal :=
  .next (if s.get (R.PORTp_STATE_STATE p) ≠ 3 ∨ s.now < tabGet 0 s.txFree p then s
    else ((s.emptyBins p).reachOff 3 p).evcAssert (192 + p))

end Sys2Proof.Machine
end

