-- ==== Sys2Proof/Machine/Egress.lean ====
section
/-!
DEFINITION. The Egress Scheduler (R439-R454): the choice of the next frame, shapers, gates and their windows, stale and oversize
frames, and the take-over of gate lists.
-/
namespace Sys2Proof.Machine

/-! ## Gate windows (R448-R452) -/

/-- A list of gate entries: the gates and the duration in device time of each, and for a cyclic list its generator. -/
structure GList where
  ents : List (Nat × Nat)
  gen  : Option Nat
  deriving DecidableEq, Repr

/-- The first `len` entries of a bank. -/
def State.bank (s : State) (p b len mode gen : Nat) : GList :=
  { ents := (List.range len).map (fun i => (s.get (R.EGRp_GCLb_i_GATES p b i), s.get (R.EGRp_GCLb_i_DUR_DUR p b i) * unitsPerNs)),
    gen := if mode = 1 then some gen else none }

/-- The list in force, and the pending list. -/
def State.listNow (s : State) (p : Nat) : GList :=
  s.bank p (s.get (R.EGRp_GSTAT_ACT p)) (s.gateLen p) (s.get (R.EGRp_GSTAT_MODE p)) (s.get (R.EGRp_GSTAT_GEN p))
def State.listPend (s : State) (p : Nat) : GList :=
  s.bank p (1 - s.get (R.EGRp_GSTAT_ACT p)) (s.get (R.EGRp_GCTL_PLEN p)) (s.get (R.EGRp_GCTL_PMODE p)) (s.get (R.EGRp_GCTL_PGEN p))

/-- Entry `i` opens class `c`. -/
def GList.opens (l : GList) (c i : Nat) : Bool := natBit (((l.ents[i]?).getD (255, 0)).1) c

/-- The end of entry `i` that begins at `t`; the last has none. -/
def GList.endOf (l : GList) (i t : Nat) : Option Nat :=
  if i + 1 < l.ents.length then some (t + ((l.ents[i]?).getD (255, 0)).2) else none

/-- The instant of Stroke `k` in units of device time, where the generator runs: the first unit at or past it, which maps to the same
cycle (R55). -/
def State.strokeUnits (s : State) (g k : Nat) : Option Nat :=
  if s.flag (R.STRKg_CTL_EN g) then
    let i := s.strokeAt g k
    some (ceilDiv (i.num * unitsPerNs) i.den)
  else none

/-- The end of the open window of class `c` that entry `i` of a list is in, with the entry's end and the next Stroke; none where it
has no end. -/
def State.windowEnd (s : State) (l : GList) (c : Nat) : Nat → Nat → Option Nat → Nat → Option Nat
  | 0, _, _, _ => none
  | fuel + 1, i, e, k =>
    let st := match l.gen with | some g => s.strokeUnits g k | none => none
    match e, st with
    | none, none => none
    | none, some t =>
      if l.opens c 0 then s.windowEnd l c fuel 0 (l.endOf 0 t) (k + 1) else some t
    | some x, none =>
      if l.opens c (i + 1) then s.windowEnd l c fuel (i + 1) (l.endOf (i + 1) x) k else some x
    | some x, some t =>
      if t ≤ x then if l.opens c 0 then s.windowEnd l c fuel 0 (l.endOf 0 t) (k + 1) else some t
      else if l.opens c (i + 1) then s.windowEnd l c fuel (i + 1) (l.endOf (i + 1) x) k else some x

/-- The first Stroke of a generator at least 10 µs after an arming write (R451). -/
def State.takeStroke (s : State) (p : Nat) : Nat :=
  let g := s.get (R.EGRp_GCTL_PGEN p)
  ceilDiv (((tabGet {} s.gates p : GateS).armAt + 10000 * unitsPerNs - s.get (R.STRKg_PHASE_PHASE g) * unitsPerNs) * s.pden g)
    (s.pnum g * unitsPerNs)

/-- The instant of the armed take-over of a port (R451). -/
def State.takeAt (s : State) (p : Nat) : Option Nat :=
  if ¬ s.flag (R.EGRp_GCTL_ARM p) then none
  else if s.flag (R.EGRp_GCTL_PMODE p) then s.strokeUnits (s.get (R.EGRp_GCTL_PGEN p)) (s.takeStroke p)
  else some ((s.get (R.EGRp_TAKE_L_NS p) + s.get (R.EGRp_TAKE_H_NS p) * 2 ^ 32) * unitsPerNs)

/-- The end of the open window of class `c` of a port that lasts now (R452). -/
def State.openEnd (s : State) (p c : Nat) : Option Nat :=
  let l := s.listNow p
  let g := s.get (R.EGRp_GSTAT_GEN p)
  let e := if s.flag (R.EGRp_GSTAT_LISTED p) then
      s.windowEnd l c (2 * l.ents.length + 4) (s.get (R.EGRp_GSTAT_ENTRY p)) (tabGet {} s.gates p : GateS).ends (s.gen g).next
    else none
  match s.takeAt p with
  | none => e
  | some t =>
    let before : Bool := match e with | some x => decide (x < t) | none => false
    if before then e else
    let q := s.listPend p
    if q.opens c 0 then s.windowEnd q c (2 * q.ents.length + 4) 0 (q.endOf 0 t) (s.takeStroke p + 1) else some t

/-- The wire time of a frame in units of device time, rounded up: 25 Gbit/s, or 100 Gbit/s where the quad runs QMODE 1 (R452). -/
def State.wireTime (s : State) (p wire : Nat) : Nat :=
  ceilDiv (wire * 8 * unitsPerNs) (if s.flag (R.LANEl_QMODE_QMODE (4 * (p / 4))) then 100 else 25)

/-- The gate of class `c` is open, and a frame that starts now ends within its window (R452). -/
def State.gateFits (s : State) (p c wire : Nat) : Bool :=
  natBit (s.get (R.EGRp_GSTAT_GATES p)) c &&
  (match s.openEnd p c with | none => true | some e => decide (s.now + s.wireTime p wire ≤ e))

/-! ## The longest window (R453) -/

/-- The longest run of open spans. -/
def longestRun : List (Nat × Bool) → Nat → Nat → Nat
  | [], run, best => max run best
  | (d, o) :: r, run, best => if o then longestRun r (run + d) best else longestRun r 0 (max run best)

/-- The spans of a cyclic list over one nominal period: each entry's part of it, the last holding to its end. -/
def cycleSpans (c : Nat) : List (Nat × Nat) → Nat → List (Nat × Bool)
  | [], _ => []
  | [(g, _)], left => [(left, natBit g c)]
  | (g, d) :: r, left => (min d left, natBit g c) :: cycleSpans c r (left - d)

/-- The spans of a take-over list's windows of class `c` that have not ended at entry `i`, with its last entry held. -/
def GList.spansFrom (l : GList) (c i : Nat) : List (Nat × Bool) :=
  let back := ((List.range i).reverse.takeWhile (fun j => l.opens c i && l.opens c j)).length
  (l.ents.drop (i - back)).map (fun e => (e.2, natBit e.1 c))

/-- W_max of class `c` on a port in units of device time; none where it is unbounded. -/
def State.wMax (s : State) (p c : Nat) : Option Nat :=
  if ¬ s.flag (R.EGRp_GSTAT_LISTED p) then none else
  let l := s.listNow p
  match l.gen with
  | some g =>
    let sp := cycleSpans c l.ents (s.pnum g * unitsPerNs / s.pden g)
    if sp.all (fun e => e.2) then none else some (longestRun (sp ++ sp) 0 0)
  | none =>
    if l.opens c (l.ents.length - 1) then none
    else some (longestRun (l.spansFrom c (s.get (R.EGRp_GSTAT_ENTRY p))) 0 0)

/-! ## Queues (R439-R441) -/

/-- The class of a frame's queue. -/
def State.classOf (s : State) (p : Nat) (f : Frame) : Nat :=
  match f.kind with
  | 0 => s.get (R.EGRp_CLS_FLOW p)
  | 1 => s.get (R.EGR_SVCs_v_CFG_CLASS (f.key / 4) (f.key % 4))
  | 2 => s.get (R.EGRp_CLS_PTP p)
  | _ => s.get (R.EGRp_CLS_RTCP p)

/-- Two frames wait in one queue. -/
def Frame.sameQueue (a b : Frame) : Bool := a.kind == b.kind && a.key == b.key && a.reg == b.reg

/-- The head frame of each queue. -/
def queueHeads : List Frame → List Frame → List Frame
  | [], acc => acc.reverse
  | f :: r, acc => if acc.any (fun g => g.sameQueue f) then queueHeads r acc else queueHeads r (f :: acc)

/-- Frame `a` of class `ca` is chosen before frame `b` of class `cb` (R441). DESIGN CHOICE (log 69): PTP and RTCP frames come after service
queues on equal classes and instants, and the regions of one stream by number; the spec orders neither. -/
def Frame.first (ca cb : Nat) (a b : Frame) : Bool :=
  decide (cb < ca) || (decide (ca = cb) && (a.elig.lt b.elig || (a.elig.same b.elig && (decide (a.kind < b.kind) ||
    (decide (a.kind = b.kind) && (decide (a.key < b.key) || (decide (a.key = b.key) && decide (a.reg < b.reg))))))))

/-! ## Shapers (R444-R447) -/

/-- The numbers of the shapers: ports, services, subscribers. -/
def shPort (p : Nat) : Nat := p
def shSvc (q : Nat) : Nat := 64 + q
def shSub (i : Nat) : Nat := 64 + 16384 + i

def State.shaper (s : State) (k : Nat) : ShaperS := tabGet {} s.shapers k
def State.setShaper (s : State) (k : Nat) (v : ShaperS) : State := { s with shapers := tabSet {} s.shapers k v }

/-- A shaper that is enabled has credit for a frame. -/
def State.credit (s : State) (k wire : Nat) : Bool :=
  let h := s.shaper k
  !h.on || decide (wire * 2 ^ 16 ≤ h.credit)

/-- A service's shaper is enabled while EN is 1. -/
def State.svcCredit (s : State) (q wire : Nat) : Bool :=
  !s.flag (R.EGR_SVCs_v_CFG_EN (q / 4) (q % 4)) || decide (wire * 2 ^ 16 ≤ (s.shaper (shSvc q)).credit)

/-- A frame's first copy to start pays the shapers of its subscriber and service; `flags` of a service frame says that its copy has. -/
def Frame.paid (f : Frame) : Bool := decide (f.kind ≠ 1) || decide (f.flags = 1)

/-- Every shaper on a frame's path has credit for it. DEDUCED (log 70): the second copy of a packet needs none of its service and subscriber. -/
def State.shaped (s : State) (p : Nat) (f : Frame) : Bool :=
  s.credit (shPort p) f.wire && (f.paid || (s.svcCredit f.key f.wire && s.credit (shSub (f.key / 4)) f.wire))

/-- A shaper is charged. -/
def State.charge (s : State) (k wire : Nat) : State :=
  let h := s.shaper k
  if h.on then s.setShaper k { h with credit := h.credit - wire * 2 ^ 16 } else s

/-- A refill (R445, R447): credit at RATE for `us` microseconds, capped at the effective burst. -/
def State.refill (s : State) (k rate burst mfs us : Nat) : State :=
  if rate = 0 then s.setShaper k {} else
  let cap := max burst (mfs + 20) * 2 ^ 16
  s.setShaper k { credit := min cap ((s.shaper k).credit + rate * us * 2 ^ 16 / 8000), on := true }

/-- The shapers of a level that are set in registers, `step` apart from `base`, or that hold credit, as shapers from `k0`. -/
def State.setIn (s : State) (base step n k0 : Nat) : List Nat :=
  (s.regs.filterMap (fun e => if base ≤ e.1 ∧ e.1 < base + n * step then some ((e.1 - base) / step) else none) ++
   s.shapers.filterMap (fun e => if k0 ≤ e.1 ∧ e.1 < k0 + n then some (e.1 - k0) else none)).eraseDups

/-- A service takes the values of a SVC_SET (R348, R457). -/
def State.svcTake (s : State) (q : Nat) (v : List Nat) : State :=
  let f := fun (i : Nat) => (v[i]?).getD 0
  let s := ((s.set (R.EGR_SVCs_v_CFG_PORT_A (q / 4) (q % 4)) (f 0)).set (R.EGR_SVCs_v_CFG_PORT_B (q / 4) (q % 4)) (f 1)).set
    (R.EGR_SVCs_v_CFG_CLASS (q / 4) (q % 4)) (f 2)
  let s := ((s.set (R.EGR_SVCs_v_CFG_EN (q / 4) (q % 4)) (f 3)).set (R.EGR_SVCs_v_RATE_VALUE (q / 4) (q % 4)) (f 4)).set
    (R.EGR_SVCs_v_BURST_VALUE (q / 4) (q % 4)) (f 5)
  s.settle (.svc q v) St.ok

/-- The SVC_SETs that wait take effect in the order of their acceptance. -/
def State.svcSwitch (s : State) : State :=
  s.owed.foldl (fun s o => match o.wait with | .svc q v => s.svcTake q v | _ => s) s

/-- SHAPER_REFILL: the shapers whose period device time has crossed. DEDUCED (log 70): a service's frames are carried by PORT_A, and a
subscriber's by the port of largest MFS among its services. -/
def execShaperRefill (s : State) : Host.Outcome State Fault Refusal :=
  .next (if ¬ s.crossed 1000 then s else s.once 300 (fun s =>
    let mfs := fun (s : State) (p : Nat) => s.get (R.PORTp_CFG_MFS p)
    let s := (List.range 64).foldl (fun s p => s.refill (shPort p) (s.get (R.EGRp_RATE_KBPS p)) (s.get (R.EGRp_BURST_BYTES p)) (mfs s p) 1) s
    let s := if s.crossed 2000 then s.svcSwitch else s
    let s := if s.crossed 2000 then (s.setIn 0x6A0000 0x10 16384 (shSvc 0)).foldl (fun s q =>
        let i := q / 4
        let v := q % 4
        s.refill (shSvc q) (if s.flag (R.EGR_SVCs_v_CFG_EN i v) then s.get (R.EGR_SVCs_v_RATE_VALUE i v) else 0)
          (s.get (R.EGR_SVCs_v_BURST_VALUE i v)) (mfs s (s.get (R.EGR_SVCs_v_CFG_PORT_A i v))) 2) s else s
    if s.crossed 4000 then (s.setIn 0x680000 0x10 4096 (shSub 0)).foldl (fun s i =>
        let ps := (List.range 4).map (fun v => if s.flag (R.EGR_SVCs_v_CFG_EN i v) then mfs s (s.get (R.EGR_SVCs_v_CFG_PORT_A i v)) else 0)
        s.refill (shSub i) (s.get (R.EGR_SUBs_RATE_VALUE i)) (s.get (R.EGR_SUBs_BURST_VALUE i)) (ps.foldl max 64) 4) s else s))

/-! ## Frames that leave or are dropped (R242, R442, R453) -/

/-- A frame has left a port's queues: the output of its picture may be done. -/
def State.frameGone (s : State) (f : Frame) : State :=
  match f.stream with
  | some n => if (s.strm n).p.typ = 1 then s.outputDone n f.pic else s
  | none => s

/-- The first frame equal to `f` leaves the queues of a port. -/
def State.takeFrame (s : State) (p : Nat) (f : Frame) : State := s.setFrames p (removeFirst (fun g => g == f) (s.frames p))

/-- Queue heads that are eligible and whose wire time exceeds their class's longest window are dropped, each frame being checked once
per list (R453). -/
def State.dropOversize : Nat → Nat → State → State
  | 0, _, s => s
  | fuel + 1, p, s =>
    match (queueHeads (s.frames p) []).find? (fun f => !f.seen && s.reached f.elig) with
    | none => s
    | some f =>
      let big : Bool := match s.wMax p (s.classOf p f) with | none => false | some w => decide (w < s.wireTime p f.wire)
      let s := if big then
          ((s.takeFrame p f).bump (R.EGRp_OVERSIZE_COUNT p)).send (0x180 + p) 0x86 |>.frameGone f
        else s.setFrames p ((s.frames p).map (fun g => if g = f then { g with seen := true } else g))
      State.dropOversize fuel p s

/-- Every frame of a port that has reached its stale limit is discarded (R442). -/
def State.dropStale (s : State) (p : Nat) : State :=
  let lim := s.get (R.EGRp_CLS_STALE_US p) * 1000
  let out := (s.frames p).filter (fun f => s.reached (f.elig.addNs lim))
  let s := (s.setFrames p ((s.frames p).filter (fun f => !s.reached (f.elig.addNs lim)))).addSat (R.EGRp_STALE_COUNT p) out.length
  out.foldl (fun s f => s.frameGone f) s

/-- FRAME_STALE (R442). -/
def execFrameStale (p : Fin 64) (s : State) : Host.Outcome State Fault Refusal := .next (s.dropStale p)

/-! ## EGRESS_FRAME_START (R427, R428, R441, R445) -/

/-- The offset of the PTP message in a frame: after the Ethernet header and its tag, or after the IPv4 and UDP headers. -/
def ptpOffset (b : List Byte) : Nat :=
  let e := ethIn b
  let o := b.length - e.rest.length
  if e.et = 0x88F7 then o else o + 4 * (beNat (slice e.rest 0 1) % 16) + 8

/-- Bytes of a frame replaced from an offset. -/
def patch (b : List Byte) (off : Nat) (x : List Byte) : List Byte := b.take off ++ x ++ b.drop (off + x.length)

/-- A PTP frame as it leaves (R425, R427): a ONE_STEP Sync message with its stamp in originTimestamp and, over IPv4, no UDP checksum; a TWO_STEP frame's stamp
enters the timestamp Bin. A message that is no event message of the device's domain is stamped with zero. -/
def State.ptpLeave (s : State) (p : Nat) (f : Frame) : List Byte × State :=
  let o := ptpOffset f.bytes
  let t := if s.ptpStamped (f.bytes.drop o) then s.stampAdj (s.get (R.PORTp_TS_ADJ_TX_ADJ p)) else (0, 0, 0)
  if f.flags = 1 then
    let sync := beNat (slice f.bytes o 1) % 16 = 0
    let b := if sync then patch f.bytes (o + 34) (beBytes 6 t.1 ++ beBytes 4 t.2.1) else f.bytes
    (if sync ∧ (ethIn f.bytes).et ≠ 0x88F7 then patch b (o - 2) [0, 0] else b, s)
  else (f.bytes, if f.flags = 2 then s.tsCommit p (beNat (slice f.bytes (o + 30) 2), t.1 % 2 ^ 48, t.2.1, t.2.2) else s)

/-- The headers of a packet formed on a port (R401): a group's own MAC address, or the next hop's. -/
def State.netHead (s : State) (p : Nat) (f : Frame) : NetHead :=
  { dstMac := if f.dst.1 / 2 ^ 28 = 14 then groupMac f.dst.1 else s.get (R.PORTp_NH_H_MAC p) * 2 ^ 32 + s.get (R.PORTp_NH_L_MAC p),
    srcMac := s.portMac p, tag := if s.flag (R.PORTp_CFG_VLAN_EN p) then some (s.get (R.PORTp_CFG_VID p), s.classOf p f) else none,
    srcIp := s.get (R.PORTp_IP_ADDR p), dstIp := f.dst.1, ttl := s.get (R.PORTp_QOS_TTL p),
    dscp := if f.kind = 3 then s.get (R.PORTp_QOS_DSCP_PTP p) else s.get (R.PORTp_QOS_DSCP_MEDIA p), sport := f.dst.2, dport := f.dst.2 }

/-- The bytes of a packet with the headers of R401, whose payload begins with the bytes that are known; the rest of its `wire` bytes, which the manual does not
give, are a free value. -/
def State.frameBytes (s : State) (f : Frame) (h : NetHead) : List Byte × State :=
  let rtp := match f.rtp with
    | none => []
    | some r =>
      [BitVec.ofNat 8 (128 + 16 * b2n r.rest.ext.isSome + r.rest.csrc.length), BitVec.ofNat 8 (128 * b2n r.rest.marker + r.pt % 128)] ++ beBytes 2 r.seq ++
      beBytes 4 r.ts ++ beBytes 4 r.ssrc ++ r.rest.csrc.flatMap (fun c => beBytes 4 c.toNat) ++ r.rest.ext.getD []
  let known := rtp ++ f.bytes
  let eth := if h.tag.isSome then 22 else 18
  let k := f.wire - 20 - eth - 28 - known.length
  let (v, s) := s.draw (8 * k)
  let data := known ++ (if f.rtp.isSome then beBytes k v else [])
  let ip := [0x45, BitVec.ofNat 8 (4 * h.dscp)] ++ beBytes 2 (28 + data.length) ++ [0, 0, 0x40, 0] ++ [BitVec.ofNat 8 h.ttl, 17] ++ [0, 0] ++
    beBytes 4 h.srcIp ++ beBytes 4 h.dstIp
  (beBytes 6 h.dstMac ++ beBytes 6 h.srcMac ++ (match h.tag with | some t => [0x81, 0] ++ beBytes 2 (t.2 * 2 ^ 13 + t.1) | none => []) ++ [0x08, 0] ++
    patch ip 10 (beBytes 2 (65535 - onesSum ip)) ++ beBytes 2 h.sport ++ beBytes 2 h.dport ++ beBytes 2 (8 + data.length) ++ [0, 0] ++ data, s)

/-- A frame leaves the MAC of a port (R392, R396): onto its line, where its lanes send; to its own receiver in a near-end loopback; nowhere in a far-end one.
DESIGN CHOICE (log 126): coded data that comes back holds no NAL units that could be read, as its bytes are free values. -/
def State.sendOut (s : State) (p : Nat) (o : Out) (bytes : State → List Byte × State) : State :=
  if s.portFar p then s else
  let s := s.emitLit p o
  if ¬ s.portNear p ∨ ¬ s.portHears p then s else
  (bytes s).2.rxFrame p { data := (bytes s).1 }

/-- A frame starts on a port. -/
def State.startFrame (s : State) (p : Nat) (f : Frame) : State :=
  let s := s.takeFrame p f
  let s := s.charge (shPort p) f.wire
  let s := if f.paid then s else
    let s := (s.charge (shSvc f.key) f.wire).charge (shSub (f.key / 4)) f.wire
    if f.pair = 0 then s
    else { s with egr := tabMap (fun _ => []) (fun _ q => q.map (fun g => if g.pair = f.pair then { g with flags := 1 } else g)) s.egr }
  let s : State := { s with txFree := tabSet 0 s.txFree p (s.now + s.wireTime p f.wire) }
  let s := s.bump (R.PORTp_TX_FRAMES_COUNT p)
  let s := if f.kind = 2 then
      let b := s.ptpLeave p f
      b.2.sendOut p (.ptpFrame p b.1) (fun s => (b.1, s))
    else
      let r := s.formOut f
      let h := r.2.netHead p r.1
      r.2.sendOut p (.frame p (4 * f.key + f.kind) h r.1.rtp r.1.tsp r.1.bytes) (fun s => s.frameBytes r.1 h)
  s.frameGone f

/-- EGRESS_FRAME_START: a port that is ON and whose transmitter is free starts the frame that R441 chooses, after those past their stale limit are
gone (R442). -/
def execEgressFrameStart (p : Fin 64) (s : State) : Host.Outcome State Fault Refusal :=
  .next (if ¬ s.portExists p ∨ ¬ s.portOn p ∨ s.portRaw p ∨ s.now < tabGet 0 s.txFree p then s else
    let s := (s.pcrDue p).dropStale p
    let s := State.dropOversize ((s.frames p).length + 1) p s
    let ok := (queueHeads (s.frames p) []).filter (fun f => s.reached f.elig && s.gateFits p (s.classOf p f) f.wire && s.shaped p f)
    match ok.foldl (fun (b : Option Frame) f => match b with
        | none => some f
        | some g => if f.first (s.classOf p f) (s.classOf p g) g then some f else some g) none with
    | none => s
    | some f => s.startFrame p f)

/-! ## Gate lists (R449-R451) -/

/-- GATE_ENTRY (R449, R450): the entry in force has run for its duration, and the next starts where it ended; after a forward step
past that instant, in the cycle after (R49). -/
def execGateEntry (p : Fin 64) (s : State) : Host.Outcome State Fault Refusal :=
  .next (match (tabGet {} s.gates p : GateS).ends with
    | none => s
    | some e => if s.now < e ∨ s.steady = false then s else s.gateEnter p (s.get (R.EGRp_GSTAT_ENTRY p) + 1) e (s.gateLen p))

/-- The pending list takes over at an instant; `data` completes the command that armed it. -/
def State.takeOver (s : State) (p at_ data : Nat) : State :=
  let len := s.get (R.EGRp_GCTL_PLEN p)
  let s := (s.set (R.EGRp_GSTAT_ACT p) (1 - s.get (R.EGRp_GSTAT_ACT p))).set (R.EGRp_GSTAT_MODE p) (s.get (R.EGRp_GCTL_PMODE p))
  let s := ((s.set (R.EGRp_GSTAT_GEN p) (s.get (R.EGRp_GCTL_PGEN p))).set (R.EGRp_GSTAT_LISTED p) 1).set (R.EGRp_GCTL_ARM p) 0
  let s : State := { s with gates := tabUpd {} s.gates p (fun g => { g with len := len, armAt := 0 }) }
  let s := s.gateEnter p 0 at_ len
  let s := s.setFrames p ((s.frames p).map (fun f => { f with seen := false }))
  (State.dropOversize ((s.frames p).length + 1) p s).settle (.gate p) St.ok data

/-- GATE_TAKEOVER (R451): the armed bank takes over at its instant; after a forward step past it, in the cycle after (R49). -/
def execGateTakeover (p : Fin 64) (s : State) : Host.Outcome State Fault Refusal :=
  .next (match s.takeAt p with
    | none => s
    | some t =>
      if s.flag (R.EGRp_GCTL_PMODE p) then
        let g := s.get (R.EGRp_GCTL_PGEN p)
        if s.takeStroke p < (s.gen g).next ∧ t ≤ s.now ∧ s.steady then s.takeOver p t (s.takeStroke p) else s
      else if t ≤ s.now ∧ s.steady then s.takeOver p t 0 else s)

/-- Arming is refused (R451): a TAKE earlier than 10 µs after the arming write. -/
def State.takeEarly (s : State) (p mode : Nat) : Bool :=
  decide (mode = 0) &&
  decide ((s.get (R.EGRp_TAKE_L_NS p) + s.get (R.EGRp_TAKE_H_NS p) * 2 ^ 32) * unitsPerNs < s.now + 10000 * unitsPerNs)

/-- The pending bank is armed. -/
def State.armGate (s : State) (p : Nat) : State :=
  { s.set (R.EGRp_GCTL_ARM p) 1 with gates := tabUpd {} s.gates p (fun g => { g with armAt := s.now }) }

/-- An armed take-over is cancelled; DEDUCED (log 71): the command that armed it is superseded. -/
def State.cancelGate (s : State) (p : Nat) : State :=
  ({ s.set (R.EGRp_GCTL_ARM p) 0 with gates := tabUpd {} s.gates p (fun g => { g with armAt := 0 }) } : State).settle (.gate p) St.superseded

/-- A write of EGRp_GCTL (R449, R451): MODE 1 is a reserved encoding on ports 4-63; while ARM is 1 only ARM is written. -/
def State.gctlWrite (s : State) (p : Nat) (d : Word) : State :=
  if wordGet d 1 1 = 1 ∧ 4 ≤ p then s.cfgReport (A.EGRp_GCTL p) else
  if s.flag (R.EGRp_GCTL_ARM p) then
    let s := if wordGet d 1 12 ≠ wordGet (s.reg (A.EGRp_GCTL p)) 1 12 then s.cfgReport (A.EGRp_GCTL p) else s
    if wordGet d 0 1 = 0 then s.cancelGate p else s
  else
    let s := (s.plainWrite (A.EGRp_GCTL p) d).set (R.EGRp_GCTL_ARM p) 0
    if wordGet d 0 1 = 0 then s
    else if s.takeEarly p (wordGet d 1 1) then s.cfgReport (A.EGRp_GCTL p) else s.armGate p

/-- GATE_ARM. -/
def execGateArm (w : Who) (p : Fin 64) (d : Word) (s : State) : Host.Outcome State Fault Refusal :=
  .next (s.ownWrite w (A.EGRp_GCTL p) d (fun s => s.gctlWrite p d))

/-- A write of EGRp_TAKE_L, EGRp_TAKE_H or a word of EGRp_GCLb_i (R451): only of the pending bank, and only while ARM is 0. -/
def State.gateWrite (s : State) (p a : Nat) (d : Word) : State :=
  let o := (a - 0x600000) % 0x2000
  if s.flag (R.EGRp_GCTL_ARM p) ∨ (0x1000 ≤ o ∧ (o - 0x1000) / 0x800 = s.get (R.EGRp_GSTAT_ACT p)) then s.cfgReport a
  else s.plainWrite a d

/-! ## FUNC_SET with FUNC 6 (R454) -/

/-- A FUNC_SET of the gates begins: PARAM[15:8] is the port. -/
def State.beginGate (s : State) (c : Cmd) (code : Nat) (k : Nat → State → Owed → State) : State :=
  let p := dUnit8 c.desc
  s.beginFunc c 6 code (fun h => decide (h ≤ 63)) (k p) (s.portExists p)

/-- GATE_ENTRY_SET: one pending entry. DEDUCED (log 72): a VALUE with bits outside its fields is a bad value. -/
def execGateEntrySet (c : Cmd) (s : State) : Host.Outcome State Fault Refusal :=
  let v := dValue c.desc
  let dur := v / 2 ^ 32
  .next (s.beginGate c 1 (fun p s o =>
    if dur < 64 ∨ v / 2 ^ 16 % 2 ^ 16 ≠ 0 then s.complete o St.badValue else
    if s.flag (R.EGRp_GCTL_ARM p) then s.complete o St.busy else
    let b := 1 - s.get (R.EGRp_GSTAT_ACT p)
    let i := v % 256
    ((s.set (R.EGRp_GCLb_i_GATES p b i) (v / 256 % 256)).set (R.EGRp_GCLb_i_DUR_DUR p b i) dur).complete o St.ok))

/-- GATE_LIST_SET: the pending list. -/
def execGateListSet (c : Cmd) (s : State) : Host.Outcome State Fault Refusal :=
  let v := dValue c.desc
  let len := v / 16 % 512
  .next (s.beginGate c 2 (fun p s o =>
    if 2 ^ 13 ≤ v ∨ natBit v 3 ∨ (v % 2 = 1 ∧ 4 ≤ p) ∨ len = 0 ∨ 256 < len then s.complete o St.badValue else
    if s.flag (R.EGRp_GCTL_ARM p) then s.complete o St.busy else
    (((s.set (R.EGRp_GCTL_PMODE p) v).set (R.EGRp_GCTL_PGEN p) (v / 2)).set (R.EGRp_GCTL_PLEN p) len).complete o St.ok))

/-- GATE_ARM_SET: arms, and completes at the take-over. -/
def execGateArmSet (c : Cmd) (s : State) : Host.Outcome State Fault Refusal :=
  let v := dValue c.desc
  .next (s.beginGate c 3 (fun p s o =>
    let cyc := s.flag (R.EGRp_GCTL_PMODE p)
    let bad : Bool := if cyc then decide (v ≠ 0) else decide (v * unitsPerNs < s.now + 10000 * unitsPerNs)
    if bad then s.complete o St.badValue else
    if s.flag (R.EGRp_GCTL_ARM p) then s.complete o St.busy else
    let s := if cyc then s else (s.set (R.EGRp_TAKE_L_NS p) v).set (R.EGRp_TAKE_H_NS p) (v / 2 ^ 32)
    (s.armGate p).await o (.gate p)))

/-- GATE_CANCEL. -/
def execGateCancel (c : Cmd) (s : State) : Host.Outcome State Fault Refusal :=
  .next (s.beginGate c 4 (fun p s o =>
    if dValue c.desc ≠ 0 then s.complete o St.badValue
    else (if s.flag (R.EGRp_GCTL_ARM p) then s.cancelGate p else s).complete o St.ok))

end Sys2Proof.Machine
end

