-- ==== Sys2Proof/Machine/Domains.lean ====
section
/-!
DEFINITION. The switched power domains (R585-R588): requests under the re-enable rule with at most four domains in STARTING, and
their transitions.
-/
namespace Sys2Proof.Machine

/-- The domain exists on the part (R3, R4): a Four and stack B are absent on OB3200-HA where their blocks are. -/
def State.pdExists (s : State) (n : Nat) : Bool :=
  decide (n < 72) && !(decide (s.part = .ha) && (decide (18 ≤ n ∧ n ≤ 35) || decide (n = 45)))

/-- The domain is ON. -/
def State.pdOn (s : State) (n : Nat) : Bool := decide (s.get (R.CLKPWR_PDn_STATE n) = 2)

/-- Domains in STARTING. -/
def State.pdStarting (s : State) : Nat := ((List.range 72).filter (fun n => decide (s.get (R.CLKPWR_PDn_STATE n) = 1))).length

/-- An OFF domain is enabled: it enters STARTING, or waits in OFF with ENABLE_PENDING while four others are there (R586). -/
def State.pdStart (s : State) (n : Nat) : State :=
  if s.pdStarting < 4 then (s.set (R.CLKPWR_PDn_STATE n) 1).set (R.CLKPWR_PDn_PEND n) 0 else s.set (R.CLKPWR_PDn_PEND n) 1

/-- A request on a domain's record (R586, R590). A disable removes the enable that waits in OFF. -/
def State.pdRequest (s : State) (n : Nat) (enable : Bool) : State :=
  if ¬ s.pdExists n then s else
  if s.get (R.CLKPWR_PDn_STATE n) = 0 then (if enable then s.pdStart n else s.set (R.CLKPWR_PDn_PEND n) 0)
  else (s.request 7 n enable).1

/-- One of the four has left STARTING: a domain that waits takes its place. The order of those that wait is free. -/
def State.pdNext (s : State) : State :=
  let w := (List.range 72).filter (fun n => decide (s.get (R.CLKPWR_PDn_STATE n) = 0) && decide (s.get (R.CLKPWR_PDn_PEND n) = 1))
  if w = [] then s else
  let (d, s) := s.draw 7
  s.pdStart ((w[d % w.length]?).getD 0)

/-- A write of CLKPWR_PDn (R587): a domain that follows its lanes, and PD_HOST, take no request. -/
def State.pdWrite (s : State) (n : Nat) (d : Word) : State :=
  let q := wordGet d 4 2
  if q ≠ 1 ∧ q ≠ 2 then s else
  if (46 ≤ n ∧ n ≤ 61) ∨ n = 66 ∨ ¬ s.pdExists n then s.cfgReport (A.CLKPWR_PDn n)
  else s.pdRequest n (decide (q = 1))

/-- PD_ENABLE_REQ (R586, R587). -/
def execPdEnableReq (w : Who) (n : Fin 72) (d : Word) (s : State) : Host.Outcome State Fault Refusal :=
  .next (if wordGet d 4 2 = 1 then s.ownWrite w (A.CLKPWR_PDn n) d (fun s => s.pdWrite n d) else s)

/-- PD_DISABLE_REQ (R586, R587). -/
def execPdDisableReq (w : Who) (n : Fin 72) (d : Word) (s : State) : Host.Outcome State Fault Refusal :=
  .next (if wordGet d 4 2 = 2 then s.ownWrite w (A.CLKPWR_PDn n) d (fun s => s.pdWrite n d) else s)

/-- PD_ON (R586, R588, R591): the domain's registers hold their reset values and its arrays no valid data. DEDUCED (log 48): a stack's PHY PLL locks
when its domain is powered. -/
def execPdOn (n : Fin 72) (s : State) : Host.Outcome State Fault Refusal :=
  .next (if s.get (R.CLKPWR_PDn_STATE n) ≠ 1 then s else
    let s := if n.val = 44 ∨ n.val = 45 then s.set (R.CEL_STAT_PLL_LOCK (n - 44)) 1 else s
    (s.reachOn 7 n).pdNext)

/-- PD_OFF (R588, R591): what the domain holds is lost, and a pending enable begins under the limit of R586. -/
def execPdOff (n : Fin 72) (s : State) : Host.Outcome State Fault Refusal :=
  .next (if s.get (R.CLKPWR_PDn_STATE n) ≠ 3 then s else
    let again := s.get (R.CLKPWR_PDn_PEND n) = 1
    let s := ((s.pdLose n).set (R.CLKPWR_PDn_STATE n) 0).set (R.CLKPWR_PDn_PEND n) 0
    if again then s.pdStart n else s)

end Sys2Proof.Machine
end

