-- ==== Sys2Proof/Machine/Lanes.lean ====
section
/-!
DEFINITION. The serial lanes (R367-R397): the lane record, negotiation and training, block lock, detectors, doze, equalisation and
test patterns.
-/
namespace Sys2Proof.Machine

/-! ## Quads and ports -/

/-- The quad of a media lane runs QMODE 1 (R368). -/
def State.quad1 (s : State) (l : Nat) : Bool := decide (l < 64) && s.flag (R.LANEl_QMODE_QMODE (l / 4 * 4))

/-- The lane whose fields count for a lane (R369). -/
def State.leadLane (s : State) (l : Nat) : Nat := if s.quad1 l then l / 4 * 4 else l

/-- The lanes that a command on a lane acts on (R393). -/
def State.laneGroup (s : State) (l : Nat) : List Nat := if s.quad1 l then (List.range 4).map (fun i => l / 4 * 4 + i) else [l]

/-- The lane is powered and sends or is about to. -/
def State.laneUp (s : State) (l : Nat) : Bool :=
  decide (s.get (R.LANEl_STATE_STATE l) = 1) || decide (s.get (R.LANEl_STATE_STATE l) = 2)

/-- RAW66 (R378, R382). -/
def State.raw66 (s : State) (l : Nat) : Bool := decide (s.get (R.LANEl_CFG_BL_MODE l) = 2)

/-- The CDR is on: the lane is powered and its receiver is not in doze (R384, R387). -/
def State.cdrOn (s : State) (l : Nat) : Bool := s.laneUp l && decide (s.get (R.LANEl_DOZE_RX_PWR l) ≠ 2)

/-- A flow uses a media port. -/
def Flow.onPort (f : Flow) (p : Nat) : Bool := decide (f.portA = p) || decide (f.portB = p)

/-- A stream or a subscriber's service whose STATE satisfies `st` uses a media port (R353, R389). -/
def State.portUsed (s : State) (p : Nat) (st : Nat → Bool) : Bool :=
  s.streams.any (fun e => st (s.get (R.STRMn_STATE_STATE e.1)) &&
    (match e.2.p.typ with
     | 1 => e.2.p.inFlow.onPort p || e.2.p.regs.any (fun r => r.flow.onPort p)
     | 3 => false
     | 0 | _ => e.2.p.inFlow.onPort p || e.2.p.outFlow.onPort p)) ||
  s.feeds.any (fun e => match e.2.stream with
    | some n => st (s.get (R.STRMn_STATE_STATE n)) && e.2.p.flow.onPort p
    | none => false) ||
  s.subs.any (fun e => match e.2 with
    | some b => st (s.get (R.EGR_SUBs_STATE_STATE e.1)) &&
        (decide (s.get (R.EGR_SVCs_v_CFG_PORT_A e.1 b.svc) = p) || decide (s.get (R.EGR_SVCs_v_CFG_PORT_B e.1 b.svc) = p))
    | none => false)

/-- A busy lane (R389). -/
def State.laneBusy (s : State) (l : Nat) : Bool := decide (64 ≤ l) || s.portUsed (s.leadLane l) (fun st => st != 0)

/-! ## Link and reports -/

/-- LINK of a lane's port follows the block lock of its lanes; its change is the port's event (R382, R569). DEDUCED (log 84): the spec gives
LINK no other condition. -/
def State.linkSync (s : State) (l : Nat) : State :=
  let g := s.laneGroup l
  let up := g.all (fun i => s.laneUp i && s.flag (R.LANEl_STAT_BLOCK_LOCK i) && !s.raw66 i)
  if g.all (fun i => s.flag (R.LANEl_STAT_LINK i) == up) then s else
  let s := g.foldl (fun s i => s.set (R.LANEl_STAT_LINK i) (b2n up)) s
  if l < 64 then s.evcAssert (192 + s.leadLane l)
  else if l = 64 then s.set R.HOST_STAT_CP0_LINK (b2n up) else s.set R.HOST_STAT_CP1_LINK (b2n up)

/-- Block lock is cleared. -/
def State.dropLock (s : State) (l : Nat) : State :=
  (({ s with blFrom := tabSet none s.blFrom l (some s.cyc) }.set (R.LANEl_STAT_BLOCK_LOCK l) 0).set (R.LANEl_BL_STAT_VHC_VALID l) 0).linkSync l

/-- A report of R385 is made for the lane. -/
def State.laneReports (s : State) (l : Nat) : Bool :=
  decide (s.get (R.LANEl_STATE_STATE l) ≠ 0) && !s.raw66 l && decide (s.get (R.LANEl_DOZE_RX_PWR l) ≠ 2)

/-- A report of R385: the status bit where the condition has one, the message, and the lane's event source. -/
def State.laneReport (s : State) (l : Nat) (seen : Option RF) (kind : Nat) : State :=
  if ¬ s.laneReports l then s else
  let s := match seen with
    | some f => s.raise f
    | none => s
  (s.send (0x200 + l) kind).evcAssert (256 + l)

/-- Block lock of a port's lanes is cleared; where it falls in AUTO it is counted, and reported once for the port (R385). -/
def State.loseLock (s : State) (ls : List Nat) : State :=
  let fell := ls.filter (fun l => s.flag (R.LANEl_STAT_BLOCK_LOCK l) && decide (s.get (R.LANEl_CFG_BL_MODE l) = 0))
  let s := ls.foldl (fun s l => s.dropLock l) s
  let s := fell.foldl (fun s l => s.bump (R.LANEl_BL_LOSSES_COUNT l)) s
  match fell with
  | [] => s
  | l :: _ => s.laneReport (s.leadLane l) (some (R.LANEl_STAT_BL_LOST (s.leadLane l))) 0x22

/-! ## Equalisation (R373-R377) -/

/-- BUSY of a lane follows training and ONCE adaptation. -/
def State.eqBusy (s : State) (l : Nat) : State := s.set (R.LANEl_EQ_STAT_BUSY l) (b2n (decide (l ∈ s.training ∨ l ∈ s.adapting)))

/-- A CDR lock or a RESTART begins the one adaptation of ONCE. -/
def State.adaptStart (s : State) (l : Nat) : State :=
  if s.get (R.LANEl_RXEQ_ADAPT l) = 1 ∧ l ∉ s.adapting then ({ s with adapting := l :: s.adapting } : State).eqBusy l else s

/-- An adaptation of a lane ends. -/
def State.adaptEnd (s : State) (l : Nat) : State := ({ s with adapting := s.adapting.filter (fun i => i != l) } : State).eqBusy l

/-- Training of a lane ends. -/
def State.trainEnd (s : State) (l : Nat) : State := ({ s with training := s.training.filter (fun i => i != l) } : State).eqBusy l

/-- A mode of receive adaptation. In FROZEN the values hold. -/
def State.setAdapt (s : State) (l m : Nat) : State :=
  let s := s.set (R.LANEl_RXEQ_ADAPT l) m
  if m = 1 then s else s.adaptEnd l

/-- The transmit taps. -/
def State.setTaps (s : State) (l pre main post : Nat) : State :=
  ((s.set (R.LANEl_TXEQ_PRE l) pre).set (R.LANEl_TXEQ_MAIN l) main).set (R.LANEl_TXEQ_POST l) post

/-- A write of LANEl_RXEQ: RESTART in CONT only continues, and in FROZEN the setting of CTLE that it carries is applied. -/
def State.rxeqWrite (s : State) (l : Nat) (d : Word) : State :=
  let s := (s.plainWrite (A.LANEl_RXEQ l) d).setAdapt l (wordGet d 0 2)
  let s := if wordGet d 0 2 = 2 then s.set (R.LANEl_EQ_STAT_CTLE_ACT l) (s.get (R.LANEl_RXEQ_CTLE l)) else s
  if wordGet d 2 1 = 1 ∧ s.cdrOn l then s.adaptStart l else s

/-- A write of LANEl_TXEQ while the lane is BUSY is ignored and reported (R376). DEDUCED (log 85): of whichever owner, as training alone sets
the taps while it runs (R373). -/
def State.txeqWrite (s : State) (l : Nat) (d : Word) : State :=
  if s.flag (R.LANEl_EQ_STAT_BUSY l) then s.cfgReport (A.LANEl_TXEQ l) else s.plainWrite (A.LANEl_TXEQ l) d

/-- The firmware's settings at the basic level (R376). -/
def State.laneDefaults (s : State) (l : Nat) : State :=
  let pmd := s.get (R.LANEl_CFG_PMD (s.leadLane l))
  if s.expert 7 ∨ l ∈ s.laneSet ∨ (pmd ≠ 1 ∧ pmd ≠ 4) then s else (s.setTaps l 0 32 0).setAdapt l 0

/-! ## Negotiation (R371, R372) -/

/-- The lane negotiates: AN_EN on PMD 0, 2 or 3 (R371, R372). -/
def State.negotiates (s : State) (l : Nat) : Bool :=
  let i := s.leadLane l
  s.flag (R.LANEl_CFG_AN_EN i) && decide (s.get (R.LANEl_CFG_PMD i) ∈ [0, 2, 3])

/-- The FEC of a lane without negotiation: its FEC field, 3 meaning none on PMD 0 (R372) and, DEDUCED (log 86), the one FEC of PMD 2 and 3. -/
def fecPlain (pmd fec : Nat) : Nat := if fec = 3 then (if pmd = 0 then 0 else 2) else fec

/-- The FECs that a lane advertises (R369, R371). -/
def fecOffer (pmd fec : Nat) : List Nat := if fec ≠ 3 then [fec] else if pmd = 0 then [0, 1, 2] else [2]

/-- The technologies that a PMD advertises (R371). -/
def techOffer (pmd : Nat) : List LinkTech :=
  match pmd with
  | 0 => [.kr25, .krS25, .cr25, .crS25]
  | 2 => [.cr4]
  | 3 => [.kr4]
  | _ => []

/-- Negotiation and training start afresh on a port's lanes, with what it advertises; a lane that does not negotiate uses its FEC field. -/
def State.negStart (s : State) (l : Nat) : State :=
  let i := s.leadLane l
  let s := (s.laneGroup l).foldl (fun s j =>
    ((s.set (R.LANEl_STAT_AN_DONE j) 0).set (R.LANEl_STAT_TRAIN_DONE j) 0).trainEnd j) s
  let s := s.loseLock (s.laneGroup l)
  let pmd := s.get (R.LANEl_CFG_PMD i)
  if s.negotiates l then s.emit (.advert i (techOffer pmd) (fecOffer pmd (s.get (R.LANEl_CFG_FEC i)))) else
  (s.laneGroup l).foldl (fun s j => s.set (R.LANEl_STAT_FEC_ACT j) (fecPlain (s.get (R.LANEl_CFG_PMD i)) (s.get (R.LANEl_CFG_FEC i)))) s

/-- The Tally's recovery of a lane (R560): a lane that is ON and neither in RAW66 nor in a loopback restarts. -/
def State.laneRestart (s : State) (l : Nat) : State :=
  if s.get (R.LANEl_STATE_STATE l) ≠ 2 ∨ s.raw66 l ∨ s.get (R.LANEl_CFG_LB l) ≠ 0 ∨ ¬ s.negotiates l then s else s.negStart l

/-- AN_DONE (R371, R372): negotiation resolves one of the advertised FECs, or none on PMD 0, and training starts; or on PMD 0 parallel detection links
without training. DEDUCED (log 86): where the partner lacks the one FEC that PMD 0 advertises, none is in use. -/
def execAnDone (l : Fin 66) (fec : Fin 3) (par : Bool) (s : State) : Host.Outcome State Fault Refusal :=
  let i := s.leadLane l
  let pmd := s.get (R.LANEl_CFG_PMD i)
  let f := s.get (R.LANEl_CFG_FEC i)
  .next (if s.get (R.LANEl_STATE_STATE l) ≠ 2 ∨ i ≠ l.val ∨ ¬ s.negotiates l ∨ s.flag (R.LANEl_STAT_AN_DONE l) ∨ (par ∧ pmd ≠ 0) ∨
      (¬ par ∧ fec.val ∉ fecOffer pmd f ∧ (pmd ≠ 0 ∨ fec.val ≠ 0)) then s else
    (s.laneGroup l).foldl (fun s j =>
      let s := (s.set (R.LANEl_STAT_AN_DONE j) 1).set (R.LANEl_STAT_FEC_ACT j) (if par then fecPlain 0 f else fec)
      if par then s else ({ s with training := j :: s.training } : State).eqBusy j) s)

/-- TRAIN_DONE (R373): the taps that training reached stay. -/
def execTrainDone (l : Fin 66) (pre main post : Nat) (s : State) : Host.Outcome State Fault Refusal :=
  .next (if l.val ∉ s.training ∨ tapsLegal pre main post = false then s else
    ((s.trainEnd l).setTaps l pre main post).set (R.LANEl_STAT_TRAIN_DONE l) 1)

/-! ## The lane record (R392-R394) -/

/-- A lane in STARTING powers its quad's domain; with all four OFF the domain is switched off. -/
def State.quadPower (s : State) (l : Nat) : State :=
  if 64 ≤ l then s else
  let st := (List.range 4).map (fun i => s.get (R.LANEl_STATE_STATE (l / 4 * 4 + i)))
  if st.any (fun x => decide (x ≠ 0)) then s.pdRequest (46 + l / 4) true else s.pdRequest (46 + l / 4) false

/-- A request on a lane's record by a management write; lanes 64 and 65 ignore REQ (R394). -/
def State.laneRequest (s : State) (l : Nat) (enable : Bool) : State :=
  ((s.laneGroup l).foldl (fun s i => (s.request 4 i enable).1) s).quadPower l

/-- A write of LANEl_STATE. -/
def State.laneStateWrite (s : State) (l : Nat) (d : Word) : State :=
  let q := wordGet d 4 2
  if q = 0 then s else
  if 64 ≤ l then s.cfgReport (A.LANEl_STATE l) else s.laneRequest l (decide (q = 1))

/-- A lane's request by a command: the named lane's record carries the completion (R393). -/
def State.laneCmd (s : State) (o : Owed) (l : Nat) (enable : Bool) : State :=
  let s := (s.laneGroup l).foldl (fun s i => if i = l then s else (s.request 4 i enable).1) s
  (s.requestCmd o 4 l enable).quadPower l

/-- LANE_ENABLE_REQ. -/
def execLaneEnableReq (w : Who) (l : Fin 66) (d : Word) (s : State) : Host.Outcome State Fault Refusal :=
  .next (if wordGet d 4 2 = 1 then s.ownWrite w (A.LANEl_STATE l) d (fun s => s.laneStateWrite l d) else s)

/-- LANE_DISABLE_REQ. -/
def execLaneDisableReq (w : Who) (l : Fin 66) (d : Word) (s : State) : Host.Outcome State Fault Refusal :=
  .next (if wordGet d 4 2 = 2 then s.ownWrite w (A.LANEl_STATE l) d (fun s => s.laneStateWrite l d) else s)

/-- LANE_ON (R392): with its domain ON, the lane sends, and its negotiation starts. DEDUCED (log 87): the boot ROM starts lanes 64 and 65 itself
(R394, R595), so they come ON from OFF. -/
def execLaneOn (l : Fin 66) (s : State) : Host.Outcome State Fault Refusal :=
  let s := if 64 ≤ l.val ∧ s.get (R.LANEl_STATE_STATE l) = 0 ∧ s.rst = .run then s.set (R.LANEl_STATE_STATE l) 1 else s
  .next (if s.get (R.LANEl_STATE_STATE l) ≠ 1 ∨ (l.val < 64 ∧ ¬ s.pdOn (46 + l / 4)) then s else
    let s := (s.reachOn 4 l).laneDefaults l
    if s.get (R.LANEl_STATE_STATE l) = 2 then s.negStart l else s)

/-- What a lane that is OFF shows: its live fields at their reset values (R391, R616), the doze of both directions ended. -/
def State.laneDark (s : State) (l : Nat) : State :=
  let s := (s.trainEnd l).adaptEnd l
  let s := (((s.set (R.LANEl_STAT_LOS l) 1).set (R.LANEl_STAT_LOL l) 1).set (R.LANEl_STAT_AN_DONE l) 0).set (R.LANEl_STAT_TRAIN_DONE l) 0
  let s := (((s.dropLock l).set (R.LANEl_STAT_FEC_ACT l) 0).set (R.LANEl_EQ_STAT_CTLE_ACT l) 8).setReg (A.LANEl_BL_STAT l) 0
  let s := (s.set (R.LANEl_PRBS_STAT_CHK_LOCK l) 0).set (R.LANEl_DOZE_TX_PWR l) 0
  ((s.set (R.LANEl_DOZE_RX_PWR l) 0).set (R.LANEl_DOZE_TX_PEND l) 0).set (R.LANEl_DOZE_RX_PEND l) 0

/-- LANE_OFF (R391, R392). -/
def execLaneOff (l : Fin 66) (s : State) : Host.Outcome State Fault Refusal :=
  .next (if s.get (R.LANEl_STATE_STATE l) ≠ 3 then s else ((s.laneDark l).reachOff 4 l).quadPower l)

/-! ## Configuration (R368, R369, R378, R381, R389, R394, R396) -/

/-- A write of LANEl_QMODE: a change while a lane of the quad is not OFF is ignored and reported. -/
def State.qmodeWrite (s : State) (l : Nat) (d : Word) : State :=
  if wordGet d 0 1 ≠ s.get (R.LANEl_QMODE_QMODE l) ∧
      (List.range 4).any (fun i => decide (s.get (R.LANEl_STATE_STATE (l + i)) ≠ 0)) = true
  then s.cfgReport (A.LANEl_QMODE l) else s.plainWrite (A.LANEl_QMODE l) d

/-- The FEC values that a PMD allows in a QMODE (R369). -/
def fecAllowed (one : Bool) (pmd : Nat) : List Nat :=
  match one, pmd with
  | false, 0 => [0, 1, 2, 3]
  | false, 1 => [0, 1, 2]
  | true, 2 => [2, 3]
  | true, 3 => [2, 3]
  | true, 4 => [0, 2]
  | _, _ => []

/-- The word combines PMD, QMODE and FEC outside R369, or selects ASSIST or MANUAL where R378 does not allow it. Of lanes whose PMD
and FEC do not count only the latter is a reserved encoding. DEDUCED (log 86): of an OFF lane, and of a control port's, whose negotiation a write restarts, the FEC
in use is the one the word selects. -/
def State.cfgReserved (s : State) (l : Nat) (d : Word) : Bool :=
  let one := s.quad1 l
  let off := s.get (R.LANEl_STATE_STATE l) = 0
  let fec := wordGet d 3 2
  let used := if off ∨ 64 ≤ l then (if fec = 3 then 0 else fec) else s.get (R.LANEl_STAT_FEC_ACT l)
  (decide (s.leadLane l = l) && !decide (fec ∈ fecAllowed one (wordGet d 0 3))) ||
  (decide (wordGet d 8 2 ≠ 0) && (one || decide (used ≠ 0)))

/-- What the transmitter of a lane in RAW66 sends: the generator's pattern, or zero words (R382, R395). -/
def State.sendPattern (s : State) (l : Nat) : State :=
  if s.raw66 l ∧ s.get (R.LANEl_STATE_STATE l) = 2 ∧ s.get (R.LANEl_DOZE_TX_PWR l) < 2 then s.emit (.pattern l (s.get (R.LANEl_PRBS_CTL_GEN l))) else s

/-- BL_MODE has changed from `old`: into RAW66, where the generator sends, or out of it, where the checker is no more (R381, R382, R395). -/
def State.rawSwitch (s : State) (l old : Nat) : State :=
  if s.raw66 l then s.sendPattern l else if old = 2 then s.set (R.LANEl_PRBS_STAT_CHK_LOCK l) 0 else s

/-- A write of LANEl_CFG, field by field: PMD, FEC, AN_EN and polarity only of an OFF lane or of lanes 64 and 65, where it restarts
negotiation; RAW66 and loopback not of a busy lane; a changed BL_MODE or LB clears BLOCK_LOCK. What is ignored is reported once. -/
def State.laneCfgWrite (s : State) (l : Nat) (d : Word) : State :=
  if s.cfgReserved l d then s.cfgReport (A.LANEl_CFG l) else
  let old := s.reg (A.LANEl_CFG l)
  let free := s.get (R.LANEl_STATE_STATE l) = 0 ∨ 64 ≤ l
  let fixed := ¬ free ∧ wordGet d 0 8 ≠ wordGet old 0 8
  let blNew := wordGet d 8 2
  let lbNew := wordGet d 10 2
  let busy := s.laneBusy l
  let noRaw := busy ∧ blNew = 2 ∧ wordGet old 8 2 ≠ 2
  let noLb := busy ∧ lbNew ≠ 0 ∧ lbNew ≠ wordGet old 10 2
  let bl := if noRaw then wordGet old 8 2 else blNew
  let lb := if noLb then wordGet old 10 2 else lbNew
  let s := s.setReg (A.LANEl_CFG l) (wordSet (wordSet (wordSet old 10 2 lb) 8 2 bl) 0 8 (wordGet (if free then d else old) 0 8))
  let s := if bl ≠ wordGet old 8 2 then (s.dropLock l).rawSwitch l (wordGet old 8 2) else if lb ≠ wordGet old 10 2 then s.loseLock [l] else s
  let s := if 64 ≤ l ∧ s.get (R.LANEl_STATE_STATE l) = 2 then (s.negStart l).laneDefaults l else s
  if fixed ∨ noRaw ∨ noLb then s.cfgReport (A.LANEl_CFG l) else s

/-- QMODE_WRITE (R368). -/
def execQmodeWrite (w : Who) (l : Fin 66) (d : Word) (s : State) : Host.Outcome State Fault Refusal :=
  .next (s.ownWrite w (A.LANEl_QMODE l) d (fun s => s.qmodeWrite l d))

/-- LANE_CFG_WRITE (R394). -/
def execLaneCfgWrite (w : Who) (l : Fin 66) (d : Word) (s : State) : Host.Outcome State Fault Refusal :=
  .next (s.ownWrite w (A.LANEl_CFG l) d (fun s => s.laneCfgWrite l d))

/-- BL_MODE_WRITE (R381): the write of LANEl_CFG that carries the mode. -/
def execBlModeWrite (w : Who) (l : Fin 66) (d : Word) (s : State) : Host.Outcome State Fault Refusal :=
  .next (s.ownWrite w (A.LANEl_CFG l) d (fun s => s.laneCfgWrite l d))

/-- LOOPBACK_SET (R396): the write of LANEl_CFG that carries the loopback. -/
def execLoopbackSet (w : Who) (l : Fin 66) (d : Word) (s : State) : Host.Outcome State Fault Refusal :=
  .next (s.ownWrite w (A.LANEl_CFG l) d (fun s => s.laneCfgWrite l d))

/-! ## Block lock (R379, R380) -/

/-- BLOCK_LOCK (R379): 64 consecutive valid headers, after the slips that AUTO made. -/
def execBlockLock (l : Fin 66) (slips : Nat) (s : State) : Host.Outcome State Fault Refusal :=
  .next (if ¬ s.cdrOn l ∨ s.raw66 l ∨ s.flag (R.LANEl_STAT_BLOCK_LOCK l) then s else
    let s := if s.get (R.LANEl_CFG_BL_MODE l) = 0 then
      s.set (R.LANEl_BL_STAT_OFFSET l) ((s.get (R.LANEl_BL_STAT_OFFSET l) + slips) % 66) else s
    (s.set (R.LANEl_STAT_BLOCK_LOCK l) 1).linkSync l)

/-- LANE_BL_LOSS (R379, R385): 16 invalid headers in one window clear BLOCK_LOCK, which is reported in AUTO. -/
def execLaneBlLoss (l : Fin 66) (s : State) : Host.Outcome State Fault Refusal :=
  .next (if ¬ s.cdrOn l ∨ s.raw66 l ∨ ¬ s.flag (R.LANEl_STAT_BLOCK_LOCK l) then s else
    let auto := s.get (R.LANEl_CFG_BL_MODE l) = 0
    let i := s.leadLane l
    let s := (s.set (R.LANEl_STAT_BLOCK_LOCK l) 0).linkSync l
    if auto then (s.bump (R.LANEl_BL_LOSSES_COUNT l)).laneReport i (some (R.LANEl_STAT_BL_LOST i)) 0x22 else s)

/-- A write of LANEl_BL_CTL: SLIP in AUTO is ignored and reported, else the alignment moves by one bit and the window restarts. -/
def State.slipWrite (s : State) (l : Nat) (d : Word) : State :=
  if wordGet d 0 1 = 0 then s else
  if s.get (R.LANEl_CFG_BL_MODE l) = 0 then s.cfgReport (A.LANEl_BL_CTL l) else
  if ¬ s.laneUp l then s else
  let s : State := { s with blFrom := tabSet none s.blFrom l (some s.cyc) }
  (s.set (R.LANEl_BL_STAT_OFFSET l) ((s.get (R.LANEl_BL_STAT_OFFSET l) + 1) % 66)).set (R.LANEl_BL_STAT_VHC_VALID l) 0

/-- SLIP (R380). -/
def execSlip (w : Who) (l : Fin 66) (d : Word) (s : State) : Host.Outcome State Fault Refusal :=
  .next (if wordGet d 0 1 = 1 then s.ownWrite w (A.LANEl_BL_CTL l) d (fun s => s.slipWrite l d) else s)

/-- A read of LANEl_BL_STAT: once a window of 163.84 ns (82 cycles) has passed since its restart, VHC is valid and holds what the line
gave: a free number, above 48 while BLOCK_LOCK stands (R379). -/
def State.readBlStat (s : State) (l : Nat) : State × Word :=
  let old := match tabGet none s.blFrom l with
    | some c => decide (s.cyc < c + 82)
    | none => false
  if ¬ s.cdrOn l ∨ old = true then (s, s.reg (A.LANEl_BL_STAT l)) else
  let (d, s) := s.draw 7
  let v := if s.flag (R.LANEl_STAT_BLOCK_LOCK l) then 49 + d % 16 else d % 65
  let s := (s.set (R.LANEl_BL_STAT_VHC l) v).set (R.LANEl_BL_STAT_VHC_VALID l) 1
  (s, s.reg (A.LANEl_BL_STAT l))

/-! ## Detectors (R383-R385, R390) -/

/-- A wake or doze request of one direction under the re-enable rule (R388): AWAKE stands for ON and DOZE for OFF. -/
def State.dozeRequest (s : State) (l : Nat) (rx wake : Bool) : State :=
  let u := urec (if rx then 9 else 8) l
  match reqRes ((s.get u.state + 2) % 4) (s.get u.pend) wake with
  | .began => s.set u.state (if wake then 3 else 1)
  | .cancelled => s.set u.pend 0
  | .latched => s.set u.pend (if wake then 1 else 2)
  | .already => s
  | .moving => s

/-- LANE_LOS (R383, R385). -/
def execLaneLos (l : Fin 66) (s : State) : Host.Outcome State Fault Refusal :=
  .next (if ¬ s.laneUp l ∨ s.flag (R.LANEl_STAT_LOS l) then s else
    (s.set (R.LANEl_STAT_LOS l) 1).laneReport l (some (R.LANEl_STAT_LOS_SEEN l)) 0x20)

/-- LOS_DEASSERT (R383, R390): a receiver in doze may wake by itself. -/
def execLosDeassert (l : Fin 66) (s : State) : Host.Outcome State Fault Refusal :=
  .next (if ¬ s.laneUp l ∨ ¬ s.flag (R.LANEl_STAT_LOS l) then s else
    let s := s.set (R.LANEl_STAT_LOS l) 0
    if s.flag (R.LANEl_DOZE_RX_WAKE_LOS l) ∧ s.get (R.LANEl_DOZE_RX_PWR l) = 2 then s.dozeRequest l true true else s)

/-- LANE_LOL (R384, R385). -/
def execLaneLol (l : Fin 66) (s : State) : Host.Outcome State Fault Refusal :=
  .next (if ¬ s.cdrOn l ∨ s.flag (R.LANEl_STAT_LOL l) then s else
    (s.set (R.LANEl_STAT_LOL l) 1).laneReport l (some (R.LANEl_STAT_LOL_SEEN l)) 0x21)

/-- LOL_DEASSERT (R375, R384): the CDR locks, and ONCE adapts. -/
def execLolDeassert (l : Fin 66) (s : State) : Host.Outcome State Fault Refusal :=
  .next (if ¬ s.cdrOn l ∨ ¬ s.flag (R.LANEl_STAT_LOL l) then s else (s.set (R.LANEl_STAT_LOL l) 0).adaptStart l)

/-- FEC_UCW (R385, R397): a 1 ms window of a lane with an FEC in use ends with its codewords counted. -/
def execFecUcw (l : Fin 66) (corr uncorr : Nat) (s : State) : Host.Outcome State Fault Refusal :=
  .next (if ¬ s.cdrOn l ∨ s.raw66 l ∨ s.get (R.LANEl_STAT_FEC_ACT l) = 0 ∨ s.leadLane l ≠ l.val then s else
    let s := (s.addSat (R.LANEl_FEC_CORR_COUNT l) corr).addSat (R.LANEl_FEC_UNCORR_COUNT l) uncorr
    if uncorr = 0 then s else s.laneReport l none 0x23)

/-! ## Doze (R387-R391) -/

/-- A write of LANEl_DOZE. A doze request of a busy lane, or of a lane that is not ON, is ignored and reported. DESIGN CHOICE (log 88): where a
word asks for both, the doze comes first. -/
def State.dozeWrite (s : State) (l : Nat) (d : Word) : State :=
  let on := s.get (R.LANEl_STATE_STATE l) = 2
  let stop := s.laneBusy l = true ∨ ¬ on
  let one := fun (s : State) (rx : Bool) (b : Nat) =>
    let s := if wordGet d b 1 = 1 ∧ ¬ stop then s.dozeRequest l rx false else s
    if wordGet d (b + 1) 1 = 1 ∧ on then s.dozeRequest l rx true else s
  let s := s.plainWrite (A.LANEl_DOZE l) d
  let s := one (one s false 0) true 2
  if stop ∧ (wordGet d 0 1 = 1 ∨ wordGet d 2 1 = 1) then s.cfgReport (A.LANEl_DOZE l) else s

/-- TX_DOZE (R388). -/
def execTxDoze (w : Who) (l : Fin 66) (d : Word) (s : State) : Host.Outcome State Fault Refusal :=
  .next (if wordGet d 0 1 = 1 then s.ownWrite w (A.LANEl_DOZE l) d (fun s => s.dozeWrite l d) else s)

/-- TX_WAKE (R388). -/
def execTxWake (w : Who) (l : Fin 66) (d : Word) (s : State) : Host.Outcome State Fault Refusal :=
  .next (if wordGet d 1 1 = 1 then s.ownWrite w (A.LANEl_DOZE l) d (fun s => s.dozeWrite l d) else s)

/-- RX_DOZE (R388). -/
def execRxDoze (w : Who) (l : Fin 66) (d : Word) (s : State) : Host.Outcome State Fault Refusal :=
  .next (if wordGet d 2 1 = 1 then s.ownWrite w (A.LANEl_DOZE l) d (fun s => s.dozeWrite l d) else s)

/-- RX_WAKE (R388). -/
def execRxWake (w : Who) (l : Fin 66) (d : Word) (s : State) : Host.Outcome State Fault Refusal :=
  .next (if wordGet d 3 1 = 1 then s.ownWrite w (A.LANEl_DOZE l) d (fun s => s.dozeWrite l d) else s)

/-- DOZE_TRANSITION_DONE (R384, R387, R388, R591): a direction reaches DOZE or AWAKE, and its pending request begins. In doze the CDR
is off, so LOL reads 1. -/
def execDozeTransitionDone (l : Fin 66) (rx : Bool) (s : State) : Host.Outcome State Fault Refusal :=
  let u := urec (if rx then 9 else 8) l
  .next (match s.get u.state with
    | 1 =>
      let s := s.set u.state 2
      let s := if rx then (s.set (R.LANEl_STAT_LOL l) 1).dropLock l else s
      if s.get u.pend = 1 then (s.set u.state 3).set u.pend 0 else s
    | 3 =>
      let s := s.set u.state 0
      if s.get u.pend = 2 then (s.set u.state 1).set u.pend 0 else s
    | _ => s)

/-! ## Equalisation rows -/

/-- TXEQ_WRITE (R374, R376). -/
def execTxeqWrite (w : Who) (l : Fin 66) (d : Word) (s : State) : Host.Outcome State Fault Refusal :=
  .next (s.ownWrite w (A.LANEl_TXEQ l) d (fun s => s.txeqWrite l d))

/-- ADAPT_RESTART (R375). -/
def execAdaptRestart (w : Who) (l : Fin 66) (d : Word) (s : State) : Host.Outcome State Fault Refusal :=
  .next (if wordGet d 2 1 = 1 then s.ownWrite w (A.LANEl_RXEQ l) d (fun s => s.rxeqWrite l d) else s)

/-- ADAPT_DONE (R375): the values of a ONCE adaptation hold. -/
def execAdaptDone (l : Fin 66) (ctle : Fin 16) (s : State) : Host.Outcome State Fault Refusal :=
  .next (if l.val ∉ s.adapting then s else (s.adaptEnd l).set (R.LANEl_EQ_STAT_CTLE_ACT l) ctle)

/-- A read of LANEl_EQ_STAT: in CONT, with the CDR locked, the peaking setting in use is what adaptation makes it, a free value. -/
def State.readEqStat (s : State) (l : Nat) : State × Word :=
  if s.get (R.LANEl_RXEQ_ADAPT l) ≠ 0 ∨ ¬ s.cdrOn l ∨ s.flag (R.LANEl_STAT_LOL l) then (s, s.reg (A.LANEl_EQ_STAT l)) else
  let (d, s) := s.draw 4
  let s := s.set (R.LANEl_EQ_STAT_CTLE_ACT l) d
  (s, s.reg (A.LANEl_EQ_STAT l))

/-- PARAM[15:8] of FUNC 7 is a lane (R377). -/
def laneUnit (u : Nat) : Bool := decide (u ≤ 65)

/-- LANE_TAPS_SET (R377). -/
def execLaneTapsSet (c : Cmd) (s : State) : Host.Outcome State Fault Refusal :=
  let l := dUnit8 c.desc
  let v := dValue c.desc
  let pre := v % 2 ^ 4
  let main := v / 2 ^ 8 % 2 ^ 6
  let post := v / 2 ^ 16 % 2 ^ 5
  .next (s.beginFunc c 7 1 laneUnit (fun s o =>
    if v ≠ pre + main * 2 ^ 8 + post * 2 ^ 16 ∨ tapsLegal pre main post = false then s.complete o St.badValue else
    if l ∈ s.training then s.complete o St.busy
    else (({ s with laneSet := (l :: s.laneSet).eraseDups } : State).setTaps l pre main post).complete o St.ok))

/-- LANE_ADAPT_SET (R377). -/
def execLaneAdaptSet (c : Cmd) (s : State) : Host.Outcome State Fault Refusal :=
  let l := dUnit8 c.desc
  .next (s.beginFunc c 7 2 laneUnit (fun s o =>
    if 2 < dValue c.desc then s.complete o St.badValue
    else (({ s with laneSet := (l :: s.laneSet).eraseDups } : State).setAdapt l (dValue c.desc)).complete o St.ok))

/-- LANE_ADAPT_RESTART (R377). -/
def execLaneAdaptRestart (c : Cmd) (s : State) : Host.Outcome State Fault Refusal :=
  let l := dUnit8 c.desc
  .next (s.beginFunc c 7 3 laneUnit (fun s o =>
    if dValue c.desc ≠ 0 then s.complete o St.badValue
    else (if s.cdrOn l then s.adaptStart l else s).complete o St.ok))

/-! ## PRBS (R382, R395) -/

/-- A near-end loopback feeds the lane's checker its own generator. -/
def State.prbsLoop (s : State) (l : Nat) : Bool :=
  (decide (s.get (R.LANEl_CFG_LB l) = 1) || decide (s.get (R.LANEl_CFG_LB l) = 2)) &&
  decide (s.get (R.LANEl_PRBS_CTL_GEN l) = s.get (R.LANEl_PRBS_CTL_CHK l))

/-- A write of LANEl_PRBS_CTL: the checker starts afresh and its counter clears; INJ inverts one transmitted bit, which a near-end
loopback brings to a locked checker. -/
def State.prbsWrite (s : State) (l : Nat) (d : Word) : State :=
  let locked := s.flag (R.LANEl_PRBS_STAT_CHK_LOCK l) ∧ wordGet d 4 3 = s.get (R.LANEl_PRBS_CTL_CHK l) ∧
    wordGet d 0 3 = s.get (R.LANEl_PRBS_CTL_GEN l)
  let s := (s.plainWrite (A.LANEl_PRBS_CTL l) d).set (R.LANEl_PRBS_ERR_COUNT l) 0
  let s := if locked then s else s.set (R.LANEl_PRBS_STAT_CHK_LOCK l) 0
  let s := s.sendPattern l
  if wordGet d 8 1 = 0 ∨ ¬ s.raw66 l ∨ ¬ s.laneUp l ∨ s.get (R.LANEl_PRBS_CTL_GEN l) = 0 then s else
  let s := s.emit (.prbsInv l)
  if s.prbsLoop l ∧ s.flag (R.LANEl_PRBS_STAT_CHK_LOCK l) then s.bump (R.LANEl_PRBS_ERR_COUNT l) else s

/-- PRBS_CTL_WRITE (R395). -/
def execPrbsCtlWrite (w : Who) (l : Fin 66) (d : Word) (s : State) : Host.Outcome State Fault Refusal :=
  .next (s.ownWrite w (A.LANEl_PRBS_CTL l) d (fun s => s.prbsWrite l d))

/-- PRBS_INJ (R395). -/
def execPrbsInj (w : Who) (l : Fin 66) (d : Word) (s : State) : Host.Outcome State Fault Refusal :=
  .next (if wordGet d 8 1 = 1 then s.ownWrite w (A.LANEl_PRBS_CTL l) d (fun s => s.prbsWrite l d) else s)

/-- PRBS_CHK_LOCK (R395). -/
def execPrbsChkLock (l : Fin 66) (s : State) : Host.Outcome State Fault Refusal :=
  .next (if ¬ s.raw66 l ∨ ¬ s.cdrOn l ∨ s.get (R.LANEl_PRBS_CTL_CHK l) = 0 then s else s.set (R.LANEl_PRBS_STAT_CHK_LOCK l) 1)

/-- A read of LANEl_PRBS_ERR: the locked checker of a lane in RAW66 has counted what errors the line brought, a free number. -/
def State.readPrbsErr (s : State) (l : Nat) : State × Word :=
  if ¬ s.flag (R.LANEl_PRBS_STAT_CHK_LOCK l) ∨ ¬ s.raw66 l ∨ ¬ s.cdrOn l ∨ s.prbsLoop l then (s, s.reg (A.LANEl_PRBS_ERR l)) else
  let (d, s) := s.draw 32
  let s := s.addSat (R.LANEl_PRBS_ERR_COUNT l) d
  (s, s.reg (A.LANEl_PRBS_ERR l))

end Sys2Proof.Machine
end

