-- ==== Sys2Proof/Machine/Hoists.lean ====
section
/-!
DEFINITION. The Hoists' registers and channel records (R459-R463, R484, R486, R487), the stop of a Hoist and the halt of a channel
(R470, R480-R483).
-/
namespace Sys2Proof.Machine

/-- Channel `g = 64h + c` beside its registers. -/
def State.hch (s : State) (g : Nat) : HchS := tabGet {} s.hchs g
def State.setHch (s : State) (g : Nat) (v : HchS) : State := { s with hchs := tabSet {} s.hchs g v }
def State.updHch (s : State) (g : Nat) (f : HchS → HchS) : State := s.setHch g (f (s.hch g))

/-- RUN of a channel. -/
def State.hRun (s : State) (g : Nat) : Bool := s.flag (R.HOISTh_CHc_STAT_RUN (g / 64) (g % 64))

/-- The Hoist is stopped. -/
def State.hStopped (s : State) (h : Nat) : Bool := s.flag (R.HOISTh_STAT_STOPPED h)

/-- RUNNING of a Hoist counts its channels with RUN 1. -/
def State.hRunning (s : State) (h : Nat) : State :=
  s.set (R.HOISTh_STAT_RUNNING h) ((List.range 64).filter (fun c => s.hRun (64 * h + c))).length

/-- BYTES of a channel (R479). -/
def State.hBytes (s : State) (g : Nat) : Nat :=
  s.get (R.HOISTh_CHc_BYTES_L_COUNT (g / 64) (g % 64)) + s.get (R.HOISTh_CHc_BYTES_H_COUNT (g / 64) (g % 64)) * 2 ^ 32

def State.setBytes (s : State) (g n : Nat) : State :=
  (s.set (R.HOISTh_CHc_BYTES_L_COUNT (g / 64) (g % 64)) n).set (R.HOISTh_CHc_BYTES_H_COUNT (g / 64) (g % 64)) (n / 2 ^ 32)

/-- The address of the entry in which the channel works or is halted (R479). -/
def State.hCur (s : State) (g : Nat) : Nat :=
  s.get (R.HOISTh_CHc_CUR_L_ADDR (g / 64) (g % 64)) + s.get (R.HOISTh_CHc_CUR_H_ADDR (g / 64) (g % 64)) % 2 ^ 16 * 2 ^ 32

def State.setCur (s : State) (g a : Nat) : State :=
  (s.set (R.HOISTh_CHc_CUR_L_ADDR (g / 64) (g % 64)) a).set (R.HOISTh_CHc_CUR_H_ADDR (g / 64) (g % 64)) (a / 2 ^ 32 % 2 ^ 16)

/-! ## The end of a job (R470, R481, R482) -/

/-- RUN clears and the channel's event source asserts. -/
def State.hEnd (s : State) (g : Nat) : State :=
  ((s.set (R.HOISTh_CHc_STAT_RUN (g / 64) (g % 64)) 0).hRunning (g / 64)).evcAssert (384 + g)

/-- The causes of a halt (R487). -/
inductive HCause where
  | busStop | dataPoison | descPoison | loopSuspect | descFmt | slotDenied | aborted
  deriving DecidableEq, Repr

def HCause.code : HCause → Nat
  | .busStop => 1 | .dataPoison => 2 | .descPoison => 3 | .loopSuspect => 4 | .descFmt => 5 | .slotDenied => 6 | .aborted => 7

/-- The report of a halt (R483): none for a stop's or an abort's. -/
def HCause.kind : HCause → Option Nat
  | .dataPoison => some 0x32 | .descPoison => some 0x32 | .loopSuspect => some 0x48 | .descFmt => some 0x87 | .slotDenied => some 0x87
  | .busStop => none | .aborted => none

/-- The status of a command whose channel halts (R349); a command of a stop completes when firmware resumes the Hoist (R485). DEDUCED (log 68):
a slot that lost its hold gives ADDR_DENIED, and the other causes, of which firmware's own list gives none, BUS_ERR. -/
def HCause.status : HCause → Option Nat
  | .busStop => none
  | .dataPoison => some St.dataPoison
  | .slotDenied => some St.addrDenied
  | _ => some St.busErr

/-- A channel halts (R470, R482, R483): its cause, its report with the address `a`, and the command that it serves. -/
def State.hHalt (s : State) (g : Nat) (k : HCause) (a : Nat) : State :=
  let ch := s.hch g
  let s := (s.set (R.HOISTh_CHc_STAT_HCAUSE (g / 64) (g % 64)) k.code).hEnd g
  let s := match k.kind with
    | some n => s.send (0x300 + g) n a g
    | none => s
  match k.status with
  | some st => if ch.cmd then (s.setHch g {}).settle (.hoist g) st (s.hBytes g) else s.setHch g {}
  | none => s.setHch g { cmd := ch.cmd }

/-- A job completes (R470). -/
def State.hDone (s : State) (g : Nat) : State :=
  let ch := s.hch g
  let s := ((s.raise (R.HOISTh_CHc_STAT_DONE (g / 64) (g % 64))).hEnd g).setHch g {}
  if ch.cmd then s.settle (.hoist g) St.ok (s.hBytes g) else s

/-- The bytes of a list that a mask selects, with their addresses. -/
def maskBytes (a mask : Nat) : List Byte → List (Nat × Byte)
  | [] => []
  | b :: r => if mask % 2 = 1 then (a, b) :: maskBytes (a + 1) (mask / 2) r else maskBytes (a + 1) (mask / 2) r

/-! ## Register writes -/

/-- The first address of a job. -/
def State.hList (s : State) (g : Nat) : Nat :=
  s.get (R.HOISTh_CHc_LIST_L_ADDR (g / 64) (g % 64)) * 16 + s.get (R.HOISTh_CHc_LIST_H_ADDR (g / 64) (g % 64)) * 2 ^ 32

/-- A job starts (R462): HCAUSE, BYTES and DCOUNT clear and RUN sets. -/
def State.hStart (s : State) (g : Nat) (ch : HchS) : State :=
  let h := g / 64
  let c := g % 64
  let s := ((s.set (R.HOISTh_CHc_STAT_HCAUSE h c) 0).set (R.HOISTh_CHc_DCOUNT_COUNT h c) 0).setBytes g 0
  ((s.set (R.HOISTh_CHc_STAT_RUN h c) 1).hRunning h).setHch g ch

/-- A GO is acted on (R462). -/
def State.hReady (s : State) (g : Nat) : Bool :=
  decide (s.get (R.HOISTh_CHc_STATE_STATE (g / 64) (g % 64)) = 2) && !s.hRun g && !s.hStopped (g / 64)

/-- A write of HOISTh_CHc_CTL. -/
def State.hCtlWrite (s : State) (g : Nat) (d : Word) : State :=
  if wordGet d 0 1 = 0 then s else
  if s.hReady g then (s.hStart g { next := s.hList g }).setCur g (s.hList g) else s.cfgReport (A.HOISTh_CHc_CTL (g / 64) (g % 64))

/-- A write of HOISTh_CHc_CFG or HOISTh_CHc_DMAX (R463). -/
def State.hCfgWrite (s : State) (g a : Nat) (d : Word) : State := if s.hRun g then s.cfgReport a else s.plainWrite a d

/-- The two entries of a command's job stand as fetched. -/
def cmdJob (src dst : HEnt) : HchS :=
  { last := true, srcs := [src], dsts := [dst], nSrc := src.len, nDst := dst.len, cmd := true }

/-- A command's job starts on its channel: firmware's list stands at an address of its own, a free value. -/
def State.cmdStart (s : State) (g : Nat) (src dst : HEnt) : State :=
  let (l, s) := s.draw 44
  let s := (s.hStart g (cmdJob src dst)).setCur g (16 * l + 16)
  let s := s.set (R.HOISTh_CHc_DCOUNT_COUNT (g / 64) (g % 64)) 2
  (s.set (R.HOISTh_CHc_LIST_L_ADDR (g / 64) (g % 64)) l).set (R.HOISTh_CHc_LIST_H_ADDR (g / 64) (g % 64)) (l / 2 ^ 28)

/-- The commands that wait for a channel of a Hoist start where they can (R349). -/
def State.hTodo (s : State) (h : Nat) : State :=
  (List.range 64).foldl (fun s c =>
    let g := 64 * h + c
    match (s.hch g).todo with
    | some e => if s.hReady g then s.cmdStart g e.1 e.2 else s
    | none => s) s

/-- A stop is cleared (R484), and the commands that it kept waiting start. -/
def State.hResume (s : State) (h : Nat) : State :=
  if s.hStopped h then ((s.set (R.HOISTh_STAT_STOPPED h) 0).set (R.HOISTh_STAT_SCAUSE h) 0).hTodo h else s

/-- A write of HOISTh_CTL (R480, R484). -/
def State.hMainWrite (s : State) (h : Nat) (d : Word) : State :=
  let s := s.plainWrite (A.HOISTh_CTL h) d
  if wordGet d 0 1 = 1 then s.hResume h else s

/-- A write of HOISTh_CHc_STATE (R461). -/
def State.hStateWrite (s : State) (g : Nat) (d : Word) : State := s.requestWrite 6 g (wordGet d 4 2)

/-! ## The commands -/

/-- HOIST_CH_ENABLE_REQ. -/
def execHoistChEnableReq (w : Who) (h : Fin 4) (c : Fin 64) (d : Word) (s : State) : Host.Outcome State Fault Refusal :=
  .next (if wordGet d 4 2 = 1 then s.ownWrite w (A.HOISTh_CHc_STATE h c) d (fun s => s.hStateWrite (64 * h + c) d) else s)

/-- HOIST_CH_DISABLE_REQ. -/
def execHoistChDisableReq (w : Who) (h : Fin 4) (c : Fin 64) (d : Word) (s : State) : Host.Outcome State Fault Refusal :=
  .next (if wordGet d 4 2 = 2 then s.ownWrite w (A.HOISTh_CHc_STATE h c) d (fun s => s.hStateWrite (64 * h + c) d) else s)

/-- HOIST_CH_ON (R461): a command's job that waited for its channel starts. -/
def execHoistChOn (h : Fin 4) (c : Fin 64) (s : State) : Host.Outcome State Fault Refusal :=
  let g := 64 * h.val + c.val
  .next (if s.get (R.HOISTh_CHc_STATE_STATE h c) ≠ 1 then s else
    let s := s.reachOn 6 g
    match (s.hch g).todo with
    | some e => if s.hReady g then s.cmdStart g e.1 e.2 else s
    | none => s)

/-- HOIST_CH_OFF (R461): with its burst finished, a STOPPING channel halts its job and becomes OFF. -/
def execHoistChOff (h : Fin 4) (c : Fin 64) (s : State) : Host.Outcome State Fault Refusal :=
  let g := 64 * h.val + c.val
  .next (if s.get (R.HOISTh_CHc_STATE_STATE h c) ≠ 3 ∨ (s.hch g).burst.isSome then s else
    (if s.hRun g then s.hHalt g .aborted (s.hCur g) else s).reachOff 6 g)

/-- HOIST_GO (R462). -/
def execHoistGo (w : Who) (h : Fin 4) (c : Fin 64) (d : Word) (s : State) : Host.Outcome State Fault Refusal :=
  .next (if wordGet d 0 1 = 1 then s.ownWrite w (A.HOISTh_CHc_CTL h c) d (fun s => s.hCtlWrite (64 * h + c) d) else s)

/-- HOIST_RESUME (R484). -/
def execHoistResume (w : Who) (h : Fin 4) (d : Word) (s : State) : Host.Outcome State Fault Refusal :=
  .next (if wordGet d 0 1 = 1 then s.ownWrite w (A.HOISTh_CTL h) d (fun s => s.hMainWrite h d) else s)

/-- HOIST_FW_RESUME (R349, R485): firmware resumes a Hoist that it owns, and the commands that the stop interrupted complete with
BUS_ERR and the bytes written. -/
def execHoistFwResume (h : Fin 4) (s : State) : Host.Outcome State Fault Refusal :=
  .next (if ¬ s.hStopped h ∨ (h.val = 3 ∧ s.expert 8 = true) then s else
    ((List.range 64).foldl (fun s c =>
      let g := 64 * h.val + c
      if (s.hch g).cmd ∧ ¬ s.hRun g ∧ (s.hch g).todo = none then (s.setHch g {}).settle (.hoist g) St.busErr (s.hBytes g) else s) s).hResume h)

/-! ## HOIST_COPY, HOIST_FILL (R349) -/

/-- The bytes that a slot's copy can deliver: its packed planes (R212). -/
def State.slotBytes (s : State) (i : Nat) : Nat := (s.slotCont i).size

/-- The slot carries HOST_HOLD (R468). -/
def State.slotHeld (s : State) (i : Nat) : Bool := decide (i < s.maxSlots) && s.flag (R.SLOTs_MARK_HOST_HOLD i)

/-- A channel that firmware can choose for a command: of HOIST0-HOIST2, powered, with no job and no stop. -/
def State.cmdChan (s : State) (g : Nat) : Bool :=
  decide (g < 192) && s.pdOn (67 + g / 64) && !s.hRun g && !s.hStopped (g / 64) && !(s.hch g).cmd && (s.hch g).todo.isNone &&
  (decide (s.get (R.HOISTh_CHc_STATE_STATE (g / 64) (g % 64)) = 2) || decide (s.get (R.HOISTh_CHc_STATE_STATE (g / 64) (g % 64)) = 0))

/-- A command's job: on a channel that is ON it starts at once, unpaced; a channel that is OFF is enabled for it first. -/
def State.cmdRun (s : State) (o : Owed) (g : Nat) (src dst : HEnt) : State :=
  let s := (s.set (R.HOISTh_CHc_CFG_REQSEL (g / 64) (g % 64)) 0).await o (.hoist g)
  if s.hReady g then s.cmdStart g src dst
  else ((s.request 6 g true).1).setHch g { todo := some (src, dst), cmd := true }

/-- HOIST_COPY (R349): a channel that firmware cannot choose leaves the command where it is. -/
def execHoistCopy (c : Cmd) (chan : Fin 192) (s : State) : Host.Outcome State Fault Refusal :=
  let d := c.desc
  let src := dget d 16 0 64
  let dst := dget d 24 0 64
  let len := dget d 32 0 32
  let slot := dget d 36 0 1 = 1
  .next (if ¬ s.cmdChan chan then s else
    s.begin c 0x20 true (dSub d = 0 ∧ dClean d [(16, 0, 64), (24, 0, 64), (32, 0, 32), (36, 0, 1)] ∧ len ≠ 0 ∧ (slot → src < 4096)) [0] none
      (fun s o =>
        if (if slot then !s.slotHeld src else decide (2 ^ 48 ≤ src) || !s.inWindows 64 src len) = true ∨ 2 ^ 48 ≤ dst ∨
            s.inWindows 64 dst len = false then s.complete o St.addrDenied else
        if slot ∧ s.slotBytes src < len then s.complete o St.badValue
        else s.cmdRun o chan { at_ := src, len := len, slot := slot } { at_ := dst, len := len }))

/-- HOIST_FILL (R349). -/
def execHoistFill (c : Cmd) (chan : Fin 192) (s : State) : Host.Outcome State Fault Refusal :=
  let d := c.desc
  let dst := dget d 24 0 64
  let len := dget d 32 0 32
  .next (if ¬ s.cmdChan chan then s else
    s.begin c 0x21 true (dSub d = 0 ∧ dClean d [(16, 0, 64), (24, 0, 64), (32, 0, 32)] ∧ len ≠ 0 ∧ len % 8 = 0) [0] none (fun s o =>
      if 2 ^ 48 ≤ dst ∨ s.inWindows 64 dst len = false then s.complete o St.addrDenied
      else s.cmdRun o chan { at_ := dget d 16 0 64, len := len, fill := true } { at_ := dst, len := len }))

end Sys2Proof.Machine
end

