-- ==== Sys2Proof/Machine/HostRegs.lean ====
section
/-!
DEFINITION. The host's attachment over RoCEv2 (R299-R315): queue pairs, host windows, rings, the doorbell engine, the fetch of
commands and the writing of entries.
-/
namespace Sys2Proof.Machine

/-! ## Reach through a window (R303, R304) -/

def State.qp (s : State) (q : Nat) : QpS := tabGet {} s.qps q
def State.setQp (s : State) (q : Nat) (v : QpS) : State := { s with qps := tabSet {} s.qps q v }
def State.updQp (s : State) (q : Nat) (f : QpS → QpS) : State := s.setQp q (f (s.qp q))

/-! ## What a queue pair sends (R286, R299-R303) -/

/-- The bytes of a packet of a queue pair's path MTU. -/
def State.qpMtu (s : State) (q : Nat) : Nat := 1024 * 2 ^ s.get (R.QPq_CTL_MTU q)

/-- The packets of an operation, each with a PSN of its own (R299): those of a WRITE, and those that answer a READ. -/
def State.roceCount (s : State) (q : Nat) : RoceOp → Nat
  | .write _ _ data => max 1 (ceilDiv data.length (s.qpMtu q))
  | .read _ _ len => max 1 (ceilDiv len (s.qpMtu q))
  | _ => 0

/-- The line rate of a control port in kbit/s, and the least send rate (R302). -/
def lineRate : Nat := 25000000
def minRate : Nat := 100000

/-- A rate increase of DCQCN (R302), by the timer or by the byte counter: half the gap to the target; after five of either the target rises
too, by an amount that the spec does not give, a free value. PRESUMED (log 23): the algorithm is that of the literature. -/
def State.rateUp (s : State) (q : Nat) (timer : Bool) : State :=
  let p := s.qp q
  let up := fun (t : Nat) => { p with target := t, rate := min lineRate ((p.rate + t + 1) / 2),
                                      stage := if timer then p.stage + 1 else p.stage, bStage := if timer then p.bStage else p.bStage + 1 }
  if max p.stage p.bStage < 5 then s.setQp q (up p.target) else
  let (d, s) := s.draw 24
  s.setQp q (up (min lineRate (p.target + d)))

/-- The queue pair's port is paused (R286). -/
def State.qpPaused (s : State) (q : Nat) : Bool := s.flag R.HOST_CTL_PFC_EN && (s.cp (s.get (R.QPq_CTL_PORT q))).paused

/-- The head of what a queue pair sends next. -/
def State.roceHead (s : State) (q : Nat) : RoceHead :=
  { qpn := s.get (R.QPq_RQPN_VALUE q), mac := s.get (R.QPq_DMAC_L_MAC q) + s.get (R.QPq_DMAC_H_MAC q) * 2 ^ 32, ip := s.get (R.QPq_DIP_ADDR q),
    psn := (s.qp q).psnS, prio := if s.flag R.HOST_CTL_PFC_EN then some (s.get R.HOST_CTL_ROCE_PRIO) else none,
    ect := s.flag R.HOST_CTL_ECN_EN }

/-- The bytes of a WRITE count towards the byte counter of 10 MiB, which raises the rate as it goes off (R302). -/
def State.roceSent (s : State) (q n : Nat) : State :=
  let sent := (s.qp q).sent + n
  if ¬ s.flag R.HOST_CTL_ECN_EN ∨ lineRate ≤ (s.qp q).rate then s
  else if sent < 10 * 2 ^ 20 then s.updQp q (fun p => { p with sent := sent })
  else (s.updQp q (fun p => { p with sent := sent - 10 * 2 ^ 20 })).rateUp q false

/-- A queue pair sends an operation; while its port is paused the operation waits (R286). -/
def State.roce (s : State) (q : Nat) (op : RoceOp) : State :=
  let h := s.roceHead q
  let k := s.roceCount q op
  let s := if k = 0 then s else s.updQp q (fun p => { p with psnS := (p.psnS + k) % 2 ^ 24 })
  let s := match op with | .write _ _ data => s.roceSent q data.length | _ => s
  if s.qpPaused q then
    let c := s.get (R.QPq_CTL_PORT q)
    s.setCp c { s.cp c with outq := (s.cp c).outq ++ [(q, h, op)] }
  else s.emit (.roce q h op)

/-- The virtual address of the host that a window gives a device address. -/
def State.winVa (s : State) (w a : Nat) : Nat :=
  s.get (R.HWINw_RVA_L_RVA w) + s.get (R.HWINw_RVA_H_RVA w) * 2 ^ 32 + (a - s.winBase w)

/-- Bytes are written to host memory through the window of their address (R303). -/
def State.hostWrite (s : State) (a : Nat) (bs : List Byte) : State :=
  match s.window1 a bs.length with
  | none => s
  | some w => s.roce (s.get (R.HWINw_CTL_QP w)) (.write (s.winVa w a) (s.get (R.HWINw_RKEY_RKEY w)) bs)

/-- Bytes of host memory are asked for through the window of their address (R303). -/
def State.hostRead (s : State) (a len : Nat) : State :=
  match s.window1 a len with
  | none => s
  | some w => s.roce (s.get (R.HWINw_CTL_QP w)) (.read (s.winVa w a) (s.get (R.HWINw_RKEY_RKEY w)) len)

/-! ## Rings (R305-R311) -/

/-- Bytes of an entry of a ring of each kind (R305). -/
def entryBytes (i : Nat) : Nat := if i < 0x20 then 64 else if i < 0x40 then 16 else if i < 0x50 then 32 else 64

/-- A ring stops (R311): entries not written are lost, and a read that was asked for brings nothing. -/
def State.ringStall (s : State) (i : Nat) : State :=
  ((s.set (R.RINGi_CTL_STALL i) 1).setRing i { s.ring i with unack := [], asked := 0 }).send (0x600 + i) 0x30

/-- The ring whose base was taken reaches its memory: one enabled window holds its entries, on a queue pair in RTS. -/
def State.ringReach (s : State) (i : Nat) : Option Nat := s.reachQp (s.ring i).base (s.ringSize i * entryBytes i)

/-- A burst has an access through a queue pair. -/
def State.burstOn (s : State) (b : HBurst) (q : Nat) : Bool :=
  decide (s.reachQp b.dst b.data.length = some q) ||
    (match b.src with
     | some a => decide (s.reachQp a b.data.length = some q)
     | none => false)

/-- The Hoist bursts with an access on a queue pair end with their bus error. -/
def State.burstsFail (s : State) (q : Nat) : State :=
  s.hchs.foldl (fun acc e =>
    match e.2.burst with
    | some b => if s.burstOn b q then { acc with hchs := tabSet {} acc.hchs e.1 { e.2 with burst := some { b with dead := true } } } else acc
    | none => acc) s

/-- A queue pair leaves RTS: every access outstanding on it fails (R300, R301), which stops the rings that have one (R304, R311). -/
def State.qpFail (s : State) (q : Nat) : State :=
  s.rings.foldl (fun acc e =>
    if (e.2.unack ≠ [] ∨ e.2.asked ≠ 0) ∧ s.ringReach e.1 = some q then acc.ringStall e.1 else acc) (s.burstsFail q)

/-- The accesses outstanding on a queue pair, each by the cycle of its start: a ring's, or a Hoist's burst or entry fetch. -/
def State.qpSince (s : State) (q : Nat) : List Nat :=
  s.rings.flatMap (fun e => if s.ringReach e.1 ≠ some q then [] else
    (if e.2.unack = [] then [] else [e.2.since]) ++ (if e.2.asked = 0 then [] else [e.2.askAt])) ++
  s.hchs.flatMap (fun e =>
    match e.2.burst with
    | some b => if s.burstOn b q then [b.at_] else []
    | none => if s.hRun e.1 ∧ s.reachQp e.2.next 16 = some q then [0] else [])

/-- The RDMA READs outstanding on a queue pair (R299). -/
def State.qpReads (s : State) (q : Nat) : Nat :=
  (s.rings.filter (fun e => decide (e.2.asked ≠ 0) && decide (s.ringReach e.1 = some q))).length +
  (s.hchs.filter (fun e =>
    match e.2.burst with
    | some b => (match b.src with | some a => decide (s.reachQp a b.data.length = some q) | none => false)
    | none => s.hRun e.1 && decide (s.reachQp e.2.next 16 = some q))).length

/-! ## Queue pairs (R299-R302) -/

/-- A queue pair enters ERROR (R301). -/
def State.qpError (s : State) (q cause : Nat) : State :=
  let f := s.qpFail q
  ((f.set (R.QPq_STAT_STATE q) 2).set (R.QPq_STAT_CAUSE q) cause).send (0x5C0 + q) 0x24

/-- A write of QPq_CTL (R300): it connects, disconnects, or is ignored and reported while EN is 1. -/
def State.qpCtlWrite (s : State) (q : Nat) (d : Word) : State :=
  let on := s.flag (R.QPq_CTL_EN q)
  let en := wordGet d 0 1 = 1
  if on ∧ en then s.cfgReport (A.QPq_CTL q) else
  if on then
    let s := (s.qpFail q).plainWrite (A.QPq_CTL q) d
    ((s.set (R.QPq_STAT_STATE q) 0).set (R.QPq_STAT_CAUSE q) 0).setQp q {}
  else
    let s := s.plainWrite (A.QPq_CTL q) d
    if en then
      ((s.set (R.QPq_STAT_STATE q) 1).set (R.QPq_STAT_CAUSE q) 0).setQp q
        { psnS := s.get (R.QPq_SPSN_VALUE q), psnE := s.get (R.QPq_EPSN_VALUE q), ackAt := s.cyc, rateAt := s.cyc }
    else s

/-- A write of another register of a queue pair (R300). -/
def State.qpParWrite (s : State) (q a : Nat) (d : Word) : State :=
  if s.flag (R.QPq_CTL_EN q) then s.cfgReport a else s.plainWrite a d

/-- QP_CTL_WRITE (R300). -/
def execQpCtlWrite (w : Who) (q : Fin 64) (d : Word) (s : State) : Host.Outcome State Fault Refusal :=
  .next (s.ownWrite w (A.QPq_CTL q) d (fun s => s.qpCtlWrite q d))

/-- The queue pair makes progress (R301): its retries start afresh and its ACK timeout runs from here. -/
def State.qpProgress (s : State) (q : Nat) : State := s.updQp q (fun p => { p with tries := 0, ackAt := s.cyc })

/-- Lost packets are sent again, where a retry is left (R301). -/
def State.qpRetry (s : State) (q : Nat) : State :=
  if (s.qp q).tries < s.get (R.QPq_CTL_RETRY q)
  then (s.updQp q (fun p => { p with tries := p.tries + 1, ackAt := s.cyc })).roce q .again
  else s.qpError q 1

/-- QP_ACK_TIMEOUT (R301): with an access outstanding for 4.096 µs x 2^TIMEOUT, counted from the last progress or retry, it retransmits, or its
retries are exhausted. -/
def execQpAckTimeout (q : Fin 64) (s : State) : Host.Outcome State Fault Refusal :=
  let wait := 2048 * 2 ^ s.get (R.QPq_CTL_TIMEOUT q)
  .next (if s.rts q ∧ (s.qpSince q).any (fun t => decide (max t (s.qp q).ackAt + wait ≤ s.cyc)) = true then s.qpRetry q else s)

/-- QP_NAK (R301): remote access, remote operation or invalid request. -/
def execQpNak (q : Fin 64) (code : Fin 3) (s : State) : Host.Outcome State Fault Refusal :=
  .next (if s.rts q then s.qpError q (2 + code) else s)

/-- CNP_RECEIVE (R302): DCQCN's cut of the send rate with g = 1/256. PRESUMED (log 23): the algorithm is that of the literature, in units of
2^-16 of the estimate and kbit/s of rate. -/
def execCnpReceive (q : Fin 64) (s : State) : Host.Outcome State Fault Refusal :=
  .next (if ¬ s.rts q ∨ ¬ s.flag R.HOST_CTL_ECN_EN then s else
    s.updQp q (fun p => { p with target := p.rate, rate := max minRate (p.rate * (131072 - p.alpha) / 131072),
                                 alpha := p.alpha - p.alpha / 256 + 256, stage := 0, bStage := 0, sent := 0, rateAt := s.cyc }))

/-- DCQCN_RATE_TIMER (R302), 55 µs after it last started: the estimate decays, and the rate rises. -/
def execDcqcnRateTimer (q : Fin 64) (s : State) : Host.Outcome State Fault Refusal :=
  .next (if ¬ s.rts q ∨ ¬ s.flag R.HOST_CTL_ECN_EN ∨ lineRate ≤ (s.qp q).rate ∨ s.cyc < (s.qp q).rateAt + 27500 then s else
    (s.updQp q (fun p => { p with alpha := p.alpha - p.alpha / 256, rateAt := s.cyc })).rateUp q true)

/-! ## Host windows (R303, R326) -/

/-- A window can be enabled: SIZE is not zero and it overlaps no enabled window. -/
def State.winFree (s : State) (w : Nat) : Bool :=
  decide (s.get (R.HWINw_SIZE_SIZE w) ≠ 0) &&
  (List.range 64).all (fun v => decide (v = w) || !s.flag (R.HWINw_CTL_EN v) ||
    decide (s.winBase v + s.winSize v ≤ s.winBase w) || decide (s.winBase w + s.winSize w ≤ s.winBase v))

/-- A write of HWINw_CTL. -/
def State.hwinCtlWrite (s : State) (w : Nat) (d : Word) : State :=
  let on := s.flag (R.HWINw_CTL_EN w)
  let en := wordGet d 0 1 = 1
  if on ∧ en then (if wordGet d 1 6 = s.get (R.HWINw_CTL_QP w) then s else s.cfgReport (A.HWINw_CTL w)) else
  if en ∧ s.winFree w = false then s.cfgReport (A.HWINw_CTL w) else s.plainWrite (A.HWINw_CTL w) d

/-- A write of another register of a window. -/
def State.hwinParWrite (s : State) (w a : Nat) (d : Word) : State :=
  if s.flag (R.HWINw_CTL_EN w) then s.cfgReport a else s.plainWrite a d

/-- HWIN_CTL_WRITE (R303). -/
def execHwinCtlWrite (w : Who) (x : Fin 64) (d : Word) (s : State) : Host.Outcome State Fault Refusal :=
  .next (s.ownWrite w (A.HWINw_CTL x) d (fun s => s.hwinCtlWrite x d))

/-! ## Ring control (R307, R311) -/

/-- The base and the shadow address that the registers of a ring hold. -/
def State.ringBase (s : State) (i : Nat) : Nat :=
  s.get (R.RINGi_ADDR_L_ADDR i) * 2 ^ 12 + s.get (R.RINGi_ADDR_H_ADDR i) * 2 ^ 32
def State.ringShad (s : State) (i : Nat) : Nat :=
  s.get (R.RINGi_SHAD_L_ADDR i) * 2 ^ 3 + s.get (R.RINGi_SHAD_H_ADDR i) * 2 ^ 32

/-- The word that a ring's control register takes: CQ and PRIO are reserved outside command rings (R327). -/
def ringWord (i : Nat) (d : Word) : Word := if i < 0x20 then d else BitVec.ofNat 32 (wordGet d 0 7)

/-- A write of RINGi_CTL. -/
def State.ringCtlWrite (s : State) (i : Nat) (d0 : Word) : State :=
  let d := ringWord i d0
  let a := A.RINGi_CTL i
  let on := s.flag (R.RINGi_CTL_EN i)
  let en := wordGet d 0 1 = 1
  if on ∧ en then (if wordGet d 2 12 = wordGet (s.reg a) 2 12 then s else s.cfgReport a) else
  if on then
    let s := (s.plainWrite a d).set (R.RINGi_CTL_STALL i) 0
    let s : State := { s.setRing i {} with fetched := s.fetched.filter (fun f => f.ring != i) }
    let s := s.incMod (R.RINGi_EPOCH_EPOCH i)
    if 0x40 ≤ i ∧ i ≤ 0x43 then s.abandon (i - 0x40) else s
  else if en then
    if s.inWindow (s.ringBase i) (2 ^ wordGet d 2 5 * entryBytes i) = false then s.cfgReport a else
    let s := ((s.plainWrite a d).set (R.RINGi_PI_INDEX i) 0).set (R.RINGi_CI_INDEX i) 0
    (s.setRing i { base := s.ringBase i, shad := s.ringShad i }).incMod (R.RINGi_EPOCH_EPOCH i)
  else s.plainWrite a d

/-- RING_CTL_WRITE (R307). -/
def execRingCtlWrite (w : Who) (i : Fin 256) (d : Word) (s : State) : Host.Outcome State Fault Refusal :=
  .next (s.ownWrite w (A.RINGi_CTL i) d (fun s => s.ringCtlWrite i d))

/-! ## Doorbells (R312-R315) -/

/-- A bad doorbell or doorbell write (R313, R315). -/
def State.dbBad (s : State) : State := (s.bump R.HOST_DBBAD_COUNT).send 0x590 0x88

/-- A stale doorbell. -/
def State.dbStale (s : State) : State := s.bump R.HOST_DBSTALE_COUNT

/-- A ring ID that a doorbell can name. -/
def ringListed (i : Nat) : Bool := decide (i < 0x44) || (decide (0x50 ≤ i) && decide (i < 0x60))

/-- The engine takes one doorbell: ring, index, epoch. True where it is not discarded. -/
def State.doorbell (s : State) (r x e : Nat) : State × Bool :=
  let done := 0xE0 ≤ r ∧ r ≤ 0xE3
  if ¬ done ∧ ringListed r = false ∨ done ∧ 2 ^ 10 ≤ x then (s.dbBad, false) else
  let i := if done then 0x40 + (r - 0xE0) else r
  if ¬ s.flag (R.RINGi_CTL_EN i) ∨ e ≠ s.get (R.RINGi_EPOCH_EPOCH i) then (s.dbStale, false) else
  if done then (s.evcComplete (4 + (r - 0xE0)) x, true) else
  let ci := s.get (R.RINGi_CI_INDEX i)
  let pi := s.get (R.RINGi_PI_INDEX i)
  let dNew := (x + 2 ^ 24 - ci) % 2 ^ 24
  let dCur := (pi + 2 ^ 24 - ci) % 2 ^ 24
  if i < 0x20 then
    if x = pi then (s, true) else
    if dCur < dNew ∧ dNew ≤ s.ringSize i then (s.set (R.RINGi_PI_INDEX i) x, true) else (s.dbStale, false)
  else if dNew ≤ dCur then (s.set (R.RINGi_CI_INDEX i) x, true) else (s.dbStale, false)

/-- The doorbell that 8 little-endian bytes spell (R312). -/
def State.doorbellBytes (s : State) (b : List Byte) : State × Bool :=
  s.doorbell (leNat (slice b 0 1)) (leNat (slice b 1 3)) (leNat (slice b 4 4))

/-- An RDMA WRITE of `data` arrives for the doorbell page (R299, R313): another key or a write that starts outside the page is refused, a write
that breaks the rule of the page is acknowledged and discarded, and the doorbells of a good one are taken in address order. -/
def State.rdmaWrite (s : State) (q : Nat) (va : BitVec 64) (rkey : BitVec 32) (data : List Byte) : State :=
  let n := data.length
  if s.get R.HOST_DB_RKEY_RKEY = 0 ∨ rkey.toNat ≠ s.get R.HOST_DB_RKEY_RKEY ∨ 4096 ≤ va.toNat then s.roce q (.nak 2) else
  let s := s.roce q .ack
  if va.toNat % 8 ≠ 0 ∨ n % 8 ≠ 0 ∨ n = 0 ∨ 4096 < va.toNat + n then s.dbBad else
  (List.range (n / 8)).foldl (fun s k => (s.doorbellBytes (slice data (8 * k) 8)).1) s

/-- The engine's turn for a doorbell of a path (R314): in one cycle CP0 comes before CP1, and on a port RoCEv2 before Clexia. -/
def dbTurn (port : Nat) (clexia : Bool) : Nat := 2 * port + b2n clexia

/-- RDMA_DOORBELL (R313, R314): an in-order RDMA WRITE on a queue pair in RTS; one that comes behind a later path's in its cycle is no
order of the engine's, and is not made. -/
def execRdmaDoorbell (q : Fin 64) (va : BitVec 64) (rkey : BitVec 32) (data : List Byte) (s : State) : Host.Outcome State Fault Refusal :=
  let k := dbTurn (s.get (R.QPq_CTL_PORT q)) false
  .next (if s.rts q ∧ s.inTurn 2 0 k then (s.turn_ 2 0 k).rdmaWrite q va rkey data else s)

/-! ## Received packets (R299, R302) -/

/-- A marked packet makes the device send a CNP, at most once per 50 µs and queue pair (R302). -/
def State.notify (s : State) (q : Nat) : State :=
  let ok := match (s.qp q).cnpAt with
    | some c => decide (c + 25000 ≤ s.cyc)
    | none => true
  if s.flag R.HOST_CTL_ECN_EN ∧ ok = true then (s.updQp q (fun p => { p with cnpAt := some s.cyc })).roce q .cnp else s

/-- ROCE_PACKET_RX (R299): a WRITE in order is acted on, one already seen is acknowledged again, one ahead of the expected PSN is
refused; a response or an ACK is progress, and a NAK for a PSN sequence error sends what is outstanding again. What R299 does not support has no
effect. A WRITE out of the engine's turn is not made, as RDMA_DOORBELL's (R314). -/
def execRocePacketRx (q : Fin 64) (k : RocePkt) (s : State) : Host.Outcome State Fault Refusal :=
  .next (if ¬ s.rts q then s else
    let s := if k.ce then s.notify q else s
    match k.kind with
    | 0 =>
      let t := dbTurn (s.get (R.QPq_CTL_PORT q)) false
      if ¬ s.inTurn 2 0 t then s else
      let s := s.turn_ 2 0 t
      let d := (k.psn.toNat + 2 ^ 24 - (s.qp q).psnE) % 2 ^ 24
      if d = 0 then (s.updQp q (fun p => { p with psnE := (p.psnE + 1) % 2 ^ 24 })).rdmaWrite q k.va k.rkey k.data
      else if 2 ^ 23 ≤ d then s.roce q .ack else s.roce q (.nak 0)
    | 1 => s.qpProgress q
    | 2 => s.qpProgress q
    | 3 => s.qpRetry q
    | 4 => s)

/-! ## Fetch of commands (R309) -/

/-- COMMAND_FETCH (R308, R309, R311): a batch of new entries, never across the ring's end. -/
def execCommandFetch (i : Fin 32) (s : State) : Host.Outcome State Fault Refusal :=
  let ci := s.get (R.RINGi_CI_INDEX i)
  let n := min (min (s.ringFill i) 64) (min (s.complRoom (s.get (R.RINGi_CTL_CQ i))) (s.ringSize i - ci % s.ringSize i))
  .next (if ¬ s.ringLive i ∨ ¬ s.fetching ∨ (s.ring i).asked ≠ 0 ∨ n = 0 then s else
    match s.ringReach i with
    | none => s.ringStall i
    | some q => if 16 ≤ s.qpReads q then s else
      (s.setRing i { s.ring i with asked := n, askAt := s.cyc }).hostRead ((s.ring i).base + ci % s.ringSize i * entryBytes i) (n * entryBytes i))

/-- A ring's index shadow is written, as 4 little-endian bytes (R308); one that no window reaches stops the ring (R311). -/
def State.shadow (s : State) (i idx : Nat) : State :=
  if (s.reachQp (s.ring i).shad 4).isSome then s.hostWrite (s.ring i).shad (leBytes 4 idx) else s.ringStall i

/-- COMMAND_FETCH_RETURN (R309, R311): the entries that were asked for, or the failure of their read. -/
def execCommandFetchReturn (i : Fin 32) (entries : Option (List Desc)) (s : State) : Host.Outcome State Fault Refusal :=
  .next (if (s.ring i).asked = 0 then s else
    match entries with
    | none => s.ringStall i
    | some l =>
      if l.length ≠ (s.ring i).asked then s else
      let s := s.set (R.RINGi_CI_INDEX i) (s.get (R.RINGi_CI_INDEX i) + l.length)
      let s : State := { s.setRing i { s.ring i with asked := 0 } with
        fetched := s.fetched ++ l.map (fun d => { ring := i.val, cq := s.get (R.RINGi_CTL_CQ i), desc := d }) }
      s.shadow i (s.get (R.RINGi_CI_INDEX i)))

/-- RING_WRITE_ACK (R308, R311): the RDMA WRITE of a batch of up to 64 entries, never across the ring's end, is acknowledged and the shadow follows; a
write that fails, or that no window reaches, stops the ring. DESIGN CHOICE (log 43): how many entries make a batch is the device's choice, so the outbox shows the
WRITE with its acknowledgement. -/
def execRingWriteAck (i : Fin 256) (n : Nat) (ok : Bool) (s : State) : Host.Outcome State Fault Refusal :=
  let r := s.ring i
  let first := (s.get (R.RINGi_PI_INDEX i) + 2 ^ 24 - r.unack.length) % 2 ^ 24
  .next (if n = 0 ∨ 64 < n ∨ r.unack.length < n ∨ s.ringSize i < first % s.ringSize i + n then s else
    match s.ringReach i with
    | none => s.ringStall i
    | some q =>
      if ¬ ok then s.ringStall i else
      let batch := (r.unack.take n).flatMap RingEntry.bytes
      let s := s.hostWrite (r.base + first % s.ringSize i * entryBytes i) batch
      let s := (s.setRing i { r with unack := r.unack.drop n }).qpProgress q
      s.shadow i ((first + n) % 2 ^ 24))

/-! ## Control-port rows (R284, R286) -/

/-- The boot ROM serves the ports that CP_SEL selects, firmware both (R285). -/
def State.cpServes (s : State) (p : Nat) : Bool :=
  decide (s.rst = .run) && (decide (p = 0) || decide (s.get R.DEV_HEALTH_DSTATE ≠ 0) || !s.flag R.DEV_STRAP_CP_SEL)

/-- The IPv4 address and the MAC address of a control port. -/
def State.cpIp (s : State) (p : Nat) : Nat := if p = 0 then s.get R.HOST_IP0_ADDR else s.get R.HOST_IP1_ADDR
def State.cpMac (s : State) (p : Nat) : Nat :=
  if p = 0 then s.get R.HOST_MAC0_L_MAC + s.get R.HOST_MAC0_H_MAC * 2 ^ 32 else s.get R.HOST_MAC1_L_MAC + s.get R.HOST_MAC1_H_MAC * 2 ^ 32

/-- CP_ARP_REPLY (R284): ports 64 and 65 of `Out.arp` are CP0 and CP1. -/
def execCpArpReply (port : Fin 2) (target : BitVec 32) (mac : BitVec 48) (ip : BitVec 32) (s : State) : Host.Outcome State Fault Refusal :=
  .next (if s.cpServes port ∧ target.toNat = s.cpIp port then s.emit (.arp (64 + port) ip.toNat (s.cpMac port) mac.toNat none) else s)

/-- PFC_FRAME_RX (R286): a pause of the priority of RoCEv2, or its end, at which what has waited goes out. -/
def execPfcFrameRx (port : Fin 2) (prio : Fin 8) (pause : Bool) (s : State) : Host.Outcome State Fault Refusal :=
  .next (if s.flag R.HOST_CTL_PFC_EN ∧ prio.val = s.get R.HOST_CTL_ROCE_PRIO then
    if pause then s.setCp port { s.cp port with paused := true } else
    (s.cp port).outq.foldl (fun s e => s.emit (.roce e.1 e.2.1 e.2.2)) (s.setCp port { s.cp port with paused := false, outq := [] })
  else s)

end Sys2Proof.Machine
end

