-- ==== Sys2Proof/Machine/Subs.lean ====
section
/-!
DEFINITION. Subscribers of a canvas and their services (R346-R348, R430-R437).
-/
namespace Sys2Proof.Machine

/-- The subpictures that a SUB_OPEN names (R346). -/
def subIds (d : Desc) : List Nat := (List.range (dget d 17 0 8)).map (fun i => dget d (20 + 2 * i) 0 16)

/-- The fields of SUB_OPEN: entries beyond NSUB are reserved. -/
def subFields (d : Desc) : List (Nat × Nat × Nat) :=
  [(16, 0, 7), (17, 0, 8), (18, 0, 2), (52, 0, 32), (56, 0, 16), (58, 0, 7), (60, 0, 32)] ++
  (List.range (min 16 (dget d 17 0 8))).map (fun i => (20 + 2 * i, 0, 16))

/-- The bounding box of subpictures, in CTUs: x, y, width, height. -/
def boxOf (l : List Region) : Nat × Nat × Nat × Nat :=
  let x0 := (l.map (fun r => r.x)).foldl min ((l.head?.map (fun r => r.x)).getD 0)
  let y0 := (l.map (fun r => r.y)).foldl min ((l.head?.map (fun r => r.y)).getD 0)
  (x0, y0, (l.map (fun r => r.x + r.w)).foldl max 0 - x0, (l.map (fun r => r.y + r.h)).foldl max 0 - y0)

/-- The subpictures are distinct, exist, and their union is a rectangle. Subpictures of a canvas do not overlap (R72). -/
def Params.subsOk (p : Params) (ids : List Nat) : Bool :=
  let rs := ids.filterMap (fun i => p.regs[i]?)
  let b := boxOf rs
  decide (ids.eraseDups = ids) && decide (rs.length = ids.length) &&
  decide (rs.foldl (fun n r => n + r.w * r.h) 0 = b.2.2.1 * b.2.2.2)

/-- The slices of an extracted picture: one for each CTU row of each subpicture. -/
def subSlices (l : List Region) : Nat := l.foldl (fun n r => n + r.h) 0

/-- The tier and level of an extracted stream (R434): the lowest of Main, else of High, else 15.5. -/
def State.subLevel (s : State) (p : Params) (l : List Region) (br buf : Nat) : Nat × Nat :=
  let b := boxOf l
  let cols := ((l.map (fun r => r.x)).eraseDups).length
  let rows := ((l.map (fun r => r.y)).eraseDups).length
  let fits := fun (tier lvl : Nat) => levelFits p.profile tier lvl (min (64 * b.2.2.1) (p.w - 64 * b.1)) (min (64 * b.2.2.2) (p.h - 64 * b.2.1))
    (s.pnum p.gen) (s.pden p.gen) (brSignalled br) (br * buf / 1000 / 16 * 16) (subSlices l) 0 (cols * rows)
  match (levelCodes true).find? (fun v => fits 0 v) with
  | some v => (0, v)
  | none => match (levelCodes true).find? (fun v => fits 1 v) with
    | some v => (1, v)
    | none => (1, 255)

/-- An accepted SUB_OPEN: the subscriber's context and its registers (R430-R437, R458). -/
def State.subTake (s : State) (i n : Nat) (d : Desc) : State :=
  let p := (s.strm n).p
  let ids := subIds d
  let rs := ids.filterMap (fun i => p.regs[i]?)
  let kb := s.get (R.SPX_CNVv_SUBBR_KBPS (s.get (R.STRMn_STATE_CANVAS n)))
  let b : SubS := { canvas := n, svc := dget d 18 0 2, ids := ids, ip := dget d 52 0 32, udp := dget d 56 0 16, pt := dget d 58 0 7,
                    ssrc := dget d 60 0 32, subbr := kb, at_ := s.cyc }
  let don := b.don p
  let lv := s.subLevel p rs (if kb = 0 then s.get (R.RRCn_RMAX_KBPS n) else kb) (s.get (R.RRCn_BUF_US n))
  let s := s.setSub i (some b)
  let s := ((s.set (R.SPX_SUBs_CFG_CANVAS i) n).set (R.SPX_SUBs_CFG_NSUB i) ids.length).set (R.SPX_SUBs_CFG_LEVEL i) lv.2
  let s := ((s.set (R.SPX_SUBs_CFG_TIER i) lv.1).set (R.SPX_SUBs_CFG_DON i) (b2n don)).set (R.SPX_SUBs_DONDIFF_DIFF i)
    (if don then subSlices rs - 1 else 0)
  let s := (s.set (R.SPX_SUBs_HRDOVER_COUNT i) 0).set (R.SPX_SUBs_DROP_COUNT i) 0
  if s.flag R.SPX_CTL_JOIN_KEY then s.keyFrom n 0 else s

/-- SUB_OPEN (R346). DEDUCED (log 13): an NSUB outside 1-16 is a reserved encoding (R15). -/
def execSubOpen (c : Cmd) (s : State) : Host.Outcome State Fault Refusal :=
  let d := c.desc
  let i := dIdx d
  let n := dget d 16 0 7
  .next (s.begin c 0x10 true (dSub d = 0 ∧ dClean d (subFields d) ∧ 1 ≤ dget d 17 0 8 ∧ dget d 17 0 8 ≤ 16) [2] none (fun s o =>
    let st := s.get (R.STRMn_STATE_STATE n)
    if s.get (R.EGR_SUBs_STATE_STATE i) ≠ 0 ∨ s.get (R.EGR_SUBs_STATE_PEND i) ≠ 0 then s.complete o St.busy else
    if st ≠ 0 ∧ (s.strm n).p.typ ≠ 3 then s.complete o St.wrongType else
    if st ≠ 1 ∧ st ≠ 2 then s.complete o St.notOn else
    if ¬ (s.strm n).p.subsOk (subIds d) then s.complete o St.geometry
    else (s.requestCmd o 2 i true).subTake i n d))

/-- SUB_CLOSE (R347): the last picture is the one whose Stroke period contains this cycle. -/
def execSubClose (c : Cmd) (s : State) : Host.Outcome State Fault Refusal :=
  let i := dIdx c.desc
  .next (s.begin c 0x11 true (dSub c.desc = 0 ∧ dClean c.desc []) [2] none (fun s o =>
    let on := s.get (R.EGR_SUBs_STATE_STATE i) = 2
    let s := s.requestCmd o 2 i false
    match s.sub i with
    | some b => if on then s.setSub i (some { b with last := some (s.pictureNow b.canvas) }) else s
    | none => s))

/-- Nothing of a subscriber's last picture is left to send. -/
def State.subDrained (s : State) (i : Nat) (b : SubS) : Bool :=
  (match b.last with | some l => decide (l < (s.strm b.canvas).outPic) | none => false) &&
  !s.egr.any (fun e => e.2.any (fun f => f.kind == 1 && f.key / 4 == i))

/-- SUB_OFF (R347): the last packet of a STOPPING subscriber's last picture has left. -/
def execSubOff (i : Fin 4096) (s : State) : Host.Outcome State Fault Refusal :=
  .next (match s.sub i with
    | none => s
    | some b =>
      if s.get (R.EGR_SUBs_STATE_STATE i) = 3 ∧ s.subDrained i b then (s.reachOff 2 i).subClear i else s)

/-- SVC_SET (R348): the service takes the values at its shaper's next refill, when the command completes (R331). -/
def execSvcSet (c : Cmd) (s : State) : Host.Outcome State Fault Refusal :=
  let d := c.desc
  let i := dIdx d
  let v := dget d 16 0 2
  let pa := dget d 17 0 8
  let pb := dget d 18 0 8
  let rate := dget d 20 0 32
  let burst := dget d 24 0 32
  let en := dget d 28 0 1
  .next (s.begin c 0x12 true (dSub d = 0 ∧
      dClean d [(16, 0, 2), (17, 0, 8), (18, 0, 8), (19, 0, 3), (20, 0, 32), (24, 0, 32), (28, 0, 1)]) [2] none (fun s o =>
    if 63 < pa ∨ (63 < pb ∧ pb ≠ 255) ∨ (en = 1 ∧ (rate = 0 ∨ burst = 0)) then s.complete o St.badValue
    else s.await o (.svc (4 * i + v) [pa, pb, dget d 19 0 3, en, rate, burst])) (s.portsThere [pa, pb]))

end Sys2Proof.Machine
end

