-- ==== Sys2Proof/Machine/Micro.lean ====
section
/-!
DEFINITION. The Scull's sequencer (R248-R282): the fields of a microword and what makes it illegal, its fetch, its execution,
traps, residue verdicts, self-test, and the loading and verifying of a control store.
-/
namespace Sys2Proof.Machine

/-! ## The fields of a microword (R248, R251) -/

/-- Bits `[lo+w-1:lo]` of a microword. -/
def uf (w lo n : Nat) : Nat := w / 2 ^ lo % 2 ^ n

def uNxt (w : Nat) : Nat := uf w 0 4
def uTgt (w : Nat) : Nat := uf w 4 12
def uCsel (w : Nat) : Nat := uf w 16 6
def uWait (w : Nat) : Nat := uf w 24 6
def uLoopSel (w : Nat) : Nat := uf w 30 2
def uLoopOp (w : Nat) : Nat := uf w 32 3
def uAgu (w i : Nat) : Nat := uf w (35 + 16 * i) 16
def uBowOp (w : Nat) : Nat := uf w 121 3
def uHoldPre (w : Nat) : Bool := natBit w 135
def uTokW (w : Nat) : Bool := natBit w 136

/-- The conditions of a CASE: k by WAYS (R255). -/
def uWays (w : Nat) : Nat := match uf w 22 2 with | 0 => 0 | 1 => 1 | 2 => 2 | _ => 4

/-- NXT uses TGT (R254). -/
def uUsesTgt (w : Nat) : Bool := decide (uNxt w ∈ [1, 2, 3, 5, 6]) || (decide (uNxt w = 9) && decide (uTgt w ≠ 0))

/-- A datapath sub-field holds a reserved encoding (R251). DEDUCED (log 52): a NXT of LOOP with SEL 3 names no counter. -/
def uReserved (w : Nat) : Bool :=
  let blk := fun (lo : Nat) => decide (25 ≤ uf w lo 5)
  decide (11 ≤ uNxt w) ||
  (decide (uLoopSel w = 3) && (decide (uLoopOp w ≠ 0) || decide (uNxt w = 5))) || decide (6 ≤ uLoopOp w) ||
  decide (5 ≤ uf w 35 4) || decide (6 ≤ uf w 39 3) || decide (5 ≤ uf w 51 4) || decide (6 ≤ uf w 55 3) ||
  decide (4 ≤ uf w 67 3) || decide (4 ≤ uf w 71 3) || blk 74 ||
  decide (4 ≤ uf w 81 3) || decide (uf w 84 2 = 3) || blk 86 ||
  decide (5 ≤ uf w 91 3) || decide (5 ≤ uf w 94 3) || decide (uf w 97 2 = 3) ||
  decide (6 ≤ uf w 103 3) ||
  decide (uf w 113 3 = 7) || decide (uf w 116 2 = 3) || decide (3 ≤ uf w 118 3) ||
  decide (5 ≤ uf w 121 3) || decide (8 ≤ uf w 124 5)

/-- R255 is broken, or CSEL or WAIT names a reserved condition (R253). -/
def uBadBranch (w : Nat) : Bool :=
  (decide (uNxt w = 2) && (decide (uTgt w % 2 ^ uWays w ≠ 0) || decide (64 < uCsel w + uWays w))) ||
  (decide (uNxt w = 6) && decide (uTgt w % 4 ≠ 0)) || decide (20 ≤ uCsel w) || decide (20 ≤ uWait w)

/-- A fetched word is illegal (R273), with LOCKSTEP, the stack, whether the Scull is in a trap, and the run of HOLDPRE words before it. -/
def uIllegal (w : Nat) (lock : Bool) (depth : Nat) (intrap : Bool) (hold : Nat) : Bool :=
  decide (uf w 139 5 ≠ 0) || decide (uf w 137 2 ≠ 0) || decide (uf w 79 2 ≠ 0) || uReserved w || uBadBranch w ||
  (lock && decide (uWait w ≠ 0)) || ((decide (uLoopOp w = 1) || uTokW w) && uUsesTgt w) ||
  (decide (uNxt w = 5) && decide (uLoopOp w ≠ 0)) ||
  (decide (uNxt w = 3) && decide (4 ≤ depth)) || (decide (uNxt w = 4) && decide (depth = 0)) ||
  (decide (uNxt w = 9) && !intrap) || (uHoldPre w && decide (32 ≤ hold))

/-! ## Traps (R262-R271) -/

/-- The Scull is in a trap handler. -/
def State.inTrap (s : State) (u : Nat) : Bool := s.flag (R.USTAT_INTRAP u)

/-- The job of a Scull is aborted, or its test run stops (R158, R281). -/
def State.uDrop (s : State) (u : Nat) : State := if (s.run u).isSome then s.abortJob u else s.seqStop u

/-- A double trap (R266, R271). -/
def State.doubleTrap (s : State) (u : Nat) : State :=
  ((s.send u 0x45 u (s.seq u).upc).uDrop u).countRetire u

/-- A trap of a cause is raised; the lowest cause holds (R262). Any cause but a preemption is a double trap in a handler (R266). -/
def State.uRaise (s : State) (u c : Nat) : State :=
  if s.inTrap u ∧ c ≠ 5 then s.doubleTrap u else
  let q := s.seq u
  s.setSeq u { q with raised := if q.raised = 0 then c else min q.raised c }

/-- A Scull whose retirement count has reached the limit retires (R157). -/
def State.retireIfDue (s : State) (u : Nat) : State :=
  if s.get (R.CREWc_RETIRE_LIMIT (u / 36)) ≤ s.get (R.CREWc_SCULLq_RCNT (u / 36) (u % 36)) then s.retire u 1 else s

/-! ## Execution (R250, R254-R261) -/

/-- The record of the picture that a job codes. -/
def State.jobRecord (s : State) (j : Job) : Record := ((s.pic j.stream j.pic).map (fun p => p.record)).getD {}

/-- Where the CTU that a job codes stands (R99, R118, R176): it has an effort level where it holds a lease, and is in floor mode
where it holds none. -/
def State.ctuPlace (s : State) (r : RunS) : CtuPlace :=
  { level := if r.leases.any (fun l => l.1 == r.x) then some r.eff else none, p := s.picP r.job.stream r.job.pic,
    rcd := s.jobRecord r.job, reg := r.job.reg, x := r.x, row := r.job.row, refs := r.finals }

/-- The bytes that a Scull's syntax queue holds (R101): those of the CTU under way, and of the CTUs that the Bow has not coded. -/
def SeqS.queued (q : SeqS) : Nat := q.recB + q.bowq.foldl (fun n b => n + b) 0

/-- The queue of 32 KiB can take a record of a type (R101, R252). -/
def SeqS.takes (q : SeqS) (type : Nat) : Bool := decide (q.queued + (Config.recordBytes type).toNat ≤ 32768)

/-- The type of a syntax record (R251). -/
def uRecord (w : Nat) : Nat := uf w 124 5

/-- The search-cache lines of a window (R97): slot, first and last CTU column and row. -/
def winLines (v : Nat × Nat × Nat × Nat × Nat) : List (Nat × Nat × Nat) :=
  (List.range (v.2.2.2.2 + 1 - v.2.2.2.1)).flatMap (fun j => (List.range (v.2.2.1 + 1 - v.2.1)).map (fun i => (v.1, v.2.1 + i, v.2.2.2.1 + j)))

/-- The search-cache lines of a Scull's current windows. -/
def State.uLines (s : State) (u : Nat) : List (Nat × Nat × Nat) :=
  match s.run u with | some r => r.wins.flatMap (fun v => winLines v.2) | none => []

/-- The conditions of R252 at word `w`: those that the sequencer, its job, RRC and the units decide, and what is given of the
units' own timing: that the reads and the writes outstanding have been answered, and that the last record of the syntax has been read. The
syntax of a job whose input is not lost goes to its last CTU (R226). -/
def State.uConds (s : State) (u w : Nat) (given : BitVec 64) : Nat :=
  let q := s.seq u
  let g := fun (i : Nat) => natBit given.toNat i
  let is : Nat → Bool := fun i => match i, s.run u with
    | 0, _ => true
    | 1, some r => s.aboveReady r.job q.x
    | 2, _ => q.takes (uRecord w)
    | 3, _ => (s.uLines u).all (fun l => decide (l ∈ tabGet [] s.scache (u / 4))) && (!q.rd || g 4)
    | 4, _ => !q.rd || g 4
    | 5, _ => !q.wr || g 5
    | 6, some r => decide (r.asked = some r.x)
    | 7, some r => decide (r.asked = some r.x) && !r.leases.any (fun l => l.1 == r.x)
    | 8, _ => decide (q.lc0 = 0)
    | 9, _ => decide (q.lc1 = 0)
    | 10, _ => decide (q.lc2 = 0)
    | 11, some r => decide (q.x + 1 = r.job.nCtu)
    | 12, some r => decide (r.job.row = ((s.picP r.job.stream r.job.pic).region r.job.reg).2.2.1)
    | 13, some r => (s.jobRecord r.job).irap || (s.jobRecord r.job).startup
    | 14, some r => (s.ctuPlace { r with x := q.x }).inColumn
    | 15, some r => (s.ctuPlace { r with x := q.x }).clean
    | 16, some r => r.job.dec
    | 17, _ => s.inTrap u && s.flag (R.UTRAP_CAUSE_ABORT u)
    | 18, _ => q.less
    | 19, some r => r.job.dec && s.flag (R.STRMn_DCTL_AHEAD r.job.stream) &&
        (decide (q.x + 1 = r.job.nCtu) || decide ((r.job.pic, r.job.row, r.job.reg) ∈ (s.strm r.job.stream).dec.lost)) && g 19
    | _, _ => false
  (List.range 20).foldl (fun n i => n + b2n (is i) * 2 ^ i) 0

/-- The line pitch and the CTU step of a window of the job's stream (R251). DESIGN CHOICE (log 54): that of window 0, the strip or hatch, is the
line_bytes of R89 for luma; the others, and those of a test run, which has no stream, are free values, the same at every use. -/
def State.aguStep (s : State) (u win : Nat) (ctu : Bool) : Nat :=
  match s.run u with
  | none => (Config.aguStep [0, win, b2n ctu]).toNat
  | some r =>
    let p := (s.strm r.job.stream).p
    if win = 0 ∧ ¬ ctu then ceilDiv (p.w * (if p.bits10 then 10 else 8)) 512 * 64 else (Config.aguStep [r.job.stream + 1, win, b2n ctu]).toNat

/-- An address generator's operation (R251): its window and pointer. -/
def State.agu (s : State) (u f : Nat) (win ptr : Nat) : Nat × Nat :=
  match f % 16 with
  | 1 => (f / 16 % 8, 0)
  | 2 => (win, unsigned 32 ((ptr : Int) + 16 * signed 9 (f / 128)))
  | 3 => (win, (ptr + s.aguStep u win false) % 2 ^ 32)
  | 4 => (win, (ptr + s.aguStep u win true) % 2 ^ 32)
  | _ => (win, ptr)

/-- A loop counter after a LOOP-field operation. -/
def loopOp (op tgt ctus c : Nat) : Nat :=
  match op with
  | 1 => tgt
  | 2 => ctus - 1
  | 3 => (c + 2 ^ 12 - 1) % 2 ^ 12
  | 4 => (c + 1) % 2 ^ 12
  | 5 => 0
  | _ => c

/-- The loop counters, with counter `i` changed. -/
def SeqS.setLc (q : SeqS) (i v : Nat) : SeqS :=
  match i with | 0 => { q with lc0 := v } | 1 => { q with lc1 := v } | 2 => { q with lc2 := v } | _ => q

def SeqS.lc (q : SeqS) (i : Nat) : Nat := match i with | 0 => q.lc0 | 1 => q.lc1 | 2 => q.lc2 | _ => 0

/-- The CTUs coded at each of E1 to E3, with one more at level `e`. -/
def effAdd (e : Nat) (n : Nat × Nat × Nat) : Nat × Nat × Nat :=
  match e with
  | 1 => (n.1 + 1, n.2)
  | 2 => (n.1, n.2.1 + 1, n.2.2)
  | 3 => (n.1, n.2.1, n.2.2 + 1)
  | _ => n

/-- A CTU word (R94, R96, R256, R258): the CTU index, its level and QP. With it Reconstruct of the CTU before has completed, so that Decide of
this one may begin and the rows below may use it, the CTU before that is filtered, and the search of the next one runs. DEDUCED (log 54):
the sequencer has no other mark of a CTU's stages. A level that rises here is preempted to like any other rise (R152). The manual gives a decode
job no effort level, and a test run neither level nor QP: DESIGN CHOICE (log 128): a decode job latches level 0 and dispatches on it, and a test
run latches nothing and dispatches on the level that USTAT.EFF shows. -/
def State.uCtuWord (s : State) (u : Nat) : State :=
  let q := s.seq u
  if s.flag (R.USTAT_RETRY u) then (s.setSeq u { q with stage := 0, best := none, costs := [] }).set (R.USTAT_RETRY u) 0 else
  let x := if q.ctus = 0 then 0 else q.x + 1
  let s := (s.setSeq u { q with x := x, ctus := q.ctus + 1, stage := 0, best := none, costs := [], res := none }).set (R.USTAT_RES1 u) 0
  match s.run u with
  | none => s
  | some r =>
    let j := r.job
    let e := if j.dec then 0 else s.levelOf u { r with x := x }
    let qp := ((r.qpRow : Int) + r.delta)
    let qp := max (s.get (R.RRCn_QP_QP_MIN j.stream) : Int) (min (s.get (R.RRCn_QP_QP_MAX j.stream) : Int) qp)
    let s := (s.set (R.USTAT_EFF u) e).setRun u (some { r with
      x := x, eff := e, qpX := qp.toNat, told := if j.dec then r.told else e, recon := x, srch := min (x + 1) (j.nCtu - 1), effs := effAdd e r.effs })
    let s := match s.prog j.stream j.pic j.row j.reg with
      | some g => s.setProg { g with recon := max g.recon x, filt := max g.filt (x - 1) }
      | none => s
    if ¬ j.dec ∧ r.told < e then s.sendPreempt u e false else s

/-- The job of a Scull ends (R102, R254, R263): it waits for its completion, and the Scull becomes idle. -/
def State.uEndJob (s : State) (u : Nat) : State :=
  match s.run u with
  | none => s.seqStop u
  | some r =>
    let j := r.job
    let s := match s.prog j.stream j.pic j.row j.reg with
      | some g => s.setProg { g with recon := j.nCtu, filt := j.nCtu }
      | none => s
    let s : State := { s.setRun u none with ended := tabSet [] s.ended u (tabGet [] s.ended u ++ [r]), preempt := tabSet none s.preempt u none }
    s.seqStop u

/-- The state that a trap saved is restored (R265, R269); the result is its micro-PC. -/
def State.uRestore (s : State) (u : Nat) : State × Nat :=
  let q := s.seq u
  let q := { q with lc0 := s.get (R.UTRAP_LC01_LC0 u), lc1 := s.get (R.UTRAP_LC01_LC1 u), lc2 := s.get (R.UTRAP_LC2_LC2 u),
                    agu0 := s.get (R.UTRAP_AGU0_PTR u), agu1 := s.get (R.UTRAP_AGU1_PTR u), token := s.get (R.UTRAP_TOKEN_TOKEN u),
                    cond := BitVec.ofNat 64 (s.get (R.UTRAP_CONDL_COND u) + s.get (R.UTRAP_CONDH_COND u) * 2 ^ 32) }
  let s := (s.setSeq u q).set (R.USTAT_INTRAP u) 0
  let s := if s.get (R.UTRAP_CAUSE_CAUSE u) = 3 then s.set (R.USTAT_RETRY u) 1 else s
  (s, s.get (R.UTRAP_UPC_UPC u))

/-- The luma samples that a SRCH RANGE reaches about a CTU, in CTUs (R97, R251): at the widest a window of 9 x 5. -/
def searchReach (range : Nat) : Nat × Nat := match range with | 0 => (4, 2) | 1 => (2, 1) | 2 => (1, 1) | _ => (0, 0)

/-- A search cache of 384 luma lines takes a line (R97): one that is there is the most recently used now; for a new one in a full cache the
least recently used line goes that lies in no window of the Four's Sculls, and where there is none the line stays out. -/
def cacheTake (used : List (Nat × Nat × Nat)) (l : List (Nat × Nat × Nat)) (x : Nat × Nat × Nat) : List (Nat × Nat × Nat) :=
  if x ∈ l then x :: l.filter (fun y => y != x)
  else if l.length < 384 then x :: l
  else match l.reverse.find? (fun y => !used.contains y) with
    | some y => x :: l.filter (fun z => z != y)
    | none => l

/-- SRCH LOAD (R94, R97, R99): the window of a reference lies about the place of the CTU in the search stage, the one after the CTU under way, within the picture or the subpicture; its lines come into
the Four's search cache, which serves every Scull of the Four. -/
def State.srchLoad (s : State) (u ref range : Nat) : State :=
  match s.run u with
  | none => s
  | some r =>
    let p := s.picP r.job.stream r.job.pic
    let rec_ := s.jobRecord r.job
    let g := p.region r.job.reg
    let (x0, x1, y0, y1) : Nat × Nat × Nat × Nat := if p.typ = 3 then (g.1, g.1 + g.2.1, g.2.2.1, g.2.2.1 + g.2.2.2) else (0, p.wCtu, 0, p.nRows)
    let d := searchReach range
    let cx := g.1 + r.srch
    let v := (if ref = 0 then rec_.ref0 else rec_.ref1, max x0 (cx - d.1), min (x1 - 1) (cx + d.1), max y0 (r.job.row - d.2),
              min (y1 - 1) (r.job.row + d.2))
    let s := s.setRun u (some { r with wins := (ref, v) :: r.wins.filter (fun e => e.1 != ref) })
    let used := (List.range 4).flatMap (fun k => s.uLines (4 * (u / 4) + k))
    let had := tabGet [] s.scache (u / 4)
    let now := (winLines v).foldl (cacheTake used) had
    let s : State := { s with scache := tabSet [] s.scache (u / 4) now }
    if (winLines v).all (fun l => decide (l ∈ had)) then s else s.setSeq u { s.seq u with rd := true }

/-- REC READBACK (R98, R251): the provisional lines of the CTU above are read back from the Rack. -/
def State.recBack (s : State) (u : Nat) : State :=
  match s.run u with
  | none => s
  | some r =>
    let g := (s.picP r.job.stream r.job.pic).region r.job.reg
    let s := s.setSeq u { s.seq u with rd := true }
    if r.job.row = g.2.2.1 then s else s.setRun u (some { r with back := r.x :: r.back.filter (fun y => y != r.x) })

/-- The mid-grey samples of a plane of a CTU. -/
def greyCtu (bits10 : Bool) : List Nat := List.replicate 4096 (2 ^ (if bits10 then 9 else 7))

/-- REC WRITE (R93, R98, R117, R199, R251): the CTU's samples of PLANE go to the picture's Rack slot, its last lines provisional but in the last row of the tile or
subpicture; with them the provisional lines of the CTU above that were read back, completed, are final. The start-up picture decodes to
mid-grey. -/
def State.recWrite (s : State) (u plane : Nat) (c : UCond) : State :=
  match s.run u with
  | none => s
  | some r =>
    let p := s.picP r.job.stream r.job.pic
    let g := p.region r.job.reg
    let last := decide (p.lastBand r.job.row r.job.reg + 1 = g.2.2.1 + g.2.2.2)
    let slot := (s.jobRecord r.job).wslot
    let k := s.slotCont slot
    let grey := fun (l : List Nat) => if (s.jobRecord r.job).startup then greyCtu p.bits10 else l
    let k := if r.x ∈ r.back then k.finish (g.1 + r.x) (r.job.row - 1) plane (grey c.above) else k
    { s with slotC := tabSet {} s.slotC slot (k.write (g.1 + r.x) r.job.row plane (grey c.recon) last) }

/-- The furthest stage of R93 that the units a word names belong to: 1 search, 2 interpolate, 3 decide, 4 transform, 5 reconstruct,
6 syntax, 7 write-back. -/
def uStage (w : Nat) : Nat :=
  if uf w 113 3 = 5 then 7 else if uBowOp w ≠ 0 then 6 else if uf w 113 3 ≠ 0 then 5 else if uf w 91 3 ≠ 0 then 4
  else if uf w 103 3 ≠ 0 then 3 else if uf w 81 3 ≠ 0 then 2 else if uf w 67 3 ≠ 0 then 1 else 0

/-- The distortion D of a candidate (R107, R251): with METRIC 0 the sum of the squared differences of its samples from the picture's, with METRIC 1
the sum of the absolute values of the 8 x 8 Hadamard transforms of the differences, over the blocks of 8 x 8 that it touches. -/
def State.distortion (s : State) (r : RunS) (satd : Bool) (cand : List (Nat × Nat × Nat × Nat)) : Nat :=
  let diff := fun (e : Nat × Nat × Nat × Nat) => (s.origSample r.job.stream r.job.pic e.1 e.2.1 e.2.2.1 : Int) - e.2.2.2
  if ¬ satd then cand.foldl (fun n e => n + ((diff e).natAbs) ^ 2) 0 else
  let blocks := (cand.map (fun e => (e.1, e.2.1 / 8, e.2.2.1 / 8))).eraseDups
  blocks.foldl (fun n b =>
    let l := (List.range 64).map (fun i =>
      match cand.find? (fun e => e.1 == b.1 && e.2.1 == 8 * b.2.1 + i % 8 && e.2.2.1 == 8 * b.2.2 + i / 8) with
      | some e => diff e
      | none => 0)
    (hadamard 6 l).foldl (fun n v => n + v.natAbs) n) 0

/-- An MDEC command (R107, R251): COST_INTRA, COST_INTER and COST_SKIP cost candidate CAND, COMPARE compares it with the best one so far at the
CTU's QP and keeps the better, COMMIT ends the decision. Without a job the outcome of a COMPARE is given. -/
def State.uDecide (s : State) (u w : Nat) (c : UCond) : State :=
  let q := s.seq u
  let cand := uf w 107 6
  match uf w 103 3 with
  | 0 => s
  | 4 =>
    let cost := ((q.costs.find? (fun e => e.1 == cand)).map (fun e => e.2)).getD (0, 0)
    let less := match s.run u, q.best with
      | some r, some b => costLess r.qpX cost b
      | some _, none => true
      | none, _ => natBit c.conds.toNat 18
    s.setSeq u { q with less := less, best := if less then some cost else q.best }
  | 5 => s.setSeq u { q with best := none }
  | _ =>
    let d := match s.run u with | some r => s.distortion r (natBit w 106) c.cand | none => 0
    s.setSeq u { q with costs := (cand, d, c.bits) :: q.costs.filter (fun e => e.1 != cand) }

/-- CTU_END of an encode job (R100, R101, R268): the records pushed since the last one reach the Bow's queue as those of CTU x; the modes and
vectors of its bottom CUs and, in HEVC, the CABAC state after the row's second CTU stand in the Attic for the next row. -/
def State.ctuEnd (s : State) (u : Nat) (c : UCond) : State :=
  match s.run u with
  | none => s
  | some r =>
    if r.job.dec then s else
    let q := s.seq u
    let s := (s.setSeq u { q with bowq := q.bowq ++ [q.recB] }).setRun u (some { r with sent := r.sent + 1 })
    let (d, s) := if ¬ (s.strm r.job.stream).p.vvc ∧ r.x = 1 then let d := s.draw 32; (some d.1, d.2) else (none, s)
    match s.prog r.job.stream r.job.pic r.job.row r.job.reg, c.code with
    | some g, some k => s.setProg { g with ctx := (r.x, k.bottom) :: g.ctx.filter (fun e => e.1 != r.x), cabac := if d.isSome then d else g.cabac }
    | _, _ => s

/-- The Bow's part of a word (R101, R268): PUSH adds a record to those of the CTU, CTU_END hands them over. -/
def State.uBow (s : State) (u w : Nat) (c : UCond) : State :=
  let q := s.seq u
  match uBowOp w with
  | 1 => s.setSeq u { q with recs := q.recs + 1, recB := q.recB + (Config.recordBytes (uRecord w)).toNat }
  | 3 => let s := s.ctuEnd u c
         s.setSeq u { s.seq u with recs := 0, recB := 0 }
  | _ => s

/-- The commands of a word to the search array, mode decision, reconstruction, the Bow and the ports: a read or a write issued is outstanding
until it is answered (R252), and the residue check of a CTU runs on from its last command to the interpolator or the transform (R537). -/
def State.uUnits (s : State) (u w : Nat) (c : UCond) : State :=
  let s := if uf w 67 3 = 1 then s.srchLoad u (uf w 70 1) (uf w 71 3) else s
  let s := (s.uDecide u w c).uBow u w c
  let s := if uf w 113 3 = 5 then s.recWrite u (uf w 116 2) c else if uf w 113 3 = 6 then s.recBack u else s
  let q := s.seq u
  s.setSeq u { q with stage := max q.stage (uStage w),
                      res := if uf w 81 3 ≠ 0 ∨ uf w 91 3 ≠ 0 then some s.lt else q.res,
                      rd := q.rd || decide (uf w 113 3 = 6) || decide (uf w 129 2 = 1) || decide (uf w 129 2 = 2),
                      wr := q.wr || decide (uf w 113 3 = 5) || decide (uf w 129 2 = 3) }

/-- The fields of the units of a word, in UCond's order: lowest bit, width, and the width of the command in it. -/
def uFields : List (Nat × Nat × Nat) := [(67, 14, 3), (81, 10, 3), (91, 12, 3), (103, 10, 3), (113, 8, 3), (121, 8, 3), (129, 6, 2)]

/-- The units that a word commands and that cannot accept it: those said so, the syntax queue where the record finds no space (R101), and
CTU_END while a residue check of the CTU is outstanding (R268). -/
def SeqS.refused (q : SeqS) (w : Nat) (c : UCond) : List (Nat × Nat × Nat) :=
  (List.range 7).filterMap (fun i =>
    let f := (uFields[i]?).getD (0, 0, 0)
    let no := natBit c.refuse.toNat i ||
      (decide (i = 5) && ((decide (uBowOp w = 1) && !q.takes (uRecord w)) || (decide (uBowOp w = 3) && q.res.isSome)))
    if uf w f.1 f.2.2 ≠ 0 ∧ no = true then some f else none)

/-- A word without the commands of some units. -/
def uWithout (w : Nat) (l : List (Nat × Nat × Nat)) : Nat := l.foldl (fun w f => w - uf w f.1 f.2.1 * 2 ^ f.1) w

/-- The datapath effects of a word that completes with conditions `cs`: what its conditions show as answered is outstanding no more, then
its units, its address generators, the resume token and the condition latch. In LOCKSTEP the commands `no` that their units do not accept
are discarded (R260). -/
def State.uData (s : State) (u w cs : Nat) (no : List (Nat × Nat × Nat)) (c : UCond) : State :=
  let q := s.seq u
  let s := s.setSeq u { q with rd := q.rd && !natBit cs 4, wr := q.wr && !natBit cs 5 }
  let s := s.uUnits u (uWithout w no) c
  let (w0, p0) := s.agu u (uAgu w 0) q.win0 q.agu0
  let (w1, p1) := s.agu u (uAgu w 1) q.win1 q.agu1
  let s := s.setSeq u { s.seq u with
    win0 := w0, agu0 := p0, win1 := w1, agu1 := p1, wait := none, stuck := false,
    token := if uTokW w then q.x % 2 ^ 16 * 2 ^ 16 + uTgt w else q.token,
    cond := BitVec.ofNat 64 cs, hold := if uHoldPre w then q.hold + 1 else 0 }
  if no = [] then s else s.raise (R.USTAT_LS_MISS u)

/-- A CTU_END that an encode job's coding backs (R99, R104-R108, R120): the CTU's coding is one that its level, or floor mode, allows. -/
def State.codeFits (s : State) (u : Nat) (c : UCond) : Bool :=
  match s.run u with
  | some r => r.job.dec || (match c.code with | some k => (s.ctuPlace r).ok k | none => false)
  | none => true

/-- The next micro-PC of a word that goes on, with the counter, the stack and the CTU it changes (R254). -/
def State.uNext (s : State) (u w cs : Nat) : State :=
  let q := s.seq u
  let nx := (q.upc + 1) % 2 ^ 12
  let go := fun (s : State) (a : Nat) => s.setSeq u { s.seq u with upc := a }
  match uNxt w with
  | 1 => go s (uTgt w)
  | 2 => go s (uTgt w + cs / 2 ^ uCsel w % 2 ^ uWays w)
  | 3 => (go (s.setSeq u { q with stack := nx :: q.stack }) (uTgt w)).set (R.USTAT_RSD u) (q.stack.length + 1)
  | 4 => (go (s.setSeq u { q with stack := q.stack.tail }) (q.stack.headD 0)).set (R.USTAT_RSD u) (q.stack.length - 1)
  | 5 =>
    let c := q.lc (uLoopSel w)
    if c = 0 then go s nx else go (s.setSeq u (q.setLc (uLoopSel w) (c - 1))) (uTgt w)
  | 6 => let s := s.uCtuWord u
         go s (uTgt w + s.get (R.USTAT_EFF u))
  | 9 => let r := s.uRestore u
         go r.1 (if uTgt w = 0 then r.2 else uTgt w)
  | _ => go s nx

/-- The LOOP-field operation of a word (R251, R257). -/
def State.uLoopField (s : State) (u w ctus : Nat) : State :=
  let q := s.seq u
  s.setSeq u (q.setLc (uLoopSel w) (loopOp (uLoopOp w) (uTgt w) ctus (q.lc (uLoopSel w))))

/-- A word completes: its LOOP operation comes after its NXT has used the counter (R257), but before an MRET restores the saved counters (R265).
DESIGN CHOICE (log 128): a test run has no job, and its LOADJ takes a job of one CTU. -/
def State.uComplete (s : State) (u w cs : Nat) (no : List (Nat × Nat × Nat)) (c : UCond) : State :=
  let s := s.uData u w cs no c
  let ctus := match s.run u with | some r => r.job.nCtu | none => 1
  match uNxt w with
  | 7 => s.uEndJob u
  | 8 => (s.setSeq u { s.seq u with recs := 0, recB := 0 }).uDrop u
  | 10 => if (s.run u).isSome then s.setSeq u { s.seq u with on := false } else s.seqStop u
  | _ =>
    if uNxt w = 9 ∧ s.get (R.UTRAP_CAUSE_CAUSE u) ≤ 2 then (s.setSeq u { s.seq u with recs := 0, recB := 0 }).uDrop u else
    let s := if uNxt w = 9 then (s.uLoopField u w ctus).uNext u w cs else (s.uNext u w cs).uLoopField u w ctus
    if (s.seq u).pre.isSome ∧ ¬ uHoldPre w ∧ ¬ s.inTrap u then s.uRaise u 5 else s

/-- The sequencer of `u` executes its word, whose NXT is `code` (R253, R259-R262): an uncorrectable fetch and an illegal word trap; a
word whose condition or units are not ready waits, as at a full syntax queue (R101); any other completes. A CTU ends with a coding
that the CTU may have: with any other the row does not occur. -/
def State.uExec (s : State) (u code : Nat) (c : UCond) : State :=
  let s0 := s
  let q := s.seq u
  if ¬ q.on ∨ q.raised ≠ 0 then s else
  let w0 := (s.uFetch u q.upc).2
  if uNxt w0.word ≠ code ∧ ¬ w0.bad ∧ uNxt w0.word < 11 then s else
  let f := if q.wait.isSome then (s, w0) else s.uFetch u q.upc
  let s := f.1
  if w0.bad then
    let s := s.ucsBad u q.upc w0.real
    if s.inTrap u then s.doubleTrap u else (s.uRaise u 1).retireIfDue u
  else
  let w := w0.word
  let lock := s.flag (R.UCTL_TMODE u)
  if uIllegal w lock q.stack.length (s.inTrap u) q.hold then
    let s := (s.send u 0x43 u q.upc).addSat (R.CREWc_SCULLq_RCNT (u / 36) (u % 36)) 1
    if s.inTrap u then s.doubleTrap u else (s.uRaise u 2).retireIfDue u
  else
  let cs := s.uConds u w c.conds
  let no := q.refused w c
  if ¬ lock ∧ ¬ (no = [] ∧ (uWait w = 0 ∨ natBit cs (uWait w))) then
    s.setSeq u { q with wait := some (q.wait.getD s.lt), stuck := decide (uWait w = 0) || natBit cs (uWait w) }
  else if no = [] ∧ uBowOp w = 3 ∧ ¬ s.codeFits u c then s0
  else s.uComplete u w cs no c

/-- The rows of R254. -/
def execUCont (u : Fin 144) (c : UCond) (s : State) : Host.Outcome State Fault Refusal := .next (s.uExec u 0 c)
/-- GOTO (R254). -/
def execUGoto (u : Fin 144) (c : UCond) (s : State) : Host.Outcome State Fault Refusal := .next (s.uExec u 1 c)
/-- CASE (R255). -/
def execUCase (u : Fin 144) (c : UCond) (s : State) : Host.Outcome State Fault Refusal := .next (s.uExec u 2 c)
/-- CALL (R254). -/
def execUCall (u : Fin 144) (c : UCond) (s : State) : Host.Outcome State Fault Refusal := .next (s.uExec u 3 c)
/-- RET (R254). -/
def execURet (u : Fin 144) (c : UCond) (s : State) : Host.Outcome State Fault Refusal := .next (s.uExec u 4 c)
/-- LOOP (R254). -/
def execULoop (u : Fin 144) (c : UCond) (s : State) : Host.Outcome State Fault Refusal := .next (s.uExec u 5 c)
/-- CTU (R256). -/
def execUCtu (u : Fin 144) (c : UCond) (s : State) : Host.Outcome State Fault Refusal := .next (s.uExec u 6 c)
/-- ENDJ (R254). -/
def execUEndj (u : Fin 144) (c : UCond) (s : State) : Host.Outcome State Fault Refusal := .next (s.uExec u 7 c)
/-- ABORT (R254). -/
def execUAbort (u : Fin 144) (c : UCond) (s : State) : Host.Outcome State Fault Refusal := .next (s.uExec u 8 c)
/-- MRET (R265). -/
def execUMret (u : Fin 144) (c : UCond) (s : State) : Host.Outcome State Fault Refusal := .next (s.uExec u 9 c)
/-- IDLE (R254). -/
def execUIdle (u : Fin 144) (c : UCond) (s : State) : Host.Outcome State Fault Refusal := .next (s.uExec u 10 c)

/-! ## Trap entry, time-out, preemption, residue -/

/-- TRAP_ENTRY (R264): the state is saved, and the vector of the cause comes next. -/
def execTrapEntry (u : Fin 144) (s : State) : Host.Outcome State Fault Refusal :=
  let q := s.seq u
  .next (if ¬ q.on ∨ q.raised = 0 then s else
    let p : Preempt := if q.raised = 5 then q.pre.getD {} else {}
    let s := ((s.set (R.UTRAP_CAUSE_CAUSE u) q.raised).set (R.UTRAP_CAUSE_ABORT u) (b2n p.abort)).set (R.UTRAP_CAUSE_LEVEL u) p.level
    let s := ((s.set (R.UTRAP_UPC_UPC u) q.upc).set (R.UTRAP_LC01_LC0 u) q.lc0).set (R.UTRAP_LC01_LC1 u) q.lc1
    let s := ((s.set (R.UTRAP_LC2_LC2 u) q.lc2).set (R.UTRAP_CONDL_COND u) q.cond.toNat).set (R.UTRAP_CONDH_COND u) (q.cond.toNat / 2 ^ 32)
    let s := ((s.set (R.UTRAP_AGU0_PTR u) q.agu0).set (R.UTRAP_AGU1_PTR u) q.agu1).set (R.UTRAP_TOKEN_TOKEN u) q.token
    let s := s.set (R.USTAT_INTRAP u) 1
    s.setSeq u { q with upc := q.raised, raised := 0, wait := none, hold := 0, pre := if q.raised = 5 then none else q.pre })

/-- UC_WAIT_TO (R259, R274): a word has waited for WTO x 1,024 cycles of CK_SCULL, of 5/6 ns. Where its condition is true now and no unit held it, it
completes in this cycle, and nothing is raised. -/
def execUcWaitTo (u : Fin 144) (s : State) : Host.Outcome State Fault Refusal :=
  let q := s.seq u
  .next (match q.wait with
    | none => s
    | some t =>
      if ¬ q.on ∨ s.flag (R.UCTL_TMODE u) ∨ (s.lt - t) * 3 < s.get (R.UCTL_WTO u) * 1024 * 5 then s else
      let w := (s.uFetch u q.upc).2.word
      if ¬ q.stuck ∧ natBit (s.uConds u w 0#64) (uWait w) then s else
      ((s.setSeq u { q with wait := none }).send u 0x44 u q.upc).uRaise u 4)

/-- PREEMPT_ARRIVE (R152, R263, R266): a preemption reaches its Scull; a waiting word is interrupted at once. One that finds no job is
discarded. -/
def execPreemptArrive (u : Fin 144) (s : State) : Host.Outcome State Fault Refusal :=
  .next (match tabGet none s.preempt u with
    | none => s
    | some p =>
      let s : State := { s with preempt := tabSet none s.preempt u none }
      let q := s.seq u
      if ¬ q.on ∨ (s.run u).isNone then s else
      let m : Preempt := match q.pre with
        | some o => { level := max o.level p.level, abort := o.abort || p.abort }
        | none => p
      let s := s.setSeq u { q with pre := some m }
      if q.wait.isSome ∧ ¬ s.inTrap u then (s.setSeq u { s.seq u with wait := none }).uRaise u 5 else s)

/-- A checker takes an injection that is armed for it (R542): one of COUNT is spent. -/
def State.chkTake (s : State) (group unit : Nat) : State × Bool :=
  if s.flag R.CHK_INJ_CTL_ARM ∧ s.get R.CHK_INJ_SEL_GROUP = group ∧ s.get R.CHK_INJ_SEL_UNIT = unit then
    let s : State := { s with chkLeft := s.chkLeft - 1 }
    (if s.chkLeft = 0 then s.set R.CHK_INJ_CTL_ARM 0 else s, true)
  else (s, false)

/-- The report of a checker that found an error, injected or not (R541, R542, R561). -/
def State.chkReport (s : State) (src kind addr detail : Nat) (real inj : Bool) : State :=
  if real ∧ inj then s.send src (kind / 16 * 16 + 15) addr detail else s.send src kind addr detail inj

/-- RESIDUE_VERDICT (R268, R269, R537, R538): the CTU's verdict, final 16 cycles of CK_SCULL after its last checked command. An error, real or injected,
traps the first time and retires the second. -/
def execResidueVerdict (u : Fin 144) (real : Bool) (unit : Fin 3) (s : State) : Host.Outcome State Fault Refusal :=
  let q := s.seq u
  let due : Bool := match q.res with | some t => decide (16 * 5 ≤ (s.lt - t) * 3) | none => false
  .next (if ¬ q.on ∨ due = false then s else
    let (s, inj) := (s.setSeq u { q with res := none }).chkTake 0 u
    if ¬ real ∧ ¬ inj then s else
    let s := s.setSeq u { s.seq u with recs := 0, recB := 0 }
    if s.flag (R.USTAT_RES1 u) then (s.chkReport u 0x11 u unit real inj).retire u 0
    else
      let s := (s.chkReport u 0x10 u unit real inj).set (R.USTAT_RES1 u) 1
      (s.setSeq u { s.seq u with wait := none }).uRaise u 3)

/-! ## The control store (R271, R272, R275-R281) -/

/-- UCS_CE_WRITEBACK (R272): a corrected word is written back. -/
def execUcsCeWriteback (u : Fin 144) (a : BitVec 12) (s : State) : Host.Outcome State Fault Refusal :=
  let at_ := u.val * 2 ^ 12 + a.toNat
  let w := ((s.gran 4 at_)[0]?).getD (0, 0)
  let y := syndOf 4 (syndrome 4 at_ 0 w)
  .next (if y.fixed then s.granWrite 4 at_ [y.fix w.1] false true else s)

/-- A word is committed to a Scull's store; the bad word at that address is no more. -/
def State.ucsCommit (s : State) (u a w : Nat) : State :=
  let s := s.arrWrite 4 (u * 2 ^ 12 + a) [w]
  if s.flag (R.USTAT_UCS_BAD u) ∧ s.get (R.UCS_BADADDR_ADDR u) = a then s.set (R.USTAT_UCS_BAD u) 0 else s

/-- UCS_WORD_REPAIR (R271, R275): at the basic level firmware rewrites the bad word from its image, with RUN 0 for the write, once the Scull is not
busy. -/
def execUcsWordRepair (u : Fin 144) (s : State) : Host.Outcome State Fault Refusal :=
  let a := s.get (R.UCS_BADADDR_ADDR u)
  let img := (s.seq u).img
  .next (if s.flag (R.USTAT_UCS_BAD u) ∧ ¬ s.expert 9 ∧ ¬ s.flag (R.USTAT_BUSY u) ∧ ¬ s.flag (R.USTAT_SUM_BUSY u) then
    s.ucsCommit u a (s.imageWord (if img = 0 then s.imageNow else img) a) else s)

/-- SELF_TEST_START (R130, R258): a spare with RUN set enters its self-test whenever its sequencer is stopped. -/
def execSelfTestStart (u : Fin 144) (s : State) : Host.Outcome State Fault Refusal :=
  .next (if s.crewPresent (u / 36) ∧ s.sculState u = 1 ∧ s.flag (R.UCTL_RUN u) ∧ ¬ (s.seq u).on ∧ (s.run u).isNone then
    let s := s.seqStart u 0x00E
    s.setSeq u { s.seq u with test := true }
  else s)

/-- A Scull's store can be accessed (R275). -/
def State.ucsOpen (s : State) (u : Nat) : Bool :=
  !s.flag (R.UCTL_RUN u) && !s.flag (R.USTAT_BUSY u) && !s.flag (R.USTAT_SUM_BUSY u)

/-- The read latch is loaded from the word at ADDR (R277). -/
def State.ucsLatch (s : State) (u : Nat) : State :=
  let at_ := u * 2 ^ 12 + s.get (R.UCS_ADDR_ADDR u)
  let w := ((s.gran 4 at_)[0]?).getD (0, 0)
  let y := syndOf 4 (syndrome 4 at_ 0 w)
  let r := s.arrRead 4 at_
  let d := (r.2.1[0]?).getD 0
  let s := (List.range 4).foldl (fun s i => s.setReg (A.UCS_DATA0 u + 4 * i) (BitVec.ofNat 32 (d / 2 ^ (32 * i)))) r.1
  s.setReg (A.UCS_DATA4 u) (BitVec.ofNat 32 (d / 2 ^ 128 % 2 ^ 16 + w.2 % 2 ^ 9 * 2 ^ 16 + b2n y.fixed * 2 ^ 25 + b2n y.lost * 2 ^ 26))

/-- A write of UCS_ADDR (R275, R277). -/
def State.ucsAddrWrite (s : State) (u : Nat) (d : Word) : State :=
  if s.ucsOpen u then (s.plainWrite (A.UCS_ADDR u) d).ucsLatch u else s.cfgReport (A.UCS_ADDR u)

/-- UCS_ADDR_WRITE. -/
def execUcsAddrWrite (w : Who) (u : Fin 144) (d : Word) (s : State) : Host.Outcome State Fault Refusal :=
  .next (s.ownWrite w (A.UCS_ADDR u) d (fun s => s.ucsAddrWrite u d))

/-- ADDR advances where AUTOINC is 1 (R276, R277). -/
def State.ucsAdvance (s : State) (u : Nat) : State :=
  if s.flag (R.UCS_ADDR_AUTOINC u) then s.incMod (R.UCS_ADDR_ADDR u) else s

/-- A word of the staging word is filled (R276): UCS_DATA0-UCS_DATA3. -/
def State.ucsDataWrite (s : State) (u i : Nat) (d : Word) : State :=
  let q := s.seq u
  let g := q.stg.toNat
  s.setSeq u { q with stg := BitVec.ofNat 144 (g - g / 2 ^ (32 * i) % 2 ^ 32 * 2 ^ (32 * i) + d.toNat * 2 ^ (32 * i)) }

/-- A write of UCS_DATA4 (R275, R276): the staging word is committed. -/
def State.ucsData4Write (s : State) (u : Nat) (d : Word) : State :=
  if ¬ s.ucsOpen u then s.cfgReport (A.UCS_DATA4 u) else
  let q := s.seq u
  let g := q.stg.toNat % 2 ^ 128 + wordGet d 0 16 * 2 ^ 128
  ((s.setSeq u { q with stg := BitVec.ofNat 144 g }).ucsCommit u (s.get (R.UCS_ADDR_ADDR u)) g).ucsAdvance u

/-- UCS_DATA4_WRITE. -/
def execUcsData4Write (w : Who) (u : Fin 144) (d : Word) (s : State) : Host.Outcome State Fault Refusal :=
  .next (s.ownWrite w (A.UCS_DATA4 u) d (fun s => s.ucsData4Write u d))

/-- A read of UCS_DATA4 (R275, R277): the latch; with AUTOINC the next word is latched after it. -/
def State.readData4 (s : State) (u : Nat) : State × Word :=
  if ¬ s.ucsOpen u then (s, 0) else
  let v := s.reg (A.UCS_DATA4 u)
  (if s.flag (R.UCS_ADDR_AUTOINC u) then (s.ucsAdvance u).ucsLatch u else s, v)

/-- UCS_DATA4_READ. -/
def execUcsData4Read (w : Who) (u : Fin 144) (s : State) : Host.Outcome State Fault Refusal :=
  let a := A.UCS_DATA4 u
  .next (if s.absent a ∨ ¬ s.domainOn a then s.emit (.value w a 0) else (s.readData4 u).1.emit (.value w a (s.readData4 u).2))

/-- A write of UCTL (R261, R275, R278): RUN written 0 waits for the end of the job, TMODE changes only while the sequencer is stopped.
DEDUCED (log 53): SUM_GO reads the store, and is ignored and reported where R275 allows no access. -/
def State.uctlWrite (s : State) (u : Nat) (d : Word) : State :=
  let run := s.flag (R.UCTL_RUN u)
  let busy := s.flag (R.USTAT_BUSY u)
  let open_ := s.ucsOpen u
  let s := s.set (R.UCTL_WTO u) (wordGet d 16 16)
  let mode := wordGet d 1 1
  let s := if mode = s.get (R.UCTL_TMODE u) then s
    else if run ∨ busy then s.cfgReport (A.UCTL u) else s.set (R.UCTL_TMODE u) mode
  let q := s.seq u
  let s := if wordGet d 0 1 = 1 then (s.setSeq u { q with runOff := false }).set (R.UCTL_RUN u) 1
    else if busy then s.setSeq u { q with runOff := true } else s.set (R.UCTL_RUN u) 0
  if wordGet d 2 1 = 0 then s else if open_ then s.set (R.USTAT_SUM_BUSY u) 1 else s.cfgReport (A.UCTL u)

/-- RUN_WRITE. -/
def execRunWrite (w : Who) (u : Fin 144) (d : Word) (s : State) : Host.Outcome State Fault Refusal :=
  .next (s.ownWrite w (A.UCTL u) d (fun s => s.uctlWrite u d))

/-- TMODE_WRITE. -/
def execTmodeWrite (w : Who) (u : Fin 144) (d : Word) (s : State) : Host.Outcome State Fault Refusal :=
  .next (s.ownWrite w (A.UCTL u) d (fun s => s.uctlWrite u d))

/-- SUM_GO. -/
def execSumGo (w : Who) (u : Fin 144) (d : Word) (s : State) : Host.Outcome State Fault Refusal :=
  .next (if wordGet d 2 1 = 1 then s.ownWrite w (A.UCTL u) d (fun s => s.uctlWrite u d) else s)

/-- SUM_DONE (R278). -/
def execSumDone (u : Fin 144) (s : State) : Host.Outcome State Fault Refusal :=
  .next (if ¬ s.flag (R.USTAT_SUM_BUSY u) then s else
    let r := (List.range (2 ^ 12)).foldl (fun (acc : State × Nat) a =>
      let x := acc.1.sumWord u a
      (x.1, x.2.foldl crcByte acc.2)) (s, 0xFFFFFFFF)
    ((r.1.set (R.UCS_SUM_CRC u) (Nat.xor r.2 0xFFFFFFFF)).set (R.USTAT_SUM_BUSY u) 0).retireIfDue u)

/-- A write of USTART (R281). -/
def State.ustartWrite (s : State) (u : Nat) (d : Word) : State :=
  if wordGet d 31 1 = 0 then s.plainWrite (A.USTART u) d else
  if s.flag (R.UCTL_RUN u) ∨ s.flag (R.USTAT_BUSY u) then s.cfgReport (A.USTART u) else
  let s := (s.plainWrite (A.USTART u) d).seqStart u (wordGet d 0 12)
  s.setSeq u { s.seq u with test := true }

/-- USTART_GO. -/
def execUstartGo (w : Who) (u : Fin 144) (d : Word) (s : State) : Host.Outcome State Fault Refusal :=
  .next (if wordGet d 31 1 = 1 then s.ownWrite w (A.USTART u) d (fun s => s.ustartWrite u d) else s)

end Sys2Proof.Machine
end

