-- ==== Sys2Proof/Machine/Protect.lean ====
section
/-!
DEFINITION. Data protection (R523-R544): what the reader of a protected array does with what it gets, the scrubber and the walkers,
the flip sets and injected checkers, the Larder window, link and queue checks.
-/
namespace Sys2Proof.Machine

/-! ## The scrubber (R533-R535) -/

/-- A range of the scrubber: its first address and its bytes. -/
def State.scrubRange (s : State) (r : Nat) : Nat × Nat :=
  (s.get (R.SCRUB_RNGr_BASE_UNITS r) * 65536, s.get (R.SCRUB_RNGr_SIZE_UNITS r) * 65536)

/-- The family of an address that the scrubber reads. -/
def State.scrubFam (s : State) (a : Nat) : Nat := if a < s.cellarSize then 0 else 1

/-- Every range that is not empty lies wholly in the Cellar or in the Attic. -/
def State.scrubLegal (s : State) : Bool :=
  (List.range 8).all (fun r =>
    let x := s.scrubRange r
    decide (x.2 = 0) || decide (x.1 + x.2 ≤ s.cellarSize) || (decide (atticBase ≤ x.1) && decide (x.1 + x.2 ≤ atticBase + atticSize)))

/-- The first range from `r` on that is not empty. -/
def State.scrubFrom (s : State) (r : Nat) : Option Nat :=
  (List.range 8).find? (fun i => decide (r ≤ i) && decide ((s.scrubRange i).2 ≠ 0))

/-- The next address to scrub. -/
def State.scrubPos (s : State) : Nat := s.get R.SCRUB_POS_L_VALUE + s.get R.SCRUB_POS_H_VALUE * 2 ^ 32

def State.setScrub (s : State) (r a : Nat) : State :=
  ((s.set R.SCRUB_STAT_RANGE r).set R.SCRUB_POS_L_VALUE a).set R.SCRUB_POS_H_VALUE (a / 2 ^ 32 % 2 ^ 16)

/-- EN is written (R533). DEDUCED (log 49): a scrubber that is enabled starts at its first range. -/
def State.scrubEnable (s : State) (on : Bool) : State :=
  if ¬ on then s.set R.SCRUB_CTL_EN 0 else
  if s.flag R.SCRUB_CTL_EN then s else
  if ¬ s.scrubLegal then s.cfgReport A.SCRUB_CTL else
  let s := s.set R.SCRUB_CTL_EN 1
  match s.scrubFrom 0 with
  | some r => s.setScrub r (s.scrubRange r).1
  | none => s

/-- SCRUB_CTL_WRITE. -/
def execScrubCtlWrite (w : Who) (d : Word) (s : State) : Host.Outcome State Fault Refusal :=
  .next (s.ownWrite w A.SCRUB_CTL d (fun s => s.scrubEnable (wordGet d 0 1 == 1)))

/-- A write of a range register, ignored and reported while EN is 1 (R545). -/
def State.scrubRngWrite (s : State) (a : Nat) (d : Word) : State :=
  if s.flag R.SCRUB_CTL_EN then s.cfgReport a else s.plainWrite a d

/-- SCRUB_READ (R533, R605): the read of the next granule begins, unless the scrubber is held. -/
def execScrubRead (s : State) : Host.Outcome State Fault Refusal :=
  .next (if s.flag R.SCRUB_CTL_EN ∧ ¬ s.flag R.CLKPWR_SLEEP_SCRUB_HOLD ∧ ¬ s.flag R.SCRUB_STAT_BUSY ∧ (s.scrubFrom 0).isSome then s.set R.SCRUB_STAT_BUSY 1 else s)

/-- The scrubber stands at the first granule of range `q`, where there is one. -/
def State.scrubAt (s : State) (q : Option Nat) : State :=
  match q with
  | some q => s.setScrub q (s.scrubRange q).1
  | none => s

/-- Past range 7 a pass is complete, and the scrubber goes on at the first range (R533). -/
def State.scrubPass (s : State) : State :=
  let s := s.bump R.SCRUB_PASSES_VALUE
  s.scrubAt (s.scrubFrom 0)

/-- The scrubber goes on to the next granule; past range 7 a pass is complete. -/
def State.scrubNext (s : State) : State :=
  let r := s.get R.SCRUB_STAT_RANGE
  let a := s.scrubPos + granSpan (s.scrubFam s.scrubPos)
  let x := s.scrubRange r
  if a < x.1 + x.2 then s.setScrub r a else
  let q := s.scrubFrom (r + 1)
  if q.isSome then s.scrubAt q else s.scrubPass

/-- A corrected granule is written back unless a newer write of it has entered its queue (R534). -/
def State.writeBack (s : State) (f a : Nat) (ds : List Nat) : State :=
  let newer := f = 0 ∧ (s.pc (s.celPlace a).1 (s.celPlace a).2.1).writes.any (fun w => w.req.addr == a / 32 * 32)
  if newer then s else s.arrWrite f a ds true

/-- A read of the scrubber or of a walker: reported, and written back where it was corrected. -/
def State.scrubGranule (s : State) (f a : Nat) : State :=
  let fixed := ((s.gran f a).zip (List.range (keelN f))).any (fun e => (syndOf f (syndrome f a e.2 e.1)).fixed)
  let r := s.arrRead f a
  if fixed ∧ ¬ r.2.2 then r.1.writeBack f a r.2.1 else r.1

/-- FUNC_SET with FUNC 3, code 1 (R544): SCRUB_RATE. -/
def execScrubRateSet (c : Cmd) (s : State) : Host.Outcome State Fault Refusal :=
  let v := dValue c.desc
  .next (s.beginFunc c 3 1 (fun h => decide (h = 0)) (fun s o =>
    if v < 64 ∨ 1000000 < v then s.complete o St.badValue else (s.set R.SCRUB_RATE_KBPS v).complete o St.ok))

/-- FUNC_SET with FUNC 3, code 2 (R544): EN. -/
def execScrubEnSet (c : Cmd) (s : State) : Host.Outcome State Fault Refusal :=
  let v := dValue c.desc
  .next (s.beginFunc c 3 2 (fun h => decide (h = 0)) (fun s o =>
    if 1 < v then s.complete o St.badValue else (s.scrubEnable (v == 1)).complete o St.ok))

/-! ## Walkers (R536) -/

/-- WALKER_READ: a Larder slot that is used, a search cache whose Four is ON, the store of a Scull that runs. Which lines of a search cache are
valid is the cache's. -/
def execWalkerRead (fam : Fin 5) (addr : Nat) (s : State) : Host.Outcome State Fault Refusal :=
  let a := addr / granSpan fam * granSpan fam
  let ok : Bool := match fam.val with
    | 2 => decide (a < 4 * 2 ^ 20) && decide (a % 2 ^ 20 < 0xC0000) && s.crewPresent (a / 2 ^ 20) &&
           s.flag (R.CREWc_LDR_SLOTs_USED (a / 2 ^ 20) (a % 2 ^ 20 / 16384))
    | 3 => decide (a / 2 ^ 21 < 36) && decide (s.get (R.CLKPWR_PDn_STATE (a / 2 ^ 21)) = 2)
    | 4 => decide (a / 2 ^ 12 < 144) && s.flag (R.UCTL_RUN (a / 2 ^ 12))
    | _ => false
  .next (if ok then s.scrubGranule fam a else s)

/-! ## Reads and their readers (R525-R527) -/

/-- The key request of R526: acted on whatever KEY_SRC holds. -/
def State.ownKey (s : State) (n : Nat) : State :=
  let typ := (s.strm n).p.typ
  if (typ = 0 ∨ typ = 3) ∧ 1 ≤ s.get (R.STRMn_STATE_STATE n) then (s.keyRequest n).1 else s

/-- Substituted data enters the job that a Scull runs. -/
def State.tainted (s : State) (u : Nat) : State :=
  match s.run u with
  | some r => if r.job.dec then s else s.ownKey r.job.stream
  | none => s

/-- A job whose Larder read is poisoned goes back, and its Crew's Larder fails for the stream (R527). -/
def State.larderFail (s : State) (u a : Nat) : State :=
  match s.run u with
  | none => s
  | some r =>
    let s := s.abortJob u
    let c := u / 36
    let w := s.crew c
    let e := (r.job.stream, a)
    s.setCrew c { w with bad := if e ∈ w.bad then w.bad else e :: w.bad }

/-- A reference read of a decode job is poisoned: mid-grey, and the picture is tainted. -/
def State.refPoison (s : State) (u : Nat) : State :=
  match s.run u with
  | some r => if r.job.dec then s.updPic r.job.stream r.job.pic (fun p => { p with tainted := true, grey := true }) else s
  | none => s

/-- The packet that holds a poisoned granule is not sent, on either path. PRESUMED (log 50): it is the next of the port's media packets. -/
def State.packetLost (s : State) (p : Nat) : State :=
  match (s.frames p).find? (fun f => decide (f.kind ≤ 1)) with
  | none => s
  | some f =>
    let s := s.takeFrame p f
    let s : State := if f.pair = 0 then s else { s with egr := tabMap (fun _ => []) (fun _ q => q.filter (fun g => g.pair != f.pair)) s.egr }
    s.frameGone f

/-- Bytes of a decode stream's staging are lost: the input of a job is no longer whole (R231). -/
def State.stagingLost (s : State) (n pic row reg : Nat) : State :=
  let d := (s.strm n).dec
  let k := (pic, row, reg)
  if ¬ s.decJob n pic row reg ∨ k ∈ d.lost ∨ s.jobDone n pic row reg = true then s
  else if k ∈ d.cut then s.declareLost n pic row reg
  else s.updDec n (fun d => { d with inputs := d.inputs.filter (fun x => x != k) })

/-- What a reader makes of a poisoned read. -/
def State.poisoned (s : State) (f a : Nat) (r : Reader) : State :=
  match r with
  | .plain => s
  | .scrub => s
  | .samples _ => s
  | .cacheLine u =>
    if f = 3 then
      ({ s with mem := tabDel s.mem (famKey 3 a), injRecs := s.injRecs.filter (fun r => !(r.fam == 3 && r.addr == a)) } : State).showRecs 3
    else s.tainted u
  | .context u => s.tainted u
  | .larder u => s.larderFail u a
  | .reference u => s.refPoison u
  | .packet p => s.packetLost p
  | .staging n pic row reg => s.stagingLost n pic row reg
  | .output n pic => s.updPic n pic (fun p => { p with grey := true })

/-- An address is one of the array's. -/
def State.arrHolds (s : State) (f a : Nat) : Bool :=
  match f with
  | 0 => decide (a < s.cellarSize)
  | 1 => decide (atticBase ≤ a) && decide (a < atticBase + atticSize)
  | 2 => decide (a < 4 * 2 ^ 20) && decide (a % 2 ^ 20 < 0xC0000) && s.crewPresent (a / 2 ^ 20)
  | 3 => decide (a / 2 ^ 21 < 36) && decide (s.get (R.CLKPWR_PDn_STATE (a / 2 ^ 21)) = 2)
  | _ => decide (a / 2 ^ 12 < 144) && decide (s.get (R.CLKPWR_PDn_STATE (a / 2 ^ 14)) = 2)

/-- ARRAY_READ_RETURN (R522-R527, R534): the read is classified and reported; the scrubber's is written back where it was corrected,
and any other reader handles poison. -/
def execArrayReadReturn (fam : Fin 5) (addr : Nat) (r : Reader) (s : State) : Host.Outcome State Fault Refusal :=
  let a := addr / granSpan fam * granSpan fam
  .next (if ¬ s.arrHolds fam a then s else
    if r = .scrub then
      if s.flag R.SCRUB_STAT_BUSY ∧ a = s.scrubPos ∧ fam.val = s.scrubFam a then
        (s.scrubGranule fam a).scrubNext.set R.SCRUB_STAT_BUSY 0
      else s
    else
      let x := s.arrRead fam a
      if x.2.2 then x.1.poisoned fam a r else x.1)

/-! ## Injection (R540-R542) -/

/-- A write of ECC_FLIPf_CTL: CLR removes the family's records; an arming write while 8 are held is refused and reported. -/
def State.flipCtlWrite (s : State) (f : Nat) (d : Word) : State :=
  let s := if wordGet d 4 1 = 1 then
      ({ s with injRecs := s.injRecs.filter (fun r => r.fam != f) } : State).showRecs f else s
  let full := 8 ≤ s.get (R.ECC_FLIPf_CTL_RECS f)
  let was := s.get (R.ECC_FLIPf_CTL_ARM f)
  let s := s.plainWrite (A.ECC_FLIPf_CTL f) d
  if wordGet d 0 1 = 1 ∧ full then (s.set (R.ECC_FLIPf_CTL_ARM f) was).cfgReport (A.ECC_FLIPf_CTL f) else s

/-- FLIP_ARM. -/
def execFlipArm (w : Who) (f : Fin 5) (d : Word) (s : State) : Host.Outcome State Fault Refusal :=
  .next (if wordGet d 0 1 = 1 then s.ownWrite w (A.ECC_FLIPf_CTL f) d (fun s => s.flipCtlWrite f d) else s)

/-- FLIP_CLR. -/
def execFlipClr (w : Who) (f : Fin 5) (d : Word) (s : State) : Host.Outcome State Fault Refusal :=
  .next (if wordGet d 4 1 = 1 then s.ownWrite w (A.ECC_FLIPf_CTL f) d (fun s => s.flipCtlWrite f d) else s)

/-- A write of CHK_INJ_CTL: ARM 1 gives the next COUNT checks the inverted value. -/
def State.chkInjWrite (s : State) (d : Word) : State :=
  { s.plainWrite A.CHK_INJ_CTL d with chkLeft := if wordGet d 8 1 = 1 then wordGet d 0 8 else 0 }

/-- CHK_INJ_ARM. -/
def execChkInjArm (w : Who) (d : Word) (s : State) : Host.Outcome State Fault Refusal :=
  .next (s.ownWrite w A.CHK_INJ_CTL d (fun s => s.chkInjWrite d))

/-! ## The Larder window (R163, R530) -/

/-- The window's address advances by 4. -/
def State.ldrAdvance (s : State) (c : Nat) : State := s.set (R.CREWc_LDR_ADDR_ADDR c) (s.get (R.CREWc_LDR_ADDR_ADDR c) + 4)

/-- A collection that another access interrupts is merged into its granule. -/
def State.ldrFlush (s : State) (c : Nat) : State :=
  match tabGet none s.ldrCol c with
  | none => s
  | some k => ({ s with ldrCol := tabSet none s.ldrCol c none } : State).arrMerge 2 (c * 2 ^ 20 + k.base) 0
      (k.words.flatMap (fun w => leBytes 4 w.toNat))

/-- A write of CREWc_LDR_DATA: collected, or merged. Offsets beyond the Larder hold nothing. -/
def State.ldrDataWrite (s : State) (c : Nat) (d : Word) : State :=
  let o := s.get (R.CREWc_LDR_ADDR_ADDR c) / 4 * 4
  let col := tabGet none s.ldrCol c
  let goes : Bool := match col with | some k => decide (o = k.base + 4 * k.words.length) | none => false
  let s := if goes then s else s.ldrFlush c
  let ws := (if goes then (col.map (fun k => k.words)).getD [] else []) ++ [d]
  let base := if goes then (col.map (fun k => k.base)).getD 0 else o
  (if 0xC0000 ≤ o then s
   else if base % 16 ≠ 0 then s.arrMerge 2 (c * 2 ^ 20 + o / 16 * 16) (o % 16) (leBytes 4 d.toNat)
   else if ws.length < 4 then { s with ldrCol := tabSet none s.ldrCol c (some { base := base, words := ws }) }
   else ({ s with ldrCol := tabSet none s.ldrCol c none } : State).ldrGranule (c * 2 ^ 20 + base)
          (ws.flatMap (fun w => leBytes 4 w.toNat))).ldrAdvance c

/-- LDR_DATA_WRITE. -/
def execLdrDataWrite (w : Who) (c : Fin 4) (d : Word) (s : State) : Host.Outcome State Fault Refusal :=
  .next (s.ownWrite w (A.CREWc_LDR_DATA c) d (fun s => s.ldrDataWrite c d))

/-- A read of CREWc_LDR_DATA: the Larder's word; beyond the Larder a free value. -/
def State.readLdr (s : State) (c : Nat) : State × Word :=
  let o := s.get (R.CREWc_LDR_ADDR_ADDR c) / 4 * 4
  let s := s.ldrFlush c
  if 0xC0000 ≤ o then
    let (v, s) := s.draw 32
    (s.ldrAdvance c, BitVec.ofNat 32 v)
  else
    let r := s.arrRead 2 (c * 2 ^ 20 + o / 16 * 16)
    (r.1.ldrAdvance c, BitVec.ofNat 32 (leNat (slice (granBytes 2 r.2.1) (o % 16) 4)))

/-- LDR_DATA_READ. -/
def execLdrDataRead (w : Who) (c : Fin 4) (s : State) : Host.Outcome State Fault Refusal :=
  let a := A.CREWc_LDR_DATA c
  .next (if s.absent a then s.emit (.value w a 0) else (s.readLdr c).1.emit (.value w a (s.readLdr c).2))

/-! ## Link and queue checks (R539) -/

/-- SLIDE_CRC: a transfer fails its CRC; a second failure of the same transfer is reported at Major. -/
def execSlideCrc (link : Fin 50) (second real : Bool) (s : State) : Host.Outcome State Fault Refusal :=
  let gone := s.part = .ha ∧ ((18 ≤ link.val ∧ link.val ≤ 35) ∨ link.val = 41)
  .next (if gone then s else
    let (s, inj) := s.chkTake 2 link
    if ¬ real ∧ ¬ inj then s
    else if real ∧ inj then s.send (0x500 + link) 0x3F
    else s.send (0x500 + link) 0x33 0 0 inj (if second then some 2 else none))

/-- QUEUE_PAR: a queue of a media port is emptied. DEDUCED (log 51): the queues of a port that are no Bins are those of its frames. -/
def execQueuePar (p : Fin 64) (real : Bool) (s : State) : Host.Outcome State Fault Refusal :=
  .next (let (s, inj) := s.chkTake 1 p
    if ¬ real ∧ ¬ inj then s else
    let out := (s.frames p).filter (fun f => f.kind != 2)
    let s := s.setFrames p ((s.frames p).filter (fun f => f.kind == 2))
    let s := out.foldl (fun s f => s.frameGone f) s
    s.chkReport (0x180 + p) 0x49 0 0 real inj)

end Sys2Proof.Machine
end

