-- ==== Sys2Proof/Machine/Tally.lean ====
section
/-!
DEFINITION. The Tally (R546-R568): the taking, counting and classification of one message, its delivery and recovery, the
acknowledgement of a class, the clearing of severe bits, and the thermal seconds.
-/
namespace Sys2Proof.Machine

/-- The severe bit and the sticky bit of a source. -/
def sevRF (i : Nat) : RF := ⟨A.TALLY_SEVi (i / 32), i % 32, 1⟩
def stickyRF (i : Nat) : RF := ⟨A.TALLY_STICKYi (i / 32), i % 32, 1⟩

/-! ## Unit recovery (R560) -/

/-- Every receive Bin of a port is emptied and each entry counted as lost (R406): the merge leaves nothing in the receive Bin itself. -/
def State.binsLost (s : State) (p : Nat) : State := (s.addSat (R.PORTp_PTP_LOST_COUNT p) (s.ptpBin p).length).setPtpBin p []

/-- At the basic level firmware repairs the pseudo-channel's lane of the highest CEL_LANE_CE, where a spare is free. DEDUCED (log 73): of equal
counts the lowest lane, and no lane that a spare replaces already. -/
def State.pcRecover (s : State) (k p : Nat) : State :=
  if s.expert 2 ∨ s.fenced k p then s else
  let l := (List.range 36).filter (fun i => !s.laneReplaced k p i)
  let ce := fun (i : Nat) => tabGet 0 s.celCe (laneKey k p i)
  (s.laneRepair k p (l.foldl (fun b i => if ce b < ce i then i else b) (l.headD 0))).1

/-- A decode stream returns to the state before its first picture that can start decoding (R237); an encode stream or canvas takes one
key request. -/
def State.streamRecover (s : State) (n : Nat) : State :=
  if s.get (R.STRMn_STATE_STATE n) = 0 then s else
  if (s.strm n).p.typ = 1 then (s.updDec n (fun d => { d with started := false })).set (R.STRMn_DSTAT_STARTED n) 0
  else s.ownKey n

/-- The kinds whose own rule names their recovery: the lane repairs, losses and PLL of the Cellar (R511-R515), the emptied Bin or
queue (R406, R539), the queue pair's ERROR state (R301) and the parameter-set error (R237). -/
def ownRecovery (kind : Nat) : Bool := decide (kind ∈ [0x06, 0x07, 0x08, 0x09, 0x0A, 0x24, 0x47, 0x49, 0x84])

/-- The recovery of a source's group (R560). -/
def State.groupRecover (s : State) (i : Nat) : State :=
  if i ≤ 0x8F then s.retire i 0 else
  if 0x90 ≤ i ∧ i ≤ 0xB3 then s.retireFour (i - 0x90) else
  if 0xB8 ≤ i ∧ i ≤ 0xDB then s.retireFour (i - 0xB8) else
  if 0x100 ≤ i ∧ i ≤ 0x13F then s.pcRecover ((i - 0x100) / 32) (i % 32) else
  if 0x180 ≤ i ∧ i ≤ 0x1BF then s.binsLost (i - 0x180) else
  if 0x200 ≤ i ∧ i ≤ 0x241 then s.laneRestart (i - 0x200) else
  if 0x400 ≤ i ∧ i ≤ 0x47F then s.streamRecover (i - 0x400) else s

/-! ## Classification (R554-R556) -/

/-- The messages that one taken message stands for under R554: itself and those merged into it, the injected ones only with INJ_COUNT. -/
def State.countable (s : State) (m : Msg) : Nat :=
  (if m.kind / 16 = 8 then 0 else if m.inj ∧ ¬ s.flag R.TALLY_CTL_INJ_COUNT then 0 else 1) + m.merged +
  (if s.flag R.TALLY_CTL_INJ_COUNT then m.mergedInj else 0)

/-- The source's sticky bit, count and severe bit (R554, R556): the window and the threshold are those of its home class. -/
def State.countMsg (s : State) (m : Msg) : State :=
  let s := s.raise (stickyRF m.src)
  let k := s.countable m
  if k = 0 then s else
  let n := (s.window ((homeClass m.src).getD 0)).nsev
  let t := s.tallySrc m.src
  let c := min (t.count + k) 65535
  if n ≠ 0 ∧ n ≤ c then (s.setTallySrc m.src { t with count := c, reached := true }).raise (sevRF m.src)
  else s.setTallySrc m.src { t with count := c }

/-- The delivered level (R556), from the level it came with, the unacknowledged level of its class (0 where nothing is) and the severe
bit of its source. -/
def deliverLevel (cls lvl unackLvl : Nat) (sev : Bool) : Nat :=
  if cls = 8 then lvl else
  let l := if 1 ≤ lvl ∧ lvl ≤ 3 ∧ unackLvl ≠ 0 then max lvl (min (unackLvl + 1) 3) else lvl
  if sev ∧ l < 3 then 3 else l

/-- The keys, among what has fired in a cycle, of a delivery of class `c` at level `l` and of an acknowledgement of the class at that
unacknowledged level. -/
abbrev dlvKey (c l : Nat) : Nat := 3200 + 8 * c + l
abbrev ackKey (c l : Nat) : Nat := 3300 + 8 * c + l

/-- The highest level of class `c` under a key of this cycle. -/
def State.cycleLvl (s : State) (key : Nat → Nat → Nat) (c : Nat) : Nat :=
  (List.range 5).foldl (fun m l => if key c l ∈ s.fired then max m l else m) 0

/-- The level that a message of class `c` is escalated against (R556, R557): the unacknowledged one, also where a write of this cycle
has just acknowledged it. -/
def State.escLvl (s : State) (c : Nat) : Nat := max (s.unackLvl c) (s.cycleLvl ackKey c)

/-- The unacknowledged level of a class takes a delivery at Minor or above. -/
def State.unackRaise (s : State) (c lvl : Nat) : State :=
  if lvl = 0 then s else
  let old := s.unackLvl c
  let s := { s with fired := dlvKey c lvl :: s.fired }
  (s.raise ⟨A.TALLY_UNACK, c, 1⟩).set ⟨A.TALLY_UNACK_LVL, 3 * c, 3⟩ (max old lvl)

/-- A delivery (R559, R560): forwarded, FATAL set at Fatal, recovered from Major on. -/
def State.deliver (s : State) (m : Msg) (lvl : Nat) : State :=
  let s := if s.flag R.TALLY_CTL_FWD_EN ∧ s.get R.TALLY_CTL_FWD_MIN ≤ lvl then
      s.eventRecord (0x40 + s.get R.TALLY_CTL_FWD_Q) (fun q => .tally q (s.sec % 2 ^ 32) s.subNs (m.body lvl)) else s
  let s := if lvl = 4 then s.set R.TALLY_STAT_FATAL 1 else s
  if 2 ≤ lvl ∧ 1 ≤ m.lvl ∧ ownRecovery m.kind = false then s.groupRecover m.src else s

/-- The window of a class that is due starts before anything is counted in it (R555). -/
def State.windowDue (s : State) (c : Nat) : State := if (s.window c).stop ≤ s.sec then s.windowStart c else s

/-- The Tally's decision on one message (R556). -/
def State.classify (s : State) (m : Msg) : State :=
  let s := match homeClass m.src with
    | some h => if h < 8 then s.windowDue h else s
    | none => s
  let s := s.countMsg m
  let cls := m.kind / 16
  let lvl := deliverLevel cls m.lvl (s.escLvl cls) (s.flag (sevRF m.src))
  ((s.unackRaise cls lvl).deliver m lvl).tallyLines

/-- A holding register has emptied: the messages that wait in its sender move into it in their order (R551). -/
def State.releaseHeld (s : State) (i : Nat) : State :=
  let w := s.heldWait.filter (fun m => m.src == i)
  w.foldl (fun s m => s.holdMsg m) { s with heldWait := s.heldWait.filter (fun m => m.src != i) }

/-- TALLY_MESSAGE (R552, R556): the message held longest, of equal cycles the lowest source. -/
def execTallyMessage (s : State) : Host.Outcome State Fault Refusal :=
  .next (match s.held with
    | [] => s
    | m :: r => (({ s with held := r } : State).releaseHeld m.src).classify m)

/-- TALLY_WINDOW_START (R555): a window that device time has ended. -/
def execTallyWindowStart (c : Fin 8) (s : State) : Host.Outcome State Fault Refusal :=
  .next (if (s.window c).stop ≤ s.sec then (s.windowStart c).tallyLines else s)

/-- TALLY_SWEEP_END (R568). -/
def execTallySweepEnd (s : State) : Host.Outcome State Fault Refusal := .next (s.set R.TALLY_STAT_SWEEP 0)

/-! ## Registers -/

/-- The acknowledgement of class `c` (R557): a delivery of this cycle leaves its bit, with the level that the cycle delivered. -/
def State.ackClass (s : State) (c : Nat) : State :=
  let old := s.unackLvl c
  let s := if old = 0 then s else { s with fired := ackKey c old :: s.fired }
  let kept := s.cycleLvl dlvKey c
  (s.set ⟨A.TALLY_UNACK, c, 1⟩ (b2n (decide (kept ≠ 0)))).set ⟨A.TALLY_UNACK_LVL, 3 * c, 3⟩ kept

/-- A write of TALLY_UNACK (R557). -/
def State.unackWrite (s : State) (d : Word) : State :=
  ((List.range 9).foldl (fun s c => if natBit d.toNat c then s.ackClass c else s) s).tallyLines

/-- A write of TALLY_SEVi (R558). -/
def State.sevWrite (s : State) (i : Nat) (d : Word) : State := (s.plainWrite (A.TALLY_SEVi i) d).tallyLines

/-- TALLY_ACK (R557). -/
def execTallyAck (w : Who) (d : Word) (s : State) : Host.Outcome State Fault Refusal :=
  .next (s.ownWrite w A.TALLY_UNACK d (fun s => s.unackWrite d))

/-- TALLY_SEV_CLEAR (R558). -/
def execTallySevClear (w : Who) (i : Fin 128) (d : Word) (s : State) : Host.Outcome State Fault Refusal :=
  .next (s.ownWrite w (A.TALLY_SEVi i) d (fun s => s.sevWrite i d))

/-- A read of TALLY_SRC_DATA (R568): what is kept of the source that TALLY_SRC_SEL names. -/
def State.srcData (s : State) : Word :=
  let i := s.get R.TALLY_SRC_SEL_ID
  let t := s.tallySrc i
  BitVec.ofNat 32 (t.count + s.get (stickyRF i) * 2 ^ 16 + s.get (sevRF i) * 2 ^ 17 + t.streak * 2 ^ 18 + b2n t.reached * 2 ^ 20)

/-- THERM_SECOND (R565): a whole second with the thermal ceiling in force; past 86,400 the replacement cause sets. -/
def execThermSecond (s : State) : Host.Outcome State Fault Refusal :=
  .next (if s.therm = 0 ∨ ¬ s.crossed (10 ^ 9) then s else
    s.once 400 (fun s =>
      let s := s.bump R.TALLY_THERM_S_SECONDS
      if 86400 < s.get R.TALLY_THERM_S_SECONDS then s.replace 16 else s))

/-! ## FUNC 10 (R567) -/

/-- PARAM[15:8] of FUNC 10 is a class. -/
def tallyUnit (u : Nat) : Bool := decide (u ≤ 7)

/-- TALLY_WIN_SET. -/
def execTallyWinSet (c : Cmd) (s : State) : Host.Outcome State Fault Refusal :=
  let v := dValue c.desc
  .next (s.beginFunc c 10 1 tallyUnit (fun s o =>
    if v < 1 ∨ 86400 < v then s.complete o St.badValue
    else (s.set (R.TALLY_WINc_SECONDS (dUnit8 c.desc)) v).complete o St.ok))

/-- TALLY_NSEV_SET. -/
def execTallyNsevSet (c : Cmd) (s : State) : Host.Outcome State Fault Refusal :=
  let v := dValue c.desc
  .next (s.beginFunc c 10 2 tallyUnit (fun s o =>
    if 65535 < v then s.complete o St.badValue
    else (s.set (R.TALLY_NSEVc_N (dUnit8 c.desc)) v).complete o St.ok))

end Sys2Proof.Machine
end

