-- ==== Sys2Proof/Machine/Mgmt.lean ====
section
/-!
DEFINITION. The management space as a whole (R615-R625): DEV_HAND (R21-R26), the one write that every requester makes, with each
register's own behaviour found by its template, and the one read, with its effects (R624) and the registers that show other state.
-/
namespace Sys2Proof.Machine

/-! ## DEV_HAND (R25) -/

/-- The function of DEV_HAND bit `b` is idle, as its own chapter says. -/
def State.funcIdle (s : State) (b : Nat) : Bool :=
  match b with
  | 0 => !s.flag R.TIME_STAT_SVC_BUSY
  | 1 => (List.range 4).all (fun g => decide (s.get (R.STRKg_CTL_BOUND g) = 0))
  | 2 => (List.range 2).all (fun k => !s.flag (R.CEL_TRN_STAT_BUSY k) && !s.flag (R.CEL_STAT_REP_PEND k))
  | 3 => !s.flag R.SCRUB_CTL_EN && !s.flag R.SCRUB_STAT_BUSY
  | 4 => (List.range 4).all (fun c => !s.flag (R.CREWc_STAT_SUB_PEND c))
  | 5 => (List.range 128).all (fun n => decide (s.get (R.STRMn_STATE_STATE n) ≠ 1))
  | 6 => (List.range 64).all (fun p => !s.flag (R.EGRp_GCTL_ARM p))
  | 7 => (List.range 66).all (fun l => !s.flag (R.LANEl_EQ_STAT_BUSY l))
  | 8 => (List.range 64).all (fun c => !s.flag (R.HOISTh_CHc_STAT_RUN 3 c) && decide (s.get (R.HOISTh_CHc_STATE_STATE 3 c) % 2 = 0))
  | 9 => (List.range 144).all (fun u =>
      !s.flag (R.USTAT_SUM_BUSY u) && (s.retired u || !s.crewOn (u / 36) || s.flag (R.UCTL_RUN u)))
  | _ => !s.flag R.TALLY_STAT_SWEEP

/-- A write of DEV_HAND: each field that changes takes its value where its function is idle, and is reported where it is not. Firmware that
takes lane equalisation back takes the values it finds as its configuration of every lane (R26). -/
def State.handWrite (s : State) (d : Word) : State :=
  (List.range 11).foldl (fun s b =>
    let f : RF := ⟨A.DEV_HAND, b, 1⟩
    if wordGet d b 1 = s.get f then s else
    if ¬ s.funcIdle b then s.cfgReport A.DEV_HAND else
    let s := s.set f (wordGet d b 1)
    if b = 7 ∧ wordGet d b 1 = 0 then { s with laneSet := List.range 66 } else s) s

/-- HAND_WRITE (R25, R322). -/
def execHandWrite (w : Who) (d : Word) (s : State) : Host.Outcome State Fault Refusal :=
  .next (s.ownWrite w A.DEV_HAND d (fun s => s.handWrite d))

/-! ## Writes -/

/-- A transaction of the PMBus master with the core regulator (R612), with Packet Error Checking while PEC is 1. -/
def State.pmbusOut (s : State) (cmd data : Nat) : State :=
  s.emit (.pmbus (s.get R.MON_AVS_CTL_ADDR) cmd data (s.flag R.MON_AVS_CTL_PEC))

/-- A write of MON_AVS_CTL: where EN is set, VOUT_MODE of the regulator is read (R612); the exponent that it answers is a free value. -/
def State.avsCtlWrite (s : State) (d : Word) : State :=
  let was := s.flag R.MON_AVS_CTL_EN
  let s := s.plainWrite A.MON_AVS_CTL d
  if ¬ was ∧ wordGet d 0 1 = 1 then
    let (e, s) := (s.pmbusOut 0x20 0).draw 5
    { s with voutExp := e }
  else s

/-- A write of the lane window of a stack: the lane's read and write delay, or the pseudo-channel's reference (R518). -/
def State.laneDlyWrite (s : State) (k : Nat) (d : Word) : State :=
  { s with celDly := tabSet (64, 64) s.celDly (laneKey k (s.get (R.CEL_LSEL_PC k)) (s.get (R.CEL_LSEL_LANE k))) (wordGet d 0 7, wordGet d 16 7) }
def State.vrefWrite (s : State) (k : Nat) (d : Word) : State :=
  { s with celVref := tabSet 32 s.celVref (32 * k + s.get (R.CEL_LSEL_PC k)) (wordGet d 0 6) }

/-- A write of STRMn_SCHED or CNVv_HOMEw: the new Crew set takes effect at the stream's next Stroke (R164). -/
def State.homeWrite (s : State) (n a : Nat) (d : Word) : State :=
  (s.plainWrite a d).updStrm n (fun t => { t with setAt := some s.cyc })

/-- The stream of canvas `v`. -/
def State.canvasStream (s : State) (v : Nat) : Option Nat :=
  (List.range 128).find? (fun n => decide (s.get (R.STRMn_STATE_STATE n) ≠ 0) && decide ((s.strm n).p.typ = 3) &&
    decide (s.get (R.STRMn_STATE_CANVAS n) = v))

/-- What a write does to a register of the blocks below CREW0, by its template's base `b` and its indices. -/
def State.hookLow (s : State) (b i j a : Nat) (d : Word) : State :=
  if b = A.DEV_HAND then s.handWrite d else
  if b = A.CLKPWR_PDn 0 then s.pdWrite i d else
  if b = A.MON_AVS_CTL then s.avsCtlWrite d else
  if b = A.TIME_CTL then s.timeCtlWrite d else
  if b = A.TIME_STEP_NS then s.stepNsWrite d else
  if b = A.TIME_RATE_H then s.rateWrite d else
  if b = A.STRKg_CTL 0 then s.strokeCtlWrite i d else
  if b = A.STRKg_PNUM 0 ∨ b = A.STRKg_PDEN 0 ∨ b = A.STRKg_PHASE 0 then s.strokeParWrite i a d else
  if b = A.EVC_INCFGi 0 then s.incfgWrite i d else
  if b = A.EVC_PENDi 0 then s.pendClear i d else
  if b = A.EVC_TGTn 0 then s.tgtWrite i d else
  if b = A.EVC_DONEt 0 then s.evcComplete i (wordGet d 0 10) else
  if b = A.EVC_PREEMPT then s.preemptWrite d else
  if b = A.TALLY_UNACK then s.unackWrite d else
  if b = A.TALLY_SEVi 0 then s.sevWrite i d else
  if b = A.QPq_CTL 0 then s.qpCtlWrite i d else
  if A.QPq_RQPN 0 ≤ b ∧ b ≤ A.QPq_DMAC_H 0 then s.qpParWrite i a d else
  if b = A.HWINw_CTL 0 then s.hwinCtlWrite i d else
  if A.HWINw_BASE 0 ≤ b ∧ b ≤ A.HWINw_RVA_H 0 then s.hwinParWrite i a d else
  if b = A.RINGi_CTL 0 then s.ringCtlWrite i d else
  if b = A.HOISTh_CTL 0 then s.hMainWrite i d else
  if b = A.HOISTh_CHc_STATE 0 0 then s.hStateWrite (64 * i + j) d else
  if b = A.HOISTh_CHc_CFG 0 0 ∨ b = A.HOISTh_CHc_DMAX 0 0 then s.hCfgWrite (64 * i + j) a d else
  if b = A.HOISTh_CHc_CTL 0 0 then s.hCtlWrite (64 * i + j) d else
  if b = A.CEL_CTL 0 then s.celCtlWrite i d else
  if b = A.CEL_MRW 0 then s.mrwWrite i d else
  if b = A.CEL_TRN_CTL 0 then s.trnWrite i d else
  if b = A.CEL_LANE_DLY 0 then s.laneDlyWrite i d else
  if b = A.CEL_PC_VREF 0 then s.vrefWrite i d else
  if b = A.CEL_REPAIRp 0 0 then s.repairWrite i false j d else
  if b = A.CEL_CAREPc 0 0 then s.repairWrite i true j d else
  if b = A.SCRUB_CTL then s.scrubEnable (wordGet d 0 1 == 1) else
  if b = A.SCRUB_RNGr_BASE 0 ∨ b = A.SCRUB_RNGr_SIZE 0 then s.scrubRngWrite a d else
  if b = A.ECC_FLIPf_CTL 0 then s.flipCtlWrite i d else
  if b = A.ECC_FLIPf_ADDR_H 0 then s.plainWrite a (BitVec.ofNat 32 (wordGet d 0 16)) else
  if b = A.CHK_INJ_CTL then s.chkInjWrite d else s.plainWrite a d

/-- A canvas's home words are those of the stream that holds it. -/
def State.canvasHome (s : State) (v a : Nat) (d : Word) : State :=
  match s.canvasStream v with
  | some n => s.homeWrite n a d
  | none => s.plainWrite a d

/-- A write of RRCn_ALPHA_P or RRCn_ALPHA_I: the owner's value stands against an update of the same cycle (R195, R621). -/
def State.modelWrite (s : State) (a : Nat) (d : Word) : State :=
  let s := s.plainWrite a d
  { s with fired := wroteKey a :: s.fired }

/-- What a write does to a register of CREW0 and the blocks above it. -/
def State.hookHigh (s : State) (b i j a : Nat) (d : Word) : State :=
  if b = A.CREWc_CTL 0 then (s.plainWrite a d).raiseCrew i else
  if b = A.CREWc_SEATj 0 0 then s.seatWrite i j d else
  if b = A.CREWc_LDR_DATA 0 then s.ldrDataWrite i d else
  if b = A.UCTL 0 then s.uctlWrite i d else
  if b = A.USTART 0 then s.ustartWrite i d else
  if b = A.UCS_ADDR 0 then s.ucsAddrWrite i d else
  if A.UCS_DATA0 0 ≤ b ∧ b < A.UCS_DATA4 0 then s.ucsDataWrite i ((b - A.UCS_DATA0 0) / 4) d else
  if b = A.UCS_DATA4 0 then s.ucsData4Write i d else
  if b = A.RRCn_ALPHA_P 0 ∨ b = A.RRCn_ALPHA_I 0 then s.modelWrite a d else
  if b = A.STRMn_SCHED 0 then s.homeWrite i a d else
  if b = A.CNVv_HOMEw 0 0 then s.canvasHome i a d else
  if b = A.LANEl_STATE 0 then s.laneStateWrite i d else
  if b = A.LANEl_CFG 0 then s.laneCfgWrite i d else
  if b = A.LANEl_QMODE 0 then s.qmodeWrite i d else
  if b = A.LANEl_DOZE 0 then s.dozeWrite i d else
  if b = A.LANEl_TXEQ 0 then s.txeqWrite i d else
  if b = A.LANEl_RXEQ 0 then s.rxeqWrite i d else
  if b = A.LANEl_BL_CTL 0 then s.slipWrite i d else
  if b = A.LANEl_PRBS_CTL 0 then s.prbsWrite i d else
  if b = A.PORTp_STATE 0 then s.portStateWrite i d else
  if b = A.EGRp_GCTL 0 then s.gctlWrite i d else
  if b = A.EGRp_TAKE_L 0 ∨ b = A.EGRp_TAKE_H 0 ∨ b = A.EGRp_GCLb_i 0 0 0 ∨ b = A.EGRp_GCLb_i_DUR 0 0 0 then s.gateWrite i a d else
  s.plainWrite a d

/-- A management write (R617-R621): gated, then the register's own behaviour. -/
def State.mgmtWrite (s : State) (w : Who) (a : Nat) (d : Word) : State :=
  s.ownWrite w a d (fun s =>
    match regInfo a with
    | none => s
    | some (t, i, j, _) => if a < 0x100000 then s.hookLow t.base i j a d else s.hookHigh t.base i j a d)

/-- MGMT_REGISTER_WRITE (R620). -/
def execMgmtRegisterWrite (w : Who) (a : BitVec 32) (d : Word) (s : State) : Host.Outcome State Fault Refusal :=
  .next (s.mgmtWrite w a.toNat d)

/-! ## Reads -/

/-- DEV_HEALTH, whose fields are copies (R627): the cap of R160 in STRMn_SCHED, the ceiling of R609 and the live seats of R132. -/
def State.health (s : State) : Word :=
  let live := ((List.range 4).map (fun c => if s.crewPresent c then s.live c else 0)).foldl (fun n x => n + x) 0
  BitVec.ofNat 32 (s.get R.DEV_HEALTH_DSTATE + s.get R.TALLY_STAT_REPLACE * 2 ^ 2 + s.get R.TALLY_STAT_ALERT * 2 ^ 3 +
    s.get R.TALLY_STAT_FATAL * 2 ^ 4 + b2n ((List.range 128).any (fun n => s.flag (R.STRMn_SCHED_CAP n))) * 2 ^ 5 + s.therm * 2 ^ 6 +
    live * 2 ^ 16)

/-- DEV_ID and DEV_UNITS (R1, R625). -/
def State.devId (s : State) : Word := if s.part = .ha then 0x0B320051 else 0x0B640051
def State.devUnits (s : State) : Word := if s.part = .ha then 0x13 else 0x3F

/-- CREWc_QSTAT (R163). -/
def State.queueStat (s : State) (c : Nat) : Word :=
  let q := (s.crew c).queue
  BitVec.ofNat 32 (q.length + (q.filter (fun j => s.startable j)).length * 2 ^ 16)

/-- A read of EVC_CLAIMt looks at the claim when the Coxswain it belongs to makes it. -/
def State.readClaim (s : State) (w : Who) (i a : Nat) : State × Word :=
  match w with
  | .cox t => if t.val = i then (s.look i, s.reg a) else (s, s.reg a)
  | _ => (s, s.reg a)

/-- What a read of a register of the blocks below CREW0 does and returns. While a stack's domain is not ON, CEL_STAT's live fields of the
controller (PLL_LOCK, BAND, REP_PEND) read their reset values (R616; DEDUCED, log 132: SREF is the stack's). -/
def State.readLow (s : State) (w : Who) (b i a : Nat) : State × Word :=
  if b = A.DEV_ID then (s, s.devId) else
  if b = A.DEV_UNITS then (s, s.devUnits) else
  if b = A.DEV_HEALTH then (s, s.health) else
  if b = A.MON_PROCf 0 then (s, if s.pdOn i then s.reg a else 0) else
  if b = A.CEL_STAT 0 then (s, if s.pdOn (44 + i) then s.reg a else s.reg a &&& 0x68) else
  if b = A.TIME_NOW_SECL then s.readNow else
  if b = A.TIME_PPS_SEC then s.readPps else
  if b = A.STRKg_IDX_L 0 then s.readIdx i else
  if b = A.EVC_CLAIMt 0 then s.readClaim w i a else
  if b = A.TALLY_SRC_DATA then (s, s.srcData) else
  let at_ := laneKey i (s.get (R.CEL_LSEL_PC i)) (s.get (R.CEL_LSEL_LANE i))
  if b = A.CEL_LANE_DLY 0 then
    let v := tabGet (64, 64) s.celDly at_
    (s, BitVec.ofNat 32 (v.1 + v.2 * 2 ^ 16)) else
  if b = A.CEL_LANE_CE 0 then (s, BitVec.ofNat 32 (tabGet 0 s.celCe at_)) else
  if b = A.CEL_PC_VREF 0 then (s, BitVec.ofNat 32 (tabGet 32 s.celVref (32 * i + s.get (R.CEL_LSEL_PC i)))) else (s, s.reg a)

/-- What a read of a register of CREW0 and the blocks above it does and returns. -/
def State.readHigh (s : State) (b i a : Nat) : State × Word :=
  if b = A.CREWc_QSTAT 0 then (s, s.queueStat i) else
  if b = A.CREWc_LDR_DATA 0 then s.readLdr i else
  if A.UCS_DATA0 0 ≤ b ∧ b < A.UCS_DATA4 0 then (s, if s.ucsOpen i then s.reg a else 0) else
  if b = A.UCS_DATA4 0 then s.readData4 i else
  if b = A.LANEl_BL_STAT 0 then s.readBlStat i else
  if b = A.LANEl_EQ_STAT 0 then s.readEqStat i else
  if b = A.LANEl_PRBS_ERR 0 then s.readPrbsErr i else
  if b = A.PORTp_TSB_ID 0 then s.readTsb i else (s, s.reg a)

/-- A register that a stream of another type has (R128, R166, R247): row rate control's and the refresh registers are those of ENCODE and
CANVAS streams, the decode registers those of DECODE streams. -/
def State.otherType (s : State) (a : Nat) : Bool :=
  let typ := fun (n : Nat) => s.get (R.STRMn_STATE_TYPE n)
  let encodes := fun (n : Nat) => decide (typ n = 0 ∨ typ n = 3)
  let off := a % 0x200
  if 0x300000 ≤ a ∧ a < 0x308000 then !encodes (a / 0x100 % 128)
  else if 0x320000 ≤ a ∧ a < 0x330000 then
    if off = 0x10 ∨ off = 0x14 then !encodes (a / 0x200 % 128) else decide (0x40 ≤ off ∧ off < 0x60 ∧ typ (a / 0x200 % 128) ≠ 1)
  else false

/-- A management read (R588, R617, R618, R624): what is unmapped, absent or in a domain that is not ON reads as zero, and so does
what a stream of the register's type alone has. -/
def State.mgmtRead (s : State) (w : Who) (a : Nat) : State × Word :=
  match regInfo a with
  | none => (s, 0)
  | some (t, i, _, _) =>
    if s.absent a ∨ reservedReg a = true ∨ s.portGone a ∨ ¬ s.domainOn a ∨ s.otherType a = true then (s, 0)
    else if a < 0x100000 then s.readLow w t.base i a else s.readHigh t.base i a

end Sys2Proof.Machine
end

