-- ==== Sys2Proof/Machine/HoistMove.lean ====
section
/-!
DEFINITION. The Hoists at work (R464-R482): the address map, the fetch of entries, the grant of bursts, their reads and writes, and the
errors that stop a Hoist or halt a channel. DESIGN CHOICE (log 55): a channel fetches its next entry once no byte can move with those it has.
-/
namespace Sys2Proof.Machine

/-! ## The address map (R471, R303, R304) -/

/-- What an access of a Hoist reaches; `silent` is a host window that does not respond. -/
inductive HTgt where
  | array (f : Nat) | mirror | binRx (p : Nat) | binTx (p : Nat) | host | silent | none
  deriving DecidableEq, Repr

/-- `len` bytes from `a` lie in the range of `size` bytes from `b`. -/
def within (b size a len : Nat) : Bool := decide (b ≤ a) && decide (a + len ≤ b + size)

/-- The first byte of the PTP receive Bin windows. -/
def binBase : Nat := 0x4000000000

/-- What an access of Hoist `h` of `len` bytes at `a` reaches, a write where `wr`. DEDUCED (log 56): an access of the mirror is of whole aligned
words, and one that is not is a decode error. -/
def State.hTgt (s : State) (h a len : Nat) (wr : Bool) : HTgt :=
  if within 0 s.cellarSize a len then .array 0 else
  if within atticBase atticSize a len then .array 1 else
  if within 0x3000000000 (2 ^ 32) a len then (if h = 3 ∨ a % 4 ≠ 0 ∨ len % 4 ≠ 0 then .none else .mirror) else
  if within binBase (64 * 2 ^ 16) a len then
    let p := (a - binBase) / 2 ^ 16
    if within (binBase + p * 2 ^ 16) 0x8000 a len then (if wr then .none else .binRx p) else
    if within (ptpTxWindow p) 0x8000 a len then (if wr then .binTx p else .none) else .none
  else if a < 2 ^ 47 ∨ 2 ^ 48 ≤ a then .none
  else if s.inWindow a len = false then .none
  else if (s.reachQp a len).isSome then .host else .silent

/-- An access that brings nothing back but an error. -/
def HTgt.fails : HTgt → Bool
  | .none => true
  | .silent => true
  | _ => false

/-- The stop cause of an access that fails (R480): 1 decode, 3 host window. -/
def HTgt.cause : HTgt → Nat
  | .silent => 3
  | .host => 3
  | _ => 1

/-- A target on the die: its answer is timed by TMO (R480). -/
def HTgt.onDie : HTgt → Bool
  | .host => false
  | .silent => false
  | .none => false
  | _ => true

/-! ## The progress of a job -/

/-- Bytes left in a list of entries. -/
def bytesLeft (l : List HEnt) : Nat := l.foldl (fun n e => n + (e.len - e.used)) 0

/-- `n` bytes of the first entry of a list are taken; an entry used up leaves it. -/
def takeBytes (l : List HEnt) (n : Nat) : List HEnt :=
  match l with
  | [] => []
  | e :: r => if e.used + n < e.len then { e with used := e.used + n } :: r else r

/-- Bytes can move: there are a source and a destination. -/
def HchS.movable (ch : HchS) : Bool := decide (bytesLeft ch.srcs ≠ 0) && decide (bytesLeft ch.dsts ≠ 0)

/-- The entry budget is used up without LAST (R469). -/
def State.hSpent (s : State) (g : Nat) : Bool :=
  decide (s.get (R.HOISTh_CHc_DMAX_DESC_MAX (g / 64) (g % 64)) ≤ s.get (R.HOISTh_CHc_DCOUNT_COUNT (g / 64) (g % 64)))

/-- A channel waits for its next entry. -/
def State.hFetches (s : State) (g : Nat) : Bool :=
  let ch := s.hch g
  s.hRun g && !s.hStopped (g / 64) && !ch.last && ch.burst.isNone && ch.err.isNone && !ch.movable && !s.hSpent g

/-- With nothing in flight and nothing to move, a job ends where its chain has (R467, R470) or its budget is spent (R469). -/
def State.hSettle (s : State) (g : Nat) : State :=
  let ch := s.hch g
  if ch.burst.isSome ∨ ch.movable = true then s
  else if ch.last then (if ch.nSrc = ch.nDst then s.hDone g else s.hHalt g .descFmt (s.hCur g))
  else if s.hSpent g then s.hHalt g .loopSuspect (s.hCur g) else s

/-! ## Reads -/

/-- The granules of a range as (granule, offset in it, bytes). -/
def granules (f a n : Nat) : List (Nat × Nat × Nat) :=
  let g := granSpan f
  let first := a / g
  (List.range (ceilDiv (a % g + n) g)).map (fun i =>
    let b := (first + i) * g
    let lo := max a b
    (b, lo - b, min (a + n) (b + g) - lo))

/-- `n` bytes of an array from `a`, and the first granule that is poisoned. -/
def State.arrBytes (s : State) (f a n : Nat) : State × List Byte × Option Nat :=
  (granules f a n).foldl (fun (acc : State × List Byte × Option Nat) e =>
    let r := acc.1.arrRead f e.1
    (r.1, acc.2.1 ++ slice (granBytes f r.2.1) e.2.1 e.2.2,
     if acc.2.2.isNone ∧ r.2.2 = true then some e.1 else acc.2.2)) (s, [], none)

/-- The partial granules of a destination are read first (R472): the first that is poisoned. -/
def State.edgePoison (s : State) (f a n : Nat) : State × Option Nat :=
  ((granules f a n).filter (fun e => decide (e.2.2 ≠ granSpan f))).foldl (fun (acc : State × Option Nat) e =>
    let r := acc.1.arrRead f e.1
    (r.1, if acc.2.isNone ∧ r.2.2 = true then some e.1 else acc.2)) (s, none)

/-- A requester behind the mirror (R619). -/
def hoistWho (h : Nat) : Who := if hh : h < 3 then .hoist ⟨h, hh⟩ else .hoist 0

/-- Registers are read through the mirror. -/
def State.mirrorRead (s : State) (h a n : Nat) : State × List Byte :=
  (List.range (n / 4)).foldl (fun (acc : State × List Byte) i =>
    let r := acc.1.mgmtRead (hoistWho h) (a % 2 ^ 32 + 4 * i)
    (r.1, acc.2 ++ leBytes 4 r.2.toNat)) (s, [])

/-- The next bytes of the head entry of a PTP receive Bin: the entry is removed with its 256th byte, and an empty Bin reads as zeros. -/
def State.binRead (s : State) (p n : Nat) : State × List Byte :=
  match s.ptpBin p with
  | [] => (s, List.replicate n 0)
  | e :: r =>
    let at_ := tabGet 0 s.ptpPos p
    let s := if at_ + n < 256 then { s with ptpPos := tabSet 0 s.ptpPos p (at_ + n) } else s.setPtpBin p r
    (s, slice e at_ n)

/-- What the source of a burst brings: `data` is what host memory returns, and a slot gives its packed planes, luma, Cb, Cr (R212). -/
def State.srcRead (s : State) (h : Nat) (e : HEnt) (n : Nat) (data : List Byte) : State × List Byte × Option Nat :=
  if e.fill then (s, (List.range n).map (fun i => BitVec.ofNat 8 (e.at_ / 2 ^ (8 * ((e.used + i) % 8)))), none) else
  if e.slot then (s, (s.slotCont (e.at_ % 2 ^ 12)).bytes (e.at_ / 2 ^ 12 + e.used) n, none) else
    let a := e.at_ + e.used
    match s.hTgt h a n false with
    | .array f => s.arrBytes f a n
    | .mirror => let r := s.mirrorRead h a n
                 (r.1, r.2, none)
    | .binRx p => let r := s.binRead p n
                  (r.1, r.2, none)
    | .host => (s.hostRead a n, data.take n, none)
    | _ => (s, data.take n, none)

/-! ## Writes -/

/-- Bytes of an array are written, where `mask` selects them: whole granules fresh, the others merged into what their first read gave. -/
def State.arrPut (s : State) (f a : Nat) (bs : List Byte) (mask : Nat → Bool) : State :=
  ((granules f a bs.length).foldl (fun (acc : State × List Byte) e =>
    let s := acc.1
    let old := s.arrRead f e.1
    let was := granBytes f old.2.1
    let mine := fun (i : Nat) => decide (e.2.1 ≤ i) && decide (i < e.2.1 + e.2.2) && mask (e.1 + i - a)
    let new := (was.zip (List.range was.length)).map (fun x => if mine x.2 then (acc.2[x.2 - e.2.1]?).getD x.1 else x.1)
    let full := (List.range (granSpan f)).all mine
    let s := if full then s.arrWrite f e.1 (granData f new)
      else if (List.range (granSpan f)).any mine ∧ ¬ (f = 0 ∧ s.fenced (s.celPlace e.1).1 (s.celPlace e.1).2.1)
      then s.granWrite f e.1 (granData f new) old.2.2 false else s
    (s, acc.2.drop e.2.2)) (s, bs)).1

/-- A burst's bytes are written to its destination, where `mask` selects them. -/
def State.dstWrite (s : State) (h a : Nat) (bs : List Byte) (mask : Nat → Bool) : State :=
  match s.hTgt h a bs.length true with
  | .array f => s.arrPut f a bs mask
  | .mirror => (List.range (bs.length / 4)).foldl (fun s i =>
      if mask (4 * i) then s.mgmtWrite (hoistWho h) (a % 2 ^ 32 + 4 * i) (BitVec.ofNat 32 (leNat (slice bs (4 * i) 4))) else s) s
  | .binTx p => if mask 0 then s.ptpTxPut p bs else s
  | .host => if (List.range bs.length).all mask then s.hostWrite a bs else
      ((bs.zip (List.range bs.length)).filter (fun x => mask x.2)).foldl (fun s x => s.hostWrite (a + x.2) [x.1]) s
  | _ => s

/-! ## HOIST_ENTRY_FETCH (R464-R469) -/

/-- The 16 bytes of the entry at `next`, where nothing fails: from an array, through the mirror or from host memory (`data`). -/
def State.entryRead (s : State) (g : Nat) (data : List Byte) : State × Option (List Byte) :=
  let a := (s.hch g).next
  match s.hTgt (g / 64) a 16 false with
  | .array f => let r := s.arrBytes f a 16
                (r.1, if r.2.2.isNone then some r.2.1 else none)
  | .mirror => let r := s.mirrorRead (g / 64) a 16
               (r.1, some r.2)
  | .binRx p => let r := s.binRead p 16
                (r.1, some r.2)
  | .host => if 16 ≤ data.length then (s.hostRead a 16, some (data.take 16)) else (s, none)
  | _ => (s, none)

/-- A malformed entry (R467). -/
def badEntry (at_ len fl : Nat) : Bool :=
  let b := fun i => natBit fl i
  decide (fl / 128 ≠ 0) || (b 3 && (decide (fl % 8 ≠ 0 ∨ fl / 16 % 4 ≠ 0) || decide (len ≠ 0) || decide (at_ % 16 ≠ 0))) ||
  (b 1 && (b 2 || b 5)) || (b 2 && b 5) || (b 5 && decide (at_ / 2 ^ 12 % 16 ≠ 0 ∨ at_ / 2 ^ 48 ≠ 0)) ||
  (!b 3 && decide (len = 0)) || (b 2 && decide (len % 8 ≠ 0))

/-- What keeps the bytes of a slot entry from moving (R468): no hold, or a range beyond the slot's packed planes. -/
def State.slotBars (s : State) (i off len : Nat) : Option HCause :=
  if ¬ s.slotHeld i then some .slotDenied else if s.slotBytes i < off + len then some .descFmt else none

/-- An entry is counted and named by CUR (R469, R479). DEDUCED (log 57): a poisoned one too. -/
def State.entryCount (s : State) (g : Nat) : State :=
  (s.addSat (R.HOISTh_CHc_DCOUNT_COUNT (g / 64) (g % 64)) 1).setCur g (s.hch g).next

/-- A fetched entry is checked and taken. -/
def State.entryTake (s : State) (g : Nat) (e : List Byte) : State :=
  let s := s.entryCount g
  let ch := s.hch g
  let at_ := leNat (slice e 0 8)
  let len := leNat (slice e 8 4)
  let fl := leNat (slice e 12 4)
  let slot := natBit fl 5
  let off := if slot then at_ / 2 ^ 16 % 2 ^ 32 else 0
  if badEntry at_ len fl then s.hHalt g .descFmt (s.hCur g) else
  if natBit fl 3 then
    let s := s.setHch g { ch with next := at_ }
    (if natBit fl 6 then s.evcAssert (384 + g) else s).hSettle g
  else
    match if slot then s.slotBars (at_ % 2 ^ 12) off len else none with
    | some k => s.hHalt g k (s.hCur g)
    | none =>
      let n : HEnt := { at_ := if slot then at_ % 2 ^ 12 + off * 2 ^ 12 else at_, len := len, fill := natBit fl 2, slot := slot, opn := natBit fl 4 }
      let dst := natBit fl 1
      let tot := (if dst then ch.nDst else ch.nSrc) + len
      let ch := { ch with next := ch.next + 16, last := natBit fl 0, evts := if natBit fl 6 then ch.evts ++ [tot] else ch.evts }
      let ch := if dst then { ch with dsts := ch.dsts ++ [n], nDst := tot } else { ch with srcs := ch.srcs ++ [n], nSrc := tot }
      (s.setHch g ch).hSettle g

/-- HOIST_ENTRY_FETCH (R469, R603): an entry whose read fails or is poisoned returns by HOIST_BUSERR or HOIST_POISON instead. -/
def execHoistEntryFetch (h : Fin 4) (c : Fin 64) (e : List Byte) (s : State) : Host.Outcome State Fault Refusal :=
  let g := 64 * h.val + c.val
  .next (if ¬ s.hFetches g ∨ s.sleep.isSome then s else
    let x := s.entryRead g e
    match x.2 with
    | some b => x.1.entryTake g b
    | none => s)

/-! ## HOIST_BURST_START (R473-R477) -/

/-- The channel's request line is asserted; `req` says so for the lines that state of the model does not give. -/
def State.hLine (s : State) (g : Nat) (req : List (Fin 64)) : Bool :=
  let v := s.get (R.HOISTh_CHc_CFG_REQSEL (g / 64) (g % 64))
  if v = 0 then true
  else if v < 0xC0 then decide (s.ptpBin (v - 0x80) ≠ [])
  else if v < 0x100 then decide ((s.ptpTx (v - 0xC0)).length < 16)
  else req.any (fun c => decide (c.val = g % 64))

/-- A channel that can start a burst (R477). -/
def State.hWants (s : State) (req : List (Fin 64)) (g : Nat) : Bool :=
  let ch := s.hch g
  decide (s.get (R.HOISTh_CHc_STATE_STATE (g / 64) (g % 64)) = 2) && s.hRun g && ch.burst.isNone && ch.err.isNone && ch.movable &&
  s.hLine g req

/-- The channel that the grant goes to: the highest PRIO, in turn after the one granted last. -/
def State.hGrant (s : State) (h : Nat) (req : List (Fin 64)) : Option Nat :=
  let last := tabGet 0 s.hgrant h
  let l := ((List.range 64).map (fun i => (last + 1 + i) % 64)).filter (fun c => s.hWants req (64 * h + c))
  let prio := fun c => s.get (R.HOISTh_CHc_CFG_PRIO h c)
  let top := l.foldl (fun m c => max m (prio c)) 0
  l.find? (fun c => decide (prio c = top))

/-- The bytes of a burst (R474): an entry of a Bin ends it too. -/
def State.hSize (s : State) (g : Nat) (src dst : HEnt) : Nat :=
  let h := g / 64
  let n := min (64 * 2 ^ s.get (R.HOISTh_CHc_CFG_BURST h (g % 64))) (min (src.len - src.used) (dst.len - dst.used))
  let n := if src.fill ∨ src.slot then n else
    match s.hTgt h (src.at_ + src.used) 1 false with
    | .binRx p => if s.ptpBin p = [] then n else min n (256 - tabGet 0 s.ptpPos p)
    | _ => n
  match s.hTgt h (dst.at_ + dst.used) 1 true with
  | .binTx _ => min n 256
  | _ => n

/-- A burst starts on channel `g` with its first source and destination entries. Its reads are made here: an address that fails leaves
the error to return, a poisoned granule is kept for its return. -/
def State.hBegin (s : State) (g : Nat) (src dst : HEnt) (data : List Byte) : State :=
  let h := g / 64
  let n := s.hSize g src dst
  let sa := src.at_ + src.used
  let da := dst.at_ + dst.used
  let plain := ¬ src.fill ∧ ¬ src.slot
  let s : State := { s with hgrant := tabSet 0 s.hgrant h (g % 64) }
  match if src.slot ∧ src.used = 0 then s.slotBars (src.at_ % 2 ^ 12) (src.at_ / 2 ^ 12) src.len else none with
  | some k => s.hHalt g k (s.hCur g)
  | none =>
    let ch := s.hch g
    let rest := { ch with srcs := takeBytes ch.srcs n, dsts := takeBytes ch.dsts n }
    if plain ∧ (s.hTgt h sa n false).fails = true then s.setHch g { rest with err := some (sa, n) } else
    if (s.hTgt h da n true).fails = true then s.setHch g { rest with err := some (da, n) } else
    let r := s.srcRead h src n data
    let e := match r.1.hTgt h da n true with
      | .array f => r.1.edgePoison f da n
      | _ => (r.1, none)
    let b : HBurst := { src := if plain then some sa else none, slot := src.slot, dst := da, data := r.2.1,
                        poison := if r.2.2.isSome then r.2.2 else e.2, at_ := s.cyc }
    e.1.setHch g { rest with burst := some b }

/-- HOIST_BURST_START (R477, R603): no Hoist moves while a sleep is in hand, and at most 32 bursts are in flight. -/
def execHoistBurstStart (h : Fin 4) (req : List (Fin 64)) (data : List Byte) (s : State) : Host.Outcome State Fault Refusal :=
  .next (if s.hStopped h ∨ s.pdOn (67 + h.val) = false ∨ s.sleep.isSome ∨
      32 ≤ ((List.range 64).filter (fun c => (s.hch (64 * h + c)).burst.isSome)).length then s else
    match s.hGrant h req with
    | none => s
    | some c =>
      let g := 64 * h.val + c
      match (s.hch g).srcs, (s.hch g).dsts with
      | src :: _, dst :: _ =>
        let busy := ¬ src.fill ∧ ¬ src.slot ∧ (match s.reachQp (src.at_ + src.used) 1 with | some q => decide (16 ≤ s.qpReads q) | none => false) = true
        if busy then s else
        let n := s.hSize g src dst
        if ¬ src.fill ∧ ¬ src.slot ∧ s.hTgt h (src.at_ + src.used) n false = .host ∧ data.length < n then s
        else s.hBegin g src dst data
      | _, _ => s)

/-! ## HOIST_BURST_DONE (R470, R475, R479) -/

/-- HOIST_BURST_DONE: a burst that carries poison, that lost its queue pair or that a stop overtook has no last write. -/
def execHoistBurstDone (h : Fin 4) (c : Fin 64) (s : State) : Host.Outcome State Fault Refusal :=
  let g := 64 * h.val + c.val
  .next (match (s.hch g).burst with
    | none => s
    | some b =>
      if b.poison.isSome ∨ b.dead = true ∨ ¬ s.hRun g then s else
      let ch := s.hch g
      let was := s.hBytes g
      let n := was + b.data.length
      let s := ((s.setHch g { ch with burst := none }).dstWrite h b.dst b.data (fun _ => true)).setBytes g n
      let s := if ch.evts.any (fun t => decide (was < t) && decide (t ≤ n)) then s.evcAssert (384 + g) else s
      s.hSettle g)

/-! ## Errors (R480-R483) -/

/-- The bytes of a burst that a stop overtook may or may not have been written (R481): which, is free. No byte of a poisoned one is. -/
def State.hTorn (s : State) (g : Nat) : State :=
  match (s.hch g).burst with
  | none => s
  | some b =>
    if b.poison.isSome then s else
    let (m, s) := s.draw b.data.length
    s.dstWrite (g / 64) b.dst b.data (fun i => natBit m i)

/-- A Hoist stops (R481, R483). -/
def State.hStop (s : State) (h cause addr : Nat) : State :=
  let s := (s.set (R.HOISTh_STAT_STOPPED h) 1).set (R.HOISTh_STAT_SCAUSE h) cause
  let s := ((s.set (R.HOISTh_ERR_L_ADDR h) addr).set (R.HOISTh_ERR_H_ADDR h) (addr / 2 ^ 32 % 2 ^ 16)).bump (R.HOISTh_STOPS_COUNT h)
  let s := (List.range 64).foldl (fun s c =>
    let g := 64 * h + c
    if s.hRun g then (s.hTorn g).hHalt g .busStop 0 else s) s
  s.send (0x280 + h) 0x31 addr (0x800 + h)

/-- The accesses that channel `g` has outstanding: their addresses and lengths, a write where the flag is set, and the cycle of a burst's start. -/
def State.hOutstanding (s : State) (g : Nat) : List (Nat × Nat × Bool × Nat) :=
  let ch := s.hch g
  match ch.burst with
  | some b => (b.src.map (fun a => (a, b.data.length, false, b.at_))).toList ++ [(b.dst, b.data.length, true, b.at_)]
  | none => if s.hFetches g then [(ch.next, 16, false, 0)] else []

/-- An access of `n` bytes at `a` holds the address. -/
def holds (a n addr : Nat) : Bool := decide (a ≤ addr) && decide (addr < a + n)

/-- An access of the channel fails at `addr` with a cause (R480): a burst's that failed as it started, a fetch that cannot reach its
entry, or an access through a host window that is outstanding. -/
def State.hFails (s : State) (g cause addr : Nat) : Bool :=
  let h := g / 64
  (match (s.hch g).err with
   | some e => holds e.1 e.2 addr && (decide (cause = (s.hTgt h e.1 e.2 true).cause) || decide (cause = (s.hTgt h e.1 e.2 false).cause))
   | none => (s.hOutstanding g).any (fun x => holds x.1 x.2.1 addr &&
       (let t := s.hTgt h x.1 x.2.1 x.2.2.1
        (decide (t.cause = cause) && (t.fails || decide (t = .host))) ||
        (decide (cause = 3) && (s.hch g).burst.any (fun b => b.dead) && decide (2 ^ 47 ≤ x.1)))))

/-- An on-die access of the channel at `addr` has waited for TMO µs (R480). -/
def State.hLate (s : State) (g addr : Nat) : Bool :=
  let h := g / 64
  (s.hOutstanding g).any (fun x => holds x.1 x.2.1 addr && (s.hTgt h x.1 x.2.1 x.2.2.1).onDie &&
    decide (x.2.2.2 + 500 * s.get (R.HOISTh_CTL_TMO h) ≤ s.cyc))

/-- HOIST_BUSERR (R480, R481): a second error while the Hoist is stopped changes nothing. -/
def execHoistBuserr (h : Fin 4) (c : Fin 64) (cause : Fin 8) (addr : BitVec 48) (s : State) : Host.Outcome State Fault Refusal :=
  let g := 64 * h.val + c.val
  .next (if s.hStopped h ∨ ¬ s.hRun g then s else
    if (if cause = 2 then s.hLate g addr.toNat else s.hFails g cause addr.toNat) = true then s.hStop h cause addr.toNat else s)

/-- HOIST_TARGET_TIMEOUT (R480, R481). -/
def execHoistTargetTimeout (h : Fin 4) (c : Fin 64) (addr : BitVec 48) (s : State) : Host.Outcome State Fault Refusal :=
  let g := 64 * h.val + c.val
  .next (if s.hStopped h ∨ ¬ s.hRun g ∨ s.hLate g addr.toNat = false then s else s.hStop h 2 addr.toNat)

/-- HOIST_POISON (R482): the channel alone halts, and no byte of the burst that carried it is written. Poison of a slot's stored
samples can meet any of its bytes. -/
def execHoistPoison (h : Fin 4) (c : Fin 64) (addr : BitVec 48) (entry : Bool) (s : State) : Host.Outcome State Fault Refusal :=
  let g := 64 * h.val + c.val
  .next (if ¬ s.hRun g then s else
    if entry then
      (match s.hFetches g, s.hTgt h (s.hch g).next 16 false with
       | true, .array f =>
         let r := s.arrBytes f (s.hch g).next 16
         (match r.2.2 with
          | some p => if holds p (granSpan f) addr.toNat then (r.1.entryCount g).hHalt g .descPoison addr.toNat else s
          | none => s)
       | _, _ => s)
    else
      match (s.hch g).burst with
      | none => s
      | some b =>
        let hit : Bool := match b.poison with
          | some p => holds p 32 addr.toNat
          | none => b.slot && decide (s.slotSz.any (fun e => decide (s.get (R.SLOTs_ADDR_BASE e.1) * 65536 ≤ addr.toNat) &&
              decide (addr.toNat < s.get (R.SLOTs_ADDR_BASE e.1) * 65536 + e.2 * 65536)) = true)
        if hit then s.hHalt g .dataPoison addr.toNat else s)

end Sys2Proof.Machine
end

