-- ==== Sys2Proof/Machine/Power.lean ====
section
/-!
DEFINITION. Reset and boot (R593-R598), firmware swaps (R599-R602), the Moored state (R356, R603-R607) and the monitors (R608-R612).
-/
namespace Sys2Proof.Machine

/-! ## Reset (R593, R594) -/

/-- What a warm reset makes of a register (R11, R594): its reset value with its sticky fields kept; a Scull's STATE is sticky while it is
retired (R163). -/
def warmWord (a : Nat) (v : Word) : Word :=
  match regInfo a with
  | none => 0
  | some (t, _) => t.fields.foldl (fun w f =>
      if f.sticky ∧ ¬ (t.base = 0x100100 ∧ f.lo = 0 ∧ wordGet v 0 2 ≠ 2) then wordSet w f.lo f.w (wordGet v f.lo f.w) else w) (regReset a)

/-- The straps show in DEV_STRAP and HOST_STAT. -/
def State.applyStraps (s : State) (b : BitVec 4) : State :=
  let s : State := { s with straps := b }
  let s := s.set ⟨A.DEV_STRAP, 0, 4⟩ b.toNat
  ((s.set R.HOST_STAT_ETYPE_SEL (b.toNat % 2)).set R.HOST_STAT_OPEN (b.toNat / 2 % 2)).set R.HOST_STAT_CP_SEL (b.toNat / 4 % 2)

/-- The state that every reset leaves (R594): what is not the part's own (the queue, the part, the record of what has left it, the count
of free values, the WAKE_N pin) goes on. -/
def State.cleared (s : State) (r : ResetS) : State :=
  { pending := s.pending, part := s.part, freeCtr := s.freeCtr, outbox := s.outbox, wakeN := s.wakeN, rst := r }

/-- The bits of CLKPWR_RSTCAUSE (R594): POR 1, PIN 2, CLX 4. -/
def State.rstCause (s : State) (v : Nat) : State := s.set ⟨A.CLKPWR_RSTCAUSE, 0, 3⟩ v

/-- A Crew's counts after a warm reset: the seats and spares that are not retired. -/
def State.warmCrew (s : State) (c : Nat) : State :=
  let n := fun (lo k : Nat) => ((List.range k).filter (fun i => !s.retired (36 * c + lo + i))).length
  (s.set (R.CREWc_STAT_LIVE c) (n 0 32)).set (R.CREWc_STAT_SPARES c) (n 32 4)

/-- A warm reset begins (R594): sticky fields, straps, retirements and lost ranges are kept. -/
def State.warmReset (s : State) (r : ResetS) (cause : Nat) : State :=
  let b := s.cleared r
  let b : State := { b with
    regs := tabMap regReset warmWord s.regs
    tsrc := tabMap (fun _ => {}) (fun _ t => { streak := t.streak }) s.tsrc
    celCe := s.celCe, lost := s.lost }
  ((List.range 4).foldl (fun s c => s.warmCrew c) (b.applyStraps s.straps)).rstCause cause

/-- PORESET (R593, R594). -/
def execPoreset (s : State) : Host.Outcome State Fault Refusal := .next (s.cleared .poreset)

/-- PORESET_N_RELEASE (R593-R595): the straps are sampled, eFuse is loaded, and time starts. -/
def execPoresetNRelease (straps : BitVec 4) (s : State) : Host.Outcome State Fault Refusal :=
  .next (if s.rst ≠ .poreset then s else (s.cleared .run).applyStraps straps)

/-- RESET_N (R593): ignored while PORESET_N is low. -/
def execResetN (s : State) : Host.Outcome State Fault Refusal :=
  .next (if s.rst = .poreset then s else s.warmReset .warmPin 2)

/-- CLX_RESET (R296, R593): 100 µs after the response to a RESET_REQ. -/
def execClxReset (s : State) : Host.Outcome State Fault Refusal :=
  .next (match s.resetReq with
    | some c => if c + 50000 ≤ s.cyc then s.warmReset .warmReq 4 else s
    | none => s)

/-- WARM_RESET_END (R593): RESET_N is released, or 10 µs have passed since a request's reset began. Time starts anew (R35). -/
def execWarmResetEnd (s : State) : Host.Outcome State Fault Refusal :=
  .next (match s.rst with
    | .warmPin => { s with rst := .run, now := 0, prev := 0, cyc := 0 }
    | .warmReq => if 5000 ≤ s.cyc then { s with rst := .run, now := 0, prev := 0, cyc := 0 } else s
    | .run => s
    | .poreset => s)

/-! ## Boot (R595, R597) -/

/-- The stacks of the part. -/
def State.stackCount (s : State) : Nat := if s.part = .ha then 1 else 2

/-- A stack is trained (R507): its lanes, its references and the training registers hold what firmware's sweeps left, free values. -/
def State.trainStack (s : State) (k : Nat) : State :=
  let s := (List.range (32 * 38)).foldl (fun s i =>
    let (v, s) := s.draw 14
    { s with celDly := tabSet (64, 64) s.celDly (laneKey k (i / 38) (i % 38)) (v % 128, v / 128) }) s
  let s := (List.range 32).foldl (fun s p =>
    let (v, s) := s.draw 6
    { s with celVref := tabSet 32 s.celVref (32 * k + p) v }) s
  let (m, s) := s.draw 17
  let (t, s) := s.draw 32
  let s := s.setReg (A.CEL_MRW k) (BitVec.ofNat 32 m)
  let s := (s.set (R.CEL_TRN_CTL_PC k) t).set (R.CEL_TRN_ROW_ROW k) (t % 1179648)
  let s := ((s.set (R.CEL_TRN_CTL_TGT k) 2).set (R.CEL_TRN_CTL_PAT k) 3).set (R.CEL_TRN_CTL_LOG2N k) 20
  ((s.raise (R.CEL_TRN_STAT_DONE k)).set (R.CEL_CTL_TRAFFIC_EN k) 1).startRefresh k

/-- The runs of 64 KiB units below `n` that leave out the lost ones, whose numbers rise. -/
def keptRuns (n : Nat) : Nat → List Nat → List (Nat × Nat)
  | from_, [] => if from_ < n then [(from_, n - from_)] else []
  | from_, u :: r => if from_ < u then (from_, u - from_) :: keptRuns n (u + 1) r else keptRuns n (max from_ (u + 1)) r

/-- The scrubber's ranges at READY (R543, R595): the Cellar but for lost ranges, and the Attic. DESIGN CHOICE (log 63): with more than seven
runs between lost ranges, the first seven. -/
def State.scrubRanges (s : State) : List (Nat × Nat) :=
  let bad := s.lost.foldl (fun l a => insertBy (fun x y => decide (x < y)) (a / 65536) l) []
  (keptRuns s.cellarUnits 0 bad).take 7 ++ [(atticBase / 65536, atticSize / 65536)]

/-- The clock domains that run (R589): the pins' own clocks are as supplied, free values. -/
def State.clocksRun (s : State) : State :=
  let (p, s) := s.draw 2
  s.set R.CLKPWR_CLKRUN_RUN (2 ^ 20 - 1 - (if s.part = .ha then 2 ^ 9 + 2 ^ 11 else 0) + p * 2 ^ 20)

/-- A present Crew passes STARTING and reaches ON at boot (R133): no epoch counts it. -/
def State.crewBoot (s : State) (c : Nat) : State :=
  if ¬ s.crewPresent c then s else
  (((s.loadRun (s.crewSculls c)).seatRebuild c).set (R.CREWc_STATE_STATE c) 2).seatStates c

/-- The domains that boot powers. -/
def State.bootDomains (s : State) : List Nat := (List.range 72).filter (fun n => s.pdExists n && !decide (46 ≤ n ∧ n ≤ 61))

/-- A switched domain is powered by the device itself. -/
def State.pdUp (s : State) (n : Nat) : State := (s.set (R.CLKPWR_PDn_STATE n) 2).set (R.CLKPWR_PDn_PEND n) 0

/-- The Cellar, the Attic and the Larders are trained and filled, and the scrubber runs (steps 7, 8 and 10). -/
def State.bootMemory (s : State) : State :=
  let s := (List.range s.stackCount).foldl (fun s k => s.trainStack k) s
  let s : State := { s with filled := [0, 1, 2] }
  let r := s.scrubRanges
  let s := (r.zip (List.range r.length)).foldl (fun s e =>
    (s.set (R.SCRUB_RNGr_BASE_UNITS e.2) e.1.1).set (R.SCRUB_RNGr_SIZE_UNITS e.2) e.1.2) s
  s.scrubEnable true

/-- A control-port lane is ON after boot (R394). -/
def State.cpLaneUp (s : State) (l : Nat) : State :=
  if s.get (R.LANEl_STATE_STATE l) = 2 then s else ((s.set (R.LANEl_STATE_STATE l) 2).negStart l).laneDefaults l

/-- READY (R595, R597): the results of every step of boot since bank 0 started. The version that DEV_FWVER shows is the image's. -/
def execReady (s : State) : Host.Outcome State Fault Refusal :=
  .next (if s.rst ≠ .run ∨ s.get R.DEV_HEALTH_DSTATE ≠ 1 then s else
    let s := s.bootDomains.foldl (fun s n => s.pdUp n) s
    let s := (List.range s.stackCount).foldl (fun s k => s.set (R.CEL_STAT_PLL_LOCK k) 1) s
    let s := s.avsCtlWrite (wordSet (s.reg A.MON_AVS_CTL) 0 1 1)
    let s := if s.flag R.DEV_STRAP_BOOT_WAIT then s else s.bootMemory
    let s := (List.range 4).foldl (fun s c => s.crewBoot c) s
    let s := ((s.cpLaneUp 64).cpLaneUp 65).clocksRun.rackFree
    let (v, s) := s.draw 32
    (s.setReg A.DEV_FWVER (BitVec.ofNat 32 v)).set R.DEV_HEALTH_DSTATE 2)

/-! ## Firmware swaps (R599-R602) -/

/-- The lowest-lettered enabled generator. -/
def State.swapGen (s : State) : Option Nat := (List.range 4).find? (fun g => s.flag (R.STRKg_CTL_EN g))

/-- A Stroke of the generator fires in this cycle; true where there is none to wait for. -/
def State.strokeNow (s : State) : Option Nat → Bool
  | none => true
  | some g => decide (strokeKey g ∈ s.fired)

/-- No swap starts before 1 ms after the end of a sleep (R602). -/
def State.swapDelay (s : State) : State :=
  { s with swap := s.swap.map (fun w => { w with after := max w.after (s.cyc + 500000) }) }

/-- SWAP_START (R599, R600, R602): fetching stops. -/
def execSwapStart (s : State) : Host.Outcome State Fault Refusal :=
  .next (match s.swap with
    | none => s
    | some w => if w.running ∨ s.sleep.isSome ∨ s.cyc < w.after ∨ s.strokeNow s.swapGen = false then s
      else { s with swap := some { w with running := true, gen := s.swapGen, start := s.cyc } })

/-- SWAP_RESUME (R600): the new image fetches, within 20 ms of the swap start. The version that DEV_FWVER shows is the new image's. -/
def execSwapResume (s : State) : Host.Outcome State Fault Refusal :=
  .next (match s.swap with
    | none => s
    | some w => if ¬ w.running ∨ w.start + 10000000 < s.cyc then s else
      let (v, s) := s.draw 32
      let s := (s.set R.HOST_STAT_ACT_BANK w.bank).set R.CLKPWR_SWAP_BUSY 0
      { s.setReg A.DEV_FWVER (BitVec.ofNat 32 v) with swap := none })

/-- A bank's bit of HOST_STAT.VALID. -/
def State.bankValid (s : State) (b : Nat) (on : Bool) : State := s.set ⟨A.HOST_STAT, 4 + b, 1⟩ (b2n on)

/-- SWAP_REVERT (R601): 20 ms have passed, and a Stroke of the same generator fires. -/
def execSwapRevert (s : State) : Host.Outcome State Fault Refusal :=
  .next (match s.swap with
    | none => s
    | some w => if ¬ w.running ∨ s.cyc ≤ w.start + 10000000 ∨ s.strokeNow w.gen = false then s else
      let s := ((s.bankValid w.bank false).raise R.CLKPWR_SWAP_REVERTED).set R.CLKPWR_SWAP_BUSY 0
      { s with swap := none })

/-! ## The Moored state (R356, R603-R607) -/

/-- SLEEP (R356, R602): DESIGN CHOICE (log 64): a second SLEEP while one is in hand is BUSY too. -/
def execSleep (c : Cmd) (s : State) : Host.Outcome State Fault Refusal :=
  let d := c.desc
  let w := dget d 16 0 3
  let alarm := dget d 24 0 64 * 10 ^ 9 + dget d 32 0 30
  .next (s.begin c 0x70 true (dSub d = 0 ∧ dClean d [(16, 0, 3), (24, 0, 64), (32, 0, 30)]) [0] none (fun s o =>
    if s.streamsLive then s.complete o St.streamsLive else
    if s.flag R.CLKPWR_SWAP_BUSY ∨ s.sleep.isSome then s.complete o St.busy else
    if w = 0 ∨ (natBit w 2 ∧ alarm * unitsPerNs ≤ s.now) then s.complete o St.badValue else
    ({ s.set R.CLKPWR_SLEEP_WAKE_EN w with sleep := some { alarm := alarm } } : State).await o .sleep))

/-- The clocks that stop in Moored (R589). -/
def mooredStops : List Nat := [4, 5, 7, 8, 9, 10, 11, 12, 13, 14, 15, 17]

/-- A wake starts (R607): its sources are recorded and the stopped clocks run. -/
def State.wakeStart (s : State) (z : SleepS) : State :=
  ({ s.set R.CLKPWR_SLEEP_WAKE_SRC z.src with sleep := some { z with waking := true } } : State).clocksRun

/-- A wake source asserts (R604, R606, R607): a WAKE frame before the commit point is remembered for it; after it an enabled source
starts the wake at once in Moored, or when Moored is reached. -/
def State.wakeSource (s : State) (b : Nat) : State :=
  match s.sleep with
  | none => s
  | some z =>
    if ¬ z.commit then (if b = 0 then { s with sleep := some { z with wake := true } } else s) else
    if z.waking ∨ ¬ natBit (s.get R.CLKPWR_SLEEP_WAKE_EN) b then s else
    let z := { z with src := Nat.lor z.src (2 ^ b) }
    if s.get R.DEV_HEALTH_DSTATE = 3 then s.wakeStart z else { s with sleep := some z }

/-- SLEEP_COMMIT (R603, R604): the enabled sources are tested; sleep is abandoned, or entry proceeds with the scrubber held. -/
def execSleepCommit (s : State) : Host.Outcome State Fault Refusal :=
  .next (match s.sleep with
    | none => s
    | some z =>
      if z.commit then s else
      let src := Nat.land (s.get R.CLKPWR_SLEEP_WAKE_EN)
        (b2n z.wake + 2 * b2n s.wakeN + 4 * b2n (decide (z.alarm * unitsPerNs ≤ s.now)))
      if src ≠ 0 then
        let s := ((s.set R.CLKPWR_SLEEP_WAKE_SRC src).set R.CLKPWR_SLEEP_ABORTED 1).bump R.CLKPWR_SLEEP_ABORTS
        ({ s with sleep := none } : State).swapDelay.settle .sleep St.sleepAborted
      else
        let s := (s.set R.CLKPWR_SLEEP_ABORTED 0).set R.CLKPWR_SLEEP_SCRUB_HOLD 1
        ({ s with sleep := some { z with commit := true } } : State).settle .sleep St.ok)

/-- A stack enters self-refresh (R504): its queues drain, its banks are precharged. -/
def State.stackSleep (s : State) (k : Nat) : State :=
  let s := (List.range 32).foldl (fun s p =>
    let c := s.pc k p
    ((c.writes ++ c.held.filter (fun q => q.req.write)).foldl (fun s q =>
      s.arrWrite 0 q.req.addr ((List.range 4).map (fun i => q.req.data.toNat / 2 ^ (64 * i) % 2 ^ 64))) s).setPc k p {}) s
  (s.setStack k { s.stack k with refNext := none }).set (R.CEL_STAT_SREF k) 1

/-- MOORED_REACHED (R605): lanes, ports, stacks and domains are off, by the device's own transitions. A source asserted since the
commit point starts the wake now. -/
def execMooredReached (s : State) : Host.Outcome State Fault Refusal :=
  .next (match s.sleep with
    | none => s
    | some z =>
      if ¬ z.commit ∨ s.get R.DEV_HEALTH_DSTATE ≠ 2 then s else
      let lanes := (List.range 64).filter (fun l => decide (s.get (R.LANEl_STATE_STATE l) = 2))
      let ports := (List.range 64).filter (fun p => decide (s.get (R.PORTp_STATE_STATE p) = 2))
      let doms := (List.range 72).filter (fun n => decide (n ≠ 66) && s.pdOn n)
      let s := ports.foldl (fun s p => ((s.emptyBins p).set (R.PORTp_STATE_STATE p) 0).evcAssert (192 + p)) s
      let s := lanes.foldl (fun s l => (s.set (R.LANEl_STATE_STATE l) 0).laneDark l) s
      let s := (List.range s.stackCount).foldl (fun s k => s.stackSleep k) s
      let s := doms.foldl (fun s n => ((s.pdLose n).set (R.CLKPWR_PDn_STATE n) 0).set (R.CLKPWR_PDn_PEND n) 0) s
      let s := s.set R.CLKPWR_CLKRUN_RUN (mooredStops.foldl (fun v i => if natBit v i then v - 2 ^ i else v) (s.get R.CLKPWR_CLKRUN_RUN))
      let z := { z with doms := doms, lanes := lanes, ports := ports }
      let s := s.set R.DEV_HEALTH_DSTATE 3
      if z.src ≠ 0 then s.wakeStart z else { s with sleep := some z })

/-- WAKE_N_FALL (R604, R607). -/
def execWakeNFall (s : State) : Host.Outcome State Fault Refusal := .next (({ s with wakeN := true } : State).wakeSource 1)

/-- WAKE_N_RELEASE (R604). -/
def execWakeNRelease (s : State) : Host.Outcome State Fault Refusal := .next { s with wakeN := false }

/-- PTP_ALARM (R604, R607). -/
def execPtpAlarm (s : State) : Host.Outcome State Fault Refusal :=
  .next (match s.sleep with
    | some z => if z.alarm * unitsPerNs ≤ s.now ∧ s.steady then s.wakeSource 2 else s
    | none => s)

/-- The memory after a sleep (R607): the domains that were ON are powered, the stacks refresh again, and the Attic is filled. -/
def State.wakeMemory (s : State) (doms : List Nat) : State :=
  let s := (doms.filter (fun n => !decide (46 ≤ n ∧ n ≤ 61))).foldl (fun s n => s.pdUp n) s
  let s := (List.range s.stackCount).foldl (fun s k =>
    let s := s.set (R.CEL_STAT_SREF k) 0
    if s.flag (R.CEL_CTL_TRAFFIC_EN k) then s.startRefresh k else s) s
  { s with filled := if 1 ∈ s.filled then s.filled else 1 :: s.filled }

/-- The Sculls are loaded, unless UCODE is at the expert level (R23), with the seats and the chosen spares as they stood; and the lanes and ports that were ON are enabled again (R607). -/
def State.wakeUnits (s : State) (lanes ports : List Nat) : State :=
  let s := (List.range 4).foldl (fun s c => if s.crewOn c ∧ ¬ s.expert 9 then s.loadRun (s.crewSculls c) else s) s
  let s := lanes.foldl (fun s l => (s.set (R.LANEl_STATE_STATE l) 1).quadPower l) s
  ports.foldl (fun s p => s.set (R.PORTp_STATE_STATE p) 1) s

/-- WAKE_READY (R607): the domains that were ON are powered, the stacks refresh again, the Attic is filled, the Sculls are loaded, the
lanes and ports are enabled again, and the scrubber and the fetch of commands resume. -/
def execWakeReady (s : State) : Host.Outcome State Fault Refusal :=
  .next (match s.sleep with
    | none => s
    | some z =>
      if ¬ z.waking then s else
      let s := (s.wakeMemory z.doms).wakeUnits z.lanes z.ports
      let s := (s.set R.CLKPWR_SLEEP_SCRUB_HOLD 0).set R.DEV_HEALTH_DSTATE 2
      ({ s with sleep := none } : State).swapDelay)

/-! ## The monitors (R608-R612) -/

/-- The domain of a thermal sensor is ON. DEDUCED (log 65): that of sensors 46 and 47 while any of their eight quads is. -/
def State.sensorOn (s : State) (i : Nat) : Bool :=
  if i < 46 then s.pdOn i else (List.range 8).any (fun q => s.pdOn (46 + 8 * (i - 46) + q))

/-- The source of a reading's report: a sensor, or a stack's controller. -/
def thermSource (src : Nat) : Nat := if src < 48 then 0x700 + src else 0x140 + (src - 48)

/-- The ceiling after a reading (R609). -/
def thermNext (was : Nat) (t : Int) : Nat :=
  if 120 ≤ t then 3
  else if was = 3 ∧ 117 < t then 3
  else if 115 ≤ t then 2
  else if was ≠ 0 ∧ 112 < t then 2 else 0

/-- The hottest reading and its source, the lowest-numbered among equals (R608). -/
def State.hottest (s : State) : Option (Int × Nat) :=
  let a := (List.range 48).filterMap (fun i => if s.sensorOn i then some (signed 8 (s.get (R.MON_TEMPi_TJ i)), i) else none)
  let b := (List.range s.stackCount).filterMap (fun k => if s.pdOn (44 + k) then some (signed 8 (s.get (R.CEL_TEMP_TJ k)), 48 + k) else none)
  (a ++ b).foldl (fun (m : Option (Int × Nat)) e =>
    match m with
    | none => some e
    | some x => if x.1 < e.1 then some e else m) none

/-- MON_TMAX follows the readings, and the ceiling follows it (R609). -/
def State.thermUpdate (s : State) : State :=
  match s.hottest with
  | none => s
  | some (t, src) =>
    let trip := signed 8 (s.get R.MON_TMAX_TJ) < 125 ∧ 125 ≤ t
    let was := s.therm
    let e := thermNext was t
    let s := (s.set R.MON_TMAX_TJ (unsigned 8 t)).set R.MON_TMAX_SRC src
    let s : State := { s.set R.MON_TMAX_CEIL e with therm := e }
    let s := if was < e then s.send (thermSource src) (if e = 3 then 0x61 else 0x60) 0 (unsigned 12 t) else s
    let s := if trip then s.send (thermSource src) 0x62 0 (unsigned 12 t) else s
    if was < e then (List.range 4).foldl (fun s c => s.raiseCrew c) s else s

/-- THERMAL_SAMPLE (R608, R609): one reading for each of the 48 sensors; those in domains that are OFF are left out. -/
def execThermalSample (temps : List Int) (s : State) : Host.Outcome State Fault Refusal :=
  .next (if temps.length ≠ 48 then s else
    ((temps.zip (List.range 48)).foldl (fun s e => if s.sensorOn e.2 then s.set (R.MON_TEMPi_TJ e.2) (unsigned 8 e.1) else s) s).thermUpdate)

/-- The nominal voltage of a rail in mV (R610, R640). -/
def State.railNominal (s : State) (r : Nat) : Nat :=
  if r < 4 then s.get R.MON_AVS_STAT_MV else ([800, 750, 1200, 1100, 400, 1800, 1800, 750][r - 4]?).getD 0

/-- A reading lies outside a window of `w` units of 0.5 % of nominal. -/
def railOut (nom w mv : Nat) : Bool := decide (nom * w < 200 * (mv - nom)) || decide (nom * w < 200 * (nom - mv))

/-- The warning window of a rail (R610): ten samples in a row outside it report. DEDUCED (log 66): 100 µs are ten samples. -/
def State.railWarn (s : State) (r mv : Nat) : State :=
  let n := if railOut (s.railNominal r) (s.get (R.MON_RAILr_CFG_WARN r)) mv then min (tabGet 0 s.rails r + 1) 11 else 0
  let s : State := { s with rails := tabSet 0 s.rails r n }
  if n = 10 then (s.raise (R.MON_RAILr_CFG_WARN_SEEN r)).send (0x740 + r) 0x70 0 mv else s

/-- The fault window of a rail (R610): one sample outside it reports. DEDUCED (log 66): 10 µs are one sample. -/
def State.railFault (s : State) (r mv : Nat) : State :=
  if ¬ railOut (s.railNominal r) (s.get (R.MON_RAILr_CFG_FAULT r)) mv then { s with railF := s.railF.filter (fun x => x != r) } else
  if r ∈ s.railF then s else
  (({ s with railF := r :: s.railF } : State).raise (R.MON_RAILr_CFG_FAULT_SEEN r)).send (0x740 + r) 0x71 0 mv

/-- One rail's sample (R610). -/
def State.railTake (s : State) (r mv : Nat) : State :=
  ((s.set (R.MON_RAILr_MV_MV r) mv).railWarn r mv).railFault r mv

/-- RAIL_SAMPLE (R610): one reading in mV for each of the 12 rails. -/
def execRailSample (mv : List Nat) (s : State) : Host.Outcome State Fault Refusal :=
  .next (if mv.length ≠ 12 then s else (mv.zip (List.range 12)).foldl (fun s e => s.railTake e.2 (e.1 % 2 ^ 12)) s)

/-- `mv` millivolts in LINEAR16 with the exponent `e`, five bits in two's complement (R612). PRESUMED (log 67): the mantissa is the
voltage over 2 to the exponent, in volts, to the nearest number. -/
def linear16 (mv e : Nat) : Nat :=
  (if e < 16 then (mv + 500 * 2 ^ e) / (1000 * 2 ^ e) else (mv * 2 ^ (32 - e) + 500) / 1000) % 2 ^ 16

/-- The request is written to the regulator as VOUT_COMMAND (R612). -/
def State.avsSend (s : State) : State :=
  { s.pmbusOut 0x21 (linear16 (s.get R.MON_AVS_STAT_MV) s.voutExp) with avsAgain := false }

/-- AVS_LOOP (R611, R612): one count for each of the 36 Fours. DEDUCED (log 67): AVS_LIMIT comes from the process monitor with the lowest
count. -/
def execAvsLoop (counts : List Nat) (s : State) : Host.Outcome State Fault Refusal :=
  .next (if counts.length ≠ 36 ∨ ¬ s.flag R.MON_AVS_CTL_EN then s else
    let s := (counts.zip (List.range 36)).foldl (fun s e => s.set (R.MON_PROCf_COUNT e.2) (if s.pdOn e.2 then e.1 else 0)) s
    let on := (List.range 36).filter (fun f => s.pdOn f)
    match on.foldl (fun (m : Option Nat) f => match m with
        | none => some f
        | some g => if s.get (R.MON_PROCf_COUNT f) < s.get (R.MON_PROCf_COUNT g) then some f else m) none with
    | none => s
    | some f =>
      let n := s.get (R.MON_PROCf_COUNT f)
      let mv := s.get R.MON_AVS_STAT_MV
      let up := n < s.get R.MON_AVS_TGT_COUNT
      let down := s.get R.MON_AVS_TGT_COUNT + s.get R.MON_AVS_TGT_HYST < n
      let lim := (up ∧ 800 ≤ mv) ∨ (down ∧ mv ≤ 650)
      let was := s.flag R.MON_AVS_STAT_LIMIT
      let new := if lim then mv else if up then mv + 5 else if down then mv - 5 else mv
      let s := (s.set R.MON_AVS_STAT_MV new).set R.MON_AVS_STAT_LIMIT (if lim then 1 else 0)
      let s := if lim ∧ ¬ was then s.send (0x780 + f) 0x72 else s
      if new ≠ mv ∨ s.avsAgain = true then s.avsSend else s)

/-- PMB_ALERT (R612): STATUS_WORD is read, and the request goes out again after the next loop period. -/
def execPmbAlert (status : BitVec 16) (s : State) : Host.Outcome State Fault Refusal :=
  .next (((({ s with avsAgain := true } : State).pmbusOut 0x79 0).raise R.MON_AVS_STAT_PMB_ERR).send 0x74B 0x73 status.toNat)

end Sys2Proof.Machine
end

