-- ==== Sys2Proof/Machine/Clexia.lean ====
section
/-!
DEFINITION. Clexia (R287-R298): what a control port accepts, its tag and its sequence, the order of the checks, the operations, and
the push and verification of firmware.
-/
namespace Sys2Proof.Machine

/-! ## Frames (R287-R291) -/

/-- The first eight bytes of a header. -/
def clxHead (ver opc len seq : Nat) : List Byte := leBytes 1 ver ++ leBytes 1 opc ++ beBytes 2 len ++ beBytes 4 seq

/-- MGMT_OPEN. -/
def State.clxOpen (s : State) : Bool := s.flag R.DEV_STRAP_MGMT_OPEN

/-- A port accepts the frame's transport (R287). -/
def State.clxArrives (s : State) (p : Nat) (w : ClxPath) : Bool :=
  match w.udp with
  | none => s.flag R.HOST_CTL_CLX_RAW_EN && decide (w.et.toNat = 0x88B5 + s.get R.DEV_STRAP_MGMT_ETYPE_SEL)
  | some (ip, port, _, _) => s.flag R.HOST_CTL_CLX_UDP_EN && decide (port.toNat = s.get R.HOST_UDP_PORT) && decide (ip.toNat = s.cpIp p)

/-- A response leaves (R287-R289). -/
def State.clxSend (s : State) (p : Nat) (x : Resp) : State :=
  let tag : BitVec 128 := if s.clxOpen then 0 else clexiaTag (clxHead 1 x.opc x.payload.length x.seq ++ x.payload)
  s.emit (.clexia p x.path x.opc x.seq x.payload tag)

/-- The last accepted sequence of a port, and whether there is one. -/
def seqRF (p : Nat) : RF := if p = 0 then R.HOST_MGMTSEQ0_SEQ else R.HOST_MGMTSEQ1_SEQ
def initRF (p : Nat) : RF := if p = 0 then R.HOST_STAT_SEQ0_INIT else R.HOST_STAT_SEQ1_INIT

/-- What becomes of a frame before its request is checked (R288-R291). -/
inductive ClxRes where
  | dropped | badTag | again | behind | accepted
  deriving DecidableEq, Repr

/-- The tag of a request checks out. -/
def State.clxAuth (s : State) (r : ClxReq) : Bool :=
  s.clxOpen ||
    decide (r.tag = clexiaTag (clxHead r.ver.toNat r.opc.toNat r.len.toNat r.seq.toNat ++ r.body.take r.len.toNat))

/-- The handling of a frame. -/
def State.clxRes (s : State) (r : ClxReq) : ClxRes :=
  let p := r.port.val
  if s.cpServes p = false ∨ s.clxArrives p r.path = false ∨ r.body.length < r.len.toNat then .dropped else
  if s.clxAuth r = false then .badTag else
  if s.get (initRF p) = 0 then .accepted else
  let d := (r.seq.toNat + 2 ^ 32 - s.get (seqRF p)) % 2 ^ 32
  if d = 0 then .again else if d < 2 ^ 31 then .accepted else .behind

/-! ## Status (R295) -/

namespace ClxSt
abbrev ok : Nat := 0
abbrev badLen : Nat := 1
abbrev badOpc : Nat := 2
abbrev badAlign : Nat := 3
abbrev rsvd : Nat := 4
abbrev notReady : Nat := 5
abbrev fwOrder : Nat := 6
abbrev fwSize : Nat := 7
abbrev fwSig : Nat := 8
abbrev fwBusy : Nat := 9
abbrev dbDiscard : Nat := 10
end ClxSt

/-- The opcodes of R293. -/
def clxListed (o : Nat) : Bool := o ∈ [0x01, 0x02, 0x03, 0x10, 0x20, 0x30, 0x31, 0x3F]

/-- The first check that fails. -/
def firstFail : List (Bool × Nat) → Option Nat
  | [] => none
  | c :: r => if c.1 then firstFail r else some c.2

/-- A request of one opcode (R290-R295): a frame of another listed opcode is another command's; one of an unlisted opcode fails
BAD_OPC. `checks` come after BAD_OPC; `act` gives the response's status and what follows it, or none where it comes later. -/
def State.clx (s : State) (r : ClxReq) (opc : Nat) (checks : State → List Byte → List (Bool × Nat))
    (act : State → List Byte → State × Option (Nat × List Byte)) : State :=
  let p := r.port.val
  let o := r.opc.toNat
  if o ≠ opc ∧ clxListed o then s else
  match s.clxRes r with
  | .dropped => s
  | .badTag => (s.bump R.HOST_AUTHFAIL_COUNT).send 0x590 0x41
  | .behind => s.bump R.HOST_SEQERR_COUNT
  | .again => (match (s.cp p).resp with
      | some x => s.clxSend p { x with path := r.path }
      | none => s)
  | .accepted =>
    let s := (s.set (seqRF p) r.seq.toNat).set (initRF p) 1
    let b := r.body.take r.len.toNat
    let res := match firstFail ([(decide (r.ver = 1) && decide (o = opc), ClxSt.badOpc)] ++ checks s b) with
      | some st => (s, some (st, []))
      | none => act s b
    let x : Resp := { opc := Nat.lor o 128, seq := r.seq.toNat, path := r.path }
    match res.2 with
    | none => res.1.setCp p { res.1.cp p with resp := none }
    | some (st, l) =>
      let x := { x with payload := beBytes 4 st ++ l }
      (res.1.setCp p { res.1.cp p with resp := some x }).clxSend p x

/-- `n` bytes of a payload from an offset, big-endian (R288). -/
def pBe (b : List Byte) (off n : Nat) : Nat := beNat (slice b off n)

/-- Firmware serves the request (R295, R296). -/
def State.clxReady (s : State) : Bool := decide (2 ≤ s.get R.DEV_HEALTH_DSTATE)

/-! ## Registers (R293, R294) -/

/-- Registers from an address upward are read. -/
def State.clxReads (s : State) (w : Who) (a n : Nat) : State × List Byte :=
  (List.range n).foldl (fun (acc : State × List Byte) i =>
    let r := acc.1.mgmtRead w ((a + 4 * i) % 2 ^ 32)
    (r.1, acc.2 ++ beBytes 4 r.2.toNat)) (s, [])

/-- READ. -/
def execClxRead (r : ClxReq) (s : State) : Host.Outcome State Fault Refusal :=
  .next (s.clx r 0x01 (fun _ b =>
    [(decide (b.length = 8) && decide (1 ≤ pBe b 4 2) && decide (pBe b 4 2 ≤ 256), ClxSt.badLen),
     (decide (pBe b 0 4 % 4 = 0), ClxSt.badAlign), (decide (pBe b 6 2 = 0), ClxSt.rsvd)])
    (fun s b => let v := s.clxReads (.host r.port) (pBe b 0 4) (pBe b 4 2)
                (v.1, some (ClxSt.ok, v.2))))

/-- WRITE. -/
def execClxWrite (r : ClxReq) (s : State) : Host.Outcome State Fault Refusal :=
  .next (s.clx r 0x02 (fun s b =>
    [(decide (b.length = 8), ClxSt.badLen), (decide (pBe b 0 4 % 4 = 0), ClxSt.badAlign), (s.clxReady, ClxSt.notReady)])
    (fun s b => (s.mgmtWrite (.host r.port) (pBe b 0 4) (BitVec.ofNat 32 (pBe b 4 4)), some (ClxSt.ok, []))))

/-- BLOCK_WRITE (R294). -/
def execClxBlockWrite (r : ClxReq) (s : State) : Host.Outcome State Fault Refusal :=
  .next (s.clx r 0x03 (fun s b =>
    [(decide (8 ≤ b.length) && decide (b.length = 8 + 4 * pBe b 4 2) && decide (1 ≤ pBe b 4 2) && decide (pBe b 4 2 ≤ 256), ClxSt.badLen),
     (decide (pBe b 0 4 % 4 = 0), ClxSt.badAlign), (decide (pBe b 6 2 = 0), ClxSt.rsvd), (s.clxReady, ClxSt.notReady)])
    (fun s b => ((List.range (pBe b 4 2)).foldl (fun s i =>
        s.mgmtWrite (.host r.port) ((pBe b 0 4 + 4 * i) % 2 ^ 32) (BitVec.ofNat 32 (pBe b (8 + 4 * i) 4))) s, some (ClxSt.ok, []))))

/-! ## Firmware push (R297, R298) -/

/-- The bank that a push fills. -/
def State.pushBank (s : State) : Nat := if s.get R.DEV_HEALTH_DSTATE = 0 then 0 else 1 - s.get R.HOST_STAT_ACT_BANK

/-- The bytes of a push received so far. -/
def State.pushed (s : State) : Nat := (s.push.map (fun p => p.bytes.length)).getD 0

/-- A push cannot be taken now: a swap is pending or running (R295). DESIGN CHOICE (log 74): nor while a last chunk is being verified. -/
def State.pushBusy (s : State) : Bool := s.flag R.CLKPWR_SWAP_BUSY || s.push.any (fun p => p.last.isSome)

/-- A chunk stands in order (R297). DEDUCED (log 74): one that goes beyond TOTAL does not. -/
def State.pushOrder (s : State) (off tot n : Nat) (last : Bool) : Bool :=
  (decide (off = 0) || decide (off = s.pushed)) && (if last then decide (off + n = tot) else decide (off + n < tot))

/-- A chunk is taken: offset 0 starts a new push. DEDUCED (log 74): the bank it fills holds no verified image from then on. -/
def State.pushTake (s : State) (p : Nat) (x : Resp) (off : Nat) (img : List Byte) (last : Bool) : State :=
  let s := if off = 0 then (s.bankValid s.pushBank false).set R.HOST_STAT_PUSH_ACT 1 else s
  let old := if off = 0 then [] else (s.push.map (fun q => q.bytes)).getD []
  { s with push := some { bank := s.pushBank, bytes := old ++ img, last := if last then some (p, x) else none } }

/-- FW_PUSH (R297): the response to the LAST chunk comes with its verification. -/
def execFwPush (r : ClxReq) (s : State) : Host.Outcome State Fault Refusal :=
  .next (s.clx r 0x10 (fun s b =>
    let n := b.length - 12
    let last := natBit (pBe b 8 4) 0
    [(decide (12 ≤ b.length) && decide (n ≤ 1424) && decide (n % 4 = 0), ClxSt.badLen), (decide (pBe b 8 4 < 2), ClxSt.rsvd),
     (!s.pushBusy, ClxSt.fwBusy), (decide (pBe b 4 4 ≤ 4194304) && decide (pBe b 4 4 % 4 = 0), ClxSt.fwSize),
     (s.pushOrder (pBe b 0 4) (pBe b 4 4) n last, ClxSt.fwOrder)])
    (fun s b =>
      let last := natBit (pBe b 8 4) 0
      (s.pushTake r.port { opc := 0x90, seq := r.seq.toNat, path := r.path } (pBe b 0 4) (b.drop 12) last,
       if last then none else some (ClxSt.ok, []))))

/-- The bank of a finished push holds its image, and no push is in progress. -/
def State.bankTake (s : State) (b : Nat) (bytes : List Byte) (ok : Bool) : State :=
  let s : State := { s with bank0 := if b = 0 then bytes else s.bank0, bank1 := if b = 0 then s.bank1 else bytes, push := none }
  (s.bankValid b ok).set R.HOST_STAT_PUSH_ACT 0

/-- The response to the last chunk goes out, and is kept for a retransmission where the port has accepted nothing since. -/
def State.verifyAnswer (s : State) (p : Nat) (x : Resp) : State :=
  (if s.get (seqRF p) = x.seq then s.setCp p { s.cp p with resp := some x } else s).clxSend p x

/-- A verified bank 0 starts under the boot ROM; while firmware runs, a verified bank waits for its swap (R599). -/
def State.bankStart (s : State) (b : Nat) : State :=
  if s.get R.DEV_HEALTH_DSTATE = 0 then (s.set R.DEV_HEALTH_DSTATE 1).set R.HOST_STAT_ACT_BANK 0
  else { s.set R.CLKPWR_SWAP_BUSY 1 with swap := some { bank := b, after := s.cyc + 500000 } }

/-- FW_VERIFY_DONE (R298, R599): a verified bank 0 starts under the boot ROM; while firmware runs, a verified bank waits for its
swap. The response is kept for a retransmission where the port has accepted nothing since. -/
def execFwVerifyDone (s : State) : Host.Outcome State Fault Refusal :=
  .next (match s.push with
    | none => s
    | some q =>
      match q.last with
      | none => s
      | some (p, x) =>
        let ok := imageGood q.bytes
        let x := { x with payload := beBytes 4 (if ok then ClxSt.ok else ClxSt.fwSig) }
        let s := (s.bankTake q.bank q.bytes ok).verifyAnswer p x
        if ok then s.bankStart q.bank else s)

/-! ## The other operations (R293, R296, R315, R606) -/

/-- DOORBELL (R314, R315): behind a doorbell of CP1 in its cycle one of CP0 is no order of the engine's, and is not made. -/
def execClxDoorbell (r : ClxReq) (s : State) : Host.Outcome State Fault Refusal :=
  let k := dbTurn r.port true
  .next (if ¬ s.inTurn 2 0 k then s else s.clx r 0x20 (fun s b => [(decide (b.length = 8), ClxSt.badLen), (s.clxReady, ClxSt.notReady)])
    (fun s b => let d := (s.turn_ 2 0 k).doorbellBytes b
                (d.1, some (if d.2 then ClxSt.ok else ClxSt.dbDiscard, []))))

/-- WAKE (R604, R606). -/
def execClxWake (r : ClxReq) (s : State) : Host.Outcome State Fault Refusal :=
  .next (s.clx r 0x30 (fun s b => [(decide (b.length = 0), ClxSt.badLen), (s.clxReady, ClxSt.notReady)])
    (fun s _ => (s.wakeSource 0, some (ClxSt.ok, []))))

/-- RESET_REQ (R296): the reset is due 100 µs after the response. -/
def execResetReq (r : ClxReq) (s : State) : Host.Outcome State Fault Refusal :=
  .next (s.clx r 0x31 (fun _ b => [(decide (b.length = 4), ClxSt.badLen), (decide (pBe b 0 4 = 1), ClxSt.rsvd)])
    (fun s _ => ({ s with resetReq := some (s.resetReq.getD s.cyc) }, some (ClxSt.ok, []))))

/-- PING (R293). -/
def execClxPing (r : ClxReq) (s : State) : Host.Outcome State Fault Refusal :=
  .next (s.clx r 0x3F (fun _ b => [(decide (b.length ≤ 64), ClxSt.badLen)])
    (fun s b => (s, some (ClxSt.ok, beBytes 4 s.devId.toNat ++ beBytes 4 (s.get R.DEV_HEALTH_DSTATE) ++ b))))

end Sys2Proof.Machine
end

