-- ==== Sys2Proof/Machine/Units.lean ====
section
/-!
DEFINITION. The unit commands (R353) and the microcode load (R355).
-/
namespace Sys2Proof.Machine

/-! ## UNIT_ENABLE, UNIT_DISABLE -/

/-- The named media port is there (R398). -/
def State.unitThere (s : State) (d : Desc) : Bool := decide (dKind d ≠ 3) || s.portExists (dIdx d)

/-- A stream that is not OFF has the Crew in its set, in force or next (R134, R353). -/
def State.crewUsed (s : State) (c : Nat) : Bool :=
  s.streams.any (fun e => decide (s.get (R.STRMn_STATE_STATE e.1) ≠ 0) && decide (e.2.p.typ ≠ 2) &&
    (decide (c ∈ e.2.crews) || decide (c ∈ (s.regSet e.1).crews e.2.p.typ)))

/-- A disable of the unit is refused with BUSY (R353, R394). -/
def State.unitBusy (s : State) (kind i : Nat) : Bool :=
  match kind with
  | 3 => s.portUsed i (fun st => st == 2)
  | 4 => decide (64 ≤ i)
  | _ => s.crewUsed i

/-- A request on a port, a lane or a Crew: L_c is 0 from the cycle in which a Crew leaves ON (R132), and an enable keeps
the levels of ADMIT and UCODE that it begins under (R24). -/
def State.unitRequest (s : State) (o : Owed) (kind i : Nat) (enable : Bool) : State :=
  if kind = 4 then s.laneCmd o i enable else
  let on := s.crewOn i
  let r := reqRes (s.get (urec kind i).state) (s.get (urec kind i).pend) enable
  let s := if kind = 5 ∧ enable = true ∧ (r = .began ∨ r = .latched) then s.setCrew i { s.crew i with began := (s.expert 4, s.expert 9) } else s
  let s := s.requestCmd o kind i enable
  if kind = 5 ∧ on = true then s.crewStat i else s

/-- UNIT_ENABLE. -/
def execUnitEnable (c : Cmd) (s : State) : Host.Outcome State Fault Refusal :=
  let d := c.desc
  .next (s.begin c 0x40 true (dSub d = 0 ∧ dClean d []) [3, 4, 5] none (fun s o => s.unitRequest o (dKind d) (dIdx d) true) (s.unitThere d))

/-- UNIT_DISABLE. -/
def execUnitDisable (c : Cmd) (s : State) : Host.Outcome State Fault Refusal :=
  let d := c.desc
  .next (s.begin c 0x41 true (dSub d = 0 ∧ dClean d []) [3, 4, 5] none (fun s o =>
    if s.unitBusy (dKind d) (dIdx d) then s.complete o St.busy else s.unitRequest o (dKind d) (dIdx d) false) (s.unitThere d))

/-! ## UCODE_LOAD (R355) -/

/-- The bytes of a microcode image. -/
def ucodeLen : Nat := 73920

/-- A load runs. -/
def State.ucodeBusy (s : State) : Bool := s.owed.any (fun o => o.wait == .ucode)

/-- The image at a device address: its bytes, or the status of what keeps firmware from reading it. DEDUCED (log 60): an address that no memory
answers is ADDR_DENIED, a read that fails BUS_ERR, a poisoned one DATA_POISON. -/
def State.ucodeRead (s : State) (a : Nat) (img : HostRead) : State × (List Byte ⊕ Nat) :=
  match s.hTgt 0 a ucodeLen false with
  | .array f => let r := s.arrBytes f a ucodeLen
                (r.1, if r.2.2.isNone then .inl r.2.1 else .inr St.dataPoison)
  | .host => (s, match img with
      | some b => if b.length = ucodeLen then .inl b else .inr St.busErr
      | none => .inr St.busErr)
  | .silent => (s, .inr St.busErr)
  | _ => (s, .inr St.addrDenied)

/-- UCODE_LOAD. -/
def execUcodeLoad (c : Cmd) (img : HostRead) (s : State) : Host.Outcome State Fault Refusal :=
  let d := c.desc
  .next (s.begin c 0x60 true (dSub d = 0 ∧ dClean d [(16, 0, 64), (24, 0, 32)]) [0] (some 9) (fun s o =>
    if dget d 24 0 32 ≠ ucodeLen then s.complete o St.badLen else
    if s.ucodeBusy then s.complete o St.busy else
    let x := s.ucodeRead (dget d 16 0 64) img
    let s := x.1
    match x.2 with
    | .inr st => s.complete o st
    | .inl b => if imageGood b then ({ s with images := s.images ++ [b] } : State).await o .ucode else s.complete o St.fwSig))

/-- The unretired Sculls of a Crew that is ON whose stores do not hold the present image. -/
def State.ucodeLeft (s : State) (c : Nat) : List Nat :=
  if s.crewPresent c && s.crewOn c then (s.crewSculls c).filter (fun u => (s.seq u).img != s.imageNow) else []

/-- One Crew's step of a load (R279): the Sculls that run no job are loaded, checked and run; of those that run one, firmware clears RUN on
one seated Scull. -/
def State.ucodeCrew (s : State) (c : Nat) : State :=
  let s := s.loadRun ((s.ucodeLeft c).filter (fun u => !s.flag (R.USTAT_BUSY u) && !s.flag (R.USTAT_SUM_BUSY u)))
  match (s.ucodeLeft c).find? (fun u => s.flag (R.USTAT_BUSY u) && (s.seatOf c (u % 36)).isSome) with
  | some u => s.setSeq u { s.seq u with runOff := true }
  | none => s

/-- UCODE_LOAD_DONE (R275, R279, R355): of every Crew that is ON, the unretired Sculls that run no job are loaded, checked and run; of those that
run one, firmware clears RUN on one seated Scull, which takes effect at its job's end. Once every one has the new store the load completes. -/
def execUcodeLoadDone (s : State) : Host.Outcome State Fault Refusal :=
  .next (if s.ucodeBusy = false then s else
    let s := (List.range 4).foldl (fun s c => s.ucodeCrew c) s
    if ((List.range 4).flatMap s.ucodeLeft).isEmpty then s.settle .ucode St.ok (s.imageSum s.imageNow) else s)

end Sys2Proof.Machine
end

