-- ==== Sys2Proof/Machine/Dispatch.lean ====
section
/-!
DEFINITION. The meaning of every command: one arm per constructor, in the table's order.
-/
namespace Sys2Proof.Machine

/-- What a command does to everything but the queue. -/
def exec (i : Instr) (s : State) : Host.Outcome State Fault Refusal :=
  match i with
  | .timeInit w d => Sys2Proof.Machine.execTimeInit w d s
  | .timeStepGo w d => Sys2Proof.Machine.execTimeStepGo w d s
  | .timeRateLoad w d => Sys2Proof.Machine.execTimeRateLoad w d s
  | .clksrcWrite w d => Sys2Proof.Machine.execClksrcWrite w d s
  | .pllRelock => Sys2Proof.Machine.execPllRelock s
  | .timeinLost => Sys2Proof.Machine.execTimeinLost s
  | .ppsInCapture => Sys2Proof.Machine.execPpsInCapture s
  | .ppsOutRise => Sys2Proof.Machine.execPpsOutRise s
  | .ppsOutFall => Sys2Proof.Machine.execPpsOutFall s
  | .stroke g => Sys2Proof.Machine.execStroke g s
  | .strokeEnable w g d => Sys2Proof.Machine.execStrokeEnable w g d s
  | .strokeDisable w g d => Sys2Proof.Machine.execStrokeDisable w g d s
  | .timeNowRead w => Sys2Proof.Machine.execTimeNowRead w s
  | .ppsSecRead w => Sys2Proof.Machine.execPpsSecRead w s
  | .strokeIdxRead w g => Sys2Proof.Machine.execStrokeIdxRead w g s
  | .streamOpen c blk homes => Sys2Proof.Machine.execStreamOpen c blk homes s
  | .allocationEnd n => Sys2Proof.Machine.execAllocationEnd n s
  | .streamClose c => Sys2Proof.Machine.execStreamClose c s
  | .streamOff n => Sys2Proof.Machine.execStreamOff n s
  | .slotFree n pic band => Sys2Proof.Machine.execSlotFree n pic band s
  | .feedCut n pic band => Sys2Proof.Machine.execFeedCut n pic band s
  | .mediaFrameRx p f => Sys2Proof.Machine.execMediaFrameRx p f s
  | .queueWaitEnter c => Sys2Proof.Machine.execQueueWaitEnter c s
  | .jobTake u => Sys2Proof.Machine.execJobTake u s
  | .jobComplete u lc bytes concealed => Sys2Proof.Machine.execJobComplete u lc bytes concealed s
  | .pictureRecordStage n => Sys2Proof.Machine.execPictureRecordStage n s
  | .crewCeiling c => Sys2Proof.Machine.execCrewCeiling c s
  | .rowDeadline n pic row => Sys2Proof.Machine.execRowDeadline n pic row s
  | .seatWrite w c j d => Sys2Proof.Machine.execSeatWrite w c j d s
  | .crewOn c => Sys2Proof.Machine.execCrewOn c s
  | .crewOff c => Sys2Proof.Machine.execCrewOff c s
  | .admissionRerun homes => Sys2Proof.Machine.execAdmissionRerun homes s
  | .leaseRequest u ctxBins bypBins => Sys2Proof.Machine.execLeaseRequest u ctxBins bypBins s
  | .ctuCharge u x bits => Sys2Proof.Machine.execCtuCharge u x bits s
  | .rackSlotTake n => Sys2Proof.Machine.execRackSlotTake n s
  | .slotRetire x => Sys2Proof.Machine.execSlotRetire x s
  | .shelfRefill n slots => Sys2Proof.Machine.execShelfRefill n slots s
  | .decodeJobRelease n pic row reg => Sys2Proof.Machine.execDecodeJobRelease n pic row reg s
  | .decodeInputCut n pic row reg => Sys2Proof.Machine.execDecodeInputCut n pic row reg s
  | .bowAheadDecode n bytes wrote jobs => Sys2Proof.Machine.execBowAheadDecode n bytes wrote jobs s
  | .uCont u c => Sys2Proof.Machine.execUCont u c s
  | .uGoto u c => Sys2Proof.Machine.execUGoto u c s
  | .uCase u c => Sys2Proof.Machine.execUCase u c s
  | .uCall u c => Sys2Proof.Machine.execUCall u c s
  | .uRet u c => Sys2Proof.Machine.execURet u c s
  | .uLoop u c => Sys2Proof.Machine.execULoop u c s
  | .uCtu u c => Sys2Proof.Machine.execUCtu u c s
  | .uEndj u c => Sys2Proof.Machine.execUEndj u c s
  | .uAbort u c => Sys2Proof.Machine.execUAbort u c s
  | .uMret u c => Sys2Proof.Machine.execUMret u c s
  | .uIdle u c => Sys2Proof.Machine.execUIdle u c s
  | .trapEntry u => Sys2Proof.Machine.execTrapEntry u s
  | .ucWaitTo u => Sys2Proof.Machine.execUcWaitTo u s
  | .preemptArrive u => Sys2Proof.Machine.execPreemptArrive u s
  | .residueVerdict u real unit => Sys2Proof.Machine.execResidueVerdict u real unit s
  | .ucsCeWriteback u a => Sys2Proof.Machine.execUcsCeWriteback u a s
  | .ucsWordRepair u => Sys2Proof.Machine.execUcsWordRepair u s
  | .selfTestStart u => Sys2Proof.Machine.execSelfTestStart u s
  | .ucsAddrWrite w u d => Sys2Proof.Machine.execUcsAddrWrite w u d s
  | .ucsData4Write w u d => Sys2Proof.Machine.execUcsData4Write w u d s
  | .ucsData4Read w u => Sys2Proof.Machine.execUcsData4Read w u s
  | .runWrite w u d => Sys2Proof.Machine.execRunWrite w u d s
  | .tmodeWrite w u d => Sys2Proof.Machine.execTmodeWrite w u d s
  | .sumGo w u d => Sys2Proof.Machine.execSumGo w u d s
  | .sumDone u => Sys2Proof.Machine.execSumDone u s
  | .ustartGo w u d => Sys2Proof.Machine.execUstartGo w u d s
  | .clxRead r => Sys2Proof.Machine.execClxRead r s
  | .clxWrite r => Sys2Proof.Machine.execClxWrite r s
  | .clxBlockWrite r => Sys2Proof.Machine.execClxBlockWrite r s
  | .fwPush r => Sys2Proof.Machine.execFwPush r s
  | .fwVerifyDone => Sys2Proof.Machine.execFwVerifyDone s
  | .clxDoorbell r => Sys2Proof.Machine.execClxDoorbell r s
  | .clxWake r => Sys2Proof.Machine.execClxWake r s
  | .resetReq r => Sys2Proof.Machine.execResetReq r s
  | .clxPing r => Sys2Proof.Machine.execClxPing r s
  | .cpArpReply port target mac ip => Sys2Proof.Machine.execCpArpReply port target mac ip s
  | .pfcFrameRx port prio pause => Sys2Proof.Machine.execPfcFrameRx port prio pause s
  | .qpCtlWrite w q d => Sys2Proof.Machine.execQpCtlWrite w q d s
  | .qpAckTimeout q => Sys2Proof.Machine.execQpAckTimeout q s
  | .qpNak q code => Sys2Proof.Machine.execQpNak q code s
  | .rocePacketRx q k => Sys2Proof.Machine.execRocePacketRx q k s
  | .cnpReceive q => Sys2Proof.Machine.execCnpReceive q s
  | .dcqcnRateTimer q => Sys2Proof.Machine.execDcqcnRateTimer q s
  | .hwinCtlWrite w x d => Sys2Proof.Machine.execHwinCtlWrite w x d s
  | .ringCtlWrite w x d => Sys2Proof.Machine.execRingCtlWrite w x d s
  | .rdmaDoorbell q va rkey data => Sys2Proof.Machine.execRdmaDoorbell q va rkey data s
  | .commandFetch x => Sys2Proof.Machine.execCommandFetch x s
  | .commandFetchReturn x entries => Sys2Proof.Machine.execCommandFetchReturn x entries s
  | .ringWriteAck x n ok => Sys2Proof.Machine.execRingWriteAck x n ok s
  | .feedSetAdd c => Sys2Proof.Machine.execFeedSetAdd c s
  | .feedSetChange c => Sys2Proof.Machine.execFeedSetChange c s
  | .feedSetRemove c => Sys2Proof.Machine.execFeedSetRemove c s
  | .rateSet c => Sys2Proof.Machine.execRateSet c s
  | .keyReq c => Sys2Proof.Machine.execKeyReq c s
  | .seiInsert c pay => Sys2Proof.Machine.execSeiInsert c pay s
  | .prioSet c => Sys2Proof.Machine.execPrioSet c s
  | .hold c => Sys2Proof.Machine.execHold c s
  | .release c => Sys2Proof.Machine.execRelease c s
  | .subOpen c => Sys2Proof.Machine.execSubOpen c s
  | .subClose c => Sys2Proof.Machine.execSubClose c s
  | .subOff x => Sys2Proof.Machine.execSubOff x s
  | .svcSet c => Sys2Proof.Machine.execSvcSet c s
  | .hoistCopy c chan => Sys2Proof.Machine.execHoistCopy c chan s
  | .hoistFill c chan => Sys2Proof.Machine.execHoistFill c chan s
  | .timeStep c => Sys2Proof.Machine.execTimeStep c s
  | .timeStepInit c => Sys2Proof.Machine.execTimeStepInit c s
  | .strokeSet c => Sys2Proof.Machine.execStrokeSet c s
  | .strokeSetDisable c => Sys2Proof.Machine.execStrokeSetDisable c s
  | .ptpSet c => Sys2Proof.Machine.execPtpSet c s
  | .unitEnable c => Sys2Proof.Machine.execUnitEnable c s
  | .unitDisable c => Sys2Proof.Machine.execUnitDisable c s
  | .celLaneRepairSet c => Sys2Proof.Machine.execCelLaneRepairSet c s
  | .celRecalSet c => Sys2Proof.Machine.execCelRecalSet c s
  | .celRepairThresholdSet c => Sys2Proof.Machine.execCelRepairThresholdSet c s
  | .scrubRateSet c => Sys2Proof.Machine.execScrubRateSet c s
  | .scrubEnSet c => Sys2Proof.Machine.execScrubEnSet c s
  | .gateEntrySet c => Sys2Proof.Machine.execGateEntrySet c s
  | .gateListSet c => Sys2Proof.Machine.execGateListSet c s
  | .gateArmSet c => Sys2Proof.Machine.execGateArmSet c s
  | .gateCancel c => Sys2Proof.Machine.execGateCancel c s
  | .laneTapsSet c => Sys2Proof.Machine.execLaneTapsSet c s
  | .laneAdaptSet c => Sys2Proof.Machine.execLaneAdaptSet c s
  | .laneAdaptRestart c => Sys2Proof.Machine.execLaneAdaptRestart c s
  | .tallyWinSet c => Sys2Proof.Machine.execTallyWinSet c s
  | .tallyNsevSet c => Sys2Proof.Machine.execTallyNsevSet c s
  | .ucodeLoad c img => Sys2Proof.Machine.execUcodeLoad c img s
  | .ucodeLoadDone => Sys2Proof.Machine.execUcodeLoadDone s
  | .sleep c => Sys2Proof.Machine.execSleep c s
  | .laneEnableReq w l d => Sys2Proof.Machine.execLaneEnableReq w l d s
  | .laneDisableReq w l d => Sys2Proof.Machine.execLaneDisableReq w l d s
  | .laneOn l => Sys2Proof.Machine.execLaneOn l s
  | .laneOff l => Sys2Proof.Machine.execLaneOff l s
  | .qmodeWrite w l d => Sys2Proof.Machine.execQmodeWrite w l d s
  | .laneCfgWrite w l d => Sys2Proof.Machine.execLaneCfgWrite w l d s
  | .blModeWrite w l d => Sys2Proof.Machine.execBlModeWrite w l d s
  | .loopbackSet w l d => Sys2Proof.Machine.execLoopbackSet w l d s
  | .anDone l fec par => Sys2Proof.Machine.execAnDone l fec par s
  | .trainDone l pre main post => Sys2Proof.Machine.execTrainDone l pre main post s
  | .blockLock l slips => Sys2Proof.Machine.execBlockLock l slips s
  | .laneBlLoss l => Sys2Proof.Machine.execLaneBlLoss l s
  | .slip w l d => Sys2Proof.Machine.execSlip w l d s
  | .laneLos l => Sys2Proof.Machine.execLaneLos l s
  | .losDeassert l => Sys2Proof.Machine.execLosDeassert l s
  | .laneLol l => Sys2Proof.Machine.execLaneLol l s
  | .lolDeassert l => Sys2Proof.Machine.execLolDeassert l s
  | .fecUcw l corr uncorr => Sys2Proof.Machine.execFecUcw l corr uncorr s
  | .txDoze w l d => Sys2Proof.Machine.execTxDoze w l d s
  | .txWake w l d => Sys2Proof.Machine.execTxWake w l d s
  | .rxDoze w l d => Sys2Proof.Machine.execRxDoze w l d s
  | .rxWake w l d => Sys2Proof.Machine.execRxWake w l d s
  | .dozeTransitionDone l rx => Sys2Proof.Machine.execDozeTransitionDone l rx s
  | .txeqWrite w l d => Sys2Proof.Machine.execTxeqWrite w l d s
  | .adaptRestart w l d => Sys2Proof.Machine.execAdaptRestart w l d s
  | .adaptDone l ctle => Sys2Proof.Machine.execAdaptDone l ctle s
  | .prbsCtlWrite w l d => Sys2Proof.Machine.execPrbsCtlWrite w l d s
  | .prbsInj w l d => Sys2Proof.Machine.execPrbsInj w l d s
  | .prbsChkLock l => Sys2Proof.Machine.execPrbsChkLock l s
  | .portEnableReq w p d => Sys2Proof.Machine.execPortEnableReq w p d s
  | .portDisableReq w p d => Sys2Proof.Machine.execPortDisableReq w p d s
  | .portOn p => Sys2Proof.Machine.execPortOn p s
  | .portOff p => Sys2Proof.Machine.execPortOff p s
  | .binPtr p bin => Sys2Proof.Machine.execBinPtr p bin s
  | .ptpRxBinRead p => Sys2Proof.Machine.execPtpRxBinRead p s
  | .ptpTxBinWrite p data => Sys2Proof.Machine.execPtpTxBinWrite p data s
  | .tsbIdRead w p => Sys2Proof.Machine.execTsbIdRead w p s
  | .egressFrameStart p => Sys2Proof.Machine.execEgressFrameStart p s
  | .frameStale p => Sys2Proof.Machine.execFrameStale p s
  | .shaperRefill => Sys2Proof.Machine.execShaperRefill s
  | .gateEntry p => Sys2Proof.Machine.execGateEntry p s
  | .gateTakeover p => Sys2Proof.Machine.execGateTakeover p s
  | .gateArm w p d => Sys2Proof.Machine.execGateArm w p d s
  | .hoistChEnableReq w h c d => Sys2Proof.Machine.execHoistChEnableReq w h c d s
  | .hoistChDisableReq w h c d => Sys2Proof.Machine.execHoistChDisableReq w h c d s
  | .hoistChOn h c => Sys2Proof.Machine.execHoistChOn h c s
  | .hoistChOff h c => Sys2Proof.Machine.execHoistChOff h c s
  | .hoistGo w h c d => Sys2Proof.Machine.execHoistGo w h c d s
  | .hoistEntryFetch h c e => Sys2Proof.Machine.execHoistEntryFetch h c e s
  | .hoistBurstStart h req data => Sys2Proof.Machine.execHoistBurstStart h req data s
  | .hoistBurstDone h c => Sys2Proof.Machine.execHoistBurstDone h c s
  | .hoistBuserr h c cause addr => Sys2Proof.Machine.execHoistBuserr h c cause addr s
  | .hoistTargetTimeout h c addr => Sys2Proof.Machine.execHoistTargetTimeout h c addr s
  | .hoistPoison h c addr entry => Sys2Proof.Machine.execHoistPoison h c addr entry s
  | .hoistResume w h d => Sys2Proof.Machine.execHoistResume w h d s
  | .hoistFwResume h => Sys2Proof.Machine.execHoistFwResume h s
  | .cellarRequestIssue k p arr => Sys2Proof.Machine.execCellarRequestIssue k p arr s
  | .arrayReadReturn fam addr r => Sys2Proof.Machine.execArrayReadReturn fam addr r s
  | .cellarRefresh k => Sys2Proof.Machine.execCellarRefresh k s
  | .cellarTempReading k t => Sys2Proof.Machine.execCellarTempReading k t s
  | .cellarPowerDown k p => Sys2Proof.Machine.execCellarPowerDown k p s
  | .cellarPdWake k p => Sys2Proof.Machine.execCellarPdWake k p s
  | .rowCloseTimeout k p => Sys2Proof.Machine.execRowCloseTimeout k p s
  | .trnGo w k d => Sys2Proof.Machine.execTrnGo w k d s
  | .trnDone k errs => Sys2Proof.Machine.execTrnDone k errs s
  | .mrwGo w k d => Sys2Proof.Machine.execMrwGo w k d s
  | .repairWrite w k ca x d => Sys2Proof.Machine.execRepairWrite w k ca x d s
  | .trafficEnWrite w k d => Sys2Proof.Machine.execTrafficEnWrite w k d s
  | .celPll k => Sys2Proof.Machine.execCelPll k s
  | .scrubCtlWrite w d => Sys2Proof.Machine.execScrubCtlWrite w d s
  | .scrubRead => Sys2Proof.Machine.execScrubRead s
  | .walkerRead fam addr => Sys2Proof.Machine.execWalkerRead fam addr s
  | .flipArm w f d => Sys2Proof.Machine.execFlipArm w f d s
  | .flipClr w f d => Sys2Proof.Machine.execFlipClr w f d s
  | .chkInjArm w d => Sys2Proof.Machine.execChkInjArm w d s
  | .ldrDataWrite w c d => Sys2Proof.Machine.execLdrDataWrite w c d s
  | .ldrDataRead w c => Sys2Proof.Machine.execLdrDataRead w c s
  | .slideCrc link second real => Sys2Proof.Machine.execSlideCrc link second real s
  | .queuePar p real => Sys2Proof.Machine.execQueuePar p real s
  | .tallyMessage => Sys2Proof.Machine.execTallyMessage s
  | .tallyWindowStart c => Sys2Proof.Machine.execTallyWindowStart c s
  | .tallyAck w d => Sys2Proof.Machine.execTallyAck w d s
  | .tallySevClear w x d => Sys2Proof.Machine.execTallySevClear w x d s
  | .thermSecond => Sys2Proof.Machine.execThermSecond s
  | .evcClaim t => Sys2Proof.Machine.execEvcClaim t s
  | .evcClaimRead w t => Sys2Proof.Machine.execEvcClaimRead w t s
  | .evcDoneWrite w t d => Sys2Proof.Machine.execEvcDoneWrite w t d s
  | .evcTimer x => Sys2Proof.Machine.execEvcTimer x s
  | .evtInFilter x level => Sys2Proof.Machine.execEvtInFilter x level s
  | .evtInCfgWrite w x d => Sys2Proof.Machine.execEvtInCfgWrite w x d s
  | .holdOffExpiry g t => Sys2Proof.Machine.execHoldOffExpiry g t s
  | .evcPreemptWrite w d => Sys2Proof.Machine.execEvcPreemptWrite w d s
  | .evcPendClear w x d => Sys2Proof.Machine.execEvcPendClear w x d s
  | .evcTgtWrite w n d => Sys2Proof.Machine.execEvcTgtWrite w n d s
  | .pdEnableReq w n d => Sys2Proof.Machine.execPdEnableReq w n d s
  | .pdDisableReq w n d => Sys2Proof.Machine.execPdDisableReq w n d s
  | .pdOn n => Sys2Proof.Machine.execPdOn n s
  | .pdOff n => Sys2Proof.Machine.execPdOff n s
  | .poreset => Sys2Proof.Machine.execPoreset s
  | .resetN => Sys2Proof.Machine.execResetN s
  | .clxReset => Sys2Proof.Machine.execClxReset s
  | .ready => Sys2Proof.Machine.execReady s
  | .swapStart => Sys2Proof.Machine.execSwapStart s
  | .swapRevert => Sys2Proof.Machine.execSwapRevert s
  | .sleepCommit => Sys2Proof.Machine.execSleepCommit s
  | .mooredReached => Sys2Proof.Machine.execMooredReached s
  | .wakeNFall => Sys2Proof.Machine.execWakeNFall s
  | .ptpAlarm => Sys2Proof.Machine.execPtpAlarm s
  | .wakeReady => Sys2Proof.Machine.execWakeReady s
  | .thermalSample temps => Sys2Proof.Machine.execThermalSample temps s
  | .railSample mv => Sys2Proof.Machine.execRailSample mv s
  | .avsLoop counts => Sys2Proof.Machine.execAvsLoop counts s
  | .pmbAlert status => Sys2Proof.Machine.execPmbAlert status s
  | .handWrite w d => Sys2Proof.Machine.execHandWrite w d s
  | .mgmtRegisterWrite w a d => Sys2Proof.Machine.execMgmtRegisterWrite w a d s
  | .poresetNRelease straps => Sys2Proof.Machine.execPoresetNRelease straps s
  | .warmResetEnd => Sys2Proof.Machine.execWarmResetEnd s
  | .wakeNRelease => Sys2Proof.Machine.execWakeNRelease s
  | .swapResume => Sys2Proof.Machine.execSwapResume s
  | .recalibrationRound k => Sys2Proof.Machine.execRecalibrationRound k s
  | .tallySweepEnd => Sys2Proof.Machine.execTallySweepEnd s

end Sys2Proof.Machine
end

