-- ==== Sys2Proof/Machine/Step.lean ====
section
/-!
DEFINITION. One step: the command at the front of the queue, or one cycle of CK_TIME where the queue is empty.
-/
namespace Sys2Proof.Machine

/-- The step: the front command acts on the state with the queue's rest; with an empty queue device time advances by one cycle
of CK_TIME (R31), which the table has no row for. -/
def step (s : State) : Host.Outcome State Fault Refusal :=
  match s.pending with
  | [] => .next s.idleStep
  | c :: r => exec c { s with pending := r }

/-- `s` with the command that a word spells put at the front of its queue. -/
def State.withFetchWord (s : State) (nbits w : Nat) : State :=
  match Sys2Proof.decodeTableWord nbits w with
  | some c => { s with pending := c :: s.pending }
  | none => s

end Sys2Proof.Machine
end

