-- ==== Sys2Proof/Safety.lean ====
section
/-!
DEFINITION. What a safe run is, in the terms the statements use: every table of the state is in its one canonical form, so that equal
contents are equal data, device time is inside its range, and no step stops.
-/
namespace Sys2Proof.Machine

/-- The canonical form of the protected arrays' contents: keys strictly rising, and no entry listed for a granule that reads as
the power-up contents. -/
abbrev Memory.wf (m : Tab (Option (List (Nat × Nat)))) : Bool := tabWf (fun _ => none) m

/-- The canonical form of the register file: addresses strictly rising, and no entry that holds its register's reset value. -/
abbrev Registers.wf (r : Tab Word) : Bool := tabWf regReset r

/-- The state is canonical: device time is inside its range of 2^64 seconds (R30), and the register file, the protected arrays and
every other table are in their one form. -/
def State.wf (s : State) : Prop :=
  s.now < timeWrap ∧ Registers.wf s.regs = true ∧ tabWf (fun _ => {}) s.gens = true ∧ tabWf (fun _ => {}) s.tsrc = true ∧
    tabWf twinDflt s.twin = true ∧ tabWf (fun _ => {}) s.gath = true ∧ tabWf (fun _ => {}) s.claimed = true ∧
    tabWf (fun _ => none) s.tgtDef = true ∧ tabWf (fun _ => none) s.holdOff = true ∧ tabWf (fun _ => {}) s.pins = true ∧
    tabWf (fun _ => none) s.preempt = true ∧ tabWf (fun _ => {}) s.rings = true ∧ tabWf (fun _ => {}) s.streams = true ∧
    tabWf (fun _ => {}) s.feeds = true ∧ tabWf (fun _ => {}) s.crews = true ∧ tabWf (fun _ => none) s.runs = true ∧
    tabWf (fun _ => []) s.ended = true ∧ tabWf (fun _ => {}) s.seqs = true ∧ tabWf (fun _ => []) s.scache = true ∧ tabWf (fun _ => none) s.slotPic = true ∧
    tabWf (fun _ => 0) s.slotSz = true ∧ tabWf (fun _ => 0) s.slotNref = true ∧ tabWf (fun _ => {}) s.slotC = true ∧
    tabWf (fun _ => []) s.egr = true ∧ tabWf (fun _ => 0) s.txFree = true ∧ tabWf (fun _ => none) s.rtpSeq = true ∧ tabWf (fun _ => none) s.subs = true ∧
    tabWf (fun _ => {}) s.shapers = true ∧ tabWf (fun _ => {}) s.gates = true ∧ tabWf (fun _ => []) s.ptpRx = true ∧
    tabWf (fun _ => []) s.tsb = true ∧ Memory.wf s.mem = true ∧ tabWf (fun _ => 0) s.celCe = true ∧
    tabWf (fun _ => (64, 64)) s.celDly = true ∧ tabWf (fun _ => 32) s.celVref = true ∧ tabWf (fun _ => {}) s.pcs = true ∧
    tabWf (fun _ => {}) s.stackTab = true ∧ tabWf (fun _ => none) s.ldrCol = true ∧ tabWf (fun _ => none) s.blFrom = true ∧
    tabWf (fun _ => {}) s.qps = true ∧ tabWf (fun _ => {}) s.hchs = true ∧ tabWf (fun _ => 0) s.hgrant = true ∧
    tabWf (fun _ => 0) s.ptpPos = true ∧ tabWf (fun _ => {}) s.cps = true ∧ tabWf (fun _ => 0) s.rails = true

/-- A step goes on: it answers a next state. -/
def State.goesOn (s : State) : Prop := ∃ t, step s = .next t

/-- The command answers a next state, of which `P` holds. -/
def Answers (c : Instr) (s : State) (P : State → Prop) : Prop := ∃ t, exec c s = .next t ∧ P t

/-- Every management register outside `l` holds in `t` what it holds in `s`. -/
def State.regsBut (s t : State) (l : List Nat) : Prop := ∀ a, a ∉ l → t.reg a = s.reg a

/-- The state changed in the register file at most, and in what is noted of the W1C bits set in this cycle. -/
def State.onlyRegs (s t : State) : Prop := t = { s with regs := t.regs, hot := t.hot }

/-- The state changed in the register file and in the Tally messages held at most. -/
def State.onlyReports (s t : State) : Prop := t = { s with regs := t.regs, hot := t.hot, held := t.held, heldWait := t.heldWait }

/-- The state changed as a step or an initialisation of device time changes it at most (R48, R49, R555): device time, its cycle and what
belongs to the cycle, the generators that re-arm, the windows that end, the ends of the frames on the wire, the registers and the Tally messages
held. -/
def State.onlyTime (s t : State) : Prop :=
  t = { s with regs := t.regs, hot := t.hot, now := t.now, prev := t.now, cyc := s.cyc + 1, fired := t.fired, freed := t.freed,
               turns := t.turns, gens := t.gens, twin := t.twin, tsrc := t.tsrc, held := t.held, heldWait := t.heldWait,
               rate := t.rate, relock := t.relock, ppsHigh := t.ppsHigh, rings := t.rings, fetched := t.fetched, turn := t.turn, txFree := t.txFree }

/-- The state changed in the register file, the rings, the commands fetched and owed, the Tally messages held and what left the part at
most. -/
def State.onlyRings (s t : State) : Prop :=
  t = { s with regs := t.regs, hot := t.hot, rings := t.rings, fetched := t.fetched, turn := t.turn, owed := t.owed, held := t.held,
               heldWait := t.heldWait, outbox := t.outbox }

/-- The register at `a` takes the write `d` field by field (R8, R10). -/
def State.takes (s t : State) (a : Nat) (d : Word) : Prop :=
  ∀ r x, regInfo a = some (r, x) → t.reg a = r.fields.foldl (fun w f => fieldWrite w (s.cool a d) f) (s.reg a)

/-- A ring command begins its effect (R309, R318, R319): its opcode is `opc`, its turn has come, the unit of kind `kind` that it names
exists, its epoch is the unit's, and the function `fn` it serves is not at the expert level. -/
def State.accepts (s : State) (c : Cmd) (opc kind : Nat) (fn : Option Nat) : Prop :=
  dOpc c.desc = opc ∧ s.mayBegin c = true ∧ dKind c.desc = kind ∧ s.unitExists kind (dIdx c.desc) = true ∧
  (kind = 0 ∨ dEpoch c.desc = s.unitEpoch kind (dIdx c.desc)) ∧ ∀ b, fn = some b → s.get ⟨A.DEV_HAND, b, 1⟩ = 0

/-- The completion ring of a command's ring (R309). -/
def State.complRing (s : State) (c : Cmd) : Nat := 0x20 + s.get (R.RINGi_CTL_CQ c.ring)

/-- The command completes with status `st` and DATA `v` (R331, R357): where its completion ring is enabled and not stopped, the entry is
the last that the ring has written. -/
def State.completes (s t : State) (c : Cmd) (st v : Nat) : Prop :=
  s.ringLive (s.complRing c) = true → ∃ e, (t.ring (s.complRing c)).unack =
    (s.ring (s.complRing c)).unack ++ [.compl (dTag c.desc) st (dOpc c.desc) c.ring e v]

/-- The Tally is told (R546, R549, R551): where source `src` holds no message, a message of that source and kind, at the kind's base level,
is held. -/
def State.tells (s t : State) (src kind : Nat) : Prop :=
  s.held.all (fun m => m.src != src) = true → ∃ m, m ∈ t.held ∧ m.src = src ∧ m.kind = kind ∧ m.lvl = baseLevel kind

/-- What a request makes of a unit's record (R590, R592, R317): the table of STATE and PEND, and EPOCH one higher wherever the table changes
them. -/
def State.asked (s t : State) (kind i : Nat) (enable : Bool) : Prop :=
  let u := urec kind i
  let st := s.get u.state
  let pd := s.get u.pend
  (enable = true → (st = 0 → t.get u.state = 1 ∧ t.get u.pend = pd) ∧ (st = 1 → pd = 2 → t.get u.state = 1 ∧ t.get u.pend = 0) ∧
    (st = 1 → pd ≠ 2 → t.get u.state = 1 ∧ t.get u.pend = pd) ∧ (st = 2 → t.get u.state = 2 ∧ t.get u.pend = pd) ∧
    (st = 3 → t.get u.state = 3 ∧ t.get u.pend = 1)) ∧
  (enable = false → (st = 0 → t.get u.state = 0 ∧ t.get u.pend = pd) ∧ (st = 1 → t.get u.state = 1 ∧ t.get u.pend = 2) ∧
    (st = 2 → t.get u.state = 3 ∧ t.get u.pend = pd) ∧ (st = 3 → pd = 1 → t.get u.state = 3 ∧ t.get u.pend = 0) ∧
    (st = 3 → pd ≠ 1 → t.get u.state = 3 ∧ t.get u.pend = pd)) ∧
  ∀ f, u.epoch = some f →
    t.get f = if reqRes st pd enable = .already ∨ reqRes st pd enable = .moving then s.get f else (s.get f + 1) % 2 ^ 32

/-- A ring stops (R311): STALL is set, and what it had in flight is lost. -/
def State.stalls (s t : State) (i : Nat) : Prop :=
  t.get (R.RINGi_CTL_STALL i) = 1 ∧ t.ring i = { s.ring i with unack := [], asked := 0 } ∧ (∀ j, j ≠ i → t.ring j = s.ring j) ∧
  t = { s with regs := t.regs, hot := t.hot, rings := t.rings, held := t.held, heldWait := t.heldWait } ∧
  s.regsBut t [A.RINGi_CTL i, A.TALLY_MERGED]

/-- The sequencer of Scull `u` executes word `w` to its end (R253, R259, R271, R273): it runs, no trap is raised, the word is fetched
without an error, is legal, and its condition and units are ready. -/
def State.executes (s : State) (u w : Nat) (c : UCond) : Prop :=
  (s.seq u).on = true ∧ (s.seq u).raised = 0 ∧ s.uFetch u (s.seq u).upc = (s, { word := w }) ∧
  uIllegal w (s.flag (R.UCTL_TMODE u)) (s.seq u).stack.length (s.inTrap u) (s.seq u).hold = false ∧
  (uWait w = 0 ∨ natBit (s.uConds u w c.conds) (uWait w) = true) ∧ (s.seq u).refused w c = [] ∧
  (uBowOp w = 3 → s.codeFits u c = true)

/-- What word `w` of Scull `u` changes at most where it moves neither a job nor a trap on: its sequencer, its status and the count of free
values drawn; a SRCH LOAD its job's windows and the search cache (R97), a READBACK what its job has read back (R98), a CTU_END the job's CTUs
handed over and the context it leaves (R100, R101), a REC WRITE the contents of the Rack slot (R199). -/
def State.onlySequencer (s t : State) (u w : Nat) : Prop :=
  t = { s with regs := t.regs, hot := t.hot, freeCtr := t.freeCtr, seqs := t.seqs, runs := t.runs, progs := t.progs,
               scache := t.scache, slotC := t.slotC } ∧
  (∀ v, v ≠ u → t.seq v = s.seq v ∧ t.run v = s.run v) ∧ s.regsBut t [A.USTAT u] ∧
  (uf w 67 3 ≠ 1 → t.scache = s.scache) ∧ (uf w 113 3 ≠ 5 → t.slotC = s.slotC) ∧ (uBowOp w ≠ 3 → t.progs = s.progs) ∧
  (uf w 67 3 ≠ 1 → uf w 113 3 ≠ 6 → uBowOp w ≠ 3 → t.runs = s.runs)

/-- The response to a request (R288, R289, R295): its opcode with bit 7 set, its sequence and path, a status, and what follows it. -/
def clxResp (r : ClxReq) (st : Nat) (l : List Byte) : Resp :=
  { opc := Nat.lor r.opc.toNat 128, seq := r.seq.toNat, path := r.path, payload := beBytes 4 st ++ l }

/-- A Clexia request is accepted: its sequence is the port's last (R290). -/
def State.clxTaken (s : State) (r : ClxReq) : State := (s.set (seqRF r.port) r.seq.toNat).set (initRF r.port) 1

/-- A port answers: the response is stored and leaves, tagged unless the part is open, and `t` is otherwise `s1` (R288-R291). -/
def State.clxAnswers (s1 t : State) (p : Nat) (x : Resp) : Prop :=
  (t.cp p).resp = some x ∧ (∀ v, v ≠ p → t.cp v = s1.cp v) ∧
  t = { s1 with cps := t.cps, outbox := s1.outbox ++ [.clexia p x.path x.opc x.seq x.payload
    (if s1.clxOpen then 0 else clexiaTag (clxHead 1 x.opc x.payload.length x.seq ++ x.payload))] }

end Sys2Proof.Machine
end

