-- ==== Sys2Proof/Certificates/Slice0/Obligations.lean ====
section
/-!
DEFINITION. The statements for the provers, one proposition each: what every command does and leaves alone, and what holds of every
state and step. Each docstring names the rules of the specification it rests on.
-/
open Sys2Proof Sys2Proof.Machine

/-- O1. A step takes the command at the front of the queue and runs it on the state with the queue's rest; on an empty queue one cycle of
CK_TIME passes, which moves device time by 2 ns times 1 + RATE * 2^-48 (R31). That the empty queue passes a cycle is the model's choice,
log entry 1. -/
def Obligations.StepRunsFront : Prop :=
  ∀ s : State, (∀ c r, s.pending = c :: r → step s = exec c { s with pending := r }) ∧
    (s.pending = [] → ∃ t, step s = .next t ∧ t.now = (s.now + (2 * (2 ^ 48 + s.rate.toInt)).toNat) % timeWrap ∧ t.prev = s.now ∧
      t.cyc = s.cyc + 1 ∧ t.fired = [] ∧ t.hot = [] ∧ t.freed = [] ∧ t.turns = [] ∧ t.waitDue = [] ∧
      (s.waitDue = [] → t = { s with prev := t.prev, now := t.now, cyc := t.cyc, fired := [], hot := [], freed := [], turns := [] }))

/-- O2. Every command answers a next state, and leaves the queue of commands and the part as they are. -/
def Obligations.CommandsKeepQueue : Prop :=
  ∀ (c : Instr) (s : State), Answers c s (fun t => t.pending = s.pending ∧ t.part = s.part)

/-- O3. The invariant of the machine: from a canonical state (device time in its range, every register and array cell and table entry listed
once, in order, and only where it differs from what an unlisted one holds) every step goes on to a canonical state. -/
def Obligations.StepKeepsCanonical : Prop :=
  ∀ s : State, s.wf → s.goesOn ∧ ∀ t, step s = .next t → t.wf

/-- O4. The state after reset is canonical. -/
def Obligations.ResetCanonical : Prop :=
 State.reset.wf

/-- O5. What reset leaves (R11, R35, R500, R509, R518, R545, R568, R609-R614): device time 0, no array cell listed, and of each register block
values that the spec states. -/
def Obligations.ResetValues : Prop :=
  State.reset.now = 0 ∧ State.reset.mem = [] ∧ State.reset.pending = [] ∧ State.reset.get R.MON_AVS_STAT_MV = 750 ∧
  State.reset.get R.DEV_HEALTH_DSTATE = 0 ∧ State.reset.get R.SCRUB_RATE_KBPS = 895 ∧ State.reset.get R.CHK_INJ_CTL_COUNT = 1 ∧
  State.reset.get (R.TALLY_WINc_SECONDS 7) = 3600 ∧ State.reset.get (R.EGRp_CLS_STALE_US 63) = 2000 ∧
  State.reset.get (R.EGRp_GSTAT_GATES 0) = 255 ∧ State.reset.get (R.CEL_CTL_RECAL_EN 1) = 1 ∧ State.reset.get (R.CEL_CTL_TRAFFIC_EN 0) = 0 ∧
  State.reset.get (R.LANEl_STAT_LOS 65) = 1 ∧ State.reset.get (R.LANEl_STAT_BLOCK_LOCK 0) = 0 ∧ State.reset.get (R.LANEl_TXEQ_MAIN 0) = 32 ∧
  State.reset.get (R.STRMn_STATE_STATE 127) = 0 ∧ State.reset.get (R.MON_RAILr_CFG_WARN 11) = 6

/-- O6. A descriptor is checked in the order of R318 (R4, R309, R318, R319): a row whose opcode another row has is not the command; an unlisted
opcode, a nonzero reserved byte and a KIND that the command does not take complete RSVD_NONZERO; then a missing unit NO_UNIT, another
epoch STALE_EPOCH, and a function at the expert level LEVEL_EXPERT. Nothing but the completion follows. -/
def Obligations.DescriptorChecks : Prop :=
  ∀ (s : State) (c : Cmd),
    let ends : Instr → Nat → Prop := fun i st => Answers i s (fun t => s.completes t c st 0 ∧ s.onlyRings t)
    (dOpc c.desc ≠ 0x40 → opcListed (dOpc c.desc) = true → Answers (.unitEnable c) s (fun t => t = s)) ∧
    (s.mayBegin c = false → Answers (.unitEnable c) s (fun t => t = s)) ∧
    (s.mayBegin c = true →
      (opcListed (dOpc c.desc) = false → ends (.unitEnable c) St.rsvdNonzero ∧ ends (.sleep c) St.rsvdNonzero) ∧
      (dOpc c.desc = 0x40 →
        (dSub c.desc ≠ 0 ∨ dClean c.desc [] = false ∨ dKind c.desc ∉ [3, 4, 5] → ends (.unitEnable c) St.rsvdNonzero) ∧
        (dSub c.desc = 0 → dClean c.desc [] = true → dKind c.desc ∈ [3, 4, 5] →
          (s.unitExists (dKind c.desc) (dIdx c.desc) = false ∨ s.unitThere c.desc = false → ends (.unitEnable c) St.noUnit) ∧
          (s.unitExists (dKind c.desc) (dIdx c.desc) = true → s.unitThere c.desc = true →
            dEpoch c.desc ≠ s.unitEpoch (dKind c.desc) (dIdx c.desc) → ends (.unitEnable c) St.staleEpoch))) ∧
      (∀ img, dOpc c.desc = 0x60 → dSub c.desc = 0 → dClean c.desc [(16, 0, 64), (24, 0, 32)] = true → dKind c.desc = 0 →
        s.unitExists 0 (dIdx c.desc) = true → s.get R.DEV_HAND_UCODE = 1 → ends (.ucodeLoad c img) St.levelExpert))

/-- O7. A management write (R8, R10, R25, R618, R620): one that its gate refuses is ignored and reported; a register of no behaviour of its own
takes the word field by field; a bit of DEV_HAND changes only while its function is idle. -/
def Obligations.ManagementWrites : Prop :=
  ∀ (s : State) (w : Who) (d : Word),
    (∀ a : BitVec 32, s.gate w a.toNat d = false → Answers (.mgmtRegisterWrite w a d) s (fun t => s.tells t 0x7E0 0x80 ∧ s.onlyReports t ∧
      s.regsBut t [A.TALLY_MERGED])) ∧
    (∀ (a : Nat) (p : Fin 64) (c : Fin 8) (r : Fin 12), a ∈ [A.TALLY_CTL, A.TALLY_NSEVc c, A.TALLY_WINc c, A.MON_RAILr_CFG r, A.EGRp_RATE p,
        A.EGRp_CLS p, A.PORTp_CFG p, A.RACK_CTL, A.LANEl_STAT p, A.CHK_INJ_SEL] → s.gate w a d = true →
      Answers (.mgmtRegisterWrite w (BitVec.ofNat 32 a) d) s (fun t => s.takes t a d ∧ s.onlyRegs t ∧ s.regsBut t [a])) ∧
    (s.gate w A.DEV_HAND d = true → Answers (.handWrite w d) s (fun t =>
      (∀ b, b < 11 → (s.funcIdle b = true → t.get ⟨A.DEV_HAND, b, 1⟩ = wordGet d b 1) ∧
        (s.funcIdle b = false → t.get ⟨A.DEV_HAND, b, 1⟩ = s.get ⟨A.DEV_HAND, b, 1⟩ ∧
          (wordGet d b 1 ≠ s.get ⟨A.DEV_HAND, b, 1⟩ → s.tells t 0x7E0 0x80))) ∧
      (s.get R.DEV_HAND_LANE_EQ = 1 → t.get R.DEV_HAND_LANE_EQ = 0 → ∀ l, l < 66 → l ∈ t.laneSet) ∧
      t = { s with regs := t.regs, held := t.held, heldWait := t.heldWait, laneSet := t.laneSet } ∧
      s.regsBut t [A.DEV_HAND, A.TALLY_MERGED])) ∧
    (s.gate w A.DEV_HAND d = false → Answers (.handWrite w d) s (fun t => s.tells t 0x7E0 0x80 ∧ s.onlyReports t ∧
      s.regsBut t [A.TALLY_MERGED]))

/-- O8. A write of a register has one effect (R617, R620): a management write at the address of a register with a row of its own is that row's
command. -/
def Obligations.OneEffectOfAWrite : Prop :=
  ∀ (s : State) (w : Who) (d : Word),
    let at_ : Nat → Instr := fun a => .mgmtRegisterWrite w (BitVec.ofNat 32 a) d
    (∀ l : Fin 66, exec (at_ (A.LANEl_CFG l)) s = exec (.laneCfgWrite w l d) s ∧ exec (at_ (A.LANEl_TXEQ l)) s = exec (.txeqWrite w l d) s ∧
      exec (at_ (A.LANEl_PRBS_CTL l)) s = exec (.prbsCtlWrite w l d) s ∧
      (wordGet d 4 2 = 1 → exec (at_ (A.LANEl_STATE l)) s = exec (.laneEnableReq w l d) s)) ∧
    (∀ p : Fin 64, exec (at_ (A.QPq_CTL p)) s = exec (.qpCtlWrite w p d) s ∧ exec (at_ (A.HWINw_CTL p)) s = exec (.hwinCtlWrite w p d) s ∧
      exec (at_ (A.EGRp_GCTL p)) s = exec (.gateArm w p d) s ∧
      (wordGet d 4 2 = 1 → exec (at_ (A.PORTp_STATE p)) s = exec (.portEnableReq w p d) s)) ∧
    (∀ n : Fin 72, wordGet d 4 2 = 1 → exec (at_ (A.CLKPWR_PDn n)) s = exec (.pdEnableReq w n d) s) ∧
    (∀ k : Fin 2, exec (at_ (A.CEL_CTL k)) s = exec (.trafficEnWrite w k d) s ∧
      (wordGet d 0 1 = 1 → exec (at_ (A.CEL_TRN_CTL k)) s = exec (.trnGo w k d) s)) ∧
    exec (at_ A.TALLY_UNACK) s = exec (.tallyAck w d) s ∧ exec (at_ A.SCRUB_CTL) s = exec (.scrubCtlWrite w d) s ∧
    exec (at_ A.CHK_INJ_CTL) s = exec (.chkInjArm w d) s ∧ exec (at_ A.DEV_HAND) s = exec (.handWrite w d) s

/-- O9. R515. A PHY PLL that loses lock while TRAFFIC_EN is 1 stops all traffic of its stack, and the Tally receives CEL_PLL of class MEM at
level Fatal, from the stack's controller where that source holds no message. -/
def Obligations.PllLossStopsTraffic : Prop :=
  ∀ (s : State) (k : Fin 2), s.get (R.CEL_CTL_TRAFFIC_EN k) = 1 → s.get (R.CEL_STAT_PLL_LOCK k) = 1 →
    Answers (.celPll k) s (fun t => t.stackServes k = false ∧
      (s.held.all (fun m => m.src != 0x140 + k.val) = true →
        ∃ m ∈ t.held, m.src = 0x140 + k.val ∧ m.kind / 16 = 0 ∧ m.kind % 16 = 0xA ∧ m.lvl = 4) ∧ s.onlyReports t)

/-- O10. R601. Where the new image has not resumed fetching within 20 ms of the swap start, the next Stroke of the swap's generator (the next
cycle, where the swap had none) restarts the old bank: ACT_BANK stands, the new bank is marked invalid and REVERTED set; no stream is
closed and no picture removed. -/
def Obligations.SwapReverts : Prop :=
  ∀ (s : State) (x : SwapS), s.swap = some x → x.running = true → x.start + 10000000 < s.cyc → x.bank < 2 → s.strokeNow x.gen = true →
    Answers .swapRevert s (fun t => t.swap = none ∧ t.get R.HOST_STAT_ACT_BANK = s.get R.HOST_STAT_ACT_BANK ∧
      t.get ⟨A.HOST_STAT, 4 + x.bank, 1⟩ = 0 ∧ t.get R.CLKPWR_SWAP_REVERTED = 1 ∧
      (∀ n, t.get (R.STRMn_STATE_STATE n) = s.get (R.STRMn_STATE_STATE n)) ∧ t.streams = s.streams ∧ t.slotPic = s.slotPic ∧
      t = { s with regs := t.regs, hot := t.hot, swap := t.swap } ∧ s.regsBut t [A.HOST_STAT, A.CLKPWR_SWAP])

/-- O11. R38. A write of TIME_RATE_H loads the 40-bit RATE from it and TIME_RATE_L, at any time; device time does not jump, and the next cycle of
CK_TIME moves it at the new rate. Firmware's own load while a stream is live keeps the bound of R39 (log entry 127). -/
def Obligations.RateLoads : Prop :=
  ∀ (s : State) (w : Who) (d : Word), s.gate w A.TIME_RATE_H d = true →
    let r : BitVec 40 := BitVec.ofNat 40 (wordGet d 0 8 * 2 ^ 32 + s.get R.TIME_RATE_L_RATE_L)
    isHost w = true ∨ s.streamsLive = false ∨ rateBound r = true → Answers (.timeRateLoad w d) s (fun t => t.rate = r ∧ t.now = s.now ∧
      t = { s with regs := t.regs, rate := t.rate } ∧ s.regsBut t [A.TIME_RATE_H] ∧
      ∃ u, step { t with pending := [] } = .next u ∧ u.now = (s.now + (2 * (2 ^ 48 + r.toInt)).toNat) % timeWrap)

/-- O12. R442. Every frame of a port that has not started by its eligibility instant plus STALE_US is discarded and counted in EGRp_STALE,
whatever gate, shaper or other path holds it or its copy; every other frame waits on. -/
def Obligations.StaleFrames : Prop :=
  ∀ (s : State) (p : Fin 64),
    let late : Frame → Bool := fun f => s.reached (f.elig.addNs (s.get (R.EGRp_CLS_STALE_US p) * 1000))
    Answers (.frameStale p) s (fun t => (∀ f, f ∈ t.frames p ↔ f ∈ s.frames p ∧ late f = false) ∧
      t.get (R.EGRp_STALE_COUNT p) = min (s.get (R.EGRp_STALE_COUNT p) + ((s.frames p).filter late).length) (2 ^ 32 - 1) ∧
      (∀ q, q ≠ p.val → t.frames q = s.frames q) ∧
      t = { s with regs := t.regs, rings := t.rings, streams := t.streams, freed := t.freed, progs := t.progs, egr := t.egr })

/-- O13. R1. DEV_ID reads 0x0B32_0051 on OB3200-HA and 0x0B64_0051 on OB6400-FA. -/
def Obligations.PartIdentity : Prop :=
  ∀ (s : State) (w : Who), (s.part = .ha → s.mgmtRead w A.DEV_ID = (s, 0x0B320051)) ∧ (s.part = .fa → s.mgmtRead w A.DEV_ID = (s, 0x0B640051))

/-- O14. The Time Unit (R31, R35-R38): an initialisation sets device time and RATE to zero; a step adds the signed offset and uses up STEP_AVAIL;
a step or an initialisation while a stream is live, and a second step, leave device time as it is and set their flag; RATE loads without
a change of device time, but a command of firmware's own beyond the bound of R39 while a stream is live (log entry 127) changes nothing.
TIME_STEP_GO with GO 0 and TIME_INIT with INIT 0 are no such requests and change nothing. The clock of device time and its pulses
(R40-R43): a relock completes with the new reference; a changed CLKSRC starts one and device time goes on; the loss of TIME_IN is
recorded and, with FALLBACK, the PLL relocks to REFCLK_SYS; an edge of PPS_IN captures the time and asserts its event sources, 8 and
firmware's copy 40; PPS_OUT rises at a whole second and falls WIDTH microseconds later. -/
def Obligations.DeviceTime : Prop :=
  (∀ (s : State) (w : Who) (d : Word),
    (s.gate w A.TIME_CTL d = true → wordGet d 0 1 = 1 → s.streamsLive = false →
      Answers (.timeInit w d) s (fun t => t.now = 0 ∧ t.rate = 0 ∧ t.get R.TIME_STAT_STEP_AVAIL = 1 ∧ s.onlyTime t ∧
        t.rings = s.rings ∧ t.fetched = s.fetched ∧ t.turn = s.turn)) ∧
    (s.gate w A.TIME_CTL d = true → wordGet d 0 1 = 1 → s.streamsLive = true →
      Answers (.timeInit w d) s (fun t => t.get R.TIME_STAT_STEP_LIVE = 1 ∧ s.onlyRegs t ∧ s.regsBut t [A.TIME_STAT])) ∧
    (wordGet d 0 1 = 0 → Answers (.timeInit w d) s (fun t => t = s)) ∧
    (s.gate w A.TIME_STEP_NS d = true → wordGet d 31 1 = 1 → s.streamsLive = false → s.get R.TIME_STAT_STEP_AVAIL = 1 →
      Answers (.timeStepGo w d) s (fun t => t.get R.TIME_STAT_STEP_AVAIL = 0 ∧
        (t.now : Int) = (s.now + s.stepOffset (wordGet d 0 30) * 2 ^ 48) % (timeWrap : Int) ∧ s.onlyTime t ∧
        t.rings = s.rings ∧ t.fetched = s.fetched ∧ t.turn = s.turn ∧ t.rate = s.rate ∧ t.relock = s.relock ∧ t.ppsHigh = s.ppsHigh)) ∧
    (s.gate w A.TIME_STEP_NS d = true → wordGet d 31 1 = 1 → s.streamsLive = false → s.get R.TIME_STAT_STEP_AVAIL = 0 →
      Answers (.timeStepGo w d) s (fun t => t.get R.TIME_STAT_STEP_SPENT = 1 ∧ t.now = s.now ∧ t.rate = s.rate ∧ s.onlyReports t ∧
        s.regsBut t [A.TIME_STAT, A.TALLY_MERGED])) ∧
    (s.gate w A.TIME_STEP_NS d = true → wordGet d 31 1 = 1 → s.streamsLive = true →
      Answers (.timeStepGo w d) s (fun t => t.get R.TIME_STAT_STEP_LIVE = 1 ∧ s.onlyRegs t ∧ s.regsBut t [A.TIME_STAT])) ∧
    (s.gate w A.TIME_RATE_H d = true →
      isHost w = true ∨ s.streamsLive = false ∨
        rateBound (BitVec.ofNat 40 (wordGet d 0 8 * 2 ^ 32 + s.get R.TIME_RATE_L_RATE_L)) = true → 
      Answers (.timeRateLoad w d) s (fun t => t.rate = BitVec.ofNat 40 (wordGet d 0 8 * 2 ^ 32 + s.get R.TIME_RATE_L_RATE_L) ∧
        t = { s with regs := t.regs, rate := t.rate } ∧ s.regsBut t [A.TIME_RATE_H])) ∧
    (isHost w = false → s.streamsLive = true →
      rateBound (BitVec.ofNat 40 (wordGet d 0 8 * 2 ^ 32 + s.get R.TIME_RATE_L_RATE_L)) = false → Answers (.timeRateLoad w d) s (fun t => t = s))) ∧
  (∀ (s : State) (w : Who) (d : Word),
    (∀ r, r < 2 → s.relock = some r →
      Answers .pllRelock s (fun t => t.relock = none ∧ t.get R.TIME_STAT_CLKSRC_ACT = r ∧
        t = { s with regs := t.regs, relock := none } ∧ s.regsBut t [A.TIME_STAT])) ∧
    (s.relock = none → Answers .pllRelock s (fun t => t = s)) ∧
    (s.gate w A.TIME_CTL d = true → wordGet d 0 1 = 0 → wordGet d 1 1 ≠ s.get R.TIME_CTL_CLKSRC →
      Answers (.clksrcWrite w d) s (fun t => t.relock = some (wordGet d 1 1) ∧ t.now = s.now ∧ t.rate = s.rate ∧
        t.get R.TIME_STAT_CLKSRC_ACT = s.get R.TIME_STAT_CLKSRC_ACT ∧
        t = { s with regs := t.regs, relock := t.relock, ppsHigh := if wordGet d 3 1 = 0 then none else s.ppsHigh } ∧
        s.regsBut t [A.TIME_CTL])) ∧
    (s.get R.TIME_STAT_CLKSRC_ACT = 1 →
      Answers .timeinLost s (fun t => t.get R.TIME_STAT_TIMEIN_LOST = 1 ∧ t.get R.TIME_STAT_CLKSRC_ACT = 0 ∧ t.now = s.now ∧
        t.relock = (if s.get R.TIME_CTL_FALLBACK = 1 ∨ s.relock = some 0 then some 0 else none) ∧
        t = { s with regs := t.regs, hot := t.hot, held := t.held, heldWait := t.heldWait, relock := t.relock } ∧
        s.regsBut t [A.TIME_STAT, A.TALLY_MERGED])) ∧
    (s.get R.TIME_STAT_CLKSRC_ACT = 0 → s.relock ≠ some 1 → s.get R.TIME_CTL_CLKSRC = 1 →
      Answers .timeinLost s (fun t => t.get R.TIME_STAT_TIMEIN_LOST = 1 ∧ t.get R.TIME_STAT_CLKSRC_ACT = 0 ∧ t.relock = s.relock ∧
        t.now = s.now ∧ s.onlyReports t ∧ s.regsBut t [A.TIME_STAT, A.TALLY_MERGED])) ∧
    (s.get R.TIME_STAT_CLKSRC_ACT = 0 → s.relock ≠ some 1 → s.get R.TIME_CTL_CLKSRC = 0 → Answers .timeinLost s (fun t => t = s)) ∧
    Answers .ppsInCapture s (fun t => t.get R.TIME_PPS_SEC_SEC = s.sec % 2 ^ 32 ∧ t.ppsNs = s.subNs ∧ t.get R.TIME_STAT_PPS_SEEN = 1 ∧
      t.get (pendRF 8) = 1 ∧ t.get (pendRF 40) = 1 ∧ t = { s with regs := t.regs, hot := t.hot, ppsNs := t.ppsNs } ∧
      s.regsBut t [A.TIME_PPS_SEC, A.TIME_STAT, A.EVC_PENDi 0, A.EVC_PENDi 1]) ∧
    (s.get R.TIME_CTL_PPSO_EN = 1 → s.crossed (10 ^ 9) = true →
      Answers .ppsOutRise s (fun t => t = { s with ppsHigh := some (s.now + s.get R.TIME_PPSO_WIDTH_WIDTH * 1000 * unitsPerNs) })) ∧
    (s.get R.TIME_CTL_PPSO_EN = 0 → Answers .ppsOutRise s (fun t => t = s)) ∧
    (∀ e, s.ppsHigh = some e → e ≤ s.now → s.steady = true → Answers .ppsOutFall s (fun t => t = { s with ppsHigh := none })) ∧
    (∀ e, s.ppsHigh = some e → s.now < e → Answers .ppsOutFall s (fun t => t = s)))

/-- O15. The Stroke generators (R44-R47, R61): EN goes to 1 with legal values only, and then ARMED is 1 and the first Stroke is the first at or
after device time plus 1 ms; EN stays 1 while streams are bound; a Stroke fires at its instant and not before; the reads of device time,
of the PPS capture and of the Stroke count latch the registers beside them. -/
def Obligations.StrokeGenerators : Prop :=
  ∀ (s : State) (w : Who) (g : Fin 4) (d : Word),
    (s.gate w (A.STRKg_CTL g) d = true → wordGet d 0 1 = 1 → s.get (R.STRKg_CTL_EN g) = 0 →
      strokeLegal (s.get (R.STRKg_PNUM_PNUM g)) (s.get (R.STRKg_PDEN_PDEN g)) (s.get (R.STRKg_PHASE_PHASE g)) = true →
      Answers (.strokeEnable w g d) s (fun t => t.get (R.STRKg_CTL_EN g) = 1 ∧ t.get (R.STRKg_CTL_ARMED g) = 1 ∧
        (t.gen g).next = s.firstStroke g ∧ t = { s with regs := t.regs, gens := t.gens } ∧ s.regsBut t [A.STRKg_CTL g])) ∧
    (s.gate w (A.STRKg_CTL g) d = true → wordGet d 0 1 = 1 → s.get (R.STRKg_CTL_EN g) = 0 →
      strokeLegal (s.get (R.STRKg_PNUM_PNUM g)) (s.get (R.STRKg_PDEN_PDEN g)) (s.get (R.STRKg_PHASE_PHASE g)) = false →
      Answers (.strokeEnable w g d) s (fun t => t.get (R.STRKg_CTL_EN g) = 0 ∧ s.onlyReports t ∧ s.regsBut t [A.TALLY_MERGED])) ∧
    (s.gate w (A.STRKg_CTL g) d = true → wordGet d 0 1 = 0 → s.get (R.STRKg_CTL_EN g) = 1 → s.get (R.STRKg_CTL_BOUND g) = 0 →
      Answers (.strokeDisable w g d) s (fun t => t.get (R.STRKg_CTL_EN g) = 0 ∧ t.get (R.STRKg_CTL_ARMED g) = 0 ∧ s.onlyRegs t ∧
        s.regsBut t [A.STRKg_CTL g])) ∧
    (s.gate w (A.STRKg_CTL g) d = true → wordGet d 0 1 = 0 → s.get (R.STRKg_CTL_EN g) = 1 → s.get (R.STRKg_CTL_BOUND g) ≠ 0 →
      Answers (.strokeDisable w g d) s (fun t => t.get (R.STRKg_CTL_EN g) = 1 ∧ s.onlyReports t ∧ s.regsBut t [A.TALLY_MERGED])) ∧
    (s.get (R.STRKg_CTL_EN g) = 1 → s.reached (s.strokeAt g (s.gen g).next) = true →
      Answers (.stroke g) s (fun t => t.get (pendRF (4 + g)) = 1 ∧ t.get (pendRF (36 + g)) = 1 ∧ (t.gen g).last = (s.gen g).next ∧
        (t.gen g).next = (s.gen g).next + 1 ∧
          t = { s with regs := t.regs, fired := t.fired, hot := t.hot, freed := t.freed, waitDue := t.waitDue, gens := t.gens,
                       freeCtr := t.freeCtr, held := t.held, heldWait := t.heldWait, rings := t.rings, owed := t.owed, outbox := t.outbox,
                       streams := t.streams, feeds := t.feeds, crews := t.crews, scache := t.scache, slotPic := t.slotPic,
                       slotNref := t.slotNref, slotC := t.slotC, retPend := t.retPend, subs := t.subs, gates := t.gates, mem := t.mem,
                       injRecs := t.injRecs, badRows := t.badRows, lost := t.lost, celCe := t.celCe, stackTab := t.stackTab })) ∧
    (s.get (R.STRKg_CTL_EN g) = 0 ∨ s.reached (s.strokeAt g (s.gen g).next) = false → Answers (.stroke g) s (fun t => t = s)) ∧
    Answers (.timeNowRead w) s (fun t => t.outbox = s.outbox ++ [.value w A.TIME_NOW_SECL (BitVec.ofNat 32 s.sec)] ∧
      t.get R.TIME_NOW_SECH_SECH = s.sec / 2 ^ 32 % 2 ^ 32 ∧ t.get R.TIME_NOW_NS_NS = s.subNs % 2 ^ 30 ∧
      t.get R.TIME_NOW_FRAC_FRAC = s.frac % 2 ^ 32 ∧ t = { s with regs := t.regs, outbox := t.outbox } ∧
      s.regsBut t [A.TIME_NOW_SECH, A.TIME_NOW_NS, A.TIME_NOW_FRAC]) ∧
    Answers (.ppsSecRead w) s (fun t => t.outbox = s.outbox ++ [.value w A.TIME_PPS_SEC (s.reg A.TIME_PPS_SEC)] ∧
      t.get R.TIME_PPS_NS_NS = s.ppsNs % 2 ^ 30 ∧ t = { s with regs := t.regs, outbox := t.outbox } ∧ s.regsBut t [A.TIME_PPS_NS]) ∧
    Answers (.strokeIdxRead w g) s (fun t => t.outbox = s.outbox ++ [.value w (A.STRKg_IDX_L g) (BitVec.ofNat 32 (s.gen g).last)] ∧
      t.get (R.STRKg_IDX_H_IDX_H g) = (s.gen g).last / 2 ^ 32 % 2 ^ 32 ∧ t.get (R.STRKg_LAST_NS_NS g) = (s.gen g).lastNs % 2 ^ 30 ∧
      t = { s with regs := t.regs, outbox := t.outbox } ∧ s.regsBut t [A.STRKg_IDX_H g, A.STRKg_LAST_NS g])

/-- O16. The commands of network time and of the generators (R318, R350-R352): a step, an initialisation and PTP settings take effect and
complete; a generator's settings load, it arms, and the command waits for its first Stroke; an enabled generator is BUSY, and values
that R45 refuses are BAD_VALUE; a second step completes STEP_SPENT, and a step while streams are live STREAMS_LIVE. -/
def Obligations.TimeCommands : Prop :=
  ∀ (s : State) (c : Cmd),
    (s.accepts c 0x30 0 (some 0) → dSub c.desc = 0 → dClean c.desc [(16, 0, 64), (24, 0, 32)] true = true → dget c.desc 24 0 32 < 10 ^ 9 →
      (s.streamsLive = true → Answers (.timeStep c) s (fun t => s.completes t c St.streamsLive 0 ∧ t.now = s.now ∧ s.onlyRings t)) ∧
      (s.streamsLive = false → s.get R.TIME_STAT_STEP_AVAIL = 0 →
        Answers (.timeStep c) s (fun t => s.completes t c St.stepSpent 0 ∧ t.now = s.now ∧ t.get R.TIME_STAT_STEP_SPENT = 1 ∧ s.onlyRings t)) ∧
      (s.streamsLive = false → s.get R.TIME_STAT_STEP_AVAIL = 1 →
        Answers (.timeStep c) s (fun t => s.completes t c St.ok 0 ∧ t.get R.TIME_STAT_STEP_AVAIL = 0 ∧
          (t.now : Int) = (s.now + (signed 64 (dget c.desc 16 0 64) * 10 ^ 9 + dget c.desc 24 0 32) * 2 ^ 48) % (timeWrap : Int) ∧
          s.onlyTime t ∧ t.rate = s.rate ∧ t.relock = s.relock ∧ t.ppsHigh = s.ppsHigh))) ∧
    (s.accepts c 0x30 0 (some 0) → dSub c.desc = 1 → dClean c.desc [] true = true → s.streamsLive = false →
      Answers (.timeStepInit c) s (fun t => s.completes t c St.ok 0 ∧ t.now = 0 ∧ t.rate = 0 ∧ s.onlyTime t ∧
        t.relock = s.relock ∧ t.ppsHigh = s.ppsHigh)) ∧
    (s.accepts c 0x31 0 (some 1) → dSub c.desc = 0 → dClean c.desc [(16, 0, 2), (20, 0, 32), (24, 0, 16), (28, 0, 32)] true = true →
      ∀ g, g = dget c.desc 16 0 2 →
      (s.get (R.STRKg_CTL_EN g) = 1 → Answers (.strokeSet c) s (fun t => s.completes t c St.busy 0 ∧ s.onlyRings t)) ∧
      (s.get (R.STRKg_CTL_EN g) = 0 → strokeLegal (dget c.desc 20 0 32) (dget c.desc 24 0 16) (dget c.desc 28 0 32) = false →
        Answers (.strokeSet c) s (fun t => s.completes t c St.badValue 0 ∧ s.onlyRings t)) ∧
      (s.get (R.STRKg_CTL_EN g) = 0 → strokeLegal (dget c.desc 20 0 32) (dget c.desc 24 0 16) (dget c.desc 28 0 32) = true →
        Answers (.strokeSet c) s (fun t => t.get (R.STRKg_CTL_EN g) = 1 ∧ t.get (R.STRKg_PNUM_PNUM g) = dget c.desc 20 0 32 ∧
          t.get (R.STRKg_PDEN_PDEN g) = dget c.desc 24 0 16 ∧ t.get (R.STRKg_PHASE_PHASE g) = dget c.desc 28 0 32 ∧
          t.owed = s.owed ++ [{ s.owedOf c with wait := .stroke g }] ∧
          t = { s with regs := t.regs, gens := t.gens, fetched := t.fetched, turn := t.turn, owed := t.owed } ∧
          s.regsBut t [A.STRKg_CTL g, A.STRKg_PNUM g, A.STRKg_PDEN g, A.STRKg_PHASE g]))) ∧
    (s.accepts c 0x31 0 (some 1) → dSub c.desc = 1 → dClean c.desc [(16, 0, 2), (20, 0, 32), (24, 0, 16), (28, 0, 32)] true = true →
      ∀ g, g = dget c.desc 16 0 2 →
      (s.get (R.STRKg_CTL_BOUND g) ≠ 0 → Answers (.strokeSetDisable c) s (fun t => s.completes t c St.busy 0 ∧ s.onlyRings t)) ∧
      (s.get (R.STRKg_CTL_BOUND g) = 0 →
        Answers (.strokeSetDisable c) s (fun t => s.completes t c St.ok 0 ∧ t.get (R.STRKg_CTL_EN g) = 0 ∧ s.onlyRings t))) ∧
    (s.accepts c 0x32 0 (some 0) → dSub c.desc = 0 →
      dClean c.desc [(16, 0, 8), (17, 0, 8), (18, 0, 8), (19, 0, 3), (24, 0, 64), (32, 0, 2)] = true →
      (∀ p, p < 64 → natBit (dget c.desc 24 0 64) p = true → s.portExists p = false →
        Answers (.ptpSet c) s (fun t => s.completes t c St.noUnit 0 ∧ s.onlyRings t)) ∧
      (dget c.desc 24 0 64 = 0 → dget c.desc 32 0 2 = 0 →
        Answers (.ptpSet c) s (fun t => s.completes t c St.badValue 0 ∧ s.onlyRings t)) ∧
      (dget c.desc 24 0 64 ≠ 0 ∨ dget c.desc 32 0 2 ≠ 0 → (∀ p, p < 64 → natBit (dget c.desc 24 0 64) p = true → s.portExists p = true) →
        Answers (.ptpSet c) s (fun t => s.completes t c St.ok 0 ∧ t.get R.TIME_CTL_DOMAIN = dget c.desc 16 0 8 ∧
          (t.ptpServo.prio1, t.ptpServo.prio2) = (dget c.desc 17 0 8, dget c.desc 18 0 8) ∧
          (t.ptpServo.flags, t.ptpServo.ports, t.ptpServo.cps) = (dget c.desc 19 0 3, dget c.desc 24 0 64, dget c.desc 32 0 2) ∧
          t = { s with regs := t.regs, rings := t.rings, fetched := t.fetched, turn := t.turn, outbox := t.outbox, ptpServo := t.ptpServo })))

/-- O17. The Event Controller's claims (R572, R573, R575-R577): a free target claims its candidate, once a cycle, which becomes active, and an
edge source no longer pending; a Cox core's read is the look; a completion of the claimed source frees the target and the source; any
other completion is refused and reported. The Event Controller's sources and registers (R49, R570, R571, R574, R582, R584): a timer
asserts its source at a multiple of its period, once a cycle; a level pin's source follows the filtered line and an edge pin's asserts
at its edge; a changed pin setting restarts the filter and discards an unclaimed assertion; a preemption waits at its Scull; a write of
a 1 discards an edge source's assertion and a 0 leaves it; a target in service keeps the claim it made until the completion. -/
def Obligations.EventService : Prop :=
  (∀ (s : State) (w : Who),
    (∀ (t : Fin 8) n, s.get (R.EVC_INSVt_VALID t) = 0 → s.candidate t = some n → (t.val < 4 ∨ s.ringRoom (0x40 + (t.val - 4)) = true) →
      claimKey t ∉ s.fired → Answers (.evcClaim t) s (fun u => u.get (R.EVC_INSVt_VALID t) = 1 ∧ u.get (R.EVC_INSVt_SOURCE t) = n ∧ u.get (actRF n) = 1 ∧
        (s.evcLevel n = false → u.get (pendRF n) = 0) ∧
        (t.val < 4 → u.get (R.EVC_CLAIMt_VALID t) = 1 ∧ u.get (R.EVC_CLAIMt_SOURCE t) = n) ∧
        u = { s with regs := u.regs, gath := u.gath, claimed := u.claimed, looked := u.looked, holdOff := u.holdOff, rings := u.rings,
                     fired := claimKey t :: s.fired })) ∧
    (∀ t : Fin 8, s.get (R.EVC_INSVt_VALID t) = 1 ∨ s.candidate t = none ∨ claimKey t ∈ s.fired → Answers (.evcClaim t) s (fun u => u = s)) ∧
    (∀ t : Fin 4, Answers (.evcClaimRead w t) s (fun u => u.outbox = s.outbox ++ [.value w (A.EVC_CLAIMt t) (s.reg (A.EVC_CLAIMt t))] ∧
      (w ≠ .cox t → u = { s with outbox := u.outbox }) ∧
      (w = .cox t → s.get (R.EVC_INSVt_VALID t) = 1 → t.val ∉ s.looked → s.evcLevel (s.get (R.EVC_INSVt_SOURCE t)) = true →
        s.get (pendRF (s.get (R.EVC_INSVt_SOURCE t))) = 0 → u.get (R.EVC_INSVt_GONE t) = 1) ∧
      u = { s with regs := u.regs, looked := u.looked, outbox := u.outbox } ∧ s.regsBut u [A.EVC_INSVt t])) ∧
    (∀ (t : Fin 4) (d : Word), s.gate w (A.EVC_DONEt t) d = true → s.get (R.EVC_INSVt_VALID t) = 1 →
      (s.get (R.EVC_INSVt_SOURCE t) = wordGet d 0 10 →
        Answers (.evcDoneWrite w t d) s (fun u => u.get (R.EVC_INSVt_VALID t) = 0 ∧ u.get (actRF (wordGet d 0 10)) = 0 ∧
          u.get (R.EVC_CLAIMt_VALID t) = 0 ∧
          u = { s with regs := u.regs, hot := u.hot, claimed := u.claimed, tgtDef := u.tgtDef, looked := u.looked, fired := u.fired })) ∧
      (s.get (R.EVC_INSVt_SOURCE t) ≠ wordGet d 0 10 →
        Answers (.evcDoneWrite w t d) s (fun u => u.get (R.EVC_INSVt_VALID t) = 1 ∧ s.onlyReports u ∧ s.regsBut u [A.TALLY_MERGED]))) ∧
    (∀ (g : Fin 64) (t : Fin 8) e, tabGet none s.holdOff (8 * g.val + t.val) = some e → e ≤ s.now → s.steady = true →
      Answers (.holdOffExpiry g t) s (fun u => u.heldOff g t = false ∧ u = { s with holdOff := u.holdOff }))) ∧
  (∀ (s : State) (w : Who) (d : Word),
    (∀ i : Fin 4, s.get (R.EVC_TMRi_EN i) = 1 → s.crossed (s.get (R.EVC_TMRi_PERIOD i) * 1000) = true → 100 + i.val ∉ s.fired →
      Answers (.evcTimer i) s (fun u => u.get (pendRF (9 + i)) = 1 ∧ u = { s with regs := u.regs, hot := u.hot, fired := (100 + i.val) :: s.fired } ∧
        s.regsBut u [A.EVC_PENDi 0])) ∧
    (∀ i : Fin 4, s.get (R.EVC_TMRi_EN i) = 0 ∨ s.crossed (s.get (R.EVC_TMRi_PERIOD i) * 1000) = false →
      Answers (.evcTimer i) s (fun u => u = s)) ∧
    (∀ (i : Fin 16) (l : Bool), Answers (.evtInFilter i l) s (fun u => u.get (R.EVC_INCFGi_FILT i) = b2n l ∧
      u.get (R.EVC_INCFGi_RAW i) = b2n l ∧
      (s.get (R.EVC_INCFGi_MODE i) = 0 → u.get (pendRF (16 + i)) = b2n l) ∧
      (s.get (R.EVC_INCFGi_MODE i) = 1 → u.get (pendRF (16 + i)) = b2n (!l)) ∧
      ((tabGet {} s.pins i : PinS).settled = true → s.get (R.EVC_INCFGi_FILT i) = b2n (!l) →
        (s.get (R.EVC_INCFGi_MODE i) = 2 ∧ l = true ∨ s.get (R.EVC_INCFGi_MODE i) = 3 ∧ l = false) → u.get (pendRF (16 + i)) = 1) ∧
      u = { s with regs := u.regs, hot := u.hot, pins := u.pins } ∧ s.regsBut u [A.EVC_INCFGi i, A.EVC_PENDi 0])) ∧
    (∀ i : Fin 16, s.gate w (A.EVC_INCFGi i) d = true →
      (wordGet d 0 10 ≠ s.get (R.EVC_INCFGi_GF_CYC i) ∨ wordGet d 10 2 ≠ s.get (R.EVC_INCFGi_MODE i)) →
      Answers (.evtInCfgWrite w i d) s (fun u => u.get (R.EVC_INCFGi_FILT i) = 0 ∧ u.get (pendRF (16 + i)) = 0 ∧
        (tabGet {} u.pins i : PinS).settled = false ∧ u = { s with regs := u.regs, pins := u.pins } ∧
        s.regsBut u [A.EVC_INCFGi i, A.EVC_PENDi 0])) ∧
    (s.gate w A.EVC_PREEMPT d = true → tabGet none s.preempt (wordGet d 0 8) = none →
      Answers (.evcPreemptWrite w d) s (fun u =>
        tabGet none u.preempt (wordGet d 0 8) = some { level := wordGet d 8 2, abort := wordGet d 10 1 == 1 } ∧
        u = { s with preempt := u.preempt } ∧ ∀ v, v ≠ wordGet d 0 8 → tabGet none u.preempt v = tabGet none s.preempt v)) ∧
    (∀ i : Fin 32, s.gate w (A.EVC_PENDi i) d = true →
      Answers (.evcPendClear w i d) s (fun u => u = { s with regs := u.regs } ∧ s.regsBut u [A.EVC_PENDi i] ∧ ∀ j, j < 32 →
        (natBit d.toNat j = true → evcListed (32 * i + j) = true → s.evcLevel (32 * i + j) = false → (A.EVC_PENDi i, j) ∉ s.hot →
          u.get (pendRF (32 * i + j)) = 0) ∧
        (natBit d.toNat j = false ∨ (A.EVC_PENDi i, j) ∈ s.hot → u.get (pendRF (32 * i + j)) = s.get (pendRF (32 * i + j))))) ∧
    (∀ n : Fin 1024, s.gate w (A.EVC_TGTn n) d = true →
      Answers (.evcTgtWrite w n d) s (fun u => s.takes u (A.EVC_TGTn n) d ∧ s.regsBut u [A.EVC_TGTn n] ∧
        (s.get (actRF n) = 1 → u.target n = s.target n) ∧ u = { s with regs := u.regs, tgtDef := u.tgtDef })))

/-- O18. STREAM_OPEN and STREAM_CLOSE (R84-R88, R334, R339, R590): an open that passes its checks takes an OFF stream to STARTING with the
parameters of its block and a new EPOCH, and waits for ON; the first check that fails is its status; an ON stream is BUSY. A close takes
an ON stream to STOPPING with the picture of the running Stroke as its last; it is BUSY on an OFF stream, and stays pending on a
STARTING one. A stream's way to ON and OFF beside its commands (R85, R86, R211, R591): the allocation of a STARTING stream ends once; a
STOPPING stream that has drained reaches OFF, its resources freed, its Stroke generator's BOUND one lower, and where no open is latched
its record is empty. -/
def Obligations.StreamLives : Prop :=
  (∀ (s : State) (c : Cmd) (n : Nat), n = dIdx c.desc → dSub c.desc = 0 →
    (∀ (blk : HostRead) (h : Homes), s.accepts c 0x01 1 none → dClean c.desc [(16, 0, 64), (24, 0, 16)] = true →
      (∀ e, (s.takeFetched c).openBlock c.desc blk = .error e →
        Answers (.streamOpen c blk h) s (fun t => s.completes t c e 0 ∧ s.onlyRings t)) ∧
      (∀ p, (s.takeFetched c).openBlock c.desc blk = .ok p →
        (s.get (R.STRMn_STATE_STATE n) = 2 → Answers (.streamOpen c blk h) s (fun t => s.completes t c St.busy 0 ∧ s.onlyRings t)) ∧
        (∀ e, s.get (R.STRMn_STATE_STATE n) = 0 → (s.takeFetched c).openCheck n p h (s.expert 4) = some e → e ≠ 0 →
          Answers (.streamOpen c blk h) s (fun t => s.completes t c e 0 ∧ s.onlyRings t)) ∧
        (s.get (R.STRMn_STATE_STATE n) = 0 → (s.takeFetched c).openCheck n p h (s.expert 4) = none →
          Answers (.streamOpen c blk h) s (fun t => t.get (R.STRMn_STATE_STATE n) = 1 ∧
            t.get (R.STRMn_EPOCH_EPOCH n) = (s.get (R.STRMn_EPOCH_EPOCH n) + 1) % 2 ^ 32 ∧ (t.strm n).p = p ∧
            t.owed = s.owed ++ [{ s.owedOf c with wait := .unitOn 1 n }] ∧
            t = { s with regs := t.regs, freeCtr := t.freeCtr, fetched := t.fetched, turn := t.turn, owed := t.owed, outbox := t.outbox,
                         streams := t.streams, feeds := t.feeds, slotSz := t.slotSz })))) ∧
    (s.accepts c 0x02 1 none → dClean c.desc [] = true →
      (s.get (R.STRMn_STATE_STATE n) = 0 → Answers (.streamClose c) s (fun t => s.completes t c St.busy 0 ∧ s.onlyRings t)) ∧
      (s.get (R.STRMn_STATE_STATE n) = 1 → Answers (.streamClose c) s (fun t => t.get (R.STRMn_STATE_PEND n) = 2 ∧
        t.get (R.STRMn_STATE_STATE n) = 1 ∧ { s.owedOf c with wait := .latched 1 n } ∈ t.owed ∧ s.onlyRings t)) ∧
      (s.get (R.STRMn_STATE_STATE n) = 2 → Answers (.streamClose c) s (fun t => t.get (R.STRMn_STATE_STATE n) = 3 ∧
        t.get (R.STRMn_EPOCH_EPOCH n) = (s.get (R.STRMn_EPOCH_EPOCH n) + 1) % 2 ^ 32 ∧
        (t.strm n).lastPic = some ((s.takeFetched c).pictureNow n) ∧ t.owed = s.owed ++ [{ s.owedOf c with wait := .unitOff 1 n }] ∧
        t = { s with regs := t.regs, fetched := t.fetched, turn := t.turn, owed := t.owed, streams := t.streams } ∧
        s.regsBut t [A.STRMn_STATE n, A.STRMn_EPOCH n])))) ∧
  (∀ (s : State) (n : Fin 128),
    (s.get (R.STRMn_STATE_STATE n) = 1 → (s.strm n).allocEnd = none →
      Answers (.allocationEnd n) s (fun t => (t.strm n).allocEnd = some s.now ∧ (t.strm n).p = (s.strm n).p ∧
        ((s.strm n).p.typ ≠ 2 → (t.strm n).staged = some 0) ∧
        t = { s with regs := t.regs, streams := t.streams, crews := t.crews, mem := t.mem, injRecs := t.injRecs, freeCtr := t.freeCtr })) ∧
    (s.get (R.STRMn_STATE_STATE n) ≠ 1 ∨ (s.strm n).allocEnd.isSome = true → Answers (.allocationEnd n) s (fun t => t = s)) ∧
    (s.get (R.STRMn_STATE_STATE n) = 3 → s.drained n = true → s.get (R.STRMn_STATE_PEND n) = 0 →
      Answers (.streamOff n) s (fun t => t.get (R.STRMn_STATE_STATE n) = 0 ∧ t.strm n = {} ∧
        (∀ f e, (f, e) ∈ t.feeds → e.stream ≠ some n.val) ∧ (∀ g, g ∈ t.progs → g.stream ≠ n.val) ∧
        (∀ o, o ∈ t.owed → o.wait ≠ .unitOff 1 n ∧ o.wait ≠ .rate n) ∧
        t = { s with regs := t.regs, rings := t.rings, gath := t.gath, owed := t.owed, outbox := t.outbox, streams := t.streams,
                     feeds := t.feeds, crews := t.crews, progs := t.progs, slotPic := t.slotPic, slotSz := t.slotSz,
                     slotNref := t.slotNref, slotC := t.slotC, scache := t.scache, rtpSeq := t.rtpSeq, lifted := true, subs := t.subs })) ∧
    (s.get (R.STRMn_STATE_STATE n) ≠ 3 ∨ s.drained n = false → Answers (.streamOff n) s (fun t => t = s)))

/-- O19. FEED_SET, RATE_SET and PRIO_SET (R83, R193, R340, R341, R344): an accepted change waits for its Stroke behind the changes accepted
before it and changes nothing else; a port that is absent is NO_UNIT, and a stream of another type, one that is not open and a set of
feeds or rates that the checks refuse complete with their statuses. KEY_REQ and SEI_INSERT (R122, R342, R343): an accepted key request
waits for its effective picture and completes with it; where the stream's KEY_SRC refuses descriptors it completes KEY_DISABLED. An SEI
payload that is read is held for its pictures; one whose pictures are gone completes PIC_GONE and a fifth one BUSY. -/
def Obligations.StreamOrders : Prop :=
  (∀ (s : State) (c : Cmd) (n : Nat), n = dIdx c.desc →
    (∀ (i : Instr) (f : FeedP), s.accepts c 0x03 1 none → dClean c.desc feedFields true = true → ∀ sub, sub = dSub c.desc →
      (i = .feedSetAdd c ∧ sub = 0 ∧ feedClean (feedBody c.desc) 0 = true ∧ f = feedAt (feedBody c.desc) 0 ∨
       i = .feedSetChange c ∧ sub = 1 ∧ feedClean (feedBody c.desc) 0 = true ∧ f = feedAt (feedBody c.desc) 0 ∨
       i = .feedSetRemove c ∧ sub = 2 ∧ feedBare (feedBody c.desc) 0 = true ∧ f = { feed := dget c.desc 16 0 8 }) →
      (sub ≠ 2 → s.portsThere (feedPorts c.desc) = false → Answers i s (fun t => s.completes t c St.noUnit 0 ∧ s.onlyRings t)) ∧
      (sub = 2 ∨ s.portsThere (feedPorts c.desc) = true →
      (s.get (R.STRMn_STATE_STATE n) ≠ 0 → (s.strm n).p.typ ≠ 3 → Answers i s (fun t => s.completes t c St.wrongType 0 ∧ s.onlyRings t)) ∧
      (s.get (R.STRMn_STATE_STATE n) = 0 ∨ s.get (R.STRMn_STATE_STATE n) = 3 ∧ (s.strm n).p.typ = 3 →
        Answers i s (fun t => s.completes t c St.notOn 0 ∧ s.onlyRings t)) ∧
      (s.get (R.STRMn_STATE_STATE n) = 1 ∨ s.get (R.STRMn_STATE_STATE n) = 2 → (s.strm n).p.typ = 3 →
        ((sub = 0 ∧ (s.takeFetched c).feedUsed f.feed = false ∧ (s.strm n).p.feedsOk ((s.takeFetched c).feedsNext n ++ [f]) = true) ∨
         (sub = 1 ∧ ((s.takeFetched c).feedsNext n).any (fun x => x.feed == f.feed) = true ∧
           (s.strm n).p.feedsOk (((s.takeFetched c).feedsNext n).map (fun x => if x.feed = f.feed then f else x)) = true) ∨
         (sub = 2 ∧ ((s.takeFetched c).feedsNext n).any (fun x => x.feed == f.feed) = true)) →
        Answers i s (fun t => (t.strm n).changes = (s.strm n).changes ++ [{ sub := sub, p := f, at_ := s.cyc }] ∧
          t.owed = s.owed ++ [{ s.owedOf c with wait := .feed n f.feed }] ∧
          t = { s with fetched := t.fetched, turn := t.turn, owed := t.owed, streams := t.streams })) ∧
      (s.get (R.STRMn_STATE_STATE n) = 1 ∨ s.get (R.STRMn_STATE_STATE n) = 2 → (s.strm n).p.typ = 3 → sub = 0 →
        (s.takeFetched c).feedUsed f.feed = true → Answers i s (fun t => s.completes t c St.feedConflict 0 ∧ s.onlyRings t)))) ∧
    (s.accepts c 0x04 1 none → dSub c.desc = 0 →
      dClean c.desc [(16, 0, 4), (17, 0, 8), (18, 0, 8), (20, 0, 32), (24, 0, 32)] = true → dget c.desc 16 0 4 ≠ 0 →
      (∀ e, s.codedOpen n false = some e → Answers (.rateSet c) s (fun t => s.completes t c e 0 ∧ s.onlyRings t)) ∧
      (s.codedOpen n false = none → (s.takeFetched c).rateOk n ((s.takeFetched c).rateSum n ((s.takeFetched c).rateOf c.desc)) = false →
        Answers (.rateSet c) s (fun t => s.completes t c St.geometry 0 ∧ s.onlyRings t)) ∧
      (s.codedOpen n false = none → (s.takeFetched c).rateOk n ((s.takeFetched c).rateSum n ((s.takeFetched c).rateOf c.desc)) = true →
        Answers (.rateSet c) s (fun t => (t.strm n).rates = (s.strm n).rates ++ [s.rateOf c.desc] ∧
          t.owed = s.owed ++ [{ s.owedOf c with wait := .rate n }] ∧
          t = { s with fetched := t.fetched, turn := t.turn, owed := t.owed, streams := t.streams }))) ∧
    (s.accepts c 0x07 1 (some 4) → dSub c.desc = 0 → dClean c.desc [(16, 0, 4)] = true →
      (s.get (R.STRMn_STATE_STATE n) = 0 → Answers (.prioSet c) s (fun t => s.completes t c St.notOn 0 ∧ s.onlyRings t)) ∧
      (s.get (R.STRMn_STATE_STATE n) ≠ 0 → Answers (.prioSet c) s (fun t => s.completes t c St.ok 0 ∧
        t.get (R.STRMn_SCHED_PRIO n) = dget c.desc 16 0 4 ∧ s.onlyRings t)))) ∧
  (∀ (s : State) (c : Cmd) (n : Nat), n = dIdx c.desc → dSub c.desc = 0 →
    (s.accepts c 0x05 1 none → dClean c.desc [] = true →
      (∀ e, s.codedOpen n true = some e → Answers (.keyReq c) s (fun t => s.completes t c e 0 ∧ s.onlyRings t)) ∧
      (s.codedOpen n true = none → natBit (s.strm n).p.keySrc 0 = false →
        Answers (.keyReq c) s (fun t => s.completes t c St.keyDisabled 0 ∧ s.onlyRings t)) ∧
      (s.codedOpen n true = none → natBit (s.strm n).p.keySrc 0 = true →
        Answers (.keyReq c) s (fun t => s.completes t c St.ok ((s.takeFetched c).effPic n % 2 ^ 32) ∧
          (t.strm n).keyWait = (s.strm n).keyWait ++ [(s.takeFetched c).effPic n] ∧
          t = { s with regs := t.regs, rings := t.rings, fetched := t.fetched, turn := t.turn, streams := t.streams }))) ∧
    (∀ (pay : HostRead) (bs : List Byte), s.accepts c 0x06 1 none →
      dClean c.desc [(16, 0, 64), (24, 0, 16), (26, 0, 16), (32, 0, 64)] = true → ∀ len, len = dget c.desc 24 0 16 → 2 ≤ len → len ≤ 1024 →
      1 ≤ dget c.desc 26 0 16 → ∀ used, used = max (dget c.desc 32 0 64) ((s.takeFetched c).effPic n) →
      ∀ last, last = dget c.desc 32 0 64 + dget c.desc 26 0 16 - 1 →
      (∀ e, s.codedOpen n false = some e → Answers (.seiInsert c pay) s (fun t => s.completes t c e 0 ∧ s.onlyRings t)) ∧
      (s.codedOpen n false = none → (s.takeFetched c).reachQp (dget c.desc 16 0 64) len = none →
        Answers (.seiInsert c pay) s (fun t => s.completes t c St.paramRead 0 ∧ s.onlyRings t)) ∧
      (s.codedOpen n false = none → ((s.takeFetched c).reachQp (dget c.desc 16 0 64) len).isSome = true → pay = some bs → len ≤ bs.length →
        (last < used → Answers (.seiInsert c pay) s (fun t => s.completes t c St.picGone 0 ∧ s.onlyRings t)) ∧
        (used ≤ last → 4 ≤ ((s.strm n).sei.filter (fun i => decide ((s.strm n).nextPic ≤ i.last))).length →
          Answers (.seiInsert c pay) s (fun t => s.completes t c St.busy 0 ∧ s.onlyRings t)) ∧
        (used ≤ last → ((s.strm n).sei.filter (fun i => decide ((s.strm n).nextPic ≤ i.last))).length < 4 →
          Answers (.seiInsert c pay) s (fun t => s.completes t c St.ok (used % 2 ^ 32) ∧
            (t.strm n).sei = (s.strm n).sei ++ [{ first := used, last := last, bits := seiBits (bs.take len), pay := bs.take len }] ∧
            t = { s with regs := t.regs, rings := t.rings, fetched := t.fetched, turn := t.turn, streams := t.streams })))))

/-- O20. The input of a band (R78, R81, R143): a freed strip slot and a cut are recorded once; the jobs of the band that become complete with
them enter their Crew's queue, and a row that has not come, or has come before, changes nothing. -/
def Obligations.BandInput : Prop :=
  ∀ (s : State) (n : Fin 128) (pic b : Nat),
    (s.rawLive n pic = true → b < (s.strm n).p.nRows → (pic, b) ∉ (s.strm n).slotFree → (s.strm n).complete pic = false →
      (∀ g d, g = (s.strm n).p.bandNo pic b → d = (if (s.strm n).p.frame then (s.strm n).p.nh else (s.strm n).p.nb) →
        g < d ∨ s.bandRead n ((g - d) / (s.strm n).p.nRows) ((g - d) % (s.strm n).p.nRows) = true) →
      ((s.strm n).p.frame = true → s.picIn n pic = true ∧ ∀ g, g = (s.strm n).p.bandNo pic b → g ≠ 0 →
        ((g - 1) / (s.strm n).p.nRows, (g - 1) % (s.strm n).p.nRows) ∈ (s.strm n).slotFree ∨
        (s.strm n).complete ((g - 1) / (s.strm n).p.nRows) = true) →
      Answers (.slotFree n pic b) s (fun t => (pic, b) ∈ (t.strm n).slotFree ∧
        ((s.strm n).p.frame = true ∨ s.feedsOf n = [] → ∀ reg, (b, reg) ∈ (s.strm n).p.jobs → (pic, b, reg) ∈ (t.strm n).enq) ∧
        t = { s with regs := t.regs, hot := t.hot, gath := t.gath, rings := t.rings, streams := t.streams, feeds := t.feeds, crews := t.crews,
                     freeCtr := t.freeCtr })) ∧
    ((pic, b) ∈ (s.strm n).slotFree → Answers (.slotFree n pic b) s (fun t => t = s)) ∧
    (s.rawLive n pic = true → b < (s.strm n).p.nRows → (pic, b) ∉ (s.strm n).cutDone → (s.strm n).complete pic = false →
      s.bandCut n pic b = true →
      Answers (.feedCut n pic b) s (fun t => (pic, b) ∈ (t.strm n).cutDone ∧
        t = { s with regs := t.regs, hot := t.hot, gath := t.gath, rings := t.rings, streams := t.streams, feeds := t.feeds, crews := t.crews })) ∧
    (s.bandCut n pic b = false → Answers (.feedCut n pic b) s (fun t => t = s))

/-- O21. A Crew's queue (R143, R146-R148, R150, R258): the first job that waits outside enters a queue with room; an idle Scull that wins its
Crew's choice takes that job out of its queue, runs it from the job entry, and counts it as a steal where the queue is another Crew's; a
Scull that is not idle takes nothing. The end of a job, and the deadline of a row (R102, R153, R158): the oldest ended job of a Scull
completes once the Bow has written all of it, and its rectangle counts as coded; a row's deadline is recorded once, and comes at its
instant at the earliest. -/
def Obligations.JobQueues : Prop :=
  (∀ s : State,
    (∀ (c : Fin 4) j r, (s.crew c).wait = j :: r → (s.crew c).queue.length < 1024 →
      Answers (.queueWaitEnter c) s (fun t => (t.crew c).wait = r ∧
        (t.crew c).queue = (if j.again then j :: (s.crew c).queue else insertBy Job.before j (s.crew c).queue) ∧
        t = { s with crews := t.crews } ∧ ∀ d, d ≠ c.val → t.crew d = s.crew d)) ∧
    (∀ c : Fin 4, (s.crew c).wait = [] ∨ 1024 ≤ (s.crew c).queue.length → Answers (.queueWaitEnter c) s (fun t => t = s)) ∧
    (∀ (u : Fin 144) v j, s.idle u = true → s.takeChoice (u.val / 36) = some (v, j) → s.winsTake u v = true →
      s.inTurn 1 j.stream u = true → Answers (.jobTake u) s (fun t => (t.run u).map (fun r => r.job) = some { j with again := false } ∧
        (t.run u).map (fun r => r.home) = some v ∧ (t.crew v).queue = removeFirst (fun x => x == j) (s.crew v).queue ∧
        t.get (R.USTAT_BUSY u) = 1 ∧ (t.seq u).upc = (s.strm j.stream).p.jobEntry ∧
        (v ≠ u.val / 36 → t.get (R.CREWc_STEALS_COUNT (u.val / 36)) = min (s.get (R.CREWc_STEALS_COUNT (u.val / 36)) + 1) (2 ^ 32 - 1)) ∧
        t = { s with regs := t.regs, streams := t.streams, crews := t.crews, runs := t.runs, seqs := t.seqs, progs := t.progs,
                     turns := (1, j.stream, u.val) :: s.turns })) ∧
    (∀ (u : Fin 144) v j, s.takeChoice (u.val / 36) = some (v, j) → s.inTurn 1 j.stream u = false → Answers (.jobTake u) s (fun t => t = s)) ∧
    (∀ u : Fin 144, s.idle u = false ∨ s.takeChoice (u.val / 36) = none → Answers (.jobTake u) s (fun t => t = s))) ∧
  (∀ s : State,
    (∀ (u : Fin 144) r rest lc bytes conc far, tabGet [] s.ended u = r :: rest →
      r.job.dec = true ∨ (r.job.nCtu ≤ r.charged ∧ 8 * bytes ≤ r.bits + s.get (R.RRCn_SLICE_BITS r.job.stream)) →
      Answers (.jobComplete u lc bytes (conc, far)) s (fun t => tabGet [] t.ended u = rest ∧
        (∀ p, s.pic r.job.stream r.job.pic = some p → 2 ≤ p.jobsLeft → t.jobDone r.job.stream r.job.pic r.job.row r.job.reg = true) ∧
        t = { s with regs := t.regs, hot := t.hot, freeCtr := t.freeCtr, held := t.held, heldWait := t.heldWait, gath := t.gath, rings := t.rings,
                     owed := t.owed, outbox := t.outbox, streams := t.streams, ended := t.ended, progs := t.progs, egr := t.egr,
                     frameNo := t.frameNo, subs := t.subs, rtpSeq := t.rtpSeq, slotC := t.slotC, freed := t.freed, mem := t.mem,
                     injRecs := t.injRecs })) ∧
    (∀ (u : Fin 144) r rest lc bytes conc far, tabGet [] s.ended u = r :: rest → r.job.dec = false →
      r.charged < r.job.nCtu ∨ r.bits + s.get (R.RRCn_SLICE_BITS r.job.stream) < 8 * bytes →
      Answers (.jobComplete u lc bytes (conc, far)) s (fun t => t = s)) ∧
    (∀ (u : Fin 144) lc bytes conc far, tabGet [] s.ended u = [] → Answers (.jobComplete u lc bytes (conc, far)) s (fun t => t = s)) ∧
    (∀ (n : Fin 128) pic row, (s.strm n).p.typ ≠ 2 → 2 ≤ s.get (R.STRMn_STATE_STATE n) → pic < (s.strm n).nextPic →
      (s.strm n).nextPic ≤ pic + 64 → row < (s.strm n).p.nRows → (pic, row) ∉ (s.strm n).dlDone →
      s.reached (s.rowDl (s.strm n).p (s.strokeOf n pic) row) = true → ((s.strm n).p.typ = 1 → (s.pic n pic).isSome = true) →
      Answers (.rowDeadline n pic row) s (fun t => (pic, row) ∈ (t.strm n).dlDone ∧
        t = { s with regs := t.regs, hot := t.hot, held := t.held, heldWait := t.heldWait, gath := t.gath, preempt := t.preempt, rings := t.rings,
                     streams := t.streams, freed := t.freed, runs := t.runs, progs := t.progs, egr := t.egr, frameNo := t.frameNo, rtpSeq := t.rtpSeq,
                     freeCtr := t.freeCtr })) ∧
    (∀ (n : Fin 128) pic row, (pic, row) ∈ (s.strm n).dlDone ∨ s.reached (s.rowDl (s.strm n).p (s.strokeOf n pic) row) = false →
      Answers (.rowDeadline n pic row) s (fun t => t = s)))

/-- O22. The record of the next picture (R117, R124): firmware stages it for a stream that is on, with the picture's own number and POC, and uses
up the key requests that have come due. -/
def Obligations.RecordStaging : Prop :=
  ∀ (s : State) (n : Fin 128),
    ((s.strm n).p.typ ≠ 2 → 2 ≤ s.get (R.STRMn_STATE_STATE n) → (s.strm n).nextPic ≠ 0 → (s.strm n).past (s.strm n).nextPic = false →
      (s.strm n).pics.any (fun q => decide (q.n + 32 ≤ (s.strm n).nextPic) && q.fin.isNone) = false →
      Answers (.pictureRecordStage n) s (fun t => (t.strm n).staged = some (s.strm n).nextPic ∧
        (t.strm n).nextRec.pic = (s.strm n).nextPic ∧ (t.strm n).nextRec.poc = (s.strm n).nextPic % 2 ^ 32 ∧
        (t.strm n).nextRec.valid = true ∧ (t.strm n).keyWait = (s.strm n).keyWait.filter (fun e => decide ((s.strm n).nextPic < e)) ∧
        t = { s with regs := t.regs, streams := t.streams, crews := t.crews, mem := t.mem, injRecs := t.injRecs, freeCtr := t.freeCtr })) ∧
    ((s.strm n).p.typ = 2 ∨ s.get (R.STRMn_STATE_STATE n) < 2 ∨ (s.strm n).nextPic = 0 →
      Answers (.pictureRecordStage n) s (fun t => t = s))

/-- O23. Crews (R130-R134, R151, R591): the ceiling is the lowest level whose cost of the jobs within the horizon fits, E3 where none does; a
seat write takes effect where it seats no Scull twice, and the Sculls' states follow the seats; a Crew reaches ON with RUN set on its
unretired Sculls, and OFF, with no job in flight, with RUN clear. Admission runs again (R155, R160, R161): at the basic level of ADMIT,
what firmware leaves is an admissible set, or one in which every stream is capped; at the expert level the host owns the homes and
nothing changes. -/
def Obligations.CrewRecords : Prop :=
  (∀ (s : State) (c : Fin 4),
    (Answers (.crewCeiling c) s (fun t => t = { s with regs := t.regs, preempt := t.preempt, runs := t.runs } ∧
      s.regsBut t [A.CREWc_STAT c] ∧
      ∀ e room, e = t.get (R.CREWc_STAT_CEIL_ACT c) → room = s.live c * s.get (R.CREWc_HORIZON_NS c) * 108 →
        e ≤ 3 ∧ (e < 3 → s.horizonCost c e ≤ room) ∧ ∀ f, f < e → room < s.horizonCost c f)) ∧
    (∀ (w : Who) (j : Fin 32) (d : Word), s.gate w (A.CREWc_SEATj c j) d = true →
      ((∀ i, i < 32 → i ≠ j.val → s.seatHolds c i (wordGet d 0 6) = false) →
        Answers (.seatWrite w c j d) s (fun t => t.get (R.CREWc_SEATj_VALID c j) = wordGet d 7 1 ∧
          t.get (R.CREWc_SEATj_SCULL c j) = wordGet d 0 6 ∧
          (∀ q, q < 36 → s.retired (36 * c + q) = false → t.get (R.CREWc_SCULLq_STATE c q) = b2n (t.seatOf c q).isNone) ∧
          t = { s with regs := t.regs, crews := t.crews })) ∧
      (∀ i, i < 32 → i ≠ j.val → s.seatHolds c i (wordGet d 0 6) = true → wordGet d 7 1 = 1 →
        Answers (.seatWrite w c j d) s (fun t => s.onlyReports t ∧ s.regsBut t [A.TALLY_MERGED]))) ∧
    (s.crewPresent c = true → s.get (R.CREWc_STATE_STATE c) = 1 → s.get (R.CREWc_STATE_PEND c) ≠ 2 → (s.crew c).began.2 = false →
      Answers (.crewOn c) s (fun t => t.get (R.CREWc_STATE_STATE c) = 2 ∧ (∀ u, u ∈ s.crewSculls c → t.get (R.UCTL_RUN u) = 1) ∧
        (∀ o, o ∈ t.owed → o.wait ≠ .unitOn 5 c) ∧
        t = { s with regs := t.regs, rings := t.rings, owed := t.owed, crews := t.crews, seqs := t.seqs, mem := t.mem,
                     injRecs := t.injRecs, filled := t.filled, hchs := t.hchs, hgrant := t.hgrant, scache := t.scache, held := t.held,
                     heldWait := t.heldWait })) ∧
    (s.crewPresent c = false ∨ s.get (R.CREWc_STATE_STATE c) ≠ 1 → Answers (.crewOn c) s (fun t => t = s)) ∧
    (s.get (R.CREWc_STATE_STATE c) = 3 → s.get (R.CREWc_STATE_PEND c) = 0 →
      (∀ q, q < 36 → s.run (36 * c + q) = none ∧ tabGet [] s.ended (36 * c + q) = []) →
      Answers (.crewOff c) s (fun t => t.get (R.CREWc_STATE_STATE c) = 0 ∧ (∀ q, q < 36 → t.get (R.UCTL_RUN (36 * c + q)) = 0) ∧
        (∀ i, i < 9 → t.get (R.CLKPWR_PDn_STATE (9 * c + i)) = 0) ∧
        t = { s with regs := t.regs, rings := t.rings, owed := t.owed, seqs := t.seqs, mem := t.mem, injRecs := t.injRecs,
                     filled := t.filled, hchs := t.hchs, hgrant := t.hgrant })) ∧
    (s.get (R.CREWc_STATE_STATE c) ≠ 3 → Answers (.crewOff c) s (fun t => t = s))) ∧
  (∀ (s : State) (homes : List (Fin 128 × Homes)),
    (s.expert 4 = false → Answers (.admissionRerun homes) s (fun t => (t.admissible (t.cands none) = true ∨ t.nextDemote = none) ∧
      t.lifted = false ∧ t = { s with regs := t.regs, hot := t.hot, gath := t.gath, streams := t.streams, crews := t.crews, mem := t.mem,
                                      injRecs := t.injRecs, lifted := false })) ∧
    (s.expert 4 = true → Answers (.admissionRerun homes) s (fun t => t = s)))

/-- O24. Leases and charges (R179-R183, R188): a CTU that the picture's free bits cover is granted its upper bound, taken from the lease's
account, and what it holds in reserve is released; one that they do not cover is refused and the picture enters floor mode; no request
is made once the CTU has reached Reconstruct or its syntax has left. A CTU written is charged its bits, at least its floor cost and at
most its bound, or its floor cost where it holds no lease. -/
def Obligations.Leases : Prop :=
  ∀ (s : State) (u : Fin 144) (r : RunS) (p : Pic), r.job.dec = false → s.pic r.job.stream r.job.pic = some p →
    (s.run u = some r → (∀ l, l ∈ r.leases → l.1 ≠ r.x) → s.inTurn 0 r.job.stream (144 + u) = true →
      max r.sent r.charged ≤ r.x → (s.seq u).stage < 5 → ∀ ctx byp n, n = r.job.stream →
      ∀ ra, ra = { r with asked := some r.x } →
      ∀ fc, fc = (s.strm n).p.floorCost p.record r.job.reg r.x → ∀ ub, ub = leaseUB ctx byp fc →
      (p.floor = true ∨ p.record.startup = true → Answers (.leaseRequest u ctx byp) s (fun t => t.run u = some ra ∧
        t.pic n r.job.pic = some p ∧ t = { s with streams := t.streams, runs := t.runs, turns := t.turns })) ∧
      (p.floor = false → p.record.startup = false → p.free - ((ub : Int) - fc) < 0 →
        Answers (.leaseRequest u ctx byp) s (fun t => t.run u = some ra ∧ (t.pic n r.job.pic).map (fun q => q.floor) = some true ∧
          t = { s with regs := t.regs, hot := t.hot, gath := t.gath, streams := t.streams, runs := t.runs, turns := t.turns })) ∧
      (p.floor = false → p.record.startup = false → 0 ≤ p.free - ((ub : Int) - fc) →
        Answers (.leaseRequest u ctx byp) s (fun t => t.run u = some { ra with leases := (r.x, ub, r.qpX) :: r.leases } ∧
          (t.pic n r.job.pic).map (fun q => (q.lease, q.reserve, q.spent)) = some (p.lease + ub, p.reserve - fc, p.spent) ∧
          (({ p with lease := p.lease + ub, reserve := p.reserve - fc } : Pic).free ≤ s.get (R.RRCn_MARGIN_BITS n) → (t.pic n r.job.pic).map (fun q => q.floor) = some true) ∧
          t = { s with regs := t.regs, hot := t.hot, gath := t.gath, streams := t.streams, runs := t.runs, turns := t.turns }))) ∧
    (s.run u = some r → s.inTurn 0 r.job.stream (144 + u) = false ∨ r.x < max r.sent r.charged ∨ 5 ≤ (s.seq u).stage → ∀ ctx byp, Answers (.leaseRequest u ctx byp) s (fun t => t = s)) ∧
    (s.run u = some r → (∀ e, e ∈ tabGet [] s.ended u → e.job.nCtu ≤ e.charged) → r.sent ≤ r.charged ∨ s.bowServes u r.job.dl = false →
      ∀ bits, Answers (.ctuCharge u r.charged bits) s (fun t => t = s)) ∧
    (s.run u = some r → (∀ e, e ∈ tabGet [] s.ended u → e.job.nCtu ≤ e.charged) → r.charged < r.sent → s.bowServes u r.job.dl = true →
      s.inTurn 0 r.job.stream u = true → ∀ bits n, n = r.job.stream → ∀ fc, fc = (s.strm n).p.floorCost p.record r.job.reg r.charged →
      (∀ l, r.leases.find? (fun l => l.1 == r.charged) = some l → Answers (.ctuCharge u r.charged bits) s (fun t =>
        (t.run u).map (fun q => (q.charged, q.bits)) = some (r.charged + 1, r.bits + max (min bits l.2.1) fc) ∧
        (t.pic n r.job.pic).map (fun q => (q.spent, q.lease, q.reserve)) =
          some (p.spent + max (min bits l.2.1) fc, p.lease - l.2.1, p.reserve) ∧ (t.seq u).bowq = (s.seq u).bowq.tail ∧
        t = { s with regs := t.regs, streams := t.streams, runs := t.runs, seqs := t.seqs, turns := t.turns })) ∧
      (r.leases.find? (fun l => l.1 == r.charged) = none → Answers (.ctuCharge u r.charged bits) s (fun t =>
        (t.run u).map (fun q => (q.charged, q.bits)) = some (r.charged + 1, r.bits + fc) ∧
        (t.pic n r.job.pic).map (fun q => (q.spent, q.lease, q.reserve)) = some (p.spent + fc, p.lease, p.reserve - fc) ∧
        t = { s with regs := t.regs, streams := t.streams, runs := t.runs, seqs := t.seqs, turns := t.turns })))

/-- O25. The Rack (R206, R208, R213, R214): the first waiting picture takes the lowest free slot, with CODING and, for a coded picture,
REF_SHORT; a slot whose retirement waits retires once its six marks are clear, and leaves its shelf one smaller; a refill adds
unassigned slots and where the shelf stays below N_MIN lowers NREF to 1 and shows SHORT. HOLD and RELEASE (R209-R211, R345): a hold
within SPARE marks the slot of its picture and counts, and completes with the slot's number, at once or when the picture's coding is
done; a release clears the mark. Each refusal completes with its status. -/
def Obligations.RackWork : Prop :=
  (∀ s : State,
    (∀ (n : Fin 128) p i, (s.strm n).pics.find? (fun p => p.waiting) = some p → s.freeSlot n = some i →
      Answers (.rackSlotTake n) s (fun t => t.get (R.SLOTs_MARK_CODING i) = 1 ∧ t.slotPicOf i = some p.n ∧
        ((s.strm n).p.typ ≠ 1 → t.get (R.SLOTs_MARK_REF_SHORT i) = 1) ∧
        (t.pic n p.n).map (fun q => (q.waiting, q.record.wslot)) = some (false, i) ∧
        tabGet {} t.slotC i = { w := (s.strm n).p.w, h := (s.strm n).p.h, chroma := (s.strm n).p.chroma, bits10 := (s.strm n).p.bits10,
                                seed := s.freeCtr } ∧
        t = { s with regs := t.regs, freeCtr := t.freeCtr, freed := t.freed, streams := t.streams, crews := t.crews, scache := t.scache,
                     slotPic := t.slotPic, slotNref := t.slotNref, slotC := t.slotC, mem := t.mem, injRecs := t.injRecs })) ∧
    (∀ n : Fin 128, (s.strm n).pics.find? (fun p => p.waiting) = none ∨ s.freeSlot n = none →
      Answers (.rackSlotTake n) s (fun t => t = s)) ∧
    (∀ i : Fin 4096, i.val ∈ s.retPend → s.get ⟨A.SLOTs_MARK i, 0, 6⟩ = 0 →
      Answers (.slotRetire i) s (fun t => t.get (R.SLOTs_MARK_RETIRED i) = 1 ∧ t.get (R.SLOTs_MARK_SHELVED i) = 0 ∧ i.val ∉ t.retPend ∧
        t.get R.RACK_STAT_RETIRED = min (s.get R.RACK_STAT_RETIRED + 1) (2 ^ R.RACK_STAT_RETIRED.w - 1) ∧
        (s.get (R.SLOTs_MARK_SHELVED i) = 1 → ∀ n, n = s.get (R.SLOTs_MARK_STREAM i) →
          t.get (R.SHLFn_CFG_N n) = s.get (R.SHLFn_CFG_N n) - 1) ∧
        t = { s with regs := t.regs, held := t.held, heldWait := t.heldWait, retPend := t.retPend })) ∧
    (∀ i : Fin 4096, i.val ∉ s.retPend ∨ s.get ⟨A.SLOTs_MARK i, 0, 6⟩ ≠ 0 → Answers (.slotRetire i) s (fun t => t = s)) ∧
    (∀ (n : Fin 128) (slots : List (Fin 4096)), ∀ full, full = (if (s.strm n).p.shelfN = 0 then s.get (R.SHLFn_CFG_NMIN n)
        else (s.strm n).p.shelfN) → s.get (R.STRMn_STATE_STATE n) ≠ 0 → s.get (R.SHLFn_CFG_N n) < full →
      ∀ add, add = (((slots.map Fin.val ++ List.range s.maxSlots).filter (fun i => s.unassigned i)).eraseDups).take
        (min (full - s.get (R.SHLFn_CFG_N n)) (s.cellarFits (s.get (R.SHLFn_SLOTSZ_UNITS n)))) →
      Answers (.shelfRefill n slots) s (fun t =>
        t.get (R.SHLFn_CFG_N n) = (s.get (R.SHLFn_CFG_N n) + add.length) % 2 ^ (R.SHLFn_CFG_N n).w ∧
        (∀ i, i ∈ add → t.get (R.SLOTs_MARK_SHELVED i) = 1 ∧ t.get (R.SLOTs_MARK_STREAM i) = n) ∧
        (s.get (R.SHLFn_CFG_N n) + add.length < s.get (R.SHLFn_CFG_NMIN n) → t.get (R.SHLFn_STAT_SHORT n) = 1 ∧
          (s.get (R.SHLFn_STAT_SHORT n) = 0 → (t.strm n).nref = 1)) ∧
        (s.get (R.SHLFn_CFG_NMIN n) ≤ s.get (R.SHLFn_CFG_N n) + add.length → t.get (R.SHLFn_STAT_SHORT n) = 0 ∧ t.strm n = s.strm n) ∧
        t = { s with regs := t.regs, hot := t.hot, freeCtr := t.freeCtr, gath := t.gath, streams := t.streams, slotSz := t.slotSz })) ∧
    (∀ (n : Fin 128) (slots : List (Fin 4096)), s.get (R.STRMn_STATE_STATE n) = 0 → Answers (.shelfRefill n slots) s (fun t => t = s))) ∧
  (∀ (s : State) (c : Cmd), dSub c.desc = 0 →
    (s.accepts c 0x08 1 none → dClean c.desc [(16, 0, 64)] = true → ∀ n, n = dIdx c.desc → ∀ pic, pic = dget c.desc 16 0 64 →
      (s.get (R.STRMn_STATE_TYPE n) = 2 → Answers (.hold c) s (fun t => s.completes t c St.wrongType 0 ∧ s.onlyRings t)) ∧
      (s.get (R.STRMn_STATE_TYPE n) ≠ 2 → s.get (R.SHLFn_HOLD_SPARE n) ≤ s.holdCount n →
        Answers (.hold c) s (fun t => s.completes t c St.shelfFull 0 ∧ s.onlyRings t)) ∧
      (s.get (R.STRMn_STATE_TYPE n) ≠ 2 → s.holdCount n < s.get (R.SHLFn_HOLD_SPARE n) →
        ((s.strm n).nextPic ≤ pic → Answers (.hold c) s (fun t => s.completes t c St.picGone 0 ∧ s.onlyRings t)) ∧
        (pic < (s.strm n).nextPic → (s.strm n).pics.any (fun p => p.n = pic ∧ p.waiting) = true →
          Answers (.hold c) s (fun t => t.owed = s.owed ++ [{ s.owedOf c with wait := .hold n pic }] ∧ s.onlyRings t)) ∧
        (∀ i, pic < (s.strm n).nextPic → (s.strm n).pics.any (fun p => p.n = pic ∧ p.waiting) = false →
          (s.shelf n).find? (fun i => s.slotPicOf i == some pic &&
            (decide (s.get ⟨A.SLOTs_MARK i, 0, 6⟩ ≠ 0) || decide (i ∈ s.freed))) = some i →
          Answers (.hold c) s (fun t => t.get (R.SLOTs_MARK_HOST_HOLD i) = 1 ∧ i ∉ t.freed ∧
            t.get (R.SHLFn_HOLD_HOLDS n) = ((t.shelf n).filter (fun j => t.flag (R.SLOTs_MARK_HOST_HOLD j))).length % 2 ^ (R.SHLFn_HOLD_HOLDS n).w ∧
            (s.get (R.SLOTs_MARK_CODING i) = 1 → t.owed = s.owed ++ [{ s.owedOf c with wait := .hold n pic }]) ∧
            (s.get (R.SLOTs_MARK_CODING i) = 0 → s.completes t c St.ok i) ∧ ({ s with freed := t.freed } : State).onlyRings t)))) ∧
    (s.accepts c 0x09 0 none → dClean c.desc [(16, 0, 16)] = true → ∀ i, i = dget c.desc 16 0 16 → i < 4096 →
      (s.get (R.SLOTs_MARK_HOST_HOLD i) = 0 → Answers (.release c) s (fun t => s.completes t c St.notHeld 0 ∧ s.onlyRings t)) ∧
      (s.get (R.SLOTs_MARK_HOST_HOLD i) = 1 → s.get (R.SLOTs_MARK_SHELVED i) = 1 → (∀ o, o ∈ s.owed → ∀ m q, o.wait ≠ .hold m q) →
        Answers (.release c) s (fun t => s.completes t c St.ok 0 ∧ t.get (R.SLOTs_MARK_HOST_HOLD i) = 0 ∧
          (∀ n, n = s.get (R.SLOTs_MARK_STREAM i) → t.get (R.SHLFn_HOLD_HOLDS n) =
            ((t.shelf n).filter (fun j => t.flag (R.SLOTs_MARK_HOST_HOLD j))).length % 2 ^ (R.SHLFn_HOLD_HOLDS n).w) ∧
          ({ s with freed := t.freed } : State).onlyRings t)) ∧
      (s.get (R.SLOTs_MARK_HOST_HOLD i) = 1 → s.get (R.SLOTs_MARK_SHELVED i) = 0 →
        Answers (.release c) s (fun t => s.completes t c St.ok 0 ∧ t.get (R.SLOTs_MARK_HOST_HOLD i) = 0 ∧
          t = { s with regs := t.regs, rings := t.rings, fetched := t.fetched, turn := t.turn, slotPic := t.slotPic, slotSz := t.slotSz,
                       slotNref := t.slotNref, slotC := t.slotC, scache := t.scache }))))

/-- O26. The input of a decode stream (R222, R223, R226, R228, R229): a job in hand enters its queue at its window and not before; at its input
cut a job whose input has not come is declared lost; the Bow ahead of a job takes what it has decoded out of staging. -/
def Obligations.DecodeInput : Prop :=
  ∀ (s : State) (n : Fin 128),
    (∀ pic row reg, s.decJob n pic row reg = true →
      (s.reached (s.rowInst (s.strm n).p (s.strokeOf n pic) row 0) = true → ((s.headNow n pic).strm n).complete pic = false →
        Answers (.decodeJobRelease n pic row reg) s (fun t => (pic, row, reg) ∈ (t.strm n).enq ∧
          t = { s with regs := t.regs, freeCtr := t.freeCtr, held := t.held, heldWait := t.heldWait, rings := t.rings,
                       streams := t.streams, freed := t.freed, crews := t.crews, slotC := t.slotC })) ∧
      (s.reached (s.rowInst (s.strm n).p (s.strokeOf n pic) row 0) = false →
        Answers (.decodeJobRelease n pic row reg) s (fun t => t = s))) ∧
    (∀ pic row reg, s.decJob n pic row reg = true → (pic, row, reg) ∉ (s.strm n).dec.cut → (s.strm n).nextPic ≤ pic + 64 →
      s.reached (s.cutInst (s.strm n).p (s.strokeOf n pic) ((s.picP n pic).lastBand row reg)) = true →
      (∀ p, s.pic n pic = some p → p.headDone = true) →
      Answers (.decodeInputCut n pic row reg) s (fun t => (pic, row, reg) ∈ (t.strm n).dec.cut ∧
        ((pic, row, reg) ∉ (s.strm n).dec.inputs → (pic, row, reg) ∉ (s.strm n).dec.syn → s.jobDone n pic row reg = false →
          (pic, row, reg) ∈ (t.strm n).dec.lost) ∧
        t = { s with regs := t.regs, freeCtr := t.freeCtr, held := t.held, heldWait := t.heldWait, rings := t.rings, outbox := t.outbox,
                     streams := t.streams, egr := t.egr })) ∧
    (∀ pic row reg, (pic, row, reg) ∈ (s.strm n).dec.cut → Answers (.decodeInputCut n pic row reg) s (fun t => t = s)) ∧
    (∀ bytes bins recs jobs, (s.strm n).p.typ = 1 → s.get (R.STRMn_DCTL_AHEAD n) = 1 → 2 ≤ s.get (R.STRMn_STATE_STATE n) →
      s.aheadTurn n = true → bytes ≤ (s.strm n).dec.staged → (s.strm n).dec.synUsed + recs ≤ (s.strm n).dec.synStage →
      jobs = (s.aheadNext n).take jobs.length → (∀ k, k ∈ jobs → k ∈ (s.strm n).dec.inputs) →
      Answers (.bowAheadDecode n bytes (bins, recs) jobs) s (fun t => (t.strm n).dec.staged = (s.strm n).dec.staged - bytes ∧
        (t.strm n).dec.synUsed = (s.strm n).dec.synUsed + recs ∧ (t.strm n).dec.syn = jobs ++ (s.strm n).dec.syn ∧
        t = { s with streams := t.streams })) ∧
    (∀ bytes bins recs jobs, s.get (R.STRMn_DCTL_AHEAD n) = 0 ∨ (s.strm n).dec.staged < bytes ∨
        (s.strm n).dec.synStage < (s.strm n).dec.synUsed + recs ∨ jobs ≠ (s.aheadNext n).take jobs.length →
      Answers (.bowAheadDecode n bytes (bins, recs) jobs) s (fun t => t = s))

/-- O27. The rows of the sequencer (R250, R254-R256): where the word at the micro-PC executes to its end, CONT goes to the next word, GOTO to its
target, CASE to its target with the conditions added, CALL pushes the next word's address, RET pops it, and LOOP counts down and goes
back until its counter is zero. A row whose NXT is another's is not this word's, and changes nothing. The rows that move a job on (R254,
R256, R258, R263, R265): CTU goes to the entry of the CTU's level and counts the CTU; ENDJ ends the job, which waits for its completion;
ABORT puts it back into its queue; MRET restores what a trap saved and returns; IDLE stops the sequencer. -/
def Obligations.Microwords : Prop :=
  (∀ (s : State) (u : Fin 144) (c : UCond) (w : Nat), s.executes u w c → ∀ nx, nx = ((s.seq u).upc + 1) % 2 ^ 12 →
    (uNxt w = 0 → Answers (.uCont u c) s (fun t => (t.seq u).upc = nx ∧ (t.seq u).stack = (s.seq u).stack ∧ s.onlySequencer t u w)) ∧
    (uNxt w = 1 → Answers (.uGoto u c) s (fun t => (t.seq u).upc = uTgt w ∧ (t.seq u).stack = (s.seq u).stack ∧ s.onlySequencer t u w)) ∧
    (uNxt w = 2 → Answers (.uCase u c) s (fun t => (t.seq u).upc = uTgt w + s.uConds u w c.conds / 2 ^ uCsel w % 2 ^ uWays w ∧
      s.onlySequencer t u w)) ∧
    (uNxt w = 3 → Answers (.uCall u c) s (fun t => (t.seq u).upc = uTgt w ∧ (t.seq u).stack = nx :: (s.seq u).stack ∧
      t.get (R.USTAT_RSD u) = ((s.seq u).stack.length + 1) % 8 ∧ s.onlySequencer t u w)) ∧
    (∀ a l, uNxt w = 4 → (s.seq u).stack = a :: l → Answers (.uRet u c) s (fun t => (t.seq u).upc = a ∧ (t.seq u).stack = l ∧
      s.onlySequencer t u w)) ∧
    (uNxt w = 5 → (s.seq u).lc (uLoopSel w) = 0 → Answers (.uLoop u c) s (fun t => (t.seq u).upc = nx ∧ s.onlySequencer t u w)) ∧
    (uNxt w = 5 → (s.seq u).lc (uLoopSel w) ≠ 0 → Answers (.uLoop u c) s (fun t => (t.seq u).upc = uTgt w ∧
      (t.seq u).lc (uLoopSel w) = (s.seq u).lc (uLoopSel w) - 1 ∧ s.onlySequencer t u w)) ∧
    (uNxt w ≠ 0 → uNxt w < 11 → Answers (.uCont u c) s (fun t => t = s)) ∧ (uNxt w ≠ 1 → uNxt w < 11 → Answers (.uGoto u c) s (fun t => t = s))) ∧
  (∀ (s : State) (u : Fin 144) (c : UCond) (w : Nat), s.executes u w c →
    (uNxt w = 6 → s.get (R.USTAT_RETRY u) = 0 → Answers (.uCtu u c) s (fun t => (t.seq u).upc = uTgt w + t.get (R.USTAT_EFF u) ∧
      (t.seq u).x = (if (s.seq u).ctus = 0 then 0 else (s.seq u).x + 1) ∧ (t.seq u).ctus = (s.seq u).ctus + 1 ∧
      t = { s with regs := t.regs, hot := t.hot, freeCtr := t.freeCtr, preempt := t.preempt, runs := t.runs, seqs := t.seqs, progs := t.progs,
                   scache := t.scache, slotC := t.slotC })) ∧
    (∀ r, uNxt w = 7 → s.run u = some r → Answers (.uEndj u c) s (fun t => t.run u = none ∧
      (tabGet [] t.ended u).map (fun e => e.job) = (tabGet [] s.ended u).map (fun e => e.job) ++ [r.job] ∧ (t.seq u).on = false ∧ t.get (R.USTAT_BUSY u) = 0 ∧
      t = { s with regs := t.regs, hot := t.hot, freeCtr := t.freeCtr, preempt := t.preempt, runs := t.runs, ended := t.ended, seqs := t.seqs,
                   progs := t.progs, scache := t.scache, slotC := t.slotC })) ∧
    (∀ r, uNxt w = 8 → s.run u = some r → Answers (.uAbort u c) s (fun t => t.run u = none ∧ (t.seq u).on = false ∧
      { r.job with again := true } ∈ (t.crew r.home).queue ++ (t.crew r.home).wait ∧
      t = { s with regs := t.regs, hot := t.hot, freeCtr := t.freeCtr, preempt := t.preempt, streams := t.streams, crews := t.crews, runs := t.runs,
                   seqs := t.seqs, progs := t.progs, scache := t.scache, slotC := t.slotC })) ∧
    (uNxt w = 9 → 2 < s.get (R.UTRAP_CAUSE_CAUSE u) → Answers (.uMret u c) s (fun t =>
      (t.seq u).upc = (if uTgt w = 0 then s.get (R.UTRAP_UPC_UPC u) else uTgt w) ∧ t.get (R.USTAT_INTRAP u) = 0 ∧
      (t.seq u).agu0 = s.get (R.UTRAP_AGU0_PTR u) ∧ (t.seq u).token = s.get (R.UTRAP_TOKEN_TOKEN u) ∧ s.onlySequencer t u w)) ∧
    (∀ r, uNxt w = 9 → s.get (R.UTRAP_CAUSE_CAUSE u) ≤ 2 → s.run u = some r → Answers (.uMret u c) s (fun t => t.run u = none ∧
      (t.seq u).on = false ∧
      t = { s with regs := t.regs, hot := t.hot, freeCtr := t.freeCtr, held := t.held, heldWait := t.heldWait, preempt := t.preempt,
                   streams := t.streams, crews := t.crews, runs := t.runs, ended := t.ended, seqs := t.seqs, progs := t.progs,
                   scache := t.scache, slotC := t.slotC })) ∧
    (uNxt w = 10 → Answers (.uIdle u c) s (fun t => (t.seq u).on = false ∧
      (t.run u).map (fun r => r.job) = (s.run u).map (fun r => r.job) ∧
      t = { s with regs := t.regs, hot := t.hot, freeCtr := t.freeCtr, runs := t.runs, seqs := t.seqs, progs := t.progs, scache := t.scache,
                   slotC := t.slotC })))

/-- O28. Traps (R259, R262-R268): a trap saves the counters, the pointers, the token and the micro-PC, and goes to the vector of its cause; a
word that has waited too long, and whose condition is not true now, raises cause 4, a preemption that finds a word waiting cause 5, a
first residue error, as the check of a CTU is final, cause 3; a second one on the same CTU retires the Scull. -/
def Obligations.Traps : Prop :=
  ∀ (s : State) (u : Fin 144) (q : SeqS), q = s.seq u →
    (q.on = true → q.raised ≠ 0 → q.raised < 8 → Answers (.trapEntry u) s (fun t => (t.seq u).upc = q.raised ∧ (t.seq u).raised = 0 ∧
      t.get (R.UTRAP_CAUSE_CAUSE u) = q.raised ∧ t.get (R.UTRAP_UPC_UPC u) = q.upc % 2 ^ 12 ∧ t.get (R.USTAT_INTRAP u) = 1 ∧
      t.get (R.UTRAP_LC01_LC0 u) = q.lc0 % 2 ^ 12 ∧ t.get (R.UTRAP_LC01_LC1 u) = q.lc1 % 2 ^ 12 ∧
      t.get (R.UTRAP_LC2_LC2 u) = q.lc2 % 2 ^ 12 ∧ t.get (R.UTRAP_AGU0_PTR u) = q.agu0 % 2 ^ 32 ∧
      t.get (R.UTRAP_AGU1_PTR u) = q.agu1 % 2 ^ 32 ∧ t.get (R.UTRAP_TOKEN_TOKEN u) = q.token % 2 ^ 32 ∧
      t = { s with regs := t.regs, seqs := t.seqs } ∧ (∀ v, v ≠ u.val → t.seq v = s.seq v) ∧
      s.regsBut t [A.UTRAP_CAUSE u, A.UTRAP_UPC u, A.UTRAP_LC01 u, A.UTRAP_LC2 u, A.UTRAP_CONDL u, A.UTRAP_CONDH u, A.UTRAP_AGU0 u,
        A.UTRAP_AGU1 u, A.UTRAP_TOKEN u, A.USTAT u])) ∧
    (q.on = false ∨ q.raised = 0 → Answers (.trapEntry u) s (fun t => t = s)) ∧
    (∀ b, q.on = true → q.wait = some b → s.get (R.UCTL_TMODE u) = 0 → s.get (R.UCTL_WTO u) * 1024 * 5 ≤ (s.lt - b) * 3 →
      ∀ w, w = (s.uFetch u q.upc).2.word →
      (q.stuck = false → natBit (s.uConds u w 0#64) (uWait w) = true → Answers (.ucWaitTo u) s (fun t => t = s)) ∧
      (q.stuck = true ∨ natBit (s.uConds u w 0#64) (uWait w) = false →
      s.get (R.USTAT_INTRAP u) = 0 → q.raised = 0 → Answers (.ucWaitTo u) s (fun t => (t.seq u).wait = none ∧ (t.seq u).raised = 4 ∧
        t = { s with regs := t.regs, held := t.held, heldWait := t.heldWait, seqs := t.seqs } ∧ s.regsBut t [A.TALLY_MERGED]))) ∧
    (q.wait = none → Answers (.ucWaitTo u) s (fun t => t = s)) ∧
    (∀ p r, tabGet none s.preempt u = some p → q.on = true → s.run u = some r → q.pre = none → s.get (R.USTAT_INTRAP u) = 0 →
      q.raised = 0 → Answers (.preemptArrive u) s (fun t => (t.seq u).pre = some p ∧ tabGet none t.preempt u = none ∧
        (t.seq u).raised = (if q.wait.isSome then 5 else 0) ∧ t = { s with preempt := t.preempt, seqs := t.seqs })) ∧
    (∀ p, tabGet none s.preempt u = some p → q.on = false → Answers (.preemptArrive u) s (fun t => tabGet none t.preempt u = none ∧
      t = { s with preempt := t.preempt })) ∧
    (tabGet none s.preempt u = none → Answers (.preemptArrive u) s (fun t => t = s)) ∧
    (∀ unit b, q.on = true → s.get R.CHK_INJ_CTL_ARM = 0 → q.res = some b → 16 * 5 ≤ (s.lt - b) * 3 →
      (s.get (R.USTAT_RES1 u) = 0 → s.get (R.USTAT_INTRAP u) = 0 → q.raised = 0 →
        Answers (.residueVerdict u true unit) s (fun t => t.get (R.USTAT_RES1 u) = 1 ∧ (t.seq u).raised = 3 ∧ (t.seq u).recs = 0 ∧
          t = { s with regs := t.regs, held := t.held, heldWait := t.heldWait, seqs := t.seqs } ∧
          s.regsBut t [A.USTAT u, A.TALLY_MERGED])) ∧
      (s.get (R.USTAT_RES1 u) = 1 → Answers (.residueVerdict u true unit) s (fun t => t.retired u = true ∧
        t = { s with regs := t.regs, held := t.held, heldWait := t.heldWait, preempt := t.preempt, streams := t.streams, crews := t.crews,
                     runs := t.runs, seqs := t.seqs, chkLeft := t.chkLeft })) ∧
      Answers (.residueVerdict u false unit) s (fun t => (t.seq u).res = none ∧ t = { s with seqs := t.seqs })) ∧
    (∀ real unit, q.on = false ∨ q.res = none → Answers (.residueVerdict u real unit) s (fun t => t = s))

/-- O29. A control store and its sequencer's registers (R271, R272, R275-R278, R281, R282): the store is open while RUN is 0, the sequencer is
stopped and no sum runs; the address and the read latch follow; a word is committed by its last part, and the address advances where
AUTOINC is 1; the repair of the bad word clears UCS_BAD; a sum ends with the CRC of the words as corrected. Starting and stopping a
sequencer (R130, R258, R261, R275, R278, R281): RUN written 1 sets it, written 0 clears it at once where no job or test runs, and at its
end otherwise; TMODE changes only while the sequencer is stopped with RUN 0; a sum starts where the store is open; USTART starts a test
at an address; a spare with RUN set starts its self-test. -/
def Obligations.SequencerRegisters : Prop :=
  (∀ (s : State) (w : Who) (u : Fin 144) (d : Word),
    (s.gate w (A.UCS_ADDR u) d = true →
      (s.ucsOpen u = true → Answers (.ucsAddrWrite w u d) s (fun t => s.takes t (A.UCS_ADDR u) d ∧
        t = { s with regs := t.regs, held := t.held, heldWait := t.heldWait, retPend := t.retPend, badRows := t.badRows, lost := t.lost,
                     celCe := t.celCe, stackTab := t.stackTab })) ∧
      (s.ucsOpen u = false → Answers (.ucsAddrWrite w u d) s (fun t => s.onlyReports t ∧ s.regsBut t [A.TALLY_MERGED]))) ∧
    (s.gate w (A.UCS_DATA4 u) d = true →
      (s.ucsOpen u = true → Answers (.ucsData4Write w u d) s (fun t =>
        t.get (R.UCS_ADDR_ADDR u) = (s.get (R.UCS_ADDR_ADDR u) + s.get (R.UCS_ADDR_AUTOINC u)) % 2 ^ 12 ∧
        (s.get (R.ECC_FLIPf_CTL_ARM 4) = 0 → ((t.gran 4 (u * 2 ^ 12 + s.get (R.UCS_ADDR_ADDR u)))[0]?).map (fun e => e.1) =
          some ((s.seq u).stg.toNat % 2 ^ 128 + wordGet d 0 16 * 2 ^ 128)) ∧
        (s.get (R.UCS_BADADDR_ADDR u) = s.get (R.UCS_ADDR_ADDR u) → t.get (R.USTAT_UCS_BAD u) = 0) ∧
        t = { s with regs := t.regs, seqs := t.seqs, mem := t.mem, injRecs := t.injRecs })) ∧
      (s.ucsOpen u = false → Answers (.ucsData4Write w u d) s (fun t => s.onlyReports t ∧ s.regsBut t [A.TALLY_MERGED]))) ∧
    (s.absent (A.UCS_DATA4 u) = false → s.domainOn (A.UCS_DATA4 u) = true →
      (s.ucsOpen u = true → Answers (.ucsData4Read w u) s (fun t =>
        t.get (R.UCS_ADDR_ADDR u) = (s.get (R.UCS_ADDR_ADDR u) + s.get (R.UCS_ADDR_AUTOINC u)) % 2 ^ 12 ∧
        t.outbox = s.outbox ++ [.value w (A.UCS_DATA4 u) (s.reg (A.UCS_DATA4 u))] ∧
        (s.get (R.UCS_ADDR_AUTOINC u) = 0 → t = { s with outbox := t.outbox }))) ∧
      (s.ucsOpen u = false → Answers (.ucsData4Read w u) s (fun t => t = { s with outbox := s.outbox ++ [.value w (A.UCS_DATA4 u) 0] }))) ∧
    (∀ a : BitVec 12, ∀ g, g = ((s.gran 4 (u * 2 ^ 12 + a.toNat))[0]?).getD (0, 0) →
      ∀ y, y = syndOf 4 (syndrome 4 (u * 2 ^ 12 + a.toNat) 0 g) →
      (y.fixed = true → Answers (.ucsCeWriteback u a) s (fun t =>
        t.gran 4 (u * 2 ^ 12 + a.toNat) = [(y.fix g.1, keelCheck 4 (u * 2 ^ 12 + a.toNat) 0 (y.fix g.1))] ∧
        t = { s with regs := t.regs, mem := t.mem, injRecs := t.injRecs })) ∧
      (y.fixed = false → Answers (.ucsCeWriteback u a) s (fun t => t = s))) ∧
    (s.get (R.USTAT_UCS_BAD u) = 1 → s.expert 9 = false → Answers (.ucsWordRepair u) s (fun t => t.get (R.USTAT_UCS_BAD u) = 0 ∧
      t = { s with regs := t.regs, mem := t.mem, injRecs := t.injRecs })) ∧
    (s.get (R.USTAT_UCS_BAD u) = 0 ∨ s.expert 9 = true → Answers (.ucsWordRepair u) s (fun t => t = s)) ∧
    (s.get (R.USTAT_SUM_BUSY u) = 1 → Answers (.sumDone u) s (fun t => t.get (R.USTAT_SUM_BUSY u) = 0 ∧
      t.get (R.UCS_SUM_CRC u) = crc32 ((List.range (2 ^ 12)).flatMap (fun a => leBytes 18 (s.uFetch u a).2.word)) ∧
      t = { s with regs := t.regs, held := t.held, heldWait := t.heldWait, preempt := t.preempt, streams := t.streams, crews := t.crews,
                   runs := t.runs, seqs := t.seqs })) ∧
    (s.get (R.USTAT_SUM_BUSY u) = 0 → Answers (.sumDone u) s (fun t => t = s))) ∧
  (∀ (s : State) (w : Who) (u : Fin 144) (d : Word),
    (s.gate w (A.UCTL u) d = true → wordGet d 1 1 = s.get (R.UCTL_TMODE u) → wordGet d 2 1 = 0 →
      Answers (.runWrite w u d) s (fun t => t.get (R.UCTL_WTO u) = wordGet d 16 16 ∧
        (wordGet d 0 1 = 1 → t.get (R.UCTL_RUN u) = 1) ∧
        (wordGet d 0 1 = 0 → s.get (R.USTAT_BUSY u) = 0 → t.get (R.UCTL_RUN u) = 0) ∧
        (wordGet d 0 1 = 0 → s.get (R.USTAT_BUSY u) = 1 → t.get (R.UCTL_RUN u) = s.get (R.UCTL_RUN u) ∧ (t.seq u).runOff = true) ∧
        t = { s with regs := t.regs, seqs := t.seqs } ∧ s.regsBut t [A.UCTL u])) ∧
    (s.gate w (A.UCTL u) d = true → wordGet d 1 1 ≠ s.get (R.UCTL_TMODE u) → wordGet d 2 1 = 0 →
      Answers (.tmodeWrite w u d) s (fun t =>
        (s.get (R.UCTL_RUN u) = 0 → s.get (R.USTAT_BUSY u) = 0 → t.get (R.UCTL_TMODE u) = wordGet d 1 1) ∧
        (s.get (R.UCTL_RUN u) = 1 ∨ s.get (R.USTAT_BUSY u) = 1 → t.get (R.UCTL_TMODE u) = s.get (R.UCTL_TMODE u)) ∧
        t = { s with regs := t.regs, seqs := t.seqs, held := t.held, heldWait := t.heldWait } ∧
        s.regsBut t [A.UCTL u, A.TALLY_MERGED])) ∧
    (s.gate w (A.UCTL u) d = true → wordGet d 2 1 = 1 → Answers (.sumGo w u d) s (fun t =>
      (s.ucsOpen u = true → t.get (R.USTAT_SUM_BUSY u) = 1) ∧
      (s.ucsOpen u = false → t.get (R.USTAT_SUM_BUSY u) = s.get (R.USTAT_SUM_BUSY u)) ∧
      t = { s with regs := t.regs, seqs := t.seqs, held := t.held, heldWait := t.heldWait } ∧
      s.regsBut t [A.UCTL u, A.USTAT u, A.TALLY_MERGED])) ∧
    (wordGet d 2 1 = 0 → Answers (.sumGo w u d) s (fun t => t = s)) ∧
    (s.gate w (A.USTART u) d = true → wordGet d 31 1 = 1 →
      (s.get (R.UCTL_RUN u) = 0 → s.get (R.USTAT_BUSY u) = 0 → Answers (.ustartGo w u d) s (fun t => (t.seq u).on = true ∧
        (t.seq u).test = true ∧ (t.seq u).upc = wordGet d 0 12 ∧ t.get (R.USTAT_BUSY u) = 1 ∧
        t = { s with regs := t.regs, seqs := t.seqs } ∧ s.regsBut t [A.USTART u, A.USTAT u])) ∧
      (s.get (R.UCTL_RUN u) = 1 ∨ s.get (R.USTAT_BUSY u) = 1 →
        Answers (.ustartGo w u d) s (fun t => s.onlyReports t ∧ s.regsBut t [A.TALLY_MERGED]))) ∧
    (s.crewPresent (u / 36) = true → s.sculState u = 1 → s.get (R.UCTL_RUN u) = 1 → (s.seq u).on = false → s.run u = none →
      Answers (.selfTestStart u) s (fun t => (t.seq u).upc = 0x00E ∧ (t.seq u).on = true ∧ (t.seq u).test = true ∧
        t.get (R.USTAT_BUSY u) = 1 ∧ t = { s with regs := t.regs, seqs := t.seqs } ∧ s.regsBut t [A.USTAT u])) ∧
    (s.sculState u ≠ 1 ∨ s.get (R.UCTL_RUN u) = 0 ∨ (s.seq u).on = true → Answers (.selfTestStart u) s (fun t => t = s)))

/-- O30. What a control port makes of a Clexia frame before its request is checked (R287-R291): a frame that it does not accept is dropped in
silence; a wrong tag and a sequence behind the last accepted are counted and not answered; the last accepted sequence again brings the
stored response; an accepted request of another version is answered BAD_OPC and has no other effect. The register operations, the
doorbell and the small operations of Clexia (R293-R296, R315): READ answers with the registers from its address upward, WRITE and
BLOCK_WRITE make their management writes in order, DOORBELL gives its doorbell to the engine, WAKE is a wake source, RESET_REQ makes the
reset due, PING answers with the device ID, its state and the payload. -/
def Obligations.ClexiaRequests : Prop :=
  (∀ (s : State) (r : ClxReq) (i : Instr) (o : Nat),
    (i, o) ∈ [(Instr.clxRead r, 0x01), (.clxWrite r, 0x02), (.clxBlockWrite r, 0x03), (.fwPush r, 0x10), (.clxDoorbell r, 0x20),
      (.clxWake r, 0x30), (.resetReq r, 0x31), (.clxPing r, 0x3F)] → r.opc.toNat = o →
    (o = 0x20 → s.inTurn 2 0 (dbTurn r.port true) = true) →
    (s.clxRes r = .dropped → Answers i s (fun t => t = s)) ∧
    (s.clxRes r = .badTag → Answers i s (fun t =>
      t.get R.HOST_AUTHFAIL_COUNT = min (s.get R.HOST_AUTHFAIL_COUNT + 1) (2 ^ 32 - 1) ∧ s.onlyReports t ∧
      s.regsBut t [A.HOST_AUTHFAIL, A.TALLY_MERGED])) ∧
    (s.clxRes r = .behind → Answers i s (fun t =>
      t.get R.HOST_SEQERR_COUNT = min (s.get R.HOST_SEQERR_COUNT + 1) (2 ^ 32 - 1) ∧ s.onlyRegs t ∧ s.regsBut t [A.HOST_SEQERR])) ∧
    (∀ x, s.clxRes r = .again → (s.cp r.port).resp = some x → Answers i s (fun t => t = { s with outbox := s.outbox ++
      [.clexia r.port r.path x.opc x.seq x.payload
        (if s.clxOpen then 0 else clexiaTag (clxHead 1 x.opc x.payload.length x.seq ++ x.payload))] })) ∧
    (s.clxRes r = .accepted → r.ver ≠ 1 → Answers i s (fun t => t.get (seqRF r.port) = r.seq.toNat ∧ t.get (initRF r.port) = 1 ∧
      (s.clxTaken r).clxAnswers t r.port (clxResp r ClxSt.badOpc [])))) ∧
  (∀ (s : State) (r : ClxReq), s.clxRes r = .accepted → r.ver = 1 → ∀ b, b = r.body.take r.len.toNat →
    ∀ s1, s1 = s.clxTaken r →
    (r.opc = 0x01 → b.length = 8 → 1 ≤ pBe b 4 2 → pBe b 4 2 ≤ 256 → pBe b 0 4 % 4 = 0 → pBe b 6 2 = 0 →
      ∀ v, v = s1.clxReads (.host r.port) (pBe b 0 4) (pBe b 4 2) →
      Answers (.clxRead r) s (fun t => v.1.clxAnswers t r.port (clxResp r ClxSt.ok v.2))) ∧
    (r.opc = 0x01 → b.length = 8 → 1 ≤ pBe b 4 2 → pBe b 4 2 ≤ 256 → pBe b 0 4 % 4 ≠ 0 →
      Answers (.clxRead r) s (fun t => s1.clxAnswers t r.port (clxResp r ClxSt.badAlign []))) ∧
    (r.opc = 0x02 → b.length = 8 → pBe b 0 4 % 4 = 0 → s1.clxReady = true →
      Answers (.clxWrite r) s (fun t => (s1.mgmtWrite (.host r.port) (pBe b 0 4) (BitVec.ofNat 32 (pBe b 4 4))).clxAnswers t r.port
        (clxResp r ClxSt.ok []))) ∧
    (r.opc = 0x02 → b.length = 8 → pBe b 0 4 % 4 = 0 → s1.clxReady = false →
      Answers (.clxWrite r) s (fun t => s1.clxAnswers t r.port (clxResp r ClxSt.notReady []))) ∧
    (r.opc = 0x03 → 8 ≤ b.length → b.length = 8 + 4 * pBe b 4 2 → 1 ≤ pBe b 4 2 → pBe b 4 2 ≤ 256 → pBe b 0 4 % 4 = 0 →
      pBe b 6 2 = 0 → s1.clxReady = true → Answers (.clxBlockWrite r) s (fun t =>
        ((List.range (pBe b 4 2)).foldl (fun s i => s.mgmtWrite (.host r.port) ((pBe b 0 4 + 4 * i) % 2 ^ 32)
          (BitVec.ofNat 32 (pBe b (8 + 4 * i) 4))) s1).clxAnswers t r.port (clxResp r ClxSt.ok []))) ∧
    (∀ k, k = dbTurn r.port true → ∀ s2, s2 = s1.turn_ 2 0 k → r.opc = 0x20 → s.inTurn 2 0 k = true → b.length = 8 → s1.clxReady = true →
      Answers (.clxDoorbell r) s (fun t => (s2.doorbellBytes b).1.clxAnswers t r.port
        (clxResp r (if (s2.doorbellBytes b).2 then ClxSt.ok else ClxSt.dbDiscard) []))) ∧
    (s.inTurn 2 0 (dbTurn r.port true) = false → Answers (.clxDoorbell r) s (fun t => t = s)) ∧
    (r.opc = 0x30 → b.length = 0 → s1.clxReady = true → Answers (.clxWake r) s (fun t =>
      (s1.wakeSource 0).clxAnswers t r.port (clxResp r ClxSt.ok []))) ∧
    (r.opc = 0x31 → b.length = 4 → pBe b 0 4 = 1 → Answers (.resetReq r) s (fun t => t.resetReq = some (s.resetReq.getD s.cyc) ∧
      ({ s1 with resetReq := t.resetReq } : State).clxAnswers t r.port (clxResp r ClxSt.ok []))) ∧
    (r.opc = 0x3F → b.length ≤ 64 → Answers (.clxPing r) s (fun t => s1.clxAnswers t r.port
      (clxResp r ClxSt.ok (beBytes 4 s1.devId.toNat ++ beBytes 4 (s1.get R.DEV_HEALTH_DSTATE) ++ b)))) ∧
    (r.opc = 0x3F → 64 < b.length → Answers (.clxPing r) s (fun t => s1.clxAnswers t r.port (clxResp r ClxSt.badLen []))))

/-- O31. The push of firmware (R297, R298, R599): a chunk in order is kept, and the last is answered with its verification; a verified image
makes its bank valid and starts a swap, or the boot; one that does not verify leaves its bank invalid and starts nothing. -/
def Obligations.FirmwarePush : Prop :=
  ∀ s : State,
    (∀ r : ClxReq, s.clxRes r = .accepted → r.ver = 1 → r.opc = 0x10 → ∀ b, b = r.body.take r.len.toNat →
      ∀ s1, s1 = s.clxTaken r → 12 ≤ b.length → b.length ≤ 1436 → b.length % 4 = 0 → ∀ off, off = pBe b 0 4 → ∀ tot, tot = pBe b 4 4 →
      (pBe b 8 4 < 2 → s1.pushBusy = true → Answers (.fwPush r) s (fun t => s1.clxAnswers t r.port (clxResp r ClxSt.fwBusy []))) ∧
      (s1.pushBusy = false → tot ≤ 4194304 → tot % 4 = 0 → s1.pushOrder off tot (b.length - 12) false = true → pBe b 8 4 = 0 →
        Answers (.fwPush r) s (fun t => (t.cp r.port).resp = some (clxResp r ClxSt.ok []) ∧
          t.push.map (fun q => q.bytes) = some ((if off = 0 then [] else (s.push.map (fun q => q.bytes)).getD []) ++ b.drop 12) ∧
          t = { s with regs := t.regs, cps := t.cps, push := t.push, outbox := t.outbox })) ∧
      (s1.pushBusy = false → tot ≤ 4194304 → tot % 4 = 0 → s1.pushOrder off tot (b.length - 12) true = true → pBe b 8 4 = 1 →
        Answers (.fwPush r) s (fun t => (t.cp r.port).resp = none ∧ t.outbox = s.outbox ∧
          t.push.map (fun q => q.last.isSome) = some true ∧
          t = { s with regs := t.regs, cps := t.cps, push := t.push }))) ∧
    (∀ q p x, s.push = some q → q.last = some (p, x) → Answers .fwVerifyDone s (fun t => t.push = none ∧
      t.get R.HOST_STAT_PUSH_ACT = 0 ∧ (if q.bank = 0 then t.bank0 = q.bytes ∧ t.bank1 = s.bank1 else t.bank1 = q.bytes ∧ t.bank0 = s.bank0) ∧
      (imageGood q.bytes = true → s.get R.DEV_HEALTH_DSTATE = 0 → t.get R.DEV_HEALTH_DSTATE = 1 ∧ t.swap = s.swap) ∧
      (imageGood q.bytes = true → s.get R.DEV_HEALTH_DSTATE ≠ 0 → t.get R.CLKPWR_SWAP_BUSY = 1 ∧
        t.swap.map (fun w => w.bank) = some q.bank) ∧
      (imageGood q.bytes = false → t.swap = s.swap ∧ t.get R.DEV_HEALTH_DSTATE = s.get R.DEV_HEALTH_DSTATE) ∧
      t = { s with regs := t.regs, cps := t.cps, push := t.push, bank0 := t.bank0, bank1 := t.bank1, swap := t.swap,
                   outbox := t.outbox })) ∧
    (s.push = none → Answers .fwVerifyDone s (fun t => t = s))

/-- O32. Queue pairs (R299-R302): EN written 1 to one that is off connects it, with the packet sequence numbers of its registers; written 0 it
disconnects; a second connect is refused. A time-out of an outstanding access retransmits while retries are left and then ends in ERROR
with cause 1, as a NAK for a sequence error does, and any other NAK ends in ERROR with its own cause. A packet in order moves the
expected number on, one already seen is acknowledged again, and one ahead is refused; a WRITE out of the doorbell engine's turn is not
made (R314). Congestion (R286, R302): with ECN_EN a CNP lowers the rate of its queue pair, to no less than the least, and a rate timer
raises it, to no more than the line's; a PFC frame of the RoCEv2 priority pauses its port, and what the port's queue pairs send then
waits until one resumes it. How far the rate moves is the model's choice, in the log. -/
def Obligations.QueuePairs : Prop :=
  (∀ (s : State) (q : Fin 64),
    (∀ (w : Who) (d : Word), s.gate w (A.QPq_CTL q) d = true →
      (s.get (R.QPq_CTL_EN q) = 0 → wordGet d 0 1 = 1 → Answers (.qpCtlWrite w q d) s (fun t => t.get (R.QPq_STAT_STATE q) = 1 ∧
        t.get (R.QPq_STAT_CAUSE q) = 0 ∧ s.takes t (A.QPq_CTL q) d ∧
        t.qp q = { psnS := s.get (R.QPq_SPSN_VALUE q), psnE := s.get (R.QPq_EPSN_VALUE q), ackAt := s.cyc, rateAt := s.cyc } ∧
        t = { s with regs := t.regs, qps := t.qps } ∧ s.regsBut t [A.QPq_CTL q, A.QPq_STAT q])) ∧
      (s.get (R.QPq_CTL_EN q) = 1 → wordGet d 0 1 = 1 → Answers (.qpCtlWrite w q d) s (fun t => s.onlyReports t ∧
        s.regsBut t [A.TALLY_MERGED])) ∧
      (s.get (R.QPq_CTL_EN q) = 1 → wordGet d 0 1 = 0 → Answers (.qpCtlWrite w q d) s (fun t => t.get (R.QPq_STAT_STATE q) = 0 ∧
        t.qp q = {} ∧ t = { s with regs := t.regs, rings := t.rings, qps := t.qps, hchs := t.hchs, held := t.held,
                                   heldWait := t.heldWait }))) ∧
    (∀ due, due = (s.qpSince q).any (fun a => decide (max a (s.qp q).ackAt + 2048 * 2 ^ s.get (R.QPq_CTL_TIMEOUT q) ≤ s.cyc)) →
      (s.rts q = true → due = true → (s.qp q).tries < s.get (R.QPq_CTL_RETRY q) → s.qpPaused q = false →
        Answers (.qpAckTimeout q) s (fun t => (t.qp q).tries = (s.qp q).tries + 1 ∧ (t.qp q).ackAt = s.cyc ∧
          t = { s with qps := t.qps, outbox := s.outbox ++ [.roce q (s.roceHead q) .again] })) ∧
      (s.rts q = true → due = true → s.get (R.QPq_CTL_RETRY q) ≤ (s.qp q).tries →
        Answers (.qpAckTimeout q) s (fun t => t.get (R.QPq_STAT_STATE q) = 2 ∧ t.get (R.QPq_STAT_CAUSE q) = 1 ∧
          t = { s with regs := t.regs, rings := t.rings, hchs := t.hchs, held := t.held, heldWait := t.heldWait })) ∧
      (s.rts q = false ∨ due = false → Answers (.qpAckTimeout q) s (fun t => t = s))) ∧
    (∀ code, s.rts q = true → Answers (.qpNak q code) s (fun t => t.get (R.QPq_STAT_STATE q) = 2 ∧
      t.get (R.QPq_STAT_CAUSE q) = 2 + code ∧
      t = { s with regs := t.regs, rings := t.rings, hchs := t.hchs, held := t.held, heldWait := t.heldWait })) ∧
    (∀ code, s.rts q = false → Answers (.qpNak q code) s (fun t => t = s)) ∧
    (∀ k : RocePkt, s.rts q = true → k.ce = false → s.qpPaused q = false →
      ∀ x, x = dbTurn (s.get (R.QPq_CTL_PORT q)) false → ∀ ts, ts = (2, 0, x) :: s.turns →
      (k.kind = 0 → s.inTurn 2 0 x = false → Answers (.rocePacketRx q k) s (fun t => t = s)) ∧
      (k.kind = 0 → s.inTurn 2 0 x = true → (k.psn.toNat + 2 ^ 24 - (s.qp q).psnE) % 2 ^ 24 = 0 → s.get R.HOST_DB_RKEY_RKEY = 0 →
        Answers (.rocePacketRx q k) s (fun t => (t.qp q).psnE = ((s.qp q).psnE + 1) % 2 ^ 24 ∧
          t = { s with qps := t.qps, turns := ts, outbox := s.outbox ++ [.roce q (s.roceHead q) (.nak 2)] })) ∧
      (k.kind = 0 → s.inTurn 2 0 x = true → 2 ^ 23 ≤ (k.psn.toNat + 2 ^ 24 - (s.qp q).psnE) % 2 ^ 24 →
        Answers (.rocePacketRx q k) s (fun t => t = { s with turns := ts, outbox := s.outbox ++ [.roce q (s.roceHead q) .ack] })) ∧
      (k.kind = 0 → s.inTurn 2 0 x = true → (k.psn.toNat + 2 ^ 24 - (s.qp q).psnE) % 2 ^ 24 ≠ 0 →
        (k.psn.toNat + 2 ^ 24 - (s.qp q).psnE) % 2 ^ 24 < 2 ^ 23 →
        Answers (.rocePacketRx q k) s (fun t => t = { s with turns := ts, outbox := s.outbox ++ [.roce q (s.roceHead q) (.nak 0)] })) ∧
      (k.kind = 1 ∨ k.kind = 2 → Answers (.rocePacketRx q k) s (fun t => t.qp q = { s.qp q with tries := 0, ackAt := s.cyc } ∧
        t = { s with qps := t.qps })) ∧
      (k.kind = 3 → (s.qp q).tries < s.get (R.QPq_CTL_RETRY q) → Answers (.rocePacketRx q k) s (fun t =>
        (t.qp q).tries = (s.qp q).tries + 1 ∧ (t.qp q).ackAt = s.cyc ∧
        t = { s with qps := t.qps, outbox := s.outbox ++ [.roce q (s.roceHead q) .again] })) ∧
      (k.kind = 4 → Answers (.rocePacketRx q k) s (fun t => t = s))) ∧
    (∀ k, s.rts q = false → Answers (.rocePacketRx q k) s (fun t => t = s))) ∧
  (∀ (s : State) (q : Fin 64),
    (s.rts q = true → s.get R.HOST_CTL_ECN_EN = 1 → Answers (.cnpReceive q) s (fun t => (t.qp q).target = (s.qp q).rate ∧
      minRate ≤ (t.qp q).rate ∧ (minRate ≤ (s.qp q).rate → (t.qp q).rate ≤ (s.qp q).rate) ∧ (t.qp q).stage = 0 ∧
      t = { s with qps := t.qps } ∧ ∀ p, p ≠ q.val → t.qp p = s.qp p)) ∧
    (s.rts q = false ∨ s.get R.HOST_CTL_ECN_EN = 0 → Answers (.cnpReceive q) s (fun t => t = s)) ∧
    (s.rts q = true → s.get R.HOST_CTL_ECN_EN = 1 → (s.qp q).rate < lineRate → (s.qp q).rateAt + 27500 ≤ s.cyc → Answers (.dcqcnRateTimer q) s (fun t =>
      (t.qp q).rate ≤ lineRate ∧ (t.qp q).stage = (s.qp q).stage + 1 ∧
      (max (s.qp q).stage (s.qp q).bStage < 5 → (s.qp q).rate ≤ (s.qp q).target → (s.qp q).rate ≤ (t.qp q).rate ∧ (t.qp q).target = (s.qp q).target) ∧
      t = { s with qps := t.qps, freeCtr := t.freeCtr } ∧ ∀ p, p ≠ q.val → t.qp p = s.qp p)) ∧
    (s.rts q = false ∨ s.get R.HOST_CTL_ECN_EN = 0 ∨ lineRate ≤ (s.qp q).rate ∨ s.cyc < (s.qp q).rateAt + 27500 →
      Answers (.dcqcnRateTimer q) s (fun t => t = s)) ∧
    (∀ (p : Fin 2) (prio : Fin 8), s.get R.HOST_CTL_PFC_EN = 1 → prio.val = s.get R.HOST_CTL_ROCE_PRIO →
      Answers (.pfcFrameRx p prio true) s (fun t => t.cp p = { s.cp p with paused := true } ∧
        t = { s with cps := t.cps } ∧ ∀ v, v ≠ p.val → t.cp v = s.cp v) ∧
      Answers (.pfcFrameRx p prio false) s (fun t => t.cp p = { s.cp p with paused := false, outq := [] } ∧
        t = { s with cps := t.cps, outbox := s.outbox ++ (s.cp p).outq.map (fun e => .roce e.1 e.2.1 e.2.2) } ∧
        ∀ v, v ≠ p.val → t.cp v = s.cp v)) ∧
    (∀ op, (s.qpPaused q = false → (s.roce q op).outbox = s.outbox ++ [.roce q (s.roceHead q) op] ∧ (s.roce q op).cps = s.cps) ∧
      (∀ c, c = s.get (R.QPq_CTL_PORT q) → s.qpPaused q = true → (s.roce q op).outbox = s.outbox ∧
        (s.roce q op).cp c = { s.cp c with outq := (s.cp c).outq ++ [(q.val, s.roceHead q, op)] }) ∧
      ((s.qp q).psnS < 2 ^ 24 → ((s.roce q op).qp q).psnS = ((s.qp q).psnS + s.roceCount q op) % 2 ^ 24)) ∧
    (∀ (p : Fin 2) (prio : Fin 8) (pause : Bool), s.get R.HOST_CTL_PFC_EN = 0 ∨ prio.val ≠ s.get R.HOST_CTL_ROCE_PRIO →
      Answers (.pfcFrameRx p prio pause) s (fun t => t = s)) ∧
    (∀ (p : Fin 2) (target : BitVec 32) mac (ip : BitVec 32), s.cpServes p = true → target.toNat = s.cpIp p →
      Answers (.cpArpReply p target mac ip) s (fun t =>
        t = { s with outbox := s.outbox ++ [.arp (64 + p) ip.toNat (s.cpMac p) mac.toNat none] })) ∧
    (∀ (p : Fin 2) (target : BitVec 32) mac ip, s.cpServes p = false ∨ target.toNat ≠ s.cpIp p →
      Answers (.cpArpReply p target mac ip) s (fun t => t = s)))

/-- O33. Windows and rings (R303, R305-R307, R311): a window is enabled where SIZE is not zero and it overlaps no other; a ring is enabled where
its memory lies in a window, with both indices 0 and a new EPOCH; a ring disabled loses what it held; a change of an enabled one is
refused. Doorbells (R312-R314): a write with the key of the doorbell page is acknowledged, and its doorbell moves the index of the ring
that it names; one of another epoch, or beyond the ring, is discarded and counted, as a write that breaks the page's rule is; another
key, or an address outside the page, is refused. -/
def Obligations.WindowsAndRings : Prop :=
  (∀ (s : State) (w : Who) (d : Word),
    (∀ x : Fin 64, s.gate w (A.HWINw_CTL x) d = true →
      (s.get (R.HWINw_CTL_EN x) = 0 → wordGet d 0 1 = 1 → s.winFree x = true → Answers (.hwinCtlWrite w x d) s (fun t =>
        s.takes t (A.HWINw_CTL x) d ∧ t.get (R.HWINw_CTL_EN x) = 1 ∧ s.onlyRegs t ∧ s.regsBut t [A.HWINw_CTL x])) ∧
      (s.get (R.HWINw_CTL_EN x) = 0 → wordGet d 0 1 = 1 → s.winFree x = false → Answers (.hwinCtlWrite w x d) s (fun t =>
        t.get (R.HWINw_CTL_EN x) = 0 ∧ s.onlyReports t ∧ s.regsBut t [A.TALLY_MERGED])) ∧
      (wordGet d 0 1 = 0 → Answers (.hwinCtlWrite w x d) s (fun t => t.get (R.HWINw_CTL_EN x) = 0 ∧ s.onlyRegs t ∧
        s.regsBut t [A.HWINw_CTL x]))) ∧
    (∀ i : Fin 256, s.gate w (A.RINGi_CTL i) d = true →
      (s.get (R.RINGi_CTL_EN i) = 0 → wordGet d 0 1 = 1 →
        s.inWindow (s.ringBase i) (2 ^ wordGet (ringWord i d) 2 5 * entryBytes i) = true → Answers (.ringCtlWrite w i d) s (fun t =>
          t.get (R.RINGi_CTL_EN i) = 1 ∧ t.get (R.RINGi_PI_INDEX i) = 0 ∧ t.get (R.RINGi_CI_INDEX i) = 0 ∧
          t.get (R.RINGi_EPOCH_EPOCH i) = (s.get (R.RINGi_EPOCH_EPOCH i) + 1) % 2 ^ 32 ∧
          t.ring i = { base := s.ringBase i, shad := s.ringShad i } ∧ t = { s with regs := t.regs, rings := t.rings } ∧
          s.regsBut t [A.RINGi_CTL i, A.RINGi_PI i, A.RINGi_CI i, A.RINGi_EPOCH i])) ∧
      (s.get (R.RINGi_CTL_EN i) = 0 → wordGet d 0 1 = 1 →
        s.inWindow (s.ringBase i) (2 ^ wordGet (ringWord i d) 2 5 * entryBytes i) = false → Answers (.ringCtlWrite w i d) s (fun t =>
          t.get (R.RINGi_CTL_EN i) = 0 ∧ s.onlyReports t ∧ s.regsBut t [A.TALLY_MERGED])) ∧
      (s.get (R.RINGi_CTL_EN i) = 1 → wordGet d 0 1 = 0 → i.val < 0x40 ∨ 0x43 < i.val → Answers (.ringCtlWrite w i d) s (fun t =>
        t.get (R.RINGi_CTL_EN i) = 0 ∧ t.get (R.RINGi_CTL_STALL i) = 0 ∧
        t.get (R.RINGi_EPOCH_EPOCH i) = (s.get (R.RINGi_EPOCH_EPOCH i) + 1) % 2 ^ 32 ∧ t.ring i = {} ∧
        (∀ f, f ∈ t.fetched → f.ring ≠ i.val) ∧ t = { s with regs := t.regs, rings := t.rings, fetched := t.fetched } ∧
        s.regsBut t [A.RINGi_CTL i, A.RINGi_EPOCH i])))) ∧
  (∀ (s : State) (q : Fin 64) (va : BitVec 64) (rkey : BitVec 32) (data : List Byte),
    ∀ k, k = dbTurn (s.get (R.QPq_CTL_PORT q)) false → ∀ ts, ts = (2, 0, k) :: s.turns → s.qpPaused q = false →
    ∀ ack, ack = s.outbox ++ [.roce q (s.roceHead q) .ack] → ∀ nak, nak = s.outbox ++ [.roce q (s.roceHead q) (.nak 2)] →
    (s.rts q = false ∨ s.inTurn 2 0 k = false → Answers (.rdmaDoorbell q va rkey data) s (fun t => t = s)) ∧
    (s.inTurn 2 0 k = true → s.rts q = true →
      s.get R.HOST_DB_RKEY_RKEY = 0 ∨ rkey.toNat ≠ s.get R.HOST_DB_RKEY_RKEY ∨ 4096 ≤ va.toNat → Answers (.rdmaDoorbell q va rkey data) s (fun t =>
      t = { s with outbox := nak, turns := ts })) ∧
    (s.inTurn 2 0 k = true → s.rts q = true → rkey.toNat = s.get R.HOST_DB_RKEY_RKEY → s.get R.HOST_DB_RKEY_RKEY ≠ 0 → va.toNat < 4096 →
      va.toNat % 8 ≠ 0 ∨ data.length % 8 ≠ 0 ∨ data.length = 0 ∨ 4096 < va.toNat + data.length → Answers (.rdmaDoorbell q va rkey data) s (fun t =>
        t.get R.HOST_DBBAD_COUNT = min (s.get R.HOST_DBBAD_COUNT + 1) (2 ^ 32 - 1) ∧
        t = { s with regs := t.regs, held := t.held, heldWait := t.heldWait, outbox := ack, turns := ts } ∧
        s.regsBut t [A.HOST_DBBAD, A.TALLY_MERGED])) ∧
    (s.inTurn 2 0 k = true → s.rts q = true → rkey.toNat = s.get R.HOST_DB_RKEY_RKEY → s.get R.HOST_DB_RKEY_RKEY ≠ 0 → va.toNat + data.length ≤ 4096 →
      va.toNat % 8 = 0 → data.length = 8 →
      ∀ r, r = leNat (slice data 0 1) → ∀ x, x = leNat (slice data 1 3) → ∀ e, e = leNat (slice data 4 4) →
      (r < 0x20 → s.get (R.RINGi_CTL_EN r) = 1 → e = s.get (R.RINGi_EPOCH_EPOCH r) →
        s.ringFill r < (x + 2 ^ 24 - s.get (R.RINGi_CI_INDEX r)) % 2 ^ 24 →
        (x + 2 ^ 24 - s.get (R.RINGi_CI_INDEX r)) % 2 ^ 24 ≤ s.ringSize r → x ≠ s.get (R.RINGi_PI_INDEX r) →
        Answers (.rdmaDoorbell q va rkey data) s (fun t => t.get (R.RINGi_PI_INDEX r) = x ∧
          t = { s with regs := t.regs, outbox := ack, turns := ts } ∧ s.regsBut t [A.RINGi_PI r])) ∧
      (0x20 ≤ r → ringListed r = true → s.get (R.RINGi_CTL_EN r) = 1 → e = s.get (R.RINGi_EPOCH_EPOCH r) →
        (x + 2 ^ 24 - s.get (R.RINGi_CI_INDEX r)) % 2 ^ 24 ≤ s.ringFill r →
        Answers (.rdmaDoorbell q va rkey data) s (fun t => t.get (R.RINGi_CI_INDEX r) = x ∧
          t = { s with regs := t.regs, outbox := ack, turns := ts } ∧ s.regsBut t [A.RINGi_CI r])) ∧
      (ringListed r = true → s.get (R.RINGi_CTL_EN r) = 0 ∨ e ≠ s.get (R.RINGi_EPOCH_EPOCH r) →
        Answers (.rdmaDoorbell q va rkey data) s (fun t =>
          t.get R.HOST_DBSTALE_COUNT = min (s.get R.HOST_DBSTALE_COUNT + 1) (2 ^ 32 - 1) ∧
          t = { s with regs := t.regs, outbox := ack, turns := ts } ∧ s.regsBut t [A.HOST_DBSTALE])) ∧
      (ringListed r = false → r < 0xE0 ∨ 0xE3 < r → Answers (.rdmaDoorbell q va rkey data) s (fun t =>
        t.get R.HOST_DBBAD_COUNT = min (s.get R.HOST_DBBAD_COUNT + 1) (2 ^ 32 - 1) ∧
        t = { s with regs := t.regs, hot := t.hot, held := t.held, heldWait := t.heldWait, outbox := ack, turns := ts } ∧
        s.regsBut t [A.HOST_DBBAD, A.TALLY_MERGED]))))

/-- O34. The fetch of commands and the writing of entries (R308, R309, R311): new entries are read in batches that never cross the ring's end;
those that come in are fetched in order and the consumer index follows; a batch acknowledged is written, and the shadow follows; a
failure stops the ring. -/
def Obligations.RingTraffic : Prop :=
  ∀ s : State,
    (∀ (i : Fin 32) n, n = min (min (s.ringFill i) 64) (min (s.complRoom (s.get (R.RINGi_CTL_CQ i)))
        (s.ringSize i - s.get (R.RINGi_CI_INDEX i) % s.ringSize i)) → s.ringLive i = true → s.fetching = true →
      (s.ring i).asked = 0 → n ≠ 0 →
      ∀ at_, at_ = (s.ring i).base + s.get (R.RINGi_CI_INDEX i) % s.ringSize i * entryBytes i → ∀ len, len = n * entryBytes i →
      (∀ q, s.ringReach i = some q → s.qpReads q < 16 → ∀ w, s.window1 at_ len = some w → ∀ p, p = s.get (R.HWINw_CTL_QP w) → s.qpPaused p = false →
        Answers (.commandFetch i) s (fun t => t.ring i = { s.ring i with asked := n, askAt := s.cyc } ∧
          t = { s with rings := t.rings, qps := t.qps,
                       outbox := s.outbox ++ [.roce p (s.roceHead p) (.read (s.winVa w at_) (s.get (R.HWINw_RKEY_RKEY w)) len)] } ∧
        ∀ j, j ≠ i.val → t.ring j = s.ring j)) ∧
      (∀ q, s.ringReach i = some q → 16 ≤ s.qpReads q → Answers (.commandFetch i) s (fun t => t = s)) ∧
      (s.ringReach i = none → Answers (.commandFetch i) s (fun t => s.stalls t i))) ∧
    (∀ i : Fin 32, s.ringLive i = false ∨ s.fetching = false ∨ (s.ring i).asked ≠ 0 → Answers (.commandFetch i) s (fun t => t = s)) ∧
    (∀ (i : Fin 32) (l : List Desc), (s.ring i).asked ≠ 0 → l.length = (s.ring i).asked → (s.reachQp (s.ring i).shad 4).isSome = true →
      ∀ w, s.window1 (s.ring i).shad 4 = some w → ∀ p, p = s.get (R.HWINw_CTL_QP w) → s.qpPaused p = false →
      Answers (.commandFetchReturn i (some l)) s (fun t => t.ring i = { s.ring i with asked := 0 } ∧
        t.get (R.RINGi_CI_INDEX i) = (s.get (R.RINGi_CI_INDEX i) + l.length) % 2 ^ 24 ∧
        t.fetched = s.fetched ++ l.map (fun d => { ring := i.val, cq := s.get (R.RINGi_CTL_CQ i), desc := d }) ∧
        t = { s with regs := t.regs, rings := t.rings, fetched := t.fetched, qps := t.qps, freeCtr := t.freeCtr,
                     outbox := s.outbox ++ [.roce p (s.roceHead p) (.write (s.winVa w (s.ring i).shad) (s.get (R.HWINw_RKEY_RKEY w))
                       (leBytes 4 (t.get (R.RINGi_CI_INDEX i))))] } ∧ s.regsBut t [A.RINGi_CI i])) ∧
    (∀ i : Fin 32, (s.ring i).asked ≠ 0 → Answers (.commandFetchReturn i none) s (fun t => s.stalls t i)) ∧
    (∀ (i : Fin 32) e, (s.ring i).asked = 0 → Answers (.commandFetchReturn i e) s (fun t => t = s)) ∧
    (∀ (i : Fin 256) n, n ≠ 0 → n ≤ 64 → n ≤ (s.ring i).unack.length →
      ∀ first, first = (s.get (R.RINGi_PI_INDEX i) + 2 ^ 24 - (s.ring i).unack.length) % 2 ^ 24 → first % s.ringSize i + n ≤ s.ringSize i →
      (∀ q, s.ringReach i = some q → (s.reachQp (s.ring i).shad 4).isSome = true →
        ∀ bs, bs = ((s.ring i).unack.take n).flatMap RingEntry.bytes → ∀ at_, at_ = (s.ring i).base + first % s.ringSize i * entryBytes i →
        ∀ w, s.window1 at_ bs.length = some w → ∀ v, s.window1 (s.ring i).shad 4 = some v →
        ∀ p, p = s.get (R.HWINw_CTL_QP w) → ∀ x, x = s.get (R.HWINw_CTL_QP v) → s.qpPaused p = false → s.qpPaused x = false →
        Answers (.ringWriteAck i n true) s (fun t => (t.ring i).unack = (s.ring i).unack.drop n ∧
          t.outbox = s.outbox ++ [.roce p (s.roceHead p) (.write (s.winVa w at_) (s.get (R.HWINw_RKEY_RKEY w)) bs),
            .roce x { s.roceHead x with psn := if x = p then ((s.qp x).psnS + max 1 (ceilDiv bs.length (s.qpMtu p))) % 2 ^ 24 else (s.qp x).psnS }
              (.write (s.winVa v (s.ring i).shad) (s.get (R.HWINw_RKEY_RKEY v)) (leBytes 4 ((first + n) % 2 ^ 24)))] ∧
          (t.qp q).tries = 0 ∧ (t.qp q).ackAt = s.cyc ∧
          t = { s with rings := t.rings, qps := t.qps, freeCtr := t.freeCtr, outbox := t.outbox })) ∧
      (∀ q, s.ringReach i = some q → Answers (.ringWriteAck i n false) s (fun t => s.stalls t i)) ∧
      (s.ringReach i = none → Answers (.ringWriteAck i n true) s (fun t => s.stalls t i))) ∧
    (∀ (i : Fin 256) n ok, n = 0 ∨ 64 < n ∨ (s.ring i).unack.length < n → Answers (.ringWriteAck i n ok) s (fun t => t = s))

/-- O35. Subscribers and services (R346-R348, R430-R433): a subscriber that is OFF opens on a canvas that is open, with the subpictures that the
command names; one that is not OFF is BUSY; a close takes an ON one to STOPPING with the canvas's running picture as its last, and it is
OFF when that has left; a SVC_SET that names an absent port is NO_UNIT, one with values outside their range BAD_VALUE, and any other
waits for its service's shaper and takes effect, and completes, at that shaper's next refill, the latest of them last. -/
def Obligations.Subscribers : Prop :=
  ∀ (s : State) (c : Cmd) (i : Nat), i = dIdx c.desc → dSub c.desc = 0 →
    (s.accepts c 0x10 2 none → dClean c.desc (subFields c.desc) = true → 1 ≤ dget c.desc 17 0 8 → dget c.desc 17 0 8 ≤ 16 →
      ∀ n, n = dget c.desc 16 0 7 →
      (s.get (R.EGR_SUBs_STATE_STATE i) ≠ 0 → Answers (.subOpen c) s (fun t => s.completes t c St.busy 0 ∧ s.onlyRings t)) ∧
      (s.get (R.EGR_SUBs_STATE_STATE i) = 0 → s.get (R.EGR_SUBs_STATE_PEND i) = 0 →
        (s.get (R.STRMn_STATE_STATE n) ≠ 0 → (s.strm n).p.typ ≠ 3 →
          Answers (.subOpen c) s (fun t => s.completes t c St.wrongType 0 ∧ s.onlyRings t)) ∧
        (s.get (R.STRMn_STATE_STATE n) = 0 → Answers (.subOpen c) s (fun t => s.completes t c St.notOn 0 ∧ s.onlyRings t)) ∧
        (s.get (R.STRMn_STATE_STATE n) = 1 ∨ s.get (R.STRMn_STATE_STATE n) = 2 → (s.strm n).p.typ = 3 →
          ((s.strm n).p.subsOk (subIds c.desc) = false →
            Answers (.subOpen c) s (fun t => s.completes t c St.geometry 0 ∧ s.onlyRings t)) ∧
          ((s.strm n).p.subsOk (subIds c.desc) = true → Answers (.subOpen c) s (fun t => s.asked t 2 i true ∧
            (t.sub i).map (fun b => (b.canvas, b.ids, b.at_)) = some (n, subIds c.desc, s.cyc) ∧
            t.owed = s.owed ++ [{ s.owedOf c with wait := .unitOn 2 i }] ∧
            t = { s with regs := t.regs, fetched := t.fetched, turn := t.turn, owed := t.owed, streams := t.streams, subs := t.subs }))))) ∧
    (∀ b, s.accepts c 0x11 2 none → dClean c.desc [] = true → s.get (R.EGR_SUBs_STATE_STATE i) = 2 → s.sub i = some b →
      Answers (.subClose c) s (fun t => s.asked t 2 i false ∧
        t.sub i = some { b with last := some ((s.takeFetched c).pictureNow b.canvas) } ∧
        t.owed = s.owed ++ [{ s.owedOf c with wait := .unitOff 2 i }] ∧
        t = { s with regs := t.regs, fetched := t.fetched, turn := t.turn, owed := t.owed, subs := t.subs } ∧
        s.regsBut t [A.EGR_SUBs_STATE i, A.EGR_SUBs_EPOCH i])) ∧
    (s.accepts c 0x12 2 none →
      dClean c.desc [(16, 0, 2), (17, 0, 8), (18, 0, 8), (19, 0, 3), (20, 0, 32), (24, 0, 32), (28, 0, 1)] = true →
      ∀ v, v = dget c.desc 16 0 2 → ∀ pa, pa = dget c.desc 17 0 8 → ∀ pb, pb = dget c.desc 18 0 8 → ∀ rate, rate = dget c.desc 20 0 32 →
      ∀ burst, burst = dget c.desc 24 0 32 → ∀ en, en = dget c.desc 28 0 1 →
      ((pa ≤ 63 ∧ s.portExists pa = false) ∨ (pb ≤ 63 ∧ s.portExists pb = false) →
        Answers (.svcSet c) s (fun t => s.completes t c St.noUnit 0 ∧ s.onlyRings t)) ∧
      ((pa ≤ 63 → s.portExists pa = true) → (pb ≤ 63 → s.portExists pb = true) →
        (63 < pa ∨ (63 < pb ∧ pb ≠ 255) ∨ (en = 1 ∧ (rate = 0 ∨ burst = 0)) →
          Answers (.svcSet c) s (fun t => s.completes t c St.badValue 0 ∧ s.onlyRings t)) ∧
        (pa ≤ 63 → (pb ≤ 63 ∨ pb = 255) → (en = 1 → rate ≠ 0 ∧ burst ≠ 0) → Answers (.svcSet c) s (fun t =>
          t.owed = s.owed ++ [{ s.owedOf c with wait := .svc (4 * i + v) [pa, pb, dget c.desc 19 0 3, en, rate, burst] }] ∧
          t = { s with fetched := t.fetched, turn := t.turn, owed := t.owed })))) ∧
    (∀ (l r : List Owed) (o : Owed) (v : Fin 4) (pa pb : Fin 256) (cl : Fin 8) (en : Fin 2) (rate burst : Word),
      r.all (fun x => match x.wait with | .svc q _ => q != 4 * i + v.val | _ => true) = true → i < 4096 →
      s.owed = l ++ { o with wait := .svc (4 * i + v.val) [pa.val, pb.val, cl.val, en.val, rate.toNat, burst.toNat] } :: r →
      s.crossed 2000 = true → 300 ∉ s.fired → Answers .shaperRefill s (fun t =>
        t.get (R.EGR_SVCs_v_CFG_PORT_A i v) = pa ∧ t.get (R.EGR_SVCs_v_CFG_PORT_B i v) = pb ∧
        t.get (R.EGR_SVCs_v_CFG_CLASS i v) = cl ∧ t.get (R.EGR_SVCs_v_CFG_EN i v) = en ∧
        t.get (R.EGR_SVCs_v_RATE_VALUE i v) = rate.toNat ∧ t.get (R.EGR_SVCs_v_BURST_VALUE i v) = burst.toNat ∧
        t.owed.all (fun x => match x.wait with | .svc _ _ => false | _ => true) = true ∧
        t = { s with regs := t.regs, rings := t.rings, owed := t.owed, fired := t.fired, shapers := t.shapers })) ∧
    (∀ (j : Fin 4096) b, s.sub j = some b → s.get (R.EGR_SUBs_STATE_STATE j) = 3 → s.get (R.EGR_SUBs_STATE_PEND j) = 0 →
      s.subDrained j b = true → Answers (.subOff j) s (fun t => t.get (R.EGR_SUBs_STATE_STATE j) = 0 ∧ t.sub j = none ∧
        (∀ o, o ∈ t.owed → o.wait ≠ .unitOff 2 j) ∧ t = { s with regs := t.regs, rings := t.rings, owed := t.owed, subs := t.subs })) ∧
    (∀ j : Fin 4096, s.get (R.EGR_SUBs_STATE_STATE j) ≠ 3 ∨ s.sub j = none → Answers (.subOff j) s (fun t => t = s))

/-- O36. A Hoist channel's record and its start (R461, R462, R480, R484, R591): an enable and a disable follow the table of R590; a channel that
starts is ON and starts the command's job that waits for it, one that stops with no burst in flight is OFF and has halted; GO starts a
job at LIST on a channel that is ON, runs nothing and whose Hoist is not stopped, and is refused otherwise; a resume clears the stop and
starts the jobs of commands that waited. HOIST_COPY and HOIST_FILL (R349, R353): on a channel that firmware can choose and that is ON,
the job of the command runs from its source to its destination and the command waits for its end; addresses that nothing answers are
ADDR_DENIED, a slot shorter than the copy BAD_VALUE; a channel that firmware cannot choose leaves the command where it is. -/
def Obligations.HoistControl : Prop :=
  (∀ (s : State) (w : Who) (h : Fin 4) (c : Fin 64) (d : Word) (g : Nat), g = 64 * h.val + c.val →
    (s.gate w (A.HOISTh_CHc_STATE h c) d = true →
      (wordGet d 4 2 = 1 → Answers (.hoistChEnableReq w h c d) s (fun t => s.asked t 6 g true ∧
        t = { s with regs := t.regs, rings := t.rings, owed := t.owed })) ∧
      (wordGet d 4 2 = 2 → Answers (.hoistChDisableReq w h c d) s (fun t => s.asked t 6 g false ∧
        t = { s with regs := t.regs, rings := t.rings, owed := t.owed }))) ∧
    (s.get (R.HOISTh_CHc_STATE_STATE h c) = 1 → s.get (R.HOISTh_CHc_STATE_PEND h c) ≠ 2 → (s.hch g).todo = none →
      Answers (.hoistChOn h c) s (fun t => t.get (R.HOISTh_CHc_STATE_STATE h c) = 2 ∧ (∀ o, o ∈ t.owed → o.wait ≠ .unitOn 6 g) ∧
        t = { s with regs := t.regs, rings := t.rings, owed := t.owed })) ∧
    (∀ e, (s.hch g).todo = some e → s.get (R.HOISTh_CHc_STATE_STATE h c) = 1 → s.get (R.HOISTh_CHc_STATE_PEND h c) ≠ 2 → s.hRun g = false →
      s.hStopped h = false → Answers (.hoistChOn h c) s (fun t => t.get (R.HOISTh_CHc_STATE_STATE h c) = 2 ∧ t.hRun g = true ∧
        t.hch g = cmdJob e.1 e.2 ∧ (∀ o, o ∈ t.owed → o.wait ≠ .unitOn 6 g) ∧
        t = { s with regs := t.regs, rings := t.rings, owed := t.owed, freeCtr := t.freeCtr, hchs := t.hchs })) ∧
    (s.get (R.HOISTh_CHc_STATE_STATE h c) ≠ 1 → Answers (.hoistChOn h c) s (fun t => t = s)) ∧
    (s.get (R.HOISTh_CHc_STATE_STATE h c) = 3 → s.get (R.HOISTh_CHc_STATE_PEND h c) = 0 → (s.hch g).burst = none →
      Answers (.hoistChOff h c) s (fun t => t.get (R.HOISTh_CHc_STATE_STATE h c) = 0 ∧ t.hRun g = false ∧
        (s.hRun g = true → t.get (R.HOISTh_CHc_STAT_HCAUSE h c) = 7) ∧ (∀ o, o ∈ t.owed → o.wait ≠ .unitOff 6 g) ∧
        t = { s with regs := t.regs, hot := t.hot, rings := t.rings, owed := t.owed, held := t.held, heldWait := t.heldWait,
                     hchs := t.hchs })) ∧
    (s.get (R.HOISTh_CHc_STATE_STATE h c) ≠ 3 ∨ (s.hch g).burst.isSome = true → Answers (.hoistChOff h c) s (fun t => t = s)) ∧
    (s.gate w (A.HOISTh_CHc_CTL h c) d = true → wordGet d 0 1 = 1 →
      (s.hReady g = true → Answers (.hoistGo w h c d) s (fun t => t.hRun g = true ∧ t.get (R.HOISTh_CHc_STAT_HCAUSE h c) = 0 ∧
        t.hBytes g = 0 ∧ t.get (R.HOISTh_CHc_DCOUNT_COUNT h c) = 0 ∧ t.hch g = { next := s.hList g } ∧ t.hCur g = s.hList g % 2 ^ 48 ∧
        t = { s with regs := t.regs, hchs := t.hchs })) ∧
      (s.hReady g = false → Answers (.hoistGo w h c d) s (fun t => s.onlyReports t ∧ s.regsBut t [A.TALLY_MERGED]))) ∧
    (s.gate w (A.HOISTh_CTL h) d = true → wordGet d 0 1 = 1 → Answers (.hoistResume w h d) s (fun t =>
      t.get (R.HOISTh_STAT_STOPPED h) = 0 ∧ s.takes t (A.HOISTh_CTL h) d ∧
      (∀ k, k < 64 → (s.hch (64 * h + k)).todo = none → t.hch (64 * h + k) = s.hch (64 * h + k)) ∧
      (∀ e, (s.hch g).todo = some e → s.get (R.HOISTh_STAT_STOPPED h) = 1 → s.get (R.HOISTh_CHc_STATE_STATE h c) = 2 → s.hRun g = false →
        t.hRun g = true ∧ t.hch g = cmdJob e.1 e.2) ∧
      ((∀ k, k < 64 → (s.hch (64 * h + k)).todo = none) → s.regsBut t [A.HOISTh_CTL h, A.HOISTh_STAT h]) ∧
      t = { s with regs := t.regs, hot := t.hot, freeCtr := t.freeCtr, hchs := t.hchs })) ∧
    (s.get (R.HOISTh_STAT_STOPPED h) = 1 → h.val ≠ 3 ∨ s.expert 8 = false → Answers (.hoistFwResume h) s (fun t =>
      t.get (R.HOISTh_STAT_STOPPED h) = 0 ∧
      (∀ k, k < 64 → (s.hch (64 * h + k)).cmd = true → s.hRun (64 * h + k) = false → (s.hch (64 * h + k)).todo = none →
        ∀ o, o ∈ t.owed → o.wait ≠ .hoist (64 * h + k)) ∧
      (∀ e, (s.hch g).todo = some e → s.get (R.HOISTh_CHc_STATE_STATE h c) = 2 → s.hRun g = false →
        t.hRun g = true ∧ t.hch g = cmdJob e.1 e.2) ∧
      t = { s with regs := t.regs, rings := t.rings, owed := t.owed, freeCtr := t.freeCtr, hchs := t.hchs })) ∧
    (s.get (R.HOISTh_STAT_STOPPED h) = 0 → Answers (.hoistFwResume h) s (fun t => t = s))) ∧
  (∀ (s : State) (c : Cmd) (g : Fin 192), ∀ src, src = dget c.desc 16 0 64 → ∀ dst, dst = dget c.desc 24 0 64 →
    ∀ len, len = dget c.desc 32 0 32 → dSub c.desc = 0 → len ≠ 0 →
    (s.cmdChan g = false → Answers (.hoistCopy c g) s (fun t => t = s) ∧ Answers (.hoistFill c g) s (fun t => t = s)) ∧
    (s.cmdChan g = true → s.accepts c 0x20 0 none → dClean c.desc [(16, 0, 64), (24, 0, 64), (32, 0, 32), (36, 0, 1)] = true →
      (dget c.desc 36 0 1 = 0 → 2 ^ 48 ≤ src → Answers (.hoistCopy c g) s (fun t => s.completes t c St.addrDenied 0 ∧ s.onlyRings t)) ∧
      (2 ^ 48 ≤ dst → src < 4096 → Answers (.hoistCopy c g) s (fun t => s.completes t c St.addrDenied 0 ∧ s.onlyRings t)) ∧
      (dget c.desc 36 0 1 = 1 → src < 4096 → s.slotHeld src = true → dst < 2 ^ 48 → (s.takeFetched c).inWindows 64 dst len = true →
        s.slotBytes src < len → Answers (.hoistCopy c g) s (fun t => s.completes t c St.badValue 0 ∧ s.onlyRings t)) ∧
      (dget c.desc 36 0 1 = 0 → src < 2 ^ 48 → (s.takeFetched c).inWindows 64 src len = true → dst < 2 ^ 48 →
        (s.takeFetched c).inWindows 64 dst len = true → s.hReady g = true →
        Answers (.hoistCopy c g) s (fun t => t.hRun g = true ∧
          t.hch g = cmdJob { at_ := src, len := len } { at_ := dst, len := len } ∧
          t.owed = s.owed ++ [{ s.owedOf c with wait := .hoist g }] ∧ t.hBytes g = 0 ∧
          t = { s with regs := t.regs, freeCtr := t.freeCtr, fetched := t.fetched, turn := t.turn, owed := t.owed, hchs := t.hchs }))) ∧
    (s.cmdChan g = true → s.accepts c 0x21 0 none → dClean c.desc [(16, 0, 64), (24, 0, 64), (32, 0, 32)] = true → len % 8 = 0 →
      (2 ^ 48 ≤ dst → Answers (.hoistFill c g) s (fun t => s.completes t c St.addrDenied 0 ∧ s.onlyRings t)) ∧
      (dst < 2 ^ 48 → (s.takeFetched c).inWindows 64 dst len = true → s.hReady g = true → Answers (.hoistFill c g) s (fun t =>
        t.hRun g = true ∧ t.hch g = cmdJob { at_ := src, len := len, fill := true } { at_ := dst, len := len } ∧
        t.owed = s.owed ++ [{ s.owedOf c with wait := .hoist g }] ∧ t.hBytes g = 0 ∧
        t = { s with regs := t.regs, freeCtr := t.freeCtr, fetched := t.fetched, turn := t.turn, owed := t.owed, hchs := t.hchs }))))

/-- O37. The work of a Hoist (R464-R470, R473-R477, R479): a fetched entry is counted, and joins its channel's sources or destinations; a
malformed one halts the channel; the channel granted starts a burst of the bytes that its entries and BURST allow, where its queue pair
has fewer than 16 READs outstanding; a burst that ends is written, through the window and queue pair of its address, and counted; a
burst that failed or carries poison has no last write; nothing is fetched and no burst starts while a sleep is in hand. The errors of a
Hoist (R480-R483): an access that fails, or is late, stops the Hoist with its cause and address, and every channel that runs halts with
cause 1; a poisoned burst and a poisoned entry halt their channel alone, with causes 2 and 3. -/
def Obligations.HoistBursts : Prop :=
  (∀ (s : State) (h : Fin 4) (c : Fin 64) (g : Nat), g = 64 * h.val + c.val →
    (∀ e : List Byte, s.hFetches g = true → s.sleep = none → ∀ s1, s1 = (s.entryRead g e).1 → ∀ b, (s.entryRead g e).2 = some b →
      ∀ at_, at_ = leNat (slice b 0 8) → ∀ len, len = leNat (slice b 8 4) → ∀ fl, fl = leNat (slice b 12 4) →
      (badEntry at_ len fl = true → Answers (.hoistEntryFetch h c e) s (fun t => t.hRun g = false ∧
        t.get (R.HOISTh_CHc_STAT_HCAUSE h c) = 5 ∧
        t = { s1 with regs := t.regs, hot := t.hot, freeCtr := t.freeCtr, held := t.held, heldWait := t.heldWait, looked := t.looked,
                      rings := t.rings, owed := t.owed, retPend := t.retPend, ptpRx := t.ptpRx, tsb := t.tsb, mem := t.mem,
                      injRecs := t.injRecs, badRows := t.badRows, lost := t.lost, celCe := t.celCe, stackTab := t.stackTab,
                      ldrCol := t.ldrCol, hchs := t.hchs, ptpPos := t.ptpPos, outbox := t.outbox, qps := t.qps, cps := t.cps })) ∧
      (badEntry at_ len fl = false → natBit fl 3 = false → natBit fl 5 = false → natBit fl 0 = false → natBit fl 1 = false →
        s1.get (R.HOISTh_CHc_DCOUNT_COUNT h c) + 1 < s1.get (R.HOISTh_CHc_DMAX_DESC_MAX h c) →
        Answers (.hoistEntryFetch h c e) s (fun t => (t.hch g).next = (s1.hch g).next + 16 ∧
          (t.hch g).srcs = (s1.hch g).srcs ++ [{ at_ := at_, len := len, fill := natBit fl 2, slot := false, opn := natBit fl 4 }] ∧
          (t.hch g).dsts = (s1.hch g).dsts ∧ (t.hch g).nSrc = (s1.hch g).nSrc + len ∧
          t.get (R.HOISTh_CHc_DCOUNT_COUNT h c) = s1.get (R.HOISTh_CHc_DCOUNT_COUNT h c) + 1 ∧
          t = { s1 with regs := t.regs, hchs := t.hchs }))) ∧
    (∀ e, s.hFetches g = false ∨ s.sleep.isSome = true → Answers (.hoistEntryFetch h c e) s (fun t => t = s)) ∧
    (∀ req data src dst rs rd, s.hStopped h = false → s.pdOn (67 + h.val) = true → s.sleep = none →
      ((List.range 64).filter (fun c => (s.hch (64 * h + c)).burst.isSome)).length < 32 → s.hGrant h req = some c.val →
      (s.hch g).srcs = src :: rs → (s.hch g).dsts = dst :: rd → ∀ n, n = s.hSize g src dst → src.slot = false → n ≤ data.length →
      (src.fill = true ∨ (s.hTgt h (src.at_ + src.used) n false).fails = false) →
      (src.fill = true ∨ ∀ q, s.reachQp (src.at_ + src.used) 1 = some q → s.qpReads q < 16) →
      ((s.hTgt h (dst.at_ + dst.used) n true).fails = false → Answers (.hoistBurstStart h req data) s (fun t =>
        t.hch g = { s.hch g with srcs := takeBytes (src :: rs) n, dsts := takeBytes (dst :: rd) n, burst := (t.hch g).burst } ∧
        (t.hch g).burst.map (fun b => (b.dst, b.at_)) = some (dst.at_ + dst.used, s.cyc) ∧ tabGet 0 t.hgrant h = c.val ∧
        t = { s with regs := t.regs, hot := t.hot, freeCtr := t.freeCtr, held := t.held, heldWait := t.heldWait, looked := t.looked,
                     rings := t.rings, owed := t.owed, retPend := t.retPend, ptpRx := t.ptpRx, tsb := t.tsb, mem := t.mem,
                     injRecs := t.injRecs, badRows := t.badRows, lost := t.lost, celCe := t.celCe, stackTab := t.stackTab,
                     ldrCol := t.ldrCol, hchs := t.hchs, hgrant := t.hgrant, ptpPos := t.ptpPos, outbox := t.outbox, qps := t.qps,
                     cps := t.cps })) ∧
      ((s.hTgt h (dst.at_ + dst.used) n true).fails = true → Answers (.hoistBurstStart h req data) s (fun t =>
        (t.hch g).err = some (dst.at_ + dst.used, n) ∧ (t.hch g).burst = (s.hch g).burst ∧
        t = { s with hchs := t.hchs, hgrant := t.hgrant }))) ∧
    (∀ req data, s.hStopped h = true ∨ s.sleep.isSome = true ∨ s.hGrant h req = none → Answers (.hoistBurstStart h req data) s (fun t => t = s)) ∧
    (∀ b, (s.hch g).burst = some b → ∀ w, s.window1 b.dst b.data.length = some w → b.poison = none → b.dead = false → s.hRun g = true →
      s.hTgt h b.dst b.data.length true = .host →
      ∀ u, u = s.roce (s.get (R.HWINw_CTL_QP w)) (.write (s.winVa w b.dst) (s.get (R.HWINw_RKEY_RKEY w)) b.data) → Answers (.hoistBurstDone h c) s (fun t => t.hBytes g = (s.hBytes g + b.data.length) % 2 ^ 64 ∧ (t.hch g).burst = none ∧
        t = { u with regs := t.regs, hot := t.hot, rings := t.rings, owed := t.owed, held := t.held, heldWait := t.heldWait, hchs := t.hchs })) ∧
    ((s.hch g).burst.all (fun b => b.dead || b.poison.isSome) = true ∨ s.hRun g = false → Answers (.hoistBurstDone h c) s (fun t => t = s))) ∧
  (∀ (s : State) (h : Fin 4) (c : Fin 64) (addr : BitVec 48) (g : Nat), g = 64 * h.val + c.val →
    (∀ (i : Instr) (k : Fin 8), (i = .hoistBuserr h c k addr ∧ k.val ≠ 2 ∧ s.hFails g k addr.toNat = true ∨
        (i = .hoistTargetTimeout h c addr ∨ i = .hoistBuserr h c k addr) ∧ k.val = 2 ∧ s.hLate g addr.toNat = true) →
      s.hStopped h = false → s.hRun g = true → (∀ v, v < 64 → (s.hch (64 * h + v)).burst = none) →
      Answers i s (fun t => t.get (R.HOISTh_STAT_STOPPED h) = 1 ∧ t.get (R.HOISTh_STAT_SCAUSE h) = k ∧
        t.get (R.HOISTh_ERR_L_ADDR h) = addr.toNat % 2 ^ 32 ∧ t.get (R.HOISTh_ERR_H_ADDR h) = addr.toNat / 2 ^ 32 ∧
        (∀ v, v < 64 → t.hRun (64 * h + v) = false) ∧
        (∀ v, v < 64 → s.hRun (64 * h + v) = true → t.get (R.HOISTh_CHc_STAT_HCAUSE h v) = 1) ∧
        t = { s with regs := t.regs, hot := t.hot, held := t.held, heldWait := t.heldWait, hchs := t.hchs })) ∧
    (∀ k, s.hStopped h = true ∨ s.hRun g = false → Answers (.hoistBuserr h c k addr) s (fun t => t = s) ∧
      Answers (.hoistTargetTimeout h c addr) s (fun t => t = s)) ∧
    (∀ b p, s.hRun g = true → (s.hch g).burst = some b → b.poison = some p → holds p 32 addr.toNat = true →
      Answers (.hoistPoison h c addr false) s (fun t => t.hRun g = false ∧ t.get (R.HOISTh_CHc_STAT_HCAUSE h c) = 2 ∧
        (t.hch g).burst = none ∧ t.get (R.HOISTh_STAT_STOPPED h) = s.get (R.HOISTh_STAT_STOPPED h) ∧
        t = { s with regs := t.regs, hot := t.hot, rings := t.rings, owed := t.owed, held := t.held, heldWait := t.heldWait,
                     hchs := t.hchs })) ∧
    (∀ f p, s.hFetches g = true → s.hTgt h (s.hch g).next 16 false = .array f → (s.arrBytes f (s.hch g).next 16).2.2 = some p →
      holds p (granSpan f) addr.toNat = true → Answers (.hoistPoison h c addr true) s (fun t => t.hRun g = false ∧
        t.get (R.HOISTh_CHc_STAT_HCAUSE h c) = 3 ∧
        t = { s with regs := t.regs, hot := t.hot, held := t.held, heldWait := t.heldWait, rings := t.rings, owed := t.owed,
                     retPend := t.retPend, badRows := t.badRows, lost := t.lost, celCe := t.celCe, stackTab := t.stackTab, hchs := t.hchs })) ∧
    (∀ e, s.hRun g = false → Answers (.hoistPoison h c addr e) s (fun t => t = s)))

/-- O38. UNIT_ENABLE and UNIT_DISABLE of a port and of a Crew (R353, R590): the record follows the table of R590, and the command completes at
once where the unit is in the state asked for, and waits otherwise, a Crew with the levels that it begins under; a disable of a unit
that streams use is BUSY. UCODE_LOAD (R279, R355): an image of the right length whose signature checks out is kept and the command
waits; another length is BAD_LEN, a second load BUSY, a bad signature FW_SIG; a step of the load loads, checks and runs every Scull of
the Crews that are ON that runs no job, and clears the RUN of one seated Scull a Crew at its job's end; the command completes once every
one has the new store. -/
def Obligations.UnitOrders : Prop :=
  (∀ (s : State) (c : Cmd) (k : Nat), k = 3 ∨ k = 5 → ∀ i, i = dIdx c.desc → dSub c.desc = 0 → dClean c.desc [] = true →
    s.unitThere c.desc = true →
    (s.accepts c 0x40 k none →
      (s.get (urec k i).state ≠ 2 → Answers (.unitEnable c) s (fun t => s.asked t k i true ∧
        (s.get (urec k i).state = 0 ∨ s.get (urec k i).state = 1 → { s.owedOf c with wait := .unitOn k i } ∈ t.owed) ∧
        (s.get (urec k i).state = 3 → { s.owedOf c with wait := .latched k i } ∈ t.owed) ∧
        (k = 5 → s.get (urec k i).state = 0 → (t.crew i).began = (s.expert 4, s.expert 9)) ∧
        t = { s with regs := t.regs, rings := t.rings, fetched := t.fetched, turn := t.turn, owed := t.owed, crews := t.crews })) ∧
      (s.get (urec k i).state = 2 → Answers (.unitEnable c) s (fun t => s.asked t k i true ∧ s.completes t c St.ok 0 ∧ s.onlyRings t))) ∧
    (s.accepts c 0x41 k none →
      ((s.takeFetched c).unitBusy k i = true → Answers (.unitDisable c) s (fun t => s.completes t c St.busy 0 ∧ s.onlyRings t)) ∧
      ((s.takeFetched c).unitBusy k i = false → s.get (urec k i).state ≠ 0 → Answers (.unitDisable c) s (fun t => s.asked t k i false ∧
        (s.get (urec k i).state = 2 → { s.owedOf c with wait := .unitOff k i } ∈ t.owed) ∧
        (s.get (urec k i).state = 1 → { s.owedOf c with wait := .latched k i } ∈ t.owed) ∧ s.onlyRings t)) ∧
      ((s.takeFetched c).unitBusy k i = false → s.get (urec k i).state = 0 → Answers (.unitDisable c) s (fun t =>
        s.asked t k i false ∧ s.completes t c St.ok 0 ∧ s.onlyRings t)))) ∧
  (∀ s : State,
    (∀ (c : Cmd) (img : HostRead), s.accepts c 0x60 0 (some 9) → dSub c.desc = 0 → dClean c.desc [(16, 0, 64), (24, 0, 32)] = true →
      (dget c.desc 24 0 32 ≠ ucodeLen → Answers (.ucodeLoad c img) s (fun t => s.completes t c St.badLen 0 ∧ s.onlyRings t)) ∧
      (dget c.desc 24 0 32 = ucodeLen → s.ucodeBusy = true →
        Answers (.ucodeLoad c img) s (fun t => s.completes t c St.busy 0 ∧ s.onlyRings t)) ∧
      (dget c.desc 24 0 32 = ucodeLen → s.ucodeBusy = false →
        ∀ b, (s.takeFetched c).ucodeRead (dget c.desc 16 0 64) img = (s.takeFetched c, .inl b) →
        Answers (.ucodeLoad c img) s (fun t => (imageGood b = false → s.completes t c St.fwSig 0 ∧ s.onlyRings t) ∧
          (imageGood b = true → t.images = s.images ++ [b] ∧ t.owed = s.owed ++ [{ s.owedOf c with wait := .ucode }] ∧
            t = { s with images := t.images, fetched := t.fetched, turn := t.turn, owed := t.owed })))) ∧
    (s.ucodeBusy = true → Answers .ucodeLoadDone s (fun t =>
      t.ucodeBusy = (List.range 4).any (fun c => (s.ucodeLeft c).any (fun u => s.flag (R.USTAT_BUSY u) || s.flag (R.USTAT_SUM_BUSY u))) ∧
      (∀ (c : Fin 4) u, u ∈ s.ucodeLeft c → s.get (R.USTAT_BUSY u) = 0 → s.get (R.USTAT_SUM_BUSY u) = 0 → (t.seq u).img = s.imageNow ∧
        t.get (R.UCS_SUM_CRC u) = s.imageSum s.imageNow % 2 ^ 32 ∧ t.get (R.USTAT_UCS_BAD u) = 0 ∧ t.get (R.UCTL_RUN u) = 1) ∧
      (∀ (c : Fin 4) u, u ∈ s.ucodeLeft c → s.get (R.USTAT_BUSY u) = 1 → (t.seq u).img = (s.seq u).img ∧
        ((s.seatOf c (u % 36)).isSome = true → (s.ucodeLeft c).any (fun v => (t.seq v).runOff) = true)) ∧
      t = { s with regs := t.regs, rings := t.rings, owed := t.owed, seqs := t.seqs, mem := t.mem, injRecs := t.injRecs,
                   held := t.held, heldWait := t.heldWait })) ∧
    (s.ucodeBusy = false → Answers .ucodeLoadDone s (fun t => t = s)))

/-- O39. A lane's record (R392-R394, R591): a request moves the record of a media lane by the table of R590 and powers its quad; it is ignored
and reported on lanes 64 and 65. A STARTING lane whose domain is ON becomes ON, and a STOPPING one OFF with its live fields dark. -/
def Obligations.LaneRecords : Prop :=
  ∀ (s : State) (w : Who) (l : Fin 66) (d : Word),
    (s.gate w (A.LANEl_STATE l) d = true → l.val < 64 → s.quad1 l = false →
      (wordGet d 4 2 = 1 → Answers (.laneEnableReq w l d) s (fun t => s.asked t 4 l true ∧
        t = { s with regs := t.regs, rings := t.rings, owed := t.owed })) ∧
      (wordGet d 4 2 = 2 → Answers (.laneDisableReq w l d) s (fun t => s.asked t 4 l false ∧
        t = { s with regs := t.regs, rings := t.rings, owed := t.owed }))) ∧
    (s.gate w (A.LANEl_STATE l) d = true → 64 ≤ l.val →
      (wordGet d 4 2 = 1 → Answers (.laneEnableReq w l d) s (fun t => s.onlyReports t ∧ s.regsBut t [A.TALLY_MERGED])) ∧
      (wordGet d 4 2 = 2 → Answers (.laneDisableReq w l d) s (fun t => s.onlyReports t ∧ s.regsBut t [A.TALLY_MERGED]))) ∧
    (s.get (R.LANEl_STATE_STATE l) = 1 → s.get (R.LANEl_STATE_PEND l) ≠ 2 → (l.val < 64 → s.pdOn (46 + l / 4) = true) →
      Answers (.laneOn l) s (fun t => t.get (R.LANEl_STATE_STATE l) = 2 ∧ t.get (R.LANEl_STAT_AN_DONE l) = 0 ∧
        t.get (R.LANEl_STAT_TRAIN_DONE l) = 0 ∧ t.get (R.LANEl_STAT_BLOCK_LOCK l) = 0 ∧ (∀ o, o ∈ t.owed → o.wait ≠ .unitOn 4 l) ∧
        t = { s with regs := t.regs, hot := t.hot, rings := t.rings, owed := t.owed, training := t.training, adapting := t.adapting,
                     blFrom := t.blFrom, held := t.held, heldWait := t.heldWait, outbox := t.outbox })) ∧
    (l.val < 64 → s.get (R.LANEl_STATE_STATE l) ≠ 1 ∨ s.pdOn (46 + l / 4) = false → Answers (.laneOn l) s (fun t => t = s)) ∧
    (s.get (R.LANEl_STATE_STATE l) = 3 → s.get (R.LANEl_STATE_PEND l) = 0 → Answers (.laneOff l) s (fun t =>
      t.get (R.LANEl_STATE_STATE l) = 0 ∧ t.get (R.LANEl_STAT_LOS l) = 1 ∧ t.get (R.LANEl_STAT_LOL l) = 1 ∧
      t.get (R.LANEl_STAT_BLOCK_LOCK l) = 0 ∧ t.get (R.LANEl_DOZE_TX_PWR l) = 0 ∧ t.get (R.LANEl_DOZE_RX_PWR l) = 0 ∧
      (∀ o, o ∈ t.owed → o.wait ≠ .unitOff 4 l) ∧
      t = { s with regs := t.regs, hot := t.hot, rings := t.rings, owed := t.owed, training := t.training, adapting := t.adapting,
                   blFrom := t.blFrom })) ∧
    (s.get (R.LANEl_STATE_STATE l) ≠ 3 → Answers (.laneOff l) s (fun t => t = s))

/-- O40. A lane's configuration (R368, R369, R378, R381, R389, R394, R396): QMODE changes only with its quad OFF. A word of LANEl_CFG that
combines what R369 and R378 do not allow is ignored and reported; of an OFF lane all of it is taken; a changed mode or loopback clears
BLOCK_LOCK, and RAW66 and loopback are refused on a lane that streams use. Test patterns and the lane functions of FUNC_SET (R374-R377,
R382, R395): a write of the generator and the checker clears the counter, and in RAW66 the transmitter sends the generator's pattern;
INJ inverts one bit of a RAW66 lane that sends; a checker locks in RAW66 alone; the taps and the adaptation that a command sets are the
lane's, and values outside R374 are BAD_VALUE. -/
def Obligations.LaneSettings : Prop :=
  (∀ (s : State) (w : Who) (l : Fin 66) (d : Word),
    (s.gate w (A.LANEl_QMODE l) d = true →
      ((∀ i, i < 4 → s.get (R.LANEl_STATE_STATE (l + i)) = 0) → Answers (.qmodeWrite w l d) s (fun t =>
        t.get (R.LANEl_QMODE_QMODE l) = wordGet d 0 1 ∧ s.onlyRegs t ∧ s.regsBut t [A.LANEl_QMODE l])) ∧
      (∀ i, i < 4 → s.get (R.LANEl_STATE_STATE (l + i)) ≠ 0 → wordGet d 0 1 ≠ s.get (R.LANEl_QMODE_QMODE l) →
        Answers (.qmodeWrite w l d) s (fun t => s.onlyReports t ∧ s.regsBut t [A.TALLY_MERGED]))) ∧
    (∀ i : Instr, i = .laneCfgWrite w l d ∨ i = .blModeWrite w l d ∨ i = .loopbackSet w l d → s.gate w (A.LANEl_CFG l) d = true →
      (s.cfgReserved l d = true → Answers i s (fun t => s.onlyReports t ∧ s.regsBut t [A.TALLY_MERGED])) ∧
      (s.cfgReserved l d = false → s.get (R.LANEl_STATE_STATE l) = 0 → s.laneBusy l = false → Answers i s (fun t =>
        wordGet (t.reg (A.LANEl_CFG l)) 0 8 = wordGet d 0 8 ∧ t.get (R.LANEl_CFG_BL_MODE l) = wordGet d 8 2 ∧
        t.get (R.LANEl_CFG_LB l) = wordGet d 10 2 ∧
        (wordGet d 8 2 ≠ s.get (R.LANEl_CFG_BL_MODE l) ∨ wordGet d 10 2 ≠ s.get (R.LANEl_CFG_LB l) →
          t.get (R.LANEl_STAT_BLOCK_LOCK l) = 0) ∧
        t = { s with regs := t.regs, hot := t.hot, held := t.held, heldWait := t.heldWait, outbox := t.outbox, blFrom := t.blFrom })) ∧
      (s.cfgReserved l d = false → s.laneBusy l = true → l.val < 64 →
        (s.get (R.LANEl_CFG_BL_MODE l) ≠ 2 → wordGet d 8 2 = 2 → Answers i s (fun t =>
          t.get (R.LANEl_CFG_BL_MODE l) = s.get (R.LANEl_CFG_BL_MODE l) ∧
          t = { s with regs := t.regs, hot := t.hot, held := t.held, heldWait := t.heldWait, blFrom := t.blFrom })) ∧
        (wordGet d 10 2 ≠ 0 → Answers i s (fun t => t.get (R.LANEl_CFG_LB l) = s.get (R.LANEl_CFG_LB l) ∧
          t = { s with regs := t.regs, hot := t.hot, held := t.held, heldWait := t.heldWait, outbox := t.outbox, blFrom := t.blFrom }))))) ∧
  (∀ s : State,
    (∀ (w : Who) (l : Fin 66) (d : Word), s.gate w (A.LANEl_PRBS_CTL l) d = true →
      ∀ pat, pat = (if s.raw66 l = true ∧ s.get (R.LANEl_STATE_STATE l) = 2 ∧ s.get (R.LANEl_DOZE_TX_PWR l) < 2 then
        [Out.pattern l (wordGet d 0 3)] else []) →
      (wordGet d 8 1 = 0 → Answers (.prbsCtlWrite w l d) s (fun t => t.get (R.LANEl_PRBS_CTL_GEN l) = wordGet d 0 3 ∧
        t.get (R.LANEl_PRBS_CTL_CHK l) = wordGet d 4 3 ∧ t.get (R.LANEl_PRBS_ERR_COUNT l) = 0 ∧
        (wordGet d 4 3 ≠ s.get (R.LANEl_PRBS_CTL_CHK l) ∨ wordGet d 0 3 ≠ s.get (R.LANEl_PRBS_CTL_GEN l) →
          t.get (R.LANEl_PRBS_STAT_CHK_LOCK l) = 0) ∧
        t.outbox = s.outbox ++ pat ∧ t = { s with regs := t.regs, outbox := t.outbox } ∧
        s.regsBut t [A.LANEl_PRBS_CTL l, A.LANEl_PRBS_ERR l, A.LANEl_PRBS_STAT l])) ∧
      (wordGet d 8 1 = 1 → s.raw66 l = true → s.laneUp l = true → wordGet d 0 3 ≠ 0 → Answers (.prbsInj w l d) s (fun t =>
        t.outbox = s.outbox ++ pat ++ [.prbsInv l] ∧ t = { s with regs := t.regs, outbox := t.outbox } ∧
        s.regsBut t [A.LANEl_PRBS_CTL l, A.LANEl_PRBS_ERR l, A.LANEl_PRBS_STAT l]))) ∧
    (∀ l : Fin 66, (s.raw66 l = true → s.cdrOn l = true → s.get (R.LANEl_PRBS_CTL_CHK l) ≠ 0 → Answers (.prbsChkLock l) s (fun t =>
        t.get (R.LANEl_PRBS_STAT_CHK_LOCK l) = 1 ∧ s.onlyRegs t ∧ s.regsBut t [A.LANEl_PRBS_STAT l])) ∧
      (s.raw66 l = false ∨ s.cdrOn l = false → Answers (.prbsChkLock l) s (fun t => t = s))) ∧
    (∀ c : Cmd, s.accepts c 0x50 0 (some 7) → dSub c.desc = 0 → dget c.desc 16 0 8 = 7 → ∀ code, code = dget c.desc 18 0 8 →
      ∀ l, l = dUnit8 c.desc → l ≤ 65 → ∀ v, v = dValue c.desc → dClean c.desc [(16, 0, 8), (18, 0, 16), (24, 0, 64)] = true →
      (code = 1 → ∀ pre main post, pre < 16 → main < 64 → post < 32 → v = pre + main * 2 ^ 8 + post * 2 ^ 16 →
        (tapsLegal pre main post = false → Answers (.laneTapsSet c) s (fun t => s.completes t c St.badValue 0 ∧ s.onlyRings t)) ∧
        (tapsLegal pre main post = true → l ∉ s.training → Answers (.laneTapsSet c) s (fun t => s.completes t c St.ok 0 ∧
          t.get (R.LANEl_TXEQ_PRE l) = pre ∧ t.get (R.LANEl_TXEQ_MAIN l) = main ∧ t.get (R.LANEl_TXEQ_POST l) = post ∧
          t = { s with regs := t.regs, rings := t.rings, fetched := t.fetched, turn := t.turn, laneSet := t.laneSet }))) ∧
      (code = 2 → (2 < v → Answers (.laneAdaptSet c) s (fun t => s.completes t c St.badValue 0 ∧ s.onlyRings t)) ∧
        (v ≤ 2 → Answers (.laneAdaptSet c) s (fun t => s.completes t c St.ok 0 ∧ t.get (R.LANEl_RXEQ_ADAPT l) = v ∧
          t = { s with regs := t.regs, rings := t.rings, fetched := t.fetched, turn := t.turn, adapting := t.adapting,
                       laneSet := t.laneSet }))) ∧
      (code = 3 → (v ≠ 0 → Answers (.laneAdaptRestart c) s (fun t => s.completes t c St.badValue 0 ∧ s.onlyRings t)) ∧
        (v = 0 → Answers (.laneAdaptRestart c) s (fun t => s.completes t c St.ok 0 ∧
          (s.cdrOn l = true → s.get (R.LANEl_RXEQ_ADAPT l) = 1 → l ∈ t.adapting) ∧
          t = { s with regs := t.regs, rings := t.rings, fetched := t.fetched, turn := t.turn, adapting := t.adapting })))))

/-- O41. A lane's line (R371-R373, R375, R379, R380, R383-R385): negotiation, training and adaptation end with what they found; block lock sets
and clears with the line's headers; the detectors' conditions set LOS and LOL and clear them; in AUTO the loss of block lock, and the
rise of LOS and LOL, are reported with their status bit and the lane's event. -/
def Obligations.LaneLine : Prop :=
  ∀ (s : State) (l : Fin 66),
    (∀ (fec : Fin 3), s.get (R.LANEl_STATE_STATE l) = 2 → s.quad1 l = false → s.negotiates l = true →
      s.get (R.LANEl_STAT_AN_DONE l) = 0 → fec.val ∈ fecOffer (s.get (R.LANEl_CFG_PMD l)) (s.get (R.LANEl_CFG_FEC l)) →
      Answers (.anDone l fec false) s (fun t => t.get (R.LANEl_STAT_AN_DONE l) = 1 ∧ t.get (R.LANEl_STAT_FEC_ACT l) = fec ∧
        l.val ∈ t.training ∧ t.get (R.LANEl_EQ_STAT_BUSY l) = 1 ∧ t = { s with regs := t.regs, training := t.training } ∧
        s.regsBut t [A.LANEl_STAT l, A.LANEl_EQ_STAT l])) ∧
    (∀ fec par, s.get (R.LANEl_STATE_STATE l) ≠ 2 ∨ s.get (R.LANEl_STAT_AN_DONE l) = 1 → Answers (.anDone l fec par) s (fun t => t = s)) ∧
    (∀ pre main post, l.val ∈ s.training → tapsLegal pre main post = true → Answers (.trainDone l pre main post) s (fun t =>
      t.get (R.LANEl_STAT_TRAIN_DONE l) = 1 ∧ t.get (R.LANEl_TXEQ_PRE l) = pre ∧ t.get (R.LANEl_TXEQ_MAIN l) = main ∧
      t.get (R.LANEl_TXEQ_POST l) = post ∧ l.val ∉ t.training ∧ t = { s with regs := t.regs, training := t.training } ∧
      s.regsBut t [A.LANEl_STAT l, A.LANEl_TXEQ l, A.LANEl_EQ_STAT l])) ∧
    (∀ pre main post, l.val ∉ s.training → Answers (.trainDone l pre main post) s (fun t => t = s)) ∧
    (∀ slips, s.cdrOn l = true → s.raw66 l = false → s.get (R.LANEl_STAT_BLOCK_LOCK l) = 0 → Answers (.blockLock l slips) s (fun t =>
      t.get (R.LANEl_STAT_BLOCK_LOCK l) = 1 ∧
      (s.get (R.LANEl_CFG_BL_MODE l) ≠ 0 → t.get (R.LANEl_BL_STAT_OFFSET l) = s.get (R.LANEl_BL_STAT_OFFSET l)) ∧ s.onlyRegs t)) ∧
    (∀ slips, s.cdrOn l = false ∨ s.get (R.LANEl_STAT_BLOCK_LOCK l) = 1 → Answers (.blockLock l slips) s (fun t => t = s)) ∧
    (s.cdrOn l = true → s.raw66 l = false → s.get (R.LANEl_STAT_BLOCK_LOCK l) = 1 → Answers (.laneBlLoss l) s (fun t =>
      t.get (R.LANEl_STAT_BLOCK_LOCK l) = 0 ∧ t.get (R.LANEl_STAT_LINK l) = 0 ∧ s.onlyReports t ∧
      (s.get (R.LANEl_CFG_BL_MODE l) = 0 → s.quad1 l = false →
        t.get (R.LANEl_BL_LOSSES_COUNT l) = min (s.get (R.LANEl_BL_LOSSES_COUNT l) + 1) (2 ^ (R.LANEl_BL_LOSSES_COUNT l).w - 1) ∧
        t.get (R.LANEl_STAT_BL_LOST l) = 1 ∧ t.get (pendRF (256 + l)) = 1))) ∧
    (s.get (R.LANEl_STAT_BLOCK_LOCK l) = 0 → Answers (.laneBlLoss l) s (fun t => t = s)) ∧
    (s.laneUp l = true → s.get (R.LANEl_STAT_LOS l) = 0 → Answers (.laneLos l) s (fun t => t.get (R.LANEl_STAT_LOS l) = 1 ∧
      (s.laneReports l = true → t.get (R.LANEl_STAT_LOS_SEEN l) = 1 ∧ t.get (pendRF (256 + l)) = 1) ∧ s.onlyReports t)) ∧
    (s.laneUp l = true → s.get (R.LANEl_STAT_LOS l) = 1 → Answers (.losDeassert l) s (fun t => t.get (R.LANEl_STAT_LOS l) = 0 ∧
      s.onlyRegs t ∧ s.regsBut t [A.LANEl_STAT l, A.LANEl_DOZE l])) ∧
    (s.cdrOn l = true → s.get (R.LANEl_STAT_LOL l) = 0 → Answers (.laneLol l) s (fun t => t.get (R.LANEl_STAT_LOL l) = 1 ∧
      (s.laneReports l = true → t.get (R.LANEl_STAT_LOL_SEEN l) = 1 ∧ t.get (pendRF (256 + l)) = 1) ∧ s.onlyReports t)) ∧
    (s.cdrOn l = true → s.get (R.LANEl_STAT_LOL l) = 1 → Answers (.lolDeassert l) s (fun t => t.get (R.LANEl_STAT_LOL l) = 0 ∧
      (s.get (R.LANEl_RXEQ_ADAPT l) = 1 → l.val ∈ t.adapting) ∧ t = { s with regs := t.regs, adapting := t.adapting } ∧
      s.regsBut t [A.LANEl_STAT l, A.LANEl_EQ_STAT l])) ∧
    (s.laneUp l = false → Answers (.laneLos l) s (fun t => t = s) ∧ Answers (.losDeassert l) s (fun t => t = s) ∧
      Answers (.laneLol l) s (fun t => t = s) ∧ Answers (.lolDeassert l) s (fun t => t = s))

/-- O42. A lane's counters, doze and equalisation (R374-R376, R380, R385, R387, R388, R395): FEC codewords are counted; SLIP moves the alignment
by one bit where the mode is not AUTO; a lane that no stream uses dozes and wakes; the taps follow a write unless training runs;
adaptation starts again and ends. -/
def Obligations.LaneControl : Prop :=
  ∀ (s : State) (w : Who) (l : Fin 66) (d : Word),
    (∀ corr uncorr, s.cdrOn l = true → s.raw66 l = false → s.get (R.LANEl_STAT_FEC_ACT l) ≠ 0 → s.leadLane l = l.val →
      Answers (.fecUcw l corr uncorr) s (fun t =>
        t.get (R.LANEl_FEC_CORR_COUNT l) = min (s.get (R.LANEl_FEC_CORR_COUNT l) + corr) (2 ^ (R.LANEl_FEC_CORR_COUNT l).w - 1) ∧
        t.get (R.LANEl_FEC_UNCORR_COUNT l) = min (s.get (R.LANEl_FEC_UNCORR_COUNT l) + uncorr) (2 ^ (R.LANEl_FEC_UNCORR_COUNT l).w - 1) ∧
        (uncorr = 0 → s.onlyRegs t) ∧ s.onlyReports t)) ∧
    (∀ corr uncorr, s.cdrOn l = false ∨ s.get (R.LANEl_STAT_FEC_ACT l) = 0 → Answers (.fecUcw l corr uncorr) s (fun t => t = s)) ∧
    (s.gate w (A.LANEl_BL_CTL l) d = true → wordGet d 0 1 = 1 →
      (s.get (R.LANEl_CFG_BL_MODE l) = 0 → Answers (.slip w l d) s (fun t => s.onlyReports t ∧ s.regsBut t [A.TALLY_MERGED])) ∧
      (s.get (R.LANEl_CFG_BL_MODE l) ≠ 0 → s.laneUp l = true → Answers (.slip w l d) s (fun t =>
        t.get (R.LANEl_BL_STAT_OFFSET l) = (s.get (R.LANEl_BL_STAT_OFFSET l) + 1) % 66 ∧ t.get (R.LANEl_BL_STAT_VHC_VALID l) = 0 ∧
        t = { s with regs := t.regs, blFrom := t.blFrom } ∧ s.regsBut t [A.LANEl_BL_STAT l]))) ∧
    (s.gate w (A.LANEl_DOZE l) d = true → s.get (R.LANEl_STATE_STATE l) = 2 → s.laneBusy l = false →
      (wordGet d 0 1 = 1 → wordGet d 1 1 = 0 → wordGet d 2 1 = 0 → wordGet d 3 1 = 0 → s.get (R.LANEl_DOZE_TX_PWR l) = 0 →
        Answers (.txDoze w l d) s (fun t => t.get (R.LANEl_DOZE_TX_PWR l) = 1 ∧ s.onlyRegs t ∧ s.regsBut t [A.LANEl_DOZE l])) ∧
      (wordGet d 1 1 = 1 → wordGet d 0 1 = 0 → wordGet d 2 1 = 0 → wordGet d 3 1 = 0 → s.get (R.LANEl_DOZE_TX_PWR l) = 2 →
        Answers (.txWake w l d) s (fun t => t.get (R.LANEl_DOZE_TX_PWR l) = 3 ∧ s.onlyRegs t ∧ s.regsBut t [A.LANEl_DOZE l])) ∧
      (wordGet d 2 1 = 1 → wordGet d 3 1 = 0 → wordGet d 0 1 = 0 → wordGet d 1 1 = 0 → s.get (R.LANEl_DOZE_RX_PWR l) = 0 →
        Answers (.rxDoze w l d) s (fun t => t.get (R.LANEl_DOZE_RX_PWR l) = 1 ∧ s.onlyRegs t ∧ s.regsBut t [A.LANEl_DOZE l])) ∧
      (wordGet d 3 1 = 1 → wordGet d 2 1 = 0 → wordGet d 0 1 = 0 → wordGet d 1 1 = 0 → s.get (R.LANEl_DOZE_RX_PWR l) = 2 →
        Answers (.rxWake w l d) s (fun t => t.get (R.LANEl_DOZE_RX_PWR l) = 3 ∧ s.onlyRegs t ∧ s.regsBut t [A.LANEl_DOZE l]))) ∧
    (s.gate w (A.LANEl_DOZE l) d = true → s.laneBusy l = true → wordGet d 0 1 = 1 → Answers (.txDoze w l d) s (fun t =>
      s.onlyReports t ∧ (s.get (R.LANEl_DOZE_TX_PWR l) = 0 → t.get (R.LANEl_DOZE_TX_PWR l) = 0))) ∧
    (∀ rx u, u = urec (if rx then 9 else 8) l →
      (s.get u.state = 1 → s.get u.pend = 0 → Answers (.dozeTransitionDone l rx) s (fun t => t.get u.state = 2 ∧
        (rx = true → t.get (R.LANEl_STAT_LOL l) = 1 ∧ t.get (R.LANEl_STAT_BLOCK_LOCK l) = 0) ∧
        t = { s with regs := t.regs, hot := t.hot, blFrom := t.blFrom })) ∧
      (s.get u.state = 3 → s.get u.pend = 0 → Answers (.dozeTransitionDone l rx) s (fun t => t.get u.state = 0 ∧ s.onlyRegs t ∧
        s.regsBut t [A.LANEl_DOZE l])) ∧
      (s.get u.state = 0 ∨ s.get u.state = 2 → Answers (.dozeTransitionDone l rx) s (fun t => t = s))) ∧
    (s.gate w (A.LANEl_TXEQ l) d = true →
      (s.get (R.LANEl_EQ_STAT_BUSY l) = 0 → Answers (.txeqWrite w l d) s (fun t => s.takes t (A.LANEl_TXEQ l) d ∧ s.onlyRegs t ∧
        s.regsBut t [A.LANEl_TXEQ l])) ∧
      (s.get (R.LANEl_EQ_STAT_BUSY l) = 1 → Answers (.txeqWrite w l d) s (fun t => s.onlyReports t ∧ s.regsBut t [A.TALLY_MERGED]))) ∧
    (s.gate w (A.LANEl_RXEQ l) d = true → wordGet d 2 1 = 1 → wordGet d 0 2 = 1 → Answers (.adaptRestart w l d) s (fun t =>
      t.get (R.LANEl_RXEQ_ADAPT l) = 1 ∧ (s.cdrOn l = true → l.val ∈ t.adapting ∧ (l.val ∉ s.adapting → t.get (R.LANEl_EQ_STAT_BUSY l) = 1)) ∧
      t = { s with regs := t.regs, adapting := t.adapting } ∧ s.regsBut t [A.LANEl_RXEQ l, A.LANEl_EQ_STAT l])) ∧
    (∀ ctle : Fin 16, (l.val ∈ s.adapting → Answers (.adaptDone l ctle) s (fun t => l.val ∉ t.adapting ∧
        t.get (R.LANEl_EQ_STAT_CTLE_ACT l) = ctle ∧ t = { s with regs := t.regs, adapting := t.adapting } ∧
        s.regsBut t [A.LANEl_EQ_STAT l])) ∧ (l.val ∉ s.adapting → Answers (.adaptDone l ctle) s (fun t => t = s)))

/-- O43. A media port's record (R398, R569, R591): a request follows the table of R590. A STARTING port becomes ON and a STOPPING one, once its
last frame has finished, OFF; either empties its Bins, completes the commands that wait, and asserts the port's event. -/
def Obligations.PortRecord : Prop :=
  ∀ (s : State) (w : Who) (p : Fin 64) (d : Word),
    (s.gate w (A.PORTp_STATE p) d = true →
      (wordGet d 4 2 = 1 → Answers (.portEnableReq w p d) s (fun t => s.asked t 3 p true ∧
        t = { s with regs := t.regs, rings := t.rings, owed := t.owed })) ∧
      (wordGet d 4 2 = 2 → Answers (.portDisableReq w p d) s (fun t => s.asked t 3 p false ∧
        t = { s with regs := t.regs, rings := t.rings, owed := t.owed }))) ∧
    (s.get (R.PORTp_STATE_STATE p) = 1 → s.get (R.PORTp_STATE_PEND p) ≠ 2 → Answers (.portOn p) s (fun t =>
      t.get (R.PORTp_STATE_STATE p) = 2 ∧ t.ptpBin p = [] ∧ t.tsBin p = [] ∧ t.ptpTx p = [] ∧ t.get (R.PORTp_TSB_STAT_COUNT p) = 0 ∧
      t.get (pendRF (192 + p)) = 1 ∧ (∀ o, o ∈ t.owed → o.wait ≠ .unitOn 3 p) ∧
      t = { s with regs := t.regs, hot := t.hot, rings := t.rings, owed := t.owed, egr := t.egr, ptpRx := t.ptpRx, tsb := t.tsb,
                   ptpPos := t.ptpPos })) ∧
    (s.get (R.PORTp_STATE_STATE p) ≠ 1 → Answers (.portOn p) s (fun t => t = s)) ∧
    (s.get (R.PORTp_STATE_STATE p) = 3 → s.get (R.PORTp_STATE_PEND p) = 0 → tabGet 0 s.txFree p ≤ s.now → Answers (.portOff p) s (fun t =>
      t.get (R.PORTp_STATE_STATE p) = 0 ∧ t.ptpBin p = [] ∧ t.tsBin p = [] ∧ t.ptpTx p = [] ∧ t.get (pendRF (192 + p)) = 1 ∧
      (∀ o, o ∈ t.owed → o.wait ≠ .unitOff 3 p) ∧
      t = { s with regs := t.regs, hot := t.hot, rings := t.rings, owed := t.owed, egr := t.egr, ptpRx := t.ptpRx, tsb := t.tsb,
                   ptpPos := t.ptpPos })) ∧
    (s.get (R.PORTp_STATE_STATE p) ≠ 3 ∨ s.now < tabGet 0 s.txFree p → Answers (.portOff p) s (fun t => t = s))

/-- O44. A received frame (R396, R399, R400, R408-R411, R426): a frame that fails the checks is discarded and counted in RX_BAD, one that passes
is counted in RX_FRAMES and goes where the first rule that applies sends it: an ARP request for the port's address is answered, a PTP
message enters the PTP Bin, where the oldest of 64 gives way, a datagram of input flows that fails the checks of R409 is counted in
RX_BAD, the second copy of a merged packet is counted and discarded, and what matches no flow is counted in RX_UNMATCHED; a far-end
loopback sends every frame back. -/
def Obligations.FramesReceived : Prop :=
  ∀ (s : State) (p : Fin 64) (f : RxFrame),
    (∀ c, f.cp = some c → f.fcsOk = false ∨ ptpIn (ethIn f.data) = none ∨ f.sync = none → Answers (.mediaFrameRx p f) s (fun t => t = s)) ∧
    (f.cp = none → s.portHears p = false ∨ s.portNear p = true → Answers (.mediaFrameRx p f) s (fun t => t = s)) ∧
    (f.cp = none → s.portHears p = true → s.portNear p = false →
      ∀ s1, s1 = (if s.portFar p = true ∧ s.portLit p = true then { s with outbox := s.outbox ++ [.echo p f.data] } else s) →
      let e := ethIn f.data
      let counted : State → Prop := fun t =>
        t.get (R.PORTp_RX_FRAMES_COUNT p) = min (s.get (R.PORTp_RX_FRAMES_COUNT p) + 1) (2 ^ 32 - 1)
      let bad : State → Prop := fun t => t.get (R.PORTp_RX_BAD_COUNT p) = min (s.get (R.PORTp_RX_BAD_COUNT p) + 1) (2 ^ 32 - 1)
      (s.rxAccept p f = false → Answers (.mediaFrameRx p f) s (fun t =>
        bad t ∧ t = { s1 with regs := t.regs } ∧ s.regsBut t [A.PORTp_RX_BAD p])) ∧
      (s.rxAccept p f = true →
        (∀ a, arpIn e = some a →
          (a.1 = s.get (R.PORTp_IP_ADDR p) → Answers (.mediaFrameRx p f) s (fun t => counted t ∧
            t.get (R.PORTp_TX_FRAMES_COUNT p) = min (s.get (R.PORTp_TX_FRAMES_COUNT p) + 1) (2 ^ 32 - 1) ∧
            (∃ c, t.outbox = s1.outbox ++ (if s.portLit p = true then [.arp p a.2.1 (s.portMac p) a.2.2 (s.portTag p c)] else [])) ∧
            t = { s with regs := t.regs, outbox := t.outbox, freeCtr := t.freeCtr } ∧
            s.regsBut t [A.PORTp_RX_FRAMES p, A.PORTp_TX_FRAMES p])) ∧
          (a.1 ≠ s.get (R.PORTp_IP_ADDR p) → Answers (.mediaFrameRx p f) s (fun t => counted t ∧ t = { s1 with regs := t.regs } ∧
            s.regsBut t [A.PORTp_RX_FRAMES p]))) ∧
        (∀ m, ptpIn e = some m → s.flag (R.PORTp_PTP_PTP_EN p) = true → f.sync = none →
          ((s.ptpBin p).length < 64 →
            Answers (.mediaFrameRx p f) s (fun t => counted t ∧ t.ptpBin p = s.ptpBin p ++ [s.ptpEntry p f.data m] ∧
              (∀ q, q ≠ p.val → t.ptpBin q = s.ptpBin q) ∧ t = { s1 with regs := t.regs, ptpRx := t.ptpRx } ∧
              s.regsBut t [A.PORTp_RX_FRAMES p])) ∧
          (∀ x r, s.ptpBin p = x :: r → r.length = 63 → Answers (.mediaFrameRx p f) s (fun t => counted t ∧
              t.ptpBin p = r ++ [s.ptpEntry p f.data m] ∧
              t.get (R.PORTp_PTP_LOST_COUNT p) = min (s.get (R.PORTp_PTP_LOST_COUNT p) + 1) (2 ^ 32 - 1) ∧
              t = { s1 with regs := t.regs, ptpRx := t.ptpRx, ptpPos := t.ptpPos } ∧
              s.regsBut t [A.PORTp_RX_FRAMES p, A.PORTp_PTP_LOST p]))) ∧
        (∀ u, udpIn e = some u → ptpIn e = none ∨ s.flag (R.PORTp_PTP_PTP_EN p) = false →
          let fl := s.rxFlows p u.dstIp u.dport
          (fl ≠ [] → u.sumOk = false ∨ rtpIn u.data = none → Answers (.mediaFrameRx p f) s (fun t => counted t ∧ bad t ∧
            t = { s1 with regs := t.regs } ∧ s.regsBut t [A.PORTp_RX_FRAMES p, A.PORTp_RX_BAD p])) ∧
          (∀ r, rtpIn u.data = some r → u.sumOk = true →
            (fl ≠ [] → (∀ x ∈ fl, x.2.2.pt ≠ r.pt ∨ (x.2.2.ssrc ≠ 0 ∧ x.2.2.ssrc ≠ r.ssrc)) →
              Answers (.mediaFrameRx p f) s (fun t => counted t ∧ bad t ∧ t = { s1 with regs := t.regs } ∧
                s.regsBut t [A.PORTp_RX_FRAMES p, A.PORTp_RX_BAD p])) ∧
            (∀ n i (g : Flow) m, fl = [(n, i, g)] → g.pt = r.pt → g.ssrc = 0 ∨ g.ssrc = r.ssrc → g.portB ≠ 255 →
              (s.strm n).p.typ = 2 → (s.strm n).merge.find? (fun x => x.1 == i) = some (i, m) →
              m.seen.any (fun x => x.1 == r.seq) = true → Answers (.mediaFrameRx p f) s (fun t => counted t ∧
                t.get (R.PORTp_MERGE_DUP_COUNT p) = min (s.get (R.PORTp_MERGE_DUP_COUNT p) + 1) (2 ^ 32 - 1) ∧
                t = { s1 with regs := t.regs, streams := t.streams } ∧ s.regsBut t [A.PORTp_RX_FRAMES p, A.PORTp_MERGE_DUP p]))) ∧
          (fl = [] → u.dstIp ≠ s.get (R.PORTp_IP_ADDR p) ∨ s.rtcpOf p u.dport = [] → Answers (.mediaFrameRx p f) s (fun t => counted t ∧
            t.get (R.PORTp_RX_UNMATCHED_COUNT p) = min (s.get (R.PORTp_RX_UNMATCHED_COUNT p) + 1) (2 ^ 32 - 1) ∧
            t = { s1 with regs := t.regs } ∧ s.regsBut t [A.PORTp_RX_FRAMES p, A.PORTp_RX_UNMATCHED p]))) ∧
        (e.et ≠ 0x0806 → udpIn e = none → igmpIn e = none → ptpIn e = none → Answers (.mediaFrameRx p f) s (fun t => counted t ∧
          t.get (R.PORTp_RX_UNMATCHED_COUNT p) = min (s.get (R.PORTp_RX_UNMATCHED_COUNT p) + 1) (2 ^ 32 - 1) ∧
          t = { s1 with regs := t.regs } ∧ s.regsBut t [A.PORTp_RX_FRAMES p, A.PORTp_RX_UNMATCHED p]))))

/-- O45. The Bins of a port (R404, R406, R426-R428): a read takes the oldest entry and hands it to the reader, of the timestamp Bin with its time
latched; an entry written to the PTP transmit Bin waits as a frame, one with a reserved encoding is discarded and reported; a pointer
mismatch empties the Bin, counts its entries as lost and tells the Tally. -/
def Obligations.PortBins : Prop :=
  ∀ (s : State) (w : Who) (p : Fin 64),
    Answers (.ptpRxBinRead p) s (fun t => t.ptpBin p = (s.ptpBin p).drop 1 ∧ (∀ q, q ≠ p.val → t.ptpBin q = s.ptpBin q) ∧
      t.outbox = s.outbox ++ ((s.ptpBin p).head?.map (fun e => Out.binEntry p e)).toList ∧
      t = { s with ptpRx := t.ptpRx, ptpPos := t.ptpPos, outbox := t.outbox }) ∧
    (∀ data, s.portExists p = true → leNat (slice data 1 1) % 4 ≤ 2 → 60 ≤ leNat (slice data 0 1) →
      leNat (slice data 0 1) ≤ 240 → (data.drop 16).length = leNat (slice data 0 1) → (s.ptpTx p).length < 16 →
      Answers (.ptpTxBinWrite p data) s (fun t =>
        t.frames p = s.frames p ++
          [{ kind := 2, wire := leNat (slice data 0 1) + 24, elig := nowInst (s.now + s.cycleStep), bytes := data.drop 16, flags := leNat (slice data 1 1) % 4 }] ∧
        t = { s with egr := t.egr })) ∧
    (∀ data, s.portExists p = true → 2 < leNat (slice data 1 1) % 4 ∨ leNat (slice data 0 1) < 60 ∨
        240 < leNat (slice data 0 1) → Answers (.ptpTxBinWrite p data) s (fun t => s.tells t (0x180 + p) 0x80 ∧ s.onlyReports t ∧
        s.regsBut t [A.TALLY_MERGED])) ∧
    (s.portExists p = true → (∀ e r, s.tsBin p = e :: r → Answers (.tsbIdRead w p) s (fun t => t.tsBin p = r ∧
        t.get (R.PORTp_TSB_STAT_COUNT p) = r.length % 2 ^ 7 ∧ t.get (R.PORTp_TSB_ID_ID p) = e.1 % 2 ^ 16 ∧ t.get (R.PORTp_TSB_ID_VALID p) = 1 ∧
        t.get (R.PORTp_TSB_SECL_VALUE p) = e.2.1 % 2 ^ 32 ∧ t.get (R.PORTp_TSB_SECH_VALUE p) = e.2.1 / 2 ^ 32 % 2 ^ 16 ∧
        t.get (R.PORTp_TSB_NS_VALUE p) = e.2.2.1 % 2 ^ 32 ∧ t.get (R.PORTp_TSB_FRAC_VALUE p) = e.2.2.2 % 2 ^ 32 ∧
        t.outbox = s.outbox ++ [.value w (A.PORTp_TSB_ID p) (t.reg (A.PORTp_TSB_ID p))] ∧
        t = { s with regs := t.regs, tsb := t.tsb, outbox := t.outbox })) ∧
      (s.tsBin p = [] → Answers (.tsbIdRead w p) s (fun t => t.get (R.PORTp_TSB_ID_VALID p) = 0 ∧
        t = { s with regs := t.regs, outbox := t.outbox } ∧ s.regsBut t [A.PORTp_TSB_ID p]))) ∧
    (s.portExists p = true →
      (∀ b, b = 0 ∨ b = 1 ∨ b = 2 ∨ b = 3 → Answers (.binPtr p b) s (fun t => s.tells t (0x180 + p) 0x47 ∧
        (b = 1 → t.ptpBin p = [] ∧ t.get (R.PORTp_PTP_LOST_COUNT p) =
          min (s.get (R.PORTp_PTP_LOST_COUNT p) + (s.ptpBin p).length) (2 ^ 32 - 1)) ∧
        (b = 2 → t.ptpTx p = []) ∧
        (b = 3 → t.tsBin p = [] ∧ t.get (R.PORTp_TSB_LOST_COUNT p) =
          min (s.get (R.PORTp_TSB_LOST_COUNT p) + (s.tsBin p).length) (2 ^ 32 - 1)) ∧
        t = { s with regs := t.regs, held := t.held, heldWait := t.heldWait, egr := t.egr, ptpRx := t.ptpRx, tsb := t.tsb,
                     ptpPos := t.ptpPos })))

/-- O46. Frames leave a port (R439, R441, R442, R445, R447, R452): a free transmitter starts the candidate that comes before every other, for its
wire time, and charges the port's shaper, and a subscriber's frame its service's and its own; a frame reaches the line only while its
lanes send and none runs a far-end loopback; frames past their stale limit are discarded and counted; a refill adds a microsecond's
credit to each port shaper that is enabled and caps it. -/
def Obligations.FramesSent : Prop :=
  ∀ (s : State) (p : Fin 64),
    (s.portExists p = false ∨ s.portOn p = false ∨ s.portRaw p = true ∨ s.now < tabGet 0 s.txFree p → Answers (.egressFrameStart p) s (fun t => t = s)) ∧
    (∀ f, s.portExists p = true → s.portOn p = true → s.portRaw p = false → tabGet 0 s.txFree p ≤ s.now → (∀ g ∈ s.frames p, g.seen = true) →
      (∀ g ∈ s.frames p, s.reached (g.elig.addNs (s.get (R.EGRp_CLS_STALE_US p) * 1000)) = false) →
      let ok := (queueHeads (s.frames p) []).filter (fun f => s.reached f.elig && s.gateFits p (s.classOf p f) f.wire && s.shaped p f)
      f ∈ ok → (∀ g ∈ ok, g ≠ f → f.first (s.classOf p f) (s.classOf p g) g = true ∧ g.first (s.classOf p g) (s.classOf p f) f = false) →
      let charged : State → Nat → Prop := fun t k => t.shaper k = (if (s.shaper k).on then
        { s.shaper k with credit := (s.shaper k).credit - f.wire * 2 ^ 16 } else s.shaper k)
      let line : Out → List Out := fun o => if s.portFar p = false ∧ s.portLit p = true then [o] else []
      s.pcrDue p = s → Answers (.egressFrameStart p) s (fun t => tabGet 0 t.txFree p = s.now + s.wireTime p f.wire ∧
        charged t (shPort p) ∧ (f.kind = 1 → f.flags ≠ 1 → charged t (shSvc f.key) ∧ charged t (shSub (f.key / 4))) ∧
        (s.portNear p = false ∨ s.portHears p = false →
          t.get (R.PORTp_TX_FRAMES_COUNT p) = min (s.get (R.PORTp_TX_FRAMES_COUNT p) + 1) (2 ^ 32 - 1) ∧
          (f.kind = 0 → (∀ n, f.stream = some n → (s.strm n).p.typ ≠ 1) → t.frames p = removeFirst (fun g => g == f) (s.frames p) ∧
            t.outbox = s.outbox ++ line (.frame p (4 * f.key) (s.netHead p f) f.rtp f.tsp f.bytes) ∧
            t = { s with regs := t.regs, outbox := t.outbox, egr := t.egr, txFree := t.txFree, shapers := t.shapers }) ∧
          (f.kind = 2 → f.stream = none → t.frames p = removeFirst (fun g => g == f) (s.frames p) ∧
            t.outbox = s.outbox ++ line (.ptpFrame p (s.ptpLeave p f).1) ∧
            t = { s with regs := t.regs, outbox := t.outbox, egr := t.egr, tsb := t.tsb, txFree := t.txFree, shapers := t.shapers })))) ∧
    (let late : Frame → Bool := fun f => s.reached (f.elig.addNs (s.get (R.EGRp_CLS_STALE_US p) * 1000));
      Answers (.frameStale p) s (fun t => t.frames p = (s.frames p).filter (fun f => !late f) ∧
        t.get (R.EGRp_STALE_COUNT p) = min (s.get (R.EGRp_STALE_COUNT p) + ((s.frames p).filter late).length) (2 ^ 32 - 1) ∧
        (∀ q, q ≠ p.val → t.frames q = s.frames q) ∧
        t = { s with regs := t.regs, rings := t.rings, streams := t.streams, freed := t.freed, progs := t.progs, egr := t.egr })) ∧
    (s.crossed 1000 = false ∨ 300 ∈ s.fired → Answers .shaperRefill s (fun t => t = s)) ∧
    (s.crossed 1000 = true → 300 ∉ s.fired → Answers .shaperRefill s (fun t =>
      (s.get (R.EGRp_RATE_KBPS p) = 0 → t.shaper (shPort p) = {}) ∧
      (s.get (R.EGRp_RATE_KBPS p) ≠ 0 → t.shaper (shPort p) = ShaperS.mk
        (min (max (s.get (R.EGRp_BURST_BYTES p)) (s.get (R.PORTp_CFG_MFS p) + 20) * 2 ^ 16)
          ((s.shaper (shPort p)).credit + s.get (R.EGRp_RATE_KBPS p) * 1 * 2 ^ 16 / 8000)) true) ∧
      t = { s with regs := t.regs, rings := t.rings, owed := t.owed, fired := 300 :: s.fired, shapers := t.shapers }))

/-- O47. Gate lists (R449-R451): an entry that has run for its duration gives place to the next; the armed bank takes over at its instant with
its first entry; a write arms, at the earliest 10 µs ahead, or cancels, and MODE 1 is reserved on ports 4-63. FUNC_SET of the gates
(R454): code 1 sets a pending entry, code 2 the pending list, code 3 arms and completes at the take-over, code 4 cancels. Values outside
their ranges are BAD_VALUE, and what would change an armed list is BUSY. -/
def Obligations.Gates : Prop :=
  (∀ (s : State) (w : Who) (p : Fin 64) (d : Word),
    (∀ e, (tabGet {} s.gates p : GateS).ends = some e → e ≤ s.now → Answers (.gateEntry p) s (fun t =>
      t.get (R.EGRp_GSTAT_ENTRY p) = (s.get (R.EGRp_GSTAT_ENTRY p) + 1) % 2 ^ 8 ∧
      t.get (R.EGRp_GSTAT_GATES p) = s.get (R.EGRp_GCLb_i_GATES p (s.get (R.EGRp_GSTAT_ACT p)) (s.get (R.EGRp_GSTAT_ENTRY p) + 1)) ∧
      (tabGet {} t.gates p : GateS).ends = (if s.get (R.EGRp_GSTAT_ENTRY p) + 2 < s.gateLen p then
        some (e + s.get (R.EGRp_GCLb_i_DUR_DUR p (s.get (R.EGRp_GSTAT_ACT p)) (s.get (R.EGRp_GSTAT_ENTRY p) + 1)) * unitsPerNs) else none) ∧
      t = { s with regs := t.regs, gates := t.gates } ∧ s.regsBut t [A.EGRp_GSTAT p])) ∧
    ((∀ e, (tabGet {} s.gates p : GateS).ends = some e → s.now < e) → Answers (.gateEntry p) s (fun t => t = s)) ∧
    (∀ e, s.takeAt p = some e → s.flag (R.EGRp_GCTL_PMODE p) = false → e ≤ s.now → s.steady = true → Answers (.gateTakeover p) s (fun t =>
      t.get (R.EGRp_GSTAT_ACT p) = 1 - s.get (R.EGRp_GSTAT_ACT p) ∧ t.get (R.EGRp_GSTAT_LISTED p) = 1 ∧ t.get (R.EGRp_GSTAT_MODE p) = 0 ∧
      t.get (R.EGRp_GSTAT_ENTRY p) = 0 ∧ t.get (R.EGRp_GCTL_ARM p) = 0 ∧
      t.get (R.EGRp_GSTAT_GATES p) = s.get (R.EGRp_GCLb_i_GATES p (1 - s.get (R.EGRp_GSTAT_ACT p)) 0) ∧
      t.gateLen p = s.get (R.EGRp_GCTL_PLEN p) ∧ (∀ o, o ∈ t.owed → o.wait ≠ .gate p) ∧
      t = { s with regs := t.regs, held := t.held, heldWait := t.heldWait, rings := t.rings, owed := t.owed, streams := t.streams, freed := t.freed,
                   progs := t.progs, egr := t.egr, gates := t.gates })) ∧
    ((∀ e, s.takeAt p = some e → s.now < e) → Answers (.gateTakeover p) s (fun t => t = s)) ∧
    (s.gate w (A.EGRp_GCTL p) d = true →
      (wordGet d 1 1 = 1 → 4 ≤ p.val → Answers (.gateArm w p d) s (fun t => s.onlyReports t ∧ s.regsBut t [A.TALLY_MERGED])) ∧
      (wordGet d 1 1 = 0 ∨ p.val < 4 →
        (s.get (R.EGRp_GCTL_ARM p) = 0 → wordGet d 0 1 = 0 → Answers (.gateArm w p d) s (fun t => s.takes t (A.EGRp_GCTL p) d ∧
          s.onlyRegs t ∧ s.regsBut t [A.EGRp_GCTL p])) ∧
        (s.get (R.EGRp_GCTL_ARM p) = 0 → wordGet d 0 1 = 1 → s.takeEarly p (wordGet d 1 1) = false → Answers (.gateArm w p d) s (fun t =>
          t.get (R.EGRp_GCTL_ARM p) = 1 ∧ (tabGet {} t.gates p : GateS).armAt = s.now ∧ s.takes t (A.EGRp_GCTL p) d ∧
          t = { s with regs := t.regs, gates := t.gates } ∧ s.regsBut t [A.EGRp_GCTL p])) ∧
        (s.get (R.EGRp_GCTL_ARM p) = 0 → wordGet d 0 1 = 1 → s.takeEarly p (wordGet d 1 1) = true → Answers (.gateArm w p d) s (fun t =>
          t.get (R.EGRp_GCTL_ARM p) = 0 ∧ s.tells t 0x7E0 0x80 ∧ s.onlyReports t)) ∧
        (s.get (R.EGRp_GCTL_ARM p) = 1 → wordGet d 0 1 = 0 → wordGet d 1 12 = wordGet (s.reg (A.EGRp_GCTL p)) 1 12 →
          Answers (.gateArm w p d) s (fun t => t.get (R.EGRp_GCTL_ARM p) = 0 ∧ (∀ o, o ∈ t.owed → o.wait ≠ .gate p) ∧
            t = { s with regs := t.regs, rings := t.rings, owed := t.owed, gates := t.gates })) ∧
        (s.get (R.EGRp_GCTL_ARM p) = 1 → wordGet d 0 1 = 1 → wordGet d 1 12 ≠ wordGet (s.reg (A.EGRp_GCTL p)) 1 12 →
          Answers (.gateArm w p d) s (fun t => s.tells t 0x7E0 0x80 ∧ s.onlyReports t ∧ s.regsBut t [A.TALLY_MERGED]))))) ∧
  (∀ (s : State) (c : Cmd) (p v code : Nat), s.accepts c 0x50 0 (some 6) → dSub c.desc = 0 → dget c.desc 16 0 8 = 6 →
    dget c.desc 18 0 8 = code → p = dUnit8 c.desc → p ≤ 63 → s.portExists p = true → v = dValue c.desc →
    dClean c.desc [(16, 0, 8), (18, 0, 16), (24, 0, 64)] = true →
    let b := 1 - s.get (R.EGRp_GSTAT_ACT p)
    let badValue : Instr → Prop := fun i => Answers i s (fun t => s.completes t c St.badValue 0 ∧ s.onlyRings t)
    let busy : Instr → Prop := fun i => Answers i s (fun t => s.completes t c St.busy 0 ∧ s.onlyRings t)
    (code = 1 → (v / 2 ^ 32 < 64 ∨ v / 2 ^ 16 % 2 ^ 16 ≠ 0 → badValue (.gateEntrySet c)) ∧
      (64 ≤ v / 2 ^ 32 → v / 2 ^ 16 % 2 ^ 16 = 0 → (s.get (R.EGRp_GCTL_ARM p) = 1 → busy (.gateEntrySet c)) ∧
        (s.get (R.EGRp_GCTL_ARM p) = 0 → Answers (.gateEntrySet c) s (fun t => s.completes t c St.ok 0 ∧
          t.get (R.EGRp_GCLb_i_GATES p b (v % 256)) = v / 256 % 256 ∧ t.get (R.EGRp_GCLb_i_DUR_DUR p b (v % 256)) = v / 2 ^ 32 ∧
          s.onlyRings t)))) ∧
    (code = 2 → (2 ^ 13 ≤ v ∨ natBit v 3 = true ∨ (v % 2 = 1 ∧ 4 ≤ p) ∨ v / 16 % 512 = 0 ∨ 256 < v / 16 % 512 → badValue (.gateListSet c)) ∧
      (v < 2 ^ 13 → natBit v 3 = false → (v % 2 = 0 ∨ p < 4) → 1 ≤ v / 16 % 512 → v / 16 % 512 ≤ 256 →
        (s.get (R.EGRp_GCTL_ARM p) = 1 → busy (.gateListSet c)) ∧
        (s.get (R.EGRp_GCTL_ARM p) = 0 → Answers (.gateListSet c) s (fun t => s.completes t c St.ok 0 ∧
          t.get (R.EGRp_GCTL_PMODE p) = v % 2 ∧ t.get (R.EGRp_GCTL_PGEN p) = v / 2 % 4 ∧ t.get (R.EGRp_GCTL_PLEN p) = v / 16 % 512 ∧
          s.onlyRings t)))) ∧
    (code = 3 →
      let bad := if s.flag (R.EGRp_GCTL_PMODE p) then v ≠ 0 else v * unitsPerNs < s.now + 10000 * unitsPerNs
      (bad → badValue (.gateArmSet c)) ∧
      (¬ bad → (s.get (R.EGRp_GCTL_ARM p) = 1 → busy (.gateArmSet c)) ∧
        (s.get (R.EGRp_GCTL_ARM p) = 0 → Answers (.gateArmSet c) s (fun t => t.get (R.EGRp_GCTL_ARM p) = 1 ∧
          t.owed = s.owed ++ [{ s.owedOf c with wait := .gate p }] ∧ (tabGet {} t.gates p : GateS).armAt = s.now ∧
          (s.flag (R.EGRp_GCTL_PMODE p) = false → t.get (R.EGRp_TAKE_L_NS p) = v % 2 ^ 32 ∧ t.get (R.EGRp_TAKE_H_NS p) = v / 2 ^ 32) ∧
          t = { s with regs := t.regs, fetched := t.fetched, turn := t.turn, owed := t.owed, gates := t.gates })))) ∧
    (code = 4 → (v ≠ 0 → badValue (.gateCancel c)) ∧
      (v = 0 → Answers (.gateCancel c) s (fun t =>
        (s.ringLive (s.complRing c) = true → (t.ring (s.complRing c)).unack.getLast? =
          some (.compl (dTag c.desc) St.ok (dOpc c.desc) c.ring 0 0)) ∧ t.get (R.EGRp_GCTL_ARM p) = 0 ∧
        (s.get (R.EGRp_GCTL_ARM p) = 1 → ∀ o, o ∈ t.owed → o.wait ≠ .gate p) ∧
        t = { s with regs := t.regs, rings := t.rings, fetched := t.fetched, turn := t.turn, owed := t.owed, gates := t.gates }))))

/-- O48. A pseudo-channel (R492-R494, R498, R503): a request that arrives enters its queue; the request that the order of R493 picks is issued
while the stack serves, a write into its granule; an idle pseudo-channel powers down and a request wakes it with a delay of 10 ns; rows
without an access for CEL_PAGE_TMO cycles close. Nothing else of the arrays changes. -/
def Obligations.CellarQueues : Prop :=
  ∀ (s : State) (k : Fin 2) (p : Fin 32) (c : PcS), c = s.pc k p →
    (∀ r : CelReq, s.stackServes k = false → r.addr < s.cellarSize → (s.celPlace r.addr).1 = k.val → (s.celPlace r.addr).2.1 = p.val →
      let q : QReq := { req := { r with addr := r.addr / 32 * 32 }, at_ := s.lt, no := c.seq }
      (r.write = false → c.reads.length < 32 → Answers (.cellarRequestIssue k p [r]) s (fun t => (t.pc k p).reads = c.reads ++ [q] ∧
        (c.writes.any (fun w => w.req.addr == q.req.addr) = true →
          t.get (R.CEL_RAWWAIT_COUNT k) = min (s.get (R.CEL_RAWWAIT_COUNT k) + 1) (2 ^ 32 - 1)) ∧
        t = { s with regs := t.regs, pcs := t.pcs } ∧ s.regsBut t [A.CEL_RAWWAIT k])) ∧
      (r.write = true → c.writes.any (fun w => w.req.addr == q.req.addr) = false → c.writes.length < 64 →
        Answers (.cellarRequestIssue k p [r]) s (fun t => (t.pc k p).writes = c.writes ++ [q] ∧ t = { s with pcs := t.pcs })) ∧
      (r.write = true → c.writes.any (fun w => w.req.addr == q.req.addr) = true → Answers (.cellarRequestIssue k p [r]) s (fun t =>
        (t.pc k p).writes = c.writes.map (fun w => if w.req.addr = q.req.addr then { w with req := q.req } else w) ∧
        t = { s with pcs := t.pcs })) ∧
      ((r.write = false ∧ 32 ≤ c.reads.length) ∨
          (r.write = true ∧ 64 ≤ c.writes.length ∧ c.writes.any (fun w => w.req.addr == q.req.addr) = false) →
        Answers (.cellarRequestIssue k p [r]) s (fun t => (t.pc k p).held = c.held ++ [q] ∧ t = { s with pcs := t.pcs }))) ∧
    (∀ q, s.stackServes k = true → c.down = false → c.ready ≤ s.lt → c.held = [] → c.drain = false → c.writes.length < 48 →
      s.pcPick k p = some q →
      (q.req.write = false → Answers (.cellarRequestIssue k p []) s (fun t => (t.pc k p).reads = removeFirst (fun x => x == q) c.reads ∧
        (t.pc k p).writes = c.writes ∧ (t.pc k p).rows = s.pageAfter c q ∧ t = { s with pcs := t.pcs })) ∧
      (q.req.write = true → s.fenced (s.celPlace q.req.addr).1 (s.celPlace q.req.addr).2.1 = false → s.flag (R.ECC_FLIPf_CTL_ARM 0) = false →
        Answers (.cellarRequestIssue k p []) s (fun t => (t.pc k p).writes = removeFirst (fun x => x == q) c.writes ∧
          (t.pc k p).reads = c.reads ∧ t.gran 0 q.req.addr = (List.range 4).map (fun i =>
            (q.req.data.toNat / 2 ^ (64 * i) % 2 ^ 64, keelCheck 0 q.req.addr i (q.req.data.toNat / 2 ^ (64 * i) % 2 ^ 64))) ∧
          (∀ f a, famKey f a ≠ famKey 0 q.req.addr → t.gran f a = s.gran f a) ∧
          t = { s with regs := t.regs, mem := t.mem, injRecs := t.injRecs, pcs := t.pcs }))) ∧
    (let n := s.get (R.CEL_PD_IDLE_CYC k);
      (c.reads = [] → c.writes = [] → c.rows = [] → n ≠ 0 → c.idle + 2 * n ≤ s.lt → Answers (.cellarPowerDown k p) s (fun t =>
        t.pc k p = { c with down := true } ∧ t = { s with pcs := t.pcs })) ∧
      (c.reads ≠ [] ∨ c.writes ≠ [] ∨ c.rows ≠ [] ∨ n = 0 ∨ s.lt < c.idle + 2 * n → Answers (.cellarPowerDown k p) s (fun t => t = s))) ∧
    (c.down = true → c.reads ≠ [] ∨ c.writes ≠ [] → Answers (.cellarPdWake k p) s (fun t =>
      t.pc k p = { c with down := false, ready := s.lt + 20, idle := s.lt } ∧ t = { s with pcs := t.pcs })) ∧
    (c.down = false → Answers (.cellarPdWake k p) s (fun t => t = s)) ∧
    Answers (.rowCloseTimeout k p) s (fun t =>
      t.pc k p = { c with rows := c.rows.filter (fun e => decide (s.lt < e.2 + 2 * s.get (R.CEL_PAGE_TMO_CYC k))) } ∧ t = { s with pcs := t.pcs })

/-- O49. Refresh (R499-R502, R509, R511): at its instant a stack closes every row, stalls for 410 ns, takes the band decided and the repairs that
wait, and counts its next instant; a reading decides the band; a recalibration round begins while RECAL_EN is 1. -/
def Obligations.CellarRefreshes : Prop :=
  ∀ (s : State) (k : Fin 2),
    (∀ r, (s.stack k).refNext = some r → r ≤ s.lt → (s.stack k).recal = none →
      (s.get (R.CEL_STAT_REP_PEND k) = 0 → Answers (.cellarRefresh k) s (fun t => (∀ p, p < 32 → (t.pc k p).rows = []) ∧
        (t.stack k).stall = r + 820 ∧
        (k.val = 0 → t.get (R.CEL_STAT_BAND 0) = (s.stack 0).band % 4 ∧ (t.stack 0).refNext = some (r + tRefi (s.stack 0).band)) ∧
        (k.val = 1 → (t.stack 1).refNext = some (r + tRefi (s.get (R.CEL_STAT_BAND 1)))) ∧
        t = { s with regs := t.regs, pcs := t.pcs, stackTab := t.stackTab } ∧ s.regsBut t [A.CEL_STAT 0, A.CEL_STAT 1])) ∧
      (s.get (R.CEL_STAT_REP_PEND k) = 1 → Answers (.cellarRefresh k) s (fun t => t.get (R.CEL_STAT_REP_PEND k) = 0 ∧
        (t.stack k).repair = [] ∧ (t.stack k).stall = r + 820 ∧
        t = { s with regs := t.regs, held := t.held, heldWait := t.heldWait, pcs := t.pcs, stackTab := t.stackTab }))) ∧
    ((∀ r, (s.stack k).refNext = some r → s.lt < r) → Answers (.cellarRefresh k) s (fun t => t = s)) ∧
    (∀ x : Int, s.part = .fa ∨ k.val = 0 → Answers (.cellarTempReading k x) s (fun t => t.get (R.CEL_TEMP_TJ k) = unsigned 8 x ∧
      (t.stack 0).band = bandStep (s.stack 0).band t.hotter ∧ t = { s with regs := t.regs, stackTab := t.stackTab } ∧
      s.regsBut t [A.CEL_TEMP k])) ∧
    (s.get (R.CEL_CTL_RECAL_EN k) = 1 → (s.stack k).recal = none → (s.stack k).refNext ≠ none → Answers (.recalibrationRound k) s (fun t =>
      (t.stack k).recal = some 0 ∧ t = { s with stackTab := t.stackTab })) ∧
    (s.get (R.CEL_CTL_RECAL_EN k) = 0 ∨ (s.stack k).recal ≠ none → Answers (.recalibrationRound k) s (fun t => t = s)) ∧
    (s.get (R.CEL_CTL_TRAFFIC_EN k) = 1 → s.get (R.CEL_STAT_PLL_LOCK k) = 1 → Answers (.celPll k) s (fun t =>
      t.get (R.CEL_STAT_PLL_LOCK k) = 0 ∧ s.tells t (0x140 + k) 0x0A ∧ s.onlyReports t ∧ s.regsBut t [A.CEL_STAT k, A.TALLY_MERGED])) ∧
    (s.get (R.CEL_CTL_TRAFFIC_EN k) = 0 ∨ s.get (R.CEL_STAT_PLL_LOCK k) = 0 → Answers (.celPll k) s (fun t => t = s))

/-- O50. Control of a stack (R506, R508, R511, R518): training runs only without traffic, clears its counts and ends with those of each lane; a
mode register is written only without traffic; a write that enables a spare waits for the next refresh stall, one that disables a spare
is refused; TRAFFIC_EN is not cleared while a stream lives. FUNC_SET of the Cellar (R517): code 1 repairs a lane with the next free
spare, code 2 sets RECAL_EN, code 3 the repair threshold; a value outside its range is BAD_VALUE. -/
def Obligations.CellarControl : Prop :=
  (∀ (s : State) (w : Who) (k : Fin 2) (d : Word),
    (s.gate w (A.CEL_TRN_CTL k) d = true → wordGet d 0 1 = 1 →
      (s.get (R.CEL_CTL_TRAFFIC_EN k) = 0 → s.get (R.CEL_TRN_STAT_BUSY k) = 0 → Answers (.trnGo w k d) s (fun t =>
        t.get (R.CEL_TRN_STAT_BUSY k) = 1 ∧ (∀ i, i < 38 → t.get (R.CEL_TRN_ERRd_COUNT k i) = 0) ∧ s.takes t (A.CEL_TRN_CTL k) d ∧
        s.onlyRegs t)) ∧
      (s.get (R.CEL_CTL_TRAFFIC_EN k) = 1 ∨ s.get (R.CEL_TRN_STAT_BUSY k) = 1 → Answers (.trnGo w k d) s (fun t =>
        s.tells t 0x7E0 0x80 ∧ s.onlyReports t ∧ s.regsBut t [A.TALLY_MERGED]))) ∧
    (∀ errs : List Nat, s.get (R.CEL_TRN_STAT_BUSY k) = 1 → Answers (.trnDone k errs) s (fun t => t.get (R.CEL_TRN_STAT_BUSY k) = 0 ∧
      t.get (R.CEL_TRN_STAT_DONE k) = 1 ∧
      (∀ i, i < 38 → t.get (R.CEL_TRN_ERRd_COUNT k i) = min ((errs[i]?).getD 0) (2 ^ 32 - 1)) ∧
      (s.get (R.CEL_TRN_CTL_TGT k) ≠ 2 → s.onlyRegs t) ∧
      t = { s with regs := t.regs, hot := t.hot, freeCtr := t.freeCtr, mem := t.mem, injRecs := t.injRecs })) ∧
    (∀ errs, s.get (R.CEL_TRN_STAT_BUSY k) = 0 → Answers (.trnDone k errs) s (fun t => t = s)) ∧
    (s.gate w (A.CEL_MRW k) d = true → wordGet d 31 1 = 1 →
      (s.get (R.CEL_CTL_TRAFFIC_EN k) = 0 → Answers (.mrwGo w k d) s (fun t => s.takes t (A.CEL_MRW k) d ∧
        (∀ ch, ch < 16 → wordGet d 16 1 = 1 ∨ ch = wordGet d 12 4 → (ch, wordGet d 8 4, wordGet d 0 8) ∈ (t.stack k).mrs) ∧
        t = { s with regs := t.regs, stackTab := t.stackTab } ∧ s.regsBut t [A.CEL_MRW k])) ∧
      (s.get (R.CEL_CTL_TRAFFIC_EN k) = 1 → Answers (.mrwGo w k d) s (fun t => s.tells t 0x7E0 0x80 ∧ s.onlyReports t ∧
        s.regsBut t [A.TALLY_MERGED]))) ∧
    (∀ i : Fin 32, s.gate w (A.CEL_REPAIRp k i) d = true →
      (s.repairBad k i d = true → Answers (.repairWrite w k false i d) s (fun t => s.tells t 0x7E0 0x80 ∧ s.onlyReports t ∧
        s.regsBut t [A.TALLY_MERGED])) ∧
      (s.repairBad k i d = false → Answers (.repairWrite w k false i d) s (fun t => s.takes t (A.CEL_REPAIRp k i) d ∧
        (s.get (R.CEL_REPAIRp_SP0_EN k i) = 0 → wordGet d 6 1 = 1 →
          (false, i.val, wordGet d 0 6) ∈ (t.stack k).repair ∧ t.get (R.CEL_STAT_REP_PEND k) = 1) ∧
        (s.get (R.CEL_REPAIRp_SP1_EN k i) = 0 → wordGet d 14 1 = 1 →
          (false, i.val, wordGet d 8 6) ∈ (t.stack k).repair ∧ t.get (R.CEL_STAT_REP_PEND k) = 1) ∧
        t = { s with regs := t.regs, stackTab := t.stackTab } ∧ s.regsBut t [A.CEL_REPAIRp k i, A.CEL_STAT k]))) ∧
    (∀ i : Fin 32, i.val < 16 → s.gate w (A.CEL_CAREPc k i) d = true →
      (s.get (R.CEL_CAREPc_EN k i) = 1 → wordGet d 5 1 = 0 → Answers (.repairWrite w k true i d) s (fun t => s.tells t 0x7E0 0x80 ∧
        s.onlyReports t ∧ s.regsBut t [A.TALLY_MERGED])) ∧
      (s.get (R.CEL_CAREPc_EN k i) = 0 ∨ wordGet d 5 1 = 1 → Answers (.repairWrite w k true i d) s (fun t =>
        s.takes t (A.CEL_CAREPc k i) d ∧ (s.get (R.CEL_CAREPc_EN k i) = 0 → wordGet d 5 1 = 1 →
          (true, i.val, wordGet d 0 5) ∈ (t.stack k).repair ∧ t.get (R.CEL_STAT_REP_PEND k) = 1) ∧
        t = { s with regs := t.regs, stackTab := t.stackTab } ∧ s.regsBut t [A.CEL_CAREPc k i, A.CEL_STAT k]))) ∧
    (s.gate w (A.CEL_CTL k) d = true →
      (wordGet d 0 1 = 0 → s.get (R.CEL_CTL_TRAFFIC_EN k) = 1 → s.streamsLive = true → Answers (.trafficEnWrite w k d) s (fun t =>
        s.tells t 0x7E0 0x80 ∧ s.onlyReports t ∧ s.regsBut t [A.TALLY_MERGED])) ∧
      (wordGet d 0 1 = 1 ∨ s.get (R.CEL_CTL_TRAFFIC_EN k) = 0 ∨ s.streamsLive = false → Answers (.trafficEnWrite w k d) s (fun t =>
        s.takes t (A.CEL_CTL k) d ∧ (wordGet d 0 1 = 1 → (t.stack k).refNext ≠ none) ∧
        t = { s with regs := t.regs, stackTab := t.stackTab } ∧ s.regsBut t [A.CEL_CTL k])))) ∧
  (∀ (s : State) (c : Cmd) (k v code : Nat), s.accepts c 0x50 0 (some 2) → dSub c.desc = 0 → dget c.desc 16 0 8 = 2 →
    dget c.desc 18 0 8 = code → k = dUnit8 c.desc → k ≤ 1 → s.celUnit c = true → v = dValue c.desc →
    dClean c.desc [(16, 0, 8), (18, 0, 16), (24, 0, 64)] = true →
    let bad : Instr → Prop := fun i => Answers i s (fun t => s.completes t c St.badValue 0 ∧ s.onlyRings t)
    let p := v % 32
    let lane := v / 32 % 64
    (code = 1 →
      (2 ^ 11 ≤ v ∨ 35 < lane ∨ s.freeSpare k p = none → bad (.celLaneRepairSet c)) ∧
      (∀ i, v < 2 ^ 11 → lane ≤ 35 → s.freeSpare k p = some i → s.laneReplaced k p lane = false → Answers (.celLaneRepairSet c) s (fun t =>
        s.completes t c St.ok 0 ∧ (i = 0 → t.get (R.CEL_REPAIRp_SP0_LANE k p) = lane ∧ t.get (R.CEL_REPAIRp_SP0_EN k p) = 1) ∧
        (i = 1 → t.get (R.CEL_REPAIRp_SP1_LANE k p) = lane ∧ t.get (R.CEL_REPAIRp_SP1_EN k p) = 1) ∧
        t.get (R.CEL_STAT_REP_PEND k) = 1 ∧ (false, p, lane) ∈ (t.stack k).repair ∧
        t = { s with regs := t.regs, rings := t.rings, fetched := t.fetched, turn := t.turn, stackTab := t.stackTab })) ∧
      (∀ i, v < 2 ^ 11 → lane ≤ 35 → s.freeSpare k p = some i → s.laneReplaced k p lane = true → Answers (.celLaneRepairSet c) s (fun t =>
        s.completes t c St.ok 0 ∧ s.tells t 0x7E0 0x80 ∧ s.onlyRings t))) ∧
    (code = 2 → (1 < v → bad (.celRecalSet c)) ∧
      (v ≤ 1 → Answers (.celRecalSet c) s (fun t => s.completes t c St.ok 0 ∧ t.get (R.CEL_CTL_RECAL_EN k) = v ∧ s.onlyRings t))) ∧
    (code = 3 → (v = 0 ∨ 65535 < v → bad (.celRepairThresholdSet c)) ∧
      (1 ≤ v → v ≤ 65535 → Answers (.celRepairThresholdSet c) s (fun t => s.completes t c St.ok 0 ∧ (t.stack k).thr = v ∧
        t = { s with regs := t.regs, rings := t.rings, fetched := t.fetched, turn := t.turn, stackTab := t.stackTab }))))

/-- O51. A protected array is read (R522-R525, R527, R534, R536, R541): of a clean granule nothing changes; a codeword with one wrong bit is
counted and reported, an uncorrectable one too, a poisoned one reported, each at its source; a Larder read that fails sends the job back
and keeps the stream from the Crew; the scrubber goes on to the next granule; a walker writes a corrected granule back. -/
def Obligations.ArrayReads : Prop :=
  ∀ (s : State) (fam : Fin 5) (addr a : Nat), a = addr / granSpan fam * granSpan fam → s.arrHolds fam a = true →
    (∀ r ∈ s.injRecs, r.fam ≠ fam.val ∨ r.addr ≠ a) → (fam.val = 0 → s.fenced (s.celPlace a).1 (s.celPlace a).2.1 = false) →
    ((∀ e ∈ (s.gran fam a).zip (List.range (keelN fam)), syndrome fam a e.2 e.1 = 0) →
      (∀ r : Reader, r ≠ .scrub → Answers (.arrayReadReturn fam addr r) s (fun t => t = s)) ∧
      Answers (.walkerRead fam addr) s (fun t => t = s) ∧
      (s.get R.SCRUB_STAT_BUSY = 1 → a = s.scrubPos → fam.val = s.scrubFam a → s.get R.SCRUB_STAT_RANGE < 8 →
        a + granSpan fam < (s.scrubRange (s.get R.SCRUB_STAT_RANGE)).1 + (s.scrubRange (s.get R.SCRUB_STAT_RANGE)).2 →
        Answers (.arrayReadReturn fam addr .scrub) s (fun t => t.get R.SCRUB_STAT_BUSY = 0 ∧ t.scrubPos = a + granSpan fam ∧
          t.get R.SCRUB_STAT_RANGE = s.get R.SCRUB_STAT_RANGE ∧ s.onlyRegs t ∧
          s.regsBut t [A.SCRUB_STAT, A.SCRUB_POS_L, A.SCRUB_POS_H]))) ∧
    (s.get R.SCRUB_STAT_BUSY = 0 → Answers (.arrayReadReturn fam addr .scrub) s (fun t => t = s)) ∧
    (∀ d c, fam.val ≠ 0 → s.gran fam a = [(d, c)] →
      let y := syndOf fam (syndrome fam a 0 (d, c))
      (y.fixed = true → Answers (.arrayReadReturn fam addr .plain) s (fun t => s.tells t (s.arrSource fam a) 0x00 ∧
        t.get (R.ECC_CEf_COUNT fam) = min (s.get (R.ECC_CEf_COUNT fam) + 1) (2 ^ 32 - 1) ∧ s.onlyReports t ∧
        s.regsBut t [A.ECC_CEf fam, A.TALLY_MERGED])) ∧
      (y = .bad → Answers (.arrayReadReturn fam addr .plain) s (fun t => s.tells t (s.arrSource fam a) 0x01 ∧
        t.get (R.ECC_UCEf_COUNT fam) = min (s.get (R.ECC_UCEf_COUNT fam) + 1) (2 ^ 32 - 1) ∧ s.onlyReports t ∧
        s.regsBut t [A.ECC_UCEf fam, A.TALLY_MERGED])) ∧
      (y = .poison → Answers (.arrayReadReturn fam addr .plain) s (fun t => s.tells t (s.arrSource fam a) 0x02 ∧ s.onlyReports t ∧
        s.regsBut t [A.TALLY_MERGED])) ∧
      (∀ (u : Fin 144) r, y = .poison → s.run u = some r → Answers (.arrayReadReturn fam addr (.larder u)) s (fun t =>
        (r.job.stream, a) ∈ (t.crew (u / 36)).bad ∧
          t = { s with regs := t.regs, freed := t.freed, freeCtr := t.freeCtr, held := t.held, heldWait := t.heldWait,
                       preempt := t.preempt, rings := t.rings, outbox := t.outbox, streams := t.streams, crews := t.crews, runs := t.runs,
                       seqs := t.seqs, progs := t.progs, retPend := t.retPend, egr := t.egr, mem := t.mem, injRecs := t.injRecs,
                       badRows := t.badRows, lost := t.lost, celCe := t.celCe, stackTab := t.stackTab })) ∧
      (y.fixed = true → fam.val = 2 → s.flag (R.CREWc_LDR_SLOTs_USED (a / 2 ^ 20) (a % 2 ^ 20 / 16384)) = true →
        Answers (.walkerRead fam addr) s (fun t => t.gran 2 a = [(y.fix d, keelCheck 2 a 0 (y.fix d))] ∧
          t.get (R.ECC_CEf_COUNT 2) = min (s.get (R.ECC_CEf_COUNT 2) + 1) (2 ^ 32 - 1) ∧
          (∀ f b, famKey f b ≠ famKey 2 a → t.gran f b = s.gran f b) ∧
          t = { s with regs := t.regs, held := t.held, heldWait := t.heldWait, mem := t.mem, injRecs := t.injRecs })))

/-- O52. The scrubber (R533, R544, R545, R605): enabling one whose ranges are legal starts it at its first range, an illegal range leaves it off
and is reported; while it is on and not held a read begins; FUNC_SET sets its rate and its enable. -/
def Obligations.Scrubber : Prop :=
  ∀ s : State,
    (∀ (w : Who) (d : Word), s.gate w A.SCRUB_CTL d = true →
      (wordGet d 0 1 = 0 → Answers (.scrubCtlWrite w d) s (fun t => t.get R.SCRUB_CTL_EN = 0 ∧ s.onlyRegs t ∧ s.regsBut t [A.SCRUB_CTL])) ∧
      (wordGet d 0 1 = 1 → s.get R.SCRUB_CTL_EN = 0 → s.scrubLegal = false → Answers (.scrubCtlWrite w d) s (fun t =>
        t.get R.SCRUB_CTL_EN = 0 ∧ s.tells t 0x7E0 0x80 ∧ s.onlyReports t ∧ s.regsBut t [A.TALLY_MERGED])) ∧
      (wordGet d 0 1 = 1 → s.get R.SCRUB_CTL_EN = 0 → s.scrubLegal = true → Answers (.scrubCtlWrite w d) s (fun t =>
        t.get R.SCRUB_CTL_EN = 1 ∧ (∀ r, s.scrubFrom 0 = some r → t.get R.SCRUB_STAT_RANGE = r ∧
          t.get R.SCRUB_POS_L_VALUE = (s.scrubRange r).1 % 2 ^ 32) ∧ s.onlyRegs t ∧
        s.regsBut t [A.SCRUB_CTL, A.SCRUB_STAT, A.SCRUB_POS_L, A.SCRUB_POS_H])) ∧
      (wordGet d 0 1 = 1 → s.get R.SCRUB_CTL_EN = 1 → Answers (.scrubCtlWrite w d) s (fun t => t = s))) ∧
    (s.get R.SCRUB_CTL_EN = 1 → s.get R.CLKPWR_SLEEP_SCRUB_HOLD = 0 → s.scrubFrom 0 ≠ none → Answers .scrubRead s (fun t =>
      t.get R.SCRUB_STAT_BUSY = 1 ∧ s.onlyRegs t ∧ s.regsBut t [A.SCRUB_STAT])) ∧
    (s.get R.SCRUB_CTL_EN = 0 ∨ s.get R.CLKPWR_SLEEP_SCRUB_HOLD = 1 → Answers .scrubRead s (fun t => t = s)) ∧
    (∀ (c : Cmd) (v code : Nat), s.accepts c 0x50 0 (some 3) → dSub c.desc = 0 → dget c.desc 16 0 8 = 3 → dget c.desc 18 0 8 = code →
      dUnit8 c.desc = 0 → v = dValue c.desc → dClean c.desc [(16, 0, 8), (18, 0, 16), (24, 0, 64)] = true →
      (code = 1 → (v < 64 ∨ 1000000 < v → Answers (.scrubRateSet c) s (fun t => s.completes t c St.badValue 0 ∧ s.onlyRings t)) ∧
        (64 ≤ v → v ≤ 1000000 → Answers (.scrubRateSet c) s (fun t => s.completes t c St.ok 0 ∧ t.get R.SCRUB_RATE_KBPS = v ∧
          s.onlyRings t))) ∧
      (code = 2 → (1 < v → Answers (.scrubEnSet c) s (fun t => s.completes t c St.badValue 0 ∧ s.onlyRings t)) ∧
        (v ≤ 1 → Answers (.scrubEnSet c) s (fun t => s.completes t c St.ok 0 ∧ s.onlyRings t ∧
          (v = 0 ∨ s.scrubLegal = true → t.get R.SCRUB_CTL_EN = v)))))

/-- O53. Injection and link checks (R539-R542): an armed flip set takes its masks' write, at most 8 records are held, CLR removes the family's;
CHK_INJ gives the next COUNT checks the inverted value; a Slide transfer that fails its CRC is reported, its second failure at Major; a
queue of a port that fails its check is emptied and reported. The Larder window (R163, R530): writes to consecutive words from a 16-byte
boundary are collected, and the fourth writes the whole granule with fresh check bits; a read gives the word at the address; either
moves the address on by 4. -/
def Obligations.Protection : Prop :=
  (∀ (s : State) (w : Who) (d : Word),
    (∀ f : Fin 5, s.gate w (A.ECC_FLIPf_CTL f) d = true →
      (wordGet d 0 1 = 1 → wordGet d 4 1 = 0 → s.get (R.ECC_FLIPf_CTL_RECS f) < 8 → Answers (.flipArm w f d) s (fun t =>
        t.get (R.ECC_FLIPf_CTL_ARM f) = 1 ∧ s.takes t (A.ECC_FLIPf_CTL f) d ∧ s.onlyRegs t ∧ s.regsBut t [A.ECC_FLIPf_CTL f])) ∧
      (wordGet d 0 1 = 1 → wordGet d 4 1 = 0 → 8 ≤ s.get (R.ECC_FLIPf_CTL_RECS f) → Answers (.flipArm w f d) s (fun t =>
        t.get (R.ECC_FLIPf_CTL_ARM f) = s.get (R.ECC_FLIPf_CTL_ARM f) ∧ s.tells t 0x7E0 0x80 ∧ s.onlyReports t ∧
        s.regsBut t [A.ECC_FLIPf_CTL f, A.TALLY_MERGED])) ∧
      (wordGet d 4 1 = 1 → Answers (.flipClr w f d) s (fun t => t.injRecs = s.injRecs.filter (fun r => r.fam != f.val) ∧
        t.get (R.ECC_FLIPf_CTL_RECS f) = 0 ∧ t.get (R.ECC_FLIPf_CTL_ARM f) = wordGet d 0 1 ∧
        t = { s with regs := t.regs, injRecs := t.injRecs } ∧ s.regsBut t [A.ECC_FLIPf_CTL f]))) ∧
    (s.gate w A.CHK_INJ_CTL d = true → Answers (.chkInjArm w d) s (fun t => s.takes t A.CHK_INJ_CTL d ∧
      t.chkLeft = (if wordGet d 8 1 = 1 then wordGet d 0 8 else 0) ∧ t = { s with regs := t.regs, chkLeft := t.chkLeft } ∧
      s.regsBut t [A.CHK_INJ_CTL])) ∧
    (∀ (l : Fin 50) (real : Bool), s.part = .fa → s.get R.CHK_INJ_CTL_ARM = 0 →
      (real = true → (s.held.all (fun m => m.src != 0x500 + l.val) = true → ∀ second : Bool, Answers (.slideCrc l second real) s (fun t =>
        ∃ m ∈ t.held, m.src = 0x500 + l.val ∧ m.kind = 0x33 ∧ m.lvl = (if second then 2 else 0))) ∧
        ∀ second : Bool, Answers (.slideCrc l second real) s (fun t => s.onlyReports t ∧ s.regsBut t [A.TALLY_MERGED])) ∧
      (real = false → ∀ second : Bool, Answers (.slideCrc l second real) s (fun t => t = s))) ∧
    (∀ l : Fin 50, s.part = .fa → s.get R.CHK_INJ_CTL_ARM = 1 → s.get R.CHK_INJ_SEL_GROUP = 2 → s.get R.CHK_INJ_SEL_UNIT = l.val →
      s.held.all (fun m => m.src != 0x500 + l.val) = true → Answers (.slideCrc l false false) s (fun t =>
        t.chkLeft = s.chkLeft - 1 ∧ (s.chkLeft ≤ 1 → t.get R.CHK_INJ_CTL_ARM = 0) ∧ (∃ m ∈ t.held, m.src = 0x500 + l.val ∧ m.inj = true) ∧
        t = { s with regs := t.regs, hot := t.hot, held := t.held, heldWait := t.heldWait, chkLeft := t.chkLeft })) ∧
    (∀ p : Fin 64, s.get R.CHK_INJ_CTL_ARM = 0 →
      Answers (.queuePar p true) s (fun t => t.frames p = (s.frames p).filter (fun f => f.kind == 2) ∧
        (∀ q, q ≠ p.val → t.frames q = s.frames q) ∧ s.tells t (0x180 + p) 0x49 ∧
        t = { s with regs := t.regs, held := t.held, heldWait := t.heldWait, rings := t.rings, streams := t.streams, freed := t.freed, progs := t.progs,
                     egr := t.egr }) ∧
      Answers (.queuePar p false) s (fun t => t = s))) ∧
  (∀ (s : State) (w : Who) (c : Fin 4) (d : Word) (o : Nat), o = s.get (R.CREWc_LDR_ADDR_ADDR c) / 4 * 4 → o < 0xC0000 →
    (s.gate w (A.CREWc_LDR_DATA c) d = true →
      (tabGet none s.ldrCol c = none → o % 16 = 0 → Answers (.ldrDataWrite w c d) s (fun t =>
        tabGet none t.ldrCol c = some { base := o, words := [d] } ∧
        t.get (R.CREWc_LDR_ADDR_ADDR c) = (s.get (R.CREWc_LDR_ADDR_ADDR c) + 4) % 2 ^ 20 ∧
        t = { s with regs := t.regs, ldrCol := t.ldrCol } ∧ s.regsBut t [A.CREWc_LDR_ADDR c])) ∧
      (∀ x y z base, tabGet none s.ldrCol c = some { base := base, words := [x, y, z] } → o = base + 12 → base % 16 = 0 →
        s.get (R.ECC_FLIPf_CTL_ARM 2) = 0 → Answers (.ldrDataWrite w c d) s (fun t => tabGet none t.ldrCol c = none ∧
          (∀ v, v = x.toNat + y.toNat * 2 ^ 32 + z.toNat * 2 ^ 64 + d.toNat * 2 ^ 96 →
            t.gran 2 (c * 2 ^ 20 + base) = [(v, keelCheck 2 (c * 2 ^ 20 + base) 0 v)]) ∧
          (∀ f b, famKey f b ≠ famKey 2 (c * 2 ^ 20 + base) → t.gran f b = s.gran f b) ∧
          t.get (R.CREWc_LDR_ADDR_ADDR c) = (s.get (R.CREWc_LDR_ADDR_ADDR c) + 4) % 2 ^ 20 ∧
          t = { s with regs := t.regs, crews := t.crews, mem := t.mem, injRecs := t.injRecs, ldrCol := t.ldrCol }))) ∧
    (∀ v, s.absent (A.CREWc_LDR_DATA c) = false → tabGet none s.ldrCol c = none →
      let g := c * 2 ^ 20 + o / 16 * 16
      s.gran 2 g = [(v, keelCheck 2 g 0 v)] → v < 2 ^ 128 → (∀ r ∈ s.injRecs, r.fam ≠ 2 ∨ r.addr ≠ g) →
      Answers (.ldrDataRead w c) s (fun t =>
        t.outbox = s.outbox ++ [.value w (A.CREWc_LDR_DATA c) (BitVec.ofNat 32 (v / 2 ^ (8 * (o % 16)) % 2 ^ 32))] ∧
        t.get (R.CREWc_LDR_ADDR_ADDR c) = (s.get (R.CREWc_LDR_ADDR_ADDR c) + 4) % 2 ^ 20 ∧
        t = { s with regs := t.regs, outbox := t.outbox } ∧ s.regsBut t [A.CREWc_LDR_ADDR c])) ∧
    (s.absent (A.CREWc_LDR_DATA c) = true → Answers (.ldrDataRead w c) s (fun t =>
      t = { s with outbox := s.outbox ++ [.value w (A.CREWc_LDR_DATA c) 0] })))

/-- O54. The Tally takes a message (R552-R556, R559, R567): the one held longest sets its source's sticky bit and, where its class is not CFG,
adds to the source's count; a count that reaches N_SEVERE makes the source severe and delivers at Severe; a delivery at Minor or above
leaves its class unacknowledged. A window that device time has ended clears the counts of its class, updates their streaks and takes the
length and threshold of the registers. Control of the Tally (R557, R558, R565, R567): an acknowledgement clears the class's bit and
level alone, which a delivery of the same cycle leaves with the level that it delivered; a 1 clears a source's severe bit and leaves its
count; a second under the thermal ceiling is counted; FUNC_SET sets the window's length and threshold of a class within their ranges. -/
def Obligations.TallyWork : Prop :=
  (∀ s : State,
    (s.held = [] → Answers .tallyMessage s (fun t => t = s)) ∧
    (∀ m r h n cls, s.held = m :: r → (∀ x ∈ s.heldWait, x.src ≠ m.src) → homeClass m.src = some h → h < 8 →
      s.sec < (s.window h).stop → s.get R.TALLY_CTL_FWD_EN = 0 → cls = m.kind / 16 → cls < 8 → m.inj = false → m.merged = 0 →
      m.mergedInj = 0 → m.lvl ≤ 1 → natBit (s.get R.TALLY_UNACK_UNACK) cls = false → s.escLvl cls = 0 →
      n = min ((s.tallySrc m.src).count + 1) 65535 →
      let severe := ((s.window h).nsev ≠ 0 ∧ (s.window h).nsev ≤ n) ∨ s.get (sevRF m.src) = 1
      (¬ severe → Answers .tallyMessage s (fun t => t.held = r ∧ t.get (stickyRF m.src) = 1 ∧ (t.tallySrc m.src).count = n ∧
        t.get (sevRF m.src) = 0 ∧ natBit (t.get R.TALLY_UNACK_UNACK) cls = decide (m.lvl = 1) ∧ (m.lvl = 1 → 1 ≤ t.unackLvl cls) ∧
        (∀ i, i ≠ m.src → t.tallySrc i = s.tallySrc i) ∧
        t = { s with regs := t.regs, hot := t.hot, fired := t.fired, held := t.held, heldWait := t.heldWait, tsrc := t.tsrc })) ∧
      (severe → m.lvl = 0 → Answers .tallyMessage s (fun t => t.held = r ∧ t.get (stickyRF m.src) = 1 ∧ (t.tallySrc m.src).count = n ∧
        t.get (sevRF m.src) = 1 ∧ natBit (t.get R.TALLY_UNACK_UNACK) cls = true ∧ 3 ≤ t.unackLvl cls ∧ t.get R.TALLY_STAT_ALERT = 1 ∧
        t = { s with regs := t.regs, hot := t.hot, fired := t.fired, held := t.held, heldWait := t.heldWait, tsrc := t.tsrc }))) ∧
    (∀ c : Fin 8, tabWf (fun _ => {}) s.tsrc = true → (s.window c).stop ≤ s.sec → 1 ≤ s.get (R.TALLY_WINc_SECONDS c) → Answers (.tallyWindowStart c) s (fun t =>
      (t.window c).len = s.get (R.TALLY_WINc_SECONDS c) ∧ (t.window c).nsev = s.get (R.TALLY_NSEVc_N c) ∧
      s.sec < (t.window c).stop ∧ (t.window c).stop ≤ s.sec + s.get (R.TALLY_WINc_SECONDS c) ∧ t.get R.TALLY_STAT_SWEEP = 1 ∧
      (∀ i, homeClass i = some c.val → (t.tallySrc i).count = 0 ∧ (t.tallySrc i).reached = false ∧
        (t.tallySrc i).streak = if (s.tallySrc i).reached then min ((s.tallySrc i).streak + 1) 3 else 0) ∧
      (∀ i, homeClass i ≠ some c.val → t.tallySrc i = s.tallySrc i) ∧
      t = { s with regs := t.regs, held := t.held, heldWait := t.heldWait, tsrc := t.tsrc, twin := t.twin })) ∧
    (∀ c : Fin 8, s.sec < (s.window c).stop → Answers (.tallyWindowStart c) s (fun t => t = s)) ∧
    Answers .tallySweepEnd s (fun t => t.get R.TALLY_STAT_SWEEP = 0 ∧ s.onlyRegs t ∧ s.regsBut t [A.TALLY_STAT])) ∧
  (∀ s : State,
    (∀ (w : Who) (d : Word), s.gate w A.TALLY_UNACK d = true → Answers (.tallyAck w d) s (fun t =>
      (∀ c, c < 9 → (natBit d.toNat c = true →
          (s.cycleLvl dlvKey c = 0 → natBit (t.get R.TALLY_UNACK_UNACK) c = false ∧ t.unackLvl c = 0) ∧
          (s.cycleLvl dlvKey c ≠ 0 → natBit (t.get R.TALLY_UNACK_UNACK) c = true ∧ t.unackLvl c = s.cycleLvl dlvKey c)) ∧
        (natBit d.toNat c = false → natBit (t.get R.TALLY_UNACK_UNACK) c = natBit (s.get R.TALLY_UNACK_UNACK) c ∧
          t.unackLvl c = s.unackLvl c)) ∧ t = { s with regs := t.regs, hot := t.hot, fired := t.fired })) ∧
    (∀ (w : Who) (i : Fin 128) (d : Word), s.gate w (A.TALLY_SEVi i) d = true → Answers (.tallySevClear w i d) s (fun t =>
      (∀ b, b < 32 → t.get ⟨A.TALLY_SEVi i, b, 1⟩ = if natBit d.toNat b then 0 else s.get ⟨A.TALLY_SEVi i, b, 1⟩) ∧ s.onlyRegs t)) ∧
    (s.therm = 0 ∨ s.crossed (10 ^ 9) = false ∨ 400 ∈ s.fired → Answers .thermSecond s (fun t => t = s)) ∧
    (s.therm ≠ 0 → s.crossed (10 ^ 9) = true → 400 ∉ s.fired → Answers .thermSecond s (fun t =>
      t.get R.TALLY_THERM_S_SECONDS = min (s.get R.TALLY_THERM_S_SECONDS + 1) (2 ^ 32 - 1) ∧ t.fired = 400 :: s.fired ∧
      (86400 ≤ s.get R.TALLY_THERM_S_SECONDS → natBit (t.get R.TALLY_REPL_CAUSE) 4 = true) ∧
      t = { s with regs := t.regs, fired := t.fired, held := t.held, heldWait := t.heldWait })) ∧
    (∀ (c : Cmd) (v code : Nat), s.accepts c 0x50 0 (some 10) → dSub c.desc = 0 → dget c.desc 16 0 8 = 10 → dget c.desc 18 0 8 = code →
      dUnit8 c.desc ≤ 7 → v = dValue c.desc → dClean c.desc [(16, 0, 8), (18, 0, 16), (24, 0, 64)] = true →
      (code = 1 → (v = 0 ∨ 86400 < v → Answers (.tallyWinSet c) s (fun t => s.completes t c St.badValue 0 ∧ s.onlyRings t)) ∧
        (1 ≤ v → v ≤ 86400 → Answers (.tallyWinSet c) s (fun t => s.completes t c St.ok 0 ∧
          t.get (R.TALLY_WINc_SECONDS (dUnit8 c.desc)) = v ∧ s.onlyRings t))) ∧
      (code = 2 → (65535 < v → Answers (.tallyNsevSet c) s (fun t => s.completes t c St.badValue 0 ∧ s.onlyRings t)) ∧
        (v ≤ 65535 → Answers (.tallyNsevSet c) s (fun t => s.completes t c St.ok 0 ∧
          t.get (R.TALLY_NSEVc_N (dUnit8 c.desc)) = v ∧ s.onlyRings t)))))

/-- O55. Power domains (R586-R588, R591): an OFF domain that is enabled starts, or waits while four others start; a request to a domain that
follows its lanes, or to PD_HOST, is refused. A STARTING domain becomes ON, and one that waits takes its place; a domain that reaches
OFF loses what its registers hold. -/
def Obligations.PowerDomains : Prop :=
  ∀ (s : State) (w : Who) (n : Fin 72) (d : Word),
    (s.gate w (A.CLKPWR_PDn n) d = true →
      ((46 ≤ n.val ∧ n.val ≤ 61) ∨ n.val = 66 →
        (wordGet d 4 2 = 1 → Answers (.pdEnableReq w n d) s (fun t => s.tells t 0x7E0 0x80 ∧ s.onlyReports t ∧ s.regsBut t [A.TALLY_MERGED])) ∧
        (wordGet d 4 2 = 2 → Answers (.pdDisableReq w n d) s (fun t => s.tells t 0x7E0 0x80 ∧ s.onlyReports t ∧ s.regsBut t [A.TALLY_MERGED]))) ∧
      (¬ ((46 ≤ n.val ∧ n.val ≤ 61) ∨ n.val = 66) → s.pdExists n = true →
        (wordGet d 4 2 = 1 → s.get (R.CLKPWR_PDn_STATE n) = 0 → Answers (.pdEnableReq w n d) s (fun t =>
          (s.pdStarting < 4 → t.get (R.CLKPWR_PDn_STATE n) = 1 ∧ t.get (R.CLKPWR_PDn_PEND n) = 0) ∧
          (4 ≤ s.pdStarting → t.get (R.CLKPWR_PDn_STATE n) = 0 ∧ t.get (R.CLKPWR_PDn_PEND n) = 1) ∧ s.onlyRegs t ∧
          s.regsBut t [A.CLKPWR_PDn n])) ∧
        (wordGet d 4 2 = 1 → s.get (R.CLKPWR_PDn_STATE n) ≠ 0 → Answers (.pdEnableReq w n d) s (fun t => s.asked t 7 n true ∧
          t = { s with regs := t.regs, rings := t.rings, owed := t.owed })) ∧
        (wordGet d 4 2 = 2 → s.get (R.CLKPWR_PDn_STATE n) = 0 → Answers (.pdDisableReq w n d) s (fun t =>
          t.get (R.CLKPWR_PDn_STATE n) = 0 ∧ t.get (R.CLKPWR_PDn_PEND n) = 0 ∧ s.onlyRegs t ∧ s.regsBut t [A.CLKPWR_PDn n])) ∧
        (wordGet d 4 2 = 2 → s.get (R.CLKPWR_PDn_STATE n) ≠ 0 → Answers (.pdDisableReq w n d) s (fun t => s.asked t 7 n false ∧
          t = { s with regs := t.regs, rings := t.rings, owed := t.owed })))) ∧
    (s.get (R.CLKPWR_PDn_STATE n) = 1 → s.get (R.CLKPWR_PDn_PEND n) ≠ 2 → s.pdStarting ≤ 4 → Answers (.pdOn n) s (fun t =>
      t.get (R.CLKPWR_PDn_STATE n) = 2 ∧
      ((∃ m, m < 72 ∧ s.get (R.CLKPWR_PDn_STATE m) = 0 ∧ s.get (R.CLKPWR_PDn_PEND m) = 1) →
        ∃ m, m < 72 ∧ s.get (R.CLKPWR_PDn_STATE m) = 0 ∧ s.get (R.CLKPWR_PDn_PEND m) = 1 ∧ t.get (R.CLKPWR_PDn_STATE m) = 1 ∧
          t.get (R.CLKPWR_PDn_PEND m) = 0) ∧
      t = { s with regs := t.regs, freeCtr := t.freeCtr, rings := t.rings, owed := t.owed })) ∧
    (s.get (R.CLKPWR_PDn_STATE n) ≠ 1 → Answers (.pdOn n) s (fun t => t = s)) ∧
    (s.get (R.CLKPWR_PDn_STATE n) = 3 → s.get (R.CLKPWR_PDn_PEND n) ≠ 1 → Answers (.pdOff n) s (fun t =>
      t.get (R.CLKPWR_PDn_STATE n) = 0 ∧ t.get (R.CLKPWR_PDn_PEND n) = 0 ∧ (∀ a, holdDomain a = some n.val → t.reg a = regReset a) ∧
      t = { s with regs := t.regs, seqs := t.seqs, mem := t.mem, injRecs := t.injRecs, filled := t.filled, hchs := t.hchs,
                   hgrant := t.hgrant })) ∧
    (s.get (R.CLKPWR_PDn_STATE n) ≠ 3 → Answers (.pdOff n) s (fun t => t = s))

/-- O56. Reset (R11, R35, R593, R594): PORESET_N returns every register to its reset value; at its release the straps show. A warm reset, by
RESET_N or 100 µs after a RESET_REQ's response, gives every register its reset value but for its sticky fields, keeps streaks and lane
counts, says its cause, and ends with its pin or after 10 µs, device time starting at 0. The commands that wait are kept. -/
def Obligations.Resets : Prop :=
  ∀ s : State,
    Answers .poreset s (fun t => t.rst = .poreset ∧ (∀ a, t.reg a = regReset a) ∧
      t = { pending := s.pending, part := s.part, rst := .poreset, freeCtr := s.freeCtr, outbox := s.outbox, wakeN := s.wakeN }) ∧
    (∀ b : BitVec 4, (s.rst = .poreset → Answers (.poresetNRelease b) s (fun t => t.rst = .run ∧ t.now = 0 ∧
        (∀ a, a ≠ A.DEV_STRAP → a ≠ A.HOST_STAT → t.reg a = regReset a) ∧ t.get ⟨A.DEV_STRAP, 0, 4⟩ = b.toNat ∧
        t = { pending := s.pending, part := s.part, freeCtr := s.freeCtr, outbox := s.outbox, wakeN := s.wakeN, regs := t.regs,
              straps := b })) ∧
      (s.rst ≠ .poreset → Answers (.poresetNRelease b) s (fun t => t = s))) ∧
    (let warm : ResetS → Nat → State → Prop := fun r cause t => t.rst = r ∧ t.now = 0 ∧ t.get ⟨A.CLKPWR_RSTCAUSE, 0, 3⟩ = cause ∧
        (∀ a, a ∉ [A.DEV_STRAP, A.HOST_STAT, A.CLKPWR_RSTCAUSE, A.CREWc_STAT 0, A.CREWc_STAT 1, A.CREWc_STAT 2, A.CREWc_STAT 3] →
          t.reg a = warmWord a (s.reg a)) ∧ (∀ i, t.tallySrc i = { streak := (s.tallySrc i).streak }) ∧
        t = { pending := s.pending, part := s.part, freeCtr := s.freeCtr, outbox := s.outbox, wakeN := s.wakeN, rst := r,
              regs := t.regs, tsrc := t.tsrc, celCe := s.celCe, lost := s.lost, straps := s.straps };
      (Registers.wf s.regs = true → tabWf (fun _ => {}) s.tsrc = true →
        (s.rst ≠ .poreset → Answers .resetN s (warm .warmPin 2)) ∧
        (∀ c, s.resetReq = some c → c + 50000 ≤ s.cyc → Answers .clxReset s (warm .warmReq 4))) ∧
      (s.rst = .poreset → Answers .resetN s (fun t => t = s)) ∧
      ((∀ c, s.resetReq = some c → s.cyc < c + 50000) → Answers .clxReset s (fun t => t = s))) ∧
    (s.rst = .warmPin ∨ (s.rst = .warmReq ∧ 5000 ≤ s.cyc) → Answers .warmResetEnd s (fun t =>
      t = { s with rst := .run, now := 0, prev := 0, cyc := 0 })) ∧
    (s.rst = .run ∨ s.rst = .poreset ∨ (s.rst = .warmReq ∧ s.cyc < 5000) → Answers .warmResetEnd s (fun t => t = s))

/-- O57. READY (R589, R595, R597): boot ends at DSTATE 2 with every domain that follows no lane powered, the present Crews ON, the control ports'
lanes ON and, unless BOOT_WAIT holds it, the stacks carrying traffic. -/
def Obligations.Boot : Prop :=
  ∀ s : State,
    (s.rst = .run → s.get R.DEV_HEALTH_DSTATE = 1 → Answers .ready s (fun t => t.get R.DEV_HEALTH_DSTATE = 2 ∧
      (∀ c, c < 4 → s.crewPresent c = true → t.get (R.CREWc_STATE_STATE c) = 2) ∧
      (∀ n, n < 72 → s.pdExists n = true → ¬ (46 ≤ n ∧ n ≤ 61) → t.get (R.CLKPWR_PDn_STATE n) = 2) ∧
      t.get (R.LANEl_STATE_STATE 64) = 2 ∧ t.get (R.LANEl_STATE_STATE 65) = 2 ∧
      (s.get R.DEV_STRAP_BOOT_WAIT = 0 → ∀ k, k < s.stackCount → t.get (R.CEL_CTL_TRAFFIC_EN k) = 1) ∧
      t = { s with regs := t.regs, hot := t.hot, freeCtr := t.freeCtr, held := t.held, heldWait := t.heldWait, outbox := t.outbox, crews := t.crews,
                   seqs := t.seqs, mem := t.mem, injRecs := t.injRecs, filled := t.filled, celDly := t.celDly, celVref := t.celVref,
                   stackTab := t.stackTab, training := t.training, blFrom := t.blFrom, adapting := t.adapting, voutExp := t.voutExp })) ∧
    (s.rst ≠ .run ∨ s.get R.DEV_HEALTH_DSTATE ≠ 1 → Answers .ready s (fun t => t = s))

/-- O58. The Moored state (R356, R602-R607): SLEEP is refused while a stream lives, BUSY during a swap, and BAD_VALUE without a wake source; at
the commit point an enabled source that is asserted abandons it, else it completes and the scrubber is held; Moored is reached with
lanes, ports and domains off; a source asserted then starts the wake, which ends at DSTATE 2. -/
def Obligations.Sleep : Prop :=
  ∀ s : State,
    (∀ (c : Cmd) (w alarm : Nat), s.accepts c 0x70 0 none → dSub c.desc = 0 → dClean c.desc [(16, 0, 3), (24, 0, 64), (32, 0, 30)] = true →
      w = dget c.desc 16 0 3 → alarm = dget c.desc 24 0 64 * 10 ^ 9 + dget c.desc 32 0 30 →
      (s.streamsLive = true → Answers (.sleep c) s (fun t => s.completes t c St.streamsLive 0 ∧ s.onlyRings t)) ∧
      (s.streamsLive = false → s.get R.CLKPWR_SWAP_BUSY = 1 → Answers (.sleep c) s (fun t => s.completes t c St.busy 0 ∧ s.onlyRings t)) ∧
      (s.streamsLive = false → s.get R.CLKPWR_SWAP_BUSY = 0 → s.sleep = none →
        (w = 0 ∨ (natBit w 2 = true ∧ alarm * unitsPerNs ≤ s.now) → Answers (.sleep c) s (fun t => s.completes t c St.badValue 0 ∧
          s.onlyRings t)) ∧
        (w ≠ 0 → natBit w 2 = false ∨ s.now < alarm * unitsPerNs → Answers (.sleep c) s (fun t => t.sleep = some { alarm := alarm } ∧
          t.get R.CLKPWR_SLEEP_WAKE_EN = w ∧ t.owed = s.owed ++ [{ s.owedOf c with wait := .sleep }] ∧
          t = { s with regs := t.regs, fetched := t.fetched, turn := t.turn, owed := t.owed, sleep := t.sleep } ∧
          s.regsBut t [A.CLKPWR_SLEEP])))) ∧
    (∀ z, s.sleep = some z → z.commit = false →
      let src := Nat.land (s.get R.CLKPWR_SLEEP_WAKE_EN) (b2n z.wake + 2 * b2n s.wakeN + 4 * b2n (decide (z.alarm * unitsPerNs ≤ s.now)))
      (src ≠ 0 → Answers .sleepCommit s (fun t => t.sleep = none ∧ t.get R.CLKPWR_SLEEP_WAKE_SRC = src ∧
        t.get R.CLKPWR_SLEEP_ABORTED = 1 ∧ t.get R.CLKPWR_SLEEP_ABORTS = min (s.get R.CLKPWR_SLEEP_ABORTS + 1) (2 ^ 16 - 1) ∧
        (∀ o, o ∈ t.owed → o.wait ≠ .sleep) ∧
        t = { s with regs := t.regs, rings := t.rings, owed := t.owed, sleep := t.sleep, swap := t.swap })) ∧
      (src = 0 → Answers .sleepCommit s (fun t => t.sleep = some { z with commit := true } ∧ t.get R.CLKPWR_SLEEP_ABORTED = 0 ∧
        t.get R.CLKPWR_SLEEP_SCRUB_HOLD = 1 ∧ (∀ o, o ∈ t.owed → o.wait ≠ .sleep) ∧
        t = { s with regs := t.regs, rings := t.rings, owed := t.owed, sleep := t.sleep }))) ∧
    (∀ z, s.sleep = some z → z.commit = true → Answers .sleepCommit s (fun t => t = s)) ∧
    (∀ z, s.sleep = some z → z.commit = true → s.get R.DEV_HEALTH_DSTATE = 2 → Answers .mooredReached s (fun t =>
      t.get R.DEV_HEALTH_DSTATE = 3 ∧ (∀ l, l < 64 → t.get (R.LANEl_STATE_STATE l) ≠ 2) ∧ (∀ p, p < 64 → t.get (R.PORTp_STATE_STATE p) ≠ 2) ∧
      (∀ n, n < 72 → n ≠ 66 → t.get (R.CLKPWR_PDn_STATE n) ≠ 2) ∧ (∀ k, k < s.stackCount → t.get (R.CEL_STAT_SREF k) = 1) ∧
      (∃ y, t.sleep = some y ∧ y.waking = (z.waking || decide (z.src ≠ 0))) ∧
      t = { s with regs := t.regs, hot := t.hot, freeCtr := t.freeCtr, seqs := t.seqs, egr := t.egr, ptpRx := t.ptpRx, tsb := t.tsb,
                   mem := t.mem, injRecs := t.injRecs, filled := t.filled, pcs := t.pcs, stackTab := t.stackTab, training := t.training,
                   adapting := t.adapting, blFrom := t.blFrom, hchs := t.hchs, hgrant := t.hgrant, ptpPos := t.ptpPos,
                   sleep := t.sleep })) ∧
    (s.sleep = none ∨ s.get R.DEV_HEALTH_DSTATE ≠ 2 → Answers .mooredReached s (fun t => t = s)) ∧
    (∀ (i : Instr) (b : Nat) z, ((i = .wakeNFall ∧ b = 1) ∨ (i = .ptpAlarm ∧ b = 2 ∧ z.alarm * unitsPerNs ≤ s.now)) → s.sleep = some z →
      z.commit = true → z.waking = false → natBit (s.get R.CLKPWR_SLEEP_WAKE_EN) b = true → z.src < 8 →
      (s.get R.DEV_HEALTH_DSTATE = 3 → Answers i s (fun t => t.get R.CLKPWR_SLEEP_WAKE_SRC = Nat.lor z.src (2 ^ b) ∧
        t.sleep = some { z with src := Nat.lor z.src (2 ^ b), waking := true } ∧ t.wakeN = (s.wakeN || decide (i = .wakeNFall)) ∧
        t = { s with regs := t.regs, freeCtr := t.freeCtr, sleep := t.sleep, wakeN := t.wakeN } ∧
        s.regsBut t [A.CLKPWR_SLEEP, A.CLKPWR_CLKRUN])) ∧
      (s.get R.DEV_HEALTH_DSTATE ≠ 3 → Answers i s (fun t => t.sleep = some { z with src := Nat.lor z.src (2 ^ b) } ∧
        t = { s with sleep := t.sleep, wakeN := t.wakeN }))) ∧
    (s.sleep = none → Answers .wakeNFall s (fun t => t = { s with wakeN := true }) ∧ Answers .ptpAlarm s (fun t => t = s)) ∧
    Answers .wakeNRelease s (fun t => t = { s with wakeN := false }) ∧
    (∀ z, s.sleep = some z → z.waking = true → Answers .wakeReady s (fun t => t.get R.DEV_HEALTH_DSTATE = 2 ∧
      t.get R.CLKPWR_SLEEP_SCRUB_HOLD = 0 ∧ t.sleep = none ∧ (∀ k, k < s.stackCount → t.get (R.CEL_STAT_SREF k) = 0) ∧
      (∀ p ∈ z.ports, p < 64 → t.get (R.PORTp_STATE_STATE p) = 1) ∧ (∀ l ∈ z.lanes, l < 64 → t.get (R.LANEl_STATE_STATE l) = 1) ∧
      t = { s with regs := t.regs, rings := t.rings, owed := t.owed, crews := t.crews, seqs := t.seqs, mem := t.mem, injRecs := t.injRecs,
                   filled := t.filled, stackTab := t.stackTab, sleep := t.sleep, swap := t.swap, held := t.held, heldWait := t.heldWait })) ∧
    ((∀ z, s.sleep = some z → z.waking = false) → Answers .wakeReady s (fun t => t = s))

/-- O59. Firmware swaps (R599-R602): a swap starts from its instant at a Stroke of the lowest-lettered enabled generator, never during a sleep;
the new image fetches within 20 ms and names its bank; past that a Stroke restarts the old bank and marks the new one invalid. -/
def Obligations.FirmwareSwaps : Prop :=
  ∀ s : State,
    (∀ x, s.swap = some x → x.running = false → s.sleep = none → x.after ≤ s.cyc → s.strokeNow s.swapGen = true →
      Answers .swapStart s (fun t => t = { s with swap := some { x with running := true, gen := s.swapGen, start := s.cyc } })) ∧
    (∀ x, s.swap = some x → x.running = true ∨ s.sleep ≠ none ∨ s.cyc < x.after ∨ s.strokeNow s.swapGen = false →
      Answers .swapStart s (fun t => t = s)) ∧
    (∀ x, s.swap = some x → x.running = true → s.cyc ≤ x.start + 10000000 → Answers .swapResume s (fun t => t.swap = none ∧
      t.get R.HOST_STAT_ACT_BANK = x.bank % 2 ∧ t.get R.CLKPWR_SWAP_BUSY = 0 ∧ t = { s with regs := t.regs, freeCtr := t.freeCtr, swap := t.swap } ∧
      s.regsBut t [A.HOST_STAT, A.CLKPWR_SWAP, A.DEV_FWVER])) ∧
    (∀ x, s.swap = some x → x.running = true → x.start + 10000000 < s.cyc → x.bank < 2 →
      (s.strokeNow x.gen = true → Answers .swapRevert s (fun t => t.swap = none ∧ t.get R.CLKPWR_SWAP_REVERTED = 1 ∧
        t.get R.CLKPWR_SWAP_BUSY = 0 ∧ t.get ⟨A.HOST_STAT, 4 + x.bank, 1⟩ = 0 ∧ t = { s with regs := t.regs, hot := t.hot, swap := t.swap } ∧
        s.regsBut t [A.HOST_STAT, A.CLKPWR_SWAP])) ∧
      (s.strokeNow x.gen = false → Answers .swapRevert s (fun t => t = s)) ∧ Answers .swapResume s (fun t => t = s)) ∧
    (∀ x, s.swap = some x → x.running = true → s.cyc ≤ x.start + 10000000 → Answers .swapRevert s (fun t => t = s)) ∧
    (s.swap = none → Answers .swapStart s (fun t => t = s) ∧ Answers .swapResume s (fun t => t = s) ∧ Answers .swapRevert s (fun t => t = s))

/-- O60. The monitors (R608-R612): a thermal sample gives each sensor of a domain that is ON its reading, and the hottest sets MON_TMAX, the
ceiling and its report; a rail outside its fault window is reported once, outside its warning window at the tenth sample; the AVS loop
moves the request by 5 mV between 650 and 800 mV; an alert of the regulator is reported. -/
def Obligations.Monitors : Prop :=
  ∀ s : State,
    (∀ temps : List Int, temps.length = 48 → Answers (.thermalSample temps) s (fun t =>
      (∀ i x, temps[i]? = some x → t.get (R.MON_TEMPi_TJ i) = if s.sensorOn i then unsigned 8 x else s.get (R.MON_TEMPi_TJ i)) ∧
      (∀ x src, t.hottest = some (x, src) → t.get R.MON_TMAX_TJ = unsigned 8 x ∧ t.get R.MON_TMAX_SRC = src ∧
        t.therm = thermNext s.therm x ∧ t.get R.MON_TMAX_CEIL = thermNext s.therm x ∧
        (s.therm < thermNext s.therm x → ¬ (signed 8 (s.get R.MON_TMAX_TJ) < 125 ∧ 125 ≤ x) →
          s.tells t (thermSource src) (if thermNext s.therm x = 3 then 0x61 else 0x60)) ∧
        (thermNext s.therm x ≤ s.therm → signed 8 (s.get R.MON_TMAX_TJ) < 125 → 125 ≤ x → s.tells t (thermSource src) 0x62)) ∧
      t = { s with regs := t.regs, held := t.held, heldWait := t.heldWait, preempt := t.preempt, runs := t.runs, therm := t.therm })) ∧
    (∀ mv : List Nat, mv.length = 12 → Answers (.railSample mv) s (fun t =>
      (∀ r v, mv[r]? = some v → t.get (R.MON_RAILr_MV_MV r) = v % 2 ^ 12 ∧
        (railOut (s.railNominal r) (s.get (R.MON_RAILr_CFG_FAULT r)) (v % 2 ^ 12) = true → r ∉ s.railF →
          t.get (R.MON_RAILr_CFG_FAULT_SEEN r) = 1 ∧ r ∈ t.railF ∧ (tabGet 0 s.rails r ≠ 9 → s.tells t (0x740 + r) 0x71)) ∧
        (railOut (s.railNominal r) (s.get (R.MON_RAILr_CFG_FAULT r)) (v % 2 ^ 12) = false → r ∉ t.railF) ∧
        (railOut (s.railNominal r) (s.get (R.MON_RAILr_CFG_WARN r)) (v % 2 ^ 12) = true → tabGet 0 s.rails r = 9 →
          t.get (R.MON_RAILr_CFG_WARN_SEEN r) = 1 ∧ (s.tells t (0x740 + r) 0x70 ∨ r ∈ t.railF)) ∧
        (railOut (s.railNominal r) (s.get (R.MON_RAILr_CFG_WARN r)) (v % 2 ^ 12) = false → tabGet 0 t.rails r = 0)) ∧
      t = { s with regs := t.regs, hot := t.hot, held := t.held, heldWait := t.heldWait, rails := t.rails, railF := t.railF })) ∧
    (∀ (l : List Nat) (f : Nat), l.length = 36 → s.get R.MON_AVS_CTL_EN = 1 → f < 36 → s.pdOn f = true →
      let n : Nat → Nat := fun i => ((l[i]?).getD 0) % 2 ^ 16
      let mv := s.get R.MON_AVS_STAT_MV
      let tgt := s.get R.MON_AVS_TGT_COUNT
      let adr := s.get R.MON_AVS_CTL_ADDR
      let pec := s.flag R.MON_AVS_CTL_PEC
      (∀ i, i < 36 → s.pdOn i = true → n f < n i ∨ (n f = n i ∧ f ≤ i)) →
      (n f < tgt → mv < 800 → Answers (.avsLoop l) s (fun t => t.get R.MON_AVS_STAT_MV = mv + 5 ∧ t.get R.MON_AVS_STAT_LIMIT = 0 ∧
        t.outbox = s.outbox ++ [.pmbus adr 0x21 (linear16 (mv + 5) s.voutExp) pec] ∧ t = { s with regs := t.regs, outbox := t.outbox, avsAgain := t.avsAgain })) ∧
      (n f < tgt → 800 ≤ mv → Answers (.avsLoop l) s (fun t => t.get R.MON_AVS_STAT_MV = mv ∧ t.get R.MON_AVS_STAT_LIMIT = 1 ∧
        (s.get R.MON_AVS_STAT_LIMIT = 0 → s.tells t (0x780 + f) 0x72) ∧ (s.avsAgain = false → t.outbox = s.outbox) ∧
        t = { s with regs := t.regs, held := t.held, heldWait := t.heldWait, outbox := t.outbox, avsAgain := t.avsAgain })) ∧
      (tgt + s.get R.MON_AVS_TGT_HYST < n f → 650 < mv → Answers (.avsLoop l) s (fun t => t.get R.MON_AVS_STAT_MV = mv - 5 ∧
        t.get R.MON_AVS_STAT_LIMIT = 0 ∧ t.outbox = s.outbox ++ [.pmbus adr 0x21 (linear16 (mv - 5) s.voutExp) pec] ∧
        t = { s with regs := t.regs, outbox := t.outbox, avsAgain := t.avsAgain })) ∧
      (tgt + s.get R.MON_AVS_TGT_HYST < n f → mv ≤ 650 → Answers (.avsLoop l) s (fun t => t.get R.MON_AVS_STAT_MV = mv ∧
        t.get R.MON_AVS_STAT_LIMIT = 1 ∧
        t = { s with regs := t.regs, held := t.held, heldWait := t.heldWait, outbox := t.outbox, avsAgain := t.avsAgain })) ∧
      (tgt ≤ n f → n f ≤ tgt + s.get R.MON_AVS_TGT_HYST → Answers (.avsLoop l) s (fun t => t.get R.MON_AVS_STAT_MV = mv ∧
        t.get R.MON_AVS_STAT_LIMIT = 0 ∧ (s.avsAgain = false → t.outbox = s.outbox) ∧
        t = { s with regs := t.regs, outbox := t.outbox, avsAgain := t.avsAgain }))) ∧
    (∀ l : List Nat, s.get R.MON_AVS_CTL_EN = 0 → Answers (.avsLoop l) s (fun t => t = s)) ∧
    (∀ x : BitVec 16, Answers (.pmbAlert x) s (fun t => t.get R.MON_AVS_STAT_PMB_ERR = 1 ∧ t.avsAgain = true ∧ s.tells t 0x74B 0x73 ∧
      t.outbox = s.outbox ++ [.pmbus (s.get R.MON_AVS_CTL_ADDR) 0x79 0 (s.flag R.MON_AVS_CTL_PEC)] ∧
      t = { s with regs := t.regs, hot := t.hot, held := t.held, heldWait := t.heldWait, outbox := t.outbox, avsAgain := t.avsAgain } ∧
      s.regsBut t [A.MON_AVS_STAT, A.TALLY_MERGED]))
end

