-- ==== Sys2Proof/Laws/Tab.lean ====
section
/-!
SUPPORT. The laws of a sparse table: every operation keeps the canonical form, and a lookup after a write.
-/
namespace Sys2Proof.Machine

theorem tabRising_le {α : Type} (t : Tab α) (a b : Nat) (h : a ≤ b) (w : tabRising b t = true) : tabRising a t = true := by
  cases t with
  | nil => rfl
  | cons e r => simp only [tabRising, Bool.and_eq_true, decide_eq_true_eq] at *; exact ⟨by omega, w.2⟩
theorem tabRising_filter {α : Type} (p : Nat × α → Bool) (t : Tab α) (lo : Nat) (h : tabRising lo t = true) : tabRising lo (t.filter p) = true := by
  induction t generalizing lo with
  | nil => rfl
  | cons e r ih =>
    simp only [tabRising, Bool.and_eq_true, decide_eq_true_eq] at h
    rw [List.filter_cons]; split
    · simp only [tabRising, Bool.and_eq_true, decide_eq_true_eq]; exact ⟨h.1, ih _ h.2⟩
    · exact tabRising_le _ _ (e.1 + 1) (by omega) (ih _ h.2)
theorem tabRising_ins {α : Type} (t : Tab α) (lo k : Nat) (v : α) (hk : lo ≤ k) (hn : ∀ e ∈ t, e.1 ≠ k) (h : tabRising lo t = true) :
    tabRising lo (tabIns t k v) = true := by
  induction t generalizing lo with
  | nil => simp [tabIns, tabRising, hk]
  | cons e r ih =>
    simp only [tabRising, Bool.and_eq_true, decide_eq_true_eq] at h
    simp only [tabIns]; split
    · simp [tabRising, hk, h.2]; omega
    · have := hn e (by simp)
      simp only [tabRising, Bool.and_eq_true, decide_eq_true_eq]
      exact ⟨h.1, ih _ (by omega) (fun x hx => hn x (by simp [hx])) h.2⟩
theorem mem_tabIns {α : Type} (t : Tab α) (k : Nat) (v : α) (e : Nat × α) (h : e ∈ tabIns t k v) : e = (k, v) ∨ e ∈ t := by
  induction t with
  | nil => simp [tabIns] at h; exact .inl h
  | cons x r ih =>
    simp only [tabIns] at h; split at h
    · simpa using h
    · rcases List.mem_cons.1 h with h | h
      · exact .inr (by simp [h])
      · rcases ih h with h | h
        · exact .inl h
        · exact .inr (by simp [h])
@[simp] theorem tabWf_filter {α : Type} [DecidableEq α] (d : Nat → α) (p : Nat × α → Bool) (t : Tab α) (h : tabWf d t = true) :
    tabWf d (t.filter p) = true := by
  simp only [tabWf, Bool.and_eq_true, List.all_eq_true] at *
  exact ⟨tabRising_filter p t 0 h.1, fun x hx => h.2 x ((List.mem_filter.1 hx).1)⟩
@[simp] theorem tabWf_del {α : Type} [DecidableEq α] (d : Nat → α) (t : Tab α) (k : Nat) (h : tabWf d t = true) :
    tabWf d (tabDel t k) = true := tabWf_filter d _ t h
@[simp] theorem tabWf_set {α : Type} [DecidableEq α] (d : Nat → α) (t : Tab α) (k : Nat) (v : α) (h : tabWf d t = true) :
    tabWf d (tabSet (d k) t k v) = true := by
  unfold tabSet; split
  · exact tabWf_del d t k h
  · rename_i hv
    have hd := tabWf_del d t k h
    simp only [tabWf, Bool.and_eq_true, List.all_eq_true, decide_eq_true_eq] at *
    refine ⟨tabRising_ins _ 0 k v (Nat.zero_le _) (fun e he => ?_) hd.1, fun e he => ?_⟩
    · simp [tabDel] at he; exact he.2
    · rcases mem_tabIns _ _ _ _ he with rfl | he
      · exact hv
      · exact hd.2 e he
@[simp] theorem tabWf_set_const {α : Type} [DecidableEq α] (d : α) (t : Tab α) (k : Nat) (v : α) (h : tabWf (fun _ => d) t = true) :
    tabWf (fun _ => d) (tabSet d t k v) = true := tabWf_set (fun _ => d) t k v h
@[simp] theorem tabWf_upd_const {α : Type} [DecidableEq α] (d : α) (t : Tab α) (k : Nat) (f : α → α) (h : tabWf (fun _ => d) t = true) :
    tabWf (fun _ => d) (tabUpd d t k f) = true := tabWf_set (fun _ => d) t k _ h
@[simp] theorem tabWf_map {α : Type} [DecidableEq α] (d : Nat → α) (f : Nat → α → α) (t : Tab α) : tabWf d (tabMap d f t) = true := by
  unfold tabMap
  suffices ∀ r : Tab α, tabWf d r = true → tabWf d (t.foldl (fun r e => tabSet (d e.1) r e.1 (f e.1 e.2)) r) = true from this [] rfl
  induction t with
  | nil => exact fun r h => h
  | cons e t ih => exact fun r h => ih _ (tabWf_set d r e.1 _ h)
@[simp] theorem tabWf_nil {α : Type} [DecidableEq α] (d : Nat → α) : tabWf d [] = true := rfl

/-! ## Lookups -/

theorem tabGet_ins_same {α : Type} (d : α) (t : Tab α) (k : Nat) (v : α) (hn : ∀ e ∈ t, e.1 ≠ k) : tabGet d (tabIns t k v) k = v := by
  induction t with
  | nil => simp [tabIns, tabGet]
  | cons e r ih =>
    simp only [tabIns]; split
    · simp [tabGet]
    · have h := hn e (by simp)
      simp only [tabGet, if_neg h]
      exact ih (fun x hx => hn x (by simp [hx]))

theorem tabGet_ins_other {α : Type} (d : α) (t : Tab α) (k j : Nat) (v : α) (h : j ≠ k) : tabGet d (tabIns t k v) j = tabGet d t j := by
  induction t with
  | nil => simp [tabIns, tabGet, Ne.symm h]
  | cons e r ih =>
    simp only [tabIns]; split
    · simp [tabGet, Ne.symm h]
    · simp only [tabGet, ih]

theorem tabGet_del_other {α : Type} (d : α) (t : Tab α) (k j : Nat) (h : j ≠ k) : tabGet d (tabDel t k) j = tabGet d t j := by
  induction t with
  | nil => rfl
  | cons e r ih =>
    simp only [tabDel, List.filter_cons] at *; split
    · simp only [tabGet, ih]
    · rename_i hk
      have : e.1 = k := by simpa using hk
      simp only [tabGet, ih, this, if_neg (Ne.symm h)]

theorem tabGet_del_same {α : Type} (d : α) (t : Tab α) (k : Nat) : tabGet d (tabDel t k) k = d := by
  induction t with
  | nil => rfl
  | cons e r ih =>
    simp only [tabDel, List.filter_cons] at *; split
    · rename_i hk
      have : e.1 ≠ k := by simpa using hk
      simp only [tabGet, if_neg this, ih]
    · exact ih

/-- A lookup of the key just written gives the value written. -/
@[simp] theorem tabGet_set_same {α : Type} [DecidableEq α] (d : α) (t : Tab α) (k : Nat) (v : α) : tabGet d (tabSet d t k v) k = v := by
  unfold tabSet; split
  · rename_i h; rw [tabGet_del_same, h]
  · exact tabGet_ins_same _ _ _ _ (fun e he => by simp [tabDel] at he; exact he.2)

/-- A write leaves every other key as it was. -/
theorem tabGet_set_other {α : Type} [DecidableEq α] (d d' : α) (t : Tab α) (k j : Nat) (v : α) (h : j ≠ k) :
    tabGet d (tabSet d' t k v) j = tabGet d t j := by
  unfold tabSet; split
  · exact tabGet_del_other _ _ _ _ h
  · rw [tabGet_ins_other _ _ _ _ _ h, tabGet_del_other _ _ _ _ h]


end Sys2Proof.Machine
end

