-- ==== Sys2Proof/Laws/Canonical.lean ====
section
/-!
SUPPORT. Every operation on the state keeps the state canonical (`State.wf`), memory among it: one lemma per operation and one per
meaning, so that a proof about all commands unfolds nothing.
-/
namespace Sys2Proof.Machine

@[simp] theorem State.wf_now (s : State) (h : s.wf) : s.now < timeWrap := h.1
@[simp] theorem State.wf_regs (s : State) (h : s.wf) : tabWf regReset s.regs = true := h.2.1
@[simp] theorem State.wf_gens (s : State) (h : s.wf) : tabWf (fun _ => {}) s.gens = true := h.2.2.1
@[simp] theorem State.wf_tsrc (s : State) (h : s.wf) : tabWf (fun _ => {}) s.tsrc = true := h.2.2.2.1
@[simp] theorem State.wf_twin (s : State) (h : s.wf) : tabWf twinDflt s.twin = true := h.2.2.2.2.1
@[simp] theorem State.wf_gath (s : State) (h : s.wf) : tabWf (fun _ => {}) s.gath = true := h.2.2.2.2.2.1
@[simp] theorem State.wf_claimed (s : State) (h : s.wf) : tabWf (fun _ => {}) s.claimed = true := h.2.2.2.2.2.2.1
@[simp] theorem State.wf_tgtDef (s : State) (h : s.wf) : tabWf (fun _ => none) s.tgtDef = true := h.2.2.2.2.2.2.2.1
@[simp] theorem State.wf_holdOff (s : State) (h : s.wf) : tabWf (fun _ => none) s.holdOff = true := h.2.2.2.2.2.2.2.2.1
@[simp] theorem State.wf_pins (s : State) (h : s.wf) : tabWf (fun _ => {}) s.pins = true := h.2.2.2.2.2.2.2.2.2.1
@[simp] theorem State.wf_preempt (s : State) (h : s.wf) : tabWf (fun _ => none) s.preempt = true := h.2.2.2.2.2.2.2.2.2.2.1
@[simp] theorem State.wf_rings (s : State) (h : s.wf) : tabWf (fun _ => {}) s.rings = true := h.2.2.2.2.2.2.2.2.2.2.2.1
@[simp] theorem State.wf_streams (s : State) (h : s.wf) : tabWf (fun _ => {}) s.streams = true := h.2.2.2.2.2.2.2.2.2.2.2.2.1
@[simp] theorem State.wf_feeds (s : State) (h : s.wf) : tabWf (fun _ => {}) s.feeds = true := h.2.2.2.2.2.2.2.2.2.2.2.2.2.1
@[simp] theorem State.wf_crews (s : State) (h : s.wf) : tabWf (fun _ => {}) s.crews = true := h.2.2.2.2.2.2.2.2.2.2.2.2.2.2.1
@[simp] theorem State.wf_runs (s : State) (h : s.wf) : tabWf (fun _ => none) s.runs = true := h.2.2.2.2.2.2.2.2.2.2.2.2.2.2.2.1
@[simp] theorem State.wf_ended (s : State) (h : s.wf) : tabWf (fun _ => []) s.ended = true := h.2.2.2.2.2.2.2.2.2.2.2.2.2.2.2.2.1
@[simp] theorem State.wf_seqs (s : State) (h : s.wf) : tabWf (fun _ => {}) s.seqs = true := h.2.2.2.2.2.2.2.2.2.2.2.2.2.2.2.2.2.1
@[simp] theorem State.wf_scache (s : State) (h : s.wf) : tabWf (fun _ => []) s.scache = true := h.2.2.2.2.2.2.2.2.2.2.2.2.2.2.2.2.2.2.1
@[simp] theorem State.wf_slotPic (s : State) (h : s.wf) : tabWf (fun _ => none) s.slotPic = true := h.2.2.2.2.2.2.2.2.2.2.2.2.2.2.2.2.2.2.2.1
@[simp] theorem State.wf_slotSz (s : State) (h : s.wf) : tabWf (fun _ => 0) s.slotSz = true := h.2.2.2.2.2.2.2.2.2.2.2.2.2.2.2.2.2.2.2.2.1
@[simp] theorem State.wf_slotNref (s : State) (h : s.wf) : tabWf (fun _ => 0) s.slotNref = true := h.2.2.2.2.2.2.2.2.2.2.2.2.2.2.2.2.2.2.2.2.2.1
@[simp] theorem State.wf_slotC (s : State) (h : s.wf) : tabWf (fun _ => {}) s.slotC = true := h.2.2.2.2.2.2.2.2.2.2.2.2.2.2.2.2.2.2.2.2.2.2.1
@[simp] theorem State.wf_egr (s : State) (h : s.wf) : tabWf (fun _ => []) s.egr = true := h.2.2.2.2.2.2.2.2.2.2.2.2.2.2.2.2.2.2.2.2.2.2.2.1
@[simp] theorem State.wf_txFree (s : State) (h : s.wf) : tabWf (fun _ => 0) s.txFree = true := h.2.2.2.2.2.2.2.2.2.2.2.2.2.2.2.2.2.2.2.2.2.2.2.2.1
@[simp] theorem State.wf_rtpSeq (s : State) (h : s.wf) : tabWf (fun _ => none) s.rtpSeq = true := h.2.2.2.2.2.2.2.2.2.2.2.2.2.2.2.2.2.2.2.2.2.2.2.2.2.1
@[simp] theorem State.wf_subs (s : State) (h : s.wf) : tabWf (fun _ => none) s.subs = true := h.2.2.2.2.2.2.2.2.2.2.2.2.2.2.2.2.2.2.2.2.2.2.2.2.2.2.1
@[simp] theorem State.wf_shapers (s : State) (h : s.wf) : tabWf (fun _ => {}) s.shapers = true := h.2.2.2.2.2.2.2.2.2.2.2.2.2.2.2.2.2.2.2.2.2.2.2.2.2.2.2.1
@[simp] theorem State.wf_gates (s : State) (h : s.wf) : tabWf (fun _ => {}) s.gates = true := h.2.2.2.2.2.2.2.2.2.2.2.2.2.2.2.2.2.2.2.2.2.2.2.2.2.2.2.2.1
@[simp] theorem State.wf_ptpRx (s : State) (h : s.wf) : tabWf (fun _ => []) s.ptpRx = true := h.2.2.2.2.2.2.2.2.2.2.2.2.2.2.2.2.2.2.2.2.2.2.2.2.2.2.2.2.2.1
@[simp] theorem State.wf_tsb (s : State) (h : s.wf) : tabWf (fun _ => []) s.tsb = true := h.2.2.2.2.2.2.2.2.2.2.2.2.2.2.2.2.2.2.2.2.2.2.2.2.2.2.2.2.2.2.1
@[simp] theorem State.wf_mem (s : State) (h : s.wf) : tabWf (fun _ => none) s.mem = true := h.2.2.2.2.2.2.2.2.2.2.2.2.2.2.2.2.2.2.2.2.2.2.2.2.2.2.2.2.2.2.2.1
@[simp] theorem State.wf_celCe (s : State) (h : s.wf) : tabWf (fun _ => 0) s.celCe = true := h.2.2.2.2.2.2.2.2.2.2.2.2.2.2.2.2.2.2.2.2.2.2.2.2.2.2.2.2.2.2.2.2.1
@[simp] theorem State.wf_celDly (s : State) (h : s.wf) : tabWf (fun _ => (64, 64)) s.celDly = true := h.2.2.2.2.2.2.2.2.2.2.2.2.2.2.2.2.2.2.2.2.2.2.2.2.2.2.2.2.2.2.2.2.2.1
@[simp] theorem State.wf_celVref (s : State) (h : s.wf) : tabWf (fun _ => 32) s.celVref = true := h.2.2.2.2.2.2.2.2.2.2.2.2.2.2.2.2.2.2.2.2.2.2.2.2.2.2.2.2.2.2.2.2.2.2.1
@[simp] theorem State.wf_pcs (s : State) (h : s.wf) : tabWf (fun _ => {}) s.pcs = true := h.2.2.2.2.2.2.2.2.2.2.2.2.2.2.2.2.2.2.2.2.2.2.2.2.2.2.2.2.2.2.2.2.2.2.2.1
@[simp] theorem State.wf_stackTab (s : State) (h : s.wf) : tabWf (fun _ => {}) s.stackTab = true := h.2.2.2.2.2.2.2.2.2.2.2.2.2.2.2.2.2.2.2.2.2.2.2.2.2.2.2.2.2.2.2.2.2.2.2.2.1
@[simp] theorem State.wf_ldrCol (s : State) (h : s.wf) : tabWf (fun _ => none) s.ldrCol = true := h.2.2.2.2.2.2.2.2.2.2.2.2.2.2.2.2.2.2.2.2.2.2.2.2.2.2.2.2.2.2.2.2.2.2.2.2.2.1
@[simp] theorem State.wf_blFrom (s : State) (h : s.wf) : tabWf (fun _ => none) s.blFrom = true := h.2.2.2.2.2.2.2.2.2.2.2.2.2.2.2.2.2.2.2.2.2.2.2.2.2.2.2.2.2.2.2.2.2.2.2.2.2.2.1
@[simp] theorem State.wf_qps (s : State) (h : s.wf) : tabWf (fun _ => {}) s.qps = true := h.2.2.2.2.2.2.2.2.2.2.2.2.2.2.2.2.2.2.2.2.2.2.2.2.2.2.2.2.2.2.2.2.2.2.2.2.2.2.2.1
@[simp] theorem State.wf_hchs (s : State) (h : s.wf) : tabWf (fun _ => {}) s.hchs = true := h.2.2.2.2.2.2.2.2.2.2.2.2.2.2.2.2.2.2.2.2.2.2.2.2.2.2.2.2.2.2.2.2.2.2.2.2.2.2.2.2.1
@[simp] theorem State.wf_hgrant (s : State) (h : s.wf) : tabWf (fun _ => 0) s.hgrant = true := h.2.2.2.2.2.2.2.2.2.2.2.2.2.2.2.2.2.2.2.2.2.2.2.2.2.2.2.2.2.2.2.2.2.2.2.2.2.2.2.2.2.1
@[simp] theorem State.wf_ptpPos (s : State) (h : s.wf) : tabWf (fun _ => 0) s.ptpPos = true := h.2.2.2.2.2.2.2.2.2.2.2.2.2.2.2.2.2.2.2.2.2.2.2.2.2.2.2.2.2.2.2.2.2.2.2.2.2.2.2.2.2.2.1
@[simp] theorem State.wf_cps (s : State) (h : s.wf) : tabWf (fun _ => {}) s.cps = true := h.2.2.2.2.2.2.2.2.2.2.2.2.2.2.2.2.2.2.2.2.2.2.2.2.2.2.2.2.2.2.2.2.2.2.2.2.2.2.2.2.2.2.2.1
@[simp] theorem State.wf_rails (s : State) (h : s.wf) : tabWf (fun _ => 0) s.rails = true := h.2.2.2.2.2.2.2.2.2.2.2.2.2.2.2.2.2.2.2.2.2.2.2.2.2.2.2.2.2.2.2.2.2.2.2.2.2.2.2.2.2.2.2.2
@[simp] theorem State.wf_mk (a0 a1 a2 a3 a4 a5 a6 a7 a8 a9 a10 a11 a12 a13 a14 a15 a16 a17 a18 a19 a20 a21 a22 a23 a24 a25 a26 a27 a28 a29 a30 a31 a32 a33 a34 a35 a36 a37 a38 a39 a40 a41 a42 a43 a44 a45 a46 a47 a48 a49 a50 a51 a52 a53 a54 a55 a56 a57 a58 a59 a60 a61 a62 a63 a64 a65 a66 a67 a68 a69 a70 a71 a72 a73 a74 a75 a76 a77 a78 a79 a80 a81 a82 a83 a84 a85 a86 a87 a88 a89 a90 a91 a92) : (State.mk a0 a1 a2 a3 a4 a5 a6 a7 a8 a9 a10 a11 a12 a13 a14 a15 a16 a17 a18 a19 a20 a21 a22 a23 a24 a25 a26 a27 a28 a29 a30 a31 a32 a33 a34 a35 a36 a37 a38 a39 a40 a41 a42 a43 a44 a45 a46 a47 a48 a49 a50 a51 a52 a53 a54 a55 a56 a57 a58 a59 a60 a61 a62 a63 a64 a65 a66 a67 a68 a69 a70 a71 a72 a73 a74 a75 a76 a77 a78 a79 a80 a81 a82 a83 a84 a85 a86 a87 a88 a89 a90 a91 a92).wf = (a4 < timeWrap ∧ tabWf regReset a1 = true ∧ tabWf (fun _ => {}) a16 = true ∧ tabWf (fun _ => {}) a20 = true ∧ tabWf twinDflt a21 = true ∧ tabWf (fun _ => {}) a22 = true ∧ tabWf (fun _ => {}) a23 = true ∧ tabWf (fun _ => none) a24 = true ∧ tabWf (fun _ => none) a25 = true ∧ tabWf (fun _ => {}) a26 = true ∧ tabWf (fun _ => none) a28 = true ∧ tabWf (fun _ => {}) a29 = true ∧ tabWf (fun _ => {}) a35 = true ∧ tabWf (fun _ => {}) a36 = true ∧ tabWf (fun _ => {}) a37 = true ∧ tabWf (fun _ => none) a38 = true ∧ tabWf (fun _ => []) a39 = true ∧ tabWf (fun _ => {}) a40 = true ∧ tabWf (fun _ => []) a43 = true ∧ tabWf (fun _ => none) a44 = true ∧ tabWf (fun _ => 0) a45 = true ∧ tabWf (fun _ => 0) a46 = true ∧ tabWf (fun _ => {}) a47 = true ∧ tabWf (fun _ => []) a49 = true ∧ tabWf (fun _ => 0) a50 = true ∧ tabWf (fun _ => none) a52 = true ∧ tabWf (fun _ => none) a53 = true ∧ tabWf (fun _ => {}) a54 = true ∧ tabWf (fun _ => {}) a55 = true ∧ tabWf (fun _ => []) a56 = true ∧ tabWf (fun _ => []) a57 = true ∧ tabWf (fun _ => none) a59 = true ∧ tabWf (fun _ => 0) a66 = true ∧ tabWf (fun _ => (64, 64)) a67 = true ∧ tabWf (fun _ => 32) a68 = true ∧ tabWf (fun _ => {}) a69 = true ∧ tabWf (fun _ => {}) a70 = true ∧ tabWf (fun _ => none) a71 = true ∧ tabWf (fun _ => none) a75 = true ∧ tabWf (fun _ => {}) a76 = true ∧ tabWf (fun _ => {}) a77 = true ∧ tabWf (fun _ => 0) a78 = true ∧ tabWf (fun _ => 0) a79 = true ∧ tabWf (fun _ => {}) a80 = true ∧ tabWf (fun _ => 0) a88 = true) := by rfl
@[simp] theorem foldl_wf {α : Type} (g : State → α → State) (h : ∀ s x, s.wf → (g s x).wf) (l : List α) (s : State) (hs : s.wf) :
    (l.foldl g s).wf := by
  induction l generalizing s with
  | nil => exact hs
  | cons x r ih => rw [List.foldl_cons]; exact ih _ (h _ _ hs)
@[simp] theorem foldl_fst_wf {α β : Type} (g : State × β → α → State × β) (h : ∀ a x, a.1.wf → (g a x).1.wf) (l : List α)
    (a : State × β) (hs : a.1.wf) : (l.foldl g a).1.wf := by
  induction l generalizing a with
  | nil => exact hs
  | cons x r ih => rw [List.foldl_cons]; exact ih _ (h _ _ hs)
@[simp] theorem ite_wf (c : Prop) [Decidable c] (a b : State) : ((if c then a else b).wf) = (if c then a.wf else b.wf) := by
  split <;> rfl
@[simp] theorem ite_fst_wf {β : Type} (c : Prop) [Decidable c] (a b : State × β) : ((if c then a else b).1.wf) = (if c then a.1.wf else b.1.wf) := by
  split <;> rfl
@[simp] theorem State.draw_wf (s : State) (w : Nat) (h : s.wf) : (s.draw w).2.wf := h
@[simp] theorem mod_timeWrap (a : Nat) : a % timeWrap < timeWrap := Nat.mod_lt _ (by decide)
@[simp] theorem zero_timeWrap : 0 < timeWrap := by decide

/-! ## Ops -/

@[simp] theorem State.setReg_wf (s : State) (a : Nat) (v : Word) (hw : s.wf) :
    (State.setReg s a v).wf := by simp +contextual (maxDischargeDepth := 60) [State.setReg, hw]
@[simp] theorem State.set_wf (s : State) (f : RF) (x : Nat) (hw : s.wf) :
    (State.set s f x).wf := by simp +contextual (maxDischargeDepth := 60) [State.set, hw]
@[simp] theorem State.raise_wf (s : State) (f : RF) (hw : s.wf) :
    (State.raise s f).wf := by simp +contextual (maxDischargeDepth := 60) [State.raise, hw]
@[simp] theorem State.addSat_wf (s : State) (f : RF) (n : Nat) (hw : s.wf) :
    (State.addSat s f n).wf := by simp +contextual (maxDischargeDepth := 60) [State.addSat, hw]
@[simp] theorem State.bump_wf (s : State) (f : RF) (hw : s.wf) :
    (State.bump s f).wf := by simp +contextual (maxDischargeDepth := 60) [State.bump, hw]
@[simp] theorem State.incMod_wf (s : State) (f : RF) (hw : s.wf) :
    (State.incMod s f).wf := by simp +contextual (maxDischargeDepth := 60) [State.incMod, hw]
@[simp] theorem State.dropRegs_wf (s : State) (drop : Nat → Bool) (hw : s.wf) :
    (State.dropRegs s drop).wf := by simp +contextual (maxDischargeDepth := 60) [State.dropRegs, hw]
@[simp] theorem State.once_wf (s : State) (key : Nat) (f : State → State) (hw : s.wf) (h2 : ∀ x0, x0.wf → (f x0).wf) :
    (State.once s key f).wf := by unfold State.once; split; exact hw; exact h2 _ hw
@[simp] theorem State.tick_wf (s : State) (hw : s.wf) :
    (State.tick s).wf := by simp +contextual (maxDischargeDepth := 60) [State.tick, hw]
@[simp] theorem State.setGen_wf (s : State) (g : Nat) (v : GenS) (hw : s.wf) :
    (State.setGen s g v).wf := by simp +contextual (maxDischargeDepth := 60) [State.setGen, hw]
@[simp] theorem State.setStrm_wf (s : State) (n : Nat) (v : StreamS) (hw : s.wf) :
    (State.setStrm s n v).wf := by simp +contextual (maxDischargeDepth := 60) [State.setStrm, hw]
@[simp] theorem State.updStrm_wf (s : State) (n : Nat) (f : StreamS → StreamS) (hw : s.wf) :
    (State.updStrm s n f).wf := by simp +contextual (maxDischargeDepth := 60) [State.updStrm, hw]
@[simp] theorem State.setFeed_wf (s : State) (f : Nat) (v : FeedS) (hw : s.wf) :
    (State.setFeed s f v).wf := by simp +contextual (maxDischargeDepth := 60) [State.setFeed, hw]
@[simp] theorem State.setCrew_wf (s : State) (c : Nat) (v : CrewS) (hw : s.wf) :
    (State.setCrew s c v).wf := by simp +contextual (maxDischargeDepth := 60) [State.setCrew, hw]
@[simp] theorem State.setRun_wf (s : State) (u : Nat) (v : Option RunS) (hw : s.wf) :
    (State.setRun s u v).wf := by simp +contextual (maxDischargeDepth := 60) [State.setRun, hw]
@[simp] theorem State.setRing_wf (s : State) (i : Nat) (v : RingS) (hw : s.wf) :
    (State.setRing s i v).wf := by simp +contextual (maxDischargeDepth := 60) [State.setRing, hw]
@[simp] theorem State.setTallySrc_wf (s : State) (i : Nat) (v : TSrc) (hw : s.wf) :
    (State.setTallySrc s i v).wf := by simp +contextual (maxDischargeDepth := 60) [State.setTallySrc, hw]
@[simp] theorem State.setCp_wf (s : State) (p : Nat) (v : CpS) (hw : s.wf) :
    (State.setCp s p v).wf := by simp +contextual (maxDischargeDepth := 60) [State.setCp, hw]
@[simp] theorem State.setSlotPic_wf (s : State) (i : Nat) (v : Option Nat) (hw : s.wf) :
    (State.setSlotPic s i v).wf := by simp +contextual (maxDischargeDepth := 60) [State.setSlotPic, hw]
@[simp] theorem State.emit_wf (s : State) (o : Out) (hw : s.wf) :
    (State.emit s o).wf := by simp +contextual (maxDischargeDepth := 60) [State.emit, hw]

/-! ## Flags -/

@[simp] theorem State.evcAssert_wf (s : State) (n : Nat) (hw : s.wf) :
    (State.evcAssert s n).wf := by simp +contextual (maxDischargeDepth := 60) [State.evcAssert, hw]
@[simp] theorem State.evcLine_wf (s : State) (n : Nat) (on : Bool) (hw : s.wf) :
    (State.evcLine s n on).wf := by simp +contextual (maxDischargeDepth := 60) [State.evcLine, hw]
@[simp] theorem State.streamEvent_wf (s : State) (n : Nat) (e : StreamEv) (pic : Nat) (hw : s.wf) :
    (State.streamEvent s n e pic).wf := by simp +contextual (maxDischargeDepth := 60) [State.streamEvent, hw]
@[simp] theorem State.tallyLines_wf (s : State) (hw : s.wf) :
    (State.tallyLines s).wf := by simp +contextual (maxDischargeDepth := 60) [State.tallyLines, hw]
@[simp] theorem State.holdMsg_wf (s : State) (m : Msg) (hw : s.wf) :
    (State.holdMsg s m).wf := by unfold State.holdMsg; (repeat' split) <;> simp +contextual (maxDischargeDepth := 60) [hw]
@[simp] theorem State.send_wf (s : State) (src : Nat) (kind : Nat) (addr : optParam Nat 0) (detail : optParam Nat 0) (inj : optParam Bool false) (lvl : optParam (Option Nat) none) (hw : s.wf) :
    (State.send s src kind addr detail inj lvl).wf := by simp +contextual (maxDischargeDepth := 60) [State.send, hw]
@[simp] theorem State.cfgReport_wf (s : State) (a : Nat) (hw : s.wf) :
    (State.cfgReport s a).wf := by simp +contextual (maxDischargeDepth := 60) [State.cfgReport, hw]
@[simp] theorem State.replace_wf (s : State) (bits : Nat) (hw : s.wf) :
    (State.replace s bits).wf := by simp +contextual (maxDischargeDepth := 60) [State.replace, hw]
@[simp] theorem State.setWindow_wf (s : State) (c : Nat) (v : TWin) (hw : s.wf) :
    (State.setWindow s c v).wf := by simp +contextual (maxDischargeDepth := 60) [State.setWindow, hw]

/-! ## Records -/

@[simp] theorem State.ringPut_wf (s : State) (i : Nat) (e : RingEntry) (hw : s.wf) :
    (State.ringPut s i e).wf := by simp +contextual (maxDischargeDepth := 60) [State.ringPut, hw]
@[simp] theorem State.eventRecord_wf (s : State) (i : Nat) (mk : Nat → RingEntry) (hw : s.wf) :
    (State.eventRecord s i mk).wf := by simp +contextual (maxDischargeDepth := 60) [State.eventRecord, hw]
@[simp] theorem State.statRecord_wf (s : State) (i : Nat) (body : Nat) (hw : s.wf) :
    (State.statRecord s i body).wf := by simp +contextual (maxDischargeDepth := 60) [State.statRecord, hw]
@[simp] theorem State.complete_wf (s : State) (o : Owed) (status : Nat) (data : optParam Nat 0) (hw : s.wf) :
    (State.complete s o status data).wf := by simp +contextual (maxDischargeDepth := 60) [State.complete, hw]
@[simp] theorem State.completeAll_wf (s : State) (l : List Owed) (status : Nat) (data : optParam Nat 0) (hw : s.wf) :
    (State.completeAll s l status data).wf := by simp +contextual (maxDischargeDepth := 60) [State.completeAll, hw]
@[simp] theorem State.settle_wf (s : State) (w : Await) (status : Nat) (data : optParam Nat 0) (hw : s.wf) :
    (State.settle s w status data).wf := by unfold State.settle; exact State.completeAll_wf _ _ _ _ (by simp [hw])
@[simp] theorem State.await_wf (s : State) (o : Owed) (w : Await) (hw : s.wf) :
    (State.await s o w).wf := by simp +contextual (maxDischargeDepth := 60) [State.await, hw]
@[simp] theorem State.promote_wf (s : State) (kind : Nat) (i : Nat) (w : Await) (hw : s.wf) :
    (State.promote s kind i w).wf := by simp +contextual (maxDischargeDepth := 60) [State.promote, hw]
@[simp] theorem State.bumpEpoch_wf (s : State) (u : URec) (hw : s.wf) :
    (State.bumpEpoch s u).wf := by unfold State.bumpEpoch; (repeat' split) <;> simp +contextual (maxDischargeDepth := 60) [hw]
@[simp] theorem State.request_wf (s : State) (kind : Nat) (i : Nat) (enable : Bool) (hw : s.wf) :
    (State.request s kind i enable).1.wf := by unfold State.request; simp only []; (repeat' split) <;> simp +contextual (maxDischargeDepth := 60) [*]
@[simp] theorem State.requestCmd_wf (s : State) (o : Owed) (kind : Nat) (i : Nat) (enable : Bool) (data : optParam Nat 0) (hw : s.wf) :
    (State.requestCmd s o kind i enable data).wf := by unfold State.requestCmd; simp only []; (repeat' split) <;> simp +contextual (maxDischargeDepth := 60) [*]
@[simp] theorem State.reachOn_wf (s : State) (kind : Nat) (i : Nat) (data : optParam Nat 0) (hw : s.wf) :
    (State.reachOn s kind i data).wf := by simp +contextual (maxDischargeDepth := 60) [State.reachOn, hw]
@[simp] theorem State.reachOff_wf (s : State) (kind : Nat) (i : Nat) (check : optParam (Option Nat) none) (data : optParam Nat 0) (hw : s.wf) :
    (State.reachOff s kind i check data).wf := by unfold State.reachOff; (repeat' split) <;> simp +contextual (maxDischargeDepth := 60) [hw]
@[simp] theorem State.requestWrite_wf (s : State) (kind : Nat) (i : Nat) (req : Nat) (hw : s.wf) :
    (State.requestWrite s kind i req).wf := by simp +contextual (maxDischargeDepth := 60) [State.requestWrite, hw]
@[simp] theorem State.takeFetched_wf (s : State) (c : Cmd) (hw : s.wf) :
    (State.takeFetched s c).wf := by simp +contextual (maxDischargeDepth := 60) [State.takeFetched, hw]
@[simp] theorem State.begin_wf (s : State) (c : Cmd) (opc : Nat) (this : Bool) (clean : Bool) (kinds : List Nat) (fn : Option Nat) (k : State → Owed → State) (ex : optParam Bool true) (hw : s.wf) (h7 : ∀ x0 x1, x0.wf → (k x0 x1).wf) :
    (State.begin s c opc this clean kinds fn k ex).wf := by unfold State.begin; simp only []; (repeat' split) <;> simp +contextual (maxDischargeDepth := 60) [*]
@[simp] theorem State.beginFunc_wf (s : State) (c : Cmd) (func : Nat) (code : Nat) (high : Nat → Bool) (k : State → Owed → State) (ex : optParam Bool true) (hw : s.wf) (h5 : ∀ x0 x1, x0.wf → (k x0 x1).wf) :
    (State.beginFunc s c func code high k ex).wf := by unfold State.beginFunc; simp only []; (repeat' split) <;> simp +contextual (maxDischargeDepth := 60) [*]

/-! ## Gate -/

@[simp] theorem State.ownWrite_wf (s : State) (w : Who) (a : Nat) (d : Word) (f : State → State) (hw : s.wf) (h4 : ∀ x0, x0.wf → (f x0).wf) :
    (State.ownWrite s w a d f).wf := by unfold State.ownWrite; (repeat' split) <;> first | exact hw | exact h4 _ hw | simp [hw]
@[simp] theorem State.plainWrite_wf (s : State) (a : Nat) (d : Word) (hw : s.wf) :
    (State.plainWrite s a d).wf := by unfold State.plainWrite; (repeat' split) <;> simp +contextual (maxDischargeDepth := 60) [hw]

/-! ## Time -/

@[simp] theorem State.windowStart_wf (s : State) (c : Nat) (hw : s.wf) :
    (State.windowStart s c).wf := by simp +contextual (maxDischargeDepth := 60) [State.windowStart, hw]
@[simp] theorem State.arm_wf (s : State) (g : Nat) (hw : s.wf) :
    (State.arm s g).wf := by simp +contextual (maxDischargeDepth := 60) [State.arm, hw]
@[simp] theorem State.timeChange_wf (s : State) (new : Nat) (hw : s.wf) :
    (State.timeChange s new).wf := by simp +contextual (maxDischargeDepth := 60) [State.timeChange, hw]
@[simp] theorem State.initTime_wf (s : State) (hw : s.wf) :
    (State.initTime s).wf := by simp +contextual (maxDischargeDepth := 60) [State.initTime, hw]
@[simp] theorem State.askInit_wf (s : State) (hw : s.wf) :
    (State.askInit s).1.wf := by simp +contextual (maxDischargeDepth := 60) [State.askInit, hw]
@[simp] theorem State.askStep_wf (s : State) (ns : Nat) (hw : s.wf) :
    (State.askStep s ns).1.wf := by simp +contextual (maxDischargeDepth := 60) [State.askStep, hw]
@[simp] theorem State.timeCtlWrite_wf (s : State) (d : Word) (hw : s.wf) :
    (State.timeCtlWrite s d).wf := by unfold State.timeCtlWrite; simp only []; (repeat' split) <;> simp +contextual (maxDischargeDepth := 60) [*]
@[simp] theorem State.stepNsWrite_wf (s : State) (d : Word) (hw : s.wf) :
    (State.stepNsWrite s d).wf := by simp +contextual (maxDischargeDepth := 60) [State.stepNsWrite, hw]
@[simp] theorem State.rateWrite_wf (s : State) (d : Word) (hw : s.wf) :
    (State.rateWrite s d).wf := by simp +contextual (maxDischargeDepth := 60) [State.rateWrite, hw]
@[simp] theorem State.strokeEnable_wf (s : State) (g : Nat) (hw : s.wf) :
    (State.strokeEnable s g).wf := by simp +contextual (maxDischargeDepth := 60) [State.strokeEnable, hw]
@[simp] theorem State.strokeDisable_wf (s : State) (g : Nat) (hw : s.wf) :
    (State.strokeDisable s g).wf := by simp +contextual (maxDischargeDepth := 60) [State.strokeDisable, hw]
@[simp] theorem State.strokeCtlWrite_wf (s : State) (g : Nat) (d : Word) (hw : s.wf) :
    (State.strokeCtlWrite s g d).wf := by simp +contextual (maxDischargeDepth := 60) [State.strokeCtlWrite, hw]
@[simp] theorem State.strokeParWrite_wf (s : State) (g : Nat) (a : Nat) (d : Word) (hw : s.wf) :
    (State.strokeParWrite s g a d).wf := by simp +contextual (maxDischargeDepth := 60) [State.strokeParWrite, hw]
@[simp] theorem State.readNow_wf (s : State) (hw : s.wf) :
    (State.readNow s).1.wf := by simp +contextual (maxDischargeDepth := 60) [State.readNow, hw]
@[simp] theorem State.readPps_wf (s : State) (hw : s.wf) :
    (State.readPps s).1.wf := by simp +contextual (maxDischargeDepth := 60) [State.readPps, hw]
@[simp] theorem State.readIdx_wf (s : State) (g : Nat) (hw : s.wf) :
    (State.readIdx s g).1.wf := by simp +contextual (maxDischargeDepth := 60) [State.readIdx, hw]
theorem execTimeInit_wf (w : Who) (d : Word) (s : State) (hw : s.wf) :
    ∀ s1, execTimeInit w d s = .next s1 → s1.wf := by intro s1 ht; simp only [execTimeInit, Host.Outcome.next.injEq] at ht; subst ht; simp +contextual (maxDischargeDepth := 60) [hw]
theorem execTimeStepGo_wf (w : Who) (d : Word) (s : State) (hw : s.wf) :
    ∀ s1, execTimeStepGo w d s = .next s1 → s1.wf := by intro s1 ht; simp only [execTimeStepGo, Host.Outcome.next.injEq] at ht; subst ht; simp +contextual (maxDischargeDepth := 60) [hw]
theorem execTimeRateLoad_wf (w : Who) (d : Word) (s : State) (hw : s.wf) :
    ∀ s1, execTimeRateLoad w d s = .next s1 → s1.wf := by intro s1 ht; simp only [execTimeRateLoad, Host.Outcome.next.injEq] at ht; subst ht; simp +contextual (maxDischargeDepth := 60) [hw]
theorem execClksrcWrite_wf (w : Who) (d : Word) (s : State) (hw : s.wf) :
    ∀ s1, execClksrcWrite w d s = .next s1 → s1.wf := by intro s1 ht; simp only [execClksrcWrite, Host.Outcome.next.injEq] at ht; subst ht; simp +contextual (maxDischargeDepth := 60) [hw]
theorem execPllRelock_wf (s : State) (hw : s.wf) :
    ∀ s1, execPllRelock s = .next s1 → s1.wf := by intro s1 ht; unfold execPllRelock at ht; simp only [Host.Outcome.next.injEq] at ht; subst ht; (repeat' split) <;> simp +contextual (maxDischargeDepth := 60) [hw]
theorem execTimeinLost_wf (s : State) (hw : s.wf) :
    ∀ s1, execTimeinLost s = .next s1 → s1.wf := by intro s1 ht; simp only [execTimeinLost, Host.Outcome.next.injEq] at ht; subst ht; simp +contextual (maxDischargeDepth := 60) [hw]
theorem execPpsInCapture_wf (s : State) (hw : s.wf) :
    ∀ s1, execPpsInCapture s = .next s1 → s1.wf := by intro s1 ht; simp only [execPpsInCapture, Host.Outcome.next.injEq] at ht; subst ht; simp +contextual (maxDischargeDepth := 60) [hw]
theorem execPpsOutRise_wf (s : State) (hw : s.wf) :
    ∀ s1, execPpsOutRise s = .next s1 → s1.wf := by intro s1 ht; simp only [execPpsOutRise, Host.Outcome.next.injEq] at ht; subst ht; simp +contextual (maxDischargeDepth := 60) [hw]
theorem execPpsOutFall_wf (s : State) (hw : s.wf) :
    ∀ s1, execPpsOutFall s = .next s1 → s1.wf := by intro s1 ht; unfold execPpsOutFall at ht; simp only [Host.Outcome.next.injEq] at ht; subst ht; (repeat' split) <;> simp +contextual (maxDischargeDepth := 60) [hw]
theorem execStrokeEnable_wf (w : Who) (g : Fin 4) (d : Word) (s : State) (hw : s.wf) :
    ∀ s1, execStrokeEnable w g d s = .next s1 → s1.wf := by intro s1 ht; simp only [execStrokeEnable, Host.Outcome.next.injEq] at ht; subst ht; simp +contextual (maxDischargeDepth := 60) [hw]
theorem execStrokeDisable_wf (w : Who) (g : Fin 4) (d : Word) (s : State) (hw : s.wf) :
    ∀ s1, execStrokeDisable w g d s = .next s1 → s1.wf := by intro s1 ht; simp only [execStrokeDisable, Host.Outcome.next.injEq] at ht; subst ht; simp +contextual (maxDischargeDepth := 60) [hw]
theorem execTimeNowRead_wf (w : Who) (s : State) (hw : s.wf) :
    ∀ s1, execTimeNowRead w s = .next s1 → s1.wf := by intro s1 ht; simp only [execTimeNowRead, Host.Outcome.next.injEq] at ht; subst ht; simp +contextual (maxDischargeDepth := 60) [hw]
theorem execPpsSecRead_wf (w : Who) (s : State) (hw : s.wf) :
    ∀ s1, execPpsSecRead w s = .next s1 → s1.wf := by intro s1 ht; simp only [execPpsSecRead, Host.Outcome.next.injEq] at ht; subst ht; simp +contextual (maxDischargeDepth := 60) [hw]
theorem execStrokeIdxRead_wf (w : Who) (g : Fin 4) (s : State) (hw : s.wf) :
    ∀ s1, execStrokeIdxRead w g s = .next s1 → s1.wf := by intro s1 ht; simp only [execStrokeIdxRead, Host.Outcome.next.injEq] at ht; subst ht; simp +contextual (maxDischargeDepth := 60) [hw]
theorem execTimeStep_wf (c : Cmd) (s : State) (hw : s.wf) :
    ∀ s1, execTimeStep c s = .next s1 → s1.wf := by intro s1 ht; simp only [execTimeStep, Host.Outcome.next.injEq] at ht; subst ht; simp +contextual (maxDischargeDepth := 60) [hw]
theorem execTimeStepInit_wf (c : Cmd) (s : State) (hw : s.wf) :
    ∀ s1, execTimeStepInit c s = .next s1 → s1.wf := by intro s1 ht; simp only [execTimeStepInit, Host.Outcome.next.injEq] at ht; subst ht; simp +contextual (maxDischargeDepth := 60) [hw]
theorem execStrokeSet_wf (c : Cmd) (s : State) (hw : s.wf) :
    ∀ s1, execStrokeSet c s = .next s1 → s1.wf := by intro s1 ht; simp only [execStrokeSet, Host.Outcome.next.injEq] at ht; subst ht; simp +contextual (maxDischargeDepth := 60) [hw]
theorem execStrokeSetDisable_wf (c : Cmd) (s : State) (hw : s.wf) :
    ∀ s1, execStrokeSetDisable c s = .next s1 → s1.wf := by intro s1 ht; simp only [execStrokeSetDisable, Host.Outcome.next.injEq] at ht; subst ht; simp +contextual (maxDischargeDepth := 60) [hw]
theorem execPtpSet_wf (c : Cmd) (s : State) (hw : s.wf) :
    ∀ s1, execPtpSet c s = .next s1 → s1.wf := by intro s1 ht; simp only [execPtpSet, Host.Outcome.next.injEq] at ht; subst ht; simp +contextual (maxDischargeDepth := 60) [hw]

/-! ## Evc -/

@[simp] theorem State.takeGathered_wf (s : State) (t : Nat) (n : Nat) (g : Gath) (hw : s.wf) :
    (State.takeGathered s t n g).wf := by unfold State.takeGathered; (repeat' split) <;> simp +contextual (maxDischargeDepth := 60) [hw]
@[simp] theorem State.claimMarks_wf (s : State) (t : Nat) (n : Nat) (hw : s.wf) :
    (State.claimMarks s t n).wf := by simp +contextual (maxDischargeDepth := 60) [State.claimMarks, hw]
@[simp] theorem State.holdStart_wf (s : State) (t : Nat) (n : Nat) (hw : s.wf) :
    (State.holdStart s t n).wf := by simp +contextual (maxDischargeDepth := 60) [State.holdStart, hw]
@[simp] theorem State.claim_wf (s : State) (t : Nat) (n : Nat) (hw : s.wf) :
    (State.claim s t n).wf := by simp +contextual (maxDischargeDepth := 60) [State.claim, hw]
@[simp] theorem State.look_wf (s : State) (t : Nat) (hw : s.wf) :
    (State.look s t).wf := by simp +contextual (maxDischargeDepth := 60) [State.look, hw]
@[simp] theorem State.endClaim_wf (s : State) (t : Nat) (n : Nat) (hw : s.wf) :
    (State.endClaim s t n).wf := by simp +contextual (maxDischargeDepth := 60) [State.endClaim, hw]
@[simp] theorem State.evcComplete_wf (s : State) (t : Nat) (n : Nat) (hw : s.wf) :
    (State.evcComplete s t n).wf := by simp +contextual (maxDischargeDepth := 60) [State.evcComplete, hw]
@[simp] theorem State.abandon_wf (s : State) (q : Nat) (hw : s.wf) :
    (State.abandon s q).wf := by simp +contextual (maxDischargeDepth := 60) [State.abandon, hw]
@[simp] theorem State.sendPreempt_wf (s : State) (u : Nat) (level : Nat) (abort : Bool) (hw : s.wf) :
    (State.sendPreempt s u level abort).wf := by simp +contextual (maxDischargeDepth := 60) [State.sendPreempt, hw]
@[simp] theorem State.incfgWrite_wf (s : State) (i : Nat) (d : Word) (hw : s.wf) :
    (State.incfgWrite s i d).wf := by simp +contextual (maxDischargeDepth := 60) [State.incfgWrite, hw]
@[simp] theorem State.pendClear_wf (s : State) (i : Nat) (d : Word) (hw : s.wf) :
    (State.pendClear s i d).wf := by simp +contextual (maxDischargeDepth := 60) [State.pendClear, hw]
@[simp] theorem State.tgtWrite_wf (s : State) (n : Nat) (d : Word) (hw : s.wf) :
    (State.tgtWrite s n d).wf := by simp +contextual (maxDischargeDepth := 60) [State.tgtWrite, hw]
@[simp] theorem State.preemptWrite_wf (s : State) (d : Word) (hw : s.wf) :
    (State.preemptWrite s d).wf := by simp +contextual (maxDischargeDepth := 60) [State.preemptWrite, hw]
theorem execEvcClaim_wf (t : Fin 8) (s : State) (hw : s.wf) :
    ∀ s1, execEvcClaim t s = .next s1 → s1.wf := by intro s1 ht; unfold execEvcClaim at ht; simp only [Host.Outcome.next.injEq] at ht; subst ht; (repeat' split) <;> simp +contextual (maxDischargeDepth := 60) [hw]
theorem execEvcClaimRead_wf (w : Who) (t : Fin 4) (s : State) (hw : s.wf) :
    ∀ s1, execEvcClaimRead w t s = .next s1 → s1.wf := by intro s1 ht; simp only [execEvcClaimRead, Host.Outcome.next.injEq] at ht; subst ht; simp +contextual (maxDischargeDepth := 60) [hw]
theorem execEvcDoneWrite_wf (w : Who) (t : Fin 4) (d : Word) (s : State) (hw : s.wf) :
    ∀ s1, execEvcDoneWrite w t d s = .next s1 → s1.wf := by intro s1 ht; simp only [execEvcDoneWrite, Host.Outcome.next.injEq] at ht; subst ht; simp +contextual (maxDischargeDepth := 60) [hw]
theorem execEvcTimer_wf (i : Fin 4) (s : State) (hw : s.wf) :
    ∀ s1, execEvcTimer i s = .next s1 → s1.wf := by intro s1 ht; simp only [execEvcTimer, Host.Outcome.next.injEq] at ht; subst ht; simp +contextual (maxDischargeDepth := 60) [hw]
theorem execEvtInFilter_wf (i : Fin 16) (level : Bool) (s : State) (hw : s.wf) :
    ∀ s1, execEvtInFilter i level s = .next s1 → s1.wf := by intro s1 ht; simp only [execEvtInFilter, Host.Outcome.next.injEq] at ht; subst ht; simp +contextual (maxDischargeDepth := 60) [hw]
theorem execEvtInCfgWrite_wf (w : Who) (i : Fin 16) (d : Word) (s : State) (hw : s.wf) :
    ∀ s1, execEvtInCfgWrite w i d s = .next s1 → s1.wf := by intro s1 ht; simp only [execEvtInCfgWrite, Host.Outcome.next.injEq] at ht; subst ht; simp +contextual (maxDischargeDepth := 60) [hw]
theorem execHoldOffExpiry_wf (g : Fin 64) (t : Fin 8) (s : State) (hw : s.wf) :
    ∀ s1, execHoldOffExpiry g t s = .next s1 → s1.wf := by intro s1 ht; unfold execHoldOffExpiry at ht; simp only [Host.Outcome.next.injEq] at ht; subst ht; (repeat' split) <;> simp +contextual (maxDischargeDepth := 60) [hw]
theorem execEvcPreemptWrite_wf (w : Who) (d : Word) (s : State) (hw : s.wf) :
    ∀ s1, execEvcPreemptWrite w d s = .next s1 → s1.wf := by intro s1 ht; simp only [execEvcPreemptWrite, Host.Outcome.next.injEq] at ht; subst ht; simp +contextual (maxDischargeDepth := 60) [hw]
theorem execEvcPendClear_wf (w : Who) (i : Fin 32) (d : Word) (s : State) (hw : s.wf) :
    ∀ s1, execEvcPendClear w i d s = .next s1 → s1.wf := by intro s1 ht; simp only [execEvcPendClear, Host.Outcome.next.injEq] at ht; subst ht; simp +contextual (maxDischargeDepth := 60) [hw]
theorem execEvcTgtWrite_wf (w : Who) (n : Fin 1024) (d : Word) (s : State) (hw : s.wf) :
    ∀ s1, execEvcTgtWrite w n d s = .next s1 → s1.wf := by intro s1 ht; simp only [execEvcTgtWrite, Host.Outcome.next.injEq] at ht; subst ht; simp +contextual (maxDischargeDepth := 60) [hw]

/-! ## Rack -/

@[simp] theorem State.cellarPlace_wf (s : State) (units : Nat) (hw : s.wf) :
    (State.cellarPlace s units).2.wf := by simp +contextual (maxDischargeDepth := 60) [State.cellarPlace, hw]
@[simp] theorem State.rackFree_wf (s : State) (hw : s.wf) :
    (State.rackFree s).wf := by simp +contextual (maxDischargeDepth := 60) [State.rackFree, hw]
@[simp] theorem State.assignSlot_wf (s : State) (n : Nat) (i : Nat) (units : Nat) (hw : s.wf) :
    (State.assignSlot s n i units).wf := by simp +contextual (maxDischargeDepth := 60) [State.assignSlot, hw]
@[simp] theorem State.unassignSlot_wf (s : State) (i : Nat) (hw : s.wf) :
    (State.unassignSlot s i).wf := by unfold State.unassignSlot; simp only []; (repeat' split) <;> simp +contextual (maxDischargeDepth := 60) [*]
@[simp] theorem State.makeShelf_wf (s : State) (n : Nat) (k : Nat) (units : Nat) (nMin : Nat) (hw : s.wf) :
    (State.makeShelf s n k units nMin).wf := by simp +contextual (maxDischargeDepth := 60) [State.makeShelf, hw]
@[simp] theorem State.rackWaitFlag_wf (s : State) (hw : s.wf) :
    (State.rackWaitFlag s).wf := by simp +contextual (maxDischargeDepth := 60) [State.rackWaitFlag, hw]
@[simp] theorem State.holdShow_wf (s : State) (n : Nat) (hw : s.wf) :
    (State.holdShow s n).wf := by simp +contextual (maxDischargeDepth := 60) [State.holdShow, hw]
@[simp] theorem State.noteFreed_wf (s : State) (old : State) (n : Nat) (hw : s.wf) :
    (State.noteFreed s old n).wf := by simp +contextual (maxDischargeDepth := 60) [State.noteFreed, hw]
@[simp] theorem State.slotStart_wf (s : State) (n : Nat) (slot : Nat) (nref : Nat) (hw : s.wf) :
    (State.slotStart s n slot nref).wf := by simp +contextual (maxDischargeDepth := 60) [State.slotStart, cacheDrop, hw]
@[simp] theorem State.takeSlot_wf (s : State) (n : Nat) (slot : Nat) (p : Pic) (hw : s.wf) :
    (State.takeSlot s n slot p).1.wf := by simp +contextual (maxDischargeDepth := 60) [State.takeSlot, hw]
@[simp] theorem State.allocate_wf (s : State) (n : Nat) (p : Pic) (hw : s.wf) :
    (State.allocate s n p).1.wf := by unfold State.allocate; (repeat' split) <;> simp +contextual (maxDischargeDepth := 60) [hw]
@[simp] theorem State.waitShow_wf (s : State) (hw : s.wf) :
    (State.waitShow s).wf := by simp +contextual (maxDischargeDepth := 60) [State.waitShow, hw]
@[simp] theorem State.idleStep_wf (s : State) (hw : s.wf) :
    (State.idleStep s).wf := by simp +contextual (maxDischargeDepth := 60) [State.idleStep, hw]
@[simp] theorem State.releaseRefs_wf (s : State) (n : Nat) (hw : s.wf) :
    (State.releaseRefs s n).wf := by unfold State.releaseRefs; refine foldl_wf _ (fun s x hs => ?_) _ _ hw; (try dsimp only); (repeat' split) <;> simp +contextual (maxDischargeDepth := 60) [*]
@[simp] theorem State.codingDone_wf (s : State) (n : Nat) (pic : Nat) (hw : s.wf) :
    (State.codingDone s n pic).wf := by unfold State.codingDone; (repeat' split) <;> simp +contextual (maxDischargeDepth := 60) [hw]
@[simp] theorem State.dropShelf_wf (s : State) (n : Nat) (hw : s.wf) :
    (State.dropShelf s n).wf := by simp +contextual (maxDischargeDepth := 60) [State.dropShelf, hw]
theorem execSlotRetire_wf (i : Fin 4096) (s : State) (hw : s.wf) :
    ∀ s1, execSlotRetire i s = .next s1 → s1.wf := by intro s1 ht; simp only [execSlotRetire, Host.Outcome.next.injEq] at ht; subst ht; simp +contextual (maxDischargeDepth := 60) [hw]
theorem execShelfRefill_wf (n : Fin 128) (slots : List (Fin 4096)) (s : State) (hw : s.wf) :
    ∀ s1, execShelfRefill n slots s = .next s1 → s1.wf := by intro s1 ht; simp only [execShelfRefill, Host.Outcome.next.injEq] at ht; subst ht; simp +contextual (maxDischargeDepth := 60) [hw]
theorem execHold_wf (c : Cmd) (s : State) (hw : s.wf) :
    ∀ s1, execHold c s = .next s1 → s1.wf := by intro s1 ht; unfold execHold at ht; dsimp only at ht; injection ht with ht; subst ht; refine State.begin_wf (h7 := fun s o hs => ?_) (hw := hw) ..; (try dsimp only); (repeat' split) <;> simp +contextual (maxDischargeDepth := 60) [*]
theorem execRelease_wf (c : Cmd) (s : State) (hw : s.wf) :
    ∀ s1, execRelease c s = .next s1 → s1.wf := by intro s1 ht; unfold execRelease at ht; dsimp only at ht; injection ht with ht; subst ht; refine State.begin_wf (h7 := fun s o hs => ?_) (hw := hw) ..; (try dsimp only); (repeat' split) <;> simp +contextual (maxDischargeDepth := 60) [*]

/-! ## Rrc -/

@[simp] theorem State.rrcRegs_wf (s : State) (n : Nat) (hw : s.wf) :
    (State.rrcRegs s n).wf := by unfold State.rrcRegs; simp only []; (repeat' split) <;> simp +contextual (maxDischargeDepth := 60) [*]
@[simp] theorem State.rrcLoan_wf (s : State) (n : Nat) (hw : s.wf) :
    (State.rrcLoan s n).wf := by simp +contextual (maxDischargeDepth := 60) [State.rrcLoan, hw]
@[simp] theorem State.updPic_wf (s : State) (n : Nat) (pic : Nat) (f : Pic → Pic) (hw : s.wf) :
    (State.updPic s n pic f).wf := by simp +contextual (maxDischargeDepth := 60) [State.updPic, hw]
@[simp] theorem State.floorEntry_wf (s : State) (n : Nat) (pic : Nat) (hw : s.wf) :
    (State.floorEntry s n pic).wf := by unfold State.floorEntry; (repeat' split) <;> simp +contextual (maxDischargeDepth := 60) [hw]
@[simp] theorem State.turn__wf (s : State) (cls : Nat) (n : Nat) (u : Nat) (hw : s.wf) :
    (State.turn_ s cls n u).wf := by simp +contextual (maxDischargeDepth := 60) [State.turn_, hw]
theorem execLeaseRequest_wf (u : Fin 144) (ctxBins : Nat) (bypBins : Nat) (s : State) (hw : s.wf) :
    ∀ s1, execLeaseRequest u ctxBins bypBins s = .next s1 → s1.wf := by intro s1 ht; unfold execLeaseRequest at ht; simp only [Host.Outcome.next.injEq] at ht; subst ht; (repeat' split) <;> simp +contextual (maxDischargeDepth := 60) [hw]
@[simp] theorem State.setCharging_wf (s : State) (u : Nat) (r : RunS) (hw : s.wf) :
    (State.setCharging s u r).wf := by simp +contextual (maxDischargeDepth := 60) [State.setCharging, hw]
@[simp] theorem State.bowPop_wf (s : State) (u : Nat) (hw : s.wf) :
    (State.bowPop s u).wf := by simp +contextual (maxDischargeDepth := 60) [State.bowPop, hw]
theorem execCtuCharge_wf (u : Fin 144) (x : Nat) (bits : Nat) (s : State) (hw : s.wf) :
    ∀ s1, execCtuCharge u x bits s = .next s1 → s1.wf := by intro s1 ht; unfold execCtuCharge at ht; simp only [Host.Outcome.next.injEq] at ht; subst ht; (repeat' split) <;> simp +contextual (maxDischargeDepth := 60) [hw]
@[simp] theorem State.jobStats_wf (s : State) (r : RunS) (hw : s.wf) :
    (State.jobStats s r).wf := by simp +contextual (maxDischargeDepth := 60) [State.jobStats, hw]
@[simp] theorem State.leaseReturn_wf (s : State) (r : RunS) (hw : s.wf) :
    (State.leaseReturn s r).wf := by unfold State.leaseReturn; (repeat' split) <;> simp +contextual (maxDischargeDepth := 60) [hw]
@[simp] theorem State.complexityLw_wf (s : State) (sum : Nat) (hw : s.wf) :
    (State.complexityLw s sum).2.wf := by unfold State.complexityLw; simp only []; (repeat' split) <;> simp +contextual (maxDischargeDepth := 60) [*]
@[simp] theorem State.modelUpdate_wf (s : State) (r : RunS) (irap : Bool) (lc : Nat) (hw : s.wf) :
    (State.modelUpdate s r irap lc).wf := by simp +contextual (maxDischargeDepth := 60) [State.modelUpdate, hw]

/-! ## Arrays -/

@[simp] theorem State.showRecs_wf (s : State) (f : Nat) (hw : s.wf) :
    (State.showRecs s f).wf := by simp +contextual (maxDischargeDepth := 60) [State.showRecs, hw]
@[simp] theorem State.flipSpent_wf (s : State) (f : Nat) (hw : s.wf) :
    (State.flipSpent s f).wf := by simp +contextual (maxDischargeDepth := 60) [State.flipSpent, hw]
@[simp] theorem State.granWrite_wf (s : State) (f : Nat) (a : Nat) (ds : List Nat) (poison : Bool) (back : Bool) (hw : s.wf) :
    (State.granWrite s f a ds poison back).wf := by simp +contextual (maxDischargeDepth := 60) [State.granWrite, hw]

/-! ## Cellar -/

@[simp] theorem State.setPc_wf (s : State) (k : Nat) (p : Nat) (v : PcS) (hw : s.wf) :
    (State.setPc s k p v).wf := by simp +contextual (maxDischargeDepth := 60) [State.setPc, hw]
@[simp] theorem State.setStack_wf (s : State) (k : Nat) (v : StackS) (hw : s.wf) :
    (State.setStack s k v).wf := by simp +contextual (maxDischargeDepth := 60) [State.setStack, hw]
@[simp] theorem State.fence_wf (s : State) (k : Nat) (p : Nat) (hw : s.wf) :
    (State.fence s k p).wf := by simp +contextual (maxDischargeDepth := 60) [State.fence, hw]
@[simp] theorem State.repairPend_wf (s : State) (k : Nat) (r : Bool × Nat × Nat) (hw : s.wf) :
    (State.repairPend s k r).wf := by simp +contextual (maxDischargeDepth := 60) [State.repairPend, hw]
@[simp] theorem State.laneRepair_wf (s : State) (k : Nat) (p : Nat) (lane : Nat) (hw : s.wf) :
    (State.laneRepair s k p lane).1.wf := by unfold State.laneRepair; (repeat' split) <;> simp +contextual (maxDischargeDepth := 60) [hw]
@[simp] theorem State.laneError_wf (s : State) (k : Nat) (p : Nat) (lane : Nat) (hw : s.wf) :
    (State.laneError s k p lane).wf := by simp +contextual (maxDischargeDepth := 60) [State.laneError, hw]
@[simp] theorem State.retireSlots_wf (s : State) (l : List Nat) (hw : s.wf) :
    (State.retireSlots s l).wf := by simp +contextual (maxDischargeDepth := 60) [State.retireSlots, hw]
@[simp] theorem State.rangeLost_wf (s : State) (k : Nat) (a : Nat) (hw : s.wf) :
    (State.rangeLost s k a).wf := by simp +contextual (maxDischargeDepth := 60) [State.rangeLost, hw]
@[simp] theorem State.cellarUce_wf (s : State) (a : Nat) (hw : s.wf) :
    (State.cellarUce s a).wf := by simp +contextual (maxDischargeDepth := 60) [State.cellarUce, hw]
@[simp] theorem State.wordRead_wf (s : State) (f : Nat) (a : Nat) (c : Nat) (w : Nat × Nat) (hw : s.wf) :
    (State.wordRead s f a c w).1.wf := by unfold State.wordRead; (repeat' split) <;> simp +contextual (maxDischargeDepth := 60) [hw]
@[simp] theorem State.arrRead_wf (s : State) (f : Nat) (a : Nat) (hw : s.wf) :
    (State.arrRead s f a).1.wf := by simp +contextual (maxDischargeDepth := 60) [State.arrRead, hw]
@[simp] theorem State.arrWrite_wf (s : State) (f : Nat) (a : Nat) (ds : List Nat) (back : optParam Bool false) (hw : s.wf) :
    (State.arrWrite s f a ds back).wf := by simp +contextual (maxDischargeDepth := 60) [State.arrWrite, hw]
@[simp] theorem State.arrMerge_wf (s : State) (f : Nat) (a : Nat) (off : Nat) (bs : List Byte) (hw : s.wf) :
    (State.arrMerge s f a off bs).wf := by simp +contextual (maxDischargeDepth := 60) [State.arrMerge, hw]
@[simp] theorem State.startRefresh_wf (s : State) (k : Nat) (hw : s.wf) :
    (State.startRefresh s k).wf := by simp +contextual (maxDischargeDepth := 60) [State.startRefresh, hw]
@[simp] theorem State.recalStep_wf (s : State) (k : Nat) (p : Nat) (hw : s.wf) :
    (State.recalStep s k p).wf := by simp +contextual (maxDischargeDepth := 60) [State.recalStep, hw]
@[simp] theorem State.repairsTake_wf (s : State) (k : Nat) (hw : s.wf) :
    (State.repairsTake s k).wf := by simp +contextual (maxDischargeDepth := 60) [State.repairsTake, hw]
@[simp] theorem State.closeRows_wf (s : State) (k : Nat) (hw : s.wf) :
    (State.closeRows s k).wf := by simp +contextual (maxDischargeDepth := 60) [State.closeRows, hw]
@[simp] theorem State.rearmRefresh_wf (s : State) (k : Fin 2) (t : Nat) (hw : s.wf) :
    (State.rearmRefresh s k t).wf := by simp +contextual (maxDischargeDepth := 60) [State.rearmRefresh, hw]
@[simp] theorem State.recalRefresh_wf (s : State) (k : Nat) (hw : s.wf) :
    (State.recalRefresh s k).wf := by unfold State.recalRefresh; (repeat' split) <;> simp +contextual (maxDischargeDepth := 60) [hw]
theorem execCellarRefresh_wf (k : Fin 2) (s : State) (hw : s.wf) :
    ∀ s1, execCellarRefresh k s = .next s1 → s1.wf := by intro s1 ht; unfold execCellarRefresh at ht; simp only [Host.Outcome.next.injEq] at ht; subst ht; (repeat' split) <;> simp +contextual (maxDischargeDepth := 60) [hw]
theorem execCellarTempReading_wf (k : Fin 2) (t : Int) (s : State) (hw : s.wf) :
    ∀ s1, execCellarTempReading k t s = .next s1 → s1.wf := by intro s1 ht; simp only [execCellarTempReading, Host.Outcome.next.injEq] at ht; subst ht; simp +contextual (maxDischargeDepth := 60) [hw]
theorem execRecalibrationRound_wf (k : Fin 2) (s : State) (hw : s.wf) :
    ∀ s1, execRecalibrationRound k s = .next s1 → s1.wf := by intro s1 ht; simp only [execRecalibrationRound, Host.Outcome.next.injEq] at ht; subst ht; simp +contextual (maxDischargeDepth := 60) [hw]
@[simp] theorem State.pcEnter_wf (s : State) (k : Nat) (p : Nat) (q : QReq) (hw : s.wf) :
    (State.pcEnter s k p q).wf := by simp +contextual (maxDischargeDepth := 60) [State.pcEnter, hw]
theorem execCellarRequestIssue_wf (k : Fin 2) (p : Fin 32) (arr : List CelReq) (s : State) (hw : s.wf) :
    ∀ s1, execCellarRequestIssue k p arr s = .next s1 → s1.wf := by intro s1 ht; unfold execCellarRequestIssue at ht; simp only [Host.Outcome.next.injEq] at ht; subst ht; (repeat' split) <;> simp +contextual (maxDischargeDepth := 60) [hw]
theorem execCellarPowerDown_wf (k : Fin 2) (p : Fin 32) (s : State) (hw : s.wf) :
    ∀ s1, execCellarPowerDown k p s = .next s1 → s1.wf := by intro s1 ht; simp only [execCellarPowerDown, Host.Outcome.next.injEq] at ht; subst ht; simp +contextual (maxDischargeDepth := 60) [hw]
theorem execCellarPdWake_wf (k : Fin 2) (p : Fin 32) (s : State) (hw : s.wf) :
    ∀ s1, execCellarPdWake k p s = .next s1 → s1.wf := by intro s1 ht; simp only [execCellarPdWake, Host.Outcome.next.injEq] at ht; subst ht; simp +contextual (maxDischargeDepth := 60) [hw]
theorem execRowCloseTimeout_wf (k : Fin 2) (p : Fin 32) (s : State) (hw : s.wf) :
    ∀ s1, execRowCloseTimeout k p s = .next s1 → s1.wf := by intro s1 ht; simp only [execRowCloseTimeout, Host.Outcome.next.injEq] at ht; subst ht; simp +contextual (maxDischargeDepth := 60) [hw]
@[simp] theorem State.trnWrite_wf (s : State) (k : Nat) (d : Word) (hw : s.wf) :
    (State.trnWrite s k d).wf := by simp +contextual (maxDischargeDepth := 60) [State.trnWrite, hw]
theorem execTrnGo_wf (w : Who) (k : Fin 2) (d : Word) (s : State) (hw : s.wf) :
    ∀ s1, execTrnGo w k d s = .next s1 → s1.wf := by intro s1 ht; simp only [execTrnGo, Host.Outcome.next.injEq] at ht; subst ht; simp +contextual (maxDischargeDepth := 60) [hw]
theorem execTrnDone_wf (k : Fin 2) (errs : List Nat) (s : State) (hw : s.wf) :
    ∀ s1, execTrnDone k errs s = .next s1 → s1.wf := by intro s1 ht; simp only [execTrnDone, Host.Outcome.next.injEq] at ht; subst ht; simp +contextual (maxDischargeDepth := 60) [hw]
@[simp] theorem State.mrwWrite_wf (s : State) (k : Nat) (d : Word) (hw : s.wf) :
    (State.mrwWrite s k d).wf := by simp +contextual (maxDischargeDepth := 60) [State.mrwWrite, hw]
theorem execMrwGo_wf (w : Who) (k : Fin 2) (d : Word) (s : State) (hw : s.wf) :
    ∀ s1, execMrwGo w k d s = .next s1 → s1.wf := by intro s1 ht; simp only [execMrwGo, Host.Outcome.next.injEq] at ht; subst ht; simp +contextual (maxDischargeDepth := 60) [hw]
@[simp] theorem State.repairWrite_wf (s : State) (k : Nat) (ca : Bool) (i : Nat) (d : Word) (hw : s.wf) :
    (State.repairWrite s k ca i d).wf := by simp +contextual (maxDischargeDepth := 60) [State.repairWrite, hw]
theorem execRepairWrite_wf (w : Who) (k : Fin 2) (ca : Bool) (i : Fin 32) (d : Word) (s : State) (hw : s.wf) :
    ∀ s1, execRepairWrite w k ca i d s = .next s1 → s1.wf := by intro s1 ht; simp only [execRepairWrite, Host.Outcome.next.injEq] at ht; subst ht; simp +contextual (maxDischargeDepth := 60) [hw]
@[simp] theorem State.celCtlWrite_wf (s : State) (k : Nat) (d : Word) (hw : s.wf) :
    (State.celCtlWrite s k d).wf := by simp +contextual (maxDischargeDepth := 60) [State.celCtlWrite, hw]
theorem execTrafficEnWrite_wf (w : Who) (k : Fin 2) (d : Word) (s : State) (hw : s.wf) :
    ∀ s1, execTrafficEnWrite w k d s = .next s1 → s1.wf := by intro s1 ht; simp only [execTrafficEnWrite, Host.Outcome.next.injEq] at ht; subst ht; simp +contextual (maxDischargeDepth := 60) [hw]
theorem execCelPll_wf (k : Fin 2) (s : State) (hw : s.wf) :
    ∀ s1, execCelPll k s = .next s1 → s1.wf := by intro s1 ht; simp only [execCelPll, Host.Outcome.next.injEq] at ht; subst ht; simp +contextual (maxDischargeDepth := 60) [hw]
theorem execCelLaneRepairSet_wf (c : Cmd) (s : State) (hw : s.wf) :
    ∀ s1, execCelLaneRepairSet c s = .next s1 → s1.wf := by intro s1 ht; simp only [execCelLaneRepairSet, Host.Outcome.next.injEq] at ht; subst ht; simp +contextual (maxDischargeDepth := 60) [hw]
theorem execCelRecalSet_wf (c : Cmd) (s : State) (hw : s.wf) :
    ∀ s1, execCelRecalSet c s = .next s1 → s1.wf := by intro s1 ht; simp only [execCelRecalSet, Host.Outcome.next.injEq] at ht; subst ht; simp +contextual (maxDischargeDepth := 60) [hw]
theorem execCelRepairThresholdSet_wf (c : Cmd) (s : State) (hw : s.wf) :
    ∀ s1, execCelRepairThresholdSet c s = .next s1 → s1.wf := by intro s1 ht; simp only [execCelRepairThresholdSet, Host.Outcome.next.injEq] at ht; subst ht; simp +contextual (maxDischargeDepth := 60) [hw]

/-! ## Packets -/

@[simp] theorem State.emitLit_wf (s : State) (p : Nat) (o : Out) (hw : s.wf)  :
    (State.emitLit s p o).wf := by simp +contextual (maxDischargeDepth := 60) [State.emitLit, hw]
@[simp] theorem State.igmpSend_wf (s : State) (p : Nat) (g : Nat) (join : Bool) (hw : s.wf)  :
    (State.igmpSend s p g join).wf := by simp +contextual (maxDischargeDepth := 60) [State.igmpSend, hw]
@[simp] theorem State.setFrames_wf (s : State) (p : Nat) (l : List Frame) (hw : s.wf) :
    (State.setFrames s p l).wf := by simp +contextual (maxDischargeDepth := 60) [State.setFrames, hw]
@[simp] theorem State.putFrame_wf (s : State) (p : Nat) (f : Frame) (hw : s.wf) :
    (State.putFrame s p f).wf := by simp +contextual (maxDischargeDepth := 60) [State.putFrame, hw]
@[simp] theorem State.pushPair_wf (s : State) (fl : Flow) (payload : Nat) (f : Frame) (hw : s.wf) :
    (State.pushPair s fl payload f).wf := by simp +contextual (maxDischargeDepth := 60) [State.pushPair, hw]
@[simp] theorem State.rtpNext_wf (s : State) (key : Nat) (hw : s.wf) :
    (State.rtpNext s key).2.wf := by unfold State.rtpNext; simp only []; (repeat' split) <;> simp +contextual (maxDischargeDepth := 60) [*]
@[simp] theorem State.rtpHead_wf (s : State) (key : Nat) (pt : Nat) (ssrc : Nat) (ts : Nat) (marker : Bool) (wide : Bool) (don : Option Nat) (hw : s.wf) :
    (State.rtpHead s key pt ssrc ts marker wide don).2.wf := by simp +contextual (maxDischargeDepth := 60) [State.rtpHead, hw]
@[simp] theorem State.pushRtp_wf (s : State) (fl : Flow) (payload : Nat) (key : Nat) (ts : Nat) (marker : Bool) (wide : Bool) (don : Option Nat) (f : Frame) (hw : s.wf) :
    (State.pushRtp s fl payload key ts marker wide don f).wf := by simp +contextual (maxDischargeDepth := 60) [State.pushRtp, hw]
@[simp] theorem State.setSub_wf (s : State) (i : Nat) (v : Option SubS) (hw : s.wf) :
    (State.setSub s i v).wf := by simp +contextual (maxDischargeDepth := 60) [State.setSub, hw]
@[simp] theorem State.pushSub_wf (s : State) (i : Nat) (b : SubS) (pays : Nat → List Pay) (elig : Inst) (pic : Nat) (last : Bool) (hw : s.wf)  :
    (State.pushSub s i b pays elig pic last).wf := by simp +contextual (maxDischargeDepth := 60) [State.pushSub, hw]
@[simp] theorem State.pcrDue_wf (s : State) (p : Nat) (hw : s.wf) :
    (State.pcrDue s p).wf := by
  unfold State.pcrDue
  refine foldl_wf _ (fun s e hs => ?_) _ _ hw
  dsimp only; split
  · exact hs
  · split <;> simp +contextual [hs]
@[simp] theorem State.tsSend_wf (s : State) (n : Nat) (pic : Nat) (elig : Inst) (last : Bool) (a_5 : Nat) (a_6 : TsS) (hw : s.wf) :
    (State.tsSend s n pic elig last a_5 a_6).1.wf := by
  induction a_5 generalizing s a_6 with
  | zero => exact hw
  | succ k ih =>
    unfold State.tsSend; split
    · exact hw
    · dsimp only; refine ih _ _ ?_; simp only [State.pushRtp_wf, hw]
@[simp] theorem State.pushTs_wf (s : State) (n : Nat) (pic : Nat) (bytes : Nat) (first : Bool) (last : Bool) (elig : Inst) (hw : s.wf) :
    (State.pushTs s n pic bytes first last elig).wf := by simp +contextual (maxDischargeDepth := 60) [State.pushTs, hw]
@[simp] theorem State.pushFlow_wf (s : State) (n : Nat) (fl : Flow) (pays : List Pay) (elig : Inst) (pic : Nat) (last : Bool) (hw : s.wf)  :
    (State.pushFlow s n fl pays elig pic last).wf := by simp +contextual (maxDischargeDepth := 60) [State.pushFlow, hw]
@[simp] theorem State.pushHead_wf (s : State) (n : Nat) (q : Pic) (elig : Inst) (hw : s.wf) :
    (State.pushHead s n q elig).wf := by simp +contextual (maxDischargeDepth := 60) [State.pushHead, hw]
@[simp] theorem State.pushSlice_wf (s : State) (n : Nat) (q : Pic) (row : Nat) (reg : Nat) (bytes : Nat) (elig : Inst) (hw : s.wf)  :
    (State.pushSlice s n q row reg bytes elig).wf := by simp +contextual (maxDischargeDepth := 60) [State.pushSlice, hw]
@[simp] theorem State.donNext_wf (s : State) (n : Nat) (q : Pic) (hw : s.wf) :
    (State.donNext s n q).wf := by simp +contextual (maxDischargeDepth := 60) [State.donNext, hw]
@[simp] theorem State.pushRows_wf (a_0 : Nat) (a_1 : Nat) (a_2 : State) (hw : a_2.wf) :
    (State.pushRows a_0 a_1 a_2).wf := by
  induction a_0 generalizing a_2 with
  | zero => exact hw
  | succ k ih =>
    unfold State.pushRows; dsimp only; split
    · exact hw
    · split
      · refine ih _ (State.updStrm_wf _ _ _ ?_)
        split <;> (try refine State.donNext_wf _ _ _ ?_) <;>
          refine foldl_wf _ (fun s x hs => by split <;> simp [hs]) _ _ ?_ <;> split <;> simp [hw]
      · exact hw

/-! ## Crew -/

@[simp] theorem State.crewStat_wf (s : State) (c : Nat) (hw : s.wf) :
    (State.crewStat s c).wf := by simp +contextual (maxDischargeDepth := 60) [State.crewStat, hw]
@[simp] theorem State.seatStates_wf (s : State) (c : Nat) (hw : s.wf) :
    (State.seatStates s c).wf := by simp +contextual (maxDischargeDepth := 60) [State.seatStates, hw]
@[simp] theorem State.seatWrite_wf (s : State) (c : Nat) (j : Nat) (d : Word) (hw : s.wf) :
    (State.seatWrite s c j d).wf := by simp +contextual (maxDischargeDepth := 60) [State.seatWrite, hw]
theorem execSeatWrite_wf (w : Who) (c : Fin 4) (j : Fin 32) (d : Word) (s : State) (hw : s.wf) :
    ∀ s1, execSeatWrite w c j d s = .next s1 → s1.wf := by intro s1 ht; simp only [execSeatWrite, Host.Outcome.next.injEq] at ht; subst ht; simp +contextual (maxDischargeDepth := 60) [hw]
@[simp] theorem State.ldrGranule_wf (s : State) (at_ : Nat) (bs : List Byte) (hw : s.wf) :
    (State.ldrGranule s at_ bs).wf := by simp +contextual (maxDischargeDepth := 60) [State.ldrGranule, hw]
@[simp] theorem State.ldrWrite_wf (s : State) (at_ : Nat) (bs : List Byte) (hw : s.wf) :
    (State.ldrWrite s at_ bs).wf := by simp +contextual (maxDischargeDepth := 60) [State.ldrWrite, hw]
@[simp] theorem State.ldrFree_wf (s : State) (at_ : Nat) (granules : Nat) (hw : s.wf) :
    (State.ldrFree s at_ granules).wf := by
  unfold State.ldrFree
  exact foldl_wf _ (fun s i hs => by simp [hs]) _ _ hw
@[simp] theorem State.ldrTables_wf (s : State) (c : Nat) (n : Nat) (hw : s.wf) :
    (State.ldrTables s c n).wf := by simp +contextual (maxDischargeDepth := 60) [State.ldrTables, hw]
@[simp] theorem State.ldrModel_wf (s : State) (n : Nat) (hw : s.wf) :
    (State.ldrModel s n).wf := by
  unfold State.ldrModel
  refine foldl_wf _ (fun s c hs => ?_) _ _ hw
  dsimp only; (repeat' split) <;> simp [hs]
@[simp] theorem State.ldrLoad_wf (s : State) (c : Nat) (n : Nat) (hw : s.wf) :
    (State.ldrLoad s c n).wf := by unfold State.ldrLoad; (repeat' split) <;> simp +contextual (maxDischargeDepth := 60) [hw]
@[simp] theorem State.ldrDrop_wf (s : State) (c : Nat) (n : Nat) (hw : s.wf) :
    (State.ldrDrop s c n).wf := by unfold State.ldrDrop; (repeat' split) <;> simp +contextual (maxDischargeDepth := 60) [hw]
@[simp] theorem State.setSeq_wf (s : State) (u : Nat) (q : SeqS) (hw : s.wf) :
    (State.setSeq s u q).wf := by simp +contextual (maxDischargeDepth := 60) [State.setSeq, hw]
@[simp] theorem State.seqStop_wf (s : State) (u : Nat) (hw : s.wf) :
    (State.seqStop s u).wf := by simp +contextual (maxDischargeDepth := 60) [State.seqStop, hw]
@[simp] theorem State.seqStart_wf (s : State) (u : Nat) (entry : Nat) (hw : s.wf) :
    (State.seqStart s u entry).wf := by simp +contextual (maxDischargeDepth := 60) [State.seqStart, hw]
@[simp] theorem State.enqueue_wf (s : State) (c : Nat) (j : Job) (hw : s.wf) :
    (State.enqueue s c j).wf := by simp +contextual (maxDischargeDepth := 60) [State.enqueue, hw]
@[simp] theorem State.requeue_wf (s : State) (c : Nat) (j : Job) (hw : s.wf) :
    (State.requeue s c j).wf := by simp +contextual (maxDischargeDepth := 60) [State.requeue, hw]
theorem execQueueWaitEnter_wf (c : Fin 4) (s : State) (hw : s.wf) :
    ∀ s1, execQueueWaitEnter c s = .next s1 → s1.wf := by intro s1 ht; unfold execQueueWaitEnter at ht; simp only [Host.Outcome.next.injEq] at ht; subst ht; (repeat' split) <;> simp +contextual (maxDischargeDepth := 60) [hw]
@[simp] theorem State.setProg_wf (s : State) (g : Prog) (hw : s.wf) :
    (State.setProg s g).wf := by simp +contextual (maxDischargeDepth := 60) [State.setProg, hw]
@[simp] theorem State.raiseLevel_wf (s : State) (u : Nat) (hw : s.wf) :
    (State.raiseLevel s u).wf := by unfold State.raiseLevel; (repeat' split) <;> simp +contextual (maxDischargeDepth := 60) [hw]
@[simp] theorem State.raiseCrew_wf (s : State) (c : Nat) (hw : s.wf) :
    (State.raiseCrew s c).wf := by simp +contextual (maxDischargeDepth := 60) [State.raiseCrew, hw]
theorem execCrewCeiling_wf (c : Fin 4) (s : State) (hw : s.wf) :
    ∀ s1, execCrewCeiling c s = .next s1 → s1.wf := by intro s1 ht; simp only [execCrewCeiling, Host.Outcome.next.injEq] at ht; subst ht; simp +contextual (maxDischargeDepth := 60) [hw]
@[simp] theorem State.startJob_wf (s : State) (u : Nat) (v : Nat) (j : Job) (hw : s.wf) :
    (State.startJob s u v j).wf := by simp +contextual (maxDischargeDepth := 60) [State.startJob, hw]
theorem execJobTake_wf (u : Fin 144) (s : State) (hw : s.wf) :
    ∀ s1, execJobTake u s = .next s1 → s1.wf := by intro s1 ht; unfold execJobTake at ht; simp only [Host.Outcome.next.injEq] at ht; subst ht; (repeat' split) <;> simp +contextual (maxDischargeDepth := 60) [hw]
@[simp] theorem State.abortJob_wf (s : State) (u : Nat) (hw : s.wf) :
    (State.abortJob s u).wf := by unfold State.abortJob; (repeat' split) <;> simp +contextual (maxDischargeDepth := 60) [hw]
@[simp] theorem State.chooseSpare_wf (s : State) (c : Nat) (j : Nat) (hw : s.wf) :
    (State.chooseSpare s c j).wf := by unfold State.chooseSpare; (repeat' split) <;> simp +contextual (maxDischargeDepth := 60) [hw]
@[simp] theorem State.chooseSpares_wf (s : State) (c : Nat) (l : List Nat) (hw : s.wf) :
    (State.chooseSpares s c l).wf := by simp +contextual (maxDischargeDepth := 60) [State.chooseSpares, hw]
@[simp] theorem State.retire_wf (s : State) (u : Nat) (reason : Nat) (hw : s.wf) :
    (State.retire s u reason).wf := by simp +contextual (maxDischargeDepth := 60) [State.retire, hw]
@[simp] theorem State.countRetire_wf (s : State) (u : Nat) (hw : s.wf) :
    (State.countRetire s u).wf := by simp +contextual (maxDischargeDepth := 60) [State.countRetire, hw]
@[simp] theorem State.retireFour_wf (s : State) (f : Nat) (hw : s.wf) :
    (State.retireFour s f).wf := by simp +contextual (maxDischargeDepth := 60) [State.retireFour, hw]
@[simp] theorem State.substitute_wf (s : State) (c : Nat) (hw : s.wf) :
    (State.substitute s c).wf := by simp +contextual (maxDischargeDepth := 60) [State.substitute, hw]
@[simp] theorem State.pdLose_wf (s : State) (n : Nat) (hw : s.wf) :
    (State.pdLose s n).wf := by simp +contextual (maxDischargeDepth := 60) [State.pdLose, hw]
@[simp] theorem State.fourPower_wf (s : State) (f : Nat) (on : Bool) (hw : s.wf) :
    (State.fourPower s f on).wf := by simp +contextual (maxDischargeDepth := 60) [State.fourPower, hw]
@[simp] theorem State.loadStore_wf (s : State) (u : Nat) (hw : s.wf) :
    (State.loadStore s u).wf := by simp +contextual (maxDischargeDepth := 60) [State.loadStore, hw]
@[simp] theorem State.ucsBad_wf (s : State) (u : Nat) (a : Nat) (real : Bool) (hw : s.wf) :
    (State.ucsBad s u a real).wf := by simp +contextual (maxDischargeDepth := 60) [State.ucsBad, hw]
@[simp] theorem State.uFetch_wf (s : State) (u : Nat) (a : Nat) (hw : s.wf) :
    (State.uFetch s u a).1.wf := by unfold State.uFetch; simp only []; (repeat' split) <;> simp +contextual (maxDischargeDepth := 60) [*]
@[simp] theorem State.sumWord_wf (s : State) (u : Nat) (a : Nat) (hw : s.wf) :
    (State.sumWord s u a).1.wf := by simp +contextual (maxDischargeDepth := 60) [State.sumWord, hw]
@[simp] theorem State.loadChecked_wf (s : State) (u : Nat) (hw : s.wf)  :
    (State.loadChecked s u).wf := by simp +contextual (maxDischargeDepth := 60) [State.loadChecked, hw]
@[simp] theorem State.loadRun_wf (s : State) (us : List Nat) (hw : s.wf)  :
    (State.loadRun s us).wf := by simp +contextual (maxDischargeDepth := 60) [State.loadRun, hw]
@[simp] theorem State.seatRebuild_wf (s : State) (c : Nat) (hw : s.wf)  :
    (State.seatRebuild s c).wf := by simp +contextual (maxDischargeDepth := 60) [State.seatRebuild, hw]
theorem execCrewOn_wf (c : Fin 4) (s : State) (hw : s.wf) :
    ∀ s1, execCrewOn c s = .next s1 → s1.wf := by
  intro s1 ht; unfold execCrewOn at ht; dsimp only at ht; injection ht with ht; subst ht
  (repeat' split) <;> simp +contextual (maxDischargeDepth := 60) [hw]
theorem execCrewOff_wf (c : Fin 4) (s : State) (hw : s.wf) :
    ∀ s1, execCrewOff c s = .next s1 → s1.wf := by intro s1 ht; simp only [execCrewOff, Host.Outcome.next.injEq] at ht; subst ht; simp +contextual (maxDischargeDepth := 60) [hw]

/-! ## Feeds -/

@[simp] theorem State.igmpSync_wf (s : State) (old : State) (hw : s.wf) :
    (State.igmpSync s old).wf := by simp +contextual (maxDischargeDepth := 60) [State.igmpSync, hw]
@[simp] theorem State.enqueueJob_wf (s : State) (n : Nat) (pic : Nat) (row : Nat) (reg : Nat) (hw : s.wf) :
    (State.enqueueJob s n pic row reg).wf := by simp +contextual (maxDischargeDepth := 60) [State.enqueueJob, hw]
@[simp] theorem State.enqueueBand_wf (s : State) (n : Nat) (pic : Nat) (b : Nat) (hw : s.wf) :
    (State.enqueueBand s n pic b).wf := by simp +contextual (maxDischargeDepth := 60) [State.enqueueBand, hw]
@[simp] theorem State.enqueueWhole_wf (s : State) (n : Nat) (pic : Nat) (b : Nat) (hw : s.wf) :
    (State.enqueueWhole s n pic b).wf := by simp +contextual (maxDischargeDepth := 60) [State.enqueueWhole, hw]
@[simp] theorem State.fill_wf (s : State) (f : Nat) (n : Nat) (pic : Nat) (hw : s.wf) :
    (State.fill s f n pic).wf := by unfold State.fill; simp only []; (repeat' split) <;> simp +contextual (maxDischargeDepth := 60) [*]
@[simp] theorem State.stripAdd_wf (s : State) (n : Nat) (pic : Nat) (b : Nat) (l : List Smp) (hw : s.wf)  :
    (State.stripAdd s n pic b l).wf := by simp +contextual (maxDischargeDepth := 60) [State.stripAdd, hw]
@[simp] theorem State.stripTake_wf (s : State) (n : Nat) (pic : Nat) (b : Nat) (gone : Nat) (hw : s.wf) :
    (State.stripTake s n pic b gone).wf := by simp +contextual (maxDischargeDepth := 60) [State.stripTake, hw]
@[simp] theorem State.fillLine_wf (s : State) (f : Nat) (n : Nat) (pic : Nat) (b : Nat) (p : FeedP) (l : Nat) (hw : s.wf)  :
    (State.fillLine s f n pic b p l).wf := by simp +contextual (maxDischargeDepth := 60) [State.fillLine, hw]
@[simp] theorem State.fillBand_wf (s : State) (n : Nat) (pic : Nat) (b : Nat) (hw : s.wf) :
    (State.fillBand s n pic b).wf := by simp +contextual (maxDischargeDepth := 60) [State.fillBand, hw]
@[simp] theorem State.feedLine_wf (s : State) (f : Nat) (n : Nat) (pic : Nat) (l : Nat) (smps : List Smp) (hw : s.wf)  :
    (State.feedLine s f n pic l smps).wf := by simp +contextual (maxDischargeDepth := 60) [State.feedLine, hw]
@[simp] theorem State.feedSeg_wf (s : State) (f : Nat) (n : Nat) (pic : Nat) (g : Nat × Nat × Nat × List (Nat × Nat × Nat × Nat)) (hw : s.wf)  :
    (State.feedSeg s f n pic g).wf := by simp +contextual (maxDischargeDepth := 60) [State.feedSeg, hw]
@[simp] theorem State.feedPacket_wf (s : State) (f : Nat) (ts : BitVec 32) (segs : List (Nat × Nat × Nat × List (Nat × Nat × Nat × Nat))) (hw : s.wf)  :
    (State.feedPacket s f ts segs).wf := by unfold State.feedPacket; simp only []; (repeat' split) <;> simp +contextual (maxDischargeDepth := 60) [*]
@[simp] theorem State.lookAhead_wf (s : State) (n : Nat) (pic : Nat) (hw : s.wf)  :
    (State.lookAhead s n pic).wf := by simp +contextual (maxDischargeDepth := 60) [State.lookAhead, hw]
theorem execSlotFree_wf (n : Fin 128) (pic : Nat) (b : Nat) (s : State) (hw : s.wf) :
    ∀ s1, execSlotFree n pic b s = .next s1 → s1.wf := by
  intro s1 ht; unfold execSlotFree at ht; dsimp only at ht; injection ht with ht; subst ht
  (repeat' split) <;> simp +contextual (maxDischargeDepth := 60) [hw]
theorem execFeedCut_wf (n : Fin 128) (pic : Nat) (b : Nat) (s : State) (hw : s.wf) :
    ∀ s1, execFeedCut n pic b s = .next s1 → s1.wf := by intro s1 ht; simp only [execFeedCut, Host.Outcome.next.injEq] at ht; subst ht; simp +contextual (maxDischargeDepth := 60) [hw]

/-! ## Jobs -/

@[simp] theorem State.keyRequest_wf (s : State) (n : Nat) (hw : s.wf) :
    (State.keyRequest s n).1.wf := by simp +contextual (maxDischargeDepth := 60) [State.keyRequest, hw]
@[simp] theorem State.keyFrom_wf (s : State) (n : Nat) (bit : Nat) (hw : s.wf) :
    (State.keyFrom s n bit).wf := by simp +contextual (maxDischargeDepth := 60) [State.keyFrom, hw]
@[simp] theorem State.decReport_wf (s : State) (n : Nat) (pic : Nat) (kind : Nat) (hw : s.wf) :
    (State.decReport s n pic kind).wf := by unfold State.decReport; (repeat' split) <;> simp +contextual (maxDischargeDepth := 60) [hw]
@[simp] theorem State.sendPli_wf (s : State) (n : Nat) (pic : Nat) (hw : s.wf) :
    (State.sendPli s n pic).wf := by simp +contextual (maxDischargeDepth := 60) [State.sendPli, hw]
@[simp] theorem State.concealReport_wf (s : State) (n : Nat) (pic : Nat) (loss : Bool) (hw : s.wf) :
    (State.concealReport s n pic loss).wf := by simp +contextual (maxDischargeDepth := 60) [State.concealReport, hw]
@[simp] theorem State.readConceal_wf (s : State) (n : Nat) (hw : s.wf)  :
    (State.readConceal s n).wf := by simp +contextual (maxDischargeDepth := 60) [State.readConceal, hw]
@[simp] theorem State.moveConceal_wf (s : State) (n : Nat) (i : Nat) (hw : s.wf)  :
    (State.moveConceal s n i).wf := by unfold State.moveConceal; (repeat' split) <;> simp +contextual (maxDischargeDepth := 60) [hw]
@[simp] theorem State.setMarks_wf (s : State) (n : Nat) (marks : List (Nat × Bool)) (hw : s.wf) :
    (State.setMarks s n marks).wf := by unfold State.setMarks; refine foldl_wf _ (fun s x hs => ?_) _ _ hw; (try dsimp only); (repeat' split) <;> simp +contextual (maxDischargeDepth := 60) [*]
@[simp] theorem State.dropMarks_wf (s : State) (n : Nat) (pic : Nat) (marks : List (Nat × Bool)) (hw : s.wf) :
    (State.dropMarks s n pic marks).wf := by
  unfold State.dropMarks; dsimp only
  refine foldl_wf _ (fun s c hs => ?_) _ _ (State.updStrm_wf _ _ _ hw)
  (repeat' split) <;> simp [hs]
@[simp] theorem State.statOut_wf (s : State) (n : Nat) (body : Nat) (hw : s.wf) :
    (State.statOut s n body).wf := by simp +contextual (maxDischargeDepth := 60) [State.statOut, hw]
@[simp] theorem State.popDone_wf (s : State) (n : Nat) (hw : s.wf) :
    (State.popDone s n).wf := by simp +contextual (maxDischargeDepth := 60) [State.popDone, hw]
@[simp] theorem State.lateJob_wf (s : State) (c : Nat) (n : Nat) (pic : Nat) (row : Nat) (hw : s.wf) :
    (State.lateJob s c n pic row).wf := by simp +contextual (maxDischargeDepth := 60) [State.lateJob, hw]
@[simp] theorem State.subSlice_wf (s : State) (n : Nat) (pic : Nat) (reg : Nat) (bytes : Nat) (hw : s.wf) :
    (State.subSlice s n pic reg bytes).wf := by simp +contextual (maxDischargeDepth := 60) [State.subSlice, hw]
@[simp] theorem State.subPicture_wf (s : State) (n : Nat) (pic : Nat) (hw : s.wf) :
    (State.subPicture s n pic).wf := by unfold State.subPicture; refine foldl_wf _ (fun s x hs => ?_) _ _ hw; (try dsimp only); (repeat' split) <;> simp +contextual (maxDischargeDepth := 60) [*]
@[simp] theorem State.pictureDone_wf (s : State) (n : Nat) (pic : Nat) (hw : s.wf) :
    (State.pictureDone s n pic).wf := by unfold State.pictureDone; simp only []; (repeat' split) <;> simp +contextual (maxDischargeDepth := 60) [*]
@[simp] theorem State.encodeDone_wf (s : State) (r : RunS) (bytes : Nat) (hw : s.wf)  :
    (State.encodeDone s r bytes).wf := by unfold State.encodeDone; simp only []; (repeat' split) <;> simp +contextual (maxDischargeDepth := 60) [*]
@[simp] theorem State.concealWrite_wf (s : State) (j : Job) (k : Nat) (hw : s.wf)  :
    (State.concealWrite s j k).wf := by unfold State.concealWrite; simp only []; (repeat' split) <;> simp +contextual (maxDischargeDepth := 60) [*]
@[simp] theorem State.decodeDone_wf (s : State) (j : Job) (bins : Nat) (bytes : Nat) (concealed : Nat) (far : Bool) (hw : s.wf)  :
    (State.decodeDone s j bins bytes concealed far).wf := by unfold State.decodeDone; simp only []; (repeat' split) <;> simp +contextual (maxDischargeDepth := 60) [*]
@[simp] theorem State.completeJob_wf (s : State) (r : RunS) (lc : Nat) (bytes : Nat) (concealed : Nat) (far : Bool) (hw : s.wf) :
    (State.completeJob s r lc bytes concealed far).wf := by unfold State.completeJob; simp only []; (repeat' split) <;> simp +contextual (maxDischargeDepth := 60) [*]
theorem execJobComplete_wf (u : Fin 144) (lc : Nat) (bytes : Nat) (concealed : Nat × Bool) (s : State) (hw : s.wf) :
    ∀ s1, execJobComplete u lc bytes concealed s = .next s1 → s1.wf := by intro s1 ht; unfold execJobComplete at ht; simp only [Host.Outcome.next.injEq] at ht; subst ht; (repeat' split) <;> simp +contextual (maxDischargeDepth := 60) [hw]
@[simp] theorem State.pushLine_wf (s : State) (n : Nat) (pic : Nat) (row : Nat) (g : Nat) (i : Nat) (r : Region) (dl : Inst) (late : List Nat) (last : Bool) (hw : s.wf)  :
    (State.pushLine s n pic row g i r dl late last).wf := by simp +contextual (maxDischargeDepth := 60) [State.pushLine, hw]
@[simp] theorem State.pushRegion_wf (s : State) (n : Nat) (pic : Nat) (row : Nat) (g : Nat) (r : Region) (dl : Inst) (late : List Nat) (hw : s.wf)  :
    (State.pushRegion s n pic row g r dl late).wf := by simp +contextual (maxDischargeDepth := 60) [State.pushRegion, hw]
@[simp] theorem State.pushBand_wf (s : State) (n : Nat) (pic : Nat) (row : Nat) (late : List Nat) (hw : s.wf)  :
    (State.pushBand s n pic row late).wf := by simp +contextual (maxDischargeDepth := 60) [State.pushBand, hw]
@[simp] theorem State.formOut_wf (s : State) (f : Frame) (hw : s.wf)  :
    (State.formOut s f).2.wf := by unfold State.formOut; simp only []; (repeat' split) <;> simp +contextual (maxDischargeDepth := 60) [*]
@[simp] theorem State.keepLines_wf (s : State) (n : Nat) (pic : Nat) (row : Nat) (hw : s.wf)  :
    (State.keepLines s n pic row).wf := by simp +contextual (maxDischargeDepth := 60) [State.keepLines, hw]
@[simp] theorem State.outputDone_wf (s : State) (n : Nat) (pic : Nat) (hw : s.wf) :
    (State.outputDone s n pic).wf := by unfold State.outputDone; (repeat' split) <;> simp +contextual (maxDischargeDepth := 60) [hw]
@[simp] theorem State.lateOut_wf (s : State) (n : Nat) (pic : Nat) (row : Nat) (hw : s.wf) :
    (State.lateOut s n pic row).wf := by simp +contextual (maxDischargeDepth := 60) [State.lateOut, hw]
@[simp] theorem State.raiseStream_wf (s : State) (n : Nat) (hw : s.wf) :
    (State.raiseStream s n).wf := by simp +contextual (maxDischargeDepth := 60) [State.raiseStream, hw]
@[simp] theorem State.lateRow_wf (s : State) (n : Nat) (pic : Nat) (row : Nat) (hw : s.wf) :
    (State.lateRow s n pic row).wf := by simp +contextual (maxDischargeDepth := 60) [State.lateRow, hw]
theorem execRowDeadline_wf (n : Fin 128) (pic : Nat) (row : Nat) (s : State) (hw : s.wf) :
    ∀ s1, execRowDeadline n pic row s = .next s1 → s1.wf := by intro s1 ht; simp only [execRowDeadline, Host.Outcome.next.injEq] at ht; subst ht; simp +contextual (maxDischargeDepth := 60) [hw]

/-! ## Picture -/

@[simp] theorem State.recordPut_wf (s : State) (n : Nat) (crews : List Nat) (r : Record) (hw : s.wf) :
    (State.recordPut s n crews r).wf := by unfold State.recordPut; refine foldl_wf _ (fun s x hs => ?_) _ _ hw; (try dsimp only); (repeat' split) <;> simp +contextual (maxDischargeDepth := 60) [*]
@[simp] theorem State.recordGet_wf (s : State) (c : Nat) (n : Nat) (m : Nat) (hw : s.wf) :
    (State.recordGet s c n m).1.wf := by unfold State.recordGet; (repeat' split) <;> simp +contextual (maxDischargeDepth := 60) [hw]
theorem execPictureRecordStage_wf (n : Fin 128) (s : State) (hw : s.wf) :
    ∀ s1, execPictureRecordStage n s = .next s1 → s1.wf := by intro s1 ht; simp only [execPictureRecordStage, Host.Outcome.next.injEq] at ht; subst ht; simp +contextual (maxDischargeDepth := 60) [hw]
@[simp] theorem State.dropContexts_wf (s : State) (n : Nat) (hw : s.wf) :
    (State.dropContexts s n).wf := by simp +contextual (maxDischargeDepth := 60) [State.dropContexts, hw]
@[simp] theorem State.setSwitch_wf (s : State) (n : Nat) (hw : s.wf) :
    (State.setSwitch s n).wf := by unfold State.setSwitch; simp only []; (repeat' split) <;> simp +contextual (maxDischargeDepth := 60) [*]
@[simp] theorem State.showCur_wf (s : State) (n : Nat) (m : Nat) (crews : List Nat) (hw : s.wf) :
    (State.showCur s n m crews).wf := by unfold State.showCur; refine foldl_wf _ (fun s x hs => ?_) _ _ hw; (try dsimp only); (repeat' split) <;> simp +contextual (maxDischargeDepth := 60) [*]
@[simp] theorem State.recordsGet_wf (s : State) (n : Nat) (m : Nat) (crews : List Nat) (hw : s.wf) :
    (State.recordsGet s n m crews).1.wf := by simp +contextual (maxDischargeDepth := 60) [State.recordsGet, hw]
@[simp] theorem State.switchRecord_wf (s : State) (n : Nat) (m : Nat) (hw : s.wf) :
    (State.switchRecord s n m).1.wf := by unfold State.switchRecord; simp only []; (repeat' split) <;> simp +contextual (maxDischargeDepth := 60) [*]
@[simp] theorem State.budget_wf (s : State) (n : Nat) (p : Pic) (hw : s.wf) :
    (State.budget s n p).1.wf := by simp +contextual (maxDischargeDepth := 60) [State.budget, hw]
@[simp] theorem State.settleFirst_wf (s : State) (w : Await) (k : Nat) (status : Nat) (data : Nat) (hw : s.wf) :
    (State.settleFirst s w k status data).wf := by
  induction k generalizing s with
  | zero => exact hw
  | succ k ih =>
    unfold State.settleFirst; split
    · exact hw
    · exact ih _ (State.complete_wf _ _ _ _ hw)
@[simp] theorem State.setSome_wf (s : State) (f : RF) (v : Option Nat) (hw : s.wf) :
    (State.setSome s f v).wf := by unfold State.setSome; (repeat' split) <;> simp +contextual (maxDischargeDepth := 60) [hw]
@[simp] theorem State.rateSwitch_wf (s : State) (n : Nat) (m : Nat) (hw : s.wf) :
    (State.rateSwitch s n m).wf := by simp +contextual (maxDischargeDepth := 60) [State.rateSwitch, hw]
@[simp] theorem State.feedAfresh_wf (s : State) (n : Nat) (m : Nat) (f : Nat) (hw : s.wf)  :
    (State.feedAfresh s n m f).wf := by simp +contextual (maxDischargeDepth := 60) [State.feedAfresh, hw]
@[simp] theorem State.mergeAfresh_wf (s : State) (n : Nat) (f : Nat) (hw : s.wf)  :
    (State.mergeAfresh s n f).wf := by simp +contextual (maxDischargeDepth := 60) [State.mergeAfresh, hw]
@[simp] theorem State.feedAdd_wf (s : State) (n : Nat) (m : Nat) (p : FeedP) (hw : s.wf) :
    (State.feedAdd s n m p).wf := by simp +contextual (maxDischargeDepth := 60) [State.feedAdd, hw]
@[simp] theorem State.feedChange_wf (s : State) (n : Nat) (m : Nat) (c : FeedChange) (hw : s.wf) :
    (State.feedChange s n m c).wf := by unfold State.feedChange; (repeat' split) <;> simp +contextual (maxDischargeDepth := 60) [hw]
@[simp] theorem State.feedPrune_wf (s : State) (n : Nat) (m : Nat) (hw : s.wf) :
    (State.feedPrune s n m).wf := by simp +contextual (maxDischargeDepth := 60) [State.feedPrune, hw]
@[simp] theorem State.feedSwitch_wf (s : State) (n : Nat) (m : Nat) (hw : s.wf) :
    (State.feedSwitch s n m).wf := by simp +contextual (maxDischargeDepth := 60) [State.feedSwitch, hw]
@[simp] theorem State.subSwitch_wf (s : State) (n : Nat) (m : Nat) (hw : s.wf) :
    (State.subSwitch s n m).wf := by simp +contextual (maxDischargeDepth := 60) [State.subSwitch, hw]
@[simp] theorem State.markRefs_wf (s : State) (n : Nat) (m : Nat) (hw : s.wf) :
    (State.markRefs s n m).wf := by unfold State.markRefs; simp only []; (repeat' split) <;> simp +contextual (maxDischargeDepth := 60) [*]
@[simp] theorem State.pictureJoin_wf (s : State) (n : Nat) (pic : Pic) (r : Record) (staged : Bool) (hw : s.wf) :
    (State.pictureJoin s n pic r staged).wf := by simp +contextual (maxDischargeDepth := 60) [State.pictureJoin, hw]
@[simp] theorem State.refreshShow_wf (s : State) (n : Nat) (r : Record) (hw : s.wf) :
    (State.refreshShow s n r).wf := by simp +contextual (maxDischargeDepth := 60) [State.refreshShow, hw]
@[simp] theorem State.paramSwitch_wf (s : State) (n : Nat) (m : Nat) (hw : s.wf) :
    (State.paramSwitch s n m).wf := by simp +contextual (maxDischargeDepth := 60) [State.paramSwitch, hw]
@[simp] theorem State.pictureBegin_wf (s : State) (n : Nat) (m : Nat) (k : Nat) (r : Record) (hw : s.wf) :
    (State.pictureBegin s n m k r).wf := by simp +contextual (maxDischargeDepth := 60) [State.pictureBegin, hw]
@[simp] theorem State.pictureStart_wf (s : State) (n : Nat) (k : Nat) (hw : s.wf) :
    (State.pictureStart s n k).wf := by simp +contextual (maxDischargeDepth := 60) [State.pictureStart, hw]
@[simp] theorem State.streamStroke_wf (s : State) (n : Nat) (k : Nat) (hw : s.wf) :
    (State.streamStroke s n k).wf := by simp +contextual (maxDischargeDepth := 60) [State.streamStroke, hw]
theorem execRackSlotTake_wf (n : Fin 128) (s : State) (hw : s.wf) :
    ∀ s1, execRackSlotTake n s = .next s1 → s1.wf := by intro s1 ht; unfold execRackSlotTake at ht; simp only [Host.Outcome.next.injEq] at ht; subst ht; (repeat' split) <;> simp +contextual (maxDischargeDepth := 60) [hw]
@[simp] theorem State.gateEnter_wf (s : State) (p : Nat) (i : Nat) (at_ : Nat) (len : Nat) (hw : s.wf) :
    (State.gateEnter s p i at_ len).wf := by simp +contextual (maxDischargeDepth := 60) [State.gateEnter, hw]
@[simp] theorem State.gateStroke_wf (s : State) (g : Nat) (at_ : Nat) (hw : s.wf) :
    (State.gateStroke s g at_).wf := by simp +contextual (maxDischargeDepth := 60) [State.gateStroke, hw]
theorem execStroke_wf (g : Fin 4) (s : State) (hw : s.wf) :
    ∀ s1, execStroke g s = .next s1 → s1.wf := by intro s1 ht; simp only [execStroke, Host.Outcome.next.injEq] at ht; subst ht; simp +contextual (maxDischargeDepth := 60) [hw]

/-! ## Admission -/

@[simp] theorem State.writeHomes_wf (s : State) (n : Nat) (h : Homes) (hw : s.wf) :
    (State.writeHomes s n h).wf := by simp +contextual (maxDischargeDepth := 60) [State.writeHomes, hw]
@[simp] theorem State.capSet_wf (s : State) (n : Nat) (v : Nat) (hw : s.wf) :
    (State.capSet s n v).wf := by simp +contextual (maxDischargeDepth := 60) [State.capSet, hw]
@[simp] theorem State.demote_wf (a_0 : Nat) (a_1 : State) (hw : a_1.wf) :
    (State.demote a_0 a_1).wf := by
  induction a_0 generalizing a_1 with
  | zero => exact hw
  | succ k ih =>
    unfold State.demote; split
    · exact hw
    · split
      · exact hw
      · exact ih _ (by simp [hw])
@[simp] theorem State.liftCaps_wf (l : List Nat) (s : State) (hw : s.wf) :
    (State.liftCaps l s).wf := by
  induction l generalizing s with
  | nil => exact hw
  | cons n r ih => unfold State.liftCaps; dsimp only; split <;> simp [ih, hw]
theorem execAdmissionRerun_wf (homes : List (Fin 128 × Homes)) (s : State) (hw : s.wf) :
    ∀ s1, execAdmissionRerun homes s = .next s1 → s1.wf := by intro s1 ht; unfold execAdmissionRerun at ht; simp only [Host.Outcome.next.injEq] at ht; subst ht; (repeat' split) <;> simp +contextual (maxDischargeDepth := 60) [hw]

/-! ## Stream -/

@[simp] theorem State.openRegs_wf (s : State) (n : Nat) (p : Params) (h : Homes) (x : Bool × Bool) (hw : s.wf) :
    (State.openRegs s n p h x).wf := by simp +contextual (maxDischargeDepth := 60) [State.openRegs, hw]
@[simp] theorem State.bowChoose_wf (s : State) (n : Nat) (hw : s.wf) :
    (State.bowChoose s n).wf := by simp +contextual (maxDischargeDepth := 60) [State.bowChoose, hw]
@[simp] theorem State.openTake_wf (s : State) (n : Nat) (p : Params) (h : Homes) (x : Bool × Bool) (hw : s.wf) :
    (State.openTake s n p h x).wf := by unfold State.openTake; simp only []; (repeat' split) <;> simp +contextual (maxDischargeDepth := 60) [*]
@[simp] theorem State.openStream_wf (s : State) (o : Owed) (n : Nat) (p : Params) (homes : Homes) (hw : s.wf) :
    (State.openStream s o n p homes).wf := by unfold State.openStream; simp only []; (repeat' split) <;> simp +contextual (maxDischargeDepth := 60) [*]
theorem execStreamOpen_wf (c : Cmd) (blk : HostRead) (homes : Homes) (s : State) (hw : s.wf) :
    ∀ s1, execStreamOpen c blk homes s = .next s1 → s1.wf := by intro s1 ht; unfold execStreamOpen at ht; dsimp only at ht; injection ht with ht; subst ht; refine State.begin_wf (h7 := fun s o hs => ?_) (hw := hw) ..; (try dsimp only); (repeat' split) <;> simp +contextual (maxDischargeDepth := 60) [*]
theorem execAllocationEnd_wf (n : Fin 128) (s : State) (hw : s.wf) :
    ∀ s1, execAllocationEnd n s = .next s1 → s1.wf := by intro s1 ht; simp only [execAllocationEnd, Host.Outcome.next.injEq] at ht; subst ht; simp +contextual (maxDischargeDepth := 60) [hw]
theorem execStreamClose_wf (c : Cmd) (s : State) (hw : s.wf) :
    ∀ s1, execStreamClose c s = .next s1 → s1.wf := by intro s1 ht; simp only [execStreamClose, Host.Outcome.next.injEq] at ht; subst ht; simp +contextual (maxDischargeDepth := 60) [hw]
@[simp] theorem State.subClear_wf (s : State) (i : Nat) (hw : s.wf) :
    (State.subClear s i).wf := by simp +contextual (maxDischargeDepth := 60) [State.subClear, hw]
@[simp] theorem State.subEnd_wf (s : State) (i : Nat) (hw : s.wf) :
    (State.subEnd s i).wf := by simp +contextual (maxDischargeDepth := 60) [State.subEnd, hw]
theorem execStreamOff_wf (n : Fin 128) (s : State) (hw : s.wf) :
    ∀ s1, execStreamOff n s = .next s1 → s1.wf := by intro s1 ht; unfold execStreamOff at ht; simp only [Host.Outcome.next.injEq] at ht; subst ht; (repeat' split) <;> simp +contextual (maxDischargeDepth := 60) [hw]
@[simp] theorem State.feedSet_wf (s : State) (o : Owed) (sub : Nat) (f : FeedP) (hw : s.wf) :
    (State.feedSet s o sub f).wf := by simp +contextual (maxDischargeDepth := 60) [State.feedSet, hw]
theorem execFeedSetAdd_wf (c : Cmd) (s : State) (hw : s.wf) :
    ∀ s1, execFeedSetAdd c s = .next s1 → s1.wf := by intro s1 ht; simp only [execFeedSetAdd, Host.Outcome.next.injEq] at ht; subst ht; simp +contextual (maxDischargeDepth := 60) [hw]
theorem execFeedSetChange_wf (c : Cmd) (s : State) (hw : s.wf) :
    ∀ s1, execFeedSetChange c s = .next s1 → s1.wf := by intro s1 ht; simp only [execFeedSetChange, Host.Outcome.next.injEq] at ht; subst ht; simp +contextual (maxDischargeDepth := 60) [hw]
theorem execFeedSetRemove_wf (c : Cmd) (s : State) (hw : s.wf) :
    ∀ s1, execFeedSetRemove c s = .next s1 → s1.wf := by intro s1 ht; simp only [execFeedSetRemove, Host.Outcome.next.injEq] at ht; subst ht; simp +contextual (maxDischargeDepth := 60) [hw]
theorem execRateSet_wf (c : Cmd) (s : State) (hw : s.wf) :
    ∀ s1, execRateSet c s = .next s1 → s1.wf := by intro s1 ht; unfold execRateSet at ht; dsimp only at ht; injection ht with ht; subst ht; refine State.begin_wf (h7 := fun s o hs => ?_) (hw := hw) ..; (try dsimp only); (repeat' split) <;> simp +contextual (maxDischargeDepth := 60) [*]
theorem execKeyReq_wf (c : Cmd) (s : State) (hw : s.wf) :
    ∀ s1, execKeyReq c s = .next s1 → s1.wf := by intro s1 ht; unfold execKeyReq at ht; dsimp only at ht; injection ht with ht; subst ht; refine State.begin_wf (h7 := fun s o hs => ?_) (hw := hw) ..; (try dsimp only); (repeat' split) <;> simp +contextual (maxDischargeDepth := 60) [*]
theorem execSeiInsert_wf (c : Cmd) (pay : HostRead) (s : State) (hw : s.wf) :
    ∀ s1, execSeiInsert c pay s = .next s1 → s1.wf := by intro s1 ht; unfold execSeiInsert at ht; dsimp only at ht; injection ht with ht; subst ht; refine State.begin_wf (h7 := fun s o hs => ?_) (hw := hw) ..; (try dsimp only); (repeat' split) <;> simp +contextual (maxDischargeDepth := 60) [*]
theorem execPrioSet_wf (c : Cmd) (s : State) (hw : s.wf) :
    ∀ s1, execPrioSet c s = .next s1 → s1.wf := by intro s1 ht; simp only [execPrioSet, Host.Outcome.next.injEq] at ht; subst ht; simp +contextual (maxDischargeDepth := 60) [hw]

/-! ## DecodeStream -/

@[simp] theorem State.updDec_wf (s : State) (n : Nat) (f : DecS → DecS) (hw : s.wf) :
    (State.updDec s n f).wf := by simp +contextual (maxDischargeDepth := 60) [State.updDec, hw]
@[simp] theorem State.decDrop_wf (s : State) (n : Nat) (pic : Nat) (hw : s.wf) :
    (State.decDrop s n pic).wf := by simp +contextual (maxDischargeDepth := 60) [State.decDrop, hw]
@[simp] theorem State.auDrop_wf (s : State) (n : Nat) (ts : Nat) (pic : Option Nat) (hw : s.wf)  :
    (State.auDrop s n ts pic).wf := by unfold State.auDrop; (repeat' split) <;> simp +contextual (maxDischargeDepth := 60) [hw]
@[simp] theorem State.psetError_wf (s : State) (n : Nat) (pic : Nat) (hw : s.wf) :
    (State.psetError s n pic).wf := by simp +contextual (maxDischargeDepth := 60) [State.psetError, hw]
@[simp] theorem State.decStart_wf (s : State) (n : Nat) (pic : Nat) (h : AuHead) (hw : s.wf) :
    (State.decStart s n pic h).wf := by simp +contextual (maxDischargeDepth := 60) [State.decStart, hw]
@[simp] theorem State.decLayout_wf (s : State) (n : Nat) (pic : Nat) (h : AuHead) (hw : s.wf)  :
    (State.decLayout s n pic h).wf := by unfold State.decLayout; simp only []; (repeat' split) <;> simp +contextual (maxDischargeDepth := 60) [*]
@[simp] theorem State.decRefs_wf (s : State) (n : Nat) (pic : Nat) (refs : List Nat) (hw : s.wf) :
    (State.decRefs s n pic refs).wf := by simp +contextual (maxDischargeDepth := 60) [State.decRefs, hw]
@[simp] theorem State.applyHead_wf (s : State) (n : Nat) (pic : Nat) (h : AuHead) (hw : s.wf) :
    (State.applyHead s n pic h).wf := by unfold State.applyHead; simp only []; (repeat' split) <;> simp +contextual (maxDischargeDepth := 60) [*]
@[simp] theorem State.headNow_wf (s : State) (n : Nat) (pic : Nat) (hw : s.wf) :
    (State.headNow s n pic).wf := by unfold State.headNow; (repeat' split) <;> simp +contextual (maxDischargeDepth := 60) [hw]
@[simp] theorem State.decCommit_wf (s : State) (n : Nat) (pic : Nat) (hw : s.wf)  :
    (State.decCommit s n pic).wf := by simp +contextual (maxDischargeDepth := 60) [State.decCommit, hw]
@[simp] theorem State.declareGaps_wf (s : State) (n : Nat) (k : Nat × Nat × Nat) (hw : s.wf)  :
    (State.declareGaps s n k).wf := by simp +contextual (maxDischargeDepth := 60) [State.declareGaps, hw]
@[simp] theorem State.decPacket_wf (s : State) (n : Nat) (r : RtpIn) (nals : List NalIn) (hw : s.wf) :
    (State.decPacket s n r nals).wf := by
  unfold State.decPacket; dsimp only; split
  · exact State.auDrop_wf _ _ _ _ hw
  · split
    · exact State.auDrop_wf _ _ _ _ hw
    · split
      · exact State.decDrop_wf _ _ _ hw
      · split
        · exact State.decDrop_wf _ _ _ hw
        · exact foldl_wf _ (fun s k hs => State.declareGaps_wf s _ k hs) _ _
            (State.decCommit_wf _ _ _ (State.headNow_wf _ _ _ (State.updDec_wf _ _ _ hw)))
theorem execDecodeJobRelease_wf (n : Fin 128) (pic : Nat) (row : Nat) (reg : Nat) (s : State) (hw : s.wf) :
    ∀ s1, execDecodeJobRelease n pic row reg s = .next s1 → s1.wf := by intro s1 ht; simp only [execDecodeJobRelease, Host.Outcome.next.injEq] at ht; subst ht; simp +contextual (maxDischargeDepth := 60) [hw]
@[simp] theorem State.declareLost_wf (s : State) (n : Nat) (pic : Nat) (row : Nat) (reg : Nat) (hw : s.wf) :
    (State.declareLost s n pic row reg).wf := by simp +contextual (maxDischargeDepth := 60) [State.declareLost, hw]
@[simp] theorem State.noAccessUnit_wf (s : State) (n : Nat) (pic : Nat) (hw : s.wf) :
    (State.noAccessUnit s n pic).wf := by unfold State.noAccessUnit; (repeat' split) <;> simp +contextual (maxDischargeDepth := 60) [hw]
theorem execDecodeInputCut_wf (n : Fin 128) (pic : Nat) (row : Nat) (reg : Nat) (s : State) (hw : s.wf) :
    ∀ s1, execDecodeInputCut n pic row reg s = .next s1 → s1.wf := by intro s1 ht; simp only [execDecodeInputCut, Host.Outcome.next.injEq] at ht; subst ht; simp +contextual (maxDischargeDepth := 60) [hw]
theorem execBowAheadDecode_wf (n : Fin 128) (bytes : Nat) (wrote : Nat × Nat) (jobs : List (Nat × Nat × Nat)) (s : State) (hw : s.wf) :
    ∀ s1, execBowAheadDecode n bytes wrote jobs s = .next s1 → s1.wf := by intro s1 ht; unfold execBowAheadDecode at ht; simp only [Host.Outcome.next.injEq] at ht; subst ht; (repeat' split) <;> simp +contextual (maxDischargeDepth := 60) [hw]

/-! ## Ports -/

@[simp] theorem State.passPacket_wf (s : State) (n : Nat) (r : RtpIn) (hw : s.wf)  :
    (State.passPacket s n r).wf := by simp +contextual (maxDischargeDepth := 60) [State.passPacket, hw]
@[simp] theorem State.rxUse_wf (s : State) (e : Nat × Nat × Flow) (r : RtpIn) (nals : List NalIn) (src : Nat × Nat) (hw : s.wf)  :
    (State.rxUse s e r nals src).wf := by simp +contextual (maxDischargeDepth := 60) [State.rxUse, hw]
@[simp] theorem State.rxDeliver_wf (s : State) (p : Nat) (e : Nat × Nat × Flow) (r : RtpIn) (nals : List NalIn) (src : Nat × Nat) (hw : s.wf)  :
    (State.rxDeliver s p e r nals src).wf := by unfold State.rxDeliver; simp only []; (repeat' split) <;> simp +contextual (maxDischargeDepth := 60) [*]
@[simp] theorem State.rxRtp_wf (s : State) (p : Nat) (fl : List (Nat × Nat × Flow)) (u : UdpIn) (nals : List NalIn) (hw : s.wf)  :
    (State.rxRtp s p fl u nals).wf := by unfold State.rxRtp; (repeat' split) <;> simp +contextual (maxDischargeDepth := 60) [hw]
@[simp] theorem State.rtcpFb_wf (s : State) (dst : List (Nat × Nat)) (f : RtcpFb) (hw : s.wf) :
    (State.rtcpFb s dst f).wf := by unfold State.rtcpFb; (repeat' split) <;> simp +contextual (maxDischargeDepth := 60) [hw]
@[simp] theorem State.setPtpBin_wf (s : State) (p : Nat) (l : List (List Byte)) (hw : s.wf) :
    (State.setPtpBin s p l).wf := by simp +contextual (maxDischargeDepth := 60) [State.setPtpBin, hw]
@[simp] theorem State.ptpCommit_wf (s : State) (p : Nat) (e : List Byte) (hw : s.wf) :
    (State.ptpCommit s p e).wf := by simp +contextual (maxDischargeDepth := 60) [State.ptpCommit, hw]
@[simp] theorem State.ptpReport_wf (s : State) (domain : Nat) (y : Option PtpSync) (hw : s.wf)  :
    (State.ptpReport s domain y).wf := by unfold State.ptpReport; simp only []; (repeat' split) <;> simp +contextual (maxDischargeDepth := 60) [*]
@[simp] theorem State.arpAnswer_wf (s : State) (p : Nat) (a : Nat × Nat × Nat) (hw : s.wf)  :
    (State.arpAnswer s p a).wf := by simp +contextual (maxDischargeDepth := 60) [State.arpAnswer, hw]
@[simp] theorem State.igmpAnswer_wf (s : State) (p : Nat) (q : Option Nat) (hw : s.wf)  :
    (State.igmpAnswer s p q).wf := by unfold State.igmpAnswer; (repeat' split) <;> simp +contextual (maxDischargeDepth := 60) [hw]
@[simp] theorem State.rxUdp_wf (s : State) (p : Nat) (f : RxFrame) (hw : s.wf)  :
    (State.rxUdp s p f).wf := by unfold State.rxUdp; (repeat' split) <;> simp +contextual (maxDischargeDepth := 60) [hw]
@[simp] theorem State.rxClass_wf (s : State) (p : Nat) (f : RxFrame) (hw : s.wf)  :
    (State.rxClass s p f).wf := by unfold State.rxClass; simp only []; (repeat' split) <;> simp +contextual (maxDischargeDepth := 60) [*]
@[simp] theorem State.rxFrame_wf (s : State) (p : Nat) (f : RxFrame) (hw : s.wf)  :
    (State.rxFrame s p f).wf := by simp +contextual (maxDischargeDepth := 60) [State.rxFrame, hw]
theorem execMediaFrameRx_wf (p : Fin 64) (f : RxFrame) (s : State) (hw : s.wf)  :
    ∀ s1, execMediaFrameRx p f s = .next s1 → s1.wf := by intro s1 ht; unfold execMediaFrameRx at ht; simp only [Host.Outcome.next.injEq] at ht; subst ht; (repeat' split) <;> simp +contextual (maxDischargeDepth := 60) [hw]
@[simp] theorem State.setTsBin_wf (s : State) (p : Nat) (l : List (Nat × Nat × Nat × Nat)) (hw : s.wf) :
    (State.setTsBin s p l).wf := by simp +contextual (maxDischargeDepth := 60) [State.setTsBin, hw]
@[simp] theorem State.tsCommit_wf (s : State) (p : Nat) (e : Nat × Nat × Nat × Nat) (hw : s.wf) :
    (State.tsCommit s p e).wf := by simp +contextual (maxDischargeDepth := 60) [State.tsCommit, hw]
@[simp] theorem State.emptyBins_wf (s : State) (p : Nat) (hw : s.wf) :
    (State.emptyBins s p).wf := by simp +contextual (maxDischargeDepth := 60) [State.emptyBins, hw]
theorem execPtpRxBinRead_wf (p : Fin 64) (s : State) (hw : s.wf)  :
    ∀ s1, execPtpRxBinRead p s = .next s1 → s1.wf := by intro s1 ht; unfold execPtpRxBinRead at ht; simp only [Host.Outcome.next.injEq] at ht; subst ht; (repeat' split) <;> simp +contextual (maxDischargeDepth := 60) [hw]
@[simp] theorem State.ptpTxPut_wf (s : State) (p : Nat) (data : List Byte) (hw : s.wf) :
    (State.ptpTxPut s p data).wf := by simp +contextual (maxDischargeDepth := 60) [State.ptpTxPut, hw]
theorem execPtpTxBinWrite_wf (p : Fin 64) (data : List Byte) (s : State) (hw : s.wf) :
    ∀ s1, execPtpTxBinWrite p data s = .next s1 → s1.wf := by intro s1 ht; simp only [execPtpTxBinWrite, Host.Outcome.next.injEq] at ht; subst ht; simp +contextual (maxDischargeDepth := 60) [hw]
@[simp] theorem State.readTsb_wf (s : State) (p : Nat) (hw : s.wf) :
    (State.readTsb s p).1.wf := by unfold State.readTsb; (repeat' split) <;> simp +contextual (maxDischargeDepth := 60) [hw]
theorem execTsbIdRead_wf (w : Who) (p : Fin 64) (s : State) (hw : s.wf) :
    ∀ s1, execTsbIdRead w p s = .next s1 → s1.wf := by intro s1 ht; simp only [execTsbIdRead, Host.Outcome.next.injEq] at ht; subst ht; simp +contextual (maxDischargeDepth := 60) [hw]
theorem execBinPtr_wf (p : Fin 64) (bin : Nat) (s : State) (hw : s.wf) :
    ∀ s1, execBinPtr p bin s = .next s1 → s1.wf := by intro s1 ht; unfold execBinPtr at ht; simp only [Host.Outcome.next.injEq] at ht; subst ht; (repeat' split) <;> simp +contextual (maxDischargeDepth := 60) [hw]
@[simp] theorem State.portStateWrite_wf (s : State) (p : Nat) (d : Word) (hw : s.wf) :
    (State.portStateWrite s p d).wf := by simp +contextual (maxDischargeDepth := 60) [State.portStateWrite, hw]
theorem execPortEnableReq_wf (w : Who) (p : Fin 64) (d : Word) (s : State) (hw : s.wf) :
    ∀ s1, execPortEnableReq w p d s = .next s1 → s1.wf := by intro s1 ht; simp only [execPortEnableReq, Host.Outcome.next.injEq] at ht; subst ht; simp +contextual (maxDischargeDepth := 60) [hw]
theorem execPortDisableReq_wf (w : Who) (p : Fin 64) (d : Word) (s : State) (hw : s.wf) :
    ∀ s1, execPortDisableReq w p d s = .next s1 → s1.wf := by intro s1 ht; simp only [execPortDisableReq, Host.Outcome.next.injEq] at ht; subst ht; simp +contextual (maxDischargeDepth := 60) [hw]
theorem execPortOn_wf (p : Fin 64) (s : State) (hw : s.wf) :
    ∀ s1, execPortOn p s = .next s1 → s1.wf := by intro s1 ht; simp only [execPortOn, Host.Outcome.next.injEq] at ht; subst ht; simp +contextual (maxDischargeDepth := 60) [hw]
theorem execPortOff_wf (p : Fin 64) (s : State) (hw : s.wf) :
    ∀ s1, execPortOff p s = .next s1 → s1.wf := by intro s1 ht; simp only [execPortOff, Host.Outcome.next.injEq] at ht; subst ht; simp +contextual (maxDischargeDepth := 60) [hw]

/-! ## Egress -/

@[simp] theorem State.setShaper_wf (s : State) (k : Nat) (v : ShaperS) (hw : s.wf) :
    (State.setShaper s k v).wf := by simp +contextual (maxDischargeDepth := 60) [State.setShaper, hw]
@[simp] theorem State.charge_wf (s : State) (k : Nat) (wire : Nat) (hw : s.wf) :
    (State.charge s k wire).wf := by simp +contextual (maxDischargeDepth := 60) [State.charge, hw]
@[simp] theorem State.refill_wf (s : State) (k : Nat) (rate : Nat) (burst : Nat) (mfs : Nat) (us : Nat) (hw : s.wf) :
    (State.refill s k rate burst mfs us).wf := by simp +contextual (maxDischargeDepth := 60) [State.refill, hw]
@[simp] theorem State.svcTake_wf (s : State) (q : Nat) (v : List Nat) (hw : s.wf)  :
    (State.svcTake s q v).wf := by simp +contextual (maxDischargeDepth := 60) [State.svcTake, hw]
@[simp] theorem State.svcSwitch_wf (s : State) (hw : s.wf) :
    (State.svcSwitch s).wf := by
  unfold State.svcSwitch
  exact foldl_wf _ (fun s o hs => by split <;> simp [hs]) _ _ hw
theorem execShaperRefill_wf (s : State) (hw : s.wf) :
    ∀ s1, execShaperRefill s = .next s1 → s1.wf := by intro s1 ht; simp only [execShaperRefill, Host.Outcome.next.injEq] at ht; subst ht; simp +contextual (maxDischargeDepth := 60) [hw]
@[simp] theorem State.frameGone_wf (s : State) (f : Frame) (hw : s.wf) :
    (State.frameGone s f).wf := by unfold State.frameGone; (repeat' split) <;> simp +contextual (maxDischargeDepth := 60) [hw]
@[simp] theorem State.takeFrame_wf (s : State) (p : Nat) (f : Frame) (hw : s.wf) :
    (State.takeFrame s p f).wf := by simp +contextual (maxDischargeDepth := 60) [State.takeFrame, hw]
@[simp] theorem State.dropOversize_wf (a_0 : Nat) (a_1 : Nat) (a_2 : State) (hw : a_2.wf) :
    (State.dropOversize a_0 a_1 a_2).wf := by
  induction a_0 generalizing a_2 with
  | zero => exact hw
  | succ k ih =>
    unfold State.dropOversize; split
    · exact hw
    · dsimp only; refine ih _ ?_; split <;> split <;> simp (maxDischargeDepth := 60) [hw]
@[simp] theorem State.dropStale_wf (s : State) (p : Nat) (hw : s.wf) :
    (State.dropStale s p).wf := by simp +contextual (maxDischargeDepth := 60) [State.dropStale, hw]
theorem execFrameStale_wf (p : Fin 64) (s : State) (hw : s.wf) :
    ∀ s1, execFrameStale p s = .next s1 → s1.wf := by intro s1 ht; simp only [execFrameStale, Host.Outcome.next.injEq] at ht; subst ht; simp +contextual (maxDischargeDepth := 60) [hw]
@[simp] theorem State.ptpLeave_wf (s : State) (p : Nat) (f : Frame) (hw : s.wf)  :
    (State.ptpLeave s p f).2.wf := by unfold State.ptpLeave; (repeat' split) <;> simp +contextual (maxDischargeDepth := 60) [hw]
@[simp] theorem State.frameBytes_wf (s : State) (f : Frame) (h : NetHead) (hw : s.wf)  :
    (State.frameBytes s f h).2.wf := by simp +contextual (maxDischargeDepth := 60) [State.frameBytes, hw]
@[simp] theorem State.sendOut_wf (s : State) (p : Nat) (o : Out) (bytes : State → List Byte × State) (hw : s.wf)
    (h : ∀ s, s.wf → (bytes s).2.wf) :
    (State.sendOut s p o bytes).wf := by
  have he := State.emitLit_wf s p o hw
  unfold State.sendOut; dsimp only; split
  · exact hw
  · split
    · exact he
    · exact State.rxFrame_wf _ _ _ (h _ he)
@[simp] theorem State.startFrame_wf (s : State) (p : Nat) (f : Frame) (hw : s.wf) :
    (State.startFrame s p f).wf := by unfold State.startFrame; (repeat' split) <;> simp +contextual (maxDischargeDepth := 60) [hw]
theorem execEgressFrameStart_wf (p : Fin 64) (s : State) (hw : s.wf) :
    ∀ s1, execEgressFrameStart p s = .next s1 → s1.wf := by intro s1 ht; unfold execEgressFrameStart at ht; simp only [Host.Outcome.next.injEq] at ht; subst ht; (repeat' split) <;> simp +contextual (maxDischargeDepth := 60) [hw]
theorem execGateEntry_wf (p : Fin 64) (s : State) (hw : s.wf) :
    ∀ s1, execGateEntry p s = .next s1 → s1.wf := by intro s1 ht; unfold execGateEntry at ht; simp only [Host.Outcome.next.injEq] at ht; subst ht; (repeat' split) <;> simp +contextual (maxDischargeDepth := 60) [hw]
@[simp] theorem State.takeOver_wf (s : State) (p : Nat) (at_ : Nat) (data : Nat) (hw : s.wf) :
    (State.takeOver s p at_ data).wf := by simp +contextual (maxDischargeDepth := 60) [State.takeOver, hw]
theorem execGateTakeover_wf (p : Fin 64) (s : State) (hw : s.wf) :
    ∀ s1, execGateTakeover p s = .next s1 → s1.wf := by intro s1 ht; unfold execGateTakeover at ht; simp only [Host.Outcome.next.injEq] at ht; subst ht; (repeat' split) <;> simp +contextual (maxDischargeDepth := 60) [hw]
@[simp] theorem State.armGate_wf (s : State) (p : Nat) (hw : s.wf) :
    (State.armGate s p).wf := by simp +contextual (maxDischargeDepth := 60) [State.armGate, hw]
@[simp] theorem State.cancelGate_wf (s : State) (p : Nat) (hw : s.wf) :
    (State.cancelGate s p).wf := by simp +contextual (maxDischargeDepth := 60) [State.cancelGate, hw]
@[simp] theorem State.gctlWrite_wf (s : State) (p : Nat) (d : Word) (hw : s.wf) :
    (State.gctlWrite s p d).wf := by simp +contextual (maxDischargeDepth := 60) [State.gctlWrite, hw]
theorem execGateArm_wf (w : Who) (p : Fin 64) (d : Word) (s : State) (hw : s.wf) :
    ∀ s1, execGateArm w p d s = .next s1 → s1.wf := by intro s1 ht; simp only [execGateArm, Host.Outcome.next.injEq] at ht; subst ht; simp +contextual (maxDischargeDepth := 60) [hw]
@[simp] theorem State.gateWrite_wf (s : State) (p : Nat) (a : Nat) (d : Word) (hw : s.wf) :
    (State.gateWrite s p a d).wf := by simp +contextual (maxDischargeDepth := 60) [State.gateWrite, hw]
@[simp] theorem State.beginGate_wf (s : State) (c : Cmd) (code : Nat) (k : Nat → State → Owed → State) (hw : s.wf) (h3 : ∀ x0 x1 x2, x1.wf → (k x0 x1 x2).wf) :
    (State.beginGate s c code k).wf := by unfold State.beginGate; simp only []; (repeat' split) <;> simp +contextual (maxDischargeDepth := 60) [*]
theorem execGateEntrySet_wf (c : Cmd) (s : State) (hw : s.wf) :
    ∀ s1, execGateEntrySet c s = .next s1 → s1.wf := by intro s1 ht; simp only [execGateEntrySet, Host.Outcome.next.injEq] at ht; subst ht; simp +contextual (maxDischargeDepth := 60) [hw]
theorem execGateListSet_wf (c : Cmd) (s : State) (hw : s.wf) :
    ∀ s1, execGateListSet c s = .next s1 → s1.wf := by intro s1 ht; simp only [execGateListSet, Host.Outcome.next.injEq] at ht; subst ht; simp +contextual (maxDischargeDepth := 60) [hw]
theorem execGateArmSet_wf (c : Cmd) (s : State) (hw : s.wf) :
    ∀ s1, execGateArmSet c s = .next s1 → s1.wf := by intro s1 ht; simp only [execGateArmSet, Host.Outcome.next.injEq] at ht; subst ht; simp +contextual (maxDischargeDepth := 60) [hw]
theorem execGateCancel_wf (c : Cmd) (s : State) (hw : s.wf) :
    ∀ s1, execGateCancel c s = .next s1 → s1.wf := by intro s1 ht; simp only [execGateCancel, Host.Outcome.next.injEq] at ht; subst ht; simp +contextual (maxDischargeDepth := 60) [hw]

/-! ## Subs -/

@[simp] theorem State.subTake_wf (s : State) (i : Nat) (n : Nat) (d : Desc) (hw : s.wf) :
    (State.subTake s i n d).wf := by simp +contextual (maxDischargeDepth := 60) [State.subTake, hw]
theorem execSubOpen_wf (c : Cmd) (s : State) (hw : s.wf) :
    ∀ s1, execSubOpen c s = .next s1 → s1.wf := by intro s1 ht; simp only [execSubOpen, Host.Outcome.next.injEq] at ht; subst ht; simp +contextual (maxDischargeDepth := 60) [hw]
theorem execSubClose_wf (c : Cmd) (s : State) (hw : s.wf) :
    ∀ s1, execSubClose c s = .next s1 → s1.wf := by intro s1 ht; unfold execSubClose at ht; dsimp only at ht; injection ht with ht; subst ht; refine State.begin_wf (h7 := fun s o hs => ?_) (hw := hw) ..; (try dsimp only); (repeat' split) <;> simp +contextual (maxDischargeDepth := 60) [*]
theorem execSubOff_wf (i : Fin 4096) (s : State) (hw : s.wf) :
    ∀ s1, execSubOff i s = .next s1 → s1.wf := by intro s1 ht; unfold execSubOff at ht; simp only [Host.Outcome.next.injEq] at ht; subst ht; (repeat' split) <;> simp +contextual (maxDischargeDepth := 60) [hw]
theorem execSvcSet_wf (c : Cmd) (s : State) (hw : s.wf) :
    ∀ s1, execSvcSet c s = .next s1 → s1.wf := by intro s1 ht; simp only [execSvcSet, Host.Outcome.next.injEq] at ht; subst ht; simp +contextual (maxDischargeDepth := 60) [hw]

/-! ## Micro -/

@[simp] theorem State.uDrop_wf (s : State) (u : Nat) (hw : s.wf) :
    (State.uDrop s u).wf := by simp +contextual (maxDischargeDepth := 60) [State.uDrop, hw]
@[simp] theorem State.doubleTrap_wf (s : State) (u : Nat) (hw : s.wf) :
    (State.doubleTrap s u).wf := by simp +contextual (maxDischargeDepth := 60) [State.doubleTrap, hw]
@[simp] theorem State.uRaise_wf (s : State) (u : Nat) (c : Nat) (hw : s.wf) :
    (State.uRaise s u c).wf := by simp +contextual (maxDischargeDepth := 60) [State.uRaise, hw]
@[simp] theorem State.retireIfDue_wf (s : State) (u : Nat) (hw : s.wf) :
    (State.retireIfDue s u).wf := by simp +contextual (maxDischargeDepth := 60) [State.retireIfDue, hw]
@[simp] theorem State.uCtuWord_wf (s : State) (u : Nat) (hw : s.wf) :
    (State.uCtuWord s u).wf := by unfold State.uCtuWord; simp only []; (repeat' split) <;> simp +contextual (maxDischargeDepth := 60) [*]
@[simp] theorem State.uEndJob_wf (s : State) (u : Nat) (hw : s.wf) :
    (State.uEndJob s u).wf := by unfold State.uEndJob; simp only []; (repeat' split) <;> simp +contextual (maxDischargeDepth := 60) [*]
@[simp] theorem State.uRestore_wf (s : State) (u : Nat) (hw : s.wf) :
    (State.uRestore s u).1.wf := by simp +contextual (maxDischargeDepth := 60) [State.uRestore, hw]
@[simp] theorem State.srchLoad_wf (s : State) (u : Nat) (ref : Nat) (range : Nat) (hw : s.wf) :
    (State.srchLoad s u ref range).wf := by
  unfold State.srchLoad
  split
  · exact hw
  · dsimp only
    generalize hq : s.setRun u _ = s1
    have h1 : s1.wf := hq ▸ State.setRun_wf s u _ hw
    clear hq
    generalize winLines _ = l
    split <;> simp +contextual (maxDischargeDepth := 60) [h1]
@[simp] theorem State.recBack_wf (s : State) (u : Nat) (hw : s.wf)  :
    (State.recBack s u).wf := by unfold State.recBack; (repeat' split) <;> simp +contextual (maxDischargeDepth := 60) [hw]
@[simp] theorem State.recWrite_wf (s : State) (u : Nat) (plane : Nat) (c : UCond) (hw : s.wf) :
    (State.recWrite s u plane c).wf := by
  unfold State.recWrite; split
  · exact hw
  · simp [hw]
@[simp] theorem State.uDecide_wf (s : State) (u : Nat) (w : Nat) (c : UCond) (hw : s.wf) :
    (State.uDecide s u w c).wf := by unfold State.uDecide; (repeat' split) <;> simp +contextual (maxDischargeDepth := 60) [hw]
@[simp] theorem State.ctuEnd_wf (s : State) (u : Nat) (c : UCond) (hw : s.wf) :
    (State.ctuEnd s u c).wf := by unfold State.ctuEnd; simp only []; (repeat' split) <;> simp +contextual (maxDischargeDepth := 60) [*]
@[simp] theorem State.uBow_wf (s : State) (u : Nat) (w : Nat) (c : UCond) (hw : s.wf) :
    (State.uBow s u w c).wf := by unfold State.uBow; (repeat' split) <;> simp +contextual (maxDischargeDepth := 60) [hw]
@[simp] theorem State.uUnits_wf (s : State) (u : Nat) (w : Nat) (c : UCond) (hw : s.wf) :
    (State.uUnits s u w c).wf := by simp +contextual (maxDischargeDepth := 60) [State.uUnits, hw]
@[simp] theorem State.uData_wf (s : State) (u : Nat) (w : Nat) (cs : Nat) (no : List (Nat × Nat × Nat)) (c : UCond) (hw : s.wf)  :
    (State.uData s u w cs no c).wf := by simp +contextual (maxDischargeDepth := 60) [State.uData, hw]
@[simp] theorem State.uNext_wf (s : State) (u : Nat) (w : Nat) (cs : Nat) (hw : s.wf) :
    (State.uNext s u w cs).wf := by unfold State.uNext; (repeat' split) <;> simp +contextual (maxDischargeDepth := 60) [hw]
@[simp] theorem State.uLoopField_wf (s : State) (u : Nat) (w : Nat) (ctus : Nat) (hw : s.wf)  :
    (State.uLoopField s u w ctus).wf := by simp +contextual (maxDischargeDepth := 60) [State.uLoopField, hw]
@[simp] theorem State.uComplete_wf (s : State) (u : Nat) (w : Nat) (cs : Nat) (no : List (Nat × Nat × Nat)) (c : UCond) (hw : s.wf) :
    (State.uComplete s u w cs no c).wf := by
  have hd := State.uData_wf s u w cs no c hw
  unfold State.uComplete; generalize s.uData u w cs no c = v at hd ⊢; dsimp only
  (repeat' split) <;> simp +contextual (maxDischargeDepth := 60) [hd]
@[simp] theorem State.uExec_wf (s : State) (u : Nat) (code : Nat) (c : UCond) (hw : s.wf) :
    (State.uExec s u code c).wf := by simp +contextual (maxDischargeDepth := 60) [State.uExec, hw]
theorem execUCont_wf (u : Fin 144) (c : UCond) (s : State) (hw : s.wf) :
    ∀ s1, execUCont u c s = .next s1 → s1.wf := by intro s1 ht; simp only [execUCont, Host.Outcome.next.injEq] at ht; subst ht; simp +contextual (maxDischargeDepth := 60) [hw]
theorem execUGoto_wf (u : Fin 144) (c : UCond) (s : State) (hw : s.wf) :
    ∀ s1, execUGoto u c s = .next s1 → s1.wf := by intro s1 ht; simp only [execUGoto, Host.Outcome.next.injEq] at ht; subst ht; simp +contextual (maxDischargeDepth := 60) [hw]
theorem execUCase_wf (u : Fin 144) (c : UCond) (s : State) (hw : s.wf) :
    ∀ s1, execUCase u c s = .next s1 → s1.wf := by intro s1 ht; simp only [execUCase, Host.Outcome.next.injEq] at ht; subst ht; simp +contextual (maxDischargeDepth := 60) [hw]
theorem execUCall_wf (u : Fin 144) (c : UCond) (s : State) (hw : s.wf) :
    ∀ s1, execUCall u c s = .next s1 → s1.wf := by intro s1 ht; simp only [execUCall, Host.Outcome.next.injEq] at ht; subst ht; simp +contextual (maxDischargeDepth := 60) [hw]
theorem execURet_wf (u : Fin 144) (c : UCond) (s : State) (hw : s.wf) :
    ∀ s1, execURet u c s = .next s1 → s1.wf := by intro s1 ht; simp only [execURet, Host.Outcome.next.injEq] at ht; subst ht; simp +contextual (maxDischargeDepth := 60) [hw]
theorem execULoop_wf (u : Fin 144) (c : UCond) (s : State) (hw : s.wf) :
    ∀ s1, execULoop u c s = .next s1 → s1.wf := by intro s1 ht; simp only [execULoop, Host.Outcome.next.injEq] at ht; subst ht; simp +contextual (maxDischargeDepth := 60) [hw]
theorem execUCtu_wf (u : Fin 144) (c : UCond) (s : State) (hw : s.wf) :
    ∀ s1, execUCtu u c s = .next s1 → s1.wf := by intro s1 ht; simp only [execUCtu, Host.Outcome.next.injEq] at ht; subst ht; simp +contextual (maxDischargeDepth := 60) [hw]
theorem execUEndj_wf (u : Fin 144) (c : UCond) (s : State) (hw : s.wf) :
    ∀ s1, execUEndj u c s = .next s1 → s1.wf := by intro s1 ht; simp only [execUEndj, Host.Outcome.next.injEq] at ht; subst ht; simp +contextual (maxDischargeDepth := 60) [hw]
theorem execUAbort_wf (u : Fin 144) (c : UCond) (s : State) (hw : s.wf) :
    ∀ s1, execUAbort u c s = .next s1 → s1.wf := by intro s1 ht; simp only [execUAbort, Host.Outcome.next.injEq] at ht; subst ht; simp +contextual (maxDischargeDepth := 60) [hw]
theorem execUMret_wf (u : Fin 144) (c : UCond) (s : State) (hw : s.wf) :
    ∀ s1, execUMret u c s = .next s1 → s1.wf := by intro s1 ht; simp only [execUMret, Host.Outcome.next.injEq] at ht; subst ht; simp +contextual (maxDischargeDepth := 60) [hw]
theorem execUIdle_wf (u : Fin 144) (c : UCond) (s : State) (hw : s.wf) :
    ∀ s1, execUIdle u c s = .next s1 → s1.wf := by intro s1 ht; simp only [execUIdle, Host.Outcome.next.injEq] at ht; subst ht; simp +contextual (maxDischargeDepth := 60) [hw]
theorem execTrapEntry_wf (u : Fin 144) (s : State) (hw : s.wf) :
    ∀ s1, execTrapEntry u s = .next s1 → s1.wf := by intro s1 ht; simp only [execTrapEntry, Host.Outcome.next.injEq] at ht; subst ht; simp +contextual (maxDischargeDepth := 60) [hw]
theorem execUcWaitTo_wf (u : Fin 144) (s : State) (hw : s.wf) :
    ∀ s1, execUcWaitTo u s = .next s1 → s1.wf := by intro s1 ht; unfold execUcWaitTo at ht; simp only [Host.Outcome.next.injEq] at ht; subst ht; (repeat' split) <;> simp +contextual (maxDischargeDepth := 60) [hw]
theorem execPreemptArrive_wf (u : Fin 144) (s : State) (hw : s.wf) :
    ∀ s1, execPreemptArrive u s = .next s1 → s1.wf := by intro s1 ht; unfold execPreemptArrive at ht; simp only [Host.Outcome.next.injEq] at ht; subst ht; (repeat' split) <;> simp +contextual (maxDischargeDepth := 60) [hw]
@[simp] theorem State.chkTake_wf (s : State) (group : Nat) (unit : Nat) (hw : s.wf) :
    (State.chkTake s group unit).1.wf := by simp +contextual (maxDischargeDepth := 60) [State.chkTake, hw]
@[simp] theorem State.chkReport_wf (s : State) (src : Nat) (kind : Nat) (addr : Nat) (detail : Nat) (real : Bool) (inj : Bool) (hw : s.wf) :
    (State.chkReport s src kind addr detail real inj).wf := by simp +contextual (maxDischargeDepth := 60) [State.chkReport, hw]
theorem execResidueVerdict_wf (u : Fin 144) (real : Bool) (unit : Fin 3) (s : State) (hw : s.wf) :
    ∀ s1, execResidueVerdict u real unit s = .next s1 → s1.wf := by intro s1 ht; simp only [execResidueVerdict, Host.Outcome.next.injEq] at ht; subst ht; simp +contextual (maxDischargeDepth := 60) [hw]
theorem execUcsCeWriteback_wf (u : Fin 144) (a : BitVec 12) (s : State) (hw : s.wf) :
    ∀ s1, execUcsCeWriteback u a s = .next s1 → s1.wf := by intro s1 ht; simp only [execUcsCeWriteback, Host.Outcome.next.injEq] at ht; subst ht; simp +contextual (maxDischargeDepth := 60) [hw]
@[simp] theorem State.ucsCommit_wf (s : State) (u : Nat) (a : Nat) (w : Nat) (hw : s.wf) :
    (State.ucsCommit s u a w).wf := by simp +contextual (maxDischargeDepth := 60) [State.ucsCommit, hw]
theorem execUcsWordRepair_wf (u : Fin 144) (s : State) (hw : s.wf) :
    ∀ s1, execUcsWordRepair u s = .next s1 → s1.wf := by intro s1 ht; simp only [execUcsWordRepair, Host.Outcome.next.injEq] at ht; subst ht; simp +contextual (maxDischargeDepth := 60) [hw]
theorem execSelfTestStart_wf (u : Fin 144) (s : State) (hw : s.wf) :
    ∀ s1, execSelfTestStart u s = .next s1 → s1.wf := by intro s1 ht; simp only [execSelfTestStart, Host.Outcome.next.injEq] at ht; subst ht; simp +contextual (maxDischargeDepth := 60) [hw]
@[simp] theorem State.ucsLatch_wf (s : State) (u : Nat) (hw : s.wf) :
    (State.ucsLatch s u).wf := by simp +contextual (maxDischargeDepth := 60) [State.ucsLatch, hw]
@[simp] theorem State.ucsAddrWrite_wf (s : State) (u : Nat) (d : Word) (hw : s.wf) :
    (State.ucsAddrWrite s u d).wf := by simp +contextual (maxDischargeDepth := 60) [State.ucsAddrWrite, hw]
theorem execUcsAddrWrite_wf (w : Who) (u : Fin 144) (d : Word) (s : State) (hw : s.wf) :
    ∀ s1, execUcsAddrWrite w u d s = .next s1 → s1.wf := by intro s1 ht; simp only [execUcsAddrWrite, Host.Outcome.next.injEq] at ht; subst ht; simp +contextual (maxDischargeDepth := 60) [hw]
@[simp] theorem State.ucsAdvance_wf (s : State) (u : Nat) (hw : s.wf) :
    (State.ucsAdvance s u).wf := by simp +contextual (maxDischargeDepth := 60) [State.ucsAdvance, hw]
@[simp] theorem State.ucsDataWrite_wf (s : State) (u : Nat) (i : Nat) (d : Word) (hw : s.wf) :
    (State.ucsDataWrite s u i d).wf := by simp +contextual (maxDischargeDepth := 60) [State.ucsDataWrite, hw]
@[simp] theorem State.ucsData4Write_wf (s : State) (u : Nat) (d : Word) (hw : s.wf) :
    (State.ucsData4Write s u d).wf := by simp +contextual (maxDischargeDepth := 60) [State.ucsData4Write, hw]
theorem execUcsData4Write_wf (w : Who) (u : Fin 144) (d : Word) (s : State) (hw : s.wf) :
    ∀ s1, execUcsData4Write w u d s = .next s1 → s1.wf := by intro s1 ht; simp only [execUcsData4Write, Host.Outcome.next.injEq] at ht; subst ht; simp +contextual (maxDischargeDepth := 60) [hw]
@[simp] theorem State.readData4_wf (s : State) (u : Nat) (hw : s.wf) :
    (State.readData4 s u).1.wf := by simp +contextual (maxDischargeDepth := 60) [State.readData4, hw]
theorem execUcsData4Read_wf (w : Who) (u : Fin 144) (s : State) (hw : s.wf) :
    ∀ s1, execUcsData4Read w u s = .next s1 → s1.wf := by intro s1 ht; simp only [execUcsData4Read, Host.Outcome.next.injEq] at ht; subst ht; simp +contextual (maxDischargeDepth := 60) [hw]
@[simp] theorem State.uctlWrite_wf (s : State) (u : Nat) (d : Word) (hw : s.wf) :
    (State.uctlWrite s u d).wf := by simp +contextual (maxDischargeDepth := 60) [State.uctlWrite, hw]
theorem execRunWrite_wf (w : Who) (u : Fin 144) (d : Word) (s : State) (hw : s.wf) :
    ∀ s1, execRunWrite w u d s = .next s1 → s1.wf := by intro s1 ht; simp only [execRunWrite, Host.Outcome.next.injEq] at ht; subst ht; simp +contextual (maxDischargeDepth := 60) [hw]
theorem execTmodeWrite_wf (w : Who) (u : Fin 144) (d : Word) (s : State) (hw : s.wf) :
    ∀ s1, execTmodeWrite w u d s = .next s1 → s1.wf := by intro s1 ht; simp only [execTmodeWrite, Host.Outcome.next.injEq] at ht; subst ht; simp +contextual (maxDischargeDepth := 60) [hw]
theorem execSumGo_wf (w : Who) (u : Fin 144) (d : Word) (s : State) (hw : s.wf) :
    ∀ s1, execSumGo w u d s = .next s1 → s1.wf := by intro s1 ht; simp only [execSumGo, Host.Outcome.next.injEq] at ht; subst ht; simp +contextual (maxDischargeDepth := 60) [hw]
theorem execSumDone_wf (u : Fin 144) (s : State) (hw : s.wf) :
    ∀ s1, execSumDone u s = .next s1 → s1.wf := by intro s1 ht; simp only [execSumDone, Host.Outcome.next.injEq] at ht; subst ht; simp +contextual (maxDischargeDepth := 60) [hw]
@[simp] theorem State.ustartWrite_wf (s : State) (u : Nat) (d : Word) (hw : s.wf) :
    (State.ustartWrite s u d).wf := by simp +contextual (maxDischargeDepth := 60) [State.ustartWrite, hw]
theorem execUstartGo_wf (w : Who) (u : Fin 144) (d : Word) (s : State) (hw : s.wf) :
    ∀ s1, execUstartGo w u d s = .next s1 → s1.wf := by intro s1 ht; simp only [execUstartGo, Host.Outcome.next.injEq] at ht; subst ht; simp +contextual (maxDischargeDepth := 60) [hw]

/-! ## Protect -/

@[simp] theorem State.setScrub_wf (s : State) (r : Nat) (a : Nat) (hw : s.wf) :
    (State.setScrub s r a).wf := by simp +contextual (maxDischargeDepth := 60) [State.setScrub, hw]
@[simp] theorem State.scrubEnable_wf (s : State) (on : Bool) (hw : s.wf) :
    (State.scrubEnable s on).wf := by unfold State.scrubEnable; simp only []; (repeat' split) <;> simp +contextual (maxDischargeDepth := 60) [*]
theorem execScrubCtlWrite_wf (w : Who) (d : Word) (s : State) (hw : s.wf) :
    ∀ s1, execScrubCtlWrite w d s = .next s1 → s1.wf := by intro s1 ht; simp only [execScrubCtlWrite, Host.Outcome.next.injEq] at ht; subst ht; simp +contextual (maxDischargeDepth := 60) [hw]
@[simp] theorem State.scrubRngWrite_wf (s : State) (a : Nat) (d : Word) (hw : s.wf) :
    (State.scrubRngWrite s a d).wf := by simp +contextual (maxDischargeDepth := 60) [State.scrubRngWrite, hw]
theorem execScrubRead_wf (s : State) (hw : s.wf) :
    ∀ s1, execScrubRead s = .next s1 → s1.wf := by intro s1 ht; simp only [execScrubRead, Host.Outcome.next.injEq] at ht; subst ht; simp +contextual (maxDischargeDepth := 60) [hw]
@[simp] theorem State.scrubAt_wf (s : State) (q : Option Nat) (hw : s.wf) :
    (State.scrubAt s q).wf := by unfold State.scrubAt; (repeat' split) <;> simp +contextual (maxDischargeDepth := 60) [hw]
@[simp] theorem State.scrubPass_wf (s : State) (hw : s.wf) :
    (State.scrubPass s).wf := by simp +contextual (maxDischargeDepth := 60) [State.scrubPass, hw]
@[simp] theorem State.scrubNext_wf (s : State) (hw : s.wf) :
    (State.scrubNext s).wf := by simp +contextual (maxDischargeDepth := 60) [State.scrubNext, hw]
@[simp] theorem State.writeBack_wf (s : State) (f : Nat) (a : Nat) (ds : List Nat) (hw : s.wf) :
    (State.writeBack s f a ds).wf := by simp +contextual (maxDischargeDepth := 60) [State.writeBack, hw]
@[simp] theorem State.scrubGranule_wf (s : State) (f : Nat) (a : Nat) (hw : s.wf) :
    (State.scrubGranule s f a).wf := by simp +contextual (maxDischargeDepth := 60) [State.scrubGranule, hw]
theorem execScrubRateSet_wf (c : Cmd) (s : State) (hw : s.wf) :
    ∀ s1, execScrubRateSet c s = .next s1 → s1.wf := by intro s1 ht; simp only [execScrubRateSet, Host.Outcome.next.injEq] at ht; subst ht; simp +contextual (maxDischargeDepth := 60) [hw]
theorem execScrubEnSet_wf (c : Cmd) (s : State) (hw : s.wf) :
    ∀ s1, execScrubEnSet c s = .next s1 → s1.wf := by intro s1 ht; simp only [execScrubEnSet, Host.Outcome.next.injEq] at ht; subst ht; simp +contextual (maxDischargeDepth := 60) [hw]
theorem execWalkerRead_wf (fam : Fin 5) (addr : Nat) (s : State) (hw : s.wf) :
    ∀ s1, execWalkerRead fam addr s = .next s1 → s1.wf := by intro s1 ht; simp only [execWalkerRead, Host.Outcome.next.injEq] at ht; subst ht; simp +contextual (maxDischargeDepth := 60) [hw]
@[simp] theorem State.ownKey_wf (s : State) (n : Nat) (hw : s.wf) :
    (State.ownKey s n).wf := by simp +contextual (maxDischargeDepth := 60) [State.ownKey, hw]
@[simp] theorem State.tainted_wf (s : State) (u : Nat) (hw : s.wf) :
    (State.tainted s u).wf := by unfold State.tainted; (repeat' split) <;> simp +contextual (maxDischargeDepth := 60) [hw]
@[simp] theorem State.larderFail_wf (s : State) (u : Nat) (a : Nat) (hw : s.wf) :
    (State.larderFail s u a).wf := by unfold State.larderFail; (repeat' split) <;> simp +contextual (maxDischargeDepth := 60) [hw]
@[simp] theorem State.refPoison_wf (s : State) (u : Nat) (hw : s.wf) :
    (State.refPoison s u).wf := by unfold State.refPoison; (repeat' split) <;> simp +contextual (maxDischargeDepth := 60) [hw]
@[simp] theorem State.packetLost_wf (s : State) (p : Nat) (hw : s.wf) :
    (State.packetLost s p).wf := by unfold State.packetLost; (repeat' split) <;> simp +contextual (maxDischargeDepth := 60) [hw]
@[simp] theorem State.stagingLost_wf (s : State) (n : Nat) (pic : Nat) (row : Nat) (reg : Nat) (hw : s.wf) :
    (State.stagingLost s n pic row reg).wf := by simp +contextual (maxDischargeDepth := 60) [State.stagingLost, hw]
@[simp] theorem State.poisoned_wf (s : State) (f : Nat) (a : Nat) (r : Reader) (hw : s.wf) :
    (State.poisoned s f a r).wf := by unfold State.poisoned; (repeat' split) <;> simp +contextual (maxDischargeDepth := 60) [hw]
theorem execArrayReadReturn_wf (fam : Fin 5) (addr : Nat) (r : Reader) (s : State) (hw : s.wf) :
    ∀ s1, execArrayReadReturn fam addr r s = .next s1 → s1.wf := by intro s1 ht; unfold execArrayReadReturn at ht; simp only [Host.Outcome.next.injEq] at ht; subst ht; (repeat' split) <;> simp +contextual (maxDischargeDepth := 60) [hw]
@[simp] theorem State.flipCtlWrite_wf (s : State) (f : Nat) (d : Word) (hw : s.wf) :
    (State.flipCtlWrite s f d).wf := by simp +contextual (maxDischargeDepth := 60) [State.flipCtlWrite, hw]
theorem execFlipArm_wf (w : Who) (f : Fin 5) (d : Word) (s : State) (hw : s.wf) :
    ∀ s1, execFlipArm w f d s = .next s1 → s1.wf := by intro s1 ht; simp only [execFlipArm, Host.Outcome.next.injEq] at ht; subst ht; simp +contextual (maxDischargeDepth := 60) [hw]
theorem execFlipClr_wf (w : Who) (f : Fin 5) (d : Word) (s : State) (hw : s.wf) :
    ∀ s1, execFlipClr w f d s = .next s1 → s1.wf := by intro s1 ht; simp only [execFlipClr, Host.Outcome.next.injEq] at ht; subst ht; simp +contextual (maxDischargeDepth := 60) [hw]
@[simp] theorem State.chkInjWrite_wf (s : State) (d : Word) (hw : s.wf) :
    (State.chkInjWrite s d).wf := by simp +contextual (maxDischargeDepth := 60) [State.chkInjWrite, hw]
theorem execChkInjArm_wf (w : Who) (d : Word) (s : State) (hw : s.wf) :
    ∀ s1, execChkInjArm w d s = .next s1 → s1.wf := by intro s1 ht; simp only [execChkInjArm, Host.Outcome.next.injEq] at ht; subst ht; simp +contextual (maxDischargeDepth := 60) [hw]
@[simp] theorem State.ldrAdvance_wf (s : State) (c : Nat) (hw : s.wf) :
    (State.ldrAdvance s c).wf := by simp +contextual (maxDischargeDepth := 60) [State.ldrAdvance, hw]
@[simp] theorem State.ldrFlush_wf (s : State) (c : Nat) (hw : s.wf) :
    (State.ldrFlush s c).wf := by unfold State.ldrFlush; (repeat' split) <;> simp +contextual (maxDischargeDepth := 60) [hw]
@[simp] theorem State.ldrDataWrite_wf (s : State) (c : Nat) (d : Word) (hw : s.wf) :
    (State.ldrDataWrite s c d).wf := by simp +contextual (maxDischargeDepth := 60) [State.ldrDataWrite, hw]
theorem execLdrDataWrite_wf (w : Who) (c : Fin 4) (d : Word) (s : State) (hw : s.wf) :
    ∀ s1, execLdrDataWrite w c d s = .next s1 → s1.wf := by intro s1 ht; simp only [execLdrDataWrite, Host.Outcome.next.injEq] at ht; subst ht; simp +contextual (maxDischargeDepth := 60) [hw]
@[simp] theorem State.readLdr_wf (s : State) (c : Nat) (hw : s.wf) :
    (State.readLdr s c).1.wf := by simp +contextual (maxDischargeDepth := 60) [State.readLdr, hw]
theorem execLdrDataRead_wf (w : Who) (c : Fin 4) (s : State) (hw : s.wf) :
    ∀ s1, execLdrDataRead w c s = .next s1 → s1.wf := by intro s1 ht; simp only [execLdrDataRead, Host.Outcome.next.injEq] at ht; subst ht; simp +contextual (maxDischargeDepth := 60) [hw]
theorem execSlideCrc_wf (link : Fin 50) (second : Bool) (real : Bool) (s : State) (hw : s.wf) :
    ∀ s1, execSlideCrc link second real s = .next s1 → s1.wf := by intro s1 ht; simp only [execSlideCrc, Host.Outcome.next.injEq] at ht; subst ht; simp +contextual (maxDischargeDepth := 60) [hw]
theorem execQueuePar_wf (p : Fin 64) (real : Bool) (s : State) (hw : s.wf) :
    ∀ s1, execQueuePar p real s = .next s1 → s1.wf := by intro s1 ht; simp only [execQueuePar, Host.Outcome.next.injEq] at ht; subst ht; simp +contextual (maxDischargeDepth := 60) [hw]

/-! ## Domains -/

@[simp] theorem State.pdStart_wf (s : State) (n : Nat) (hw : s.wf) :
    (State.pdStart s n).wf := by simp +contextual (maxDischargeDepth := 60) [State.pdStart, hw]
@[simp] theorem State.pdRequest_wf (s : State) (n : Nat) (enable : Bool) (hw : s.wf) :
    (State.pdRequest s n enable).wf := by simp +contextual (maxDischargeDepth := 60) [State.pdRequest, hw]
@[simp] theorem State.pdNext_wf (s : State) (hw : s.wf) :
    (State.pdNext s).wf := by simp +contextual (maxDischargeDepth := 60) [State.pdNext, hw]
@[simp] theorem State.pdWrite_wf (s : State) (n : Nat) (d : Word) (hw : s.wf) :
    (State.pdWrite s n d).wf := by simp +contextual (maxDischargeDepth := 60) [State.pdWrite, hw]
theorem execPdEnableReq_wf (w : Who) (n : Fin 72) (d : Word) (s : State) (hw : s.wf) :
    ∀ s1, execPdEnableReq w n d s = .next s1 → s1.wf := by intro s1 ht; simp only [execPdEnableReq, Host.Outcome.next.injEq] at ht; subst ht; simp +contextual (maxDischargeDepth := 60) [hw]
theorem execPdDisableReq_wf (w : Who) (n : Fin 72) (d : Word) (s : State) (hw : s.wf) :
    ∀ s1, execPdDisableReq w n d s = .next s1 → s1.wf := by intro s1 ht; simp only [execPdDisableReq, Host.Outcome.next.injEq] at ht; subst ht; simp +contextual (maxDischargeDepth := 60) [hw]
theorem execPdOn_wf (n : Fin 72) (s : State) (hw : s.wf) :
    ∀ s1, execPdOn n s = .next s1 → s1.wf := by intro s1 ht; simp only [execPdOn, Host.Outcome.next.injEq] at ht; subst ht; simp +contextual (maxDischargeDepth := 60) [hw]
theorem execPdOff_wf (n : Fin 72) (s : State) (hw : s.wf) :
    ∀ s1, execPdOff n s = .next s1 → s1.wf := by intro s1 ht; simp only [execPdOff, Host.Outcome.next.injEq] at ht; subst ht; simp +contextual (maxDischargeDepth := 60) [hw]

/-! ## Lanes -/

@[simp] theorem State.linkSync_wf (s : State) (l : Nat) (hw : s.wf) :
    (State.linkSync s l).wf := by simp +contextual (maxDischargeDepth := 60) [State.linkSync, hw]
@[simp] theorem State.dropLock_wf (s : State) (l : Nat) (hw : s.wf) :
    (State.dropLock s l).wf := by simp +contextual (maxDischargeDepth := 60) [State.dropLock, hw]
@[simp] theorem State.laneReport_wf (s : State) (l : Nat) (seen : Option RF) (kind : Nat) (hw : s.wf) :
    (State.laneReport s l seen kind).wf := by unfold State.laneReport; (repeat' split) <;> simp +contextual (maxDischargeDepth := 60) [hw]
@[simp] theorem State.loseLock_wf (s : State) (ls : List Nat) (hw : s.wf)  :
    (State.loseLock s ls).wf := by unfold State.loseLock; simp only []; (repeat' split) <;> simp +contextual (maxDischargeDepth := 60) [*]
@[simp] theorem State.eqBusy_wf (s : State) (l : Nat) (hw : s.wf) :
    (State.eqBusy s l).wf := by simp +contextual (maxDischargeDepth := 60) [State.eqBusy, hw]
@[simp] theorem State.adaptStart_wf (s : State) (l : Nat) (hw : s.wf) :
    (State.adaptStart s l).wf := by simp +contextual (maxDischargeDepth := 60) [State.adaptStart, hw]
@[simp] theorem State.adaptEnd_wf (s : State) (l : Nat) (hw : s.wf) :
    (State.adaptEnd s l).wf := by simp +contextual (maxDischargeDepth := 60) [State.adaptEnd, hw]
@[simp] theorem State.trainEnd_wf (s : State) (l : Nat) (hw : s.wf) :
    (State.trainEnd s l).wf := by simp +contextual (maxDischargeDepth := 60) [State.trainEnd, hw]
@[simp] theorem State.setAdapt_wf (s : State) (l : Nat) (m : Nat) (hw : s.wf) :
    (State.setAdapt s l m).wf := by simp +contextual (maxDischargeDepth := 60) [State.setAdapt, hw]
@[simp] theorem State.setTaps_wf (s : State) (l : Nat) (pre : Nat) (main : Nat) (post : Nat) (hw : s.wf) :
    (State.setTaps s l pre main post).wf := by simp +contextual (maxDischargeDepth := 60) [State.setTaps, hw]
@[simp] theorem State.rxeqWrite_wf (s : State) (l : Nat) (d : Word) (hw : s.wf) :
    (State.rxeqWrite s l d).wf := by simp +contextual (maxDischargeDepth := 60) [State.rxeqWrite, hw]
@[simp] theorem State.txeqWrite_wf (s : State) (l : Nat) (d : Word) (hw : s.wf) :
    (State.txeqWrite s l d).wf := by simp +contextual (maxDischargeDepth := 60) [State.txeqWrite, hw]
@[simp] theorem State.laneDefaults_wf (s : State) (l : Nat) (hw : s.wf) :
    (State.laneDefaults s l).wf := by simp +contextual (maxDischargeDepth := 60) [State.laneDefaults, hw]
@[simp] theorem State.negStart_wf (s : State) (l : Nat) (hw : s.wf) :
    (State.negStart s l).wf := by simp +contextual (maxDischargeDepth := 60) [State.negStart, hw]
@[simp] theorem State.laneRestart_wf (s : State) (l : Nat) (hw : s.wf) :
    (State.laneRestart s l).wf := by simp +contextual (maxDischargeDepth := 60) [State.laneRestart, hw]
theorem execAnDone_wf (l : Fin 66) (fec : Fin 3) (par : Bool) (s : State) (hw : s.wf) :
    ∀ s1, execAnDone l fec par s = .next s1 → s1.wf := by intro s1 ht; simp only [execAnDone, Host.Outcome.next.injEq] at ht; subst ht; simp +contextual (maxDischargeDepth := 60) [hw]
theorem execTrainDone_wf (l : Fin 66) (pre : Nat) (main : Nat) (post : Nat) (s : State) (hw : s.wf) :
    ∀ s1, execTrainDone l pre main post s = .next s1 → s1.wf := by intro s1 ht; simp only [execTrainDone, Host.Outcome.next.injEq] at ht; subst ht; simp +contextual (maxDischargeDepth := 60) [hw]
@[simp] theorem State.quadPower_wf (s : State) (l : Nat) (hw : s.wf) :
    (State.quadPower s l).wf := by simp +contextual (maxDischargeDepth := 60) [State.quadPower, hw]
@[simp] theorem State.laneRequest_wf (s : State) (l : Nat) (enable : Bool) (hw : s.wf) :
    (State.laneRequest s l enable).wf := by simp +contextual (maxDischargeDepth := 60) [State.laneRequest, hw]
@[simp] theorem State.laneStateWrite_wf (s : State) (l : Nat) (d : Word) (hw : s.wf) :
    (State.laneStateWrite s l d).wf := by simp +contextual (maxDischargeDepth := 60) [State.laneStateWrite, hw]
@[simp] theorem State.laneCmd_wf (s : State) (o : Owed) (l : Nat) (enable : Bool) (hw : s.wf) :
    (State.laneCmd s o l enable).wf := by simp +contextual (maxDischargeDepth := 60) [State.laneCmd, hw]
theorem execLaneEnableReq_wf (w : Who) (l : Fin 66) (d : Word) (s : State) (hw : s.wf) :
    ∀ s1, execLaneEnableReq w l d s = .next s1 → s1.wf := by intro s1 ht; simp only [execLaneEnableReq, Host.Outcome.next.injEq] at ht; subst ht; simp +contextual (maxDischargeDepth := 60) [hw]
theorem execLaneDisableReq_wf (w : Who) (l : Fin 66) (d : Word) (s : State) (hw : s.wf) :
    ∀ s1, execLaneDisableReq w l d s = .next s1 → s1.wf := by intro s1 ht; simp only [execLaneDisableReq, Host.Outcome.next.injEq] at ht; subst ht; simp +contextual (maxDischargeDepth := 60) [hw]
theorem execLaneOn_wf (l : Fin 66) (s : State) (hw : s.wf) :
    ∀ s1, execLaneOn l s = .next s1 → s1.wf := by intro s1 ht; simp only [execLaneOn, Host.Outcome.next.injEq] at ht; subst ht; simp +contextual (maxDischargeDepth := 60) [hw]
@[simp] theorem State.laneDark_wf (s : State) (l : Nat) (hw : s.wf) :
    (State.laneDark s l).wf := by simp +contextual (maxDischargeDepth := 60) [State.laneDark, hw]
theorem execLaneOff_wf (l : Fin 66) (s : State) (hw : s.wf) :
    ∀ s1, execLaneOff l s = .next s1 → s1.wf := by intro s1 ht; simp only [execLaneOff, Host.Outcome.next.injEq] at ht; subst ht; simp +contextual (maxDischargeDepth := 60) [hw]
@[simp] theorem State.qmodeWrite_wf (s : State) (l : Nat) (d : Word) (hw : s.wf) :
    (State.qmodeWrite s l d).wf := by simp +contextual (maxDischargeDepth := 60) [State.qmodeWrite, hw]
@[simp] theorem State.sendPattern_wf (s : State) (l : Nat) (hw : s.wf)  :
    (State.sendPattern s l).wf := by simp +contextual (maxDischargeDepth := 60) [State.sendPattern, hw]
@[simp] theorem State.rawSwitch_wf (s : State) (l : Nat) (old : Nat) (hw : s.wf)  :
    (State.rawSwitch s l old).wf := by simp +contextual (maxDischargeDepth := 60) [State.rawSwitch, hw]
@[simp] theorem State.laneCfgWrite_wf (s : State) (l : Nat) (d : Word) (hw : s.wf)  :
    (State.laneCfgWrite s l d).wf := by unfold State.laneCfgWrite; (repeat' split) <;> simp +contextual (maxDischargeDepth := 60) [hw]
theorem execQmodeWrite_wf (w : Who) (l : Fin 66) (d : Word) (s : State) (hw : s.wf) :
    ∀ s1, execQmodeWrite w l d s = .next s1 → s1.wf := by intro s1 ht; simp only [execQmodeWrite, Host.Outcome.next.injEq] at ht; subst ht; simp +contextual (maxDischargeDepth := 60) [hw]
theorem execLaneCfgWrite_wf (w : Who) (l : Fin 66) (d : Word) (s : State) (hw : s.wf) :
    ∀ s1, execLaneCfgWrite w l d s = .next s1 → s1.wf := by intro s1 ht; simp only [execLaneCfgWrite, Host.Outcome.next.injEq] at ht; subst ht; simp +contextual (maxDischargeDepth := 60) [hw]
theorem execBlModeWrite_wf (w : Who) (l : Fin 66) (d : Word) (s : State) (hw : s.wf) :
    ∀ s1, execBlModeWrite w l d s = .next s1 → s1.wf := by intro s1 ht; simp only [execBlModeWrite, Host.Outcome.next.injEq] at ht; subst ht; simp +contextual (maxDischargeDepth := 60) [hw]
theorem execLoopbackSet_wf (w : Who) (l : Fin 66) (d : Word) (s : State) (hw : s.wf) :
    ∀ s1, execLoopbackSet w l d s = .next s1 → s1.wf := by intro s1 ht; simp only [execLoopbackSet, Host.Outcome.next.injEq] at ht; subst ht; simp +contextual (maxDischargeDepth := 60) [hw]
theorem execBlockLock_wf (l : Fin 66) (slips : Nat) (s : State) (hw : s.wf) :
    ∀ s1, execBlockLock l slips s = .next s1 → s1.wf := by intro s1 ht; simp only [execBlockLock, Host.Outcome.next.injEq] at ht; subst ht; simp +contextual (maxDischargeDepth := 60) [hw]
theorem execLaneBlLoss_wf (l : Fin 66) (s : State) (hw : s.wf) :
    ∀ s1, execLaneBlLoss l s = .next s1 → s1.wf := by intro s1 ht; simp only [execLaneBlLoss, Host.Outcome.next.injEq] at ht; subst ht; simp +contextual (maxDischargeDepth := 60) [hw]
@[simp] theorem State.slipWrite_wf (s : State) (l : Nat) (d : Word) (hw : s.wf) :
    (State.slipWrite s l d).wf := by simp +contextual (maxDischargeDepth := 60) [State.slipWrite, hw]
theorem execSlip_wf (w : Who) (l : Fin 66) (d : Word) (s : State) (hw : s.wf) :
    ∀ s1, execSlip w l d s = .next s1 → s1.wf := by intro s1 ht; simp only [execSlip, Host.Outcome.next.injEq] at ht; subst ht; simp +contextual (maxDischargeDepth := 60) [hw]
@[simp] theorem State.readBlStat_wf (s : State) (l : Nat) (hw : s.wf) :
    (State.readBlStat s l).1.wf := by simp +contextual (maxDischargeDepth := 60) [State.readBlStat, hw]
@[simp] theorem State.dozeRequest_wf (s : State) (l : Nat) (rx : Bool) (wake : Bool) (hw : s.wf) :
    (State.dozeRequest s l rx wake).wf := by unfold State.dozeRequest; simp only []; (repeat' split) <;> simp +contextual (maxDischargeDepth := 60) [*]
theorem execLaneLos_wf (l : Fin 66) (s : State) (hw : s.wf) :
    ∀ s1, execLaneLos l s = .next s1 → s1.wf := by intro s1 ht; simp only [execLaneLos, Host.Outcome.next.injEq] at ht; subst ht; simp +contextual (maxDischargeDepth := 60) [hw]
theorem execLosDeassert_wf (l : Fin 66) (s : State) (hw : s.wf) :
    ∀ s1, execLosDeassert l s = .next s1 → s1.wf := by intro s1 ht; simp only [execLosDeassert, Host.Outcome.next.injEq] at ht; subst ht; simp +contextual (maxDischargeDepth := 60) [hw]
theorem execLaneLol_wf (l : Fin 66) (s : State) (hw : s.wf) :
    ∀ s1, execLaneLol l s = .next s1 → s1.wf := by intro s1 ht; simp only [execLaneLol, Host.Outcome.next.injEq] at ht; subst ht; simp +contextual (maxDischargeDepth := 60) [hw]
theorem execLolDeassert_wf (l : Fin 66) (s : State) (hw : s.wf) :
    ∀ s1, execLolDeassert l s = .next s1 → s1.wf := by intro s1 ht; simp only [execLolDeassert, Host.Outcome.next.injEq] at ht; subst ht; simp +contextual (maxDischargeDepth := 60) [hw]
theorem execFecUcw_wf (l : Fin 66) (corr : Nat) (uncorr : Nat) (s : State) (hw : s.wf) :
    ∀ s1, execFecUcw l corr uncorr s = .next s1 → s1.wf := by intro s1 ht; simp only [execFecUcw, Host.Outcome.next.injEq] at ht; subst ht; simp +contextual (maxDischargeDepth := 60) [hw]
@[simp] theorem State.dozeWrite_wf (s : State) (l : Nat) (d : Word) (hw : s.wf) :
    (State.dozeWrite s l d).wf := by simp +contextual (maxDischargeDepth := 60) [State.dozeWrite, hw]
theorem execTxDoze_wf (w : Who) (l : Fin 66) (d : Word) (s : State) (hw : s.wf) :
    ∀ s1, execTxDoze w l d s = .next s1 → s1.wf := by intro s1 ht; simp only [execTxDoze, Host.Outcome.next.injEq] at ht; subst ht; simp +contextual (maxDischargeDepth := 60) [hw]
theorem execTxWake_wf (w : Who) (l : Fin 66) (d : Word) (s : State) (hw : s.wf) :
    ∀ s1, execTxWake w l d s = .next s1 → s1.wf := by intro s1 ht; simp only [execTxWake, Host.Outcome.next.injEq] at ht; subst ht; simp +contextual (maxDischargeDepth := 60) [hw]
theorem execRxDoze_wf (w : Who) (l : Fin 66) (d : Word) (s : State) (hw : s.wf) :
    ∀ s1, execRxDoze w l d s = .next s1 → s1.wf := by intro s1 ht; simp only [execRxDoze, Host.Outcome.next.injEq] at ht; subst ht; simp +contextual (maxDischargeDepth := 60) [hw]
theorem execRxWake_wf (w : Who) (l : Fin 66) (d : Word) (s : State) (hw : s.wf) :
    ∀ s1, execRxWake w l d s = .next s1 → s1.wf := by intro s1 ht; simp only [execRxWake, Host.Outcome.next.injEq] at ht; subst ht; simp +contextual (maxDischargeDepth := 60) [hw]
theorem execDozeTransitionDone_wf (l : Fin 66) (rx : Bool) (s : State) (hw : s.wf) :
    ∀ s1, execDozeTransitionDone l rx s = .next s1 → s1.wf := by intro s1 ht; unfold execDozeTransitionDone at ht; simp only [Host.Outcome.next.injEq] at ht; subst ht; (repeat' split) <;> simp +contextual (maxDischargeDepth := 60) [hw]
theorem execTxeqWrite_wf (w : Who) (l : Fin 66) (d : Word) (s : State) (hw : s.wf) :
    ∀ s1, execTxeqWrite w l d s = .next s1 → s1.wf := by intro s1 ht; simp only [execTxeqWrite, Host.Outcome.next.injEq] at ht; subst ht; simp +contextual (maxDischargeDepth := 60) [hw]
theorem execAdaptRestart_wf (w : Who) (l : Fin 66) (d : Word) (s : State) (hw : s.wf) :
    ∀ s1, execAdaptRestart w l d s = .next s1 → s1.wf := by intro s1 ht; simp only [execAdaptRestart, Host.Outcome.next.injEq] at ht; subst ht; simp +contextual (maxDischargeDepth := 60) [hw]
theorem execAdaptDone_wf (l : Fin 66) (ctle : Fin 16) (s : State) (hw : s.wf) :
    ∀ s1, execAdaptDone l ctle s = .next s1 → s1.wf := by intro s1 ht; simp only [execAdaptDone, Host.Outcome.next.injEq] at ht; subst ht; simp +contextual (maxDischargeDepth := 60) [hw]
@[simp] theorem State.readEqStat_wf (s : State) (l : Nat) (hw : s.wf) :
    (State.readEqStat s l).1.wf := by simp +contextual (maxDischargeDepth := 60) [State.readEqStat, hw]
theorem execLaneTapsSet_wf (c : Cmd) (s : State) (hw : s.wf) :
    ∀ s1, execLaneTapsSet c s = .next s1 → s1.wf := by intro s1 ht; simp only [execLaneTapsSet, Host.Outcome.next.injEq] at ht; subst ht; simp +contextual (maxDischargeDepth := 60) [hw]
theorem execLaneAdaptSet_wf (c : Cmd) (s : State) (hw : s.wf) :
    ∀ s1, execLaneAdaptSet c s = .next s1 → s1.wf := by intro s1 ht; simp only [execLaneAdaptSet, Host.Outcome.next.injEq] at ht; subst ht; simp +contextual (maxDischargeDepth := 60) [hw]
theorem execLaneAdaptRestart_wf (c : Cmd) (s : State) (hw : s.wf) :
    ∀ s1, execLaneAdaptRestart c s = .next s1 → s1.wf := by intro s1 ht; simp only [execLaneAdaptRestart, Host.Outcome.next.injEq] at ht; subst ht; simp +contextual (maxDischargeDepth := 60) [hw]
@[simp] theorem State.prbsWrite_wf (s : State) (l : Nat) (d : Word) (hw : s.wf) :
    (State.prbsWrite s l d).wf := by simp +contextual (maxDischargeDepth := 60) [State.prbsWrite, hw]
theorem execPrbsCtlWrite_wf (w : Who) (l : Fin 66) (d : Word) (s : State) (hw : s.wf) :
    ∀ s1, execPrbsCtlWrite w l d s = .next s1 → s1.wf := by intro s1 ht; simp only [execPrbsCtlWrite, Host.Outcome.next.injEq] at ht; subst ht; simp +contextual (maxDischargeDepth := 60) [hw]
theorem execPrbsInj_wf (w : Who) (l : Fin 66) (d : Word) (s : State) (hw : s.wf) :
    ∀ s1, execPrbsInj w l d s = .next s1 → s1.wf := by intro s1 ht; simp only [execPrbsInj, Host.Outcome.next.injEq] at ht; subst ht; simp +contextual (maxDischargeDepth := 60) [hw]
theorem execPrbsChkLock_wf (l : Fin 66) (s : State) (hw : s.wf) :
    ∀ s1, execPrbsChkLock l s = .next s1 → s1.wf := by intro s1 ht; simp only [execPrbsChkLock, Host.Outcome.next.injEq] at ht; subst ht; simp +contextual (maxDischargeDepth := 60) [hw]
@[simp] theorem State.readPrbsErr_wf (s : State) (l : Nat) (hw : s.wf) :
    (State.readPrbsErr s l).1.wf := by simp +contextual (maxDischargeDepth := 60) [State.readPrbsErr, hw]

/-! ## Tally -/

@[simp] theorem State.binsLost_wf (s : State) (p : Nat) (hw : s.wf) :
    (State.binsLost s p).wf := by simp +contextual (maxDischargeDepth := 60) [State.binsLost, hw]
@[simp] theorem State.pcRecover_wf (s : State) (k : Nat) (p : Nat) (hw : s.wf) :
    (State.pcRecover s k p).wf := by simp +contextual (maxDischargeDepth := 60) [State.pcRecover, hw]
@[simp] theorem State.streamRecover_wf (s : State) (n : Nat) (hw : s.wf) :
    (State.streamRecover s n).wf := by simp +contextual (maxDischargeDepth := 60) [State.streamRecover, hw]
@[simp] theorem State.groupRecover_wf (s : State) (i : Nat) (hw : s.wf) :
    (State.groupRecover s i).wf := by simp +contextual (maxDischargeDepth := 60) [State.groupRecover, hw]
@[simp] theorem State.countMsg_wf (s : State) (m : Msg) (hw : s.wf) :
    (State.countMsg s m).wf := by simp +contextual (maxDischargeDepth := 60) [State.countMsg, hw]
@[simp] theorem State.unackRaise_wf (s : State) (c : Nat) (lvl : Nat) (hw : s.wf) :
    (State.unackRaise s c lvl).wf := by simp +contextual (maxDischargeDepth := 60) [State.unackRaise, hw]
@[simp] theorem State.deliver_wf (s : State) (m : Msg) (lvl : Nat) (hw : s.wf) :
    (State.deliver s m lvl).wf := by simp +contextual (maxDischargeDepth := 60) [State.deliver, hw]
@[simp] theorem State.windowDue_wf (s : State) (c : Nat) (hw : s.wf) :
    (State.windowDue s c).wf := by simp +contextual (maxDischargeDepth := 60) [State.windowDue, hw]
@[simp] theorem State.classify_wf (s : State) (m : Msg) (hw : s.wf) :
    (State.classify s m).wf := by unfold State.classify; (repeat' split) <;> simp +contextual (maxDischargeDepth := 60) [hw]
@[simp] theorem State.releaseHeld_wf (s : State) (i : Nat) (hw : s.wf) :
    (State.releaseHeld s i).wf := by simp +contextual (maxDischargeDepth := 60) [State.releaseHeld, hw]
theorem execTallyMessage_wf (s : State) (hw : s.wf) :
    ∀ s1, execTallyMessage s = .next s1 → s1.wf := by intro s1 ht; unfold execTallyMessage at ht; simp only [Host.Outcome.next.injEq] at ht; subst ht; (repeat' split) <;> simp +contextual (maxDischargeDepth := 60) [hw]
theorem execTallyWindowStart_wf (c : Fin 8) (s : State) (hw : s.wf) :
    ∀ s1, execTallyWindowStart c s = .next s1 → s1.wf := by intro s1 ht; simp only [execTallyWindowStart, Host.Outcome.next.injEq] at ht; subst ht; simp +contextual (maxDischargeDepth := 60) [hw]
theorem execTallySweepEnd_wf (s : State) (hw : s.wf) :
    ∀ s1, execTallySweepEnd s = .next s1 → s1.wf := by intro s1 ht; simp only [execTallySweepEnd, Host.Outcome.next.injEq] at ht; subst ht; simp +contextual (maxDischargeDepth := 60) [hw]
@[simp] theorem State.ackClass_wf (s : State) (c : Nat) (hw : s.wf)  :
    (State.ackClass s c).wf := by simp +contextual (maxDischargeDepth := 60) [State.ackClass, hw]
@[simp] theorem State.unackWrite_wf (s : State) (d : Word) (hw : s.wf) :
    (State.unackWrite s d).wf := by simp +contextual (maxDischargeDepth := 60) [State.unackWrite, hw]
@[simp] theorem State.sevWrite_wf (s : State) (i : Nat) (d : Word) (hw : s.wf) :
    (State.sevWrite s i d).wf := by simp +contextual (maxDischargeDepth := 60) [State.sevWrite, hw]
theorem execTallyAck_wf (w : Who) (d : Word) (s : State) (hw : s.wf) :
    ∀ s1, execTallyAck w d s = .next s1 → s1.wf := by intro s1 ht; simp only [execTallyAck, Host.Outcome.next.injEq] at ht; subst ht; simp +contextual (maxDischargeDepth := 60) [hw]
theorem execTallySevClear_wf (w : Who) (i : Fin 128) (d : Word) (s : State) (hw : s.wf) :
    ∀ s1, execTallySevClear w i d s = .next s1 → s1.wf := by intro s1 ht; simp only [execTallySevClear, Host.Outcome.next.injEq] at ht; subst ht; simp +contextual (maxDischargeDepth := 60) [hw]
theorem execThermSecond_wf (s : State) (hw : s.wf) :
    ∀ s1, execThermSecond s = .next s1 → s1.wf := by intro s1 ht; simp only [execThermSecond, Host.Outcome.next.injEq] at ht; subst ht; simp +contextual (maxDischargeDepth := 60) [hw]
theorem execTallyWinSet_wf (c : Cmd) (s : State) (hw : s.wf) :
    ∀ s1, execTallyWinSet c s = .next s1 → s1.wf := by intro s1 ht; simp only [execTallyWinSet, Host.Outcome.next.injEq] at ht; subst ht; simp +contextual (maxDischargeDepth := 60) [hw]
theorem execTallyNsevSet_wf (c : Cmd) (s : State) (hw : s.wf) :
    ∀ s1, execTallyNsevSet c s = .next s1 → s1.wf := by intro s1 ht; simp only [execTallyNsevSet, Host.Outcome.next.injEq] at ht; subst ht; simp +contextual (maxDischargeDepth := 60) [hw]

/-! ## Hoists -/

@[simp] theorem State.setHch_wf (s : State) (g : Nat) (v : HchS) (hw : s.wf) :
    (State.setHch s g v).wf := by simp +contextual (maxDischargeDepth := 60) [State.setHch, hw]
@[simp] theorem State.updHch_wf (s : State) (g : Nat) (f : HchS → HchS) (hw : s.wf) :
    (State.updHch s g f).wf := by simp +contextual (maxDischargeDepth := 60) [State.updHch, hw]
@[simp] theorem State.hRunning_wf (s : State) (h : Nat) (hw : s.wf) :
    (State.hRunning s h).wf := by simp +contextual (maxDischargeDepth := 60) [State.hRunning, hw]
@[simp] theorem State.setBytes_wf (s : State) (g : Nat) (n : Nat) (hw : s.wf) :
    (State.setBytes s g n).wf := by simp +contextual (maxDischargeDepth := 60) [State.setBytes, hw]
@[simp] theorem State.setCur_wf (s : State) (g : Nat) (a : Nat) (hw : s.wf) :
    (State.setCur s g a).wf := by simp +contextual (maxDischargeDepth := 60) [State.setCur, hw]
@[simp] theorem State.hEnd_wf (s : State) (g : Nat) (hw : s.wf) :
    (State.hEnd s g).wf := by simp +contextual (maxDischargeDepth := 60) [State.hEnd, hw]
@[simp] theorem State.hHalt_wf (s : State) (g : Nat) (k : HCause) (a : Nat) (hw : s.wf) :
    (State.hHalt s g k a).wf := by unfold State.hHalt; (repeat' split) <;> simp +contextual (maxDischargeDepth := 60) [hw]
@[simp] theorem State.hDone_wf (s : State) (g : Nat) (hw : s.wf) :
    (State.hDone s g).wf := by simp +contextual (maxDischargeDepth := 60) [State.hDone, hw]
@[simp] theorem State.hStart_wf (s : State) (g : Nat) (ch : HchS) (hw : s.wf) :
    (State.hStart s g ch).wf := by simp +contextual (maxDischargeDepth := 60) [State.hStart, hw]
@[simp] theorem State.hCtlWrite_wf (s : State) (g : Nat) (d : Word) (hw : s.wf) :
    (State.hCtlWrite s g d).wf := by simp +contextual (maxDischargeDepth := 60) [State.hCtlWrite, hw]
@[simp] theorem State.hCfgWrite_wf (s : State) (g : Nat) (a : Nat) (d : Word) (hw : s.wf) :
    (State.hCfgWrite s g a d).wf := by simp +contextual (maxDischargeDepth := 60) [State.hCfgWrite, hw]
@[simp] theorem State.cmdStart_wf (s : State) (g : Nat) (src : HEnt) (dst : HEnt) (hw : s.wf) :
    (State.cmdStart s g src dst).wf := by simp +contextual (maxDischargeDepth := 60) [State.cmdStart, hw]
@[simp] theorem State.hTodo_wf (s : State) (h : Nat) (hw : s.wf) :
    (State.hTodo s h).wf := by
  unfold State.hTodo
  exact foldl_wf _ (fun s c hs => by dsimp only; (repeat' split) <;> simp [hs]) _ _ hw
@[simp] theorem State.hResume_wf (s : State) (h : Nat) (hw : s.wf) :
    (State.hResume s h).wf := by simp +contextual (maxDischargeDepth := 60) [State.hResume, hw]
@[simp] theorem State.hMainWrite_wf (s : State) (h : Nat) (d : Word) (hw : s.wf) :
    (State.hMainWrite s h d).wf := by simp +contextual (maxDischargeDepth := 60) [State.hMainWrite, hw]
@[simp] theorem State.hStateWrite_wf (s : State) (g : Nat) (d : Word) (hw : s.wf) :
    (State.hStateWrite s g d).wf := by simp +contextual (maxDischargeDepth := 60) [State.hStateWrite, hw]
theorem execHoistChEnableReq_wf (w : Who) (h : Fin 4) (c : Fin 64) (d : Word) (s : State) (hw : s.wf) :
    ∀ s1, execHoistChEnableReq w h c d s = .next s1 → s1.wf := by intro s1 ht; simp only [execHoistChEnableReq, Host.Outcome.next.injEq] at ht; subst ht; simp +contextual (maxDischargeDepth := 60) [hw]
theorem execHoistChDisableReq_wf (w : Who) (h : Fin 4) (c : Fin 64) (d : Word) (s : State) (hw : s.wf) :
    ∀ s1, execHoistChDisableReq w h c d s = .next s1 → s1.wf := by intro s1 ht; simp only [execHoistChDisableReq, Host.Outcome.next.injEq] at ht; subst ht; simp +contextual (maxDischargeDepth := 60) [hw]
theorem execHoistChOn_wf (h : Fin 4) (c : Fin 64) (s : State) (hw : s.wf) :
    ∀ s1, execHoistChOn h c s = .next s1 → s1.wf := by intro s1 ht; unfold execHoistChOn at ht; simp only [Host.Outcome.next.injEq] at ht; subst ht; (repeat' split) <;> simp +contextual (maxDischargeDepth := 60) [hw]
theorem execHoistChOff_wf (h : Fin 4) (c : Fin 64) (s : State) (hw : s.wf) :
    ∀ s1, execHoistChOff h c s = .next s1 → s1.wf := by intro s1 ht; simp only [execHoistChOff, Host.Outcome.next.injEq] at ht; subst ht; simp +contextual (maxDischargeDepth := 60) [hw]
theorem execHoistGo_wf (w : Who) (h : Fin 4) (c : Fin 64) (d : Word) (s : State) (hw : s.wf) :
    ∀ s1, execHoistGo w h c d s = .next s1 → s1.wf := by intro s1 ht; simp only [execHoistGo, Host.Outcome.next.injEq] at ht; subst ht; simp +contextual (maxDischargeDepth := 60) [hw]
theorem execHoistResume_wf (w : Who) (h : Fin 4) (d : Word) (s : State) (hw : s.wf) :
    ∀ s1, execHoistResume w h d s = .next s1 → s1.wf := by intro s1 ht; simp only [execHoistResume, Host.Outcome.next.injEq] at ht; subst ht; simp +contextual (maxDischargeDepth := 60) [hw]
theorem execHoistFwResume_wf (h : Fin 4) (s : State) (hw : s.wf) :
    ∀ s1, execHoistFwResume h s = .next s1 → s1.wf := by intro s1 ht; simp only [execHoistFwResume, Host.Outcome.next.injEq] at ht; subst ht; simp +contextual (maxDischargeDepth := 60) [hw]
@[simp] theorem State.cmdRun_wf (s : State) (o : Owed) (g : Nat) (src : HEnt) (dst : HEnt) (hw : s.wf) :
    (State.cmdRun s o g src dst).wf := by simp +contextual (maxDischargeDepth := 60) [State.cmdRun, hw]
theorem execHoistCopy_wf (c : Cmd) (chan : Fin 192) (s : State) (hw : s.wf) :
    ∀ s1, execHoistCopy c chan s = .next s1 → s1.wf := by intro s1 ht; simp only [execHoistCopy, Host.Outcome.next.injEq] at ht; subst ht; simp +contextual (maxDischargeDepth := 60) [hw]
theorem execHoistFill_wf (c : Cmd) (chan : Fin 192) (s : State) (hw : s.wf) :
    ∀ s1, execHoistFill c chan s = .next s1 → s1.wf := by intro s1 ht; simp only [execHoistFill, Host.Outcome.next.injEq] at ht; subst ht; simp +contextual (maxDischargeDepth := 60) [hw]

/-! ## HostRegs -/

@[simp] theorem State.setQp_wf (s : State) (q : Nat) (v : QpS) (hw : s.wf) :
    (State.setQp s q v).wf := by simp +contextual (maxDischargeDepth := 60) [State.setQp, hw]
@[simp] theorem State.updQp_wf (s : State) (q : Nat) (f : QpS → QpS) (hw : s.wf) :
    (State.updQp s q f).wf := by simp +contextual (maxDischargeDepth := 60) [State.updQp, hw]
@[simp] theorem State.rateUp_wf (s : State) (q : Nat) (timer : Bool) (hw : s.wf)  :
    (State.rateUp s q timer).wf := by simp +contextual (maxDischargeDepth := 60) [State.rateUp, hw]
@[simp] theorem State.roceSent_wf (s : State) (q : Nat) (n : Nat) (hw : s.wf)  :
    (State.roceSent s q n).wf := by simp +contextual (maxDischargeDepth := 60) [State.roceSent, hw]
@[simp] theorem State.roce_wf (s : State) (q : Nat) (op : RoceOp) (hw : s.wf)  :
    (State.roce s q op).wf := by unfold State.roce; (repeat' split) <;> simp +contextual (maxDischargeDepth := 60) [hw]
@[simp] theorem State.hostWrite_wf (s : State) (a : Nat) (bs : List Byte) (hw : s.wf)  :
    (State.hostWrite s a bs).wf := by unfold State.hostWrite; (repeat' split) <;> simp +contextual (maxDischargeDepth := 60) [hw]
@[simp] theorem State.hostRead_wf (s : State) (a : Nat) (len : Nat) (hw : s.wf)  :
    (State.hostRead s a len).wf := by unfold State.hostRead; (repeat' split) <;> simp +contextual (maxDischargeDepth := 60) [hw]
@[simp] theorem State.ringStall_wf (s : State) (i : Nat) (hw : s.wf) :
    (State.ringStall s i).wf := by simp +contextual (maxDischargeDepth := 60) [State.ringStall, hw]
@[simp] theorem State.burstsFail_wf (s : State) (q : Nat) (hw : s.wf) :
    (State.burstsFail s q).wf := by
  unfold State.burstsFail
  exact foldl_wf _ (fun s c hs => by dsimp only; (repeat' split) <;> simp [hs]) _ _ hw
@[simp] theorem State.qpFail_wf (s : State) (q : Nat) (hw : s.wf) :
    (State.qpFail s q).wf := by simp +contextual (maxDischargeDepth := 60) [State.qpFail, hw]
@[simp] theorem State.qpError_wf (s : State) (q : Nat) (cause : Nat) (hw : s.wf) :
    (State.qpError s q cause).wf := by simp +contextual (maxDischargeDepth := 60) [State.qpError, hw]
@[simp] theorem State.qpCtlWrite_wf (s : State) (q : Nat) (d : Word) (hw : s.wf) :
    (State.qpCtlWrite s q d).wf := by simp +contextual (maxDischargeDepth := 60) [State.qpCtlWrite, hw]
@[simp] theorem State.qpParWrite_wf (s : State) (q : Nat) (a : Nat) (d : Word) (hw : s.wf) :
    (State.qpParWrite s q a d).wf := by simp +contextual (maxDischargeDepth := 60) [State.qpParWrite, hw]
theorem execQpCtlWrite_wf (w : Who) (q : Fin 64) (d : Word) (s : State) (hw : s.wf) :
    ∀ s1, execQpCtlWrite w q d s = .next s1 → s1.wf := by intro s1 ht; simp only [execQpCtlWrite, Host.Outcome.next.injEq] at ht; subst ht; simp +contextual (maxDischargeDepth := 60) [hw]
@[simp] theorem State.qpProgress_wf (s : State) (q : Nat) (hw : s.wf) :
    (State.qpProgress s q).wf := by simp +contextual (maxDischargeDepth := 60) [State.qpProgress, hw]
@[simp] theorem State.qpRetry_wf (s : State) (q : Nat) (hw : s.wf)  :
    (State.qpRetry s q).wf := by simp +contextual (maxDischargeDepth := 60) [State.qpRetry, hw]
theorem execQpAckTimeout_wf (q : Fin 64) (s : State) (hw : s.wf) :
    ∀ s1, execQpAckTimeout q s = .next s1 → s1.wf := by intro s1 ht; simp only [execQpAckTimeout, Host.Outcome.next.injEq] at ht; subst ht; simp +contextual (maxDischargeDepth := 60) [hw]
theorem execQpNak_wf (q : Fin 64) (code : Fin 3) (s : State) (hw : s.wf) :
    ∀ s1, execQpNak q code s = .next s1 → s1.wf := by intro s1 ht; simp only [execQpNak, Host.Outcome.next.injEq] at ht; subst ht; simp +contextual (maxDischargeDepth := 60) [hw]
theorem execCnpReceive_wf (q : Fin 64) (s : State) (hw : s.wf) :
    ∀ s1, execCnpReceive q s = .next s1 → s1.wf := by intro s1 ht; simp only [execCnpReceive, Host.Outcome.next.injEq] at ht; subst ht; simp +contextual (maxDischargeDepth := 60) [hw]
theorem execDcqcnRateTimer_wf (q : Fin 64) (s : State) (hw : s.wf) :
    ∀ s1, execDcqcnRateTimer q s = .next s1 → s1.wf := by intro s1 ht; simp only [execDcqcnRateTimer, Host.Outcome.next.injEq] at ht; subst ht; simp +contextual (maxDischargeDepth := 60) [hw]
@[simp] theorem State.hwinCtlWrite_wf (s : State) (w : Nat) (d : Word) (hw : s.wf) :
    (State.hwinCtlWrite s w d).wf := by simp +contextual (maxDischargeDepth := 60) [State.hwinCtlWrite, hw]
@[simp] theorem State.hwinParWrite_wf (s : State) (w : Nat) (a : Nat) (d : Word) (hw : s.wf) :
    (State.hwinParWrite s w a d).wf := by simp +contextual (maxDischargeDepth := 60) [State.hwinParWrite, hw]
theorem execHwinCtlWrite_wf (w : Who) (x : Fin 64) (d : Word) (s : State) (hw : s.wf) :
    ∀ s1, execHwinCtlWrite w x d s = .next s1 → s1.wf := by intro s1 ht; simp only [execHwinCtlWrite, Host.Outcome.next.injEq] at ht; subst ht; simp +contextual (maxDischargeDepth := 60) [hw]
@[simp] theorem State.ringCtlWrite_wf (s : State) (i : Nat) (d0 : Word) (hw : s.wf) :
    (State.ringCtlWrite s i d0).wf := by simp +contextual (maxDischargeDepth := 60) [State.ringCtlWrite, hw]
theorem execRingCtlWrite_wf (w : Who) (i : Fin 256) (d : Word) (s : State) (hw : s.wf) :
    ∀ s1, execRingCtlWrite w i d s = .next s1 → s1.wf := by intro s1 ht; simp only [execRingCtlWrite, Host.Outcome.next.injEq] at ht; subst ht; simp +contextual (maxDischargeDepth := 60) [hw]
@[simp] theorem State.dbBad_wf (s : State) (hw : s.wf) :
    (State.dbBad s).wf := by simp +contextual (maxDischargeDepth := 60) [State.dbBad, hw]
@[simp] theorem State.dbStale_wf (s : State) (hw : s.wf) :
    (State.dbStale s).wf := by simp +contextual (maxDischargeDepth := 60) [State.dbStale, hw]
@[simp] theorem State.doorbell_wf (s : State) (r : Nat) (x : Nat) (e : Nat) (hw : s.wf) :
    (State.doorbell s r x e).1.wf := by simp +contextual (maxDischargeDepth := 60) [State.doorbell, hw]
@[simp] theorem State.doorbellBytes_wf (s : State) (b : List Byte) (hw : s.wf) :
    (State.doorbellBytes s b).1.wf := by simp +contextual (maxDischargeDepth := 60) [State.doorbellBytes, hw]
@[simp] theorem State.rdmaWrite_wf (s : State) (q : Nat) (va : BitVec 64) (rkey : BitVec 32) (data : List Byte) (hw : s.wf) :
    (State.rdmaWrite s q va rkey data).wf := by simp +contextual (maxDischargeDepth := 60) [State.rdmaWrite, hw]
theorem execRdmaDoorbell_wf (q : Fin 64) (va : BitVec 64) (rkey : BitVec 32) (data : List Byte) (s : State) (hw : s.wf) :
    ∀ s1, execRdmaDoorbell q va rkey data s = .next s1 → s1.wf := by intro s1 ht; simp only [execRdmaDoorbell, Host.Outcome.next.injEq] at ht; subst ht; simp +contextual (maxDischargeDepth := 60) [hw]
@[simp] theorem State.notify_wf (s : State) (q : Nat) (hw : s.wf) :
    (State.notify s q).wf := by simp +contextual (maxDischargeDepth := 60) [State.notify, hw]
theorem execRocePacketRx_wf (q : Fin 64) (k : RocePkt) (s : State) (hw : s.wf) :
    ∀ s1, execRocePacketRx q k s = .next s1 → s1.wf := by intro s1 ht; unfold execRocePacketRx at ht; simp only [Host.Outcome.next.injEq] at ht; subst ht; (repeat' split) <;> simp +contextual (maxDischargeDepth := 60) [hw]
theorem execCommandFetch_wf (i : Fin 32) (s : State) (hw : s.wf) :
    ∀ s1, execCommandFetch i s = .next s1 → s1.wf := by intro s1 ht; unfold execCommandFetch at ht; simp only [Host.Outcome.next.injEq] at ht; subst ht; (repeat' split) <;> simp +contextual (maxDischargeDepth := 60) [hw]
@[simp] theorem State.shadow_wf (s : State) (i : Nat) (idx : Nat) (hw : s.wf) :
    (State.shadow s i idx).wf := by simp +contextual (maxDischargeDepth := 60) [State.shadow, hw]
theorem execCommandFetchReturn_wf (i : Fin 32) (entries : Option (List Desc)) (s : State) (hw : s.wf) :
    ∀ s1, execCommandFetchReturn i entries s = .next s1 → s1.wf := by intro s1 ht; unfold execCommandFetchReturn at ht; simp only [Host.Outcome.next.injEq] at ht; subst ht; (repeat' split) <;> simp +contextual (maxDischargeDepth := 60) [hw]
theorem execRingWriteAck_wf (i : Fin 256) (n : Nat) (ok : Bool) (s : State) (hw : s.wf) :
    ∀ s1, execRingWriteAck i n ok s = .next s1 → s1.wf := by intro s1 ht; unfold execRingWriteAck at ht; simp only [Host.Outcome.next.injEq] at ht; subst ht; (repeat' split) <;> simp +contextual (maxDischargeDepth := 60) [hw]
theorem execCpArpReply_wf (port : Fin 2) (target : BitVec 32) (mac : BitVec 48) (ip : BitVec 32) (s : State) (hw : s.wf) :
    ∀ s1, execCpArpReply port target mac ip s = .next s1 → s1.wf := by intro s1 ht; simp only [execCpArpReply, Host.Outcome.next.injEq] at ht; subst ht; simp +contextual (maxDischargeDepth := 60) [hw]
theorem execPfcFrameRx_wf (port : Fin 2) (prio : Fin 8) (pause : Bool) (s : State) (hw : s.wf) :
    ∀ s1, execPfcFrameRx port prio pause s = .next s1 → s1.wf := by intro s1 ht; simp only [execPfcFrameRx, Host.Outcome.next.injEq] at ht; subst ht; simp +contextual (maxDischargeDepth := 60) [hw]

/-! ## Mgmt -/

@[simp] theorem State.handWrite_wf (s : State) (d : Word) (hw : s.wf) :
    (State.handWrite s d).wf := by simp +contextual (maxDischargeDepth := 60) [State.handWrite, hw]
theorem execHandWrite_wf (w : Who) (d : Word) (s : State) (hw : s.wf) :
    ∀ s1, execHandWrite w d s = .next s1 → s1.wf := by intro s1 ht; simp only [execHandWrite, Host.Outcome.next.injEq] at ht; subst ht; simp +contextual (maxDischargeDepth := 60) [hw]
@[simp] theorem State.pmbusOut_wf (s : State) (cmd : Nat) (data : Nat) (hw : s.wf)  :
    (State.pmbusOut s cmd data).wf := by simp +contextual (maxDischargeDepth := 60) [State.pmbusOut, hw]
@[simp] theorem State.avsCtlWrite_wf (s : State) (d : Word) (hw : s.wf) :
    (State.avsCtlWrite s d).wf := by simp +contextual (maxDischargeDepth := 60) [State.avsCtlWrite, hw]
@[simp] theorem State.laneDlyWrite_wf (s : State) (k : Nat) (d : Word) (hw : s.wf) :
    (State.laneDlyWrite s k d).wf := by simp +contextual (maxDischargeDepth := 60) [State.laneDlyWrite, hw]
@[simp] theorem State.vrefWrite_wf (s : State) (k : Nat) (d : Word) (hw : s.wf) :
    (State.vrefWrite s k d).wf := by simp +contextual (maxDischargeDepth := 60) [State.vrefWrite, hw]
@[simp] theorem State.homeWrite_wf (s : State) (n : Nat) (a : Nat) (d : Word) (hw : s.wf) :
    (State.homeWrite s n a d).wf := by simp +contextual (maxDischargeDepth := 60) [State.homeWrite, hw]
@[simp] theorem State.hookLow_wf (s : State) (b : Nat) (i : Nat) (j : Nat) (a : Nat) (d : Word) (hw : s.wf) :
    (State.hookLow s b i j a d).wf := by
  unfold State.hookLow; simp only [hw, ite_wf, ite_self, State.avsCtlWrite_wf, State.celCtlWrite_wf, State.chkInjWrite_wf, State.evcComplete_wf, State.flipCtlWrite_wf, State.hCfgWrite_wf, State.hCtlWrite_wf, State.hMainWrite_wf, State.hStateWrite_wf, State.handWrite_wf, State.hwinCtlWrite_wf, State.hwinParWrite_wf, State.incfgWrite_wf, State.laneDlyWrite_wf, State.mrwWrite_wf, State.pdWrite_wf, State.pendClear_wf, State.plainWrite_wf, State.preemptWrite_wf, State.qpCtlWrite_wf, State.qpParWrite_wf, State.rateWrite_wf, State.repairWrite_wf, State.ringCtlWrite_wf, State.scrubEnable_wf, State.scrubRngWrite_wf, State.sevWrite_wf, State.stepNsWrite_wf, State.strokeCtlWrite_wf, State.strokeParWrite_wf, State.tgtWrite_wf, State.timeCtlWrite_wf, State.trnWrite_wf, State.unackWrite_wf, State.vrefWrite_wf]
@[simp] theorem State.canvasHome_wf (s : State) (v : Nat) (a : Nat) (d : Word) (hw : s.wf) :
    (State.canvasHome s v a d).wf := by unfold State.canvasHome; (repeat' split) <;> simp +contextual (maxDischargeDepth := 60) [hw]
@[simp] theorem State.modelWrite_wf (s : State) (a : Nat) (d : Word) (hw : s.wf)  :
    (State.modelWrite s a d).wf := by simp +contextual (maxDischargeDepth := 60) [State.modelWrite, hw]
@[simp] theorem State.hookHigh_wf (s : State) (b : Nat) (i : Nat) (j : Nat) (a : Nat) (d : Word) (hw : s.wf) :
    (State.hookHigh s b i j a d).wf := by
  unfold State.hookHigh; simp only [hw, ite_wf, ite_self, State.canvasHome_wf, State.dozeWrite_wf, State.gateWrite_wf, State.gctlWrite_wf, State.homeWrite_wf, State.laneCfgWrite_wf, State.modelWrite_wf, State.raiseCrew_wf, State.laneStateWrite_wf, State.ldrDataWrite_wf, State.plainWrite_wf, State.portStateWrite_wf, State.prbsWrite_wf, State.qmodeWrite_wf, State.rxeqWrite_wf, State.seatWrite_wf, State.slipWrite_wf, State.txeqWrite_wf, State.ucsAddrWrite_wf, State.ucsData4Write_wf, State.ucsDataWrite_wf, State.uctlWrite_wf, State.ustartWrite_wf]
@[simp] theorem State.mgmtWrite_wf (s : State) (w : Who) (a : Nat) (d : Word) (hw : s.wf) :
    (State.mgmtWrite s w a d).wf := by unfold State.mgmtWrite; (repeat' split) <;> simp +contextual (maxDischargeDepth := 60) [hw]
theorem execMgmtRegisterWrite_wf (w : Who) (a : BitVec 32) (d : Word) (s : State) (hw : s.wf) :
    ∀ s1, execMgmtRegisterWrite w a d s = .next s1 → s1.wf := by intro s1 ht; simp only [execMgmtRegisterWrite, Host.Outcome.next.injEq] at ht; subst ht; simp +contextual (maxDischargeDepth := 60) [hw]
@[simp] theorem State.readClaim_wf (s : State) (w : Who) (i : Nat) (a : Nat) (hw : s.wf) :
    (State.readClaim s w i a).1.wf := by unfold State.readClaim; (repeat' split) <;> simp +contextual (maxDischargeDepth := 60) [hw]
@[simp] theorem State.readLow_wf (s : State) (w : Who) (b : Nat) (i : Nat) (a : Nat) (hw : s.wf) :
    (State.readLow s w b i a).1.wf := by
  unfold State.readLow; simp only [hw, ite_fst_wf, ite_self, State.readClaim_wf, State.readIdx_wf, State.readNow_wf, State.readPps_wf]
@[simp] theorem State.readHigh_wf (s : State) (b : Nat) (i : Nat) (a : Nat) (hw : s.wf) :
    (State.readHigh s b i a).1.wf := by simp +contextual (maxDischargeDepth := 60) [State.readHigh, hw]
@[simp] theorem State.mgmtRead_wf (s : State) (w : Who) (a : Nat) (hw : s.wf) :
    (State.mgmtRead s w a).1.wf := by unfold State.mgmtRead; (repeat' split) <;> simp +contextual (maxDischargeDepth := 60) [hw]

/-! ## HoistMove -/

@[simp] theorem State.hSettle_wf (s : State) (g : Nat) (hw : s.wf) :
    (State.hSettle s g).wf := by simp +contextual (maxDischargeDepth := 60) [State.hSettle, hw]
@[simp] theorem State.arrBytes_wf (s : State) (f : Nat) (a : Nat) (n : Nat) (hw : s.wf) :
    (State.arrBytes s f a n).1.wf := by simp +contextual (maxDischargeDepth := 60) [State.arrBytes, hw]
@[simp] theorem State.edgePoison_wf (s : State) (f : Nat) (a : Nat) (n : Nat) (hw : s.wf) :
    (State.edgePoison s f a n).1.wf := by simp +contextual (maxDischargeDepth := 60) [State.edgePoison, hw]
@[simp] theorem State.mirrorRead_wf (s : State) (h : Nat) (a : Nat) (n : Nat) (hw : s.wf) :
    (State.mirrorRead s h a n).1.wf := by simp +contextual (maxDischargeDepth := 60) [State.mirrorRead, hw]
@[simp] theorem State.binRead_wf (s : State) (p : Nat) (n : Nat) (hw : s.wf) :
    (State.binRead s p n).1.wf := by unfold State.binRead; (repeat' split) <;> simp +contextual (maxDischargeDepth := 60) [hw]
@[simp] theorem State.srcRead_wf (s : State) (h : Nat) (e : HEnt) (n : Nat) (data : List Byte) (hw : s.wf) :
    (State.srcRead s h e n data).1.wf := by unfold State.srcRead; simp only []; (repeat' split) <;> simp +contextual (maxDischargeDepth := 60) [*]
@[simp] theorem State.arrPut_wf (s : State) (f : Nat) (a : Nat) (bs : List Byte) (mask : Nat → Bool) (hw : s.wf) :
    (State.arrPut s f a bs mask).wf := by simp +contextual (maxDischargeDepth := 60) [State.arrPut, hw]
@[simp] theorem State.dstWrite_wf (s : State) (h : Nat) (a : Nat) (bs : List Byte) (mask : Nat → Bool) (hw : s.wf) :
    (State.dstWrite s h a bs mask).wf := by unfold State.dstWrite; (repeat' split) <;> simp +contextual (maxDischargeDepth := 60) [hw]
@[simp] theorem State.entryRead_wf (s : State) (g : Nat) (data : List Byte) (hw : s.wf) :
    (State.entryRead s g data).1.wf := by unfold State.entryRead; simp only []; (repeat' split) <;> simp +contextual (maxDischargeDepth := 60) [*]
@[simp] theorem State.entryCount_wf (s : State) (g : Nat) (hw : s.wf) :
    (State.entryCount s g).wf := by simp +contextual (maxDischargeDepth := 60) [State.entryCount, hw]
@[simp] theorem State.entryTake_wf (s : State) (g : Nat) (e : List Byte) (hw : s.wf) :
    (State.entryTake s g e).wf := by unfold State.entryTake; simp only []; (repeat' split) <;> simp +contextual (maxDischargeDepth := 60) [*]
theorem execHoistEntryFetch_wf (h : Fin 4) (c : Fin 64) (e : List Byte) (s : State) (hw : s.wf) :
    ∀ s1, execHoistEntryFetch h c e s = .next s1 → s1.wf := by intro s1 ht; unfold execHoistEntryFetch at ht; simp only [Host.Outcome.next.injEq] at ht; subst ht; (repeat' split) <;> simp +contextual (maxDischargeDepth := 60) [hw]
@[simp] theorem State.hBegin_wf (s : State) (g : Nat) (src : HEnt) (dst : HEnt) (data : List Byte) (hw : s.wf) :
    (State.hBegin s g src dst data).wf := by unfold State.hBegin; simp only []; (repeat' split) <;> simp +contextual (maxDischargeDepth := 60) [*]
theorem execHoistBurstStart_wf (h : Fin 4) (req : List (Fin 64)) (data : List Byte) (s : State) (hw : s.wf) :
    ∀ s1, execHoistBurstStart h req data s = .next s1 → s1.wf := by intro s1 ht; unfold execHoistBurstStart at ht; simp only [Host.Outcome.next.injEq] at ht; subst ht; (repeat' split) <;> simp +contextual (maxDischargeDepth := 60) [hw]
theorem execHoistBurstDone_wf (h : Fin 4) (c : Fin 64) (s : State) (hw : s.wf) :
    ∀ s1, execHoistBurstDone h c s = .next s1 → s1.wf := by intro s1 ht; unfold execHoistBurstDone at ht; simp only [Host.Outcome.next.injEq] at ht; subst ht; (repeat' split) <;> simp +contextual (maxDischargeDepth := 60) [hw]
@[simp] theorem State.hTorn_wf (s : State) (g : Nat) (hw : s.wf) :
    (State.hTorn s g).wf := by unfold State.hTorn; simp only []; (repeat' split) <;> simp +contextual (maxDischargeDepth := 60) [*]
@[simp] theorem State.hStop_wf (s : State) (h : Nat) (cause : Nat) (addr : Nat) (hw : s.wf) :
    (State.hStop s h cause addr).wf := by simp +contextual (maxDischargeDepth := 60) [State.hStop, hw]
theorem execHoistBuserr_wf (h : Fin 4) (c : Fin 64) (cause : Fin 8) (addr : BitVec 48) (s : State) (hw : s.wf) :
    ∀ s1, execHoistBuserr h c cause addr s = .next s1 → s1.wf := by intro s1 ht; simp only [execHoistBuserr, Host.Outcome.next.injEq] at ht; subst ht; simp +contextual (maxDischargeDepth := 60) [hw]
theorem execHoistTargetTimeout_wf (h : Fin 4) (c : Fin 64) (addr : BitVec 48) (s : State) (hw : s.wf) :
    ∀ s1, execHoistTargetTimeout h c addr s = .next s1 → s1.wf := by intro s1 ht; simp only [execHoistTargetTimeout, Host.Outcome.next.injEq] at ht; subst ht; simp +contextual (maxDischargeDepth := 60) [hw]
theorem execHoistPoison_wf (h : Fin 4) (c : Fin 64) (addr : BitVec 48) (entry : Bool) (s : State) (hw : s.wf) :
    ∀ s1, execHoistPoison h c addr entry s = .next s1 → s1.wf := by intro s1 ht; unfold execHoistPoison at ht; simp only [Host.Outcome.next.injEq] at ht; subst ht; (repeat' split) <;> simp +contextual (maxDischargeDepth := 60) [hw]

/-! ## Power -/

@[simp] theorem State.applyStraps_wf (s : State) (b : BitVec 4) (hw : s.wf) :
    (State.applyStraps s b).wf := by simp +contextual (maxDischargeDepth := 60) [State.applyStraps, hw]
@[simp] theorem State.cleared_wf (s : State) (r : ResetS) (hw : s.wf)  :
    (State.cleared s r).wf := by simp +contextual (maxDischargeDepth := 60) [State.cleared, hw]
@[simp] theorem State.rstCause_wf (s : State) (v : Nat) (hw : s.wf) :
    (State.rstCause s v).wf := by simp +contextual (maxDischargeDepth := 60) [State.rstCause, hw]
@[simp] theorem State.warmCrew_wf (s : State) (c : Nat) (hw : s.wf) :
    (State.warmCrew s c).wf := by simp +contextual (maxDischargeDepth := 60) [State.warmCrew, hw]
@[simp] theorem State.warmReset_wf (s : State) (r : ResetS) (cause : Nat) (hw : s.wf) :
    (State.warmReset s r cause).wf := by simp +contextual (maxDischargeDepth := 60) [State.warmReset, hw]
theorem execPoreset_wf (s : State) (hw : s.wf) :
    ∀ s1, execPoreset s = .next s1 → s1.wf := by intro s1 ht; simp only [execPoreset, Host.Outcome.next.injEq] at ht; subst ht; simp +contextual (maxDischargeDepth := 60) [hw]
theorem execPoresetNRelease_wf (straps : BitVec 4) (s : State) (hw : s.wf) :
    ∀ s1, execPoresetNRelease straps s = .next s1 → s1.wf := by intro s1 ht; simp only [execPoresetNRelease, Host.Outcome.next.injEq] at ht; subst ht; simp +contextual (maxDischargeDepth := 60) [hw]
theorem execResetN_wf (s : State) (hw : s.wf) :
    ∀ s1, execResetN s = .next s1 → s1.wf := by intro s1 ht; simp only [execResetN, Host.Outcome.next.injEq] at ht; subst ht; simp +contextual (maxDischargeDepth := 60) [hw]
theorem execClxReset_wf (s : State) (hw : s.wf) :
    ∀ s1, execClxReset s = .next s1 → s1.wf := by intro s1 ht; unfold execClxReset at ht; simp only [Host.Outcome.next.injEq] at ht; subst ht; (repeat' split) <;> simp +contextual (maxDischargeDepth := 60) [hw]
theorem execWarmResetEnd_wf (s : State) (hw : s.wf) :
    ∀ s1, execWarmResetEnd s = .next s1 → s1.wf := by intro s1 ht; unfold execWarmResetEnd at ht; simp only [Host.Outcome.next.injEq] at ht; subst ht; (repeat' split) <;> simp +contextual (maxDischargeDepth := 60) [hw]
@[simp] theorem State.trainStack_wf (s : State) (k : Nat) (hw : s.wf) :
    (State.trainStack s k).wf := by simp +contextual (maxDischargeDepth := 60) [State.trainStack, hw]
@[simp] theorem State.clocksRun_wf (s : State) (hw : s.wf) :
    (State.clocksRun s).wf := by simp +contextual (maxDischargeDepth := 60) [State.clocksRun, hw]
@[simp] theorem State.crewBoot_wf (s : State) (c : Nat) (hw : s.wf) :
    (State.crewBoot s c).wf := by simp +contextual (maxDischargeDepth := 60) [State.crewBoot, hw]
@[simp] theorem State.pdUp_wf (s : State) (n : Nat) (hw : s.wf) :
    (State.pdUp s n).wf := by simp +contextual (maxDischargeDepth := 60) [State.pdUp, hw]
@[simp] theorem State.bootMemory_wf (s : State) (hw : s.wf) :
    (State.bootMemory s).wf := by simp +contextual (maxDischargeDepth := 60) [State.bootMemory, hw]
@[simp] theorem State.cpLaneUp_wf (s : State) (l : Nat) (hw : s.wf) :
    (State.cpLaneUp s l).wf := by simp +contextual (maxDischargeDepth := 60) [State.cpLaneUp, hw]
theorem execReady_wf (s : State) (hw : s.wf) :
    ∀ s1, execReady s = .next s1 → s1.wf := by intro s1 ht; simp only [execReady, Host.Outcome.next.injEq] at ht; subst ht; simp +contextual (maxDischargeDepth := 60) [hw]
@[simp] theorem State.swapDelay_wf (s : State) (hw : s.wf) :
    (State.swapDelay s).wf := by simp +contextual (maxDischargeDepth := 60) [State.swapDelay, hw]
theorem execSwapStart_wf (s : State) (hw : s.wf) :
    ∀ s1, execSwapStart s = .next s1 → s1.wf := by intro s1 ht; unfold execSwapStart at ht; simp only [Host.Outcome.next.injEq] at ht; subst ht; (repeat' split) <;> simp +contextual (maxDischargeDepth := 60) [hw]
theorem execSwapResume_wf (s : State) (hw : s.wf) :
    ∀ s1, execSwapResume s = .next s1 → s1.wf := by intro s1 ht; unfold execSwapResume at ht; simp only [Host.Outcome.next.injEq] at ht; subst ht; (repeat' split) <;> simp +contextual (maxDischargeDepth := 60) [hw]
@[simp] theorem State.bankValid_wf (s : State) (b : Nat) (on : Bool) (hw : s.wf) :
    (State.bankValid s b on).wf := by simp +contextual (maxDischargeDepth := 60) [State.bankValid, hw]
theorem execSwapRevert_wf (s : State) (hw : s.wf) :
    ∀ s1, execSwapRevert s = .next s1 → s1.wf := by intro s1 ht; unfold execSwapRevert at ht; simp only [Host.Outcome.next.injEq] at ht; subst ht; (repeat' split) <;> simp +contextual (maxDischargeDepth := 60) [hw]
theorem execSleep_wf (c : Cmd) (s : State) (hw : s.wf) :
    ∀ s1, execSleep c s = .next s1 → s1.wf := by intro s1 ht; simp only [execSleep, Host.Outcome.next.injEq] at ht; subst ht; simp +contextual (maxDischargeDepth := 60) [hw]
@[simp] theorem State.wakeStart_wf (s : State) (z : SleepS) (hw : s.wf) :
    (State.wakeStart s z).wf := by simp +contextual (maxDischargeDepth := 60) [State.wakeStart, hw]
@[simp] theorem State.wakeSource_wf (s : State) (b : Nat) (hw : s.wf) :
    (State.wakeSource s b).wf := by unfold State.wakeSource; (repeat' split) <;> simp +contextual (maxDischargeDepth := 60) [hw]
theorem execSleepCommit_wf (s : State) (hw : s.wf) :
    ∀ s1, execSleepCommit s = .next s1 → s1.wf := by intro s1 ht; unfold execSleepCommit at ht; simp only [Host.Outcome.next.injEq] at ht; subst ht; (repeat' split) <;> simp +contextual (maxDischargeDepth := 60) [hw]
@[simp] theorem State.stackSleep_wf (s : State) (k : Nat) (hw : s.wf) :
    (State.stackSleep s k).wf := by simp +contextual (maxDischargeDepth := 60) [State.stackSleep, hw]
theorem execMooredReached_wf (s : State) (hw : s.wf) :
    ∀ s1, execMooredReached s = .next s1 → s1.wf := by intro s1 ht; unfold execMooredReached at ht; simp only [Host.Outcome.next.injEq] at ht; subst ht; (repeat' split) <;> simp +contextual (maxDischargeDepth := 60) [hw]
theorem execWakeNFall_wf (s : State) (hw : s.wf) :
    ∀ s1, execWakeNFall s = .next s1 → s1.wf := by intro s1 ht; simp only [execWakeNFall, Host.Outcome.next.injEq] at ht; subst ht; simp +contextual (maxDischargeDepth := 60) [hw]
theorem execWakeNRelease_wf (s : State) (hw : s.wf) :
    ∀ s1, execWakeNRelease s = .next s1 → s1.wf := by intro s1 ht; simp only [execWakeNRelease, Host.Outcome.next.injEq] at ht; subst ht; simp +contextual (maxDischargeDepth := 60) [hw]
theorem execPtpAlarm_wf (s : State) (hw : s.wf) :
    ∀ s1, execPtpAlarm s = .next s1 → s1.wf := by intro s1 ht; unfold execPtpAlarm at ht; simp only [Host.Outcome.next.injEq] at ht; subst ht; (repeat' split) <;> simp +contextual (maxDischargeDepth := 60) [hw]
@[simp] theorem State.wakeMemory_wf (s : State) (doms : List Nat) (hw : s.wf) :
    (State.wakeMemory s doms).wf := by simp +contextual (maxDischargeDepth := 60) [State.wakeMemory, hw]
@[simp] theorem State.wakeUnits_wf (s : State) (lanes : List Nat) (ports : List Nat) (hw : s.wf) :
    (State.wakeUnits s lanes ports).wf := by simp +contextual (maxDischargeDepth := 60) [State.wakeUnits, hw]
theorem execWakeReady_wf (s : State) (hw : s.wf) :
    ∀ s1, execWakeReady s = .next s1 → s1.wf := by intro s1 ht; unfold execWakeReady at ht; simp only [Host.Outcome.next.injEq] at ht; subst ht; (repeat' split) <;> simp +contextual (maxDischargeDepth := 60) [hw]
@[simp] theorem State.thermUpdate_wf (s : State) (hw : s.wf) :
    (State.thermUpdate s).wf := by unfold State.thermUpdate; (repeat' split) <;> simp +contextual (maxDischargeDepth := 60) [hw]
theorem execThermalSample_wf (temps : List Int) (s : State) (hw : s.wf) :
    ∀ s1, execThermalSample temps s = .next s1 → s1.wf := by intro s1 ht; simp only [execThermalSample, Host.Outcome.next.injEq] at ht; subst ht; simp +contextual (maxDischargeDepth := 60) [hw]
@[simp] theorem State.railWarn_wf (s : State) (r : Nat) (mv : Nat) (hw : s.wf) :
    (State.railWarn s r mv).wf := by simp +contextual (maxDischargeDepth := 60) [State.railWarn, hw]
@[simp] theorem State.railFault_wf (s : State) (r : Nat) (mv : Nat) (hw : s.wf) :
    (State.railFault s r mv).wf := by simp +contextual (maxDischargeDepth := 60) [State.railFault, hw]
@[simp] theorem State.railTake_wf (s : State) (r : Nat) (mv : Nat) (hw : s.wf) :
    (State.railTake s r mv).wf := by simp +contextual (maxDischargeDepth := 60) [State.railTake, hw]
theorem execRailSample_wf (mv : List Nat) (s : State) (hw : s.wf) :
    ∀ s1, execRailSample mv s = .next s1 → s1.wf := by intro s1 ht; simp only [execRailSample, Host.Outcome.next.injEq] at ht; subst ht; simp +contextual (maxDischargeDepth := 60) [hw]
@[simp] theorem State.avsSend_wf (s : State) (hw : s.wf) :
    (State.avsSend s).wf := by simp +contextual (maxDischargeDepth := 60) [State.avsSend, hw]
theorem execAvsLoop_wf (counts : List Nat) (s : State) (hw : s.wf) :
    ∀ s1, execAvsLoop counts s = .next s1 → s1.wf := by intro s1 ht; unfold execAvsLoop at ht; simp only [Host.Outcome.next.injEq] at ht; subst ht; (repeat' split) <;> simp +contextual (maxDischargeDepth := 60) [hw]
theorem execPmbAlert_wf (status : BitVec 16) (s : State) (hw : s.wf) :
    ∀ s1, execPmbAlert status s = .next s1 → s1.wf := by intro s1 ht; simp only [execPmbAlert, Host.Outcome.next.injEq] at ht; subst ht; simp +contextual (maxDischargeDepth := 60) [hw]

/-! ## Clexia -/

@[simp] theorem State.clxSend_wf (s : State) (p : Nat) (x : Resp) (hw : s.wf) :
    (State.clxSend s p x).wf := by simp +contextual (maxDischargeDepth := 60) [State.clxSend, hw]
@[simp] theorem State.clx_wf (s : State) (r : ClxReq) (opc : Nat) (checks : State → List Byte → List (Bool × Nat)) (act : State → List Byte → State × Option (Nat × List Byte)) (hw : s.wf) (h4 : ∀ x0 x1, x0.wf → (act x0 x1).1.wf) :
    (State.clx s r opc checks act).wf := by unfold State.clx; simp only []; (repeat' split) <;> simp +contextual (maxDischargeDepth := 60) [*]
@[simp] theorem State.clxReads_wf (s : State) (w : Who) (a : Nat) (n : Nat) (hw : s.wf) :
    (State.clxReads s w a n).1.wf := by simp +contextual (maxDischargeDepth := 60) [State.clxReads, hw]
theorem execClxRead_wf (r : ClxReq) (s : State) (hw : s.wf) :
    ∀ s1, execClxRead r s = .next s1 → s1.wf := by intro s1 ht; simp only [execClxRead, Host.Outcome.next.injEq] at ht; subst ht; simp +contextual (maxDischargeDepth := 60) [hw]
theorem execClxWrite_wf (r : ClxReq) (s : State) (hw : s.wf) :
    ∀ s1, execClxWrite r s = .next s1 → s1.wf := by intro s1 ht; simp only [execClxWrite, Host.Outcome.next.injEq] at ht; subst ht; simp +contextual (maxDischargeDepth := 60) [hw]
theorem execClxBlockWrite_wf (r : ClxReq) (s : State) (hw : s.wf) :
    ∀ s1, execClxBlockWrite r s = .next s1 → s1.wf := by intro s1 ht; simp only [execClxBlockWrite, Host.Outcome.next.injEq] at ht; subst ht; simp +contextual (maxDischargeDepth := 60) [hw]
@[simp] theorem State.pushTake_wf (s : State) (p : Nat) (x : Resp) (off : Nat) (img : List Byte) (last : Bool) (hw : s.wf) :
    (State.pushTake s p x off img last).wf := by simp +contextual (maxDischargeDepth := 60) [State.pushTake, hw]
theorem execFwPush_wf (r : ClxReq) (s : State) (hw : s.wf) :
    ∀ s1, execFwPush r s = .next s1 → s1.wf := by intro s1 ht; simp only [execFwPush, Host.Outcome.next.injEq] at ht; subst ht; simp +contextual (maxDischargeDepth := 60) [hw]
@[simp] theorem State.bankTake_wf (s : State) (b : Nat) (bytes : List Byte) (ok : Bool) (hw : s.wf) :
    (State.bankTake s b bytes ok).wf := by simp +contextual (maxDischargeDepth := 60) [State.bankTake, hw]
@[simp] theorem State.verifyAnswer_wf (s : State) (p : Nat) (x : Resp) (hw : s.wf) :
    (State.verifyAnswer s p x).wf := by simp +contextual (maxDischargeDepth := 60) [State.verifyAnswer, hw]
@[simp] theorem State.bankStart_wf (s : State) (b : Nat) (hw : s.wf) :
    (State.bankStart s b).wf := by simp +contextual (maxDischargeDepth := 60) [State.bankStart, hw]
theorem execFwVerifyDone_wf (s : State) (hw : s.wf) :
    ∀ s1, execFwVerifyDone s = .next s1 → s1.wf := by intro s1 ht; unfold execFwVerifyDone at ht; simp only [Host.Outcome.next.injEq] at ht; subst ht; (repeat' split) <;> simp +contextual (maxDischargeDepth := 60) [hw]
theorem execClxDoorbell_wf (r : ClxReq) (s : State) (hw : s.wf) :
    ∀ s1, execClxDoorbell r s = .next s1 → s1.wf := by intro s1 ht; simp only [execClxDoorbell, Host.Outcome.next.injEq] at ht; subst ht; simp +contextual (maxDischargeDepth := 60) [hw]
theorem execClxWake_wf (r : ClxReq) (s : State) (hw : s.wf) :
    ∀ s1, execClxWake r s = .next s1 → s1.wf := by intro s1 ht; simp only [execClxWake, Host.Outcome.next.injEq] at ht; subst ht; simp +contextual (maxDischargeDepth := 60) [hw]
theorem execResetReq_wf (r : ClxReq) (s : State) (hw : s.wf) :
    ∀ s1, execResetReq r s = .next s1 → s1.wf := by intro s1 ht; simp only [execResetReq, Host.Outcome.next.injEq] at ht; subst ht; simp +contextual (maxDischargeDepth := 60) [hw]
theorem execClxPing_wf (r : ClxReq) (s : State) (hw : s.wf) :
    ∀ s1, execClxPing r s = .next s1 → s1.wf := by intro s1 ht; simp only [execClxPing, Host.Outcome.next.injEq] at ht; subst ht; simp +contextual (maxDischargeDepth := 60) [hw]

/-! ## Units -/

@[simp] theorem State.unitRequest_wf (s : State) (o : Owed) (kind : Nat) (i : Nat) (enable : Bool) (hw : s.wf) :
    (State.unitRequest s o kind i enable).wf := by simp +contextual (maxDischargeDepth := 60) [State.unitRequest, hw]
theorem execUnitEnable_wf (c : Cmd) (s : State) (hw : s.wf) :
    ∀ s1, execUnitEnable c s = .next s1 → s1.wf := by intro s1 ht; simp only [execUnitEnable, Host.Outcome.next.injEq] at ht; subst ht; simp +contextual (maxDischargeDepth := 60) [hw]
theorem execUnitDisable_wf (c : Cmd) (s : State) (hw : s.wf) :
    ∀ s1, execUnitDisable c s = .next s1 → s1.wf := by intro s1 ht; simp only [execUnitDisable, Host.Outcome.next.injEq] at ht; subst ht; simp +contextual (maxDischargeDepth := 60) [hw]
@[simp] theorem State.ucodeRead_wf (s : State) (a : Nat) (img : HostRead) (hw : s.wf) :
    (State.ucodeRead s a img).1.wf := by unfold State.ucodeRead; (repeat' split) <;> simp +contextual (maxDischargeDepth := 60) [hw]
theorem execUcodeLoad_wf (c : Cmd) (img : HostRead) (s : State) (hw : s.wf) :
    ∀ s1, execUcodeLoad c img s = .next s1 → s1.wf := by intro s1 ht; unfold execUcodeLoad at ht; dsimp only at ht; injection ht with ht; subst ht; refine State.begin_wf (h7 := fun s o hs => ?_) (hw := hw) ..; (try dsimp only); (repeat' split) <;> simp +contextual (maxDischargeDepth := 60) [*]
@[simp] theorem State.ucodeCrew_wf (s : State) (c : Nat) (hw : s.wf)  :
    (State.ucodeCrew s c).wf := by unfold State.ucodeCrew; simp only []; (repeat' split) <;> simp +contextual (maxDischargeDepth := 60) [*]
theorem execUcodeLoadDone_wf (s : State) (hw : s.wf) :
    ∀ s1, execUcodeLoadDone s = .next s1 → s1.wf := by
  intro s1 ht; unfold execUcodeLoadDone at ht; dsimp only at ht; injection ht with ht; subst ht
  have h := foldl_wf (fun s c => State.ucodeCrew s c) (fun s c hs => State.ucodeCrew_wf s c hs) (List.range 4) s hw
  (repeat' split) <;> simp [h, hw]

end Sys2Proof.Machine
end

