-- ==== Sys2Proof/Laws/Fixed.lean ====
section
/-!
SUPPORT. What no operation changes: the queue of the commands that wait, and the part. One lemma per operation on the state, and one
per meaning, so that a proof about all commands unfolds nothing.
-/
namespace Sys2Proof.Machine

/-- What no command changes: the queue of the commands that wait, and the part the state is of. -/
def State.fixed (s : State) : List Instr × Part := (s.pending, s.part)
@[simp] theorem State.fixed_same (x s : State) : ((x.pending, x.part) = s.fixed) = (x.fixed = s.fixed) := by rfl
@[simp] theorem foldl_fixed {α : Type} (g : State → α → State) (h : ∀ s x, (g s x).fixed = s.fixed) (l : List α) (s : State) :
    (l.foldl g s).fixed = s.fixed := by
  induction l generalizing s with
  | nil => rfl
  | cons x r ih => rw [List.foldl_cons, ih, h]
@[simp] theorem foldl_fst_fixed {α β : Type} (g : State × β → α → State × β) (h : ∀ a x, (g a x).1.fixed = a.1.fixed) (l : List α)
    (a : State × β) : (l.foldl g a).1.fixed = a.1.fixed := by
  induction l generalizing a with
  | nil => rfl
  | cons x r ih => rw [List.foldl_cons, ih, h]
@[simp] theorem ite_fixed (c : Prop) [Decidable c] (a b s : State) : ((if c then a else b).fixed = s.fixed) = (if c then a.fixed = s.fixed else b.fixed = s.fixed) := by
  split <;> rfl
@[simp] theorem ite_fst_fixed {β : Type} (c : Prop) [Decidable c] (a b : State × β) (s : State) : ((if c then a else b).1.fixed = s.fixed) = (if c then a.1.fixed = s.fixed else b.1.fixed = s.fixed) := by
  split <;> rfl
@[simp] theorem State.draw_fixed (s : State) (w : Nat) : (s.draw w).2.fixed = s.fixed := by rfl
@[simp] theorem State.fixed_mk (a0 a1 a2 a3 a4 a5 a6 a7 a8 a9 a10 a11 a12 a13 a14 a15 a16 a17 a18 a19 a20 a21 a22 a23 a24 a25 a26 a27 a28 a29 a30 a31 a32 a33 a34 a35 a36 a37 a38 a39 a40 a41 a42 a43 a44 a45 a46 a47 a48 a49 a50 a51 a52 a53 a54 a55 a56 a57 a58 a59 a60 a61 a62 a63 a64 a65 a66 a67 a68 a69 a70 a71 a72 a73 a74 a75 a76 a77 a78 a79 a80 a81 a82 a83 a84 a85 a86 a87 a88 a89 a90 a91 a92) : (State.mk a0 a1 a2 a3 a4 a5 a6 a7 a8 a9 a10 a11 a12 a13 a14 a15 a16 a17 a18 a19 a20 a21 a22 a23 a24 a25 a26 a27 a28 a29 a30 a31 a32 a33 a34 a35 a36 a37 a38 a39 a40 a41 a42 a43 a44 a45 a46 a47 a48 a49 a50 a51 a52 a53 a54 a55 a56 a57 a58 a59 a60 a61 a62 a63 a64 a65 a66 a67 a68 a69 a70 a71 a72 a73 a74 a75 a76 a77 a78 a79 a80 a81 a82 a83 a84 a85 a86 a87 a88 a89 a90 a91 a92).fixed = (a0, a2) := by rfl

/-! ## Ops -/

@[simp] theorem State.setReg_fixed (s : State) (a : Nat) (v : Word) :
    (State.setReg s a v).fixed = s.fixed := by simp [State.setReg]
@[simp] theorem State.set_fixed (s : State) (f : RF) (x : Nat) :
    (State.set s f x).fixed = s.fixed := by simp [State.set]
@[simp] theorem State.raise_fixed (s : State) (f : RF) :
    (State.raise s f).fixed = s.fixed := by simp [State.raise]
@[simp] theorem State.addSat_fixed (s : State) (f : RF) (n : Nat) :
    (State.addSat s f n).fixed = s.fixed := by simp [State.addSat]
@[simp] theorem State.bump_fixed (s : State) (f : RF) :
    (State.bump s f).fixed = s.fixed := by simp [State.bump]
@[simp] theorem State.incMod_fixed (s : State) (f : RF) :
    (State.incMod s f).fixed = s.fixed := by simp [State.incMod]
@[simp] theorem State.dropRegs_fixed (s : State) (drop : Nat → Bool) :
    (State.dropRegs s drop).fixed = s.fixed := by simp [State.dropRegs]
@[simp] theorem State.once_fixed (s : State) (key : Nat) (f : State → State) (h2 : ∀ x0, (f x0).fixed = x0.fixed) :
    (State.once s key f).fixed = s.fixed := by simp only [State.once]; (repeat' split) <;> simp [*]
@[simp] theorem State.tick_fixed (s : State) :
    (State.tick s).fixed = s.fixed := by simp [State.tick]
@[simp] theorem State.setGen_fixed (s : State) (g : Nat) (v : GenS) :
    (State.setGen s g v).fixed = s.fixed := by simp [State.setGen]
@[simp] theorem State.setStrm_fixed (s : State) (n : Nat) (v : StreamS) :
    (State.setStrm s n v).fixed = s.fixed := by simp [State.setStrm]
@[simp] theorem State.updStrm_fixed (s : State) (n : Nat) (f : StreamS → StreamS) :
    (State.updStrm s n f).fixed = s.fixed := by simp [State.updStrm]
@[simp] theorem State.setFeed_fixed (s : State) (f : Nat) (v : FeedS) :
    (State.setFeed s f v).fixed = s.fixed := by simp [State.setFeed]
@[simp] theorem State.setCrew_fixed (s : State) (c : Nat) (v : CrewS) :
    (State.setCrew s c v).fixed = s.fixed := by simp [State.setCrew]
@[simp] theorem State.setRun_fixed (s : State) (u : Nat) (v : Option RunS) :
    (State.setRun s u v).fixed = s.fixed := by simp [State.setRun]
@[simp] theorem State.setRing_fixed (s : State) (i : Nat) (v : RingS) :
    (State.setRing s i v).fixed = s.fixed := by simp [State.setRing]
@[simp] theorem State.setTallySrc_fixed (s : State) (i : Nat) (v : TSrc) :
    (State.setTallySrc s i v).fixed = s.fixed := by simp [State.setTallySrc]
@[simp] theorem State.setCp_fixed (s : State) (p : Nat) (v : CpS) :
    (State.setCp s p v).fixed = s.fixed := by simp [State.setCp]
@[simp] theorem State.setSlotPic_fixed (s : State) (i : Nat) (v : Option Nat) :
    (State.setSlotPic s i v).fixed = s.fixed := by simp [State.setSlotPic]
@[simp] theorem State.emit_fixed (s : State) (o : Out) :
    (State.emit s o).fixed = s.fixed := by simp [State.emit]

/-! ## Flags -/

@[simp] theorem State.evcAssert_fixed (s : State) (n : Nat) :
    (State.evcAssert s n).fixed = s.fixed := by simp [State.evcAssert]
@[simp] theorem State.evcLine_fixed (s : State) (n : Nat) (on : Bool) :
    (State.evcLine s n on).fixed = s.fixed := by simp [State.evcLine]
@[simp] theorem State.streamEvent_fixed (s : State) (n : Nat) (e : StreamEv) (pic : Nat) :
    (State.streamEvent s n e pic).fixed = s.fixed := by simp [State.streamEvent]
@[simp] theorem State.tallyLines_fixed (s : State) :
    (State.tallyLines s).fixed = s.fixed := by simp [State.tallyLines]
@[simp] theorem State.holdMsg_fixed (s : State) (m : Msg) :
    (State.holdMsg s m).fixed = s.fixed := by unfold State.holdMsg; (repeat' split) <;> simp
@[simp] theorem State.send_fixed (s : State) (src : Nat) (kind : Nat) (addr : optParam Nat 0) (detail : optParam Nat 0) (inj : optParam Bool false) (lvl : optParam (Option Nat) none) :
    (State.send s src kind addr detail inj lvl).fixed = s.fixed := by simp [State.send]
@[simp] theorem State.cfgReport_fixed (s : State) (a : Nat) :
    (State.cfgReport s a).fixed = s.fixed := by simp [State.cfgReport]
@[simp] theorem State.replace_fixed (s : State) (bits : Nat) :
    (State.replace s bits).fixed = s.fixed := by simp [State.replace]
@[simp] theorem State.setWindow_fixed (s : State) (c : Nat) (v : TWin) :
    (State.setWindow s c v).fixed = s.fixed := by simp [State.setWindow]

/-! ## Records -/

@[simp] theorem State.ringPut_fixed (s : State) (i : Nat) (e : RingEntry) :
    (State.ringPut s i e).fixed = s.fixed := by simp [State.ringPut]
@[simp] theorem State.eventRecord_fixed (s : State) (i : Nat) (mk : Nat → RingEntry) :
    (State.eventRecord s i mk).fixed = s.fixed := by simp [State.eventRecord]
@[simp] theorem State.statRecord_fixed (s : State) (i : Nat) (body : Nat) :
    (State.statRecord s i body).fixed = s.fixed := by simp [State.statRecord]
@[simp] theorem State.complete_fixed (s : State) (o : Owed) (status : Nat) (data : optParam Nat 0) :
    (State.complete s o status data).fixed = s.fixed := by simp [State.complete]
@[simp] theorem State.completeAll_fixed (s : State) (l : List Owed) (status : Nat) (data : optParam Nat 0) :
    (State.completeAll s l status data).fixed = s.fixed := by simp [State.completeAll]
@[simp] theorem State.settle_fixed (s : State) (w : Await) (status : Nat) (data : optParam Nat 0) :
    (State.settle s w status data).fixed = s.fixed := by simp [State.settle]
@[simp] theorem State.await_fixed (s : State) (o : Owed) (w : Await) :
    (State.await s o w).fixed = s.fixed := by simp [State.await]
@[simp] theorem State.promote_fixed (s : State) (kind : Nat) (i : Nat) (w : Await) :
    (State.promote s kind i w).fixed = s.fixed := by simp [State.promote]
@[simp] theorem State.bumpEpoch_fixed (s : State) (u : URec) :
    (State.bumpEpoch s u).fixed = s.fixed := by unfold State.bumpEpoch; (repeat' split) <;> simp
@[simp] theorem State.request_fixed (s : State) (kind : Nat) (i : Nat) (enable : Bool) :
    (State.request s kind i enable).1.fixed = s.fixed := by unfold State.request; simp only []; (repeat' split) <;> simp [*]
@[simp] theorem State.requestCmd_fixed (s : State) (o : Owed) (kind : Nat) (i : Nat) (enable : Bool) (data : optParam Nat 0) :
    (State.requestCmd s o kind i enable data).fixed = s.fixed := by unfold State.requestCmd; simp only []; (repeat' split) <;> simp [*]
@[simp] theorem State.reachOn_fixed (s : State) (kind : Nat) (i : Nat) (data : optParam Nat 0) :
    (State.reachOn s kind i data).fixed = s.fixed := by simp [State.reachOn]
@[simp] theorem State.reachOff_fixed (s : State) (kind : Nat) (i : Nat) (check : optParam (Option Nat) none) (data : optParam Nat 0) :
    (State.reachOff s kind i check data).fixed = s.fixed := by unfold State.reachOff; (repeat' split) <;> simp
@[simp] theorem State.requestWrite_fixed (s : State) (kind : Nat) (i : Nat) (req : Nat) :
    (State.requestWrite s kind i req).fixed = s.fixed := by simp [State.requestWrite]
@[simp] theorem State.takeFetched_fixed (s : State) (c : Cmd) :
    (State.takeFetched s c).fixed = s.fixed := by simp [State.takeFetched]
@[simp] theorem State.begin_fixed (s : State) (c : Cmd) (opc : Nat) (this : Bool) (clean : Bool) (kinds : List Nat) (fn : Option Nat) (k : State → Owed → State) (ex : optParam Bool true) (h7 : ∀ x0 x1, (k x0 x1).fixed = x0.fixed) :
    (State.begin s c opc this clean kinds fn k ex).fixed = s.fixed := by unfold State.begin; simp only []; (repeat' split) <;> simp [*]
@[simp] theorem State.beginFunc_fixed (s : State) (c : Cmd) (func : Nat) (code : Nat) (high : Nat → Bool) (k : State → Owed → State) (ex : optParam Bool true) (h5 : ∀ x0 x1, (k x0 x1).fixed = x0.fixed) :
    (State.beginFunc s c func code high k ex).fixed = s.fixed := by unfold State.beginFunc; simp only []; (repeat' split) <;> simp [*]

/-! ## Gate -/

@[simp] theorem State.ownWrite_fixed (s : State) (w : Who) (a : Nat) (d : Word) (f : State → State) (h4 : ∀ x0, (f x0).fixed = x0.fixed) :
    (State.ownWrite s w a d f).fixed = s.fixed := by simp only [State.ownWrite]; (repeat' split) <;> simp [*]
@[simp] theorem State.plainWrite_fixed (s : State) (a : Nat) (d : Word) :
    (State.plainWrite s a d).fixed = s.fixed := by unfold State.plainWrite; (repeat' split) <;> simp

/-! ## Time -/

@[simp] theorem State.windowStart_fixed (s : State) (c : Nat) :
    (State.windowStart s c).fixed = s.fixed := by simp [State.windowStart]
@[simp] theorem State.arm_fixed (s : State) (g : Nat) :
    (State.arm s g).fixed = s.fixed := by simp [State.arm]
@[simp] theorem State.timeChange_fixed (s : State) (new : Nat) :
    (State.timeChange s new).fixed = s.fixed := by simp [State.timeChange]
@[simp] theorem State.initTime_fixed (s : State) :
    (State.initTime s).fixed = s.fixed := by simp [State.initTime]
@[simp] theorem State.askInit_fixed (s : State) :
    (State.askInit s).1.fixed = s.fixed := by simp [State.askInit]
@[simp] theorem State.askStep_fixed (s : State) (ns : Nat) :
    (State.askStep s ns).1.fixed = s.fixed := by simp [State.askStep]
@[simp] theorem State.timeCtlWrite_fixed (s : State) (d : Word) :
    (State.timeCtlWrite s d).fixed = s.fixed := by simp [State.timeCtlWrite]
@[simp] theorem State.stepNsWrite_fixed (s : State) (d : Word) :
    (State.stepNsWrite s d).fixed = s.fixed := by simp [State.stepNsWrite]
@[simp] theorem State.rateWrite_fixed (s : State) (d : Word) :
    (State.rateWrite s d).fixed = s.fixed := by simp [State.rateWrite]
@[simp] theorem State.strokeEnable_fixed (s : State) (g : Nat) :
    (State.strokeEnable s g).fixed = s.fixed := by simp [State.strokeEnable]
@[simp] theorem State.strokeDisable_fixed (s : State) (g : Nat) :
    (State.strokeDisable s g).fixed = s.fixed := by simp [State.strokeDisable]
@[simp] theorem State.strokeCtlWrite_fixed (s : State) (g : Nat) (d : Word) :
    (State.strokeCtlWrite s g d).fixed = s.fixed := by simp [State.strokeCtlWrite]
@[simp] theorem State.strokeParWrite_fixed (s : State) (g : Nat) (a : Nat) (d : Word) :
    (State.strokeParWrite s g a d).fixed = s.fixed := by simp [State.strokeParWrite]
@[simp] theorem State.readNow_fixed (s : State) :
    (State.readNow s).1.fixed = s.fixed := by simp [State.readNow]
@[simp] theorem State.readPps_fixed (s : State) :
    (State.readPps s).1.fixed = s.fixed := by simp [State.readPps]
@[simp] theorem State.readIdx_fixed (s : State) (g : Nat) :
    (State.readIdx s g).1.fixed = s.fixed := by simp [State.readIdx]
theorem execTimeInit_fixed (w : Who) (d : Word) (s : State) :
    ∀ s1, execTimeInit w d s = .next s1 → s1.fixed = s.fixed := by intro s1 ht; simp only [execTimeInit, Host.Outcome.next.injEq] at ht; subst ht; simp
theorem execTimeStepGo_fixed (w : Who) (d : Word) (s : State) :
    ∀ s1, execTimeStepGo w d s = .next s1 → s1.fixed = s.fixed := by intro s1 ht; simp only [execTimeStepGo, Host.Outcome.next.injEq] at ht; subst ht; simp
theorem execTimeRateLoad_fixed (w : Who) (d : Word) (s : State) :
    ∀ s1, execTimeRateLoad w d s = .next s1 → s1.fixed = s.fixed := by intro s1 ht; simp only [execTimeRateLoad, Host.Outcome.next.injEq] at ht; subst ht; simp
theorem execClksrcWrite_fixed (w : Who) (d : Word) (s : State) :
    ∀ s1, execClksrcWrite w d s = .next s1 → s1.fixed = s.fixed := by intro s1 ht; simp only [execClksrcWrite, Host.Outcome.next.injEq] at ht; subst ht; simp
theorem execPllRelock_fixed (s : State) :
    ∀ s1, execPllRelock s = .next s1 → s1.fixed = s.fixed := by intro s1 ht; unfold execPllRelock at ht; simp only [Host.Outcome.next.injEq] at ht; subst ht; (repeat' split) <;> simp
theorem execTimeinLost_fixed (s : State) :
    ∀ s1, execTimeinLost s = .next s1 → s1.fixed = s.fixed := by intro s1 ht; simp only [execTimeinLost, Host.Outcome.next.injEq] at ht; subst ht; simp
theorem execPpsInCapture_fixed (s : State) :
    ∀ s1, execPpsInCapture s = .next s1 → s1.fixed = s.fixed := by intro s1 ht; simp only [execPpsInCapture, Host.Outcome.next.injEq] at ht; subst ht; simp
theorem execPpsOutRise_fixed (s : State) :
    ∀ s1, execPpsOutRise s = .next s1 → s1.fixed = s.fixed := by intro s1 ht; simp only [execPpsOutRise, Host.Outcome.next.injEq] at ht; subst ht; simp
theorem execPpsOutFall_fixed (s : State) :
    ∀ s1, execPpsOutFall s = .next s1 → s1.fixed = s.fixed := by intro s1 ht; unfold execPpsOutFall at ht; simp only [Host.Outcome.next.injEq] at ht; subst ht; (repeat' split) <;> simp
theorem execStrokeEnable_fixed (w : Who) (g : Fin 4) (d : Word) (s : State) :
    ∀ s1, execStrokeEnable w g d s = .next s1 → s1.fixed = s.fixed := by intro s1 ht; simp only [execStrokeEnable, Host.Outcome.next.injEq] at ht; subst ht; simp
theorem execStrokeDisable_fixed (w : Who) (g : Fin 4) (d : Word) (s : State) :
    ∀ s1, execStrokeDisable w g d s = .next s1 → s1.fixed = s.fixed := by intro s1 ht; simp only [execStrokeDisable, Host.Outcome.next.injEq] at ht; subst ht; simp
theorem execTimeNowRead_fixed (w : Who) (s : State) :
    ∀ s1, execTimeNowRead w s = .next s1 → s1.fixed = s.fixed := by intro s1 ht; simp only [execTimeNowRead, Host.Outcome.next.injEq] at ht; subst ht; simp
theorem execPpsSecRead_fixed (w : Who) (s : State) :
    ∀ s1, execPpsSecRead w s = .next s1 → s1.fixed = s.fixed := by intro s1 ht; simp only [execPpsSecRead, Host.Outcome.next.injEq] at ht; subst ht; simp
theorem execStrokeIdxRead_fixed (w : Who) (g : Fin 4) (s : State) :
    ∀ s1, execStrokeIdxRead w g s = .next s1 → s1.fixed = s.fixed := by intro s1 ht; simp only [execStrokeIdxRead, Host.Outcome.next.injEq] at ht; subst ht; simp
theorem execTimeStep_fixed (c : Cmd) (s : State) :
    ∀ s1, execTimeStep c s = .next s1 → s1.fixed = s.fixed := by intro s1 ht; simp only [execTimeStep, Host.Outcome.next.injEq] at ht; subst ht; simp
theorem execTimeStepInit_fixed (c : Cmd) (s : State) :
    ∀ s1, execTimeStepInit c s = .next s1 → s1.fixed = s.fixed := by intro s1 ht; simp only [execTimeStepInit, Host.Outcome.next.injEq] at ht; subst ht; simp
theorem execStrokeSet_fixed (c : Cmd) (s : State) :
    ∀ s1, execStrokeSet c s = .next s1 → s1.fixed = s.fixed := by intro s1 ht; simp only [execStrokeSet, Host.Outcome.next.injEq] at ht; subst ht; simp
theorem execStrokeSetDisable_fixed (c : Cmd) (s : State) :
    ∀ s1, execStrokeSetDisable c s = .next s1 → s1.fixed = s.fixed := by intro s1 ht; simp only [execStrokeSetDisable, Host.Outcome.next.injEq] at ht; subst ht; simp
theorem execPtpSet_fixed (c : Cmd) (s : State) :
    ∀ s1, execPtpSet c s = .next s1 → s1.fixed = s.fixed := by intro s1 ht; simp only [execPtpSet, Host.Outcome.next.injEq] at ht; subst ht; simp

/-! ## Evc -/

@[simp] theorem State.takeGathered_fixed (s : State) (t : Nat) (n : Nat) (g : Gath) :
    (State.takeGathered s t n g).fixed = s.fixed := by simp [State.takeGathered]
@[simp] theorem State.claimMarks_fixed (s : State) (t : Nat) (n : Nat) :
    (State.claimMarks s t n).fixed = s.fixed := by simp [State.claimMarks]
@[simp] theorem State.holdStart_fixed (s : State) (t : Nat) (n : Nat) :
    (State.holdStart s t n).fixed = s.fixed := by simp [State.holdStart]
@[simp] theorem State.claim_fixed (s : State) (t : Nat) (n : Nat) :
    (State.claim s t n).fixed = s.fixed := by simp [State.claim]
@[simp] theorem State.look_fixed (s : State) (t : Nat) :
    (State.look s t).fixed = s.fixed := by simp [State.look]
@[simp] theorem State.endClaim_fixed (s : State) (t : Nat) (n : Nat) :
    (State.endClaim s t n).fixed = s.fixed := by simp [State.endClaim]
@[simp] theorem State.evcComplete_fixed (s : State) (t : Nat) (n : Nat) :
    (State.evcComplete s t n).fixed = s.fixed := by simp [State.evcComplete]
@[simp] theorem State.abandon_fixed (s : State) (q : Nat) :
    (State.abandon s q).fixed = s.fixed := by simp [State.abandon]
@[simp] theorem State.sendPreempt_fixed (s : State) (u : Nat) (level : Nat) (abort : Bool) :
    (State.sendPreempt s u level abort).fixed = s.fixed := by simp [State.sendPreempt]
@[simp] theorem State.incfgWrite_fixed (s : State) (i : Nat) (d : Word) :
    (State.incfgWrite s i d).fixed = s.fixed := by simp [State.incfgWrite]
@[simp] theorem State.pendClear_fixed (s : State) (i : Nat) (d : Word) :
    (State.pendClear s i d).fixed = s.fixed := by simp [State.pendClear]
@[simp] theorem State.tgtWrite_fixed (s : State) (n : Nat) (d : Word) :
    (State.tgtWrite s n d).fixed = s.fixed := by simp [State.tgtWrite]
@[simp] theorem State.preemptWrite_fixed (s : State) (d : Word) :
    (State.preemptWrite s d).fixed = s.fixed := by simp [State.preemptWrite]
theorem execEvcClaim_fixed (t : Fin 8) (s : State) :
    ∀ s1, execEvcClaim t s = .next s1 → s1.fixed = s.fixed := by intro s1 ht; unfold execEvcClaim at ht; simp only [Host.Outcome.next.injEq] at ht; subst ht; (repeat' split) <;> simp
theorem execEvcClaimRead_fixed (w : Who) (t : Fin 4) (s : State) :
    ∀ s1, execEvcClaimRead w t s = .next s1 → s1.fixed = s.fixed := by intro s1 ht; simp only [execEvcClaimRead, Host.Outcome.next.injEq] at ht; subst ht; simp
theorem execEvcDoneWrite_fixed (w : Who) (t : Fin 4) (d : Word) (s : State) :
    ∀ s1, execEvcDoneWrite w t d s = .next s1 → s1.fixed = s.fixed := by intro s1 ht; simp only [execEvcDoneWrite, Host.Outcome.next.injEq] at ht; subst ht; simp
theorem execEvcTimer_fixed (i : Fin 4) (s : State) :
    ∀ s1, execEvcTimer i s = .next s1 → s1.fixed = s.fixed := by intro s1 ht; simp only [execEvcTimer, Host.Outcome.next.injEq] at ht; subst ht; simp
theorem execEvtInFilter_fixed (i : Fin 16) (level : Bool) (s : State) :
    ∀ s1, execEvtInFilter i level s = .next s1 → s1.fixed = s.fixed := by intro s1 ht; simp only [execEvtInFilter, Host.Outcome.next.injEq] at ht; subst ht; simp
theorem execEvtInCfgWrite_fixed (w : Who) (i : Fin 16) (d : Word) (s : State) :
    ∀ s1, execEvtInCfgWrite w i d s = .next s1 → s1.fixed = s.fixed := by intro s1 ht; simp only [execEvtInCfgWrite, Host.Outcome.next.injEq] at ht; subst ht; simp
theorem execHoldOffExpiry_fixed (g : Fin 64) (t : Fin 8) (s : State) :
    ∀ s1, execHoldOffExpiry g t s = .next s1 → s1.fixed = s.fixed := by intro s1 ht; unfold execHoldOffExpiry at ht; simp only [Host.Outcome.next.injEq] at ht; subst ht; (repeat' split) <;> simp
theorem execEvcPreemptWrite_fixed (w : Who) (d : Word) (s : State) :
    ∀ s1, execEvcPreemptWrite w d s = .next s1 → s1.fixed = s.fixed := by intro s1 ht; simp only [execEvcPreemptWrite, Host.Outcome.next.injEq] at ht; subst ht; simp
theorem execEvcPendClear_fixed (w : Who) (i : Fin 32) (d : Word) (s : State) :
    ∀ s1, execEvcPendClear w i d s = .next s1 → s1.fixed = s.fixed := by intro s1 ht; simp only [execEvcPendClear, Host.Outcome.next.injEq] at ht; subst ht; simp
theorem execEvcTgtWrite_fixed (w : Who) (n : Fin 1024) (d : Word) (s : State) :
    ∀ s1, execEvcTgtWrite w n d s = .next s1 → s1.fixed = s.fixed := by intro s1 ht; simp only [execEvcTgtWrite, Host.Outcome.next.injEq] at ht; subst ht; simp

/-! ## Rack -/

@[simp] theorem State.cellarPlace_fixed (s : State) (units : Nat) :
    (State.cellarPlace s units).2.fixed = s.fixed := by simp [State.cellarPlace]
@[simp] theorem State.rackFree_fixed (s : State) :
    (State.rackFree s).fixed = s.fixed := by simp [State.rackFree]
@[simp] theorem State.assignSlot_fixed (s : State) (n : Nat) (i : Nat) (units : Nat) :
    (State.assignSlot s n i units).fixed = s.fixed := by simp [State.assignSlot]
@[simp] theorem State.unassignSlot_fixed (s : State) (i : Nat) :
    (State.unassignSlot s i).fixed = s.fixed := by simp [State.unassignSlot]
@[simp] theorem State.makeShelf_fixed (s : State) (n : Nat) (k : Nat) (units : Nat) (nMin : Nat) :
    (State.makeShelf s n k units nMin).fixed = s.fixed := by simp [State.makeShelf]
@[simp] theorem State.rackWaitFlag_fixed (s : State) :
    (State.rackWaitFlag s).fixed = s.fixed := by simp [State.rackWaitFlag]
@[simp] theorem State.holdShow_fixed (s : State) (n : Nat) :
    (State.holdShow s n).fixed = s.fixed := by simp [State.holdShow]
@[simp] theorem State.noteFreed_fixed (s : State) (old : State) (n : Nat) :
    (State.noteFreed s old n).fixed = s.fixed := by simp [State.noteFreed]
@[simp] theorem State.slotStart_fixed (s : State) (n : Nat) (slot : Nat) (nref : Nat) :
    (State.slotStart s n slot nref).fixed = s.fixed := by simp [State.slotStart]
@[simp] theorem State.takeSlot_fixed (s : State) (n : Nat) (slot : Nat) (p : Pic) :
    (State.takeSlot s n slot p).1.fixed = s.fixed := by simp [State.takeSlot]
@[simp] theorem State.allocate_fixed (s : State) (n : Nat) (p : Pic) :
    (State.allocate s n p).1.fixed = s.fixed := by unfold State.allocate; (repeat' split) <;> simp
@[simp] theorem State.waitShow_fixed (s : State) :
    (State.waitShow s).fixed = s.fixed := by simp [State.waitShow]
@[simp] theorem State.idleStep_fixed (s : State) :
    (State.idleStep s).fixed = s.fixed := by simp [State.idleStep]
@[simp] theorem State.releaseRefs_fixed (s : State) (n : Nat) :
    (State.releaseRefs s n).fixed = s.fixed := by unfold State.releaseRefs; refine foldl_fixed _ (fun s x => ?_) _ _; (try dsimp only); (repeat' split) <;> simp [*]
@[simp] theorem State.codingDone_fixed (s : State) (n : Nat) (pic : Nat) :
    (State.codingDone s n pic).fixed = s.fixed := by unfold State.codingDone; (repeat' split) <;> simp
@[simp] theorem State.dropShelf_fixed (s : State) (n : Nat) :
    (State.dropShelf s n).fixed = s.fixed := by simp [State.dropShelf]
theorem execSlotRetire_fixed (i : Fin 4096) (s : State) :
    ∀ s1, execSlotRetire i s = .next s1 → s1.fixed = s.fixed := by intro s1 ht; simp only [execSlotRetire, Host.Outcome.next.injEq] at ht; subst ht; simp
theorem execShelfRefill_fixed (n : Fin 128) (slots : List (Fin 4096)) (s : State) :
    ∀ s1, execShelfRefill n slots s = .next s1 → s1.fixed = s.fixed := by intro s1 ht; simp only [execShelfRefill, Host.Outcome.next.injEq] at ht; subst ht; simp
theorem execHold_fixed (c : Cmd) (s : State) :
    ∀ s1, execHold c s = .next s1 → s1.fixed = s.fixed := by intro s1 ht; unfold execHold at ht; dsimp only at ht; injection ht with ht; subst ht; apply State.begin_fixed; intro s o; (try dsimp only); (repeat' split) <;> simp [*]
theorem execRelease_fixed (c : Cmd) (s : State) :
    ∀ s1, execRelease c s = .next s1 → s1.fixed = s.fixed := by intro s1 ht; unfold execRelease at ht; dsimp only at ht; injection ht with ht; subst ht; apply State.begin_fixed; intro s o; (try dsimp only); (repeat' split) <;> simp [*]

/-! ## Rrc -/

@[simp] theorem State.rrcRegs_fixed (s : State) (n : Nat) :
    (State.rrcRegs s n).fixed = s.fixed := by unfold State.rrcRegs; simp only []; (repeat' split) <;> simp [*]
@[simp] theorem State.rrcLoan_fixed (s : State) (n : Nat) :
    (State.rrcLoan s n).fixed = s.fixed := by simp [State.rrcLoan]
@[simp] theorem State.updPic_fixed (s : State) (n : Nat) (pic : Nat) (f : Pic → Pic) :
    (State.updPic s n pic f).fixed = s.fixed := by simp [State.updPic]
@[simp] theorem State.floorEntry_fixed (s : State) (n : Nat) (pic : Nat) :
    (State.floorEntry s n pic).fixed = s.fixed := by unfold State.floorEntry; (repeat' split) <;> simp
@[simp] theorem State.turn__fixed (s : State) (cls : Nat) (n : Nat) (u : Nat) :
    (State.turn_ s cls n u).fixed = s.fixed := by simp [State.turn_]
theorem execLeaseRequest_fixed (u : Fin 144) (ctxBins : Nat) (bypBins : Nat) (s : State) :
    ∀ s1, execLeaseRequest u ctxBins bypBins s = .next s1 → s1.fixed = s.fixed := by intro s1 ht; unfold execLeaseRequest at ht; simp only [Host.Outcome.next.injEq] at ht; subst ht; (repeat' split) <;> simp
@[simp] theorem State.setCharging_fixed (s : State) (u : Nat) (r : RunS) :
    (State.setCharging s u r).fixed = s.fixed := by simp [State.setCharging]
@[simp] theorem State.bowPop_fixed (s : State) (u : Nat) :
    (State.bowPop s u).fixed = s.fixed := by simp [State.bowPop]
theorem execCtuCharge_fixed (u : Fin 144) (x : Nat) (bits : Nat) (s : State) :
    ∀ s1, execCtuCharge u x bits s = .next s1 → s1.fixed = s.fixed := by intro s1 ht; unfold execCtuCharge at ht; simp only [Host.Outcome.next.injEq] at ht; subst ht; (repeat' split) <;> simp
@[simp] theorem State.jobStats_fixed (s : State) (r : RunS) :
    (State.jobStats s r).fixed = s.fixed := by simp [State.jobStats]
@[simp] theorem State.leaseReturn_fixed (s : State) (r : RunS) :
    (State.leaseReturn s r).fixed = s.fixed := by unfold State.leaseReturn; (repeat' split) <;> simp
@[simp] theorem State.complexityLw_fixed (s : State) (sum : Nat) :
    (State.complexityLw s sum).2.fixed = s.fixed := by unfold State.complexityLw; simp only []; (repeat' split) <;> simp [*]
@[simp] theorem State.modelUpdate_fixed (s : State) (r : RunS) (irap : Bool) (lc : Nat) :
    (State.modelUpdate s r irap lc).fixed = s.fixed := by simp [State.modelUpdate]

/-! ## Arrays -/

@[simp] theorem State.showRecs_fixed (s : State) (f : Nat) :
    (State.showRecs s f).fixed = s.fixed := by simp [State.showRecs]
@[simp] theorem State.flipSpent_fixed (s : State) (f : Nat) :
    (State.flipSpent s f).fixed = s.fixed := by simp [State.flipSpent]
@[simp] theorem State.granWrite_fixed (s : State) (f : Nat) (a : Nat) (ds : List Nat) (poison : Bool) (back : Bool) :
    (State.granWrite s f a ds poison back).fixed = s.fixed := by simp [State.granWrite]

/-! ## Cellar -/

@[simp] theorem State.setPc_fixed (s : State) (k : Nat) (p : Nat) (v : PcS) :
    (State.setPc s k p v).fixed = s.fixed := by simp [State.setPc]
@[simp] theorem State.setStack_fixed (s : State) (k : Nat) (v : StackS) :
    (State.setStack s k v).fixed = s.fixed := by simp [State.setStack]
@[simp] theorem State.fence_fixed (s : State) (k : Nat) (p : Nat) :
    (State.fence s k p).fixed = s.fixed := by simp [State.fence]
@[simp] theorem State.repairPend_fixed (s : State) (k : Nat) (r : Bool × Nat × Nat) :
    (State.repairPend s k r).fixed = s.fixed := by simp [State.repairPend]
@[simp] theorem State.laneRepair_fixed (s : State) (k : Nat) (p : Nat) (lane : Nat) :
    (State.laneRepair s k p lane).1.fixed = s.fixed := by unfold State.laneRepair; (repeat' split) <;> simp
@[simp] theorem State.laneError_fixed (s : State) (k : Nat) (p : Nat) (lane : Nat) :
    (State.laneError s k p lane).fixed = s.fixed := by simp [State.laneError]
@[simp] theorem State.retireSlots_fixed (s : State) (l : List Nat) :
    (State.retireSlots s l).fixed = s.fixed := by simp [State.retireSlots]
@[simp] theorem State.rangeLost_fixed (s : State) (k : Nat) (a : Nat) :
    (State.rangeLost s k a).fixed = s.fixed := by simp [State.rangeLost]
@[simp] theorem State.cellarUce_fixed (s : State) (a : Nat) :
    (State.cellarUce s a).fixed = s.fixed := by simp [State.cellarUce]
@[simp] theorem State.wordRead_fixed (s : State) (f : Nat) (a : Nat) (c : Nat) (w : Nat × Nat) :
    (State.wordRead s f a c w).1.fixed = s.fixed := by unfold State.wordRead; (repeat' split) <;> simp
@[simp] theorem State.arrRead_fixed (s : State) (f : Nat) (a : Nat) :
    (State.arrRead s f a).1.fixed = s.fixed := by simp [State.arrRead]
@[simp] theorem State.arrWrite_fixed (s : State) (f : Nat) (a : Nat) (ds : List Nat) (back : optParam Bool false) :
    (State.arrWrite s f a ds back).fixed = s.fixed := by simp [State.arrWrite]
@[simp] theorem State.arrMerge_fixed (s : State) (f : Nat) (a : Nat) (off : Nat) (bs : List Byte) :
    (State.arrMerge s f a off bs).fixed = s.fixed := by simp [State.arrMerge]
@[simp] theorem State.startRefresh_fixed (s : State) (k : Nat) :
    (State.startRefresh s k).fixed = s.fixed := by simp [State.startRefresh]
@[simp] theorem State.recalStep_fixed (s : State) (k : Nat) (p : Nat) :
    (State.recalStep s k p).fixed = s.fixed := by simp [State.recalStep]
@[simp] theorem State.repairsTake_fixed (s : State) (k : Nat) :
    (State.repairsTake s k).fixed = s.fixed := by simp [State.repairsTake]
@[simp] theorem State.closeRows_fixed (s : State) (k : Nat) :
    (State.closeRows s k).fixed = s.fixed := by simp [State.closeRows]
@[simp] theorem State.rearmRefresh_fixed (s : State) (k : Fin 2) (t : Nat) :
    (State.rearmRefresh s k t).fixed = s.fixed := by simp [State.rearmRefresh]
@[simp] theorem State.recalRefresh_fixed (s : State) (k : Nat) :
    (State.recalRefresh s k).fixed = s.fixed := by unfold State.recalRefresh; (repeat' split) <;> simp
theorem execCellarRefresh_fixed (k : Fin 2) (s : State) :
    ∀ s1, execCellarRefresh k s = .next s1 → s1.fixed = s.fixed := by intro s1 ht; unfold execCellarRefresh at ht; simp only [Host.Outcome.next.injEq] at ht; subst ht; (repeat' split) <;> simp
theorem execCellarTempReading_fixed (k : Fin 2) (t : Int) (s : State) :
    ∀ s1, execCellarTempReading k t s = .next s1 → s1.fixed = s.fixed := by intro s1 ht; simp only [execCellarTempReading, Host.Outcome.next.injEq] at ht; subst ht; simp
theorem execRecalibrationRound_fixed (k : Fin 2) (s : State) :
    ∀ s1, execRecalibrationRound k s = .next s1 → s1.fixed = s.fixed := by intro s1 ht; simp only [execRecalibrationRound, Host.Outcome.next.injEq] at ht; subst ht; simp
@[simp] theorem State.pcEnter_fixed (s : State) (k : Nat) (p : Nat) (q : QReq) :
    (State.pcEnter s k p q).fixed = s.fixed := by simp [State.pcEnter]
theorem execCellarRequestIssue_fixed (k : Fin 2) (p : Fin 32) (arr : List CelReq) (s : State) :
    ∀ s1, execCellarRequestIssue k p arr s = .next s1 → s1.fixed = s.fixed := by intro s1 ht; unfold execCellarRequestIssue at ht; simp only [Host.Outcome.next.injEq] at ht; subst ht; (repeat' split) <;> simp
theorem execCellarPowerDown_fixed (k : Fin 2) (p : Fin 32) (s : State) :
    ∀ s1, execCellarPowerDown k p s = .next s1 → s1.fixed = s.fixed := by intro s1 ht; simp only [execCellarPowerDown, Host.Outcome.next.injEq] at ht; subst ht; simp
theorem execCellarPdWake_fixed (k : Fin 2) (p : Fin 32) (s : State) :
    ∀ s1, execCellarPdWake k p s = .next s1 → s1.fixed = s.fixed := by intro s1 ht; simp only [execCellarPdWake, Host.Outcome.next.injEq] at ht; subst ht; simp
theorem execRowCloseTimeout_fixed (k : Fin 2) (p : Fin 32) (s : State) :
    ∀ s1, execRowCloseTimeout k p s = .next s1 → s1.fixed = s.fixed := by intro s1 ht; simp only [execRowCloseTimeout, Host.Outcome.next.injEq] at ht; subst ht; simp
@[simp] theorem State.trnWrite_fixed (s : State) (k : Nat) (d : Word) :
    (State.trnWrite s k d).fixed = s.fixed := by simp [State.trnWrite]
theorem execTrnGo_fixed (w : Who) (k : Fin 2) (d : Word) (s : State) :
    ∀ s1, execTrnGo w k d s = .next s1 → s1.fixed = s.fixed := by intro s1 ht; simp only [execTrnGo, Host.Outcome.next.injEq] at ht; subst ht; simp
theorem execTrnDone_fixed (k : Fin 2) (errs : List Nat) (s : State) :
    ∀ s1, execTrnDone k errs s = .next s1 → s1.fixed = s.fixed := by intro s1 ht; simp only [execTrnDone, Host.Outcome.next.injEq] at ht; subst ht; simp
@[simp] theorem State.mrwWrite_fixed (s : State) (k : Nat) (d : Word) :
    (State.mrwWrite s k d).fixed = s.fixed := by simp [State.mrwWrite]
theorem execMrwGo_fixed (w : Who) (k : Fin 2) (d : Word) (s : State) :
    ∀ s1, execMrwGo w k d s = .next s1 → s1.fixed = s.fixed := by intro s1 ht; simp only [execMrwGo, Host.Outcome.next.injEq] at ht; subst ht; simp
@[simp] theorem State.repairWrite_fixed (s : State) (k : Nat) (ca : Bool) (i : Nat) (d : Word) :
    (State.repairWrite s k ca i d).fixed = s.fixed := by simp [State.repairWrite]
theorem execRepairWrite_fixed (w : Who) (k : Fin 2) (ca : Bool) (i : Fin 32) (d : Word) (s : State) :
    ∀ s1, execRepairWrite w k ca i d s = .next s1 → s1.fixed = s.fixed := by intro s1 ht; simp only [execRepairWrite, Host.Outcome.next.injEq] at ht; subst ht; simp
@[simp] theorem State.celCtlWrite_fixed (s : State) (k : Nat) (d : Word) :
    (State.celCtlWrite s k d).fixed = s.fixed := by simp [State.celCtlWrite]
theorem execTrafficEnWrite_fixed (w : Who) (k : Fin 2) (d : Word) (s : State) :
    ∀ s1, execTrafficEnWrite w k d s = .next s1 → s1.fixed = s.fixed := by intro s1 ht; simp only [execTrafficEnWrite, Host.Outcome.next.injEq] at ht; subst ht; simp
theorem execCelPll_fixed (k : Fin 2) (s : State) :
    ∀ s1, execCelPll k s = .next s1 → s1.fixed = s.fixed := by intro s1 ht; simp only [execCelPll, Host.Outcome.next.injEq] at ht; subst ht; simp
theorem execCelLaneRepairSet_fixed (c : Cmd) (s : State) :
    ∀ s1, execCelLaneRepairSet c s = .next s1 → s1.fixed = s.fixed := by intro s1 ht; simp only [execCelLaneRepairSet, Host.Outcome.next.injEq] at ht; subst ht; simp
theorem execCelRecalSet_fixed (c : Cmd) (s : State) :
    ∀ s1, execCelRecalSet c s = .next s1 → s1.fixed = s.fixed := by intro s1 ht; simp only [execCelRecalSet, Host.Outcome.next.injEq] at ht; subst ht; simp
theorem execCelRepairThresholdSet_fixed (c : Cmd) (s : State) :
    ∀ s1, execCelRepairThresholdSet c s = .next s1 → s1.fixed = s.fixed := by intro s1 ht; simp only [execCelRepairThresholdSet, Host.Outcome.next.injEq] at ht; subst ht; simp

/-! ## Packets -/

@[simp] theorem State.emitLit_fixed (s : State) (p : Nat) (o : Out) :
    (State.emitLit s p o).fixed = s.fixed := by simp [State.emitLit]
@[simp] theorem State.igmpSend_fixed (s : State) (p : Nat) (g : Nat) (join : Bool) :
    (State.igmpSend s p g join).fixed = s.fixed := by simp [State.igmpSend]
@[simp] theorem State.setFrames_fixed (s : State) (p : Nat) (l : List Frame) :
    (State.setFrames s p l).fixed = s.fixed := by simp [State.setFrames]
@[simp] theorem State.putFrame_fixed (s : State) (p : Nat) (f : Frame) :
    (State.putFrame s p f).fixed = s.fixed := by simp [State.putFrame]
@[simp] theorem State.pushPair_fixed (s : State) (fl : Flow) (payload : Nat) (f : Frame) :
    (State.pushPair s fl payload f).fixed = s.fixed := by simp [State.pushPair]
@[simp] theorem State.rtpNext_fixed (s : State) (key : Nat) :
    (State.rtpNext s key).2.fixed = s.fixed := by unfold State.rtpNext; simp only []; (repeat' split) <;> simp [*]
@[simp] theorem State.rtpHead_fixed (s : State) (key : Nat) (pt : Nat) (ssrc : Nat) (ts : Nat) (marker : Bool) (wide : Bool) (don : Option Nat) :
    (State.rtpHead s key pt ssrc ts marker wide don).2.fixed = s.fixed := by simp [State.rtpHead]
@[simp] theorem State.pushRtp_fixed (s : State) (fl : Flow) (payload : Nat) (key : Nat) (ts : Nat) (marker : Bool) (wide : Bool) (don : Option Nat) (f : Frame) :
    (State.pushRtp s fl payload key ts marker wide don f).fixed = s.fixed := by simp [State.pushRtp]
@[simp] theorem State.setSub_fixed (s : State) (i : Nat) (v : Option SubS) :
    (State.setSub s i v).fixed = s.fixed := by simp [State.setSub]
@[simp] theorem State.pushSub_fixed (s : State) (i : Nat) (b : SubS) (pays : Nat → List Pay) (elig : Inst) (pic : Nat) (last : Bool) :
    (State.pushSub s i b pays elig pic last).fixed = s.fixed := by simp [State.pushSub]
@[simp] theorem State.pcrDue_fixed (s : State) (p : Nat) :
    (State.pcrDue s p).fixed = s.fixed := by
  unfold State.pcrDue
  refine foldl_fixed _ (fun s e => ?_) _ _
  dsimp only; split
  · rfl
  · split <;> simp
@[simp] theorem State.tsSend_fixed (s : State) (n : Nat) (pic : Nat) (elig : Inst) (last : Bool) (a_5 : Nat) (a_6 : TsS) :
    (State.tsSend s n pic elig last a_5 a_6).1.fixed = s.fixed := by
  induction a_5 generalizing s a_6 with
  | zero => rfl
  | succ k ih =>
    unfold State.tsSend; split
    · rfl
    · dsimp only; rw [ih, State.pushRtp_fixed]
@[simp] theorem State.pushTs_fixed (s : State) (n : Nat) (pic : Nat) (bytes : Nat) (first : Bool) (last : Bool) (elig : Inst) :
    (State.pushTs s n pic bytes first last elig).fixed = s.fixed := by simp [State.pushTs]
@[simp] theorem State.pushFlow_fixed (s : State) (n : Nat) (fl : Flow) (pays : List Pay) (elig : Inst) (pic : Nat) (last : Bool) :
    (State.pushFlow s n fl pays elig pic last).fixed = s.fixed := by simp [State.pushFlow]
@[simp] theorem State.pushHead_fixed (s : State) (n : Nat) (q : Pic) (elig : Inst) :
    (State.pushHead s n q elig).fixed = s.fixed := by simp [State.pushHead]
@[simp] theorem State.pushSlice_fixed (s : State) (n : Nat) (q : Pic) (row : Nat) (reg : Nat) (bytes : Nat) (elig : Inst) :
    (State.pushSlice s n q row reg bytes elig).fixed = s.fixed := by simp [State.pushSlice]
@[simp] theorem State.donNext_fixed (s : State) (n : Nat) (q : Pic) :
    (State.donNext s n q).fixed = s.fixed := by simp [State.donNext]
@[simp] theorem State.pushRows_fixed (a_0 : Nat) (a_1 : Nat) (a_2 : State) :
    (State.pushRows a_0 a_1 a_2).fixed = a_2.fixed := by
  induction a_0 generalizing a_2 with
  | zero => rfl
  | succ k ih =>
    unfold State.pushRows; dsimp only; split
    · rfl
    · split
      · rw [ih, State.updStrm_fixed]
        split <;> (try rw [State.donNext_fixed]) <;> rw [foldl_fixed] <;>
          first
          | (split <;> simp only [State.pushHead_fixed])
          | (intro s x; cases x <;> simp only [State.pushSlice_fixed])
      · rfl

/-! ## Crew -/

@[simp] theorem State.crewStat_fixed (s : State) (c : Nat) :
    (State.crewStat s c).fixed = s.fixed := by simp [State.crewStat]
@[simp] theorem State.seatStates_fixed (s : State) (c : Nat) :
    (State.seatStates s c).fixed = s.fixed := by simp [State.seatStates]
@[simp] theorem State.seatWrite_fixed (s : State) (c : Nat) (j : Nat) (d : Word) :
    (State.seatWrite s c j d).fixed = s.fixed := by simp [State.seatWrite]
theorem execSeatWrite_fixed (w : Who) (c : Fin 4) (j : Fin 32) (d : Word) (s : State) :
    ∀ s1, execSeatWrite w c j d s = .next s1 → s1.fixed = s.fixed := by intro s1 ht; simp only [execSeatWrite, Host.Outcome.next.injEq] at ht; subst ht; simp
@[simp] theorem State.ldrGranule_fixed (s : State) (at_ : Nat) (bs : List Byte) :
    (State.ldrGranule s at_ bs).fixed = s.fixed := by simp [State.ldrGranule]
@[simp] theorem State.ldrWrite_fixed (s : State) (at_ : Nat) (bs : List Byte) :
    (State.ldrWrite s at_ bs).fixed = s.fixed := by simp [State.ldrWrite]
@[simp] theorem State.ldrFree_fixed (s : State) (at_ : Nat) (granules : Nat) :
    (State.ldrFree s at_ granules).fixed = s.fixed := by
  unfold State.ldrFree
  exact foldl_fixed _ (fun s i => by simp) _ _
@[simp] theorem State.ldrTables_fixed (s : State) (c : Nat) (n : Nat) :
    (State.ldrTables s c n).fixed = s.fixed := by simp [State.ldrTables]
@[simp] theorem State.ldrModel_fixed (s : State) (n : Nat) :
    (State.ldrModel s n).fixed = s.fixed := by
  unfold State.ldrModel
  refine foldl_fixed _ (fun s c => ?_) _ _
  dsimp only; (repeat' split) <;> simp
@[simp] theorem State.ldrLoad_fixed (s : State) (c : Nat) (n : Nat) :
    (State.ldrLoad s c n).fixed = s.fixed := by unfold State.ldrLoad; (repeat' split) <;> simp
@[simp] theorem State.ldrDrop_fixed (s : State) (c : Nat) (n : Nat) :
    (State.ldrDrop s c n).fixed = s.fixed := by unfold State.ldrDrop; (repeat' split) <;> simp
@[simp] theorem State.setSeq_fixed (s : State) (u : Nat) (q : SeqS) :
    (State.setSeq s u q).fixed = s.fixed := by simp [State.setSeq]
@[simp] theorem State.seqStop_fixed (s : State) (u : Nat) :
    (State.seqStop s u).fixed = s.fixed := by simp [State.seqStop]
@[simp] theorem State.seqStart_fixed (s : State) (u : Nat) (entry : Nat) :
    (State.seqStart s u entry).fixed = s.fixed := by simp [State.seqStart]
@[simp] theorem State.enqueue_fixed (s : State) (c : Nat) (j : Job) :
    (State.enqueue s c j).fixed = s.fixed := by simp [State.enqueue]
@[simp] theorem State.requeue_fixed (s : State) (c : Nat) (j : Job) :
    (State.requeue s c j).fixed = s.fixed := by simp [State.requeue]
theorem execQueueWaitEnter_fixed (c : Fin 4) (s : State) :
    ∀ s1, execQueueWaitEnter c s = .next s1 → s1.fixed = s.fixed := by intro s1 ht; unfold execQueueWaitEnter at ht; simp only [Host.Outcome.next.injEq] at ht; subst ht; (repeat' split) <;> simp
@[simp] theorem State.setProg_fixed (s : State) (g : Prog) :
    (State.setProg s g).fixed = s.fixed := by simp [State.setProg]
@[simp] theorem State.raiseLevel_fixed (s : State) (u : Nat) :
    (State.raiseLevel s u).fixed = s.fixed := by unfold State.raiseLevel; (repeat' split) <;> simp
@[simp] theorem State.raiseCrew_fixed (s : State) (c : Nat) :
    (State.raiseCrew s c).fixed = s.fixed := by simp [State.raiseCrew]
theorem execCrewCeiling_fixed (c : Fin 4) (s : State) :
    ∀ s1, execCrewCeiling c s = .next s1 → s1.fixed = s.fixed := by intro s1 ht; simp only [execCrewCeiling, Host.Outcome.next.injEq] at ht; subst ht; simp
@[simp] theorem State.startJob_fixed (s : State) (u : Nat) (v : Nat) (j : Job) :
    (State.startJob s u v j).fixed = s.fixed := by simp [State.startJob]
theorem execJobTake_fixed (u : Fin 144) (s : State) :
    ∀ s1, execJobTake u s = .next s1 → s1.fixed = s.fixed := by intro s1 ht; unfold execJobTake at ht; simp only [Host.Outcome.next.injEq] at ht; subst ht; (repeat' split) <;> simp
@[simp] theorem State.abortJob_fixed (s : State) (u : Nat) :
    (State.abortJob s u).fixed = s.fixed := by unfold State.abortJob; (repeat' split) <;> simp
@[simp] theorem State.chooseSpare_fixed (s : State) (c : Nat) (j : Nat) :
    (State.chooseSpare s c j).fixed = s.fixed := by unfold State.chooseSpare; (repeat' split) <;> simp
@[simp] theorem State.chooseSpares_fixed (s : State) (c : Nat) (l : List Nat) :
    (State.chooseSpares s c l).fixed = s.fixed := by simp [State.chooseSpares]
@[simp] theorem State.retire_fixed (s : State) (u : Nat) (reason : Nat) :
    (State.retire s u reason).fixed = s.fixed := by simp [State.retire]
@[simp] theorem State.countRetire_fixed (s : State) (u : Nat) :
    (State.countRetire s u).fixed = s.fixed := by simp [State.countRetire]
@[simp] theorem State.retireFour_fixed (s : State) (f : Nat) :
    (State.retireFour s f).fixed = s.fixed := by simp [State.retireFour]
@[simp] theorem State.substitute_fixed (s : State) (c : Nat) :
    (State.substitute s c).fixed = s.fixed := by simp [State.substitute]
@[simp] theorem State.pdLose_fixed (s : State) (n : Nat) :
    (State.pdLose s n).fixed = s.fixed := by simp [State.pdLose]
@[simp] theorem State.fourPower_fixed (s : State) (f : Nat) (on : Bool) :
    (State.fourPower s f on).fixed = s.fixed := by simp [State.fourPower]
@[simp] theorem State.loadStore_fixed (s : State) (u : Nat) :
    (State.loadStore s u).fixed = s.fixed := by simp [State.loadStore]
@[simp] theorem State.ucsBad_fixed (s : State) (u : Nat) (a : Nat) (real : Bool) :
    (State.ucsBad s u a real).fixed = s.fixed := by simp [State.ucsBad]
@[simp] theorem State.uFetch_fixed (s : State) (u : Nat) (a : Nat) :
    (State.uFetch s u a).1.fixed = s.fixed := by unfold State.uFetch; simp only []; (repeat' split) <;> simp [*]
@[simp] theorem State.sumWord_fixed (s : State) (u : Nat) (a : Nat) :
    (State.sumWord s u a).1.fixed = s.fixed := by simp [State.sumWord]
@[simp] theorem State.loadChecked_fixed (s : State) (u : Nat) :
    (State.loadChecked s u).fixed = s.fixed := by simp [State.loadChecked]
@[simp] theorem State.loadRun_fixed (s : State) (us : List Nat) :
    (State.loadRun s us).fixed = s.fixed := by simp [State.loadRun]
@[simp] theorem State.seatRebuild_fixed (s : State) (c : Nat) :
    (State.seatRebuild s c).fixed = s.fixed := by simp [State.seatRebuild]
theorem execCrewOn_fixed (c : Fin 4) (s : State) :
    ∀ s1, execCrewOn c s = .next s1 → s1.fixed = s.fixed := by
  intro s1 ht; unfold execCrewOn at ht; dsimp only at ht; injection ht with ht; subst ht
  (repeat' split) <;> simp
theorem execCrewOff_fixed (c : Fin 4) (s : State) :
    ∀ s1, execCrewOff c s = .next s1 → s1.fixed = s.fixed := by intro s1 ht; simp only [execCrewOff, Host.Outcome.next.injEq] at ht; subst ht; simp

/-! ## Feeds -/

@[simp] theorem State.igmpSync_fixed (s : State) (old : State) :
    (State.igmpSync s old).fixed = s.fixed := by simp [State.igmpSync]
@[simp] theorem State.enqueueJob_fixed (s : State) (n : Nat) (pic : Nat) (row : Nat) (reg : Nat) :
    (State.enqueueJob s n pic row reg).fixed = s.fixed := by simp [State.enqueueJob]
@[simp] theorem State.enqueueBand_fixed (s : State) (n : Nat) (pic : Nat) (b : Nat) :
    (State.enqueueBand s n pic b).fixed = s.fixed := by simp [State.enqueueBand]
@[simp] theorem State.enqueueWhole_fixed (s : State) (n : Nat) (pic : Nat) (b : Nat) :
    (State.enqueueWhole s n pic b).fixed = s.fixed := by simp [State.enqueueWhole]
@[simp] theorem State.fill_fixed (s : State) (f : Nat) (n : Nat) (pic : Nat) :
    (State.fill s f n pic).fixed = s.fixed := by unfold State.fill; simp only []; (repeat' split) <;> simp [*]
@[simp] theorem State.stripAdd_fixed (s : State) (n : Nat) (pic : Nat) (b : Nat) (l : List Smp) :
    (State.stripAdd s n pic b l).fixed = s.fixed := by simp [State.stripAdd]
@[simp] theorem State.stripTake_fixed (s : State) (n : Nat) (pic : Nat) (b : Nat) (gone : Nat) :
    (State.stripTake s n pic b gone).fixed = s.fixed := by simp [State.stripTake]
@[simp] theorem State.fillLine_fixed (s : State) (f : Nat) (n : Nat) (pic : Nat) (b : Nat) (p : FeedP) (l : Nat) :
    (State.fillLine s f n pic b p l).fixed = s.fixed := by simp [State.fillLine]
@[simp] theorem State.fillBand_fixed (s : State) (n : Nat) (pic : Nat) (b : Nat) :
    (State.fillBand s n pic b).fixed = s.fixed := by simp [State.fillBand]
@[simp] theorem State.feedLine_fixed (s : State) (f : Nat) (n : Nat) (pic : Nat) (l : Nat) (smps : List Smp) :
    (State.feedLine s f n pic l smps).fixed = s.fixed := by simp [State.feedLine]
@[simp] theorem State.feedSeg_fixed (s : State) (f : Nat) (n : Nat) (pic : Nat) (g : Nat × Nat × Nat × List (Nat × Nat × Nat × Nat)) :
    (State.feedSeg s f n pic g).fixed = s.fixed := by simp [State.feedSeg]
@[simp] theorem State.feedPacket_fixed (s : State) (f : Nat) (ts : BitVec 32) (segs : List (Nat × Nat × Nat × List (Nat × Nat × Nat × Nat))) :
    (State.feedPacket s f ts segs).fixed = s.fixed := by unfold State.feedPacket; simp only []; (repeat' split) <;> simp [*]
@[simp] theorem State.lookAhead_fixed (s : State) (n : Nat) (pic : Nat) :
    (State.lookAhead s n pic).fixed = s.fixed := by simp [State.lookAhead]
theorem execSlotFree_fixed (n : Fin 128) (pic : Nat) (b : Nat) (s : State) :
    ∀ s1, execSlotFree n pic b s = .next s1 → s1.fixed = s.fixed := by
  intro s1 ht; unfold execSlotFree at ht; dsimp only at ht; injection ht with ht; subst ht
  (repeat' split) <;> simp
theorem execFeedCut_fixed (n : Fin 128) (pic : Nat) (b : Nat) (s : State) :
    ∀ s1, execFeedCut n pic b s = .next s1 → s1.fixed = s.fixed := by intro s1 ht; simp only [execFeedCut, Host.Outcome.next.injEq] at ht; subst ht; simp

/-! ## Jobs -/

@[simp] theorem State.keyRequest_fixed (s : State) (n : Nat) :
    (State.keyRequest s n).1.fixed = s.fixed := by simp [State.keyRequest]
@[simp] theorem State.keyFrom_fixed (s : State) (n : Nat) (bit : Nat) :
    (State.keyFrom s n bit).fixed = s.fixed := by simp [State.keyFrom]
@[simp] theorem State.decReport_fixed (s : State) (n : Nat) (pic : Nat) (kind : Nat) :
    (State.decReport s n pic kind).fixed = s.fixed := by unfold State.decReport; (repeat' split) <;> simp
@[simp] theorem State.sendPli_fixed (s : State) (n : Nat) (pic : Nat) :
    (State.sendPli s n pic).fixed = s.fixed := by simp [State.sendPli]
@[simp] theorem State.concealReport_fixed (s : State) (n : Nat) (pic : Nat) (loss : Bool) :
    (State.concealReport s n pic loss).fixed = s.fixed := by simp [State.concealReport]
@[simp] theorem State.readConceal_fixed (s : State) (n : Nat) :
    (State.readConceal s n).fixed = s.fixed := by simp [State.readConceal]
@[simp] theorem State.moveConceal_fixed (s : State) (n : Nat) (i : Nat) :
    (State.moveConceal s n i).fixed = s.fixed := by unfold State.moveConceal; (repeat' split) <;> simp
@[simp] theorem State.setMarks_fixed (s : State) (n : Nat) (marks : List (Nat × Bool)) :
    (State.setMarks s n marks).fixed = s.fixed := by unfold State.setMarks; refine foldl_fixed _ (fun s x => ?_) _ _; (try dsimp only); (repeat' split) <;> simp [*]
@[simp] theorem State.dropMarks_fixed (s : State) (n : Nat) (pic : Nat) (marks : List (Nat × Bool)) :
    (State.dropMarks s n pic marks).fixed = s.fixed := by unfold State.dropMarks; refine foldl_fixed _ (fun s x => ?_) _ _; (try dsimp only); (repeat' split) <;> simp [*]
@[simp] theorem State.statOut_fixed (s : State) (n : Nat) (body : Nat) :
    (State.statOut s n body).fixed = s.fixed := by simp [State.statOut]
@[simp] theorem State.popDone_fixed (s : State) (n : Nat) :
    (State.popDone s n).fixed = s.fixed := by simp [State.popDone]
@[simp] theorem State.lateJob_fixed (s : State) (c : Nat) (n : Nat) (pic : Nat) (row : Nat) :
    (State.lateJob s c n pic row).fixed = s.fixed := by simp [State.lateJob]
@[simp] theorem State.subSlice_fixed (s : State) (n : Nat) (pic : Nat) (reg : Nat) (bytes : Nat) :
    (State.subSlice s n pic reg bytes).fixed = s.fixed := by simp [State.subSlice]
@[simp] theorem State.subPicture_fixed (s : State) (n : Nat) (pic : Nat) :
    (State.subPicture s n pic).fixed = s.fixed := by unfold State.subPicture; refine foldl_fixed _ (fun s x => ?_) _ _; (try dsimp only); (repeat' split) <;> simp [*]
@[simp] theorem State.pictureDone_fixed (s : State) (n : Nat) (pic : Nat) :
    (State.pictureDone s n pic).fixed = s.fixed := by unfold State.pictureDone; simp only []; (repeat' split) <;> simp [*]
@[simp] theorem State.encodeDone_fixed (s : State) (r : RunS) (bytes : Nat) :
    (State.encodeDone s r bytes).fixed = s.fixed := by unfold State.encodeDone; simp only []; (repeat' split) <;> simp [*]
@[simp] theorem State.concealWrite_fixed (s : State) (j : Job) (k : Nat) :
    (State.concealWrite s j k).fixed = s.fixed := by unfold State.concealWrite; simp only []; (repeat' split) <;> simp [*]
@[simp] theorem State.decodeDone_fixed (s : State) (j : Job) (bins : Nat) (bytes : Nat) (concealed : Nat) (far : Bool) :
    (State.decodeDone s j bins bytes concealed far).fixed = s.fixed := by simp [State.decodeDone]
@[simp] theorem State.completeJob_fixed (s : State) (r : RunS) (lc : Nat) (bytes : Nat) (concealed : Nat) (far : Bool) :
    (State.completeJob s r lc bytes concealed far).fixed = s.fixed := by unfold State.completeJob; simp only []; (repeat' split) <;> simp [*]
theorem execJobComplete_fixed (u : Fin 144) (lc : Nat) (bytes : Nat) (concealed : Nat × Bool) (s : State) :
    ∀ s1, execJobComplete u lc bytes concealed s = .next s1 → s1.fixed = s.fixed := by intro s1 ht; unfold execJobComplete at ht; simp only [Host.Outcome.next.injEq] at ht; subst ht; (repeat' split) <;> simp
@[simp] theorem State.pushLine_fixed (s : State) (n : Nat) (pic : Nat) (row : Nat) (g : Nat) (i : Nat) (r : Region) (dl : Inst) (late : List Nat) (last : Bool) :
    (State.pushLine s n pic row g i r dl late last).fixed = s.fixed := by simp [State.pushLine]
@[simp] theorem State.pushRegion_fixed (s : State) (n : Nat) (pic : Nat) (row : Nat) (g : Nat) (r : Region) (dl : Inst) (late : List Nat) :
    (State.pushRegion s n pic row g r dl late).fixed = s.fixed := by simp [State.pushRegion]
@[simp] theorem State.pushBand_fixed (s : State) (n : Nat) (pic : Nat) (row : Nat) (late : List Nat) :
    (State.pushBand s n pic row late).fixed = s.fixed := by simp [State.pushBand]
@[simp] theorem State.formOut_fixed (s : State) (f : Frame) :
    (State.formOut s f).2.fixed = s.fixed := by unfold State.formOut; simp only []; (repeat' split) <;> simp [*]
@[simp] theorem State.keepLines_fixed (s : State) (n : Nat) (pic : Nat) (row : Nat) :
    (State.keepLines s n pic row).fixed = s.fixed := by simp [State.keepLines]
@[simp] theorem State.outputDone_fixed (s : State) (n : Nat) (pic : Nat) :
    (State.outputDone s n pic).fixed = s.fixed := by unfold State.outputDone; (repeat' split) <;> simp
@[simp] theorem State.lateOut_fixed (s : State) (n : Nat) (pic : Nat) (row : Nat) :
    (State.lateOut s n pic row).fixed = s.fixed := by simp [State.lateOut]
@[simp] theorem State.raiseStream_fixed (s : State) (n : Nat) :
    (State.raiseStream s n).fixed = s.fixed := by simp [State.raiseStream]
@[simp] theorem State.lateRow_fixed (s : State) (n : Nat) (pic : Nat) (row : Nat) :
    (State.lateRow s n pic row).fixed = s.fixed := by simp [State.lateRow]
theorem execRowDeadline_fixed (n : Fin 128) (pic : Nat) (row : Nat) (s : State) :
    ∀ s1, execRowDeadline n pic row s = .next s1 → s1.fixed = s.fixed := by intro s1 ht; simp only [execRowDeadline, Host.Outcome.next.injEq] at ht; subst ht; simp

/-! ## Picture -/

@[simp] theorem State.recordPut_fixed (s : State) (n : Nat) (crews : List Nat) (r : Record) :
    (State.recordPut s n crews r).fixed = s.fixed := by unfold State.recordPut; refine foldl_fixed _ (fun s x => ?_) _ _; (try dsimp only); (repeat' split) <;> simp [*]
@[simp] theorem State.recordGet_fixed (s : State) (c : Nat) (n : Nat) (m : Nat) :
    (State.recordGet s c n m).1.fixed = s.fixed := by unfold State.recordGet; (repeat' split) <;> simp
theorem execPictureRecordStage_fixed (n : Fin 128) (s : State) :
    ∀ s1, execPictureRecordStage n s = .next s1 → s1.fixed = s.fixed := by intro s1 ht; simp only [execPictureRecordStage, Host.Outcome.next.injEq] at ht; subst ht; simp
@[simp] theorem State.dropContexts_fixed (s : State) (n : Nat) :
    (State.dropContexts s n).fixed = s.fixed := by simp [State.dropContexts]
@[simp] theorem State.setSwitch_fixed (s : State) (n : Nat) :
    (State.setSwitch s n).fixed = s.fixed := by unfold State.setSwitch; simp only []; (repeat' split) <;> simp [*]
@[simp] theorem State.showCur_fixed (s : State) (n : Nat) (m : Nat) (crews : List Nat) :
    (State.showCur s n m crews).fixed = s.fixed := by unfold State.showCur; exact foldl_fixed _ (fun s c => by split <;> simp) _ _
@[simp] theorem State.recordsGet_fixed (s : State) (n : Nat) (m : Nat) (crews : List Nat) :
    (State.recordsGet s n m crews).1.fixed = s.fixed := by unfold State.recordsGet; exact foldl_fst_fixed _ (fun a c => by simp) _ _
@[simp] theorem State.switchRecord_fixed (s : State) (n : Nat) (m : Nat) :
    (State.switchRecord s n m).1.fixed = s.fixed := by unfold State.switchRecord; simp only []; (repeat' split) <;> simp [*]
@[simp] theorem State.budget_fixed (s : State) (n : Nat) (p : Pic) :
    (State.budget s n p).1.fixed = s.fixed := by simp [State.budget]
@[simp] theorem State.settleFirst_fixed (s : State) (w : Await) (k : Nat) (status : Nat) (data : Nat) :
    (State.settleFirst s w k status data).fixed = s.fixed := by
  fun_induction State.settleFirst s w k status data <;> simp_all
@[simp] theorem State.setSome_fixed (s : State) (f : RF) (v : Option Nat) :
    (State.setSome s f v).fixed = s.fixed := by unfold State.setSome; (repeat' split) <;> simp
@[simp] theorem State.rateSwitch_fixed (s : State) (n : Nat) (m : Nat) :
    (State.rateSwitch s n m).fixed = s.fixed := by simp [State.rateSwitch]
@[simp] theorem State.feedAfresh_fixed (s : State) (n : Nat) (m : Nat) (f : Nat) :
    (State.feedAfresh s n m f).fixed = s.fixed := by simp [State.feedAfresh]
@[simp] theorem State.mergeAfresh_fixed (s : State) (n : Nat) (f : Nat) :
    (State.mergeAfresh s n f).fixed = s.fixed := by simp [State.mergeAfresh]
@[simp] theorem State.feedAdd_fixed (s : State) (n : Nat) (m : Nat) (p : FeedP) :
    (State.feedAdd s n m p).fixed = s.fixed := by simp [State.feedAdd]
@[simp] theorem State.feedChange_fixed (s : State) (n : Nat) (m : Nat) (c : FeedChange) :
    (State.feedChange s n m c).fixed = s.fixed := by unfold State.feedChange; (repeat' split) <;> simp
@[simp] theorem State.feedPrune_fixed (s : State) (n : Nat) (m : Nat) :
    (State.feedPrune s n m).fixed = s.fixed := by simp [State.feedPrune]
@[simp] theorem State.feedSwitch_fixed (s : State) (n : Nat) (m : Nat) :
    (State.feedSwitch s n m).fixed = s.fixed := by simp [State.feedSwitch]
@[simp] theorem State.subSwitch_fixed (s : State) (n : Nat) (m : Nat) :
    (State.subSwitch s n m).fixed = s.fixed := by simp [State.subSwitch]
@[simp] theorem State.markRefs_fixed (s : State) (n : Nat) (m : Nat) :
    (State.markRefs s n m).fixed = s.fixed := by unfold State.markRefs; simp only []; (repeat' split) <;> simp [*]
@[simp] theorem State.pictureJoin_fixed (s : State) (n : Nat) (pic : Pic) (r : Record) (staged : Bool) :
    (State.pictureJoin s n pic r staged).fixed = s.fixed := by simp [State.pictureJoin]
@[simp] theorem State.refreshShow_fixed (s : State) (n : Nat) (r : Record) :
    (State.refreshShow s n r).fixed = s.fixed := by simp [State.refreshShow]
@[simp] theorem State.paramSwitch_fixed (s : State) (n : Nat) (m : Nat) :
    (State.paramSwitch s n m).fixed = s.fixed := by simp [State.paramSwitch]
@[simp] theorem State.pictureBegin_fixed (s : State) (n : Nat) (m : Nat) (k : Nat) (r : Record) :
    (State.pictureBegin s n m k r).fixed = s.fixed := by simp [State.pictureBegin]
@[simp] theorem State.pictureStart_fixed (s : State) (n : Nat) (k : Nat) :
    (State.pictureStart s n k).fixed = s.fixed := by simp [State.pictureStart]
@[simp] theorem State.streamStroke_fixed (s : State) (n : Nat) (k : Nat) :
    (State.streamStroke s n k).fixed = s.fixed := by simp [State.streamStroke]
theorem execRackSlotTake_fixed (n : Fin 128) (s : State) :
    ∀ s1, execRackSlotTake n s = .next s1 → s1.fixed = s.fixed := by intro s1 ht; unfold execRackSlotTake at ht; simp only [Host.Outcome.next.injEq] at ht; subst ht; (repeat' split) <;> simp
@[simp] theorem State.gateEnter_fixed (s : State) (p : Nat) (i : Nat) (at_ : Nat) (len : Nat) :
    (State.gateEnter s p i at_ len).fixed = s.fixed := by simp [State.gateEnter]
@[simp] theorem State.gateStroke_fixed (s : State) (g : Nat) (at_ : Nat) :
    (State.gateStroke s g at_).fixed = s.fixed := by simp [State.gateStroke]
theorem execStroke_fixed (g : Fin 4) (s : State) :
    ∀ s1, execStroke g s = .next s1 → s1.fixed = s.fixed := by intro s1 ht; simp only [execStroke, Host.Outcome.next.injEq] at ht; subst ht; simp

/-! ## Admission -/

@[simp] theorem State.writeHomes_fixed (s : State) (n : Nat) (h : Homes) :
    (State.writeHomes s n h).fixed = s.fixed := by simp [State.writeHomes]
@[simp] theorem State.capSet_fixed (s : State) (n : Nat) (v : Nat) :
    (State.capSet s n v).fixed = s.fixed := by simp [State.capSet]
@[simp] theorem State.demote_fixed (a_0 : Nat) (a_1 : State) :
    (State.demote a_0 a_1).fixed = a_1.fixed := by
  fun_induction State.demote a_0 a_1 <;> simp_all
@[simp] theorem State.liftCaps_fixed (l : List Nat) (s : State) :
    (State.liftCaps l s).fixed = s.fixed := by
  induction l generalizing s with
  | nil => rfl
  | cons n r ih => unfold State.liftCaps; dsimp only; split <;> simp [ih]
theorem execAdmissionRerun_fixed (homes : List (Fin 128 × Homes)) (s : State) :
    ∀ s1, execAdmissionRerun homes s = .next s1 → s1.fixed = s.fixed := by intro s1 ht; simp only [execAdmissionRerun, Host.Outcome.next.injEq] at ht; subst ht; simp

/-! ## Stream -/

@[simp] theorem State.openRegs_fixed (s : State) (n : Nat) (p : Params) (h : Homes) (x : Bool × Bool) :
    (State.openRegs s n p h x).fixed = s.fixed := by simp [State.openRegs]
@[simp] theorem State.bowChoose_fixed (s : State) (n : Nat) :
    (State.bowChoose s n).fixed = s.fixed := by simp [State.bowChoose]
@[simp] theorem State.openTake_fixed (s : State) (n : Nat) (p : Params) (h : Homes) (x : Bool × Bool) :
    (State.openTake s n p h x).fixed = s.fixed := by unfold State.openTake; simp only []; (repeat' split) <;> simp [*]
@[simp] theorem State.openStream_fixed (s : State) (o : Owed) (n : Nat) (p : Params) (homes : Homes) :
    (State.openStream s o n p homes).fixed = s.fixed := by unfold State.openStream; simp only []; (repeat' split) <;> simp [*]
theorem execStreamOpen_fixed (c : Cmd) (blk : HostRead) (homes : Homes) (s : State) :
    ∀ s1, execStreamOpen c blk homes s = .next s1 → s1.fixed = s.fixed := by intro s1 ht; unfold execStreamOpen at ht; dsimp only at ht; injection ht with ht; subst ht; apply State.begin_fixed; intro s o; (try dsimp only); (repeat' split) <;> simp [*]
theorem execAllocationEnd_fixed (n : Fin 128) (s : State) :
    ∀ s1, execAllocationEnd n s = .next s1 → s1.fixed = s.fixed := by intro s1 ht; simp only [execAllocationEnd, Host.Outcome.next.injEq] at ht; subst ht; simp
theorem execStreamClose_fixed (c : Cmd) (s : State) :
    ∀ s1, execStreamClose c s = .next s1 → s1.fixed = s.fixed := by intro s1 ht; simp only [execStreamClose, Host.Outcome.next.injEq] at ht; subst ht; simp
@[simp] theorem State.subClear_fixed (s : State) (i : Nat) :
    (State.subClear s i).fixed = s.fixed := by simp [State.subClear]
@[simp] theorem State.subEnd_fixed (s : State) (i : Nat) :
    (State.subEnd s i).fixed = s.fixed := by simp [State.subEnd]
theorem execStreamOff_fixed (n : Fin 128) (s : State) :
    ∀ s1, execStreamOff n s = .next s1 → s1.fixed = s.fixed := by intro s1 ht; unfold execStreamOff at ht; simp only [Host.Outcome.next.injEq] at ht; subst ht; (repeat' split) <;> simp
@[simp] theorem State.feedSet_fixed (s : State) (o : Owed) (sub : Nat) (f : FeedP) :
    (State.feedSet s o sub f).fixed = s.fixed := by simp [State.feedSet]
theorem execFeedSetAdd_fixed (c : Cmd) (s : State) :
    ∀ s1, execFeedSetAdd c s = .next s1 → s1.fixed = s.fixed := by intro s1 ht; simp only [execFeedSetAdd, Host.Outcome.next.injEq] at ht; subst ht; simp
theorem execFeedSetChange_fixed (c : Cmd) (s : State) :
    ∀ s1, execFeedSetChange c s = .next s1 → s1.fixed = s.fixed := by intro s1 ht; simp only [execFeedSetChange, Host.Outcome.next.injEq] at ht; subst ht; simp
theorem execFeedSetRemove_fixed (c : Cmd) (s : State) :
    ∀ s1, execFeedSetRemove c s = .next s1 → s1.fixed = s.fixed := by intro s1 ht; simp only [execFeedSetRemove, Host.Outcome.next.injEq] at ht; subst ht; simp
theorem execRateSet_fixed (c : Cmd) (s : State) :
    ∀ s1, execRateSet c s = .next s1 → s1.fixed = s.fixed := by intro s1 ht; unfold execRateSet at ht; dsimp only at ht; injection ht with ht; subst ht; apply State.begin_fixed; intro s o; (try dsimp only); (repeat' split) <;> simp [*]
theorem execKeyReq_fixed (c : Cmd) (s : State) :
    ∀ s1, execKeyReq c s = .next s1 → s1.fixed = s.fixed := by intro s1 ht; unfold execKeyReq at ht; dsimp only at ht; injection ht with ht; subst ht; apply State.begin_fixed; intro s o; (try dsimp only); (repeat' split) <;> simp [*]
theorem execSeiInsert_fixed (c : Cmd) (pay : HostRead) (s : State) :
    ∀ s1, execSeiInsert c pay s = .next s1 → s1.fixed = s.fixed := by intro s1 ht; unfold execSeiInsert at ht; dsimp only at ht; injection ht with ht; subst ht; apply State.begin_fixed; intro s o; (try dsimp only); (repeat' split) <;> simp [*]
theorem execPrioSet_fixed (c : Cmd) (s : State) :
    ∀ s1, execPrioSet c s = .next s1 → s1.fixed = s.fixed := by intro s1 ht; simp only [execPrioSet, Host.Outcome.next.injEq] at ht; subst ht; simp

/-! ## DecodeStream -/

@[simp] theorem State.updDec_fixed (s : State) (n : Nat) (f : DecS → DecS) :
    (State.updDec s n f).fixed = s.fixed := by simp [State.updDec]
@[simp] theorem State.decDrop_fixed (s : State) (n : Nat) (pic : Nat) :
    (State.decDrop s n pic).fixed = s.fixed := by simp [State.decDrop]
@[simp] theorem State.auDrop_fixed (s : State) (n : Nat) (ts : Nat) (pic : Option Nat) :
    (State.auDrop s n ts pic).fixed = s.fixed := by unfold State.auDrop; (repeat' split) <;> simp
@[simp] theorem State.psetError_fixed (s : State) (n : Nat) (pic : Nat) :
    (State.psetError s n pic).fixed = s.fixed := by simp [State.psetError]
@[simp] theorem State.decStart_fixed (s : State) (n : Nat) (pic : Nat) (h : AuHead) :
    (State.decStart s n pic h).fixed = s.fixed := by simp [State.decStart]
@[simp] theorem State.decLayout_fixed (s : State) (n : Nat) (pic : Nat) (h : AuHead) :
    (State.decLayout s n pic h).fixed = s.fixed := by unfold State.decLayout; simp only []; (repeat' split) <;> simp [*]
@[simp] theorem State.decRefs_fixed (s : State) (n : Nat) (pic : Nat) (refs : List Nat) :
    (State.decRefs s n pic refs).fixed = s.fixed := by simp [State.decRefs]
@[simp] theorem State.applyHead_fixed (s : State) (n : Nat) (pic : Nat) (h : AuHead) :
    (State.applyHead s n pic h).fixed = s.fixed := by unfold State.applyHead; simp only []; (repeat' split) <;> simp [*]
@[simp] theorem State.headNow_fixed (s : State) (n : Nat) (pic : Nat) :
    (State.headNow s n pic).fixed = s.fixed := by unfold State.headNow; (repeat' split) <;> simp
@[simp] theorem State.decCommit_fixed (s : State) (n : Nat) (pic : Nat) :
    (State.decCommit s n pic).fixed = s.fixed := by simp [State.decCommit]
@[simp] theorem State.declareGaps_fixed (s : State) (n : Nat) (k : Nat × Nat × Nat) :
    (State.declareGaps s n k).fixed = s.fixed := by simp [State.declareGaps]
@[simp] theorem State.decPacket_fixed (s : State) (n : Nat) (r : RtpIn) (nals : List NalIn) :
    (State.decPacket s n r nals).fixed = s.fixed := by
  unfold State.decPacket; dsimp only; split
  · exact State.auDrop_fixed _ _ _ _
  · split
    · exact State.auDrop_fixed _ _ _ _
    · split
      · exact State.decDrop_fixed _ _ _
      · split
        · exact State.decDrop_fixed _ _ _
        · rw [foldl_fixed _ (fun s k => State.declareGaps_fixed s _ k), State.decCommit_fixed, State.headNow_fixed, State.updDec_fixed]
theorem execDecodeJobRelease_fixed (n : Fin 128) (pic : Nat) (row : Nat) (reg : Nat) (s : State) :
    ∀ s1, execDecodeJobRelease n pic row reg s = .next s1 → s1.fixed = s.fixed := by intro s1 ht; simp only [execDecodeJobRelease, Host.Outcome.next.injEq] at ht; subst ht; simp
@[simp] theorem State.declareLost_fixed (s : State) (n : Nat) (pic : Nat) (row : Nat) (reg : Nat) :
    (State.declareLost s n pic row reg).fixed = s.fixed := by simp [State.declareLost]
@[simp] theorem State.noAccessUnit_fixed (s : State) (n : Nat) (pic : Nat) :
    (State.noAccessUnit s n pic).fixed = s.fixed := by unfold State.noAccessUnit; (repeat' split) <;> simp
theorem execDecodeInputCut_fixed (n : Fin 128) (pic : Nat) (row : Nat) (reg : Nat) (s : State) :
    ∀ s1, execDecodeInputCut n pic row reg s = .next s1 → s1.fixed = s.fixed := by intro s1 ht; simp only [execDecodeInputCut, Host.Outcome.next.injEq] at ht; subst ht; simp
theorem execBowAheadDecode_fixed (n : Fin 128) (bytes : Nat) (wrote : Nat × Nat) (jobs : List (Nat × Nat × Nat)) (s : State) :
    ∀ s1, execBowAheadDecode n bytes wrote jobs s = .next s1 → s1.fixed = s.fixed := by intro s1 ht; unfold execBowAheadDecode at ht; simp only [Host.Outcome.next.injEq] at ht; subst ht; (repeat' split) <;> simp

/-! ## Ports -/

@[simp] theorem State.passPacket_fixed (s : State) (n : Nat) (r : RtpIn) :
    (State.passPacket s n r).fixed = s.fixed := by simp [State.passPacket]
@[simp] theorem State.rxUse_fixed (s : State) (e : Nat × Nat × Flow) (r : RtpIn) (nals : List NalIn) (src : Nat × Nat) :
    (State.rxUse s e r nals src).fixed = s.fixed := by simp [State.rxUse]
@[simp] theorem State.rxDeliver_fixed (s : State) (p : Nat) (e : Nat × Nat × Flow) (r : RtpIn) (nals : List NalIn) (src : Nat × Nat) :
    (State.rxDeliver s p e r nals src).fixed = s.fixed := by unfold State.rxDeliver; simp only []; (repeat' split) <;> simp [*]
@[simp] theorem State.rxRtp_fixed (s : State) (p : Nat) (fl : List (Nat × Nat × Flow)) (u : UdpIn) (nals : List NalIn) :
    (State.rxRtp s p fl u nals).fixed = s.fixed := by unfold State.rxRtp; (repeat' split) <;> simp
@[simp] theorem State.rtcpFb_fixed (s : State) (dst : List (Nat × Nat)) (f : RtcpFb) :
    (State.rtcpFb s dst f).fixed = s.fixed := by unfold State.rtcpFb; (repeat' split) <;> simp
@[simp] theorem State.setPtpBin_fixed (s : State) (p : Nat) (l : List (List Byte)) :
    (State.setPtpBin s p l).fixed = s.fixed := by simp [State.setPtpBin]
@[simp] theorem State.ptpCommit_fixed (s : State) (p : Nat) (e : List Byte) :
    (State.ptpCommit s p e).fixed = s.fixed := by simp [State.ptpCommit]
@[simp] theorem State.ptpReport_fixed (s : State) (domain : Nat) (y : Option PtpSync) :
    (State.ptpReport s domain y).fixed = s.fixed := by unfold State.ptpReport; simp only []; (repeat' split) <;> simp [*]
@[simp] theorem State.arpAnswer_fixed (s : State) (p : Nat) (a : Nat × Nat × Nat) :
    (State.arpAnswer s p a).fixed = s.fixed := by simp [State.arpAnswer]
@[simp] theorem State.igmpAnswer_fixed (s : State) (p : Nat) (q : Option Nat) :
    (State.igmpAnswer s p q).fixed = s.fixed := by unfold State.igmpAnswer; (repeat' split) <;> simp
@[simp] theorem State.rxUdp_fixed (s : State) (p : Nat) (f : RxFrame) :
    (State.rxUdp s p f).fixed = s.fixed := by unfold State.rxUdp; (repeat' split) <;> simp
@[simp] theorem State.rxClass_fixed (s : State) (p : Nat) (f : RxFrame) :
    (State.rxClass s p f).fixed = s.fixed := by unfold State.rxClass; simp only []; (repeat' split) <;> simp [*]
@[simp] theorem State.rxFrame_fixed (s : State) (p : Nat) (f : RxFrame) :
    (State.rxFrame s p f).fixed = s.fixed := by simp [State.rxFrame]
theorem execMediaFrameRx_fixed (p : Fin 64) (f : RxFrame) (s : State) :
    ∀ s1, execMediaFrameRx p f s = .next s1 → s1.fixed = s.fixed := by intro s1 ht; unfold execMediaFrameRx at ht; simp only [Host.Outcome.next.injEq] at ht; subst ht; (repeat' split) <;> simp
@[simp] theorem State.setTsBin_fixed (s : State) (p : Nat) (l : List (Nat × Nat × Nat × Nat)) :
    (State.setTsBin s p l).fixed = s.fixed := by simp [State.setTsBin]
@[simp] theorem State.tsCommit_fixed (s : State) (p : Nat) (e : Nat × Nat × Nat × Nat) :
    (State.tsCommit s p e).fixed = s.fixed := by simp [State.tsCommit]
@[simp] theorem State.emptyBins_fixed (s : State) (p : Nat) :
    (State.emptyBins s p).fixed = s.fixed := by simp [State.emptyBins]
theorem execPtpRxBinRead_fixed (p : Fin 64) (s : State) :
    ∀ s1, execPtpRxBinRead p s = .next s1 → s1.fixed = s.fixed := by intro s1 ht; unfold execPtpRxBinRead at ht; simp only [Host.Outcome.next.injEq] at ht; subst ht; (repeat' split) <;> simp
@[simp] theorem State.ptpTxPut_fixed (s : State) (p : Nat) (data : List Byte) :
    (State.ptpTxPut s p data).fixed = s.fixed := by simp [State.ptpTxPut]
theorem execPtpTxBinWrite_fixed (p : Fin 64) (data : List Byte) (s : State) :
    ∀ s1, execPtpTxBinWrite p data s = .next s1 → s1.fixed = s.fixed := by intro s1 ht; simp only [execPtpTxBinWrite, Host.Outcome.next.injEq] at ht; subst ht; simp
@[simp] theorem State.readTsb_fixed (s : State) (p : Nat) :
    (State.readTsb s p).1.fixed = s.fixed := by unfold State.readTsb; (repeat' split) <;> simp
theorem execTsbIdRead_fixed (w : Who) (p : Fin 64) (s : State) :
    ∀ s1, execTsbIdRead w p s = .next s1 → s1.fixed = s.fixed := by intro s1 ht; simp only [execTsbIdRead, Host.Outcome.next.injEq] at ht; subst ht; simp
theorem execBinPtr_fixed (p : Fin 64) (bin : Nat) (s : State) :
    ∀ s1, execBinPtr p bin s = .next s1 → s1.fixed = s.fixed := by intro s1 ht; unfold execBinPtr at ht; simp only [Host.Outcome.next.injEq] at ht; subst ht; (repeat' split) <;> simp
@[simp] theorem State.portStateWrite_fixed (s : State) (p : Nat) (d : Word) :
    (State.portStateWrite s p d).fixed = s.fixed := by simp [State.portStateWrite]
theorem execPortEnableReq_fixed (w : Who) (p : Fin 64) (d : Word) (s : State) :
    ∀ s1, execPortEnableReq w p d s = .next s1 → s1.fixed = s.fixed := by intro s1 ht; simp only [execPortEnableReq, Host.Outcome.next.injEq] at ht; subst ht; simp
theorem execPortDisableReq_fixed (w : Who) (p : Fin 64) (d : Word) (s : State) :
    ∀ s1, execPortDisableReq w p d s = .next s1 → s1.fixed = s.fixed := by intro s1 ht; simp only [execPortDisableReq, Host.Outcome.next.injEq] at ht; subst ht; simp
theorem execPortOn_fixed (p : Fin 64) (s : State) :
    ∀ s1, execPortOn p s = .next s1 → s1.fixed = s.fixed := by intro s1 ht; simp only [execPortOn, Host.Outcome.next.injEq] at ht; subst ht; simp
theorem execPortOff_fixed (p : Fin 64) (s : State) :
    ∀ s1, execPortOff p s = .next s1 → s1.fixed = s.fixed := by intro s1 ht; simp only [execPortOff, Host.Outcome.next.injEq] at ht; subst ht; simp

/-! ## Egress -/

@[simp] theorem State.setShaper_fixed (s : State) (k : Nat) (v : ShaperS) :
    (State.setShaper s k v).fixed = s.fixed := by simp [State.setShaper]
@[simp] theorem State.charge_fixed (s : State) (k : Nat) (wire : Nat) :
    (State.charge s k wire).fixed = s.fixed := by simp [State.charge]
@[simp] theorem State.refill_fixed (s : State) (k : Nat) (rate : Nat) (burst : Nat) (mfs : Nat) (us : Nat) :
    (State.refill s k rate burst mfs us).fixed = s.fixed := by simp [State.refill]
@[simp] theorem State.svcTake_fixed (s : State) (q : Nat) (v : List Nat) :
    (State.svcTake s q v).fixed = s.fixed := by simp [State.svcTake]
@[simp] theorem State.svcSwitch_fixed (s : State) :
    (State.svcSwitch s).fixed = s.fixed := by
  unfold State.svcSwitch
  exact foldl_fixed _ (fun s o => by split <;> simp) _ _
theorem execShaperRefill_fixed (s : State) :
    ∀ s1, execShaperRefill s = .next s1 → s1.fixed = s.fixed := by intro s1 ht; simp only [execShaperRefill, Host.Outcome.next.injEq] at ht; subst ht; simp
@[simp] theorem State.frameGone_fixed (s : State) (f : Frame) :
    (State.frameGone s f).fixed = s.fixed := by unfold State.frameGone; (repeat' split) <;> simp
@[simp] theorem State.takeFrame_fixed (s : State) (p : Nat) (f : Frame) :
    (State.takeFrame s p f).fixed = s.fixed := by simp [State.takeFrame]
@[simp] theorem State.dropOversize_fixed (a_0 : Nat) (a_1 : Nat) (a_2 : State) :
    (State.dropOversize a_0 a_1 a_2).fixed = a_2.fixed := by
  induction a_0 generalizing a_2 with
  | zero => rfl
  | succ k ih =>
    unfold State.dropOversize; split
    · rfl
    · dsimp only; rw [ih]; split <;> split <;> simp
@[simp] theorem State.dropStale_fixed (s : State) (p : Nat) :
    (State.dropStale s p).fixed = s.fixed := by simp [State.dropStale]
theorem execFrameStale_fixed (p : Fin 64) (s : State) :
    ∀ s1, execFrameStale p s = .next s1 → s1.fixed = s.fixed := by intro s1 ht; simp only [execFrameStale, Host.Outcome.next.injEq] at ht; subst ht; simp
@[simp] theorem State.ptpLeave_fixed (s : State) (p : Nat) (f : Frame) :
    (State.ptpLeave s p f).2.fixed = s.fixed := by unfold State.ptpLeave; (repeat' split) <;> simp
@[simp] theorem State.frameBytes_fixed (s : State) (f : Frame) (h : NetHead) :
    (State.frameBytes s f h).2.fixed = s.fixed := by simp [State.frameBytes]
@[simp] theorem State.sendOut_fixed (s : State) (p : Nat) (o : Out) (bytes : State → List Byte × State)
    (h : ∀ s, (bytes s).2.fixed = s.fixed) :
    (State.sendOut s p o bytes).fixed = s.fixed := by
  unfold State.sendOut; dsimp only; (repeat' split) <;> simp [h]
@[simp] theorem State.startFrame_fixed (s : State) (p : Nat) (f : Frame) :
    (State.startFrame s p f).fixed = s.fixed := by simp [State.startFrame]
theorem execEgressFrameStart_fixed (p : Fin 64) (s : State) :
    ∀ s1, execEgressFrameStart p s = .next s1 → s1.fixed = s.fixed := by intro s1 ht; unfold execEgressFrameStart at ht; simp only [Host.Outcome.next.injEq] at ht; subst ht; (repeat' split) <;> simp
theorem execGateEntry_fixed (p : Fin 64) (s : State) :
    ∀ s1, execGateEntry p s = .next s1 → s1.fixed = s.fixed := by intro s1 ht; unfold execGateEntry at ht; simp only [Host.Outcome.next.injEq] at ht; subst ht; (repeat' split) <;> simp
@[simp] theorem State.takeOver_fixed (s : State) (p : Nat) (at_ : Nat) (data : Nat) :
    (State.takeOver s p at_ data).fixed = s.fixed := by simp [State.takeOver]
theorem execGateTakeover_fixed (p : Fin 64) (s : State) :
    ∀ s1, execGateTakeover p s = .next s1 → s1.fixed = s.fixed := by intro s1 ht; unfold execGateTakeover at ht; simp only [Host.Outcome.next.injEq] at ht; subst ht; (repeat' split) <;> simp
@[simp] theorem State.armGate_fixed (s : State) (p : Nat) :
    (State.armGate s p).fixed = s.fixed := by simp [State.armGate]
@[simp] theorem State.cancelGate_fixed (s : State) (p : Nat) :
    (State.cancelGate s p).fixed = s.fixed := by simp [State.cancelGate]
@[simp] theorem State.gctlWrite_fixed (s : State) (p : Nat) (d : Word) :
    (State.gctlWrite s p d).fixed = s.fixed := by simp [State.gctlWrite]
theorem execGateArm_fixed (w : Who) (p : Fin 64) (d : Word) (s : State) :
    ∀ s1, execGateArm w p d s = .next s1 → s1.fixed = s.fixed := by intro s1 ht; simp only [execGateArm, Host.Outcome.next.injEq] at ht; subst ht; simp
@[simp] theorem State.gateWrite_fixed (s : State) (p : Nat) (a : Nat) (d : Word) :
    (State.gateWrite s p a d).fixed = s.fixed := by simp [State.gateWrite]
@[simp] theorem State.beginGate_fixed (s : State) (c : Cmd) (code : Nat) (k : Nat → State → Owed → State) (h3 : ∀ x0 x1 x2, (k x0 x1 x2).fixed = x1.fixed) :
    (State.beginGate s c code k).fixed = s.fixed := by unfold State.beginGate; exact State.beginFunc_fixed _ _ _ _ _ _ _ (h3 _)
theorem execGateEntrySet_fixed (c : Cmd) (s : State) :
    ∀ s1, execGateEntrySet c s = .next s1 → s1.fixed = s.fixed := by intro s1 ht; simp only [execGateEntrySet, Host.Outcome.next.injEq] at ht; subst ht; simp
theorem execGateListSet_fixed (c : Cmd) (s : State) :
    ∀ s1, execGateListSet c s = .next s1 → s1.fixed = s.fixed := by intro s1 ht; simp only [execGateListSet, Host.Outcome.next.injEq] at ht; subst ht; simp
theorem execGateArmSet_fixed (c : Cmd) (s : State) :
    ∀ s1, execGateArmSet c s = .next s1 → s1.fixed = s.fixed := by intro s1 ht; simp only [execGateArmSet, Host.Outcome.next.injEq] at ht; subst ht; simp
theorem execGateCancel_fixed (c : Cmd) (s : State) :
    ∀ s1, execGateCancel c s = .next s1 → s1.fixed = s.fixed := by intro s1 ht; simp only [execGateCancel, Host.Outcome.next.injEq] at ht; subst ht; simp

/-! ## Subs -/

@[simp] theorem State.subTake_fixed (s : State) (i : Nat) (n : Nat) (d : Desc) :
    (State.subTake s i n d).fixed = s.fixed := by simp [State.subTake]
theorem execSubOpen_fixed (c : Cmd) (s : State) :
    ∀ s1, execSubOpen c s = .next s1 → s1.fixed = s.fixed := by intro s1 ht; simp only [execSubOpen, Host.Outcome.next.injEq] at ht; subst ht; simp
theorem execSubClose_fixed (c : Cmd) (s : State) :
    ∀ s1, execSubClose c s = .next s1 → s1.fixed = s.fixed := by intro s1 ht; unfold execSubClose at ht; dsimp only at ht; injection ht with ht; subst ht; apply State.begin_fixed; intro s o; (try dsimp only); (repeat' split) <;> simp [*]
theorem execSubOff_fixed (i : Fin 4096) (s : State) :
    ∀ s1, execSubOff i s = .next s1 → s1.fixed = s.fixed := by intro s1 ht; unfold execSubOff at ht; simp only [Host.Outcome.next.injEq] at ht; subst ht; (repeat' split) <;> simp
theorem execSvcSet_fixed (c : Cmd) (s : State) :
    ∀ s1, execSvcSet c s = .next s1 → s1.fixed = s.fixed := by intro s1 ht; simp only [execSvcSet, Host.Outcome.next.injEq] at ht; subst ht; simp

/-! ## Micro -/

@[simp] theorem State.uDrop_fixed (s : State) (u : Nat) :
    (State.uDrop s u).fixed = s.fixed := by simp [State.uDrop]
@[simp] theorem State.doubleTrap_fixed (s : State) (u : Nat) :
    (State.doubleTrap s u).fixed = s.fixed := by simp [State.doubleTrap]
@[simp] theorem State.uRaise_fixed (s : State) (u : Nat) (c : Nat) :
    (State.uRaise s u c).fixed = s.fixed := by simp [State.uRaise]
@[simp] theorem State.retireIfDue_fixed (s : State) (u : Nat) :
    (State.retireIfDue s u).fixed = s.fixed := by simp [State.retireIfDue]
@[simp] theorem State.uCtuWord_fixed (s : State) (u : Nat) :
    (State.uCtuWord s u).fixed = s.fixed := by
  unfold State.uCtuWord; dsimp only; split
  · simp
  · split
    · simp
    · simp only [ite_fixed, State.sendPreempt_fixed, ite_self]
      split <;> simp
@[simp] theorem State.uEndJob_fixed (s : State) (u : Nat) :
    (State.uEndJob s u).fixed = s.fixed := by unfold State.uEndJob; simp only []; (repeat' split) <;> simp [*]
@[simp] theorem State.uRestore_fixed (s : State) (u : Nat) :
    (State.uRestore s u).1.fixed = s.fixed := by simp [State.uRestore]
@[simp] theorem State.srchLoad_fixed (s : State) (u : Nat) (ref : Nat) (range : Nat) :
    (State.srchLoad s u ref range).fixed = s.fixed := by unfold State.srchLoad; (repeat' split) <;> simp
@[simp] theorem State.recBack_fixed (s : State) (u : Nat) :
    (State.recBack s u).fixed = s.fixed := by unfold State.recBack; (repeat' split) <;> simp
@[simp] theorem State.recWrite_fixed (s : State) (u : Nat) (plane : Nat) (c : UCond) :
    (State.recWrite s u plane c).fixed = s.fixed := by
  unfold State.recWrite; split <;> rfl
@[simp] theorem State.uDecide_fixed (s : State) (u : Nat) (w : Nat) (c : UCond) :
    (State.uDecide s u w c).fixed = s.fixed := by unfold State.uDecide; (repeat' split) <;> simp
@[simp] theorem State.ctuEnd_fixed (s : State) (u : Nat) (c : UCond) :
    (State.ctuEnd s u c).fixed = s.fixed := by unfold State.ctuEnd; simp only []; (repeat' split) <;> simp [*]
@[simp] theorem State.uBow_fixed (s : State) (u : Nat) (w : Nat) (c : UCond) :
    (State.uBow s u w c).fixed = s.fixed := by unfold State.uBow; (repeat' split) <;> simp
@[simp] theorem State.uUnits_fixed (s : State) (u : Nat) (w : Nat) (c : UCond) :
    (State.uUnits s u w c).fixed = s.fixed := by simp [State.uUnits]
@[simp] theorem State.uData_fixed (s : State) (u : Nat) (w : Nat) (cs : Nat) (no : List (Nat × Nat × Nat)) (c : UCond) :
    (State.uData s u w cs no c).fixed = s.fixed := by simp [State.uData]
@[simp] theorem State.uNext_fixed (s : State) (u : Nat) (w : Nat) (cs : Nat) :
    (State.uNext s u w cs).fixed = s.fixed := by unfold State.uNext; (repeat' split) <;> simp
@[simp] theorem State.uLoopField_fixed (s : State) (u : Nat) (w : Nat) (ctus : Nat) :
    (State.uLoopField s u w ctus).fixed = s.fixed := by simp [State.uLoopField]
@[simp] theorem State.uComplete_fixed (s : State) (u : Nat) (w : Nat) (cs : Nat) (no : List (Nat × Nat × Nat)) (c : UCond) :
    (State.uComplete s u w cs no c).fixed = s.fixed := by unfold State.uComplete; (repeat' split) <;> simp
@[simp] theorem State.uExec_fixed (s : State) (u : Nat) (code : Nat) (c : UCond) :
    (State.uExec s u code c).fixed = s.fixed := by simp [State.uExec]
theorem execUCont_fixed (u : Fin 144) (c : UCond) (s : State) :
    ∀ s1, execUCont u c s = .next s1 → s1.fixed = s.fixed := by intro s1 ht; simp only [execUCont, Host.Outcome.next.injEq] at ht; subst ht; simp
theorem execUGoto_fixed (u : Fin 144) (c : UCond) (s : State) :
    ∀ s1, execUGoto u c s = .next s1 → s1.fixed = s.fixed := by intro s1 ht; simp only [execUGoto, Host.Outcome.next.injEq] at ht; subst ht; simp
theorem execUCase_fixed (u : Fin 144) (c : UCond) (s : State) :
    ∀ s1, execUCase u c s = .next s1 → s1.fixed = s.fixed := by intro s1 ht; simp only [execUCase, Host.Outcome.next.injEq] at ht; subst ht; simp
theorem execUCall_fixed (u : Fin 144) (c : UCond) (s : State) :
    ∀ s1, execUCall u c s = .next s1 → s1.fixed = s.fixed := by intro s1 ht; simp only [execUCall, Host.Outcome.next.injEq] at ht; subst ht; simp
theorem execURet_fixed (u : Fin 144) (c : UCond) (s : State) :
    ∀ s1, execURet u c s = .next s1 → s1.fixed = s.fixed := by intro s1 ht; simp only [execURet, Host.Outcome.next.injEq] at ht; subst ht; simp
theorem execULoop_fixed (u : Fin 144) (c : UCond) (s : State) :
    ∀ s1, execULoop u c s = .next s1 → s1.fixed = s.fixed := by intro s1 ht; simp only [execULoop, Host.Outcome.next.injEq] at ht; subst ht; simp
theorem execUCtu_fixed (u : Fin 144) (c : UCond) (s : State) :
    ∀ s1, execUCtu u c s = .next s1 → s1.fixed = s.fixed := by intro s1 ht; simp only [execUCtu, Host.Outcome.next.injEq] at ht; subst ht; simp
theorem execUEndj_fixed (u : Fin 144) (c : UCond) (s : State) :
    ∀ s1, execUEndj u c s = .next s1 → s1.fixed = s.fixed := by intro s1 ht; simp only [execUEndj, Host.Outcome.next.injEq] at ht; subst ht; simp
theorem execUAbort_fixed (u : Fin 144) (c : UCond) (s : State) :
    ∀ s1, execUAbort u c s = .next s1 → s1.fixed = s.fixed := by intro s1 ht; simp only [execUAbort, Host.Outcome.next.injEq] at ht; subst ht; simp
theorem execUMret_fixed (u : Fin 144) (c : UCond) (s : State) :
    ∀ s1, execUMret u c s = .next s1 → s1.fixed = s.fixed := by intro s1 ht; simp only [execUMret, Host.Outcome.next.injEq] at ht; subst ht; simp
theorem execUIdle_fixed (u : Fin 144) (c : UCond) (s : State) :
    ∀ s1, execUIdle u c s = .next s1 → s1.fixed = s.fixed := by intro s1 ht; simp only [execUIdle, Host.Outcome.next.injEq] at ht; subst ht; simp
theorem execTrapEntry_fixed (u : Fin 144) (s : State) :
    ∀ s1, execTrapEntry u s = .next s1 → s1.fixed = s.fixed := by intro s1 ht; simp only [execTrapEntry, Host.Outcome.next.injEq] at ht; subst ht; simp
theorem execUcWaitTo_fixed (u : Fin 144) (s : State) :
    ∀ s1, execUcWaitTo u s = .next s1 → s1.fixed = s.fixed := by intro s1 ht; unfold execUcWaitTo at ht; simp only [Host.Outcome.next.injEq] at ht; subst ht; (repeat' split) <;> simp
theorem execPreemptArrive_fixed (u : Fin 144) (s : State) :
    ∀ s1, execPreemptArrive u s = .next s1 → s1.fixed = s.fixed := by intro s1 ht; unfold execPreemptArrive at ht; simp only [Host.Outcome.next.injEq] at ht; subst ht; (repeat' split) <;> simp
@[simp] theorem State.chkTake_fixed (s : State) (group : Nat) (unit : Nat) :
    (State.chkTake s group unit).1.fixed = s.fixed := by simp [State.chkTake]
@[simp] theorem State.chkReport_fixed (s : State) (src : Nat) (kind : Nat) (addr : Nat) (detail : Nat) (real : Bool) (inj : Bool) :
    (State.chkReport s src kind addr detail real inj).fixed = s.fixed := by simp [State.chkReport]
theorem execResidueVerdict_fixed (u : Fin 144) (real : Bool) (unit : Fin 3) (s : State) :
    ∀ s1, execResidueVerdict u real unit s = .next s1 → s1.fixed = s.fixed := by intro s1 ht; simp only [execResidueVerdict, Host.Outcome.next.injEq] at ht; subst ht; simp
theorem execUcsCeWriteback_fixed (u : Fin 144) (a : BitVec 12) (s : State) :
    ∀ s1, execUcsCeWriteback u a s = .next s1 → s1.fixed = s.fixed := by intro s1 ht; simp only [execUcsCeWriteback, Host.Outcome.next.injEq] at ht; subst ht; simp
@[simp] theorem State.ucsCommit_fixed (s : State) (u : Nat) (a : Nat) (w : Nat) :
    (State.ucsCommit s u a w).fixed = s.fixed := by simp [State.ucsCommit]
theorem execUcsWordRepair_fixed (u : Fin 144) (s : State) :
    ∀ s1, execUcsWordRepair u s = .next s1 → s1.fixed = s.fixed := by intro s1 ht; simp only [execUcsWordRepair, Host.Outcome.next.injEq] at ht; subst ht; simp
theorem execSelfTestStart_fixed (u : Fin 144) (s : State) :
    ∀ s1, execSelfTestStart u s = .next s1 → s1.fixed = s.fixed := by intro s1 ht; simp only [execSelfTestStart, Host.Outcome.next.injEq] at ht; subst ht; simp
@[simp] theorem State.ucsLatch_fixed (s : State) (u : Nat) :
    (State.ucsLatch s u).fixed = s.fixed := by simp [State.ucsLatch]
@[simp] theorem State.ucsAddrWrite_fixed (s : State) (u : Nat) (d : Word) :
    (State.ucsAddrWrite s u d).fixed = s.fixed := by simp [State.ucsAddrWrite]
theorem execUcsAddrWrite_fixed (w : Who) (u : Fin 144) (d : Word) (s : State) :
    ∀ s1, execUcsAddrWrite w u d s = .next s1 → s1.fixed = s.fixed := by intro s1 ht; simp only [execUcsAddrWrite, Host.Outcome.next.injEq] at ht; subst ht; simp
@[simp] theorem State.ucsAdvance_fixed (s : State) (u : Nat) :
    (State.ucsAdvance s u).fixed = s.fixed := by simp [State.ucsAdvance]
@[simp] theorem State.ucsDataWrite_fixed (s : State) (u : Nat) (i : Nat) (d : Word) :
    (State.ucsDataWrite s u i d).fixed = s.fixed := by simp [State.ucsDataWrite]
@[simp] theorem State.ucsData4Write_fixed (s : State) (u : Nat) (d : Word) :
    (State.ucsData4Write s u d).fixed = s.fixed := by simp [State.ucsData4Write]
theorem execUcsData4Write_fixed (w : Who) (u : Fin 144) (d : Word) (s : State) :
    ∀ s1, execUcsData4Write w u d s = .next s1 → s1.fixed = s.fixed := by intro s1 ht; simp only [execUcsData4Write, Host.Outcome.next.injEq] at ht; subst ht; simp
@[simp] theorem State.readData4_fixed (s : State) (u : Nat) :
    (State.readData4 s u).1.fixed = s.fixed := by simp [State.readData4]
theorem execUcsData4Read_fixed (w : Who) (u : Fin 144) (s : State) :
    ∀ s1, execUcsData4Read w u s = .next s1 → s1.fixed = s.fixed := by intro s1 ht; simp only [execUcsData4Read, Host.Outcome.next.injEq] at ht; subst ht; simp
@[simp] theorem State.uctlWrite_fixed (s : State) (u : Nat) (d : Word) :
    (State.uctlWrite s u d).fixed = s.fixed := by simp [State.uctlWrite]
theorem execRunWrite_fixed (w : Who) (u : Fin 144) (d : Word) (s : State) :
    ∀ s1, execRunWrite w u d s = .next s1 → s1.fixed = s.fixed := by intro s1 ht; simp only [execRunWrite, Host.Outcome.next.injEq] at ht; subst ht; simp
theorem execTmodeWrite_fixed (w : Who) (u : Fin 144) (d : Word) (s : State) :
    ∀ s1, execTmodeWrite w u d s = .next s1 → s1.fixed = s.fixed := by intro s1 ht; simp only [execTmodeWrite, Host.Outcome.next.injEq] at ht; subst ht; simp
theorem execSumGo_fixed (w : Who) (u : Fin 144) (d : Word) (s : State) :
    ∀ s1, execSumGo w u d s = .next s1 → s1.fixed = s.fixed := by intro s1 ht; simp only [execSumGo, Host.Outcome.next.injEq] at ht; subst ht; simp
theorem execSumDone_fixed (u : Fin 144) (s : State) :
    ∀ s1, execSumDone u s = .next s1 → s1.fixed = s.fixed := by intro s1 ht; simp only [execSumDone, Host.Outcome.next.injEq] at ht; subst ht; simp
@[simp] theorem State.ustartWrite_fixed (s : State) (u : Nat) (d : Word) :
    (State.ustartWrite s u d).fixed = s.fixed := by simp [State.ustartWrite]
theorem execUstartGo_fixed (w : Who) (u : Fin 144) (d : Word) (s : State) :
    ∀ s1, execUstartGo w u d s = .next s1 → s1.fixed = s.fixed := by intro s1 ht; simp only [execUstartGo, Host.Outcome.next.injEq] at ht; subst ht; simp

/-! ## Protect -/

@[simp] theorem State.setScrub_fixed (s : State) (r : Nat) (a : Nat) :
    (State.setScrub s r a).fixed = s.fixed := by simp [State.setScrub]
@[simp] theorem State.scrubEnable_fixed (s : State) (on : Bool) :
    (State.scrubEnable s on).fixed = s.fixed := by unfold State.scrubEnable; simp only []; (repeat' split) <;> simp [*]
theorem execScrubCtlWrite_fixed (w : Who) (d : Word) (s : State) :
    ∀ s1, execScrubCtlWrite w d s = .next s1 → s1.fixed = s.fixed := by intro s1 ht; simp only [execScrubCtlWrite, Host.Outcome.next.injEq] at ht; subst ht; simp
@[simp] theorem State.scrubRngWrite_fixed (s : State) (a : Nat) (d : Word) :
    (State.scrubRngWrite s a d).fixed = s.fixed := by simp [State.scrubRngWrite]
theorem execScrubRead_fixed (s : State) :
    ∀ s1, execScrubRead s = .next s1 → s1.fixed = s.fixed := by intro s1 ht; simp only [execScrubRead, Host.Outcome.next.injEq] at ht; subst ht; simp
@[simp] theorem State.scrubAt_fixed (s : State) (q : Option Nat) :
    (State.scrubAt s q).fixed = s.fixed := by unfold State.scrubAt; (repeat' split) <;> simp
@[simp] theorem State.scrubPass_fixed (s : State) :
    (State.scrubPass s).fixed = s.fixed := by simp [State.scrubPass]
@[simp] theorem State.scrubNext_fixed (s : State) :
    (State.scrubNext s).fixed = s.fixed := by unfold State.scrubNext; dsimp only; (repeat' split) <;> simp only [State.setScrub_fixed, State.scrubAt_fixed, State.scrubPass_fixed]
@[simp] theorem State.writeBack_fixed (s : State) (f : Nat) (a : Nat) (ds : List Nat) :
    (State.writeBack s f a ds).fixed = s.fixed := by simp [State.writeBack]
@[simp] theorem State.scrubGranule_fixed (s : State) (f : Nat) (a : Nat) :
    (State.scrubGranule s f a).fixed = s.fixed := by simp [State.scrubGranule]
theorem execScrubRateSet_fixed (c : Cmd) (s : State) :
    ∀ s1, execScrubRateSet c s = .next s1 → s1.fixed = s.fixed := by intro s1 ht; simp only [execScrubRateSet, Host.Outcome.next.injEq] at ht; subst ht; simp
theorem execScrubEnSet_fixed (c : Cmd) (s : State) :
    ∀ s1, execScrubEnSet c s = .next s1 → s1.fixed = s.fixed := by intro s1 ht; simp only [execScrubEnSet, Host.Outcome.next.injEq] at ht; subst ht; simp
theorem execWalkerRead_fixed (fam : Fin 5) (addr : Nat) (s : State) :
    ∀ s1, execWalkerRead fam addr s = .next s1 → s1.fixed = s.fixed := by intro s1 ht; simp only [execWalkerRead, Host.Outcome.next.injEq] at ht; subst ht; simp
@[simp] theorem State.ownKey_fixed (s : State) (n : Nat) :
    (State.ownKey s n).fixed = s.fixed := by simp [State.ownKey]
@[simp] theorem State.tainted_fixed (s : State) (u : Nat) :
    (State.tainted s u).fixed = s.fixed := by unfold State.tainted; (repeat' split) <;> simp
@[simp] theorem State.larderFail_fixed (s : State) (u : Nat) (a : Nat) :
    (State.larderFail s u a).fixed = s.fixed := by unfold State.larderFail; (repeat' split) <;> simp
@[simp] theorem State.refPoison_fixed (s : State) (u : Nat) :
    (State.refPoison s u).fixed = s.fixed := by unfold State.refPoison; (repeat' split) <;> simp
@[simp] theorem State.packetLost_fixed (s : State) (p : Nat) :
    (State.packetLost s p).fixed = s.fixed := by unfold State.packetLost; (repeat' split) <;> simp
@[simp] theorem State.stagingLost_fixed (s : State) (n : Nat) (pic : Nat) (row : Nat) (reg : Nat) :
    (State.stagingLost s n pic row reg).fixed = s.fixed := by simp [State.stagingLost]
@[simp] theorem State.poisoned_fixed (s : State) (f : Nat) (a : Nat) (r : Reader) :
    (State.poisoned s f a r).fixed = s.fixed := by unfold State.poisoned; (repeat' split) <;> simp
theorem execArrayReadReturn_fixed (fam : Fin 5) (addr : Nat) (r : Reader) (s : State) :
    ∀ s1, execArrayReadReturn fam addr r s = .next s1 → s1.fixed = s.fixed := by intro s1 ht; simp only [execArrayReadReturn, Host.Outcome.next.injEq] at ht; subst ht; simp
@[simp] theorem State.flipCtlWrite_fixed (s : State) (f : Nat) (d : Word) :
    (State.flipCtlWrite s f d).fixed = s.fixed := by simp [State.flipCtlWrite]
theorem execFlipArm_fixed (w : Who) (f : Fin 5) (d : Word) (s : State) :
    ∀ s1, execFlipArm w f d s = .next s1 → s1.fixed = s.fixed := by intro s1 ht; simp only [execFlipArm, Host.Outcome.next.injEq] at ht; subst ht; simp
theorem execFlipClr_fixed (w : Who) (f : Fin 5) (d : Word) (s : State) :
    ∀ s1, execFlipClr w f d s = .next s1 → s1.fixed = s.fixed := by intro s1 ht; simp only [execFlipClr, Host.Outcome.next.injEq] at ht; subst ht; simp
@[simp] theorem State.chkInjWrite_fixed (s : State) (d : Word) :
    (State.chkInjWrite s d).fixed = s.fixed := by simp [State.chkInjWrite]
theorem execChkInjArm_fixed (w : Who) (d : Word) (s : State) :
    ∀ s1, execChkInjArm w d s = .next s1 → s1.fixed = s.fixed := by intro s1 ht; simp only [execChkInjArm, Host.Outcome.next.injEq] at ht; subst ht; simp
@[simp] theorem State.ldrAdvance_fixed (s : State) (c : Nat) :
    (State.ldrAdvance s c).fixed = s.fixed := by simp [State.ldrAdvance]
@[simp] theorem State.ldrFlush_fixed (s : State) (c : Nat) :
    (State.ldrFlush s c).fixed = s.fixed := by unfold State.ldrFlush; (repeat' split) <;> simp
@[simp] theorem State.ldrDataWrite_fixed (s : State) (c : Nat) (d : Word) :
    (State.ldrDataWrite s c d).fixed = s.fixed := by simp [State.ldrDataWrite]
theorem execLdrDataWrite_fixed (w : Who) (c : Fin 4) (d : Word) (s : State) :
    ∀ s1, execLdrDataWrite w c d s = .next s1 → s1.fixed = s.fixed := by intro s1 ht; simp only [execLdrDataWrite, Host.Outcome.next.injEq] at ht; subst ht; simp
@[simp] theorem State.readLdr_fixed (s : State) (c : Nat) :
    (State.readLdr s c).1.fixed = s.fixed := by simp [State.readLdr]
theorem execLdrDataRead_fixed (w : Who) (c : Fin 4) (s : State) :
    ∀ s1, execLdrDataRead w c s = .next s1 → s1.fixed = s.fixed := by intro s1 ht; simp only [execLdrDataRead, Host.Outcome.next.injEq] at ht; subst ht; simp
theorem execSlideCrc_fixed (link : Fin 50) (second : Bool) (real : Bool) (s : State) :
    ∀ s1, execSlideCrc link second real s = .next s1 → s1.fixed = s.fixed := by intro s1 ht; simp only [execSlideCrc, Host.Outcome.next.injEq] at ht; subst ht; simp
theorem execQueuePar_fixed (p : Fin 64) (real : Bool) (s : State) :
    ∀ s1, execQueuePar p real s = .next s1 → s1.fixed = s.fixed := by intro s1 ht; simp only [execQueuePar, Host.Outcome.next.injEq] at ht; subst ht; simp

/-! ## Domains -/

@[simp] theorem State.pdStart_fixed (s : State) (n : Nat) :
    (State.pdStart s n).fixed = s.fixed := by simp [State.pdStart]
@[simp] theorem State.pdRequest_fixed (s : State) (n : Nat) (enable : Bool) :
    (State.pdRequest s n enable).fixed = s.fixed := by simp [State.pdRequest]
@[simp] theorem State.pdNext_fixed (s : State) :
    (State.pdNext s).fixed = s.fixed := by simp [State.pdNext]
@[simp] theorem State.pdWrite_fixed (s : State) (n : Nat) (d : Word) :
    (State.pdWrite s n d).fixed = s.fixed := by simp [State.pdWrite]
theorem execPdEnableReq_fixed (w : Who) (n : Fin 72) (d : Word) (s : State) :
    ∀ s1, execPdEnableReq w n d s = .next s1 → s1.fixed = s.fixed := by intro s1 ht; simp only [execPdEnableReq, Host.Outcome.next.injEq] at ht; subst ht; simp
theorem execPdDisableReq_fixed (w : Who) (n : Fin 72) (d : Word) (s : State) :
    ∀ s1, execPdDisableReq w n d s = .next s1 → s1.fixed = s.fixed := by intro s1 ht; simp only [execPdDisableReq, Host.Outcome.next.injEq] at ht; subst ht; simp
theorem execPdOn_fixed (n : Fin 72) (s : State) :
    ∀ s1, execPdOn n s = .next s1 → s1.fixed = s.fixed := by intro s1 ht; simp only [execPdOn, Host.Outcome.next.injEq] at ht; subst ht; simp
theorem execPdOff_fixed (n : Fin 72) (s : State) :
    ∀ s1, execPdOff n s = .next s1 → s1.fixed = s.fixed := by intro s1 ht; simp only [execPdOff, Host.Outcome.next.injEq] at ht; subst ht; simp

/-! ## Lanes -/

@[simp] theorem State.linkSync_fixed (s : State) (l : Nat) :
    (State.linkSync s l).fixed = s.fixed := by simp [State.linkSync]
@[simp] theorem State.dropLock_fixed (s : State) (l : Nat) :
    (State.dropLock s l).fixed = s.fixed := by simp [State.dropLock]
@[simp] theorem State.laneReport_fixed (s : State) (l : Nat) (seen : Option RF) (kind : Nat) :
    (State.laneReport s l seen kind).fixed = s.fixed := by unfold State.laneReport; (repeat' split) <;> simp
@[simp] theorem State.loseLock_fixed (s : State) (ls : List Nat) :
    (State.loseLock s ls).fixed = s.fixed := by unfold State.loseLock; simp only []; (repeat' split) <;> simp [*]
@[simp] theorem State.eqBusy_fixed (s : State) (l : Nat) :
    (State.eqBusy s l).fixed = s.fixed := by simp [State.eqBusy]
@[simp] theorem State.adaptStart_fixed (s : State) (l : Nat) :
    (State.adaptStart s l).fixed = s.fixed := by simp [State.adaptStart]
@[simp] theorem State.adaptEnd_fixed (s : State) (l : Nat) :
    (State.adaptEnd s l).fixed = s.fixed := by simp [State.adaptEnd]
@[simp] theorem State.trainEnd_fixed (s : State) (l : Nat) :
    (State.trainEnd s l).fixed = s.fixed := by simp [State.trainEnd]
@[simp] theorem State.setAdapt_fixed (s : State) (l : Nat) (m : Nat) :
    (State.setAdapt s l m).fixed = s.fixed := by simp [State.setAdapt]
@[simp] theorem State.setTaps_fixed (s : State) (l : Nat) (pre : Nat) (main : Nat) (post : Nat) :
    (State.setTaps s l pre main post).fixed = s.fixed := by simp [State.setTaps]
@[simp] theorem State.rxeqWrite_fixed (s : State) (l : Nat) (d : Word) :
    (State.rxeqWrite s l d).fixed = s.fixed := by simp [State.rxeqWrite]
@[simp] theorem State.txeqWrite_fixed (s : State) (l : Nat) (d : Word) :
    (State.txeqWrite s l d).fixed = s.fixed := by simp [State.txeqWrite]
@[simp] theorem State.laneDefaults_fixed (s : State) (l : Nat) :
    (State.laneDefaults s l).fixed = s.fixed := by simp [State.laneDefaults]
@[simp] theorem State.negStart_fixed (s : State) (l : Nat) :
    (State.negStart s l).fixed = s.fixed := by simp [State.negStart]
@[simp] theorem State.laneRestart_fixed (s : State) (l : Nat) :
    (State.laneRestart s l).fixed = s.fixed := by simp [State.laneRestart]
theorem execAnDone_fixed (l : Fin 66) (fec : Fin 3) (par : Bool) (s : State) :
    ∀ s1, execAnDone l fec par s = .next s1 → s1.fixed = s.fixed := by intro s1 ht; simp only [execAnDone, Host.Outcome.next.injEq] at ht; subst ht; simp
theorem execTrainDone_fixed (l : Fin 66) (pre : Nat) (main : Nat) (post : Nat) (s : State) :
    ∀ s1, execTrainDone l pre main post s = .next s1 → s1.fixed = s.fixed := by intro s1 ht; simp only [execTrainDone, Host.Outcome.next.injEq] at ht; subst ht; simp
@[simp] theorem State.quadPower_fixed (s : State) (l : Nat) :
    (State.quadPower s l).fixed = s.fixed := by simp [State.quadPower]
@[simp] theorem State.laneRequest_fixed (s : State) (l : Nat) (enable : Bool) :
    (State.laneRequest s l enable).fixed = s.fixed := by simp [State.laneRequest]
@[simp] theorem State.laneStateWrite_fixed (s : State) (l : Nat) (d : Word) :
    (State.laneStateWrite s l d).fixed = s.fixed := by simp [State.laneStateWrite]
@[simp] theorem State.laneCmd_fixed (s : State) (o : Owed) (l : Nat) (enable : Bool) :
    (State.laneCmd s o l enable).fixed = s.fixed := by simp [State.laneCmd]
theorem execLaneEnableReq_fixed (w : Who) (l : Fin 66) (d : Word) (s : State) :
    ∀ s1, execLaneEnableReq w l d s = .next s1 → s1.fixed = s.fixed := by intro s1 ht; simp only [execLaneEnableReq, Host.Outcome.next.injEq] at ht; subst ht; simp
theorem execLaneDisableReq_fixed (w : Who) (l : Fin 66) (d : Word) (s : State) :
    ∀ s1, execLaneDisableReq w l d s = .next s1 → s1.fixed = s.fixed := by intro s1 ht; simp only [execLaneDisableReq, Host.Outcome.next.injEq] at ht; subst ht; simp
theorem execLaneOn_fixed (l : Fin 66) (s : State) :
    ∀ s1, execLaneOn l s = .next s1 → s1.fixed = s.fixed := by intro s1 ht; simp only [execLaneOn, Host.Outcome.next.injEq] at ht; subst ht; simp
@[simp] theorem State.laneDark_fixed (s : State) (l : Nat) :
    (State.laneDark s l).fixed = s.fixed := by simp [State.laneDark]
theorem execLaneOff_fixed (l : Fin 66) (s : State) :
    ∀ s1, execLaneOff l s = .next s1 → s1.fixed = s.fixed := by intro s1 ht; simp only [execLaneOff, Host.Outcome.next.injEq] at ht; subst ht; simp
@[simp] theorem State.qmodeWrite_fixed (s : State) (l : Nat) (d : Word) :
    (State.qmodeWrite s l d).fixed = s.fixed := by simp [State.qmodeWrite]
@[simp] theorem State.sendPattern_fixed (s : State) (l : Nat) :
    (State.sendPattern s l).fixed = s.fixed := by simp [State.sendPattern]
@[simp] theorem State.rawSwitch_fixed (s : State) (l : Nat) (old : Nat) :
    (State.rawSwitch s l old).fixed = s.fixed := by simp [State.rawSwitch]
@[simp] theorem State.laneCfgWrite_fixed (s : State) (l : Nat) (d : Word) :
    (State.laneCfgWrite s l d).fixed = s.fixed := by simp [State.laneCfgWrite]
theorem execQmodeWrite_fixed (w : Who) (l : Fin 66) (d : Word) (s : State) :
    ∀ s1, execQmodeWrite w l d s = .next s1 → s1.fixed = s.fixed := by intro s1 ht; simp only [execQmodeWrite, Host.Outcome.next.injEq] at ht; subst ht; simp
theorem execLaneCfgWrite_fixed (w : Who) (l : Fin 66) (d : Word) (s : State) :
    ∀ s1, execLaneCfgWrite w l d s = .next s1 → s1.fixed = s.fixed := by intro s1 ht; simp only [execLaneCfgWrite, Host.Outcome.next.injEq] at ht; subst ht; simp
theorem execBlModeWrite_fixed (w : Who) (l : Fin 66) (d : Word) (s : State) :
    ∀ s1, execBlModeWrite w l d s = .next s1 → s1.fixed = s.fixed := by intro s1 ht; simp only [execBlModeWrite, Host.Outcome.next.injEq] at ht; subst ht; simp
theorem execLoopbackSet_fixed (w : Who) (l : Fin 66) (d : Word) (s : State) :
    ∀ s1, execLoopbackSet w l d s = .next s1 → s1.fixed = s.fixed := by intro s1 ht; simp only [execLoopbackSet, Host.Outcome.next.injEq] at ht; subst ht; simp
theorem execBlockLock_fixed (l : Fin 66) (slips : Nat) (s : State) :
    ∀ s1, execBlockLock l slips s = .next s1 → s1.fixed = s.fixed := by intro s1 ht; simp only [execBlockLock, Host.Outcome.next.injEq] at ht; subst ht; simp
theorem execLaneBlLoss_fixed (l : Fin 66) (s : State) :
    ∀ s1, execLaneBlLoss l s = .next s1 → s1.fixed = s.fixed := by intro s1 ht; simp only [execLaneBlLoss, Host.Outcome.next.injEq] at ht; subst ht; simp
@[simp] theorem State.slipWrite_fixed (s : State) (l : Nat) (d : Word) :
    (State.slipWrite s l d).fixed = s.fixed := by simp [State.slipWrite]
theorem execSlip_fixed (w : Who) (l : Fin 66) (d : Word) (s : State) :
    ∀ s1, execSlip w l d s = .next s1 → s1.fixed = s.fixed := by intro s1 ht; simp only [execSlip, Host.Outcome.next.injEq] at ht; subst ht; simp
@[simp] theorem State.readBlStat_fixed (s : State) (l : Nat) :
    (State.readBlStat s l).1.fixed = s.fixed := by simp [State.readBlStat]
@[simp] theorem State.dozeRequest_fixed (s : State) (l : Nat) (rx : Bool) (wake : Bool) :
    (State.dozeRequest s l rx wake).fixed = s.fixed := by unfold State.dozeRequest; simp only []; (repeat' split) <;> simp [*]
theorem execLaneLos_fixed (l : Fin 66) (s : State) :
    ∀ s1, execLaneLos l s = .next s1 → s1.fixed = s.fixed := by intro s1 ht; simp only [execLaneLos, Host.Outcome.next.injEq] at ht; subst ht; simp
theorem execLosDeassert_fixed (l : Fin 66) (s : State) :
    ∀ s1, execLosDeassert l s = .next s1 → s1.fixed = s.fixed := by intro s1 ht; simp only [execLosDeassert, Host.Outcome.next.injEq] at ht; subst ht; simp
theorem execLaneLol_fixed (l : Fin 66) (s : State) :
    ∀ s1, execLaneLol l s = .next s1 → s1.fixed = s.fixed := by intro s1 ht; simp only [execLaneLol, Host.Outcome.next.injEq] at ht; subst ht; simp
theorem execLolDeassert_fixed (l : Fin 66) (s : State) :
    ∀ s1, execLolDeassert l s = .next s1 → s1.fixed = s.fixed := by intro s1 ht; simp only [execLolDeassert, Host.Outcome.next.injEq] at ht; subst ht; simp
theorem execFecUcw_fixed (l : Fin 66) (corr : Nat) (uncorr : Nat) (s : State) :
    ∀ s1, execFecUcw l corr uncorr s = .next s1 → s1.fixed = s.fixed := by intro s1 ht; simp only [execFecUcw, Host.Outcome.next.injEq] at ht; subst ht; simp
@[simp] theorem State.dozeWrite_fixed (s : State) (l : Nat) (d : Word) :
    (State.dozeWrite s l d).fixed = s.fixed := by simp [State.dozeWrite]
theorem execTxDoze_fixed (w : Who) (l : Fin 66) (d : Word) (s : State) :
    ∀ s1, execTxDoze w l d s = .next s1 → s1.fixed = s.fixed := by intro s1 ht; simp only [execTxDoze, Host.Outcome.next.injEq] at ht; subst ht; simp
theorem execTxWake_fixed (w : Who) (l : Fin 66) (d : Word) (s : State) :
    ∀ s1, execTxWake w l d s = .next s1 → s1.fixed = s.fixed := by intro s1 ht; simp only [execTxWake, Host.Outcome.next.injEq] at ht; subst ht; simp
theorem execRxDoze_fixed (w : Who) (l : Fin 66) (d : Word) (s : State) :
    ∀ s1, execRxDoze w l d s = .next s1 → s1.fixed = s.fixed := by intro s1 ht; simp only [execRxDoze, Host.Outcome.next.injEq] at ht; subst ht; simp
theorem execRxWake_fixed (w : Who) (l : Fin 66) (d : Word) (s : State) :
    ∀ s1, execRxWake w l d s = .next s1 → s1.fixed = s.fixed := by intro s1 ht; simp only [execRxWake, Host.Outcome.next.injEq] at ht; subst ht; simp
theorem execDozeTransitionDone_fixed (l : Fin 66) (rx : Bool) (s : State) :
    ∀ s1, execDozeTransitionDone l rx s = .next s1 → s1.fixed = s.fixed := by intro s1 ht; unfold execDozeTransitionDone at ht; simp only [Host.Outcome.next.injEq] at ht; subst ht; (repeat' split) <;> simp
theorem execTxeqWrite_fixed (w : Who) (l : Fin 66) (d : Word) (s : State) :
    ∀ s1, execTxeqWrite w l d s = .next s1 → s1.fixed = s.fixed := by intro s1 ht; simp only [execTxeqWrite, Host.Outcome.next.injEq] at ht; subst ht; simp
theorem execAdaptRestart_fixed (w : Who) (l : Fin 66) (d : Word) (s : State) :
    ∀ s1, execAdaptRestart w l d s = .next s1 → s1.fixed = s.fixed := by intro s1 ht; simp only [execAdaptRestart, Host.Outcome.next.injEq] at ht; subst ht; simp
theorem execAdaptDone_fixed (l : Fin 66) (ctle : Fin 16) (s : State) :
    ∀ s1, execAdaptDone l ctle s = .next s1 → s1.fixed = s.fixed := by intro s1 ht; simp only [execAdaptDone, Host.Outcome.next.injEq] at ht; subst ht; simp
@[simp] theorem State.readEqStat_fixed (s : State) (l : Nat) :
    (State.readEqStat s l).1.fixed = s.fixed := by simp [State.readEqStat]
theorem execLaneTapsSet_fixed (c : Cmd) (s : State) :
    ∀ s1, execLaneTapsSet c s = .next s1 → s1.fixed = s.fixed := by intro s1 ht; simp only [execLaneTapsSet, Host.Outcome.next.injEq] at ht; subst ht; simp
theorem execLaneAdaptSet_fixed (c : Cmd) (s : State) :
    ∀ s1, execLaneAdaptSet c s = .next s1 → s1.fixed = s.fixed := by intro s1 ht; simp only [execLaneAdaptSet, Host.Outcome.next.injEq] at ht; subst ht; simp
theorem execLaneAdaptRestart_fixed (c : Cmd) (s : State) :
    ∀ s1, execLaneAdaptRestart c s = .next s1 → s1.fixed = s.fixed := by intro s1 ht; simp only [execLaneAdaptRestart, Host.Outcome.next.injEq] at ht; subst ht; simp
@[simp] theorem State.prbsWrite_fixed (s : State) (l : Nat) (d : Word) :
    (State.prbsWrite s l d).fixed = s.fixed := by simp [State.prbsWrite]
theorem execPrbsCtlWrite_fixed (w : Who) (l : Fin 66) (d : Word) (s : State) :
    ∀ s1, execPrbsCtlWrite w l d s = .next s1 → s1.fixed = s.fixed := by intro s1 ht; simp only [execPrbsCtlWrite, Host.Outcome.next.injEq] at ht; subst ht; simp
theorem execPrbsInj_fixed (w : Who) (l : Fin 66) (d : Word) (s : State) :
    ∀ s1, execPrbsInj w l d s = .next s1 → s1.fixed = s.fixed := by intro s1 ht; simp only [execPrbsInj, Host.Outcome.next.injEq] at ht; subst ht; simp
theorem execPrbsChkLock_fixed (l : Fin 66) (s : State) :
    ∀ s1, execPrbsChkLock l s = .next s1 → s1.fixed = s.fixed := by intro s1 ht; simp only [execPrbsChkLock, Host.Outcome.next.injEq] at ht; subst ht; simp
@[simp] theorem State.readPrbsErr_fixed (s : State) (l : Nat) :
    (State.readPrbsErr s l).1.fixed = s.fixed := by simp [State.readPrbsErr]

/-! ## Tally -/

@[simp] theorem State.binsLost_fixed (s : State) (p : Nat) :
    (State.binsLost s p).fixed = s.fixed := by simp [State.binsLost]
@[simp] theorem State.pcRecover_fixed (s : State) (k : Nat) (p : Nat) :
    (State.pcRecover s k p).fixed = s.fixed := by simp [State.pcRecover]
@[simp] theorem State.streamRecover_fixed (s : State) (n : Nat) :
    (State.streamRecover s n).fixed = s.fixed := by simp [State.streamRecover]
@[simp] theorem State.groupRecover_fixed (s : State) (i : Nat) :
    (State.groupRecover s i).fixed = s.fixed := by simp [State.groupRecover]
@[simp] theorem State.countMsg_fixed (s : State) (m : Msg) :
    (State.countMsg s m).fixed = s.fixed := by simp [State.countMsg]
@[simp] theorem State.unackRaise_fixed (s : State) (c : Nat) (lvl : Nat) :
    (State.unackRaise s c lvl).fixed = s.fixed := by simp [State.unackRaise]
@[simp] theorem State.deliver_fixed (s : State) (m : Msg) (lvl : Nat) :
    (State.deliver s m lvl).fixed = s.fixed := by simp [State.deliver]
@[simp] theorem State.windowDue_fixed (s : State) (c : Nat) :
    (State.windowDue s c).fixed = s.fixed := by simp [State.windowDue]
@[simp] theorem State.classify_fixed (s : State) (m : Msg) :
    (State.classify s m).fixed = s.fixed := by unfold State.classify; (repeat' split) <;> simp
@[simp] theorem State.releaseHeld_fixed (s : State) (i : Nat) :
    (State.releaseHeld s i).fixed = s.fixed := by simp [State.releaseHeld]
theorem execTallyMessage_fixed (s : State) :
    ∀ s1, execTallyMessage s = .next s1 → s1.fixed = s.fixed := by intro s1 ht; unfold execTallyMessage at ht; simp only [Host.Outcome.next.injEq] at ht; subst ht; (repeat' split) <;> simp
theorem execTallyWindowStart_fixed (c : Fin 8) (s : State) :
    ∀ s1, execTallyWindowStart c s = .next s1 → s1.fixed = s.fixed := by intro s1 ht; simp only [execTallyWindowStart, Host.Outcome.next.injEq] at ht; subst ht; simp
theorem execTallySweepEnd_fixed (s : State) :
    ∀ s1, execTallySweepEnd s = .next s1 → s1.fixed = s.fixed := by intro s1 ht; simp only [execTallySweepEnd, Host.Outcome.next.injEq] at ht; subst ht; simp
@[simp] theorem State.ackClass_fixed (s : State) (c : Nat) :
    (State.ackClass s c).fixed = s.fixed := by simp [State.ackClass]
@[simp] theorem State.unackWrite_fixed (s : State) (d : Word) :
    (State.unackWrite s d).fixed = s.fixed := by simp [State.unackWrite]
@[simp] theorem State.sevWrite_fixed (s : State) (i : Nat) (d : Word) :
    (State.sevWrite s i d).fixed = s.fixed := by simp [State.sevWrite]
theorem execTallyAck_fixed (w : Who) (d : Word) (s : State) :
    ∀ s1, execTallyAck w d s = .next s1 → s1.fixed = s.fixed := by intro s1 ht; simp only [execTallyAck, Host.Outcome.next.injEq] at ht; subst ht; simp
theorem execTallySevClear_fixed (w : Who) (i : Fin 128) (d : Word) (s : State) :
    ∀ s1, execTallySevClear w i d s = .next s1 → s1.fixed = s.fixed := by intro s1 ht; simp only [execTallySevClear, Host.Outcome.next.injEq] at ht; subst ht; simp
theorem execThermSecond_fixed (s : State) :
    ∀ s1, execThermSecond s = .next s1 → s1.fixed = s.fixed := by intro s1 ht; simp only [execThermSecond, Host.Outcome.next.injEq] at ht; subst ht; simp
theorem execTallyWinSet_fixed (c : Cmd) (s : State) :
    ∀ s1, execTallyWinSet c s = .next s1 → s1.fixed = s.fixed := by intro s1 ht; simp only [execTallyWinSet, Host.Outcome.next.injEq] at ht; subst ht; simp
theorem execTallyNsevSet_fixed (c : Cmd) (s : State) :
    ∀ s1, execTallyNsevSet c s = .next s1 → s1.fixed = s.fixed := by intro s1 ht; simp only [execTallyNsevSet, Host.Outcome.next.injEq] at ht; subst ht; simp

/-! ## Hoists -/

@[simp] theorem State.setHch_fixed (s : State) (g : Nat) (v : HchS) :
    (State.setHch s g v).fixed = s.fixed := by simp [State.setHch]
@[simp] theorem State.updHch_fixed (s : State) (g : Nat) (f : HchS → HchS) :
    (State.updHch s g f).fixed = s.fixed := by simp [State.updHch]
@[simp] theorem State.hRunning_fixed (s : State) (h : Nat) :
    (State.hRunning s h).fixed = s.fixed := by simp [State.hRunning]
@[simp] theorem State.setBytes_fixed (s : State) (g : Nat) (n : Nat) :
    (State.setBytes s g n).fixed = s.fixed := by simp [State.setBytes]
@[simp] theorem State.setCur_fixed (s : State) (g : Nat) (a : Nat) :
    (State.setCur s g a).fixed = s.fixed := by simp [State.setCur]
@[simp] theorem State.hEnd_fixed (s : State) (g : Nat) :
    (State.hEnd s g).fixed = s.fixed := by simp [State.hEnd]
@[simp] theorem State.hHalt_fixed (s : State) (g : Nat) (k : HCause) (a : Nat) :
    (State.hHalt s g k a).fixed = s.fixed := by unfold State.hHalt; (repeat' split) <;> simp
@[simp] theorem State.hDone_fixed (s : State) (g : Nat) :
    (State.hDone s g).fixed = s.fixed := by simp [State.hDone]
@[simp] theorem State.hStart_fixed (s : State) (g : Nat) (ch : HchS) :
    (State.hStart s g ch).fixed = s.fixed := by simp [State.hStart]
@[simp] theorem State.hCtlWrite_fixed (s : State) (g : Nat) (d : Word) :
    (State.hCtlWrite s g d).fixed = s.fixed := by simp [State.hCtlWrite]
@[simp] theorem State.hCfgWrite_fixed (s : State) (g : Nat) (a : Nat) (d : Word) :
    (State.hCfgWrite s g a d).fixed = s.fixed := by simp [State.hCfgWrite]
@[simp] theorem State.cmdStart_fixed (s : State) (g : Nat) (src : HEnt) (dst : HEnt) :
    (State.cmdStart s g src dst).fixed = s.fixed := by simp [State.cmdStart]
@[simp] theorem State.hTodo_fixed (s : State) (h : Nat) :
    (State.hTodo s h).fixed = s.fixed := by
  unfold State.hTodo
  exact foldl_fixed _ (fun s c => by dsimp only; (repeat' split) <;> simp) _ _
@[simp] theorem State.hResume_fixed (s : State) (h : Nat) :
    (State.hResume s h).fixed = s.fixed := by simp [State.hResume]
@[simp] theorem State.hMainWrite_fixed (s : State) (h : Nat) (d : Word) :
    (State.hMainWrite s h d).fixed = s.fixed := by simp [State.hMainWrite]
@[simp] theorem State.hStateWrite_fixed (s : State) (g : Nat) (d : Word) :
    (State.hStateWrite s g d).fixed = s.fixed := by simp [State.hStateWrite]
theorem execHoistChEnableReq_fixed (w : Who) (h : Fin 4) (c : Fin 64) (d : Word) (s : State) :
    ∀ s1, execHoistChEnableReq w h c d s = .next s1 → s1.fixed = s.fixed := by intro s1 ht; simp only [execHoistChEnableReq, Host.Outcome.next.injEq] at ht; subst ht; simp
theorem execHoistChDisableReq_fixed (w : Who) (h : Fin 4) (c : Fin 64) (d : Word) (s : State) :
    ∀ s1, execHoistChDisableReq w h c d s = .next s1 → s1.fixed = s.fixed := by intro s1 ht; simp only [execHoistChDisableReq, Host.Outcome.next.injEq] at ht; subst ht; simp
theorem execHoistChOn_fixed (h : Fin 4) (c : Fin 64) (s : State) :
    ∀ s1, execHoistChOn h c s = .next s1 → s1.fixed = s.fixed := by intro s1 ht; unfold execHoistChOn at ht; simp only [Host.Outcome.next.injEq] at ht; subst ht; (repeat' split) <;> simp
theorem execHoistChOff_fixed (h : Fin 4) (c : Fin 64) (s : State) :
    ∀ s1, execHoistChOff h c s = .next s1 → s1.fixed = s.fixed := by intro s1 ht; simp only [execHoistChOff, Host.Outcome.next.injEq] at ht; subst ht; simp
theorem execHoistGo_fixed (w : Who) (h : Fin 4) (c : Fin 64) (d : Word) (s : State) :
    ∀ s1, execHoistGo w h c d s = .next s1 → s1.fixed = s.fixed := by intro s1 ht; simp only [execHoistGo, Host.Outcome.next.injEq] at ht; subst ht; simp
theorem execHoistResume_fixed (w : Who) (h : Fin 4) (d : Word) (s : State) :
    ∀ s1, execHoistResume w h d s = .next s1 → s1.fixed = s.fixed := by intro s1 ht; simp only [execHoistResume, Host.Outcome.next.injEq] at ht; subst ht; simp
theorem execHoistFwResume_fixed (h : Fin 4) (s : State) :
    ∀ s1, execHoistFwResume h s = .next s1 → s1.fixed = s.fixed := by intro s1 ht; simp only [execHoistFwResume, Host.Outcome.next.injEq] at ht; subst ht; simp
@[simp] theorem State.cmdRun_fixed (s : State) (o : Owed) (g : Nat) (src : HEnt) (dst : HEnt) :
    (State.cmdRun s o g src dst).fixed = s.fixed := by simp [State.cmdRun]
theorem execHoistCopy_fixed (c : Cmd) (chan : Fin 192) (s : State) :
    ∀ s1, execHoistCopy c chan s = .next s1 → s1.fixed = s.fixed := by intro s1 ht; simp only [execHoistCopy, Host.Outcome.next.injEq] at ht; subst ht; simp
theorem execHoistFill_fixed (c : Cmd) (chan : Fin 192) (s : State) :
    ∀ s1, execHoistFill c chan s = .next s1 → s1.fixed = s.fixed := by intro s1 ht; simp only [execHoistFill, Host.Outcome.next.injEq] at ht; subst ht; simp

/-! ## HostRegs -/

@[simp] theorem State.setQp_fixed (s : State) (q : Nat) (v : QpS) :
    (State.setQp s q v).fixed = s.fixed := by simp [State.setQp]
@[simp] theorem State.updQp_fixed (s : State) (q : Nat) (f : QpS → QpS) :
    (State.updQp s q f).fixed = s.fixed := by simp [State.updQp]
@[simp] theorem State.rateUp_fixed (s : State) (q : Nat) (timer : Bool) :
    (State.rateUp s q timer).fixed = s.fixed := by simp [State.rateUp]
@[simp] theorem State.roceSent_fixed (s : State) (q : Nat) (n : Nat) :
    (State.roceSent s q n).fixed = s.fixed := by simp [State.roceSent]
@[simp] theorem State.roce_fixed (s : State) (q : Nat) (op : RoceOp) :
    (State.roce s q op).fixed = s.fixed := by unfold State.roce; (repeat' split) <;> simp
@[simp] theorem State.hostWrite_fixed (s : State) (a : Nat) (bs : List Byte) :
    (State.hostWrite s a bs).fixed = s.fixed := by unfold State.hostWrite; (repeat' split) <;> simp
@[simp] theorem State.hostRead_fixed (s : State) (a : Nat) (len : Nat) :
    (State.hostRead s a len).fixed = s.fixed := by unfold State.hostRead; (repeat' split) <;> simp
@[simp] theorem State.ringStall_fixed (s : State) (i : Nat) :
    (State.ringStall s i).fixed = s.fixed := by simp [State.ringStall]
@[simp] theorem State.burstsFail_fixed (s : State) (q : Nat) :
    (State.burstsFail s q).fixed = s.fixed := by
  unfold State.burstsFail
  exact foldl_fixed _ (fun s c => by dsimp only; (repeat' split) <;> simp) _ _
@[simp] theorem State.qpFail_fixed (s : State) (q : Nat) :
    (State.qpFail s q).fixed = s.fixed := by simp [State.qpFail]
@[simp] theorem State.qpError_fixed (s : State) (q : Nat) (cause : Nat) :
    (State.qpError s q cause).fixed = s.fixed := by simp [State.qpError]
@[simp] theorem State.qpCtlWrite_fixed (s : State) (q : Nat) (d : Word) :
    (State.qpCtlWrite s q d).fixed = s.fixed := by simp [State.qpCtlWrite]
@[simp] theorem State.qpParWrite_fixed (s : State) (q : Nat) (a : Nat) (d : Word) :
    (State.qpParWrite s q a d).fixed = s.fixed := by simp [State.qpParWrite]
theorem execQpCtlWrite_fixed (w : Who) (q : Fin 64) (d : Word) (s : State) :
    ∀ s1, execQpCtlWrite w q d s = .next s1 → s1.fixed = s.fixed := by intro s1 ht; simp only [execQpCtlWrite, Host.Outcome.next.injEq] at ht; subst ht; simp
@[simp] theorem State.qpProgress_fixed (s : State) (q : Nat) :
    (State.qpProgress s q).fixed = s.fixed := by simp [State.qpProgress]
@[simp] theorem State.qpRetry_fixed (s : State) (q : Nat) :
    (State.qpRetry s q).fixed = s.fixed := by simp [State.qpRetry]
theorem execQpAckTimeout_fixed (q : Fin 64) (s : State) :
    ∀ s1, execQpAckTimeout q s = .next s1 → s1.fixed = s.fixed := by intro s1 ht; simp only [execQpAckTimeout, Host.Outcome.next.injEq] at ht; subst ht; simp
theorem execQpNak_fixed (q : Fin 64) (code : Fin 3) (s : State) :
    ∀ s1, execQpNak q code s = .next s1 → s1.fixed = s.fixed := by intro s1 ht; simp only [execQpNak, Host.Outcome.next.injEq] at ht; subst ht; simp
theorem execCnpReceive_fixed (q : Fin 64) (s : State) :
    ∀ s1, execCnpReceive q s = .next s1 → s1.fixed = s.fixed := by intro s1 ht; simp only [execCnpReceive, Host.Outcome.next.injEq] at ht; subst ht; simp
theorem execDcqcnRateTimer_fixed (q : Fin 64) (s : State) :
    ∀ s1, execDcqcnRateTimer q s = .next s1 → s1.fixed = s.fixed := by intro s1 ht; simp only [execDcqcnRateTimer, Host.Outcome.next.injEq] at ht; subst ht; simp
@[simp] theorem State.hwinCtlWrite_fixed (s : State) (w : Nat) (d : Word) :
    (State.hwinCtlWrite s w d).fixed = s.fixed := by simp [State.hwinCtlWrite]
@[simp] theorem State.hwinParWrite_fixed (s : State) (w : Nat) (a : Nat) (d : Word) :
    (State.hwinParWrite s w a d).fixed = s.fixed := by simp [State.hwinParWrite]
theorem execHwinCtlWrite_fixed (w : Who) (x : Fin 64) (d : Word) (s : State) :
    ∀ s1, execHwinCtlWrite w x d s = .next s1 → s1.fixed = s.fixed := by intro s1 ht; simp only [execHwinCtlWrite, Host.Outcome.next.injEq] at ht; subst ht; simp
@[simp] theorem State.ringCtlWrite_fixed (s : State) (i : Nat) (d0 : Word) :
    (State.ringCtlWrite s i d0).fixed = s.fixed := by simp [State.ringCtlWrite]
theorem execRingCtlWrite_fixed (w : Who) (i : Fin 256) (d : Word) (s : State) :
    ∀ s1, execRingCtlWrite w i d s = .next s1 → s1.fixed = s.fixed := by intro s1 ht; simp only [execRingCtlWrite, Host.Outcome.next.injEq] at ht; subst ht; simp
@[simp] theorem State.dbBad_fixed (s : State) :
    (State.dbBad s).fixed = s.fixed := by simp [State.dbBad]
@[simp] theorem State.dbStale_fixed (s : State) :
    (State.dbStale s).fixed = s.fixed := by simp [State.dbStale]
@[simp] theorem State.doorbell_fixed (s : State) (r : Nat) (x : Nat) (e : Nat) :
    (State.doorbell s r x e).1.fixed = s.fixed := by simp [State.doorbell]
@[simp] theorem State.doorbellBytes_fixed (s : State) (b : List Byte) :
    (State.doorbellBytes s b).1.fixed = s.fixed := by simp [State.doorbellBytes]
@[simp] theorem State.rdmaWrite_fixed (s : State) (q : Nat) (va : BitVec 64) (rkey : BitVec 32) (data : List Byte) :
    (State.rdmaWrite s q va rkey data).fixed = s.fixed := by simp [State.rdmaWrite]
theorem execRdmaDoorbell_fixed (q : Fin 64) (va : BitVec 64) (rkey : BitVec 32) (data : List Byte) (s : State) :
    ∀ s1, execRdmaDoorbell q va rkey data s = .next s1 → s1.fixed = s.fixed := by intro s1 ht; simp only [execRdmaDoorbell, Host.Outcome.next.injEq] at ht; subst ht; simp
@[simp] theorem State.notify_fixed (s : State) (q : Nat) :
    (State.notify s q).fixed = s.fixed := by simp [State.notify]
theorem execRocePacketRx_fixed (q : Fin 64) (k : RocePkt) (s : State) :
    ∀ s1, execRocePacketRx q k s = .next s1 → s1.fixed = s.fixed := by intro s1 ht; unfold execRocePacketRx at ht; simp only [Host.Outcome.next.injEq] at ht; subst ht; (repeat' split) <;> simp
theorem execCommandFetch_fixed (i : Fin 32) (s : State) :
    ∀ s1, execCommandFetch i s = .next s1 → s1.fixed = s.fixed := by intro s1 ht; unfold execCommandFetch at ht; simp only [Host.Outcome.next.injEq] at ht; subst ht; (repeat' split) <;> simp
@[simp] theorem State.shadow_fixed (s : State) (i : Nat) (idx : Nat) :
    (State.shadow s i idx).fixed = s.fixed := by simp [State.shadow]
theorem execCommandFetchReturn_fixed (i : Fin 32) (entries : Option (List Desc)) (s : State) :
    ∀ s1, execCommandFetchReturn i entries s = .next s1 → s1.fixed = s.fixed := by intro s1 ht; unfold execCommandFetchReturn at ht; simp only [Host.Outcome.next.injEq] at ht; subst ht; (repeat' split) <;> simp
theorem execRingWriteAck_fixed (i : Fin 256) (n : Nat) (ok : Bool) (s : State) :
    ∀ s1, execRingWriteAck i n ok s = .next s1 → s1.fixed = s.fixed := by intro s1 ht; unfold execRingWriteAck at ht; simp only [Host.Outcome.next.injEq] at ht; subst ht; (repeat' split) <;> simp
theorem execCpArpReply_fixed (port : Fin 2) (target : BitVec 32) (mac : BitVec 48) (ip : BitVec 32) (s : State) :
    ∀ s1, execCpArpReply port target mac ip s = .next s1 → s1.fixed = s.fixed := by intro s1 ht; simp only [execCpArpReply, Host.Outcome.next.injEq] at ht; subst ht; simp
theorem execPfcFrameRx_fixed (port : Fin 2) (prio : Fin 8) (pause : Bool) (s : State) :
    ∀ s1, execPfcFrameRx port prio pause s = .next s1 → s1.fixed = s.fixed := by intro s1 ht; simp only [execPfcFrameRx, Host.Outcome.next.injEq] at ht; subst ht; simp

/-! ## Mgmt -/

@[simp] theorem State.handWrite_fixed (s : State) (d : Word) :
    (State.handWrite s d).fixed = s.fixed := by simp [State.handWrite]
theorem execHandWrite_fixed (w : Who) (d : Word) (s : State) :
    ∀ s1, execHandWrite w d s = .next s1 → s1.fixed = s.fixed := by intro s1 ht; simp only [execHandWrite, Host.Outcome.next.injEq] at ht; subst ht; simp
@[simp] theorem State.pmbusOut_fixed (s : State) (cmd : Nat) (data : Nat) :
    (State.pmbusOut s cmd data).fixed = s.fixed := by simp [State.pmbusOut]
@[simp] theorem State.avsCtlWrite_fixed (s : State) (d : Word) :
    (State.avsCtlWrite s d).fixed = s.fixed := by simp [State.avsCtlWrite]
@[simp] theorem State.laneDlyWrite_fixed (s : State) (k : Nat) (d : Word) :
    (State.laneDlyWrite s k d).fixed = s.fixed := by simp [State.laneDlyWrite]
@[simp] theorem State.vrefWrite_fixed (s : State) (k : Nat) (d : Word) :
    (State.vrefWrite s k d).fixed = s.fixed := by simp [State.vrefWrite]
@[simp] theorem State.homeWrite_fixed (s : State) (n : Nat) (a : Nat) (d : Word) :
    (State.homeWrite s n a d).fixed = s.fixed := by simp [State.homeWrite]
@[simp] theorem State.hookLow_fixed (s : State) (b : Nat) (i : Nat) (j : Nat) (a : Nat) (d : Word) :
    (State.hookLow s b i j a d).fixed = s.fixed := by simp [State.hookLow]
@[simp] theorem State.canvasHome_fixed (s : State) (v : Nat) (a : Nat) (d : Word) :
    (State.canvasHome s v a d).fixed = s.fixed := by unfold State.canvasHome; (repeat' split) <;> simp
@[simp] theorem State.modelWrite_fixed (s : State) (a : Nat) (d : Word) :
    (State.modelWrite s a d).fixed = s.fixed := by simp [State.modelWrite]
@[simp] theorem State.hookHigh_fixed (s : State) (b : Nat) (i : Nat) (j : Nat) (a : Nat) (d : Word) :
    (State.hookHigh s b i j a d).fixed = s.fixed := by simp [State.hookHigh]
@[simp] theorem State.mgmtWrite_fixed (s : State) (w : Who) (a : Nat) (d : Word) :
    (State.mgmtWrite s w a d).fixed = s.fixed := by unfold State.mgmtWrite; (repeat' split) <;> simp
theorem execMgmtRegisterWrite_fixed (w : Who) (a : BitVec 32) (d : Word) (s : State) :
    ∀ s1, execMgmtRegisterWrite w a d s = .next s1 → s1.fixed = s.fixed := by intro s1 ht; simp only [execMgmtRegisterWrite, Host.Outcome.next.injEq] at ht; subst ht; simp
@[simp] theorem State.readClaim_fixed (s : State) (w : Who) (i : Nat) (a : Nat) :
    (State.readClaim s w i a).1.fixed = s.fixed := by unfold State.readClaim; (repeat' split) <;> simp
@[simp] theorem State.readLow_fixed (s : State) (w : Who) (b : Nat) (i : Nat) (a : Nat) :
    (State.readLow s w b i a).1.fixed = s.fixed := by simp [State.readLow]
@[simp] theorem State.readHigh_fixed (s : State) (b : Nat) (i : Nat) (a : Nat) :
    (State.readHigh s b i a).1.fixed = s.fixed := by simp [State.readHigh]
@[simp] theorem State.mgmtRead_fixed (s : State) (w : Who) (a : Nat) :
    (State.mgmtRead s w a).1.fixed = s.fixed := by unfold State.mgmtRead; (repeat' split) <;> simp

/-! ## HoistMove -/

@[simp] theorem State.hSettle_fixed (s : State) (g : Nat) :
    (State.hSettle s g).fixed = s.fixed := by simp [State.hSettle]
@[simp] theorem State.arrBytes_fixed (s : State) (f : Nat) (a : Nat) (n : Nat) :
    (State.arrBytes s f a n).1.fixed = s.fixed := by simp [State.arrBytes]
@[simp] theorem State.edgePoison_fixed (s : State) (f : Nat) (a : Nat) (n : Nat) :
    (State.edgePoison s f a n).1.fixed = s.fixed := by simp [State.edgePoison]
@[simp] theorem State.mirrorRead_fixed (s : State) (h : Nat) (a : Nat) (n : Nat) :
    (State.mirrorRead s h a n).1.fixed = s.fixed := by simp [State.mirrorRead]
@[simp] theorem State.binRead_fixed (s : State) (p : Nat) (n : Nat) :
    (State.binRead s p n).1.fixed = s.fixed := by unfold State.binRead; (repeat' split) <;> simp
@[simp] theorem State.srcRead_fixed (s : State) (h : Nat) (e : HEnt) (n : Nat) (data : List Byte) :
    (State.srcRead s h e n data).1.fixed = s.fixed := by unfold State.srcRead; simp only []; (repeat' split) <;> simp [*]
@[simp] theorem State.arrPut_fixed (s : State) (f : Nat) (a : Nat) (bs : List Byte) (mask : Nat → Bool) :
    (State.arrPut s f a bs mask).fixed = s.fixed := by simp [State.arrPut]
@[simp] theorem State.dstWrite_fixed (s : State) (h : Nat) (a : Nat) (bs : List Byte) (mask : Nat → Bool) :
    (State.dstWrite s h a bs mask).fixed = s.fixed := by unfold State.dstWrite; (repeat' split) <;> simp
@[simp] theorem State.entryRead_fixed (s : State) (g : Nat) (data : List Byte) :
    (State.entryRead s g data).1.fixed = s.fixed := by unfold State.entryRead; simp only []; (repeat' split) <;> simp [*]
@[simp] theorem State.entryCount_fixed (s : State) (g : Nat) :
    (State.entryCount s g).fixed = s.fixed := by simp [State.entryCount]
@[simp] theorem State.entryTake_fixed (s : State) (g : Nat) (e : List Byte) :
    (State.entryTake s g e).fixed = s.fixed := by unfold State.entryTake; simp only []; (repeat' split) <;> simp [*]
theorem execHoistEntryFetch_fixed (h : Fin 4) (c : Fin 64) (e : List Byte) (s : State) :
    ∀ s1, execHoistEntryFetch h c e s = .next s1 → s1.fixed = s.fixed := by intro s1 ht; unfold execHoistEntryFetch at ht; simp only [Host.Outcome.next.injEq] at ht; subst ht; (repeat' split) <;> simp
@[simp] theorem State.hBegin_fixed (s : State) (g : Nat) (src : HEnt) (dst : HEnt) (data : List Byte) :
    (State.hBegin s g src dst data).fixed = s.fixed := by unfold State.hBegin; simp only []; (repeat' split) <;> simp [*]
theorem execHoistBurstStart_fixed (h : Fin 4) (req : List (Fin 64)) (data : List Byte) (s : State) :
    ∀ s1, execHoistBurstStart h req data s = .next s1 → s1.fixed = s.fixed := by intro s1 ht; unfold execHoistBurstStart at ht; simp only [Host.Outcome.next.injEq] at ht; subst ht; (repeat' split) <;> simp
theorem execHoistBurstDone_fixed (h : Fin 4) (c : Fin 64) (s : State) :
    ∀ s1, execHoistBurstDone h c s = .next s1 → s1.fixed = s.fixed := by intro s1 ht; unfold execHoistBurstDone at ht; simp only [Host.Outcome.next.injEq] at ht; subst ht; (repeat' split) <;> simp
@[simp] theorem State.hTorn_fixed (s : State) (g : Nat) :
    (State.hTorn s g).fixed = s.fixed := by unfold State.hTorn; simp only []; (repeat' split) <;> simp [*]
@[simp] theorem State.hStop_fixed (s : State) (h : Nat) (cause : Nat) (addr : Nat) :
    (State.hStop s h cause addr).fixed = s.fixed := by simp [State.hStop]
theorem execHoistBuserr_fixed (h : Fin 4) (c : Fin 64) (cause : Fin 8) (addr : BitVec 48) (s : State) :
    ∀ s1, execHoistBuserr h c cause addr s = .next s1 → s1.fixed = s.fixed := by intro s1 ht; simp only [execHoistBuserr, Host.Outcome.next.injEq] at ht; subst ht; simp
theorem execHoistTargetTimeout_fixed (h : Fin 4) (c : Fin 64) (addr : BitVec 48) (s : State) :
    ∀ s1, execHoistTargetTimeout h c addr s = .next s1 → s1.fixed = s.fixed := by intro s1 ht; simp only [execHoistTargetTimeout, Host.Outcome.next.injEq] at ht; subst ht; simp
theorem execHoistPoison_fixed (h : Fin 4) (c : Fin 64) (addr : BitVec 48) (entry : Bool) (s : State) :
    ∀ s1, execHoistPoison h c addr entry s = .next s1 → s1.fixed = s.fixed := by intro s1 ht; unfold execHoistPoison at ht; simp only [Host.Outcome.next.injEq] at ht; subst ht; (repeat' split) <;> simp

/-! ## Power -/

@[simp] theorem State.applyStraps_fixed (s : State) (b : BitVec 4) :
    (State.applyStraps s b).fixed = s.fixed := by simp [State.applyStraps]
@[simp] theorem State.cleared_fixed (s : State) (r : ResetS) :
    (State.cleared s r).fixed = s.fixed := by simp [State.cleared]
@[simp] theorem State.rstCause_fixed (s : State) (v : Nat) :
    (State.rstCause s v).fixed = s.fixed := by simp [State.rstCause]
@[simp] theorem State.warmCrew_fixed (s : State) (c : Nat) :
    (State.warmCrew s c).fixed = s.fixed := by simp [State.warmCrew]
@[simp] theorem State.warmReset_fixed (s : State) (r : ResetS) (cause : Nat) :
    (State.warmReset s r cause).fixed = s.fixed := by simp [State.warmReset]
theorem execPoreset_fixed (s : State) :
    ∀ s1, execPoreset s = .next s1 → s1.fixed = s.fixed := by intro s1 ht; simp only [execPoreset, Host.Outcome.next.injEq] at ht; subst ht; simp
theorem execPoresetNRelease_fixed (straps : BitVec 4) (s : State) :
    ∀ s1, execPoresetNRelease straps s = .next s1 → s1.fixed = s.fixed := by intro s1 ht; simp only [execPoresetNRelease, Host.Outcome.next.injEq] at ht; subst ht; simp
theorem execResetN_fixed (s : State) :
    ∀ s1, execResetN s = .next s1 → s1.fixed = s.fixed := by intro s1 ht; simp only [execResetN, Host.Outcome.next.injEq] at ht; subst ht; simp
theorem execClxReset_fixed (s : State) :
    ∀ s1, execClxReset s = .next s1 → s1.fixed = s.fixed := by intro s1 ht; unfold execClxReset at ht; simp only [Host.Outcome.next.injEq] at ht; subst ht; (repeat' split) <;> simp
theorem execWarmResetEnd_fixed (s : State) :
    ∀ s1, execWarmResetEnd s = .next s1 → s1.fixed = s.fixed := by intro s1 ht; unfold execWarmResetEnd at ht; simp only [Host.Outcome.next.injEq] at ht; subst ht; (repeat' split) <;> simp
@[simp] theorem State.trainStack_fixed (s : State) (k : Nat) :
    (State.trainStack s k).fixed = s.fixed := by simp [State.trainStack]
@[simp] theorem State.clocksRun_fixed (s : State) :
    (State.clocksRun s).fixed = s.fixed := by simp [State.clocksRun]
@[simp] theorem State.crewBoot_fixed (s : State) (c : Nat) :
    (State.crewBoot s c).fixed = s.fixed := by simp [State.crewBoot]
@[simp] theorem State.pdUp_fixed (s : State) (n : Nat) :
    (State.pdUp s n).fixed = s.fixed := by simp [State.pdUp]
@[simp] theorem State.bootMemory_fixed (s : State) :
    (State.bootMemory s).fixed = s.fixed := by simp [State.bootMemory]
@[simp] theorem State.cpLaneUp_fixed (s : State) (l : Nat) :
    (State.cpLaneUp s l).fixed = s.fixed := by simp [State.cpLaneUp]
theorem execReady_fixed (s : State) :
    ∀ s1, execReady s = .next s1 → s1.fixed = s.fixed := by intro s1 ht; simp only [execReady, Host.Outcome.next.injEq] at ht; subst ht; simp
@[simp] theorem State.swapDelay_fixed (s : State) :
    (State.swapDelay s).fixed = s.fixed := by simp [State.swapDelay]
theorem execSwapStart_fixed (s : State) :
    ∀ s1, execSwapStart s = .next s1 → s1.fixed = s.fixed := by intro s1 ht; unfold execSwapStart at ht; simp only [Host.Outcome.next.injEq] at ht; subst ht; (repeat' split) <;> simp
theorem execSwapResume_fixed (s : State) :
    ∀ s1, execSwapResume s = .next s1 → s1.fixed = s.fixed := by intro s1 ht; unfold execSwapResume at ht; simp only [Host.Outcome.next.injEq] at ht; subst ht; (repeat' split) <;> simp
@[simp] theorem State.bankValid_fixed (s : State) (b : Nat) (on : Bool) :
    (State.bankValid s b on).fixed = s.fixed := by simp [State.bankValid]
theorem execSwapRevert_fixed (s : State) :
    ∀ s1, execSwapRevert s = .next s1 → s1.fixed = s.fixed := by intro s1 ht; unfold execSwapRevert at ht; simp only [Host.Outcome.next.injEq] at ht; subst ht; (repeat' split) <;> simp
theorem execSleep_fixed (c : Cmd) (s : State) :
    ∀ s1, execSleep c s = .next s1 → s1.fixed = s.fixed := by intro s1 ht; simp only [execSleep, Host.Outcome.next.injEq] at ht; subst ht; simp
@[simp] theorem State.wakeStart_fixed (s : State) (z : SleepS) :
    (State.wakeStart s z).fixed = s.fixed := by simp [State.wakeStart]
@[simp] theorem State.wakeSource_fixed (s : State) (b : Nat) :
    (State.wakeSource s b).fixed = s.fixed := by unfold State.wakeSource; (repeat' split) <;> simp
theorem execSleepCommit_fixed (s : State) :
    ∀ s1, execSleepCommit s = .next s1 → s1.fixed = s.fixed := by intro s1 ht; unfold execSleepCommit at ht; simp only [Host.Outcome.next.injEq] at ht; subst ht; (repeat' split) <;> simp
@[simp] theorem State.stackSleep_fixed (s : State) (k : Nat) :
    (State.stackSleep s k).fixed = s.fixed := by simp [State.stackSleep]
theorem execMooredReached_fixed (s : State) :
    ∀ s1, execMooredReached s = .next s1 → s1.fixed = s.fixed := by intro s1 ht; unfold execMooredReached at ht; simp only [Host.Outcome.next.injEq] at ht; subst ht; (repeat' split) <;> simp
theorem execWakeNFall_fixed (s : State) :
    ∀ s1, execWakeNFall s = .next s1 → s1.fixed = s.fixed := by intro s1 ht; simp only [execWakeNFall, Host.Outcome.next.injEq] at ht; subst ht; simp
theorem execWakeNRelease_fixed (s : State) :
    ∀ s1, execWakeNRelease s = .next s1 → s1.fixed = s.fixed := by intro s1 ht; simp only [execWakeNRelease, Host.Outcome.next.injEq] at ht; subst ht; simp
theorem execPtpAlarm_fixed (s : State) :
    ∀ s1, execPtpAlarm s = .next s1 → s1.fixed = s.fixed := by intro s1 ht; unfold execPtpAlarm at ht; simp only [Host.Outcome.next.injEq] at ht; subst ht; (repeat' split) <;> simp
@[simp] theorem State.wakeMemory_fixed (s : State) (doms : List Nat) :
    (State.wakeMemory s doms).fixed = s.fixed := by simp [State.wakeMemory]
@[simp] theorem State.wakeUnits_fixed (s : State) (lanes : List Nat) (ports : List Nat) :
    (State.wakeUnits s lanes ports).fixed = s.fixed := by simp [State.wakeUnits]
theorem execWakeReady_fixed (s : State) :
    ∀ s1, execWakeReady s = .next s1 → s1.fixed = s.fixed := by intro s1 ht; unfold execWakeReady at ht; simp only [Host.Outcome.next.injEq] at ht; subst ht; (repeat' split) <;> simp
@[simp] theorem State.thermUpdate_fixed (s : State) :
    (State.thermUpdate s).fixed = s.fixed := by unfold State.thermUpdate; (repeat' split) <;> simp
theorem execThermalSample_fixed (temps : List Int) (s : State) :
    ∀ s1, execThermalSample temps s = .next s1 → s1.fixed = s.fixed := by intro s1 ht; simp only [execThermalSample, Host.Outcome.next.injEq] at ht; subst ht; simp
@[simp] theorem State.railWarn_fixed (s : State) (r : Nat) (mv : Nat) :
    (State.railWarn s r mv).fixed = s.fixed := by simp [State.railWarn]
@[simp] theorem State.railFault_fixed (s : State) (r : Nat) (mv : Nat) :
    (State.railFault s r mv).fixed = s.fixed := by simp [State.railFault]
@[simp] theorem State.railTake_fixed (s : State) (r : Nat) (mv : Nat) :
    (State.railTake s r mv).fixed = s.fixed := by simp [State.railTake]
theorem execRailSample_fixed (mv : List Nat) (s : State) :
    ∀ s1, execRailSample mv s = .next s1 → s1.fixed = s.fixed := by intro s1 ht; simp only [execRailSample, Host.Outcome.next.injEq] at ht; subst ht; simp
@[simp] theorem State.avsSend_fixed (s : State) :
    (State.avsSend s).fixed = s.fixed := by simp [State.avsSend]
theorem execAvsLoop_fixed (counts : List Nat) (s : State) :
    ∀ s1, execAvsLoop counts s = .next s1 → s1.fixed = s.fixed := by intro s1 ht; unfold execAvsLoop at ht; simp only [Host.Outcome.next.injEq] at ht; subst ht; (repeat' split) <;> simp
theorem execPmbAlert_fixed (status : BitVec 16) (s : State) :
    ∀ s1, execPmbAlert status s = .next s1 → s1.fixed = s.fixed := by intro s1 ht; simp only [execPmbAlert, Host.Outcome.next.injEq] at ht; subst ht; simp

/-! ## Clexia -/

@[simp] theorem State.clxSend_fixed (s : State) (p : Nat) (x : Resp) :
    (State.clxSend s p x).fixed = s.fixed := by simp [State.clxSend]
@[simp] theorem State.clx_fixed (s : State) (r : ClxReq) (opc : Nat) (checks : State → List Byte → List (Bool × Nat)) (act : State → List Byte → State × Option (Nat × List Byte)) (h4 : ∀ x0 x1, (act x0 x1).1.fixed = x0.fixed) :
    (State.clx s r opc checks act).fixed = s.fixed := by unfold State.clx; simp only []; (repeat' split) <;> simp [*]
@[simp] theorem State.clxReads_fixed (s : State) (w : Who) (a : Nat) (n : Nat) :
    (State.clxReads s w a n).1.fixed = s.fixed := by simp [State.clxReads]
theorem execClxRead_fixed (r : ClxReq) (s : State) :
    ∀ s1, execClxRead r s = .next s1 → s1.fixed = s.fixed := by intro s1 ht; simp only [execClxRead, Host.Outcome.next.injEq] at ht; subst ht; simp
theorem execClxWrite_fixed (r : ClxReq) (s : State) :
    ∀ s1, execClxWrite r s = .next s1 → s1.fixed = s.fixed := by intro s1 ht; simp only [execClxWrite, Host.Outcome.next.injEq] at ht; subst ht; simp
theorem execClxBlockWrite_fixed (r : ClxReq) (s : State) :
    ∀ s1, execClxBlockWrite r s = .next s1 → s1.fixed = s.fixed := by intro s1 ht; simp only [execClxBlockWrite, Host.Outcome.next.injEq] at ht; subst ht; simp
@[simp] theorem State.pushTake_fixed (s : State) (p : Nat) (x : Resp) (off : Nat) (img : List Byte) (last : Bool) :
    (State.pushTake s p x off img last).fixed = s.fixed := by simp [State.pushTake]
theorem execFwPush_fixed (r : ClxReq) (s : State) :
    ∀ s1, execFwPush r s = .next s1 → s1.fixed = s.fixed := by intro s1 ht; simp only [execFwPush, Host.Outcome.next.injEq] at ht; subst ht; simp
@[simp] theorem State.bankTake_fixed (s : State) (b : Nat) (bytes : List Byte) (ok : Bool) :
    (State.bankTake s b bytes ok).fixed = s.fixed := by simp [State.bankTake]
@[simp] theorem State.verifyAnswer_fixed (s : State) (p : Nat) (x : Resp) :
    (State.verifyAnswer s p x).fixed = s.fixed := by simp [State.verifyAnswer]
@[simp] theorem State.bankStart_fixed (s : State) (b : Nat) :
    (State.bankStart s b).fixed = s.fixed := by simp [State.bankStart]
theorem execFwVerifyDone_fixed (s : State) :
    ∀ s1, execFwVerifyDone s = .next s1 → s1.fixed = s.fixed := by intro s1 ht; unfold execFwVerifyDone at ht; simp only [Host.Outcome.next.injEq] at ht; subst ht; (repeat' split) <;> simp
theorem execClxDoorbell_fixed (r : ClxReq) (s : State) :
    ∀ s1, execClxDoorbell r s = .next s1 → s1.fixed = s.fixed := by intro s1 ht; simp only [execClxDoorbell, Host.Outcome.next.injEq] at ht; subst ht; simp
theorem execClxWake_fixed (r : ClxReq) (s : State) :
    ∀ s1, execClxWake r s = .next s1 → s1.fixed = s.fixed := by intro s1 ht; simp only [execClxWake, Host.Outcome.next.injEq] at ht; subst ht; simp
theorem execResetReq_fixed (r : ClxReq) (s : State) :
    ∀ s1, execResetReq r s = .next s1 → s1.fixed = s.fixed := by intro s1 ht; simp only [execResetReq, Host.Outcome.next.injEq] at ht; subst ht; simp
theorem execClxPing_fixed (r : ClxReq) (s : State) :
    ∀ s1, execClxPing r s = .next s1 → s1.fixed = s.fixed := by intro s1 ht; simp only [execClxPing, Host.Outcome.next.injEq] at ht; subst ht; simp

/-! ## Units -/

@[simp] theorem State.unitRequest_fixed (s : State) (o : Owed) (kind : Nat) (i : Nat) (enable : Bool) :
    (State.unitRequest s o kind i enable).fixed = s.fixed := by simp [State.unitRequest]
theorem execUnitEnable_fixed (c : Cmd) (s : State) :
    ∀ s1, execUnitEnable c s = .next s1 → s1.fixed = s.fixed := by intro s1 ht; simp only [execUnitEnable, Host.Outcome.next.injEq] at ht; subst ht; simp
theorem execUnitDisable_fixed (c : Cmd) (s : State) :
    ∀ s1, execUnitDisable c s = .next s1 → s1.fixed = s.fixed := by intro s1 ht; simp only [execUnitDisable, Host.Outcome.next.injEq] at ht; subst ht; simp
@[simp] theorem State.ucodeRead_fixed (s : State) (a : Nat) (img : HostRead) :
    (State.ucodeRead s a img).1.fixed = s.fixed := by unfold State.ucodeRead; (repeat' split) <;> simp
theorem execUcodeLoad_fixed (c : Cmd) (img : HostRead) (s : State) :
    ∀ s1, execUcodeLoad c img s = .next s1 → s1.fixed = s.fixed := by
  intro s1 ht; unfold execUcodeLoad at ht; injection ht with ht; subst ht
  apply State.begin_fixed; intro s o; dsimp only; (repeat' split) <;> simp
@[simp] theorem State.ucodeCrew_fixed (s : State) (c : Nat) :
    (State.ucodeCrew s c).fixed = s.fixed := by unfold State.ucodeCrew; simp only []; (repeat' split) <;> simp [*]
theorem execUcodeLoadDone_fixed (s : State) :
    ∀ s1, execUcodeLoadDone s = .next s1 → s1.fixed = s.fixed := by
  intro s1 ht; unfold execUcodeLoadDone at ht; dsimp only at ht; injection ht with ht; subst ht
  have h := foldl_fixed (fun s c => State.ucodeCrew s c) (fun s c => State.ucodeCrew_fixed s c) (List.range 4) s
  (repeat' split) <;> simp [h]

end Sys2Proof.Machine
end

