-- ==== Sys2Proof/Laws/Regs.lean ====
section
/-!
SUPPORT. The laws of the register file and of a register's fields: a field reads as it was written, and a write of one field leaves
every other field of its register, and every other register, as it was.
-/
namespace Sys2Proof.Machine

/-- The number that `wordSet` makes. -/
def wordMix (v lo w x : Nat) : Nat := v / 2 ^ (lo + w) * 2 ^ (lo + w) + x % 2 ^ w * 2 ^ lo + v % 2 ^ lo

theorem wordMix_low (v lo w x : Nat) : wordMix v lo w x % 2 ^ lo = v % 2 ^ lo := by
  have : wordMix v lo w x = v % 2 ^ lo + 2 ^ lo * (v / 2 ^ (lo + w) * 2 ^ w + x % 2 ^ w) := by
    unfold wordMix
    simp only [Nat.pow_add, Nat.mul_add, Nat.mul_comm, Nat.add_comm, Nat.mul_assoc]
  rw [this, Nat.add_mul_mod_self_left, Nat.mod_mod]

theorem wordMix_mid (v lo w x : Nat) : wordMix v lo w x / 2 ^ lo = v / 2 ^ (lo + w) * 2 ^ w + x % 2 ^ w := by
  have : wordMix v lo w x = v % 2 ^ lo + 2 ^ lo * (v / 2 ^ (lo + w) * 2 ^ w + x % 2 ^ w) := by
    unfold wordMix
    simp only [Nat.pow_add, Nat.mul_add, Nat.mul_comm, Nat.add_comm, Nat.mul_assoc]
  rw [this, Nat.add_mul_div_left _ _ (Nat.two_pow_pos lo), Nat.div_eq_of_lt (Nat.mod_lt _ (Nat.two_pow_pos lo)), Nat.zero_add]

theorem wordMix_high (v lo w x : Nat) : wordMix v lo w x / 2 ^ (lo + w) = v / 2 ^ (lo + w) := by
  rw [Nat.pow_add, ← Nat.div_div_eq_div_mul, wordMix_mid, Nat.pow_add]
  rw [Nat.mul_comm (v / _), Nat.mul_add_div (Nat.two_pow_pos w), Nat.div_eq_of_lt (Nat.mod_lt _ (Nat.two_pow_pos w)), Nat.add_zero]

theorem wordMix_lt (v lo w x n : Nat) (h : lo + w ≤ n) (hv : v < 2 ^ n) : wordMix v lo w x < 2 ^ n := by
  have e : 2 ^ n = 2 ^ (n - (lo + w)) * 2 ^ (lo + w) := by rw [← Nat.pow_add]; congr 1; omega
  rw [e, ← Nat.div_lt_iff_lt_mul (Nat.two_pow_pos _), wordMix_high, Nat.div_lt_iff_lt_mul (Nat.two_pow_pos _), ← e]
  exact hv

theorem wordSet_toNat (v : Word) (lo w x : Nat) (h : lo + w ≤ 32) : (wordSet v lo w x).toNat = wordMix v.toNat lo w x := by
  show (BitVec.ofNat 32 (wordMix v.toNat lo w x)).toNat = _
  rw [BitVec.toNat_ofNat]
  exact Nat.mod_eq_of_lt (wordMix_lt _ _ _ _ _ h v.isLt)

/-- A field reads as it was written. -/
theorem wordGet_set_same (v : Word) (lo w x : Nat) (h : lo + w ≤ 32) : wordGet (wordSet v lo w x) lo w = x % 2 ^ w := by
  unfold wordGet
  rw [wordSet_toNat _ _ _ _ h, wordMix_mid, Nat.mul_comm, Nat.mul_add_mod, Nat.mod_mod]

/-- A write of one field leaves a field apart from it as it was. -/
theorem wordGet_set_other (v : Word) (lo w x lo' w' : Nat) (h : lo + w ≤ 32) (hd : lo + w ≤ lo' ∨ lo' + w' ≤ lo) :
    wordGet (wordSet v lo w x) lo' w' = wordGet v lo' w' := by
  unfold wordGet
  rw [wordSet_toNat _ _ _ _ h]
  rcases hd with hd | hd
  · obtain ⟨k, rfl⟩ := Nat.exists_eq_add_of_le hd
    rw [Nat.pow_add 2 (lo + w) k, ← Nat.div_div_eq_div_mul, ← Nat.div_div_eq_div_mul, wordMix_high]
  · obtain ⟨k, rfl⟩ := Nat.exists_eq_add_of_le hd
    have e : ∀ n : Nat, n / 2 ^ lo' % 2 ^ w' = n % 2 ^ (lo' + w' + k) / 2 ^ lo' % 2 ^ w' := by
      intro n
      rw [Nat.add_assoc, Nat.pow_add, Nat.mod_mul_right_div_self, Nat.pow_add, Nat.mod_mul_right_mod]
    rw [e, wordMix_low, ← e]

theorem wordGet_lt (v : Word) (lo w : Nat) : wordGet v lo w < 2 ^ w := Nat.mod_lt _ (Nat.two_pow_pos w)

/-! ## Registers -/

@[simp] theorem State.reg_setReg_same (s : State) (a : Nat) (v : Word) : (s.setReg a v).reg a = v := by
  simp [State.reg, State.setReg]

theorem State.reg_setReg_other (s : State) (a b : Nat) (v : Word) (h : b ≠ a) : (s.setReg a v).reg b = s.reg b := by
  simp [State.reg, State.setReg, tabGet_set_other _ _ _ _ _ _ h]

theorem State.reg_set_other (s : State) (f : RF) (x b : Nat) (h : b ≠ f.addr) : (s.set f x).reg b = s.reg b :=
  State.reg_setReg_other _ _ _ _ h

/-- A field reads as it was written, cut to its width. -/
theorem State.get_set_same (s : State) (f : RF) (x : Nat) (h : f.lo + f.w ≤ 32) : (s.set f x).get f = x % 2 ^ f.w := by
  simp only [State.get, State.set, State.reg_setReg_same]
  exact wordGet_set_same _ _ _ _ h

/-- A write of a field leaves the fields of every other register as they were. -/
theorem State.get_set_other (s : State) (f g : RF) (x : Nat) (h : g.addr ≠ f.addr) : (s.set f x).get g = s.get g := by
  simp only [State.get]
  rw [State.reg_set_other _ _ _ _ h]

/-- A write of a field leaves the other fields of its register as they were. -/
theorem State.get_set_apart (s : State) (f g : RF) (x : Nat) (h : f.lo + f.w ≤ 32) (ha : g.addr = f.addr)
    (hd : f.lo + f.w ≤ g.lo ∨ g.lo + g.w ≤ f.lo) : (s.set f x).get g = s.get g := by
  simp only [State.get, State.set, ha, State.reg_setReg_same]
  exact wordGet_set_other _ _ _ _ _ _ h hd

/-- A field reads below two to its width. -/
theorem State.get_lt (s : State) (f : RF) : s.get f < 2 ^ f.w := wordGet_lt _ _ _

end Sys2Proof.Machine
end

