-- ==== Sys2Proof/Laws/State.lean ====
section
/-!
SUPPORT. What each named update of the state leaves alone: one lemma per field and per update, and per lookup, so that no later proof
unfolds a record update.
-/
namespace Sys2Proof.Machine

/-! ### setReg -/

@[simp] theorem State.setReg_pending (s : State) (a : Nat) (v : Word) : (s.setReg a v).pending = s.pending := by rfl
@[simp] theorem State.setReg_part (s : State) (a : Nat) (v : Word) : (s.setReg a v).part = s.part := by rfl
@[simp] theorem State.setReg_rst (s : State) (a : Nat) (v : Word) : (s.setReg a v).rst = s.rst := by rfl
@[simp] theorem State.setReg_now (s : State) (a : Nat) (v : Word) : (s.setReg a v).now = s.now := by rfl
@[simp] theorem State.setReg_prev (s : State) (a : Nat) (v : Word) : (s.setReg a v).prev = s.prev := by rfl
@[simp] theorem State.setReg_cyc (s : State) (a : Nat) (v : Word) : (s.setReg a v).cyc = s.cyc := by rfl
@[simp] theorem State.setReg_fired (s : State) (a : Nat) (v : Word) : (s.setReg a v).fired = s.fired := by rfl
@[simp] theorem State.setReg_hot (s : State) (a : Nat) (v : Word) : (s.setReg a v).hot = s.hot := by rfl
@[simp] theorem State.setReg_freed (s : State) (a : Nat) (v : Word) : (s.setReg a v).freed = s.freed := by rfl
@[simp] theorem State.setReg_waitDue (s : State) (a : Nat) (v : Word) : (s.setReg a v).waitDue = s.waitDue := by rfl
@[simp] theorem State.setReg_turns (s : State) (a : Nat) (v : Word) : (s.setReg a v).turns = s.turns := by rfl
@[simp] theorem State.setReg_rate (s : State) (a : Nat) (v : Word) : (s.setReg a v).rate = s.rate := by rfl
@[simp] theorem State.setReg_ppsNs (s : State) (a : Nat) (v : Word) : (s.setReg a v).ppsNs = s.ppsNs := by rfl
@[simp] theorem State.setReg_ppsHigh (s : State) (a : Nat) (v : Word) : (s.setReg a v).ppsHigh = s.ppsHigh := by rfl
@[simp] theorem State.setReg_relock (s : State) (a : Nat) (v : Word) : (s.setReg a v).relock = s.relock := by rfl
@[simp] theorem State.setReg_gens (s : State) (a : Nat) (v : Word) : (s.setReg a v).gens = s.gens := by rfl
@[simp] theorem State.setReg_freeCtr (s : State) (a : Nat) (v : Word) : (s.setReg a v).freeCtr = s.freeCtr := by rfl
@[simp] theorem State.setReg_held (s : State) (a : Nat) (v : Word) : (s.setReg a v).held = s.held := by rfl
@[simp] theorem State.setReg_heldWait (s : State) (a : Nat) (v : Word) : (s.setReg a v).heldWait = s.heldWait := by rfl
@[simp] theorem State.setReg_tsrc (s : State) (a : Nat) (v : Word) : (s.setReg a v).tsrc = s.tsrc := by rfl
@[simp] theorem State.setReg_twin (s : State) (a : Nat) (v : Word) : (s.setReg a v).twin = s.twin := by rfl
@[simp] theorem State.setReg_gath (s : State) (a : Nat) (v : Word) : (s.setReg a v).gath = s.gath := by rfl
@[simp] theorem State.setReg_claimed (s : State) (a : Nat) (v : Word) : (s.setReg a v).claimed = s.claimed := by rfl
@[simp] theorem State.setReg_tgtDef (s : State) (a : Nat) (v : Word) : (s.setReg a v).tgtDef = s.tgtDef := by rfl
@[simp] theorem State.setReg_holdOff (s : State) (a : Nat) (v : Word) : (s.setReg a v).holdOff = s.holdOff := by rfl
@[simp] theorem State.setReg_pins (s : State) (a : Nat) (v : Word) : (s.setReg a v).pins = s.pins := by rfl
@[simp] theorem State.setReg_looked (s : State) (a : Nat) (v : Word) : (s.setReg a v).looked = s.looked := by rfl
@[simp] theorem State.setReg_preempt (s : State) (a : Nat) (v : Word) : (s.setReg a v).preempt = s.preempt := by rfl
@[simp] theorem State.setReg_rings (s : State) (a : Nat) (v : Word) : (s.setReg a v).rings = s.rings := by rfl
@[simp] theorem State.setReg_fetched (s : State) (a : Nat) (v : Word) : (s.setReg a v).fetched = s.fetched := by rfl
@[simp] theorem State.setReg_lifted (s : State) (a : Nat) (v : Word) : (s.setReg a v).lifted = s.lifted := by rfl
@[simp] theorem State.setReg_owed (s : State) (a : Nat) (v : Word) : (s.setReg a v).owed = s.owed := by rfl
@[simp] theorem State.setReg_turn (s : State) (a : Nat) (v : Word) : (s.setReg a v).turn = s.turn := by rfl
@[simp] theorem State.setReg_outbox (s : State) (a : Nat) (v : Word) : (s.setReg a v).outbox = s.outbox := by rfl
@[simp] theorem State.setReg_streams (s : State) (a : Nat) (v : Word) : (s.setReg a v).streams = s.streams := by rfl
@[simp] theorem State.setReg_feeds (s : State) (a : Nat) (v : Word) : (s.setReg a v).feeds = s.feeds := by rfl
@[simp] theorem State.setReg_crews (s : State) (a : Nat) (v : Word) : (s.setReg a v).crews = s.crews := by rfl
@[simp] theorem State.setReg_runs (s : State) (a : Nat) (v : Word) : (s.setReg a v).runs = s.runs := by rfl
@[simp] theorem State.setReg_ended (s : State) (a : Nat) (v : Word) : (s.setReg a v).ended = s.ended := by rfl
@[simp] theorem State.setReg_seqs (s : State) (a : Nat) (v : Word) : (s.setReg a v).seqs = s.seqs := by rfl
@[simp] theorem State.setReg_therm (s : State) (a : Nat) (v : Word) : (s.setReg a v).therm = s.therm := by rfl
@[simp] theorem State.setReg_progs (s : State) (a : Nat) (v : Word) : (s.setReg a v).progs = s.progs := by rfl
@[simp] theorem State.setReg_scache (s : State) (a : Nat) (v : Word) : (s.setReg a v).scache = s.scache := by rfl
@[simp] theorem State.setReg_slotPic (s : State) (a : Nat) (v : Word) : (s.setReg a v).slotPic = s.slotPic := by rfl
@[simp] theorem State.setReg_slotSz (s : State) (a : Nat) (v : Word) : (s.setReg a v).slotSz = s.slotSz := by rfl
@[simp] theorem State.setReg_slotNref (s : State) (a : Nat) (v : Word) : (s.setReg a v).slotNref = s.slotNref := by rfl
@[simp] theorem State.setReg_slotC (s : State) (a : Nat) (v : Word) : (s.setReg a v).slotC = s.slotC := by rfl
@[simp] theorem State.setReg_retPend (s : State) (a : Nat) (v : Word) : (s.setReg a v).retPend = s.retPend := by rfl
@[simp] theorem State.setReg_egr (s : State) (a : Nat) (v : Word) : (s.setReg a v).egr = s.egr := by rfl
@[simp] theorem State.setReg_txFree (s : State) (a : Nat) (v : Word) : (s.setReg a v).txFree = s.txFree := by rfl
@[simp] theorem State.setReg_frameNo (s : State) (a : Nat) (v : Word) : (s.setReg a v).frameNo = s.frameNo := by rfl
@[simp] theorem State.setReg_rtpSeq (s : State) (a : Nat) (v : Word) : (s.setReg a v).rtpSeq = s.rtpSeq := by rfl
@[simp] theorem State.setReg_subs (s : State) (a : Nat) (v : Word) : (s.setReg a v).subs = s.subs := by rfl
@[simp] theorem State.setReg_shapers (s : State) (a : Nat) (v : Word) : (s.setReg a v).shapers = s.shapers := by rfl
@[simp] theorem State.setReg_gates (s : State) (a : Nat) (v : Word) : (s.setReg a v).gates = s.gates := by rfl
@[simp] theorem State.setReg_ptpRx (s : State) (a : Nat) (v : Word) : (s.setReg a v).ptpRx = s.ptpRx := by rfl
@[simp] theorem State.setReg_tsb (s : State) (a : Nat) (v : Word) : (s.setReg a v).tsb = s.tsb := by rfl
@[simp] theorem State.setReg_ptpServo (s : State) (a : Nat) (v : Word) : (s.setReg a v).ptpServo = s.ptpServo := by rfl
@[simp] theorem State.setReg_mem (s : State) (a : Nat) (v : Word) : (s.setReg a v).mem = s.mem := by rfl
@[simp] theorem State.setReg_injRecs (s : State) (a : Nat) (v : Word) : (s.setReg a v).injRecs = s.injRecs := by rfl
@[simp] theorem State.setReg_filled (s : State) (a : Nat) (v : Word) : (s.setReg a v).filled = s.filled := by rfl
@[simp] theorem State.setReg_images (s : State) (a : Nat) (v : Word) : (s.setReg a v).images = s.images := by rfl
@[simp] theorem State.setReg_chkLeft (s : State) (a : Nat) (v : Word) : (s.setReg a v).chkLeft = s.chkLeft := by rfl
@[simp] theorem State.setReg_badRows (s : State) (a : Nat) (v : Word) : (s.setReg a v).badRows = s.badRows := by rfl
@[simp] theorem State.setReg_lost (s : State) (a : Nat) (v : Word) : (s.setReg a v).lost = s.lost := by rfl
@[simp] theorem State.setReg_celCe (s : State) (a : Nat) (v : Word) : (s.setReg a v).celCe = s.celCe := by rfl
@[simp] theorem State.setReg_celDly (s : State) (a : Nat) (v : Word) : (s.setReg a v).celDly = s.celDly := by rfl
@[simp] theorem State.setReg_celVref (s : State) (a : Nat) (v : Word) : (s.setReg a v).celVref = s.celVref := by rfl
@[simp] theorem State.setReg_pcs (s : State) (a : Nat) (v : Word) : (s.setReg a v).pcs = s.pcs := by rfl
@[simp] theorem State.setReg_stackTab (s : State) (a : Nat) (v : Word) : (s.setReg a v).stackTab = s.stackTab := by rfl
@[simp] theorem State.setReg_ldrCol (s : State) (a : Nat) (v : Word) : (s.setReg a v).ldrCol = s.ldrCol := by rfl
@[simp] theorem State.setReg_training (s : State) (a : Nat) (v : Word) : (s.setReg a v).training = s.training := by rfl
@[simp] theorem State.setReg_adapting (s : State) (a : Nat) (v : Word) : (s.setReg a v).adapting = s.adapting := by rfl
@[simp] theorem State.setReg_laneSet (s : State) (a : Nat) (v : Word) : (s.setReg a v).laneSet = s.laneSet := by rfl
@[simp] theorem State.setReg_blFrom (s : State) (a : Nat) (v : Word) : (s.setReg a v).blFrom = s.blFrom := by rfl
@[simp] theorem State.setReg_qps (s : State) (a : Nat) (v : Word) : (s.setReg a v).qps = s.qps := by rfl
@[simp] theorem State.setReg_hchs (s : State) (a : Nat) (v : Word) : (s.setReg a v).hchs = s.hchs := by rfl
@[simp] theorem State.setReg_hgrant (s : State) (a : Nat) (v : Word) : (s.setReg a v).hgrant = s.hgrant := by rfl
@[simp] theorem State.setReg_ptpPos (s : State) (a : Nat) (v : Word) : (s.setReg a v).ptpPos = s.ptpPos := by rfl
@[simp] theorem State.setReg_cps (s : State) (a : Nat) (v : Word) : (s.setReg a v).cps = s.cps := by rfl
@[simp] theorem State.setReg_push (s : State) (a : Nat) (v : Word) : (s.setReg a v).push = s.push := by rfl
@[simp] theorem State.setReg_bank0 (s : State) (a : Nat) (v : Word) : (s.setReg a v).bank0 = s.bank0 := by rfl
@[simp] theorem State.setReg_bank1 (s : State) (a : Nat) (v : Word) : (s.setReg a v).bank1 = s.bank1 := by rfl
@[simp] theorem State.setReg_sleep (s : State) (a : Nat) (v : Word) : (s.setReg a v).sleep = s.sleep := by rfl
@[simp] theorem State.setReg_swap (s : State) (a : Nat) (v : Word) : (s.setReg a v).swap = s.swap := by rfl
@[simp] theorem State.setReg_resetReq (s : State) (a : Nat) (v : Word) : (s.setReg a v).resetReq = s.resetReq := by rfl
@[simp] theorem State.setReg_wakeN (s : State) (a : Nat) (v : Word) : (s.setReg a v).wakeN = s.wakeN := by rfl
@[simp] theorem State.setReg_rails (s : State) (a : Nat) (v : Word) : (s.setReg a v).rails = s.rails := by rfl
@[simp] theorem State.setReg_railF (s : State) (a : Nat) (v : Word) : (s.setReg a v).railF = s.railF := by rfl
@[simp] theorem State.setReg_avsAgain (s : State) (a : Nat) (v : Word) : (s.setReg a v).avsAgain = s.avsAgain := by rfl
@[simp] theorem State.setReg_voutExp (s : State) (a : Nat) (v : Word) : (s.setReg a v).voutExp = s.voutExp := by rfl
@[simp] theorem State.setReg_straps (s : State) (a : Nat) (v : Word) : (s.setReg a v).straps = s.straps := by rfl
@[simp] theorem State.setReg_strm (s : State) (a : Nat) (v : Word) (k : Nat) : (s.setReg a v).strm k = s.strm k := by rfl
@[simp] theorem State.setReg_gen (s : State) (a : Nat) (v : Word) (k : Nat) : (s.setReg a v).gen k = s.gen k := by rfl
@[simp] theorem State.setReg_feed (s : State) (a : Nat) (v : Word) (k : Nat) : (s.setReg a v).feed k = s.feed k := by rfl
@[simp] theorem State.setReg_crew (s : State) (a : Nat) (v : Word) (k : Nat) : (s.setReg a v).crew k = s.crew k := by rfl
@[simp] theorem State.setReg_run (s : State) (a : Nat) (v : Word) (k : Nat) : (s.setReg a v).run k = s.run k := by rfl
@[simp] theorem State.setReg_ring (s : State) (a : Nat) (v : Word) (k : Nat) : (s.setReg a v).ring k = s.ring k := by rfl
@[simp] theorem State.setReg_tallySrc (s : State) (a : Nat) (v : Word) (k : Nat) : (s.setReg a v).tallySrc k = s.tallySrc k := by rfl
@[simp] theorem State.setReg_cp (s : State) (a : Nat) (v : Word) (k : Nat) : (s.setReg a v).cp k = s.cp k := by rfl
@[simp] theorem State.setReg_slotPicOf (s : State) (a : Nat) (v : Word) (k : Nat) : (s.setReg a v).slotPicOf k = s.slotPicOf k := by rfl
@[simp] theorem State.setReg_window (s : State) (a : Nat) (v : Word) (k : Nat) : (s.setReg a v).window k = s.window k := by rfl
@[simp] theorem State.setReg_frames (s : State) (a : Nat) (v : Word) (k : Nat) : (s.setReg a v).frames k = s.frames k := by rfl
@[simp] theorem State.setReg_sub (s : State) (a : Nat) (v : Word) (k : Nat) : (s.setReg a v).sub k = s.sub k := by rfl
@[simp] theorem State.setReg_stack (s : State) (a : Nat) (v : Word) (k : Nat) : (s.setReg a v).stack k = s.stack k := by rfl
@[simp] theorem State.setReg_seq (s : State) (a : Nat) (v : Word) (k : Nat) : (s.setReg a v).seq k = s.seq k := by rfl
@[simp] theorem State.setReg_hch (s : State) (a : Nat) (v : Word) (k : Nat) : (s.setReg a v).hch k = s.hch k := by rfl
@[simp] theorem State.setReg_qp (s : State) (a : Nat) (v : Word) (k : Nat) : (s.setReg a v).qp k = s.qp k := by rfl

/-! ### set -/

@[simp] theorem State.set_pending (s : State) (f : RF) (x : Nat) : (s.set f x).pending = s.pending := by rfl
@[simp] theorem State.set_part (s : State) (f : RF) (x : Nat) : (s.set f x).part = s.part := by rfl
@[simp] theorem State.set_rst (s : State) (f : RF) (x : Nat) : (s.set f x).rst = s.rst := by rfl
@[simp] theorem State.set_now (s : State) (f : RF) (x : Nat) : (s.set f x).now = s.now := by rfl
@[simp] theorem State.set_prev (s : State) (f : RF) (x : Nat) : (s.set f x).prev = s.prev := by rfl
@[simp] theorem State.set_cyc (s : State) (f : RF) (x : Nat) : (s.set f x).cyc = s.cyc := by rfl
@[simp] theorem State.set_fired (s : State) (f : RF) (x : Nat) : (s.set f x).fired = s.fired := by rfl
@[simp] theorem State.set_hot (s : State) (f : RF) (x : Nat) : (s.set f x).hot = s.hot := by rfl
@[simp] theorem State.set_freed (s : State) (f : RF) (x : Nat) : (s.set f x).freed = s.freed := by rfl
@[simp] theorem State.set_waitDue (s : State) (f : RF) (x : Nat) : (s.set f x).waitDue = s.waitDue := by rfl
@[simp] theorem State.set_turns (s : State) (f : RF) (x : Nat) : (s.set f x).turns = s.turns := by rfl
@[simp] theorem State.set_rate (s : State) (f : RF) (x : Nat) : (s.set f x).rate = s.rate := by rfl
@[simp] theorem State.set_ppsNs (s : State) (f : RF) (x : Nat) : (s.set f x).ppsNs = s.ppsNs := by rfl
@[simp] theorem State.set_ppsHigh (s : State) (f : RF) (x : Nat) : (s.set f x).ppsHigh = s.ppsHigh := by rfl
@[simp] theorem State.set_relock (s : State) (f : RF) (x : Nat) : (s.set f x).relock = s.relock := by rfl
@[simp] theorem State.set_gens (s : State) (f : RF) (x : Nat) : (s.set f x).gens = s.gens := by rfl
@[simp] theorem State.set_freeCtr (s : State) (f : RF) (x : Nat) : (s.set f x).freeCtr = s.freeCtr := by rfl
@[simp] theorem State.set_held (s : State) (f : RF) (x : Nat) : (s.set f x).held = s.held := by rfl
@[simp] theorem State.set_heldWait (s : State) (f : RF) (x : Nat) : (s.set f x).heldWait = s.heldWait := by rfl
@[simp] theorem State.set_tsrc (s : State) (f : RF) (x : Nat) : (s.set f x).tsrc = s.tsrc := by rfl
@[simp] theorem State.set_twin (s : State) (f : RF) (x : Nat) : (s.set f x).twin = s.twin := by rfl
@[simp] theorem State.set_gath (s : State) (f : RF) (x : Nat) : (s.set f x).gath = s.gath := by rfl
@[simp] theorem State.set_claimed (s : State) (f : RF) (x : Nat) : (s.set f x).claimed = s.claimed := by rfl
@[simp] theorem State.set_tgtDef (s : State) (f : RF) (x : Nat) : (s.set f x).tgtDef = s.tgtDef := by rfl
@[simp] theorem State.set_holdOff (s : State) (f : RF) (x : Nat) : (s.set f x).holdOff = s.holdOff := by rfl
@[simp] theorem State.set_pins (s : State) (f : RF) (x : Nat) : (s.set f x).pins = s.pins := by rfl
@[simp] theorem State.set_looked (s : State) (f : RF) (x : Nat) : (s.set f x).looked = s.looked := by rfl
@[simp] theorem State.set_preempt (s : State) (f : RF) (x : Nat) : (s.set f x).preempt = s.preempt := by rfl
@[simp] theorem State.set_rings (s : State) (f : RF) (x : Nat) : (s.set f x).rings = s.rings := by rfl
@[simp] theorem State.set_fetched (s : State) (f : RF) (x : Nat) : (s.set f x).fetched = s.fetched := by rfl
@[simp] theorem State.set_lifted (s : State) (f : RF) (x : Nat) : (s.set f x).lifted = s.lifted := by rfl
@[simp] theorem State.set_owed (s : State) (f : RF) (x : Nat) : (s.set f x).owed = s.owed := by rfl
@[simp] theorem State.set_turn (s : State) (f : RF) (x : Nat) : (s.set f x).turn = s.turn := by rfl
@[simp] theorem State.set_outbox (s : State) (f : RF) (x : Nat) : (s.set f x).outbox = s.outbox := by rfl
@[simp] theorem State.set_streams (s : State) (f : RF) (x : Nat) : (s.set f x).streams = s.streams := by rfl
@[simp] theorem State.set_feeds (s : State) (f : RF) (x : Nat) : (s.set f x).feeds = s.feeds := by rfl
@[simp] theorem State.set_crews (s : State) (f : RF) (x : Nat) : (s.set f x).crews = s.crews := by rfl
@[simp] theorem State.set_runs (s : State) (f : RF) (x : Nat) : (s.set f x).runs = s.runs := by rfl
@[simp] theorem State.set_ended (s : State) (f : RF) (x : Nat) : (s.set f x).ended = s.ended := by rfl
@[simp] theorem State.set_seqs (s : State) (f : RF) (x : Nat) : (s.set f x).seqs = s.seqs := by rfl
@[simp] theorem State.set_therm (s : State) (f : RF) (x : Nat) : (s.set f x).therm = s.therm := by rfl
@[simp] theorem State.set_progs (s : State) (f : RF) (x : Nat) : (s.set f x).progs = s.progs := by rfl
@[simp] theorem State.set_scache (s : State) (f : RF) (x : Nat) : (s.set f x).scache = s.scache := by rfl
@[simp] theorem State.set_slotPic (s : State) (f : RF) (x : Nat) : (s.set f x).slotPic = s.slotPic := by rfl
@[simp] theorem State.set_slotSz (s : State) (f : RF) (x : Nat) : (s.set f x).slotSz = s.slotSz := by rfl
@[simp] theorem State.set_slotNref (s : State) (f : RF) (x : Nat) : (s.set f x).slotNref = s.slotNref := by rfl
@[simp] theorem State.set_slotC (s : State) (f : RF) (x : Nat) : (s.set f x).slotC = s.slotC := by rfl
@[simp] theorem State.set_retPend (s : State) (f : RF) (x : Nat) : (s.set f x).retPend = s.retPend := by rfl
@[simp] theorem State.set_egr (s : State) (f : RF) (x : Nat) : (s.set f x).egr = s.egr := by rfl
@[simp] theorem State.set_txFree (s : State) (f : RF) (x : Nat) : (s.set f x).txFree = s.txFree := by rfl
@[simp] theorem State.set_frameNo (s : State) (f : RF) (x : Nat) : (s.set f x).frameNo = s.frameNo := by rfl
@[simp] theorem State.set_rtpSeq (s : State) (f : RF) (x : Nat) : (s.set f x).rtpSeq = s.rtpSeq := by rfl
@[simp] theorem State.set_subs (s : State) (f : RF) (x : Nat) : (s.set f x).subs = s.subs := by rfl
@[simp] theorem State.set_shapers (s : State) (f : RF) (x : Nat) : (s.set f x).shapers = s.shapers := by rfl
@[simp] theorem State.set_gates (s : State) (f : RF) (x : Nat) : (s.set f x).gates = s.gates := by rfl
@[simp] theorem State.set_ptpRx (s : State) (f : RF) (x : Nat) : (s.set f x).ptpRx = s.ptpRx := by rfl
@[simp] theorem State.set_tsb (s : State) (f : RF) (x : Nat) : (s.set f x).tsb = s.tsb := by rfl
@[simp] theorem State.set_ptpServo (s : State) (f : RF) (x : Nat) : (s.set f x).ptpServo = s.ptpServo := by rfl
@[simp] theorem State.set_mem (s : State) (f : RF) (x : Nat) : (s.set f x).mem = s.mem := by rfl
@[simp] theorem State.set_injRecs (s : State) (f : RF) (x : Nat) : (s.set f x).injRecs = s.injRecs := by rfl
@[simp] theorem State.set_filled (s : State) (f : RF) (x : Nat) : (s.set f x).filled = s.filled := by rfl
@[simp] theorem State.set_images (s : State) (f : RF) (x : Nat) : (s.set f x).images = s.images := by rfl
@[simp] theorem State.set_chkLeft (s : State) (f : RF) (x : Nat) : (s.set f x).chkLeft = s.chkLeft := by rfl
@[simp] theorem State.set_badRows (s : State) (f : RF) (x : Nat) : (s.set f x).badRows = s.badRows := by rfl
@[simp] theorem State.set_lost (s : State) (f : RF) (x : Nat) : (s.set f x).lost = s.lost := by rfl
@[simp] theorem State.set_celCe (s : State) (f : RF) (x : Nat) : (s.set f x).celCe = s.celCe := by rfl
@[simp] theorem State.set_celDly (s : State) (f : RF) (x : Nat) : (s.set f x).celDly = s.celDly := by rfl
@[simp] theorem State.set_celVref (s : State) (f : RF) (x : Nat) : (s.set f x).celVref = s.celVref := by rfl
@[simp] theorem State.set_pcs (s : State) (f : RF) (x : Nat) : (s.set f x).pcs = s.pcs := by rfl
@[simp] theorem State.set_stackTab (s : State) (f : RF) (x : Nat) : (s.set f x).stackTab = s.stackTab := by rfl
@[simp] theorem State.set_ldrCol (s : State) (f : RF) (x : Nat) : (s.set f x).ldrCol = s.ldrCol := by rfl
@[simp] theorem State.set_training (s : State) (f : RF) (x : Nat) : (s.set f x).training = s.training := by rfl
@[simp] theorem State.set_adapting (s : State) (f : RF) (x : Nat) : (s.set f x).adapting = s.adapting := by rfl
@[simp] theorem State.set_laneSet (s : State) (f : RF) (x : Nat) : (s.set f x).laneSet = s.laneSet := by rfl
@[simp] theorem State.set_blFrom (s : State) (f : RF) (x : Nat) : (s.set f x).blFrom = s.blFrom := by rfl
@[simp] theorem State.set_qps (s : State) (f : RF) (x : Nat) : (s.set f x).qps = s.qps := by rfl
@[simp] theorem State.set_hchs (s : State) (f : RF) (x : Nat) : (s.set f x).hchs = s.hchs := by rfl
@[simp] theorem State.set_hgrant (s : State) (f : RF) (x : Nat) : (s.set f x).hgrant = s.hgrant := by rfl
@[simp] theorem State.set_ptpPos (s : State) (f : RF) (x : Nat) : (s.set f x).ptpPos = s.ptpPos := by rfl
@[simp] theorem State.set_cps (s : State) (f : RF) (x : Nat) : (s.set f x).cps = s.cps := by rfl
@[simp] theorem State.set_push (s : State) (f : RF) (x : Nat) : (s.set f x).push = s.push := by rfl
@[simp] theorem State.set_bank0 (s : State) (f : RF) (x : Nat) : (s.set f x).bank0 = s.bank0 := by rfl
@[simp] theorem State.set_bank1 (s : State) (f : RF) (x : Nat) : (s.set f x).bank1 = s.bank1 := by rfl
@[simp] theorem State.set_sleep (s : State) (f : RF) (x : Nat) : (s.set f x).sleep = s.sleep := by rfl
@[simp] theorem State.set_swap (s : State) (f : RF) (x : Nat) : (s.set f x).swap = s.swap := by rfl
@[simp] theorem State.set_resetReq (s : State) (f : RF) (x : Nat) : (s.set f x).resetReq = s.resetReq := by rfl
@[simp] theorem State.set_wakeN (s : State) (f : RF) (x : Nat) : (s.set f x).wakeN = s.wakeN := by rfl
@[simp] theorem State.set_rails (s : State) (f : RF) (x : Nat) : (s.set f x).rails = s.rails := by rfl
@[simp] theorem State.set_railF (s : State) (f : RF) (x : Nat) : (s.set f x).railF = s.railF := by rfl
@[simp] theorem State.set_avsAgain (s : State) (f : RF) (x : Nat) : (s.set f x).avsAgain = s.avsAgain := by rfl
@[simp] theorem State.set_voutExp (s : State) (f : RF) (x : Nat) : (s.set f x).voutExp = s.voutExp := by rfl
@[simp] theorem State.set_straps (s : State) (f : RF) (x : Nat) : (s.set f x).straps = s.straps := by rfl
@[simp] theorem State.set_strm (s : State) (f : RF) (x : Nat) (k : Nat) : (s.set f x).strm k = s.strm k := by rfl
@[simp] theorem State.set_gen (s : State) (f : RF) (x : Nat) (k : Nat) : (s.set f x).gen k = s.gen k := by rfl
@[simp] theorem State.set_feed (s : State) (f : RF) (x : Nat) (k : Nat) : (s.set f x).feed k = s.feed k := by rfl
@[simp] theorem State.set_crew (s : State) (f : RF) (x : Nat) (k : Nat) : (s.set f x).crew k = s.crew k := by rfl
@[simp] theorem State.set_run (s : State) (f : RF) (x : Nat) (k : Nat) : (s.set f x).run k = s.run k := by rfl
@[simp] theorem State.set_ring (s : State) (f : RF) (x : Nat) (k : Nat) : (s.set f x).ring k = s.ring k := by rfl
@[simp] theorem State.set_tallySrc (s : State) (f : RF) (x : Nat) (k : Nat) : (s.set f x).tallySrc k = s.tallySrc k := by rfl
@[simp] theorem State.set_cp (s : State) (f : RF) (x : Nat) (k : Nat) : (s.set f x).cp k = s.cp k := by rfl
@[simp] theorem State.set_slotPicOf (s : State) (f : RF) (x : Nat) (k : Nat) : (s.set f x).slotPicOf k = s.slotPicOf k := by rfl
@[simp] theorem State.set_window (s : State) (f : RF) (x : Nat) (k : Nat) : (s.set f x).window k = s.window k := by rfl
@[simp] theorem State.set_frames (s : State) (f : RF) (x : Nat) (k : Nat) : (s.set f x).frames k = s.frames k := by rfl
@[simp] theorem State.set_sub (s : State) (f : RF) (x : Nat) (k : Nat) : (s.set f x).sub k = s.sub k := by rfl
@[simp] theorem State.set_stack (s : State) (f : RF) (x : Nat) (k : Nat) : (s.set f x).stack k = s.stack k := by rfl
@[simp] theorem State.set_seq (s : State) (f : RF) (x : Nat) (k : Nat) : (s.set f x).seq k = s.seq k := by rfl
@[simp] theorem State.set_hch (s : State) (f : RF) (x : Nat) (k : Nat) : (s.set f x).hch k = s.hch k := by rfl
@[simp] theorem State.set_qp (s : State) (f : RF) (x : Nat) (k : Nat) : (s.set f x).qp k = s.qp k := by rfl

/-! ### addSat -/

@[simp] theorem State.addSat_pending (s : State) (f : RF) (n : Nat) : (s.addSat f n).pending = s.pending := by rfl
@[simp] theorem State.addSat_part (s : State) (f : RF) (n : Nat) : (s.addSat f n).part = s.part := by rfl
@[simp] theorem State.addSat_rst (s : State) (f : RF) (n : Nat) : (s.addSat f n).rst = s.rst := by rfl
@[simp] theorem State.addSat_now (s : State) (f : RF) (n : Nat) : (s.addSat f n).now = s.now := by rfl
@[simp] theorem State.addSat_prev (s : State) (f : RF) (n : Nat) : (s.addSat f n).prev = s.prev := by rfl
@[simp] theorem State.addSat_cyc (s : State) (f : RF) (n : Nat) : (s.addSat f n).cyc = s.cyc := by rfl
@[simp] theorem State.addSat_fired (s : State) (f : RF) (n : Nat) : (s.addSat f n).fired = s.fired := by rfl
@[simp] theorem State.addSat_hot (s : State) (f : RF) (n : Nat) : (s.addSat f n).hot = s.hot := by rfl
@[simp] theorem State.addSat_freed (s : State) (f : RF) (n : Nat) : (s.addSat f n).freed = s.freed := by rfl
@[simp] theorem State.addSat_waitDue (s : State) (f : RF) (n : Nat) : (s.addSat f n).waitDue = s.waitDue := by rfl
@[simp] theorem State.addSat_turns (s : State) (f : RF) (n : Nat) : (s.addSat f n).turns = s.turns := by rfl
@[simp] theorem State.addSat_rate (s : State) (f : RF) (n : Nat) : (s.addSat f n).rate = s.rate := by rfl
@[simp] theorem State.addSat_ppsNs (s : State) (f : RF) (n : Nat) : (s.addSat f n).ppsNs = s.ppsNs := by rfl
@[simp] theorem State.addSat_ppsHigh (s : State) (f : RF) (n : Nat) : (s.addSat f n).ppsHigh = s.ppsHigh := by rfl
@[simp] theorem State.addSat_relock (s : State) (f : RF) (n : Nat) : (s.addSat f n).relock = s.relock := by rfl
@[simp] theorem State.addSat_gens (s : State) (f : RF) (n : Nat) : (s.addSat f n).gens = s.gens := by rfl
@[simp] theorem State.addSat_freeCtr (s : State) (f : RF) (n : Nat) : (s.addSat f n).freeCtr = s.freeCtr := by rfl
@[simp] theorem State.addSat_held (s : State) (f : RF) (n : Nat) : (s.addSat f n).held = s.held := by rfl
@[simp] theorem State.addSat_heldWait (s : State) (f : RF) (n : Nat) : (s.addSat f n).heldWait = s.heldWait := by rfl
@[simp] theorem State.addSat_tsrc (s : State) (f : RF) (n : Nat) : (s.addSat f n).tsrc = s.tsrc := by rfl
@[simp] theorem State.addSat_twin (s : State) (f : RF) (n : Nat) : (s.addSat f n).twin = s.twin := by rfl
@[simp] theorem State.addSat_gath (s : State) (f : RF) (n : Nat) : (s.addSat f n).gath = s.gath := by rfl
@[simp] theorem State.addSat_claimed (s : State) (f : RF) (n : Nat) : (s.addSat f n).claimed = s.claimed := by rfl
@[simp] theorem State.addSat_tgtDef (s : State) (f : RF) (n : Nat) : (s.addSat f n).tgtDef = s.tgtDef := by rfl
@[simp] theorem State.addSat_holdOff (s : State) (f : RF) (n : Nat) : (s.addSat f n).holdOff = s.holdOff := by rfl
@[simp] theorem State.addSat_pins (s : State) (f : RF) (n : Nat) : (s.addSat f n).pins = s.pins := by rfl
@[simp] theorem State.addSat_looked (s : State) (f : RF) (n : Nat) : (s.addSat f n).looked = s.looked := by rfl
@[simp] theorem State.addSat_preempt (s : State) (f : RF) (n : Nat) : (s.addSat f n).preempt = s.preempt := by rfl
@[simp] theorem State.addSat_rings (s : State) (f : RF) (n : Nat) : (s.addSat f n).rings = s.rings := by rfl
@[simp] theorem State.addSat_fetched (s : State) (f : RF) (n : Nat) : (s.addSat f n).fetched = s.fetched := by rfl
@[simp] theorem State.addSat_lifted (s : State) (f : RF) (n : Nat) : (s.addSat f n).lifted = s.lifted := by rfl
@[simp] theorem State.addSat_owed (s : State) (f : RF) (n : Nat) : (s.addSat f n).owed = s.owed := by rfl
@[simp] theorem State.addSat_turn (s : State) (f : RF) (n : Nat) : (s.addSat f n).turn = s.turn := by rfl
@[simp] theorem State.addSat_outbox (s : State) (f : RF) (n : Nat) : (s.addSat f n).outbox = s.outbox := by rfl
@[simp] theorem State.addSat_streams (s : State) (f : RF) (n : Nat) : (s.addSat f n).streams = s.streams := by rfl
@[simp] theorem State.addSat_feeds (s : State) (f : RF) (n : Nat) : (s.addSat f n).feeds = s.feeds := by rfl
@[simp] theorem State.addSat_crews (s : State) (f : RF) (n : Nat) : (s.addSat f n).crews = s.crews := by rfl
@[simp] theorem State.addSat_runs (s : State) (f : RF) (n : Nat) : (s.addSat f n).runs = s.runs := by rfl
@[simp] theorem State.addSat_ended (s : State) (f : RF) (n : Nat) : (s.addSat f n).ended = s.ended := by rfl
@[simp] theorem State.addSat_seqs (s : State) (f : RF) (n : Nat) : (s.addSat f n).seqs = s.seqs := by rfl
@[simp] theorem State.addSat_therm (s : State) (f : RF) (n : Nat) : (s.addSat f n).therm = s.therm := by rfl
@[simp] theorem State.addSat_progs (s : State) (f : RF) (n : Nat) : (s.addSat f n).progs = s.progs := by rfl
@[simp] theorem State.addSat_scache (s : State) (f : RF) (n : Nat) : (s.addSat f n).scache = s.scache := by rfl
@[simp] theorem State.addSat_slotPic (s : State) (f : RF) (n : Nat) : (s.addSat f n).slotPic = s.slotPic := by rfl
@[simp] theorem State.addSat_slotSz (s : State) (f : RF) (n : Nat) : (s.addSat f n).slotSz = s.slotSz := by rfl
@[simp] theorem State.addSat_slotNref (s : State) (f : RF) (n : Nat) : (s.addSat f n).slotNref = s.slotNref := by rfl
@[simp] theorem State.addSat_slotC (s : State) (f : RF) (n : Nat) : (s.addSat f n).slotC = s.slotC := by rfl
@[simp] theorem State.addSat_retPend (s : State) (f : RF) (n : Nat) : (s.addSat f n).retPend = s.retPend := by rfl
@[simp] theorem State.addSat_egr (s : State) (f : RF) (n : Nat) : (s.addSat f n).egr = s.egr := by rfl
@[simp] theorem State.addSat_txFree (s : State) (f : RF) (n : Nat) : (s.addSat f n).txFree = s.txFree := by rfl
@[simp] theorem State.addSat_frameNo (s : State) (f : RF) (n : Nat) : (s.addSat f n).frameNo = s.frameNo := by rfl
@[simp] theorem State.addSat_rtpSeq (s : State) (f : RF) (n : Nat) : (s.addSat f n).rtpSeq = s.rtpSeq := by rfl
@[simp] theorem State.addSat_subs (s : State) (f : RF) (n : Nat) : (s.addSat f n).subs = s.subs := by rfl
@[simp] theorem State.addSat_shapers (s : State) (f : RF) (n : Nat) : (s.addSat f n).shapers = s.shapers := by rfl
@[simp] theorem State.addSat_gates (s : State) (f : RF) (n : Nat) : (s.addSat f n).gates = s.gates := by rfl
@[simp] theorem State.addSat_ptpRx (s : State) (f : RF) (n : Nat) : (s.addSat f n).ptpRx = s.ptpRx := by rfl
@[simp] theorem State.addSat_tsb (s : State) (f : RF) (n : Nat) : (s.addSat f n).tsb = s.tsb := by rfl
@[simp] theorem State.addSat_ptpServo (s : State) (f : RF) (n : Nat) : (s.addSat f n).ptpServo = s.ptpServo := by rfl
@[simp] theorem State.addSat_mem (s : State) (f : RF) (n : Nat) : (s.addSat f n).mem = s.mem := by rfl
@[simp] theorem State.addSat_injRecs (s : State) (f : RF) (n : Nat) : (s.addSat f n).injRecs = s.injRecs := by rfl
@[simp] theorem State.addSat_filled (s : State) (f : RF) (n : Nat) : (s.addSat f n).filled = s.filled := by rfl
@[simp] theorem State.addSat_images (s : State) (f : RF) (n : Nat) : (s.addSat f n).images = s.images := by rfl
@[simp] theorem State.addSat_chkLeft (s : State) (f : RF) (n : Nat) : (s.addSat f n).chkLeft = s.chkLeft := by rfl
@[simp] theorem State.addSat_badRows (s : State) (f : RF) (n : Nat) : (s.addSat f n).badRows = s.badRows := by rfl
@[simp] theorem State.addSat_lost (s : State) (f : RF) (n : Nat) : (s.addSat f n).lost = s.lost := by rfl
@[simp] theorem State.addSat_celCe (s : State) (f : RF) (n : Nat) : (s.addSat f n).celCe = s.celCe := by rfl
@[simp] theorem State.addSat_celDly (s : State) (f : RF) (n : Nat) : (s.addSat f n).celDly = s.celDly := by rfl
@[simp] theorem State.addSat_celVref (s : State) (f : RF) (n : Nat) : (s.addSat f n).celVref = s.celVref := by rfl
@[simp] theorem State.addSat_pcs (s : State) (f : RF) (n : Nat) : (s.addSat f n).pcs = s.pcs := by rfl
@[simp] theorem State.addSat_stackTab (s : State) (f : RF) (n : Nat) : (s.addSat f n).stackTab = s.stackTab := by rfl
@[simp] theorem State.addSat_ldrCol (s : State) (f : RF) (n : Nat) : (s.addSat f n).ldrCol = s.ldrCol := by rfl
@[simp] theorem State.addSat_training (s : State) (f : RF) (n : Nat) : (s.addSat f n).training = s.training := by rfl
@[simp] theorem State.addSat_adapting (s : State) (f : RF) (n : Nat) : (s.addSat f n).adapting = s.adapting := by rfl
@[simp] theorem State.addSat_laneSet (s : State) (f : RF) (n : Nat) : (s.addSat f n).laneSet = s.laneSet := by rfl
@[simp] theorem State.addSat_blFrom (s : State) (f : RF) (n : Nat) : (s.addSat f n).blFrom = s.blFrom := by rfl
@[simp] theorem State.addSat_qps (s : State) (f : RF) (n : Nat) : (s.addSat f n).qps = s.qps := by rfl
@[simp] theorem State.addSat_hchs (s : State) (f : RF) (n : Nat) : (s.addSat f n).hchs = s.hchs := by rfl
@[simp] theorem State.addSat_hgrant (s : State) (f : RF) (n : Nat) : (s.addSat f n).hgrant = s.hgrant := by rfl
@[simp] theorem State.addSat_ptpPos (s : State) (f : RF) (n : Nat) : (s.addSat f n).ptpPos = s.ptpPos := by rfl
@[simp] theorem State.addSat_cps (s : State) (f : RF) (n : Nat) : (s.addSat f n).cps = s.cps := by rfl
@[simp] theorem State.addSat_push (s : State) (f : RF) (n : Nat) : (s.addSat f n).push = s.push := by rfl
@[simp] theorem State.addSat_bank0 (s : State) (f : RF) (n : Nat) : (s.addSat f n).bank0 = s.bank0 := by rfl
@[simp] theorem State.addSat_bank1 (s : State) (f : RF) (n : Nat) : (s.addSat f n).bank1 = s.bank1 := by rfl
@[simp] theorem State.addSat_sleep (s : State) (f : RF) (n : Nat) : (s.addSat f n).sleep = s.sleep := by rfl
@[simp] theorem State.addSat_swap (s : State) (f : RF) (n : Nat) : (s.addSat f n).swap = s.swap := by rfl
@[simp] theorem State.addSat_resetReq (s : State) (f : RF) (n : Nat) : (s.addSat f n).resetReq = s.resetReq := by rfl
@[simp] theorem State.addSat_wakeN (s : State) (f : RF) (n : Nat) : (s.addSat f n).wakeN = s.wakeN := by rfl
@[simp] theorem State.addSat_rails (s : State) (f : RF) (n : Nat) : (s.addSat f n).rails = s.rails := by rfl
@[simp] theorem State.addSat_railF (s : State) (f : RF) (n : Nat) : (s.addSat f n).railF = s.railF := by rfl
@[simp] theorem State.addSat_avsAgain (s : State) (f : RF) (n : Nat) : (s.addSat f n).avsAgain = s.avsAgain := by rfl
@[simp] theorem State.addSat_voutExp (s : State) (f : RF) (n : Nat) : (s.addSat f n).voutExp = s.voutExp := by rfl
@[simp] theorem State.addSat_straps (s : State) (f : RF) (n : Nat) : (s.addSat f n).straps = s.straps := by rfl
@[simp] theorem State.addSat_strm (s : State) (f : RF) (n : Nat) (k : Nat) : (s.addSat f n).strm k = s.strm k := by rfl
@[simp] theorem State.addSat_gen (s : State) (f : RF) (n : Nat) (k : Nat) : (s.addSat f n).gen k = s.gen k := by rfl
@[simp] theorem State.addSat_feed (s : State) (f : RF) (n : Nat) (k : Nat) : (s.addSat f n).feed k = s.feed k := by rfl
@[simp] theorem State.addSat_crew (s : State) (f : RF) (n : Nat) (k : Nat) : (s.addSat f n).crew k = s.crew k := by rfl
@[simp] theorem State.addSat_run (s : State) (f : RF) (n : Nat) (k : Nat) : (s.addSat f n).run k = s.run k := by rfl
@[simp] theorem State.addSat_ring (s : State) (f : RF) (n : Nat) (k : Nat) : (s.addSat f n).ring k = s.ring k := by rfl
@[simp] theorem State.addSat_tallySrc (s : State) (f : RF) (n : Nat) (k : Nat) : (s.addSat f n).tallySrc k = s.tallySrc k := by rfl
@[simp] theorem State.addSat_cp (s : State) (f : RF) (n : Nat) (k : Nat) : (s.addSat f n).cp k = s.cp k := by rfl
@[simp] theorem State.addSat_slotPicOf (s : State) (f : RF) (n : Nat) (k : Nat) : (s.addSat f n).slotPicOf k = s.slotPicOf k := by rfl
@[simp] theorem State.addSat_window (s : State) (f : RF) (n : Nat) (k : Nat) : (s.addSat f n).window k = s.window k := by rfl
@[simp] theorem State.addSat_frames (s : State) (f : RF) (n : Nat) (k : Nat) : (s.addSat f n).frames k = s.frames k := by rfl
@[simp] theorem State.addSat_sub (s : State) (f : RF) (n : Nat) (k : Nat) : (s.addSat f n).sub k = s.sub k := by rfl
@[simp] theorem State.addSat_stack (s : State) (f : RF) (n : Nat) (k : Nat) : (s.addSat f n).stack k = s.stack k := by rfl
@[simp] theorem State.addSat_seq (s : State) (f : RF) (n : Nat) (k : Nat) : (s.addSat f n).seq k = s.seq k := by rfl
@[simp] theorem State.addSat_hch (s : State) (f : RF) (n : Nat) (k : Nat) : (s.addSat f n).hch k = s.hch k := by rfl
@[simp] theorem State.addSat_qp (s : State) (f : RF) (n : Nat) (k : Nat) : (s.addSat f n).qp k = s.qp k := by rfl

/-! ### bump -/

@[simp] theorem State.bump_pending (s : State) (f : RF) : (s.bump f).pending = s.pending := by rfl
@[simp] theorem State.bump_part (s : State) (f : RF) : (s.bump f).part = s.part := by rfl
@[simp] theorem State.bump_rst (s : State) (f : RF) : (s.bump f).rst = s.rst := by rfl
@[simp] theorem State.bump_now (s : State) (f : RF) : (s.bump f).now = s.now := by rfl
@[simp] theorem State.bump_prev (s : State) (f : RF) : (s.bump f).prev = s.prev := by rfl
@[simp] theorem State.bump_cyc (s : State) (f : RF) : (s.bump f).cyc = s.cyc := by rfl
@[simp] theorem State.bump_fired (s : State) (f : RF) : (s.bump f).fired = s.fired := by rfl
@[simp] theorem State.bump_hot (s : State) (f : RF) : (s.bump f).hot = s.hot := by rfl
@[simp] theorem State.bump_freed (s : State) (f : RF) : (s.bump f).freed = s.freed := by rfl
@[simp] theorem State.bump_waitDue (s : State) (f : RF) : (s.bump f).waitDue = s.waitDue := by rfl
@[simp] theorem State.bump_turns (s : State) (f : RF) : (s.bump f).turns = s.turns := by rfl
@[simp] theorem State.bump_rate (s : State) (f : RF) : (s.bump f).rate = s.rate := by rfl
@[simp] theorem State.bump_ppsNs (s : State) (f : RF) : (s.bump f).ppsNs = s.ppsNs := by rfl
@[simp] theorem State.bump_ppsHigh (s : State) (f : RF) : (s.bump f).ppsHigh = s.ppsHigh := by rfl
@[simp] theorem State.bump_relock (s : State) (f : RF) : (s.bump f).relock = s.relock := by rfl
@[simp] theorem State.bump_gens (s : State) (f : RF) : (s.bump f).gens = s.gens := by rfl
@[simp] theorem State.bump_freeCtr (s : State) (f : RF) : (s.bump f).freeCtr = s.freeCtr := by rfl
@[simp] theorem State.bump_held (s : State) (f : RF) : (s.bump f).held = s.held := by rfl
@[simp] theorem State.bump_heldWait (s : State) (f : RF) : (s.bump f).heldWait = s.heldWait := by rfl
@[simp] theorem State.bump_tsrc (s : State) (f : RF) : (s.bump f).tsrc = s.tsrc := by rfl
@[simp] theorem State.bump_twin (s : State) (f : RF) : (s.bump f).twin = s.twin := by rfl
@[simp] theorem State.bump_gath (s : State) (f : RF) : (s.bump f).gath = s.gath := by rfl
@[simp] theorem State.bump_claimed (s : State) (f : RF) : (s.bump f).claimed = s.claimed := by rfl
@[simp] theorem State.bump_tgtDef (s : State) (f : RF) : (s.bump f).tgtDef = s.tgtDef := by rfl
@[simp] theorem State.bump_holdOff (s : State) (f : RF) : (s.bump f).holdOff = s.holdOff := by rfl
@[simp] theorem State.bump_pins (s : State) (f : RF) : (s.bump f).pins = s.pins := by rfl
@[simp] theorem State.bump_looked (s : State) (f : RF) : (s.bump f).looked = s.looked := by rfl
@[simp] theorem State.bump_preempt (s : State) (f : RF) : (s.bump f).preempt = s.preempt := by rfl
@[simp] theorem State.bump_rings (s : State) (f : RF) : (s.bump f).rings = s.rings := by rfl
@[simp] theorem State.bump_fetched (s : State) (f : RF) : (s.bump f).fetched = s.fetched := by rfl
@[simp] theorem State.bump_lifted (s : State) (f : RF) : (s.bump f).lifted = s.lifted := by rfl
@[simp] theorem State.bump_owed (s : State) (f : RF) : (s.bump f).owed = s.owed := by rfl
@[simp] theorem State.bump_turn (s : State) (f : RF) : (s.bump f).turn = s.turn := by rfl
@[simp] theorem State.bump_outbox (s : State) (f : RF) : (s.bump f).outbox = s.outbox := by rfl
@[simp] theorem State.bump_streams (s : State) (f : RF) : (s.bump f).streams = s.streams := by rfl
@[simp] theorem State.bump_feeds (s : State) (f : RF) : (s.bump f).feeds = s.feeds := by rfl
@[simp] theorem State.bump_crews (s : State) (f : RF) : (s.bump f).crews = s.crews := by rfl
@[simp] theorem State.bump_runs (s : State) (f : RF) : (s.bump f).runs = s.runs := by rfl
@[simp] theorem State.bump_ended (s : State) (f : RF) : (s.bump f).ended = s.ended := by rfl
@[simp] theorem State.bump_seqs (s : State) (f : RF) : (s.bump f).seqs = s.seqs := by rfl
@[simp] theorem State.bump_therm (s : State) (f : RF) : (s.bump f).therm = s.therm := by rfl
@[simp] theorem State.bump_progs (s : State) (f : RF) : (s.bump f).progs = s.progs := by rfl
@[simp] theorem State.bump_scache (s : State) (f : RF) : (s.bump f).scache = s.scache := by rfl
@[simp] theorem State.bump_slotPic (s : State) (f : RF) : (s.bump f).slotPic = s.slotPic := by rfl
@[simp] theorem State.bump_slotSz (s : State) (f : RF) : (s.bump f).slotSz = s.slotSz := by rfl
@[simp] theorem State.bump_slotNref (s : State) (f : RF) : (s.bump f).slotNref = s.slotNref := by rfl
@[simp] theorem State.bump_slotC (s : State) (f : RF) : (s.bump f).slotC = s.slotC := by rfl
@[simp] theorem State.bump_retPend (s : State) (f : RF) : (s.bump f).retPend = s.retPend := by rfl
@[simp] theorem State.bump_egr (s : State) (f : RF) : (s.bump f).egr = s.egr := by rfl
@[simp] theorem State.bump_txFree (s : State) (f : RF) : (s.bump f).txFree = s.txFree := by rfl
@[simp] theorem State.bump_frameNo (s : State) (f : RF) : (s.bump f).frameNo = s.frameNo := by rfl
@[simp] theorem State.bump_rtpSeq (s : State) (f : RF) : (s.bump f).rtpSeq = s.rtpSeq := by rfl
@[simp] theorem State.bump_subs (s : State) (f : RF) : (s.bump f).subs = s.subs := by rfl
@[simp] theorem State.bump_shapers (s : State) (f : RF) : (s.bump f).shapers = s.shapers := by rfl
@[simp] theorem State.bump_gates (s : State) (f : RF) : (s.bump f).gates = s.gates := by rfl
@[simp] theorem State.bump_ptpRx (s : State) (f : RF) : (s.bump f).ptpRx = s.ptpRx := by rfl
@[simp] theorem State.bump_tsb (s : State) (f : RF) : (s.bump f).tsb = s.tsb := by rfl
@[simp] theorem State.bump_ptpServo (s : State) (f : RF) : (s.bump f).ptpServo = s.ptpServo := by rfl
@[simp] theorem State.bump_mem (s : State) (f : RF) : (s.bump f).mem = s.mem := by rfl
@[simp] theorem State.bump_injRecs (s : State) (f : RF) : (s.bump f).injRecs = s.injRecs := by rfl
@[simp] theorem State.bump_filled (s : State) (f : RF) : (s.bump f).filled = s.filled := by rfl
@[simp] theorem State.bump_images (s : State) (f : RF) : (s.bump f).images = s.images := by rfl
@[simp] theorem State.bump_chkLeft (s : State) (f : RF) : (s.bump f).chkLeft = s.chkLeft := by rfl
@[simp] theorem State.bump_badRows (s : State) (f : RF) : (s.bump f).badRows = s.badRows := by rfl
@[simp] theorem State.bump_lost (s : State) (f : RF) : (s.bump f).lost = s.lost := by rfl
@[simp] theorem State.bump_celCe (s : State) (f : RF) : (s.bump f).celCe = s.celCe := by rfl
@[simp] theorem State.bump_celDly (s : State) (f : RF) : (s.bump f).celDly = s.celDly := by rfl
@[simp] theorem State.bump_celVref (s : State) (f : RF) : (s.bump f).celVref = s.celVref := by rfl
@[simp] theorem State.bump_pcs (s : State) (f : RF) : (s.bump f).pcs = s.pcs := by rfl
@[simp] theorem State.bump_stackTab (s : State) (f : RF) : (s.bump f).stackTab = s.stackTab := by rfl
@[simp] theorem State.bump_ldrCol (s : State) (f : RF) : (s.bump f).ldrCol = s.ldrCol := by rfl
@[simp] theorem State.bump_training (s : State) (f : RF) : (s.bump f).training = s.training := by rfl
@[simp] theorem State.bump_adapting (s : State) (f : RF) : (s.bump f).adapting = s.adapting := by rfl
@[simp] theorem State.bump_laneSet (s : State) (f : RF) : (s.bump f).laneSet = s.laneSet := by rfl
@[simp] theorem State.bump_blFrom (s : State) (f : RF) : (s.bump f).blFrom = s.blFrom := by rfl
@[simp] theorem State.bump_qps (s : State) (f : RF) : (s.bump f).qps = s.qps := by rfl
@[simp] theorem State.bump_hchs (s : State) (f : RF) : (s.bump f).hchs = s.hchs := by rfl
@[simp] theorem State.bump_hgrant (s : State) (f : RF) : (s.bump f).hgrant = s.hgrant := by rfl
@[simp] theorem State.bump_ptpPos (s : State) (f : RF) : (s.bump f).ptpPos = s.ptpPos := by rfl
@[simp] theorem State.bump_cps (s : State) (f : RF) : (s.bump f).cps = s.cps := by rfl
@[simp] theorem State.bump_push (s : State) (f : RF) : (s.bump f).push = s.push := by rfl
@[simp] theorem State.bump_bank0 (s : State) (f : RF) : (s.bump f).bank0 = s.bank0 := by rfl
@[simp] theorem State.bump_bank1 (s : State) (f : RF) : (s.bump f).bank1 = s.bank1 := by rfl
@[simp] theorem State.bump_sleep (s : State) (f : RF) : (s.bump f).sleep = s.sleep := by rfl
@[simp] theorem State.bump_swap (s : State) (f : RF) : (s.bump f).swap = s.swap := by rfl
@[simp] theorem State.bump_resetReq (s : State) (f : RF) : (s.bump f).resetReq = s.resetReq := by rfl
@[simp] theorem State.bump_wakeN (s : State) (f : RF) : (s.bump f).wakeN = s.wakeN := by rfl
@[simp] theorem State.bump_rails (s : State) (f : RF) : (s.bump f).rails = s.rails := by rfl
@[simp] theorem State.bump_railF (s : State) (f : RF) : (s.bump f).railF = s.railF := by rfl
@[simp] theorem State.bump_avsAgain (s : State) (f : RF) : (s.bump f).avsAgain = s.avsAgain := by rfl
@[simp] theorem State.bump_voutExp (s : State) (f : RF) : (s.bump f).voutExp = s.voutExp := by rfl
@[simp] theorem State.bump_straps (s : State) (f : RF) : (s.bump f).straps = s.straps := by rfl
@[simp] theorem State.bump_strm (s : State) (f : RF) (k : Nat) : (s.bump f).strm k = s.strm k := by rfl
@[simp] theorem State.bump_gen (s : State) (f : RF) (k : Nat) : (s.bump f).gen k = s.gen k := by rfl
@[simp] theorem State.bump_feed (s : State) (f : RF) (k : Nat) : (s.bump f).feed k = s.feed k := by rfl
@[simp] theorem State.bump_crew (s : State) (f : RF) (k : Nat) : (s.bump f).crew k = s.crew k := by rfl
@[simp] theorem State.bump_run (s : State) (f : RF) (k : Nat) : (s.bump f).run k = s.run k := by rfl
@[simp] theorem State.bump_ring (s : State) (f : RF) (k : Nat) : (s.bump f).ring k = s.ring k := by rfl
@[simp] theorem State.bump_tallySrc (s : State) (f : RF) (k : Nat) : (s.bump f).tallySrc k = s.tallySrc k := by rfl
@[simp] theorem State.bump_cp (s : State) (f : RF) (k : Nat) : (s.bump f).cp k = s.cp k := by rfl
@[simp] theorem State.bump_slotPicOf (s : State) (f : RF) (k : Nat) : (s.bump f).slotPicOf k = s.slotPicOf k := by rfl
@[simp] theorem State.bump_window (s : State) (f : RF) (k : Nat) : (s.bump f).window k = s.window k := by rfl
@[simp] theorem State.bump_frames (s : State) (f : RF) (k : Nat) : (s.bump f).frames k = s.frames k := by rfl
@[simp] theorem State.bump_sub (s : State) (f : RF) (k : Nat) : (s.bump f).sub k = s.sub k := by rfl
@[simp] theorem State.bump_stack (s : State) (f : RF) (k : Nat) : (s.bump f).stack k = s.stack k := by rfl
@[simp] theorem State.bump_seq (s : State) (f : RF) (k : Nat) : (s.bump f).seq k = s.seq k := by rfl
@[simp] theorem State.bump_hch (s : State) (f : RF) (k : Nat) : (s.bump f).hch k = s.hch k := by rfl
@[simp] theorem State.bump_qp (s : State) (f : RF) (k : Nat) : (s.bump f).qp k = s.qp k := by rfl

/-! ### incMod -/

@[simp] theorem State.incMod_pending (s : State) (f : RF) : (s.incMod f).pending = s.pending := by rfl
@[simp] theorem State.incMod_part (s : State) (f : RF) : (s.incMod f).part = s.part := by rfl
@[simp] theorem State.incMod_rst (s : State) (f : RF) : (s.incMod f).rst = s.rst := by rfl
@[simp] theorem State.incMod_now (s : State) (f : RF) : (s.incMod f).now = s.now := by rfl
@[simp] theorem State.incMod_prev (s : State) (f : RF) : (s.incMod f).prev = s.prev := by rfl
@[simp] theorem State.incMod_cyc (s : State) (f : RF) : (s.incMod f).cyc = s.cyc := by rfl
@[simp] theorem State.incMod_fired (s : State) (f : RF) : (s.incMod f).fired = s.fired := by rfl
@[simp] theorem State.incMod_hot (s : State) (f : RF) : (s.incMod f).hot = s.hot := by rfl
@[simp] theorem State.incMod_freed (s : State) (f : RF) : (s.incMod f).freed = s.freed := by rfl
@[simp] theorem State.incMod_waitDue (s : State) (f : RF) : (s.incMod f).waitDue = s.waitDue := by rfl
@[simp] theorem State.incMod_turns (s : State) (f : RF) : (s.incMod f).turns = s.turns := by rfl
@[simp] theorem State.incMod_rate (s : State) (f : RF) : (s.incMod f).rate = s.rate := by rfl
@[simp] theorem State.incMod_ppsNs (s : State) (f : RF) : (s.incMod f).ppsNs = s.ppsNs := by rfl
@[simp] theorem State.incMod_ppsHigh (s : State) (f : RF) : (s.incMod f).ppsHigh = s.ppsHigh := by rfl
@[simp] theorem State.incMod_relock (s : State) (f : RF) : (s.incMod f).relock = s.relock := by rfl
@[simp] theorem State.incMod_gens (s : State) (f : RF) : (s.incMod f).gens = s.gens := by rfl
@[simp] theorem State.incMod_freeCtr (s : State) (f : RF) : (s.incMod f).freeCtr = s.freeCtr := by rfl
@[simp] theorem State.incMod_held (s : State) (f : RF) : (s.incMod f).held = s.held := by rfl
@[simp] theorem State.incMod_heldWait (s : State) (f : RF) : (s.incMod f).heldWait = s.heldWait := by rfl
@[simp] theorem State.incMod_tsrc (s : State) (f : RF) : (s.incMod f).tsrc = s.tsrc := by rfl
@[simp] theorem State.incMod_twin (s : State) (f : RF) : (s.incMod f).twin = s.twin := by rfl
@[simp] theorem State.incMod_gath (s : State) (f : RF) : (s.incMod f).gath = s.gath := by rfl
@[simp] theorem State.incMod_claimed (s : State) (f : RF) : (s.incMod f).claimed = s.claimed := by rfl
@[simp] theorem State.incMod_tgtDef (s : State) (f : RF) : (s.incMod f).tgtDef = s.tgtDef := by rfl
@[simp] theorem State.incMod_holdOff (s : State) (f : RF) : (s.incMod f).holdOff = s.holdOff := by rfl
@[simp] theorem State.incMod_pins (s : State) (f : RF) : (s.incMod f).pins = s.pins := by rfl
@[simp] theorem State.incMod_looked (s : State) (f : RF) : (s.incMod f).looked = s.looked := by rfl
@[simp] theorem State.incMod_preempt (s : State) (f : RF) : (s.incMod f).preempt = s.preempt := by rfl
@[simp] theorem State.incMod_rings (s : State) (f : RF) : (s.incMod f).rings = s.rings := by rfl
@[simp] theorem State.incMod_fetched (s : State) (f : RF) : (s.incMod f).fetched = s.fetched := by rfl
@[simp] theorem State.incMod_lifted (s : State) (f : RF) : (s.incMod f).lifted = s.lifted := by rfl
@[simp] theorem State.incMod_owed (s : State) (f : RF) : (s.incMod f).owed = s.owed := by rfl
@[simp] theorem State.incMod_turn (s : State) (f : RF) : (s.incMod f).turn = s.turn := by rfl
@[simp] theorem State.incMod_outbox (s : State) (f : RF) : (s.incMod f).outbox = s.outbox := by rfl
@[simp] theorem State.incMod_streams (s : State) (f : RF) : (s.incMod f).streams = s.streams := by rfl
@[simp] theorem State.incMod_feeds (s : State) (f : RF) : (s.incMod f).feeds = s.feeds := by rfl
@[simp] theorem State.incMod_crews (s : State) (f : RF) : (s.incMod f).crews = s.crews := by rfl
@[simp] theorem State.incMod_runs (s : State) (f : RF) : (s.incMod f).runs = s.runs := by rfl
@[simp] theorem State.incMod_ended (s : State) (f : RF) : (s.incMod f).ended = s.ended := by rfl
@[simp] theorem State.incMod_seqs (s : State) (f : RF) : (s.incMod f).seqs = s.seqs := by rfl
@[simp] theorem State.incMod_therm (s : State) (f : RF) : (s.incMod f).therm = s.therm := by rfl
@[simp] theorem State.incMod_progs (s : State) (f : RF) : (s.incMod f).progs = s.progs := by rfl
@[simp] theorem State.incMod_scache (s : State) (f : RF) : (s.incMod f).scache = s.scache := by rfl
@[simp] theorem State.incMod_slotPic (s : State) (f : RF) : (s.incMod f).slotPic = s.slotPic := by rfl
@[simp] theorem State.incMod_slotSz (s : State) (f : RF) : (s.incMod f).slotSz = s.slotSz := by rfl
@[simp] theorem State.incMod_slotNref (s : State) (f : RF) : (s.incMod f).slotNref = s.slotNref := by rfl
@[simp] theorem State.incMod_slotC (s : State) (f : RF) : (s.incMod f).slotC = s.slotC := by rfl
@[simp] theorem State.incMod_retPend (s : State) (f : RF) : (s.incMod f).retPend = s.retPend := by rfl
@[simp] theorem State.incMod_egr (s : State) (f : RF) : (s.incMod f).egr = s.egr := by rfl
@[simp] theorem State.incMod_txFree (s : State) (f : RF) : (s.incMod f).txFree = s.txFree := by rfl
@[simp] theorem State.incMod_frameNo (s : State) (f : RF) : (s.incMod f).frameNo = s.frameNo := by rfl
@[simp] theorem State.incMod_rtpSeq (s : State) (f : RF) : (s.incMod f).rtpSeq = s.rtpSeq := by rfl
@[simp] theorem State.incMod_subs (s : State) (f : RF) : (s.incMod f).subs = s.subs := by rfl
@[simp] theorem State.incMod_shapers (s : State) (f : RF) : (s.incMod f).shapers = s.shapers := by rfl
@[simp] theorem State.incMod_gates (s : State) (f : RF) : (s.incMod f).gates = s.gates := by rfl
@[simp] theorem State.incMod_ptpRx (s : State) (f : RF) : (s.incMod f).ptpRx = s.ptpRx := by rfl
@[simp] theorem State.incMod_tsb (s : State) (f : RF) : (s.incMod f).tsb = s.tsb := by rfl
@[simp] theorem State.incMod_ptpServo (s : State) (f : RF) : (s.incMod f).ptpServo = s.ptpServo := by rfl
@[simp] theorem State.incMod_mem (s : State) (f : RF) : (s.incMod f).mem = s.mem := by rfl
@[simp] theorem State.incMod_injRecs (s : State) (f : RF) : (s.incMod f).injRecs = s.injRecs := by rfl
@[simp] theorem State.incMod_filled (s : State) (f : RF) : (s.incMod f).filled = s.filled := by rfl
@[simp] theorem State.incMod_images (s : State) (f : RF) : (s.incMod f).images = s.images := by rfl
@[simp] theorem State.incMod_chkLeft (s : State) (f : RF) : (s.incMod f).chkLeft = s.chkLeft := by rfl
@[simp] theorem State.incMod_badRows (s : State) (f : RF) : (s.incMod f).badRows = s.badRows := by rfl
@[simp] theorem State.incMod_lost (s : State) (f : RF) : (s.incMod f).lost = s.lost := by rfl
@[simp] theorem State.incMod_celCe (s : State) (f : RF) : (s.incMod f).celCe = s.celCe := by rfl
@[simp] theorem State.incMod_celDly (s : State) (f : RF) : (s.incMod f).celDly = s.celDly := by rfl
@[simp] theorem State.incMod_celVref (s : State) (f : RF) : (s.incMod f).celVref = s.celVref := by rfl
@[simp] theorem State.incMod_pcs (s : State) (f : RF) : (s.incMod f).pcs = s.pcs := by rfl
@[simp] theorem State.incMod_stackTab (s : State) (f : RF) : (s.incMod f).stackTab = s.stackTab := by rfl
@[simp] theorem State.incMod_ldrCol (s : State) (f : RF) : (s.incMod f).ldrCol = s.ldrCol := by rfl
@[simp] theorem State.incMod_training (s : State) (f : RF) : (s.incMod f).training = s.training := by rfl
@[simp] theorem State.incMod_adapting (s : State) (f : RF) : (s.incMod f).adapting = s.adapting := by rfl
@[simp] theorem State.incMod_laneSet (s : State) (f : RF) : (s.incMod f).laneSet = s.laneSet := by rfl
@[simp] theorem State.incMod_blFrom (s : State) (f : RF) : (s.incMod f).blFrom = s.blFrom := by rfl
@[simp] theorem State.incMod_qps (s : State) (f : RF) : (s.incMod f).qps = s.qps := by rfl
@[simp] theorem State.incMod_hchs (s : State) (f : RF) : (s.incMod f).hchs = s.hchs := by rfl
@[simp] theorem State.incMod_hgrant (s : State) (f : RF) : (s.incMod f).hgrant = s.hgrant := by rfl
@[simp] theorem State.incMod_ptpPos (s : State) (f : RF) : (s.incMod f).ptpPos = s.ptpPos := by rfl
@[simp] theorem State.incMod_cps (s : State) (f : RF) : (s.incMod f).cps = s.cps := by rfl
@[simp] theorem State.incMod_push (s : State) (f : RF) : (s.incMod f).push = s.push := by rfl
@[simp] theorem State.incMod_bank0 (s : State) (f : RF) : (s.incMod f).bank0 = s.bank0 := by rfl
@[simp] theorem State.incMod_bank1 (s : State) (f : RF) : (s.incMod f).bank1 = s.bank1 := by rfl
@[simp] theorem State.incMod_sleep (s : State) (f : RF) : (s.incMod f).sleep = s.sleep := by rfl
@[simp] theorem State.incMod_swap (s : State) (f : RF) : (s.incMod f).swap = s.swap := by rfl
@[simp] theorem State.incMod_resetReq (s : State) (f : RF) : (s.incMod f).resetReq = s.resetReq := by rfl
@[simp] theorem State.incMod_wakeN (s : State) (f : RF) : (s.incMod f).wakeN = s.wakeN := by rfl
@[simp] theorem State.incMod_rails (s : State) (f : RF) : (s.incMod f).rails = s.rails := by rfl
@[simp] theorem State.incMod_railF (s : State) (f : RF) : (s.incMod f).railF = s.railF := by rfl
@[simp] theorem State.incMod_avsAgain (s : State) (f : RF) : (s.incMod f).avsAgain = s.avsAgain := by rfl
@[simp] theorem State.incMod_voutExp (s : State) (f : RF) : (s.incMod f).voutExp = s.voutExp := by rfl
@[simp] theorem State.incMod_straps (s : State) (f : RF) : (s.incMod f).straps = s.straps := by rfl
@[simp] theorem State.incMod_strm (s : State) (f : RF) (k : Nat) : (s.incMod f).strm k = s.strm k := by rfl
@[simp] theorem State.incMod_gen (s : State) (f : RF) (k : Nat) : (s.incMod f).gen k = s.gen k := by rfl
@[simp] theorem State.incMod_feed (s : State) (f : RF) (k : Nat) : (s.incMod f).feed k = s.feed k := by rfl
@[simp] theorem State.incMod_crew (s : State) (f : RF) (k : Nat) : (s.incMod f).crew k = s.crew k := by rfl
@[simp] theorem State.incMod_run (s : State) (f : RF) (k : Nat) : (s.incMod f).run k = s.run k := by rfl
@[simp] theorem State.incMod_ring (s : State) (f : RF) (k : Nat) : (s.incMod f).ring k = s.ring k := by rfl
@[simp] theorem State.incMod_tallySrc (s : State) (f : RF) (k : Nat) : (s.incMod f).tallySrc k = s.tallySrc k := by rfl
@[simp] theorem State.incMod_cp (s : State) (f : RF) (k : Nat) : (s.incMod f).cp k = s.cp k := by rfl
@[simp] theorem State.incMod_slotPicOf (s : State) (f : RF) (k : Nat) : (s.incMod f).slotPicOf k = s.slotPicOf k := by rfl
@[simp] theorem State.incMod_window (s : State) (f : RF) (k : Nat) : (s.incMod f).window k = s.window k := by rfl
@[simp] theorem State.incMod_frames (s : State) (f : RF) (k : Nat) : (s.incMod f).frames k = s.frames k := by rfl
@[simp] theorem State.incMod_sub (s : State) (f : RF) (k : Nat) : (s.incMod f).sub k = s.sub k := by rfl
@[simp] theorem State.incMod_stack (s : State) (f : RF) (k : Nat) : (s.incMod f).stack k = s.stack k := by rfl
@[simp] theorem State.incMod_seq (s : State) (f : RF) (k : Nat) : (s.incMod f).seq k = s.seq k := by rfl
@[simp] theorem State.incMod_hch (s : State) (f : RF) (k : Nat) : (s.incMod f).hch k = s.hch k := by rfl
@[simp] theorem State.incMod_qp (s : State) (f : RF) (k : Nat) : (s.incMod f).qp k = s.qp k := by rfl

/-! ### dropRegs -/

@[simp] theorem State.dropRegs_pending (s : State) (drop : Nat → Bool) : (s.dropRegs drop).pending = s.pending := by rfl
@[simp] theorem State.dropRegs_part (s : State) (drop : Nat → Bool) : (s.dropRegs drop).part = s.part := by rfl
@[simp] theorem State.dropRegs_rst (s : State) (drop : Nat → Bool) : (s.dropRegs drop).rst = s.rst := by rfl
@[simp] theorem State.dropRegs_now (s : State) (drop : Nat → Bool) : (s.dropRegs drop).now = s.now := by rfl
@[simp] theorem State.dropRegs_prev (s : State) (drop : Nat → Bool) : (s.dropRegs drop).prev = s.prev := by rfl
@[simp] theorem State.dropRegs_cyc (s : State) (drop : Nat → Bool) : (s.dropRegs drop).cyc = s.cyc := by rfl
@[simp] theorem State.dropRegs_fired (s : State) (drop : Nat → Bool) : (s.dropRegs drop).fired = s.fired := by rfl
@[simp] theorem State.dropRegs_hot (s : State) (drop : Nat → Bool) : (s.dropRegs drop).hot = s.hot := by rfl
@[simp] theorem State.dropRegs_freed (s : State) (drop : Nat → Bool) : (s.dropRegs drop).freed = s.freed := by rfl
@[simp] theorem State.dropRegs_waitDue (s : State) (drop : Nat → Bool) : (s.dropRegs drop).waitDue = s.waitDue := by rfl
@[simp] theorem State.dropRegs_turns (s : State) (drop : Nat → Bool) : (s.dropRegs drop).turns = s.turns := by rfl
@[simp] theorem State.dropRegs_rate (s : State) (drop : Nat → Bool) : (s.dropRegs drop).rate = s.rate := by rfl
@[simp] theorem State.dropRegs_ppsNs (s : State) (drop : Nat → Bool) : (s.dropRegs drop).ppsNs = s.ppsNs := by rfl
@[simp] theorem State.dropRegs_ppsHigh (s : State) (drop : Nat → Bool) : (s.dropRegs drop).ppsHigh = s.ppsHigh := by rfl
@[simp] theorem State.dropRegs_relock (s : State) (drop : Nat → Bool) : (s.dropRegs drop).relock = s.relock := by rfl
@[simp] theorem State.dropRegs_gens (s : State) (drop : Nat → Bool) : (s.dropRegs drop).gens = s.gens := by rfl
@[simp] theorem State.dropRegs_freeCtr (s : State) (drop : Nat → Bool) : (s.dropRegs drop).freeCtr = s.freeCtr := by rfl
@[simp] theorem State.dropRegs_held (s : State) (drop : Nat → Bool) : (s.dropRegs drop).held = s.held := by rfl
@[simp] theorem State.dropRegs_heldWait (s : State) (drop : Nat → Bool) : (s.dropRegs drop).heldWait = s.heldWait := by rfl
@[simp] theorem State.dropRegs_tsrc (s : State) (drop : Nat → Bool) : (s.dropRegs drop).tsrc = s.tsrc := by rfl
@[simp] theorem State.dropRegs_twin (s : State) (drop : Nat → Bool) : (s.dropRegs drop).twin = s.twin := by rfl
@[simp] theorem State.dropRegs_gath (s : State) (drop : Nat → Bool) : (s.dropRegs drop).gath = s.gath := by rfl
@[simp] theorem State.dropRegs_claimed (s : State) (drop : Nat → Bool) : (s.dropRegs drop).claimed = s.claimed := by rfl
@[simp] theorem State.dropRegs_tgtDef (s : State) (drop : Nat → Bool) : (s.dropRegs drop).tgtDef = s.tgtDef := by rfl
@[simp] theorem State.dropRegs_holdOff (s : State) (drop : Nat → Bool) : (s.dropRegs drop).holdOff = s.holdOff := by rfl
@[simp] theorem State.dropRegs_pins (s : State) (drop : Nat → Bool) : (s.dropRegs drop).pins = s.pins := by rfl
@[simp] theorem State.dropRegs_looked (s : State) (drop : Nat → Bool) : (s.dropRegs drop).looked = s.looked := by rfl
@[simp] theorem State.dropRegs_preempt (s : State) (drop : Nat → Bool) : (s.dropRegs drop).preempt = s.preempt := by rfl
@[simp] theorem State.dropRegs_rings (s : State) (drop : Nat → Bool) : (s.dropRegs drop).rings = s.rings := by rfl
@[simp] theorem State.dropRegs_fetched (s : State) (drop : Nat → Bool) : (s.dropRegs drop).fetched = s.fetched := by rfl
@[simp] theorem State.dropRegs_lifted (s : State) (drop : Nat → Bool) : (s.dropRegs drop).lifted = s.lifted := by rfl
@[simp] theorem State.dropRegs_owed (s : State) (drop : Nat → Bool) : (s.dropRegs drop).owed = s.owed := by rfl
@[simp] theorem State.dropRegs_turn (s : State) (drop : Nat → Bool) : (s.dropRegs drop).turn = s.turn := by rfl
@[simp] theorem State.dropRegs_outbox (s : State) (drop : Nat → Bool) : (s.dropRegs drop).outbox = s.outbox := by rfl
@[simp] theorem State.dropRegs_streams (s : State) (drop : Nat → Bool) : (s.dropRegs drop).streams = s.streams := by rfl
@[simp] theorem State.dropRegs_feeds (s : State) (drop : Nat → Bool) : (s.dropRegs drop).feeds = s.feeds := by rfl
@[simp] theorem State.dropRegs_crews (s : State) (drop : Nat → Bool) : (s.dropRegs drop).crews = s.crews := by rfl
@[simp] theorem State.dropRegs_runs (s : State) (drop : Nat → Bool) : (s.dropRegs drop).runs = s.runs := by rfl
@[simp] theorem State.dropRegs_ended (s : State) (drop : Nat → Bool) : (s.dropRegs drop).ended = s.ended := by rfl
@[simp] theorem State.dropRegs_seqs (s : State) (drop : Nat → Bool) : (s.dropRegs drop).seqs = s.seqs := by rfl
@[simp] theorem State.dropRegs_therm (s : State) (drop : Nat → Bool) : (s.dropRegs drop).therm = s.therm := by rfl
@[simp] theorem State.dropRegs_progs (s : State) (drop : Nat → Bool) : (s.dropRegs drop).progs = s.progs := by rfl
@[simp] theorem State.dropRegs_scache (s : State) (drop : Nat → Bool) : (s.dropRegs drop).scache = s.scache := by rfl
@[simp] theorem State.dropRegs_slotPic (s : State) (drop : Nat → Bool) : (s.dropRegs drop).slotPic = s.slotPic := by rfl
@[simp] theorem State.dropRegs_slotSz (s : State) (drop : Nat → Bool) : (s.dropRegs drop).slotSz = s.slotSz := by rfl
@[simp] theorem State.dropRegs_slotNref (s : State) (drop : Nat → Bool) : (s.dropRegs drop).slotNref = s.slotNref := by rfl
@[simp] theorem State.dropRegs_slotC (s : State) (drop : Nat → Bool) : (s.dropRegs drop).slotC = s.slotC := by rfl
@[simp] theorem State.dropRegs_retPend (s : State) (drop : Nat → Bool) : (s.dropRegs drop).retPend = s.retPend := by rfl
@[simp] theorem State.dropRegs_egr (s : State) (drop : Nat → Bool) : (s.dropRegs drop).egr = s.egr := by rfl
@[simp] theorem State.dropRegs_txFree (s : State) (drop : Nat → Bool) : (s.dropRegs drop).txFree = s.txFree := by rfl
@[simp] theorem State.dropRegs_frameNo (s : State) (drop : Nat → Bool) : (s.dropRegs drop).frameNo = s.frameNo := by rfl
@[simp] theorem State.dropRegs_rtpSeq (s : State) (drop : Nat → Bool) : (s.dropRegs drop).rtpSeq = s.rtpSeq := by rfl
@[simp] theorem State.dropRegs_subs (s : State) (drop : Nat → Bool) : (s.dropRegs drop).subs = s.subs := by rfl
@[simp] theorem State.dropRegs_shapers (s : State) (drop : Nat → Bool) : (s.dropRegs drop).shapers = s.shapers := by rfl
@[simp] theorem State.dropRegs_gates (s : State) (drop : Nat → Bool) : (s.dropRegs drop).gates = s.gates := by rfl
@[simp] theorem State.dropRegs_ptpRx (s : State) (drop : Nat → Bool) : (s.dropRegs drop).ptpRx = s.ptpRx := by rfl
@[simp] theorem State.dropRegs_tsb (s : State) (drop : Nat → Bool) : (s.dropRegs drop).tsb = s.tsb := by rfl
@[simp] theorem State.dropRegs_ptpServo (s : State) (drop : Nat → Bool) : (s.dropRegs drop).ptpServo = s.ptpServo := by rfl
@[simp] theorem State.dropRegs_mem (s : State) (drop : Nat → Bool) : (s.dropRegs drop).mem = s.mem := by rfl
@[simp] theorem State.dropRegs_injRecs (s : State) (drop : Nat → Bool) : (s.dropRegs drop).injRecs = s.injRecs := by rfl
@[simp] theorem State.dropRegs_filled (s : State) (drop : Nat → Bool) : (s.dropRegs drop).filled = s.filled := by rfl
@[simp] theorem State.dropRegs_images (s : State) (drop : Nat → Bool) : (s.dropRegs drop).images = s.images := by rfl
@[simp] theorem State.dropRegs_chkLeft (s : State) (drop : Nat → Bool) : (s.dropRegs drop).chkLeft = s.chkLeft := by rfl
@[simp] theorem State.dropRegs_badRows (s : State) (drop : Nat → Bool) : (s.dropRegs drop).badRows = s.badRows := by rfl
@[simp] theorem State.dropRegs_lost (s : State) (drop : Nat → Bool) : (s.dropRegs drop).lost = s.lost := by rfl
@[simp] theorem State.dropRegs_celCe (s : State) (drop : Nat → Bool) : (s.dropRegs drop).celCe = s.celCe := by rfl
@[simp] theorem State.dropRegs_celDly (s : State) (drop : Nat → Bool) : (s.dropRegs drop).celDly = s.celDly := by rfl
@[simp] theorem State.dropRegs_celVref (s : State) (drop : Nat → Bool) : (s.dropRegs drop).celVref = s.celVref := by rfl
@[simp] theorem State.dropRegs_pcs (s : State) (drop : Nat → Bool) : (s.dropRegs drop).pcs = s.pcs := by rfl
@[simp] theorem State.dropRegs_stackTab (s : State) (drop : Nat → Bool) : (s.dropRegs drop).stackTab = s.stackTab := by rfl
@[simp] theorem State.dropRegs_ldrCol (s : State) (drop : Nat → Bool) : (s.dropRegs drop).ldrCol = s.ldrCol := by rfl
@[simp] theorem State.dropRegs_training (s : State) (drop : Nat → Bool) : (s.dropRegs drop).training = s.training := by rfl
@[simp] theorem State.dropRegs_adapting (s : State) (drop : Nat → Bool) : (s.dropRegs drop).adapting = s.adapting := by rfl
@[simp] theorem State.dropRegs_laneSet (s : State) (drop : Nat → Bool) : (s.dropRegs drop).laneSet = s.laneSet := by rfl
@[simp] theorem State.dropRegs_blFrom (s : State) (drop : Nat → Bool) : (s.dropRegs drop).blFrom = s.blFrom := by rfl
@[simp] theorem State.dropRegs_qps (s : State) (drop : Nat → Bool) : (s.dropRegs drop).qps = s.qps := by rfl
@[simp] theorem State.dropRegs_hchs (s : State) (drop : Nat → Bool) : (s.dropRegs drop).hchs = s.hchs := by rfl
@[simp] theorem State.dropRegs_hgrant (s : State) (drop : Nat → Bool) : (s.dropRegs drop).hgrant = s.hgrant := by rfl
@[simp] theorem State.dropRegs_ptpPos (s : State) (drop : Nat → Bool) : (s.dropRegs drop).ptpPos = s.ptpPos := by rfl
@[simp] theorem State.dropRegs_cps (s : State) (drop : Nat → Bool) : (s.dropRegs drop).cps = s.cps := by rfl
@[simp] theorem State.dropRegs_push (s : State) (drop : Nat → Bool) : (s.dropRegs drop).push = s.push := by rfl
@[simp] theorem State.dropRegs_bank0 (s : State) (drop : Nat → Bool) : (s.dropRegs drop).bank0 = s.bank0 := by rfl
@[simp] theorem State.dropRegs_bank1 (s : State) (drop : Nat → Bool) : (s.dropRegs drop).bank1 = s.bank1 := by rfl
@[simp] theorem State.dropRegs_sleep (s : State) (drop : Nat → Bool) : (s.dropRegs drop).sleep = s.sleep := by rfl
@[simp] theorem State.dropRegs_swap (s : State) (drop : Nat → Bool) : (s.dropRegs drop).swap = s.swap := by rfl
@[simp] theorem State.dropRegs_resetReq (s : State) (drop : Nat → Bool) : (s.dropRegs drop).resetReq = s.resetReq := by rfl
@[simp] theorem State.dropRegs_wakeN (s : State) (drop : Nat → Bool) : (s.dropRegs drop).wakeN = s.wakeN := by rfl
@[simp] theorem State.dropRegs_rails (s : State) (drop : Nat → Bool) : (s.dropRegs drop).rails = s.rails := by rfl
@[simp] theorem State.dropRegs_railF (s : State) (drop : Nat → Bool) : (s.dropRegs drop).railF = s.railF := by rfl
@[simp] theorem State.dropRegs_avsAgain (s : State) (drop : Nat → Bool) : (s.dropRegs drop).avsAgain = s.avsAgain := by rfl
@[simp] theorem State.dropRegs_voutExp (s : State) (drop : Nat → Bool) : (s.dropRegs drop).voutExp = s.voutExp := by rfl
@[simp] theorem State.dropRegs_straps (s : State) (drop : Nat → Bool) : (s.dropRegs drop).straps = s.straps := by rfl
@[simp] theorem State.dropRegs_strm (s : State) (drop : Nat → Bool) (k : Nat) : (s.dropRegs drop).strm k = s.strm k := by rfl
@[simp] theorem State.dropRegs_gen (s : State) (drop : Nat → Bool) (k : Nat) : (s.dropRegs drop).gen k = s.gen k := by rfl
@[simp] theorem State.dropRegs_feed (s : State) (drop : Nat → Bool) (k : Nat) : (s.dropRegs drop).feed k = s.feed k := by rfl
@[simp] theorem State.dropRegs_crew (s : State) (drop : Nat → Bool) (k : Nat) : (s.dropRegs drop).crew k = s.crew k := by rfl
@[simp] theorem State.dropRegs_run (s : State) (drop : Nat → Bool) (k : Nat) : (s.dropRegs drop).run k = s.run k := by rfl
@[simp] theorem State.dropRegs_ring (s : State) (drop : Nat → Bool) (k : Nat) : (s.dropRegs drop).ring k = s.ring k := by rfl
@[simp] theorem State.dropRegs_tallySrc (s : State) (drop : Nat → Bool) (k : Nat) : (s.dropRegs drop).tallySrc k = s.tallySrc k := by rfl
@[simp] theorem State.dropRegs_cp (s : State) (drop : Nat → Bool) (k : Nat) : (s.dropRegs drop).cp k = s.cp k := by rfl
@[simp] theorem State.dropRegs_slotPicOf (s : State) (drop : Nat → Bool) (k : Nat) : (s.dropRegs drop).slotPicOf k = s.slotPicOf k := by rfl
@[simp] theorem State.dropRegs_window (s : State) (drop : Nat → Bool) (k : Nat) : (s.dropRegs drop).window k = s.window k := by rfl
@[simp] theorem State.dropRegs_frames (s : State) (drop : Nat → Bool) (k : Nat) : (s.dropRegs drop).frames k = s.frames k := by rfl
@[simp] theorem State.dropRegs_sub (s : State) (drop : Nat → Bool) (k : Nat) : (s.dropRegs drop).sub k = s.sub k := by rfl
@[simp] theorem State.dropRegs_stack (s : State) (drop : Nat → Bool) (k : Nat) : (s.dropRegs drop).stack k = s.stack k := by rfl
@[simp] theorem State.dropRegs_seq (s : State) (drop : Nat → Bool) (k : Nat) : (s.dropRegs drop).seq k = s.seq k := by rfl
@[simp] theorem State.dropRegs_hch (s : State) (drop : Nat → Bool) (k : Nat) : (s.dropRegs drop).hch k = s.hch k := by rfl
@[simp] theorem State.dropRegs_qp (s : State) (drop : Nat → Bool) (k : Nat) : (s.dropRegs drop).qp k = s.qp k := by rfl

/-! ### tick -/

@[simp] theorem State.tick_pending (s : State) : s.tick.pending = s.pending := by rfl
@[simp] theorem State.tick_regs (s : State) : s.tick.regs = s.regs := by rfl
@[simp] theorem State.tick_part (s : State) : s.tick.part = s.part := by rfl
@[simp] theorem State.tick_rst (s : State) : s.tick.rst = s.rst := by rfl
@[simp] theorem State.tick_waitDue (s : State) : s.tick.waitDue = s.waitDue := by rfl
@[simp] theorem State.tick_rate (s : State) : s.tick.rate = s.rate := by rfl
@[simp] theorem State.tick_ppsNs (s : State) : s.tick.ppsNs = s.ppsNs := by rfl
@[simp] theorem State.tick_ppsHigh (s : State) : s.tick.ppsHigh = s.ppsHigh := by rfl
@[simp] theorem State.tick_relock (s : State) : s.tick.relock = s.relock := by rfl
@[simp] theorem State.tick_gens (s : State) : s.tick.gens = s.gens := by rfl
@[simp] theorem State.tick_freeCtr (s : State) : s.tick.freeCtr = s.freeCtr := by rfl
@[simp] theorem State.tick_held (s : State) : s.tick.held = s.held := by rfl
@[simp] theorem State.tick_heldWait (s : State) : s.tick.heldWait = s.heldWait := by rfl
@[simp] theorem State.tick_tsrc (s : State) : s.tick.tsrc = s.tsrc := by rfl
@[simp] theorem State.tick_twin (s : State) : s.tick.twin = s.twin := by rfl
@[simp] theorem State.tick_gath (s : State) : s.tick.gath = s.gath := by rfl
@[simp] theorem State.tick_claimed (s : State) : s.tick.claimed = s.claimed := by rfl
@[simp] theorem State.tick_tgtDef (s : State) : s.tick.tgtDef = s.tgtDef := by rfl
@[simp] theorem State.tick_holdOff (s : State) : s.tick.holdOff = s.holdOff := by rfl
@[simp] theorem State.tick_pins (s : State) : s.tick.pins = s.pins := by rfl
@[simp] theorem State.tick_looked (s : State) : s.tick.looked = s.looked := by rfl
@[simp] theorem State.tick_preempt (s : State) : s.tick.preempt = s.preempt := by rfl
@[simp] theorem State.tick_rings (s : State) : s.tick.rings = s.rings := by rfl
@[simp] theorem State.tick_fetched (s : State) : s.tick.fetched = s.fetched := by rfl
@[simp] theorem State.tick_lifted (s : State) : s.tick.lifted = s.lifted := by rfl
@[simp] theorem State.tick_owed (s : State) : s.tick.owed = s.owed := by rfl
@[simp] theorem State.tick_turn (s : State) : s.tick.turn = s.turn := by rfl
@[simp] theorem State.tick_outbox (s : State) : s.tick.outbox = s.outbox := by rfl
@[simp] theorem State.tick_streams (s : State) : s.tick.streams = s.streams := by rfl
@[simp] theorem State.tick_feeds (s : State) : s.tick.feeds = s.feeds := by rfl
@[simp] theorem State.tick_crews (s : State) : s.tick.crews = s.crews := by rfl
@[simp] theorem State.tick_runs (s : State) : s.tick.runs = s.runs := by rfl
@[simp] theorem State.tick_ended (s : State) : s.tick.ended = s.ended := by rfl
@[simp] theorem State.tick_seqs (s : State) : s.tick.seqs = s.seqs := by rfl
@[simp] theorem State.tick_therm (s : State) : s.tick.therm = s.therm := by rfl
@[simp] theorem State.tick_progs (s : State) : s.tick.progs = s.progs := by rfl
@[simp] theorem State.tick_scache (s : State) : s.tick.scache = s.scache := by rfl
@[simp] theorem State.tick_slotPic (s : State) : s.tick.slotPic = s.slotPic := by rfl
@[simp] theorem State.tick_slotSz (s : State) : s.tick.slotSz = s.slotSz := by rfl
@[simp] theorem State.tick_slotNref (s : State) : s.tick.slotNref = s.slotNref := by rfl
@[simp] theorem State.tick_slotC (s : State) : s.tick.slotC = s.slotC := by rfl
@[simp] theorem State.tick_retPend (s : State) : s.tick.retPend = s.retPend := by rfl
@[simp] theorem State.tick_egr (s : State) : s.tick.egr = s.egr := by rfl
@[simp] theorem State.tick_txFree (s : State) : s.tick.txFree = s.txFree := by rfl
@[simp] theorem State.tick_frameNo (s : State) : s.tick.frameNo = s.frameNo := by rfl
@[simp] theorem State.tick_rtpSeq (s : State) : s.tick.rtpSeq = s.rtpSeq := by rfl
@[simp] theorem State.tick_subs (s : State) : s.tick.subs = s.subs := by rfl
@[simp] theorem State.tick_shapers (s : State) : s.tick.shapers = s.shapers := by rfl
@[simp] theorem State.tick_gates (s : State) : s.tick.gates = s.gates := by rfl
@[simp] theorem State.tick_ptpRx (s : State) : s.tick.ptpRx = s.ptpRx := by rfl
@[simp] theorem State.tick_tsb (s : State) : s.tick.tsb = s.tsb := by rfl
@[simp] theorem State.tick_ptpServo (s : State) : s.tick.ptpServo = s.ptpServo := by rfl
@[simp] theorem State.tick_mem (s : State) : s.tick.mem = s.mem := by rfl
@[simp] theorem State.tick_injRecs (s : State) : s.tick.injRecs = s.injRecs := by rfl
@[simp] theorem State.tick_filled (s : State) : s.tick.filled = s.filled := by rfl
@[simp] theorem State.tick_images (s : State) : s.tick.images = s.images := by rfl
@[simp] theorem State.tick_chkLeft (s : State) : s.tick.chkLeft = s.chkLeft := by rfl
@[simp] theorem State.tick_badRows (s : State) : s.tick.badRows = s.badRows := by rfl
@[simp] theorem State.tick_lost (s : State) : s.tick.lost = s.lost := by rfl
@[simp] theorem State.tick_celCe (s : State) : s.tick.celCe = s.celCe := by rfl
@[simp] theorem State.tick_celDly (s : State) : s.tick.celDly = s.celDly := by rfl
@[simp] theorem State.tick_celVref (s : State) : s.tick.celVref = s.celVref := by rfl
@[simp] theorem State.tick_pcs (s : State) : s.tick.pcs = s.pcs := by rfl
@[simp] theorem State.tick_stackTab (s : State) : s.tick.stackTab = s.stackTab := by rfl
@[simp] theorem State.tick_ldrCol (s : State) : s.tick.ldrCol = s.ldrCol := by rfl
@[simp] theorem State.tick_training (s : State) : s.tick.training = s.training := by rfl
@[simp] theorem State.tick_adapting (s : State) : s.tick.adapting = s.adapting := by rfl
@[simp] theorem State.tick_laneSet (s : State) : s.tick.laneSet = s.laneSet := by rfl
@[simp] theorem State.tick_blFrom (s : State) : s.tick.blFrom = s.blFrom := by rfl
@[simp] theorem State.tick_qps (s : State) : s.tick.qps = s.qps := by rfl
@[simp] theorem State.tick_hchs (s : State) : s.tick.hchs = s.hchs := by rfl
@[simp] theorem State.tick_hgrant (s : State) : s.tick.hgrant = s.hgrant := by rfl
@[simp] theorem State.tick_ptpPos (s : State) : s.tick.ptpPos = s.ptpPos := by rfl
@[simp] theorem State.tick_cps (s : State) : s.tick.cps = s.cps := by rfl
@[simp] theorem State.tick_push (s : State) : s.tick.push = s.push := by rfl
@[simp] theorem State.tick_bank0 (s : State) : s.tick.bank0 = s.bank0 := by rfl
@[simp] theorem State.tick_bank1 (s : State) : s.tick.bank1 = s.bank1 := by rfl
@[simp] theorem State.tick_sleep (s : State) : s.tick.sleep = s.sleep := by rfl
@[simp] theorem State.tick_swap (s : State) : s.tick.swap = s.swap := by rfl
@[simp] theorem State.tick_resetReq (s : State) : s.tick.resetReq = s.resetReq := by rfl
@[simp] theorem State.tick_wakeN (s : State) : s.tick.wakeN = s.wakeN := by rfl
@[simp] theorem State.tick_rails (s : State) : s.tick.rails = s.rails := by rfl
@[simp] theorem State.tick_railF (s : State) : s.tick.railF = s.railF := by rfl
@[simp] theorem State.tick_avsAgain (s : State) : s.tick.avsAgain = s.avsAgain := by rfl
@[simp] theorem State.tick_voutExp (s : State) : s.tick.voutExp = s.voutExp := by rfl
@[simp] theorem State.tick_straps (s : State) : s.tick.straps = s.straps := by rfl
@[simp] theorem State.tick_strm (s : State) (k : Nat) : s.tick.strm k = s.strm k := by rfl
@[simp] theorem State.tick_gen (s : State) (k : Nat) : s.tick.gen k = s.gen k := by rfl
@[simp] theorem State.tick_feed (s : State) (k : Nat) : s.tick.feed k = s.feed k := by rfl
@[simp] theorem State.tick_crew (s : State) (k : Nat) : s.tick.crew k = s.crew k := by rfl
@[simp] theorem State.tick_run (s : State) (k : Nat) : s.tick.run k = s.run k := by rfl
@[simp] theorem State.tick_ring (s : State) (k : Nat) : s.tick.ring k = s.ring k := by rfl
@[simp] theorem State.tick_tallySrc (s : State) (k : Nat) : s.tick.tallySrc k = s.tallySrc k := by rfl
@[simp] theorem State.tick_cp (s : State) (k : Nat) : s.tick.cp k = s.cp k := by rfl
@[simp] theorem State.tick_slotPicOf (s : State) (k : Nat) : s.tick.slotPicOf k = s.slotPicOf k := by rfl
@[simp] theorem State.tick_window (s : State) (k : Nat) : s.tick.window k = s.window k := by rfl
@[simp] theorem State.tick_frames (s : State) (k : Nat) : s.tick.frames k = s.frames k := by rfl
@[simp] theorem State.tick_sub (s : State) (k : Nat) : s.tick.sub k = s.sub k := by rfl
@[simp] theorem State.tick_stack (s : State) (k : Nat) : s.tick.stack k = s.stack k := by rfl
@[simp] theorem State.tick_seq (s : State) (k : Nat) : s.tick.seq k = s.seq k := by rfl
@[simp] theorem State.tick_hch (s : State) (k : Nat) : s.tick.hch k = s.hch k := by rfl
@[simp] theorem State.tick_qp (s : State) (k : Nat) : s.tick.qp k = s.qp k := by rfl
@[simp] theorem State.tick_get (s : State) (k : RF) : s.tick.get k = s.get k := by rfl
@[simp] theorem State.tick_flag (s : State) (k : RF) : s.tick.flag k = s.flag k := by rfl
@[simp] theorem State.tick_reg (s : State) (k : Nat) : s.tick.reg k = s.reg k := by rfl

/-! ### raise -/

@[simp] theorem State.raise_pending (s : State) (f : RF) : (s.raise f).pending = s.pending := by rfl
@[simp] theorem State.raise_part (s : State) (f : RF) : (s.raise f).part = s.part := by rfl
@[simp] theorem State.raise_rst (s : State) (f : RF) : (s.raise f).rst = s.rst := by rfl
@[simp] theorem State.raise_now (s : State) (f : RF) : (s.raise f).now = s.now := by rfl
@[simp] theorem State.raise_prev (s : State) (f : RF) : (s.raise f).prev = s.prev := by rfl
@[simp] theorem State.raise_cyc (s : State) (f : RF) : (s.raise f).cyc = s.cyc := by rfl
@[simp] theorem State.raise_fired (s : State) (f : RF) : (s.raise f).fired = s.fired := by rfl
@[simp] theorem State.raise_freed (s : State) (f : RF) : (s.raise f).freed = s.freed := by rfl
@[simp] theorem State.raise_waitDue (s : State) (f : RF) : (s.raise f).waitDue = s.waitDue := by rfl
@[simp] theorem State.raise_turns (s : State) (f : RF) : (s.raise f).turns = s.turns := by rfl
@[simp] theorem State.raise_rate (s : State) (f : RF) : (s.raise f).rate = s.rate := by rfl
@[simp] theorem State.raise_ppsNs (s : State) (f : RF) : (s.raise f).ppsNs = s.ppsNs := by rfl
@[simp] theorem State.raise_ppsHigh (s : State) (f : RF) : (s.raise f).ppsHigh = s.ppsHigh := by rfl
@[simp] theorem State.raise_relock (s : State) (f : RF) : (s.raise f).relock = s.relock := by rfl
@[simp] theorem State.raise_gens (s : State) (f : RF) : (s.raise f).gens = s.gens := by rfl
@[simp] theorem State.raise_freeCtr (s : State) (f : RF) : (s.raise f).freeCtr = s.freeCtr := by rfl
@[simp] theorem State.raise_held (s : State) (f : RF) : (s.raise f).held = s.held := by rfl
@[simp] theorem State.raise_heldWait (s : State) (f : RF) : (s.raise f).heldWait = s.heldWait := by rfl
@[simp] theorem State.raise_tsrc (s : State) (f : RF) : (s.raise f).tsrc = s.tsrc := by rfl
@[simp] theorem State.raise_twin (s : State) (f : RF) : (s.raise f).twin = s.twin := by rfl
@[simp] theorem State.raise_gath (s : State) (f : RF) : (s.raise f).gath = s.gath := by rfl
@[simp] theorem State.raise_claimed (s : State) (f : RF) : (s.raise f).claimed = s.claimed := by rfl
@[simp] theorem State.raise_tgtDef (s : State) (f : RF) : (s.raise f).tgtDef = s.tgtDef := by rfl
@[simp] theorem State.raise_holdOff (s : State) (f : RF) : (s.raise f).holdOff = s.holdOff := by rfl
@[simp] theorem State.raise_pins (s : State) (f : RF) : (s.raise f).pins = s.pins := by rfl
@[simp] theorem State.raise_looked (s : State) (f : RF) : (s.raise f).looked = s.looked := by rfl
@[simp] theorem State.raise_preempt (s : State) (f : RF) : (s.raise f).preempt = s.preempt := by rfl
@[simp] theorem State.raise_rings (s : State) (f : RF) : (s.raise f).rings = s.rings := by rfl
@[simp] theorem State.raise_fetched (s : State) (f : RF) : (s.raise f).fetched = s.fetched := by rfl
@[simp] theorem State.raise_lifted (s : State) (f : RF) : (s.raise f).lifted = s.lifted := by rfl
@[simp] theorem State.raise_owed (s : State) (f : RF) : (s.raise f).owed = s.owed := by rfl
@[simp] theorem State.raise_turn (s : State) (f : RF) : (s.raise f).turn = s.turn := by rfl
@[simp] theorem State.raise_outbox (s : State) (f : RF) : (s.raise f).outbox = s.outbox := by rfl
@[simp] theorem State.raise_streams (s : State) (f : RF) : (s.raise f).streams = s.streams := by rfl
@[simp] theorem State.raise_feeds (s : State) (f : RF) : (s.raise f).feeds = s.feeds := by rfl
@[simp] theorem State.raise_crews (s : State) (f : RF) : (s.raise f).crews = s.crews := by rfl
@[simp] theorem State.raise_runs (s : State) (f : RF) : (s.raise f).runs = s.runs := by rfl
@[simp] theorem State.raise_ended (s : State) (f : RF) : (s.raise f).ended = s.ended := by rfl
@[simp] theorem State.raise_seqs (s : State) (f : RF) : (s.raise f).seqs = s.seqs := by rfl
@[simp] theorem State.raise_therm (s : State) (f : RF) : (s.raise f).therm = s.therm := by rfl
@[simp] theorem State.raise_progs (s : State) (f : RF) : (s.raise f).progs = s.progs := by rfl
@[simp] theorem State.raise_scache (s : State) (f : RF) : (s.raise f).scache = s.scache := by rfl
@[simp] theorem State.raise_slotPic (s : State) (f : RF) : (s.raise f).slotPic = s.slotPic := by rfl
@[simp] theorem State.raise_slotSz (s : State) (f : RF) : (s.raise f).slotSz = s.slotSz := by rfl
@[simp] theorem State.raise_slotNref (s : State) (f : RF) : (s.raise f).slotNref = s.slotNref := by rfl
@[simp] theorem State.raise_slotC (s : State) (f : RF) : (s.raise f).slotC = s.slotC := by rfl
@[simp] theorem State.raise_retPend (s : State) (f : RF) : (s.raise f).retPend = s.retPend := by rfl
@[simp] theorem State.raise_egr (s : State) (f : RF) : (s.raise f).egr = s.egr := by rfl
@[simp] theorem State.raise_txFree (s : State) (f : RF) : (s.raise f).txFree = s.txFree := by rfl
@[simp] theorem State.raise_frameNo (s : State) (f : RF) : (s.raise f).frameNo = s.frameNo := by rfl
@[simp] theorem State.raise_rtpSeq (s : State) (f : RF) : (s.raise f).rtpSeq = s.rtpSeq := by rfl
@[simp] theorem State.raise_subs (s : State) (f : RF) : (s.raise f).subs = s.subs := by rfl
@[simp] theorem State.raise_shapers (s : State) (f : RF) : (s.raise f).shapers = s.shapers := by rfl
@[simp] theorem State.raise_gates (s : State) (f : RF) : (s.raise f).gates = s.gates := by rfl
@[simp] theorem State.raise_ptpRx (s : State) (f : RF) : (s.raise f).ptpRx = s.ptpRx := by rfl
@[simp] theorem State.raise_tsb (s : State) (f : RF) : (s.raise f).tsb = s.tsb := by rfl
@[simp] theorem State.raise_ptpServo (s : State) (f : RF) : (s.raise f).ptpServo = s.ptpServo := by rfl
@[simp] theorem State.raise_mem (s : State) (f : RF) : (s.raise f).mem = s.mem := by rfl
@[simp] theorem State.raise_injRecs (s : State) (f : RF) : (s.raise f).injRecs = s.injRecs := by rfl
@[simp] theorem State.raise_filled (s : State) (f : RF) : (s.raise f).filled = s.filled := by rfl
@[simp] theorem State.raise_images (s : State) (f : RF) : (s.raise f).images = s.images := by rfl
@[simp] theorem State.raise_chkLeft (s : State) (f : RF) : (s.raise f).chkLeft = s.chkLeft := by rfl
@[simp] theorem State.raise_badRows (s : State) (f : RF) : (s.raise f).badRows = s.badRows := by rfl
@[simp] theorem State.raise_lost (s : State) (f : RF) : (s.raise f).lost = s.lost := by rfl
@[simp] theorem State.raise_celCe (s : State) (f : RF) : (s.raise f).celCe = s.celCe := by rfl
@[simp] theorem State.raise_celDly (s : State) (f : RF) : (s.raise f).celDly = s.celDly := by rfl
@[simp] theorem State.raise_celVref (s : State) (f : RF) : (s.raise f).celVref = s.celVref := by rfl
@[simp] theorem State.raise_pcs (s : State) (f : RF) : (s.raise f).pcs = s.pcs := by rfl
@[simp] theorem State.raise_stackTab (s : State) (f : RF) : (s.raise f).stackTab = s.stackTab := by rfl
@[simp] theorem State.raise_ldrCol (s : State) (f : RF) : (s.raise f).ldrCol = s.ldrCol := by rfl
@[simp] theorem State.raise_training (s : State) (f : RF) : (s.raise f).training = s.training := by rfl
@[simp] theorem State.raise_adapting (s : State) (f : RF) : (s.raise f).adapting = s.adapting := by rfl
@[simp] theorem State.raise_laneSet (s : State) (f : RF) : (s.raise f).laneSet = s.laneSet := by rfl
@[simp] theorem State.raise_blFrom (s : State) (f : RF) : (s.raise f).blFrom = s.blFrom := by rfl
@[simp] theorem State.raise_qps (s : State) (f : RF) : (s.raise f).qps = s.qps := by rfl
@[simp] theorem State.raise_hchs (s : State) (f : RF) : (s.raise f).hchs = s.hchs := by rfl
@[simp] theorem State.raise_hgrant (s : State) (f : RF) : (s.raise f).hgrant = s.hgrant := by rfl
@[simp] theorem State.raise_ptpPos (s : State) (f : RF) : (s.raise f).ptpPos = s.ptpPos := by rfl
@[simp] theorem State.raise_cps (s : State) (f : RF) : (s.raise f).cps = s.cps := by rfl
@[simp] theorem State.raise_push (s : State) (f : RF) : (s.raise f).push = s.push := by rfl
@[simp] theorem State.raise_bank0 (s : State) (f : RF) : (s.raise f).bank0 = s.bank0 := by rfl
@[simp] theorem State.raise_bank1 (s : State) (f : RF) : (s.raise f).bank1 = s.bank1 := by rfl
@[simp] theorem State.raise_sleep (s : State) (f : RF) : (s.raise f).sleep = s.sleep := by rfl
@[simp] theorem State.raise_swap (s : State) (f : RF) : (s.raise f).swap = s.swap := by rfl
@[simp] theorem State.raise_resetReq (s : State) (f : RF) : (s.raise f).resetReq = s.resetReq := by rfl
@[simp] theorem State.raise_wakeN (s : State) (f : RF) : (s.raise f).wakeN = s.wakeN := by rfl
@[simp] theorem State.raise_rails (s : State) (f : RF) : (s.raise f).rails = s.rails := by rfl
@[simp] theorem State.raise_railF (s : State) (f : RF) : (s.raise f).railF = s.railF := by rfl
@[simp] theorem State.raise_avsAgain (s : State) (f : RF) : (s.raise f).avsAgain = s.avsAgain := by rfl
@[simp] theorem State.raise_voutExp (s : State) (f : RF) : (s.raise f).voutExp = s.voutExp := by rfl
@[simp] theorem State.raise_straps (s : State) (f : RF) : (s.raise f).straps = s.straps := by rfl
@[simp] theorem State.raise_strm (s : State) (f : RF) (k : Nat) : (s.raise f).strm k = s.strm k := by rfl
@[simp] theorem State.raise_gen (s : State) (f : RF) (k : Nat) : (s.raise f).gen k = s.gen k := by rfl
@[simp] theorem State.raise_feed (s : State) (f : RF) (k : Nat) : (s.raise f).feed k = s.feed k := by rfl
@[simp] theorem State.raise_crew (s : State) (f : RF) (k : Nat) : (s.raise f).crew k = s.crew k := by rfl
@[simp] theorem State.raise_run (s : State) (f : RF) (k : Nat) : (s.raise f).run k = s.run k := by rfl
@[simp] theorem State.raise_ring (s : State) (f : RF) (k : Nat) : (s.raise f).ring k = s.ring k := by rfl
@[simp] theorem State.raise_tallySrc (s : State) (f : RF) (k : Nat) : (s.raise f).tallySrc k = s.tallySrc k := by rfl
@[simp] theorem State.raise_cp (s : State) (f : RF) (k : Nat) : (s.raise f).cp k = s.cp k := by rfl
@[simp] theorem State.raise_slotPicOf (s : State) (f : RF) (k : Nat) : (s.raise f).slotPicOf k = s.slotPicOf k := by rfl
@[simp] theorem State.raise_window (s : State) (f : RF) (k : Nat) : (s.raise f).window k = s.window k := by rfl
@[simp] theorem State.raise_frames (s : State) (f : RF) (k : Nat) : (s.raise f).frames k = s.frames k := by rfl
@[simp] theorem State.raise_sub (s : State) (f : RF) (k : Nat) : (s.raise f).sub k = s.sub k := by rfl
@[simp] theorem State.raise_stack (s : State) (f : RF) (k : Nat) : (s.raise f).stack k = s.stack k := by rfl
@[simp] theorem State.raise_seq (s : State) (f : RF) (k : Nat) : (s.raise f).seq k = s.seq k := by rfl
@[simp] theorem State.raise_hch (s : State) (f : RF) (k : Nat) : (s.raise f).hch k = s.hch k := by rfl
@[simp] theorem State.raise_qp (s : State) (f : RF) (k : Nat) : (s.raise f).qp k = s.qp k := by rfl

/-! ### promote -/

@[simp] theorem State.promote_pending (s : State) (kind i : Nat) (w : Await) : (s.promote kind i w).pending = s.pending := by rfl
@[simp] theorem State.promote_regs (s : State) (kind i : Nat) (w : Await) : (s.promote kind i w).regs = s.regs := by rfl
@[simp] theorem State.promote_part (s : State) (kind i : Nat) (w : Await) : (s.promote kind i w).part = s.part := by rfl
@[simp] theorem State.promote_rst (s : State) (kind i : Nat) (w : Await) : (s.promote kind i w).rst = s.rst := by rfl
@[simp] theorem State.promote_now (s : State) (kind i : Nat) (w : Await) : (s.promote kind i w).now = s.now := by rfl
@[simp] theorem State.promote_prev (s : State) (kind i : Nat) (w : Await) : (s.promote kind i w).prev = s.prev := by rfl
@[simp] theorem State.promote_cyc (s : State) (kind i : Nat) (w : Await) : (s.promote kind i w).cyc = s.cyc := by rfl
@[simp] theorem State.promote_fired (s : State) (kind i : Nat) (w : Await) : (s.promote kind i w).fired = s.fired := by rfl
@[simp] theorem State.promote_hot (s : State) (kind i : Nat) (w : Await) : (s.promote kind i w).hot = s.hot := by rfl
@[simp] theorem State.promote_freed (s : State) (kind i : Nat) (w : Await) : (s.promote kind i w).freed = s.freed := by rfl
@[simp] theorem State.promote_waitDue (s : State) (kind i : Nat) (w : Await) : (s.promote kind i w).waitDue = s.waitDue := by rfl
@[simp] theorem State.promote_turns (s : State) (kind i : Nat) (w : Await) : (s.promote kind i w).turns = s.turns := by rfl
@[simp] theorem State.promote_rate (s : State) (kind i : Nat) (w : Await) : (s.promote kind i w).rate = s.rate := by rfl
@[simp] theorem State.promote_ppsNs (s : State) (kind i : Nat) (w : Await) : (s.promote kind i w).ppsNs = s.ppsNs := by rfl
@[simp] theorem State.promote_ppsHigh (s : State) (kind i : Nat) (w : Await) : (s.promote kind i w).ppsHigh = s.ppsHigh := by rfl
@[simp] theorem State.promote_relock (s : State) (kind i : Nat) (w : Await) : (s.promote kind i w).relock = s.relock := by rfl
@[simp] theorem State.promote_gens (s : State) (kind i : Nat) (w : Await) : (s.promote kind i w).gens = s.gens := by rfl
@[simp] theorem State.promote_freeCtr (s : State) (kind i : Nat) (w : Await) : (s.promote kind i w).freeCtr = s.freeCtr := by rfl
@[simp] theorem State.promote_held (s : State) (kind i : Nat) (w : Await) : (s.promote kind i w).held = s.held := by rfl
@[simp] theorem State.promote_heldWait (s : State) (kind i : Nat) (w : Await) : (s.promote kind i w).heldWait = s.heldWait := by rfl
@[simp] theorem State.promote_tsrc (s : State) (kind i : Nat) (w : Await) : (s.promote kind i w).tsrc = s.tsrc := by rfl
@[simp] theorem State.promote_twin (s : State) (kind i : Nat) (w : Await) : (s.promote kind i w).twin = s.twin := by rfl
@[simp] theorem State.promote_gath (s : State) (kind i : Nat) (w : Await) : (s.promote kind i w).gath = s.gath := by rfl
@[simp] theorem State.promote_claimed (s : State) (kind i : Nat) (w : Await) : (s.promote kind i w).claimed = s.claimed := by rfl
@[simp] theorem State.promote_tgtDef (s : State) (kind i : Nat) (w : Await) : (s.promote kind i w).tgtDef = s.tgtDef := by rfl
@[simp] theorem State.promote_holdOff (s : State) (kind i : Nat) (w : Await) : (s.promote kind i w).holdOff = s.holdOff := by rfl
@[simp] theorem State.promote_pins (s : State) (kind i : Nat) (w : Await) : (s.promote kind i w).pins = s.pins := by rfl
@[simp] theorem State.promote_looked (s : State) (kind i : Nat) (w : Await) : (s.promote kind i w).looked = s.looked := by rfl
@[simp] theorem State.promote_preempt (s : State) (kind i : Nat) (w : Await) : (s.promote kind i w).preempt = s.preempt := by rfl
@[simp] theorem State.promote_rings (s : State) (kind i : Nat) (w : Await) : (s.promote kind i w).rings = s.rings := by rfl
@[simp] theorem State.promote_fetched (s : State) (kind i : Nat) (w : Await) : (s.promote kind i w).fetched = s.fetched := by rfl
@[simp] theorem State.promote_lifted (s : State) (kind i : Nat) (w : Await) : (s.promote kind i w).lifted = s.lifted := by rfl
@[simp] theorem State.promote_turn (s : State) (kind i : Nat) (w : Await) : (s.promote kind i w).turn = s.turn := by rfl
@[simp] theorem State.promote_outbox (s : State) (kind i : Nat) (w : Await) : (s.promote kind i w).outbox = s.outbox := by rfl
@[simp] theorem State.promote_streams (s : State) (kind i : Nat) (w : Await) : (s.promote kind i w).streams = s.streams := by rfl
@[simp] theorem State.promote_feeds (s : State) (kind i : Nat) (w : Await) : (s.promote kind i w).feeds = s.feeds := by rfl
@[simp] theorem State.promote_crews (s : State) (kind i : Nat) (w : Await) : (s.promote kind i w).crews = s.crews := by rfl
@[simp] theorem State.promote_runs (s : State) (kind i : Nat) (w : Await) : (s.promote kind i w).runs = s.runs := by rfl
@[simp] theorem State.promote_ended (s : State) (kind i : Nat) (w : Await) : (s.promote kind i w).ended = s.ended := by rfl
@[simp] theorem State.promote_seqs (s : State) (kind i : Nat) (w : Await) : (s.promote kind i w).seqs = s.seqs := by rfl
@[simp] theorem State.promote_therm (s : State) (kind i : Nat) (w : Await) : (s.promote kind i w).therm = s.therm := by rfl
@[simp] theorem State.promote_progs (s : State) (kind i : Nat) (w : Await) : (s.promote kind i w).progs = s.progs := by rfl
@[simp] theorem State.promote_scache (s : State) (kind i : Nat) (w : Await) : (s.promote kind i w).scache = s.scache := by rfl
@[simp] theorem State.promote_slotPic (s : State) (kind i : Nat) (w : Await) : (s.promote kind i w).slotPic = s.slotPic := by rfl
@[simp] theorem State.promote_slotSz (s : State) (kind i : Nat) (w : Await) : (s.promote kind i w).slotSz = s.slotSz := by rfl
@[simp] theorem State.promote_slotNref (s : State) (kind i : Nat) (w : Await) : (s.promote kind i w).slotNref = s.slotNref := by rfl
@[simp] theorem State.promote_slotC (s : State) (kind i : Nat) (w : Await) : (s.promote kind i w).slotC = s.slotC := by rfl
@[simp] theorem State.promote_retPend (s : State) (kind i : Nat) (w : Await) : (s.promote kind i w).retPend = s.retPend := by rfl
@[simp] theorem State.promote_egr (s : State) (kind i : Nat) (w : Await) : (s.promote kind i w).egr = s.egr := by rfl
@[simp] theorem State.promote_txFree (s : State) (kind i : Nat) (w : Await) : (s.promote kind i w).txFree = s.txFree := by rfl
@[simp] theorem State.promote_frameNo (s : State) (kind i : Nat) (w : Await) : (s.promote kind i w).frameNo = s.frameNo := by rfl
@[simp] theorem State.promote_rtpSeq (s : State) (kind i : Nat) (w : Await) : (s.promote kind i w).rtpSeq = s.rtpSeq := by rfl
@[simp] theorem State.promote_subs (s : State) (kind i : Nat) (w : Await) : (s.promote kind i w).subs = s.subs := by rfl
@[simp] theorem State.promote_shapers (s : State) (kind i : Nat) (w : Await) : (s.promote kind i w).shapers = s.shapers := by rfl
@[simp] theorem State.promote_gates (s : State) (kind i : Nat) (w : Await) : (s.promote kind i w).gates = s.gates := by rfl
@[simp] theorem State.promote_ptpRx (s : State) (kind i : Nat) (w : Await) : (s.promote kind i w).ptpRx = s.ptpRx := by rfl
@[simp] theorem State.promote_tsb (s : State) (kind i : Nat) (w : Await) : (s.promote kind i w).tsb = s.tsb := by rfl
@[simp] theorem State.promote_ptpServo (s : State) (kind i : Nat) (w : Await) : (s.promote kind i w).ptpServo = s.ptpServo := by rfl
@[simp] theorem State.promote_mem (s : State) (kind i : Nat) (w : Await) : (s.promote kind i w).mem = s.mem := by rfl
@[simp] theorem State.promote_injRecs (s : State) (kind i : Nat) (w : Await) : (s.promote kind i w).injRecs = s.injRecs := by rfl
@[simp] theorem State.promote_filled (s : State) (kind i : Nat) (w : Await) : (s.promote kind i w).filled = s.filled := by rfl
@[simp] theorem State.promote_images (s : State) (kind i : Nat) (w : Await) : (s.promote kind i w).images = s.images := by rfl
@[simp] theorem State.promote_chkLeft (s : State) (kind i : Nat) (w : Await) : (s.promote kind i w).chkLeft = s.chkLeft := by rfl
@[simp] theorem State.promote_badRows (s : State) (kind i : Nat) (w : Await) : (s.promote kind i w).badRows = s.badRows := by rfl
@[simp] theorem State.promote_lost (s : State) (kind i : Nat) (w : Await) : (s.promote kind i w).lost = s.lost := by rfl
@[simp] theorem State.promote_celCe (s : State) (kind i : Nat) (w : Await) : (s.promote kind i w).celCe = s.celCe := by rfl
@[simp] theorem State.promote_celDly (s : State) (kind i : Nat) (w : Await) : (s.promote kind i w).celDly = s.celDly := by rfl
@[simp] theorem State.promote_celVref (s : State) (kind i : Nat) (w : Await) : (s.promote kind i w).celVref = s.celVref := by rfl
@[simp] theorem State.promote_pcs (s : State) (kind i : Nat) (w : Await) : (s.promote kind i w).pcs = s.pcs := by rfl
@[simp] theorem State.promote_stackTab (s : State) (kind i : Nat) (w : Await) : (s.promote kind i w).stackTab = s.stackTab := by rfl
@[simp] theorem State.promote_ldrCol (s : State) (kind i : Nat) (w : Await) : (s.promote kind i w).ldrCol = s.ldrCol := by rfl
@[simp] theorem State.promote_training (s : State) (kind i : Nat) (w : Await) : (s.promote kind i w).training = s.training := by rfl
@[simp] theorem State.promote_adapting (s : State) (kind i : Nat) (w : Await) : (s.promote kind i w).adapting = s.adapting := by rfl
@[simp] theorem State.promote_laneSet (s : State) (kind i : Nat) (w : Await) : (s.promote kind i w).laneSet = s.laneSet := by rfl
@[simp] theorem State.promote_blFrom (s : State) (kind i : Nat) (w : Await) : (s.promote kind i w).blFrom = s.blFrom := by rfl
@[simp] theorem State.promote_qps (s : State) (kind i : Nat) (w : Await) : (s.promote kind i w).qps = s.qps := by rfl
@[simp] theorem State.promote_hchs (s : State) (kind i : Nat) (w : Await) : (s.promote kind i w).hchs = s.hchs := by rfl
@[simp] theorem State.promote_hgrant (s : State) (kind i : Nat) (w : Await) : (s.promote kind i w).hgrant = s.hgrant := by rfl
@[simp] theorem State.promote_ptpPos (s : State) (kind i : Nat) (w : Await) : (s.promote kind i w).ptpPos = s.ptpPos := by rfl
@[simp] theorem State.promote_cps (s : State) (kind i : Nat) (w : Await) : (s.promote kind i w).cps = s.cps := by rfl
@[simp] theorem State.promote_push (s : State) (kind i : Nat) (w : Await) : (s.promote kind i w).push = s.push := by rfl
@[simp] theorem State.promote_bank0 (s : State) (kind i : Nat) (w : Await) : (s.promote kind i w).bank0 = s.bank0 := by rfl
@[simp] theorem State.promote_bank1 (s : State) (kind i : Nat) (w : Await) : (s.promote kind i w).bank1 = s.bank1 := by rfl
@[simp] theorem State.promote_sleep (s : State) (kind i : Nat) (w : Await) : (s.promote kind i w).sleep = s.sleep := by rfl
@[simp] theorem State.promote_swap (s : State) (kind i : Nat) (w : Await) : (s.promote kind i w).swap = s.swap := by rfl
@[simp] theorem State.promote_resetReq (s : State) (kind i : Nat) (w : Await) : (s.promote kind i w).resetReq = s.resetReq := by rfl
@[simp] theorem State.promote_wakeN (s : State) (kind i : Nat) (w : Await) : (s.promote kind i w).wakeN = s.wakeN := by rfl
@[simp] theorem State.promote_rails (s : State) (kind i : Nat) (w : Await) : (s.promote kind i w).rails = s.rails := by rfl
@[simp] theorem State.promote_railF (s : State) (kind i : Nat) (w : Await) : (s.promote kind i w).railF = s.railF := by rfl
@[simp] theorem State.promote_avsAgain (s : State) (kind i : Nat) (w : Await) : (s.promote kind i w).avsAgain = s.avsAgain := by rfl
@[simp] theorem State.promote_voutExp (s : State) (kind i : Nat) (w : Await) : (s.promote kind i w).voutExp = s.voutExp := by rfl
@[simp] theorem State.promote_straps (s : State) (kind i : Nat) (w : Await) : (s.promote kind i w).straps = s.straps := by rfl
@[simp] theorem State.promote_strm (s : State) (kind i : Nat) (w : Await) (k : Nat) : (s.promote kind i w).strm k = s.strm k := by rfl
@[simp] theorem State.promote_gen (s : State) (kind i : Nat) (w : Await) (k : Nat) : (s.promote kind i w).gen k = s.gen k := by rfl
@[simp] theorem State.promote_feed (s : State) (kind i : Nat) (w : Await) (k : Nat) : (s.promote kind i w).feed k = s.feed k := by rfl
@[simp] theorem State.promote_crew (s : State) (kind i : Nat) (w : Await) (k : Nat) : (s.promote kind i w).crew k = s.crew k := by rfl
@[simp] theorem State.promote_run (s : State) (kind i : Nat) (w : Await) (k : Nat) : (s.promote kind i w).run k = s.run k := by rfl
@[simp] theorem State.promote_ring (s : State) (kind i : Nat) (w : Await) (k : Nat) : (s.promote kind i w).ring k = s.ring k := by rfl
@[simp] theorem State.promote_tallySrc (s : State) (kind i : Nat) (w : Await) (k : Nat) : (s.promote kind i w).tallySrc k = s.tallySrc k := by rfl
@[simp] theorem State.promote_cp (s : State) (kind i : Nat) (w : Await) (k : Nat) : (s.promote kind i w).cp k = s.cp k := by rfl
@[simp] theorem State.promote_slotPicOf (s : State) (kind i : Nat) (w : Await) (k : Nat) : (s.promote kind i w).slotPicOf k = s.slotPicOf k := by rfl
@[simp] theorem State.promote_window (s : State) (kind i : Nat) (w : Await) (k : Nat) : (s.promote kind i w).window k = s.window k := by rfl
@[simp] theorem State.promote_frames (s : State) (kind i : Nat) (w : Await) (k : Nat) : (s.promote kind i w).frames k = s.frames k := by rfl
@[simp] theorem State.promote_sub (s : State) (kind i : Nat) (w : Await) (k : Nat) : (s.promote kind i w).sub k = s.sub k := by rfl
@[simp] theorem State.promote_stack (s : State) (kind i : Nat) (w : Await) (k : Nat) : (s.promote kind i w).stack k = s.stack k := by rfl
@[simp] theorem State.promote_seq (s : State) (kind i : Nat) (w : Await) (k : Nat) : (s.promote kind i w).seq k = s.seq k := by rfl
@[simp] theorem State.promote_hch (s : State) (kind i : Nat) (w : Await) (k : Nat) : (s.promote kind i w).hch k = s.hch k := by rfl
@[simp] theorem State.promote_qp (s : State) (kind i : Nat) (w : Await) (k : Nat) : (s.promote kind i w).qp k = s.qp k := by rfl
@[simp] theorem State.promote_get (s : State) (kind i : Nat) (w : Await) (k : RF) : (s.promote kind i w).get k = s.get k := by rfl
@[simp] theorem State.promote_flag (s : State) (kind i : Nat) (w : Await) (k : RF) : (s.promote kind i w).flag k = s.flag k := by rfl
@[simp] theorem State.promote_reg (s : State) (kind i : Nat) (w : Await) (k : Nat) : (s.promote kind i w).reg k = s.reg k := by rfl

/-! ### slotStart -/

@[simp] theorem State.slotStart_pending (s : State) (n slot nref : Nat) : (s.slotStart n slot nref).pending = s.pending := by rfl
@[simp] theorem State.slotStart_regs (s : State) (n slot nref : Nat) : (s.slotStart n slot nref).regs = s.regs := by rfl
@[simp] theorem State.slotStart_part (s : State) (n slot nref : Nat) : (s.slotStart n slot nref).part = s.part := by rfl
@[simp] theorem State.slotStart_rst (s : State) (n slot nref : Nat) : (s.slotStart n slot nref).rst = s.rst := by rfl
@[simp] theorem State.slotStart_now (s : State) (n slot nref : Nat) : (s.slotStart n slot nref).now = s.now := by rfl
@[simp] theorem State.slotStart_prev (s : State) (n slot nref : Nat) : (s.slotStart n slot nref).prev = s.prev := by rfl
@[simp] theorem State.slotStart_cyc (s : State) (n slot nref : Nat) : (s.slotStart n slot nref).cyc = s.cyc := by rfl
@[simp] theorem State.slotStart_fired (s : State) (n slot nref : Nat) : (s.slotStart n slot nref).fired = s.fired := by rfl
@[simp] theorem State.slotStart_hot (s : State) (n slot nref : Nat) : (s.slotStart n slot nref).hot = s.hot := by rfl
@[simp] theorem State.slotStart_waitDue (s : State) (n slot nref : Nat) : (s.slotStart n slot nref).waitDue = s.waitDue := by rfl
@[simp] theorem State.slotStart_turns (s : State) (n slot nref : Nat) : (s.slotStart n slot nref).turns = s.turns := by rfl
@[simp] theorem State.slotStart_rate (s : State) (n slot nref : Nat) : (s.slotStart n slot nref).rate = s.rate := by rfl
@[simp] theorem State.slotStart_ppsNs (s : State) (n slot nref : Nat) : (s.slotStart n slot nref).ppsNs = s.ppsNs := by rfl
@[simp] theorem State.slotStart_ppsHigh (s : State) (n slot nref : Nat) : (s.slotStart n slot nref).ppsHigh = s.ppsHigh := by rfl
@[simp] theorem State.slotStart_relock (s : State) (n slot nref : Nat) : (s.slotStart n slot nref).relock = s.relock := by rfl
@[simp] theorem State.slotStart_gens (s : State) (n slot nref : Nat) : (s.slotStart n slot nref).gens = s.gens := by rfl
@[simp] theorem State.slotStart_held (s : State) (n slot nref : Nat) : (s.slotStart n slot nref).held = s.held := by rfl
@[simp] theorem State.slotStart_heldWait (s : State) (n slot nref : Nat) : (s.slotStart n slot nref).heldWait = s.heldWait := by rfl
@[simp] theorem State.slotStart_tsrc (s : State) (n slot nref : Nat) : (s.slotStart n slot nref).tsrc = s.tsrc := by rfl
@[simp] theorem State.slotStart_twin (s : State) (n slot nref : Nat) : (s.slotStart n slot nref).twin = s.twin := by rfl
@[simp] theorem State.slotStart_gath (s : State) (n slot nref : Nat) : (s.slotStart n slot nref).gath = s.gath := by rfl
@[simp] theorem State.slotStart_claimed (s : State) (n slot nref : Nat) : (s.slotStart n slot nref).claimed = s.claimed := by rfl
@[simp] theorem State.slotStart_tgtDef (s : State) (n slot nref : Nat) : (s.slotStart n slot nref).tgtDef = s.tgtDef := by rfl
@[simp] theorem State.slotStart_holdOff (s : State) (n slot nref : Nat) : (s.slotStart n slot nref).holdOff = s.holdOff := by rfl
@[simp] theorem State.slotStart_pins (s : State) (n slot nref : Nat) : (s.slotStart n slot nref).pins = s.pins := by rfl
@[simp] theorem State.slotStart_looked (s : State) (n slot nref : Nat) : (s.slotStart n slot nref).looked = s.looked := by rfl
@[simp] theorem State.slotStart_preempt (s : State) (n slot nref : Nat) : (s.slotStart n slot nref).preempt = s.preempt := by rfl
@[simp] theorem State.slotStart_rings (s : State) (n slot nref : Nat) : (s.slotStart n slot nref).rings = s.rings := by rfl
@[simp] theorem State.slotStart_fetched (s : State) (n slot nref : Nat) : (s.slotStart n slot nref).fetched = s.fetched := by rfl
@[simp] theorem State.slotStart_lifted (s : State) (n slot nref : Nat) : (s.slotStart n slot nref).lifted = s.lifted := by rfl
@[simp] theorem State.slotStart_owed (s : State) (n slot nref : Nat) : (s.slotStart n slot nref).owed = s.owed := by rfl
@[simp] theorem State.slotStart_turn (s : State) (n slot nref : Nat) : (s.slotStart n slot nref).turn = s.turn := by rfl
@[simp] theorem State.slotStart_outbox (s : State) (n slot nref : Nat) : (s.slotStart n slot nref).outbox = s.outbox := by rfl
@[simp] theorem State.slotStart_streams (s : State) (n slot nref : Nat) : (s.slotStart n slot nref).streams = s.streams := by rfl
@[simp] theorem State.slotStart_feeds (s : State) (n slot nref : Nat) : (s.slotStart n slot nref).feeds = s.feeds := by rfl
@[simp] theorem State.slotStart_crews (s : State) (n slot nref : Nat) : (s.slotStart n slot nref).crews = s.crews := by rfl
@[simp] theorem State.slotStart_runs (s : State) (n slot nref : Nat) : (s.slotStart n slot nref).runs = s.runs := by rfl
@[simp] theorem State.slotStart_ended (s : State) (n slot nref : Nat) : (s.slotStart n slot nref).ended = s.ended := by rfl
@[simp] theorem State.slotStart_seqs (s : State) (n slot nref : Nat) : (s.slotStart n slot nref).seqs = s.seqs := by rfl
@[simp] theorem State.slotStart_therm (s : State) (n slot nref : Nat) : (s.slotStart n slot nref).therm = s.therm := by rfl
@[simp] theorem State.slotStart_progs (s : State) (n slot nref : Nat) : (s.slotStart n slot nref).progs = s.progs := by rfl
@[simp] theorem State.slotStart_slotPic (s : State) (n slot nref : Nat) : (s.slotStart n slot nref).slotPic = s.slotPic := by rfl
@[simp] theorem State.slotStart_slotSz (s : State) (n slot nref : Nat) : (s.slotStart n slot nref).slotSz = s.slotSz := by rfl
@[simp] theorem State.slotStart_retPend (s : State) (n slot nref : Nat) : (s.slotStart n slot nref).retPend = s.retPend := by rfl
@[simp] theorem State.slotStart_egr (s : State) (n slot nref : Nat) : (s.slotStart n slot nref).egr = s.egr := by rfl
@[simp] theorem State.slotStart_txFree (s : State) (n slot nref : Nat) : (s.slotStart n slot nref).txFree = s.txFree := by rfl
@[simp] theorem State.slotStart_frameNo (s : State) (n slot nref : Nat) : (s.slotStart n slot nref).frameNo = s.frameNo := by rfl
@[simp] theorem State.slotStart_rtpSeq (s : State) (n slot nref : Nat) : (s.slotStart n slot nref).rtpSeq = s.rtpSeq := by rfl
@[simp] theorem State.slotStart_subs (s : State) (n slot nref : Nat) : (s.slotStart n slot nref).subs = s.subs := by rfl
@[simp] theorem State.slotStart_shapers (s : State) (n slot nref : Nat) : (s.slotStart n slot nref).shapers = s.shapers := by rfl
@[simp] theorem State.slotStart_gates (s : State) (n slot nref : Nat) : (s.slotStart n slot nref).gates = s.gates := by rfl
@[simp] theorem State.slotStart_ptpRx (s : State) (n slot nref : Nat) : (s.slotStart n slot nref).ptpRx = s.ptpRx := by rfl
@[simp] theorem State.slotStart_tsb (s : State) (n slot nref : Nat) : (s.slotStart n slot nref).tsb = s.tsb := by rfl
@[simp] theorem State.slotStart_ptpServo (s : State) (n slot nref : Nat) : (s.slotStart n slot nref).ptpServo = s.ptpServo := by rfl
@[simp] theorem State.slotStart_mem (s : State) (n slot nref : Nat) : (s.slotStart n slot nref).mem = s.mem := by rfl
@[simp] theorem State.slotStart_injRecs (s : State) (n slot nref : Nat) : (s.slotStart n slot nref).injRecs = s.injRecs := by rfl
@[simp] theorem State.slotStart_filled (s : State) (n slot nref : Nat) : (s.slotStart n slot nref).filled = s.filled := by rfl
@[simp] theorem State.slotStart_images (s : State) (n slot nref : Nat) : (s.slotStart n slot nref).images = s.images := by rfl
@[simp] theorem State.slotStart_chkLeft (s : State) (n slot nref : Nat) : (s.slotStart n slot nref).chkLeft = s.chkLeft := by rfl
@[simp] theorem State.slotStart_badRows (s : State) (n slot nref : Nat) : (s.slotStart n slot nref).badRows = s.badRows := by rfl
@[simp] theorem State.slotStart_lost (s : State) (n slot nref : Nat) : (s.slotStart n slot nref).lost = s.lost := by rfl
@[simp] theorem State.slotStart_celCe (s : State) (n slot nref : Nat) : (s.slotStart n slot nref).celCe = s.celCe := by rfl
@[simp] theorem State.slotStart_celDly (s : State) (n slot nref : Nat) : (s.slotStart n slot nref).celDly = s.celDly := by rfl
@[simp] theorem State.slotStart_celVref (s : State) (n slot nref : Nat) : (s.slotStart n slot nref).celVref = s.celVref := by rfl
@[simp] theorem State.slotStart_pcs (s : State) (n slot nref : Nat) : (s.slotStart n slot nref).pcs = s.pcs := by rfl
@[simp] theorem State.slotStart_stackTab (s : State) (n slot nref : Nat) : (s.slotStart n slot nref).stackTab = s.stackTab := by rfl
@[simp] theorem State.slotStart_ldrCol (s : State) (n slot nref : Nat) : (s.slotStart n slot nref).ldrCol = s.ldrCol := by rfl
@[simp] theorem State.slotStart_training (s : State) (n slot nref : Nat) : (s.slotStart n slot nref).training = s.training := by rfl
@[simp] theorem State.slotStart_adapting (s : State) (n slot nref : Nat) : (s.slotStart n slot nref).adapting = s.adapting := by rfl
@[simp] theorem State.slotStart_laneSet (s : State) (n slot nref : Nat) : (s.slotStart n slot nref).laneSet = s.laneSet := by rfl
@[simp] theorem State.slotStart_blFrom (s : State) (n slot nref : Nat) : (s.slotStart n slot nref).blFrom = s.blFrom := by rfl
@[simp] theorem State.slotStart_qps (s : State) (n slot nref : Nat) : (s.slotStart n slot nref).qps = s.qps := by rfl
@[simp] theorem State.slotStart_hchs (s : State) (n slot nref : Nat) : (s.slotStart n slot nref).hchs = s.hchs := by rfl
@[simp] theorem State.slotStart_hgrant (s : State) (n slot nref : Nat) : (s.slotStart n slot nref).hgrant = s.hgrant := by rfl
@[simp] theorem State.slotStart_ptpPos (s : State) (n slot nref : Nat) : (s.slotStart n slot nref).ptpPos = s.ptpPos := by rfl
@[simp] theorem State.slotStart_cps (s : State) (n slot nref : Nat) : (s.slotStart n slot nref).cps = s.cps := by rfl
@[simp] theorem State.slotStart_push (s : State) (n slot nref : Nat) : (s.slotStart n slot nref).push = s.push := by rfl
@[simp] theorem State.slotStart_bank0 (s : State) (n slot nref : Nat) : (s.slotStart n slot nref).bank0 = s.bank0 := by rfl
@[simp] theorem State.slotStart_bank1 (s : State) (n slot nref : Nat) : (s.slotStart n slot nref).bank1 = s.bank1 := by rfl
@[simp] theorem State.slotStart_sleep (s : State) (n slot nref : Nat) : (s.slotStart n slot nref).sleep = s.sleep := by rfl
@[simp] theorem State.slotStart_swap (s : State) (n slot nref : Nat) : (s.slotStart n slot nref).swap = s.swap := by rfl
@[simp] theorem State.slotStart_resetReq (s : State) (n slot nref : Nat) : (s.slotStart n slot nref).resetReq = s.resetReq := by rfl
@[simp] theorem State.slotStart_wakeN (s : State) (n slot nref : Nat) : (s.slotStart n slot nref).wakeN = s.wakeN := by rfl
@[simp] theorem State.slotStart_rails (s : State) (n slot nref : Nat) : (s.slotStart n slot nref).rails = s.rails := by rfl
@[simp] theorem State.slotStart_railF (s : State) (n slot nref : Nat) : (s.slotStart n slot nref).railF = s.railF := by rfl
@[simp] theorem State.slotStart_avsAgain (s : State) (n slot nref : Nat) : (s.slotStart n slot nref).avsAgain = s.avsAgain := by rfl
@[simp] theorem State.slotStart_voutExp (s : State) (n slot nref : Nat) : (s.slotStart n slot nref).voutExp = s.voutExp := by rfl
@[simp] theorem State.slotStart_straps (s : State) (n slot nref : Nat) : (s.slotStart n slot nref).straps = s.straps := by rfl
@[simp] theorem State.slotStart_strm (s : State) (n slot nref : Nat) (k : Nat) : (s.slotStart n slot nref).strm k = s.strm k := by rfl
@[simp] theorem State.slotStart_gen (s : State) (n slot nref : Nat) (k : Nat) : (s.slotStart n slot nref).gen k = s.gen k := by rfl
@[simp] theorem State.slotStart_feed (s : State) (n slot nref : Nat) (k : Nat) : (s.slotStart n slot nref).feed k = s.feed k := by rfl
@[simp] theorem State.slotStart_crew (s : State) (n slot nref : Nat) (k : Nat) : (s.slotStart n slot nref).crew k = s.crew k := by rfl
@[simp] theorem State.slotStart_run (s : State) (n slot nref : Nat) (k : Nat) : (s.slotStart n slot nref).run k = s.run k := by rfl
@[simp] theorem State.slotStart_ring (s : State) (n slot nref : Nat) (k : Nat) : (s.slotStart n slot nref).ring k = s.ring k := by rfl
@[simp] theorem State.slotStart_tallySrc (s : State) (n slot nref : Nat) (k : Nat) : (s.slotStart n slot nref).tallySrc k = s.tallySrc k := by rfl
@[simp] theorem State.slotStart_cp (s : State) (n slot nref : Nat) (k : Nat) : (s.slotStart n slot nref).cp k = s.cp k := by rfl
@[simp] theorem State.slotStart_slotPicOf (s : State) (n slot nref : Nat) (k : Nat) : (s.slotStart n slot nref).slotPicOf k = s.slotPicOf k := by rfl
@[simp] theorem State.slotStart_window (s : State) (n slot nref : Nat) (k : Nat) : (s.slotStart n slot nref).window k = s.window k := by rfl
@[simp] theorem State.slotStart_frames (s : State) (n slot nref : Nat) (k : Nat) : (s.slotStart n slot nref).frames k = s.frames k := by rfl
@[simp] theorem State.slotStart_sub (s : State) (n slot nref : Nat) (k : Nat) : (s.slotStart n slot nref).sub k = s.sub k := by rfl
@[simp] theorem State.slotStart_stack (s : State) (n slot nref : Nat) (k : Nat) : (s.slotStart n slot nref).stack k = s.stack k := by rfl
@[simp] theorem State.slotStart_seq (s : State) (n slot nref : Nat) (k : Nat) : (s.slotStart n slot nref).seq k = s.seq k := by rfl
@[simp] theorem State.slotStart_hch (s : State) (n slot nref : Nat) (k : Nat) : (s.slotStart n slot nref).hch k = s.hch k := by rfl
@[simp] theorem State.slotStart_qp (s : State) (n slot nref : Nat) (k : Nat) : (s.slotStart n slot nref).qp k = s.qp k := by rfl
@[simp] theorem State.slotStart_get (s : State) (n slot nref : Nat) (k : RF) : (s.slotStart n slot nref).get k = s.get k := by rfl
@[simp] theorem State.slotStart_flag (s : State) (n slot nref : Nat) (k : RF) : (s.slotStart n slot nref).flag k = s.flag k := by rfl
@[simp] theorem State.slotStart_reg (s : State) (n slot nref : Nat) (k : Nat) : (s.slotStart n slot nref).reg k = s.reg k := by rfl

/-! ### setGen -/

@[simp] theorem State.setGen_pending (s : State) (g : Nat) (v : GenS) : (s.setGen g v).pending = s.pending := by rfl
@[simp] theorem State.setGen_regs (s : State) (g : Nat) (v : GenS) : (s.setGen g v).regs = s.regs := by rfl
@[simp] theorem State.setGen_part (s : State) (g : Nat) (v : GenS) : (s.setGen g v).part = s.part := by rfl
@[simp] theorem State.setGen_rst (s : State) (g : Nat) (v : GenS) : (s.setGen g v).rst = s.rst := by rfl
@[simp] theorem State.setGen_now (s : State) (g : Nat) (v : GenS) : (s.setGen g v).now = s.now := by rfl
@[simp] theorem State.setGen_prev (s : State) (g : Nat) (v : GenS) : (s.setGen g v).prev = s.prev := by rfl
@[simp] theorem State.setGen_cyc (s : State) (g : Nat) (v : GenS) : (s.setGen g v).cyc = s.cyc := by rfl
@[simp] theorem State.setGen_fired (s : State) (g : Nat) (v : GenS) : (s.setGen g v).fired = s.fired := by rfl
@[simp] theorem State.setGen_hot (s : State) (g : Nat) (v : GenS) : (s.setGen g v).hot = s.hot := by rfl
@[simp] theorem State.setGen_freed (s : State) (g : Nat) (v : GenS) : (s.setGen g v).freed = s.freed := by rfl
@[simp] theorem State.setGen_waitDue (s : State) (g : Nat) (v : GenS) : (s.setGen g v).waitDue = s.waitDue := by rfl
@[simp] theorem State.setGen_turns (s : State) (g : Nat) (v : GenS) : (s.setGen g v).turns = s.turns := by rfl
@[simp] theorem State.setGen_rate (s : State) (g : Nat) (v : GenS) : (s.setGen g v).rate = s.rate := by rfl
@[simp] theorem State.setGen_ppsNs (s : State) (g : Nat) (v : GenS) : (s.setGen g v).ppsNs = s.ppsNs := by rfl
@[simp] theorem State.setGen_ppsHigh (s : State) (g : Nat) (v : GenS) : (s.setGen g v).ppsHigh = s.ppsHigh := by rfl
@[simp] theorem State.setGen_relock (s : State) (g : Nat) (v : GenS) : (s.setGen g v).relock = s.relock := by rfl
@[simp] theorem State.setGen_freeCtr (s : State) (g : Nat) (v : GenS) : (s.setGen g v).freeCtr = s.freeCtr := by rfl
@[simp] theorem State.setGen_held (s : State) (g : Nat) (v : GenS) : (s.setGen g v).held = s.held := by rfl
@[simp] theorem State.setGen_heldWait (s : State) (g : Nat) (v : GenS) : (s.setGen g v).heldWait = s.heldWait := by rfl
@[simp] theorem State.setGen_tsrc (s : State) (g : Nat) (v : GenS) : (s.setGen g v).tsrc = s.tsrc := by rfl
@[simp] theorem State.setGen_twin (s : State) (g : Nat) (v : GenS) : (s.setGen g v).twin = s.twin := by rfl
@[simp] theorem State.setGen_gath (s : State) (g : Nat) (v : GenS) : (s.setGen g v).gath = s.gath := by rfl
@[simp] theorem State.setGen_claimed (s : State) (g : Nat) (v : GenS) : (s.setGen g v).claimed = s.claimed := by rfl
@[simp] theorem State.setGen_tgtDef (s : State) (g : Nat) (v : GenS) : (s.setGen g v).tgtDef = s.tgtDef := by rfl
@[simp] theorem State.setGen_holdOff (s : State) (g : Nat) (v : GenS) : (s.setGen g v).holdOff = s.holdOff := by rfl
@[simp] theorem State.setGen_pins (s : State) (g : Nat) (v : GenS) : (s.setGen g v).pins = s.pins := by rfl
@[simp] theorem State.setGen_looked (s : State) (g : Nat) (v : GenS) : (s.setGen g v).looked = s.looked := by rfl
@[simp] theorem State.setGen_preempt (s : State) (g : Nat) (v : GenS) : (s.setGen g v).preempt = s.preempt := by rfl
@[simp] theorem State.setGen_rings (s : State) (g : Nat) (v : GenS) : (s.setGen g v).rings = s.rings := by rfl
@[simp] theorem State.setGen_fetched (s : State) (g : Nat) (v : GenS) : (s.setGen g v).fetched = s.fetched := by rfl
@[simp] theorem State.setGen_lifted (s : State) (g : Nat) (v : GenS) : (s.setGen g v).lifted = s.lifted := by rfl
@[simp] theorem State.setGen_owed (s : State) (g : Nat) (v : GenS) : (s.setGen g v).owed = s.owed := by rfl
@[simp] theorem State.setGen_turn (s : State) (g : Nat) (v : GenS) : (s.setGen g v).turn = s.turn := by rfl
@[simp] theorem State.setGen_outbox (s : State) (g : Nat) (v : GenS) : (s.setGen g v).outbox = s.outbox := by rfl
@[simp] theorem State.setGen_streams (s : State) (g : Nat) (v : GenS) : (s.setGen g v).streams = s.streams := by rfl
@[simp] theorem State.setGen_feeds (s : State) (g : Nat) (v : GenS) : (s.setGen g v).feeds = s.feeds := by rfl
@[simp] theorem State.setGen_crews (s : State) (g : Nat) (v : GenS) : (s.setGen g v).crews = s.crews := by rfl
@[simp] theorem State.setGen_runs (s : State) (g : Nat) (v : GenS) : (s.setGen g v).runs = s.runs := by rfl
@[simp] theorem State.setGen_ended (s : State) (g : Nat) (v : GenS) : (s.setGen g v).ended = s.ended := by rfl
@[simp] theorem State.setGen_seqs (s : State) (g : Nat) (v : GenS) : (s.setGen g v).seqs = s.seqs := by rfl
@[simp] theorem State.setGen_therm (s : State) (g : Nat) (v : GenS) : (s.setGen g v).therm = s.therm := by rfl
@[simp] theorem State.setGen_progs (s : State) (g : Nat) (v : GenS) : (s.setGen g v).progs = s.progs := by rfl
@[simp] theorem State.setGen_scache (s : State) (g : Nat) (v : GenS) : (s.setGen g v).scache = s.scache := by rfl
@[simp] theorem State.setGen_slotPic (s : State) (g : Nat) (v : GenS) : (s.setGen g v).slotPic = s.slotPic := by rfl
@[simp] theorem State.setGen_slotSz (s : State) (g : Nat) (v : GenS) : (s.setGen g v).slotSz = s.slotSz := by rfl
@[simp] theorem State.setGen_slotNref (s : State) (g : Nat) (v : GenS) : (s.setGen g v).slotNref = s.slotNref := by rfl
@[simp] theorem State.setGen_slotC (s : State) (g : Nat) (v : GenS) : (s.setGen g v).slotC = s.slotC := by rfl
@[simp] theorem State.setGen_retPend (s : State) (g : Nat) (v : GenS) : (s.setGen g v).retPend = s.retPend := by rfl
@[simp] theorem State.setGen_egr (s : State) (g : Nat) (v : GenS) : (s.setGen g v).egr = s.egr := by rfl
@[simp] theorem State.setGen_txFree (s : State) (g : Nat) (v : GenS) : (s.setGen g v).txFree = s.txFree := by rfl
@[simp] theorem State.setGen_frameNo (s : State) (g : Nat) (v : GenS) : (s.setGen g v).frameNo = s.frameNo := by rfl
@[simp] theorem State.setGen_rtpSeq (s : State) (g : Nat) (v : GenS) : (s.setGen g v).rtpSeq = s.rtpSeq := by rfl
@[simp] theorem State.setGen_subs (s : State) (g : Nat) (v : GenS) : (s.setGen g v).subs = s.subs := by rfl
@[simp] theorem State.setGen_shapers (s : State) (g : Nat) (v : GenS) : (s.setGen g v).shapers = s.shapers := by rfl
@[simp] theorem State.setGen_gates (s : State) (g : Nat) (v : GenS) : (s.setGen g v).gates = s.gates := by rfl
@[simp] theorem State.setGen_ptpRx (s : State) (g : Nat) (v : GenS) : (s.setGen g v).ptpRx = s.ptpRx := by rfl
@[simp] theorem State.setGen_tsb (s : State) (g : Nat) (v : GenS) : (s.setGen g v).tsb = s.tsb := by rfl
@[simp] theorem State.setGen_ptpServo (s : State) (g : Nat) (v : GenS) : (s.setGen g v).ptpServo = s.ptpServo := by rfl
@[simp] theorem State.setGen_mem (s : State) (g : Nat) (v : GenS) : (s.setGen g v).mem = s.mem := by rfl
@[simp] theorem State.setGen_injRecs (s : State) (g : Nat) (v : GenS) : (s.setGen g v).injRecs = s.injRecs := by rfl
@[simp] theorem State.setGen_filled (s : State) (g : Nat) (v : GenS) : (s.setGen g v).filled = s.filled := by rfl
@[simp] theorem State.setGen_images (s : State) (g : Nat) (v : GenS) : (s.setGen g v).images = s.images := by rfl
@[simp] theorem State.setGen_chkLeft (s : State) (g : Nat) (v : GenS) : (s.setGen g v).chkLeft = s.chkLeft := by rfl
@[simp] theorem State.setGen_badRows (s : State) (g : Nat) (v : GenS) : (s.setGen g v).badRows = s.badRows := by rfl
@[simp] theorem State.setGen_lost (s : State) (g : Nat) (v : GenS) : (s.setGen g v).lost = s.lost := by rfl
@[simp] theorem State.setGen_celCe (s : State) (g : Nat) (v : GenS) : (s.setGen g v).celCe = s.celCe := by rfl
@[simp] theorem State.setGen_celDly (s : State) (g : Nat) (v : GenS) : (s.setGen g v).celDly = s.celDly := by rfl
@[simp] theorem State.setGen_celVref (s : State) (g : Nat) (v : GenS) : (s.setGen g v).celVref = s.celVref := by rfl
@[simp] theorem State.setGen_pcs (s : State) (g : Nat) (v : GenS) : (s.setGen g v).pcs = s.pcs := by rfl
@[simp] theorem State.setGen_stackTab (s : State) (g : Nat) (v : GenS) : (s.setGen g v).stackTab = s.stackTab := by rfl
@[simp] theorem State.setGen_ldrCol (s : State) (g : Nat) (v : GenS) : (s.setGen g v).ldrCol = s.ldrCol := by rfl
@[simp] theorem State.setGen_training (s : State) (g : Nat) (v : GenS) : (s.setGen g v).training = s.training := by rfl
@[simp] theorem State.setGen_adapting (s : State) (g : Nat) (v : GenS) : (s.setGen g v).adapting = s.adapting := by rfl
@[simp] theorem State.setGen_laneSet (s : State) (g : Nat) (v : GenS) : (s.setGen g v).laneSet = s.laneSet := by rfl
@[simp] theorem State.setGen_blFrom (s : State) (g : Nat) (v : GenS) : (s.setGen g v).blFrom = s.blFrom := by rfl
@[simp] theorem State.setGen_qps (s : State) (g : Nat) (v : GenS) : (s.setGen g v).qps = s.qps := by rfl
@[simp] theorem State.setGen_hchs (s : State) (g : Nat) (v : GenS) : (s.setGen g v).hchs = s.hchs := by rfl
@[simp] theorem State.setGen_hgrant (s : State) (g : Nat) (v : GenS) : (s.setGen g v).hgrant = s.hgrant := by rfl
@[simp] theorem State.setGen_ptpPos (s : State) (g : Nat) (v : GenS) : (s.setGen g v).ptpPos = s.ptpPos := by rfl
@[simp] theorem State.setGen_cps (s : State) (g : Nat) (v : GenS) : (s.setGen g v).cps = s.cps := by rfl
@[simp] theorem State.setGen_push (s : State) (g : Nat) (v : GenS) : (s.setGen g v).push = s.push := by rfl
@[simp] theorem State.setGen_bank0 (s : State) (g : Nat) (v : GenS) : (s.setGen g v).bank0 = s.bank0 := by rfl
@[simp] theorem State.setGen_bank1 (s : State) (g : Nat) (v : GenS) : (s.setGen g v).bank1 = s.bank1 := by rfl
@[simp] theorem State.setGen_sleep (s : State) (g : Nat) (v : GenS) : (s.setGen g v).sleep = s.sleep := by rfl
@[simp] theorem State.setGen_swap (s : State) (g : Nat) (v : GenS) : (s.setGen g v).swap = s.swap := by rfl
@[simp] theorem State.setGen_resetReq (s : State) (g : Nat) (v : GenS) : (s.setGen g v).resetReq = s.resetReq := by rfl
@[simp] theorem State.setGen_wakeN (s : State) (g : Nat) (v : GenS) : (s.setGen g v).wakeN = s.wakeN := by rfl
@[simp] theorem State.setGen_rails (s : State) (g : Nat) (v : GenS) : (s.setGen g v).rails = s.rails := by rfl
@[simp] theorem State.setGen_railF (s : State) (g : Nat) (v : GenS) : (s.setGen g v).railF = s.railF := by rfl
@[simp] theorem State.setGen_avsAgain (s : State) (g : Nat) (v : GenS) : (s.setGen g v).avsAgain = s.avsAgain := by rfl
@[simp] theorem State.setGen_voutExp (s : State) (g : Nat) (v : GenS) : (s.setGen g v).voutExp = s.voutExp := by rfl
@[simp] theorem State.setGen_straps (s : State) (g : Nat) (v : GenS) : (s.setGen g v).straps = s.straps := by rfl
@[simp] theorem State.setGen_strm (s : State) (g : Nat) (v : GenS) (k : Nat) : (s.setGen g v).strm k = s.strm k := by rfl
@[simp] theorem State.setGen_feed (s : State) (g : Nat) (v : GenS) (k : Nat) : (s.setGen g v).feed k = s.feed k := by rfl
@[simp] theorem State.setGen_crew (s : State) (g : Nat) (v : GenS) (k : Nat) : (s.setGen g v).crew k = s.crew k := by rfl
@[simp] theorem State.setGen_run (s : State) (g : Nat) (v : GenS) (k : Nat) : (s.setGen g v).run k = s.run k := by rfl
@[simp] theorem State.setGen_ring (s : State) (g : Nat) (v : GenS) (k : Nat) : (s.setGen g v).ring k = s.ring k := by rfl
@[simp] theorem State.setGen_tallySrc (s : State) (g : Nat) (v : GenS) (k : Nat) : (s.setGen g v).tallySrc k = s.tallySrc k := by rfl
@[simp] theorem State.setGen_cp (s : State) (g : Nat) (v : GenS) (k : Nat) : (s.setGen g v).cp k = s.cp k := by rfl
@[simp] theorem State.setGen_slotPicOf (s : State) (g : Nat) (v : GenS) (k : Nat) : (s.setGen g v).slotPicOf k = s.slotPicOf k := by rfl
@[simp] theorem State.setGen_window (s : State) (g : Nat) (v : GenS) (k : Nat) : (s.setGen g v).window k = s.window k := by rfl
@[simp] theorem State.setGen_frames (s : State) (g : Nat) (v : GenS) (k : Nat) : (s.setGen g v).frames k = s.frames k := by rfl
@[simp] theorem State.setGen_sub (s : State) (g : Nat) (v : GenS) (k : Nat) : (s.setGen g v).sub k = s.sub k := by rfl
@[simp] theorem State.setGen_stack (s : State) (g : Nat) (v : GenS) (k : Nat) : (s.setGen g v).stack k = s.stack k := by rfl
@[simp] theorem State.setGen_seq (s : State) (g : Nat) (v : GenS) (k : Nat) : (s.setGen g v).seq k = s.seq k := by rfl
@[simp] theorem State.setGen_hch (s : State) (g : Nat) (v : GenS) (k : Nat) : (s.setGen g v).hch k = s.hch k := by rfl
@[simp] theorem State.setGen_qp (s : State) (g : Nat) (v : GenS) (k : Nat) : (s.setGen g v).qp k = s.qp k := by rfl
@[simp] theorem State.setGen_get (s : State) (g : Nat) (v : GenS) (k : RF) : (s.setGen g v).get k = s.get k := by rfl
@[simp] theorem State.setGen_flag (s : State) (g : Nat) (v : GenS) (k : RF) : (s.setGen g v).flag k = s.flag k := by rfl
@[simp] theorem State.setGen_reg (s : State) (g : Nat) (v : GenS) (k : Nat) : (s.setGen g v).reg k = s.reg k := by rfl

/-! ### setStrm -/

@[simp] theorem State.setStrm_pending (s : State) (n : Nat) (v : StreamS) : (s.setStrm n v).pending = s.pending := by rfl
@[simp] theorem State.setStrm_regs (s : State) (n : Nat) (v : StreamS) : (s.setStrm n v).regs = s.regs := by rfl
@[simp] theorem State.setStrm_part (s : State) (n : Nat) (v : StreamS) : (s.setStrm n v).part = s.part := by rfl
@[simp] theorem State.setStrm_rst (s : State) (n : Nat) (v : StreamS) : (s.setStrm n v).rst = s.rst := by rfl
@[simp] theorem State.setStrm_now (s : State) (n : Nat) (v : StreamS) : (s.setStrm n v).now = s.now := by rfl
@[simp] theorem State.setStrm_prev (s : State) (n : Nat) (v : StreamS) : (s.setStrm n v).prev = s.prev := by rfl
@[simp] theorem State.setStrm_cyc (s : State) (n : Nat) (v : StreamS) : (s.setStrm n v).cyc = s.cyc := by rfl
@[simp] theorem State.setStrm_fired (s : State) (n : Nat) (v : StreamS) : (s.setStrm n v).fired = s.fired := by rfl
@[simp] theorem State.setStrm_hot (s : State) (n : Nat) (v : StreamS) : (s.setStrm n v).hot = s.hot := by rfl
@[simp] theorem State.setStrm_freed (s : State) (n : Nat) (v : StreamS) : (s.setStrm n v).freed = s.freed := by rfl
@[simp] theorem State.setStrm_waitDue (s : State) (n : Nat) (v : StreamS) : (s.setStrm n v).waitDue = s.waitDue := by rfl
@[simp] theorem State.setStrm_turns (s : State) (n : Nat) (v : StreamS) : (s.setStrm n v).turns = s.turns := by rfl
@[simp] theorem State.setStrm_rate (s : State) (n : Nat) (v : StreamS) : (s.setStrm n v).rate = s.rate := by rfl
@[simp] theorem State.setStrm_ppsNs (s : State) (n : Nat) (v : StreamS) : (s.setStrm n v).ppsNs = s.ppsNs := by rfl
@[simp] theorem State.setStrm_ppsHigh (s : State) (n : Nat) (v : StreamS) : (s.setStrm n v).ppsHigh = s.ppsHigh := by rfl
@[simp] theorem State.setStrm_relock (s : State) (n : Nat) (v : StreamS) : (s.setStrm n v).relock = s.relock := by rfl
@[simp] theorem State.setStrm_gens (s : State) (n : Nat) (v : StreamS) : (s.setStrm n v).gens = s.gens := by rfl
@[simp] theorem State.setStrm_freeCtr (s : State) (n : Nat) (v : StreamS) : (s.setStrm n v).freeCtr = s.freeCtr := by rfl
@[simp] theorem State.setStrm_held (s : State) (n : Nat) (v : StreamS) : (s.setStrm n v).held = s.held := by rfl
@[simp] theorem State.setStrm_heldWait (s : State) (n : Nat) (v : StreamS) : (s.setStrm n v).heldWait = s.heldWait := by rfl
@[simp] theorem State.setStrm_tsrc (s : State) (n : Nat) (v : StreamS) : (s.setStrm n v).tsrc = s.tsrc := by rfl
@[simp] theorem State.setStrm_twin (s : State) (n : Nat) (v : StreamS) : (s.setStrm n v).twin = s.twin := by rfl
@[simp] theorem State.setStrm_gath (s : State) (n : Nat) (v : StreamS) : (s.setStrm n v).gath = s.gath := by rfl
@[simp] theorem State.setStrm_claimed (s : State) (n : Nat) (v : StreamS) : (s.setStrm n v).claimed = s.claimed := by rfl
@[simp] theorem State.setStrm_tgtDef (s : State) (n : Nat) (v : StreamS) : (s.setStrm n v).tgtDef = s.tgtDef := by rfl
@[simp] theorem State.setStrm_holdOff (s : State) (n : Nat) (v : StreamS) : (s.setStrm n v).holdOff = s.holdOff := by rfl
@[simp] theorem State.setStrm_pins (s : State) (n : Nat) (v : StreamS) : (s.setStrm n v).pins = s.pins := by rfl
@[simp] theorem State.setStrm_looked (s : State) (n : Nat) (v : StreamS) : (s.setStrm n v).looked = s.looked := by rfl
@[simp] theorem State.setStrm_preempt (s : State) (n : Nat) (v : StreamS) : (s.setStrm n v).preempt = s.preempt := by rfl
@[simp] theorem State.setStrm_rings (s : State) (n : Nat) (v : StreamS) : (s.setStrm n v).rings = s.rings := by rfl
@[simp] theorem State.setStrm_fetched (s : State) (n : Nat) (v : StreamS) : (s.setStrm n v).fetched = s.fetched := by rfl
@[simp] theorem State.setStrm_lifted (s : State) (n : Nat) (v : StreamS) : (s.setStrm n v).lifted = s.lifted := by rfl
@[simp] theorem State.setStrm_owed (s : State) (n : Nat) (v : StreamS) : (s.setStrm n v).owed = s.owed := by rfl
@[simp] theorem State.setStrm_turn (s : State) (n : Nat) (v : StreamS) : (s.setStrm n v).turn = s.turn := by rfl
@[simp] theorem State.setStrm_outbox (s : State) (n : Nat) (v : StreamS) : (s.setStrm n v).outbox = s.outbox := by rfl
@[simp] theorem State.setStrm_feeds (s : State) (n : Nat) (v : StreamS) : (s.setStrm n v).feeds = s.feeds := by rfl
@[simp] theorem State.setStrm_crews (s : State) (n : Nat) (v : StreamS) : (s.setStrm n v).crews = s.crews := by rfl
@[simp] theorem State.setStrm_runs (s : State) (n : Nat) (v : StreamS) : (s.setStrm n v).runs = s.runs := by rfl
@[simp] theorem State.setStrm_ended (s : State) (n : Nat) (v : StreamS) : (s.setStrm n v).ended = s.ended := by rfl
@[simp] theorem State.setStrm_seqs (s : State) (n : Nat) (v : StreamS) : (s.setStrm n v).seqs = s.seqs := by rfl
@[simp] theorem State.setStrm_therm (s : State) (n : Nat) (v : StreamS) : (s.setStrm n v).therm = s.therm := by rfl
@[simp] theorem State.setStrm_progs (s : State) (n : Nat) (v : StreamS) : (s.setStrm n v).progs = s.progs := by rfl
@[simp] theorem State.setStrm_scache (s : State) (n : Nat) (v : StreamS) : (s.setStrm n v).scache = s.scache := by rfl
@[simp] theorem State.setStrm_slotPic (s : State) (n : Nat) (v : StreamS) : (s.setStrm n v).slotPic = s.slotPic := by rfl
@[simp] theorem State.setStrm_slotSz (s : State) (n : Nat) (v : StreamS) : (s.setStrm n v).slotSz = s.slotSz := by rfl
@[simp] theorem State.setStrm_slotNref (s : State) (n : Nat) (v : StreamS) : (s.setStrm n v).slotNref = s.slotNref := by rfl
@[simp] theorem State.setStrm_slotC (s : State) (n : Nat) (v : StreamS) : (s.setStrm n v).slotC = s.slotC := by rfl
@[simp] theorem State.setStrm_retPend (s : State) (n : Nat) (v : StreamS) : (s.setStrm n v).retPend = s.retPend := by rfl
@[simp] theorem State.setStrm_egr (s : State) (n : Nat) (v : StreamS) : (s.setStrm n v).egr = s.egr := by rfl
@[simp] theorem State.setStrm_txFree (s : State) (n : Nat) (v : StreamS) : (s.setStrm n v).txFree = s.txFree := by rfl
@[simp] theorem State.setStrm_frameNo (s : State) (n : Nat) (v : StreamS) : (s.setStrm n v).frameNo = s.frameNo := by rfl
@[simp] theorem State.setStrm_rtpSeq (s : State) (n : Nat) (v : StreamS) : (s.setStrm n v).rtpSeq = s.rtpSeq := by rfl
@[simp] theorem State.setStrm_subs (s : State) (n : Nat) (v : StreamS) : (s.setStrm n v).subs = s.subs := by rfl
@[simp] theorem State.setStrm_shapers (s : State) (n : Nat) (v : StreamS) : (s.setStrm n v).shapers = s.shapers := by rfl
@[simp] theorem State.setStrm_gates (s : State) (n : Nat) (v : StreamS) : (s.setStrm n v).gates = s.gates := by rfl
@[simp] theorem State.setStrm_ptpRx (s : State) (n : Nat) (v : StreamS) : (s.setStrm n v).ptpRx = s.ptpRx := by rfl
@[simp] theorem State.setStrm_tsb (s : State) (n : Nat) (v : StreamS) : (s.setStrm n v).tsb = s.tsb := by rfl
@[simp] theorem State.setStrm_ptpServo (s : State) (n : Nat) (v : StreamS) : (s.setStrm n v).ptpServo = s.ptpServo := by rfl
@[simp] theorem State.setStrm_mem (s : State) (n : Nat) (v : StreamS) : (s.setStrm n v).mem = s.mem := by rfl
@[simp] theorem State.setStrm_injRecs (s : State) (n : Nat) (v : StreamS) : (s.setStrm n v).injRecs = s.injRecs := by rfl
@[simp] theorem State.setStrm_filled (s : State) (n : Nat) (v : StreamS) : (s.setStrm n v).filled = s.filled := by rfl
@[simp] theorem State.setStrm_images (s : State) (n : Nat) (v : StreamS) : (s.setStrm n v).images = s.images := by rfl
@[simp] theorem State.setStrm_chkLeft (s : State) (n : Nat) (v : StreamS) : (s.setStrm n v).chkLeft = s.chkLeft := by rfl
@[simp] theorem State.setStrm_badRows (s : State) (n : Nat) (v : StreamS) : (s.setStrm n v).badRows = s.badRows := by rfl
@[simp] theorem State.setStrm_lost (s : State) (n : Nat) (v : StreamS) : (s.setStrm n v).lost = s.lost := by rfl
@[simp] theorem State.setStrm_celCe (s : State) (n : Nat) (v : StreamS) : (s.setStrm n v).celCe = s.celCe := by rfl
@[simp] theorem State.setStrm_celDly (s : State) (n : Nat) (v : StreamS) : (s.setStrm n v).celDly = s.celDly := by rfl
@[simp] theorem State.setStrm_celVref (s : State) (n : Nat) (v : StreamS) : (s.setStrm n v).celVref = s.celVref := by rfl
@[simp] theorem State.setStrm_pcs (s : State) (n : Nat) (v : StreamS) : (s.setStrm n v).pcs = s.pcs := by rfl
@[simp] theorem State.setStrm_stackTab (s : State) (n : Nat) (v : StreamS) : (s.setStrm n v).stackTab = s.stackTab := by rfl
@[simp] theorem State.setStrm_ldrCol (s : State) (n : Nat) (v : StreamS) : (s.setStrm n v).ldrCol = s.ldrCol := by rfl
@[simp] theorem State.setStrm_training (s : State) (n : Nat) (v : StreamS) : (s.setStrm n v).training = s.training := by rfl
@[simp] theorem State.setStrm_adapting (s : State) (n : Nat) (v : StreamS) : (s.setStrm n v).adapting = s.adapting := by rfl
@[simp] theorem State.setStrm_laneSet (s : State) (n : Nat) (v : StreamS) : (s.setStrm n v).laneSet = s.laneSet := by rfl
@[simp] theorem State.setStrm_blFrom (s : State) (n : Nat) (v : StreamS) : (s.setStrm n v).blFrom = s.blFrom := by rfl
@[simp] theorem State.setStrm_qps (s : State) (n : Nat) (v : StreamS) : (s.setStrm n v).qps = s.qps := by rfl
@[simp] theorem State.setStrm_hchs (s : State) (n : Nat) (v : StreamS) : (s.setStrm n v).hchs = s.hchs := by rfl
@[simp] theorem State.setStrm_hgrant (s : State) (n : Nat) (v : StreamS) : (s.setStrm n v).hgrant = s.hgrant := by rfl
@[simp] theorem State.setStrm_ptpPos (s : State) (n : Nat) (v : StreamS) : (s.setStrm n v).ptpPos = s.ptpPos := by rfl
@[simp] theorem State.setStrm_cps (s : State) (n : Nat) (v : StreamS) : (s.setStrm n v).cps = s.cps := by rfl
@[simp] theorem State.setStrm_push (s : State) (n : Nat) (v : StreamS) : (s.setStrm n v).push = s.push := by rfl
@[simp] theorem State.setStrm_bank0 (s : State) (n : Nat) (v : StreamS) : (s.setStrm n v).bank0 = s.bank0 := by rfl
@[simp] theorem State.setStrm_bank1 (s : State) (n : Nat) (v : StreamS) : (s.setStrm n v).bank1 = s.bank1 := by rfl
@[simp] theorem State.setStrm_sleep (s : State) (n : Nat) (v : StreamS) : (s.setStrm n v).sleep = s.sleep := by rfl
@[simp] theorem State.setStrm_swap (s : State) (n : Nat) (v : StreamS) : (s.setStrm n v).swap = s.swap := by rfl
@[simp] theorem State.setStrm_resetReq (s : State) (n : Nat) (v : StreamS) : (s.setStrm n v).resetReq = s.resetReq := by rfl
@[simp] theorem State.setStrm_wakeN (s : State) (n : Nat) (v : StreamS) : (s.setStrm n v).wakeN = s.wakeN := by rfl
@[simp] theorem State.setStrm_rails (s : State) (n : Nat) (v : StreamS) : (s.setStrm n v).rails = s.rails := by rfl
@[simp] theorem State.setStrm_railF (s : State) (n : Nat) (v : StreamS) : (s.setStrm n v).railF = s.railF := by rfl
@[simp] theorem State.setStrm_avsAgain (s : State) (n : Nat) (v : StreamS) : (s.setStrm n v).avsAgain = s.avsAgain := by rfl
@[simp] theorem State.setStrm_voutExp (s : State) (n : Nat) (v : StreamS) : (s.setStrm n v).voutExp = s.voutExp := by rfl
@[simp] theorem State.setStrm_straps (s : State) (n : Nat) (v : StreamS) : (s.setStrm n v).straps = s.straps := by rfl
@[simp] theorem State.setStrm_gen (s : State) (n : Nat) (v : StreamS) (k : Nat) : (s.setStrm n v).gen k = s.gen k := by rfl
@[simp] theorem State.setStrm_feed (s : State) (n : Nat) (v : StreamS) (k : Nat) : (s.setStrm n v).feed k = s.feed k := by rfl
@[simp] theorem State.setStrm_crew (s : State) (n : Nat) (v : StreamS) (k : Nat) : (s.setStrm n v).crew k = s.crew k := by rfl
@[simp] theorem State.setStrm_run (s : State) (n : Nat) (v : StreamS) (k : Nat) : (s.setStrm n v).run k = s.run k := by rfl
@[simp] theorem State.setStrm_ring (s : State) (n : Nat) (v : StreamS) (k : Nat) : (s.setStrm n v).ring k = s.ring k := by rfl
@[simp] theorem State.setStrm_tallySrc (s : State) (n : Nat) (v : StreamS) (k : Nat) : (s.setStrm n v).tallySrc k = s.tallySrc k := by rfl
@[simp] theorem State.setStrm_cp (s : State) (n : Nat) (v : StreamS) (k : Nat) : (s.setStrm n v).cp k = s.cp k := by rfl
@[simp] theorem State.setStrm_slotPicOf (s : State) (n : Nat) (v : StreamS) (k : Nat) : (s.setStrm n v).slotPicOf k = s.slotPicOf k := by rfl
@[simp] theorem State.setStrm_window (s : State) (n : Nat) (v : StreamS) (k : Nat) : (s.setStrm n v).window k = s.window k := by rfl
@[simp] theorem State.setStrm_frames (s : State) (n : Nat) (v : StreamS) (k : Nat) : (s.setStrm n v).frames k = s.frames k := by rfl
@[simp] theorem State.setStrm_sub (s : State) (n : Nat) (v : StreamS) (k : Nat) : (s.setStrm n v).sub k = s.sub k := by rfl
@[simp] theorem State.setStrm_stack (s : State) (n : Nat) (v : StreamS) (k : Nat) : (s.setStrm n v).stack k = s.stack k := by rfl
@[simp] theorem State.setStrm_seq (s : State) (n : Nat) (v : StreamS) (k : Nat) : (s.setStrm n v).seq k = s.seq k := by rfl
@[simp] theorem State.setStrm_hch (s : State) (n : Nat) (v : StreamS) (k : Nat) : (s.setStrm n v).hch k = s.hch k := by rfl
@[simp] theorem State.setStrm_qp (s : State) (n : Nat) (v : StreamS) (k : Nat) : (s.setStrm n v).qp k = s.qp k := by rfl
@[simp] theorem State.setStrm_get (s : State) (n : Nat) (v : StreamS) (k : RF) : (s.setStrm n v).get k = s.get k := by rfl
@[simp] theorem State.setStrm_flag (s : State) (n : Nat) (v : StreamS) (k : RF) : (s.setStrm n v).flag k = s.flag k := by rfl
@[simp] theorem State.setStrm_reg (s : State) (n : Nat) (v : StreamS) (k : Nat) : (s.setStrm n v).reg k = s.reg k := by rfl

/-! ### updStrm -/

@[simp] theorem State.updStrm_pending (s : State) (n : Nat) (f : StreamS → StreamS) : (s.updStrm n f).pending = s.pending := by rfl
@[simp] theorem State.updStrm_regs (s : State) (n : Nat) (f : StreamS → StreamS) : (s.updStrm n f).regs = s.regs := by rfl
@[simp] theorem State.updStrm_part (s : State) (n : Nat) (f : StreamS → StreamS) : (s.updStrm n f).part = s.part := by rfl
@[simp] theorem State.updStrm_rst (s : State) (n : Nat) (f : StreamS → StreamS) : (s.updStrm n f).rst = s.rst := by rfl
@[simp] theorem State.updStrm_now (s : State) (n : Nat) (f : StreamS → StreamS) : (s.updStrm n f).now = s.now := by rfl
@[simp] theorem State.updStrm_prev (s : State) (n : Nat) (f : StreamS → StreamS) : (s.updStrm n f).prev = s.prev := by rfl
@[simp] theorem State.updStrm_cyc (s : State) (n : Nat) (f : StreamS → StreamS) : (s.updStrm n f).cyc = s.cyc := by rfl
@[simp] theorem State.updStrm_fired (s : State) (n : Nat) (f : StreamS → StreamS) : (s.updStrm n f).fired = s.fired := by rfl
@[simp] theorem State.updStrm_hot (s : State) (n : Nat) (f : StreamS → StreamS) : (s.updStrm n f).hot = s.hot := by rfl
@[simp] theorem State.updStrm_freed (s : State) (n : Nat) (f : StreamS → StreamS) : (s.updStrm n f).freed = s.freed := by rfl
@[simp] theorem State.updStrm_waitDue (s : State) (n : Nat) (f : StreamS → StreamS) : (s.updStrm n f).waitDue = s.waitDue := by rfl
@[simp] theorem State.updStrm_turns (s : State) (n : Nat) (f : StreamS → StreamS) : (s.updStrm n f).turns = s.turns := by rfl
@[simp] theorem State.updStrm_rate (s : State) (n : Nat) (f : StreamS → StreamS) : (s.updStrm n f).rate = s.rate := by rfl
@[simp] theorem State.updStrm_ppsNs (s : State) (n : Nat) (f : StreamS → StreamS) : (s.updStrm n f).ppsNs = s.ppsNs := by rfl
@[simp] theorem State.updStrm_ppsHigh (s : State) (n : Nat) (f : StreamS → StreamS) : (s.updStrm n f).ppsHigh = s.ppsHigh := by rfl
@[simp] theorem State.updStrm_relock (s : State) (n : Nat) (f : StreamS → StreamS) : (s.updStrm n f).relock = s.relock := by rfl
@[simp] theorem State.updStrm_gens (s : State) (n : Nat) (f : StreamS → StreamS) : (s.updStrm n f).gens = s.gens := by rfl
@[simp] theorem State.updStrm_freeCtr (s : State) (n : Nat) (f : StreamS → StreamS) : (s.updStrm n f).freeCtr = s.freeCtr := by rfl
@[simp] theorem State.updStrm_held (s : State) (n : Nat) (f : StreamS → StreamS) : (s.updStrm n f).held = s.held := by rfl
@[simp] theorem State.updStrm_heldWait (s : State) (n : Nat) (f : StreamS → StreamS) : (s.updStrm n f).heldWait = s.heldWait := by rfl
@[simp] theorem State.updStrm_tsrc (s : State) (n : Nat) (f : StreamS → StreamS) : (s.updStrm n f).tsrc = s.tsrc := by rfl
@[simp] theorem State.updStrm_twin (s : State) (n : Nat) (f : StreamS → StreamS) : (s.updStrm n f).twin = s.twin := by rfl
@[simp] theorem State.updStrm_gath (s : State) (n : Nat) (f : StreamS → StreamS) : (s.updStrm n f).gath = s.gath := by rfl
@[simp] theorem State.updStrm_claimed (s : State) (n : Nat) (f : StreamS → StreamS) : (s.updStrm n f).claimed = s.claimed := by rfl
@[simp] theorem State.updStrm_tgtDef (s : State) (n : Nat) (f : StreamS → StreamS) : (s.updStrm n f).tgtDef = s.tgtDef := by rfl
@[simp] theorem State.updStrm_holdOff (s : State) (n : Nat) (f : StreamS → StreamS) : (s.updStrm n f).holdOff = s.holdOff := by rfl
@[simp] theorem State.updStrm_pins (s : State) (n : Nat) (f : StreamS → StreamS) : (s.updStrm n f).pins = s.pins := by rfl
@[simp] theorem State.updStrm_looked (s : State) (n : Nat) (f : StreamS → StreamS) : (s.updStrm n f).looked = s.looked := by rfl
@[simp] theorem State.updStrm_preempt (s : State) (n : Nat) (f : StreamS → StreamS) : (s.updStrm n f).preempt = s.preempt := by rfl
@[simp] theorem State.updStrm_rings (s : State) (n : Nat) (f : StreamS → StreamS) : (s.updStrm n f).rings = s.rings := by rfl
@[simp] theorem State.updStrm_fetched (s : State) (n : Nat) (f : StreamS → StreamS) : (s.updStrm n f).fetched = s.fetched := by rfl
@[simp] theorem State.updStrm_lifted (s : State) (n : Nat) (f : StreamS → StreamS) : (s.updStrm n f).lifted = s.lifted := by rfl
@[simp] theorem State.updStrm_owed (s : State) (n : Nat) (f : StreamS → StreamS) : (s.updStrm n f).owed = s.owed := by rfl
@[simp] theorem State.updStrm_turn (s : State) (n : Nat) (f : StreamS → StreamS) : (s.updStrm n f).turn = s.turn := by rfl
@[simp] theorem State.updStrm_outbox (s : State) (n : Nat) (f : StreamS → StreamS) : (s.updStrm n f).outbox = s.outbox := by rfl
@[simp] theorem State.updStrm_feeds (s : State) (n : Nat) (f : StreamS → StreamS) : (s.updStrm n f).feeds = s.feeds := by rfl
@[simp] theorem State.updStrm_crews (s : State) (n : Nat) (f : StreamS → StreamS) : (s.updStrm n f).crews = s.crews := by rfl
@[simp] theorem State.updStrm_runs (s : State) (n : Nat) (f : StreamS → StreamS) : (s.updStrm n f).runs = s.runs := by rfl
@[simp] theorem State.updStrm_ended (s : State) (n : Nat) (f : StreamS → StreamS) : (s.updStrm n f).ended = s.ended := by rfl
@[simp] theorem State.updStrm_seqs (s : State) (n : Nat) (f : StreamS → StreamS) : (s.updStrm n f).seqs = s.seqs := by rfl
@[simp] theorem State.updStrm_therm (s : State) (n : Nat) (f : StreamS → StreamS) : (s.updStrm n f).therm = s.therm := by rfl
@[simp] theorem State.updStrm_progs (s : State) (n : Nat) (f : StreamS → StreamS) : (s.updStrm n f).progs = s.progs := by rfl
@[simp] theorem State.updStrm_scache (s : State) (n : Nat) (f : StreamS → StreamS) : (s.updStrm n f).scache = s.scache := by rfl
@[simp] theorem State.updStrm_slotPic (s : State) (n : Nat) (f : StreamS → StreamS) : (s.updStrm n f).slotPic = s.slotPic := by rfl
@[simp] theorem State.updStrm_slotSz (s : State) (n : Nat) (f : StreamS → StreamS) : (s.updStrm n f).slotSz = s.slotSz := by rfl
@[simp] theorem State.updStrm_slotNref (s : State) (n : Nat) (f : StreamS → StreamS) : (s.updStrm n f).slotNref = s.slotNref := by rfl
@[simp] theorem State.updStrm_slotC (s : State) (n : Nat) (f : StreamS → StreamS) : (s.updStrm n f).slotC = s.slotC := by rfl
@[simp] theorem State.updStrm_retPend (s : State) (n : Nat) (f : StreamS → StreamS) : (s.updStrm n f).retPend = s.retPend := by rfl
@[simp] theorem State.updStrm_egr (s : State) (n : Nat) (f : StreamS → StreamS) : (s.updStrm n f).egr = s.egr := by rfl
@[simp] theorem State.updStrm_txFree (s : State) (n : Nat) (f : StreamS → StreamS) : (s.updStrm n f).txFree = s.txFree := by rfl
@[simp] theorem State.updStrm_frameNo (s : State) (n : Nat) (f : StreamS → StreamS) : (s.updStrm n f).frameNo = s.frameNo := by rfl
@[simp] theorem State.updStrm_rtpSeq (s : State) (n : Nat) (f : StreamS → StreamS) : (s.updStrm n f).rtpSeq = s.rtpSeq := by rfl
@[simp] theorem State.updStrm_subs (s : State) (n : Nat) (f : StreamS → StreamS) : (s.updStrm n f).subs = s.subs := by rfl
@[simp] theorem State.updStrm_shapers (s : State) (n : Nat) (f : StreamS → StreamS) : (s.updStrm n f).shapers = s.shapers := by rfl
@[simp] theorem State.updStrm_gates (s : State) (n : Nat) (f : StreamS → StreamS) : (s.updStrm n f).gates = s.gates := by rfl
@[simp] theorem State.updStrm_ptpRx (s : State) (n : Nat) (f : StreamS → StreamS) : (s.updStrm n f).ptpRx = s.ptpRx := by rfl
@[simp] theorem State.updStrm_tsb (s : State) (n : Nat) (f : StreamS → StreamS) : (s.updStrm n f).tsb = s.tsb := by rfl
@[simp] theorem State.updStrm_ptpServo (s : State) (n : Nat) (f : StreamS → StreamS) : (s.updStrm n f).ptpServo = s.ptpServo := by rfl
@[simp] theorem State.updStrm_mem (s : State) (n : Nat) (f : StreamS → StreamS) : (s.updStrm n f).mem = s.mem := by rfl
@[simp] theorem State.updStrm_injRecs (s : State) (n : Nat) (f : StreamS → StreamS) : (s.updStrm n f).injRecs = s.injRecs := by rfl
@[simp] theorem State.updStrm_filled (s : State) (n : Nat) (f : StreamS → StreamS) : (s.updStrm n f).filled = s.filled := by rfl
@[simp] theorem State.updStrm_images (s : State) (n : Nat) (f : StreamS → StreamS) : (s.updStrm n f).images = s.images := by rfl
@[simp] theorem State.updStrm_chkLeft (s : State) (n : Nat) (f : StreamS → StreamS) : (s.updStrm n f).chkLeft = s.chkLeft := by rfl
@[simp] theorem State.updStrm_badRows (s : State) (n : Nat) (f : StreamS → StreamS) : (s.updStrm n f).badRows = s.badRows := by rfl
@[simp] theorem State.updStrm_lost (s : State) (n : Nat) (f : StreamS → StreamS) : (s.updStrm n f).lost = s.lost := by rfl
@[simp] theorem State.updStrm_celCe (s : State) (n : Nat) (f : StreamS → StreamS) : (s.updStrm n f).celCe = s.celCe := by rfl
@[simp] theorem State.updStrm_celDly (s : State) (n : Nat) (f : StreamS → StreamS) : (s.updStrm n f).celDly = s.celDly := by rfl
@[simp] theorem State.updStrm_celVref (s : State) (n : Nat) (f : StreamS → StreamS) : (s.updStrm n f).celVref = s.celVref := by rfl
@[simp] theorem State.updStrm_pcs (s : State) (n : Nat) (f : StreamS → StreamS) : (s.updStrm n f).pcs = s.pcs := by rfl
@[simp] theorem State.updStrm_stackTab (s : State) (n : Nat) (f : StreamS → StreamS) : (s.updStrm n f).stackTab = s.stackTab := by rfl
@[simp] theorem State.updStrm_ldrCol (s : State) (n : Nat) (f : StreamS → StreamS) : (s.updStrm n f).ldrCol = s.ldrCol := by rfl
@[simp] theorem State.updStrm_training (s : State) (n : Nat) (f : StreamS → StreamS) : (s.updStrm n f).training = s.training := by rfl
@[simp] theorem State.updStrm_adapting (s : State) (n : Nat) (f : StreamS → StreamS) : (s.updStrm n f).adapting = s.adapting := by rfl
@[simp] theorem State.updStrm_laneSet (s : State) (n : Nat) (f : StreamS → StreamS) : (s.updStrm n f).laneSet = s.laneSet := by rfl
@[simp] theorem State.updStrm_blFrom (s : State) (n : Nat) (f : StreamS → StreamS) : (s.updStrm n f).blFrom = s.blFrom := by rfl
@[simp] theorem State.updStrm_qps (s : State) (n : Nat) (f : StreamS → StreamS) : (s.updStrm n f).qps = s.qps := by rfl
@[simp] theorem State.updStrm_hchs (s : State) (n : Nat) (f : StreamS → StreamS) : (s.updStrm n f).hchs = s.hchs := by rfl
@[simp] theorem State.updStrm_hgrant (s : State) (n : Nat) (f : StreamS → StreamS) : (s.updStrm n f).hgrant = s.hgrant := by rfl
@[simp] theorem State.updStrm_ptpPos (s : State) (n : Nat) (f : StreamS → StreamS) : (s.updStrm n f).ptpPos = s.ptpPos := by rfl
@[simp] theorem State.updStrm_cps (s : State) (n : Nat) (f : StreamS → StreamS) : (s.updStrm n f).cps = s.cps := by rfl
@[simp] theorem State.updStrm_push (s : State) (n : Nat) (f : StreamS → StreamS) : (s.updStrm n f).push = s.push := by rfl
@[simp] theorem State.updStrm_bank0 (s : State) (n : Nat) (f : StreamS → StreamS) : (s.updStrm n f).bank0 = s.bank0 := by rfl
@[simp] theorem State.updStrm_bank1 (s : State) (n : Nat) (f : StreamS → StreamS) : (s.updStrm n f).bank1 = s.bank1 := by rfl
@[simp] theorem State.updStrm_sleep (s : State) (n : Nat) (f : StreamS → StreamS) : (s.updStrm n f).sleep = s.sleep := by rfl
@[simp] theorem State.updStrm_swap (s : State) (n : Nat) (f : StreamS → StreamS) : (s.updStrm n f).swap = s.swap := by rfl
@[simp] theorem State.updStrm_resetReq (s : State) (n : Nat) (f : StreamS → StreamS) : (s.updStrm n f).resetReq = s.resetReq := by rfl
@[simp] theorem State.updStrm_wakeN (s : State) (n : Nat) (f : StreamS → StreamS) : (s.updStrm n f).wakeN = s.wakeN := by rfl
@[simp] theorem State.updStrm_rails (s : State) (n : Nat) (f : StreamS → StreamS) : (s.updStrm n f).rails = s.rails := by rfl
@[simp] theorem State.updStrm_railF (s : State) (n : Nat) (f : StreamS → StreamS) : (s.updStrm n f).railF = s.railF := by rfl
@[simp] theorem State.updStrm_avsAgain (s : State) (n : Nat) (f : StreamS → StreamS) : (s.updStrm n f).avsAgain = s.avsAgain := by rfl
@[simp] theorem State.updStrm_voutExp (s : State) (n : Nat) (f : StreamS → StreamS) : (s.updStrm n f).voutExp = s.voutExp := by rfl
@[simp] theorem State.updStrm_straps (s : State) (n : Nat) (f : StreamS → StreamS) : (s.updStrm n f).straps = s.straps := by rfl
@[simp] theorem State.updStrm_gen (s : State) (n : Nat) (f : StreamS → StreamS) (k : Nat) : (s.updStrm n f).gen k = s.gen k := by rfl
@[simp] theorem State.updStrm_feed (s : State) (n : Nat) (f : StreamS → StreamS) (k : Nat) : (s.updStrm n f).feed k = s.feed k := by rfl
@[simp] theorem State.updStrm_crew (s : State) (n : Nat) (f : StreamS → StreamS) (k : Nat) : (s.updStrm n f).crew k = s.crew k := by rfl
@[simp] theorem State.updStrm_run (s : State) (n : Nat) (f : StreamS → StreamS) (k : Nat) : (s.updStrm n f).run k = s.run k := by rfl
@[simp] theorem State.updStrm_ring (s : State) (n : Nat) (f : StreamS → StreamS) (k : Nat) : (s.updStrm n f).ring k = s.ring k := by rfl
@[simp] theorem State.updStrm_tallySrc (s : State) (n : Nat) (f : StreamS → StreamS) (k : Nat) : (s.updStrm n f).tallySrc k = s.tallySrc k := by rfl
@[simp] theorem State.updStrm_cp (s : State) (n : Nat) (f : StreamS → StreamS) (k : Nat) : (s.updStrm n f).cp k = s.cp k := by rfl
@[simp] theorem State.updStrm_slotPicOf (s : State) (n : Nat) (f : StreamS → StreamS) (k : Nat) : (s.updStrm n f).slotPicOf k = s.slotPicOf k := by rfl
@[simp] theorem State.updStrm_window (s : State) (n : Nat) (f : StreamS → StreamS) (k : Nat) : (s.updStrm n f).window k = s.window k := by rfl
@[simp] theorem State.updStrm_frames (s : State) (n : Nat) (f : StreamS → StreamS) (k : Nat) : (s.updStrm n f).frames k = s.frames k := by rfl
@[simp] theorem State.updStrm_sub (s : State) (n : Nat) (f : StreamS → StreamS) (k : Nat) : (s.updStrm n f).sub k = s.sub k := by rfl
@[simp] theorem State.updStrm_stack (s : State) (n : Nat) (f : StreamS → StreamS) (k : Nat) : (s.updStrm n f).stack k = s.stack k := by rfl
@[simp] theorem State.updStrm_seq (s : State) (n : Nat) (f : StreamS → StreamS) (k : Nat) : (s.updStrm n f).seq k = s.seq k := by rfl
@[simp] theorem State.updStrm_hch (s : State) (n : Nat) (f : StreamS → StreamS) (k : Nat) : (s.updStrm n f).hch k = s.hch k := by rfl
@[simp] theorem State.updStrm_qp (s : State) (n : Nat) (f : StreamS → StreamS) (k : Nat) : (s.updStrm n f).qp k = s.qp k := by rfl
@[simp] theorem State.updStrm_get (s : State) (n : Nat) (f : StreamS → StreamS) (k : RF) : (s.updStrm n f).get k = s.get k := by rfl
@[simp] theorem State.updStrm_flag (s : State) (n : Nat) (f : StreamS → StreamS) (k : RF) : (s.updStrm n f).flag k = s.flag k := by rfl
@[simp] theorem State.updStrm_reg (s : State) (n : Nat) (f : StreamS → StreamS) (k : Nat) : (s.updStrm n f).reg k = s.reg k := by rfl

/-! ### setFeed -/

@[simp] theorem State.setFeed_pending (s : State) (f : Nat) (v : FeedS) : (s.setFeed f v).pending = s.pending := by rfl
@[simp] theorem State.setFeed_regs (s : State) (f : Nat) (v : FeedS) : (s.setFeed f v).regs = s.regs := by rfl
@[simp] theorem State.setFeed_part (s : State) (f : Nat) (v : FeedS) : (s.setFeed f v).part = s.part := by rfl
@[simp] theorem State.setFeed_rst (s : State) (f : Nat) (v : FeedS) : (s.setFeed f v).rst = s.rst := by rfl
@[simp] theorem State.setFeed_now (s : State) (f : Nat) (v : FeedS) : (s.setFeed f v).now = s.now := by rfl
@[simp] theorem State.setFeed_prev (s : State) (f : Nat) (v : FeedS) : (s.setFeed f v).prev = s.prev := by rfl
@[simp] theorem State.setFeed_cyc (s : State) (f : Nat) (v : FeedS) : (s.setFeed f v).cyc = s.cyc := by rfl
@[simp] theorem State.setFeed_fired (s : State) (f : Nat) (v : FeedS) : (s.setFeed f v).fired = s.fired := by rfl
@[simp] theorem State.setFeed_hot (s : State) (f : Nat) (v : FeedS) : (s.setFeed f v).hot = s.hot := by rfl
@[simp] theorem State.setFeed_freed (s : State) (f : Nat) (v : FeedS) : (s.setFeed f v).freed = s.freed := by rfl
@[simp] theorem State.setFeed_waitDue (s : State) (f : Nat) (v : FeedS) : (s.setFeed f v).waitDue = s.waitDue := by rfl
@[simp] theorem State.setFeed_turns (s : State) (f : Nat) (v : FeedS) : (s.setFeed f v).turns = s.turns := by rfl
@[simp] theorem State.setFeed_rate (s : State) (f : Nat) (v : FeedS) : (s.setFeed f v).rate = s.rate := by rfl
@[simp] theorem State.setFeed_ppsNs (s : State) (f : Nat) (v : FeedS) : (s.setFeed f v).ppsNs = s.ppsNs := by rfl
@[simp] theorem State.setFeed_ppsHigh (s : State) (f : Nat) (v : FeedS) : (s.setFeed f v).ppsHigh = s.ppsHigh := by rfl
@[simp] theorem State.setFeed_relock (s : State) (f : Nat) (v : FeedS) : (s.setFeed f v).relock = s.relock := by rfl
@[simp] theorem State.setFeed_gens (s : State) (f : Nat) (v : FeedS) : (s.setFeed f v).gens = s.gens := by rfl
@[simp] theorem State.setFeed_freeCtr (s : State) (f : Nat) (v : FeedS) : (s.setFeed f v).freeCtr = s.freeCtr := by rfl
@[simp] theorem State.setFeed_held (s : State) (f : Nat) (v : FeedS) : (s.setFeed f v).held = s.held := by rfl
@[simp] theorem State.setFeed_heldWait (s : State) (f : Nat) (v : FeedS) : (s.setFeed f v).heldWait = s.heldWait := by rfl
@[simp] theorem State.setFeed_tsrc (s : State) (f : Nat) (v : FeedS) : (s.setFeed f v).tsrc = s.tsrc := by rfl
@[simp] theorem State.setFeed_twin (s : State) (f : Nat) (v : FeedS) : (s.setFeed f v).twin = s.twin := by rfl
@[simp] theorem State.setFeed_gath (s : State) (f : Nat) (v : FeedS) : (s.setFeed f v).gath = s.gath := by rfl
@[simp] theorem State.setFeed_claimed (s : State) (f : Nat) (v : FeedS) : (s.setFeed f v).claimed = s.claimed := by rfl
@[simp] theorem State.setFeed_tgtDef (s : State) (f : Nat) (v : FeedS) : (s.setFeed f v).tgtDef = s.tgtDef := by rfl
@[simp] theorem State.setFeed_holdOff (s : State) (f : Nat) (v : FeedS) : (s.setFeed f v).holdOff = s.holdOff := by rfl
@[simp] theorem State.setFeed_pins (s : State) (f : Nat) (v : FeedS) : (s.setFeed f v).pins = s.pins := by rfl
@[simp] theorem State.setFeed_looked (s : State) (f : Nat) (v : FeedS) : (s.setFeed f v).looked = s.looked := by rfl
@[simp] theorem State.setFeed_preempt (s : State) (f : Nat) (v : FeedS) : (s.setFeed f v).preempt = s.preempt := by rfl
@[simp] theorem State.setFeed_rings (s : State) (f : Nat) (v : FeedS) : (s.setFeed f v).rings = s.rings := by rfl
@[simp] theorem State.setFeed_fetched (s : State) (f : Nat) (v : FeedS) : (s.setFeed f v).fetched = s.fetched := by rfl
@[simp] theorem State.setFeed_lifted (s : State) (f : Nat) (v : FeedS) : (s.setFeed f v).lifted = s.lifted := by rfl
@[simp] theorem State.setFeed_owed (s : State) (f : Nat) (v : FeedS) : (s.setFeed f v).owed = s.owed := by rfl
@[simp] theorem State.setFeed_turn (s : State) (f : Nat) (v : FeedS) : (s.setFeed f v).turn = s.turn := by rfl
@[simp] theorem State.setFeed_outbox (s : State) (f : Nat) (v : FeedS) : (s.setFeed f v).outbox = s.outbox := by rfl
@[simp] theorem State.setFeed_streams (s : State) (f : Nat) (v : FeedS) : (s.setFeed f v).streams = s.streams := by rfl
@[simp] theorem State.setFeed_crews (s : State) (f : Nat) (v : FeedS) : (s.setFeed f v).crews = s.crews := by rfl
@[simp] theorem State.setFeed_runs (s : State) (f : Nat) (v : FeedS) : (s.setFeed f v).runs = s.runs := by rfl
@[simp] theorem State.setFeed_ended (s : State) (f : Nat) (v : FeedS) : (s.setFeed f v).ended = s.ended := by rfl
@[simp] theorem State.setFeed_seqs (s : State) (f : Nat) (v : FeedS) : (s.setFeed f v).seqs = s.seqs := by rfl
@[simp] theorem State.setFeed_therm (s : State) (f : Nat) (v : FeedS) : (s.setFeed f v).therm = s.therm := by rfl
@[simp] theorem State.setFeed_progs (s : State) (f : Nat) (v : FeedS) : (s.setFeed f v).progs = s.progs := by rfl
@[simp] theorem State.setFeed_scache (s : State) (f : Nat) (v : FeedS) : (s.setFeed f v).scache = s.scache := by rfl
@[simp] theorem State.setFeed_slotPic (s : State) (f : Nat) (v : FeedS) : (s.setFeed f v).slotPic = s.slotPic := by rfl
@[simp] theorem State.setFeed_slotSz (s : State) (f : Nat) (v : FeedS) : (s.setFeed f v).slotSz = s.slotSz := by rfl
@[simp] theorem State.setFeed_slotNref (s : State) (f : Nat) (v : FeedS) : (s.setFeed f v).slotNref = s.slotNref := by rfl
@[simp] theorem State.setFeed_slotC (s : State) (f : Nat) (v : FeedS) : (s.setFeed f v).slotC = s.slotC := by rfl
@[simp] theorem State.setFeed_retPend (s : State) (f : Nat) (v : FeedS) : (s.setFeed f v).retPend = s.retPend := by rfl
@[simp] theorem State.setFeed_egr (s : State) (f : Nat) (v : FeedS) : (s.setFeed f v).egr = s.egr := by rfl
@[simp] theorem State.setFeed_txFree (s : State) (f : Nat) (v : FeedS) : (s.setFeed f v).txFree = s.txFree := by rfl
@[simp] theorem State.setFeed_frameNo (s : State) (f : Nat) (v : FeedS) : (s.setFeed f v).frameNo = s.frameNo := by rfl
@[simp] theorem State.setFeed_rtpSeq (s : State) (f : Nat) (v : FeedS) : (s.setFeed f v).rtpSeq = s.rtpSeq := by rfl
@[simp] theorem State.setFeed_subs (s : State) (f : Nat) (v : FeedS) : (s.setFeed f v).subs = s.subs := by rfl
@[simp] theorem State.setFeed_shapers (s : State) (f : Nat) (v : FeedS) : (s.setFeed f v).shapers = s.shapers := by rfl
@[simp] theorem State.setFeed_gates (s : State) (f : Nat) (v : FeedS) : (s.setFeed f v).gates = s.gates := by rfl
@[simp] theorem State.setFeed_ptpRx (s : State) (f : Nat) (v : FeedS) : (s.setFeed f v).ptpRx = s.ptpRx := by rfl
@[simp] theorem State.setFeed_tsb (s : State) (f : Nat) (v : FeedS) : (s.setFeed f v).tsb = s.tsb := by rfl
@[simp] theorem State.setFeed_ptpServo (s : State) (f : Nat) (v : FeedS) : (s.setFeed f v).ptpServo = s.ptpServo := by rfl
@[simp] theorem State.setFeed_mem (s : State) (f : Nat) (v : FeedS) : (s.setFeed f v).mem = s.mem := by rfl
@[simp] theorem State.setFeed_injRecs (s : State) (f : Nat) (v : FeedS) : (s.setFeed f v).injRecs = s.injRecs := by rfl
@[simp] theorem State.setFeed_filled (s : State) (f : Nat) (v : FeedS) : (s.setFeed f v).filled = s.filled := by rfl
@[simp] theorem State.setFeed_images (s : State) (f : Nat) (v : FeedS) : (s.setFeed f v).images = s.images := by rfl
@[simp] theorem State.setFeed_chkLeft (s : State) (f : Nat) (v : FeedS) : (s.setFeed f v).chkLeft = s.chkLeft := by rfl
@[simp] theorem State.setFeed_badRows (s : State) (f : Nat) (v : FeedS) : (s.setFeed f v).badRows = s.badRows := by rfl
@[simp] theorem State.setFeed_lost (s : State) (f : Nat) (v : FeedS) : (s.setFeed f v).lost = s.lost := by rfl
@[simp] theorem State.setFeed_celCe (s : State) (f : Nat) (v : FeedS) : (s.setFeed f v).celCe = s.celCe := by rfl
@[simp] theorem State.setFeed_celDly (s : State) (f : Nat) (v : FeedS) : (s.setFeed f v).celDly = s.celDly := by rfl
@[simp] theorem State.setFeed_celVref (s : State) (f : Nat) (v : FeedS) : (s.setFeed f v).celVref = s.celVref := by rfl
@[simp] theorem State.setFeed_pcs (s : State) (f : Nat) (v : FeedS) : (s.setFeed f v).pcs = s.pcs := by rfl
@[simp] theorem State.setFeed_stackTab (s : State) (f : Nat) (v : FeedS) : (s.setFeed f v).stackTab = s.stackTab := by rfl
@[simp] theorem State.setFeed_ldrCol (s : State) (f : Nat) (v : FeedS) : (s.setFeed f v).ldrCol = s.ldrCol := by rfl
@[simp] theorem State.setFeed_training (s : State) (f : Nat) (v : FeedS) : (s.setFeed f v).training = s.training := by rfl
@[simp] theorem State.setFeed_adapting (s : State) (f : Nat) (v : FeedS) : (s.setFeed f v).adapting = s.adapting := by rfl
@[simp] theorem State.setFeed_laneSet (s : State) (f : Nat) (v : FeedS) : (s.setFeed f v).laneSet = s.laneSet := by rfl
@[simp] theorem State.setFeed_blFrom (s : State) (f : Nat) (v : FeedS) : (s.setFeed f v).blFrom = s.blFrom := by rfl
@[simp] theorem State.setFeed_qps (s : State) (f : Nat) (v : FeedS) : (s.setFeed f v).qps = s.qps := by rfl
@[simp] theorem State.setFeed_hchs (s : State) (f : Nat) (v : FeedS) : (s.setFeed f v).hchs = s.hchs := by rfl
@[simp] theorem State.setFeed_hgrant (s : State) (f : Nat) (v : FeedS) : (s.setFeed f v).hgrant = s.hgrant := by rfl
@[simp] theorem State.setFeed_ptpPos (s : State) (f : Nat) (v : FeedS) : (s.setFeed f v).ptpPos = s.ptpPos := by rfl
@[simp] theorem State.setFeed_cps (s : State) (f : Nat) (v : FeedS) : (s.setFeed f v).cps = s.cps := by rfl
@[simp] theorem State.setFeed_push (s : State) (f : Nat) (v : FeedS) : (s.setFeed f v).push = s.push := by rfl
@[simp] theorem State.setFeed_bank0 (s : State) (f : Nat) (v : FeedS) : (s.setFeed f v).bank0 = s.bank0 := by rfl
@[simp] theorem State.setFeed_bank1 (s : State) (f : Nat) (v : FeedS) : (s.setFeed f v).bank1 = s.bank1 := by rfl
@[simp] theorem State.setFeed_sleep (s : State) (f : Nat) (v : FeedS) : (s.setFeed f v).sleep = s.sleep := by rfl
@[simp] theorem State.setFeed_swap (s : State) (f : Nat) (v : FeedS) : (s.setFeed f v).swap = s.swap := by rfl
@[simp] theorem State.setFeed_resetReq (s : State) (f : Nat) (v : FeedS) : (s.setFeed f v).resetReq = s.resetReq := by rfl
@[simp] theorem State.setFeed_wakeN (s : State) (f : Nat) (v : FeedS) : (s.setFeed f v).wakeN = s.wakeN := by rfl
@[simp] theorem State.setFeed_rails (s : State) (f : Nat) (v : FeedS) : (s.setFeed f v).rails = s.rails := by rfl
@[simp] theorem State.setFeed_railF (s : State) (f : Nat) (v : FeedS) : (s.setFeed f v).railF = s.railF := by rfl
@[simp] theorem State.setFeed_avsAgain (s : State) (f : Nat) (v : FeedS) : (s.setFeed f v).avsAgain = s.avsAgain := by rfl
@[simp] theorem State.setFeed_voutExp (s : State) (f : Nat) (v : FeedS) : (s.setFeed f v).voutExp = s.voutExp := by rfl
@[simp] theorem State.setFeed_straps (s : State) (f : Nat) (v : FeedS) : (s.setFeed f v).straps = s.straps := by rfl
@[simp] theorem State.setFeed_strm (s : State) (f : Nat) (v : FeedS) (k : Nat) : (s.setFeed f v).strm k = s.strm k := by rfl
@[simp] theorem State.setFeed_gen (s : State) (f : Nat) (v : FeedS) (k : Nat) : (s.setFeed f v).gen k = s.gen k := by rfl
@[simp] theorem State.setFeed_crew (s : State) (f : Nat) (v : FeedS) (k : Nat) : (s.setFeed f v).crew k = s.crew k := by rfl
@[simp] theorem State.setFeed_run (s : State) (f : Nat) (v : FeedS) (k : Nat) : (s.setFeed f v).run k = s.run k := by rfl
@[simp] theorem State.setFeed_ring (s : State) (f : Nat) (v : FeedS) (k : Nat) : (s.setFeed f v).ring k = s.ring k := by rfl
@[simp] theorem State.setFeed_tallySrc (s : State) (f : Nat) (v : FeedS) (k : Nat) : (s.setFeed f v).tallySrc k = s.tallySrc k := by rfl
@[simp] theorem State.setFeed_cp (s : State) (f : Nat) (v : FeedS) (k : Nat) : (s.setFeed f v).cp k = s.cp k := by rfl
@[simp] theorem State.setFeed_slotPicOf (s : State) (f : Nat) (v : FeedS) (k : Nat) : (s.setFeed f v).slotPicOf k = s.slotPicOf k := by rfl
@[simp] theorem State.setFeed_window (s : State) (f : Nat) (v : FeedS) (k : Nat) : (s.setFeed f v).window k = s.window k := by rfl
@[simp] theorem State.setFeed_frames (s : State) (f : Nat) (v : FeedS) (k : Nat) : (s.setFeed f v).frames k = s.frames k := by rfl
@[simp] theorem State.setFeed_sub (s : State) (f : Nat) (v : FeedS) (k : Nat) : (s.setFeed f v).sub k = s.sub k := by rfl
@[simp] theorem State.setFeed_stack (s : State) (f : Nat) (v : FeedS) (k : Nat) : (s.setFeed f v).stack k = s.stack k := by rfl
@[simp] theorem State.setFeed_seq (s : State) (f : Nat) (v : FeedS) (k : Nat) : (s.setFeed f v).seq k = s.seq k := by rfl
@[simp] theorem State.setFeed_hch (s : State) (f : Nat) (v : FeedS) (k : Nat) : (s.setFeed f v).hch k = s.hch k := by rfl
@[simp] theorem State.setFeed_qp (s : State) (f : Nat) (v : FeedS) (k : Nat) : (s.setFeed f v).qp k = s.qp k := by rfl
@[simp] theorem State.setFeed_get (s : State) (f : Nat) (v : FeedS) (k : RF) : (s.setFeed f v).get k = s.get k := by rfl
@[simp] theorem State.setFeed_flag (s : State) (f : Nat) (v : FeedS) (k : RF) : (s.setFeed f v).flag k = s.flag k := by rfl
@[simp] theorem State.setFeed_reg (s : State) (f : Nat) (v : FeedS) (k : Nat) : (s.setFeed f v).reg k = s.reg k := by rfl

/-! ### setCrew -/

@[simp] theorem State.setCrew_pending (s : State) (c : Nat) (v : CrewS) : (s.setCrew c v).pending = s.pending := by rfl
@[simp] theorem State.setCrew_regs (s : State) (c : Nat) (v : CrewS) : (s.setCrew c v).regs = s.regs := by rfl
@[simp] theorem State.setCrew_part (s : State) (c : Nat) (v : CrewS) : (s.setCrew c v).part = s.part := by rfl
@[simp] theorem State.setCrew_rst (s : State) (c : Nat) (v : CrewS) : (s.setCrew c v).rst = s.rst := by rfl
@[simp] theorem State.setCrew_now (s : State) (c : Nat) (v : CrewS) : (s.setCrew c v).now = s.now := by rfl
@[simp] theorem State.setCrew_prev (s : State) (c : Nat) (v : CrewS) : (s.setCrew c v).prev = s.prev := by rfl
@[simp] theorem State.setCrew_cyc (s : State) (c : Nat) (v : CrewS) : (s.setCrew c v).cyc = s.cyc := by rfl
@[simp] theorem State.setCrew_fired (s : State) (c : Nat) (v : CrewS) : (s.setCrew c v).fired = s.fired := by rfl
@[simp] theorem State.setCrew_hot (s : State) (c : Nat) (v : CrewS) : (s.setCrew c v).hot = s.hot := by rfl
@[simp] theorem State.setCrew_freed (s : State) (c : Nat) (v : CrewS) : (s.setCrew c v).freed = s.freed := by rfl
@[simp] theorem State.setCrew_waitDue (s : State) (c : Nat) (v : CrewS) : (s.setCrew c v).waitDue = s.waitDue := by rfl
@[simp] theorem State.setCrew_turns (s : State) (c : Nat) (v : CrewS) : (s.setCrew c v).turns = s.turns := by rfl
@[simp] theorem State.setCrew_rate (s : State) (c : Nat) (v : CrewS) : (s.setCrew c v).rate = s.rate := by rfl
@[simp] theorem State.setCrew_ppsNs (s : State) (c : Nat) (v : CrewS) : (s.setCrew c v).ppsNs = s.ppsNs := by rfl
@[simp] theorem State.setCrew_ppsHigh (s : State) (c : Nat) (v : CrewS) : (s.setCrew c v).ppsHigh = s.ppsHigh := by rfl
@[simp] theorem State.setCrew_relock (s : State) (c : Nat) (v : CrewS) : (s.setCrew c v).relock = s.relock := by rfl
@[simp] theorem State.setCrew_gens (s : State) (c : Nat) (v : CrewS) : (s.setCrew c v).gens = s.gens := by rfl
@[simp] theorem State.setCrew_freeCtr (s : State) (c : Nat) (v : CrewS) : (s.setCrew c v).freeCtr = s.freeCtr := by rfl
@[simp] theorem State.setCrew_held (s : State) (c : Nat) (v : CrewS) : (s.setCrew c v).held = s.held := by rfl
@[simp] theorem State.setCrew_heldWait (s : State) (c : Nat) (v : CrewS) : (s.setCrew c v).heldWait = s.heldWait := by rfl
@[simp] theorem State.setCrew_tsrc (s : State) (c : Nat) (v : CrewS) : (s.setCrew c v).tsrc = s.tsrc := by rfl
@[simp] theorem State.setCrew_twin (s : State) (c : Nat) (v : CrewS) : (s.setCrew c v).twin = s.twin := by rfl
@[simp] theorem State.setCrew_gath (s : State) (c : Nat) (v : CrewS) : (s.setCrew c v).gath = s.gath := by rfl
@[simp] theorem State.setCrew_claimed (s : State) (c : Nat) (v : CrewS) : (s.setCrew c v).claimed = s.claimed := by rfl
@[simp] theorem State.setCrew_tgtDef (s : State) (c : Nat) (v : CrewS) : (s.setCrew c v).tgtDef = s.tgtDef := by rfl
@[simp] theorem State.setCrew_holdOff (s : State) (c : Nat) (v : CrewS) : (s.setCrew c v).holdOff = s.holdOff := by rfl
@[simp] theorem State.setCrew_pins (s : State) (c : Nat) (v : CrewS) : (s.setCrew c v).pins = s.pins := by rfl
@[simp] theorem State.setCrew_looked (s : State) (c : Nat) (v : CrewS) : (s.setCrew c v).looked = s.looked := by rfl
@[simp] theorem State.setCrew_preempt (s : State) (c : Nat) (v : CrewS) : (s.setCrew c v).preempt = s.preempt := by rfl
@[simp] theorem State.setCrew_rings (s : State) (c : Nat) (v : CrewS) : (s.setCrew c v).rings = s.rings := by rfl
@[simp] theorem State.setCrew_fetched (s : State) (c : Nat) (v : CrewS) : (s.setCrew c v).fetched = s.fetched := by rfl
@[simp] theorem State.setCrew_lifted (s : State) (c : Nat) (v : CrewS) : (s.setCrew c v).lifted = s.lifted := by rfl
@[simp] theorem State.setCrew_owed (s : State) (c : Nat) (v : CrewS) : (s.setCrew c v).owed = s.owed := by rfl
@[simp] theorem State.setCrew_turn (s : State) (c : Nat) (v : CrewS) : (s.setCrew c v).turn = s.turn := by rfl
@[simp] theorem State.setCrew_outbox (s : State) (c : Nat) (v : CrewS) : (s.setCrew c v).outbox = s.outbox := by rfl
@[simp] theorem State.setCrew_streams (s : State) (c : Nat) (v : CrewS) : (s.setCrew c v).streams = s.streams := by rfl
@[simp] theorem State.setCrew_feeds (s : State) (c : Nat) (v : CrewS) : (s.setCrew c v).feeds = s.feeds := by rfl
@[simp] theorem State.setCrew_runs (s : State) (c : Nat) (v : CrewS) : (s.setCrew c v).runs = s.runs := by rfl
@[simp] theorem State.setCrew_ended (s : State) (c : Nat) (v : CrewS) : (s.setCrew c v).ended = s.ended := by rfl
@[simp] theorem State.setCrew_seqs (s : State) (c : Nat) (v : CrewS) : (s.setCrew c v).seqs = s.seqs := by rfl
@[simp] theorem State.setCrew_therm (s : State) (c : Nat) (v : CrewS) : (s.setCrew c v).therm = s.therm := by rfl
@[simp] theorem State.setCrew_progs (s : State) (c : Nat) (v : CrewS) : (s.setCrew c v).progs = s.progs := by rfl
@[simp] theorem State.setCrew_scache (s : State) (c : Nat) (v : CrewS) : (s.setCrew c v).scache = s.scache := by rfl
@[simp] theorem State.setCrew_slotPic (s : State) (c : Nat) (v : CrewS) : (s.setCrew c v).slotPic = s.slotPic := by rfl
@[simp] theorem State.setCrew_slotSz (s : State) (c : Nat) (v : CrewS) : (s.setCrew c v).slotSz = s.slotSz := by rfl
@[simp] theorem State.setCrew_slotNref (s : State) (c : Nat) (v : CrewS) : (s.setCrew c v).slotNref = s.slotNref := by rfl
@[simp] theorem State.setCrew_slotC (s : State) (c : Nat) (v : CrewS) : (s.setCrew c v).slotC = s.slotC := by rfl
@[simp] theorem State.setCrew_retPend (s : State) (c : Nat) (v : CrewS) : (s.setCrew c v).retPend = s.retPend := by rfl
@[simp] theorem State.setCrew_egr (s : State) (c : Nat) (v : CrewS) : (s.setCrew c v).egr = s.egr := by rfl
@[simp] theorem State.setCrew_txFree (s : State) (c : Nat) (v : CrewS) : (s.setCrew c v).txFree = s.txFree := by rfl
@[simp] theorem State.setCrew_frameNo (s : State) (c : Nat) (v : CrewS) : (s.setCrew c v).frameNo = s.frameNo := by rfl
@[simp] theorem State.setCrew_rtpSeq (s : State) (c : Nat) (v : CrewS) : (s.setCrew c v).rtpSeq = s.rtpSeq := by rfl
@[simp] theorem State.setCrew_subs (s : State) (c : Nat) (v : CrewS) : (s.setCrew c v).subs = s.subs := by rfl
@[simp] theorem State.setCrew_shapers (s : State) (c : Nat) (v : CrewS) : (s.setCrew c v).shapers = s.shapers := by rfl
@[simp] theorem State.setCrew_gates (s : State) (c : Nat) (v : CrewS) : (s.setCrew c v).gates = s.gates := by rfl
@[simp] theorem State.setCrew_ptpRx (s : State) (c : Nat) (v : CrewS) : (s.setCrew c v).ptpRx = s.ptpRx := by rfl
@[simp] theorem State.setCrew_tsb (s : State) (c : Nat) (v : CrewS) : (s.setCrew c v).tsb = s.tsb := by rfl
@[simp] theorem State.setCrew_ptpServo (s : State) (c : Nat) (v : CrewS) : (s.setCrew c v).ptpServo = s.ptpServo := by rfl
@[simp] theorem State.setCrew_mem (s : State) (c : Nat) (v : CrewS) : (s.setCrew c v).mem = s.mem := by rfl
@[simp] theorem State.setCrew_injRecs (s : State) (c : Nat) (v : CrewS) : (s.setCrew c v).injRecs = s.injRecs := by rfl
@[simp] theorem State.setCrew_filled (s : State) (c : Nat) (v : CrewS) : (s.setCrew c v).filled = s.filled := by rfl
@[simp] theorem State.setCrew_images (s : State) (c : Nat) (v : CrewS) : (s.setCrew c v).images = s.images := by rfl
@[simp] theorem State.setCrew_chkLeft (s : State) (c : Nat) (v : CrewS) : (s.setCrew c v).chkLeft = s.chkLeft := by rfl
@[simp] theorem State.setCrew_badRows (s : State) (c : Nat) (v : CrewS) : (s.setCrew c v).badRows = s.badRows := by rfl
@[simp] theorem State.setCrew_lost (s : State) (c : Nat) (v : CrewS) : (s.setCrew c v).lost = s.lost := by rfl
@[simp] theorem State.setCrew_celCe (s : State) (c : Nat) (v : CrewS) : (s.setCrew c v).celCe = s.celCe := by rfl
@[simp] theorem State.setCrew_celDly (s : State) (c : Nat) (v : CrewS) : (s.setCrew c v).celDly = s.celDly := by rfl
@[simp] theorem State.setCrew_celVref (s : State) (c : Nat) (v : CrewS) : (s.setCrew c v).celVref = s.celVref := by rfl
@[simp] theorem State.setCrew_pcs (s : State) (c : Nat) (v : CrewS) : (s.setCrew c v).pcs = s.pcs := by rfl
@[simp] theorem State.setCrew_stackTab (s : State) (c : Nat) (v : CrewS) : (s.setCrew c v).stackTab = s.stackTab := by rfl
@[simp] theorem State.setCrew_ldrCol (s : State) (c : Nat) (v : CrewS) : (s.setCrew c v).ldrCol = s.ldrCol := by rfl
@[simp] theorem State.setCrew_training (s : State) (c : Nat) (v : CrewS) : (s.setCrew c v).training = s.training := by rfl
@[simp] theorem State.setCrew_adapting (s : State) (c : Nat) (v : CrewS) : (s.setCrew c v).adapting = s.adapting := by rfl
@[simp] theorem State.setCrew_laneSet (s : State) (c : Nat) (v : CrewS) : (s.setCrew c v).laneSet = s.laneSet := by rfl
@[simp] theorem State.setCrew_blFrom (s : State) (c : Nat) (v : CrewS) : (s.setCrew c v).blFrom = s.blFrom := by rfl
@[simp] theorem State.setCrew_qps (s : State) (c : Nat) (v : CrewS) : (s.setCrew c v).qps = s.qps := by rfl
@[simp] theorem State.setCrew_hchs (s : State) (c : Nat) (v : CrewS) : (s.setCrew c v).hchs = s.hchs := by rfl
@[simp] theorem State.setCrew_hgrant (s : State) (c : Nat) (v : CrewS) : (s.setCrew c v).hgrant = s.hgrant := by rfl
@[simp] theorem State.setCrew_ptpPos (s : State) (c : Nat) (v : CrewS) : (s.setCrew c v).ptpPos = s.ptpPos := by rfl
@[simp] theorem State.setCrew_cps (s : State) (c : Nat) (v : CrewS) : (s.setCrew c v).cps = s.cps := by rfl
@[simp] theorem State.setCrew_push (s : State) (c : Nat) (v : CrewS) : (s.setCrew c v).push = s.push := by rfl
@[simp] theorem State.setCrew_bank0 (s : State) (c : Nat) (v : CrewS) : (s.setCrew c v).bank0 = s.bank0 := by rfl
@[simp] theorem State.setCrew_bank1 (s : State) (c : Nat) (v : CrewS) : (s.setCrew c v).bank1 = s.bank1 := by rfl
@[simp] theorem State.setCrew_sleep (s : State) (c : Nat) (v : CrewS) : (s.setCrew c v).sleep = s.sleep := by rfl
@[simp] theorem State.setCrew_swap (s : State) (c : Nat) (v : CrewS) : (s.setCrew c v).swap = s.swap := by rfl
@[simp] theorem State.setCrew_resetReq (s : State) (c : Nat) (v : CrewS) : (s.setCrew c v).resetReq = s.resetReq := by rfl
@[simp] theorem State.setCrew_wakeN (s : State) (c : Nat) (v : CrewS) : (s.setCrew c v).wakeN = s.wakeN := by rfl
@[simp] theorem State.setCrew_rails (s : State) (c : Nat) (v : CrewS) : (s.setCrew c v).rails = s.rails := by rfl
@[simp] theorem State.setCrew_railF (s : State) (c : Nat) (v : CrewS) : (s.setCrew c v).railF = s.railF := by rfl
@[simp] theorem State.setCrew_avsAgain (s : State) (c : Nat) (v : CrewS) : (s.setCrew c v).avsAgain = s.avsAgain := by rfl
@[simp] theorem State.setCrew_voutExp (s : State) (c : Nat) (v : CrewS) : (s.setCrew c v).voutExp = s.voutExp := by rfl
@[simp] theorem State.setCrew_straps (s : State) (c : Nat) (v : CrewS) : (s.setCrew c v).straps = s.straps := by rfl
@[simp] theorem State.setCrew_strm (s : State) (c : Nat) (v : CrewS) (k : Nat) : (s.setCrew c v).strm k = s.strm k := by rfl
@[simp] theorem State.setCrew_gen (s : State) (c : Nat) (v : CrewS) (k : Nat) : (s.setCrew c v).gen k = s.gen k := by rfl
@[simp] theorem State.setCrew_feed (s : State) (c : Nat) (v : CrewS) (k : Nat) : (s.setCrew c v).feed k = s.feed k := by rfl
@[simp] theorem State.setCrew_run (s : State) (c : Nat) (v : CrewS) (k : Nat) : (s.setCrew c v).run k = s.run k := by rfl
@[simp] theorem State.setCrew_ring (s : State) (c : Nat) (v : CrewS) (k : Nat) : (s.setCrew c v).ring k = s.ring k := by rfl
@[simp] theorem State.setCrew_tallySrc (s : State) (c : Nat) (v : CrewS) (k : Nat) : (s.setCrew c v).tallySrc k = s.tallySrc k := by rfl
@[simp] theorem State.setCrew_cp (s : State) (c : Nat) (v : CrewS) (k : Nat) : (s.setCrew c v).cp k = s.cp k := by rfl
@[simp] theorem State.setCrew_slotPicOf (s : State) (c : Nat) (v : CrewS) (k : Nat) : (s.setCrew c v).slotPicOf k = s.slotPicOf k := by rfl
@[simp] theorem State.setCrew_window (s : State) (c : Nat) (v : CrewS) (k : Nat) : (s.setCrew c v).window k = s.window k := by rfl
@[simp] theorem State.setCrew_frames (s : State) (c : Nat) (v : CrewS) (k : Nat) : (s.setCrew c v).frames k = s.frames k := by rfl
@[simp] theorem State.setCrew_sub (s : State) (c : Nat) (v : CrewS) (k : Nat) : (s.setCrew c v).sub k = s.sub k := by rfl
@[simp] theorem State.setCrew_stack (s : State) (c : Nat) (v : CrewS) (k : Nat) : (s.setCrew c v).stack k = s.stack k := by rfl
@[simp] theorem State.setCrew_seq (s : State) (c : Nat) (v : CrewS) (k : Nat) : (s.setCrew c v).seq k = s.seq k := by rfl
@[simp] theorem State.setCrew_hch (s : State) (c : Nat) (v : CrewS) (k : Nat) : (s.setCrew c v).hch k = s.hch k := by rfl
@[simp] theorem State.setCrew_qp (s : State) (c : Nat) (v : CrewS) (k : Nat) : (s.setCrew c v).qp k = s.qp k := by rfl
@[simp] theorem State.setCrew_get (s : State) (c : Nat) (v : CrewS) (k : RF) : (s.setCrew c v).get k = s.get k := by rfl
@[simp] theorem State.setCrew_flag (s : State) (c : Nat) (v : CrewS) (k : RF) : (s.setCrew c v).flag k = s.flag k := by rfl
@[simp] theorem State.setCrew_reg (s : State) (c : Nat) (v : CrewS) (k : Nat) : (s.setCrew c v).reg k = s.reg k := by rfl

/-! ### setRun -/

@[simp] theorem State.setRun_pending (s : State) (u : Nat) (v : Option RunS) : (s.setRun u v).pending = s.pending := by rfl
@[simp] theorem State.setRun_regs (s : State) (u : Nat) (v : Option RunS) : (s.setRun u v).regs = s.regs := by rfl
@[simp] theorem State.setRun_part (s : State) (u : Nat) (v : Option RunS) : (s.setRun u v).part = s.part := by rfl
@[simp] theorem State.setRun_rst (s : State) (u : Nat) (v : Option RunS) : (s.setRun u v).rst = s.rst := by rfl
@[simp] theorem State.setRun_now (s : State) (u : Nat) (v : Option RunS) : (s.setRun u v).now = s.now := by rfl
@[simp] theorem State.setRun_prev (s : State) (u : Nat) (v : Option RunS) : (s.setRun u v).prev = s.prev := by rfl
@[simp] theorem State.setRun_cyc (s : State) (u : Nat) (v : Option RunS) : (s.setRun u v).cyc = s.cyc := by rfl
@[simp] theorem State.setRun_fired (s : State) (u : Nat) (v : Option RunS) : (s.setRun u v).fired = s.fired := by rfl
@[simp] theorem State.setRun_hot (s : State) (u : Nat) (v : Option RunS) : (s.setRun u v).hot = s.hot := by rfl
@[simp] theorem State.setRun_freed (s : State) (u : Nat) (v : Option RunS) : (s.setRun u v).freed = s.freed := by rfl
@[simp] theorem State.setRun_waitDue (s : State) (u : Nat) (v : Option RunS) : (s.setRun u v).waitDue = s.waitDue := by rfl
@[simp] theorem State.setRun_turns (s : State) (u : Nat) (v : Option RunS) : (s.setRun u v).turns = s.turns := by rfl
@[simp] theorem State.setRun_rate (s : State) (u : Nat) (v : Option RunS) : (s.setRun u v).rate = s.rate := by rfl
@[simp] theorem State.setRun_ppsNs (s : State) (u : Nat) (v : Option RunS) : (s.setRun u v).ppsNs = s.ppsNs := by rfl
@[simp] theorem State.setRun_ppsHigh (s : State) (u : Nat) (v : Option RunS) : (s.setRun u v).ppsHigh = s.ppsHigh := by rfl
@[simp] theorem State.setRun_relock (s : State) (u : Nat) (v : Option RunS) : (s.setRun u v).relock = s.relock := by rfl
@[simp] theorem State.setRun_gens (s : State) (u : Nat) (v : Option RunS) : (s.setRun u v).gens = s.gens := by rfl
@[simp] theorem State.setRun_freeCtr (s : State) (u : Nat) (v : Option RunS) : (s.setRun u v).freeCtr = s.freeCtr := by rfl
@[simp] theorem State.setRun_held (s : State) (u : Nat) (v : Option RunS) : (s.setRun u v).held = s.held := by rfl
@[simp] theorem State.setRun_heldWait (s : State) (u : Nat) (v : Option RunS) : (s.setRun u v).heldWait = s.heldWait := by rfl
@[simp] theorem State.setRun_tsrc (s : State) (u : Nat) (v : Option RunS) : (s.setRun u v).tsrc = s.tsrc := by rfl
@[simp] theorem State.setRun_twin (s : State) (u : Nat) (v : Option RunS) : (s.setRun u v).twin = s.twin := by rfl
@[simp] theorem State.setRun_gath (s : State) (u : Nat) (v : Option RunS) : (s.setRun u v).gath = s.gath := by rfl
@[simp] theorem State.setRun_claimed (s : State) (u : Nat) (v : Option RunS) : (s.setRun u v).claimed = s.claimed := by rfl
@[simp] theorem State.setRun_tgtDef (s : State) (u : Nat) (v : Option RunS) : (s.setRun u v).tgtDef = s.tgtDef := by rfl
@[simp] theorem State.setRun_holdOff (s : State) (u : Nat) (v : Option RunS) : (s.setRun u v).holdOff = s.holdOff := by rfl
@[simp] theorem State.setRun_pins (s : State) (u : Nat) (v : Option RunS) : (s.setRun u v).pins = s.pins := by rfl
@[simp] theorem State.setRun_looked (s : State) (u : Nat) (v : Option RunS) : (s.setRun u v).looked = s.looked := by rfl
@[simp] theorem State.setRun_preempt (s : State) (u : Nat) (v : Option RunS) : (s.setRun u v).preempt = s.preempt := by rfl
@[simp] theorem State.setRun_rings (s : State) (u : Nat) (v : Option RunS) : (s.setRun u v).rings = s.rings := by rfl
@[simp] theorem State.setRun_fetched (s : State) (u : Nat) (v : Option RunS) : (s.setRun u v).fetched = s.fetched := by rfl
@[simp] theorem State.setRun_lifted (s : State) (u : Nat) (v : Option RunS) : (s.setRun u v).lifted = s.lifted := by rfl
@[simp] theorem State.setRun_owed (s : State) (u : Nat) (v : Option RunS) : (s.setRun u v).owed = s.owed := by rfl
@[simp] theorem State.setRun_turn (s : State) (u : Nat) (v : Option RunS) : (s.setRun u v).turn = s.turn := by rfl
@[simp] theorem State.setRun_outbox (s : State) (u : Nat) (v : Option RunS) : (s.setRun u v).outbox = s.outbox := by rfl
@[simp] theorem State.setRun_streams (s : State) (u : Nat) (v : Option RunS) : (s.setRun u v).streams = s.streams := by rfl
@[simp] theorem State.setRun_feeds (s : State) (u : Nat) (v : Option RunS) : (s.setRun u v).feeds = s.feeds := by rfl
@[simp] theorem State.setRun_crews (s : State) (u : Nat) (v : Option RunS) : (s.setRun u v).crews = s.crews := by rfl
@[simp] theorem State.setRun_ended (s : State) (u : Nat) (v : Option RunS) : (s.setRun u v).ended = s.ended := by rfl
@[simp] theorem State.setRun_seqs (s : State) (u : Nat) (v : Option RunS) : (s.setRun u v).seqs = s.seqs := by rfl
@[simp] theorem State.setRun_therm (s : State) (u : Nat) (v : Option RunS) : (s.setRun u v).therm = s.therm := by rfl
@[simp] theorem State.setRun_progs (s : State) (u : Nat) (v : Option RunS) : (s.setRun u v).progs = s.progs := by rfl
@[simp] theorem State.setRun_scache (s : State) (u : Nat) (v : Option RunS) : (s.setRun u v).scache = s.scache := by rfl
@[simp] theorem State.setRun_slotPic (s : State) (u : Nat) (v : Option RunS) : (s.setRun u v).slotPic = s.slotPic := by rfl
@[simp] theorem State.setRun_slotSz (s : State) (u : Nat) (v : Option RunS) : (s.setRun u v).slotSz = s.slotSz := by rfl
@[simp] theorem State.setRun_slotNref (s : State) (u : Nat) (v : Option RunS) : (s.setRun u v).slotNref = s.slotNref := by rfl
@[simp] theorem State.setRun_slotC (s : State) (u : Nat) (v : Option RunS) : (s.setRun u v).slotC = s.slotC := by rfl
@[simp] theorem State.setRun_retPend (s : State) (u : Nat) (v : Option RunS) : (s.setRun u v).retPend = s.retPend := by rfl
@[simp] theorem State.setRun_egr (s : State) (u : Nat) (v : Option RunS) : (s.setRun u v).egr = s.egr := by rfl
@[simp] theorem State.setRun_txFree (s : State) (u : Nat) (v : Option RunS) : (s.setRun u v).txFree = s.txFree := by rfl
@[simp] theorem State.setRun_frameNo (s : State) (u : Nat) (v : Option RunS) : (s.setRun u v).frameNo = s.frameNo := by rfl
@[simp] theorem State.setRun_rtpSeq (s : State) (u : Nat) (v : Option RunS) : (s.setRun u v).rtpSeq = s.rtpSeq := by rfl
@[simp] theorem State.setRun_subs (s : State) (u : Nat) (v : Option RunS) : (s.setRun u v).subs = s.subs := by rfl
@[simp] theorem State.setRun_shapers (s : State) (u : Nat) (v : Option RunS) : (s.setRun u v).shapers = s.shapers := by rfl
@[simp] theorem State.setRun_gates (s : State) (u : Nat) (v : Option RunS) : (s.setRun u v).gates = s.gates := by rfl
@[simp] theorem State.setRun_ptpRx (s : State) (u : Nat) (v : Option RunS) : (s.setRun u v).ptpRx = s.ptpRx := by rfl
@[simp] theorem State.setRun_tsb (s : State) (u : Nat) (v : Option RunS) : (s.setRun u v).tsb = s.tsb := by rfl
@[simp] theorem State.setRun_ptpServo (s : State) (u : Nat) (v : Option RunS) : (s.setRun u v).ptpServo = s.ptpServo := by rfl
@[simp] theorem State.setRun_mem (s : State) (u : Nat) (v : Option RunS) : (s.setRun u v).mem = s.mem := by rfl
@[simp] theorem State.setRun_injRecs (s : State) (u : Nat) (v : Option RunS) : (s.setRun u v).injRecs = s.injRecs := by rfl
@[simp] theorem State.setRun_filled (s : State) (u : Nat) (v : Option RunS) : (s.setRun u v).filled = s.filled := by rfl
@[simp] theorem State.setRun_images (s : State) (u : Nat) (v : Option RunS) : (s.setRun u v).images = s.images := by rfl
@[simp] theorem State.setRun_chkLeft (s : State) (u : Nat) (v : Option RunS) : (s.setRun u v).chkLeft = s.chkLeft := by rfl
@[simp] theorem State.setRun_badRows (s : State) (u : Nat) (v : Option RunS) : (s.setRun u v).badRows = s.badRows := by rfl
@[simp] theorem State.setRun_lost (s : State) (u : Nat) (v : Option RunS) : (s.setRun u v).lost = s.lost := by rfl
@[simp] theorem State.setRun_celCe (s : State) (u : Nat) (v : Option RunS) : (s.setRun u v).celCe = s.celCe := by rfl
@[simp] theorem State.setRun_celDly (s : State) (u : Nat) (v : Option RunS) : (s.setRun u v).celDly = s.celDly := by rfl
@[simp] theorem State.setRun_celVref (s : State) (u : Nat) (v : Option RunS) : (s.setRun u v).celVref = s.celVref := by rfl
@[simp] theorem State.setRun_pcs (s : State) (u : Nat) (v : Option RunS) : (s.setRun u v).pcs = s.pcs := by rfl
@[simp] theorem State.setRun_stackTab (s : State) (u : Nat) (v : Option RunS) : (s.setRun u v).stackTab = s.stackTab := by rfl
@[simp] theorem State.setRun_ldrCol (s : State) (u : Nat) (v : Option RunS) : (s.setRun u v).ldrCol = s.ldrCol := by rfl
@[simp] theorem State.setRun_training (s : State) (u : Nat) (v : Option RunS) : (s.setRun u v).training = s.training := by rfl
@[simp] theorem State.setRun_adapting (s : State) (u : Nat) (v : Option RunS) : (s.setRun u v).adapting = s.adapting := by rfl
@[simp] theorem State.setRun_laneSet (s : State) (u : Nat) (v : Option RunS) : (s.setRun u v).laneSet = s.laneSet := by rfl
@[simp] theorem State.setRun_blFrom (s : State) (u : Nat) (v : Option RunS) : (s.setRun u v).blFrom = s.blFrom := by rfl
@[simp] theorem State.setRun_qps (s : State) (u : Nat) (v : Option RunS) : (s.setRun u v).qps = s.qps := by rfl
@[simp] theorem State.setRun_hchs (s : State) (u : Nat) (v : Option RunS) : (s.setRun u v).hchs = s.hchs := by rfl
@[simp] theorem State.setRun_hgrant (s : State) (u : Nat) (v : Option RunS) : (s.setRun u v).hgrant = s.hgrant := by rfl
@[simp] theorem State.setRun_ptpPos (s : State) (u : Nat) (v : Option RunS) : (s.setRun u v).ptpPos = s.ptpPos := by rfl
@[simp] theorem State.setRun_cps (s : State) (u : Nat) (v : Option RunS) : (s.setRun u v).cps = s.cps := by rfl
@[simp] theorem State.setRun_push (s : State) (u : Nat) (v : Option RunS) : (s.setRun u v).push = s.push := by rfl
@[simp] theorem State.setRun_bank0 (s : State) (u : Nat) (v : Option RunS) : (s.setRun u v).bank0 = s.bank0 := by rfl
@[simp] theorem State.setRun_bank1 (s : State) (u : Nat) (v : Option RunS) : (s.setRun u v).bank1 = s.bank1 := by rfl
@[simp] theorem State.setRun_sleep (s : State) (u : Nat) (v : Option RunS) : (s.setRun u v).sleep = s.sleep := by rfl
@[simp] theorem State.setRun_swap (s : State) (u : Nat) (v : Option RunS) : (s.setRun u v).swap = s.swap := by rfl
@[simp] theorem State.setRun_resetReq (s : State) (u : Nat) (v : Option RunS) : (s.setRun u v).resetReq = s.resetReq := by rfl
@[simp] theorem State.setRun_wakeN (s : State) (u : Nat) (v : Option RunS) : (s.setRun u v).wakeN = s.wakeN := by rfl
@[simp] theorem State.setRun_rails (s : State) (u : Nat) (v : Option RunS) : (s.setRun u v).rails = s.rails := by rfl
@[simp] theorem State.setRun_railF (s : State) (u : Nat) (v : Option RunS) : (s.setRun u v).railF = s.railF := by rfl
@[simp] theorem State.setRun_avsAgain (s : State) (u : Nat) (v : Option RunS) : (s.setRun u v).avsAgain = s.avsAgain := by rfl
@[simp] theorem State.setRun_voutExp (s : State) (u : Nat) (v : Option RunS) : (s.setRun u v).voutExp = s.voutExp := by rfl
@[simp] theorem State.setRun_straps (s : State) (u : Nat) (v : Option RunS) : (s.setRun u v).straps = s.straps := by rfl
@[simp] theorem State.setRun_strm (s : State) (u : Nat) (v : Option RunS) (k : Nat) : (s.setRun u v).strm k = s.strm k := by rfl
@[simp] theorem State.setRun_gen (s : State) (u : Nat) (v : Option RunS) (k : Nat) : (s.setRun u v).gen k = s.gen k := by rfl
@[simp] theorem State.setRun_feed (s : State) (u : Nat) (v : Option RunS) (k : Nat) : (s.setRun u v).feed k = s.feed k := by rfl
@[simp] theorem State.setRun_crew (s : State) (u : Nat) (v : Option RunS) (k : Nat) : (s.setRun u v).crew k = s.crew k := by rfl
@[simp] theorem State.setRun_ring (s : State) (u : Nat) (v : Option RunS) (k : Nat) : (s.setRun u v).ring k = s.ring k := by rfl
@[simp] theorem State.setRun_tallySrc (s : State) (u : Nat) (v : Option RunS) (k : Nat) : (s.setRun u v).tallySrc k = s.tallySrc k := by rfl
@[simp] theorem State.setRun_cp (s : State) (u : Nat) (v : Option RunS) (k : Nat) : (s.setRun u v).cp k = s.cp k := by rfl
@[simp] theorem State.setRun_slotPicOf (s : State) (u : Nat) (v : Option RunS) (k : Nat) : (s.setRun u v).slotPicOf k = s.slotPicOf k := by rfl
@[simp] theorem State.setRun_window (s : State) (u : Nat) (v : Option RunS) (k : Nat) : (s.setRun u v).window k = s.window k := by rfl
@[simp] theorem State.setRun_frames (s : State) (u : Nat) (v : Option RunS) (k : Nat) : (s.setRun u v).frames k = s.frames k := by rfl
@[simp] theorem State.setRun_sub (s : State) (u : Nat) (v : Option RunS) (k : Nat) : (s.setRun u v).sub k = s.sub k := by rfl
@[simp] theorem State.setRun_stack (s : State) (u : Nat) (v : Option RunS) (k : Nat) : (s.setRun u v).stack k = s.stack k := by rfl
@[simp] theorem State.setRun_seq (s : State) (u : Nat) (v : Option RunS) (k : Nat) : (s.setRun u v).seq k = s.seq k := by rfl
@[simp] theorem State.setRun_hch (s : State) (u : Nat) (v : Option RunS) (k : Nat) : (s.setRun u v).hch k = s.hch k := by rfl
@[simp] theorem State.setRun_qp (s : State) (u : Nat) (v : Option RunS) (k : Nat) : (s.setRun u v).qp k = s.qp k := by rfl
@[simp] theorem State.setRun_get (s : State) (u : Nat) (v : Option RunS) (k : RF) : (s.setRun u v).get k = s.get k := by rfl
@[simp] theorem State.setRun_flag (s : State) (u : Nat) (v : Option RunS) (k : RF) : (s.setRun u v).flag k = s.flag k := by rfl
@[simp] theorem State.setRun_reg (s : State) (u : Nat) (v : Option RunS) (k : Nat) : (s.setRun u v).reg k = s.reg k := by rfl

/-! ### setRing -/

@[simp] theorem State.setRing_pending (s : State) (i : Nat) (v : RingS) : (s.setRing i v).pending = s.pending := by rfl
@[simp] theorem State.setRing_regs (s : State) (i : Nat) (v : RingS) : (s.setRing i v).regs = s.regs := by rfl
@[simp] theorem State.setRing_part (s : State) (i : Nat) (v : RingS) : (s.setRing i v).part = s.part := by rfl
@[simp] theorem State.setRing_rst (s : State) (i : Nat) (v : RingS) : (s.setRing i v).rst = s.rst := by rfl
@[simp] theorem State.setRing_now (s : State) (i : Nat) (v : RingS) : (s.setRing i v).now = s.now := by rfl
@[simp] theorem State.setRing_prev (s : State) (i : Nat) (v : RingS) : (s.setRing i v).prev = s.prev := by rfl
@[simp] theorem State.setRing_cyc (s : State) (i : Nat) (v : RingS) : (s.setRing i v).cyc = s.cyc := by rfl
@[simp] theorem State.setRing_fired (s : State) (i : Nat) (v : RingS) : (s.setRing i v).fired = s.fired := by rfl
@[simp] theorem State.setRing_hot (s : State) (i : Nat) (v : RingS) : (s.setRing i v).hot = s.hot := by rfl
@[simp] theorem State.setRing_freed (s : State) (i : Nat) (v : RingS) : (s.setRing i v).freed = s.freed := by rfl
@[simp] theorem State.setRing_waitDue (s : State) (i : Nat) (v : RingS) : (s.setRing i v).waitDue = s.waitDue := by rfl
@[simp] theorem State.setRing_turns (s : State) (i : Nat) (v : RingS) : (s.setRing i v).turns = s.turns := by rfl
@[simp] theorem State.setRing_rate (s : State) (i : Nat) (v : RingS) : (s.setRing i v).rate = s.rate := by rfl
@[simp] theorem State.setRing_ppsNs (s : State) (i : Nat) (v : RingS) : (s.setRing i v).ppsNs = s.ppsNs := by rfl
@[simp] theorem State.setRing_ppsHigh (s : State) (i : Nat) (v : RingS) : (s.setRing i v).ppsHigh = s.ppsHigh := by rfl
@[simp] theorem State.setRing_relock (s : State) (i : Nat) (v : RingS) : (s.setRing i v).relock = s.relock := by rfl
@[simp] theorem State.setRing_gens (s : State) (i : Nat) (v : RingS) : (s.setRing i v).gens = s.gens := by rfl
@[simp] theorem State.setRing_freeCtr (s : State) (i : Nat) (v : RingS) : (s.setRing i v).freeCtr = s.freeCtr := by rfl
@[simp] theorem State.setRing_held (s : State) (i : Nat) (v : RingS) : (s.setRing i v).held = s.held := by rfl
@[simp] theorem State.setRing_heldWait (s : State) (i : Nat) (v : RingS) : (s.setRing i v).heldWait = s.heldWait := by rfl
@[simp] theorem State.setRing_tsrc (s : State) (i : Nat) (v : RingS) : (s.setRing i v).tsrc = s.tsrc := by rfl
@[simp] theorem State.setRing_twin (s : State) (i : Nat) (v : RingS) : (s.setRing i v).twin = s.twin := by rfl
@[simp] theorem State.setRing_gath (s : State) (i : Nat) (v : RingS) : (s.setRing i v).gath = s.gath := by rfl
@[simp] theorem State.setRing_claimed (s : State) (i : Nat) (v : RingS) : (s.setRing i v).claimed = s.claimed := by rfl
@[simp] theorem State.setRing_tgtDef (s : State) (i : Nat) (v : RingS) : (s.setRing i v).tgtDef = s.tgtDef := by rfl
@[simp] theorem State.setRing_holdOff (s : State) (i : Nat) (v : RingS) : (s.setRing i v).holdOff = s.holdOff := by rfl
@[simp] theorem State.setRing_pins (s : State) (i : Nat) (v : RingS) : (s.setRing i v).pins = s.pins := by rfl
@[simp] theorem State.setRing_looked (s : State) (i : Nat) (v : RingS) : (s.setRing i v).looked = s.looked := by rfl
@[simp] theorem State.setRing_preempt (s : State) (i : Nat) (v : RingS) : (s.setRing i v).preempt = s.preempt := by rfl
@[simp] theorem State.setRing_fetched (s : State) (i : Nat) (v : RingS) : (s.setRing i v).fetched = s.fetched := by rfl
@[simp] theorem State.setRing_lifted (s : State) (i : Nat) (v : RingS) : (s.setRing i v).lifted = s.lifted := by rfl
@[simp] theorem State.setRing_owed (s : State) (i : Nat) (v : RingS) : (s.setRing i v).owed = s.owed := by rfl
@[simp] theorem State.setRing_turn (s : State) (i : Nat) (v : RingS) : (s.setRing i v).turn = s.turn := by rfl
@[simp] theorem State.setRing_outbox (s : State) (i : Nat) (v : RingS) : (s.setRing i v).outbox = s.outbox := by rfl
@[simp] theorem State.setRing_streams (s : State) (i : Nat) (v : RingS) : (s.setRing i v).streams = s.streams := by rfl
@[simp] theorem State.setRing_feeds (s : State) (i : Nat) (v : RingS) : (s.setRing i v).feeds = s.feeds := by rfl
@[simp] theorem State.setRing_crews (s : State) (i : Nat) (v : RingS) : (s.setRing i v).crews = s.crews := by rfl
@[simp] theorem State.setRing_runs (s : State) (i : Nat) (v : RingS) : (s.setRing i v).runs = s.runs := by rfl
@[simp] theorem State.setRing_ended (s : State) (i : Nat) (v : RingS) : (s.setRing i v).ended = s.ended := by rfl
@[simp] theorem State.setRing_seqs (s : State) (i : Nat) (v : RingS) : (s.setRing i v).seqs = s.seqs := by rfl
@[simp] theorem State.setRing_therm (s : State) (i : Nat) (v : RingS) : (s.setRing i v).therm = s.therm := by rfl
@[simp] theorem State.setRing_progs (s : State) (i : Nat) (v : RingS) : (s.setRing i v).progs = s.progs := by rfl
@[simp] theorem State.setRing_scache (s : State) (i : Nat) (v : RingS) : (s.setRing i v).scache = s.scache := by rfl
@[simp] theorem State.setRing_slotPic (s : State) (i : Nat) (v : RingS) : (s.setRing i v).slotPic = s.slotPic := by rfl
@[simp] theorem State.setRing_slotSz (s : State) (i : Nat) (v : RingS) : (s.setRing i v).slotSz = s.slotSz := by rfl
@[simp] theorem State.setRing_slotNref (s : State) (i : Nat) (v : RingS) : (s.setRing i v).slotNref = s.slotNref := by rfl
@[simp] theorem State.setRing_slotC (s : State) (i : Nat) (v : RingS) : (s.setRing i v).slotC = s.slotC := by rfl
@[simp] theorem State.setRing_retPend (s : State) (i : Nat) (v : RingS) : (s.setRing i v).retPend = s.retPend := by rfl
@[simp] theorem State.setRing_egr (s : State) (i : Nat) (v : RingS) : (s.setRing i v).egr = s.egr := by rfl
@[simp] theorem State.setRing_txFree (s : State) (i : Nat) (v : RingS) : (s.setRing i v).txFree = s.txFree := by rfl
@[simp] theorem State.setRing_frameNo (s : State) (i : Nat) (v : RingS) : (s.setRing i v).frameNo = s.frameNo := by rfl
@[simp] theorem State.setRing_rtpSeq (s : State) (i : Nat) (v : RingS) : (s.setRing i v).rtpSeq = s.rtpSeq := by rfl
@[simp] theorem State.setRing_subs (s : State) (i : Nat) (v : RingS) : (s.setRing i v).subs = s.subs := by rfl
@[simp] theorem State.setRing_shapers (s : State) (i : Nat) (v : RingS) : (s.setRing i v).shapers = s.shapers := by rfl
@[simp] theorem State.setRing_gates (s : State) (i : Nat) (v : RingS) : (s.setRing i v).gates = s.gates := by rfl
@[simp] theorem State.setRing_ptpRx (s : State) (i : Nat) (v : RingS) : (s.setRing i v).ptpRx = s.ptpRx := by rfl
@[simp] theorem State.setRing_tsb (s : State) (i : Nat) (v : RingS) : (s.setRing i v).tsb = s.tsb := by rfl
@[simp] theorem State.setRing_ptpServo (s : State) (i : Nat) (v : RingS) : (s.setRing i v).ptpServo = s.ptpServo := by rfl
@[simp] theorem State.setRing_mem (s : State) (i : Nat) (v : RingS) : (s.setRing i v).mem = s.mem := by rfl
@[simp] theorem State.setRing_injRecs (s : State) (i : Nat) (v : RingS) : (s.setRing i v).injRecs = s.injRecs := by rfl
@[simp] theorem State.setRing_filled (s : State) (i : Nat) (v : RingS) : (s.setRing i v).filled = s.filled := by rfl
@[simp] theorem State.setRing_images (s : State) (i : Nat) (v : RingS) : (s.setRing i v).images = s.images := by rfl
@[simp] theorem State.setRing_chkLeft (s : State) (i : Nat) (v : RingS) : (s.setRing i v).chkLeft = s.chkLeft := by rfl
@[simp] theorem State.setRing_badRows (s : State) (i : Nat) (v : RingS) : (s.setRing i v).badRows = s.badRows := by rfl
@[simp] theorem State.setRing_lost (s : State) (i : Nat) (v : RingS) : (s.setRing i v).lost = s.lost := by rfl
@[simp] theorem State.setRing_celCe (s : State) (i : Nat) (v : RingS) : (s.setRing i v).celCe = s.celCe := by rfl
@[simp] theorem State.setRing_celDly (s : State) (i : Nat) (v : RingS) : (s.setRing i v).celDly = s.celDly := by rfl
@[simp] theorem State.setRing_celVref (s : State) (i : Nat) (v : RingS) : (s.setRing i v).celVref = s.celVref := by rfl
@[simp] theorem State.setRing_pcs (s : State) (i : Nat) (v : RingS) : (s.setRing i v).pcs = s.pcs := by rfl
@[simp] theorem State.setRing_stackTab (s : State) (i : Nat) (v : RingS) : (s.setRing i v).stackTab = s.stackTab := by rfl
@[simp] theorem State.setRing_ldrCol (s : State) (i : Nat) (v : RingS) : (s.setRing i v).ldrCol = s.ldrCol := by rfl
@[simp] theorem State.setRing_training (s : State) (i : Nat) (v : RingS) : (s.setRing i v).training = s.training := by rfl
@[simp] theorem State.setRing_adapting (s : State) (i : Nat) (v : RingS) : (s.setRing i v).adapting = s.adapting := by rfl
@[simp] theorem State.setRing_laneSet (s : State) (i : Nat) (v : RingS) : (s.setRing i v).laneSet = s.laneSet := by rfl
@[simp] theorem State.setRing_blFrom (s : State) (i : Nat) (v : RingS) : (s.setRing i v).blFrom = s.blFrom := by rfl
@[simp] theorem State.setRing_qps (s : State) (i : Nat) (v : RingS) : (s.setRing i v).qps = s.qps := by rfl
@[simp] theorem State.setRing_hchs (s : State) (i : Nat) (v : RingS) : (s.setRing i v).hchs = s.hchs := by rfl
@[simp] theorem State.setRing_hgrant (s : State) (i : Nat) (v : RingS) : (s.setRing i v).hgrant = s.hgrant := by rfl
@[simp] theorem State.setRing_ptpPos (s : State) (i : Nat) (v : RingS) : (s.setRing i v).ptpPos = s.ptpPos := by rfl
@[simp] theorem State.setRing_cps (s : State) (i : Nat) (v : RingS) : (s.setRing i v).cps = s.cps := by rfl
@[simp] theorem State.setRing_push (s : State) (i : Nat) (v : RingS) : (s.setRing i v).push = s.push := by rfl
@[simp] theorem State.setRing_bank0 (s : State) (i : Nat) (v : RingS) : (s.setRing i v).bank0 = s.bank0 := by rfl
@[simp] theorem State.setRing_bank1 (s : State) (i : Nat) (v : RingS) : (s.setRing i v).bank1 = s.bank1 := by rfl
@[simp] theorem State.setRing_sleep (s : State) (i : Nat) (v : RingS) : (s.setRing i v).sleep = s.sleep := by rfl
@[simp] theorem State.setRing_swap (s : State) (i : Nat) (v : RingS) : (s.setRing i v).swap = s.swap := by rfl
@[simp] theorem State.setRing_resetReq (s : State) (i : Nat) (v : RingS) : (s.setRing i v).resetReq = s.resetReq := by rfl
@[simp] theorem State.setRing_wakeN (s : State) (i : Nat) (v : RingS) : (s.setRing i v).wakeN = s.wakeN := by rfl
@[simp] theorem State.setRing_rails (s : State) (i : Nat) (v : RingS) : (s.setRing i v).rails = s.rails := by rfl
@[simp] theorem State.setRing_railF (s : State) (i : Nat) (v : RingS) : (s.setRing i v).railF = s.railF := by rfl
@[simp] theorem State.setRing_avsAgain (s : State) (i : Nat) (v : RingS) : (s.setRing i v).avsAgain = s.avsAgain := by rfl
@[simp] theorem State.setRing_voutExp (s : State) (i : Nat) (v : RingS) : (s.setRing i v).voutExp = s.voutExp := by rfl
@[simp] theorem State.setRing_straps (s : State) (i : Nat) (v : RingS) : (s.setRing i v).straps = s.straps := by rfl
@[simp] theorem State.setRing_strm (s : State) (i : Nat) (v : RingS) (k : Nat) : (s.setRing i v).strm k = s.strm k := by rfl
@[simp] theorem State.setRing_gen (s : State) (i : Nat) (v : RingS) (k : Nat) : (s.setRing i v).gen k = s.gen k := by rfl
@[simp] theorem State.setRing_feed (s : State) (i : Nat) (v : RingS) (k : Nat) : (s.setRing i v).feed k = s.feed k := by rfl
@[simp] theorem State.setRing_crew (s : State) (i : Nat) (v : RingS) (k : Nat) : (s.setRing i v).crew k = s.crew k := by rfl
@[simp] theorem State.setRing_run (s : State) (i : Nat) (v : RingS) (k : Nat) : (s.setRing i v).run k = s.run k := by rfl
@[simp] theorem State.setRing_tallySrc (s : State) (i : Nat) (v : RingS) (k : Nat) : (s.setRing i v).tallySrc k = s.tallySrc k := by rfl
@[simp] theorem State.setRing_cp (s : State) (i : Nat) (v : RingS) (k : Nat) : (s.setRing i v).cp k = s.cp k := by rfl
@[simp] theorem State.setRing_slotPicOf (s : State) (i : Nat) (v : RingS) (k : Nat) : (s.setRing i v).slotPicOf k = s.slotPicOf k := by rfl
@[simp] theorem State.setRing_window (s : State) (i : Nat) (v : RingS) (k : Nat) : (s.setRing i v).window k = s.window k := by rfl
@[simp] theorem State.setRing_frames (s : State) (i : Nat) (v : RingS) (k : Nat) : (s.setRing i v).frames k = s.frames k := by rfl
@[simp] theorem State.setRing_sub (s : State) (i : Nat) (v : RingS) (k : Nat) : (s.setRing i v).sub k = s.sub k := by rfl
@[simp] theorem State.setRing_stack (s : State) (i : Nat) (v : RingS) (k : Nat) : (s.setRing i v).stack k = s.stack k := by rfl
@[simp] theorem State.setRing_seq (s : State) (i : Nat) (v : RingS) (k : Nat) : (s.setRing i v).seq k = s.seq k := by rfl
@[simp] theorem State.setRing_hch (s : State) (i : Nat) (v : RingS) (k : Nat) : (s.setRing i v).hch k = s.hch k := by rfl
@[simp] theorem State.setRing_qp (s : State) (i : Nat) (v : RingS) (k : Nat) : (s.setRing i v).qp k = s.qp k := by rfl
@[simp] theorem State.setRing_get (s : State) (i : Nat) (v : RingS) (k : RF) : (s.setRing i v).get k = s.get k := by rfl
@[simp] theorem State.setRing_flag (s : State) (i : Nat) (v : RingS) (k : RF) : (s.setRing i v).flag k = s.flag k := by rfl
@[simp] theorem State.setRing_reg (s : State) (i : Nat) (v : RingS) (k : Nat) : (s.setRing i v).reg k = s.reg k := by rfl

/-! ### setTallySrc -/

@[simp] theorem State.setTallySrc_pending (s : State) (i : Nat) (v : TSrc) : (s.setTallySrc i v).pending = s.pending := by rfl
@[simp] theorem State.setTallySrc_regs (s : State) (i : Nat) (v : TSrc) : (s.setTallySrc i v).regs = s.regs := by rfl
@[simp] theorem State.setTallySrc_part (s : State) (i : Nat) (v : TSrc) : (s.setTallySrc i v).part = s.part := by rfl
@[simp] theorem State.setTallySrc_rst (s : State) (i : Nat) (v : TSrc) : (s.setTallySrc i v).rst = s.rst := by rfl
@[simp] theorem State.setTallySrc_now (s : State) (i : Nat) (v : TSrc) : (s.setTallySrc i v).now = s.now := by rfl
@[simp] theorem State.setTallySrc_prev (s : State) (i : Nat) (v : TSrc) : (s.setTallySrc i v).prev = s.prev := by rfl
@[simp] theorem State.setTallySrc_cyc (s : State) (i : Nat) (v : TSrc) : (s.setTallySrc i v).cyc = s.cyc := by rfl
@[simp] theorem State.setTallySrc_fired (s : State) (i : Nat) (v : TSrc) : (s.setTallySrc i v).fired = s.fired := by rfl
@[simp] theorem State.setTallySrc_hot (s : State) (i : Nat) (v : TSrc) : (s.setTallySrc i v).hot = s.hot := by rfl
@[simp] theorem State.setTallySrc_freed (s : State) (i : Nat) (v : TSrc) : (s.setTallySrc i v).freed = s.freed := by rfl
@[simp] theorem State.setTallySrc_waitDue (s : State) (i : Nat) (v : TSrc) : (s.setTallySrc i v).waitDue = s.waitDue := by rfl
@[simp] theorem State.setTallySrc_turns (s : State) (i : Nat) (v : TSrc) : (s.setTallySrc i v).turns = s.turns := by rfl
@[simp] theorem State.setTallySrc_rate (s : State) (i : Nat) (v : TSrc) : (s.setTallySrc i v).rate = s.rate := by rfl
@[simp] theorem State.setTallySrc_ppsNs (s : State) (i : Nat) (v : TSrc) : (s.setTallySrc i v).ppsNs = s.ppsNs := by rfl
@[simp] theorem State.setTallySrc_ppsHigh (s : State) (i : Nat) (v : TSrc) : (s.setTallySrc i v).ppsHigh = s.ppsHigh := by rfl
@[simp] theorem State.setTallySrc_relock (s : State) (i : Nat) (v : TSrc) : (s.setTallySrc i v).relock = s.relock := by rfl
@[simp] theorem State.setTallySrc_gens (s : State) (i : Nat) (v : TSrc) : (s.setTallySrc i v).gens = s.gens := by rfl
@[simp] theorem State.setTallySrc_freeCtr (s : State) (i : Nat) (v : TSrc) : (s.setTallySrc i v).freeCtr = s.freeCtr := by rfl
@[simp] theorem State.setTallySrc_held (s : State) (i : Nat) (v : TSrc) : (s.setTallySrc i v).held = s.held := by rfl
@[simp] theorem State.setTallySrc_heldWait (s : State) (i : Nat) (v : TSrc) : (s.setTallySrc i v).heldWait = s.heldWait := by rfl
@[simp] theorem State.setTallySrc_twin (s : State) (i : Nat) (v : TSrc) : (s.setTallySrc i v).twin = s.twin := by rfl
@[simp] theorem State.setTallySrc_gath (s : State) (i : Nat) (v : TSrc) : (s.setTallySrc i v).gath = s.gath := by rfl
@[simp] theorem State.setTallySrc_claimed (s : State) (i : Nat) (v : TSrc) : (s.setTallySrc i v).claimed = s.claimed := by rfl
@[simp] theorem State.setTallySrc_tgtDef (s : State) (i : Nat) (v : TSrc) : (s.setTallySrc i v).tgtDef = s.tgtDef := by rfl
@[simp] theorem State.setTallySrc_holdOff (s : State) (i : Nat) (v : TSrc) : (s.setTallySrc i v).holdOff = s.holdOff := by rfl
@[simp] theorem State.setTallySrc_pins (s : State) (i : Nat) (v : TSrc) : (s.setTallySrc i v).pins = s.pins := by rfl
@[simp] theorem State.setTallySrc_looked (s : State) (i : Nat) (v : TSrc) : (s.setTallySrc i v).looked = s.looked := by rfl
@[simp] theorem State.setTallySrc_preempt (s : State) (i : Nat) (v : TSrc) : (s.setTallySrc i v).preempt = s.preempt := by rfl
@[simp] theorem State.setTallySrc_rings (s : State) (i : Nat) (v : TSrc) : (s.setTallySrc i v).rings = s.rings := by rfl
@[simp] theorem State.setTallySrc_fetched (s : State) (i : Nat) (v : TSrc) : (s.setTallySrc i v).fetched = s.fetched := by rfl
@[simp] theorem State.setTallySrc_lifted (s : State) (i : Nat) (v : TSrc) : (s.setTallySrc i v).lifted = s.lifted := by rfl
@[simp] theorem State.setTallySrc_owed (s : State) (i : Nat) (v : TSrc) : (s.setTallySrc i v).owed = s.owed := by rfl
@[simp] theorem State.setTallySrc_turn (s : State) (i : Nat) (v : TSrc) : (s.setTallySrc i v).turn = s.turn := by rfl
@[simp] theorem State.setTallySrc_outbox (s : State) (i : Nat) (v : TSrc) : (s.setTallySrc i v).outbox = s.outbox := by rfl
@[simp] theorem State.setTallySrc_streams (s : State) (i : Nat) (v : TSrc) : (s.setTallySrc i v).streams = s.streams := by rfl
@[simp] theorem State.setTallySrc_feeds (s : State) (i : Nat) (v : TSrc) : (s.setTallySrc i v).feeds = s.feeds := by rfl
@[simp] theorem State.setTallySrc_crews (s : State) (i : Nat) (v : TSrc) : (s.setTallySrc i v).crews = s.crews := by rfl
@[simp] theorem State.setTallySrc_runs (s : State) (i : Nat) (v : TSrc) : (s.setTallySrc i v).runs = s.runs := by rfl
@[simp] theorem State.setTallySrc_ended (s : State) (i : Nat) (v : TSrc) : (s.setTallySrc i v).ended = s.ended := by rfl
@[simp] theorem State.setTallySrc_seqs (s : State) (i : Nat) (v : TSrc) : (s.setTallySrc i v).seqs = s.seqs := by rfl
@[simp] theorem State.setTallySrc_therm (s : State) (i : Nat) (v : TSrc) : (s.setTallySrc i v).therm = s.therm := by rfl
@[simp] theorem State.setTallySrc_progs (s : State) (i : Nat) (v : TSrc) : (s.setTallySrc i v).progs = s.progs := by rfl
@[simp] theorem State.setTallySrc_scache (s : State) (i : Nat) (v : TSrc) : (s.setTallySrc i v).scache = s.scache := by rfl
@[simp] theorem State.setTallySrc_slotPic (s : State) (i : Nat) (v : TSrc) : (s.setTallySrc i v).slotPic = s.slotPic := by rfl
@[simp] theorem State.setTallySrc_slotSz (s : State) (i : Nat) (v : TSrc) : (s.setTallySrc i v).slotSz = s.slotSz := by rfl
@[simp] theorem State.setTallySrc_slotNref (s : State) (i : Nat) (v : TSrc) : (s.setTallySrc i v).slotNref = s.slotNref := by rfl
@[simp] theorem State.setTallySrc_slotC (s : State) (i : Nat) (v : TSrc) : (s.setTallySrc i v).slotC = s.slotC := by rfl
@[simp] theorem State.setTallySrc_retPend (s : State) (i : Nat) (v : TSrc) : (s.setTallySrc i v).retPend = s.retPend := by rfl
@[simp] theorem State.setTallySrc_egr (s : State) (i : Nat) (v : TSrc) : (s.setTallySrc i v).egr = s.egr := by rfl
@[simp] theorem State.setTallySrc_txFree (s : State) (i : Nat) (v : TSrc) : (s.setTallySrc i v).txFree = s.txFree := by rfl
@[simp] theorem State.setTallySrc_frameNo (s : State) (i : Nat) (v : TSrc) : (s.setTallySrc i v).frameNo = s.frameNo := by rfl
@[simp] theorem State.setTallySrc_rtpSeq (s : State) (i : Nat) (v : TSrc) : (s.setTallySrc i v).rtpSeq = s.rtpSeq := by rfl
@[simp] theorem State.setTallySrc_subs (s : State) (i : Nat) (v : TSrc) : (s.setTallySrc i v).subs = s.subs := by rfl
@[simp] theorem State.setTallySrc_shapers (s : State) (i : Nat) (v : TSrc) : (s.setTallySrc i v).shapers = s.shapers := by rfl
@[simp] theorem State.setTallySrc_gates (s : State) (i : Nat) (v : TSrc) : (s.setTallySrc i v).gates = s.gates := by rfl
@[simp] theorem State.setTallySrc_ptpRx (s : State) (i : Nat) (v : TSrc) : (s.setTallySrc i v).ptpRx = s.ptpRx := by rfl
@[simp] theorem State.setTallySrc_tsb (s : State) (i : Nat) (v : TSrc) : (s.setTallySrc i v).tsb = s.tsb := by rfl
@[simp] theorem State.setTallySrc_ptpServo (s : State) (i : Nat) (v : TSrc) : (s.setTallySrc i v).ptpServo = s.ptpServo := by rfl
@[simp] theorem State.setTallySrc_mem (s : State) (i : Nat) (v : TSrc) : (s.setTallySrc i v).mem = s.mem := by rfl
@[simp] theorem State.setTallySrc_injRecs (s : State) (i : Nat) (v : TSrc) : (s.setTallySrc i v).injRecs = s.injRecs := by rfl
@[simp] theorem State.setTallySrc_filled (s : State) (i : Nat) (v : TSrc) : (s.setTallySrc i v).filled = s.filled := by rfl
@[simp] theorem State.setTallySrc_images (s : State) (i : Nat) (v : TSrc) : (s.setTallySrc i v).images = s.images := by rfl
@[simp] theorem State.setTallySrc_chkLeft (s : State) (i : Nat) (v : TSrc) : (s.setTallySrc i v).chkLeft = s.chkLeft := by rfl
@[simp] theorem State.setTallySrc_badRows (s : State) (i : Nat) (v : TSrc) : (s.setTallySrc i v).badRows = s.badRows := by rfl
@[simp] theorem State.setTallySrc_lost (s : State) (i : Nat) (v : TSrc) : (s.setTallySrc i v).lost = s.lost := by rfl
@[simp] theorem State.setTallySrc_celCe (s : State) (i : Nat) (v : TSrc) : (s.setTallySrc i v).celCe = s.celCe := by rfl
@[simp] theorem State.setTallySrc_celDly (s : State) (i : Nat) (v : TSrc) : (s.setTallySrc i v).celDly = s.celDly := by rfl
@[simp] theorem State.setTallySrc_celVref (s : State) (i : Nat) (v : TSrc) : (s.setTallySrc i v).celVref = s.celVref := by rfl
@[simp] theorem State.setTallySrc_pcs (s : State) (i : Nat) (v : TSrc) : (s.setTallySrc i v).pcs = s.pcs := by rfl
@[simp] theorem State.setTallySrc_stackTab (s : State) (i : Nat) (v : TSrc) : (s.setTallySrc i v).stackTab = s.stackTab := by rfl
@[simp] theorem State.setTallySrc_ldrCol (s : State) (i : Nat) (v : TSrc) : (s.setTallySrc i v).ldrCol = s.ldrCol := by rfl
@[simp] theorem State.setTallySrc_training (s : State) (i : Nat) (v : TSrc) : (s.setTallySrc i v).training = s.training := by rfl
@[simp] theorem State.setTallySrc_adapting (s : State) (i : Nat) (v : TSrc) : (s.setTallySrc i v).adapting = s.adapting := by rfl
@[simp] theorem State.setTallySrc_laneSet (s : State) (i : Nat) (v : TSrc) : (s.setTallySrc i v).laneSet = s.laneSet := by rfl
@[simp] theorem State.setTallySrc_blFrom (s : State) (i : Nat) (v : TSrc) : (s.setTallySrc i v).blFrom = s.blFrom := by rfl
@[simp] theorem State.setTallySrc_qps (s : State) (i : Nat) (v : TSrc) : (s.setTallySrc i v).qps = s.qps := by rfl
@[simp] theorem State.setTallySrc_hchs (s : State) (i : Nat) (v : TSrc) : (s.setTallySrc i v).hchs = s.hchs := by rfl
@[simp] theorem State.setTallySrc_hgrant (s : State) (i : Nat) (v : TSrc) : (s.setTallySrc i v).hgrant = s.hgrant := by rfl
@[simp] theorem State.setTallySrc_ptpPos (s : State) (i : Nat) (v : TSrc) : (s.setTallySrc i v).ptpPos = s.ptpPos := by rfl
@[simp] theorem State.setTallySrc_cps (s : State) (i : Nat) (v : TSrc) : (s.setTallySrc i v).cps = s.cps := by rfl
@[simp] theorem State.setTallySrc_push (s : State) (i : Nat) (v : TSrc) : (s.setTallySrc i v).push = s.push := by rfl
@[simp] theorem State.setTallySrc_bank0 (s : State) (i : Nat) (v : TSrc) : (s.setTallySrc i v).bank0 = s.bank0 := by rfl
@[simp] theorem State.setTallySrc_bank1 (s : State) (i : Nat) (v : TSrc) : (s.setTallySrc i v).bank1 = s.bank1 := by rfl
@[simp] theorem State.setTallySrc_sleep (s : State) (i : Nat) (v : TSrc) : (s.setTallySrc i v).sleep = s.sleep := by rfl
@[simp] theorem State.setTallySrc_swap (s : State) (i : Nat) (v : TSrc) : (s.setTallySrc i v).swap = s.swap := by rfl
@[simp] theorem State.setTallySrc_resetReq (s : State) (i : Nat) (v : TSrc) : (s.setTallySrc i v).resetReq = s.resetReq := by rfl
@[simp] theorem State.setTallySrc_wakeN (s : State) (i : Nat) (v : TSrc) : (s.setTallySrc i v).wakeN = s.wakeN := by rfl
@[simp] theorem State.setTallySrc_rails (s : State) (i : Nat) (v : TSrc) : (s.setTallySrc i v).rails = s.rails := by rfl
@[simp] theorem State.setTallySrc_railF (s : State) (i : Nat) (v : TSrc) : (s.setTallySrc i v).railF = s.railF := by rfl
@[simp] theorem State.setTallySrc_avsAgain (s : State) (i : Nat) (v : TSrc) : (s.setTallySrc i v).avsAgain = s.avsAgain := by rfl
@[simp] theorem State.setTallySrc_voutExp (s : State) (i : Nat) (v : TSrc) : (s.setTallySrc i v).voutExp = s.voutExp := by rfl
@[simp] theorem State.setTallySrc_straps (s : State) (i : Nat) (v : TSrc) : (s.setTallySrc i v).straps = s.straps := by rfl
@[simp] theorem State.setTallySrc_strm (s : State) (i : Nat) (v : TSrc) (k : Nat) : (s.setTallySrc i v).strm k = s.strm k := by rfl
@[simp] theorem State.setTallySrc_gen (s : State) (i : Nat) (v : TSrc) (k : Nat) : (s.setTallySrc i v).gen k = s.gen k := by rfl
@[simp] theorem State.setTallySrc_feed (s : State) (i : Nat) (v : TSrc) (k : Nat) : (s.setTallySrc i v).feed k = s.feed k := by rfl
@[simp] theorem State.setTallySrc_crew (s : State) (i : Nat) (v : TSrc) (k : Nat) : (s.setTallySrc i v).crew k = s.crew k := by rfl
@[simp] theorem State.setTallySrc_run (s : State) (i : Nat) (v : TSrc) (k : Nat) : (s.setTallySrc i v).run k = s.run k := by rfl
@[simp] theorem State.setTallySrc_ring (s : State) (i : Nat) (v : TSrc) (k : Nat) : (s.setTallySrc i v).ring k = s.ring k := by rfl
@[simp] theorem State.setTallySrc_cp (s : State) (i : Nat) (v : TSrc) (k : Nat) : (s.setTallySrc i v).cp k = s.cp k := by rfl
@[simp] theorem State.setTallySrc_slotPicOf (s : State) (i : Nat) (v : TSrc) (k : Nat) : (s.setTallySrc i v).slotPicOf k = s.slotPicOf k := by rfl
@[simp] theorem State.setTallySrc_window (s : State) (i : Nat) (v : TSrc) (k : Nat) : (s.setTallySrc i v).window k = s.window k := by rfl
@[simp] theorem State.setTallySrc_frames (s : State) (i : Nat) (v : TSrc) (k : Nat) : (s.setTallySrc i v).frames k = s.frames k := by rfl
@[simp] theorem State.setTallySrc_sub (s : State) (i : Nat) (v : TSrc) (k : Nat) : (s.setTallySrc i v).sub k = s.sub k := by rfl
@[simp] theorem State.setTallySrc_stack (s : State) (i : Nat) (v : TSrc) (k : Nat) : (s.setTallySrc i v).stack k = s.stack k := by rfl
@[simp] theorem State.setTallySrc_seq (s : State) (i : Nat) (v : TSrc) (k : Nat) : (s.setTallySrc i v).seq k = s.seq k := by rfl
@[simp] theorem State.setTallySrc_hch (s : State) (i : Nat) (v : TSrc) (k : Nat) : (s.setTallySrc i v).hch k = s.hch k := by rfl
@[simp] theorem State.setTallySrc_qp (s : State) (i : Nat) (v : TSrc) (k : Nat) : (s.setTallySrc i v).qp k = s.qp k := by rfl
@[simp] theorem State.setTallySrc_get (s : State) (i : Nat) (v : TSrc) (k : RF) : (s.setTallySrc i v).get k = s.get k := by rfl
@[simp] theorem State.setTallySrc_flag (s : State) (i : Nat) (v : TSrc) (k : RF) : (s.setTallySrc i v).flag k = s.flag k := by rfl
@[simp] theorem State.setTallySrc_reg (s : State) (i : Nat) (v : TSrc) (k : Nat) : (s.setTallySrc i v).reg k = s.reg k := by rfl

/-! ### setCp -/

@[simp] theorem State.setCp_pending (s : State) (p : Nat) (v : CpS) : (s.setCp p v).pending = s.pending := by rfl
@[simp] theorem State.setCp_regs (s : State) (p : Nat) (v : CpS) : (s.setCp p v).regs = s.regs := by rfl
@[simp] theorem State.setCp_part (s : State) (p : Nat) (v : CpS) : (s.setCp p v).part = s.part := by rfl
@[simp] theorem State.setCp_rst (s : State) (p : Nat) (v : CpS) : (s.setCp p v).rst = s.rst := by rfl
@[simp] theorem State.setCp_now (s : State) (p : Nat) (v : CpS) : (s.setCp p v).now = s.now := by rfl
@[simp] theorem State.setCp_prev (s : State) (p : Nat) (v : CpS) : (s.setCp p v).prev = s.prev := by rfl
@[simp] theorem State.setCp_cyc (s : State) (p : Nat) (v : CpS) : (s.setCp p v).cyc = s.cyc := by rfl
@[simp] theorem State.setCp_fired (s : State) (p : Nat) (v : CpS) : (s.setCp p v).fired = s.fired := by rfl
@[simp] theorem State.setCp_hot (s : State) (p : Nat) (v : CpS) : (s.setCp p v).hot = s.hot := by rfl
@[simp] theorem State.setCp_freed (s : State) (p : Nat) (v : CpS) : (s.setCp p v).freed = s.freed := by rfl
@[simp] theorem State.setCp_waitDue (s : State) (p : Nat) (v : CpS) : (s.setCp p v).waitDue = s.waitDue := by rfl
@[simp] theorem State.setCp_turns (s : State) (p : Nat) (v : CpS) : (s.setCp p v).turns = s.turns := by rfl
@[simp] theorem State.setCp_rate (s : State) (p : Nat) (v : CpS) : (s.setCp p v).rate = s.rate := by rfl
@[simp] theorem State.setCp_ppsNs (s : State) (p : Nat) (v : CpS) : (s.setCp p v).ppsNs = s.ppsNs := by rfl
@[simp] theorem State.setCp_ppsHigh (s : State) (p : Nat) (v : CpS) : (s.setCp p v).ppsHigh = s.ppsHigh := by rfl
@[simp] theorem State.setCp_relock (s : State) (p : Nat) (v : CpS) : (s.setCp p v).relock = s.relock := by rfl
@[simp] theorem State.setCp_gens (s : State) (p : Nat) (v : CpS) : (s.setCp p v).gens = s.gens := by rfl
@[simp] theorem State.setCp_freeCtr (s : State) (p : Nat) (v : CpS) : (s.setCp p v).freeCtr = s.freeCtr := by rfl
@[simp] theorem State.setCp_held (s : State) (p : Nat) (v : CpS) : (s.setCp p v).held = s.held := by rfl
@[simp] theorem State.setCp_heldWait (s : State) (p : Nat) (v : CpS) : (s.setCp p v).heldWait = s.heldWait := by rfl
@[simp] theorem State.setCp_tsrc (s : State) (p : Nat) (v : CpS) : (s.setCp p v).tsrc = s.tsrc := by rfl
@[simp] theorem State.setCp_twin (s : State) (p : Nat) (v : CpS) : (s.setCp p v).twin = s.twin := by rfl
@[simp] theorem State.setCp_gath (s : State) (p : Nat) (v : CpS) : (s.setCp p v).gath = s.gath := by rfl
@[simp] theorem State.setCp_claimed (s : State) (p : Nat) (v : CpS) : (s.setCp p v).claimed = s.claimed := by rfl
@[simp] theorem State.setCp_tgtDef (s : State) (p : Nat) (v : CpS) : (s.setCp p v).tgtDef = s.tgtDef := by rfl
@[simp] theorem State.setCp_holdOff (s : State) (p : Nat) (v : CpS) : (s.setCp p v).holdOff = s.holdOff := by rfl
@[simp] theorem State.setCp_pins (s : State) (p : Nat) (v : CpS) : (s.setCp p v).pins = s.pins := by rfl
@[simp] theorem State.setCp_looked (s : State) (p : Nat) (v : CpS) : (s.setCp p v).looked = s.looked := by rfl
@[simp] theorem State.setCp_preempt (s : State) (p : Nat) (v : CpS) : (s.setCp p v).preempt = s.preempt := by rfl
@[simp] theorem State.setCp_rings (s : State) (p : Nat) (v : CpS) : (s.setCp p v).rings = s.rings := by rfl
@[simp] theorem State.setCp_fetched (s : State) (p : Nat) (v : CpS) : (s.setCp p v).fetched = s.fetched := by rfl
@[simp] theorem State.setCp_lifted (s : State) (p : Nat) (v : CpS) : (s.setCp p v).lifted = s.lifted := by rfl
@[simp] theorem State.setCp_owed (s : State) (p : Nat) (v : CpS) : (s.setCp p v).owed = s.owed := by rfl
@[simp] theorem State.setCp_turn (s : State) (p : Nat) (v : CpS) : (s.setCp p v).turn = s.turn := by rfl
@[simp] theorem State.setCp_outbox (s : State) (p : Nat) (v : CpS) : (s.setCp p v).outbox = s.outbox := by rfl
@[simp] theorem State.setCp_streams (s : State) (p : Nat) (v : CpS) : (s.setCp p v).streams = s.streams := by rfl
@[simp] theorem State.setCp_feeds (s : State) (p : Nat) (v : CpS) : (s.setCp p v).feeds = s.feeds := by rfl
@[simp] theorem State.setCp_crews (s : State) (p : Nat) (v : CpS) : (s.setCp p v).crews = s.crews := by rfl
@[simp] theorem State.setCp_runs (s : State) (p : Nat) (v : CpS) : (s.setCp p v).runs = s.runs := by rfl
@[simp] theorem State.setCp_ended (s : State) (p : Nat) (v : CpS) : (s.setCp p v).ended = s.ended := by rfl
@[simp] theorem State.setCp_seqs (s : State) (p : Nat) (v : CpS) : (s.setCp p v).seqs = s.seqs := by rfl
@[simp] theorem State.setCp_therm (s : State) (p : Nat) (v : CpS) : (s.setCp p v).therm = s.therm := by rfl
@[simp] theorem State.setCp_progs (s : State) (p : Nat) (v : CpS) : (s.setCp p v).progs = s.progs := by rfl
@[simp] theorem State.setCp_scache (s : State) (p : Nat) (v : CpS) : (s.setCp p v).scache = s.scache := by rfl
@[simp] theorem State.setCp_slotPic (s : State) (p : Nat) (v : CpS) : (s.setCp p v).slotPic = s.slotPic := by rfl
@[simp] theorem State.setCp_slotSz (s : State) (p : Nat) (v : CpS) : (s.setCp p v).slotSz = s.slotSz := by rfl
@[simp] theorem State.setCp_slotNref (s : State) (p : Nat) (v : CpS) : (s.setCp p v).slotNref = s.slotNref := by rfl
@[simp] theorem State.setCp_slotC (s : State) (p : Nat) (v : CpS) : (s.setCp p v).slotC = s.slotC := by rfl
@[simp] theorem State.setCp_retPend (s : State) (p : Nat) (v : CpS) : (s.setCp p v).retPend = s.retPend := by rfl
@[simp] theorem State.setCp_egr (s : State) (p : Nat) (v : CpS) : (s.setCp p v).egr = s.egr := by rfl
@[simp] theorem State.setCp_txFree (s : State) (p : Nat) (v : CpS) : (s.setCp p v).txFree = s.txFree := by rfl
@[simp] theorem State.setCp_frameNo (s : State) (p : Nat) (v : CpS) : (s.setCp p v).frameNo = s.frameNo := by rfl
@[simp] theorem State.setCp_rtpSeq (s : State) (p : Nat) (v : CpS) : (s.setCp p v).rtpSeq = s.rtpSeq := by rfl
@[simp] theorem State.setCp_subs (s : State) (p : Nat) (v : CpS) : (s.setCp p v).subs = s.subs := by rfl
@[simp] theorem State.setCp_shapers (s : State) (p : Nat) (v : CpS) : (s.setCp p v).shapers = s.shapers := by rfl
@[simp] theorem State.setCp_gates (s : State) (p : Nat) (v : CpS) : (s.setCp p v).gates = s.gates := by rfl
@[simp] theorem State.setCp_ptpRx (s : State) (p : Nat) (v : CpS) : (s.setCp p v).ptpRx = s.ptpRx := by rfl
@[simp] theorem State.setCp_tsb (s : State) (p : Nat) (v : CpS) : (s.setCp p v).tsb = s.tsb := by rfl
@[simp] theorem State.setCp_ptpServo (s : State) (p : Nat) (v : CpS) : (s.setCp p v).ptpServo = s.ptpServo := by rfl
@[simp] theorem State.setCp_mem (s : State) (p : Nat) (v : CpS) : (s.setCp p v).mem = s.mem := by rfl
@[simp] theorem State.setCp_injRecs (s : State) (p : Nat) (v : CpS) : (s.setCp p v).injRecs = s.injRecs := by rfl
@[simp] theorem State.setCp_filled (s : State) (p : Nat) (v : CpS) : (s.setCp p v).filled = s.filled := by rfl
@[simp] theorem State.setCp_images (s : State) (p : Nat) (v : CpS) : (s.setCp p v).images = s.images := by rfl
@[simp] theorem State.setCp_chkLeft (s : State) (p : Nat) (v : CpS) : (s.setCp p v).chkLeft = s.chkLeft := by rfl
@[simp] theorem State.setCp_badRows (s : State) (p : Nat) (v : CpS) : (s.setCp p v).badRows = s.badRows := by rfl
@[simp] theorem State.setCp_lost (s : State) (p : Nat) (v : CpS) : (s.setCp p v).lost = s.lost := by rfl
@[simp] theorem State.setCp_celCe (s : State) (p : Nat) (v : CpS) : (s.setCp p v).celCe = s.celCe := by rfl
@[simp] theorem State.setCp_celDly (s : State) (p : Nat) (v : CpS) : (s.setCp p v).celDly = s.celDly := by rfl
@[simp] theorem State.setCp_celVref (s : State) (p : Nat) (v : CpS) : (s.setCp p v).celVref = s.celVref := by rfl
@[simp] theorem State.setCp_pcs (s : State) (p : Nat) (v : CpS) : (s.setCp p v).pcs = s.pcs := by rfl
@[simp] theorem State.setCp_stackTab (s : State) (p : Nat) (v : CpS) : (s.setCp p v).stackTab = s.stackTab := by rfl
@[simp] theorem State.setCp_ldrCol (s : State) (p : Nat) (v : CpS) : (s.setCp p v).ldrCol = s.ldrCol := by rfl
@[simp] theorem State.setCp_training (s : State) (p : Nat) (v : CpS) : (s.setCp p v).training = s.training := by rfl
@[simp] theorem State.setCp_adapting (s : State) (p : Nat) (v : CpS) : (s.setCp p v).adapting = s.adapting := by rfl
@[simp] theorem State.setCp_laneSet (s : State) (p : Nat) (v : CpS) : (s.setCp p v).laneSet = s.laneSet := by rfl
@[simp] theorem State.setCp_blFrom (s : State) (p : Nat) (v : CpS) : (s.setCp p v).blFrom = s.blFrom := by rfl
@[simp] theorem State.setCp_qps (s : State) (p : Nat) (v : CpS) : (s.setCp p v).qps = s.qps := by rfl
@[simp] theorem State.setCp_hchs (s : State) (p : Nat) (v : CpS) : (s.setCp p v).hchs = s.hchs := by rfl
@[simp] theorem State.setCp_hgrant (s : State) (p : Nat) (v : CpS) : (s.setCp p v).hgrant = s.hgrant := by rfl
@[simp] theorem State.setCp_ptpPos (s : State) (p : Nat) (v : CpS) : (s.setCp p v).ptpPos = s.ptpPos := by rfl
@[simp] theorem State.setCp_push (s : State) (p : Nat) (v : CpS) : (s.setCp p v).push = s.push := by rfl
@[simp] theorem State.setCp_bank0 (s : State) (p : Nat) (v : CpS) : (s.setCp p v).bank0 = s.bank0 := by rfl
@[simp] theorem State.setCp_bank1 (s : State) (p : Nat) (v : CpS) : (s.setCp p v).bank1 = s.bank1 := by rfl
@[simp] theorem State.setCp_sleep (s : State) (p : Nat) (v : CpS) : (s.setCp p v).sleep = s.sleep := by rfl
@[simp] theorem State.setCp_swap (s : State) (p : Nat) (v : CpS) : (s.setCp p v).swap = s.swap := by rfl
@[simp] theorem State.setCp_resetReq (s : State) (p : Nat) (v : CpS) : (s.setCp p v).resetReq = s.resetReq := by rfl
@[simp] theorem State.setCp_wakeN (s : State) (p : Nat) (v : CpS) : (s.setCp p v).wakeN = s.wakeN := by rfl
@[simp] theorem State.setCp_rails (s : State) (p : Nat) (v : CpS) : (s.setCp p v).rails = s.rails := by rfl
@[simp] theorem State.setCp_railF (s : State) (p : Nat) (v : CpS) : (s.setCp p v).railF = s.railF := by rfl
@[simp] theorem State.setCp_avsAgain (s : State) (p : Nat) (v : CpS) : (s.setCp p v).avsAgain = s.avsAgain := by rfl
@[simp] theorem State.setCp_voutExp (s : State) (p : Nat) (v : CpS) : (s.setCp p v).voutExp = s.voutExp := by rfl
@[simp] theorem State.setCp_straps (s : State) (p : Nat) (v : CpS) : (s.setCp p v).straps = s.straps := by rfl
@[simp] theorem State.setCp_strm (s : State) (p : Nat) (v : CpS) (k : Nat) : (s.setCp p v).strm k = s.strm k := by rfl
@[simp] theorem State.setCp_gen (s : State) (p : Nat) (v : CpS) (k : Nat) : (s.setCp p v).gen k = s.gen k := by rfl
@[simp] theorem State.setCp_feed (s : State) (p : Nat) (v : CpS) (k : Nat) : (s.setCp p v).feed k = s.feed k := by rfl
@[simp] theorem State.setCp_crew (s : State) (p : Nat) (v : CpS) (k : Nat) : (s.setCp p v).crew k = s.crew k := by rfl
@[simp] theorem State.setCp_run (s : State) (p : Nat) (v : CpS) (k : Nat) : (s.setCp p v).run k = s.run k := by rfl
@[simp] theorem State.setCp_ring (s : State) (p : Nat) (v : CpS) (k : Nat) : (s.setCp p v).ring k = s.ring k := by rfl
@[simp] theorem State.setCp_tallySrc (s : State) (p : Nat) (v : CpS) (k : Nat) : (s.setCp p v).tallySrc k = s.tallySrc k := by rfl
@[simp] theorem State.setCp_slotPicOf (s : State) (p : Nat) (v : CpS) (k : Nat) : (s.setCp p v).slotPicOf k = s.slotPicOf k := by rfl
@[simp] theorem State.setCp_window (s : State) (p : Nat) (v : CpS) (k : Nat) : (s.setCp p v).window k = s.window k := by rfl
@[simp] theorem State.setCp_frames (s : State) (p : Nat) (v : CpS) (k : Nat) : (s.setCp p v).frames k = s.frames k := by rfl
@[simp] theorem State.setCp_sub (s : State) (p : Nat) (v : CpS) (k : Nat) : (s.setCp p v).sub k = s.sub k := by rfl
@[simp] theorem State.setCp_stack (s : State) (p : Nat) (v : CpS) (k : Nat) : (s.setCp p v).stack k = s.stack k := by rfl
@[simp] theorem State.setCp_seq (s : State) (p : Nat) (v : CpS) (k : Nat) : (s.setCp p v).seq k = s.seq k := by rfl
@[simp] theorem State.setCp_hch (s : State) (p : Nat) (v : CpS) (k : Nat) : (s.setCp p v).hch k = s.hch k := by rfl
@[simp] theorem State.setCp_qp (s : State) (p : Nat) (v : CpS) (k : Nat) : (s.setCp p v).qp k = s.qp k := by rfl
@[simp] theorem State.setCp_get (s : State) (p : Nat) (v : CpS) (k : RF) : (s.setCp p v).get k = s.get k := by rfl
@[simp] theorem State.setCp_flag (s : State) (p : Nat) (v : CpS) (k : RF) : (s.setCp p v).flag k = s.flag k := by rfl
@[simp] theorem State.setCp_reg (s : State) (p : Nat) (v : CpS) (k : Nat) : (s.setCp p v).reg k = s.reg k := by rfl

/-! ### setSlotPic -/

@[simp] theorem State.setSlotPic_pending (s : State) (i : Nat) (v : Option Nat) : (s.setSlotPic i v).pending = s.pending := by rfl
@[simp] theorem State.setSlotPic_regs (s : State) (i : Nat) (v : Option Nat) : (s.setSlotPic i v).regs = s.regs := by rfl
@[simp] theorem State.setSlotPic_part (s : State) (i : Nat) (v : Option Nat) : (s.setSlotPic i v).part = s.part := by rfl
@[simp] theorem State.setSlotPic_rst (s : State) (i : Nat) (v : Option Nat) : (s.setSlotPic i v).rst = s.rst := by rfl
@[simp] theorem State.setSlotPic_now (s : State) (i : Nat) (v : Option Nat) : (s.setSlotPic i v).now = s.now := by rfl
@[simp] theorem State.setSlotPic_prev (s : State) (i : Nat) (v : Option Nat) : (s.setSlotPic i v).prev = s.prev := by rfl
@[simp] theorem State.setSlotPic_cyc (s : State) (i : Nat) (v : Option Nat) : (s.setSlotPic i v).cyc = s.cyc := by rfl
@[simp] theorem State.setSlotPic_fired (s : State) (i : Nat) (v : Option Nat) : (s.setSlotPic i v).fired = s.fired := by rfl
@[simp] theorem State.setSlotPic_hot (s : State) (i : Nat) (v : Option Nat) : (s.setSlotPic i v).hot = s.hot := by rfl
@[simp] theorem State.setSlotPic_freed (s : State) (i : Nat) (v : Option Nat) : (s.setSlotPic i v).freed = s.freed := by rfl
@[simp] theorem State.setSlotPic_waitDue (s : State) (i : Nat) (v : Option Nat) : (s.setSlotPic i v).waitDue = s.waitDue := by rfl
@[simp] theorem State.setSlotPic_turns (s : State) (i : Nat) (v : Option Nat) : (s.setSlotPic i v).turns = s.turns := by rfl
@[simp] theorem State.setSlotPic_rate (s : State) (i : Nat) (v : Option Nat) : (s.setSlotPic i v).rate = s.rate := by rfl
@[simp] theorem State.setSlotPic_ppsNs (s : State) (i : Nat) (v : Option Nat) : (s.setSlotPic i v).ppsNs = s.ppsNs := by rfl
@[simp] theorem State.setSlotPic_ppsHigh (s : State) (i : Nat) (v : Option Nat) : (s.setSlotPic i v).ppsHigh = s.ppsHigh := by rfl
@[simp] theorem State.setSlotPic_relock (s : State) (i : Nat) (v : Option Nat) : (s.setSlotPic i v).relock = s.relock := by rfl
@[simp] theorem State.setSlotPic_gens (s : State) (i : Nat) (v : Option Nat) : (s.setSlotPic i v).gens = s.gens := by rfl
@[simp] theorem State.setSlotPic_freeCtr (s : State) (i : Nat) (v : Option Nat) : (s.setSlotPic i v).freeCtr = s.freeCtr := by rfl
@[simp] theorem State.setSlotPic_held (s : State) (i : Nat) (v : Option Nat) : (s.setSlotPic i v).held = s.held := by rfl
@[simp] theorem State.setSlotPic_heldWait (s : State) (i : Nat) (v : Option Nat) : (s.setSlotPic i v).heldWait = s.heldWait := by rfl
@[simp] theorem State.setSlotPic_tsrc (s : State) (i : Nat) (v : Option Nat) : (s.setSlotPic i v).tsrc = s.tsrc := by rfl
@[simp] theorem State.setSlotPic_twin (s : State) (i : Nat) (v : Option Nat) : (s.setSlotPic i v).twin = s.twin := by rfl
@[simp] theorem State.setSlotPic_gath (s : State) (i : Nat) (v : Option Nat) : (s.setSlotPic i v).gath = s.gath := by rfl
@[simp] theorem State.setSlotPic_claimed (s : State) (i : Nat) (v : Option Nat) : (s.setSlotPic i v).claimed = s.claimed := by rfl
@[simp] theorem State.setSlotPic_tgtDef (s : State) (i : Nat) (v : Option Nat) : (s.setSlotPic i v).tgtDef = s.tgtDef := by rfl
@[simp] theorem State.setSlotPic_holdOff (s : State) (i : Nat) (v : Option Nat) : (s.setSlotPic i v).holdOff = s.holdOff := by rfl
@[simp] theorem State.setSlotPic_pins (s : State) (i : Nat) (v : Option Nat) : (s.setSlotPic i v).pins = s.pins := by rfl
@[simp] theorem State.setSlotPic_looked (s : State) (i : Nat) (v : Option Nat) : (s.setSlotPic i v).looked = s.looked := by rfl
@[simp] theorem State.setSlotPic_preempt (s : State) (i : Nat) (v : Option Nat) : (s.setSlotPic i v).preempt = s.preempt := by rfl
@[simp] theorem State.setSlotPic_rings (s : State) (i : Nat) (v : Option Nat) : (s.setSlotPic i v).rings = s.rings := by rfl
@[simp] theorem State.setSlotPic_fetched (s : State) (i : Nat) (v : Option Nat) : (s.setSlotPic i v).fetched = s.fetched := by rfl
@[simp] theorem State.setSlotPic_lifted (s : State) (i : Nat) (v : Option Nat) : (s.setSlotPic i v).lifted = s.lifted := by rfl
@[simp] theorem State.setSlotPic_owed (s : State) (i : Nat) (v : Option Nat) : (s.setSlotPic i v).owed = s.owed := by rfl
@[simp] theorem State.setSlotPic_turn (s : State) (i : Nat) (v : Option Nat) : (s.setSlotPic i v).turn = s.turn := by rfl
@[simp] theorem State.setSlotPic_outbox (s : State) (i : Nat) (v : Option Nat) : (s.setSlotPic i v).outbox = s.outbox := by rfl
@[simp] theorem State.setSlotPic_streams (s : State) (i : Nat) (v : Option Nat) : (s.setSlotPic i v).streams = s.streams := by rfl
@[simp] theorem State.setSlotPic_feeds (s : State) (i : Nat) (v : Option Nat) : (s.setSlotPic i v).feeds = s.feeds := by rfl
@[simp] theorem State.setSlotPic_crews (s : State) (i : Nat) (v : Option Nat) : (s.setSlotPic i v).crews = s.crews := by rfl
@[simp] theorem State.setSlotPic_runs (s : State) (i : Nat) (v : Option Nat) : (s.setSlotPic i v).runs = s.runs := by rfl
@[simp] theorem State.setSlotPic_ended (s : State) (i : Nat) (v : Option Nat) : (s.setSlotPic i v).ended = s.ended := by rfl
@[simp] theorem State.setSlotPic_seqs (s : State) (i : Nat) (v : Option Nat) : (s.setSlotPic i v).seqs = s.seqs := by rfl
@[simp] theorem State.setSlotPic_therm (s : State) (i : Nat) (v : Option Nat) : (s.setSlotPic i v).therm = s.therm := by rfl
@[simp] theorem State.setSlotPic_progs (s : State) (i : Nat) (v : Option Nat) : (s.setSlotPic i v).progs = s.progs := by rfl
@[simp] theorem State.setSlotPic_scache (s : State) (i : Nat) (v : Option Nat) : (s.setSlotPic i v).scache = s.scache := by rfl
@[simp] theorem State.setSlotPic_slotSz (s : State) (i : Nat) (v : Option Nat) : (s.setSlotPic i v).slotSz = s.slotSz := by rfl
@[simp] theorem State.setSlotPic_slotNref (s : State) (i : Nat) (v : Option Nat) : (s.setSlotPic i v).slotNref = s.slotNref := by rfl
@[simp] theorem State.setSlotPic_slotC (s : State) (i : Nat) (v : Option Nat) : (s.setSlotPic i v).slotC = s.slotC := by rfl
@[simp] theorem State.setSlotPic_retPend (s : State) (i : Nat) (v : Option Nat) : (s.setSlotPic i v).retPend = s.retPend := by rfl
@[simp] theorem State.setSlotPic_egr (s : State) (i : Nat) (v : Option Nat) : (s.setSlotPic i v).egr = s.egr := by rfl
@[simp] theorem State.setSlotPic_txFree (s : State) (i : Nat) (v : Option Nat) : (s.setSlotPic i v).txFree = s.txFree := by rfl
@[simp] theorem State.setSlotPic_frameNo (s : State) (i : Nat) (v : Option Nat) : (s.setSlotPic i v).frameNo = s.frameNo := by rfl
@[simp] theorem State.setSlotPic_rtpSeq (s : State) (i : Nat) (v : Option Nat) : (s.setSlotPic i v).rtpSeq = s.rtpSeq := by rfl
@[simp] theorem State.setSlotPic_subs (s : State) (i : Nat) (v : Option Nat) : (s.setSlotPic i v).subs = s.subs := by rfl
@[simp] theorem State.setSlotPic_shapers (s : State) (i : Nat) (v : Option Nat) : (s.setSlotPic i v).shapers = s.shapers := by rfl
@[simp] theorem State.setSlotPic_gates (s : State) (i : Nat) (v : Option Nat) : (s.setSlotPic i v).gates = s.gates := by rfl
@[simp] theorem State.setSlotPic_ptpRx (s : State) (i : Nat) (v : Option Nat) : (s.setSlotPic i v).ptpRx = s.ptpRx := by rfl
@[simp] theorem State.setSlotPic_tsb (s : State) (i : Nat) (v : Option Nat) : (s.setSlotPic i v).tsb = s.tsb := by rfl
@[simp] theorem State.setSlotPic_ptpServo (s : State) (i : Nat) (v : Option Nat) : (s.setSlotPic i v).ptpServo = s.ptpServo := by rfl
@[simp] theorem State.setSlotPic_mem (s : State) (i : Nat) (v : Option Nat) : (s.setSlotPic i v).mem = s.mem := by rfl
@[simp] theorem State.setSlotPic_injRecs (s : State) (i : Nat) (v : Option Nat) : (s.setSlotPic i v).injRecs = s.injRecs := by rfl
@[simp] theorem State.setSlotPic_filled (s : State) (i : Nat) (v : Option Nat) : (s.setSlotPic i v).filled = s.filled := by rfl
@[simp] theorem State.setSlotPic_images (s : State) (i : Nat) (v : Option Nat) : (s.setSlotPic i v).images = s.images := by rfl
@[simp] theorem State.setSlotPic_chkLeft (s : State) (i : Nat) (v : Option Nat) : (s.setSlotPic i v).chkLeft = s.chkLeft := by rfl
@[simp] theorem State.setSlotPic_badRows (s : State) (i : Nat) (v : Option Nat) : (s.setSlotPic i v).badRows = s.badRows := by rfl
@[simp] theorem State.setSlotPic_lost (s : State) (i : Nat) (v : Option Nat) : (s.setSlotPic i v).lost = s.lost := by rfl
@[simp] theorem State.setSlotPic_celCe (s : State) (i : Nat) (v : Option Nat) : (s.setSlotPic i v).celCe = s.celCe := by rfl
@[simp] theorem State.setSlotPic_celDly (s : State) (i : Nat) (v : Option Nat) : (s.setSlotPic i v).celDly = s.celDly := by rfl
@[simp] theorem State.setSlotPic_celVref (s : State) (i : Nat) (v : Option Nat) : (s.setSlotPic i v).celVref = s.celVref := by rfl
@[simp] theorem State.setSlotPic_pcs (s : State) (i : Nat) (v : Option Nat) : (s.setSlotPic i v).pcs = s.pcs := by rfl
@[simp] theorem State.setSlotPic_stackTab (s : State) (i : Nat) (v : Option Nat) : (s.setSlotPic i v).stackTab = s.stackTab := by rfl
@[simp] theorem State.setSlotPic_ldrCol (s : State) (i : Nat) (v : Option Nat) : (s.setSlotPic i v).ldrCol = s.ldrCol := by rfl
@[simp] theorem State.setSlotPic_training (s : State) (i : Nat) (v : Option Nat) : (s.setSlotPic i v).training = s.training := by rfl
@[simp] theorem State.setSlotPic_adapting (s : State) (i : Nat) (v : Option Nat) : (s.setSlotPic i v).adapting = s.adapting := by rfl
@[simp] theorem State.setSlotPic_laneSet (s : State) (i : Nat) (v : Option Nat) : (s.setSlotPic i v).laneSet = s.laneSet := by rfl
@[simp] theorem State.setSlotPic_blFrom (s : State) (i : Nat) (v : Option Nat) : (s.setSlotPic i v).blFrom = s.blFrom := by rfl
@[simp] theorem State.setSlotPic_qps (s : State) (i : Nat) (v : Option Nat) : (s.setSlotPic i v).qps = s.qps := by rfl
@[simp] theorem State.setSlotPic_hchs (s : State) (i : Nat) (v : Option Nat) : (s.setSlotPic i v).hchs = s.hchs := by rfl
@[simp] theorem State.setSlotPic_hgrant (s : State) (i : Nat) (v : Option Nat) : (s.setSlotPic i v).hgrant = s.hgrant := by rfl
@[simp] theorem State.setSlotPic_ptpPos (s : State) (i : Nat) (v : Option Nat) : (s.setSlotPic i v).ptpPos = s.ptpPos := by rfl
@[simp] theorem State.setSlotPic_cps (s : State) (i : Nat) (v : Option Nat) : (s.setSlotPic i v).cps = s.cps := by rfl
@[simp] theorem State.setSlotPic_push (s : State) (i : Nat) (v : Option Nat) : (s.setSlotPic i v).push = s.push := by rfl
@[simp] theorem State.setSlotPic_bank0 (s : State) (i : Nat) (v : Option Nat) : (s.setSlotPic i v).bank0 = s.bank0 := by rfl
@[simp] theorem State.setSlotPic_bank1 (s : State) (i : Nat) (v : Option Nat) : (s.setSlotPic i v).bank1 = s.bank1 := by rfl
@[simp] theorem State.setSlotPic_sleep (s : State) (i : Nat) (v : Option Nat) : (s.setSlotPic i v).sleep = s.sleep := by rfl
@[simp] theorem State.setSlotPic_swap (s : State) (i : Nat) (v : Option Nat) : (s.setSlotPic i v).swap = s.swap := by rfl
@[simp] theorem State.setSlotPic_resetReq (s : State) (i : Nat) (v : Option Nat) : (s.setSlotPic i v).resetReq = s.resetReq := by rfl
@[simp] theorem State.setSlotPic_wakeN (s : State) (i : Nat) (v : Option Nat) : (s.setSlotPic i v).wakeN = s.wakeN := by rfl
@[simp] theorem State.setSlotPic_rails (s : State) (i : Nat) (v : Option Nat) : (s.setSlotPic i v).rails = s.rails := by rfl
@[simp] theorem State.setSlotPic_railF (s : State) (i : Nat) (v : Option Nat) : (s.setSlotPic i v).railF = s.railF := by rfl
@[simp] theorem State.setSlotPic_avsAgain (s : State) (i : Nat) (v : Option Nat) : (s.setSlotPic i v).avsAgain = s.avsAgain := by rfl
@[simp] theorem State.setSlotPic_voutExp (s : State) (i : Nat) (v : Option Nat) : (s.setSlotPic i v).voutExp = s.voutExp := by rfl
@[simp] theorem State.setSlotPic_straps (s : State) (i : Nat) (v : Option Nat) : (s.setSlotPic i v).straps = s.straps := by rfl
@[simp] theorem State.setSlotPic_strm (s : State) (i : Nat) (v : Option Nat) (k : Nat) : (s.setSlotPic i v).strm k = s.strm k := by rfl
@[simp] theorem State.setSlotPic_gen (s : State) (i : Nat) (v : Option Nat) (k : Nat) : (s.setSlotPic i v).gen k = s.gen k := by rfl
@[simp] theorem State.setSlotPic_feed (s : State) (i : Nat) (v : Option Nat) (k : Nat) : (s.setSlotPic i v).feed k = s.feed k := by rfl
@[simp] theorem State.setSlotPic_crew (s : State) (i : Nat) (v : Option Nat) (k : Nat) : (s.setSlotPic i v).crew k = s.crew k := by rfl
@[simp] theorem State.setSlotPic_run (s : State) (i : Nat) (v : Option Nat) (k : Nat) : (s.setSlotPic i v).run k = s.run k := by rfl
@[simp] theorem State.setSlotPic_ring (s : State) (i : Nat) (v : Option Nat) (k : Nat) : (s.setSlotPic i v).ring k = s.ring k := by rfl
@[simp] theorem State.setSlotPic_tallySrc (s : State) (i : Nat) (v : Option Nat) (k : Nat) : (s.setSlotPic i v).tallySrc k = s.tallySrc k := by rfl
@[simp] theorem State.setSlotPic_cp (s : State) (i : Nat) (v : Option Nat) (k : Nat) : (s.setSlotPic i v).cp k = s.cp k := by rfl
@[simp] theorem State.setSlotPic_window (s : State) (i : Nat) (v : Option Nat) (k : Nat) : (s.setSlotPic i v).window k = s.window k := by rfl
@[simp] theorem State.setSlotPic_frames (s : State) (i : Nat) (v : Option Nat) (k : Nat) : (s.setSlotPic i v).frames k = s.frames k := by rfl
@[simp] theorem State.setSlotPic_sub (s : State) (i : Nat) (v : Option Nat) (k : Nat) : (s.setSlotPic i v).sub k = s.sub k := by rfl
@[simp] theorem State.setSlotPic_stack (s : State) (i : Nat) (v : Option Nat) (k : Nat) : (s.setSlotPic i v).stack k = s.stack k := by rfl
@[simp] theorem State.setSlotPic_seq (s : State) (i : Nat) (v : Option Nat) (k : Nat) : (s.setSlotPic i v).seq k = s.seq k := by rfl
@[simp] theorem State.setSlotPic_hch (s : State) (i : Nat) (v : Option Nat) (k : Nat) : (s.setSlotPic i v).hch k = s.hch k := by rfl
@[simp] theorem State.setSlotPic_qp (s : State) (i : Nat) (v : Option Nat) (k : Nat) : (s.setSlotPic i v).qp k = s.qp k := by rfl
@[simp] theorem State.setSlotPic_get (s : State) (i : Nat) (v : Option Nat) (k : RF) : (s.setSlotPic i v).get k = s.get k := by rfl
@[simp] theorem State.setSlotPic_flag (s : State) (i : Nat) (v : Option Nat) (k : RF) : (s.setSlotPic i v).flag k = s.flag k := by rfl
@[simp] theorem State.setSlotPic_reg (s : State) (i : Nat) (v : Option Nat) (k : Nat) : (s.setSlotPic i v).reg k = s.reg k := by rfl

/-! ### emit -/

@[simp] theorem State.emit_pending (s : State) (o : Out) : (s.emit o).pending = s.pending := by rfl
@[simp] theorem State.emit_regs (s : State) (o : Out) : (s.emit o).regs = s.regs := by rfl
@[simp] theorem State.emit_part (s : State) (o : Out) : (s.emit o).part = s.part := by rfl
@[simp] theorem State.emit_rst (s : State) (o : Out) : (s.emit o).rst = s.rst := by rfl
@[simp] theorem State.emit_now (s : State) (o : Out) : (s.emit o).now = s.now := by rfl
@[simp] theorem State.emit_prev (s : State) (o : Out) : (s.emit o).prev = s.prev := by rfl
@[simp] theorem State.emit_cyc (s : State) (o : Out) : (s.emit o).cyc = s.cyc := by rfl
@[simp] theorem State.emit_fired (s : State) (o : Out) : (s.emit o).fired = s.fired := by rfl
@[simp] theorem State.emit_hot (s : State) (o : Out) : (s.emit o).hot = s.hot := by rfl
@[simp] theorem State.emit_freed (s : State) (o : Out) : (s.emit o).freed = s.freed := by rfl
@[simp] theorem State.emit_waitDue (s : State) (o : Out) : (s.emit o).waitDue = s.waitDue := by rfl
@[simp] theorem State.emit_turns (s : State) (o : Out) : (s.emit o).turns = s.turns := by rfl
@[simp] theorem State.emit_rate (s : State) (o : Out) : (s.emit o).rate = s.rate := by rfl
@[simp] theorem State.emit_ppsNs (s : State) (o : Out) : (s.emit o).ppsNs = s.ppsNs := by rfl
@[simp] theorem State.emit_ppsHigh (s : State) (o : Out) : (s.emit o).ppsHigh = s.ppsHigh := by rfl
@[simp] theorem State.emit_relock (s : State) (o : Out) : (s.emit o).relock = s.relock := by rfl
@[simp] theorem State.emit_gens (s : State) (o : Out) : (s.emit o).gens = s.gens := by rfl
@[simp] theorem State.emit_freeCtr (s : State) (o : Out) : (s.emit o).freeCtr = s.freeCtr := by rfl
@[simp] theorem State.emit_held (s : State) (o : Out) : (s.emit o).held = s.held := by rfl
@[simp] theorem State.emit_heldWait (s : State) (o : Out) : (s.emit o).heldWait = s.heldWait := by rfl
@[simp] theorem State.emit_tsrc (s : State) (o : Out) : (s.emit o).tsrc = s.tsrc := by rfl
@[simp] theorem State.emit_twin (s : State) (o : Out) : (s.emit o).twin = s.twin := by rfl
@[simp] theorem State.emit_gath (s : State) (o : Out) : (s.emit o).gath = s.gath := by rfl
@[simp] theorem State.emit_claimed (s : State) (o : Out) : (s.emit o).claimed = s.claimed := by rfl
@[simp] theorem State.emit_tgtDef (s : State) (o : Out) : (s.emit o).tgtDef = s.tgtDef := by rfl
@[simp] theorem State.emit_holdOff (s : State) (o : Out) : (s.emit o).holdOff = s.holdOff := by rfl
@[simp] theorem State.emit_pins (s : State) (o : Out) : (s.emit o).pins = s.pins := by rfl
@[simp] theorem State.emit_looked (s : State) (o : Out) : (s.emit o).looked = s.looked := by rfl
@[simp] theorem State.emit_preempt (s : State) (o : Out) : (s.emit o).preempt = s.preempt := by rfl
@[simp] theorem State.emit_rings (s : State) (o : Out) : (s.emit o).rings = s.rings := by rfl
@[simp] theorem State.emit_fetched (s : State) (o : Out) : (s.emit o).fetched = s.fetched := by rfl
@[simp] theorem State.emit_lifted (s : State) (o : Out) : (s.emit o).lifted = s.lifted := by rfl
@[simp] theorem State.emit_owed (s : State) (o : Out) : (s.emit o).owed = s.owed := by rfl
@[simp] theorem State.emit_turn (s : State) (o : Out) : (s.emit o).turn = s.turn := by rfl
@[simp] theorem State.emit_streams (s : State) (o : Out) : (s.emit o).streams = s.streams := by rfl
@[simp] theorem State.emit_feeds (s : State) (o : Out) : (s.emit o).feeds = s.feeds := by rfl
@[simp] theorem State.emit_crews (s : State) (o : Out) : (s.emit o).crews = s.crews := by rfl
@[simp] theorem State.emit_runs (s : State) (o : Out) : (s.emit o).runs = s.runs := by rfl
@[simp] theorem State.emit_ended (s : State) (o : Out) : (s.emit o).ended = s.ended := by rfl
@[simp] theorem State.emit_seqs (s : State) (o : Out) : (s.emit o).seqs = s.seqs := by rfl
@[simp] theorem State.emit_therm (s : State) (o : Out) : (s.emit o).therm = s.therm := by rfl
@[simp] theorem State.emit_progs (s : State) (o : Out) : (s.emit o).progs = s.progs := by rfl
@[simp] theorem State.emit_scache (s : State) (o : Out) : (s.emit o).scache = s.scache := by rfl
@[simp] theorem State.emit_slotPic (s : State) (o : Out) : (s.emit o).slotPic = s.slotPic := by rfl
@[simp] theorem State.emit_slotSz (s : State) (o : Out) : (s.emit o).slotSz = s.slotSz := by rfl
@[simp] theorem State.emit_slotNref (s : State) (o : Out) : (s.emit o).slotNref = s.slotNref := by rfl
@[simp] theorem State.emit_slotC (s : State) (o : Out) : (s.emit o).slotC = s.slotC := by rfl
@[simp] theorem State.emit_retPend (s : State) (o : Out) : (s.emit o).retPend = s.retPend := by rfl
@[simp] theorem State.emit_egr (s : State) (o : Out) : (s.emit o).egr = s.egr := by rfl
@[simp] theorem State.emit_txFree (s : State) (o : Out) : (s.emit o).txFree = s.txFree := by rfl
@[simp] theorem State.emit_frameNo (s : State) (o : Out) : (s.emit o).frameNo = s.frameNo := by rfl
@[simp] theorem State.emit_rtpSeq (s : State) (o : Out) : (s.emit o).rtpSeq = s.rtpSeq := by rfl
@[simp] theorem State.emit_subs (s : State) (o : Out) : (s.emit o).subs = s.subs := by rfl
@[simp] theorem State.emit_shapers (s : State) (o : Out) : (s.emit o).shapers = s.shapers := by rfl
@[simp] theorem State.emit_gates (s : State) (o : Out) : (s.emit o).gates = s.gates := by rfl
@[simp] theorem State.emit_ptpRx (s : State) (o : Out) : (s.emit o).ptpRx = s.ptpRx := by rfl
@[simp] theorem State.emit_tsb (s : State) (o : Out) : (s.emit o).tsb = s.tsb := by rfl
@[simp] theorem State.emit_ptpServo (s : State) (o : Out) : (s.emit o).ptpServo = s.ptpServo := by rfl
@[simp] theorem State.emit_mem (s : State) (o : Out) : (s.emit o).mem = s.mem := by rfl
@[simp] theorem State.emit_injRecs (s : State) (o : Out) : (s.emit o).injRecs = s.injRecs := by rfl
@[simp] theorem State.emit_filled (s : State) (o : Out) : (s.emit o).filled = s.filled := by rfl
@[simp] theorem State.emit_images (s : State) (o : Out) : (s.emit o).images = s.images := by rfl
@[simp] theorem State.emit_chkLeft (s : State) (o : Out) : (s.emit o).chkLeft = s.chkLeft := by rfl
@[simp] theorem State.emit_badRows (s : State) (o : Out) : (s.emit o).badRows = s.badRows := by rfl
@[simp] theorem State.emit_lost (s : State) (o : Out) : (s.emit o).lost = s.lost := by rfl
@[simp] theorem State.emit_celCe (s : State) (o : Out) : (s.emit o).celCe = s.celCe := by rfl
@[simp] theorem State.emit_celDly (s : State) (o : Out) : (s.emit o).celDly = s.celDly := by rfl
@[simp] theorem State.emit_celVref (s : State) (o : Out) : (s.emit o).celVref = s.celVref := by rfl
@[simp] theorem State.emit_pcs (s : State) (o : Out) : (s.emit o).pcs = s.pcs := by rfl
@[simp] theorem State.emit_stackTab (s : State) (o : Out) : (s.emit o).stackTab = s.stackTab := by rfl
@[simp] theorem State.emit_ldrCol (s : State) (o : Out) : (s.emit o).ldrCol = s.ldrCol := by rfl
@[simp] theorem State.emit_training (s : State) (o : Out) : (s.emit o).training = s.training := by rfl
@[simp] theorem State.emit_adapting (s : State) (o : Out) : (s.emit o).adapting = s.adapting := by rfl
@[simp] theorem State.emit_laneSet (s : State) (o : Out) : (s.emit o).laneSet = s.laneSet := by rfl
@[simp] theorem State.emit_blFrom (s : State) (o : Out) : (s.emit o).blFrom = s.blFrom := by rfl
@[simp] theorem State.emit_qps (s : State) (o : Out) : (s.emit o).qps = s.qps := by rfl
@[simp] theorem State.emit_hchs (s : State) (o : Out) : (s.emit o).hchs = s.hchs := by rfl
@[simp] theorem State.emit_hgrant (s : State) (o : Out) : (s.emit o).hgrant = s.hgrant := by rfl
@[simp] theorem State.emit_ptpPos (s : State) (o : Out) : (s.emit o).ptpPos = s.ptpPos := by rfl
@[simp] theorem State.emit_cps (s : State) (o : Out) : (s.emit o).cps = s.cps := by rfl
@[simp] theorem State.emit_push (s : State) (o : Out) : (s.emit o).push = s.push := by rfl
@[simp] theorem State.emit_bank0 (s : State) (o : Out) : (s.emit o).bank0 = s.bank0 := by rfl
@[simp] theorem State.emit_bank1 (s : State) (o : Out) : (s.emit o).bank1 = s.bank1 := by rfl
@[simp] theorem State.emit_sleep (s : State) (o : Out) : (s.emit o).sleep = s.sleep := by rfl
@[simp] theorem State.emit_swap (s : State) (o : Out) : (s.emit o).swap = s.swap := by rfl
@[simp] theorem State.emit_resetReq (s : State) (o : Out) : (s.emit o).resetReq = s.resetReq := by rfl
@[simp] theorem State.emit_wakeN (s : State) (o : Out) : (s.emit o).wakeN = s.wakeN := by rfl
@[simp] theorem State.emit_rails (s : State) (o : Out) : (s.emit o).rails = s.rails := by rfl
@[simp] theorem State.emit_railF (s : State) (o : Out) : (s.emit o).railF = s.railF := by rfl
@[simp] theorem State.emit_avsAgain (s : State) (o : Out) : (s.emit o).avsAgain = s.avsAgain := by rfl
@[simp] theorem State.emit_voutExp (s : State) (o : Out) : (s.emit o).voutExp = s.voutExp := by rfl
@[simp] theorem State.emit_straps (s : State) (o : Out) : (s.emit o).straps = s.straps := by rfl
@[simp] theorem State.emit_strm (s : State) (o : Out) (k : Nat) : (s.emit o).strm k = s.strm k := by rfl
@[simp] theorem State.emit_gen (s : State) (o : Out) (k : Nat) : (s.emit o).gen k = s.gen k := by rfl
@[simp] theorem State.emit_feed (s : State) (o : Out) (k : Nat) : (s.emit o).feed k = s.feed k := by rfl
@[simp] theorem State.emit_crew (s : State) (o : Out) (k : Nat) : (s.emit o).crew k = s.crew k := by rfl
@[simp] theorem State.emit_run (s : State) (o : Out) (k : Nat) : (s.emit o).run k = s.run k := by rfl
@[simp] theorem State.emit_ring (s : State) (o : Out) (k : Nat) : (s.emit o).ring k = s.ring k := by rfl
@[simp] theorem State.emit_tallySrc (s : State) (o : Out) (k : Nat) : (s.emit o).tallySrc k = s.tallySrc k := by rfl
@[simp] theorem State.emit_cp (s : State) (o : Out) (k : Nat) : (s.emit o).cp k = s.cp k := by rfl
@[simp] theorem State.emit_slotPicOf (s : State) (o : Out) (k : Nat) : (s.emit o).slotPicOf k = s.slotPicOf k := by rfl
@[simp] theorem State.emit_window (s : State) (o : Out) (k : Nat) : (s.emit o).window k = s.window k := by rfl
@[simp] theorem State.emit_frames (s : State) (o : Out) (k : Nat) : (s.emit o).frames k = s.frames k := by rfl
@[simp] theorem State.emit_sub (s : State) (o : Out) (k : Nat) : (s.emit o).sub k = s.sub k := by rfl
@[simp] theorem State.emit_stack (s : State) (o : Out) (k : Nat) : (s.emit o).stack k = s.stack k := by rfl
@[simp] theorem State.emit_seq (s : State) (o : Out) (k : Nat) : (s.emit o).seq k = s.seq k := by rfl
@[simp] theorem State.emit_hch (s : State) (o : Out) (k : Nat) : (s.emit o).hch k = s.hch k := by rfl
@[simp] theorem State.emit_qp (s : State) (o : Out) (k : Nat) : (s.emit o).qp k = s.qp k := by rfl
@[simp] theorem State.emit_get (s : State) (o : Out) (k : RF) : (s.emit o).get k = s.get k := by rfl
@[simp] theorem State.emit_flag (s : State) (o : Out) (k : RF) : (s.emit o).flag k = s.flag k := by rfl
@[simp] theorem State.emit_reg (s : State) (o : Out) (k : Nat) : (s.emit o).reg k = s.reg k := by rfl

/-! ### evcAssert -/

@[simp] theorem State.evcAssert_pending (s : State) (n : Nat) : (s.evcAssert n).pending = s.pending := by rfl
@[simp] theorem State.evcAssert_part (s : State) (n : Nat) : (s.evcAssert n).part = s.part := by rfl
@[simp] theorem State.evcAssert_rst (s : State) (n : Nat) : (s.evcAssert n).rst = s.rst := by rfl
@[simp] theorem State.evcAssert_now (s : State) (n : Nat) : (s.evcAssert n).now = s.now := by rfl
@[simp] theorem State.evcAssert_prev (s : State) (n : Nat) : (s.evcAssert n).prev = s.prev := by rfl
@[simp] theorem State.evcAssert_cyc (s : State) (n : Nat) : (s.evcAssert n).cyc = s.cyc := by rfl
@[simp] theorem State.evcAssert_fired (s : State) (n : Nat) : (s.evcAssert n).fired = s.fired := by rfl
@[simp] theorem State.evcAssert_freed (s : State) (n : Nat) : (s.evcAssert n).freed = s.freed := by rfl
@[simp] theorem State.evcAssert_waitDue (s : State) (n : Nat) : (s.evcAssert n).waitDue = s.waitDue := by rfl
@[simp] theorem State.evcAssert_turns (s : State) (n : Nat) : (s.evcAssert n).turns = s.turns := by rfl
@[simp] theorem State.evcAssert_rate (s : State) (n : Nat) : (s.evcAssert n).rate = s.rate := by rfl
@[simp] theorem State.evcAssert_ppsNs (s : State) (n : Nat) : (s.evcAssert n).ppsNs = s.ppsNs := by rfl
@[simp] theorem State.evcAssert_ppsHigh (s : State) (n : Nat) : (s.evcAssert n).ppsHigh = s.ppsHigh := by rfl
@[simp] theorem State.evcAssert_relock (s : State) (n : Nat) : (s.evcAssert n).relock = s.relock := by rfl
@[simp] theorem State.evcAssert_gens (s : State) (n : Nat) : (s.evcAssert n).gens = s.gens := by rfl
@[simp] theorem State.evcAssert_freeCtr (s : State) (n : Nat) : (s.evcAssert n).freeCtr = s.freeCtr := by rfl
@[simp] theorem State.evcAssert_held (s : State) (n : Nat) : (s.evcAssert n).held = s.held := by rfl
@[simp] theorem State.evcAssert_heldWait (s : State) (n : Nat) : (s.evcAssert n).heldWait = s.heldWait := by rfl
@[simp] theorem State.evcAssert_tsrc (s : State) (n : Nat) : (s.evcAssert n).tsrc = s.tsrc := by rfl
@[simp] theorem State.evcAssert_twin (s : State) (n : Nat) : (s.evcAssert n).twin = s.twin := by rfl
@[simp] theorem State.evcAssert_gath (s : State) (n : Nat) : (s.evcAssert n).gath = s.gath := by rfl
@[simp] theorem State.evcAssert_claimed (s : State) (n : Nat) : (s.evcAssert n).claimed = s.claimed := by rfl
@[simp] theorem State.evcAssert_tgtDef (s : State) (n : Nat) : (s.evcAssert n).tgtDef = s.tgtDef := by rfl
@[simp] theorem State.evcAssert_holdOff (s : State) (n : Nat) : (s.evcAssert n).holdOff = s.holdOff := by rfl
@[simp] theorem State.evcAssert_pins (s : State) (n : Nat) : (s.evcAssert n).pins = s.pins := by rfl
@[simp] theorem State.evcAssert_looked (s : State) (n : Nat) : (s.evcAssert n).looked = s.looked := by rfl
@[simp] theorem State.evcAssert_preempt (s : State) (n : Nat) : (s.evcAssert n).preempt = s.preempt := by rfl
@[simp] theorem State.evcAssert_rings (s : State) (n : Nat) : (s.evcAssert n).rings = s.rings := by rfl
@[simp] theorem State.evcAssert_fetched (s : State) (n : Nat) : (s.evcAssert n).fetched = s.fetched := by rfl
@[simp] theorem State.evcAssert_lifted (s : State) (n : Nat) : (s.evcAssert n).lifted = s.lifted := by rfl
@[simp] theorem State.evcAssert_owed (s : State) (n : Nat) : (s.evcAssert n).owed = s.owed := by rfl
@[simp] theorem State.evcAssert_turn (s : State) (n : Nat) : (s.evcAssert n).turn = s.turn := by rfl
@[simp] theorem State.evcAssert_outbox (s : State) (n : Nat) : (s.evcAssert n).outbox = s.outbox := by rfl
@[simp] theorem State.evcAssert_streams (s : State) (n : Nat) : (s.evcAssert n).streams = s.streams := by rfl
@[simp] theorem State.evcAssert_feeds (s : State) (n : Nat) : (s.evcAssert n).feeds = s.feeds := by rfl
@[simp] theorem State.evcAssert_crews (s : State) (n : Nat) : (s.evcAssert n).crews = s.crews := by rfl
@[simp] theorem State.evcAssert_runs (s : State) (n : Nat) : (s.evcAssert n).runs = s.runs := by rfl
@[simp] theorem State.evcAssert_ended (s : State) (n : Nat) : (s.evcAssert n).ended = s.ended := by rfl
@[simp] theorem State.evcAssert_seqs (s : State) (n : Nat) : (s.evcAssert n).seqs = s.seqs := by rfl
@[simp] theorem State.evcAssert_therm (s : State) (n : Nat) : (s.evcAssert n).therm = s.therm := by rfl
@[simp] theorem State.evcAssert_progs (s : State) (n : Nat) : (s.evcAssert n).progs = s.progs := by rfl
@[simp] theorem State.evcAssert_scache (s : State) (n : Nat) : (s.evcAssert n).scache = s.scache := by rfl
@[simp] theorem State.evcAssert_slotPic (s : State) (n : Nat) : (s.evcAssert n).slotPic = s.slotPic := by rfl
@[simp] theorem State.evcAssert_slotSz (s : State) (n : Nat) : (s.evcAssert n).slotSz = s.slotSz := by rfl
@[simp] theorem State.evcAssert_slotNref (s : State) (n : Nat) : (s.evcAssert n).slotNref = s.slotNref := by rfl
@[simp] theorem State.evcAssert_slotC (s : State) (n : Nat) : (s.evcAssert n).slotC = s.slotC := by rfl
@[simp] theorem State.evcAssert_retPend (s : State) (n : Nat) : (s.evcAssert n).retPend = s.retPend := by rfl
@[simp] theorem State.evcAssert_egr (s : State) (n : Nat) : (s.evcAssert n).egr = s.egr := by rfl
@[simp] theorem State.evcAssert_txFree (s : State) (n : Nat) : (s.evcAssert n).txFree = s.txFree := by rfl
@[simp] theorem State.evcAssert_frameNo (s : State) (n : Nat) : (s.evcAssert n).frameNo = s.frameNo := by rfl
@[simp] theorem State.evcAssert_rtpSeq (s : State) (n : Nat) : (s.evcAssert n).rtpSeq = s.rtpSeq := by rfl
@[simp] theorem State.evcAssert_subs (s : State) (n : Nat) : (s.evcAssert n).subs = s.subs := by rfl
@[simp] theorem State.evcAssert_shapers (s : State) (n : Nat) : (s.evcAssert n).shapers = s.shapers := by rfl
@[simp] theorem State.evcAssert_gates (s : State) (n : Nat) : (s.evcAssert n).gates = s.gates := by rfl
@[simp] theorem State.evcAssert_ptpRx (s : State) (n : Nat) : (s.evcAssert n).ptpRx = s.ptpRx := by rfl
@[simp] theorem State.evcAssert_tsb (s : State) (n : Nat) : (s.evcAssert n).tsb = s.tsb := by rfl
@[simp] theorem State.evcAssert_ptpServo (s : State) (n : Nat) : (s.evcAssert n).ptpServo = s.ptpServo := by rfl
@[simp] theorem State.evcAssert_mem (s : State) (n : Nat) : (s.evcAssert n).mem = s.mem := by rfl
@[simp] theorem State.evcAssert_injRecs (s : State) (n : Nat) : (s.evcAssert n).injRecs = s.injRecs := by rfl
@[simp] theorem State.evcAssert_filled (s : State) (n : Nat) : (s.evcAssert n).filled = s.filled := by rfl
@[simp] theorem State.evcAssert_images (s : State) (n : Nat) : (s.evcAssert n).images = s.images := by rfl
@[simp] theorem State.evcAssert_chkLeft (s : State) (n : Nat) : (s.evcAssert n).chkLeft = s.chkLeft := by rfl
@[simp] theorem State.evcAssert_badRows (s : State) (n : Nat) : (s.evcAssert n).badRows = s.badRows := by rfl
@[simp] theorem State.evcAssert_lost (s : State) (n : Nat) : (s.evcAssert n).lost = s.lost := by rfl
@[simp] theorem State.evcAssert_celCe (s : State) (n : Nat) : (s.evcAssert n).celCe = s.celCe := by rfl
@[simp] theorem State.evcAssert_celDly (s : State) (n : Nat) : (s.evcAssert n).celDly = s.celDly := by rfl
@[simp] theorem State.evcAssert_celVref (s : State) (n : Nat) : (s.evcAssert n).celVref = s.celVref := by rfl
@[simp] theorem State.evcAssert_pcs (s : State) (n : Nat) : (s.evcAssert n).pcs = s.pcs := by rfl
@[simp] theorem State.evcAssert_stackTab (s : State) (n : Nat) : (s.evcAssert n).stackTab = s.stackTab := by rfl
@[simp] theorem State.evcAssert_ldrCol (s : State) (n : Nat) : (s.evcAssert n).ldrCol = s.ldrCol := by rfl
@[simp] theorem State.evcAssert_training (s : State) (n : Nat) : (s.evcAssert n).training = s.training := by rfl
@[simp] theorem State.evcAssert_adapting (s : State) (n : Nat) : (s.evcAssert n).adapting = s.adapting := by rfl
@[simp] theorem State.evcAssert_laneSet (s : State) (n : Nat) : (s.evcAssert n).laneSet = s.laneSet := by rfl
@[simp] theorem State.evcAssert_blFrom (s : State) (n : Nat) : (s.evcAssert n).blFrom = s.blFrom := by rfl
@[simp] theorem State.evcAssert_qps (s : State) (n : Nat) : (s.evcAssert n).qps = s.qps := by rfl
@[simp] theorem State.evcAssert_hchs (s : State) (n : Nat) : (s.evcAssert n).hchs = s.hchs := by rfl
@[simp] theorem State.evcAssert_hgrant (s : State) (n : Nat) : (s.evcAssert n).hgrant = s.hgrant := by rfl
@[simp] theorem State.evcAssert_ptpPos (s : State) (n : Nat) : (s.evcAssert n).ptpPos = s.ptpPos := by rfl
@[simp] theorem State.evcAssert_cps (s : State) (n : Nat) : (s.evcAssert n).cps = s.cps := by rfl
@[simp] theorem State.evcAssert_push (s : State) (n : Nat) : (s.evcAssert n).push = s.push := by rfl
@[simp] theorem State.evcAssert_bank0 (s : State) (n : Nat) : (s.evcAssert n).bank0 = s.bank0 := by rfl
@[simp] theorem State.evcAssert_bank1 (s : State) (n : Nat) : (s.evcAssert n).bank1 = s.bank1 := by rfl
@[simp] theorem State.evcAssert_sleep (s : State) (n : Nat) : (s.evcAssert n).sleep = s.sleep := by rfl
@[simp] theorem State.evcAssert_swap (s : State) (n : Nat) : (s.evcAssert n).swap = s.swap := by rfl
@[simp] theorem State.evcAssert_resetReq (s : State) (n : Nat) : (s.evcAssert n).resetReq = s.resetReq := by rfl
@[simp] theorem State.evcAssert_wakeN (s : State) (n : Nat) : (s.evcAssert n).wakeN = s.wakeN := by rfl
@[simp] theorem State.evcAssert_rails (s : State) (n : Nat) : (s.evcAssert n).rails = s.rails := by rfl
@[simp] theorem State.evcAssert_railF (s : State) (n : Nat) : (s.evcAssert n).railF = s.railF := by rfl
@[simp] theorem State.evcAssert_avsAgain (s : State) (n : Nat) : (s.evcAssert n).avsAgain = s.avsAgain := by rfl
@[simp] theorem State.evcAssert_voutExp (s : State) (n : Nat) : (s.evcAssert n).voutExp = s.voutExp := by rfl
@[simp] theorem State.evcAssert_straps (s : State) (n : Nat) : (s.evcAssert n).straps = s.straps := by rfl
@[simp] theorem State.evcAssert_strm (s : State) (n : Nat) (k : Nat) : (s.evcAssert n).strm k = s.strm k := by rfl
@[simp] theorem State.evcAssert_gen (s : State) (n : Nat) (k : Nat) : (s.evcAssert n).gen k = s.gen k := by rfl
@[simp] theorem State.evcAssert_feed (s : State) (n : Nat) (k : Nat) : (s.evcAssert n).feed k = s.feed k := by rfl
@[simp] theorem State.evcAssert_crew (s : State) (n : Nat) (k : Nat) : (s.evcAssert n).crew k = s.crew k := by rfl
@[simp] theorem State.evcAssert_run (s : State) (n : Nat) (k : Nat) : (s.evcAssert n).run k = s.run k := by rfl
@[simp] theorem State.evcAssert_ring (s : State) (n : Nat) (k : Nat) : (s.evcAssert n).ring k = s.ring k := by rfl
@[simp] theorem State.evcAssert_tallySrc (s : State) (n : Nat) (k : Nat) : (s.evcAssert n).tallySrc k = s.tallySrc k := by rfl
@[simp] theorem State.evcAssert_cp (s : State) (n : Nat) (k : Nat) : (s.evcAssert n).cp k = s.cp k := by rfl
@[simp] theorem State.evcAssert_slotPicOf (s : State) (n : Nat) (k : Nat) : (s.evcAssert n).slotPicOf k = s.slotPicOf k := by rfl
@[simp] theorem State.evcAssert_window (s : State) (n : Nat) (k : Nat) : (s.evcAssert n).window k = s.window k := by rfl
@[simp] theorem State.evcAssert_frames (s : State) (n : Nat) (k : Nat) : (s.evcAssert n).frames k = s.frames k := by rfl
@[simp] theorem State.evcAssert_sub (s : State) (n : Nat) (k : Nat) : (s.evcAssert n).sub k = s.sub k := by rfl
@[simp] theorem State.evcAssert_stack (s : State) (n : Nat) (k : Nat) : (s.evcAssert n).stack k = s.stack k := by rfl
@[simp] theorem State.evcAssert_seq (s : State) (n : Nat) (k : Nat) : (s.evcAssert n).seq k = s.seq k := by rfl
@[simp] theorem State.evcAssert_hch (s : State) (n : Nat) (k : Nat) : (s.evcAssert n).hch k = s.hch k := by rfl
@[simp] theorem State.evcAssert_qp (s : State) (n : Nat) (k : Nat) : (s.evcAssert n).qp k = s.qp k := by rfl

/-! ### evcLine -/

@[simp] theorem State.evcLine_pending (s : State) (n : Nat) (on : Bool) : (s.evcLine n on).pending = s.pending := by rfl
@[simp] theorem State.evcLine_part (s : State) (n : Nat) (on : Bool) : (s.evcLine n on).part = s.part := by rfl
@[simp] theorem State.evcLine_rst (s : State) (n : Nat) (on : Bool) : (s.evcLine n on).rst = s.rst := by rfl
@[simp] theorem State.evcLine_now (s : State) (n : Nat) (on : Bool) : (s.evcLine n on).now = s.now := by rfl
@[simp] theorem State.evcLine_prev (s : State) (n : Nat) (on : Bool) : (s.evcLine n on).prev = s.prev := by rfl
@[simp] theorem State.evcLine_cyc (s : State) (n : Nat) (on : Bool) : (s.evcLine n on).cyc = s.cyc := by rfl
@[simp] theorem State.evcLine_fired (s : State) (n : Nat) (on : Bool) : (s.evcLine n on).fired = s.fired := by rfl
@[simp] theorem State.evcLine_hot (s : State) (n : Nat) (on : Bool) : (s.evcLine n on).hot = s.hot := by rfl
@[simp] theorem State.evcLine_freed (s : State) (n : Nat) (on : Bool) : (s.evcLine n on).freed = s.freed := by rfl
@[simp] theorem State.evcLine_waitDue (s : State) (n : Nat) (on : Bool) : (s.evcLine n on).waitDue = s.waitDue := by rfl
@[simp] theorem State.evcLine_turns (s : State) (n : Nat) (on : Bool) : (s.evcLine n on).turns = s.turns := by rfl
@[simp] theorem State.evcLine_rate (s : State) (n : Nat) (on : Bool) : (s.evcLine n on).rate = s.rate := by rfl
@[simp] theorem State.evcLine_ppsNs (s : State) (n : Nat) (on : Bool) : (s.evcLine n on).ppsNs = s.ppsNs := by rfl
@[simp] theorem State.evcLine_ppsHigh (s : State) (n : Nat) (on : Bool) : (s.evcLine n on).ppsHigh = s.ppsHigh := by rfl
@[simp] theorem State.evcLine_relock (s : State) (n : Nat) (on : Bool) : (s.evcLine n on).relock = s.relock := by rfl
@[simp] theorem State.evcLine_gens (s : State) (n : Nat) (on : Bool) : (s.evcLine n on).gens = s.gens := by rfl
@[simp] theorem State.evcLine_freeCtr (s : State) (n : Nat) (on : Bool) : (s.evcLine n on).freeCtr = s.freeCtr := by rfl
@[simp] theorem State.evcLine_held (s : State) (n : Nat) (on : Bool) : (s.evcLine n on).held = s.held := by rfl
@[simp] theorem State.evcLine_heldWait (s : State) (n : Nat) (on : Bool) : (s.evcLine n on).heldWait = s.heldWait := by rfl
@[simp] theorem State.evcLine_tsrc (s : State) (n : Nat) (on : Bool) : (s.evcLine n on).tsrc = s.tsrc := by rfl
@[simp] theorem State.evcLine_twin (s : State) (n : Nat) (on : Bool) : (s.evcLine n on).twin = s.twin := by rfl
@[simp] theorem State.evcLine_gath (s : State) (n : Nat) (on : Bool) : (s.evcLine n on).gath = s.gath := by rfl
@[simp] theorem State.evcLine_claimed (s : State) (n : Nat) (on : Bool) : (s.evcLine n on).claimed = s.claimed := by rfl
@[simp] theorem State.evcLine_tgtDef (s : State) (n : Nat) (on : Bool) : (s.evcLine n on).tgtDef = s.tgtDef := by rfl
@[simp] theorem State.evcLine_holdOff (s : State) (n : Nat) (on : Bool) : (s.evcLine n on).holdOff = s.holdOff := by rfl
@[simp] theorem State.evcLine_pins (s : State) (n : Nat) (on : Bool) : (s.evcLine n on).pins = s.pins := by rfl
@[simp] theorem State.evcLine_looked (s : State) (n : Nat) (on : Bool) : (s.evcLine n on).looked = s.looked := by rfl
@[simp] theorem State.evcLine_preempt (s : State) (n : Nat) (on : Bool) : (s.evcLine n on).preempt = s.preempt := by rfl
@[simp] theorem State.evcLine_rings (s : State) (n : Nat) (on : Bool) : (s.evcLine n on).rings = s.rings := by rfl
@[simp] theorem State.evcLine_fetched (s : State) (n : Nat) (on : Bool) : (s.evcLine n on).fetched = s.fetched := by rfl
@[simp] theorem State.evcLine_lifted (s : State) (n : Nat) (on : Bool) : (s.evcLine n on).lifted = s.lifted := by rfl
@[simp] theorem State.evcLine_owed (s : State) (n : Nat) (on : Bool) : (s.evcLine n on).owed = s.owed := by rfl
@[simp] theorem State.evcLine_turn (s : State) (n : Nat) (on : Bool) : (s.evcLine n on).turn = s.turn := by rfl
@[simp] theorem State.evcLine_outbox (s : State) (n : Nat) (on : Bool) : (s.evcLine n on).outbox = s.outbox := by rfl
@[simp] theorem State.evcLine_streams (s : State) (n : Nat) (on : Bool) : (s.evcLine n on).streams = s.streams := by rfl
@[simp] theorem State.evcLine_feeds (s : State) (n : Nat) (on : Bool) : (s.evcLine n on).feeds = s.feeds := by rfl
@[simp] theorem State.evcLine_crews (s : State) (n : Nat) (on : Bool) : (s.evcLine n on).crews = s.crews := by rfl
@[simp] theorem State.evcLine_runs (s : State) (n : Nat) (on : Bool) : (s.evcLine n on).runs = s.runs := by rfl
@[simp] theorem State.evcLine_ended (s : State) (n : Nat) (on : Bool) : (s.evcLine n on).ended = s.ended := by rfl
@[simp] theorem State.evcLine_seqs (s : State) (n : Nat) (on : Bool) : (s.evcLine n on).seqs = s.seqs := by rfl
@[simp] theorem State.evcLine_therm (s : State) (n : Nat) (on : Bool) : (s.evcLine n on).therm = s.therm := by rfl
@[simp] theorem State.evcLine_progs (s : State) (n : Nat) (on : Bool) : (s.evcLine n on).progs = s.progs := by rfl
@[simp] theorem State.evcLine_scache (s : State) (n : Nat) (on : Bool) : (s.evcLine n on).scache = s.scache := by rfl
@[simp] theorem State.evcLine_slotPic (s : State) (n : Nat) (on : Bool) : (s.evcLine n on).slotPic = s.slotPic := by rfl
@[simp] theorem State.evcLine_slotSz (s : State) (n : Nat) (on : Bool) : (s.evcLine n on).slotSz = s.slotSz := by rfl
@[simp] theorem State.evcLine_slotNref (s : State) (n : Nat) (on : Bool) : (s.evcLine n on).slotNref = s.slotNref := by rfl
@[simp] theorem State.evcLine_slotC (s : State) (n : Nat) (on : Bool) : (s.evcLine n on).slotC = s.slotC := by rfl
@[simp] theorem State.evcLine_retPend (s : State) (n : Nat) (on : Bool) : (s.evcLine n on).retPend = s.retPend := by rfl
@[simp] theorem State.evcLine_egr (s : State) (n : Nat) (on : Bool) : (s.evcLine n on).egr = s.egr := by rfl
@[simp] theorem State.evcLine_txFree (s : State) (n : Nat) (on : Bool) : (s.evcLine n on).txFree = s.txFree := by rfl
@[simp] theorem State.evcLine_frameNo (s : State) (n : Nat) (on : Bool) : (s.evcLine n on).frameNo = s.frameNo := by rfl
@[simp] theorem State.evcLine_rtpSeq (s : State) (n : Nat) (on : Bool) : (s.evcLine n on).rtpSeq = s.rtpSeq := by rfl
@[simp] theorem State.evcLine_subs (s : State) (n : Nat) (on : Bool) : (s.evcLine n on).subs = s.subs := by rfl
@[simp] theorem State.evcLine_shapers (s : State) (n : Nat) (on : Bool) : (s.evcLine n on).shapers = s.shapers := by rfl
@[simp] theorem State.evcLine_gates (s : State) (n : Nat) (on : Bool) : (s.evcLine n on).gates = s.gates := by rfl
@[simp] theorem State.evcLine_ptpRx (s : State) (n : Nat) (on : Bool) : (s.evcLine n on).ptpRx = s.ptpRx := by rfl
@[simp] theorem State.evcLine_tsb (s : State) (n : Nat) (on : Bool) : (s.evcLine n on).tsb = s.tsb := by rfl
@[simp] theorem State.evcLine_ptpServo (s : State) (n : Nat) (on : Bool) : (s.evcLine n on).ptpServo = s.ptpServo := by rfl
@[simp] theorem State.evcLine_mem (s : State) (n : Nat) (on : Bool) : (s.evcLine n on).mem = s.mem := by rfl
@[simp] theorem State.evcLine_injRecs (s : State) (n : Nat) (on : Bool) : (s.evcLine n on).injRecs = s.injRecs := by rfl
@[simp] theorem State.evcLine_filled (s : State) (n : Nat) (on : Bool) : (s.evcLine n on).filled = s.filled := by rfl
@[simp] theorem State.evcLine_images (s : State) (n : Nat) (on : Bool) : (s.evcLine n on).images = s.images := by rfl
@[simp] theorem State.evcLine_chkLeft (s : State) (n : Nat) (on : Bool) : (s.evcLine n on).chkLeft = s.chkLeft := by rfl
@[simp] theorem State.evcLine_badRows (s : State) (n : Nat) (on : Bool) : (s.evcLine n on).badRows = s.badRows := by rfl
@[simp] theorem State.evcLine_lost (s : State) (n : Nat) (on : Bool) : (s.evcLine n on).lost = s.lost := by rfl
@[simp] theorem State.evcLine_celCe (s : State) (n : Nat) (on : Bool) : (s.evcLine n on).celCe = s.celCe := by rfl
@[simp] theorem State.evcLine_celDly (s : State) (n : Nat) (on : Bool) : (s.evcLine n on).celDly = s.celDly := by rfl
@[simp] theorem State.evcLine_celVref (s : State) (n : Nat) (on : Bool) : (s.evcLine n on).celVref = s.celVref := by rfl
@[simp] theorem State.evcLine_pcs (s : State) (n : Nat) (on : Bool) : (s.evcLine n on).pcs = s.pcs := by rfl
@[simp] theorem State.evcLine_stackTab (s : State) (n : Nat) (on : Bool) : (s.evcLine n on).stackTab = s.stackTab := by rfl
@[simp] theorem State.evcLine_ldrCol (s : State) (n : Nat) (on : Bool) : (s.evcLine n on).ldrCol = s.ldrCol := by rfl
@[simp] theorem State.evcLine_training (s : State) (n : Nat) (on : Bool) : (s.evcLine n on).training = s.training := by rfl
@[simp] theorem State.evcLine_adapting (s : State) (n : Nat) (on : Bool) : (s.evcLine n on).adapting = s.adapting := by rfl
@[simp] theorem State.evcLine_laneSet (s : State) (n : Nat) (on : Bool) : (s.evcLine n on).laneSet = s.laneSet := by rfl
@[simp] theorem State.evcLine_blFrom (s : State) (n : Nat) (on : Bool) : (s.evcLine n on).blFrom = s.blFrom := by rfl
@[simp] theorem State.evcLine_qps (s : State) (n : Nat) (on : Bool) : (s.evcLine n on).qps = s.qps := by rfl
@[simp] theorem State.evcLine_hchs (s : State) (n : Nat) (on : Bool) : (s.evcLine n on).hchs = s.hchs := by rfl
@[simp] theorem State.evcLine_hgrant (s : State) (n : Nat) (on : Bool) : (s.evcLine n on).hgrant = s.hgrant := by rfl
@[simp] theorem State.evcLine_ptpPos (s : State) (n : Nat) (on : Bool) : (s.evcLine n on).ptpPos = s.ptpPos := by rfl
@[simp] theorem State.evcLine_cps (s : State) (n : Nat) (on : Bool) : (s.evcLine n on).cps = s.cps := by rfl
@[simp] theorem State.evcLine_push (s : State) (n : Nat) (on : Bool) : (s.evcLine n on).push = s.push := by rfl
@[simp] theorem State.evcLine_bank0 (s : State) (n : Nat) (on : Bool) : (s.evcLine n on).bank0 = s.bank0 := by rfl
@[simp] theorem State.evcLine_bank1 (s : State) (n : Nat) (on : Bool) : (s.evcLine n on).bank1 = s.bank1 := by rfl
@[simp] theorem State.evcLine_sleep (s : State) (n : Nat) (on : Bool) : (s.evcLine n on).sleep = s.sleep := by rfl
@[simp] theorem State.evcLine_swap (s : State) (n : Nat) (on : Bool) : (s.evcLine n on).swap = s.swap := by rfl
@[simp] theorem State.evcLine_resetReq (s : State) (n : Nat) (on : Bool) : (s.evcLine n on).resetReq = s.resetReq := by rfl
@[simp] theorem State.evcLine_wakeN (s : State) (n : Nat) (on : Bool) : (s.evcLine n on).wakeN = s.wakeN := by rfl
@[simp] theorem State.evcLine_rails (s : State) (n : Nat) (on : Bool) : (s.evcLine n on).rails = s.rails := by rfl
@[simp] theorem State.evcLine_railF (s : State) (n : Nat) (on : Bool) : (s.evcLine n on).railF = s.railF := by rfl
@[simp] theorem State.evcLine_avsAgain (s : State) (n : Nat) (on : Bool) : (s.evcLine n on).avsAgain = s.avsAgain := by rfl
@[simp] theorem State.evcLine_voutExp (s : State) (n : Nat) (on : Bool) : (s.evcLine n on).voutExp = s.voutExp := by rfl
@[simp] theorem State.evcLine_straps (s : State) (n : Nat) (on : Bool) : (s.evcLine n on).straps = s.straps := by rfl
@[simp] theorem State.evcLine_strm (s : State) (n : Nat) (on : Bool) (k : Nat) : (s.evcLine n on).strm k = s.strm k := by rfl
@[simp] theorem State.evcLine_gen (s : State) (n : Nat) (on : Bool) (k : Nat) : (s.evcLine n on).gen k = s.gen k := by rfl
@[simp] theorem State.evcLine_feed (s : State) (n : Nat) (on : Bool) (k : Nat) : (s.evcLine n on).feed k = s.feed k := by rfl
@[simp] theorem State.evcLine_crew (s : State) (n : Nat) (on : Bool) (k : Nat) : (s.evcLine n on).crew k = s.crew k := by rfl
@[simp] theorem State.evcLine_run (s : State) (n : Nat) (on : Bool) (k : Nat) : (s.evcLine n on).run k = s.run k := by rfl
@[simp] theorem State.evcLine_ring (s : State) (n : Nat) (on : Bool) (k : Nat) : (s.evcLine n on).ring k = s.ring k := by rfl
@[simp] theorem State.evcLine_tallySrc (s : State) (n : Nat) (on : Bool) (k : Nat) : (s.evcLine n on).tallySrc k = s.tallySrc k := by rfl
@[simp] theorem State.evcLine_cp (s : State) (n : Nat) (on : Bool) (k : Nat) : (s.evcLine n on).cp k = s.cp k := by rfl
@[simp] theorem State.evcLine_slotPicOf (s : State) (n : Nat) (on : Bool) (k : Nat) : (s.evcLine n on).slotPicOf k = s.slotPicOf k := by rfl
@[simp] theorem State.evcLine_window (s : State) (n : Nat) (on : Bool) (k : Nat) : (s.evcLine n on).window k = s.window k := by rfl
@[simp] theorem State.evcLine_frames (s : State) (n : Nat) (on : Bool) (k : Nat) : (s.evcLine n on).frames k = s.frames k := by rfl
@[simp] theorem State.evcLine_sub (s : State) (n : Nat) (on : Bool) (k : Nat) : (s.evcLine n on).sub k = s.sub k := by rfl
@[simp] theorem State.evcLine_stack (s : State) (n : Nat) (on : Bool) (k : Nat) : (s.evcLine n on).stack k = s.stack k := by rfl
@[simp] theorem State.evcLine_seq (s : State) (n : Nat) (on : Bool) (k : Nat) : (s.evcLine n on).seq k = s.seq k := by rfl
@[simp] theorem State.evcLine_hch (s : State) (n : Nat) (on : Bool) (k : Nat) : (s.evcLine n on).hch k = s.hch k := by rfl
@[simp] theorem State.evcLine_qp (s : State) (n : Nat) (on : Bool) (k : Nat) : (s.evcLine n on).qp k = s.qp k := by rfl

/-! ### setWindow -/

@[simp] theorem State.setWindow_pending (s : State) (c : Nat) (v : TWin) : (s.setWindow c v).pending = s.pending := by rfl
@[simp] theorem State.setWindow_regs (s : State) (c : Nat) (v : TWin) : (s.setWindow c v).regs = s.regs := by rfl
@[simp] theorem State.setWindow_part (s : State) (c : Nat) (v : TWin) : (s.setWindow c v).part = s.part := by rfl
@[simp] theorem State.setWindow_rst (s : State) (c : Nat) (v : TWin) : (s.setWindow c v).rst = s.rst := by rfl
@[simp] theorem State.setWindow_now (s : State) (c : Nat) (v : TWin) : (s.setWindow c v).now = s.now := by rfl
@[simp] theorem State.setWindow_prev (s : State) (c : Nat) (v : TWin) : (s.setWindow c v).prev = s.prev := by rfl
@[simp] theorem State.setWindow_cyc (s : State) (c : Nat) (v : TWin) : (s.setWindow c v).cyc = s.cyc := by rfl
@[simp] theorem State.setWindow_fired (s : State) (c : Nat) (v : TWin) : (s.setWindow c v).fired = s.fired := by rfl
@[simp] theorem State.setWindow_hot (s : State) (c : Nat) (v : TWin) : (s.setWindow c v).hot = s.hot := by rfl
@[simp] theorem State.setWindow_freed (s : State) (c : Nat) (v : TWin) : (s.setWindow c v).freed = s.freed := by rfl
@[simp] theorem State.setWindow_waitDue (s : State) (c : Nat) (v : TWin) : (s.setWindow c v).waitDue = s.waitDue := by rfl
@[simp] theorem State.setWindow_turns (s : State) (c : Nat) (v : TWin) : (s.setWindow c v).turns = s.turns := by rfl
@[simp] theorem State.setWindow_rate (s : State) (c : Nat) (v : TWin) : (s.setWindow c v).rate = s.rate := by rfl
@[simp] theorem State.setWindow_ppsNs (s : State) (c : Nat) (v : TWin) : (s.setWindow c v).ppsNs = s.ppsNs := by rfl
@[simp] theorem State.setWindow_ppsHigh (s : State) (c : Nat) (v : TWin) : (s.setWindow c v).ppsHigh = s.ppsHigh := by rfl
@[simp] theorem State.setWindow_relock (s : State) (c : Nat) (v : TWin) : (s.setWindow c v).relock = s.relock := by rfl
@[simp] theorem State.setWindow_gens (s : State) (c : Nat) (v : TWin) : (s.setWindow c v).gens = s.gens := by rfl
@[simp] theorem State.setWindow_freeCtr (s : State) (c : Nat) (v : TWin) : (s.setWindow c v).freeCtr = s.freeCtr := by rfl
@[simp] theorem State.setWindow_held (s : State) (c : Nat) (v : TWin) : (s.setWindow c v).held = s.held := by rfl
@[simp] theorem State.setWindow_heldWait (s : State) (c : Nat) (v : TWin) : (s.setWindow c v).heldWait = s.heldWait := by rfl
@[simp] theorem State.setWindow_tsrc (s : State) (c : Nat) (v : TWin) : (s.setWindow c v).tsrc = s.tsrc := by rfl
@[simp] theorem State.setWindow_gath (s : State) (c : Nat) (v : TWin) : (s.setWindow c v).gath = s.gath := by rfl
@[simp] theorem State.setWindow_claimed (s : State) (c : Nat) (v : TWin) : (s.setWindow c v).claimed = s.claimed := by rfl
@[simp] theorem State.setWindow_tgtDef (s : State) (c : Nat) (v : TWin) : (s.setWindow c v).tgtDef = s.tgtDef := by rfl
@[simp] theorem State.setWindow_holdOff (s : State) (c : Nat) (v : TWin) : (s.setWindow c v).holdOff = s.holdOff := by rfl
@[simp] theorem State.setWindow_pins (s : State) (c : Nat) (v : TWin) : (s.setWindow c v).pins = s.pins := by rfl
@[simp] theorem State.setWindow_looked (s : State) (c : Nat) (v : TWin) : (s.setWindow c v).looked = s.looked := by rfl
@[simp] theorem State.setWindow_preempt (s : State) (c : Nat) (v : TWin) : (s.setWindow c v).preempt = s.preempt := by rfl
@[simp] theorem State.setWindow_rings (s : State) (c : Nat) (v : TWin) : (s.setWindow c v).rings = s.rings := by rfl
@[simp] theorem State.setWindow_fetched (s : State) (c : Nat) (v : TWin) : (s.setWindow c v).fetched = s.fetched := by rfl
@[simp] theorem State.setWindow_lifted (s : State) (c : Nat) (v : TWin) : (s.setWindow c v).lifted = s.lifted := by rfl
@[simp] theorem State.setWindow_owed (s : State) (c : Nat) (v : TWin) : (s.setWindow c v).owed = s.owed := by rfl
@[simp] theorem State.setWindow_turn (s : State) (c : Nat) (v : TWin) : (s.setWindow c v).turn = s.turn := by rfl
@[simp] theorem State.setWindow_outbox (s : State) (c : Nat) (v : TWin) : (s.setWindow c v).outbox = s.outbox := by rfl
@[simp] theorem State.setWindow_streams (s : State) (c : Nat) (v : TWin) : (s.setWindow c v).streams = s.streams := by rfl
@[simp] theorem State.setWindow_feeds (s : State) (c : Nat) (v : TWin) : (s.setWindow c v).feeds = s.feeds := by rfl
@[simp] theorem State.setWindow_crews (s : State) (c : Nat) (v : TWin) : (s.setWindow c v).crews = s.crews := by rfl
@[simp] theorem State.setWindow_runs (s : State) (c : Nat) (v : TWin) : (s.setWindow c v).runs = s.runs := by rfl
@[simp] theorem State.setWindow_ended (s : State) (c : Nat) (v : TWin) : (s.setWindow c v).ended = s.ended := by rfl
@[simp] theorem State.setWindow_seqs (s : State) (c : Nat) (v : TWin) : (s.setWindow c v).seqs = s.seqs := by rfl
@[simp] theorem State.setWindow_therm (s : State) (c : Nat) (v : TWin) : (s.setWindow c v).therm = s.therm := by rfl
@[simp] theorem State.setWindow_progs (s : State) (c : Nat) (v : TWin) : (s.setWindow c v).progs = s.progs := by rfl
@[simp] theorem State.setWindow_scache (s : State) (c : Nat) (v : TWin) : (s.setWindow c v).scache = s.scache := by rfl
@[simp] theorem State.setWindow_slotPic (s : State) (c : Nat) (v : TWin) : (s.setWindow c v).slotPic = s.slotPic := by rfl
@[simp] theorem State.setWindow_slotSz (s : State) (c : Nat) (v : TWin) : (s.setWindow c v).slotSz = s.slotSz := by rfl
@[simp] theorem State.setWindow_slotNref (s : State) (c : Nat) (v : TWin) : (s.setWindow c v).slotNref = s.slotNref := by rfl
@[simp] theorem State.setWindow_slotC (s : State) (c : Nat) (v : TWin) : (s.setWindow c v).slotC = s.slotC := by rfl
@[simp] theorem State.setWindow_retPend (s : State) (c : Nat) (v : TWin) : (s.setWindow c v).retPend = s.retPend := by rfl
@[simp] theorem State.setWindow_egr (s : State) (c : Nat) (v : TWin) : (s.setWindow c v).egr = s.egr := by rfl
@[simp] theorem State.setWindow_txFree (s : State) (c : Nat) (v : TWin) : (s.setWindow c v).txFree = s.txFree := by rfl
@[simp] theorem State.setWindow_frameNo (s : State) (c : Nat) (v : TWin) : (s.setWindow c v).frameNo = s.frameNo := by rfl
@[simp] theorem State.setWindow_rtpSeq (s : State) (c : Nat) (v : TWin) : (s.setWindow c v).rtpSeq = s.rtpSeq := by rfl
@[simp] theorem State.setWindow_subs (s : State) (c : Nat) (v : TWin) : (s.setWindow c v).subs = s.subs := by rfl
@[simp] theorem State.setWindow_shapers (s : State) (c : Nat) (v : TWin) : (s.setWindow c v).shapers = s.shapers := by rfl
@[simp] theorem State.setWindow_gates (s : State) (c : Nat) (v : TWin) : (s.setWindow c v).gates = s.gates := by rfl
@[simp] theorem State.setWindow_ptpRx (s : State) (c : Nat) (v : TWin) : (s.setWindow c v).ptpRx = s.ptpRx := by rfl
@[simp] theorem State.setWindow_tsb (s : State) (c : Nat) (v : TWin) : (s.setWindow c v).tsb = s.tsb := by rfl
@[simp] theorem State.setWindow_ptpServo (s : State) (c : Nat) (v : TWin) : (s.setWindow c v).ptpServo = s.ptpServo := by rfl
@[simp] theorem State.setWindow_mem (s : State) (c : Nat) (v : TWin) : (s.setWindow c v).mem = s.mem := by rfl
@[simp] theorem State.setWindow_injRecs (s : State) (c : Nat) (v : TWin) : (s.setWindow c v).injRecs = s.injRecs := by rfl
@[simp] theorem State.setWindow_filled (s : State) (c : Nat) (v : TWin) : (s.setWindow c v).filled = s.filled := by rfl
@[simp] theorem State.setWindow_images (s : State) (c : Nat) (v : TWin) : (s.setWindow c v).images = s.images := by rfl
@[simp] theorem State.setWindow_chkLeft (s : State) (c : Nat) (v : TWin) : (s.setWindow c v).chkLeft = s.chkLeft := by rfl
@[simp] theorem State.setWindow_badRows (s : State) (c : Nat) (v : TWin) : (s.setWindow c v).badRows = s.badRows := by rfl
@[simp] theorem State.setWindow_lost (s : State) (c : Nat) (v : TWin) : (s.setWindow c v).lost = s.lost := by rfl
@[simp] theorem State.setWindow_celCe (s : State) (c : Nat) (v : TWin) : (s.setWindow c v).celCe = s.celCe := by rfl
@[simp] theorem State.setWindow_celDly (s : State) (c : Nat) (v : TWin) : (s.setWindow c v).celDly = s.celDly := by rfl
@[simp] theorem State.setWindow_celVref (s : State) (c : Nat) (v : TWin) : (s.setWindow c v).celVref = s.celVref := by rfl
@[simp] theorem State.setWindow_pcs (s : State) (c : Nat) (v : TWin) : (s.setWindow c v).pcs = s.pcs := by rfl
@[simp] theorem State.setWindow_stackTab (s : State) (c : Nat) (v : TWin) : (s.setWindow c v).stackTab = s.stackTab := by rfl
@[simp] theorem State.setWindow_ldrCol (s : State) (c : Nat) (v : TWin) : (s.setWindow c v).ldrCol = s.ldrCol := by rfl
@[simp] theorem State.setWindow_training (s : State) (c : Nat) (v : TWin) : (s.setWindow c v).training = s.training := by rfl
@[simp] theorem State.setWindow_adapting (s : State) (c : Nat) (v : TWin) : (s.setWindow c v).adapting = s.adapting := by rfl
@[simp] theorem State.setWindow_laneSet (s : State) (c : Nat) (v : TWin) : (s.setWindow c v).laneSet = s.laneSet := by rfl
@[simp] theorem State.setWindow_blFrom (s : State) (c : Nat) (v : TWin) : (s.setWindow c v).blFrom = s.blFrom := by rfl
@[simp] theorem State.setWindow_qps (s : State) (c : Nat) (v : TWin) : (s.setWindow c v).qps = s.qps := by rfl
@[simp] theorem State.setWindow_hchs (s : State) (c : Nat) (v : TWin) : (s.setWindow c v).hchs = s.hchs := by rfl
@[simp] theorem State.setWindow_hgrant (s : State) (c : Nat) (v : TWin) : (s.setWindow c v).hgrant = s.hgrant := by rfl
@[simp] theorem State.setWindow_ptpPos (s : State) (c : Nat) (v : TWin) : (s.setWindow c v).ptpPos = s.ptpPos := by rfl
@[simp] theorem State.setWindow_cps (s : State) (c : Nat) (v : TWin) : (s.setWindow c v).cps = s.cps := by rfl
@[simp] theorem State.setWindow_push (s : State) (c : Nat) (v : TWin) : (s.setWindow c v).push = s.push := by rfl
@[simp] theorem State.setWindow_bank0 (s : State) (c : Nat) (v : TWin) : (s.setWindow c v).bank0 = s.bank0 := by rfl
@[simp] theorem State.setWindow_bank1 (s : State) (c : Nat) (v : TWin) : (s.setWindow c v).bank1 = s.bank1 := by rfl
@[simp] theorem State.setWindow_sleep (s : State) (c : Nat) (v : TWin) : (s.setWindow c v).sleep = s.sleep := by rfl
@[simp] theorem State.setWindow_swap (s : State) (c : Nat) (v : TWin) : (s.setWindow c v).swap = s.swap := by rfl
@[simp] theorem State.setWindow_resetReq (s : State) (c : Nat) (v : TWin) : (s.setWindow c v).resetReq = s.resetReq := by rfl
@[simp] theorem State.setWindow_wakeN (s : State) (c : Nat) (v : TWin) : (s.setWindow c v).wakeN = s.wakeN := by rfl
@[simp] theorem State.setWindow_rails (s : State) (c : Nat) (v : TWin) : (s.setWindow c v).rails = s.rails := by rfl
@[simp] theorem State.setWindow_railF (s : State) (c : Nat) (v : TWin) : (s.setWindow c v).railF = s.railF := by rfl
@[simp] theorem State.setWindow_avsAgain (s : State) (c : Nat) (v : TWin) : (s.setWindow c v).avsAgain = s.avsAgain := by rfl
@[simp] theorem State.setWindow_voutExp (s : State) (c : Nat) (v : TWin) : (s.setWindow c v).voutExp = s.voutExp := by rfl
@[simp] theorem State.setWindow_straps (s : State) (c : Nat) (v : TWin) : (s.setWindow c v).straps = s.straps := by rfl
@[simp] theorem State.setWindow_strm (s : State) (c : Nat) (v : TWin) (k : Nat) : (s.setWindow c v).strm k = s.strm k := by rfl
@[simp] theorem State.setWindow_gen (s : State) (c : Nat) (v : TWin) (k : Nat) : (s.setWindow c v).gen k = s.gen k := by rfl
@[simp] theorem State.setWindow_feed (s : State) (c : Nat) (v : TWin) (k : Nat) : (s.setWindow c v).feed k = s.feed k := by rfl
@[simp] theorem State.setWindow_crew (s : State) (c : Nat) (v : TWin) (k : Nat) : (s.setWindow c v).crew k = s.crew k := by rfl
@[simp] theorem State.setWindow_run (s : State) (c : Nat) (v : TWin) (k : Nat) : (s.setWindow c v).run k = s.run k := by rfl
@[simp] theorem State.setWindow_ring (s : State) (c : Nat) (v : TWin) (k : Nat) : (s.setWindow c v).ring k = s.ring k := by rfl
@[simp] theorem State.setWindow_tallySrc (s : State) (c : Nat) (v : TWin) (k : Nat) : (s.setWindow c v).tallySrc k = s.tallySrc k := by rfl
@[simp] theorem State.setWindow_cp (s : State) (c : Nat) (v : TWin) (k : Nat) : (s.setWindow c v).cp k = s.cp k := by rfl
@[simp] theorem State.setWindow_slotPicOf (s : State) (c : Nat) (v : TWin) (k : Nat) : (s.setWindow c v).slotPicOf k = s.slotPicOf k := by rfl
@[simp] theorem State.setWindow_frames (s : State) (c : Nat) (v : TWin) (k : Nat) : (s.setWindow c v).frames k = s.frames k := by rfl
@[simp] theorem State.setWindow_sub (s : State) (c : Nat) (v : TWin) (k : Nat) : (s.setWindow c v).sub k = s.sub k := by rfl
@[simp] theorem State.setWindow_stack (s : State) (c : Nat) (v : TWin) (k : Nat) : (s.setWindow c v).stack k = s.stack k := by rfl
@[simp] theorem State.setWindow_seq (s : State) (c : Nat) (v : TWin) (k : Nat) : (s.setWindow c v).seq k = s.seq k := by rfl
@[simp] theorem State.setWindow_hch (s : State) (c : Nat) (v : TWin) (k : Nat) : (s.setWindow c v).hch k = s.hch k := by rfl
@[simp] theorem State.setWindow_qp (s : State) (c : Nat) (v : TWin) (k : Nat) : (s.setWindow c v).qp k = s.qp k := by rfl
@[simp] theorem State.setWindow_get (s : State) (c : Nat) (v : TWin) (k : RF) : (s.setWindow c v).get k = s.get k := by rfl
@[simp] theorem State.setWindow_flag (s : State) (c : Nat) (v : TWin) (k : RF) : (s.setWindow c v).flag k = s.flag k := by rfl
@[simp] theorem State.setWindow_reg (s : State) (c : Nat) (v : TWin) (k : Nat) : (s.setWindow c v).reg k = s.reg k := by rfl

/-! ### await -/

@[simp] theorem State.await_pending (s : State) (o : Owed) (w : Await) : (s.await o w).pending = s.pending := by rfl
@[simp] theorem State.await_regs (s : State) (o : Owed) (w : Await) : (s.await o w).regs = s.regs := by rfl
@[simp] theorem State.await_part (s : State) (o : Owed) (w : Await) : (s.await o w).part = s.part := by rfl
@[simp] theorem State.await_rst (s : State) (o : Owed) (w : Await) : (s.await o w).rst = s.rst := by rfl
@[simp] theorem State.await_now (s : State) (o : Owed) (w : Await) : (s.await o w).now = s.now := by rfl
@[simp] theorem State.await_prev (s : State) (o : Owed) (w : Await) : (s.await o w).prev = s.prev := by rfl
@[simp] theorem State.await_cyc (s : State) (o : Owed) (w : Await) : (s.await o w).cyc = s.cyc := by rfl
@[simp] theorem State.await_fired (s : State) (o : Owed) (w : Await) : (s.await o w).fired = s.fired := by rfl
@[simp] theorem State.await_hot (s : State) (o : Owed) (w : Await) : (s.await o w).hot = s.hot := by rfl
@[simp] theorem State.await_freed (s : State) (o : Owed) (w : Await) : (s.await o w).freed = s.freed := by rfl
@[simp] theorem State.await_waitDue (s : State) (o : Owed) (w : Await) : (s.await o w).waitDue = s.waitDue := by rfl
@[simp] theorem State.await_turns (s : State) (o : Owed) (w : Await) : (s.await o w).turns = s.turns := by rfl
@[simp] theorem State.await_rate (s : State) (o : Owed) (w : Await) : (s.await o w).rate = s.rate := by rfl
@[simp] theorem State.await_ppsNs (s : State) (o : Owed) (w : Await) : (s.await o w).ppsNs = s.ppsNs := by rfl
@[simp] theorem State.await_ppsHigh (s : State) (o : Owed) (w : Await) : (s.await o w).ppsHigh = s.ppsHigh := by rfl
@[simp] theorem State.await_relock (s : State) (o : Owed) (w : Await) : (s.await o w).relock = s.relock := by rfl
@[simp] theorem State.await_gens (s : State) (o : Owed) (w : Await) : (s.await o w).gens = s.gens := by rfl
@[simp] theorem State.await_freeCtr (s : State) (o : Owed) (w : Await) : (s.await o w).freeCtr = s.freeCtr := by rfl
@[simp] theorem State.await_held (s : State) (o : Owed) (w : Await) : (s.await o w).held = s.held := by rfl
@[simp] theorem State.await_heldWait (s : State) (o : Owed) (w : Await) : (s.await o w).heldWait = s.heldWait := by rfl
@[simp] theorem State.await_tsrc (s : State) (o : Owed) (w : Await) : (s.await o w).tsrc = s.tsrc := by rfl
@[simp] theorem State.await_twin (s : State) (o : Owed) (w : Await) : (s.await o w).twin = s.twin := by rfl
@[simp] theorem State.await_gath (s : State) (o : Owed) (w : Await) : (s.await o w).gath = s.gath := by rfl
@[simp] theorem State.await_claimed (s : State) (o : Owed) (w : Await) : (s.await o w).claimed = s.claimed := by rfl
@[simp] theorem State.await_tgtDef (s : State) (o : Owed) (w : Await) : (s.await o w).tgtDef = s.tgtDef := by rfl
@[simp] theorem State.await_holdOff (s : State) (o : Owed) (w : Await) : (s.await o w).holdOff = s.holdOff := by rfl
@[simp] theorem State.await_pins (s : State) (o : Owed) (w : Await) : (s.await o w).pins = s.pins := by rfl
@[simp] theorem State.await_looked (s : State) (o : Owed) (w : Await) : (s.await o w).looked = s.looked := by rfl
@[simp] theorem State.await_preempt (s : State) (o : Owed) (w : Await) : (s.await o w).preempt = s.preempt := by rfl
@[simp] theorem State.await_rings (s : State) (o : Owed) (w : Await) : (s.await o w).rings = s.rings := by rfl
@[simp] theorem State.await_fetched (s : State) (o : Owed) (w : Await) : (s.await o w).fetched = s.fetched := by rfl
@[simp] theorem State.await_lifted (s : State) (o : Owed) (w : Await) : (s.await o w).lifted = s.lifted := by rfl
@[simp] theorem State.await_turn (s : State) (o : Owed) (w : Await) : (s.await o w).turn = s.turn := by rfl
@[simp] theorem State.await_outbox (s : State) (o : Owed) (w : Await) : (s.await o w).outbox = s.outbox := by rfl
@[simp] theorem State.await_streams (s : State) (o : Owed) (w : Await) : (s.await o w).streams = s.streams := by rfl
@[simp] theorem State.await_feeds (s : State) (o : Owed) (w : Await) : (s.await o w).feeds = s.feeds := by rfl
@[simp] theorem State.await_crews (s : State) (o : Owed) (w : Await) : (s.await o w).crews = s.crews := by rfl
@[simp] theorem State.await_runs (s : State) (o : Owed) (w : Await) : (s.await o w).runs = s.runs := by rfl
@[simp] theorem State.await_ended (s : State) (o : Owed) (w : Await) : (s.await o w).ended = s.ended := by rfl
@[simp] theorem State.await_seqs (s : State) (o : Owed) (w : Await) : (s.await o w).seqs = s.seqs := by rfl
@[simp] theorem State.await_therm (s : State) (o : Owed) (w : Await) : (s.await o w).therm = s.therm := by rfl
@[simp] theorem State.await_progs (s : State) (o : Owed) (w : Await) : (s.await o w).progs = s.progs := by rfl
@[simp] theorem State.await_scache (s : State) (o : Owed) (w : Await) : (s.await o w).scache = s.scache := by rfl
@[simp] theorem State.await_slotPic (s : State) (o : Owed) (w : Await) : (s.await o w).slotPic = s.slotPic := by rfl
@[simp] theorem State.await_slotSz (s : State) (o : Owed) (w : Await) : (s.await o w).slotSz = s.slotSz := by rfl
@[simp] theorem State.await_slotNref (s : State) (o : Owed) (w : Await) : (s.await o w).slotNref = s.slotNref := by rfl
@[simp] theorem State.await_slotC (s : State) (o : Owed) (w : Await) : (s.await o w).slotC = s.slotC := by rfl
@[simp] theorem State.await_retPend (s : State) (o : Owed) (w : Await) : (s.await o w).retPend = s.retPend := by rfl
@[simp] theorem State.await_egr (s : State) (o : Owed) (w : Await) : (s.await o w).egr = s.egr := by rfl
@[simp] theorem State.await_txFree (s : State) (o : Owed) (w : Await) : (s.await o w).txFree = s.txFree := by rfl
@[simp] theorem State.await_frameNo (s : State) (o : Owed) (w : Await) : (s.await o w).frameNo = s.frameNo := by rfl
@[simp] theorem State.await_rtpSeq (s : State) (o : Owed) (w : Await) : (s.await o w).rtpSeq = s.rtpSeq := by rfl
@[simp] theorem State.await_subs (s : State) (o : Owed) (w : Await) : (s.await o w).subs = s.subs := by rfl
@[simp] theorem State.await_shapers (s : State) (o : Owed) (w : Await) : (s.await o w).shapers = s.shapers := by rfl
@[simp] theorem State.await_gates (s : State) (o : Owed) (w : Await) : (s.await o w).gates = s.gates := by rfl
@[simp] theorem State.await_ptpRx (s : State) (o : Owed) (w : Await) : (s.await o w).ptpRx = s.ptpRx := by rfl
@[simp] theorem State.await_tsb (s : State) (o : Owed) (w : Await) : (s.await o w).tsb = s.tsb := by rfl
@[simp] theorem State.await_ptpServo (s : State) (o : Owed) (w : Await) : (s.await o w).ptpServo = s.ptpServo := by rfl
@[simp] theorem State.await_mem (s : State) (o : Owed) (w : Await) : (s.await o w).mem = s.mem := by rfl
@[simp] theorem State.await_injRecs (s : State) (o : Owed) (w : Await) : (s.await o w).injRecs = s.injRecs := by rfl
@[simp] theorem State.await_filled (s : State) (o : Owed) (w : Await) : (s.await o w).filled = s.filled := by rfl
@[simp] theorem State.await_images (s : State) (o : Owed) (w : Await) : (s.await o w).images = s.images := by rfl
@[simp] theorem State.await_chkLeft (s : State) (o : Owed) (w : Await) : (s.await o w).chkLeft = s.chkLeft := by rfl
@[simp] theorem State.await_badRows (s : State) (o : Owed) (w : Await) : (s.await o w).badRows = s.badRows := by rfl
@[simp] theorem State.await_lost (s : State) (o : Owed) (w : Await) : (s.await o w).lost = s.lost := by rfl
@[simp] theorem State.await_celCe (s : State) (o : Owed) (w : Await) : (s.await o w).celCe = s.celCe := by rfl
@[simp] theorem State.await_celDly (s : State) (o : Owed) (w : Await) : (s.await o w).celDly = s.celDly := by rfl
@[simp] theorem State.await_celVref (s : State) (o : Owed) (w : Await) : (s.await o w).celVref = s.celVref := by rfl
@[simp] theorem State.await_pcs (s : State) (o : Owed) (w : Await) : (s.await o w).pcs = s.pcs := by rfl
@[simp] theorem State.await_stackTab (s : State) (o : Owed) (w : Await) : (s.await o w).stackTab = s.stackTab := by rfl
@[simp] theorem State.await_ldrCol (s : State) (o : Owed) (w : Await) : (s.await o w).ldrCol = s.ldrCol := by rfl
@[simp] theorem State.await_training (s : State) (o : Owed) (w : Await) : (s.await o w).training = s.training := by rfl
@[simp] theorem State.await_adapting (s : State) (o : Owed) (w : Await) : (s.await o w).adapting = s.adapting := by rfl
@[simp] theorem State.await_laneSet (s : State) (o : Owed) (w : Await) : (s.await o w).laneSet = s.laneSet := by rfl
@[simp] theorem State.await_blFrom (s : State) (o : Owed) (w : Await) : (s.await o w).blFrom = s.blFrom := by rfl
@[simp] theorem State.await_qps (s : State) (o : Owed) (w : Await) : (s.await o w).qps = s.qps := by rfl
@[simp] theorem State.await_hchs (s : State) (o : Owed) (w : Await) : (s.await o w).hchs = s.hchs := by rfl
@[simp] theorem State.await_hgrant (s : State) (o : Owed) (w : Await) : (s.await o w).hgrant = s.hgrant := by rfl
@[simp] theorem State.await_ptpPos (s : State) (o : Owed) (w : Await) : (s.await o w).ptpPos = s.ptpPos := by rfl
@[simp] theorem State.await_cps (s : State) (o : Owed) (w : Await) : (s.await o w).cps = s.cps := by rfl
@[simp] theorem State.await_push (s : State) (o : Owed) (w : Await) : (s.await o w).push = s.push := by rfl
@[simp] theorem State.await_bank0 (s : State) (o : Owed) (w : Await) : (s.await o w).bank0 = s.bank0 := by rfl
@[simp] theorem State.await_bank1 (s : State) (o : Owed) (w : Await) : (s.await o w).bank1 = s.bank1 := by rfl
@[simp] theorem State.await_sleep (s : State) (o : Owed) (w : Await) : (s.await o w).sleep = s.sleep := by rfl
@[simp] theorem State.await_swap (s : State) (o : Owed) (w : Await) : (s.await o w).swap = s.swap := by rfl
@[simp] theorem State.await_resetReq (s : State) (o : Owed) (w : Await) : (s.await o w).resetReq = s.resetReq := by rfl
@[simp] theorem State.await_wakeN (s : State) (o : Owed) (w : Await) : (s.await o w).wakeN = s.wakeN := by rfl
@[simp] theorem State.await_rails (s : State) (o : Owed) (w : Await) : (s.await o w).rails = s.rails := by rfl
@[simp] theorem State.await_railF (s : State) (o : Owed) (w : Await) : (s.await o w).railF = s.railF := by rfl
@[simp] theorem State.await_avsAgain (s : State) (o : Owed) (w : Await) : (s.await o w).avsAgain = s.avsAgain := by rfl
@[simp] theorem State.await_voutExp (s : State) (o : Owed) (w : Await) : (s.await o w).voutExp = s.voutExp := by rfl
@[simp] theorem State.await_straps (s : State) (o : Owed) (w : Await) : (s.await o w).straps = s.straps := by rfl
@[simp] theorem State.await_strm (s : State) (o : Owed) (w : Await) (k : Nat) : (s.await o w).strm k = s.strm k := by rfl
@[simp] theorem State.await_gen (s : State) (o : Owed) (w : Await) (k : Nat) : (s.await o w).gen k = s.gen k := by rfl
@[simp] theorem State.await_feed (s : State) (o : Owed) (w : Await) (k : Nat) : (s.await o w).feed k = s.feed k := by rfl
@[simp] theorem State.await_crew (s : State) (o : Owed) (w : Await) (k : Nat) : (s.await o w).crew k = s.crew k := by rfl
@[simp] theorem State.await_run (s : State) (o : Owed) (w : Await) (k : Nat) : (s.await o w).run k = s.run k := by rfl
@[simp] theorem State.await_ring (s : State) (o : Owed) (w : Await) (k : Nat) : (s.await o w).ring k = s.ring k := by rfl
@[simp] theorem State.await_tallySrc (s : State) (o : Owed) (w : Await) (k : Nat) : (s.await o w).tallySrc k = s.tallySrc k := by rfl
@[simp] theorem State.await_cp (s : State) (o : Owed) (w : Await) (k : Nat) : (s.await o w).cp k = s.cp k := by rfl
@[simp] theorem State.await_slotPicOf (s : State) (o : Owed) (w : Await) (k : Nat) : (s.await o w).slotPicOf k = s.slotPicOf k := by rfl
@[simp] theorem State.await_window (s : State) (o : Owed) (w : Await) (k : Nat) : (s.await o w).window k = s.window k := by rfl
@[simp] theorem State.await_frames (s : State) (o : Owed) (w : Await) (k : Nat) : (s.await o w).frames k = s.frames k := by rfl
@[simp] theorem State.await_sub (s : State) (o : Owed) (w : Await) (k : Nat) : (s.await o w).sub k = s.sub k := by rfl
@[simp] theorem State.await_stack (s : State) (o : Owed) (w : Await) (k : Nat) : (s.await o w).stack k = s.stack k := by rfl
@[simp] theorem State.await_seq (s : State) (o : Owed) (w : Await) (k : Nat) : (s.await o w).seq k = s.seq k := by rfl
@[simp] theorem State.await_hch (s : State) (o : Owed) (w : Await) (k : Nat) : (s.await o w).hch k = s.hch k := by rfl
@[simp] theorem State.await_qp (s : State) (o : Owed) (w : Await) (k : Nat) : (s.await o w).qp k = s.qp k := by rfl
@[simp] theorem State.await_get (s : State) (o : Owed) (w : Await) (k : RF) : (s.await o w).get k = s.get k := by rfl
@[simp] theorem State.await_flag (s : State) (o : Owed) (w : Await) (k : RF) : (s.await o w).flag k = s.flag k := by rfl
@[simp] theorem State.await_reg (s : State) (o : Owed) (w : Await) (k : Nat) : (s.await o w).reg k = s.reg k := by rfl

/-! ### setFrames -/

@[simp] theorem State.setFrames_pending (s : State) (p : Nat) (l : List Frame) : (s.setFrames p l).pending = s.pending := by rfl
@[simp] theorem State.setFrames_regs (s : State) (p : Nat) (l : List Frame) : (s.setFrames p l).regs = s.regs := by rfl
@[simp] theorem State.setFrames_part (s : State) (p : Nat) (l : List Frame) : (s.setFrames p l).part = s.part := by rfl
@[simp] theorem State.setFrames_rst (s : State) (p : Nat) (l : List Frame) : (s.setFrames p l).rst = s.rst := by rfl
@[simp] theorem State.setFrames_now (s : State) (p : Nat) (l : List Frame) : (s.setFrames p l).now = s.now := by rfl
@[simp] theorem State.setFrames_prev (s : State) (p : Nat) (l : List Frame) : (s.setFrames p l).prev = s.prev := by rfl
@[simp] theorem State.setFrames_cyc (s : State) (p : Nat) (l : List Frame) : (s.setFrames p l).cyc = s.cyc := by rfl
@[simp] theorem State.setFrames_fired (s : State) (p : Nat) (l : List Frame) : (s.setFrames p l).fired = s.fired := by rfl
@[simp] theorem State.setFrames_hot (s : State) (p : Nat) (l : List Frame) : (s.setFrames p l).hot = s.hot := by rfl
@[simp] theorem State.setFrames_freed (s : State) (p : Nat) (l : List Frame) : (s.setFrames p l).freed = s.freed := by rfl
@[simp] theorem State.setFrames_waitDue (s : State) (p : Nat) (l : List Frame) : (s.setFrames p l).waitDue = s.waitDue := by rfl
@[simp] theorem State.setFrames_turns (s : State) (p : Nat) (l : List Frame) : (s.setFrames p l).turns = s.turns := by rfl
@[simp] theorem State.setFrames_rate (s : State) (p : Nat) (l : List Frame) : (s.setFrames p l).rate = s.rate := by rfl
@[simp] theorem State.setFrames_ppsNs (s : State) (p : Nat) (l : List Frame) : (s.setFrames p l).ppsNs = s.ppsNs := by rfl
@[simp] theorem State.setFrames_ppsHigh (s : State) (p : Nat) (l : List Frame) : (s.setFrames p l).ppsHigh = s.ppsHigh := by rfl
@[simp] theorem State.setFrames_relock (s : State) (p : Nat) (l : List Frame) : (s.setFrames p l).relock = s.relock := by rfl
@[simp] theorem State.setFrames_gens (s : State) (p : Nat) (l : List Frame) : (s.setFrames p l).gens = s.gens := by rfl
@[simp] theorem State.setFrames_freeCtr (s : State) (p : Nat) (l : List Frame) : (s.setFrames p l).freeCtr = s.freeCtr := by rfl
@[simp] theorem State.setFrames_held (s : State) (p : Nat) (l : List Frame) : (s.setFrames p l).held = s.held := by rfl
@[simp] theorem State.setFrames_heldWait (s : State) (p : Nat) (l : List Frame) : (s.setFrames p l).heldWait = s.heldWait := by rfl
@[simp] theorem State.setFrames_tsrc (s : State) (p : Nat) (l : List Frame) : (s.setFrames p l).tsrc = s.tsrc := by rfl
@[simp] theorem State.setFrames_twin (s : State) (p : Nat) (l : List Frame) : (s.setFrames p l).twin = s.twin := by rfl
@[simp] theorem State.setFrames_gath (s : State) (p : Nat) (l : List Frame) : (s.setFrames p l).gath = s.gath := by rfl
@[simp] theorem State.setFrames_claimed (s : State) (p : Nat) (l : List Frame) : (s.setFrames p l).claimed = s.claimed := by rfl
@[simp] theorem State.setFrames_tgtDef (s : State) (p : Nat) (l : List Frame) : (s.setFrames p l).tgtDef = s.tgtDef := by rfl
@[simp] theorem State.setFrames_holdOff (s : State) (p : Nat) (l : List Frame) : (s.setFrames p l).holdOff = s.holdOff := by rfl
@[simp] theorem State.setFrames_pins (s : State) (p : Nat) (l : List Frame) : (s.setFrames p l).pins = s.pins := by rfl
@[simp] theorem State.setFrames_looked (s : State) (p : Nat) (l : List Frame) : (s.setFrames p l).looked = s.looked := by rfl
@[simp] theorem State.setFrames_preempt (s : State) (p : Nat) (l : List Frame) : (s.setFrames p l).preempt = s.preempt := by rfl
@[simp] theorem State.setFrames_rings (s : State) (p : Nat) (l : List Frame) : (s.setFrames p l).rings = s.rings := by rfl
@[simp] theorem State.setFrames_fetched (s : State) (p : Nat) (l : List Frame) : (s.setFrames p l).fetched = s.fetched := by rfl
@[simp] theorem State.setFrames_lifted (s : State) (p : Nat) (l : List Frame) : (s.setFrames p l).lifted = s.lifted := by rfl
@[simp] theorem State.setFrames_owed (s : State) (p : Nat) (l : List Frame) : (s.setFrames p l).owed = s.owed := by rfl
@[simp] theorem State.setFrames_turn (s : State) (p : Nat) (l : List Frame) : (s.setFrames p l).turn = s.turn := by rfl
@[simp] theorem State.setFrames_outbox (s : State) (p : Nat) (l : List Frame) : (s.setFrames p l).outbox = s.outbox := by rfl
@[simp] theorem State.setFrames_streams (s : State) (p : Nat) (l : List Frame) : (s.setFrames p l).streams = s.streams := by rfl
@[simp] theorem State.setFrames_feeds (s : State) (p : Nat) (l : List Frame) : (s.setFrames p l).feeds = s.feeds := by rfl
@[simp] theorem State.setFrames_crews (s : State) (p : Nat) (l : List Frame) : (s.setFrames p l).crews = s.crews := by rfl
@[simp] theorem State.setFrames_runs (s : State) (p : Nat) (l : List Frame) : (s.setFrames p l).runs = s.runs := by rfl
@[simp] theorem State.setFrames_ended (s : State) (p : Nat) (l : List Frame) : (s.setFrames p l).ended = s.ended := by rfl
@[simp] theorem State.setFrames_seqs (s : State) (p : Nat) (l : List Frame) : (s.setFrames p l).seqs = s.seqs := by rfl
@[simp] theorem State.setFrames_therm (s : State) (p : Nat) (l : List Frame) : (s.setFrames p l).therm = s.therm := by rfl
@[simp] theorem State.setFrames_progs (s : State) (p : Nat) (l : List Frame) : (s.setFrames p l).progs = s.progs := by rfl
@[simp] theorem State.setFrames_scache (s : State) (p : Nat) (l : List Frame) : (s.setFrames p l).scache = s.scache := by rfl
@[simp] theorem State.setFrames_slotPic (s : State) (p : Nat) (l : List Frame) : (s.setFrames p l).slotPic = s.slotPic := by rfl
@[simp] theorem State.setFrames_slotSz (s : State) (p : Nat) (l : List Frame) : (s.setFrames p l).slotSz = s.slotSz := by rfl
@[simp] theorem State.setFrames_slotNref (s : State) (p : Nat) (l : List Frame) : (s.setFrames p l).slotNref = s.slotNref := by rfl
@[simp] theorem State.setFrames_slotC (s : State) (p : Nat) (l : List Frame) : (s.setFrames p l).slotC = s.slotC := by rfl
@[simp] theorem State.setFrames_retPend (s : State) (p : Nat) (l : List Frame) : (s.setFrames p l).retPend = s.retPend := by rfl
@[simp] theorem State.setFrames_txFree (s : State) (p : Nat) (l : List Frame) : (s.setFrames p l).txFree = s.txFree := by rfl
@[simp] theorem State.setFrames_frameNo (s : State) (p : Nat) (l : List Frame) : (s.setFrames p l).frameNo = s.frameNo := by rfl
@[simp] theorem State.setFrames_rtpSeq (s : State) (p : Nat) (l : List Frame) : (s.setFrames p l).rtpSeq = s.rtpSeq := by rfl
@[simp] theorem State.setFrames_subs (s : State) (p : Nat) (l : List Frame) : (s.setFrames p l).subs = s.subs := by rfl
@[simp] theorem State.setFrames_shapers (s : State) (p : Nat) (l : List Frame) : (s.setFrames p l).shapers = s.shapers := by rfl
@[simp] theorem State.setFrames_gates (s : State) (p : Nat) (l : List Frame) : (s.setFrames p l).gates = s.gates := by rfl
@[simp] theorem State.setFrames_ptpRx (s : State) (p : Nat) (l : List Frame) : (s.setFrames p l).ptpRx = s.ptpRx := by rfl
@[simp] theorem State.setFrames_tsb (s : State) (p : Nat) (l : List Frame) : (s.setFrames p l).tsb = s.tsb := by rfl
@[simp] theorem State.setFrames_ptpServo (s : State) (p : Nat) (l : List Frame) : (s.setFrames p l).ptpServo = s.ptpServo := by rfl
@[simp] theorem State.setFrames_mem (s : State) (p : Nat) (l : List Frame) : (s.setFrames p l).mem = s.mem := by rfl
@[simp] theorem State.setFrames_injRecs (s : State) (p : Nat) (l : List Frame) : (s.setFrames p l).injRecs = s.injRecs := by rfl
@[simp] theorem State.setFrames_filled (s : State) (p : Nat) (l : List Frame) : (s.setFrames p l).filled = s.filled := by rfl
@[simp] theorem State.setFrames_images (s : State) (p : Nat) (l : List Frame) : (s.setFrames p l).images = s.images := by rfl
@[simp] theorem State.setFrames_chkLeft (s : State) (p : Nat) (l : List Frame) : (s.setFrames p l).chkLeft = s.chkLeft := by rfl
@[simp] theorem State.setFrames_badRows (s : State) (p : Nat) (l : List Frame) : (s.setFrames p l).badRows = s.badRows := by rfl
@[simp] theorem State.setFrames_lost (s : State) (p : Nat) (l : List Frame) : (s.setFrames p l).lost = s.lost := by rfl
@[simp] theorem State.setFrames_celCe (s : State) (p : Nat) (l : List Frame) : (s.setFrames p l).celCe = s.celCe := by rfl
@[simp] theorem State.setFrames_celDly (s : State) (p : Nat) (l : List Frame) : (s.setFrames p l).celDly = s.celDly := by rfl
@[simp] theorem State.setFrames_celVref (s : State) (p : Nat) (l : List Frame) : (s.setFrames p l).celVref = s.celVref := by rfl
@[simp] theorem State.setFrames_pcs (s : State) (p : Nat) (l : List Frame) : (s.setFrames p l).pcs = s.pcs := by rfl
@[simp] theorem State.setFrames_stackTab (s : State) (p : Nat) (l : List Frame) : (s.setFrames p l).stackTab = s.stackTab := by rfl
@[simp] theorem State.setFrames_ldrCol (s : State) (p : Nat) (l : List Frame) : (s.setFrames p l).ldrCol = s.ldrCol := by rfl
@[simp] theorem State.setFrames_training (s : State) (p : Nat) (l : List Frame) : (s.setFrames p l).training = s.training := by rfl
@[simp] theorem State.setFrames_adapting (s : State) (p : Nat) (l : List Frame) : (s.setFrames p l).adapting = s.adapting := by rfl
@[simp] theorem State.setFrames_laneSet (s : State) (p : Nat) (l : List Frame) : (s.setFrames p l).laneSet = s.laneSet := by rfl
@[simp] theorem State.setFrames_blFrom (s : State) (p : Nat) (l : List Frame) : (s.setFrames p l).blFrom = s.blFrom := by rfl
@[simp] theorem State.setFrames_qps (s : State) (p : Nat) (l : List Frame) : (s.setFrames p l).qps = s.qps := by rfl
@[simp] theorem State.setFrames_hchs (s : State) (p : Nat) (l : List Frame) : (s.setFrames p l).hchs = s.hchs := by rfl
@[simp] theorem State.setFrames_hgrant (s : State) (p : Nat) (l : List Frame) : (s.setFrames p l).hgrant = s.hgrant := by rfl
@[simp] theorem State.setFrames_ptpPos (s : State) (p : Nat) (l : List Frame) : (s.setFrames p l).ptpPos = s.ptpPos := by rfl
@[simp] theorem State.setFrames_cps (s : State) (p : Nat) (l : List Frame) : (s.setFrames p l).cps = s.cps := by rfl
@[simp] theorem State.setFrames_push (s : State) (p : Nat) (l : List Frame) : (s.setFrames p l).push = s.push := by rfl
@[simp] theorem State.setFrames_bank0 (s : State) (p : Nat) (l : List Frame) : (s.setFrames p l).bank0 = s.bank0 := by rfl
@[simp] theorem State.setFrames_bank1 (s : State) (p : Nat) (l : List Frame) : (s.setFrames p l).bank1 = s.bank1 := by rfl
@[simp] theorem State.setFrames_sleep (s : State) (p : Nat) (l : List Frame) : (s.setFrames p l).sleep = s.sleep := by rfl
@[simp] theorem State.setFrames_swap (s : State) (p : Nat) (l : List Frame) : (s.setFrames p l).swap = s.swap := by rfl
@[simp] theorem State.setFrames_resetReq (s : State) (p : Nat) (l : List Frame) : (s.setFrames p l).resetReq = s.resetReq := by rfl
@[simp] theorem State.setFrames_wakeN (s : State) (p : Nat) (l : List Frame) : (s.setFrames p l).wakeN = s.wakeN := by rfl
@[simp] theorem State.setFrames_rails (s : State) (p : Nat) (l : List Frame) : (s.setFrames p l).rails = s.rails := by rfl
@[simp] theorem State.setFrames_railF (s : State) (p : Nat) (l : List Frame) : (s.setFrames p l).railF = s.railF := by rfl
@[simp] theorem State.setFrames_avsAgain (s : State) (p : Nat) (l : List Frame) : (s.setFrames p l).avsAgain = s.avsAgain := by rfl
@[simp] theorem State.setFrames_voutExp (s : State) (p : Nat) (l : List Frame) : (s.setFrames p l).voutExp = s.voutExp := by rfl
@[simp] theorem State.setFrames_straps (s : State) (p : Nat) (l : List Frame) : (s.setFrames p l).straps = s.straps := by rfl
@[simp] theorem State.setFrames_strm (s : State) (p : Nat) (l : List Frame) (k : Nat) : (s.setFrames p l).strm k = s.strm k := by rfl
@[simp] theorem State.setFrames_gen (s : State) (p : Nat) (l : List Frame) (k : Nat) : (s.setFrames p l).gen k = s.gen k := by rfl
@[simp] theorem State.setFrames_feed (s : State) (p : Nat) (l : List Frame) (k : Nat) : (s.setFrames p l).feed k = s.feed k := by rfl
@[simp] theorem State.setFrames_crew (s : State) (p : Nat) (l : List Frame) (k : Nat) : (s.setFrames p l).crew k = s.crew k := by rfl
@[simp] theorem State.setFrames_run (s : State) (p : Nat) (l : List Frame) (k : Nat) : (s.setFrames p l).run k = s.run k := by rfl
@[simp] theorem State.setFrames_ring (s : State) (p : Nat) (l : List Frame) (k : Nat) : (s.setFrames p l).ring k = s.ring k := by rfl
@[simp] theorem State.setFrames_tallySrc (s : State) (p : Nat) (l : List Frame) (k : Nat) : (s.setFrames p l).tallySrc k = s.tallySrc k := by rfl
@[simp] theorem State.setFrames_cp (s : State) (p : Nat) (l : List Frame) (k : Nat) : (s.setFrames p l).cp k = s.cp k := by rfl
@[simp] theorem State.setFrames_slotPicOf (s : State) (p : Nat) (l : List Frame) (k : Nat) : (s.setFrames p l).slotPicOf k = s.slotPicOf k := by rfl
@[simp] theorem State.setFrames_window (s : State) (p : Nat) (l : List Frame) (k : Nat) : (s.setFrames p l).window k = s.window k := by rfl
@[simp] theorem State.setFrames_sub (s : State) (p : Nat) (l : List Frame) (k : Nat) : (s.setFrames p l).sub k = s.sub k := by rfl
@[simp] theorem State.setFrames_stack (s : State) (p : Nat) (l : List Frame) (k : Nat) : (s.setFrames p l).stack k = s.stack k := by rfl
@[simp] theorem State.setFrames_seq (s : State) (p : Nat) (l : List Frame) (k : Nat) : (s.setFrames p l).seq k = s.seq k := by rfl
@[simp] theorem State.setFrames_hch (s : State) (p : Nat) (l : List Frame) (k : Nat) : (s.setFrames p l).hch k = s.hch k := by rfl
@[simp] theorem State.setFrames_qp (s : State) (p : Nat) (l : List Frame) (k : Nat) : (s.setFrames p l).qp k = s.qp k := by rfl
@[simp] theorem State.setFrames_get (s : State) (p : Nat) (l : List Frame) (k : RF) : (s.setFrames p l).get k = s.get k := by rfl
@[simp] theorem State.setFrames_flag (s : State) (p : Nat) (l : List Frame) (k : RF) : (s.setFrames p l).flag k = s.flag k := by rfl
@[simp] theorem State.setFrames_reg (s : State) (p : Nat) (l : List Frame) (k : Nat) : (s.setFrames p l).reg k = s.reg k := by rfl

/-! ### putFrame -/

@[simp] theorem State.putFrame_pending (s : State) (p : Nat) (f : Frame) : (s.putFrame p f).pending = s.pending := by rfl
@[simp] theorem State.putFrame_regs (s : State) (p : Nat) (f : Frame) : (s.putFrame p f).regs = s.regs := by rfl
@[simp] theorem State.putFrame_part (s : State) (p : Nat) (f : Frame) : (s.putFrame p f).part = s.part := by rfl
@[simp] theorem State.putFrame_rst (s : State) (p : Nat) (f : Frame) : (s.putFrame p f).rst = s.rst := by rfl
@[simp] theorem State.putFrame_now (s : State) (p : Nat) (f : Frame) : (s.putFrame p f).now = s.now := by rfl
@[simp] theorem State.putFrame_prev (s : State) (p : Nat) (f : Frame) : (s.putFrame p f).prev = s.prev := by rfl
@[simp] theorem State.putFrame_cyc (s : State) (p : Nat) (f : Frame) : (s.putFrame p f).cyc = s.cyc := by rfl
@[simp] theorem State.putFrame_fired (s : State) (p : Nat) (f : Frame) : (s.putFrame p f).fired = s.fired := by rfl
@[simp] theorem State.putFrame_hot (s : State) (p : Nat) (f : Frame) : (s.putFrame p f).hot = s.hot := by rfl
@[simp] theorem State.putFrame_freed (s : State) (p : Nat) (f : Frame) : (s.putFrame p f).freed = s.freed := by rfl
@[simp] theorem State.putFrame_waitDue (s : State) (p : Nat) (f : Frame) : (s.putFrame p f).waitDue = s.waitDue := by rfl
@[simp] theorem State.putFrame_turns (s : State) (p : Nat) (f : Frame) : (s.putFrame p f).turns = s.turns := by rfl
@[simp] theorem State.putFrame_rate (s : State) (p : Nat) (f : Frame) : (s.putFrame p f).rate = s.rate := by rfl
@[simp] theorem State.putFrame_ppsNs (s : State) (p : Nat) (f : Frame) : (s.putFrame p f).ppsNs = s.ppsNs := by rfl
@[simp] theorem State.putFrame_ppsHigh (s : State) (p : Nat) (f : Frame) : (s.putFrame p f).ppsHigh = s.ppsHigh := by rfl
@[simp] theorem State.putFrame_relock (s : State) (p : Nat) (f : Frame) : (s.putFrame p f).relock = s.relock := by rfl
@[simp] theorem State.putFrame_gens (s : State) (p : Nat) (f : Frame) : (s.putFrame p f).gens = s.gens := by rfl
@[simp] theorem State.putFrame_freeCtr (s : State) (p : Nat) (f : Frame) : (s.putFrame p f).freeCtr = s.freeCtr := by rfl
@[simp] theorem State.putFrame_held (s : State) (p : Nat) (f : Frame) : (s.putFrame p f).held = s.held := by rfl
@[simp] theorem State.putFrame_heldWait (s : State) (p : Nat) (f : Frame) : (s.putFrame p f).heldWait = s.heldWait := by rfl
@[simp] theorem State.putFrame_tsrc (s : State) (p : Nat) (f : Frame) : (s.putFrame p f).tsrc = s.tsrc := by rfl
@[simp] theorem State.putFrame_twin (s : State) (p : Nat) (f : Frame) : (s.putFrame p f).twin = s.twin := by rfl
@[simp] theorem State.putFrame_gath (s : State) (p : Nat) (f : Frame) : (s.putFrame p f).gath = s.gath := by rfl
@[simp] theorem State.putFrame_claimed (s : State) (p : Nat) (f : Frame) : (s.putFrame p f).claimed = s.claimed := by rfl
@[simp] theorem State.putFrame_tgtDef (s : State) (p : Nat) (f : Frame) : (s.putFrame p f).tgtDef = s.tgtDef := by rfl
@[simp] theorem State.putFrame_holdOff (s : State) (p : Nat) (f : Frame) : (s.putFrame p f).holdOff = s.holdOff := by rfl
@[simp] theorem State.putFrame_pins (s : State) (p : Nat) (f : Frame) : (s.putFrame p f).pins = s.pins := by rfl
@[simp] theorem State.putFrame_looked (s : State) (p : Nat) (f : Frame) : (s.putFrame p f).looked = s.looked := by rfl
@[simp] theorem State.putFrame_preempt (s : State) (p : Nat) (f : Frame) : (s.putFrame p f).preempt = s.preempt := by rfl
@[simp] theorem State.putFrame_rings (s : State) (p : Nat) (f : Frame) : (s.putFrame p f).rings = s.rings := by rfl
@[simp] theorem State.putFrame_fetched (s : State) (p : Nat) (f : Frame) : (s.putFrame p f).fetched = s.fetched := by rfl
@[simp] theorem State.putFrame_lifted (s : State) (p : Nat) (f : Frame) : (s.putFrame p f).lifted = s.lifted := by rfl
@[simp] theorem State.putFrame_owed (s : State) (p : Nat) (f : Frame) : (s.putFrame p f).owed = s.owed := by rfl
@[simp] theorem State.putFrame_turn (s : State) (p : Nat) (f : Frame) : (s.putFrame p f).turn = s.turn := by rfl
@[simp] theorem State.putFrame_outbox (s : State) (p : Nat) (f : Frame) : (s.putFrame p f).outbox = s.outbox := by rfl
@[simp] theorem State.putFrame_streams (s : State) (p : Nat) (f : Frame) : (s.putFrame p f).streams = s.streams := by rfl
@[simp] theorem State.putFrame_feeds (s : State) (p : Nat) (f : Frame) : (s.putFrame p f).feeds = s.feeds := by rfl
@[simp] theorem State.putFrame_crews (s : State) (p : Nat) (f : Frame) : (s.putFrame p f).crews = s.crews := by rfl
@[simp] theorem State.putFrame_runs (s : State) (p : Nat) (f : Frame) : (s.putFrame p f).runs = s.runs := by rfl
@[simp] theorem State.putFrame_ended (s : State) (p : Nat) (f : Frame) : (s.putFrame p f).ended = s.ended := by rfl
@[simp] theorem State.putFrame_seqs (s : State) (p : Nat) (f : Frame) : (s.putFrame p f).seqs = s.seqs := by rfl
@[simp] theorem State.putFrame_therm (s : State) (p : Nat) (f : Frame) : (s.putFrame p f).therm = s.therm := by rfl
@[simp] theorem State.putFrame_progs (s : State) (p : Nat) (f : Frame) : (s.putFrame p f).progs = s.progs := by rfl
@[simp] theorem State.putFrame_scache (s : State) (p : Nat) (f : Frame) : (s.putFrame p f).scache = s.scache := by rfl
@[simp] theorem State.putFrame_slotPic (s : State) (p : Nat) (f : Frame) : (s.putFrame p f).slotPic = s.slotPic := by rfl
@[simp] theorem State.putFrame_slotSz (s : State) (p : Nat) (f : Frame) : (s.putFrame p f).slotSz = s.slotSz := by rfl
@[simp] theorem State.putFrame_slotNref (s : State) (p : Nat) (f : Frame) : (s.putFrame p f).slotNref = s.slotNref := by rfl
@[simp] theorem State.putFrame_slotC (s : State) (p : Nat) (f : Frame) : (s.putFrame p f).slotC = s.slotC := by rfl
@[simp] theorem State.putFrame_retPend (s : State) (p : Nat) (f : Frame) : (s.putFrame p f).retPend = s.retPend := by rfl
@[simp] theorem State.putFrame_txFree (s : State) (p : Nat) (f : Frame) : (s.putFrame p f).txFree = s.txFree := by rfl
@[simp] theorem State.putFrame_frameNo (s : State) (p : Nat) (f : Frame) : (s.putFrame p f).frameNo = s.frameNo := by rfl
@[simp] theorem State.putFrame_rtpSeq (s : State) (p : Nat) (f : Frame) : (s.putFrame p f).rtpSeq = s.rtpSeq := by rfl
@[simp] theorem State.putFrame_subs (s : State) (p : Nat) (f : Frame) : (s.putFrame p f).subs = s.subs := by rfl
@[simp] theorem State.putFrame_shapers (s : State) (p : Nat) (f : Frame) : (s.putFrame p f).shapers = s.shapers := by rfl
@[simp] theorem State.putFrame_gates (s : State) (p : Nat) (f : Frame) : (s.putFrame p f).gates = s.gates := by rfl
@[simp] theorem State.putFrame_ptpRx (s : State) (p : Nat) (f : Frame) : (s.putFrame p f).ptpRx = s.ptpRx := by rfl
@[simp] theorem State.putFrame_tsb (s : State) (p : Nat) (f : Frame) : (s.putFrame p f).tsb = s.tsb := by rfl
@[simp] theorem State.putFrame_ptpServo (s : State) (p : Nat) (f : Frame) : (s.putFrame p f).ptpServo = s.ptpServo := by rfl
@[simp] theorem State.putFrame_mem (s : State) (p : Nat) (f : Frame) : (s.putFrame p f).mem = s.mem := by rfl
@[simp] theorem State.putFrame_injRecs (s : State) (p : Nat) (f : Frame) : (s.putFrame p f).injRecs = s.injRecs := by rfl
@[simp] theorem State.putFrame_filled (s : State) (p : Nat) (f : Frame) : (s.putFrame p f).filled = s.filled := by rfl
@[simp] theorem State.putFrame_images (s : State) (p : Nat) (f : Frame) : (s.putFrame p f).images = s.images := by rfl
@[simp] theorem State.putFrame_chkLeft (s : State) (p : Nat) (f : Frame) : (s.putFrame p f).chkLeft = s.chkLeft := by rfl
@[simp] theorem State.putFrame_badRows (s : State) (p : Nat) (f : Frame) : (s.putFrame p f).badRows = s.badRows := by rfl
@[simp] theorem State.putFrame_lost (s : State) (p : Nat) (f : Frame) : (s.putFrame p f).lost = s.lost := by rfl
@[simp] theorem State.putFrame_celCe (s : State) (p : Nat) (f : Frame) : (s.putFrame p f).celCe = s.celCe := by rfl
@[simp] theorem State.putFrame_celDly (s : State) (p : Nat) (f : Frame) : (s.putFrame p f).celDly = s.celDly := by rfl
@[simp] theorem State.putFrame_celVref (s : State) (p : Nat) (f : Frame) : (s.putFrame p f).celVref = s.celVref := by rfl
@[simp] theorem State.putFrame_pcs (s : State) (p : Nat) (f : Frame) : (s.putFrame p f).pcs = s.pcs := by rfl
@[simp] theorem State.putFrame_stackTab (s : State) (p : Nat) (f : Frame) : (s.putFrame p f).stackTab = s.stackTab := by rfl
@[simp] theorem State.putFrame_ldrCol (s : State) (p : Nat) (f : Frame) : (s.putFrame p f).ldrCol = s.ldrCol := by rfl
@[simp] theorem State.putFrame_training (s : State) (p : Nat) (f : Frame) : (s.putFrame p f).training = s.training := by rfl
@[simp] theorem State.putFrame_adapting (s : State) (p : Nat) (f : Frame) : (s.putFrame p f).adapting = s.adapting := by rfl
@[simp] theorem State.putFrame_laneSet (s : State) (p : Nat) (f : Frame) : (s.putFrame p f).laneSet = s.laneSet := by rfl
@[simp] theorem State.putFrame_blFrom (s : State) (p : Nat) (f : Frame) : (s.putFrame p f).blFrom = s.blFrom := by rfl
@[simp] theorem State.putFrame_qps (s : State) (p : Nat) (f : Frame) : (s.putFrame p f).qps = s.qps := by rfl
@[simp] theorem State.putFrame_hchs (s : State) (p : Nat) (f : Frame) : (s.putFrame p f).hchs = s.hchs := by rfl
@[simp] theorem State.putFrame_hgrant (s : State) (p : Nat) (f : Frame) : (s.putFrame p f).hgrant = s.hgrant := by rfl
@[simp] theorem State.putFrame_ptpPos (s : State) (p : Nat) (f : Frame) : (s.putFrame p f).ptpPos = s.ptpPos := by rfl
@[simp] theorem State.putFrame_cps (s : State) (p : Nat) (f : Frame) : (s.putFrame p f).cps = s.cps := by rfl
@[simp] theorem State.putFrame_push (s : State) (p : Nat) (f : Frame) : (s.putFrame p f).push = s.push := by rfl
@[simp] theorem State.putFrame_bank0 (s : State) (p : Nat) (f : Frame) : (s.putFrame p f).bank0 = s.bank0 := by rfl
@[simp] theorem State.putFrame_bank1 (s : State) (p : Nat) (f : Frame) : (s.putFrame p f).bank1 = s.bank1 := by rfl
@[simp] theorem State.putFrame_sleep (s : State) (p : Nat) (f : Frame) : (s.putFrame p f).sleep = s.sleep := by rfl
@[simp] theorem State.putFrame_swap (s : State) (p : Nat) (f : Frame) : (s.putFrame p f).swap = s.swap := by rfl
@[simp] theorem State.putFrame_resetReq (s : State) (p : Nat) (f : Frame) : (s.putFrame p f).resetReq = s.resetReq := by rfl
@[simp] theorem State.putFrame_wakeN (s : State) (p : Nat) (f : Frame) : (s.putFrame p f).wakeN = s.wakeN := by rfl
@[simp] theorem State.putFrame_rails (s : State) (p : Nat) (f : Frame) : (s.putFrame p f).rails = s.rails := by rfl
@[simp] theorem State.putFrame_railF (s : State) (p : Nat) (f : Frame) : (s.putFrame p f).railF = s.railF := by rfl
@[simp] theorem State.putFrame_avsAgain (s : State) (p : Nat) (f : Frame) : (s.putFrame p f).avsAgain = s.avsAgain := by rfl
@[simp] theorem State.putFrame_voutExp (s : State) (p : Nat) (f : Frame) : (s.putFrame p f).voutExp = s.voutExp := by rfl
@[simp] theorem State.putFrame_straps (s : State) (p : Nat) (f : Frame) : (s.putFrame p f).straps = s.straps := by rfl
@[simp] theorem State.putFrame_strm (s : State) (p : Nat) (f : Frame) (k : Nat) : (s.putFrame p f).strm k = s.strm k := by rfl
@[simp] theorem State.putFrame_gen (s : State) (p : Nat) (f : Frame) (k : Nat) : (s.putFrame p f).gen k = s.gen k := by rfl
@[simp] theorem State.putFrame_feed (s : State) (p : Nat) (f : Frame) (k : Nat) : (s.putFrame p f).feed k = s.feed k := by rfl
@[simp] theorem State.putFrame_crew (s : State) (p : Nat) (f : Frame) (k : Nat) : (s.putFrame p f).crew k = s.crew k := by rfl
@[simp] theorem State.putFrame_run (s : State) (p : Nat) (f : Frame) (k : Nat) : (s.putFrame p f).run k = s.run k := by rfl
@[simp] theorem State.putFrame_ring (s : State) (p : Nat) (f : Frame) (k : Nat) : (s.putFrame p f).ring k = s.ring k := by rfl
@[simp] theorem State.putFrame_tallySrc (s : State) (p : Nat) (f : Frame) (k : Nat) : (s.putFrame p f).tallySrc k = s.tallySrc k := by rfl
@[simp] theorem State.putFrame_cp (s : State) (p : Nat) (f : Frame) (k : Nat) : (s.putFrame p f).cp k = s.cp k := by rfl
@[simp] theorem State.putFrame_slotPicOf (s : State) (p : Nat) (f : Frame) (k : Nat) : (s.putFrame p f).slotPicOf k = s.slotPicOf k := by rfl
@[simp] theorem State.putFrame_window (s : State) (p : Nat) (f : Frame) (k : Nat) : (s.putFrame p f).window k = s.window k := by rfl
@[simp] theorem State.putFrame_sub (s : State) (p : Nat) (f : Frame) (k : Nat) : (s.putFrame p f).sub k = s.sub k := by rfl
@[simp] theorem State.putFrame_stack (s : State) (p : Nat) (f : Frame) (k : Nat) : (s.putFrame p f).stack k = s.stack k := by rfl
@[simp] theorem State.putFrame_seq (s : State) (p : Nat) (f : Frame) (k : Nat) : (s.putFrame p f).seq k = s.seq k := by rfl
@[simp] theorem State.putFrame_hch (s : State) (p : Nat) (f : Frame) (k : Nat) : (s.putFrame p f).hch k = s.hch k := by rfl
@[simp] theorem State.putFrame_qp (s : State) (p : Nat) (f : Frame) (k : Nat) : (s.putFrame p f).qp k = s.qp k := by rfl
@[simp] theorem State.putFrame_get (s : State) (p : Nat) (f : Frame) (k : RF) : (s.putFrame p f).get k = s.get k := by rfl
@[simp] theorem State.putFrame_flag (s : State) (p : Nat) (f : Frame) (k : RF) : (s.putFrame p f).flag k = s.flag k := by rfl
@[simp] theorem State.putFrame_reg (s : State) (p : Nat) (f : Frame) (k : Nat) : (s.putFrame p f).reg k = s.reg k := by rfl

/-! ### setSub -/

@[simp] theorem State.setSub_pending (s : State) (i : Nat) (v : Option SubS) : (s.setSub i v).pending = s.pending := by rfl
@[simp] theorem State.setSub_regs (s : State) (i : Nat) (v : Option SubS) : (s.setSub i v).regs = s.regs := by rfl
@[simp] theorem State.setSub_part (s : State) (i : Nat) (v : Option SubS) : (s.setSub i v).part = s.part := by rfl
@[simp] theorem State.setSub_rst (s : State) (i : Nat) (v : Option SubS) : (s.setSub i v).rst = s.rst := by rfl
@[simp] theorem State.setSub_now (s : State) (i : Nat) (v : Option SubS) : (s.setSub i v).now = s.now := by rfl
@[simp] theorem State.setSub_prev (s : State) (i : Nat) (v : Option SubS) : (s.setSub i v).prev = s.prev := by rfl
@[simp] theorem State.setSub_cyc (s : State) (i : Nat) (v : Option SubS) : (s.setSub i v).cyc = s.cyc := by rfl
@[simp] theorem State.setSub_fired (s : State) (i : Nat) (v : Option SubS) : (s.setSub i v).fired = s.fired := by rfl
@[simp] theorem State.setSub_hot (s : State) (i : Nat) (v : Option SubS) : (s.setSub i v).hot = s.hot := by rfl
@[simp] theorem State.setSub_freed (s : State) (i : Nat) (v : Option SubS) : (s.setSub i v).freed = s.freed := by rfl
@[simp] theorem State.setSub_waitDue (s : State) (i : Nat) (v : Option SubS) : (s.setSub i v).waitDue = s.waitDue := by rfl
@[simp] theorem State.setSub_turns (s : State) (i : Nat) (v : Option SubS) : (s.setSub i v).turns = s.turns := by rfl
@[simp] theorem State.setSub_rate (s : State) (i : Nat) (v : Option SubS) : (s.setSub i v).rate = s.rate := by rfl
@[simp] theorem State.setSub_ppsNs (s : State) (i : Nat) (v : Option SubS) : (s.setSub i v).ppsNs = s.ppsNs := by rfl
@[simp] theorem State.setSub_ppsHigh (s : State) (i : Nat) (v : Option SubS) : (s.setSub i v).ppsHigh = s.ppsHigh := by rfl
@[simp] theorem State.setSub_relock (s : State) (i : Nat) (v : Option SubS) : (s.setSub i v).relock = s.relock := by rfl
@[simp] theorem State.setSub_gens (s : State) (i : Nat) (v : Option SubS) : (s.setSub i v).gens = s.gens := by rfl
@[simp] theorem State.setSub_freeCtr (s : State) (i : Nat) (v : Option SubS) : (s.setSub i v).freeCtr = s.freeCtr := by rfl
@[simp] theorem State.setSub_held (s : State) (i : Nat) (v : Option SubS) : (s.setSub i v).held = s.held := by rfl
@[simp] theorem State.setSub_heldWait (s : State) (i : Nat) (v : Option SubS) : (s.setSub i v).heldWait = s.heldWait := by rfl
@[simp] theorem State.setSub_tsrc (s : State) (i : Nat) (v : Option SubS) : (s.setSub i v).tsrc = s.tsrc := by rfl
@[simp] theorem State.setSub_twin (s : State) (i : Nat) (v : Option SubS) : (s.setSub i v).twin = s.twin := by rfl
@[simp] theorem State.setSub_gath (s : State) (i : Nat) (v : Option SubS) : (s.setSub i v).gath = s.gath := by rfl
@[simp] theorem State.setSub_claimed (s : State) (i : Nat) (v : Option SubS) : (s.setSub i v).claimed = s.claimed := by rfl
@[simp] theorem State.setSub_tgtDef (s : State) (i : Nat) (v : Option SubS) : (s.setSub i v).tgtDef = s.tgtDef := by rfl
@[simp] theorem State.setSub_holdOff (s : State) (i : Nat) (v : Option SubS) : (s.setSub i v).holdOff = s.holdOff := by rfl
@[simp] theorem State.setSub_pins (s : State) (i : Nat) (v : Option SubS) : (s.setSub i v).pins = s.pins := by rfl
@[simp] theorem State.setSub_looked (s : State) (i : Nat) (v : Option SubS) : (s.setSub i v).looked = s.looked := by rfl
@[simp] theorem State.setSub_preempt (s : State) (i : Nat) (v : Option SubS) : (s.setSub i v).preempt = s.preempt := by rfl
@[simp] theorem State.setSub_rings (s : State) (i : Nat) (v : Option SubS) : (s.setSub i v).rings = s.rings := by rfl
@[simp] theorem State.setSub_fetched (s : State) (i : Nat) (v : Option SubS) : (s.setSub i v).fetched = s.fetched := by rfl
@[simp] theorem State.setSub_lifted (s : State) (i : Nat) (v : Option SubS) : (s.setSub i v).lifted = s.lifted := by rfl
@[simp] theorem State.setSub_owed (s : State) (i : Nat) (v : Option SubS) : (s.setSub i v).owed = s.owed := by rfl
@[simp] theorem State.setSub_turn (s : State) (i : Nat) (v : Option SubS) : (s.setSub i v).turn = s.turn := by rfl
@[simp] theorem State.setSub_outbox (s : State) (i : Nat) (v : Option SubS) : (s.setSub i v).outbox = s.outbox := by rfl
@[simp] theorem State.setSub_streams (s : State) (i : Nat) (v : Option SubS) : (s.setSub i v).streams = s.streams := by rfl
@[simp] theorem State.setSub_feeds (s : State) (i : Nat) (v : Option SubS) : (s.setSub i v).feeds = s.feeds := by rfl
@[simp] theorem State.setSub_crews (s : State) (i : Nat) (v : Option SubS) : (s.setSub i v).crews = s.crews := by rfl
@[simp] theorem State.setSub_runs (s : State) (i : Nat) (v : Option SubS) : (s.setSub i v).runs = s.runs := by rfl
@[simp] theorem State.setSub_ended (s : State) (i : Nat) (v : Option SubS) : (s.setSub i v).ended = s.ended := by rfl
@[simp] theorem State.setSub_seqs (s : State) (i : Nat) (v : Option SubS) : (s.setSub i v).seqs = s.seqs := by rfl
@[simp] theorem State.setSub_therm (s : State) (i : Nat) (v : Option SubS) : (s.setSub i v).therm = s.therm := by rfl
@[simp] theorem State.setSub_progs (s : State) (i : Nat) (v : Option SubS) : (s.setSub i v).progs = s.progs := by rfl
@[simp] theorem State.setSub_scache (s : State) (i : Nat) (v : Option SubS) : (s.setSub i v).scache = s.scache := by rfl
@[simp] theorem State.setSub_slotPic (s : State) (i : Nat) (v : Option SubS) : (s.setSub i v).slotPic = s.slotPic := by rfl
@[simp] theorem State.setSub_slotSz (s : State) (i : Nat) (v : Option SubS) : (s.setSub i v).slotSz = s.slotSz := by rfl
@[simp] theorem State.setSub_slotNref (s : State) (i : Nat) (v : Option SubS) : (s.setSub i v).slotNref = s.slotNref := by rfl
@[simp] theorem State.setSub_slotC (s : State) (i : Nat) (v : Option SubS) : (s.setSub i v).slotC = s.slotC := by rfl
@[simp] theorem State.setSub_retPend (s : State) (i : Nat) (v : Option SubS) : (s.setSub i v).retPend = s.retPend := by rfl
@[simp] theorem State.setSub_egr (s : State) (i : Nat) (v : Option SubS) : (s.setSub i v).egr = s.egr := by rfl
@[simp] theorem State.setSub_txFree (s : State) (i : Nat) (v : Option SubS) : (s.setSub i v).txFree = s.txFree := by rfl
@[simp] theorem State.setSub_frameNo (s : State) (i : Nat) (v : Option SubS) : (s.setSub i v).frameNo = s.frameNo := by rfl
@[simp] theorem State.setSub_rtpSeq (s : State) (i : Nat) (v : Option SubS) : (s.setSub i v).rtpSeq = s.rtpSeq := by rfl
@[simp] theorem State.setSub_shapers (s : State) (i : Nat) (v : Option SubS) : (s.setSub i v).shapers = s.shapers := by rfl
@[simp] theorem State.setSub_gates (s : State) (i : Nat) (v : Option SubS) : (s.setSub i v).gates = s.gates := by rfl
@[simp] theorem State.setSub_ptpRx (s : State) (i : Nat) (v : Option SubS) : (s.setSub i v).ptpRx = s.ptpRx := by rfl
@[simp] theorem State.setSub_tsb (s : State) (i : Nat) (v : Option SubS) : (s.setSub i v).tsb = s.tsb := by rfl
@[simp] theorem State.setSub_ptpServo (s : State) (i : Nat) (v : Option SubS) : (s.setSub i v).ptpServo = s.ptpServo := by rfl
@[simp] theorem State.setSub_mem (s : State) (i : Nat) (v : Option SubS) : (s.setSub i v).mem = s.mem := by rfl
@[simp] theorem State.setSub_injRecs (s : State) (i : Nat) (v : Option SubS) : (s.setSub i v).injRecs = s.injRecs := by rfl
@[simp] theorem State.setSub_filled (s : State) (i : Nat) (v : Option SubS) : (s.setSub i v).filled = s.filled := by rfl
@[simp] theorem State.setSub_images (s : State) (i : Nat) (v : Option SubS) : (s.setSub i v).images = s.images := by rfl
@[simp] theorem State.setSub_chkLeft (s : State) (i : Nat) (v : Option SubS) : (s.setSub i v).chkLeft = s.chkLeft := by rfl
@[simp] theorem State.setSub_badRows (s : State) (i : Nat) (v : Option SubS) : (s.setSub i v).badRows = s.badRows := by rfl
@[simp] theorem State.setSub_lost (s : State) (i : Nat) (v : Option SubS) : (s.setSub i v).lost = s.lost := by rfl
@[simp] theorem State.setSub_celCe (s : State) (i : Nat) (v : Option SubS) : (s.setSub i v).celCe = s.celCe := by rfl
@[simp] theorem State.setSub_celDly (s : State) (i : Nat) (v : Option SubS) : (s.setSub i v).celDly = s.celDly := by rfl
@[simp] theorem State.setSub_celVref (s : State) (i : Nat) (v : Option SubS) : (s.setSub i v).celVref = s.celVref := by rfl
@[simp] theorem State.setSub_pcs (s : State) (i : Nat) (v : Option SubS) : (s.setSub i v).pcs = s.pcs := by rfl
@[simp] theorem State.setSub_stackTab (s : State) (i : Nat) (v : Option SubS) : (s.setSub i v).stackTab = s.stackTab := by rfl
@[simp] theorem State.setSub_ldrCol (s : State) (i : Nat) (v : Option SubS) : (s.setSub i v).ldrCol = s.ldrCol := by rfl
@[simp] theorem State.setSub_training (s : State) (i : Nat) (v : Option SubS) : (s.setSub i v).training = s.training := by rfl
@[simp] theorem State.setSub_adapting (s : State) (i : Nat) (v : Option SubS) : (s.setSub i v).adapting = s.adapting := by rfl
@[simp] theorem State.setSub_laneSet (s : State) (i : Nat) (v : Option SubS) : (s.setSub i v).laneSet = s.laneSet := by rfl
@[simp] theorem State.setSub_blFrom (s : State) (i : Nat) (v : Option SubS) : (s.setSub i v).blFrom = s.blFrom := by rfl
@[simp] theorem State.setSub_qps (s : State) (i : Nat) (v : Option SubS) : (s.setSub i v).qps = s.qps := by rfl
@[simp] theorem State.setSub_hchs (s : State) (i : Nat) (v : Option SubS) : (s.setSub i v).hchs = s.hchs := by rfl
@[simp] theorem State.setSub_hgrant (s : State) (i : Nat) (v : Option SubS) : (s.setSub i v).hgrant = s.hgrant := by rfl
@[simp] theorem State.setSub_ptpPos (s : State) (i : Nat) (v : Option SubS) : (s.setSub i v).ptpPos = s.ptpPos := by rfl
@[simp] theorem State.setSub_cps (s : State) (i : Nat) (v : Option SubS) : (s.setSub i v).cps = s.cps := by rfl
@[simp] theorem State.setSub_push (s : State) (i : Nat) (v : Option SubS) : (s.setSub i v).push = s.push := by rfl
@[simp] theorem State.setSub_bank0 (s : State) (i : Nat) (v : Option SubS) : (s.setSub i v).bank0 = s.bank0 := by rfl
@[simp] theorem State.setSub_bank1 (s : State) (i : Nat) (v : Option SubS) : (s.setSub i v).bank1 = s.bank1 := by rfl
@[simp] theorem State.setSub_sleep (s : State) (i : Nat) (v : Option SubS) : (s.setSub i v).sleep = s.sleep := by rfl
@[simp] theorem State.setSub_swap (s : State) (i : Nat) (v : Option SubS) : (s.setSub i v).swap = s.swap := by rfl
@[simp] theorem State.setSub_resetReq (s : State) (i : Nat) (v : Option SubS) : (s.setSub i v).resetReq = s.resetReq := by rfl
@[simp] theorem State.setSub_wakeN (s : State) (i : Nat) (v : Option SubS) : (s.setSub i v).wakeN = s.wakeN := by rfl
@[simp] theorem State.setSub_rails (s : State) (i : Nat) (v : Option SubS) : (s.setSub i v).rails = s.rails := by rfl
@[simp] theorem State.setSub_railF (s : State) (i : Nat) (v : Option SubS) : (s.setSub i v).railF = s.railF := by rfl
@[simp] theorem State.setSub_avsAgain (s : State) (i : Nat) (v : Option SubS) : (s.setSub i v).avsAgain = s.avsAgain := by rfl
@[simp] theorem State.setSub_voutExp (s : State) (i : Nat) (v : Option SubS) : (s.setSub i v).voutExp = s.voutExp := by rfl
@[simp] theorem State.setSub_straps (s : State) (i : Nat) (v : Option SubS) : (s.setSub i v).straps = s.straps := by rfl
@[simp] theorem State.setSub_strm (s : State) (i : Nat) (v : Option SubS) (k : Nat) : (s.setSub i v).strm k = s.strm k := by rfl
@[simp] theorem State.setSub_gen (s : State) (i : Nat) (v : Option SubS) (k : Nat) : (s.setSub i v).gen k = s.gen k := by rfl
@[simp] theorem State.setSub_feed (s : State) (i : Nat) (v : Option SubS) (k : Nat) : (s.setSub i v).feed k = s.feed k := by rfl
@[simp] theorem State.setSub_crew (s : State) (i : Nat) (v : Option SubS) (k : Nat) : (s.setSub i v).crew k = s.crew k := by rfl
@[simp] theorem State.setSub_run (s : State) (i : Nat) (v : Option SubS) (k : Nat) : (s.setSub i v).run k = s.run k := by rfl
@[simp] theorem State.setSub_ring (s : State) (i : Nat) (v : Option SubS) (k : Nat) : (s.setSub i v).ring k = s.ring k := by rfl
@[simp] theorem State.setSub_tallySrc (s : State) (i : Nat) (v : Option SubS) (k : Nat) : (s.setSub i v).tallySrc k = s.tallySrc k := by rfl
@[simp] theorem State.setSub_cp (s : State) (i : Nat) (v : Option SubS) (k : Nat) : (s.setSub i v).cp k = s.cp k := by rfl
@[simp] theorem State.setSub_slotPicOf (s : State) (i : Nat) (v : Option SubS) (k : Nat) : (s.setSub i v).slotPicOf k = s.slotPicOf k := by rfl
@[simp] theorem State.setSub_window (s : State) (i : Nat) (v : Option SubS) (k : Nat) : (s.setSub i v).window k = s.window k := by rfl
@[simp] theorem State.setSub_frames (s : State) (i : Nat) (v : Option SubS) (k : Nat) : (s.setSub i v).frames k = s.frames k := by rfl
@[simp] theorem State.setSub_stack (s : State) (i : Nat) (v : Option SubS) (k : Nat) : (s.setSub i v).stack k = s.stack k := by rfl
@[simp] theorem State.setSub_seq (s : State) (i : Nat) (v : Option SubS) (k : Nat) : (s.setSub i v).seq k = s.seq k := by rfl
@[simp] theorem State.setSub_hch (s : State) (i : Nat) (v : Option SubS) (k : Nat) : (s.setSub i v).hch k = s.hch k := by rfl
@[simp] theorem State.setSub_qp (s : State) (i : Nat) (v : Option SubS) (k : Nat) : (s.setSub i v).qp k = s.qp k := by rfl
@[simp] theorem State.setSub_get (s : State) (i : Nat) (v : Option SubS) (k : RF) : (s.setSub i v).get k = s.get k := by rfl
@[simp] theorem State.setSub_flag (s : State) (i : Nat) (v : Option SubS) (k : RF) : (s.setSub i v).flag k = s.flag k := by rfl
@[simp] theorem State.setSub_reg (s : State) (i : Nat) (v : Option SubS) (k : Nat) : (s.setSub i v).reg k = s.reg k := by rfl

/-! ### setPc -/

@[simp] theorem State.setPc_pending (s : State) (k p : Nat) (v : PcS) : (s.setPc k p v).pending = s.pending := by rfl
@[simp] theorem State.setPc_regs (s : State) (k p : Nat) (v : PcS) : (s.setPc k p v).regs = s.regs := by rfl
@[simp] theorem State.setPc_part (s : State) (k p : Nat) (v : PcS) : (s.setPc k p v).part = s.part := by rfl
@[simp] theorem State.setPc_rst (s : State) (k p : Nat) (v : PcS) : (s.setPc k p v).rst = s.rst := by rfl
@[simp] theorem State.setPc_now (s : State) (k p : Nat) (v : PcS) : (s.setPc k p v).now = s.now := by rfl
@[simp] theorem State.setPc_prev (s : State) (k p : Nat) (v : PcS) : (s.setPc k p v).prev = s.prev := by rfl
@[simp] theorem State.setPc_cyc (s : State) (k p : Nat) (v : PcS) : (s.setPc k p v).cyc = s.cyc := by rfl
@[simp] theorem State.setPc_fired (s : State) (k p : Nat) (v : PcS) : (s.setPc k p v).fired = s.fired := by rfl
@[simp] theorem State.setPc_hot (s : State) (k p : Nat) (v : PcS) : (s.setPc k p v).hot = s.hot := by rfl
@[simp] theorem State.setPc_freed (s : State) (k p : Nat) (v : PcS) : (s.setPc k p v).freed = s.freed := by rfl
@[simp] theorem State.setPc_waitDue (s : State) (k p : Nat) (v : PcS) : (s.setPc k p v).waitDue = s.waitDue := by rfl
@[simp] theorem State.setPc_turns (s : State) (k p : Nat) (v : PcS) : (s.setPc k p v).turns = s.turns := by rfl
@[simp] theorem State.setPc_rate (s : State) (k p : Nat) (v : PcS) : (s.setPc k p v).rate = s.rate := by rfl
@[simp] theorem State.setPc_ppsNs (s : State) (k p : Nat) (v : PcS) : (s.setPc k p v).ppsNs = s.ppsNs := by rfl
@[simp] theorem State.setPc_ppsHigh (s : State) (k p : Nat) (v : PcS) : (s.setPc k p v).ppsHigh = s.ppsHigh := by rfl
@[simp] theorem State.setPc_relock (s : State) (k p : Nat) (v : PcS) : (s.setPc k p v).relock = s.relock := by rfl
@[simp] theorem State.setPc_gens (s : State) (k p : Nat) (v : PcS) : (s.setPc k p v).gens = s.gens := by rfl
@[simp] theorem State.setPc_freeCtr (s : State) (k p : Nat) (v : PcS) : (s.setPc k p v).freeCtr = s.freeCtr := by rfl
@[simp] theorem State.setPc_held (s : State) (k p : Nat) (v : PcS) : (s.setPc k p v).held = s.held := by rfl
@[simp] theorem State.setPc_heldWait (s : State) (k p : Nat) (v : PcS) : (s.setPc k p v).heldWait = s.heldWait := by rfl
@[simp] theorem State.setPc_tsrc (s : State) (k p : Nat) (v : PcS) : (s.setPc k p v).tsrc = s.tsrc := by rfl
@[simp] theorem State.setPc_twin (s : State) (k p : Nat) (v : PcS) : (s.setPc k p v).twin = s.twin := by rfl
@[simp] theorem State.setPc_gath (s : State) (k p : Nat) (v : PcS) : (s.setPc k p v).gath = s.gath := by rfl
@[simp] theorem State.setPc_claimed (s : State) (k p : Nat) (v : PcS) : (s.setPc k p v).claimed = s.claimed := by rfl
@[simp] theorem State.setPc_tgtDef (s : State) (k p : Nat) (v : PcS) : (s.setPc k p v).tgtDef = s.tgtDef := by rfl
@[simp] theorem State.setPc_holdOff (s : State) (k p : Nat) (v : PcS) : (s.setPc k p v).holdOff = s.holdOff := by rfl
@[simp] theorem State.setPc_pins (s : State) (k p : Nat) (v : PcS) : (s.setPc k p v).pins = s.pins := by rfl
@[simp] theorem State.setPc_looked (s : State) (k p : Nat) (v : PcS) : (s.setPc k p v).looked = s.looked := by rfl
@[simp] theorem State.setPc_preempt (s : State) (k p : Nat) (v : PcS) : (s.setPc k p v).preempt = s.preempt := by rfl
@[simp] theorem State.setPc_rings (s : State) (k p : Nat) (v : PcS) : (s.setPc k p v).rings = s.rings := by rfl
@[simp] theorem State.setPc_fetched (s : State) (k p : Nat) (v : PcS) : (s.setPc k p v).fetched = s.fetched := by rfl
@[simp] theorem State.setPc_lifted (s : State) (k p : Nat) (v : PcS) : (s.setPc k p v).lifted = s.lifted := by rfl
@[simp] theorem State.setPc_owed (s : State) (k p : Nat) (v : PcS) : (s.setPc k p v).owed = s.owed := by rfl
@[simp] theorem State.setPc_turn (s : State) (k p : Nat) (v : PcS) : (s.setPc k p v).turn = s.turn := by rfl
@[simp] theorem State.setPc_outbox (s : State) (k p : Nat) (v : PcS) : (s.setPc k p v).outbox = s.outbox := by rfl
@[simp] theorem State.setPc_streams (s : State) (k p : Nat) (v : PcS) : (s.setPc k p v).streams = s.streams := by rfl
@[simp] theorem State.setPc_feeds (s : State) (k p : Nat) (v : PcS) : (s.setPc k p v).feeds = s.feeds := by rfl
@[simp] theorem State.setPc_crews (s : State) (k p : Nat) (v : PcS) : (s.setPc k p v).crews = s.crews := by rfl
@[simp] theorem State.setPc_runs (s : State) (k p : Nat) (v : PcS) : (s.setPc k p v).runs = s.runs := by rfl
@[simp] theorem State.setPc_ended (s : State) (k p : Nat) (v : PcS) : (s.setPc k p v).ended = s.ended := by rfl
@[simp] theorem State.setPc_seqs (s : State) (k p : Nat) (v : PcS) : (s.setPc k p v).seqs = s.seqs := by rfl
@[simp] theorem State.setPc_therm (s : State) (k p : Nat) (v : PcS) : (s.setPc k p v).therm = s.therm := by rfl
@[simp] theorem State.setPc_progs (s : State) (k p : Nat) (v : PcS) : (s.setPc k p v).progs = s.progs := by rfl
@[simp] theorem State.setPc_scache (s : State) (k p : Nat) (v : PcS) : (s.setPc k p v).scache = s.scache := by rfl
@[simp] theorem State.setPc_slotPic (s : State) (k p : Nat) (v : PcS) : (s.setPc k p v).slotPic = s.slotPic := by rfl
@[simp] theorem State.setPc_slotSz (s : State) (k p : Nat) (v : PcS) : (s.setPc k p v).slotSz = s.slotSz := by rfl
@[simp] theorem State.setPc_slotNref (s : State) (k p : Nat) (v : PcS) : (s.setPc k p v).slotNref = s.slotNref := by rfl
@[simp] theorem State.setPc_slotC (s : State) (k p : Nat) (v : PcS) : (s.setPc k p v).slotC = s.slotC := by rfl
@[simp] theorem State.setPc_retPend (s : State) (k p : Nat) (v : PcS) : (s.setPc k p v).retPend = s.retPend := by rfl
@[simp] theorem State.setPc_egr (s : State) (k p : Nat) (v : PcS) : (s.setPc k p v).egr = s.egr := by rfl
@[simp] theorem State.setPc_txFree (s : State) (k p : Nat) (v : PcS) : (s.setPc k p v).txFree = s.txFree := by rfl
@[simp] theorem State.setPc_frameNo (s : State) (k p : Nat) (v : PcS) : (s.setPc k p v).frameNo = s.frameNo := by rfl
@[simp] theorem State.setPc_rtpSeq (s : State) (k p : Nat) (v : PcS) : (s.setPc k p v).rtpSeq = s.rtpSeq := by rfl
@[simp] theorem State.setPc_subs (s : State) (k p : Nat) (v : PcS) : (s.setPc k p v).subs = s.subs := by rfl
@[simp] theorem State.setPc_shapers (s : State) (k p : Nat) (v : PcS) : (s.setPc k p v).shapers = s.shapers := by rfl
@[simp] theorem State.setPc_gates (s : State) (k p : Nat) (v : PcS) : (s.setPc k p v).gates = s.gates := by rfl
@[simp] theorem State.setPc_ptpRx (s : State) (k p : Nat) (v : PcS) : (s.setPc k p v).ptpRx = s.ptpRx := by rfl
@[simp] theorem State.setPc_tsb (s : State) (k p : Nat) (v : PcS) : (s.setPc k p v).tsb = s.tsb := by rfl
@[simp] theorem State.setPc_ptpServo (s : State) (k p : Nat) (v : PcS) : (s.setPc k p v).ptpServo = s.ptpServo := by rfl
@[simp] theorem State.setPc_mem (s : State) (k p : Nat) (v : PcS) : (s.setPc k p v).mem = s.mem := by rfl
@[simp] theorem State.setPc_injRecs (s : State) (k p : Nat) (v : PcS) : (s.setPc k p v).injRecs = s.injRecs := by rfl
@[simp] theorem State.setPc_filled (s : State) (k p : Nat) (v : PcS) : (s.setPc k p v).filled = s.filled := by rfl
@[simp] theorem State.setPc_images (s : State) (k p : Nat) (v : PcS) : (s.setPc k p v).images = s.images := by rfl
@[simp] theorem State.setPc_chkLeft (s : State) (k p : Nat) (v : PcS) : (s.setPc k p v).chkLeft = s.chkLeft := by rfl
@[simp] theorem State.setPc_badRows (s : State) (k p : Nat) (v : PcS) : (s.setPc k p v).badRows = s.badRows := by rfl
@[simp] theorem State.setPc_lost (s : State) (k p : Nat) (v : PcS) : (s.setPc k p v).lost = s.lost := by rfl
@[simp] theorem State.setPc_celCe (s : State) (k p : Nat) (v : PcS) : (s.setPc k p v).celCe = s.celCe := by rfl
@[simp] theorem State.setPc_celDly (s : State) (k p : Nat) (v : PcS) : (s.setPc k p v).celDly = s.celDly := by rfl
@[simp] theorem State.setPc_celVref (s : State) (k p : Nat) (v : PcS) : (s.setPc k p v).celVref = s.celVref := by rfl
@[simp] theorem State.setPc_stackTab (s : State) (k p : Nat) (v : PcS) : (s.setPc k p v).stackTab = s.stackTab := by rfl
@[simp] theorem State.setPc_ldrCol (s : State) (k p : Nat) (v : PcS) : (s.setPc k p v).ldrCol = s.ldrCol := by rfl
@[simp] theorem State.setPc_training (s : State) (k p : Nat) (v : PcS) : (s.setPc k p v).training = s.training := by rfl
@[simp] theorem State.setPc_adapting (s : State) (k p : Nat) (v : PcS) : (s.setPc k p v).adapting = s.adapting := by rfl
@[simp] theorem State.setPc_laneSet (s : State) (k p : Nat) (v : PcS) : (s.setPc k p v).laneSet = s.laneSet := by rfl
@[simp] theorem State.setPc_blFrom (s : State) (k p : Nat) (v : PcS) : (s.setPc k p v).blFrom = s.blFrom := by rfl
@[simp] theorem State.setPc_qps (s : State) (k p : Nat) (v : PcS) : (s.setPc k p v).qps = s.qps := by rfl
@[simp] theorem State.setPc_hchs (s : State) (k p : Nat) (v : PcS) : (s.setPc k p v).hchs = s.hchs := by rfl
@[simp] theorem State.setPc_hgrant (s : State) (k p : Nat) (v : PcS) : (s.setPc k p v).hgrant = s.hgrant := by rfl
@[simp] theorem State.setPc_ptpPos (s : State) (k p : Nat) (v : PcS) : (s.setPc k p v).ptpPos = s.ptpPos := by rfl
@[simp] theorem State.setPc_cps (s : State) (k p : Nat) (v : PcS) : (s.setPc k p v).cps = s.cps := by rfl
@[simp] theorem State.setPc_push (s : State) (k p : Nat) (v : PcS) : (s.setPc k p v).push = s.push := by rfl
@[simp] theorem State.setPc_bank0 (s : State) (k p : Nat) (v : PcS) : (s.setPc k p v).bank0 = s.bank0 := by rfl
@[simp] theorem State.setPc_bank1 (s : State) (k p : Nat) (v : PcS) : (s.setPc k p v).bank1 = s.bank1 := by rfl
@[simp] theorem State.setPc_sleep (s : State) (k p : Nat) (v : PcS) : (s.setPc k p v).sleep = s.sleep := by rfl
@[simp] theorem State.setPc_swap (s : State) (k p : Nat) (v : PcS) : (s.setPc k p v).swap = s.swap := by rfl
@[simp] theorem State.setPc_resetReq (s : State) (k p : Nat) (v : PcS) : (s.setPc k p v).resetReq = s.resetReq := by rfl
@[simp] theorem State.setPc_wakeN (s : State) (k p : Nat) (v : PcS) : (s.setPc k p v).wakeN = s.wakeN := by rfl
@[simp] theorem State.setPc_rails (s : State) (k p : Nat) (v : PcS) : (s.setPc k p v).rails = s.rails := by rfl
@[simp] theorem State.setPc_railF (s : State) (k p : Nat) (v : PcS) : (s.setPc k p v).railF = s.railF := by rfl
@[simp] theorem State.setPc_avsAgain (s : State) (k p : Nat) (v : PcS) : (s.setPc k p v).avsAgain = s.avsAgain := by rfl
@[simp] theorem State.setPc_voutExp (s : State) (k p : Nat) (v : PcS) : (s.setPc k p v).voutExp = s.voutExp := by rfl
@[simp] theorem State.setPc_straps (s : State) (k p : Nat) (v : PcS) : (s.setPc k p v).straps = s.straps := by rfl
@[simp] theorem State.setPc_strm (s : State) (k p : Nat) (v : PcS) (k' : Nat) : (s.setPc k p v).strm k' = s.strm k' := by rfl
@[simp] theorem State.setPc_gen (s : State) (k p : Nat) (v : PcS) (k' : Nat) : (s.setPc k p v).gen k' = s.gen k' := by rfl
@[simp] theorem State.setPc_feed (s : State) (k p : Nat) (v : PcS) (k' : Nat) : (s.setPc k p v).feed k' = s.feed k' := by rfl
@[simp] theorem State.setPc_crew (s : State) (k p : Nat) (v : PcS) (k' : Nat) : (s.setPc k p v).crew k' = s.crew k' := by rfl
@[simp] theorem State.setPc_run (s : State) (k p : Nat) (v : PcS) (k' : Nat) : (s.setPc k p v).run k' = s.run k' := by rfl
@[simp] theorem State.setPc_ring (s : State) (k p : Nat) (v : PcS) (k' : Nat) : (s.setPc k p v).ring k' = s.ring k' := by rfl
@[simp] theorem State.setPc_tallySrc (s : State) (k p : Nat) (v : PcS) (k' : Nat) : (s.setPc k p v).tallySrc k' = s.tallySrc k' := by rfl
@[simp] theorem State.setPc_cp (s : State) (k p : Nat) (v : PcS) (k' : Nat) : (s.setPc k p v).cp k' = s.cp k' := by rfl
@[simp] theorem State.setPc_slotPicOf (s : State) (k p : Nat) (v : PcS) (k' : Nat) : (s.setPc k p v).slotPicOf k' = s.slotPicOf k' := by rfl
@[simp] theorem State.setPc_window (s : State) (k p : Nat) (v : PcS) (k' : Nat) : (s.setPc k p v).window k' = s.window k' := by rfl
@[simp] theorem State.setPc_frames (s : State) (k p : Nat) (v : PcS) (k' : Nat) : (s.setPc k p v).frames k' = s.frames k' := by rfl
@[simp] theorem State.setPc_sub (s : State) (k p : Nat) (v : PcS) (k' : Nat) : (s.setPc k p v).sub k' = s.sub k' := by rfl
@[simp] theorem State.setPc_stack (s : State) (k p : Nat) (v : PcS) (k' : Nat) : (s.setPc k p v).stack k' = s.stack k' := by rfl
@[simp] theorem State.setPc_seq (s : State) (k p : Nat) (v : PcS) (k' : Nat) : (s.setPc k p v).seq k' = s.seq k' := by rfl
@[simp] theorem State.setPc_hch (s : State) (k p : Nat) (v : PcS) (k' : Nat) : (s.setPc k p v).hch k' = s.hch k' := by rfl
@[simp] theorem State.setPc_qp (s : State) (k p : Nat) (v : PcS) (k' : Nat) : (s.setPc k p v).qp k' = s.qp k' := by rfl
@[simp] theorem State.setPc_get (s : State) (k p : Nat) (v : PcS) (k' : RF) : (s.setPc k p v).get k' = s.get k' := by rfl
@[simp] theorem State.setPc_flag (s : State) (k p : Nat) (v : PcS) (k' : RF) : (s.setPc k p v).flag k' = s.flag k' := by rfl
@[simp] theorem State.setPc_reg (s : State) (k p : Nat) (v : PcS) (k' : Nat) : (s.setPc k p v).reg k' = s.reg k' := by rfl

/-! ### setStack -/

@[simp] theorem State.setStack_pending (s : State) (k : Nat) (v : StackS) : (s.setStack k v).pending = s.pending := by rfl
@[simp] theorem State.setStack_regs (s : State) (k : Nat) (v : StackS) : (s.setStack k v).regs = s.regs := by rfl
@[simp] theorem State.setStack_part (s : State) (k : Nat) (v : StackS) : (s.setStack k v).part = s.part := by rfl
@[simp] theorem State.setStack_rst (s : State) (k : Nat) (v : StackS) : (s.setStack k v).rst = s.rst := by rfl
@[simp] theorem State.setStack_now (s : State) (k : Nat) (v : StackS) : (s.setStack k v).now = s.now := by rfl
@[simp] theorem State.setStack_prev (s : State) (k : Nat) (v : StackS) : (s.setStack k v).prev = s.prev := by rfl
@[simp] theorem State.setStack_cyc (s : State) (k : Nat) (v : StackS) : (s.setStack k v).cyc = s.cyc := by rfl
@[simp] theorem State.setStack_fired (s : State) (k : Nat) (v : StackS) : (s.setStack k v).fired = s.fired := by rfl
@[simp] theorem State.setStack_hot (s : State) (k : Nat) (v : StackS) : (s.setStack k v).hot = s.hot := by rfl
@[simp] theorem State.setStack_freed (s : State) (k : Nat) (v : StackS) : (s.setStack k v).freed = s.freed := by rfl
@[simp] theorem State.setStack_waitDue (s : State) (k : Nat) (v : StackS) : (s.setStack k v).waitDue = s.waitDue := by rfl
@[simp] theorem State.setStack_turns (s : State) (k : Nat) (v : StackS) : (s.setStack k v).turns = s.turns := by rfl
@[simp] theorem State.setStack_rate (s : State) (k : Nat) (v : StackS) : (s.setStack k v).rate = s.rate := by rfl
@[simp] theorem State.setStack_ppsNs (s : State) (k : Nat) (v : StackS) : (s.setStack k v).ppsNs = s.ppsNs := by rfl
@[simp] theorem State.setStack_ppsHigh (s : State) (k : Nat) (v : StackS) : (s.setStack k v).ppsHigh = s.ppsHigh := by rfl
@[simp] theorem State.setStack_relock (s : State) (k : Nat) (v : StackS) : (s.setStack k v).relock = s.relock := by rfl
@[simp] theorem State.setStack_gens (s : State) (k : Nat) (v : StackS) : (s.setStack k v).gens = s.gens := by rfl
@[simp] theorem State.setStack_freeCtr (s : State) (k : Nat) (v : StackS) : (s.setStack k v).freeCtr = s.freeCtr := by rfl
@[simp] theorem State.setStack_held (s : State) (k : Nat) (v : StackS) : (s.setStack k v).held = s.held := by rfl
@[simp] theorem State.setStack_heldWait (s : State) (k : Nat) (v : StackS) : (s.setStack k v).heldWait = s.heldWait := by rfl
@[simp] theorem State.setStack_tsrc (s : State) (k : Nat) (v : StackS) : (s.setStack k v).tsrc = s.tsrc := by rfl
@[simp] theorem State.setStack_twin (s : State) (k : Nat) (v : StackS) : (s.setStack k v).twin = s.twin := by rfl
@[simp] theorem State.setStack_gath (s : State) (k : Nat) (v : StackS) : (s.setStack k v).gath = s.gath := by rfl
@[simp] theorem State.setStack_claimed (s : State) (k : Nat) (v : StackS) : (s.setStack k v).claimed = s.claimed := by rfl
@[simp] theorem State.setStack_tgtDef (s : State) (k : Nat) (v : StackS) : (s.setStack k v).tgtDef = s.tgtDef := by rfl
@[simp] theorem State.setStack_holdOff (s : State) (k : Nat) (v : StackS) : (s.setStack k v).holdOff = s.holdOff := by rfl
@[simp] theorem State.setStack_pins (s : State) (k : Nat) (v : StackS) : (s.setStack k v).pins = s.pins := by rfl
@[simp] theorem State.setStack_looked (s : State) (k : Nat) (v : StackS) : (s.setStack k v).looked = s.looked := by rfl
@[simp] theorem State.setStack_preempt (s : State) (k : Nat) (v : StackS) : (s.setStack k v).preempt = s.preempt := by rfl
@[simp] theorem State.setStack_rings (s : State) (k : Nat) (v : StackS) : (s.setStack k v).rings = s.rings := by rfl
@[simp] theorem State.setStack_fetched (s : State) (k : Nat) (v : StackS) : (s.setStack k v).fetched = s.fetched := by rfl
@[simp] theorem State.setStack_lifted (s : State) (k : Nat) (v : StackS) : (s.setStack k v).lifted = s.lifted := by rfl
@[simp] theorem State.setStack_owed (s : State) (k : Nat) (v : StackS) : (s.setStack k v).owed = s.owed := by rfl
@[simp] theorem State.setStack_turn (s : State) (k : Nat) (v : StackS) : (s.setStack k v).turn = s.turn := by rfl
@[simp] theorem State.setStack_outbox (s : State) (k : Nat) (v : StackS) : (s.setStack k v).outbox = s.outbox := by rfl
@[simp] theorem State.setStack_streams (s : State) (k : Nat) (v : StackS) : (s.setStack k v).streams = s.streams := by rfl
@[simp] theorem State.setStack_feeds (s : State) (k : Nat) (v : StackS) : (s.setStack k v).feeds = s.feeds := by rfl
@[simp] theorem State.setStack_crews (s : State) (k : Nat) (v : StackS) : (s.setStack k v).crews = s.crews := by rfl
@[simp] theorem State.setStack_runs (s : State) (k : Nat) (v : StackS) : (s.setStack k v).runs = s.runs := by rfl
@[simp] theorem State.setStack_ended (s : State) (k : Nat) (v : StackS) : (s.setStack k v).ended = s.ended := by rfl
@[simp] theorem State.setStack_seqs (s : State) (k : Nat) (v : StackS) : (s.setStack k v).seqs = s.seqs := by rfl
@[simp] theorem State.setStack_therm (s : State) (k : Nat) (v : StackS) : (s.setStack k v).therm = s.therm := by rfl
@[simp] theorem State.setStack_progs (s : State) (k : Nat) (v : StackS) : (s.setStack k v).progs = s.progs := by rfl
@[simp] theorem State.setStack_scache (s : State) (k : Nat) (v : StackS) : (s.setStack k v).scache = s.scache := by rfl
@[simp] theorem State.setStack_slotPic (s : State) (k : Nat) (v : StackS) : (s.setStack k v).slotPic = s.slotPic := by rfl
@[simp] theorem State.setStack_slotSz (s : State) (k : Nat) (v : StackS) : (s.setStack k v).slotSz = s.slotSz := by rfl
@[simp] theorem State.setStack_slotNref (s : State) (k : Nat) (v : StackS) : (s.setStack k v).slotNref = s.slotNref := by rfl
@[simp] theorem State.setStack_slotC (s : State) (k : Nat) (v : StackS) : (s.setStack k v).slotC = s.slotC := by rfl
@[simp] theorem State.setStack_retPend (s : State) (k : Nat) (v : StackS) : (s.setStack k v).retPend = s.retPend := by rfl
@[simp] theorem State.setStack_egr (s : State) (k : Nat) (v : StackS) : (s.setStack k v).egr = s.egr := by rfl
@[simp] theorem State.setStack_txFree (s : State) (k : Nat) (v : StackS) : (s.setStack k v).txFree = s.txFree := by rfl
@[simp] theorem State.setStack_frameNo (s : State) (k : Nat) (v : StackS) : (s.setStack k v).frameNo = s.frameNo := by rfl
@[simp] theorem State.setStack_rtpSeq (s : State) (k : Nat) (v : StackS) : (s.setStack k v).rtpSeq = s.rtpSeq := by rfl
@[simp] theorem State.setStack_subs (s : State) (k : Nat) (v : StackS) : (s.setStack k v).subs = s.subs := by rfl
@[simp] theorem State.setStack_shapers (s : State) (k : Nat) (v : StackS) : (s.setStack k v).shapers = s.shapers := by rfl
@[simp] theorem State.setStack_gates (s : State) (k : Nat) (v : StackS) : (s.setStack k v).gates = s.gates := by rfl
@[simp] theorem State.setStack_ptpRx (s : State) (k : Nat) (v : StackS) : (s.setStack k v).ptpRx = s.ptpRx := by rfl
@[simp] theorem State.setStack_tsb (s : State) (k : Nat) (v : StackS) : (s.setStack k v).tsb = s.tsb := by rfl
@[simp] theorem State.setStack_ptpServo (s : State) (k : Nat) (v : StackS) : (s.setStack k v).ptpServo = s.ptpServo := by rfl
@[simp] theorem State.setStack_mem (s : State) (k : Nat) (v : StackS) : (s.setStack k v).mem = s.mem := by rfl
@[simp] theorem State.setStack_injRecs (s : State) (k : Nat) (v : StackS) : (s.setStack k v).injRecs = s.injRecs := by rfl
@[simp] theorem State.setStack_filled (s : State) (k : Nat) (v : StackS) : (s.setStack k v).filled = s.filled := by rfl
@[simp] theorem State.setStack_images (s : State) (k : Nat) (v : StackS) : (s.setStack k v).images = s.images := by rfl
@[simp] theorem State.setStack_chkLeft (s : State) (k : Nat) (v : StackS) : (s.setStack k v).chkLeft = s.chkLeft := by rfl
@[simp] theorem State.setStack_badRows (s : State) (k : Nat) (v : StackS) : (s.setStack k v).badRows = s.badRows := by rfl
@[simp] theorem State.setStack_lost (s : State) (k : Nat) (v : StackS) : (s.setStack k v).lost = s.lost := by rfl
@[simp] theorem State.setStack_celCe (s : State) (k : Nat) (v : StackS) : (s.setStack k v).celCe = s.celCe := by rfl
@[simp] theorem State.setStack_celDly (s : State) (k : Nat) (v : StackS) : (s.setStack k v).celDly = s.celDly := by rfl
@[simp] theorem State.setStack_celVref (s : State) (k : Nat) (v : StackS) : (s.setStack k v).celVref = s.celVref := by rfl
@[simp] theorem State.setStack_pcs (s : State) (k : Nat) (v : StackS) : (s.setStack k v).pcs = s.pcs := by rfl
@[simp] theorem State.setStack_ldrCol (s : State) (k : Nat) (v : StackS) : (s.setStack k v).ldrCol = s.ldrCol := by rfl
@[simp] theorem State.setStack_training (s : State) (k : Nat) (v : StackS) : (s.setStack k v).training = s.training := by rfl
@[simp] theorem State.setStack_adapting (s : State) (k : Nat) (v : StackS) : (s.setStack k v).adapting = s.adapting := by rfl
@[simp] theorem State.setStack_laneSet (s : State) (k : Nat) (v : StackS) : (s.setStack k v).laneSet = s.laneSet := by rfl
@[simp] theorem State.setStack_blFrom (s : State) (k : Nat) (v : StackS) : (s.setStack k v).blFrom = s.blFrom := by rfl
@[simp] theorem State.setStack_qps (s : State) (k : Nat) (v : StackS) : (s.setStack k v).qps = s.qps := by rfl
@[simp] theorem State.setStack_hchs (s : State) (k : Nat) (v : StackS) : (s.setStack k v).hchs = s.hchs := by rfl
@[simp] theorem State.setStack_hgrant (s : State) (k : Nat) (v : StackS) : (s.setStack k v).hgrant = s.hgrant := by rfl
@[simp] theorem State.setStack_ptpPos (s : State) (k : Nat) (v : StackS) : (s.setStack k v).ptpPos = s.ptpPos := by rfl
@[simp] theorem State.setStack_cps (s : State) (k : Nat) (v : StackS) : (s.setStack k v).cps = s.cps := by rfl
@[simp] theorem State.setStack_push (s : State) (k : Nat) (v : StackS) : (s.setStack k v).push = s.push := by rfl
@[simp] theorem State.setStack_bank0 (s : State) (k : Nat) (v : StackS) : (s.setStack k v).bank0 = s.bank0 := by rfl
@[simp] theorem State.setStack_bank1 (s : State) (k : Nat) (v : StackS) : (s.setStack k v).bank1 = s.bank1 := by rfl
@[simp] theorem State.setStack_sleep (s : State) (k : Nat) (v : StackS) : (s.setStack k v).sleep = s.sleep := by rfl
@[simp] theorem State.setStack_swap (s : State) (k : Nat) (v : StackS) : (s.setStack k v).swap = s.swap := by rfl
@[simp] theorem State.setStack_resetReq (s : State) (k : Nat) (v : StackS) : (s.setStack k v).resetReq = s.resetReq := by rfl
@[simp] theorem State.setStack_wakeN (s : State) (k : Nat) (v : StackS) : (s.setStack k v).wakeN = s.wakeN := by rfl
@[simp] theorem State.setStack_rails (s : State) (k : Nat) (v : StackS) : (s.setStack k v).rails = s.rails := by rfl
@[simp] theorem State.setStack_railF (s : State) (k : Nat) (v : StackS) : (s.setStack k v).railF = s.railF := by rfl
@[simp] theorem State.setStack_avsAgain (s : State) (k : Nat) (v : StackS) : (s.setStack k v).avsAgain = s.avsAgain := by rfl
@[simp] theorem State.setStack_voutExp (s : State) (k : Nat) (v : StackS) : (s.setStack k v).voutExp = s.voutExp := by rfl
@[simp] theorem State.setStack_straps (s : State) (k : Nat) (v : StackS) : (s.setStack k v).straps = s.straps := by rfl
@[simp] theorem State.setStack_strm (s : State) (k : Nat) (v : StackS) (k' : Nat) : (s.setStack k v).strm k' = s.strm k' := by rfl
@[simp] theorem State.setStack_gen (s : State) (k : Nat) (v : StackS) (k' : Nat) : (s.setStack k v).gen k' = s.gen k' := by rfl
@[simp] theorem State.setStack_feed (s : State) (k : Nat) (v : StackS) (k' : Nat) : (s.setStack k v).feed k' = s.feed k' := by rfl
@[simp] theorem State.setStack_crew (s : State) (k : Nat) (v : StackS) (k' : Nat) : (s.setStack k v).crew k' = s.crew k' := by rfl
@[simp] theorem State.setStack_run (s : State) (k : Nat) (v : StackS) (k' : Nat) : (s.setStack k v).run k' = s.run k' := by rfl
@[simp] theorem State.setStack_ring (s : State) (k : Nat) (v : StackS) (k' : Nat) : (s.setStack k v).ring k' = s.ring k' := by rfl
@[simp] theorem State.setStack_tallySrc (s : State) (k : Nat) (v : StackS) (k' : Nat) : (s.setStack k v).tallySrc k' = s.tallySrc k' := by rfl
@[simp] theorem State.setStack_cp (s : State) (k : Nat) (v : StackS) (k' : Nat) : (s.setStack k v).cp k' = s.cp k' := by rfl
@[simp] theorem State.setStack_slotPicOf (s : State) (k : Nat) (v : StackS) (k' : Nat) : (s.setStack k v).slotPicOf k' = s.slotPicOf k' := by rfl
@[simp] theorem State.setStack_window (s : State) (k : Nat) (v : StackS) (k' : Nat) : (s.setStack k v).window k' = s.window k' := by rfl
@[simp] theorem State.setStack_frames (s : State) (k : Nat) (v : StackS) (k' : Nat) : (s.setStack k v).frames k' = s.frames k' := by rfl
@[simp] theorem State.setStack_sub (s : State) (k : Nat) (v : StackS) (k' : Nat) : (s.setStack k v).sub k' = s.sub k' := by rfl
@[simp] theorem State.setStack_seq (s : State) (k : Nat) (v : StackS) (k' : Nat) : (s.setStack k v).seq k' = s.seq k' := by rfl
@[simp] theorem State.setStack_hch (s : State) (k : Nat) (v : StackS) (k' : Nat) : (s.setStack k v).hch k' = s.hch k' := by rfl
@[simp] theorem State.setStack_qp (s : State) (k : Nat) (v : StackS) (k' : Nat) : (s.setStack k v).qp k' = s.qp k' := by rfl
@[simp] theorem State.setStack_get (s : State) (k : Nat) (v : StackS) (k' : RF) : (s.setStack k v).get k' = s.get k' := by rfl
@[simp] theorem State.setStack_flag (s : State) (k : Nat) (v : StackS) (k' : RF) : (s.setStack k v).flag k' = s.flag k' := by rfl
@[simp] theorem State.setStack_reg (s : State) (k : Nat) (v : StackS) (k' : Nat) : (s.setStack k v).reg k' = s.reg k' := by rfl

/-! ### setSeq -/

@[simp] theorem State.setSeq_pending (s : State) (u : Nat) (q : SeqS) : (s.setSeq u q).pending = s.pending := by rfl
@[simp] theorem State.setSeq_regs (s : State) (u : Nat) (q : SeqS) : (s.setSeq u q).regs = s.regs := by rfl
@[simp] theorem State.setSeq_part (s : State) (u : Nat) (q : SeqS) : (s.setSeq u q).part = s.part := by rfl
@[simp] theorem State.setSeq_rst (s : State) (u : Nat) (q : SeqS) : (s.setSeq u q).rst = s.rst := by rfl
@[simp] theorem State.setSeq_now (s : State) (u : Nat) (q : SeqS) : (s.setSeq u q).now = s.now := by rfl
@[simp] theorem State.setSeq_prev (s : State) (u : Nat) (q : SeqS) : (s.setSeq u q).prev = s.prev := by rfl
@[simp] theorem State.setSeq_cyc (s : State) (u : Nat) (q : SeqS) : (s.setSeq u q).cyc = s.cyc := by rfl
@[simp] theorem State.setSeq_fired (s : State) (u : Nat) (q : SeqS) : (s.setSeq u q).fired = s.fired := by rfl
@[simp] theorem State.setSeq_hot (s : State) (u : Nat) (q : SeqS) : (s.setSeq u q).hot = s.hot := by rfl
@[simp] theorem State.setSeq_freed (s : State) (u : Nat) (q : SeqS) : (s.setSeq u q).freed = s.freed := by rfl
@[simp] theorem State.setSeq_waitDue (s : State) (u : Nat) (q : SeqS) : (s.setSeq u q).waitDue = s.waitDue := by rfl
@[simp] theorem State.setSeq_turns (s : State) (u : Nat) (q : SeqS) : (s.setSeq u q).turns = s.turns := by rfl
@[simp] theorem State.setSeq_rate (s : State) (u : Nat) (q : SeqS) : (s.setSeq u q).rate = s.rate := by rfl
@[simp] theorem State.setSeq_ppsNs (s : State) (u : Nat) (q : SeqS) : (s.setSeq u q).ppsNs = s.ppsNs := by rfl
@[simp] theorem State.setSeq_ppsHigh (s : State) (u : Nat) (q : SeqS) : (s.setSeq u q).ppsHigh = s.ppsHigh := by rfl
@[simp] theorem State.setSeq_relock (s : State) (u : Nat) (q : SeqS) : (s.setSeq u q).relock = s.relock := by rfl
@[simp] theorem State.setSeq_gens (s : State) (u : Nat) (q : SeqS) : (s.setSeq u q).gens = s.gens := by rfl
@[simp] theorem State.setSeq_freeCtr (s : State) (u : Nat) (q : SeqS) : (s.setSeq u q).freeCtr = s.freeCtr := by rfl
@[simp] theorem State.setSeq_held (s : State) (u : Nat) (q : SeqS) : (s.setSeq u q).held = s.held := by rfl
@[simp] theorem State.setSeq_heldWait (s : State) (u : Nat) (q : SeqS) : (s.setSeq u q).heldWait = s.heldWait := by rfl
@[simp] theorem State.setSeq_tsrc (s : State) (u : Nat) (q : SeqS) : (s.setSeq u q).tsrc = s.tsrc := by rfl
@[simp] theorem State.setSeq_twin (s : State) (u : Nat) (q : SeqS) : (s.setSeq u q).twin = s.twin := by rfl
@[simp] theorem State.setSeq_gath (s : State) (u : Nat) (q : SeqS) : (s.setSeq u q).gath = s.gath := by rfl
@[simp] theorem State.setSeq_claimed (s : State) (u : Nat) (q : SeqS) : (s.setSeq u q).claimed = s.claimed := by rfl
@[simp] theorem State.setSeq_tgtDef (s : State) (u : Nat) (q : SeqS) : (s.setSeq u q).tgtDef = s.tgtDef := by rfl
@[simp] theorem State.setSeq_holdOff (s : State) (u : Nat) (q : SeqS) : (s.setSeq u q).holdOff = s.holdOff := by rfl
@[simp] theorem State.setSeq_pins (s : State) (u : Nat) (q : SeqS) : (s.setSeq u q).pins = s.pins := by rfl
@[simp] theorem State.setSeq_looked (s : State) (u : Nat) (q : SeqS) : (s.setSeq u q).looked = s.looked := by rfl
@[simp] theorem State.setSeq_preempt (s : State) (u : Nat) (q : SeqS) : (s.setSeq u q).preempt = s.preempt := by rfl
@[simp] theorem State.setSeq_rings (s : State) (u : Nat) (q : SeqS) : (s.setSeq u q).rings = s.rings := by rfl
@[simp] theorem State.setSeq_fetched (s : State) (u : Nat) (q : SeqS) : (s.setSeq u q).fetched = s.fetched := by rfl
@[simp] theorem State.setSeq_lifted (s : State) (u : Nat) (q : SeqS) : (s.setSeq u q).lifted = s.lifted := by rfl
@[simp] theorem State.setSeq_owed (s : State) (u : Nat) (q : SeqS) : (s.setSeq u q).owed = s.owed := by rfl
@[simp] theorem State.setSeq_turn (s : State) (u : Nat) (q : SeqS) : (s.setSeq u q).turn = s.turn := by rfl
@[simp] theorem State.setSeq_outbox (s : State) (u : Nat) (q : SeqS) : (s.setSeq u q).outbox = s.outbox := by rfl
@[simp] theorem State.setSeq_streams (s : State) (u : Nat) (q : SeqS) : (s.setSeq u q).streams = s.streams := by rfl
@[simp] theorem State.setSeq_feeds (s : State) (u : Nat) (q : SeqS) : (s.setSeq u q).feeds = s.feeds := by rfl
@[simp] theorem State.setSeq_crews (s : State) (u : Nat) (q : SeqS) : (s.setSeq u q).crews = s.crews := by rfl
@[simp] theorem State.setSeq_runs (s : State) (u : Nat) (q : SeqS) : (s.setSeq u q).runs = s.runs := by rfl
@[simp] theorem State.setSeq_ended (s : State) (u : Nat) (q : SeqS) : (s.setSeq u q).ended = s.ended := by rfl
@[simp] theorem State.setSeq_therm (s : State) (u : Nat) (q : SeqS) : (s.setSeq u q).therm = s.therm := by rfl
@[simp] theorem State.setSeq_progs (s : State) (u : Nat) (q : SeqS) : (s.setSeq u q).progs = s.progs := by rfl
@[simp] theorem State.setSeq_scache (s : State) (u : Nat) (q : SeqS) : (s.setSeq u q).scache = s.scache := by rfl
@[simp] theorem State.setSeq_slotPic (s : State) (u : Nat) (q : SeqS) : (s.setSeq u q).slotPic = s.slotPic := by rfl
@[simp] theorem State.setSeq_slotSz (s : State) (u : Nat) (q : SeqS) : (s.setSeq u q).slotSz = s.slotSz := by rfl
@[simp] theorem State.setSeq_slotNref (s : State) (u : Nat) (q : SeqS) : (s.setSeq u q).slotNref = s.slotNref := by rfl
@[simp] theorem State.setSeq_slotC (s : State) (u : Nat) (q : SeqS) : (s.setSeq u q).slotC = s.slotC := by rfl
@[simp] theorem State.setSeq_retPend (s : State) (u : Nat) (q : SeqS) : (s.setSeq u q).retPend = s.retPend := by rfl
@[simp] theorem State.setSeq_egr (s : State) (u : Nat) (q : SeqS) : (s.setSeq u q).egr = s.egr := by rfl
@[simp] theorem State.setSeq_txFree (s : State) (u : Nat) (q : SeqS) : (s.setSeq u q).txFree = s.txFree := by rfl
@[simp] theorem State.setSeq_frameNo (s : State) (u : Nat) (q : SeqS) : (s.setSeq u q).frameNo = s.frameNo := by rfl
@[simp] theorem State.setSeq_rtpSeq (s : State) (u : Nat) (q : SeqS) : (s.setSeq u q).rtpSeq = s.rtpSeq := by rfl
@[simp] theorem State.setSeq_subs (s : State) (u : Nat) (q : SeqS) : (s.setSeq u q).subs = s.subs := by rfl
@[simp] theorem State.setSeq_shapers (s : State) (u : Nat) (q : SeqS) : (s.setSeq u q).shapers = s.shapers := by rfl
@[simp] theorem State.setSeq_gates (s : State) (u : Nat) (q : SeqS) : (s.setSeq u q).gates = s.gates := by rfl
@[simp] theorem State.setSeq_ptpRx (s : State) (u : Nat) (q : SeqS) : (s.setSeq u q).ptpRx = s.ptpRx := by rfl
@[simp] theorem State.setSeq_tsb (s : State) (u : Nat) (q : SeqS) : (s.setSeq u q).tsb = s.tsb := by rfl
@[simp] theorem State.setSeq_ptpServo (s : State) (u : Nat) (q : SeqS) : (s.setSeq u q).ptpServo = s.ptpServo := by rfl
@[simp] theorem State.setSeq_mem (s : State) (u : Nat) (q : SeqS) : (s.setSeq u q).mem = s.mem := by rfl
@[simp] theorem State.setSeq_injRecs (s : State) (u : Nat) (q : SeqS) : (s.setSeq u q).injRecs = s.injRecs := by rfl
@[simp] theorem State.setSeq_filled (s : State) (u : Nat) (q : SeqS) : (s.setSeq u q).filled = s.filled := by rfl
@[simp] theorem State.setSeq_images (s : State) (u : Nat) (q : SeqS) : (s.setSeq u q).images = s.images := by rfl
@[simp] theorem State.setSeq_chkLeft (s : State) (u : Nat) (q : SeqS) : (s.setSeq u q).chkLeft = s.chkLeft := by rfl
@[simp] theorem State.setSeq_badRows (s : State) (u : Nat) (q : SeqS) : (s.setSeq u q).badRows = s.badRows := by rfl
@[simp] theorem State.setSeq_lost (s : State) (u : Nat) (q : SeqS) : (s.setSeq u q).lost = s.lost := by rfl
@[simp] theorem State.setSeq_celCe (s : State) (u : Nat) (q : SeqS) : (s.setSeq u q).celCe = s.celCe := by rfl
@[simp] theorem State.setSeq_celDly (s : State) (u : Nat) (q : SeqS) : (s.setSeq u q).celDly = s.celDly := by rfl
@[simp] theorem State.setSeq_celVref (s : State) (u : Nat) (q : SeqS) : (s.setSeq u q).celVref = s.celVref := by rfl
@[simp] theorem State.setSeq_pcs (s : State) (u : Nat) (q : SeqS) : (s.setSeq u q).pcs = s.pcs := by rfl
@[simp] theorem State.setSeq_stackTab (s : State) (u : Nat) (q : SeqS) : (s.setSeq u q).stackTab = s.stackTab := by rfl
@[simp] theorem State.setSeq_ldrCol (s : State) (u : Nat) (q : SeqS) : (s.setSeq u q).ldrCol = s.ldrCol := by rfl
@[simp] theorem State.setSeq_training (s : State) (u : Nat) (q : SeqS) : (s.setSeq u q).training = s.training := by rfl
@[simp] theorem State.setSeq_adapting (s : State) (u : Nat) (q : SeqS) : (s.setSeq u q).adapting = s.adapting := by rfl
@[simp] theorem State.setSeq_laneSet (s : State) (u : Nat) (q : SeqS) : (s.setSeq u q).laneSet = s.laneSet := by rfl
@[simp] theorem State.setSeq_blFrom (s : State) (u : Nat) (q : SeqS) : (s.setSeq u q).blFrom = s.blFrom := by rfl
@[simp] theorem State.setSeq_qps (s : State) (u : Nat) (q : SeqS) : (s.setSeq u q).qps = s.qps := by rfl
@[simp] theorem State.setSeq_hchs (s : State) (u : Nat) (q : SeqS) : (s.setSeq u q).hchs = s.hchs := by rfl
@[simp] theorem State.setSeq_hgrant (s : State) (u : Nat) (q : SeqS) : (s.setSeq u q).hgrant = s.hgrant := by rfl
@[simp] theorem State.setSeq_ptpPos (s : State) (u : Nat) (q : SeqS) : (s.setSeq u q).ptpPos = s.ptpPos := by rfl
@[simp] theorem State.setSeq_cps (s : State) (u : Nat) (q : SeqS) : (s.setSeq u q).cps = s.cps := by rfl
@[simp] theorem State.setSeq_push (s : State) (u : Nat) (q : SeqS) : (s.setSeq u q).push = s.push := by rfl
@[simp] theorem State.setSeq_bank0 (s : State) (u : Nat) (q : SeqS) : (s.setSeq u q).bank0 = s.bank0 := by rfl
@[simp] theorem State.setSeq_bank1 (s : State) (u : Nat) (q : SeqS) : (s.setSeq u q).bank1 = s.bank1 := by rfl
@[simp] theorem State.setSeq_sleep (s : State) (u : Nat) (q : SeqS) : (s.setSeq u q).sleep = s.sleep := by rfl
@[simp] theorem State.setSeq_swap (s : State) (u : Nat) (q : SeqS) : (s.setSeq u q).swap = s.swap := by rfl
@[simp] theorem State.setSeq_resetReq (s : State) (u : Nat) (q : SeqS) : (s.setSeq u q).resetReq = s.resetReq := by rfl
@[simp] theorem State.setSeq_wakeN (s : State) (u : Nat) (q : SeqS) : (s.setSeq u q).wakeN = s.wakeN := by rfl
@[simp] theorem State.setSeq_rails (s : State) (u : Nat) (q : SeqS) : (s.setSeq u q).rails = s.rails := by rfl
@[simp] theorem State.setSeq_railF (s : State) (u : Nat) (q : SeqS) : (s.setSeq u q).railF = s.railF := by rfl
@[simp] theorem State.setSeq_avsAgain (s : State) (u : Nat) (q : SeqS) : (s.setSeq u q).avsAgain = s.avsAgain := by rfl
@[simp] theorem State.setSeq_voutExp (s : State) (u : Nat) (q : SeqS) : (s.setSeq u q).voutExp = s.voutExp := by rfl
@[simp] theorem State.setSeq_straps (s : State) (u : Nat) (q : SeqS) : (s.setSeq u q).straps = s.straps := by rfl
@[simp] theorem State.setSeq_strm (s : State) (u : Nat) (q : SeqS) (k : Nat) : (s.setSeq u q).strm k = s.strm k := by rfl
@[simp] theorem State.setSeq_gen (s : State) (u : Nat) (q : SeqS) (k : Nat) : (s.setSeq u q).gen k = s.gen k := by rfl
@[simp] theorem State.setSeq_feed (s : State) (u : Nat) (q : SeqS) (k : Nat) : (s.setSeq u q).feed k = s.feed k := by rfl
@[simp] theorem State.setSeq_crew (s : State) (u : Nat) (q : SeqS) (k : Nat) : (s.setSeq u q).crew k = s.crew k := by rfl
@[simp] theorem State.setSeq_run (s : State) (u : Nat) (q : SeqS) (k : Nat) : (s.setSeq u q).run k = s.run k := by rfl
@[simp] theorem State.setSeq_ring (s : State) (u : Nat) (q : SeqS) (k : Nat) : (s.setSeq u q).ring k = s.ring k := by rfl
@[simp] theorem State.setSeq_tallySrc (s : State) (u : Nat) (q : SeqS) (k : Nat) : (s.setSeq u q).tallySrc k = s.tallySrc k := by rfl
@[simp] theorem State.setSeq_cp (s : State) (u : Nat) (q : SeqS) (k : Nat) : (s.setSeq u q).cp k = s.cp k := by rfl
@[simp] theorem State.setSeq_slotPicOf (s : State) (u : Nat) (q : SeqS) (k : Nat) : (s.setSeq u q).slotPicOf k = s.slotPicOf k := by rfl
@[simp] theorem State.setSeq_window (s : State) (u : Nat) (q : SeqS) (k : Nat) : (s.setSeq u q).window k = s.window k := by rfl
@[simp] theorem State.setSeq_frames (s : State) (u : Nat) (q : SeqS) (k : Nat) : (s.setSeq u q).frames k = s.frames k := by rfl
@[simp] theorem State.setSeq_sub (s : State) (u : Nat) (q : SeqS) (k : Nat) : (s.setSeq u q).sub k = s.sub k := by rfl
@[simp] theorem State.setSeq_stack (s : State) (u : Nat) (q : SeqS) (k : Nat) : (s.setSeq u q).stack k = s.stack k := by rfl
@[simp] theorem State.setSeq_hch (s : State) (u : Nat) (q : SeqS) (k : Nat) : (s.setSeq u q).hch k = s.hch k := by rfl
@[simp] theorem State.setSeq_qp (s : State) (u : Nat) (q : SeqS) (k : Nat) : (s.setSeq u q).qp k = s.qp k := by rfl
@[simp] theorem State.setSeq_get (s : State) (u : Nat) (q : SeqS) (k : RF) : (s.setSeq u q).get k = s.get k := by rfl
@[simp] theorem State.setSeq_flag (s : State) (u : Nat) (q : SeqS) (k : RF) : (s.setSeq u q).flag k = s.flag k := by rfl
@[simp] theorem State.setSeq_reg (s : State) (u : Nat) (q : SeqS) (k : Nat) : (s.setSeq u q).reg k = s.reg k := by rfl

/-! ### setProg -/

@[simp] theorem State.setProg_pending (s : State) (g : Prog) : (s.setProg g).pending = s.pending := by rfl
@[simp] theorem State.setProg_regs (s : State) (g : Prog) : (s.setProg g).regs = s.regs := by rfl
@[simp] theorem State.setProg_part (s : State) (g : Prog) : (s.setProg g).part = s.part := by rfl
@[simp] theorem State.setProg_rst (s : State) (g : Prog) : (s.setProg g).rst = s.rst := by rfl
@[simp] theorem State.setProg_now (s : State) (g : Prog) : (s.setProg g).now = s.now := by rfl
@[simp] theorem State.setProg_prev (s : State) (g : Prog) : (s.setProg g).prev = s.prev := by rfl
@[simp] theorem State.setProg_cyc (s : State) (g : Prog) : (s.setProg g).cyc = s.cyc := by rfl
@[simp] theorem State.setProg_fired (s : State) (g : Prog) : (s.setProg g).fired = s.fired := by rfl
@[simp] theorem State.setProg_hot (s : State) (g : Prog) : (s.setProg g).hot = s.hot := by rfl
@[simp] theorem State.setProg_freed (s : State) (g : Prog) : (s.setProg g).freed = s.freed := by rfl
@[simp] theorem State.setProg_waitDue (s : State) (g : Prog) : (s.setProg g).waitDue = s.waitDue := by rfl
@[simp] theorem State.setProg_turns (s : State) (g : Prog) : (s.setProg g).turns = s.turns := by rfl
@[simp] theorem State.setProg_rate (s : State) (g : Prog) : (s.setProg g).rate = s.rate := by rfl
@[simp] theorem State.setProg_ppsNs (s : State) (g : Prog) : (s.setProg g).ppsNs = s.ppsNs := by rfl
@[simp] theorem State.setProg_ppsHigh (s : State) (g : Prog) : (s.setProg g).ppsHigh = s.ppsHigh := by rfl
@[simp] theorem State.setProg_relock (s : State) (g : Prog) : (s.setProg g).relock = s.relock := by rfl
@[simp] theorem State.setProg_gens (s : State) (g : Prog) : (s.setProg g).gens = s.gens := by rfl
@[simp] theorem State.setProg_freeCtr (s : State) (g : Prog) : (s.setProg g).freeCtr = s.freeCtr := by rfl
@[simp] theorem State.setProg_held (s : State) (g : Prog) : (s.setProg g).held = s.held := by rfl
@[simp] theorem State.setProg_heldWait (s : State) (g : Prog) : (s.setProg g).heldWait = s.heldWait := by rfl
@[simp] theorem State.setProg_tsrc (s : State) (g : Prog) : (s.setProg g).tsrc = s.tsrc := by rfl
@[simp] theorem State.setProg_twin (s : State) (g : Prog) : (s.setProg g).twin = s.twin := by rfl
@[simp] theorem State.setProg_gath (s : State) (g : Prog) : (s.setProg g).gath = s.gath := by rfl
@[simp] theorem State.setProg_claimed (s : State) (g : Prog) : (s.setProg g).claimed = s.claimed := by rfl
@[simp] theorem State.setProg_tgtDef (s : State) (g : Prog) : (s.setProg g).tgtDef = s.tgtDef := by rfl
@[simp] theorem State.setProg_holdOff (s : State) (g : Prog) : (s.setProg g).holdOff = s.holdOff := by rfl
@[simp] theorem State.setProg_pins (s : State) (g : Prog) : (s.setProg g).pins = s.pins := by rfl
@[simp] theorem State.setProg_looked (s : State) (g : Prog) : (s.setProg g).looked = s.looked := by rfl
@[simp] theorem State.setProg_preempt (s : State) (g : Prog) : (s.setProg g).preempt = s.preempt := by rfl
@[simp] theorem State.setProg_rings (s : State) (g : Prog) : (s.setProg g).rings = s.rings := by rfl
@[simp] theorem State.setProg_fetched (s : State) (g : Prog) : (s.setProg g).fetched = s.fetched := by rfl
@[simp] theorem State.setProg_lifted (s : State) (g : Prog) : (s.setProg g).lifted = s.lifted := by rfl
@[simp] theorem State.setProg_owed (s : State) (g : Prog) : (s.setProg g).owed = s.owed := by rfl
@[simp] theorem State.setProg_turn (s : State) (g : Prog) : (s.setProg g).turn = s.turn := by rfl
@[simp] theorem State.setProg_outbox (s : State) (g : Prog) : (s.setProg g).outbox = s.outbox := by rfl
@[simp] theorem State.setProg_streams (s : State) (g : Prog) : (s.setProg g).streams = s.streams := by rfl
@[simp] theorem State.setProg_feeds (s : State) (g : Prog) : (s.setProg g).feeds = s.feeds := by rfl
@[simp] theorem State.setProg_crews (s : State) (g : Prog) : (s.setProg g).crews = s.crews := by rfl
@[simp] theorem State.setProg_runs (s : State) (g : Prog) : (s.setProg g).runs = s.runs := by rfl
@[simp] theorem State.setProg_ended (s : State) (g : Prog) : (s.setProg g).ended = s.ended := by rfl
@[simp] theorem State.setProg_seqs (s : State) (g : Prog) : (s.setProg g).seqs = s.seqs := by rfl
@[simp] theorem State.setProg_therm (s : State) (g : Prog) : (s.setProg g).therm = s.therm := by rfl
@[simp] theorem State.setProg_scache (s : State) (g : Prog) : (s.setProg g).scache = s.scache := by rfl
@[simp] theorem State.setProg_slotPic (s : State) (g : Prog) : (s.setProg g).slotPic = s.slotPic := by rfl
@[simp] theorem State.setProg_slotSz (s : State) (g : Prog) : (s.setProg g).slotSz = s.slotSz := by rfl
@[simp] theorem State.setProg_slotNref (s : State) (g : Prog) : (s.setProg g).slotNref = s.slotNref := by rfl
@[simp] theorem State.setProg_slotC (s : State) (g : Prog) : (s.setProg g).slotC = s.slotC := by rfl
@[simp] theorem State.setProg_retPend (s : State) (g : Prog) : (s.setProg g).retPend = s.retPend := by rfl
@[simp] theorem State.setProg_egr (s : State) (g : Prog) : (s.setProg g).egr = s.egr := by rfl
@[simp] theorem State.setProg_txFree (s : State) (g : Prog) : (s.setProg g).txFree = s.txFree := by rfl
@[simp] theorem State.setProg_frameNo (s : State) (g : Prog) : (s.setProg g).frameNo = s.frameNo := by rfl
@[simp] theorem State.setProg_rtpSeq (s : State) (g : Prog) : (s.setProg g).rtpSeq = s.rtpSeq := by rfl
@[simp] theorem State.setProg_subs (s : State) (g : Prog) : (s.setProg g).subs = s.subs := by rfl
@[simp] theorem State.setProg_shapers (s : State) (g : Prog) : (s.setProg g).shapers = s.shapers := by rfl
@[simp] theorem State.setProg_gates (s : State) (g : Prog) : (s.setProg g).gates = s.gates := by rfl
@[simp] theorem State.setProg_ptpRx (s : State) (g : Prog) : (s.setProg g).ptpRx = s.ptpRx := by rfl
@[simp] theorem State.setProg_tsb (s : State) (g : Prog) : (s.setProg g).tsb = s.tsb := by rfl
@[simp] theorem State.setProg_ptpServo (s : State) (g : Prog) : (s.setProg g).ptpServo = s.ptpServo := by rfl
@[simp] theorem State.setProg_mem (s : State) (g : Prog) : (s.setProg g).mem = s.mem := by rfl
@[simp] theorem State.setProg_injRecs (s : State) (g : Prog) : (s.setProg g).injRecs = s.injRecs := by rfl
@[simp] theorem State.setProg_filled (s : State) (g : Prog) : (s.setProg g).filled = s.filled := by rfl
@[simp] theorem State.setProg_images (s : State) (g : Prog) : (s.setProg g).images = s.images := by rfl
@[simp] theorem State.setProg_chkLeft (s : State) (g : Prog) : (s.setProg g).chkLeft = s.chkLeft := by rfl
@[simp] theorem State.setProg_badRows (s : State) (g : Prog) : (s.setProg g).badRows = s.badRows := by rfl
@[simp] theorem State.setProg_lost (s : State) (g : Prog) : (s.setProg g).lost = s.lost := by rfl
@[simp] theorem State.setProg_celCe (s : State) (g : Prog) : (s.setProg g).celCe = s.celCe := by rfl
@[simp] theorem State.setProg_celDly (s : State) (g : Prog) : (s.setProg g).celDly = s.celDly := by rfl
@[simp] theorem State.setProg_celVref (s : State) (g : Prog) : (s.setProg g).celVref = s.celVref := by rfl
@[simp] theorem State.setProg_pcs (s : State) (g : Prog) : (s.setProg g).pcs = s.pcs := by rfl
@[simp] theorem State.setProg_stackTab (s : State) (g : Prog) : (s.setProg g).stackTab = s.stackTab := by rfl
@[simp] theorem State.setProg_ldrCol (s : State) (g : Prog) : (s.setProg g).ldrCol = s.ldrCol := by rfl
@[simp] theorem State.setProg_training (s : State) (g : Prog) : (s.setProg g).training = s.training := by rfl
@[simp] theorem State.setProg_adapting (s : State) (g : Prog) : (s.setProg g).adapting = s.adapting := by rfl
@[simp] theorem State.setProg_laneSet (s : State) (g : Prog) : (s.setProg g).laneSet = s.laneSet := by rfl
@[simp] theorem State.setProg_blFrom (s : State) (g : Prog) : (s.setProg g).blFrom = s.blFrom := by rfl
@[simp] theorem State.setProg_qps (s : State) (g : Prog) : (s.setProg g).qps = s.qps := by rfl
@[simp] theorem State.setProg_hchs (s : State) (g : Prog) : (s.setProg g).hchs = s.hchs := by rfl
@[simp] theorem State.setProg_hgrant (s : State) (g : Prog) : (s.setProg g).hgrant = s.hgrant := by rfl
@[simp] theorem State.setProg_ptpPos (s : State) (g : Prog) : (s.setProg g).ptpPos = s.ptpPos := by rfl
@[simp] theorem State.setProg_cps (s : State) (g : Prog) : (s.setProg g).cps = s.cps := by rfl
@[simp] theorem State.setProg_push (s : State) (g : Prog) : (s.setProg g).push = s.push := by rfl
@[simp] theorem State.setProg_bank0 (s : State) (g : Prog) : (s.setProg g).bank0 = s.bank0 := by rfl
@[simp] theorem State.setProg_bank1 (s : State) (g : Prog) : (s.setProg g).bank1 = s.bank1 := by rfl
@[simp] theorem State.setProg_sleep (s : State) (g : Prog) : (s.setProg g).sleep = s.sleep := by rfl
@[simp] theorem State.setProg_swap (s : State) (g : Prog) : (s.setProg g).swap = s.swap := by rfl
@[simp] theorem State.setProg_resetReq (s : State) (g : Prog) : (s.setProg g).resetReq = s.resetReq := by rfl
@[simp] theorem State.setProg_wakeN (s : State) (g : Prog) : (s.setProg g).wakeN = s.wakeN := by rfl
@[simp] theorem State.setProg_rails (s : State) (g : Prog) : (s.setProg g).rails = s.rails := by rfl
@[simp] theorem State.setProg_railF (s : State) (g : Prog) : (s.setProg g).railF = s.railF := by rfl
@[simp] theorem State.setProg_avsAgain (s : State) (g : Prog) : (s.setProg g).avsAgain = s.avsAgain := by rfl
@[simp] theorem State.setProg_voutExp (s : State) (g : Prog) : (s.setProg g).voutExp = s.voutExp := by rfl
@[simp] theorem State.setProg_straps (s : State) (g : Prog) : (s.setProg g).straps = s.straps := by rfl
@[simp] theorem State.setProg_strm (s : State) (g : Prog) (k : Nat) : (s.setProg g).strm k = s.strm k := by rfl
@[simp] theorem State.setProg_gen (s : State) (g : Prog) (k : Nat) : (s.setProg g).gen k = s.gen k := by rfl
@[simp] theorem State.setProg_feed (s : State) (g : Prog) (k : Nat) : (s.setProg g).feed k = s.feed k := by rfl
@[simp] theorem State.setProg_crew (s : State) (g : Prog) (k : Nat) : (s.setProg g).crew k = s.crew k := by rfl
@[simp] theorem State.setProg_run (s : State) (g : Prog) (k : Nat) : (s.setProg g).run k = s.run k := by rfl
@[simp] theorem State.setProg_ring (s : State) (g : Prog) (k : Nat) : (s.setProg g).ring k = s.ring k := by rfl
@[simp] theorem State.setProg_tallySrc (s : State) (g : Prog) (k : Nat) : (s.setProg g).tallySrc k = s.tallySrc k := by rfl
@[simp] theorem State.setProg_cp (s : State) (g : Prog) (k : Nat) : (s.setProg g).cp k = s.cp k := by rfl
@[simp] theorem State.setProg_slotPicOf (s : State) (g : Prog) (k : Nat) : (s.setProg g).slotPicOf k = s.slotPicOf k := by rfl
@[simp] theorem State.setProg_window (s : State) (g : Prog) (k : Nat) : (s.setProg g).window k = s.window k := by rfl
@[simp] theorem State.setProg_frames (s : State) (g : Prog) (k : Nat) : (s.setProg g).frames k = s.frames k := by rfl
@[simp] theorem State.setProg_sub (s : State) (g : Prog) (k : Nat) : (s.setProg g).sub k = s.sub k := by rfl
@[simp] theorem State.setProg_stack (s : State) (g : Prog) (k : Nat) : (s.setProg g).stack k = s.stack k := by rfl
@[simp] theorem State.setProg_seq (s : State) (g : Prog) (k : Nat) : (s.setProg g).seq k = s.seq k := by rfl
@[simp] theorem State.setProg_hch (s : State) (g : Prog) (k : Nat) : (s.setProg g).hch k = s.hch k := by rfl
@[simp] theorem State.setProg_qp (s : State) (g : Prog) (k : Nat) : (s.setProg g).qp k = s.qp k := by rfl
@[simp] theorem State.setProg_get (s : State) (g : Prog) (k : RF) : (s.setProg g).get k = s.get k := by rfl
@[simp] theorem State.setProg_flag (s : State) (g : Prog) (k : RF) : (s.setProg g).flag k = s.flag k := by rfl
@[simp] theorem State.setProg_reg (s : State) (g : Prog) (k : Nat) : (s.setProg g).reg k = s.reg k := by rfl

/-! ### setShaper -/

@[simp] theorem State.setShaper_pending (s : State) (k : Nat) (v : ShaperS) : (s.setShaper k v).pending = s.pending := by rfl
@[simp] theorem State.setShaper_regs (s : State) (k : Nat) (v : ShaperS) : (s.setShaper k v).regs = s.regs := by rfl
@[simp] theorem State.setShaper_part (s : State) (k : Nat) (v : ShaperS) : (s.setShaper k v).part = s.part := by rfl
@[simp] theorem State.setShaper_rst (s : State) (k : Nat) (v : ShaperS) : (s.setShaper k v).rst = s.rst := by rfl
@[simp] theorem State.setShaper_now (s : State) (k : Nat) (v : ShaperS) : (s.setShaper k v).now = s.now := by rfl
@[simp] theorem State.setShaper_prev (s : State) (k : Nat) (v : ShaperS) : (s.setShaper k v).prev = s.prev := by rfl
@[simp] theorem State.setShaper_cyc (s : State) (k : Nat) (v : ShaperS) : (s.setShaper k v).cyc = s.cyc := by rfl
@[simp] theorem State.setShaper_fired (s : State) (k : Nat) (v : ShaperS) : (s.setShaper k v).fired = s.fired := by rfl
@[simp] theorem State.setShaper_hot (s : State) (k : Nat) (v : ShaperS) : (s.setShaper k v).hot = s.hot := by rfl
@[simp] theorem State.setShaper_freed (s : State) (k : Nat) (v : ShaperS) : (s.setShaper k v).freed = s.freed := by rfl
@[simp] theorem State.setShaper_waitDue (s : State) (k : Nat) (v : ShaperS) : (s.setShaper k v).waitDue = s.waitDue := by rfl
@[simp] theorem State.setShaper_turns (s : State) (k : Nat) (v : ShaperS) : (s.setShaper k v).turns = s.turns := by rfl
@[simp] theorem State.setShaper_rate (s : State) (k : Nat) (v : ShaperS) : (s.setShaper k v).rate = s.rate := by rfl
@[simp] theorem State.setShaper_ppsNs (s : State) (k : Nat) (v : ShaperS) : (s.setShaper k v).ppsNs = s.ppsNs := by rfl
@[simp] theorem State.setShaper_ppsHigh (s : State) (k : Nat) (v : ShaperS) : (s.setShaper k v).ppsHigh = s.ppsHigh := by rfl
@[simp] theorem State.setShaper_relock (s : State) (k : Nat) (v : ShaperS) : (s.setShaper k v).relock = s.relock := by rfl
@[simp] theorem State.setShaper_gens (s : State) (k : Nat) (v : ShaperS) : (s.setShaper k v).gens = s.gens := by rfl
@[simp] theorem State.setShaper_freeCtr (s : State) (k : Nat) (v : ShaperS) : (s.setShaper k v).freeCtr = s.freeCtr := by rfl
@[simp] theorem State.setShaper_held (s : State) (k : Nat) (v : ShaperS) : (s.setShaper k v).held = s.held := by rfl
@[simp] theorem State.setShaper_heldWait (s : State) (k : Nat) (v : ShaperS) : (s.setShaper k v).heldWait = s.heldWait := by rfl
@[simp] theorem State.setShaper_tsrc (s : State) (k : Nat) (v : ShaperS) : (s.setShaper k v).tsrc = s.tsrc := by rfl
@[simp] theorem State.setShaper_twin (s : State) (k : Nat) (v : ShaperS) : (s.setShaper k v).twin = s.twin := by rfl
@[simp] theorem State.setShaper_gath (s : State) (k : Nat) (v : ShaperS) : (s.setShaper k v).gath = s.gath := by rfl
@[simp] theorem State.setShaper_claimed (s : State) (k : Nat) (v : ShaperS) : (s.setShaper k v).claimed = s.claimed := by rfl
@[simp] theorem State.setShaper_tgtDef (s : State) (k : Nat) (v : ShaperS) : (s.setShaper k v).tgtDef = s.tgtDef := by rfl
@[simp] theorem State.setShaper_holdOff (s : State) (k : Nat) (v : ShaperS) : (s.setShaper k v).holdOff = s.holdOff := by rfl
@[simp] theorem State.setShaper_pins (s : State) (k : Nat) (v : ShaperS) : (s.setShaper k v).pins = s.pins := by rfl
@[simp] theorem State.setShaper_looked (s : State) (k : Nat) (v : ShaperS) : (s.setShaper k v).looked = s.looked := by rfl
@[simp] theorem State.setShaper_preempt (s : State) (k : Nat) (v : ShaperS) : (s.setShaper k v).preempt = s.preempt := by rfl
@[simp] theorem State.setShaper_rings (s : State) (k : Nat) (v : ShaperS) : (s.setShaper k v).rings = s.rings := by rfl
@[simp] theorem State.setShaper_fetched (s : State) (k : Nat) (v : ShaperS) : (s.setShaper k v).fetched = s.fetched := by rfl
@[simp] theorem State.setShaper_lifted (s : State) (k : Nat) (v : ShaperS) : (s.setShaper k v).lifted = s.lifted := by rfl
@[simp] theorem State.setShaper_owed (s : State) (k : Nat) (v : ShaperS) : (s.setShaper k v).owed = s.owed := by rfl
@[simp] theorem State.setShaper_turn (s : State) (k : Nat) (v : ShaperS) : (s.setShaper k v).turn = s.turn := by rfl
@[simp] theorem State.setShaper_outbox (s : State) (k : Nat) (v : ShaperS) : (s.setShaper k v).outbox = s.outbox := by rfl
@[simp] theorem State.setShaper_streams (s : State) (k : Nat) (v : ShaperS) : (s.setShaper k v).streams = s.streams := by rfl
@[simp] theorem State.setShaper_feeds (s : State) (k : Nat) (v : ShaperS) : (s.setShaper k v).feeds = s.feeds := by rfl
@[simp] theorem State.setShaper_crews (s : State) (k : Nat) (v : ShaperS) : (s.setShaper k v).crews = s.crews := by rfl
@[simp] theorem State.setShaper_runs (s : State) (k : Nat) (v : ShaperS) : (s.setShaper k v).runs = s.runs := by rfl
@[simp] theorem State.setShaper_ended (s : State) (k : Nat) (v : ShaperS) : (s.setShaper k v).ended = s.ended := by rfl
@[simp] theorem State.setShaper_seqs (s : State) (k : Nat) (v : ShaperS) : (s.setShaper k v).seqs = s.seqs := by rfl
@[simp] theorem State.setShaper_therm (s : State) (k : Nat) (v : ShaperS) : (s.setShaper k v).therm = s.therm := by rfl
@[simp] theorem State.setShaper_progs (s : State) (k : Nat) (v : ShaperS) : (s.setShaper k v).progs = s.progs := by rfl
@[simp] theorem State.setShaper_scache (s : State) (k : Nat) (v : ShaperS) : (s.setShaper k v).scache = s.scache := by rfl
@[simp] theorem State.setShaper_slotPic (s : State) (k : Nat) (v : ShaperS) : (s.setShaper k v).slotPic = s.slotPic := by rfl
@[simp] theorem State.setShaper_slotSz (s : State) (k : Nat) (v : ShaperS) : (s.setShaper k v).slotSz = s.slotSz := by rfl
@[simp] theorem State.setShaper_slotNref (s : State) (k : Nat) (v : ShaperS) : (s.setShaper k v).slotNref = s.slotNref := by rfl
@[simp] theorem State.setShaper_slotC (s : State) (k : Nat) (v : ShaperS) : (s.setShaper k v).slotC = s.slotC := by rfl
@[simp] theorem State.setShaper_retPend (s : State) (k : Nat) (v : ShaperS) : (s.setShaper k v).retPend = s.retPend := by rfl
@[simp] theorem State.setShaper_egr (s : State) (k : Nat) (v : ShaperS) : (s.setShaper k v).egr = s.egr := by rfl
@[simp] theorem State.setShaper_txFree (s : State) (k : Nat) (v : ShaperS) : (s.setShaper k v).txFree = s.txFree := by rfl
@[simp] theorem State.setShaper_frameNo (s : State) (k : Nat) (v : ShaperS) : (s.setShaper k v).frameNo = s.frameNo := by rfl
@[simp] theorem State.setShaper_rtpSeq (s : State) (k : Nat) (v : ShaperS) : (s.setShaper k v).rtpSeq = s.rtpSeq := by rfl
@[simp] theorem State.setShaper_subs (s : State) (k : Nat) (v : ShaperS) : (s.setShaper k v).subs = s.subs := by rfl
@[simp] theorem State.setShaper_gates (s : State) (k : Nat) (v : ShaperS) : (s.setShaper k v).gates = s.gates := by rfl
@[simp] theorem State.setShaper_ptpRx (s : State) (k : Nat) (v : ShaperS) : (s.setShaper k v).ptpRx = s.ptpRx := by rfl
@[simp] theorem State.setShaper_tsb (s : State) (k : Nat) (v : ShaperS) : (s.setShaper k v).tsb = s.tsb := by rfl
@[simp] theorem State.setShaper_ptpServo (s : State) (k : Nat) (v : ShaperS) : (s.setShaper k v).ptpServo = s.ptpServo := by rfl
@[simp] theorem State.setShaper_mem (s : State) (k : Nat) (v : ShaperS) : (s.setShaper k v).mem = s.mem := by rfl
@[simp] theorem State.setShaper_injRecs (s : State) (k : Nat) (v : ShaperS) : (s.setShaper k v).injRecs = s.injRecs := by rfl
@[simp] theorem State.setShaper_filled (s : State) (k : Nat) (v : ShaperS) : (s.setShaper k v).filled = s.filled := by rfl
@[simp] theorem State.setShaper_images (s : State) (k : Nat) (v : ShaperS) : (s.setShaper k v).images = s.images := by rfl
@[simp] theorem State.setShaper_chkLeft (s : State) (k : Nat) (v : ShaperS) : (s.setShaper k v).chkLeft = s.chkLeft := by rfl
@[simp] theorem State.setShaper_badRows (s : State) (k : Nat) (v : ShaperS) : (s.setShaper k v).badRows = s.badRows := by rfl
@[simp] theorem State.setShaper_lost (s : State) (k : Nat) (v : ShaperS) : (s.setShaper k v).lost = s.lost := by rfl
@[simp] theorem State.setShaper_celCe (s : State) (k : Nat) (v : ShaperS) : (s.setShaper k v).celCe = s.celCe := by rfl
@[simp] theorem State.setShaper_celDly (s : State) (k : Nat) (v : ShaperS) : (s.setShaper k v).celDly = s.celDly := by rfl
@[simp] theorem State.setShaper_celVref (s : State) (k : Nat) (v : ShaperS) : (s.setShaper k v).celVref = s.celVref := by rfl
@[simp] theorem State.setShaper_pcs (s : State) (k : Nat) (v : ShaperS) : (s.setShaper k v).pcs = s.pcs := by rfl
@[simp] theorem State.setShaper_stackTab (s : State) (k : Nat) (v : ShaperS) : (s.setShaper k v).stackTab = s.stackTab := by rfl
@[simp] theorem State.setShaper_ldrCol (s : State) (k : Nat) (v : ShaperS) : (s.setShaper k v).ldrCol = s.ldrCol := by rfl
@[simp] theorem State.setShaper_training (s : State) (k : Nat) (v : ShaperS) : (s.setShaper k v).training = s.training := by rfl
@[simp] theorem State.setShaper_adapting (s : State) (k : Nat) (v : ShaperS) : (s.setShaper k v).adapting = s.adapting := by rfl
@[simp] theorem State.setShaper_laneSet (s : State) (k : Nat) (v : ShaperS) : (s.setShaper k v).laneSet = s.laneSet := by rfl
@[simp] theorem State.setShaper_blFrom (s : State) (k : Nat) (v : ShaperS) : (s.setShaper k v).blFrom = s.blFrom := by rfl
@[simp] theorem State.setShaper_qps (s : State) (k : Nat) (v : ShaperS) : (s.setShaper k v).qps = s.qps := by rfl
@[simp] theorem State.setShaper_hchs (s : State) (k : Nat) (v : ShaperS) : (s.setShaper k v).hchs = s.hchs := by rfl
@[simp] theorem State.setShaper_hgrant (s : State) (k : Nat) (v : ShaperS) : (s.setShaper k v).hgrant = s.hgrant := by rfl
@[simp] theorem State.setShaper_ptpPos (s : State) (k : Nat) (v : ShaperS) : (s.setShaper k v).ptpPos = s.ptpPos := by rfl
@[simp] theorem State.setShaper_cps (s : State) (k : Nat) (v : ShaperS) : (s.setShaper k v).cps = s.cps := by rfl
@[simp] theorem State.setShaper_push (s : State) (k : Nat) (v : ShaperS) : (s.setShaper k v).push = s.push := by rfl
@[simp] theorem State.setShaper_bank0 (s : State) (k : Nat) (v : ShaperS) : (s.setShaper k v).bank0 = s.bank0 := by rfl
@[simp] theorem State.setShaper_bank1 (s : State) (k : Nat) (v : ShaperS) : (s.setShaper k v).bank1 = s.bank1 := by rfl
@[simp] theorem State.setShaper_sleep (s : State) (k : Nat) (v : ShaperS) : (s.setShaper k v).sleep = s.sleep := by rfl
@[simp] theorem State.setShaper_swap (s : State) (k : Nat) (v : ShaperS) : (s.setShaper k v).swap = s.swap := by rfl
@[simp] theorem State.setShaper_resetReq (s : State) (k : Nat) (v : ShaperS) : (s.setShaper k v).resetReq = s.resetReq := by rfl
@[simp] theorem State.setShaper_wakeN (s : State) (k : Nat) (v : ShaperS) : (s.setShaper k v).wakeN = s.wakeN := by rfl
@[simp] theorem State.setShaper_rails (s : State) (k : Nat) (v : ShaperS) : (s.setShaper k v).rails = s.rails := by rfl
@[simp] theorem State.setShaper_railF (s : State) (k : Nat) (v : ShaperS) : (s.setShaper k v).railF = s.railF := by rfl
@[simp] theorem State.setShaper_avsAgain (s : State) (k : Nat) (v : ShaperS) : (s.setShaper k v).avsAgain = s.avsAgain := by rfl
@[simp] theorem State.setShaper_voutExp (s : State) (k : Nat) (v : ShaperS) : (s.setShaper k v).voutExp = s.voutExp := by rfl
@[simp] theorem State.setShaper_straps (s : State) (k : Nat) (v : ShaperS) : (s.setShaper k v).straps = s.straps := by rfl
@[simp] theorem State.setShaper_strm (s : State) (k : Nat) (v : ShaperS) (k' : Nat) : (s.setShaper k v).strm k' = s.strm k' := by rfl
@[simp] theorem State.setShaper_gen (s : State) (k : Nat) (v : ShaperS) (k' : Nat) : (s.setShaper k v).gen k' = s.gen k' := by rfl
@[simp] theorem State.setShaper_feed (s : State) (k : Nat) (v : ShaperS) (k' : Nat) : (s.setShaper k v).feed k' = s.feed k' := by rfl
@[simp] theorem State.setShaper_crew (s : State) (k : Nat) (v : ShaperS) (k' : Nat) : (s.setShaper k v).crew k' = s.crew k' := by rfl
@[simp] theorem State.setShaper_run (s : State) (k : Nat) (v : ShaperS) (k' : Nat) : (s.setShaper k v).run k' = s.run k' := by rfl
@[simp] theorem State.setShaper_ring (s : State) (k : Nat) (v : ShaperS) (k' : Nat) : (s.setShaper k v).ring k' = s.ring k' := by rfl
@[simp] theorem State.setShaper_tallySrc (s : State) (k : Nat) (v : ShaperS) (k' : Nat) : (s.setShaper k v).tallySrc k' = s.tallySrc k' := by rfl
@[simp] theorem State.setShaper_cp (s : State) (k : Nat) (v : ShaperS) (k' : Nat) : (s.setShaper k v).cp k' = s.cp k' := by rfl
@[simp] theorem State.setShaper_slotPicOf (s : State) (k : Nat) (v : ShaperS) (k' : Nat) : (s.setShaper k v).slotPicOf k' = s.slotPicOf k' := by rfl
@[simp] theorem State.setShaper_window (s : State) (k : Nat) (v : ShaperS) (k' : Nat) : (s.setShaper k v).window k' = s.window k' := by rfl
@[simp] theorem State.setShaper_frames (s : State) (k : Nat) (v : ShaperS) (k' : Nat) : (s.setShaper k v).frames k' = s.frames k' := by rfl
@[simp] theorem State.setShaper_sub (s : State) (k : Nat) (v : ShaperS) (k' : Nat) : (s.setShaper k v).sub k' = s.sub k' := by rfl
@[simp] theorem State.setShaper_stack (s : State) (k : Nat) (v : ShaperS) (k' : Nat) : (s.setShaper k v).stack k' = s.stack k' := by rfl
@[simp] theorem State.setShaper_seq (s : State) (k : Nat) (v : ShaperS) (k' : Nat) : (s.setShaper k v).seq k' = s.seq k' := by rfl
@[simp] theorem State.setShaper_hch (s : State) (k : Nat) (v : ShaperS) (k' : Nat) : (s.setShaper k v).hch k' = s.hch k' := by rfl
@[simp] theorem State.setShaper_qp (s : State) (k : Nat) (v : ShaperS) (k' : Nat) : (s.setShaper k v).qp k' = s.qp k' := by rfl
@[simp] theorem State.setShaper_get (s : State) (k : Nat) (v : ShaperS) (k' : RF) : (s.setShaper k v).get k' = s.get k' := by rfl
@[simp] theorem State.setShaper_flag (s : State) (k : Nat) (v : ShaperS) (k' : RF) : (s.setShaper k v).flag k' = s.flag k' := by rfl
@[simp] theorem State.setShaper_reg (s : State) (k : Nat) (v : ShaperS) (k' : Nat) : (s.setShaper k v).reg k' = s.reg k' := by rfl

/-! ### setHch -/

@[simp] theorem State.setHch_pending (s : State) (g : Nat) (v : HchS) : (s.setHch g v).pending = s.pending := by rfl
@[simp] theorem State.setHch_regs (s : State) (g : Nat) (v : HchS) : (s.setHch g v).regs = s.regs := by rfl
@[simp] theorem State.setHch_part (s : State) (g : Nat) (v : HchS) : (s.setHch g v).part = s.part := by rfl
@[simp] theorem State.setHch_rst (s : State) (g : Nat) (v : HchS) : (s.setHch g v).rst = s.rst := by rfl
@[simp] theorem State.setHch_now (s : State) (g : Nat) (v : HchS) : (s.setHch g v).now = s.now := by rfl
@[simp] theorem State.setHch_prev (s : State) (g : Nat) (v : HchS) : (s.setHch g v).prev = s.prev := by rfl
@[simp] theorem State.setHch_cyc (s : State) (g : Nat) (v : HchS) : (s.setHch g v).cyc = s.cyc := by rfl
@[simp] theorem State.setHch_fired (s : State) (g : Nat) (v : HchS) : (s.setHch g v).fired = s.fired := by rfl
@[simp] theorem State.setHch_hot (s : State) (g : Nat) (v : HchS) : (s.setHch g v).hot = s.hot := by rfl
@[simp] theorem State.setHch_freed (s : State) (g : Nat) (v : HchS) : (s.setHch g v).freed = s.freed := by rfl
@[simp] theorem State.setHch_waitDue (s : State) (g : Nat) (v : HchS) : (s.setHch g v).waitDue = s.waitDue := by rfl
@[simp] theorem State.setHch_turns (s : State) (g : Nat) (v : HchS) : (s.setHch g v).turns = s.turns := by rfl
@[simp] theorem State.setHch_rate (s : State) (g : Nat) (v : HchS) : (s.setHch g v).rate = s.rate := by rfl
@[simp] theorem State.setHch_ppsNs (s : State) (g : Nat) (v : HchS) : (s.setHch g v).ppsNs = s.ppsNs := by rfl
@[simp] theorem State.setHch_ppsHigh (s : State) (g : Nat) (v : HchS) : (s.setHch g v).ppsHigh = s.ppsHigh := by rfl
@[simp] theorem State.setHch_relock (s : State) (g : Nat) (v : HchS) : (s.setHch g v).relock = s.relock := by rfl
@[simp] theorem State.setHch_gens (s : State) (g : Nat) (v : HchS) : (s.setHch g v).gens = s.gens := by rfl
@[simp] theorem State.setHch_freeCtr (s : State) (g : Nat) (v : HchS) : (s.setHch g v).freeCtr = s.freeCtr := by rfl
@[simp] theorem State.setHch_held (s : State) (g : Nat) (v : HchS) : (s.setHch g v).held = s.held := by rfl
@[simp] theorem State.setHch_heldWait (s : State) (g : Nat) (v : HchS) : (s.setHch g v).heldWait = s.heldWait := by rfl
@[simp] theorem State.setHch_tsrc (s : State) (g : Nat) (v : HchS) : (s.setHch g v).tsrc = s.tsrc := by rfl
@[simp] theorem State.setHch_twin (s : State) (g : Nat) (v : HchS) : (s.setHch g v).twin = s.twin := by rfl
@[simp] theorem State.setHch_gath (s : State) (g : Nat) (v : HchS) : (s.setHch g v).gath = s.gath := by rfl
@[simp] theorem State.setHch_claimed (s : State) (g : Nat) (v : HchS) : (s.setHch g v).claimed = s.claimed := by rfl
@[simp] theorem State.setHch_tgtDef (s : State) (g : Nat) (v : HchS) : (s.setHch g v).tgtDef = s.tgtDef := by rfl
@[simp] theorem State.setHch_holdOff (s : State) (g : Nat) (v : HchS) : (s.setHch g v).holdOff = s.holdOff := by rfl
@[simp] theorem State.setHch_pins (s : State) (g : Nat) (v : HchS) : (s.setHch g v).pins = s.pins := by rfl
@[simp] theorem State.setHch_looked (s : State) (g : Nat) (v : HchS) : (s.setHch g v).looked = s.looked := by rfl
@[simp] theorem State.setHch_preempt (s : State) (g : Nat) (v : HchS) : (s.setHch g v).preempt = s.preempt := by rfl
@[simp] theorem State.setHch_rings (s : State) (g : Nat) (v : HchS) : (s.setHch g v).rings = s.rings := by rfl
@[simp] theorem State.setHch_fetched (s : State) (g : Nat) (v : HchS) : (s.setHch g v).fetched = s.fetched := by rfl
@[simp] theorem State.setHch_lifted (s : State) (g : Nat) (v : HchS) : (s.setHch g v).lifted = s.lifted := by rfl
@[simp] theorem State.setHch_owed (s : State) (g : Nat) (v : HchS) : (s.setHch g v).owed = s.owed := by rfl
@[simp] theorem State.setHch_turn (s : State) (g : Nat) (v : HchS) : (s.setHch g v).turn = s.turn := by rfl
@[simp] theorem State.setHch_outbox (s : State) (g : Nat) (v : HchS) : (s.setHch g v).outbox = s.outbox := by rfl
@[simp] theorem State.setHch_streams (s : State) (g : Nat) (v : HchS) : (s.setHch g v).streams = s.streams := by rfl
@[simp] theorem State.setHch_feeds (s : State) (g : Nat) (v : HchS) : (s.setHch g v).feeds = s.feeds := by rfl
@[simp] theorem State.setHch_crews (s : State) (g : Nat) (v : HchS) : (s.setHch g v).crews = s.crews := by rfl
@[simp] theorem State.setHch_runs (s : State) (g : Nat) (v : HchS) : (s.setHch g v).runs = s.runs := by rfl
@[simp] theorem State.setHch_ended (s : State) (g : Nat) (v : HchS) : (s.setHch g v).ended = s.ended := by rfl
@[simp] theorem State.setHch_seqs (s : State) (g : Nat) (v : HchS) : (s.setHch g v).seqs = s.seqs := by rfl
@[simp] theorem State.setHch_therm (s : State) (g : Nat) (v : HchS) : (s.setHch g v).therm = s.therm := by rfl
@[simp] theorem State.setHch_progs (s : State) (g : Nat) (v : HchS) : (s.setHch g v).progs = s.progs := by rfl
@[simp] theorem State.setHch_scache (s : State) (g : Nat) (v : HchS) : (s.setHch g v).scache = s.scache := by rfl
@[simp] theorem State.setHch_slotPic (s : State) (g : Nat) (v : HchS) : (s.setHch g v).slotPic = s.slotPic := by rfl
@[simp] theorem State.setHch_slotSz (s : State) (g : Nat) (v : HchS) : (s.setHch g v).slotSz = s.slotSz := by rfl
@[simp] theorem State.setHch_slotNref (s : State) (g : Nat) (v : HchS) : (s.setHch g v).slotNref = s.slotNref := by rfl
@[simp] theorem State.setHch_slotC (s : State) (g : Nat) (v : HchS) : (s.setHch g v).slotC = s.slotC := by rfl
@[simp] theorem State.setHch_retPend (s : State) (g : Nat) (v : HchS) : (s.setHch g v).retPend = s.retPend := by rfl
@[simp] theorem State.setHch_egr (s : State) (g : Nat) (v : HchS) : (s.setHch g v).egr = s.egr := by rfl
@[simp] theorem State.setHch_txFree (s : State) (g : Nat) (v : HchS) : (s.setHch g v).txFree = s.txFree := by rfl
@[simp] theorem State.setHch_frameNo (s : State) (g : Nat) (v : HchS) : (s.setHch g v).frameNo = s.frameNo := by rfl
@[simp] theorem State.setHch_rtpSeq (s : State) (g : Nat) (v : HchS) : (s.setHch g v).rtpSeq = s.rtpSeq := by rfl
@[simp] theorem State.setHch_subs (s : State) (g : Nat) (v : HchS) : (s.setHch g v).subs = s.subs := by rfl
@[simp] theorem State.setHch_shapers (s : State) (g : Nat) (v : HchS) : (s.setHch g v).shapers = s.shapers := by rfl
@[simp] theorem State.setHch_gates (s : State) (g : Nat) (v : HchS) : (s.setHch g v).gates = s.gates := by rfl
@[simp] theorem State.setHch_ptpRx (s : State) (g : Nat) (v : HchS) : (s.setHch g v).ptpRx = s.ptpRx := by rfl
@[simp] theorem State.setHch_tsb (s : State) (g : Nat) (v : HchS) : (s.setHch g v).tsb = s.tsb := by rfl
@[simp] theorem State.setHch_ptpServo (s : State) (g : Nat) (v : HchS) : (s.setHch g v).ptpServo = s.ptpServo := by rfl
@[simp] theorem State.setHch_mem (s : State) (g : Nat) (v : HchS) : (s.setHch g v).mem = s.mem := by rfl
@[simp] theorem State.setHch_injRecs (s : State) (g : Nat) (v : HchS) : (s.setHch g v).injRecs = s.injRecs := by rfl
@[simp] theorem State.setHch_filled (s : State) (g : Nat) (v : HchS) : (s.setHch g v).filled = s.filled := by rfl
@[simp] theorem State.setHch_images (s : State) (g : Nat) (v : HchS) : (s.setHch g v).images = s.images := by rfl
@[simp] theorem State.setHch_chkLeft (s : State) (g : Nat) (v : HchS) : (s.setHch g v).chkLeft = s.chkLeft := by rfl
@[simp] theorem State.setHch_badRows (s : State) (g : Nat) (v : HchS) : (s.setHch g v).badRows = s.badRows := by rfl
@[simp] theorem State.setHch_lost (s : State) (g : Nat) (v : HchS) : (s.setHch g v).lost = s.lost := by rfl
@[simp] theorem State.setHch_celCe (s : State) (g : Nat) (v : HchS) : (s.setHch g v).celCe = s.celCe := by rfl
@[simp] theorem State.setHch_celDly (s : State) (g : Nat) (v : HchS) : (s.setHch g v).celDly = s.celDly := by rfl
@[simp] theorem State.setHch_celVref (s : State) (g : Nat) (v : HchS) : (s.setHch g v).celVref = s.celVref := by rfl
@[simp] theorem State.setHch_pcs (s : State) (g : Nat) (v : HchS) : (s.setHch g v).pcs = s.pcs := by rfl
@[simp] theorem State.setHch_stackTab (s : State) (g : Nat) (v : HchS) : (s.setHch g v).stackTab = s.stackTab := by rfl
@[simp] theorem State.setHch_ldrCol (s : State) (g : Nat) (v : HchS) : (s.setHch g v).ldrCol = s.ldrCol := by rfl
@[simp] theorem State.setHch_training (s : State) (g : Nat) (v : HchS) : (s.setHch g v).training = s.training := by rfl
@[simp] theorem State.setHch_adapting (s : State) (g : Nat) (v : HchS) : (s.setHch g v).adapting = s.adapting := by rfl
@[simp] theorem State.setHch_laneSet (s : State) (g : Nat) (v : HchS) : (s.setHch g v).laneSet = s.laneSet := by rfl
@[simp] theorem State.setHch_blFrom (s : State) (g : Nat) (v : HchS) : (s.setHch g v).blFrom = s.blFrom := by rfl
@[simp] theorem State.setHch_qps (s : State) (g : Nat) (v : HchS) : (s.setHch g v).qps = s.qps := by rfl
@[simp] theorem State.setHch_hgrant (s : State) (g : Nat) (v : HchS) : (s.setHch g v).hgrant = s.hgrant := by rfl
@[simp] theorem State.setHch_ptpPos (s : State) (g : Nat) (v : HchS) : (s.setHch g v).ptpPos = s.ptpPos := by rfl
@[simp] theorem State.setHch_cps (s : State) (g : Nat) (v : HchS) : (s.setHch g v).cps = s.cps := by rfl
@[simp] theorem State.setHch_push (s : State) (g : Nat) (v : HchS) : (s.setHch g v).push = s.push := by rfl
@[simp] theorem State.setHch_bank0 (s : State) (g : Nat) (v : HchS) : (s.setHch g v).bank0 = s.bank0 := by rfl
@[simp] theorem State.setHch_bank1 (s : State) (g : Nat) (v : HchS) : (s.setHch g v).bank1 = s.bank1 := by rfl
@[simp] theorem State.setHch_sleep (s : State) (g : Nat) (v : HchS) : (s.setHch g v).sleep = s.sleep := by rfl
@[simp] theorem State.setHch_swap (s : State) (g : Nat) (v : HchS) : (s.setHch g v).swap = s.swap := by rfl
@[simp] theorem State.setHch_resetReq (s : State) (g : Nat) (v : HchS) : (s.setHch g v).resetReq = s.resetReq := by rfl
@[simp] theorem State.setHch_wakeN (s : State) (g : Nat) (v : HchS) : (s.setHch g v).wakeN = s.wakeN := by rfl
@[simp] theorem State.setHch_rails (s : State) (g : Nat) (v : HchS) : (s.setHch g v).rails = s.rails := by rfl
@[simp] theorem State.setHch_railF (s : State) (g : Nat) (v : HchS) : (s.setHch g v).railF = s.railF := by rfl
@[simp] theorem State.setHch_avsAgain (s : State) (g : Nat) (v : HchS) : (s.setHch g v).avsAgain = s.avsAgain := by rfl
@[simp] theorem State.setHch_voutExp (s : State) (g : Nat) (v : HchS) : (s.setHch g v).voutExp = s.voutExp := by rfl
@[simp] theorem State.setHch_straps (s : State) (g : Nat) (v : HchS) : (s.setHch g v).straps = s.straps := by rfl
@[simp] theorem State.setHch_strm (s : State) (g : Nat) (v : HchS) (k : Nat) : (s.setHch g v).strm k = s.strm k := by rfl
@[simp] theorem State.setHch_gen (s : State) (g : Nat) (v : HchS) (k : Nat) : (s.setHch g v).gen k = s.gen k := by rfl
@[simp] theorem State.setHch_feed (s : State) (g : Nat) (v : HchS) (k : Nat) : (s.setHch g v).feed k = s.feed k := by rfl
@[simp] theorem State.setHch_crew (s : State) (g : Nat) (v : HchS) (k : Nat) : (s.setHch g v).crew k = s.crew k := by rfl
@[simp] theorem State.setHch_run (s : State) (g : Nat) (v : HchS) (k : Nat) : (s.setHch g v).run k = s.run k := by rfl
@[simp] theorem State.setHch_ring (s : State) (g : Nat) (v : HchS) (k : Nat) : (s.setHch g v).ring k = s.ring k := by rfl
@[simp] theorem State.setHch_tallySrc (s : State) (g : Nat) (v : HchS) (k : Nat) : (s.setHch g v).tallySrc k = s.tallySrc k := by rfl
@[simp] theorem State.setHch_cp (s : State) (g : Nat) (v : HchS) (k : Nat) : (s.setHch g v).cp k = s.cp k := by rfl
@[simp] theorem State.setHch_slotPicOf (s : State) (g : Nat) (v : HchS) (k : Nat) : (s.setHch g v).slotPicOf k = s.slotPicOf k := by rfl
@[simp] theorem State.setHch_window (s : State) (g : Nat) (v : HchS) (k : Nat) : (s.setHch g v).window k = s.window k := by rfl
@[simp] theorem State.setHch_frames (s : State) (g : Nat) (v : HchS) (k : Nat) : (s.setHch g v).frames k = s.frames k := by rfl
@[simp] theorem State.setHch_sub (s : State) (g : Nat) (v : HchS) (k : Nat) : (s.setHch g v).sub k = s.sub k := by rfl
@[simp] theorem State.setHch_stack (s : State) (g : Nat) (v : HchS) (k : Nat) : (s.setHch g v).stack k = s.stack k := by rfl
@[simp] theorem State.setHch_seq (s : State) (g : Nat) (v : HchS) (k : Nat) : (s.setHch g v).seq k = s.seq k := by rfl
@[simp] theorem State.setHch_qp (s : State) (g : Nat) (v : HchS) (k : Nat) : (s.setHch g v).qp k = s.qp k := by rfl
@[simp] theorem State.setHch_get (s : State) (g : Nat) (v : HchS) (k : RF) : (s.setHch g v).get k = s.get k := by rfl
@[simp] theorem State.setHch_flag (s : State) (g : Nat) (v : HchS) (k : RF) : (s.setHch g v).flag k = s.flag k := by rfl
@[simp] theorem State.setHch_reg (s : State) (g : Nat) (v : HchS) (k : Nat) : (s.setHch g v).reg k = s.reg k := by rfl

/-! ### updHch -/

@[simp] theorem State.updHch_pending (s : State) (g : Nat) (f : HchS → HchS) : (s.updHch g f).pending = s.pending := by rfl
@[simp] theorem State.updHch_regs (s : State) (g : Nat) (f : HchS → HchS) : (s.updHch g f).regs = s.regs := by rfl
@[simp] theorem State.updHch_part (s : State) (g : Nat) (f : HchS → HchS) : (s.updHch g f).part = s.part := by rfl
@[simp] theorem State.updHch_rst (s : State) (g : Nat) (f : HchS → HchS) : (s.updHch g f).rst = s.rst := by rfl
@[simp] theorem State.updHch_now (s : State) (g : Nat) (f : HchS → HchS) : (s.updHch g f).now = s.now := by rfl
@[simp] theorem State.updHch_prev (s : State) (g : Nat) (f : HchS → HchS) : (s.updHch g f).prev = s.prev := by rfl
@[simp] theorem State.updHch_cyc (s : State) (g : Nat) (f : HchS → HchS) : (s.updHch g f).cyc = s.cyc := by rfl
@[simp] theorem State.updHch_fired (s : State) (g : Nat) (f : HchS → HchS) : (s.updHch g f).fired = s.fired := by rfl
@[simp] theorem State.updHch_hot (s : State) (g : Nat) (f : HchS → HchS) : (s.updHch g f).hot = s.hot := by rfl
@[simp] theorem State.updHch_freed (s : State) (g : Nat) (f : HchS → HchS) : (s.updHch g f).freed = s.freed := by rfl
@[simp] theorem State.updHch_waitDue (s : State) (g : Nat) (f : HchS → HchS) : (s.updHch g f).waitDue = s.waitDue := by rfl
@[simp] theorem State.updHch_turns (s : State) (g : Nat) (f : HchS → HchS) : (s.updHch g f).turns = s.turns := by rfl
@[simp] theorem State.updHch_rate (s : State) (g : Nat) (f : HchS → HchS) : (s.updHch g f).rate = s.rate := by rfl
@[simp] theorem State.updHch_ppsNs (s : State) (g : Nat) (f : HchS → HchS) : (s.updHch g f).ppsNs = s.ppsNs := by rfl
@[simp] theorem State.updHch_ppsHigh (s : State) (g : Nat) (f : HchS → HchS) : (s.updHch g f).ppsHigh = s.ppsHigh := by rfl
@[simp] theorem State.updHch_relock (s : State) (g : Nat) (f : HchS → HchS) : (s.updHch g f).relock = s.relock := by rfl
@[simp] theorem State.updHch_gens (s : State) (g : Nat) (f : HchS → HchS) : (s.updHch g f).gens = s.gens := by rfl
@[simp] theorem State.updHch_freeCtr (s : State) (g : Nat) (f : HchS → HchS) : (s.updHch g f).freeCtr = s.freeCtr := by rfl
@[simp] theorem State.updHch_held (s : State) (g : Nat) (f : HchS → HchS) : (s.updHch g f).held = s.held := by rfl
@[simp] theorem State.updHch_heldWait (s : State) (g : Nat) (f : HchS → HchS) : (s.updHch g f).heldWait = s.heldWait := by rfl
@[simp] theorem State.updHch_tsrc (s : State) (g : Nat) (f : HchS → HchS) : (s.updHch g f).tsrc = s.tsrc := by rfl
@[simp] theorem State.updHch_twin (s : State) (g : Nat) (f : HchS → HchS) : (s.updHch g f).twin = s.twin := by rfl
@[simp] theorem State.updHch_gath (s : State) (g : Nat) (f : HchS → HchS) : (s.updHch g f).gath = s.gath := by rfl
@[simp] theorem State.updHch_claimed (s : State) (g : Nat) (f : HchS → HchS) : (s.updHch g f).claimed = s.claimed := by rfl
@[simp] theorem State.updHch_tgtDef (s : State) (g : Nat) (f : HchS → HchS) : (s.updHch g f).tgtDef = s.tgtDef := by rfl
@[simp] theorem State.updHch_holdOff (s : State) (g : Nat) (f : HchS → HchS) : (s.updHch g f).holdOff = s.holdOff := by rfl
@[simp] theorem State.updHch_pins (s : State) (g : Nat) (f : HchS → HchS) : (s.updHch g f).pins = s.pins := by rfl
@[simp] theorem State.updHch_looked (s : State) (g : Nat) (f : HchS → HchS) : (s.updHch g f).looked = s.looked := by rfl
@[simp] theorem State.updHch_preempt (s : State) (g : Nat) (f : HchS → HchS) : (s.updHch g f).preempt = s.preempt := by rfl
@[simp] theorem State.updHch_rings (s : State) (g : Nat) (f : HchS → HchS) : (s.updHch g f).rings = s.rings := by rfl
@[simp] theorem State.updHch_fetched (s : State) (g : Nat) (f : HchS → HchS) : (s.updHch g f).fetched = s.fetched := by rfl
@[simp] theorem State.updHch_lifted (s : State) (g : Nat) (f : HchS → HchS) : (s.updHch g f).lifted = s.lifted := by rfl
@[simp] theorem State.updHch_owed (s : State) (g : Nat) (f : HchS → HchS) : (s.updHch g f).owed = s.owed := by rfl
@[simp] theorem State.updHch_turn (s : State) (g : Nat) (f : HchS → HchS) : (s.updHch g f).turn = s.turn := by rfl
@[simp] theorem State.updHch_outbox (s : State) (g : Nat) (f : HchS → HchS) : (s.updHch g f).outbox = s.outbox := by rfl
@[simp] theorem State.updHch_streams (s : State) (g : Nat) (f : HchS → HchS) : (s.updHch g f).streams = s.streams := by rfl
@[simp] theorem State.updHch_feeds (s : State) (g : Nat) (f : HchS → HchS) : (s.updHch g f).feeds = s.feeds := by rfl
@[simp] theorem State.updHch_crews (s : State) (g : Nat) (f : HchS → HchS) : (s.updHch g f).crews = s.crews := by rfl
@[simp] theorem State.updHch_runs (s : State) (g : Nat) (f : HchS → HchS) : (s.updHch g f).runs = s.runs := by rfl
@[simp] theorem State.updHch_ended (s : State) (g : Nat) (f : HchS → HchS) : (s.updHch g f).ended = s.ended := by rfl
@[simp] theorem State.updHch_seqs (s : State) (g : Nat) (f : HchS → HchS) : (s.updHch g f).seqs = s.seqs := by rfl
@[simp] theorem State.updHch_therm (s : State) (g : Nat) (f : HchS → HchS) : (s.updHch g f).therm = s.therm := by rfl
@[simp] theorem State.updHch_progs (s : State) (g : Nat) (f : HchS → HchS) : (s.updHch g f).progs = s.progs := by rfl
@[simp] theorem State.updHch_scache (s : State) (g : Nat) (f : HchS → HchS) : (s.updHch g f).scache = s.scache := by rfl
@[simp] theorem State.updHch_slotPic (s : State) (g : Nat) (f : HchS → HchS) : (s.updHch g f).slotPic = s.slotPic := by rfl
@[simp] theorem State.updHch_slotSz (s : State) (g : Nat) (f : HchS → HchS) : (s.updHch g f).slotSz = s.slotSz := by rfl
@[simp] theorem State.updHch_slotNref (s : State) (g : Nat) (f : HchS → HchS) : (s.updHch g f).slotNref = s.slotNref := by rfl
@[simp] theorem State.updHch_slotC (s : State) (g : Nat) (f : HchS → HchS) : (s.updHch g f).slotC = s.slotC := by rfl
@[simp] theorem State.updHch_retPend (s : State) (g : Nat) (f : HchS → HchS) : (s.updHch g f).retPend = s.retPend := by rfl
@[simp] theorem State.updHch_egr (s : State) (g : Nat) (f : HchS → HchS) : (s.updHch g f).egr = s.egr := by rfl
@[simp] theorem State.updHch_txFree (s : State) (g : Nat) (f : HchS → HchS) : (s.updHch g f).txFree = s.txFree := by rfl
@[simp] theorem State.updHch_frameNo (s : State) (g : Nat) (f : HchS → HchS) : (s.updHch g f).frameNo = s.frameNo := by rfl
@[simp] theorem State.updHch_rtpSeq (s : State) (g : Nat) (f : HchS → HchS) : (s.updHch g f).rtpSeq = s.rtpSeq := by rfl
@[simp] theorem State.updHch_subs (s : State) (g : Nat) (f : HchS → HchS) : (s.updHch g f).subs = s.subs := by rfl
@[simp] theorem State.updHch_shapers (s : State) (g : Nat) (f : HchS → HchS) : (s.updHch g f).shapers = s.shapers := by rfl
@[simp] theorem State.updHch_gates (s : State) (g : Nat) (f : HchS → HchS) : (s.updHch g f).gates = s.gates := by rfl
@[simp] theorem State.updHch_ptpRx (s : State) (g : Nat) (f : HchS → HchS) : (s.updHch g f).ptpRx = s.ptpRx := by rfl
@[simp] theorem State.updHch_tsb (s : State) (g : Nat) (f : HchS → HchS) : (s.updHch g f).tsb = s.tsb := by rfl
@[simp] theorem State.updHch_ptpServo (s : State) (g : Nat) (f : HchS → HchS) : (s.updHch g f).ptpServo = s.ptpServo := by rfl
@[simp] theorem State.updHch_mem (s : State) (g : Nat) (f : HchS → HchS) : (s.updHch g f).mem = s.mem := by rfl
@[simp] theorem State.updHch_injRecs (s : State) (g : Nat) (f : HchS → HchS) : (s.updHch g f).injRecs = s.injRecs := by rfl
@[simp] theorem State.updHch_filled (s : State) (g : Nat) (f : HchS → HchS) : (s.updHch g f).filled = s.filled := by rfl
@[simp] theorem State.updHch_images (s : State) (g : Nat) (f : HchS → HchS) : (s.updHch g f).images = s.images := by rfl
@[simp] theorem State.updHch_chkLeft (s : State) (g : Nat) (f : HchS → HchS) : (s.updHch g f).chkLeft = s.chkLeft := by rfl
@[simp] theorem State.updHch_badRows (s : State) (g : Nat) (f : HchS → HchS) : (s.updHch g f).badRows = s.badRows := by rfl
@[simp] theorem State.updHch_lost (s : State) (g : Nat) (f : HchS → HchS) : (s.updHch g f).lost = s.lost := by rfl
@[simp] theorem State.updHch_celCe (s : State) (g : Nat) (f : HchS → HchS) : (s.updHch g f).celCe = s.celCe := by rfl
@[simp] theorem State.updHch_celDly (s : State) (g : Nat) (f : HchS → HchS) : (s.updHch g f).celDly = s.celDly := by rfl
@[simp] theorem State.updHch_celVref (s : State) (g : Nat) (f : HchS → HchS) : (s.updHch g f).celVref = s.celVref := by rfl
@[simp] theorem State.updHch_pcs (s : State) (g : Nat) (f : HchS → HchS) : (s.updHch g f).pcs = s.pcs := by rfl
@[simp] theorem State.updHch_stackTab (s : State) (g : Nat) (f : HchS → HchS) : (s.updHch g f).stackTab = s.stackTab := by rfl
@[simp] theorem State.updHch_ldrCol (s : State) (g : Nat) (f : HchS → HchS) : (s.updHch g f).ldrCol = s.ldrCol := by rfl
@[simp] theorem State.updHch_training (s : State) (g : Nat) (f : HchS → HchS) : (s.updHch g f).training = s.training := by rfl
@[simp] theorem State.updHch_adapting (s : State) (g : Nat) (f : HchS → HchS) : (s.updHch g f).adapting = s.adapting := by rfl
@[simp] theorem State.updHch_laneSet (s : State) (g : Nat) (f : HchS → HchS) : (s.updHch g f).laneSet = s.laneSet := by rfl
@[simp] theorem State.updHch_blFrom (s : State) (g : Nat) (f : HchS → HchS) : (s.updHch g f).blFrom = s.blFrom := by rfl
@[simp] theorem State.updHch_qps (s : State) (g : Nat) (f : HchS → HchS) : (s.updHch g f).qps = s.qps := by rfl
@[simp] theorem State.updHch_hgrant (s : State) (g : Nat) (f : HchS → HchS) : (s.updHch g f).hgrant = s.hgrant := by rfl
@[simp] theorem State.updHch_ptpPos (s : State) (g : Nat) (f : HchS → HchS) : (s.updHch g f).ptpPos = s.ptpPos := by rfl
@[simp] theorem State.updHch_cps (s : State) (g : Nat) (f : HchS → HchS) : (s.updHch g f).cps = s.cps := by rfl
@[simp] theorem State.updHch_push (s : State) (g : Nat) (f : HchS → HchS) : (s.updHch g f).push = s.push := by rfl
@[simp] theorem State.updHch_bank0 (s : State) (g : Nat) (f : HchS → HchS) : (s.updHch g f).bank0 = s.bank0 := by rfl
@[simp] theorem State.updHch_bank1 (s : State) (g : Nat) (f : HchS → HchS) : (s.updHch g f).bank1 = s.bank1 := by rfl
@[simp] theorem State.updHch_sleep (s : State) (g : Nat) (f : HchS → HchS) : (s.updHch g f).sleep = s.sleep := by rfl
@[simp] theorem State.updHch_swap (s : State) (g : Nat) (f : HchS → HchS) : (s.updHch g f).swap = s.swap := by rfl
@[simp] theorem State.updHch_resetReq (s : State) (g : Nat) (f : HchS → HchS) : (s.updHch g f).resetReq = s.resetReq := by rfl
@[simp] theorem State.updHch_wakeN (s : State) (g : Nat) (f : HchS → HchS) : (s.updHch g f).wakeN = s.wakeN := by rfl
@[simp] theorem State.updHch_rails (s : State) (g : Nat) (f : HchS → HchS) : (s.updHch g f).rails = s.rails := by rfl
@[simp] theorem State.updHch_railF (s : State) (g : Nat) (f : HchS → HchS) : (s.updHch g f).railF = s.railF := by rfl
@[simp] theorem State.updHch_avsAgain (s : State) (g : Nat) (f : HchS → HchS) : (s.updHch g f).avsAgain = s.avsAgain := by rfl
@[simp] theorem State.updHch_voutExp (s : State) (g : Nat) (f : HchS → HchS) : (s.updHch g f).voutExp = s.voutExp := by rfl
@[simp] theorem State.updHch_straps (s : State) (g : Nat) (f : HchS → HchS) : (s.updHch g f).straps = s.straps := by rfl
@[simp] theorem State.updHch_strm (s : State) (g : Nat) (f : HchS → HchS) (k : Nat) : (s.updHch g f).strm k = s.strm k := by rfl
@[simp] theorem State.updHch_gen (s : State) (g : Nat) (f : HchS → HchS) (k : Nat) : (s.updHch g f).gen k = s.gen k := by rfl
@[simp] theorem State.updHch_feed (s : State) (g : Nat) (f : HchS → HchS) (k : Nat) : (s.updHch g f).feed k = s.feed k := by rfl
@[simp] theorem State.updHch_crew (s : State) (g : Nat) (f : HchS → HchS) (k : Nat) : (s.updHch g f).crew k = s.crew k := by rfl
@[simp] theorem State.updHch_run (s : State) (g : Nat) (f : HchS → HchS) (k : Nat) : (s.updHch g f).run k = s.run k := by rfl
@[simp] theorem State.updHch_ring (s : State) (g : Nat) (f : HchS → HchS) (k : Nat) : (s.updHch g f).ring k = s.ring k := by rfl
@[simp] theorem State.updHch_tallySrc (s : State) (g : Nat) (f : HchS → HchS) (k : Nat) : (s.updHch g f).tallySrc k = s.tallySrc k := by rfl
@[simp] theorem State.updHch_cp (s : State) (g : Nat) (f : HchS → HchS) (k : Nat) : (s.updHch g f).cp k = s.cp k := by rfl
@[simp] theorem State.updHch_slotPicOf (s : State) (g : Nat) (f : HchS → HchS) (k : Nat) : (s.updHch g f).slotPicOf k = s.slotPicOf k := by rfl
@[simp] theorem State.updHch_window (s : State) (g : Nat) (f : HchS → HchS) (k : Nat) : (s.updHch g f).window k = s.window k := by rfl
@[simp] theorem State.updHch_frames (s : State) (g : Nat) (f : HchS → HchS) (k : Nat) : (s.updHch g f).frames k = s.frames k := by rfl
@[simp] theorem State.updHch_sub (s : State) (g : Nat) (f : HchS → HchS) (k : Nat) : (s.updHch g f).sub k = s.sub k := by rfl
@[simp] theorem State.updHch_stack (s : State) (g : Nat) (f : HchS → HchS) (k : Nat) : (s.updHch g f).stack k = s.stack k := by rfl
@[simp] theorem State.updHch_seq (s : State) (g : Nat) (f : HchS → HchS) (k : Nat) : (s.updHch g f).seq k = s.seq k := by rfl
@[simp] theorem State.updHch_qp (s : State) (g : Nat) (f : HchS → HchS) (k : Nat) : (s.updHch g f).qp k = s.qp k := by rfl
@[simp] theorem State.updHch_get (s : State) (g : Nat) (f : HchS → HchS) (k : RF) : (s.updHch g f).get k = s.get k := by rfl
@[simp] theorem State.updHch_flag (s : State) (g : Nat) (f : HchS → HchS) (k : RF) : (s.updHch g f).flag k = s.flag k := by rfl
@[simp] theorem State.updHch_reg (s : State) (g : Nat) (f : HchS → HchS) (k : Nat) : (s.updHch g f).reg k = s.reg k := by rfl

/-! ### setQp -/

@[simp] theorem State.setQp_pending (s : State) (q : Nat) (v : QpS) : (s.setQp q v).pending = s.pending := by rfl
@[simp] theorem State.setQp_regs (s : State) (q : Nat) (v : QpS) : (s.setQp q v).regs = s.regs := by rfl
@[simp] theorem State.setQp_part (s : State) (q : Nat) (v : QpS) : (s.setQp q v).part = s.part := by rfl
@[simp] theorem State.setQp_rst (s : State) (q : Nat) (v : QpS) : (s.setQp q v).rst = s.rst := by rfl
@[simp] theorem State.setQp_now (s : State) (q : Nat) (v : QpS) : (s.setQp q v).now = s.now := by rfl
@[simp] theorem State.setQp_prev (s : State) (q : Nat) (v : QpS) : (s.setQp q v).prev = s.prev := by rfl
@[simp] theorem State.setQp_cyc (s : State) (q : Nat) (v : QpS) : (s.setQp q v).cyc = s.cyc := by rfl
@[simp] theorem State.setQp_fired (s : State) (q : Nat) (v : QpS) : (s.setQp q v).fired = s.fired := by rfl
@[simp] theorem State.setQp_hot (s : State) (q : Nat) (v : QpS) : (s.setQp q v).hot = s.hot := by rfl
@[simp] theorem State.setQp_freed (s : State) (q : Nat) (v : QpS) : (s.setQp q v).freed = s.freed := by rfl
@[simp] theorem State.setQp_waitDue (s : State) (q : Nat) (v : QpS) : (s.setQp q v).waitDue = s.waitDue := by rfl
@[simp] theorem State.setQp_turns (s : State) (q : Nat) (v : QpS) : (s.setQp q v).turns = s.turns := by rfl
@[simp] theorem State.setQp_rate (s : State) (q : Nat) (v : QpS) : (s.setQp q v).rate = s.rate := by rfl
@[simp] theorem State.setQp_ppsNs (s : State) (q : Nat) (v : QpS) : (s.setQp q v).ppsNs = s.ppsNs := by rfl
@[simp] theorem State.setQp_ppsHigh (s : State) (q : Nat) (v : QpS) : (s.setQp q v).ppsHigh = s.ppsHigh := by rfl
@[simp] theorem State.setQp_relock (s : State) (q : Nat) (v : QpS) : (s.setQp q v).relock = s.relock := by rfl
@[simp] theorem State.setQp_gens (s : State) (q : Nat) (v : QpS) : (s.setQp q v).gens = s.gens := by rfl
@[simp] theorem State.setQp_freeCtr (s : State) (q : Nat) (v : QpS) : (s.setQp q v).freeCtr = s.freeCtr := by rfl
@[simp] theorem State.setQp_held (s : State) (q : Nat) (v : QpS) : (s.setQp q v).held = s.held := by rfl
@[simp] theorem State.setQp_heldWait (s : State) (q : Nat) (v : QpS) : (s.setQp q v).heldWait = s.heldWait := by rfl
@[simp] theorem State.setQp_tsrc (s : State) (q : Nat) (v : QpS) : (s.setQp q v).tsrc = s.tsrc := by rfl
@[simp] theorem State.setQp_twin (s : State) (q : Nat) (v : QpS) : (s.setQp q v).twin = s.twin := by rfl
@[simp] theorem State.setQp_gath (s : State) (q : Nat) (v : QpS) : (s.setQp q v).gath = s.gath := by rfl
@[simp] theorem State.setQp_claimed (s : State) (q : Nat) (v : QpS) : (s.setQp q v).claimed = s.claimed := by rfl
@[simp] theorem State.setQp_tgtDef (s : State) (q : Nat) (v : QpS) : (s.setQp q v).tgtDef = s.tgtDef := by rfl
@[simp] theorem State.setQp_holdOff (s : State) (q : Nat) (v : QpS) : (s.setQp q v).holdOff = s.holdOff := by rfl
@[simp] theorem State.setQp_pins (s : State) (q : Nat) (v : QpS) : (s.setQp q v).pins = s.pins := by rfl
@[simp] theorem State.setQp_looked (s : State) (q : Nat) (v : QpS) : (s.setQp q v).looked = s.looked := by rfl
@[simp] theorem State.setQp_preempt (s : State) (q : Nat) (v : QpS) : (s.setQp q v).preempt = s.preempt := by rfl
@[simp] theorem State.setQp_rings (s : State) (q : Nat) (v : QpS) : (s.setQp q v).rings = s.rings := by rfl
@[simp] theorem State.setQp_fetched (s : State) (q : Nat) (v : QpS) : (s.setQp q v).fetched = s.fetched := by rfl
@[simp] theorem State.setQp_lifted (s : State) (q : Nat) (v : QpS) : (s.setQp q v).lifted = s.lifted := by rfl
@[simp] theorem State.setQp_owed (s : State) (q : Nat) (v : QpS) : (s.setQp q v).owed = s.owed := by rfl
@[simp] theorem State.setQp_turn (s : State) (q : Nat) (v : QpS) : (s.setQp q v).turn = s.turn := by rfl
@[simp] theorem State.setQp_outbox (s : State) (q : Nat) (v : QpS) : (s.setQp q v).outbox = s.outbox := by rfl
@[simp] theorem State.setQp_streams (s : State) (q : Nat) (v : QpS) : (s.setQp q v).streams = s.streams := by rfl
@[simp] theorem State.setQp_feeds (s : State) (q : Nat) (v : QpS) : (s.setQp q v).feeds = s.feeds := by rfl
@[simp] theorem State.setQp_crews (s : State) (q : Nat) (v : QpS) : (s.setQp q v).crews = s.crews := by rfl
@[simp] theorem State.setQp_runs (s : State) (q : Nat) (v : QpS) : (s.setQp q v).runs = s.runs := by rfl
@[simp] theorem State.setQp_ended (s : State) (q : Nat) (v : QpS) : (s.setQp q v).ended = s.ended := by rfl
@[simp] theorem State.setQp_seqs (s : State) (q : Nat) (v : QpS) : (s.setQp q v).seqs = s.seqs := by rfl
@[simp] theorem State.setQp_therm (s : State) (q : Nat) (v : QpS) : (s.setQp q v).therm = s.therm := by rfl
@[simp] theorem State.setQp_progs (s : State) (q : Nat) (v : QpS) : (s.setQp q v).progs = s.progs := by rfl
@[simp] theorem State.setQp_scache (s : State) (q : Nat) (v : QpS) : (s.setQp q v).scache = s.scache := by rfl
@[simp] theorem State.setQp_slotPic (s : State) (q : Nat) (v : QpS) : (s.setQp q v).slotPic = s.slotPic := by rfl
@[simp] theorem State.setQp_slotSz (s : State) (q : Nat) (v : QpS) : (s.setQp q v).slotSz = s.slotSz := by rfl
@[simp] theorem State.setQp_slotNref (s : State) (q : Nat) (v : QpS) : (s.setQp q v).slotNref = s.slotNref := by rfl
@[simp] theorem State.setQp_slotC (s : State) (q : Nat) (v : QpS) : (s.setQp q v).slotC = s.slotC := by rfl
@[simp] theorem State.setQp_retPend (s : State) (q : Nat) (v : QpS) : (s.setQp q v).retPend = s.retPend := by rfl
@[simp] theorem State.setQp_egr (s : State) (q : Nat) (v : QpS) : (s.setQp q v).egr = s.egr := by rfl
@[simp] theorem State.setQp_txFree (s : State) (q : Nat) (v : QpS) : (s.setQp q v).txFree = s.txFree := by rfl
@[simp] theorem State.setQp_frameNo (s : State) (q : Nat) (v : QpS) : (s.setQp q v).frameNo = s.frameNo := by rfl
@[simp] theorem State.setQp_rtpSeq (s : State) (q : Nat) (v : QpS) : (s.setQp q v).rtpSeq = s.rtpSeq := by rfl
@[simp] theorem State.setQp_subs (s : State) (q : Nat) (v : QpS) : (s.setQp q v).subs = s.subs := by rfl
@[simp] theorem State.setQp_shapers (s : State) (q : Nat) (v : QpS) : (s.setQp q v).shapers = s.shapers := by rfl
@[simp] theorem State.setQp_gates (s : State) (q : Nat) (v : QpS) : (s.setQp q v).gates = s.gates := by rfl
@[simp] theorem State.setQp_ptpRx (s : State) (q : Nat) (v : QpS) : (s.setQp q v).ptpRx = s.ptpRx := by rfl
@[simp] theorem State.setQp_tsb (s : State) (q : Nat) (v : QpS) : (s.setQp q v).tsb = s.tsb := by rfl
@[simp] theorem State.setQp_ptpServo (s : State) (q : Nat) (v : QpS) : (s.setQp q v).ptpServo = s.ptpServo := by rfl
@[simp] theorem State.setQp_mem (s : State) (q : Nat) (v : QpS) : (s.setQp q v).mem = s.mem := by rfl
@[simp] theorem State.setQp_injRecs (s : State) (q : Nat) (v : QpS) : (s.setQp q v).injRecs = s.injRecs := by rfl
@[simp] theorem State.setQp_filled (s : State) (q : Nat) (v : QpS) : (s.setQp q v).filled = s.filled := by rfl
@[simp] theorem State.setQp_images (s : State) (q : Nat) (v : QpS) : (s.setQp q v).images = s.images := by rfl
@[simp] theorem State.setQp_chkLeft (s : State) (q : Nat) (v : QpS) : (s.setQp q v).chkLeft = s.chkLeft := by rfl
@[simp] theorem State.setQp_badRows (s : State) (q : Nat) (v : QpS) : (s.setQp q v).badRows = s.badRows := by rfl
@[simp] theorem State.setQp_lost (s : State) (q : Nat) (v : QpS) : (s.setQp q v).lost = s.lost := by rfl
@[simp] theorem State.setQp_celCe (s : State) (q : Nat) (v : QpS) : (s.setQp q v).celCe = s.celCe := by rfl
@[simp] theorem State.setQp_celDly (s : State) (q : Nat) (v : QpS) : (s.setQp q v).celDly = s.celDly := by rfl
@[simp] theorem State.setQp_celVref (s : State) (q : Nat) (v : QpS) : (s.setQp q v).celVref = s.celVref := by rfl
@[simp] theorem State.setQp_pcs (s : State) (q : Nat) (v : QpS) : (s.setQp q v).pcs = s.pcs := by rfl
@[simp] theorem State.setQp_stackTab (s : State) (q : Nat) (v : QpS) : (s.setQp q v).stackTab = s.stackTab := by rfl
@[simp] theorem State.setQp_ldrCol (s : State) (q : Nat) (v : QpS) : (s.setQp q v).ldrCol = s.ldrCol := by rfl
@[simp] theorem State.setQp_training (s : State) (q : Nat) (v : QpS) : (s.setQp q v).training = s.training := by rfl
@[simp] theorem State.setQp_adapting (s : State) (q : Nat) (v : QpS) : (s.setQp q v).adapting = s.adapting := by rfl
@[simp] theorem State.setQp_laneSet (s : State) (q : Nat) (v : QpS) : (s.setQp q v).laneSet = s.laneSet := by rfl
@[simp] theorem State.setQp_blFrom (s : State) (q : Nat) (v : QpS) : (s.setQp q v).blFrom = s.blFrom := by rfl
@[simp] theorem State.setQp_hchs (s : State) (q : Nat) (v : QpS) : (s.setQp q v).hchs = s.hchs := by rfl
@[simp] theorem State.setQp_hgrant (s : State) (q : Nat) (v : QpS) : (s.setQp q v).hgrant = s.hgrant := by rfl
@[simp] theorem State.setQp_ptpPos (s : State) (q : Nat) (v : QpS) : (s.setQp q v).ptpPos = s.ptpPos := by rfl
@[simp] theorem State.setQp_cps (s : State) (q : Nat) (v : QpS) : (s.setQp q v).cps = s.cps := by rfl
@[simp] theorem State.setQp_push (s : State) (q : Nat) (v : QpS) : (s.setQp q v).push = s.push := by rfl
@[simp] theorem State.setQp_bank0 (s : State) (q : Nat) (v : QpS) : (s.setQp q v).bank0 = s.bank0 := by rfl
@[simp] theorem State.setQp_bank1 (s : State) (q : Nat) (v : QpS) : (s.setQp q v).bank1 = s.bank1 := by rfl
@[simp] theorem State.setQp_sleep (s : State) (q : Nat) (v : QpS) : (s.setQp q v).sleep = s.sleep := by rfl
@[simp] theorem State.setQp_swap (s : State) (q : Nat) (v : QpS) : (s.setQp q v).swap = s.swap := by rfl
@[simp] theorem State.setQp_resetReq (s : State) (q : Nat) (v : QpS) : (s.setQp q v).resetReq = s.resetReq := by rfl
@[simp] theorem State.setQp_wakeN (s : State) (q : Nat) (v : QpS) : (s.setQp q v).wakeN = s.wakeN := by rfl
@[simp] theorem State.setQp_rails (s : State) (q : Nat) (v : QpS) : (s.setQp q v).rails = s.rails := by rfl
@[simp] theorem State.setQp_railF (s : State) (q : Nat) (v : QpS) : (s.setQp q v).railF = s.railF := by rfl
@[simp] theorem State.setQp_avsAgain (s : State) (q : Nat) (v : QpS) : (s.setQp q v).avsAgain = s.avsAgain := by rfl
@[simp] theorem State.setQp_voutExp (s : State) (q : Nat) (v : QpS) : (s.setQp q v).voutExp = s.voutExp := by rfl
@[simp] theorem State.setQp_straps (s : State) (q : Nat) (v : QpS) : (s.setQp q v).straps = s.straps := by rfl
@[simp] theorem State.setQp_strm (s : State) (q : Nat) (v : QpS) (k : Nat) : (s.setQp q v).strm k = s.strm k := by rfl
@[simp] theorem State.setQp_gen (s : State) (q : Nat) (v : QpS) (k : Nat) : (s.setQp q v).gen k = s.gen k := by rfl
@[simp] theorem State.setQp_feed (s : State) (q : Nat) (v : QpS) (k : Nat) : (s.setQp q v).feed k = s.feed k := by rfl
@[simp] theorem State.setQp_crew (s : State) (q : Nat) (v : QpS) (k : Nat) : (s.setQp q v).crew k = s.crew k := by rfl
@[simp] theorem State.setQp_run (s : State) (q : Nat) (v : QpS) (k : Nat) : (s.setQp q v).run k = s.run k := by rfl
@[simp] theorem State.setQp_ring (s : State) (q : Nat) (v : QpS) (k : Nat) : (s.setQp q v).ring k = s.ring k := by rfl
@[simp] theorem State.setQp_tallySrc (s : State) (q : Nat) (v : QpS) (k : Nat) : (s.setQp q v).tallySrc k = s.tallySrc k := by rfl
@[simp] theorem State.setQp_cp (s : State) (q : Nat) (v : QpS) (k : Nat) : (s.setQp q v).cp k = s.cp k := by rfl
@[simp] theorem State.setQp_slotPicOf (s : State) (q : Nat) (v : QpS) (k : Nat) : (s.setQp q v).slotPicOf k = s.slotPicOf k := by rfl
@[simp] theorem State.setQp_window (s : State) (q : Nat) (v : QpS) (k : Nat) : (s.setQp q v).window k = s.window k := by rfl
@[simp] theorem State.setQp_frames (s : State) (q : Nat) (v : QpS) (k : Nat) : (s.setQp q v).frames k = s.frames k := by rfl
@[simp] theorem State.setQp_sub (s : State) (q : Nat) (v : QpS) (k : Nat) : (s.setQp q v).sub k = s.sub k := by rfl
@[simp] theorem State.setQp_stack (s : State) (q : Nat) (v : QpS) (k : Nat) : (s.setQp q v).stack k = s.stack k := by rfl
@[simp] theorem State.setQp_seq (s : State) (q : Nat) (v : QpS) (k : Nat) : (s.setQp q v).seq k = s.seq k := by rfl
@[simp] theorem State.setQp_hch (s : State) (q : Nat) (v : QpS) (k : Nat) : (s.setQp q v).hch k = s.hch k := by rfl
@[simp] theorem State.setQp_get (s : State) (q : Nat) (v : QpS) (k : RF) : (s.setQp q v).get k = s.get k := by rfl
@[simp] theorem State.setQp_flag (s : State) (q : Nat) (v : QpS) (k : RF) : (s.setQp q v).flag k = s.flag k := by rfl
@[simp] theorem State.setQp_reg (s : State) (q : Nat) (v : QpS) (k : Nat) : (s.setQp q v).reg k = s.reg k := by rfl

/-! ### updQp -/

@[simp] theorem State.updQp_pending (s : State) (q : Nat) (f : QpS → QpS) : (s.updQp q f).pending = s.pending := by rfl
@[simp] theorem State.updQp_regs (s : State) (q : Nat) (f : QpS → QpS) : (s.updQp q f).regs = s.regs := by rfl
@[simp] theorem State.updQp_part (s : State) (q : Nat) (f : QpS → QpS) : (s.updQp q f).part = s.part := by rfl
@[simp] theorem State.updQp_rst (s : State) (q : Nat) (f : QpS → QpS) : (s.updQp q f).rst = s.rst := by rfl
@[simp] theorem State.updQp_now (s : State) (q : Nat) (f : QpS → QpS) : (s.updQp q f).now = s.now := by rfl
@[simp] theorem State.updQp_prev (s : State) (q : Nat) (f : QpS → QpS) : (s.updQp q f).prev = s.prev := by rfl
@[simp] theorem State.updQp_cyc (s : State) (q : Nat) (f : QpS → QpS) : (s.updQp q f).cyc = s.cyc := by rfl
@[simp] theorem State.updQp_fired (s : State) (q : Nat) (f : QpS → QpS) : (s.updQp q f).fired = s.fired := by rfl
@[simp] theorem State.updQp_hot (s : State) (q : Nat) (f : QpS → QpS) : (s.updQp q f).hot = s.hot := by rfl
@[simp] theorem State.updQp_freed (s : State) (q : Nat) (f : QpS → QpS) : (s.updQp q f).freed = s.freed := by rfl
@[simp] theorem State.updQp_waitDue (s : State) (q : Nat) (f : QpS → QpS) : (s.updQp q f).waitDue = s.waitDue := by rfl
@[simp] theorem State.updQp_turns (s : State) (q : Nat) (f : QpS → QpS) : (s.updQp q f).turns = s.turns := by rfl
@[simp] theorem State.updQp_rate (s : State) (q : Nat) (f : QpS → QpS) : (s.updQp q f).rate = s.rate := by rfl
@[simp] theorem State.updQp_ppsNs (s : State) (q : Nat) (f : QpS → QpS) : (s.updQp q f).ppsNs = s.ppsNs := by rfl
@[simp] theorem State.updQp_ppsHigh (s : State) (q : Nat) (f : QpS → QpS) : (s.updQp q f).ppsHigh = s.ppsHigh := by rfl
@[simp] theorem State.updQp_relock (s : State) (q : Nat) (f : QpS → QpS) : (s.updQp q f).relock = s.relock := by rfl
@[simp] theorem State.updQp_gens (s : State) (q : Nat) (f : QpS → QpS) : (s.updQp q f).gens = s.gens := by rfl
@[simp] theorem State.updQp_freeCtr (s : State) (q : Nat) (f : QpS → QpS) : (s.updQp q f).freeCtr = s.freeCtr := by rfl
@[simp] theorem State.updQp_held (s : State) (q : Nat) (f : QpS → QpS) : (s.updQp q f).held = s.held := by rfl
@[simp] theorem State.updQp_heldWait (s : State) (q : Nat) (f : QpS → QpS) : (s.updQp q f).heldWait = s.heldWait := by rfl
@[simp] theorem State.updQp_tsrc (s : State) (q : Nat) (f : QpS → QpS) : (s.updQp q f).tsrc = s.tsrc := by rfl
@[simp] theorem State.updQp_twin (s : State) (q : Nat) (f : QpS → QpS) : (s.updQp q f).twin = s.twin := by rfl
@[simp] theorem State.updQp_gath (s : State) (q : Nat) (f : QpS → QpS) : (s.updQp q f).gath = s.gath := by rfl
@[simp] theorem State.updQp_claimed (s : State) (q : Nat) (f : QpS → QpS) : (s.updQp q f).claimed = s.claimed := by rfl
@[simp] theorem State.updQp_tgtDef (s : State) (q : Nat) (f : QpS → QpS) : (s.updQp q f).tgtDef = s.tgtDef := by rfl
@[simp] theorem State.updQp_holdOff (s : State) (q : Nat) (f : QpS → QpS) : (s.updQp q f).holdOff = s.holdOff := by rfl
@[simp] theorem State.updQp_pins (s : State) (q : Nat) (f : QpS → QpS) : (s.updQp q f).pins = s.pins := by rfl
@[simp] theorem State.updQp_looked (s : State) (q : Nat) (f : QpS → QpS) : (s.updQp q f).looked = s.looked := by rfl
@[simp] theorem State.updQp_preempt (s : State) (q : Nat) (f : QpS → QpS) : (s.updQp q f).preempt = s.preempt := by rfl
@[simp] theorem State.updQp_rings (s : State) (q : Nat) (f : QpS → QpS) : (s.updQp q f).rings = s.rings := by rfl
@[simp] theorem State.updQp_fetched (s : State) (q : Nat) (f : QpS → QpS) : (s.updQp q f).fetched = s.fetched := by rfl
@[simp] theorem State.updQp_lifted (s : State) (q : Nat) (f : QpS → QpS) : (s.updQp q f).lifted = s.lifted := by rfl
@[simp] theorem State.updQp_owed (s : State) (q : Nat) (f : QpS → QpS) : (s.updQp q f).owed = s.owed := by rfl
@[simp] theorem State.updQp_turn (s : State) (q : Nat) (f : QpS → QpS) : (s.updQp q f).turn = s.turn := by rfl
@[simp] theorem State.updQp_outbox (s : State) (q : Nat) (f : QpS → QpS) : (s.updQp q f).outbox = s.outbox := by rfl
@[simp] theorem State.updQp_streams (s : State) (q : Nat) (f : QpS → QpS) : (s.updQp q f).streams = s.streams := by rfl
@[simp] theorem State.updQp_feeds (s : State) (q : Nat) (f : QpS → QpS) : (s.updQp q f).feeds = s.feeds := by rfl
@[simp] theorem State.updQp_crews (s : State) (q : Nat) (f : QpS → QpS) : (s.updQp q f).crews = s.crews := by rfl
@[simp] theorem State.updQp_runs (s : State) (q : Nat) (f : QpS → QpS) : (s.updQp q f).runs = s.runs := by rfl
@[simp] theorem State.updQp_ended (s : State) (q : Nat) (f : QpS → QpS) : (s.updQp q f).ended = s.ended := by rfl
@[simp] theorem State.updQp_seqs (s : State) (q : Nat) (f : QpS → QpS) : (s.updQp q f).seqs = s.seqs := by rfl
@[simp] theorem State.updQp_therm (s : State) (q : Nat) (f : QpS → QpS) : (s.updQp q f).therm = s.therm := by rfl
@[simp] theorem State.updQp_progs (s : State) (q : Nat) (f : QpS → QpS) : (s.updQp q f).progs = s.progs := by rfl
@[simp] theorem State.updQp_scache (s : State) (q : Nat) (f : QpS → QpS) : (s.updQp q f).scache = s.scache := by rfl
@[simp] theorem State.updQp_slotPic (s : State) (q : Nat) (f : QpS → QpS) : (s.updQp q f).slotPic = s.slotPic := by rfl
@[simp] theorem State.updQp_slotSz (s : State) (q : Nat) (f : QpS → QpS) : (s.updQp q f).slotSz = s.slotSz := by rfl
@[simp] theorem State.updQp_slotNref (s : State) (q : Nat) (f : QpS → QpS) : (s.updQp q f).slotNref = s.slotNref := by rfl
@[simp] theorem State.updQp_slotC (s : State) (q : Nat) (f : QpS → QpS) : (s.updQp q f).slotC = s.slotC := by rfl
@[simp] theorem State.updQp_retPend (s : State) (q : Nat) (f : QpS → QpS) : (s.updQp q f).retPend = s.retPend := by rfl
@[simp] theorem State.updQp_egr (s : State) (q : Nat) (f : QpS → QpS) : (s.updQp q f).egr = s.egr := by rfl
@[simp] theorem State.updQp_txFree (s : State) (q : Nat) (f : QpS → QpS) : (s.updQp q f).txFree = s.txFree := by rfl
@[simp] theorem State.updQp_frameNo (s : State) (q : Nat) (f : QpS → QpS) : (s.updQp q f).frameNo = s.frameNo := by rfl
@[simp] theorem State.updQp_rtpSeq (s : State) (q : Nat) (f : QpS → QpS) : (s.updQp q f).rtpSeq = s.rtpSeq := by rfl
@[simp] theorem State.updQp_subs (s : State) (q : Nat) (f : QpS → QpS) : (s.updQp q f).subs = s.subs := by rfl
@[simp] theorem State.updQp_shapers (s : State) (q : Nat) (f : QpS → QpS) : (s.updQp q f).shapers = s.shapers := by rfl
@[simp] theorem State.updQp_gates (s : State) (q : Nat) (f : QpS → QpS) : (s.updQp q f).gates = s.gates := by rfl
@[simp] theorem State.updQp_ptpRx (s : State) (q : Nat) (f : QpS → QpS) : (s.updQp q f).ptpRx = s.ptpRx := by rfl
@[simp] theorem State.updQp_tsb (s : State) (q : Nat) (f : QpS → QpS) : (s.updQp q f).tsb = s.tsb := by rfl
@[simp] theorem State.updQp_ptpServo (s : State) (q : Nat) (f : QpS → QpS) : (s.updQp q f).ptpServo = s.ptpServo := by rfl
@[simp] theorem State.updQp_mem (s : State) (q : Nat) (f : QpS → QpS) : (s.updQp q f).mem = s.mem := by rfl
@[simp] theorem State.updQp_injRecs (s : State) (q : Nat) (f : QpS → QpS) : (s.updQp q f).injRecs = s.injRecs := by rfl
@[simp] theorem State.updQp_filled (s : State) (q : Nat) (f : QpS → QpS) : (s.updQp q f).filled = s.filled := by rfl
@[simp] theorem State.updQp_images (s : State) (q : Nat) (f : QpS → QpS) : (s.updQp q f).images = s.images := by rfl
@[simp] theorem State.updQp_chkLeft (s : State) (q : Nat) (f : QpS → QpS) : (s.updQp q f).chkLeft = s.chkLeft := by rfl
@[simp] theorem State.updQp_badRows (s : State) (q : Nat) (f : QpS → QpS) : (s.updQp q f).badRows = s.badRows := by rfl
@[simp] theorem State.updQp_lost (s : State) (q : Nat) (f : QpS → QpS) : (s.updQp q f).lost = s.lost := by rfl
@[simp] theorem State.updQp_celCe (s : State) (q : Nat) (f : QpS → QpS) : (s.updQp q f).celCe = s.celCe := by rfl
@[simp] theorem State.updQp_celDly (s : State) (q : Nat) (f : QpS → QpS) : (s.updQp q f).celDly = s.celDly := by rfl
@[simp] theorem State.updQp_celVref (s : State) (q : Nat) (f : QpS → QpS) : (s.updQp q f).celVref = s.celVref := by rfl
@[simp] theorem State.updQp_pcs (s : State) (q : Nat) (f : QpS → QpS) : (s.updQp q f).pcs = s.pcs := by rfl
@[simp] theorem State.updQp_stackTab (s : State) (q : Nat) (f : QpS → QpS) : (s.updQp q f).stackTab = s.stackTab := by rfl
@[simp] theorem State.updQp_ldrCol (s : State) (q : Nat) (f : QpS → QpS) : (s.updQp q f).ldrCol = s.ldrCol := by rfl
@[simp] theorem State.updQp_training (s : State) (q : Nat) (f : QpS → QpS) : (s.updQp q f).training = s.training := by rfl
@[simp] theorem State.updQp_adapting (s : State) (q : Nat) (f : QpS → QpS) : (s.updQp q f).adapting = s.adapting := by rfl
@[simp] theorem State.updQp_laneSet (s : State) (q : Nat) (f : QpS → QpS) : (s.updQp q f).laneSet = s.laneSet := by rfl
@[simp] theorem State.updQp_blFrom (s : State) (q : Nat) (f : QpS → QpS) : (s.updQp q f).blFrom = s.blFrom := by rfl
@[simp] theorem State.updQp_hchs (s : State) (q : Nat) (f : QpS → QpS) : (s.updQp q f).hchs = s.hchs := by rfl
@[simp] theorem State.updQp_hgrant (s : State) (q : Nat) (f : QpS → QpS) : (s.updQp q f).hgrant = s.hgrant := by rfl
@[simp] theorem State.updQp_ptpPos (s : State) (q : Nat) (f : QpS → QpS) : (s.updQp q f).ptpPos = s.ptpPos := by rfl
@[simp] theorem State.updQp_cps (s : State) (q : Nat) (f : QpS → QpS) : (s.updQp q f).cps = s.cps := by rfl
@[simp] theorem State.updQp_push (s : State) (q : Nat) (f : QpS → QpS) : (s.updQp q f).push = s.push := by rfl
@[simp] theorem State.updQp_bank0 (s : State) (q : Nat) (f : QpS → QpS) : (s.updQp q f).bank0 = s.bank0 := by rfl
@[simp] theorem State.updQp_bank1 (s : State) (q : Nat) (f : QpS → QpS) : (s.updQp q f).bank1 = s.bank1 := by rfl
@[simp] theorem State.updQp_sleep (s : State) (q : Nat) (f : QpS → QpS) : (s.updQp q f).sleep = s.sleep := by rfl
@[simp] theorem State.updQp_swap (s : State) (q : Nat) (f : QpS → QpS) : (s.updQp q f).swap = s.swap := by rfl
@[simp] theorem State.updQp_resetReq (s : State) (q : Nat) (f : QpS → QpS) : (s.updQp q f).resetReq = s.resetReq := by rfl
@[simp] theorem State.updQp_wakeN (s : State) (q : Nat) (f : QpS → QpS) : (s.updQp q f).wakeN = s.wakeN := by rfl
@[simp] theorem State.updQp_rails (s : State) (q : Nat) (f : QpS → QpS) : (s.updQp q f).rails = s.rails := by rfl
@[simp] theorem State.updQp_railF (s : State) (q : Nat) (f : QpS → QpS) : (s.updQp q f).railF = s.railF := by rfl
@[simp] theorem State.updQp_avsAgain (s : State) (q : Nat) (f : QpS → QpS) : (s.updQp q f).avsAgain = s.avsAgain := by rfl
@[simp] theorem State.updQp_voutExp (s : State) (q : Nat) (f : QpS → QpS) : (s.updQp q f).voutExp = s.voutExp := by rfl
@[simp] theorem State.updQp_straps (s : State) (q : Nat) (f : QpS → QpS) : (s.updQp q f).straps = s.straps := by rfl
@[simp] theorem State.updQp_strm (s : State) (q : Nat) (f : QpS → QpS) (k : Nat) : (s.updQp q f).strm k = s.strm k := by rfl
@[simp] theorem State.updQp_gen (s : State) (q : Nat) (f : QpS → QpS) (k : Nat) : (s.updQp q f).gen k = s.gen k := by rfl
@[simp] theorem State.updQp_feed (s : State) (q : Nat) (f : QpS → QpS) (k : Nat) : (s.updQp q f).feed k = s.feed k := by rfl
@[simp] theorem State.updQp_crew (s : State) (q : Nat) (f : QpS → QpS) (k : Nat) : (s.updQp q f).crew k = s.crew k := by rfl
@[simp] theorem State.updQp_run (s : State) (q : Nat) (f : QpS → QpS) (k : Nat) : (s.updQp q f).run k = s.run k := by rfl
@[simp] theorem State.updQp_ring (s : State) (q : Nat) (f : QpS → QpS) (k : Nat) : (s.updQp q f).ring k = s.ring k := by rfl
@[simp] theorem State.updQp_tallySrc (s : State) (q : Nat) (f : QpS → QpS) (k : Nat) : (s.updQp q f).tallySrc k = s.tallySrc k := by rfl
@[simp] theorem State.updQp_cp (s : State) (q : Nat) (f : QpS → QpS) (k : Nat) : (s.updQp q f).cp k = s.cp k := by rfl
@[simp] theorem State.updQp_slotPicOf (s : State) (q : Nat) (f : QpS → QpS) (k : Nat) : (s.updQp q f).slotPicOf k = s.slotPicOf k := by rfl
@[simp] theorem State.updQp_window (s : State) (q : Nat) (f : QpS → QpS) (k : Nat) : (s.updQp q f).window k = s.window k := by rfl
@[simp] theorem State.updQp_frames (s : State) (q : Nat) (f : QpS → QpS) (k : Nat) : (s.updQp q f).frames k = s.frames k := by rfl
@[simp] theorem State.updQp_sub (s : State) (q : Nat) (f : QpS → QpS) (k : Nat) : (s.updQp q f).sub k = s.sub k := by rfl
@[simp] theorem State.updQp_stack (s : State) (q : Nat) (f : QpS → QpS) (k : Nat) : (s.updQp q f).stack k = s.stack k := by rfl
@[simp] theorem State.updQp_seq (s : State) (q : Nat) (f : QpS → QpS) (k : Nat) : (s.updQp q f).seq k = s.seq k := by rfl
@[simp] theorem State.updQp_hch (s : State) (q : Nat) (f : QpS → QpS) (k : Nat) : (s.updQp q f).hch k = s.hch k := by rfl
@[simp] theorem State.updQp_get (s : State) (q : Nat) (f : QpS → QpS) (k : RF) : (s.updQp q f).get k = s.get k := by rfl
@[simp] theorem State.updQp_flag (s : State) (q : Nat) (f : QpS → QpS) (k : RF) : (s.updQp q f).flag k = s.flag k := by rfl
@[simp] theorem State.updQp_reg (s : State) (q : Nat) (f : QpS → QpS) (k : Nat) : (s.updQp q f).reg k = s.reg k := by rfl

/-! ### Reads of what was written -/

@[simp] theorem State.setGen_same (s : State) (g : Nat) (v : GenS) : (s.setGen g v).gen g = v := by simp [State.gen, State.setGen]
theorem State.setGen_other (s : State) (g : Nat) (v : GenS) (j : Nat) (h : j ≠ g) : (s.setGen g v).gen j = s.gen j := by
  simp [State.gen, State.setGen, tabGet_set_other _ _ _ _ _ _ h]
@[simp] theorem State.setStrm_same (s : State) (n : Nat) (v : StreamS) : (s.setStrm n v).strm n = v := by simp [State.strm, State.setStrm]
theorem State.setStrm_other (s : State) (n : Nat) (v : StreamS) (j : Nat) (h : j ≠ n) : (s.setStrm n v).strm j = s.strm j := by
  simp [State.strm, State.setStrm, tabGet_set_other _ _ _ _ _ _ h]
@[simp] theorem State.setFeed_same (s : State) (f : Nat) (v : FeedS) : (s.setFeed f v).feed f = v := by simp [State.feed, State.setFeed]
theorem State.setFeed_other (s : State) (f : Nat) (v : FeedS) (j : Nat) (h : j ≠ f) : (s.setFeed f v).feed j = s.feed j := by
  simp [State.feed, State.setFeed, tabGet_set_other _ _ _ _ _ _ h]
@[simp] theorem State.setCrew_same (s : State) (c : Nat) (v : CrewS) : (s.setCrew c v).crew c = v := by simp [State.crew, State.setCrew]
theorem State.setCrew_other (s : State) (c : Nat) (v : CrewS) (j : Nat) (h : j ≠ c) : (s.setCrew c v).crew j = s.crew j := by
  simp [State.crew, State.setCrew, tabGet_set_other _ _ _ _ _ _ h]
@[simp] theorem State.setRun_same (s : State) (u : Nat) (v : Option RunS) : (s.setRun u v).run u = v := by simp [State.run, State.setRun]
theorem State.setRun_other (s : State) (u : Nat) (v : Option RunS) (j : Nat) (h : j ≠ u) : (s.setRun u v).run j = s.run j := by
  simp [State.run, State.setRun, tabGet_set_other _ _ _ _ _ _ h]
@[simp] theorem State.setRing_same (s : State) (i : Nat) (v : RingS) : (s.setRing i v).ring i = v := by simp [State.ring, State.setRing]
theorem State.setRing_other (s : State) (i : Nat) (v : RingS) (j : Nat) (h : j ≠ i) : (s.setRing i v).ring j = s.ring j := by
  simp [State.ring, State.setRing, tabGet_set_other _ _ _ _ _ _ h]
@[simp] theorem State.setTallySrc_same (s : State) (i : Nat) (v : TSrc) : (s.setTallySrc i v).tallySrc i = v := by simp [State.tallySrc, State.setTallySrc]
theorem State.setTallySrc_other (s : State) (i : Nat) (v : TSrc) (j : Nat) (h : j ≠ i) : (s.setTallySrc i v).tallySrc j = s.tallySrc j := by
  simp [State.tallySrc, State.setTallySrc, tabGet_set_other _ _ _ _ _ _ h]
@[simp] theorem State.setCp_same (s : State) (p : Nat) (v : CpS) : (s.setCp p v).cp p = v := by simp [State.cp, State.setCp]
theorem State.setCp_other (s : State) (p : Nat) (v : CpS) (j : Nat) (h : j ≠ p) : (s.setCp p v).cp j = s.cp j := by
  simp [State.cp, State.setCp, tabGet_set_other _ _ _ _ _ _ h]
@[simp] theorem State.setSlotPic_same (s : State) (i : Nat) (v : Option Nat) : (s.setSlotPic i v).slotPicOf i = v := by simp [State.slotPicOf, State.setSlotPic]
theorem State.setSlotPic_other (s : State) (i : Nat) (v : Option Nat) (j : Nat) (h : j ≠ i) : (s.setSlotPic i v).slotPicOf j = s.slotPicOf j := by
  simp [State.slotPicOf, State.setSlotPic, tabGet_set_other _ _ _ _ _ _ h]
@[simp] theorem State.setWindow_same (s : State) (c : Nat) (v : TWin) : (s.setWindow c v).window c = v := by simp [State.window, State.setWindow]
theorem State.setWindow_other (s : State) (c : Nat) (v : TWin) (j : Nat) (h : j ≠ c) : (s.setWindow c v).window j = s.window j := by
  simp [State.window, State.setWindow, tabGet_set_other _ _ _ _ _ _ h]
@[simp] theorem State.setFrames_same (s : State) (p : Nat) (l : List Frame) : (s.setFrames p l).frames p = l := by simp [State.frames, State.setFrames]
theorem State.setFrames_other (s : State) (p : Nat) (l : List Frame) (j : Nat) (h : j ≠ p) : (s.setFrames p l).frames j = s.frames j := by
  simp [State.frames, State.setFrames, tabGet_set_other _ _ _ _ _ _ h]
@[simp] theorem State.setSub_same (s : State) (i : Nat) (v : Option SubS) : (s.setSub i v).sub i = v := by simp [State.sub, State.setSub]
theorem State.setSub_other (s : State) (i : Nat) (v : Option SubS) (j : Nat) (h : j ≠ i) : (s.setSub i v).sub j = s.sub j := by
  simp [State.sub, State.setSub, tabGet_set_other _ _ _ _ _ _ h]
@[simp] theorem State.setStack_same (s : State) (k : Nat) (v : StackS) : (s.setStack k v).stack k = v := by simp [State.stack, State.setStack]
theorem State.setStack_other (s : State) (k : Nat) (v : StackS) (j : Nat) (h : j ≠ k) : (s.setStack k v).stack j = s.stack j := by
  simp [State.stack, State.setStack, tabGet_set_other _ _ _ _ _ _ h]
@[simp] theorem State.setSeq_same (s : State) (u : Nat) (q : SeqS) : (s.setSeq u q).seq u = q := by simp [State.seq, State.setSeq]
theorem State.setSeq_other (s : State) (u : Nat) (q : SeqS) (j : Nat) (h : j ≠ u) : (s.setSeq u q).seq j = s.seq j := by
  simp [State.seq, State.setSeq, tabGet_set_other _ _ _ _ _ _ h]
@[simp] theorem State.setHch_same (s : State) (g : Nat) (v : HchS) : (s.setHch g v).hch g = v := by simp [State.hch, State.setHch]
theorem State.setHch_other (s : State) (g : Nat) (v : HchS) (j : Nat) (h : j ≠ g) : (s.setHch g v).hch j = s.hch j := by
  simp [State.hch, State.setHch, tabGet_set_other _ _ _ _ _ _ h]
@[simp] theorem State.setQp_same (s : State) (q : Nat) (v : QpS) : (s.setQp q v).qp q = v := by simp [State.qp, State.setQp]
theorem State.setQp_other (s : State) (q : Nat) (v : QpS) (j : Nat) (h : j ≠ q) : (s.setQp q v).qp j = s.qp j := by
  simp [State.qp, State.setQp, tabGet_set_other _ _ _ _ _ _ h]

end Sys2Proof.Machine
end

