-- ==== Sys2Proof/Laws/Shared.lean ====
section
/-!
SUPPORT. What each shared operation can change: the state without the parts that reports, ring entries and completions change is
the same after them as before.
-/
namespace Sys2Proof.Machine

/-- The state without its registers and Tally messages. -/
def State.sansReports (s : State) : State := { s with regs := [], hot := [], held := [], heldWait := [] }

/-- The state without its registers, Tally messages, rings, commands and what left the part. -/
def State.sansRings (s : State) : State :=
  { s with regs := [], hot := [], held := [], heldWait := [], rings := [], fetched := [], turn := 0, owed := [], outbox := [] }


@[simp] theorem State.sansReports_mk (a0 a1 a2 a3 a4 a5 a6 a7 a8 a9 a10 a11 a12 a13 a14 a15 a16 a17 a18 a19 a20 a21 a22 a23 a24 a25 a26 a27 a28 a29 a30 a31 a32 a33 a34 a35 a36 a37 a38 a39 a40 a41 a42 a43 a44 a45 a46 a47 a48 a49 a50 a51 a52 a53 a54 a55 a56 a57 a58 a59 a60 a61 a62 a63 a64 a65 a66 a67 a68 a69 a70 a71 a72 a73 a74 a75 a76 a77 a78 a79 a80 a81 a82 a83 a84 a85 a86 a87 a88 a89 a90 a91 a92) :
    (State.mk a0 a1 a2 a3 a4 a5 a6 a7 a8 a9 a10 a11 a12 a13 a14 a15 a16 a17 a18 a19 a20 a21 a22 a23 a24 a25 a26 a27 a28 a29 a30 a31 a32 a33 a34 a35 a36 a37 a38 a39 a40 a41 a42 a43 a44 a45 a46 a47 a48 a49 a50 a51 a52 a53 a54 a55 a56 a57 a58 a59 a60 a61 a62 a63 a64 a65 a66 a67 a68 a69 a70 a71 a72 a73 a74 a75 a76 a77 a78 a79 a80 a81 a82 a83 a84 a85 a86 a87 a88 a89 a90 a91 a92).sansReports =
    State.mk a0 [] a2 a3 a4 a5 a6 a7 [] a9 a10 a11 a12 a13 a14 a15 a16 a17 [] [] a20 a21 a22 a23 a24 a25 a26 a27 a28 a29 a30 a31 a32 a33 a34 a35 a36 a37 a38 a39 a40 a41 a42 a43 a44 a45 a46 a47 a48 a49 a50 a51 a52 a53 a54 a55 a56 a57 a58 a59 a60 a61 a62 a63 a64 a65 a66 a67 a68 a69 a70 a71 a72 a73 a74 a75 a76 a77 a78 a79 a80 a81 a82 a83 a84 a85 a86 a87 a88 a89 a90 a91 a92 := by rfl

@[simp] theorem State.sansReports_same (x s : State) :
    (State.mk x.pending [] x.part x.rst x.now x.prev x.cyc x.fired [] x.freed x.waitDue x.turns x.rate x.ppsNs x.ppsHigh x.relock x.gens x.freeCtr [] [] x.tsrc x.twin x.gath x.claimed x.tgtDef x.holdOff x.pins x.looked x.preempt x.rings x.fetched x.lifted x.owed x.turn x.outbox x.streams x.feeds x.crews x.runs x.ended x.seqs x.therm x.progs x.scache x.slotPic x.slotSz x.slotNref x.slotC x.retPend x.egr x.txFree x.frameNo x.rtpSeq x.subs x.shapers x.gates x.ptpRx x.tsb x.ptpServo x.mem x.injRecs x.filled x.images x.chkLeft x.badRows x.lost x.celCe x.celDly x.celVref x.pcs x.stackTab x.ldrCol x.training x.adapting x.laneSet x.blFrom x.qps x.hchs x.hgrant x.ptpPos x.cps x.push x.bank0 x.bank1 x.sleep x.swap x.resetReq x.wakeN x.rails x.railF x.avsAgain x.voutExp x.straps = s.sansReports) = (x.sansReports = s.sansReports) := by rfl

@[simp] theorem State.sansRings_mk (a0 a1 a2 a3 a4 a5 a6 a7 a8 a9 a10 a11 a12 a13 a14 a15 a16 a17 a18 a19 a20 a21 a22 a23 a24 a25 a26 a27 a28 a29 a30 a31 a32 a33 a34 a35 a36 a37 a38 a39 a40 a41 a42 a43 a44 a45 a46 a47 a48 a49 a50 a51 a52 a53 a54 a55 a56 a57 a58 a59 a60 a61 a62 a63 a64 a65 a66 a67 a68 a69 a70 a71 a72 a73 a74 a75 a76 a77 a78 a79 a80 a81 a82 a83 a84 a85 a86 a87 a88 a89 a90 a91 a92) :
    (State.mk a0 a1 a2 a3 a4 a5 a6 a7 a8 a9 a10 a11 a12 a13 a14 a15 a16 a17 a18 a19 a20 a21 a22 a23 a24 a25 a26 a27 a28 a29 a30 a31 a32 a33 a34 a35 a36 a37 a38 a39 a40 a41 a42 a43 a44 a45 a46 a47 a48 a49 a50 a51 a52 a53 a54 a55 a56 a57 a58 a59 a60 a61 a62 a63 a64 a65 a66 a67 a68 a69 a70 a71 a72 a73 a74 a75 a76 a77 a78 a79 a80 a81 a82 a83 a84 a85 a86 a87 a88 a89 a90 a91 a92).sansRings =
    State.mk a0 [] a2 a3 a4 a5 a6 a7 [] a9 a10 a11 a12 a13 a14 a15 a16 a17 [] [] a20 a21 a22 a23 a24 a25 a26 a27 a28 [] [] a31 [] 0 [] a35 a36 a37 a38 a39 a40 a41 a42 a43 a44 a45 a46 a47 a48 a49 a50 a51 a52 a53 a54 a55 a56 a57 a58 a59 a60 a61 a62 a63 a64 a65 a66 a67 a68 a69 a70 a71 a72 a73 a74 a75 a76 a77 a78 a79 a80 a81 a82 a83 a84 a85 a86 a87 a88 a89 a90 a91 a92 := by rfl

@[simp] theorem State.sansRings_same (x s : State) :
    (State.mk x.pending [] x.part x.rst x.now x.prev x.cyc x.fired [] x.freed x.waitDue x.turns x.rate x.ppsNs x.ppsHigh x.relock x.gens x.freeCtr [] [] x.tsrc x.twin x.gath x.claimed x.tgtDef x.holdOff x.pins x.looked x.preempt [] [] x.lifted [] 0 [] x.streams x.feeds x.crews x.runs x.ended x.seqs x.therm x.progs x.scache x.slotPic x.slotSz x.slotNref x.slotC x.retPend x.egr x.txFree x.frameNo x.rtpSeq x.subs x.shapers x.gates x.ptpRx x.tsb x.ptpServo x.mem x.injRecs x.filled x.images x.chkLeft x.badRows x.lost x.celCe x.celDly x.celVref x.pcs x.stackTab x.ldrCol x.training x.adapting x.laneSet x.blFrom x.qps x.hchs x.hgrant x.ptpPos x.cps x.push x.bank0 x.bank1 x.sleep x.swap x.resetReq x.wakeN x.rails x.railF x.avsAgain x.voutExp x.straps = s.sansRings) = (x.sansRings = s.sansRings) := by rfl

theorem State.onlyReports_of {s t : State} (h : t.sansReports = s.sansReports) : s.onlyReports t := by
  cases s; cases t; simp only [State.sansReports, State.mk.injEq, true_and] at h
  simp only [State.onlyReports, State.mk.injEq, true_and]; exact h

theorem State.onlyRings_of {s t : State} (h : t.sansRings = s.sansRings) : s.onlyRings t := by
  cases s; cases t; simp only [State.sansRings, State.mk.injEq, true_and] at h
  simp only [State.onlyRings, State.mk.injEq, true_and]; exact h

/-- What keeps the state without its reports keeps it without its rings. -/
theorem State.sansRings_of {s t : State} (h : t.sansReports = s.sansReports) : t.sansRings = s.sansRings := by
  cases s; cases t; simp only [State.sansReports, State.mk.injEq, true_and] at h
  simp only [State.sansRings, State.mk.injEq, true_and]; simp only [h, and_self]

/-! ## Registers and Tally messages -/

@[simp] theorem State.setReg_sansReports (s : State) (a : Nat) (v : Word) : (s.setReg a v).sansReports = s.sansReports := by
  simp [State.setReg]
@[simp] theorem State.set_sansReports (s : State) (f : RF) (x : Nat) : (s.set f x).sansReports = s.sansReports := by simp [State.set]
@[simp] theorem State.addSat_sansReports (s : State) (f : RF) (n : Nat) : (s.addSat f n).sansReports = s.sansReports := by
  simp [State.addSat]
@[simp] theorem State.bump_sansReports (s : State) (f : RF) : (s.bump f).sansReports = s.sansReports := by simp [State.bump]
@[simp] theorem State.incMod_sansReports (s : State) (f : RF) : (s.incMod f).sansReports = s.sansReports := by simp [State.incMod]
@[simp] theorem State.raise_sansReports (s : State) (f : RF) : (s.raise f).sansReports = s.sansReports := by simp [State.raise, State.set, State.setReg]
@[simp] theorem State.evcAssert_sansReports (s : State) (n : Nat) : (s.evcAssert n).sansReports = s.sansReports := by
  simp [State.evcAssert]
@[simp] theorem State.evcLine_sansReports (s : State) (n : Nat) (b : Bool) : (s.evcLine n b).sansReports = s.sansReports := by
  simp [State.evcLine]
@[simp] theorem State.plainWrite_sansReports (s : State) (a : Nat) (d : Word) : (s.plainWrite a d).sansReports = s.sansReports := by
  unfold State.plainWrite; split <;> simp
@[simp] theorem State.holdMsg_sansReports (s : State) (m : Msg) : (s.holdMsg m).sansReports = s.sansReports := by
  unfold State.holdMsg; split
  · simp
  · split <;> simp
@[simp] theorem State.send_sansReports (s : State) (src kind addr detail : Nat) (inj : Bool) (lvl : Option Nat) :
    (s.send src kind addr detail inj lvl).sansReports = s.sansReports := by
  unfold State.send; split
  · rfl
  · rw [State.holdMsg_sansReports]
@[simp] theorem State.cfgReport_sansReports (s : State) (a : Nat) : (s.cfgReport a).sansReports = s.sansReports := by
  unfold State.cfgReport; rw [State.send_sansReports]
@[simp] theorem State.replace_sansReports (s : State) (bits : Nat) : (s.replace bits).sansReports = s.sansReports := by
  unfold State.replace; dsimp only; split
  · rfl
  · rw [State.send_sansReports, State.set_sansReports, State.set_sansReports]

/-! ## Rings and commands -/

@[simp] theorem State.set_sansRings (s : State) (f : RF) (x : Nat) : (s.set f x).sansRings = s.sansRings :=
  State.sansRings_of (by simp)
@[simp] theorem State.raise_sansRings (s : State) (f : RF) : (s.raise f).sansRings = s.sansRings :=
  State.sansRings_of (by simp)
@[simp] theorem State.bump_sansRings (s : State) (f : RF) : (s.bump f).sansRings = s.sansRings :=
  State.sansRings_of (by simp)
@[simp] theorem State.incMod_sansRings (s : State) (f : RF) : (s.incMod f).sansRings = s.sansRings :=
  State.sansRings_of (by simp)
@[simp] theorem State.plainWrite_sansRings (s : State) (a : Nat) (d : Word) : (s.plainWrite a d).sansRings = s.sansRings :=
  State.sansRings_of (by simp)
@[simp] theorem State.send_sansRings (s : State) (src kind addr detail : Nat) (inj : Bool) (lvl : Option Nat) : (s.send src kind addr detail inj lvl).sansRings = s.sansRings :=
  State.sansRings_of (by simp)
@[simp] theorem State.cfgReport_sansRings (s : State) (a : Nat) : (s.cfgReport a).sansRings = s.sansRings :=
  State.sansRings_of (by simp)
@[simp] theorem State.replace_sansRings (s : State) (bits : Nat) : (s.replace bits).sansRings = s.sansRings :=
  State.sansRings_of (by simp)
@[simp] theorem State.emit_sansRings (s : State) (o : Out) : (s.emit o).sansRings = s.sansRings := by simp [State.emit]
@[simp] theorem State.setRing_sansRings (s : State) (i : Nat) (v : RingS) : (s.setRing i v).sansRings = s.sansRings := by
  simp [State.setRing]
@[simp] theorem State.await_sansRings (s : State) (o : Owed) (w : Await) : (s.await o w).sansRings = s.sansRings := by
  simp [State.await]
@[simp] theorem State.promote_sansRings (s : State) (k i : Nat) (w : Await) : (s.promote k i w).sansRings = s.sansRings := by
  simp [State.promote]
@[simp] theorem State.ringPut_sansRings (s : State) (i : Nat) (e : RingEntry) : (s.ringPut i e).sansRings = s.sansRings := by
  unfold State.ringPut; rw [State.setRing_sansRings, State.incMod_sansRings]
@[simp] theorem State.eventRecord_sansRings (s : State) (i : Nat) (mk : Nat → RingEntry) :
    (s.eventRecord i mk).sansRings = s.sansRings := by
  unfold State.eventRecord; split
  · simp
  · dsimp only; split <;> simp
@[simp] theorem State.statRecord_sansRings (s : State) (i body : Nat) : (s.statRecord i body).sansRings = s.sansRings := by
  unfold State.statRecord; split <;> simp
@[simp] theorem State.complete_sansRings (s : State) (o : Owed) (status data : Nat) :
    (s.complete o status data).sansRings = s.sansRings := by
  unfold State.complete; dsimp only; split
  · rw [State.ringPut_sansRings]
  · rfl
@[simp] theorem State.completeAll_sansRings (s : State) (l : List Owed) (status data : Nat) :
    (s.completeAll l status data).sansRings = s.sansRings := by
  unfold State.completeAll
  induction l generalizing s with
  | nil => rfl
  | cons o r ih => rw [List.foldl_cons, ih, State.complete_sansRings]
@[simp] theorem State.settle_sansRings (s : State) (w : Await) (status data : Nat) :
    (s.settle w status data).sansRings = s.sansRings := by
  unfold State.settle; rw [State.completeAll_sansRings]; simp
@[simp] theorem State.takeFetched_sansRings (s : State) (c : Cmd) : (s.takeFetched c).sansRings = s.sansRings := by
  simp [State.takeFetched]
@[simp] theorem State.bumpEpoch_sansRings (s : State) (u : URec) : (s.bumpEpoch u).sansRings = s.sansRings := by
  unfold State.bumpEpoch; split <;> simp
@[simp] theorem State.request_sansRings (s : State) (kind i : Nat) (enable : Bool) :
    (s.request kind i enable).1.sansRings = s.sansRings := by
  unfold State.request; dsimp only; split <;> simp
@[simp] theorem State.requestWrite_sansRings (s : State) (kind i req : Nat) : (s.requestWrite kind i req).sansRings = s.sansRings := by
  unfold State.requestWrite; split
  · simp
  · split <;> simp
@[simp] theorem State.requestCmd_sansRings (s : State) (o : Owed) (kind i : Nat) (enable : Bool) (data : Nat) :
    (s.requestCmd o kind i enable data).sansRings = s.sansRings := by
  unfold State.requestCmd; dsimp only; split <;> simp
@[simp] theorem State.reachOn_sansRings (s : State) (kind i data : Nat) : (s.reachOn kind i data).sansRings = s.sansRings := by
  unfold State.reachOn; dsimp only; split
  · split <;> simp
  · rfl
@[simp] theorem State.reachOff_sansRings (s : State) (kind i : Nat) (check : Option Nat) (data : Nat) :
    (s.reachOff kind i check data).sansRings = s.sansRings := by
  unfold State.reachOff; dsimp only; split
  · split
    · split <;> simp
    · simp
  · rfl

end Sys2Proof.Machine
end

