-- ==== Sys2Proof/Laws/SharedFields.lean ====
section
/-!
SUPPORT. Field by field, what the shared operations leave alone: each from the one law of its operation.
-/
namespace Sys2Proof.Machine
theorem State.sansReports_pending (s : State) : s.sansReports.pending = s.pending := by rfl
theorem State.sansReports_part (s : State) : s.sansReports.part = s.part := by rfl
theorem State.sansReports_rst (s : State) : s.sansReports.rst = s.rst := by rfl
theorem State.sansReports_now (s : State) : s.sansReports.now = s.now := by rfl
theorem State.sansReports_prev (s : State) : s.sansReports.prev = s.prev := by rfl
theorem State.sansReports_cyc (s : State) : s.sansReports.cyc = s.cyc := by rfl
theorem State.sansReports_fired (s : State) : s.sansReports.fired = s.fired := by rfl
theorem State.sansReports_freed (s : State) : s.sansReports.freed = s.freed := by rfl
theorem State.sansReports_waitDue (s : State) : s.sansReports.waitDue = s.waitDue := by rfl
theorem State.sansReports_turns (s : State) : s.sansReports.turns = s.turns := by rfl
theorem State.sansReports_rate (s : State) : s.sansReports.rate = s.rate := by rfl
theorem State.sansReports_ppsNs (s : State) : s.sansReports.ppsNs = s.ppsNs := by rfl
theorem State.sansReports_ppsHigh (s : State) : s.sansReports.ppsHigh = s.ppsHigh := by rfl
theorem State.sansReports_relock (s : State) : s.sansReports.relock = s.relock := by rfl
theorem State.sansReports_gens (s : State) : s.sansReports.gens = s.gens := by rfl
theorem State.sansReports_freeCtr (s : State) : s.sansReports.freeCtr = s.freeCtr := by rfl
theorem State.sansReports_tsrc (s : State) : s.sansReports.tsrc = s.tsrc := by rfl
theorem State.sansReports_twin (s : State) : s.sansReports.twin = s.twin := by rfl
theorem State.sansReports_gath (s : State) : s.sansReports.gath = s.gath := by rfl
theorem State.sansReports_claimed (s : State) : s.sansReports.claimed = s.claimed := by rfl
theorem State.sansReports_tgtDef (s : State) : s.sansReports.tgtDef = s.tgtDef := by rfl
theorem State.sansReports_holdOff (s : State) : s.sansReports.holdOff = s.holdOff := by rfl
theorem State.sansReports_pins (s : State) : s.sansReports.pins = s.pins := by rfl
theorem State.sansReports_looked (s : State) : s.sansReports.looked = s.looked := by rfl
theorem State.sansReports_preempt (s : State) : s.sansReports.preempt = s.preempt := by rfl
theorem State.sansReports_rings (s : State) : s.sansReports.rings = s.rings := by rfl
theorem State.sansReports_fetched (s : State) : s.sansReports.fetched = s.fetched := by rfl
theorem State.sansReports_lifted (s : State) : s.sansReports.lifted = s.lifted := by rfl
theorem State.sansReports_owed (s : State) : s.sansReports.owed = s.owed := by rfl
theorem State.sansReports_turn (s : State) : s.sansReports.turn = s.turn := by rfl
theorem State.sansReports_outbox (s : State) : s.sansReports.outbox = s.outbox := by rfl
theorem State.sansReports_streams (s : State) : s.sansReports.streams = s.streams := by rfl
theorem State.sansReports_feeds (s : State) : s.sansReports.feeds = s.feeds := by rfl
theorem State.sansReports_crews (s : State) : s.sansReports.crews = s.crews := by rfl
theorem State.sansReports_runs (s : State) : s.sansReports.runs = s.runs := by rfl
theorem State.sansReports_ended (s : State) : s.sansReports.ended = s.ended := by rfl
theorem State.sansReports_seqs (s : State) : s.sansReports.seqs = s.seqs := by rfl
theorem State.sansReports_therm (s : State) : s.sansReports.therm = s.therm := by rfl
theorem State.sansReports_progs (s : State) : s.sansReports.progs = s.progs := by rfl
theorem State.sansReports_scache (s : State) : s.sansReports.scache = s.scache := by rfl
theorem State.sansReports_slotPic (s : State) : s.sansReports.slotPic = s.slotPic := by rfl
theorem State.sansReports_slotSz (s : State) : s.sansReports.slotSz = s.slotSz := by rfl
theorem State.sansReports_slotNref (s : State) : s.sansReports.slotNref = s.slotNref := by rfl
theorem State.sansReports_slotC (s : State) : s.sansReports.slotC = s.slotC := by rfl
theorem State.sansReports_retPend (s : State) : s.sansReports.retPend = s.retPend := by rfl
theorem State.sansReports_egr (s : State) : s.sansReports.egr = s.egr := by rfl
theorem State.sansReports_txFree (s : State) : s.sansReports.txFree = s.txFree := by rfl
theorem State.sansReports_frameNo (s : State) : s.sansReports.frameNo = s.frameNo := by rfl
theorem State.sansReports_rtpSeq (s : State) : s.sansReports.rtpSeq = s.rtpSeq := by rfl
theorem State.sansReports_subs (s : State) : s.sansReports.subs = s.subs := by rfl
theorem State.sansReports_shapers (s : State) : s.sansReports.shapers = s.shapers := by rfl
theorem State.sansReports_gates (s : State) : s.sansReports.gates = s.gates := by rfl
theorem State.sansReports_ptpRx (s : State) : s.sansReports.ptpRx = s.ptpRx := by rfl
theorem State.sansReports_tsb (s : State) : s.sansReports.tsb = s.tsb := by rfl
theorem State.sansReports_ptpServo (s : State) : s.sansReports.ptpServo = s.ptpServo := by rfl
theorem State.sansReports_mem (s : State) : s.sansReports.mem = s.mem := by rfl
theorem State.sansReports_injRecs (s : State) : s.sansReports.injRecs = s.injRecs := by rfl
theorem State.sansReports_filled (s : State) : s.sansReports.filled = s.filled := by rfl
theorem State.sansReports_images (s : State) : s.sansReports.images = s.images := by rfl
theorem State.sansReports_chkLeft (s : State) : s.sansReports.chkLeft = s.chkLeft := by rfl
theorem State.sansReports_badRows (s : State) : s.sansReports.badRows = s.badRows := by rfl
theorem State.sansReports_lost (s : State) : s.sansReports.lost = s.lost := by rfl
theorem State.sansReports_celCe (s : State) : s.sansReports.celCe = s.celCe := by rfl
theorem State.sansReports_celDly (s : State) : s.sansReports.celDly = s.celDly := by rfl
theorem State.sansReports_celVref (s : State) : s.sansReports.celVref = s.celVref := by rfl
theorem State.sansReports_pcs (s : State) : s.sansReports.pcs = s.pcs := by rfl
theorem State.sansReports_stackTab (s : State) : s.sansReports.stackTab = s.stackTab := by rfl
theorem State.sansReports_ldrCol (s : State) : s.sansReports.ldrCol = s.ldrCol := by rfl
theorem State.sansReports_training (s : State) : s.sansReports.training = s.training := by rfl
theorem State.sansReports_adapting (s : State) : s.sansReports.adapting = s.adapting := by rfl
theorem State.sansReports_laneSet (s : State) : s.sansReports.laneSet = s.laneSet := by rfl
theorem State.sansReports_blFrom (s : State) : s.sansReports.blFrom = s.blFrom := by rfl
theorem State.sansReports_qps (s : State) : s.sansReports.qps = s.qps := by rfl
theorem State.sansReports_hchs (s : State) : s.sansReports.hchs = s.hchs := by rfl
theorem State.sansReports_hgrant (s : State) : s.sansReports.hgrant = s.hgrant := by rfl
theorem State.sansReports_ptpPos (s : State) : s.sansReports.ptpPos = s.ptpPos := by rfl
theorem State.sansReports_cps (s : State) : s.sansReports.cps = s.cps := by rfl
theorem State.sansReports_push (s : State) : s.sansReports.push = s.push := by rfl
theorem State.sansReports_bank0 (s : State) : s.sansReports.bank0 = s.bank0 := by rfl
theorem State.sansReports_bank1 (s : State) : s.sansReports.bank1 = s.bank1 := by rfl
theorem State.sansReports_sleep (s : State) : s.sansReports.sleep = s.sleep := by rfl
theorem State.sansReports_swap (s : State) : s.sansReports.swap = s.swap := by rfl
theorem State.sansReports_resetReq (s : State) : s.sansReports.resetReq = s.resetReq := by rfl
theorem State.sansReports_wakeN (s : State) : s.sansReports.wakeN = s.wakeN := by rfl
theorem State.sansReports_rails (s : State) : s.sansReports.rails = s.rails := by rfl
theorem State.sansReports_railF (s : State) : s.sansReports.railF = s.railF := by rfl
theorem State.sansReports_avsAgain (s : State) : s.sansReports.avsAgain = s.avsAgain := by rfl
theorem State.sansReports_voutExp (s : State) : s.sansReports.voutExp = s.voutExp := by rfl
theorem State.sansReports_straps (s : State) : s.sansReports.straps = s.straps := by rfl
theorem State.sansReports_strm (s : State) (k : Nat) : s.sansReports.strm k = s.strm k := by rfl
theorem State.sansReports_gen (s : State) (k : Nat) : s.sansReports.gen k = s.gen k := by rfl
theorem State.sansReports_feed (s : State) (k : Nat) : s.sansReports.feed k = s.feed k := by rfl
theorem State.sansReports_crew (s : State) (k : Nat) : s.sansReports.crew k = s.crew k := by rfl
theorem State.sansReports_run (s : State) (k : Nat) : s.sansReports.run k = s.run k := by rfl
theorem State.sansReports_ring (s : State) (k : Nat) : s.sansReports.ring k = s.ring k := by rfl
theorem State.sansReports_tallySrc (s : State) (k : Nat) : s.sansReports.tallySrc k = s.tallySrc k := by rfl
theorem State.sansReports_cp (s : State) (k : Nat) : s.sansReports.cp k = s.cp k := by rfl
theorem State.sansReports_slotPicOf (s : State) (k : Nat) : s.sansReports.slotPicOf k = s.slotPicOf k := by rfl
theorem State.sansReports_window (s : State) (k : Nat) : s.sansReports.window k = s.window k := by rfl
theorem State.sansReports_frames (s : State) (k : Nat) : s.sansReports.frames k = s.frames k := by rfl
theorem State.sansReports_sub (s : State) (k : Nat) : s.sansReports.sub k = s.sub k := by rfl
theorem State.sansReports_stack (s : State) (k : Nat) : s.sansReports.stack k = s.stack k := by rfl
theorem State.sansReports_seq (s : State) (k : Nat) : s.sansReports.seq k = s.seq k := by rfl
theorem State.sansReports_hch (s : State) (k : Nat) : s.sansReports.hch k = s.hch k := by rfl
theorem State.sansReports_qp (s : State) (k : Nat) : s.sansReports.qp k = s.qp k := by rfl
theorem State.sansRings_pending (s : State) : s.sansRings.pending = s.pending := by rfl
theorem State.sansRings_part (s : State) : s.sansRings.part = s.part := by rfl
theorem State.sansRings_rst (s : State) : s.sansRings.rst = s.rst := by rfl
theorem State.sansRings_now (s : State) : s.sansRings.now = s.now := by rfl
theorem State.sansRings_prev (s : State) : s.sansRings.prev = s.prev := by rfl
theorem State.sansRings_cyc (s : State) : s.sansRings.cyc = s.cyc := by rfl
theorem State.sansRings_fired (s : State) : s.sansRings.fired = s.fired := by rfl
theorem State.sansRings_freed (s : State) : s.sansRings.freed = s.freed := by rfl
theorem State.sansRings_waitDue (s : State) : s.sansRings.waitDue = s.waitDue := by rfl
theorem State.sansRings_turns (s : State) : s.sansRings.turns = s.turns := by rfl
theorem State.sansRings_rate (s : State) : s.sansRings.rate = s.rate := by rfl
theorem State.sansRings_ppsNs (s : State) : s.sansRings.ppsNs = s.ppsNs := by rfl
theorem State.sansRings_ppsHigh (s : State) : s.sansRings.ppsHigh = s.ppsHigh := by rfl
theorem State.sansRings_relock (s : State) : s.sansRings.relock = s.relock := by rfl
theorem State.sansRings_gens (s : State) : s.sansRings.gens = s.gens := by rfl
theorem State.sansRings_freeCtr (s : State) : s.sansRings.freeCtr = s.freeCtr := by rfl
theorem State.sansRings_tsrc (s : State) : s.sansRings.tsrc = s.tsrc := by rfl
theorem State.sansRings_twin (s : State) : s.sansRings.twin = s.twin := by rfl
theorem State.sansRings_gath (s : State) : s.sansRings.gath = s.gath := by rfl
theorem State.sansRings_claimed (s : State) : s.sansRings.claimed = s.claimed := by rfl
theorem State.sansRings_tgtDef (s : State) : s.sansRings.tgtDef = s.tgtDef := by rfl
theorem State.sansRings_holdOff (s : State) : s.sansRings.holdOff = s.holdOff := by rfl
theorem State.sansRings_pins (s : State) : s.sansRings.pins = s.pins := by rfl
theorem State.sansRings_looked (s : State) : s.sansRings.looked = s.looked := by rfl
theorem State.sansRings_preempt (s : State) : s.sansRings.preempt = s.preempt := by rfl
theorem State.sansRings_lifted (s : State) : s.sansRings.lifted = s.lifted := by rfl
theorem State.sansRings_streams (s : State) : s.sansRings.streams = s.streams := by rfl
theorem State.sansRings_feeds (s : State) : s.sansRings.feeds = s.feeds := by rfl
theorem State.sansRings_crews (s : State) : s.sansRings.crews = s.crews := by rfl
theorem State.sansRings_runs (s : State) : s.sansRings.runs = s.runs := by rfl
theorem State.sansRings_ended (s : State) : s.sansRings.ended = s.ended := by rfl
theorem State.sansRings_seqs (s : State) : s.sansRings.seqs = s.seqs := by rfl
theorem State.sansRings_therm (s : State) : s.sansRings.therm = s.therm := by rfl
theorem State.sansRings_progs (s : State) : s.sansRings.progs = s.progs := by rfl
theorem State.sansRings_scache (s : State) : s.sansRings.scache = s.scache := by rfl
theorem State.sansRings_slotPic (s : State) : s.sansRings.slotPic = s.slotPic := by rfl
theorem State.sansRings_slotSz (s : State) : s.sansRings.slotSz = s.slotSz := by rfl
theorem State.sansRings_slotNref (s : State) : s.sansRings.slotNref = s.slotNref := by rfl
theorem State.sansRings_slotC (s : State) : s.sansRings.slotC = s.slotC := by rfl
theorem State.sansRings_retPend (s : State) : s.sansRings.retPend = s.retPend := by rfl
theorem State.sansRings_egr (s : State) : s.sansRings.egr = s.egr := by rfl
theorem State.sansRings_txFree (s : State) : s.sansRings.txFree = s.txFree := by rfl
theorem State.sansRings_frameNo (s : State) : s.sansRings.frameNo = s.frameNo := by rfl
theorem State.sansRings_rtpSeq (s : State) : s.sansRings.rtpSeq = s.rtpSeq := by rfl
theorem State.sansRings_subs (s : State) : s.sansRings.subs = s.subs := by rfl
theorem State.sansRings_shapers (s : State) : s.sansRings.shapers = s.shapers := by rfl
theorem State.sansRings_gates (s : State) : s.sansRings.gates = s.gates := by rfl
theorem State.sansRings_ptpRx (s : State) : s.sansRings.ptpRx = s.ptpRx := by rfl
theorem State.sansRings_tsb (s : State) : s.sansRings.tsb = s.tsb := by rfl
theorem State.sansRings_ptpServo (s : State) : s.sansRings.ptpServo = s.ptpServo := by rfl
theorem State.sansRings_mem (s : State) : s.sansRings.mem = s.mem := by rfl
theorem State.sansRings_injRecs (s : State) : s.sansRings.injRecs = s.injRecs := by rfl
theorem State.sansRings_filled (s : State) : s.sansRings.filled = s.filled := by rfl
theorem State.sansRings_images (s : State) : s.sansRings.images = s.images := by rfl
theorem State.sansRings_chkLeft (s : State) : s.sansRings.chkLeft = s.chkLeft := by rfl
theorem State.sansRings_badRows (s : State) : s.sansRings.badRows = s.badRows := by rfl
theorem State.sansRings_lost (s : State) : s.sansRings.lost = s.lost := by rfl
theorem State.sansRings_celCe (s : State) : s.sansRings.celCe = s.celCe := by rfl
theorem State.sansRings_celDly (s : State) : s.sansRings.celDly = s.celDly := by rfl
theorem State.sansRings_celVref (s : State) : s.sansRings.celVref = s.celVref := by rfl
theorem State.sansRings_pcs (s : State) : s.sansRings.pcs = s.pcs := by rfl
theorem State.sansRings_stackTab (s : State) : s.sansRings.stackTab = s.stackTab := by rfl
theorem State.sansRings_ldrCol (s : State) : s.sansRings.ldrCol = s.ldrCol := by rfl
theorem State.sansRings_training (s : State) : s.sansRings.training = s.training := by rfl
theorem State.sansRings_adapting (s : State) : s.sansRings.adapting = s.adapting := by rfl
theorem State.sansRings_laneSet (s : State) : s.sansRings.laneSet = s.laneSet := by rfl
theorem State.sansRings_blFrom (s : State) : s.sansRings.blFrom = s.blFrom := by rfl
theorem State.sansRings_qps (s : State) : s.sansRings.qps = s.qps := by rfl
theorem State.sansRings_hchs (s : State) : s.sansRings.hchs = s.hchs := by rfl
theorem State.sansRings_hgrant (s : State) : s.sansRings.hgrant = s.hgrant := by rfl
theorem State.sansRings_ptpPos (s : State) : s.sansRings.ptpPos = s.ptpPos := by rfl
theorem State.sansRings_cps (s : State) : s.sansRings.cps = s.cps := by rfl
theorem State.sansRings_push (s : State) : s.sansRings.push = s.push := by rfl
theorem State.sansRings_bank0 (s : State) : s.sansRings.bank0 = s.bank0 := by rfl
theorem State.sansRings_bank1 (s : State) : s.sansRings.bank1 = s.bank1 := by rfl
theorem State.sansRings_sleep (s : State) : s.sansRings.sleep = s.sleep := by rfl
theorem State.sansRings_swap (s : State) : s.sansRings.swap = s.swap := by rfl
theorem State.sansRings_resetReq (s : State) : s.sansRings.resetReq = s.resetReq := by rfl
theorem State.sansRings_wakeN (s : State) : s.sansRings.wakeN = s.wakeN := by rfl
theorem State.sansRings_rails (s : State) : s.sansRings.rails = s.rails := by rfl
theorem State.sansRings_railF (s : State) : s.sansRings.railF = s.railF := by rfl
theorem State.sansRings_avsAgain (s : State) : s.sansRings.avsAgain = s.avsAgain := by rfl
theorem State.sansRings_voutExp (s : State) : s.sansRings.voutExp = s.voutExp := by rfl
theorem State.sansRings_straps (s : State) : s.sansRings.straps = s.straps := by rfl
theorem State.sansRings_strm (s : State) (k : Nat) : s.sansRings.strm k = s.strm k := by rfl
theorem State.sansRings_gen (s : State) (k : Nat) : s.sansRings.gen k = s.gen k := by rfl
theorem State.sansRings_feed (s : State) (k : Nat) : s.sansRings.feed k = s.feed k := by rfl
theorem State.sansRings_crew (s : State) (k : Nat) : s.sansRings.crew k = s.crew k := by rfl
theorem State.sansRings_run (s : State) (k : Nat) : s.sansRings.run k = s.run k := by rfl
theorem State.sansRings_tallySrc (s : State) (k : Nat) : s.sansRings.tallySrc k = s.tallySrc k := by rfl
theorem State.sansRings_cp (s : State) (k : Nat) : s.sansRings.cp k = s.cp k := by rfl
theorem State.sansRings_slotPicOf (s : State) (k : Nat) : s.sansRings.slotPicOf k = s.slotPicOf k := by rfl
theorem State.sansRings_window (s : State) (k : Nat) : s.sansRings.window k = s.window k := by rfl
theorem State.sansRings_frames (s : State) (k : Nat) : s.sansRings.frames k = s.frames k := by rfl
theorem State.sansRings_sub (s : State) (k : Nat) : s.sansRings.sub k = s.sub k := by rfl
theorem State.sansRings_stack (s : State) (k : Nat) : s.sansRings.stack k = s.stack k := by rfl
theorem State.sansRings_seq (s : State) (k : Nat) : s.sansRings.seq k = s.seq k := by rfl
theorem State.sansRings_hch (s : State) (k : Nat) : s.sansRings.hch k = s.hch k := by rfl
theorem State.sansRings_qp (s : State) (k : Nat) : s.sansRings.qp k = s.qp k := by rfl

/-! ### plainWrite -/

@[simp] theorem State.plainWrite_pending (s : State) (a : Nat) (d : Word) : (s.plainWrite a d).pending = s.pending := 
  (State.sansReports_pending _).symm.trans ((congrArg State.pending (State.plainWrite_sansReports s a d)).trans (State.sansReports_pending s))
@[simp] theorem State.plainWrite_part (s : State) (a : Nat) (d : Word) : (s.plainWrite a d).part = s.part := 
  (State.sansReports_part _).symm.trans ((congrArg State.part (State.plainWrite_sansReports s a d)).trans (State.sansReports_part s))
@[simp] theorem State.plainWrite_rst (s : State) (a : Nat) (d : Word) : (s.plainWrite a d).rst = s.rst := 
  (State.sansReports_rst _).symm.trans ((congrArg State.rst (State.plainWrite_sansReports s a d)).trans (State.sansReports_rst s))
@[simp] theorem State.plainWrite_now (s : State) (a : Nat) (d : Word) : (s.plainWrite a d).now = s.now := 
  (State.sansReports_now _).symm.trans ((congrArg State.now (State.plainWrite_sansReports s a d)).trans (State.sansReports_now s))
@[simp] theorem State.plainWrite_prev (s : State) (a : Nat) (d : Word) : (s.plainWrite a d).prev = s.prev := 
  (State.sansReports_prev _).symm.trans ((congrArg State.prev (State.plainWrite_sansReports s a d)).trans (State.sansReports_prev s))
@[simp] theorem State.plainWrite_cyc (s : State) (a : Nat) (d : Word) : (s.plainWrite a d).cyc = s.cyc := 
  (State.sansReports_cyc _).symm.trans ((congrArg State.cyc (State.plainWrite_sansReports s a d)).trans (State.sansReports_cyc s))
@[simp] theorem State.plainWrite_fired (s : State) (a : Nat) (d : Word) : (s.plainWrite a d).fired = s.fired := 
  (State.sansReports_fired _).symm.trans ((congrArg State.fired (State.plainWrite_sansReports s a d)).trans (State.sansReports_fired s))
@[simp] theorem State.plainWrite_freed (s : State) (a : Nat) (d : Word) : (s.plainWrite a d).freed = s.freed := 
  (State.sansReports_freed _).symm.trans ((congrArg State.freed (State.plainWrite_sansReports s a d)).trans (State.sansReports_freed s))
@[simp] theorem State.plainWrite_waitDue (s : State) (a : Nat) (d : Word) : (s.plainWrite a d).waitDue = s.waitDue := 
  (State.sansReports_waitDue _).symm.trans ((congrArg State.waitDue (State.plainWrite_sansReports s a d)).trans (State.sansReports_waitDue s))
@[simp] theorem State.plainWrite_turns (s : State) (a : Nat) (d : Word) : (s.plainWrite a d).turns = s.turns := 
  (State.sansReports_turns _).symm.trans ((congrArg State.turns (State.plainWrite_sansReports s a d)).trans (State.sansReports_turns s))
@[simp] theorem State.plainWrite_rate (s : State) (a : Nat) (d : Word) : (s.plainWrite a d).rate = s.rate := 
  (State.sansReports_rate _).symm.trans ((congrArg State.rate (State.plainWrite_sansReports s a d)).trans (State.sansReports_rate s))
@[simp] theorem State.plainWrite_ppsNs (s : State) (a : Nat) (d : Word) : (s.plainWrite a d).ppsNs = s.ppsNs := 
  (State.sansReports_ppsNs _).symm.trans ((congrArg State.ppsNs (State.plainWrite_sansReports s a d)).trans (State.sansReports_ppsNs s))
@[simp] theorem State.plainWrite_ppsHigh (s : State) (a : Nat) (d : Word) : (s.plainWrite a d).ppsHigh = s.ppsHigh := 
  (State.sansReports_ppsHigh _).symm.trans ((congrArg State.ppsHigh (State.plainWrite_sansReports s a d)).trans (State.sansReports_ppsHigh s))
@[simp] theorem State.plainWrite_relock (s : State) (a : Nat) (d : Word) : (s.plainWrite a d).relock = s.relock := 
  (State.sansReports_relock _).symm.trans ((congrArg State.relock (State.plainWrite_sansReports s a d)).trans (State.sansReports_relock s))
@[simp] theorem State.plainWrite_gens (s : State) (a : Nat) (d : Word) : (s.plainWrite a d).gens = s.gens := 
  (State.sansReports_gens _).symm.trans ((congrArg State.gens (State.plainWrite_sansReports s a d)).trans (State.sansReports_gens s))
@[simp] theorem State.plainWrite_freeCtr (s : State) (a : Nat) (d : Word) : (s.plainWrite a d).freeCtr = s.freeCtr := 
  (State.sansReports_freeCtr _).symm.trans ((congrArg State.freeCtr (State.plainWrite_sansReports s a d)).trans (State.sansReports_freeCtr s))
@[simp] theorem State.plainWrite_tsrc (s : State) (a : Nat) (d : Word) : (s.plainWrite a d).tsrc = s.tsrc := 
  (State.sansReports_tsrc _).symm.trans ((congrArg State.tsrc (State.plainWrite_sansReports s a d)).trans (State.sansReports_tsrc s))
@[simp] theorem State.plainWrite_twin (s : State) (a : Nat) (d : Word) : (s.plainWrite a d).twin = s.twin := 
  (State.sansReports_twin _).symm.trans ((congrArg State.twin (State.plainWrite_sansReports s a d)).trans (State.sansReports_twin s))
@[simp] theorem State.plainWrite_gath (s : State) (a : Nat) (d : Word) : (s.plainWrite a d).gath = s.gath := 
  (State.sansReports_gath _).symm.trans ((congrArg State.gath (State.plainWrite_sansReports s a d)).trans (State.sansReports_gath s))
@[simp] theorem State.plainWrite_claimed (s : State) (a : Nat) (d : Word) : (s.plainWrite a d).claimed = s.claimed := 
  (State.sansReports_claimed _).symm.trans ((congrArg State.claimed (State.plainWrite_sansReports s a d)).trans (State.sansReports_claimed s))
@[simp] theorem State.plainWrite_tgtDef (s : State) (a : Nat) (d : Word) : (s.plainWrite a d).tgtDef = s.tgtDef := 
  (State.sansReports_tgtDef _).symm.trans ((congrArg State.tgtDef (State.plainWrite_sansReports s a d)).trans (State.sansReports_tgtDef s))
@[simp] theorem State.plainWrite_holdOff (s : State) (a : Nat) (d : Word) : (s.plainWrite a d).holdOff = s.holdOff := 
  (State.sansReports_holdOff _).symm.trans ((congrArg State.holdOff (State.plainWrite_sansReports s a d)).trans (State.sansReports_holdOff s))
@[simp] theorem State.plainWrite_pins (s : State) (a : Nat) (d : Word) : (s.plainWrite a d).pins = s.pins := 
  (State.sansReports_pins _).symm.trans ((congrArg State.pins (State.plainWrite_sansReports s a d)).trans (State.sansReports_pins s))
@[simp] theorem State.plainWrite_looked (s : State) (a : Nat) (d : Word) : (s.plainWrite a d).looked = s.looked := 
  (State.sansReports_looked _).symm.trans ((congrArg State.looked (State.plainWrite_sansReports s a d)).trans (State.sansReports_looked s))
@[simp] theorem State.plainWrite_preempt (s : State) (a : Nat) (d : Word) : (s.plainWrite a d).preempt = s.preempt := 
  (State.sansReports_preempt _).symm.trans ((congrArg State.preempt (State.plainWrite_sansReports s a d)).trans (State.sansReports_preempt s))
@[simp] theorem State.plainWrite_rings (s : State) (a : Nat) (d : Word) : (s.plainWrite a d).rings = s.rings := 
  (State.sansReports_rings _).symm.trans ((congrArg State.rings (State.plainWrite_sansReports s a d)).trans (State.sansReports_rings s))
@[simp] theorem State.plainWrite_fetched (s : State) (a : Nat) (d : Word) : (s.plainWrite a d).fetched = s.fetched := 
  (State.sansReports_fetched _).symm.trans ((congrArg State.fetched (State.plainWrite_sansReports s a d)).trans (State.sansReports_fetched s))
@[simp] theorem State.plainWrite_lifted (s : State) (a : Nat) (d : Word) : (s.plainWrite a d).lifted = s.lifted := 
  (State.sansReports_lifted _).symm.trans ((congrArg State.lifted (State.plainWrite_sansReports s a d)).trans (State.sansReports_lifted s))
@[simp] theorem State.plainWrite_owed (s : State) (a : Nat) (d : Word) : (s.plainWrite a d).owed = s.owed := 
  (State.sansReports_owed _).symm.trans ((congrArg State.owed (State.plainWrite_sansReports s a d)).trans (State.sansReports_owed s))
@[simp] theorem State.plainWrite_turn (s : State) (a : Nat) (d : Word) : (s.plainWrite a d).turn = s.turn := 
  (State.sansReports_turn _).symm.trans ((congrArg State.turn (State.plainWrite_sansReports s a d)).trans (State.sansReports_turn s))
@[simp] theorem State.plainWrite_outbox (s : State) (a : Nat) (d : Word) : (s.plainWrite a d).outbox = s.outbox := 
  (State.sansReports_outbox _).symm.trans ((congrArg State.outbox (State.plainWrite_sansReports s a d)).trans (State.sansReports_outbox s))
@[simp] theorem State.plainWrite_streams (s : State) (a : Nat) (d : Word) : (s.plainWrite a d).streams = s.streams := 
  (State.sansReports_streams _).symm.trans ((congrArg State.streams (State.plainWrite_sansReports s a d)).trans (State.sansReports_streams s))
@[simp] theorem State.plainWrite_feeds (s : State) (a : Nat) (d : Word) : (s.plainWrite a d).feeds = s.feeds := 
  (State.sansReports_feeds _).symm.trans ((congrArg State.feeds (State.plainWrite_sansReports s a d)).trans (State.sansReports_feeds s))
@[simp] theorem State.plainWrite_crews (s : State) (a : Nat) (d : Word) : (s.plainWrite a d).crews = s.crews := 
  (State.sansReports_crews _).symm.trans ((congrArg State.crews (State.plainWrite_sansReports s a d)).trans (State.sansReports_crews s))
@[simp] theorem State.plainWrite_runs (s : State) (a : Nat) (d : Word) : (s.plainWrite a d).runs = s.runs := 
  (State.sansReports_runs _).symm.trans ((congrArg State.runs (State.plainWrite_sansReports s a d)).trans (State.sansReports_runs s))
@[simp] theorem State.plainWrite_ended (s : State) (a : Nat) (d : Word) : (s.plainWrite a d).ended = s.ended := 
  (State.sansReports_ended _).symm.trans ((congrArg State.ended (State.plainWrite_sansReports s a d)).trans (State.sansReports_ended s))
@[simp] theorem State.plainWrite_seqs (s : State) (a : Nat) (d : Word) : (s.plainWrite a d).seqs = s.seqs := 
  (State.sansReports_seqs _).symm.trans ((congrArg State.seqs (State.plainWrite_sansReports s a d)).trans (State.sansReports_seqs s))
@[simp] theorem State.plainWrite_therm (s : State) (a : Nat) (d : Word) : (s.plainWrite a d).therm = s.therm := 
  (State.sansReports_therm _).symm.trans ((congrArg State.therm (State.plainWrite_sansReports s a d)).trans (State.sansReports_therm s))
@[simp] theorem State.plainWrite_progs (s : State) (a : Nat) (d : Word) : (s.plainWrite a d).progs = s.progs := 
  (State.sansReports_progs _).symm.trans ((congrArg State.progs (State.plainWrite_sansReports s a d)).trans (State.sansReports_progs s))
@[simp] theorem State.plainWrite_scache (s : State) (a : Nat) (d : Word) : (s.plainWrite a d).scache = s.scache := 
  (State.sansReports_scache _).symm.trans ((congrArg State.scache (State.plainWrite_sansReports s a d)).trans (State.sansReports_scache s))
@[simp] theorem State.plainWrite_slotPic (s : State) (a : Nat) (d : Word) : (s.plainWrite a d).slotPic = s.slotPic := 
  (State.sansReports_slotPic _).symm.trans ((congrArg State.slotPic (State.plainWrite_sansReports s a d)).trans (State.sansReports_slotPic s))
@[simp] theorem State.plainWrite_slotSz (s : State) (a : Nat) (d : Word) : (s.plainWrite a d).slotSz = s.slotSz := 
  (State.sansReports_slotSz _).symm.trans ((congrArg State.slotSz (State.plainWrite_sansReports s a d)).trans (State.sansReports_slotSz s))
@[simp] theorem State.plainWrite_slotNref (s : State) (a : Nat) (d : Word) : (s.plainWrite a d).slotNref = s.slotNref := 
  (State.sansReports_slotNref _).symm.trans ((congrArg State.slotNref (State.plainWrite_sansReports s a d)).trans (State.sansReports_slotNref s))
@[simp] theorem State.plainWrite_slotC (s : State) (a : Nat) (d : Word) : (s.plainWrite a d).slotC = s.slotC := 
  (State.sansReports_slotC _).symm.trans ((congrArg State.slotC (State.plainWrite_sansReports s a d)).trans (State.sansReports_slotC s))
@[simp] theorem State.plainWrite_retPend (s : State) (a : Nat) (d : Word) : (s.plainWrite a d).retPend = s.retPend := 
  (State.sansReports_retPend _).symm.trans ((congrArg State.retPend (State.plainWrite_sansReports s a d)).trans (State.sansReports_retPend s))
@[simp] theorem State.plainWrite_egr (s : State) (a : Nat) (d : Word) : (s.plainWrite a d).egr = s.egr := 
  (State.sansReports_egr _).symm.trans ((congrArg State.egr (State.plainWrite_sansReports s a d)).trans (State.sansReports_egr s))
@[simp] theorem State.plainWrite_txFree (s : State) (a : Nat) (d : Word) : (s.plainWrite a d).txFree = s.txFree := 
  (State.sansReports_txFree _).symm.trans ((congrArg State.txFree (State.plainWrite_sansReports s a d)).trans (State.sansReports_txFree s))
@[simp] theorem State.plainWrite_frameNo (s : State) (a : Nat) (d : Word) : (s.plainWrite a d).frameNo = s.frameNo := 
  (State.sansReports_frameNo _).symm.trans ((congrArg State.frameNo (State.plainWrite_sansReports s a d)).trans (State.sansReports_frameNo s))
@[simp] theorem State.plainWrite_rtpSeq (s : State) (a : Nat) (d : Word) : (s.plainWrite a d).rtpSeq = s.rtpSeq := 
  (State.sansReports_rtpSeq _).symm.trans ((congrArg State.rtpSeq (State.plainWrite_sansReports s a d)).trans (State.sansReports_rtpSeq s))
@[simp] theorem State.plainWrite_subs (s : State) (a : Nat) (d : Word) : (s.plainWrite a d).subs = s.subs := 
  (State.sansReports_subs _).symm.trans ((congrArg State.subs (State.plainWrite_sansReports s a d)).trans (State.sansReports_subs s))
@[simp] theorem State.plainWrite_shapers (s : State) (a : Nat) (d : Word) : (s.plainWrite a d).shapers = s.shapers := 
  (State.sansReports_shapers _).symm.trans ((congrArg State.shapers (State.plainWrite_sansReports s a d)).trans (State.sansReports_shapers s))
@[simp] theorem State.plainWrite_gates (s : State) (a : Nat) (d : Word) : (s.plainWrite a d).gates = s.gates := 
  (State.sansReports_gates _).symm.trans ((congrArg State.gates (State.plainWrite_sansReports s a d)).trans (State.sansReports_gates s))
@[simp] theorem State.plainWrite_ptpRx (s : State) (a : Nat) (d : Word) : (s.plainWrite a d).ptpRx = s.ptpRx := 
  (State.sansReports_ptpRx _).symm.trans ((congrArg State.ptpRx (State.plainWrite_sansReports s a d)).trans (State.sansReports_ptpRx s))
@[simp] theorem State.plainWrite_tsb (s : State) (a : Nat) (d : Word) : (s.plainWrite a d).tsb = s.tsb := 
  (State.sansReports_tsb _).symm.trans ((congrArg State.tsb (State.plainWrite_sansReports s a d)).trans (State.sansReports_tsb s))
@[simp] theorem State.plainWrite_ptpServo (s : State) (a : Nat) (d : Word) : (s.plainWrite a d).ptpServo = s.ptpServo := 
  (State.sansReports_ptpServo _).symm.trans ((congrArg State.ptpServo (State.plainWrite_sansReports s a d)).trans (State.sansReports_ptpServo s))
@[simp] theorem State.plainWrite_mem (s : State) (a : Nat) (d : Word) : (s.plainWrite a d).mem = s.mem := 
  (State.sansReports_mem _).symm.trans ((congrArg State.mem (State.plainWrite_sansReports s a d)).trans (State.sansReports_mem s))
@[simp] theorem State.plainWrite_injRecs (s : State) (a : Nat) (d : Word) : (s.plainWrite a d).injRecs = s.injRecs := 
  (State.sansReports_injRecs _).symm.trans ((congrArg State.injRecs (State.plainWrite_sansReports s a d)).trans (State.sansReports_injRecs s))
@[simp] theorem State.plainWrite_filled (s : State) (a : Nat) (d : Word) : (s.plainWrite a d).filled = s.filled := 
  (State.sansReports_filled _).symm.trans ((congrArg State.filled (State.plainWrite_sansReports s a d)).trans (State.sansReports_filled s))
@[simp] theorem State.plainWrite_images (s : State) (a : Nat) (d : Word) : (s.plainWrite a d).images = s.images := 
  (State.sansReports_images _).symm.trans ((congrArg State.images (State.plainWrite_sansReports s a d)).trans (State.sansReports_images s))
@[simp] theorem State.plainWrite_chkLeft (s : State) (a : Nat) (d : Word) : (s.plainWrite a d).chkLeft = s.chkLeft := 
  (State.sansReports_chkLeft _).symm.trans ((congrArg State.chkLeft (State.plainWrite_sansReports s a d)).trans (State.sansReports_chkLeft s))
@[simp] theorem State.plainWrite_badRows (s : State) (a : Nat) (d : Word) : (s.plainWrite a d).badRows = s.badRows := 
  (State.sansReports_badRows _).symm.trans ((congrArg State.badRows (State.plainWrite_sansReports s a d)).trans (State.sansReports_badRows s))
@[simp] theorem State.plainWrite_lost (s : State) (a : Nat) (d : Word) : (s.plainWrite a d).lost = s.lost := 
  (State.sansReports_lost _).symm.trans ((congrArg State.lost (State.plainWrite_sansReports s a d)).trans (State.sansReports_lost s))
@[simp] theorem State.plainWrite_celCe (s : State) (a : Nat) (d : Word) : (s.plainWrite a d).celCe = s.celCe := 
  (State.sansReports_celCe _).symm.trans ((congrArg State.celCe (State.plainWrite_sansReports s a d)).trans (State.sansReports_celCe s))
@[simp] theorem State.plainWrite_celDly (s : State) (a : Nat) (d : Word) : (s.plainWrite a d).celDly = s.celDly := 
  (State.sansReports_celDly _).symm.trans ((congrArg State.celDly (State.plainWrite_sansReports s a d)).trans (State.sansReports_celDly s))
@[simp] theorem State.plainWrite_celVref (s : State) (a : Nat) (d : Word) : (s.plainWrite a d).celVref = s.celVref := 
  (State.sansReports_celVref _).symm.trans ((congrArg State.celVref (State.plainWrite_sansReports s a d)).trans (State.sansReports_celVref s))
@[simp] theorem State.plainWrite_pcs (s : State) (a : Nat) (d : Word) : (s.plainWrite a d).pcs = s.pcs := 
  (State.sansReports_pcs _).symm.trans ((congrArg State.pcs (State.plainWrite_sansReports s a d)).trans (State.sansReports_pcs s))
@[simp] theorem State.plainWrite_stackTab (s : State) (a : Nat) (d : Word) : (s.plainWrite a d).stackTab = s.stackTab := 
  (State.sansReports_stackTab _).symm.trans ((congrArg State.stackTab (State.plainWrite_sansReports s a d)).trans (State.sansReports_stackTab s))
@[simp] theorem State.plainWrite_ldrCol (s : State) (a : Nat) (d : Word) : (s.plainWrite a d).ldrCol = s.ldrCol := 
  (State.sansReports_ldrCol _).symm.trans ((congrArg State.ldrCol (State.plainWrite_sansReports s a d)).trans (State.sansReports_ldrCol s))
@[simp] theorem State.plainWrite_training (s : State) (a : Nat) (d : Word) : (s.plainWrite a d).training = s.training := 
  (State.sansReports_training _).symm.trans ((congrArg State.training (State.plainWrite_sansReports s a d)).trans (State.sansReports_training s))
@[simp] theorem State.plainWrite_adapting (s : State) (a : Nat) (d : Word) : (s.plainWrite a d).adapting = s.adapting := 
  (State.sansReports_adapting _).symm.trans ((congrArg State.adapting (State.plainWrite_sansReports s a d)).trans (State.sansReports_adapting s))
@[simp] theorem State.plainWrite_laneSet (s : State) (a : Nat) (d : Word) : (s.plainWrite a d).laneSet = s.laneSet := 
  (State.sansReports_laneSet _).symm.trans ((congrArg State.laneSet (State.plainWrite_sansReports s a d)).trans (State.sansReports_laneSet s))
@[simp] theorem State.plainWrite_blFrom (s : State) (a : Nat) (d : Word) : (s.plainWrite a d).blFrom = s.blFrom := 
  (State.sansReports_blFrom _).symm.trans ((congrArg State.blFrom (State.plainWrite_sansReports s a d)).trans (State.sansReports_blFrom s))
@[simp] theorem State.plainWrite_qps (s : State) (a : Nat) (d : Word) : (s.plainWrite a d).qps = s.qps := 
  (State.sansReports_qps _).symm.trans ((congrArg State.qps (State.plainWrite_sansReports s a d)).trans (State.sansReports_qps s))
@[simp] theorem State.plainWrite_hchs (s : State) (a : Nat) (d : Word) : (s.plainWrite a d).hchs = s.hchs := 
  (State.sansReports_hchs _).symm.trans ((congrArg State.hchs (State.plainWrite_sansReports s a d)).trans (State.sansReports_hchs s))
@[simp] theorem State.plainWrite_hgrant (s : State) (a : Nat) (d : Word) : (s.plainWrite a d).hgrant = s.hgrant := 
  (State.sansReports_hgrant _).symm.trans ((congrArg State.hgrant (State.plainWrite_sansReports s a d)).trans (State.sansReports_hgrant s))
@[simp] theorem State.plainWrite_ptpPos (s : State) (a : Nat) (d : Word) : (s.plainWrite a d).ptpPos = s.ptpPos := 
  (State.sansReports_ptpPos _).symm.trans ((congrArg State.ptpPos (State.plainWrite_sansReports s a d)).trans (State.sansReports_ptpPos s))
@[simp] theorem State.plainWrite_cps (s : State) (a : Nat) (d : Word) : (s.plainWrite a d).cps = s.cps := 
  (State.sansReports_cps _).symm.trans ((congrArg State.cps (State.plainWrite_sansReports s a d)).trans (State.sansReports_cps s))
@[simp] theorem State.plainWrite_push (s : State) (a : Nat) (d : Word) : (s.plainWrite a d).push = s.push := 
  (State.sansReports_push _).symm.trans ((congrArg State.push (State.plainWrite_sansReports s a d)).trans (State.sansReports_push s))
@[simp] theorem State.plainWrite_bank0 (s : State) (a : Nat) (d : Word) : (s.plainWrite a d).bank0 = s.bank0 := 
  (State.sansReports_bank0 _).symm.trans ((congrArg State.bank0 (State.plainWrite_sansReports s a d)).trans (State.sansReports_bank0 s))
@[simp] theorem State.plainWrite_bank1 (s : State) (a : Nat) (d : Word) : (s.plainWrite a d).bank1 = s.bank1 := 
  (State.sansReports_bank1 _).symm.trans ((congrArg State.bank1 (State.plainWrite_sansReports s a d)).trans (State.sansReports_bank1 s))
@[simp] theorem State.plainWrite_sleep (s : State) (a : Nat) (d : Word) : (s.plainWrite a d).sleep = s.sleep := 
  (State.sansReports_sleep _).symm.trans ((congrArg State.sleep (State.plainWrite_sansReports s a d)).trans (State.sansReports_sleep s))
@[simp] theorem State.plainWrite_swap (s : State) (a : Nat) (d : Word) : (s.plainWrite a d).swap = s.swap := 
  (State.sansReports_swap _).symm.trans ((congrArg State.swap (State.plainWrite_sansReports s a d)).trans (State.sansReports_swap s))
@[simp] theorem State.plainWrite_resetReq (s : State) (a : Nat) (d : Word) : (s.plainWrite a d).resetReq = s.resetReq := 
  (State.sansReports_resetReq _).symm.trans ((congrArg State.resetReq (State.plainWrite_sansReports s a d)).trans (State.sansReports_resetReq s))
@[simp] theorem State.plainWrite_wakeN (s : State) (a : Nat) (d : Word) : (s.plainWrite a d).wakeN = s.wakeN := 
  (State.sansReports_wakeN _).symm.trans ((congrArg State.wakeN (State.plainWrite_sansReports s a d)).trans (State.sansReports_wakeN s))
@[simp] theorem State.plainWrite_rails (s : State) (a : Nat) (d : Word) : (s.plainWrite a d).rails = s.rails := 
  (State.sansReports_rails _).symm.trans ((congrArg State.rails (State.plainWrite_sansReports s a d)).trans (State.sansReports_rails s))
@[simp] theorem State.plainWrite_railF (s : State) (a : Nat) (d : Word) : (s.plainWrite a d).railF = s.railF := 
  (State.sansReports_railF _).symm.trans ((congrArg State.railF (State.plainWrite_sansReports s a d)).trans (State.sansReports_railF s))
@[simp] theorem State.plainWrite_avsAgain (s : State) (a : Nat) (d : Word) : (s.plainWrite a d).avsAgain = s.avsAgain := 
  (State.sansReports_avsAgain _).symm.trans ((congrArg State.avsAgain (State.plainWrite_sansReports s a d)).trans (State.sansReports_avsAgain s))
@[simp] theorem State.plainWrite_voutExp (s : State) (a : Nat) (d : Word) : (s.plainWrite a d).voutExp = s.voutExp := 
  (State.sansReports_voutExp _).symm.trans ((congrArg State.voutExp (State.plainWrite_sansReports s a d)).trans (State.sansReports_voutExp s))
@[simp] theorem State.plainWrite_straps (s : State) (a : Nat) (d : Word) : (s.plainWrite a d).straps = s.straps := 
  (State.sansReports_straps _).symm.trans ((congrArg State.straps (State.plainWrite_sansReports s a d)).trans (State.sansReports_straps s))
@[simp] theorem State.plainWrite_strm (s : State) (a : Nat) (d : Word) (k : Nat) : (s.plainWrite a d).strm k = s.strm k := 
  (State.sansReports_strm _ k).symm.trans ((congrArg (fun s => State.strm s k) (State.plainWrite_sansReports s a d)).trans (State.sansReports_strm s k))
@[simp] theorem State.plainWrite_gen (s : State) (a : Nat) (d : Word) (k : Nat) : (s.plainWrite a d).gen k = s.gen k := 
  (State.sansReports_gen _ k).symm.trans ((congrArg (fun s => State.gen s k) (State.plainWrite_sansReports s a d)).trans (State.sansReports_gen s k))
@[simp] theorem State.plainWrite_feed (s : State) (a : Nat) (d : Word) (k : Nat) : (s.plainWrite a d).feed k = s.feed k := 
  (State.sansReports_feed _ k).symm.trans ((congrArg (fun s => State.feed s k) (State.plainWrite_sansReports s a d)).trans (State.sansReports_feed s k))
@[simp] theorem State.plainWrite_crew (s : State) (a : Nat) (d : Word) (k : Nat) : (s.plainWrite a d).crew k = s.crew k := 
  (State.sansReports_crew _ k).symm.trans ((congrArg (fun s => State.crew s k) (State.plainWrite_sansReports s a d)).trans (State.sansReports_crew s k))
@[simp] theorem State.plainWrite_run (s : State) (a : Nat) (d : Word) (k : Nat) : (s.plainWrite a d).run k = s.run k := 
  (State.sansReports_run _ k).symm.trans ((congrArg (fun s => State.run s k) (State.plainWrite_sansReports s a d)).trans (State.sansReports_run s k))
@[simp] theorem State.plainWrite_ring (s : State) (a : Nat) (d : Word) (k : Nat) : (s.plainWrite a d).ring k = s.ring k := 
  (State.sansReports_ring _ k).symm.trans ((congrArg (fun s => State.ring s k) (State.plainWrite_sansReports s a d)).trans (State.sansReports_ring s k))
@[simp] theorem State.plainWrite_tallySrc (s : State) (a : Nat) (d : Word) (k : Nat) : (s.plainWrite a d).tallySrc k = s.tallySrc k := 
  (State.sansReports_tallySrc _ k).symm.trans ((congrArg (fun s => State.tallySrc s k) (State.plainWrite_sansReports s a d)).trans (State.sansReports_tallySrc s k))
@[simp] theorem State.plainWrite_cp (s : State) (a : Nat) (d : Word) (k : Nat) : (s.plainWrite a d).cp k = s.cp k := 
  (State.sansReports_cp _ k).symm.trans ((congrArg (fun s => State.cp s k) (State.plainWrite_sansReports s a d)).trans (State.sansReports_cp s k))
@[simp] theorem State.plainWrite_slotPicOf (s : State) (a : Nat) (d : Word) (k : Nat) : (s.plainWrite a d).slotPicOf k = s.slotPicOf k := 
  (State.sansReports_slotPicOf _ k).symm.trans ((congrArg (fun s => State.slotPicOf s k) (State.plainWrite_sansReports s a d)).trans (State.sansReports_slotPicOf s k))
@[simp] theorem State.plainWrite_window (s : State) (a : Nat) (d : Word) (k : Nat) : (s.plainWrite a d).window k = s.window k := 
  (State.sansReports_window _ k).symm.trans ((congrArg (fun s => State.window s k) (State.plainWrite_sansReports s a d)).trans (State.sansReports_window s k))
@[simp] theorem State.plainWrite_frames (s : State) (a : Nat) (d : Word) (k : Nat) : (s.plainWrite a d).frames k = s.frames k := 
  (State.sansReports_frames _ k).symm.trans ((congrArg (fun s => State.frames s k) (State.plainWrite_sansReports s a d)).trans (State.sansReports_frames s k))
@[simp] theorem State.plainWrite_sub (s : State) (a : Nat) (d : Word) (k : Nat) : (s.plainWrite a d).sub k = s.sub k := 
  (State.sansReports_sub _ k).symm.trans ((congrArg (fun s => State.sub s k) (State.plainWrite_sansReports s a d)).trans (State.sansReports_sub s k))
@[simp] theorem State.plainWrite_stack (s : State) (a : Nat) (d : Word) (k : Nat) : (s.plainWrite a d).stack k = s.stack k := 
  (State.sansReports_stack _ k).symm.trans ((congrArg (fun s => State.stack s k) (State.plainWrite_sansReports s a d)).trans (State.sansReports_stack s k))
@[simp] theorem State.plainWrite_seq (s : State) (a : Nat) (d : Word) (k : Nat) : (s.plainWrite a d).seq k = s.seq k := 
  (State.sansReports_seq _ k).symm.trans ((congrArg (fun s => State.seq s k) (State.plainWrite_sansReports s a d)).trans (State.sansReports_seq s k))
@[simp] theorem State.plainWrite_hch (s : State) (a : Nat) (d : Word) (k : Nat) : (s.plainWrite a d).hch k = s.hch k := 
  (State.sansReports_hch _ k).symm.trans ((congrArg (fun s => State.hch s k) (State.plainWrite_sansReports s a d)).trans (State.sansReports_hch s k))
@[simp] theorem State.plainWrite_qp (s : State) (a : Nat) (d : Word) (k : Nat) : (s.plainWrite a d).qp k = s.qp k := 
  (State.sansReports_qp _ k).symm.trans ((congrArg (fun s => State.qp s k) (State.plainWrite_sansReports s a d)).trans (State.sansReports_qp s k))

/-! ### send -/

@[simp] theorem State.send_pending (s : State) (src kind addr detail : Nat) (inj : Bool) (lvl : Option Nat) : (s.send src kind addr detail inj lvl).pending = s.pending := 
  (State.sansReports_pending _).symm.trans ((congrArg State.pending (State.send_sansReports s src kind addr detail inj lvl)).trans (State.sansReports_pending s))
@[simp] theorem State.send_part (s : State) (src kind addr detail : Nat) (inj : Bool) (lvl : Option Nat) : (s.send src kind addr detail inj lvl).part = s.part := 
  (State.sansReports_part _).symm.trans ((congrArg State.part (State.send_sansReports s src kind addr detail inj lvl)).trans (State.sansReports_part s))
@[simp] theorem State.send_rst (s : State) (src kind addr detail : Nat) (inj : Bool) (lvl : Option Nat) : (s.send src kind addr detail inj lvl).rst = s.rst := 
  (State.sansReports_rst _).symm.trans ((congrArg State.rst (State.send_sansReports s src kind addr detail inj lvl)).trans (State.sansReports_rst s))
@[simp] theorem State.send_now (s : State) (src kind addr detail : Nat) (inj : Bool) (lvl : Option Nat) : (s.send src kind addr detail inj lvl).now = s.now := 
  (State.sansReports_now _).symm.trans ((congrArg State.now (State.send_sansReports s src kind addr detail inj lvl)).trans (State.sansReports_now s))
@[simp] theorem State.send_prev (s : State) (src kind addr detail : Nat) (inj : Bool) (lvl : Option Nat) : (s.send src kind addr detail inj lvl).prev = s.prev := 
  (State.sansReports_prev _).symm.trans ((congrArg State.prev (State.send_sansReports s src kind addr detail inj lvl)).trans (State.sansReports_prev s))
@[simp] theorem State.send_cyc (s : State) (src kind addr detail : Nat) (inj : Bool) (lvl : Option Nat) : (s.send src kind addr detail inj lvl).cyc = s.cyc := 
  (State.sansReports_cyc _).symm.trans ((congrArg State.cyc (State.send_sansReports s src kind addr detail inj lvl)).trans (State.sansReports_cyc s))
@[simp] theorem State.send_fired (s : State) (src kind addr detail : Nat) (inj : Bool) (lvl : Option Nat) : (s.send src kind addr detail inj lvl).fired = s.fired := 
  (State.sansReports_fired _).symm.trans ((congrArg State.fired (State.send_sansReports s src kind addr detail inj lvl)).trans (State.sansReports_fired s))
@[simp] theorem State.send_freed (s : State) (src kind addr detail : Nat) (inj : Bool) (lvl : Option Nat) : (s.send src kind addr detail inj lvl).freed = s.freed := 
  (State.sansReports_freed _).symm.trans ((congrArg State.freed (State.send_sansReports s src kind addr detail inj lvl)).trans (State.sansReports_freed s))
@[simp] theorem State.send_waitDue (s : State) (src kind addr detail : Nat) (inj : Bool) (lvl : Option Nat) : (s.send src kind addr detail inj lvl).waitDue = s.waitDue := 
  (State.sansReports_waitDue _).symm.trans ((congrArg State.waitDue (State.send_sansReports s src kind addr detail inj lvl)).trans (State.sansReports_waitDue s))
@[simp] theorem State.send_turns (s : State) (src kind addr detail : Nat) (inj : Bool) (lvl : Option Nat) : (s.send src kind addr detail inj lvl).turns = s.turns := 
  (State.sansReports_turns _).symm.trans ((congrArg State.turns (State.send_sansReports s src kind addr detail inj lvl)).trans (State.sansReports_turns s))
@[simp] theorem State.send_rate (s : State) (src kind addr detail : Nat) (inj : Bool) (lvl : Option Nat) : (s.send src kind addr detail inj lvl).rate = s.rate := 
  (State.sansReports_rate _).symm.trans ((congrArg State.rate (State.send_sansReports s src kind addr detail inj lvl)).trans (State.sansReports_rate s))
@[simp] theorem State.send_ppsNs (s : State) (src kind addr detail : Nat) (inj : Bool) (lvl : Option Nat) : (s.send src kind addr detail inj lvl).ppsNs = s.ppsNs := 
  (State.sansReports_ppsNs _).symm.trans ((congrArg State.ppsNs (State.send_sansReports s src kind addr detail inj lvl)).trans (State.sansReports_ppsNs s))
@[simp] theorem State.send_ppsHigh (s : State) (src kind addr detail : Nat) (inj : Bool) (lvl : Option Nat) : (s.send src kind addr detail inj lvl).ppsHigh = s.ppsHigh := 
  (State.sansReports_ppsHigh _).symm.trans ((congrArg State.ppsHigh (State.send_sansReports s src kind addr detail inj lvl)).trans (State.sansReports_ppsHigh s))
@[simp] theorem State.send_relock (s : State) (src kind addr detail : Nat) (inj : Bool) (lvl : Option Nat) : (s.send src kind addr detail inj lvl).relock = s.relock := 
  (State.sansReports_relock _).symm.trans ((congrArg State.relock (State.send_sansReports s src kind addr detail inj lvl)).trans (State.sansReports_relock s))
@[simp] theorem State.send_gens (s : State) (src kind addr detail : Nat) (inj : Bool) (lvl : Option Nat) : (s.send src kind addr detail inj lvl).gens = s.gens := 
  (State.sansReports_gens _).symm.trans ((congrArg State.gens (State.send_sansReports s src kind addr detail inj lvl)).trans (State.sansReports_gens s))
@[simp] theorem State.send_freeCtr (s : State) (src kind addr detail : Nat) (inj : Bool) (lvl : Option Nat) : (s.send src kind addr detail inj lvl).freeCtr = s.freeCtr := 
  (State.sansReports_freeCtr _).symm.trans ((congrArg State.freeCtr (State.send_sansReports s src kind addr detail inj lvl)).trans (State.sansReports_freeCtr s))
@[simp] theorem State.send_tsrc (s : State) (src kind addr detail : Nat) (inj : Bool) (lvl : Option Nat) : (s.send src kind addr detail inj lvl).tsrc = s.tsrc := 
  (State.sansReports_tsrc _).symm.trans ((congrArg State.tsrc (State.send_sansReports s src kind addr detail inj lvl)).trans (State.sansReports_tsrc s))
@[simp] theorem State.send_twin (s : State) (src kind addr detail : Nat) (inj : Bool) (lvl : Option Nat) : (s.send src kind addr detail inj lvl).twin = s.twin := 
  (State.sansReports_twin _).symm.trans ((congrArg State.twin (State.send_sansReports s src kind addr detail inj lvl)).trans (State.sansReports_twin s))
@[simp] theorem State.send_gath (s : State) (src kind addr detail : Nat) (inj : Bool) (lvl : Option Nat) : (s.send src kind addr detail inj lvl).gath = s.gath := 
  (State.sansReports_gath _).symm.trans ((congrArg State.gath (State.send_sansReports s src kind addr detail inj lvl)).trans (State.sansReports_gath s))
@[simp] theorem State.send_claimed (s : State) (src kind addr detail : Nat) (inj : Bool) (lvl : Option Nat) : (s.send src kind addr detail inj lvl).claimed = s.claimed := 
  (State.sansReports_claimed _).symm.trans ((congrArg State.claimed (State.send_sansReports s src kind addr detail inj lvl)).trans (State.sansReports_claimed s))
@[simp] theorem State.send_tgtDef (s : State) (src kind addr detail : Nat) (inj : Bool) (lvl : Option Nat) : (s.send src kind addr detail inj lvl).tgtDef = s.tgtDef := 
  (State.sansReports_tgtDef _).symm.trans ((congrArg State.tgtDef (State.send_sansReports s src kind addr detail inj lvl)).trans (State.sansReports_tgtDef s))
@[simp] theorem State.send_holdOff (s : State) (src kind addr detail : Nat) (inj : Bool) (lvl : Option Nat) : (s.send src kind addr detail inj lvl).holdOff = s.holdOff := 
  (State.sansReports_holdOff _).symm.trans ((congrArg State.holdOff (State.send_sansReports s src kind addr detail inj lvl)).trans (State.sansReports_holdOff s))
@[simp] theorem State.send_pins (s : State) (src kind addr detail : Nat) (inj : Bool) (lvl : Option Nat) : (s.send src kind addr detail inj lvl).pins = s.pins := 
  (State.sansReports_pins _).symm.trans ((congrArg State.pins (State.send_sansReports s src kind addr detail inj lvl)).trans (State.sansReports_pins s))
@[simp] theorem State.send_looked (s : State) (src kind addr detail : Nat) (inj : Bool) (lvl : Option Nat) : (s.send src kind addr detail inj lvl).looked = s.looked := 
  (State.sansReports_looked _).symm.trans ((congrArg State.looked (State.send_sansReports s src kind addr detail inj lvl)).trans (State.sansReports_looked s))
@[simp] theorem State.send_preempt (s : State) (src kind addr detail : Nat) (inj : Bool) (lvl : Option Nat) : (s.send src kind addr detail inj lvl).preempt = s.preempt := 
  (State.sansReports_preempt _).symm.trans ((congrArg State.preempt (State.send_sansReports s src kind addr detail inj lvl)).trans (State.sansReports_preempt s))
@[simp] theorem State.send_rings (s : State) (src kind addr detail : Nat) (inj : Bool) (lvl : Option Nat) : (s.send src kind addr detail inj lvl).rings = s.rings := 
  (State.sansReports_rings _).symm.trans ((congrArg State.rings (State.send_sansReports s src kind addr detail inj lvl)).trans (State.sansReports_rings s))
@[simp] theorem State.send_fetched (s : State) (src kind addr detail : Nat) (inj : Bool) (lvl : Option Nat) : (s.send src kind addr detail inj lvl).fetched = s.fetched := 
  (State.sansReports_fetched _).symm.trans ((congrArg State.fetched (State.send_sansReports s src kind addr detail inj lvl)).trans (State.sansReports_fetched s))
@[simp] theorem State.send_lifted (s : State) (src kind addr detail : Nat) (inj : Bool) (lvl : Option Nat) : (s.send src kind addr detail inj lvl).lifted = s.lifted := 
  (State.sansReports_lifted _).symm.trans ((congrArg State.lifted (State.send_sansReports s src kind addr detail inj lvl)).trans (State.sansReports_lifted s))
@[simp] theorem State.send_owed (s : State) (src kind addr detail : Nat) (inj : Bool) (lvl : Option Nat) : (s.send src kind addr detail inj lvl).owed = s.owed := 
  (State.sansReports_owed _).symm.trans ((congrArg State.owed (State.send_sansReports s src kind addr detail inj lvl)).trans (State.sansReports_owed s))
@[simp] theorem State.send_turn (s : State) (src kind addr detail : Nat) (inj : Bool) (lvl : Option Nat) : (s.send src kind addr detail inj lvl).turn = s.turn := 
  (State.sansReports_turn _).symm.trans ((congrArg State.turn (State.send_sansReports s src kind addr detail inj lvl)).trans (State.sansReports_turn s))
@[simp] theorem State.send_outbox (s : State) (src kind addr detail : Nat) (inj : Bool) (lvl : Option Nat) : (s.send src kind addr detail inj lvl).outbox = s.outbox := 
  (State.sansReports_outbox _).symm.trans ((congrArg State.outbox (State.send_sansReports s src kind addr detail inj lvl)).trans (State.sansReports_outbox s))
@[simp] theorem State.send_streams (s : State) (src kind addr detail : Nat) (inj : Bool) (lvl : Option Nat) : (s.send src kind addr detail inj lvl).streams = s.streams := 
  (State.sansReports_streams _).symm.trans ((congrArg State.streams (State.send_sansReports s src kind addr detail inj lvl)).trans (State.sansReports_streams s))
@[simp] theorem State.send_feeds (s : State) (src kind addr detail : Nat) (inj : Bool) (lvl : Option Nat) : (s.send src kind addr detail inj lvl).feeds = s.feeds := 
  (State.sansReports_feeds _).symm.trans ((congrArg State.feeds (State.send_sansReports s src kind addr detail inj lvl)).trans (State.sansReports_feeds s))
@[simp] theorem State.send_crews (s : State) (src kind addr detail : Nat) (inj : Bool) (lvl : Option Nat) : (s.send src kind addr detail inj lvl).crews = s.crews := 
  (State.sansReports_crews _).symm.trans ((congrArg State.crews (State.send_sansReports s src kind addr detail inj lvl)).trans (State.sansReports_crews s))
@[simp] theorem State.send_runs (s : State) (src kind addr detail : Nat) (inj : Bool) (lvl : Option Nat) : (s.send src kind addr detail inj lvl).runs = s.runs := 
  (State.sansReports_runs _).symm.trans ((congrArg State.runs (State.send_sansReports s src kind addr detail inj lvl)).trans (State.sansReports_runs s))
@[simp] theorem State.send_ended (s : State) (src kind addr detail : Nat) (inj : Bool) (lvl : Option Nat) : (s.send src kind addr detail inj lvl).ended = s.ended := 
  (State.sansReports_ended _).symm.trans ((congrArg State.ended (State.send_sansReports s src kind addr detail inj lvl)).trans (State.sansReports_ended s))
@[simp] theorem State.send_seqs (s : State) (src kind addr detail : Nat) (inj : Bool) (lvl : Option Nat) : (s.send src kind addr detail inj lvl).seqs = s.seqs := 
  (State.sansReports_seqs _).symm.trans ((congrArg State.seqs (State.send_sansReports s src kind addr detail inj lvl)).trans (State.sansReports_seqs s))
@[simp] theorem State.send_therm (s : State) (src kind addr detail : Nat) (inj : Bool) (lvl : Option Nat) : (s.send src kind addr detail inj lvl).therm = s.therm := 
  (State.sansReports_therm _).symm.trans ((congrArg State.therm (State.send_sansReports s src kind addr detail inj lvl)).trans (State.sansReports_therm s))
@[simp] theorem State.send_progs (s : State) (src kind addr detail : Nat) (inj : Bool) (lvl : Option Nat) : (s.send src kind addr detail inj lvl).progs = s.progs := 
  (State.sansReports_progs _).symm.trans ((congrArg State.progs (State.send_sansReports s src kind addr detail inj lvl)).trans (State.sansReports_progs s))
@[simp] theorem State.send_scache (s : State) (src kind addr detail : Nat) (inj : Bool) (lvl : Option Nat) : (s.send src kind addr detail inj lvl).scache = s.scache := 
  (State.sansReports_scache _).symm.trans ((congrArg State.scache (State.send_sansReports s src kind addr detail inj lvl)).trans (State.sansReports_scache s))
@[simp] theorem State.send_slotPic (s : State) (src kind addr detail : Nat) (inj : Bool) (lvl : Option Nat) : (s.send src kind addr detail inj lvl).slotPic = s.slotPic := 
  (State.sansReports_slotPic _).symm.trans ((congrArg State.slotPic (State.send_sansReports s src kind addr detail inj lvl)).trans (State.sansReports_slotPic s))
@[simp] theorem State.send_slotSz (s : State) (src kind addr detail : Nat) (inj : Bool) (lvl : Option Nat) : (s.send src kind addr detail inj lvl).slotSz = s.slotSz := 
  (State.sansReports_slotSz _).symm.trans ((congrArg State.slotSz (State.send_sansReports s src kind addr detail inj lvl)).trans (State.sansReports_slotSz s))
@[simp] theorem State.send_slotNref (s : State) (src kind addr detail : Nat) (inj : Bool) (lvl : Option Nat) : (s.send src kind addr detail inj lvl).slotNref = s.slotNref := 
  (State.sansReports_slotNref _).symm.trans ((congrArg State.slotNref (State.send_sansReports s src kind addr detail inj lvl)).trans (State.sansReports_slotNref s))
@[simp] theorem State.send_slotC (s : State) (src kind addr detail : Nat) (inj : Bool) (lvl : Option Nat) : (s.send src kind addr detail inj lvl).slotC = s.slotC := 
  (State.sansReports_slotC _).symm.trans ((congrArg State.slotC (State.send_sansReports s src kind addr detail inj lvl)).trans (State.sansReports_slotC s))
@[simp] theorem State.send_retPend (s : State) (src kind addr detail : Nat) (inj : Bool) (lvl : Option Nat) : (s.send src kind addr detail inj lvl).retPend = s.retPend := 
  (State.sansReports_retPend _).symm.trans ((congrArg State.retPend (State.send_sansReports s src kind addr detail inj lvl)).trans (State.sansReports_retPend s))
@[simp] theorem State.send_egr (s : State) (src kind addr detail : Nat) (inj : Bool) (lvl : Option Nat) : (s.send src kind addr detail inj lvl).egr = s.egr := 
  (State.sansReports_egr _).symm.trans ((congrArg State.egr (State.send_sansReports s src kind addr detail inj lvl)).trans (State.sansReports_egr s))
@[simp] theorem State.send_txFree (s : State) (src kind addr detail : Nat) (inj : Bool) (lvl : Option Nat) : (s.send src kind addr detail inj lvl).txFree = s.txFree := 
  (State.sansReports_txFree _).symm.trans ((congrArg State.txFree (State.send_sansReports s src kind addr detail inj lvl)).trans (State.sansReports_txFree s))
@[simp] theorem State.send_frameNo (s : State) (src kind addr detail : Nat) (inj : Bool) (lvl : Option Nat) : (s.send src kind addr detail inj lvl).frameNo = s.frameNo := 
  (State.sansReports_frameNo _).symm.trans ((congrArg State.frameNo (State.send_sansReports s src kind addr detail inj lvl)).trans (State.sansReports_frameNo s))
@[simp] theorem State.send_rtpSeq (s : State) (src kind addr detail : Nat) (inj : Bool) (lvl : Option Nat) : (s.send src kind addr detail inj lvl).rtpSeq = s.rtpSeq := 
  (State.sansReports_rtpSeq _).symm.trans ((congrArg State.rtpSeq (State.send_sansReports s src kind addr detail inj lvl)).trans (State.sansReports_rtpSeq s))
@[simp] theorem State.send_subs (s : State) (src kind addr detail : Nat) (inj : Bool) (lvl : Option Nat) : (s.send src kind addr detail inj lvl).subs = s.subs := 
  (State.sansReports_subs _).symm.trans ((congrArg State.subs (State.send_sansReports s src kind addr detail inj lvl)).trans (State.sansReports_subs s))
@[simp] theorem State.send_shapers (s : State) (src kind addr detail : Nat) (inj : Bool) (lvl : Option Nat) : (s.send src kind addr detail inj lvl).shapers = s.shapers := 
  (State.sansReports_shapers _).symm.trans ((congrArg State.shapers (State.send_sansReports s src kind addr detail inj lvl)).trans (State.sansReports_shapers s))
@[simp] theorem State.send_gates (s : State) (src kind addr detail : Nat) (inj : Bool) (lvl : Option Nat) : (s.send src kind addr detail inj lvl).gates = s.gates := 
  (State.sansReports_gates _).symm.trans ((congrArg State.gates (State.send_sansReports s src kind addr detail inj lvl)).trans (State.sansReports_gates s))
@[simp] theorem State.send_ptpRx (s : State) (src kind addr detail : Nat) (inj : Bool) (lvl : Option Nat) : (s.send src kind addr detail inj lvl).ptpRx = s.ptpRx := 
  (State.sansReports_ptpRx _).symm.trans ((congrArg State.ptpRx (State.send_sansReports s src kind addr detail inj lvl)).trans (State.sansReports_ptpRx s))
@[simp] theorem State.send_tsb (s : State) (src kind addr detail : Nat) (inj : Bool) (lvl : Option Nat) : (s.send src kind addr detail inj lvl).tsb = s.tsb := 
  (State.sansReports_tsb _).symm.trans ((congrArg State.tsb (State.send_sansReports s src kind addr detail inj lvl)).trans (State.sansReports_tsb s))
@[simp] theorem State.send_ptpServo (s : State) (src kind addr detail : Nat) (inj : Bool) (lvl : Option Nat) : (s.send src kind addr detail inj lvl).ptpServo = s.ptpServo := 
  (State.sansReports_ptpServo _).symm.trans ((congrArg State.ptpServo (State.send_sansReports s src kind addr detail inj lvl)).trans (State.sansReports_ptpServo s))
@[simp] theorem State.send_mem (s : State) (src kind addr detail : Nat) (inj : Bool) (lvl : Option Nat) : (s.send src kind addr detail inj lvl).mem = s.mem := 
  (State.sansReports_mem _).symm.trans ((congrArg State.mem (State.send_sansReports s src kind addr detail inj lvl)).trans (State.sansReports_mem s))
@[simp] theorem State.send_injRecs (s : State) (src kind addr detail : Nat) (inj : Bool) (lvl : Option Nat) : (s.send src kind addr detail inj lvl).injRecs = s.injRecs := 
  (State.sansReports_injRecs _).symm.trans ((congrArg State.injRecs (State.send_sansReports s src kind addr detail inj lvl)).trans (State.sansReports_injRecs s))
@[simp] theorem State.send_filled (s : State) (src kind addr detail : Nat) (inj : Bool) (lvl : Option Nat) : (s.send src kind addr detail inj lvl).filled = s.filled := 
  (State.sansReports_filled _).symm.trans ((congrArg State.filled (State.send_sansReports s src kind addr detail inj lvl)).trans (State.sansReports_filled s))
@[simp] theorem State.send_images (s : State) (src kind addr detail : Nat) (inj : Bool) (lvl : Option Nat) : (s.send src kind addr detail inj lvl).images = s.images := 
  (State.sansReports_images _).symm.trans ((congrArg State.images (State.send_sansReports s src kind addr detail inj lvl)).trans (State.sansReports_images s))
@[simp] theorem State.send_chkLeft (s : State) (src kind addr detail : Nat) (inj : Bool) (lvl : Option Nat) : (s.send src kind addr detail inj lvl).chkLeft = s.chkLeft := 
  (State.sansReports_chkLeft _).symm.trans ((congrArg State.chkLeft (State.send_sansReports s src kind addr detail inj lvl)).trans (State.sansReports_chkLeft s))
@[simp] theorem State.send_badRows (s : State) (src kind addr detail : Nat) (inj : Bool) (lvl : Option Nat) : (s.send src kind addr detail inj lvl).badRows = s.badRows := 
  (State.sansReports_badRows _).symm.trans ((congrArg State.badRows (State.send_sansReports s src kind addr detail inj lvl)).trans (State.sansReports_badRows s))
@[simp] theorem State.send_lost (s : State) (src kind addr detail : Nat) (inj : Bool) (lvl : Option Nat) : (s.send src kind addr detail inj lvl).lost = s.lost := 
  (State.sansReports_lost _).symm.trans ((congrArg State.lost (State.send_sansReports s src kind addr detail inj lvl)).trans (State.sansReports_lost s))
@[simp] theorem State.send_celCe (s : State) (src kind addr detail : Nat) (inj : Bool) (lvl : Option Nat) : (s.send src kind addr detail inj lvl).celCe = s.celCe := 
  (State.sansReports_celCe _).symm.trans ((congrArg State.celCe (State.send_sansReports s src kind addr detail inj lvl)).trans (State.sansReports_celCe s))
@[simp] theorem State.send_celDly (s : State) (src kind addr detail : Nat) (inj : Bool) (lvl : Option Nat) : (s.send src kind addr detail inj lvl).celDly = s.celDly := 
  (State.sansReports_celDly _).symm.trans ((congrArg State.celDly (State.send_sansReports s src kind addr detail inj lvl)).trans (State.sansReports_celDly s))
@[simp] theorem State.send_celVref (s : State) (src kind addr detail : Nat) (inj : Bool) (lvl : Option Nat) : (s.send src kind addr detail inj lvl).celVref = s.celVref := 
  (State.sansReports_celVref _).symm.trans ((congrArg State.celVref (State.send_sansReports s src kind addr detail inj lvl)).trans (State.sansReports_celVref s))
@[simp] theorem State.send_pcs (s : State) (src kind addr detail : Nat) (inj : Bool) (lvl : Option Nat) : (s.send src kind addr detail inj lvl).pcs = s.pcs := 
  (State.sansReports_pcs _).symm.trans ((congrArg State.pcs (State.send_sansReports s src kind addr detail inj lvl)).trans (State.sansReports_pcs s))
@[simp] theorem State.send_stackTab (s : State) (src kind addr detail : Nat) (inj : Bool) (lvl : Option Nat) : (s.send src kind addr detail inj lvl).stackTab = s.stackTab := 
  (State.sansReports_stackTab _).symm.trans ((congrArg State.stackTab (State.send_sansReports s src kind addr detail inj lvl)).trans (State.sansReports_stackTab s))
@[simp] theorem State.send_ldrCol (s : State) (src kind addr detail : Nat) (inj : Bool) (lvl : Option Nat) : (s.send src kind addr detail inj lvl).ldrCol = s.ldrCol := 
  (State.sansReports_ldrCol _).symm.trans ((congrArg State.ldrCol (State.send_sansReports s src kind addr detail inj lvl)).trans (State.sansReports_ldrCol s))
@[simp] theorem State.send_training (s : State) (src kind addr detail : Nat) (inj : Bool) (lvl : Option Nat) : (s.send src kind addr detail inj lvl).training = s.training := 
  (State.sansReports_training _).symm.trans ((congrArg State.training (State.send_sansReports s src kind addr detail inj lvl)).trans (State.sansReports_training s))
@[simp] theorem State.send_adapting (s : State) (src kind addr detail : Nat) (inj : Bool) (lvl : Option Nat) : (s.send src kind addr detail inj lvl).adapting = s.adapting := 
  (State.sansReports_adapting _).symm.trans ((congrArg State.adapting (State.send_sansReports s src kind addr detail inj lvl)).trans (State.sansReports_adapting s))
@[simp] theorem State.send_laneSet (s : State) (src kind addr detail : Nat) (inj : Bool) (lvl : Option Nat) : (s.send src kind addr detail inj lvl).laneSet = s.laneSet := 
  (State.sansReports_laneSet _).symm.trans ((congrArg State.laneSet (State.send_sansReports s src kind addr detail inj lvl)).trans (State.sansReports_laneSet s))
@[simp] theorem State.send_blFrom (s : State) (src kind addr detail : Nat) (inj : Bool) (lvl : Option Nat) : (s.send src kind addr detail inj lvl).blFrom = s.blFrom := 
  (State.sansReports_blFrom _).symm.trans ((congrArg State.blFrom (State.send_sansReports s src kind addr detail inj lvl)).trans (State.sansReports_blFrom s))
@[simp] theorem State.send_qps (s : State) (src kind addr detail : Nat) (inj : Bool) (lvl : Option Nat) : (s.send src kind addr detail inj lvl).qps = s.qps := 
  (State.sansReports_qps _).symm.trans ((congrArg State.qps (State.send_sansReports s src kind addr detail inj lvl)).trans (State.sansReports_qps s))
@[simp] theorem State.send_hchs (s : State) (src kind addr detail : Nat) (inj : Bool) (lvl : Option Nat) : (s.send src kind addr detail inj lvl).hchs = s.hchs := 
  (State.sansReports_hchs _).symm.trans ((congrArg State.hchs (State.send_sansReports s src kind addr detail inj lvl)).trans (State.sansReports_hchs s))
@[simp] theorem State.send_hgrant (s : State) (src kind addr detail : Nat) (inj : Bool) (lvl : Option Nat) : (s.send src kind addr detail inj lvl).hgrant = s.hgrant := 
  (State.sansReports_hgrant _).symm.trans ((congrArg State.hgrant (State.send_sansReports s src kind addr detail inj lvl)).trans (State.sansReports_hgrant s))
@[simp] theorem State.send_ptpPos (s : State) (src kind addr detail : Nat) (inj : Bool) (lvl : Option Nat) : (s.send src kind addr detail inj lvl).ptpPos = s.ptpPos := 
  (State.sansReports_ptpPos _).symm.trans ((congrArg State.ptpPos (State.send_sansReports s src kind addr detail inj lvl)).trans (State.sansReports_ptpPos s))
@[simp] theorem State.send_cps (s : State) (src kind addr detail : Nat) (inj : Bool) (lvl : Option Nat) : (s.send src kind addr detail inj lvl).cps = s.cps := 
  (State.sansReports_cps _).symm.trans ((congrArg State.cps (State.send_sansReports s src kind addr detail inj lvl)).trans (State.sansReports_cps s))
@[simp] theorem State.send_push (s : State) (src kind addr detail : Nat) (inj : Bool) (lvl : Option Nat) : (s.send src kind addr detail inj lvl).push = s.push := 
  (State.sansReports_push _).symm.trans ((congrArg State.push (State.send_sansReports s src kind addr detail inj lvl)).trans (State.sansReports_push s))
@[simp] theorem State.send_bank0 (s : State) (src kind addr detail : Nat) (inj : Bool) (lvl : Option Nat) : (s.send src kind addr detail inj lvl).bank0 = s.bank0 := 
  (State.sansReports_bank0 _).symm.trans ((congrArg State.bank0 (State.send_sansReports s src kind addr detail inj lvl)).trans (State.sansReports_bank0 s))
@[simp] theorem State.send_bank1 (s : State) (src kind addr detail : Nat) (inj : Bool) (lvl : Option Nat) : (s.send src kind addr detail inj lvl).bank1 = s.bank1 := 
  (State.sansReports_bank1 _).symm.trans ((congrArg State.bank1 (State.send_sansReports s src kind addr detail inj lvl)).trans (State.sansReports_bank1 s))
@[simp] theorem State.send_sleep (s : State) (src kind addr detail : Nat) (inj : Bool) (lvl : Option Nat) : (s.send src kind addr detail inj lvl).sleep = s.sleep := 
  (State.sansReports_sleep _).symm.trans ((congrArg State.sleep (State.send_sansReports s src kind addr detail inj lvl)).trans (State.sansReports_sleep s))
@[simp] theorem State.send_swap (s : State) (src kind addr detail : Nat) (inj : Bool) (lvl : Option Nat) : (s.send src kind addr detail inj lvl).swap = s.swap := 
  (State.sansReports_swap _).symm.trans ((congrArg State.swap (State.send_sansReports s src kind addr detail inj lvl)).trans (State.sansReports_swap s))
@[simp] theorem State.send_resetReq (s : State) (src kind addr detail : Nat) (inj : Bool) (lvl : Option Nat) : (s.send src kind addr detail inj lvl).resetReq = s.resetReq := 
  (State.sansReports_resetReq _).symm.trans ((congrArg State.resetReq (State.send_sansReports s src kind addr detail inj lvl)).trans (State.sansReports_resetReq s))
@[simp] theorem State.send_wakeN (s : State) (src kind addr detail : Nat) (inj : Bool) (lvl : Option Nat) : (s.send src kind addr detail inj lvl).wakeN = s.wakeN := 
  (State.sansReports_wakeN _).symm.trans ((congrArg State.wakeN (State.send_sansReports s src kind addr detail inj lvl)).trans (State.sansReports_wakeN s))
@[simp] theorem State.send_rails (s : State) (src kind addr detail : Nat) (inj : Bool) (lvl : Option Nat) : (s.send src kind addr detail inj lvl).rails = s.rails := 
  (State.sansReports_rails _).symm.trans ((congrArg State.rails (State.send_sansReports s src kind addr detail inj lvl)).trans (State.sansReports_rails s))
@[simp] theorem State.send_railF (s : State) (src kind addr detail : Nat) (inj : Bool) (lvl : Option Nat) : (s.send src kind addr detail inj lvl).railF = s.railF := 
  (State.sansReports_railF _).symm.trans ((congrArg State.railF (State.send_sansReports s src kind addr detail inj lvl)).trans (State.sansReports_railF s))
@[simp] theorem State.send_avsAgain (s : State) (src kind addr detail : Nat) (inj : Bool) (lvl : Option Nat) : (s.send src kind addr detail inj lvl).avsAgain = s.avsAgain := 
  (State.sansReports_avsAgain _).symm.trans ((congrArg State.avsAgain (State.send_sansReports s src kind addr detail inj lvl)).trans (State.sansReports_avsAgain s))
@[simp] theorem State.send_voutExp (s : State) (src kind addr detail : Nat) (inj : Bool) (lvl : Option Nat) : (s.send src kind addr detail inj lvl).voutExp = s.voutExp := 
  (State.sansReports_voutExp _).symm.trans ((congrArg State.voutExp (State.send_sansReports s src kind addr detail inj lvl)).trans (State.sansReports_voutExp s))
@[simp] theorem State.send_straps (s : State) (src kind addr detail : Nat) (inj : Bool) (lvl : Option Nat) : (s.send src kind addr detail inj lvl).straps = s.straps := 
  (State.sansReports_straps _).symm.trans ((congrArg State.straps (State.send_sansReports s src kind addr detail inj lvl)).trans (State.sansReports_straps s))
@[simp] theorem State.send_strm (s : State) (src kind addr detail : Nat) (inj : Bool) (lvl : Option Nat) (k : Nat) : (s.send src kind addr detail inj lvl).strm k = s.strm k := 
  (State.sansReports_strm _ k).symm.trans ((congrArg (fun s => State.strm s k) (State.send_sansReports s src kind addr detail inj lvl)).trans (State.sansReports_strm s k))
@[simp] theorem State.send_gen (s : State) (src kind addr detail : Nat) (inj : Bool) (lvl : Option Nat) (k : Nat) : (s.send src kind addr detail inj lvl).gen k = s.gen k := 
  (State.sansReports_gen _ k).symm.trans ((congrArg (fun s => State.gen s k) (State.send_sansReports s src kind addr detail inj lvl)).trans (State.sansReports_gen s k))
@[simp] theorem State.send_feed (s : State) (src kind addr detail : Nat) (inj : Bool) (lvl : Option Nat) (k : Nat) : (s.send src kind addr detail inj lvl).feed k = s.feed k := 
  (State.sansReports_feed _ k).symm.trans ((congrArg (fun s => State.feed s k) (State.send_sansReports s src kind addr detail inj lvl)).trans (State.sansReports_feed s k))
@[simp] theorem State.send_crew (s : State) (src kind addr detail : Nat) (inj : Bool) (lvl : Option Nat) (k : Nat) : (s.send src kind addr detail inj lvl).crew k = s.crew k := 
  (State.sansReports_crew _ k).symm.trans ((congrArg (fun s => State.crew s k) (State.send_sansReports s src kind addr detail inj lvl)).trans (State.sansReports_crew s k))
@[simp] theorem State.send_run (s : State) (src kind addr detail : Nat) (inj : Bool) (lvl : Option Nat) (k : Nat) : (s.send src kind addr detail inj lvl).run k = s.run k := 
  (State.sansReports_run _ k).symm.trans ((congrArg (fun s => State.run s k) (State.send_sansReports s src kind addr detail inj lvl)).trans (State.sansReports_run s k))
@[simp] theorem State.send_ring (s : State) (src kind addr detail : Nat) (inj : Bool) (lvl : Option Nat) (k : Nat) : (s.send src kind addr detail inj lvl).ring k = s.ring k := 
  (State.sansReports_ring _ k).symm.trans ((congrArg (fun s => State.ring s k) (State.send_sansReports s src kind addr detail inj lvl)).trans (State.sansReports_ring s k))
@[simp] theorem State.send_tallySrc (s : State) (src kind addr detail : Nat) (inj : Bool) (lvl : Option Nat) (k : Nat) : (s.send src kind addr detail inj lvl).tallySrc k = s.tallySrc k := 
  (State.sansReports_tallySrc _ k).symm.trans ((congrArg (fun s => State.tallySrc s k) (State.send_sansReports s src kind addr detail inj lvl)).trans (State.sansReports_tallySrc s k))
@[simp] theorem State.send_cp (s : State) (src kind addr detail : Nat) (inj : Bool) (lvl : Option Nat) (k : Nat) : (s.send src kind addr detail inj lvl).cp k = s.cp k := 
  (State.sansReports_cp _ k).symm.trans ((congrArg (fun s => State.cp s k) (State.send_sansReports s src kind addr detail inj lvl)).trans (State.sansReports_cp s k))
@[simp] theorem State.send_slotPicOf (s : State) (src kind addr detail : Nat) (inj : Bool) (lvl : Option Nat) (k : Nat) : (s.send src kind addr detail inj lvl).slotPicOf k = s.slotPicOf k := 
  (State.sansReports_slotPicOf _ k).symm.trans ((congrArg (fun s => State.slotPicOf s k) (State.send_sansReports s src kind addr detail inj lvl)).trans (State.sansReports_slotPicOf s k))
@[simp] theorem State.send_window (s : State) (src kind addr detail : Nat) (inj : Bool) (lvl : Option Nat) (k : Nat) : (s.send src kind addr detail inj lvl).window k = s.window k := 
  (State.sansReports_window _ k).symm.trans ((congrArg (fun s => State.window s k) (State.send_sansReports s src kind addr detail inj lvl)).trans (State.sansReports_window s k))
@[simp] theorem State.send_frames (s : State) (src kind addr detail : Nat) (inj : Bool) (lvl : Option Nat) (k : Nat) : (s.send src kind addr detail inj lvl).frames k = s.frames k := 
  (State.sansReports_frames _ k).symm.trans ((congrArg (fun s => State.frames s k) (State.send_sansReports s src kind addr detail inj lvl)).trans (State.sansReports_frames s k))
@[simp] theorem State.send_sub (s : State) (src kind addr detail : Nat) (inj : Bool) (lvl : Option Nat) (k : Nat) : (s.send src kind addr detail inj lvl).sub k = s.sub k := 
  (State.sansReports_sub _ k).symm.trans ((congrArg (fun s => State.sub s k) (State.send_sansReports s src kind addr detail inj lvl)).trans (State.sansReports_sub s k))
@[simp] theorem State.send_stack (s : State) (src kind addr detail : Nat) (inj : Bool) (lvl : Option Nat) (k : Nat) : (s.send src kind addr detail inj lvl).stack k = s.stack k := 
  (State.sansReports_stack _ k).symm.trans ((congrArg (fun s => State.stack s k) (State.send_sansReports s src kind addr detail inj lvl)).trans (State.sansReports_stack s k))
@[simp] theorem State.send_seq (s : State) (src kind addr detail : Nat) (inj : Bool) (lvl : Option Nat) (k : Nat) : (s.send src kind addr detail inj lvl).seq k = s.seq k := 
  (State.sansReports_seq _ k).symm.trans ((congrArg (fun s => State.seq s k) (State.send_sansReports s src kind addr detail inj lvl)).trans (State.sansReports_seq s k))
@[simp] theorem State.send_hch (s : State) (src kind addr detail : Nat) (inj : Bool) (lvl : Option Nat) (k : Nat) : (s.send src kind addr detail inj lvl).hch k = s.hch k := 
  (State.sansReports_hch _ k).symm.trans ((congrArg (fun s => State.hch s k) (State.send_sansReports s src kind addr detail inj lvl)).trans (State.sansReports_hch s k))
@[simp] theorem State.send_qp (s : State) (src kind addr detail : Nat) (inj : Bool) (lvl : Option Nat) (k : Nat) : (s.send src kind addr detail inj lvl).qp k = s.qp k := 
  (State.sansReports_qp _ k).symm.trans ((congrArg (fun s => State.qp s k) (State.send_sansReports s src kind addr detail inj lvl)).trans (State.sansReports_qp s k))

/-! ### cfgReport -/

@[simp] theorem State.cfgReport_pending (s : State) (a : Nat) : (s.cfgReport a).pending = s.pending := 
  (State.sansReports_pending _).symm.trans ((congrArg State.pending (State.cfgReport_sansReports s a)).trans (State.sansReports_pending s))
@[simp] theorem State.cfgReport_part (s : State) (a : Nat) : (s.cfgReport a).part = s.part := 
  (State.sansReports_part _).symm.trans ((congrArg State.part (State.cfgReport_sansReports s a)).trans (State.sansReports_part s))
@[simp] theorem State.cfgReport_rst (s : State) (a : Nat) : (s.cfgReport a).rst = s.rst := 
  (State.sansReports_rst _).symm.trans ((congrArg State.rst (State.cfgReport_sansReports s a)).trans (State.sansReports_rst s))
@[simp] theorem State.cfgReport_now (s : State) (a : Nat) : (s.cfgReport a).now = s.now := 
  (State.sansReports_now _).symm.trans ((congrArg State.now (State.cfgReport_sansReports s a)).trans (State.sansReports_now s))
@[simp] theorem State.cfgReport_prev (s : State) (a : Nat) : (s.cfgReport a).prev = s.prev := 
  (State.sansReports_prev _).symm.trans ((congrArg State.prev (State.cfgReport_sansReports s a)).trans (State.sansReports_prev s))
@[simp] theorem State.cfgReport_cyc (s : State) (a : Nat) : (s.cfgReport a).cyc = s.cyc := 
  (State.sansReports_cyc _).symm.trans ((congrArg State.cyc (State.cfgReport_sansReports s a)).trans (State.sansReports_cyc s))
@[simp] theorem State.cfgReport_fired (s : State) (a : Nat) : (s.cfgReport a).fired = s.fired := 
  (State.sansReports_fired _).symm.trans ((congrArg State.fired (State.cfgReport_sansReports s a)).trans (State.sansReports_fired s))
@[simp] theorem State.cfgReport_freed (s : State) (a : Nat) : (s.cfgReport a).freed = s.freed := 
  (State.sansReports_freed _).symm.trans ((congrArg State.freed (State.cfgReport_sansReports s a)).trans (State.sansReports_freed s))
@[simp] theorem State.cfgReport_waitDue (s : State) (a : Nat) : (s.cfgReport a).waitDue = s.waitDue := 
  (State.sansReports_waitDue _).symm.trans ((congrArg State.waitDue (State.cfgReport_sansReports s a)).trans (State.sansReports_waitDue s))
@[simp] theorem State.cfgReport_turns (s : State) (a : Nat) : (s.cfgReport a).turns = s.turns := 
  (State.sansReports_turns _).symm.trans ((congrArg State.turns (State.cfgReport_sansReports s a)).trans (State.sansReports_turns s))
@[simp] theorem State.cfgReport_rate (s : State) (a : Nat) : (s.cfgReport a).rate = s.rate := 
  (State.sansReports_rate _).symm.trans ((congrArg State.rate (State.cfgReport_sansReports s a)).trans (State.sansReports_rate s))
@[simp] theorem State.cfgReport_ppsNs (s : State) (a : Nat) : (s.cfgReport a).ppsNs = s.ppsNs := 
  (State.sansReports_ppsNs _).symm.trans ((congrArg State.ppsNs (State.cfgReport_sansReports s a)).trans (State.sansReports_ppsNs s))
@[simp] theorem State.cfgReport_ppsHigh (s : State) (a : Nat) : (s.cfgReport a).ppsHigh = s.ppsHigh := 
  (State.sansReports_ppsHigh _).symm.trans ((congrArg State.ppsHigh (State.cfgReport_sansReports s a)).trans (State.sansReports_ppsHigh s))
@[simp] theorem State.cfgReport_relock (s : State) (a : Nat) : (s.cfgReport a).relock = s.relock := 
  (State.sansReports_relock _).symm.trans ((congrArg State.relock (State.cfgReport_sansReports s a)).trans (State.sansReports_relock s))
@[simp] theorem State.cfgReport_gens (s : State) (a : Nat) : (s.cfgReport a).gens = s.gens := 
  (State.sansReports_gens _).symm.trans ((congrArg State.gens (State.cfgReport_sansReports s a)).trans (State.sansReports_gens s))
@[simp] theorem State.cfgReport_freeCtr (s : State) (a : Nat) : (s.cfgReport a).freeCtr = s.freeCtr := 
  (State.sansReports_freeCtr _).symm.trans ((congrArg State.freeCtr (State.cfgReport_sansReports s a)).trans (State.sansReports_freeCtr s))
@[simp] theorem State.cfgReport_tsrc (s : State) (a : Nat) : (s.cfgReport a).tsrc = s.tsrc := 
  (State.sansReports_tsrc _).symm.trans ((congrArg State.tsrc (State.cfgReport_sansReports s a)).trans (State.sansReports_tsrc s))
@[simp] theorem State.cfgReport_twin (s : State) (a : Nat) : (s.cfgReport a).twin = s.twin := 
  (State.sansReports_twin _).symm.trans ((congrArg State.twin (State.cfgReport_sansReports s a)).trans (State.sansReports_twin s))
@[simp] theorem State.cfgReport_gath (s : State) (a : Nat) : (s.cfgReport a).gath = s.gath := 
  (State.sansReports_gath _).symm.trans ((congrArg State.gath (State.cfgReport_sansReports s a)).trans (State.sansReports_gath s))
@[simp] theorem State.cfgReport_claimed (s : State) (a : Nat) : (s.cfgReport a).claimed = s.claimed := 
  (State.sansReports_claimed _).symm.trans ((congrArg State.claimed (State.cfgReport_sansReports s a)).trans (State.sansReports_claimed s))
@[simp] theorem State.cfgReport_tgtDef (s : State) (a : Nat) : (s.cfgReport a).tgtDef = s.tgtDef := 
  (State.sansReports_tgtDef _).symm.trans ((congrArg State.tgtDef (State.cfgReport_sansReports s a)).trans (State.sansReports_tgtDef s))
@[simp] theorem State.cfgReport_holdOff (s : State) (a : Nat) : (s.cfgReport a).holdOff = s.holdOff := 
  (State.sansReports_holdOff _).symm.trans ((congrArg State.holdOff (State.cfgReport_sansReports s a)).trans (State.sansReports_holdOff s))
@[simp] theorem State.cfgReport_pins (s : State) (a : Nat) : (s.cfgReport a).pins = s.pins := 
  (State.sansReports_pins _).symm.trans ((congrArg State.pins (State.cfgReport_sansReports s a)).trans (State.sansReports_pins s))
@[simp] theorem State.cfgReport_looked (s : State) (a : Nat) : (s.cfgReport a).looked = s.looked := 
  (State.sansReports_looked _).symm.trans ((congrArg State.looked (State.cfgReport_sansReports s a)).trans (State.sansReports_looked s))
@[simp] theorem State.cfgReport_preempt (s : State) (a : Nat) : (s.cfgReport a).preempt = s.preempt := 
  (State.sansReports_preempt _).symm.trans ((congrArg State.preempt (State.cfgReport_sansReports s a)).trans (State.sansReports_preempt s))
@[simp] theorem State.cfgReport_rings (s : State) (a : Nat) : (s.cfgReport a).rings = s.rings := 
  (State.sansReports_rings _).symm.trans ((congrArg State.rings (State.cfgReport_sansReports s a)).trans (State.sansReports_rings s))
@[simp] theorem State.cfgReport_fetched (s : State) (a : Nat) : (s.cfgReport a).fetched = s.fetched := 
  (State.sansReports_fetched _).symm.trans ((congrArg State.fetched (State.cfgReport_sansReports s a)).trans (State.sansReports_fetched s))
@[simp] theorem State.cfgReport_lifted (s : State) (a : Nat) : (s.cfgReport a).lifted = s.lifted := 
  (State.sansReports_lifted _).symm.trans ((congrArg State.lifted (State.cfgReport_sansReports s a)).trans (State.sansReports_lifted s))
@[simp] theorem State.cfgReport_owed (s : State) (a : Nat) : (s.cfgReport a).owed = s.owed := 
  (State.sansReports_owed _).symm.trans ((congrArg State.owed (State.cfgReport_sansReports s a)).trans (State.sansReports_owed s))
@[simp] theorem State.cfgReport_turn (s : State) (a : Nat) : (s.cfgReport a).turn = s.turn := 
  (State.sansReports_turn _).symm.trans ((congrArg State.turn (State.cfgReport_sansReports s a)).trans (State.sansReports_turn s))
@[simp] theorem State.cfgReport_outbox (s : State) (a : Nat) : (s.cfgReport a).outbox = s.outbox := 
  (State.sansReports_outbox _).symm.trans ((congrArg State.outbox (State.cfgReport_sansReports s a)).trans (State.sansReports_outbox s))
@[simp] theorem State.cfgReport_streams (s : State) (a : Nat) : (s.cfgReport a).streams = s.streams := 
  (State.sansReports_streams _).symm.trans ((congrArg State.streams (State.cfgReport_sansReports s a)).trans (State.sansReports_streams s))
@[simp] theorem State.cfgReport_feeds (s : State) (a : Nat) : (s.cfgReport a).feeds = s.feeds := 
  (State.sansReports_feeds _).symm.trans ((congrArg State.feeds (State.cfgReport_sansReports s a)).trans (State.sansReports_feeds s))
@[simp] theorem State.cfgReport_crews (s : State) (a : Nat) : (s.cfgReport a).crews = s.crews := 
  (State.sansReports_crews _).symm.trans ((congrArg State.crews (State.cfgReport_sansReports s a)).trans (State.sansReports_crews s))
@[simp] theorem State.cfgReport_runs (s : State) (a : Nat) : (s.cfgReport a).runs = s.runs := 
  (State.sansReports_runs _).symm.trans ((congrArg State.runs (State.cfgReport_sansReports s a)).trans (State.sansReports_runs s))
@[simp] theorem State.cfgReport_ended (s : State) (a : Nat) : (s.cfgReport a).ended = s.ended := 
  (State.sansReports_ended _).symm.trans ((congrArg State.ended (State.cfgReport_sansReports s a)).trans (State.sansReports_ended s))
@[simp] theorem State.cfgReport_seqs (s : State) (a : Nat) : (s.cfgReport a).seqs = s.seqs := 
  (State.sansReports_seqs _).symm.trans ((congrArg State.seqs (State.cfgReport_sansReports s a)).trans (State.sansReports_seqs s))
@[simp] theorem State.cfgReport_therm (s : State) (a : Nat) : (s.cfgReport a).therm = s.therm := 
  (State.sansReports_therm _).symm.trans ((congrArg State.therm (State.cfgReport_sansReports s a)).trans (State.sansReports_therm s))
@[simp] theorem State.cfgReport_progs (s : State) (a : Nat) : (s.cfgReport a).progs = s.progs := 
  (State.sansReports_progs _).symm.trans ((congrArg State.progs (State.cfgReport_sansReports s a)).trans (State.sansReports_progs s))
@[simp] theorem State.cfgReport_scache (s : State) (a : Nat) : (s.cfgReport a).scache = s.scache := 
  (State.sansReports_scache _).symm.trans ((congrArg State.scache (State.cfgReport_sansReports s a)).trans (State.sansReports_scache s))
@[simp] theorem State.cfgReport_slotPic (s : State) (a : Nat) : (s.cfgReport a).slotPic = s.slotPic := 
  (State.sansReports_slotPic _).symm.trans ((congrArg State.slotPic (State.cfgReport_sansReports s a)).trans (State.sansReports_slotPic s))
@[simp] theorem State.cfgReport_slotSz (s : State) (a : Nat) : (s.cfgReport a).slotSz = s.slotSz := 
  (State.sansReports_slotSz _).symm.trans ((congrArg State.slotSz (State.cfgReport_sansReports s a)).trans (State.sansReports_slotSz s))
@[simp] theorem State.cfgReport_slotNref (s : State) (a : Nat) : (s.cfgReport a).slotNref = s.slotNref := 
  (State.sansReports_slotNref _).symm.trans ((congrArg State.slotNref (State.cfgReport_sansReports s a)).trans (State.sansReports_slotNref s))
@[simp] theorem State.cfgReport_slotC (s : State) (a : Nat) : (s.cfgReport a).slotC = s.slotC := 
  (State.sansReports_slotC _).symm.trans ((congrArg State.slotC (State.cfgReport_sansReports s a)).trans (State.sansReports_slotC s))
@[simp] theorem State.cfgReport_retPend (s : State) (a : Nat) : (s.cfgReport a).retPend = s.retPend := 
  (State.sansReports_retPend _).symm.trans ((congrArg State.retPend (State.cfgReport_sansReports s a)).trans (State.sansReports_retPend s))
@[simp] theorem State.cfgReport_egr (s : State) (a : Nat) : (s.cfgReport a).egr = s.egr := 
  (State.sansReports_egr _).symm.trans ((congrArg State.egr (State.cfgReport_sansReports s a)).trans (State.sansReports_egr s))
@[simp] theorem State.cfgReport_txFree (s : State) (a : Nat) : (s.cfgReport a).txFree = s.txFree := 
  (State.sansReports_txFree _).symm.trans ((congrArg State.txFree (State.cfgReport_sansReports s a)).trans (State.sansReports_txFree s))
@[simp] theorem State.cfgReport_frameNo (s : State) (a : Nat) : (s.cfgReport a).frameNo = s.frameNo := 
  (State.sansReports_frameNo _).symm.trans ((congrArg State.frameNo (State.cfgReport_sansReports s a)).trans (State.sansReports_frameNo s))
@[simp] theorem State.cfgReport_rtpSeq (s : State) (a : Nat) : (s.cfgReport a).rtpSeq = s.rtpSeq := 
  (State.sansReports_rtpSeq _).symm.trans ((congrArg State.rtpSeq (State.cfgReport_sansReports s a)).trans (State.sansReports_rtpSeq s))
@[simp] theorem State.cfgReport_subs (s : State) (a : Nat) : (s.cfgReport a).subs = s.subs := 
  (State.sansReports_subs _).symm.trans ((congrArg State.subs (State.cfgReport_sansReports s a)).trans (State.sansReports_subs s))
@[simp] theorem State.cfgReport_shapers (s : State) (a : Nat) : (s.cfgReport a).shapers = s.shapers := 
  (State.sansReports_shapers _).symm.trans ((congrArg State.shapers (State.cfgReport_sansReports s a)).trans (State.sansReports_shapers s))
@[simp] theorem State.cfgReport_gates (s : State) (a : Nat) : (s.cfgReport a).gates = s.gates := 
  (State.sansReports_gates _).symm.trans ((congrArg State.gates (State.cfgReport_sansReports s a)).trans (State.sansReports_gates s))
@[simp] theorem State.cfgReport_ptpRx (s : State) (a : Nat) : (s.cfgReport a).ptpRx = s.ptpRx := 
  (State.sansReports_ptpRx _).symm.trans ((congrArg State.ptpRx (State.cfgReport_sansReports s a)).trans (State.sansReports_ptpRx s))
@[simp] theorem State.cfgReport_tsb (s : State) (a : Nat) : (s.cfgReport a).tsb = s.tsb := 
  (State.sansReports_tsb _).symm.trans ((congrArg State.tsb (State.cfgReport_sansReports s a)).trans (State.sansReports_tsb s))
@[simp] theorem State.cfgReport_ptpServo (s : State) (a : Nat) : (s.cfgReport a).ptpServo = s.ptpServo := 
  (State.sansReports_ptpServo _).symm.trans ((congrArg State.ptpServo (State.cfgReport_sansReports s a)).trans (State.sansReports_ptpServo s))
@[simp] theorem State.cfgReport_mem (s : State) (a : Nat) : (s.cfgReport a).mem = s.mem := 
  (State.sansReports_mem _).symm.trans ((congrArg State.mem (State.cfgReport_sansReports s a)).trans (State.sansReports_mem s))
@[simp] theorem State.cfgReport_injRecs (s : State) (a : Nat) : (s.cfgReport a).injRecs = s.injRecs := 
  (State.sansReports_injRecs _).symm.trans ((congrArg State.injRecs (State.cfgReport_sansReports s a)).trans (State.sansReports_injRecs s))
@[simp] theorem State.cfgReport_filled (s : State) (a : Nat) : (s.cfgReport a).filled = s.filled := 
  (State.sansReports_filled _).symm.trans ((congrArg State.filled (State.cfgReport_sansReports s a)).trans (State.sansReports_filled s))
@[simp] theorem State.cfgReport_images (s : State) (a : Nat) : (s.cfgReport a).images = s.images := 
  (State.sansReports_images _).symm.trans ((congrArg State.images (State.cfgReport_sansReports s a)).trans (State.sansReports_images s))
@[simp] theorem State.cfgReport_chkLeft (s : State) (a : Nat) : (s.cfgReport a).chkLeft = s.chkLeft := 
  (State.sansReports_chkLeft _).symm.trans ((congrArg State.chkLeft (State.cfgReport_sansReports s a)).trans (State.sansReports_chkLeft s))
@[simp] theorem State.cfgReport_badRows (s : State) (a : Nat) : (s.cfgReport a).badRows = s.badRows := 
  (State.sansReports_badRows _).symm.trans ((congrArg State.badRows (State.cfgReport_sansReports s a)).trans (State.sansReports_badRows s))
@[simp] theorem State.cfgReport_lost (s : State) (a : Nat) : (s.cfgReport a).lost = s.lost := 
  (State.sansReports_lost _).symm.trans ((congrArg State.lost (State.cfgReport_sansReports s a)).trans (State.sansReports_lost s))
@[simp] theorem State.cfgReport_celCe (s : State) (a : Nat) : (s.cfgReport a).celCe = s.celCe := 
  (State.sansReports_celCe _).symm.trans ((congrArg State.celCe (State.cfgReport_sansReports s a)).trans (State.sansReports_celCe s))
@[simp] theorem State.cfgReport_celDly (s : State) (a : Nat) : (s.cfgReport a).celDly = s.celDly := 
  (State.sansReports_celDly _).symm.trans ((congrArg State.celDly (State.cfgReport_sansReports s a)).trans (State.sansReports_celDly s))
@[simp] theorem State.cfgReport_celVref (s : State) (a : Nat) : (s.cfgReport a).celVref = s.celVref := 
  (State.sansReports_celVref _).symm.trans ((congrArg State.celVref (State.cfgReport_sansReports s a)).trans (State.sansReports_celVref s))
@[simp] theorem State.cfgReport_pcs (s : State) (a : Nat) : (s.cfgReport a).pcs = s.pcs := 
  (State.sansReports_pcs _).symm.trans ((congrArg State.pcs (State.cfgReport_sansReports s a)).trans (State.sansReports_pcs s))
@[simp] theorem State.cfgReport_stackTab (s : State) (a : Nat) : (s.cfgReport a).stackTab = s.stackTab := 
  (State.sansReports_stackTab _).symm.trans ((congrArg State.stackTab (State.cfgReport_sansReports s a)).trans (State.sansReports_stackTab s))
@[simp] theorem State.cfgReport_ldrCol (s : State) (a : Nat) : (s.cfgReport a).ldrCol = s.ldrCol := 
  (State.sansReports_ldrCol _).symm.trans ((congrArg State.ldrCol (State.cfgReport_sansReports s a)).trans (State.sansReports_ldrCol s))
@[simp] theorem State.cfgReport_training (s : State) (a : Nat) : (s.cfgReport a).training = s.training := 
  (State.sansReports_training _).symm.trans ((congrArg State.training (State.cfgReport_sansReports s a)).trans (State.sansReports_training s))
@[simp] theorem State.cfgReport_adapting (s : State) (a : Nat) : (s.cfgReport a).adapting = s.adapting := 
  (State.sansReports_adapting _).symm.trans ((congrArg State.adapting (State.cfgReport_sansReports s a)).trans (State.sansReports_adapting s))
@[simp] theorem State.cfgReport_laneSet (s : State) (a : Nat) : (s.cfgReport a).laneSet = s.laneSet := 
  (State.sansReports_laneSet _).symm.trans ((congrArg State.laneSet (State.cfgReport_sansReports s a)).trans (State.sansReports_laneSet s))
@[simp] theorem State.cfgReport_blFrom (s : State) (a : Nat) : (s.cfgReport a).blFrom = s.blFrom := 
  (State.sansReports_blFrom _).symm.trans ((congrArg State.blFrom (State.cfgReport_sansReports s a)).trans (State.sansReports_blFrom s))
@[simp] theorem State.cfgReport_qps (s : State) (a : Nat) : (s.cfgReport a).qps = s.qps := 
  (State.sansReports_qps _).symm.trans ((congrArg State.qps (State.cfgReport_sansReports s a)).trans (State.sansReports_qps s))
@[simp] theorem State.cfgReport_hchs (s : State) (a : Nat) : (s.cfgReport a).hchs = s.hchs := 
  (State.sansReports_hchs _).symm.trans ((congrArg State.hchs (State.cfgReport_sansReports s a)).trans (State.sansReports_hchs s))
@[simp] theorem State.cfgReport_hgrant (s : State) (a : Nat) : (s.cfgReport a).hgrant = s.hgrant := 
  (State.sansReports_hgrant _).symm.trans ((congrArg State.hgrant (State.cfgReport_sansReports s a)).trans (State.sansReports_hgrant s))
@[simp] theorem State.cfgReport_ptpPos (s : State) (a : Nat) : (s.cfgReport a).ptpPos = s.ptpPos := 
  (State.sansReports_ptpPos _).symm.trans ((congrArg State.ptpPos (State.cfgReport_sansReports s a)).trans (State.sansReports_ptpPos s))
@[simp] theorem State.cfgReport_cps (s : State) (a : Nat) : (s.cfgReport a).cps = s.cps := 
  (State.sansReports_cps _).symm.trans ((congrArg State.cps (State.cfgReport_sansReports s a)).trans (State.sansReports_cps s))
@[simp] theorem State.cfgReport_push (s : State) (a : Nat) : (s.cfgReport a).push = s.push := 
  (State.sansReports_push _).symm.trans ((congrArg State.push (State.cfgReport_sansReports s a)).trans (State.sansReports_push s))
@[simp] theorem State.cfgReport_bank0 (s : State) (a : Nat) : (s.cfgReport a).bank0 = s.bank0 := 
  (State.sansReports_bank0 _).symm.trans ((congrArg State.bank0 (State.cfgReport_sansReports s a)).trans (State.sansReports_bank0 s))
@[simp] theorem State.cfgReport_bank1 (s : State) (a : Nat) : (s.cfgReport a).bank1 = s.bank1 := 
  (State.sansReports_bank1 _).symm.trans ((congrArg State.bank1 (State.cfgReport_sansReports s a)).trans (State.sansReports_bank1 s))
@[simp] theorem State.cfgReport_sleep (s : State) (a : Nat) : (s.cfgReport a).sleep = s.sleep := 
  (State.sansReports_sleep _).symm.trans ((congrArg State.sleep (State.cfgReport_sansReports s a)).trans (State.sansReports_sleep s))
@[simp] theorem State.cfgReport_swap (s : State) (a : Nat) : (s.cfgReport a).swap = s.swap := 
  (State.sansReports_swap _).symm.trans ((congrArg State.swap (State.cfgReport_sansReports s a)).trans (State.sansReports_swap s))
@[simp] theorem State.cfgReport_resetReq (s : State) (a : Nat) : (s.cfgReport a).resetReq = s.resetReq := 
  (State.sansReports_resetReq _).symm.trans ((congrArg State.resetReq (State.cfgReport_sansReports s a)).trans (State.sansReports_resetReq s))
@[simp] theorem State.cfgReport_wakeN (s : State) (a : Nat) : (s.cfgReport a).wakeN = s.wakeN := 
  (State.sansReports_wakeN _).symm.trans ((congrArg State.wakeN (State.cfgReport_sansReports s a)).trans (State.sansReports_wakeN s))
@[simp] theorem State.cfgReport_rails (s : State) (a : Nat) : (s.cfgReport a).rails = s.rails := 
  (State.sansReports_rails _).symm.trans ((congrArg State.rails (State.cfgReport_sansReports s a)).trans (State.sansReports_rails s))
@[simp] theorem State.cfgReport_railF (s : State) (a : Nat) : (s.cfgReport a).railF = s.railF := 
  (State.sansReports_railF _).symm.trans ((congrArg State.railF (State.cfgReport_sansReports s a)).trans (State.sansReports_railF s))
@[simp] theorem State.cfgReport_avsAgain (s : State) (a : Nat) : (s.cfgReport a).avsAgain = s.avsAgain := 
  (State.sansReports_avsAgain _).symm.trans ((congrArg State.avsAgain (State.cfgReport_sansReports s a)).trans (State.sansReports_avsAgain s))
@[simp] theorem State.cfgReport_voutExp (s : State) (a : Nat) : (s.cfgReport a).voutExp = s.voutExp := 
  (State.sansReports_voutExp _).symm.trans ((congrArg State.voutExp (State.cfgReport_sansReports s a)).trans (State.sansReports_voutExp s))
@[simp] theorem State.cfgReport_straps (s : State) (a : Nat) : (s.cfgReport a).straps = s.straps := 
  (State.sansReports_straps _).symm.trans ((congrArg State.straps (State.cfgReport_sansReports s a)).trans (State.sansReports_straps s))
@[simp] theorem State.cfgReport_strm (s : State) (a : Nat) (k : Nat) : (s.cfgReport a).strm k = s.strm k := 
  (State.sansReports_strm _ k).symm.trans ((congrArg (fun s => State.strm s k) (State.cfgReport_sansReports s a)).trans (State.sansReports_strm s k))
@[simp] theorem State.cfgReport_gen (s : State) (a : Nat) (k : Nat) : (s.cfgReport a).gen k = s.gen k := 
  (State.sansReports_gen _ k).symm.trans ((congrArg (fun s => State.gen s k) (State.cfgReport_sansReports s a)).trans (State.sansReports_gen s k))
@[simp] theorem State.cfgReport_feed (s : State) (a : Nat) (k : Nat) : (s.cfgReport a).feed k = s.feed k := 
  (State.sansReports_feed _ k).symm.trans ((congrArg (fun s => State.feed s k) (State.cfgReport_sansReports s a)).trans (State.sansReports_feed s k))
@[simp] theorem State.cfgReport_crew (s : State) (a : Nat) (k : Nat) : (s.cfgReport a).crew k = s.crew k := 
  (State.sansReports_crew _ k).symm.trans ((congrArg (fun s => State.crew s k) (State.cfgReport_sansReports s a)).trans (State.sansReports_crew s k))
@[simp] theorem State.cfgReport_run (s : State) (a : Nat) (k : Nat) : (s.cfgReport a).run k = s.run k := 
  (State.sansReports_run _ k).symm.trans ((congrArg (fun s => State.run s k) (State.cfgReport_sansReports s a)).trans (State.sansReports_run s k))
@[simp] theorem State.cfgReport_ring (s : State) (a : Nat) (k : Nat) : (s.cfgReport a).ring k = s.ring k := 
  (State.sansReports_ring _ k).symm.trans ((congrArg (fun s => State.ring s k) (State.cfgReport_sansReports s a)).trans (State.sansReports_ring s k))
@[simp] theorem State.cfgReport_tallySrc (s : State) (a : Nat) (k : Nat) : (s.cfgReport a).tallySrc k = s.tallySrc k := 
  (State.sansReports_tallySrc _ k).symm.trans ((congrArg (fun s => State.tallySrc s k) (State.cfgReport_sansReports s a)).trans (State.sansReports_tallySrc s k))
@[simp] theorem State.cfgReport_cp (s : State) (a : Nat) (k : Nat) : (s.cfgReport a).cp k = s.cp k := 
  (State.sansReports_cp _ k).symm.trans ((congrArg (fun s => State.cp s k) (State.cfgReport_sansReports s a)).trans (State.sansReports_cp s k))
@[simp] theorem State.cfgReport_slotPicOf (s : State) (a : Nat) (k : Nat) : (s.cfgReport a).slotPicOf k = s.slotPicOf k := 
  (State.sansReports_slotPicOf _ k).symm.trans ((congrArg (fun s => State.slotPicOf s k) (State.cfgReport_sansReports s a)).trans (State.sansReports_slotPicOf s k))
@[simp] theorem State.cfgReport_window (s : State) (a : Nat) (k : Nat) : (s.cfgReport a).window k = s.window k := 
  (State.sansReports_window _ k).symm.trans ((congrArg (fun s => State.window s k) (State.cfgReport_sansReports s a)).trans (State.sansReports_window s k))
@[simp] theorem State.cfgReport_frames (s : State) (a : Nat) (k : Nat) : (s.cfgReport a).frames k = s.frames k := 
  (State.sansReports_frames _ k).symm.trans ((congrArg (fun s => State.frames s k) (State.cfgReport_sansReports s a)).trans (State.sansReports_frames s k))
@[simp] theorem State.cfgReport_sub (s : State) (a : Nat) (k : Nat) : (s.cfgReport a).sub k = s.sub k := 
  (State.sansReports_sub _ k).symm.trans ((congrArg (fun s => State.sub s k) (State.cfgReport_sansReports s a)).trans (State.sansReports_sub s k))
@[simp] theorem State.cfgReport_stack (s : State) (a : Nat) (k : Nat) : (s.cfgReport a).stack k = s.stack k := 
  (State.sansReports_stack _ k).symm.trans ((congrArg (fun s => State.stack s k) (State.cfgReport_sansReports s a)).trans (State.sansReports_stack s k))
@[simp] theorem State.cfgReport_seq (s : State) (a : Nat) (k : Nat) : (s.cfgReport a).seq k = s.seq k := 
  (State.sansReports_seq _ k).symm.trans ((congrArg (fun s => State.seq s k) (State.cfgReport_sansReports s a)).trans (State.sansReports_seq s k))
@[simp] theorem State.cfgReport_hch (s : State) (a : Nat) (k : Nat) : (s.cfgReport a).hch k = s.hch k := 
  (State.sansReports_hch _ k).symm.trans ((congrArg (fun s => State.hch s k) (State.cfgReport_sansReports s a)).trans (State.sansReports_hch s k))
@[simp] theorem State.cfgReport_qp (s : State) (a : Nat) (k : Nat) : (s.cfgReport a).qp k = s.qp k := 
  (State.sansReports_qp _ k).symm.trans ((congrArg (fun s => State.qp s k) (State.cfgReport_sansReports s a)).trans (State.sansReports_qp s k))

/-! ### replace -/

@[simp] theorem State.replace_pending (s : State) (bits : Nat) : (s.replace bits).pending = s.pending := 
  (State.sansReports_pending _).symm.trans ((congrArg State.pending (State.replace_sansReports s bits)).trans (State.sansReports_pending s))
@[simp] theorem State.replace_part (s : State) (bits : Nat) : (s.replace bits).part = s.part := 
  (State.sansReports_part _).symm.trans ((congrArg State.part (State.replace_sansReports s bits)).trans (State.sansReports_part s))
@[simp] theorem State.replace_rst (s : State) (bits : Nat) : (s.replace bits).rst = s.rst := 
  (State.sansReports_rst _).symm.trans ((congrArg State.rst (State.replace_sansReports s bits)).trans (State.sansReports_rst s))
@[simp] theorem State.replace_now (s : State) (bits : Nat) : (s.replace bits).now = s.now := 
  (State.sansReports_now _).symm.trans ((congrArg State.now (State.replace_sansReports s bits)).trans (State.sansReports_now s))
@[simp] theorem State.replace_prev (s : State) (bits : Nat) : (s.replace bits).prev = s.prev := 
  (State.sansReports_prev _).symm.trans ((congrArg State.prev (State.replace_sansReports s bits)).trans (State.sansReports_prev s))
@[simp] theorem State.replace_cyc (s : State) (bits : Nat) : (s.replace bits).cyc = s.cyc := 
  (State.sansReports_cyc _).symm.trans ((congrArg State.cyc (State.replace_sansReports s bits)).trans (State.sansReports_cyc s))
@[simp] theorem State.replace_fired (s : State) (bits : Nat) : (s.replace bits).fired = s.fired := 
  (State.sansReports_fired _).symm.trans ((congrArg State.fired (State.replace_sansReports s bits)).trans (State.sansReports_fired s))
@[simp] theorem State.replace_freed (s : State) (bits : Nat) : (s.replace bits).freed = s.freed := 
  (State.sansReports_freed _).symm.trans ((congrArg State.freed (State.replace_sansReports s bits)).trans (State.sansReports_freed s))
@[simp] theorem State.replace_waitDue (s : State) (bits : Nat) : (s.replace bits).waitDue = s.waitDue := 
  (State.sansReports_waitDue _).symm.trans ((congrArg State.waitDue (State.replace_sansReports s bits)).trans (State.sansReports_waitDue s))
@[simp] theorem State.replace_turns (s : State) (bits : Nat) : (s.replace bits).turns = s.turns := 
  (State.sansReports_turns _).symm.trans ((congrArg State.turns (State.replace_sansReports s bits)).trans (State.sansReports_turns s))
@[simp] theorem State.replace_rate (s : State) (bits : Nat) : (s.replace bits).rate = s.rate := 
  (State.sansReports_rate _).symm.trans ((congrArg State.rate (State.replace_sansReports s bits)).trans (State.sansReports_rate s))
@[simp] theorem State.replace_ppsNs (s : State) (bits : Nat) : (s.replace bits).ppsNs = s.ppsNs := 
  (State.sansReports_ppsNs _).symm.trans ((congrArg State.ppsNs (State.replace_sansReports s bits)).trans (State.sansReports_ppsNs s))
@[simp] theorem State.replace_ppsHigh (s : State) (bits : Nat) : (s.replace bits).ppsHigh = s.ppsHigh := 
  (State.sansReports_ppsHigh _).symm.trans ((congrArg State.ppsHigh (State.replace_sansReports s bits)).trans (State.sansReports_ppsHigh s))
@[simp] theorem State.replace_relock (s : State) (bits : Nat) : (s.replace bits).relock = s.relock := 
  (State.sansReports_relock _).symm.trans ((congrArg State.relock (State.replace_sansReports s bits)).trans (State.sansReports_relock s))
@[simp] theorem State.replace_gens (s : State) (bits : Nat) : (s.replace bits).gens = s.gens := 
  (State.sansReports_gens _).symm.trans ((congrArg State.gens (State.replace_sansReports s bits)).trans (State.sansReports_gens s))
@[simp] theorem State.replace_freeCtr (s : State) (bits : Nat) : (s.replace bits).freeCtr = s.freeCtr := 
  (State.sansReports_freeCtr _).symm.trans ((congrArg State.freeCtr (State.replace_sansReports s bits)).trans (State.sansReports_freeCtr s))
@[simp] theorem State.replace_tsrc (s : State) (bits : Nat) : (s.replace bits).tsrc = s.tsrc := 
  (State.sansReports_tsrc _).symm.trans ((congrArg State.tsrc (State.replace_sansReports s bits)).trans (State.sansReports_tsrc s))
@[simp] theorem State.replace_twin (s : State) (bits : Nat) : (s.replace bits).twin = s.twin := 
  (State.sansReports_twin _).symm.trans ((congrArg State.twin (State.replace_sansReports s bits)).trans (State.sansReports_twin s))
@[simp] theorem State.replace_gath (s : State) (bits : Nat) : (s.replace bits).gath = s.gath := 
  (State.sansReports_gath _).symm.trans ((congrArg State.gath (State.replace_sansReports s bits)).trans (State.sansReports_gath s))
@[simp] theorem State.replace_claimed (s : State) (bits : Nat) : (s.replace bits).claimed = s.claimed := 
  (State.sansReports_claimed _).symm.trans ((congrArg State.claimed (State.replace_sansReports s bits)).trans (State.sansReports_claimed s))
@[simp] theorem State.replace_tgtDef (s : State) (bits : Nat) : (s.replace bits).tgtDef = s.tgtDef := 
  (State.sansReports_tgtDef _).symm.trans ((congrArg State.tgtDef (State.replace_sansReports s bits)).trans (State.sansReports_tgtDef s))
@[simp] theorem State.replace_holdOff (s : State) (bits : Nat) : (s.replace bits).holdOff = s.holdOff := 
  (State.sansReports_holdOff _).symm.trans ((congrArg State.holdOff (State.replace_sansReports s bits)).trans (State.sansReports_holdOff s))
@[simp] theorem State.replace_pins (s : State) (bits : Nat) : (s.replace bits).pins = s.pins := 
  (State.sansReports_pins _).symm.trans ((congrArg State.pins (State.replace_sansReports s bits)).trans (State.sansReports_pins s))
@[simp] theorem State.replace_looked (s : State) (bits : Nat) : (s.replace bits).looked = s.looked := 
  (State.sansReports_looked _).symm.trans ((congrArg State.looked (State.replace_sansReports s bits)).trans (State.sansReports_looked s))
@[simp] theorem State.replace_preempt (s : State) (bits : Nat) : (s.replace bits).preempt = s.preempt := 
  (State.sansReports_preempt _).symm.trans ((congrArg State.preempt (State.replace_sansReports s bits)).trans (State.sansReports_preempt s))
@[simp] theorem State.replace_rings (s : State) (bits : Nat) : (s.replace bits).rings = s.rings := 
  (State.sansReports_rings _).symm.trans ((congrArg State.rings (State.replace_sansReports s bits)).trans (State.sansReports_rings s))
@[simp] theorem State.replace_fetched (s : State) (bits : Nat) : (s.replace bits).fetched = s.fetched := 
  (State.sansReports_fetched _).symm.trans ((congrArg State.fetched (State.replace_sansReports s bits)).trans (State.sansReports_fetched s))
@[simp] theorem State.replace_lifted (s : State) (bits : Nat) : (s.replace bits).lifted = s.lifted := 
  (State.sansReports_lifted _).symm.trans ((congrArg State.lifted (State.replace_sansReports s bits)).trans (State.sansReports_lifted s))
@[simp] theorem State.replace_owed (s : State) (bits : Nat) : (s.replace bits).owed = s.owed := 
  (State.sansReports_owed _).symm.trans ((congrArg State.owed (State.replace_sansReports s bits)).trans (State.sansReports_owed s))
@[simp] theorem State.replace_turn (s : State) (bits : Nat) : (s.replace bits).turn = s.turn := 
  (State.sansReports_turn _).symm.trans ((congrArg State.turn (State.replace_sansReports s bits)).trans (State.sansReports_turn s))
@[simp] theorem State.replace_outbox (s : State) (bits : Nat) : (s.replace bits).outbox = s.outbox := 
  (State.sansReports_outbox _).symm.trans ((congrArg State.outbox (State.replace_sansReports s bits)).trans (State.sansReports_outbox s))
@[simp] theorem State.replace_streams (s : State) (bits : Nat) : (s.replace bits).streams = s.streams := 
  (State.sansReports_streams _).symm.trans ((congrArg State.streams (State.replace_sansReports s bits)).trans (State.sansReports_streams s))
@[simp] theorem State.replace_feeds (s : State) (bits : Nat) : (s.replace bits).feeds = s.feeds := 
  (State.sansReports_feeds _).symm.trans ((congrArg State.feeds (State.replace_sansReports s bits)).trans (State.sansReports_feeds s))
@[simp] theorem State.replace_crews (s : State) (bits : Nat) : (s.replace bits).crews = s.crews := 
  (State.sansReports_crews _).symm.trans ((congrArg State.crews (State.replace_sansReports s bits)).trans (State.sansReports_crews s))
@[simp] theorem State.replace_runs (s : State) (bits : Nat) : (s.replace bits).runs = s.runs := 
  (State.sansReports_runs _).symm.trans ((congrArg State.runs (State.replace_sansReports s bits)).trans (State.sansReports_runs s))
@[simp] theorem State.replace_ended (s : State) (bits : Nat) : (s.replace bits).ended = s.ended := 
  (State.sansReports_ended _).symm.trans ((congrArg State.ended (State.replace_sansReports s bits)).trans (State.sansReports_ended s))
@[simp] theorem State.replace_seqs (s : State) (bits : Nat) : (s.replace bits).seqs = s.seqs := 
  (State.sansReports_seqs _).symm.trans ((congrArg State.seqs (State.replace_sansReports s bits)).trans (State.sansReports_seqs s))
@[simp] theorem State.replace_therm (s : State) (bits : Nat) : (s.replace bits).therm = s.therm := 
  (State.sansReports_therm _).symm.trans ((congrArg State.therm (State.replace_sansReports s bits)).trans (State.sansReports_therm s))
@[simp] theorem State.replace_progs (s : State) (bits : Nat) : (s.replace bits).progs = s.progs := 
  (State.sansReports_progs _).symm.trans ((congrArg State.progs (State.replace_sansReports s bits)).trans (State.sansReports_progs s))
@[simp] theorem State.replace_scache (s : State) (bits : Nat) : (s.replace bits).scache = s.scache := 
  (State.sansReports_scache _).symm.trans ((congrArg State.scache (State.replace_sansReports s bits)).trans (State.sansReports_scache s))
@[simp] theorem State.replace_slotPic (s : State) (bits : Nat) : (s.replace bits).slotPic = s.slotPic := 
  (State.sansReports_slotPic _).symm.trans ((congrArg State.slotPic (State.replace_sansReports s bits)).trans (State.sansReports_slotPic s))
@[simp] theorem State.replace_slotSz (s : State) (bits : Nat) : (s.replace bits).slotSz = s.slotSz := 
  (State.sansReports_slotSz _).symm.trans ((congrArg State.slotSz (State.replace_sansReports s bits)).trans (State.sansReports_slotSz s))
@[simp] theorem State.replace_slotNref (s : State) (bits : Nat) : (s.replace bits).slotNref = s.slotNref := 
  (State.sansReports_slotNref _).symm.trans ((congrArg State.slotNref (State.replace_sansReports s bits)).trans (State.sansReports_slotNref s))
@[simp] theorem State.replace_slotC (s : State) (bits : Nat) : (s.replace bits).slotC = s.slotC := 
  (State.sansReports_slotC _).symm.trans ((congrArg State.slotC (State.replace_sansReports s bits)).trans (State.sansReports_slotC s))
@[simp] theorem State.replace_retPend (s : State) (bits : Nat) : (s.replace bits).retPend = s.retPend := 
  (State.sansReports_retPend _).symm.trans ((congrArg State.retPend (State.replace_sansReports s bits)).trans (State.sansReports_retPend s))
@[simp] theorem State.replace_egr (s : State) (bits : Nat) : (s.replace bits).egr = s.egr := 
  (State.sansReports_egr _).symm.trans ((congrArg State.egr (State.replace_sansReports s bits)).trans (State.sansReports_egr s))
@[simp] theorem State.replace_txFree (s : State) (bits : Nat) : (s.replace bits).txFree = s.txFree := 
  (State.sansReports_txFree _).symm.trans ((congrArg State.txFree (State.replace_sansReports s bits)).trans (State.sansReports_txFree s))
@[simp] theorem State.replace_frameNo (s : State) (bits : Nat) : (s.replace bits).frameNo = s.frameNo := 
  (State.sansReports_frameNo _).symm.trans ((congrArg State.frameNo (State.replace_sansReports s bits)).trans (State.sansReports_frameNo s))
@[simp] theorem State.replace_rtpSeq (s : State) (bits : Nat) : (s.replace bits).rtpSeq = s.rtpSeq := 
  (State.sansReports_rtpSeq _).symm.trans ((congrArg State.rtpSeq (State.replace_sansReports s bits)).trans (State.sansReports_rtpSeq s))
@[simp] theorem State.replace_subs (s : State) (bits : Nat) : (s.replace bits).subs = s.subs := 
  (State.sansReports_subs _).symm.trans ((congrArg State.subs (State.replace_sansReports s bits)).trans (State.sansReports_subs s))
@[simp] theorem State.replace_shapers (s : State) (bits : Nat) : (s.replace bits).shapers = s.shapers := 
  (State.sansReports_shapers _).symm.trans ((congrArg State.shapers (State.replace_sansReports s bits)).trans (State.sansReports_shapers s))
@[simp] theorem State.replace_gates (s : State) (bits : Nat) : (s.replace bits).gates = s.gates := 
  (State.sansReports_gates _).symm.trans ((congrArg State.gates (State.replace_sansReports s bits)).trans (State.sansReports_gates s))
@[simp] theorem State.replace_ptpRx (s : State) (bits : Nat) : (s.replace bits).ptpRx = s.ptpRx := 
  (State.sansReports_ptpRx _).symm.trans ((congrArg State.ptpRx (State.replace_sansReports s bits)).trans (State.sansReports_ptpRx s))
@[simp] theorem State.replace_tsb (s : State) (bits : Nat) : (s.replace bits).tsb = s.tsb := 
  (State.sansReports_tsb _).symm.trans ((congrArg State.tsb (State.replace_sansReports s bits)).trans (State.sansReports_tsb s))
@[simp] theorem State.replace_ptpServo (s : State) (bits : Nat) : (s.replace bits).ptpServo = s.ptpServo := 
  (State.sansReports_ptpServo _).symm.trans ((congrArg State.ptpServo (State.replace_sansReports s bits)).trans (State.sansReports_ptpServo s))
@[simp] theorem State.replace_mem (s : State) (bits : Nat) : (s.replace bits).mem = s.mem := 
  (State.sansReports_mem _).symm.trans ((congrArg State.mem (State.replace_sansReports s bits)).trans (State.sansReports_mem s))
@[simp] theorem State.replace_injRecs (s : State) (bits : Nat) : (s.replace bits).injRecs = s.injRecs := 
  (State.sansReports_injRecs _).symm.trans ((congrArg State.injRecs (State.replace_sansReports s bits)).trans (State.sansReports_injRecs s))
@[simp] theorem State.replace_filled (s : State) (bits : Nat) : (s.replace bits).filled = s.filled := 
  (State.sansReports_filled _).symm.trans ((congrArg State.filled (State.replace_sansReports s bits)).trans (State.sansReports_filled s))
@[simp] theorem State.replace_images (s : State) (bits : Nat) : (s.replace bits).images = s.images := 
  (State.sansReports_images _).symm.trans ((congrArg State.images (State.replace_sansReports s bits)).trans (State.sansReports_images s))
@[simp] theorem State.replace_chkLeft (s : State) (bits : Nat) : (s.replace bits).chkLeft = s.chkLeft := 
  (State.sansReports_chkLeft _).symm.trans ((congrArg State.chkLeft (State.replace_sansReports s bits)).trans (State.sansReports_chkLeft s))
@[simp] theorem State.replace_badRows (s : State) (bits : Nat) : (s.replace bits).badRows = s.badRows := 
  (State.sansReports_badRows _).symm.trans ((congrArg State.badRows (State.replace_sansReports s bits)).trans (State.sansReports_badRows s))
@[simp] theorem State.replace_lost (s : State) (bits : Nat) : (s.replace bits).lost = s.lost := 
  (State.sansReports_lost _).symm.trans ((congrArg State.lost (State.replace_sansReports s bits)).trans (State.sansReports_lost s))
@[simp] theorem State.replace_celCe (s : State) (bits : Nat) : (s.replace bits).celCe = s.celCe := 
  (State.sansReports_celCe _).symm.trans ((congrArg State.celCe (State.replace_sansReports s bits)).trans (State.sansReports_celCe s))
@[simp] theorem State.replace_celDly (s : State) (bits : Nat) : (s.replace bits).celDly = s.celDly := 
  (State.sansReports_celDly _).symm.trans ((congrArg State.celDly (State.replace_sansReports s bits)).trans (State.sansReports_celDly s))
@[simp] theorem State.replace_celVref (s : State) (bits : Nat) : (s.replace bits).celVref = s.celVref := 
  (State.sansReports_celVref _).symm.trans ((congrArg State.celVref (State.replace_sansReports s bits)).trans (State.sansReports_celVref s))
@[simp] theorem State.replace_pcs (s : State) (bits : Nat) : (s.replace bits).pcs = s.pcs := 
  (State.sansReports_pcs _).symm.trans ((congrArg State.pcs (State.replace_sansReports s bits)).trans (State.sansReports_pcs s))
@[simp] theorem State.replace_stackTab (s : State) (bits : Nat) : (s.replace bits).stackTab = s.stackTab := 
  (State.sansReports_stackTab _).symm.trans ((congrArg State.stackTab (State.replace_sansReports s bits)).trans (State.sansReports_stackTab s))
@[simp] theorem State.replace_ldrCol (s : State) (bits : Nat) : (s.replace bits).ldrCol = s.ldrCol := 
  (State.sansReports_ldrCol _).symm.trans ((congrArg State.ldrCol (State.replace_sansReports s bits)).trans (State.sansReports_ldrCol s))
@[simp] theorem State.replace_training (s : State) (bits : Nat) : (s.replace bits).training = s.training := 
  (State.sansReports_training _).symm.trans ((congrArg State.training (State.replace_sansReports s bits)).trans (State.sansReports_training s))
@[simp] theorem State.replace_adapting (s : State) (bits : Nat) : (s.replace bits).adapting = s.adapting := 
  (State.sansReports_adapting _).symm.trans ((congrArg State.adapting (State.replace_sansReports s bits)).trans (State.sansReports_adapting s))
@[simp] theorem State.replace_laneSet (s : State) (bits : Nat) : (s.replace bits).laneSet = s.laneSet := 
  (State.sansReports_laneSet _).symm.trans ((congrArg State.laneSet (State.replace_sansReports s bits)).trans (State.sansReports_laneSet s))
@[simp] theorem State.replace_blFrom (s : State) (bits : Nat) : (s.replace bits).blFrom = s.blFrom := 
  (State.sansReports_blFrom _).symm.trans ((congrArg State.blFrom (State.replace_sansReports s bits)).trans (State.sansReports_blFrom s))
@[simp] theorem State.replace_qps (s : State) (bits : Nat) : (s.replace bits).qps = s.qps := 
  (State.sansReports_qps _).symm.trans ((congrArg State.qps (State.replace_sansReports s bits)).trans (State.sansReports_qps s))
@[simp] theorem State.replace_hchs (s : State) (bits : Nat) : (s.replace bits).hchs = s.hchs := 
  (State.sansReports_hchs _).symm.trans ((congrArg State.hchs (State.replace_sansReports s bits)).trans (State.sansReports_hchs s))
@[simp] theorem State.replace_hgrant (s : State) (bits : Nat) : (s.replace bits).hgrant = s.hgrant := 
  (State.sansReports_hgrant _).symm.trans ((congrArg State.hgrant (State.replace_sansReports s bits)).trans (State.sansReports_hgrant s))
@[simp] theorem State.replace_ptpPos (s : State) (bits : Nat) : (s.replace bits).ptpPos = s.ptpPos := 
  (State.sansReports_ptpPos _).symm.trans ((congrArg State.ptpPos (State.replace_sansReports s bits)).trans (State.sansReports_ptpPos s))
@[simp] theorem State.replace_cps (s : State) (bits : Nat) : (s.replace bits).cps = s.cps := 
  (State.sansReports_cps _).symm.trans ((congrArg State.cps (State.replace_sansReports s bits)).trans (State.sansReports_cps s))
@[simp] theorem State.replace_push (s : State) (bits : Nat) : (s.replace bits).push = s.push := 
  (State.sansReports_push _).symm.trans ((congrArg State.push (State.replace_sansReports s bits)).trans (State.sansReports_push s))
@[simp] theorem State.replace_bank0 (s : State) (bits : Nat) : (s.replace bits).bank0 = s.bank0 := 
  (State.sansReports_bank0 _).symm.trans ((congrArg State.bank0 (State.replace_sansReports s bits)).trans (State.sansReports_bank0 s))
@[simp] theorem State.replace_bank1 (s : State) (bits : Nat) : (s.replace bits).bank1 = s.bank1 := 
  (State.sansReports_bank1 _).symm.trans ((congrArg State.bank1 (State.replace_sansReports s bits)).trans (State.sansReports_bank1 s))
@[simp] theorem State.replace_sleep (s : State) (bits : Nat) : (s.replace bits).sleep = s.sleep := 
  (State.sansReports_sleep _).symm.trans ((congrArg State.sleep (State.replace_sansReports s bits)).trans (State.sansReports_sleep s))
@[simp] theorem State.replace_swap (s : State) (bits : Nat) : (s.replace bits).swap = s.swap := 
  (State.sansReports_swap _).symm.trans ((congrArg State.swap (State.replace_sansReports s bits)).trans (State.sansReports_swap s))
@[simp] theorem State.replace_resetReq (s : State) (bits : Nat) : (s.replace bits).resetReq = s.resetReq := 
  (State.sansReports_resetReq _).symm.trans ((congrArg State.resetReq (State.replace_sansReports s bits)).trans (State.sansReports_resetReq s))
@[simp] theorem State.replace_wakeN (s : State) (bits : Nat) : (s.replace bits).wakeN = s.wakeN := 
  (State.sansReports_wakeN _).symm.trans ((congrArg State.wakeN (State.replace_sansReports s bits)).trans (State.sansReports_wakeN s))
@[simp] theorem State.replace_rails (s : State) (bits : Nat) : (s.replace bits).rails = s.rails := 
  (State.sansReports_rails _).symm.trans ((congrArg State.rails (State.replace_sansReports s bits)).trans (State.sansReports_rails s))
@[simp] theorem State.replace_railF (s : State) (bits : Nat) : (s.replace bits).railF = s.railF := 
  (State.sansReports_railF _).symm.trans ((congrArg State.railF (State.replace_sansReports s bits)).trans (State.sansReports_railF s))
@[simp] theorem State.replace_avsAgain (s : State) (bits : Nat) : (s.replace bits).avsAgain = s.avsAgain := 
  (State.sansReports_avsAgain _).symm.trans ((congrArg State.avsAgain (State.replace_sansReports s bits)).trans (State.sansReports_avsAgain s))
@[simp] theorem State.replace_voutExp (s : State) (bits : Nat) : (s.replace bits).voutExp = s.voutExp := 
  (State.sansReports_voutExp _).symm.trans ((congrArg State.voutExp (State.replace_sansReports s bits)).trans (State.sansReports_voutExp s))
@[simp] theorem State.replace_straps (s : State) (bits : Nat) : (s.replace bits).straps = s.straps := 
  (State.sansReports_straps _).symm.trans ((congrArg State.straps (State.replace_sansReports s bits)).trans (State.sansReports_straps s))
@[simp] theorem State.replace_strm (s : State) (bits : Nat) (k : Nat) : (s.replace bits).strm k = s.strm k := 
  (State.sansReports_strm _ k).symm.trans ((congrArg (fun s => State.strm s k) (State.replace_sansReports s bits)).trans (State.sansReports_strm s k))
@[simp] theorem State.replace_gen (s : State) (bits : Nat) (k : Nat) : (s.replace bits).gen k = s.gen k := 
  (State.sansReports_gen _ k).symm.trans ((congrArg (fun s => State.gen s k) (State.replace_sansReports s bits)).trans (State.sansReports_gen s k))
@[simp] theorem State.replace_feed (s : State) (bits : Nat) (k : Nat) : (s.replace bits).feed k = s.feed k := 
  (State.sansReports_feed _ k).symm.trans ((congrArg (fun s => State.feed s k) (State.replace_sansReports s bits)).trans (State.sansReports_feed s k))
@[simp] theorem State.replace_crew (s : State) (bits : Nat) (k : Nat) : (s.replace bits).crew k = s.crew k := 
  (State.sansReports_crew _ k).symm.trans ((congrArg (fun s => State.crew s k) (State.replace_sansReports s bits)).trans (State.sansReports_crew s k))
@[simp] theorem State.replace_run (s : State) (bits : Nat) (k : Nat) : (s.replace bits).run k = s.run k := 
  (State.sansReports_run _ k).symm.trans ((congrArg (fun s => State.run s k) (State.replace_sansReports s bits)).trans (State.sansReports_run s k))
@[simp] theorem State.replace_ring (s : State) (bits : Nat) (k : Nat) : (s.replace bits).ring k = s.ring k := 
  (State.sansReports_ring _ k).symm.trans ((congrArg (fun s => State.ring s k) (State.replace_sansReports s bits)).trans (State.sansReports_ring s k))
@[simp] theorem State.replace_tallySrc (s : State) (bits : Nat) (k : Nat) : (s.replace bits).tallySrc k = s.tallySrc k := 
  (State.sansReports_tallySrc _ k).symm.trans ((congrArg (fun s => State.tallySrc s k) (State.replace_sansReports s bits)).trans (State.sansReports_tallySrc s k))
@[simp] theorem State.replace_cp (s : State) (bits : Nat) (k : Nat) : (s.replace bits).cp k = s.cp k := 
  (State.sansReports_cp _ k).symm.trans ((congrArg (fun s => State.cp s k) (State.replace_sansReports s bits)).trans (State.sansReports_cp s k))
@[simp] theorem State.replace_slotPicOf (s : State) (bits : Nat) (k : Nat) : (s.replace bits).slotPicOf k = s.slotPicOf k := 
  (State.sansReports_slotPicOf _ k).symm.trans ((congrArg (fun s => State.slotPicOf s k) (State.replace_sansReports s bits)).trans (State.sansReports_slotPicOf s k))
@[simp] theorem State.replace_window (s : State) (bits : Nat) (k : Nat) : (s.replace bits).window k = s.window k := 
  (State.sansReports_window _ k).symm.trans ((congrArg (fun s => State.window s k) (State.replace_sansReports s bits)).trans (State.sansReports_window s k))
@[simp] theorem State.replace_frames (s : State) (bits : Nat) (k : Nat) : (s.replace bits).frames k = s.frames k := 
  (State.sansReports_frames _ k).symm.trans ((congrArg (fun s => State.frames s k) (State.replace_sansReports s bits)).trans (State.sansReports_frames s k))
@[simp] theorem State.replace_sub (s : State) (bits : Nat) (k : Nat) : (s.replace bits).sub k = s.sub k := 
  (State.sansReports_sub _ k).symm.trans ((congrArg (fun s => State.sub s k) (State.replace_sansReports s bits)).trans (State.sansReports_sub s k))
@[simp] theorem State.replace_stack (s : State) (bits : Nat) (k : Nat) : (s.replace bits).stack k = s.stack k := 
  (State.sansReports_stack _ k).symm.trans ((congrArg (fun s => State.stack s k) (State.replace_sansReports s bits)).trans (State.sansReports_stack s k))
@[simp] theorem State.replace_seq (s : State) (bits : Nat) (k : Nat) : (s.replace bits).seq k = s.seq k := 
  (State.sansReports_seq _ k).symm.trans ((congrArg (fun s => State.seq s k) (State.replace_sansReports s bits)).trans (State.sansReports_seq s k))
@[simp] theorem State.replace_hch (s : State) (bits : Nat) (k : Nat) : (s.replace bits).hch k = s.hch k := 
  (State.sansReports_hch _ k).symm.trans ((congrArg (fun s => State.hch s k) (State.replace_sansReports s bits)).trans (State.sansReports_hch s k))
@[simp] theorem State.replace_qp (s : State) (bits : Nat) (k : Nat) : (s.replace bits).qp k = s.qp k := 
  (State.sansReports_qp _ k).symm.trans ((congrArg (fun s => State.qp s k) (State.replace_sansReports s bits)).trans (State.sansReports_qp s k))

/-! ### ringPut -/

@[simp] theorem State.ringPut_pending (s : State) (i : Nat) (e : RingEntry) : (s.ringPut i e).pending = s.pending := 
  (State.sansRings_pending _).symm.trans ((congrArg State.pending (State.ringPut_sansRings s i e)).trans (State.sansRings_pending s))
@[simp] theorem State.ringPut_part (s : State) (i : Nat) (e : RingEntry) : (s.ringPut i e).part = s.part := 
  (State.sansRings_part _).symm.trans ((congrArg State.part (State.ringPut_sansRings s i e)).trans (State.sansRings_part s))
@[simp] theorem State.ringPut_rst (s : State) (i : Nat) (e : RingEntry) : (s.ringPut i e).rst = s.rst := 
  (State.sansRings_rst _).symm.trans ((congrArg State.rst (State.ringPut_sansRings s i e)).trans (State.sansRings_rst s))
@[simp] theorem State.ringPut_now (s : State) (i : Nat) (e : RingEntry) : (s.ringPut i e).now = s.now := 
  (State.sansRings_now _).symm.trans ((congrArg State.now (State.ringPut_sansRings s i e)).trans (State.sansRings_now s))
@[simp] theorem State.ringPut_prev (s : State) (i : Nat) (e : RingEntry) : (s.ringPut i e).prev = s.prev := 
  (State.sansRings_prev _).symm.trans ((congrArg State.prev (State.ringPut_sansRings s i e)).trans (State.sansRings_prev s))
@[simp] theorem State.ringPut_cyc (s : State) (i : Nat) (e : RingEntry) : (s.ringPut i e).cyc = s.cyc := 
  (State.sansRings_cyc _).symm.trans ((congrArg State.cyc (State.ringPut_sansRings s i e)).trans (State.sansRings_cyc s))
@[simp] theorem State.ringPut_fired (s : State) (i : Nat) (e : RingEntry) : (s.ringPut i e).fired = s.fired := 
  (State.sansRings_fired _).symm.trans ((congrArg State.fired (State.ringPut_sansRings s i e)).trans (State.sansRings_fired s))
@[simp] theorem State.ringPut_freed (s : State) (i : Nat) (e : RingEntry) : (s.ringPut i e).freed = s.freed := 
  (State.sansRings_freed _).symm.trans ((congrArg State.freed (State.ringPut_sansRings s i e)).trans (State.sansRings_freed s))
@[simp] theorem State.ringPut_waitDue (s : State) (i : Nat) (e : RingEntry) : (s.ringPut i e).waitDue = s.waitDue := 
  (State.sansRings_waitDue _).symm.trans ((congrArg State.waitDue (State.ringPut_sansRings s i e)).trans (State.sansRings_waitDue s))
@[simp] theorem State.ringPut_turns (s : State) (i : Nat) (e : RingEntry) : (s.ringPut i e).turns = s.turns := 
  (State.sansRings_turns _).symm.trans ((congrArg State.turns (State.ringPut_sansRings s i e)).trans (State.sansRings_turns s))
@[simp] theorem State.ringPut_rate (s : State) (i : Nat) (e : RingEntry) : (s.ringPut i e).rate = s.rate := 
  (State.sansRings_rate _).symm.trans ((congrArg State.rate (State.ringPut_sansRings s i e)).trans (State.sansRings_rate s))
@[simp] theorem State.ringPut_ppsNs (s : State) (i : Nat) (e : RingEntry) : (s.ringPut i e).ppsNs = s.ppsNs := 
  (State.sansRings_ppsNs _).symm.trans ((congrArg State.ppsNs (State.ringPut_sansRings s i e)).trans (State.sansRings_ppsNs s))
@[simp] theorem State.ringPut_ppsHigh (s : State) (i : Nat) (e : RingEntry) : (s.ringPut i e).ppsHigh = s.ppsHigh := 
  (State.sansRings_ppsHigh _).symm.trans ((congrArg State.ppsHigh (State.ringPut_sansRings s i e)).trans (State.sansRings_ppsHigh s))
@[simp] theorem State.ringPut_relock (s : State) (i : Nat) (e : RingEntry) : (s.ringPut i e).relock = s.relock := 
  (State.sansRings_relock _).symm.trans ((congrArg State.relock (State.ringPut_sansRings s i e)).trans (State.sansRings_relock s))
@[simp] theorem State.ringPut_gens (s : State) (i : Nat) (e : RingEntry) : (s.ringPut i e).gens = s.gens := 
  (State.sansRings_gens _).symm.trans ((congrArg State.gens (State.ringPut_sansRings s i e)).trans (State.sansRings_gens s))
@[simp] theorem State.ringPut_freeCtr (s : State) (i : Nat) (e : RingEntry) : (s.ringPut i e).freeCtr = s.freeCtr := 
  (State.sansRings_freeCtr _).symm.trans ((congrArg State.freeCtr (State.ringPut_sansRings s i e)).trans (State.sansRings_freeCtr s))
@[simp] theorem State.ringPut_tsrc (s : State) (i : Nat) (e : RingEntry) : (s.ringPut i e).tsrc = s.tsrc := 
  (State.sansRings_tsrc _).symm.trans ((congrArg State.tsrc (State.ringPut_sansRings s i e)).trans (State.sansRings_tsrc s))
@[simp] theorem State.ringPut_twin (s : State) (i : Nat) (e : RingEntry) : (s.ringPut i e).twin = s.twin := 
  (State.sansRings_twin _).symm.trans ((congrArg State.twin (State.ringPut_sansRings s i e)).trans (State.sansRings_twin s))
@[simp] theorem State.ringPut_gath (s : State) (i : Nat) (e : RingEntry) : (s.ringPut i e).gath = s.gath := 
  (State.sansRings_gath _).symm.trans ((congrArg State.gath (State.ringPut_sansRings s i e)).trans (State.sansRings_gath s))
@[simp] theorem State.ringPut_claimed (s : State) (i : Nat) (e : RingEntry) : (s.ringPut i e).claimed = s.claimed := 
  (State.sansRings_claimed _).symm.trans ((congrArg State.claimed (State.ringPut_sansRings s i e)).trans (State.sansRings_claimed s))
@[simp] theorem State.ringPut_tgtDef (s : State) (i : Nat) (e : RingEntry) : (s.ringPut i e).tgtDef = s.tgtDef := 
  (State.sansRings_tgtDef _).symm.trans ((congrArg State.tgtDef (State.ringPut_sansRings s i e)).trans (State.sansRings_tgtDef s))
@[simp] theorem State.ringPut_holdOff (s : State) (i : Nat) (e : RingEntry) : (s.ringPut i e).holdOff = s.holdOff := 
  (State.sansRings_holdOff _).symm.trans ((congrArg State.holdOff (State.ringPut_sansRings s i e)).trans (State.sansRings_holdOff s))
@[simp] theorem State.ringPut_pins (s : State) (i : Nat) (e : RingEntry) : (s.ringPut i e).pins = s.pins := 
  (State.sansRings_pins _).symm.trans ((congrArg State.pins (State.ringPut_sansRings s i e)).trans (State.sansRings_pins s))
@[simp] theorem State.ringPut_looked (s : State) (i : Nat) (e : RingEntry) : (s.ringPut i e).looked = s.looked := 
  (State.sansRings_looked _).symm.trans ((congrArg State.looked (State.ringPut_sansRings s i e)).trans (State.sansRings_looked s))
@[simp] theorem State.ringPut_preempt (s : State) (i : Nat) (e : RingEntry) : (s.ringPut i e).preempt = s.preempt := 
  (State.sansRings_preempt _).symm.trans ((congrArg State.preempt (State.ringPut_sansRings s i e)).trans (State.sansRings_preempt s))
@[simp] theorem State.ringPut_lifted (s : State) (i : Nat) (e : RingEntry) : (s.ringPut i e).lifted = s.lifted := 
  (State.sansRings_lifted _).symm.trans ((congrArg State.lifted (State.ringPut_sansRings s i e)).trans (State.sansRings_lifted s))
@[simp] theorem State.ringPut_streams (s : State) (i : Nat) (e : RingEntry) : (s.ringPut i e).streams = s.streams := 
  (State.sansRings_streams _).symm.trans ((congrArg State.streams (State.ringPut_sansRings s i e)).trans (State.sansRings_streams s))
@[simp] theorem State.ringPut_feeds (s : State) (i : Nat) (e : RingEntry) : (s.ringPut i e).feeds = s.feeds := 
  (State.sansRings_feeds _).symm.trans ((congrArg State.feeds (State.ringPut_sansRings s i e)).trans (State.sansRings_feeds s))
@[simp] theorem State.ringPut_crews (s : State) (i : Nat) (e : RingEntry) : (s.ringPut i e).crews = s.crews := 
  (State.sansRings_crews _).symm.trans ((congrArg State.crews (State.ringPut_sansRings s i e)).trans (State.sansRings_crews s))
@[simp] theorem State.ringPut_runs (s : State) (i : Nat) (e : RingEntry) : (s.ringPut i e).runs = s.runs := 
  (State.sansRings_runs _).symm.trans ((congrArg State.runs (State.ringPut_sansRings s i e)).trans (State.sansRings_runs s))
@[simp] theorem State.ringPut_ended (s : State) (i : Nat) (e : RingEntry) : (s.ringPut i e).ended = s.ended := 
  (State.sansRings_ended _).symm.trans ((congrArg State.ended (State.ringPut_sansRings s i e)).trans (State.sansRings_ended s))
@[simp] theorem State.ringPut_seqs (s : State) (i : Nat) (e : RingEntry) : (s.ringPut i e).seqs = s.seqs := 
  (State.sansRings_seqs _).symm.trans ((congrArg State.seqs (State.ringPut_sansRings s i e)).trans (State.sansRings_seqs s))
@[simp] theorem State.ringPut_therm (s : State) (i : Nat) (e : RingEntry) : (s.ringPut i e).therm = s.therm := 
  (State.sansRings_therm _).symm.trans ((congrArg State.therm (State.ringPut_sansRings s i e)).trans (State.sansRings_therm s))
@[simp] theorem State.ringPut_progs (s : State) (i : Nat) (e : RingEntry) : (s.ringPut i e).progs = s.progs := 
  (State.sansRings_progs _).symm.trans ((congrArg State.progs (State.ringPut_sansRings s i e)).trans (State.sansRings_progs s))
@[simp] theorem State.ringPut_scache (s : State) (i : Nat) (e : RingEntry) : (s.ringPut i e).scache = s.scache := 
  (State.sansRings_scache _).symm.trans ((congrArg State.scache (State.ringPut_sansRings s i e)).trans (State.sansRings_scache s))
@[simp] theorem State.ringPut_slotPic (s : State) (i : Nat) (e : RingEntry) : (s.ringPut i e).slotPic = s.slotPic := 
  (State.sansRings_slotPic _).symm.trans ((congrArg State.slotPic (State.ringPut_sansRings s i e)).trans (State.sansRings_slotPic s))
@[simp] theorem State.ringPut_slotSz (s : State) (i : Nat) (e : RingEntry) : (s.ringPut i e).slotSz = s.slotSz := 
  (State.sansRings_slotSz _).symm.trans ((congrArg State.slotSz (State.ringPut_sansRings s i e)).trans (State.sansRings_slotSz s))
@[simp] theorem State.ringPut_slotNref (s : State) (i : Nat) (e : RingEntry) : (s.ringPut i e).slotNref = s.slotNref := 
  (State.sansRings_slotNref _).symm.trans ((congrArg State.slotNref (State.ringPut_sansRings s i e)).trans (State.sansRings_slotNref s))
@[simp] theorem State.ringPut_slotC (s : State) (i : Nat) (e : RingEntry) : (s.ringPut i e).slotC = s.slotC := 
  (State.sansRings_slotC _).symm.trans ((congrArg State.slotC (State.ringPut_sansRings s i e)).trans (State.sansRings_slotC s))
@[simp] theorem State.ringPut_retPend (s : State) (i : Nat) (e : RingEntry) : (s.ringPut i e).retPend = s.retPend := 
  (State.sansRings_retPend _).symm.trans ((congrArg State.retPend (State.ringPut_sansRings s i e)).trans (State.sansRings_retPend s))
@[simp] theorem State.ringPut_egr (s : State) (i : Nat) (e : RingEntry) : (s.ringPut i e).egr = s.egr := 
  (State.sansRings_egr _).symm.trans ((congrArg State.egr (State.ringPut_sansRings s i e)).trans (State.sansRings_egr s))
@[simp] theorem State.ringPut_txFree (s : State) (i : Nat) (e : RingEntry) : (s.ringPut i e).txFree = s.txFree := 
  (State.sansRings_txFree _).symm.trans ((congrArg State.txFree (State.ringPut_sansRings s i e)).trans (State.sansRings_txFree s))
@[simp] theorem State.ringPut_frameNo (s : State) (i : Nat) (e : RingEntry) : (s.ringPut i e).frameNo = s.frameNo := 
  (State.sansRings_frameNo _).symm.trans ((congrArg State.frameNo (State.ringPut_sansRings s i e)).trans (State.sansRings_frameNo s))
@[simp] theorem State.ringPut_rtpSeq (s : State) (i : Nat) (e : RingEntry) : (s.ringPut i e).rtpSeq = s.rtpSeq := 
  (State.sansRings_rtpSeq _).symm.trans ((congrArg State.rtpSeq (State.ringPut_sansRings s i e)).trans (State.sansRings_rtpSeq s))
@[simp] theorem State.ringPut_subs (s : State) (i : Nat) (e : RingEntry) : (s.ringPut i e).subs = s.subs := 
  (State.sansRings_subs _).symm.trans ((congrArg State.subs (State.ringPut_sansRings s i e)).trans (State.sansRings_subs s))
@[simp] theorem State.ringPut_shapers (s : State) (i : Nat) (e : RingEntry) : (s.ringPut i e).shapers = s.shapers := 
  (State.sansRings_shapers _).symm.trans ((congrArg State.shapers (State.ringPut_sansRings s i e)).trans (State.sansRings_shapers s))
@[simp] theorem State.ringPut_gates (s : State) (i : Nat) (e : RingEntry) : (s.ringPut i e).gates = s.gates := 
  (State.sansRings_gates _).symm.trans ((congrArg State.gates (State.ringPut_sansRings s i e)).trans (State.sansRings_gates s))
@[simp] theorem State.ringPut_ptpRx (s : State) (i : Nat) (e : RingEntry) : (s.ringPut i e).ptpRx = s.ptpRx := 
  (State.sansRings_ptpRx _).symm.trans ((congrArg State.ptpRx (State.ringPut_sansRings s i e)).trans (State.sansRings_ptpRx s))
@[simp] theorem State.ringPut_tsb (s : State) (i : Nat) (e : RingEntry) : (s.ringPut i e).tsb = s.tsb := 
  (State.sansRings_tsb _).symm.trans ((congrArg State.tsb (State.ringPut_sansRings s i e)).trans (State.sansRings_tsb s))
@[simp] theorem State.ringPut_ptpServo (s : State) (i : Nat) (e : RingEntry) : (s.ringPut i e).ptpServo = s.ptpServo := 
  (State.sansRings_ptpServo _).symm.trans ((congrArg State.ptpServo (State.ringPut_sansRings s i e)).trans (State.sansRings_ptpServo s))
@[simp] theorem State.ringPut_mem (s : State) (i : Nat) (e : RingEntry) : (s.ringPut i e).mem = s.mem := 
  (State.sansRings_mem _).symm.trans ((congrArg State.mem (State.ringPut_sansRings s i e)).trans (State.sansRings_mem s))
@[simp] theorem State.ringPut_injRecs (s : State) (i : Nat) (e : RingEntry) : (s.ringPut i e).injRecs = s.injRecs := 
  (State.sansRings_injRecs _).symm.trans ((congrArg State.injRecs (State.ringPut_sansRings s i e)).trans (State.sansRings_injRecs s))
@[simp] theorem State.ringPut_filled (s : State) (i : Nat) (e : RingEntry) : (s.ringPut i e).filled = s.filled := 
  (State.sansRings_filled _).symm.trans ((congrArg State.filled (State.ringPut_sansRings s i e)).trans (State.sansRings_filled s))
@[simp] theorem State.ringPut_images (s : State) (i : Nat) (e : RingEntry) : (s.ringPut i e).images = s.images := 
  (State.sansRings_images _).symm.trans ((congrArg State.images (State.ringPut_sansRings s i e)).trans (State.sansRings_images s))
@[simp] theorem State.ringPut_chkLeft (s : State) (i : Nat) (e : RingEntry) : (s.ringPut i e).chkLeft = s.chkLeft := 
  (State.sansRings_chkLeft _).symm.trans ((congrArg State.chkLeft (State.ringPut_sansRings s i e)).trans (State.sansRings_chkLeft s))
@[simp] theorem State.ringPut_badRows (s : State) (i : Nat) (e : RingEntry) : (s.ringPut i e).badRows = s.badRows := 
  (State.sansRings_badRows _).symm.trans ((congrArg State.badRows (State.ringPut_sansRings s i e)).trans (State.sansRings_badRows s))
@[simp] theorem State.ringPut_lost (s : State) (i : Nat) (e : RingEntry) : (s.ringPut i e).lost = s.lost := 
  (State.sansRings_lost _).symm.trans ((congrArg State.lost (State.ringPut_sansRings s i e)).trans (State.sansRings_lost s))
@[simp] theorem State.ringPut_celCe (s : State) (i : Nat) (e : RingEntry) : (s.ringPut i e).celCe = s.celCe := 
  (State.sansRings_celCe _).symm.trans ((congrArg State.celCe (State.ringPut_sansRings s i e)).trans (State.sansRings_celCe s))
@[simp] theorem State.ringPut_celDly (s : State) (i : Nat) (e : RingEntry) : (s.ringPut i e).celDly = s.celDly := 
  (State.sansRings_celDly _).symm.trans ((congrArg State.celDly (State.ringPut_sansRings s i e)).trans (State.sansRings_celDly s))
@[simp] theorem State.ringPut_celVref (s : State) (i : Nat) (e : RingEntry) : (s.ringPut i e).celVref = s.celVref := 
  (State.sansRings_celVref _).symm.trans ((congrArg State.celVref (State.ringPut_sansRings s i e)).trans (State.sansRings_celVref s))
@[simp] theorem State.ringPut_pcs (s : State) (i : Nat) (e : RingEntry) : (s.ringPut i e).pcs = s.pcs := 
  (State.sansRings_pcs _).symm.trans ((congrArg State.pcs (State.ringPut_sansRings s i e)).trans (State.sansRings_pcs s))
@[simp] theorem State.ringPut_stackTab (s : State) (i : Nat) (e : RingEntry) : (s.ringPut i e).stackTab = s.stackTab := 
  (State.sansRings_stackTab _).symm.trans ((congrArg State.stackTab (State.ringPut_sansRings s i e)).trans (State.sansRings_stackTab s))
@[simp] theorem State.ringPut_ldrCol (s : State) (i : Nat) (e : RingEntry) : (s.ringPut i e).ldrCol = s.ldrCol := 
  (State.sansRings_ldrCol _).symm.trans ((congrArg State.ldrCol (State.ringPut_sansRings s i e)).trans (State.sansRings_ldrCol s))
@[simp] theorem State.ringPut_training (s : State) (i : Nat) (e : RingEntry) : (s.ringPut i e).training = s.training := 
  (State.sansRings_training _).symm.trans ((congrArg State.training (State.ringPut_sansRings s i e)).trans (State.sansRings_training s))
@[simp] theorem State.ringPut_adapting (s : State) (i : Nat) (e : RingEntry) : (s.ringPut i e).adapting = s.adapting := 
  (State.sansRings_adapting _).symm.trans ((congrArg State.adapting (State.ringPut_sansRings s i e)).trans (State.sansRings_adapting s))
@[simp] theorem State.ringPut_laneSet (s : State) (i : Nat) (e : RingEntry) : (s.ringPut i e).laneSet = s.laneSet := 
  (State.sansRings_laneSet _).symm.trans ((congrArg State.laneSet (State.ringPut_sansRings s i e)).trans (State.sansRings_laneSet s))
@[simp] theorem State.ringPut_blFrom (s : State) (i : Nat) (e : RingEntry) : (s.ringPut i e).blFrom = s.blFrom := 
  (State.sansRings_blFrom _).symm.trans ((congrArg State.blFrom (State.ringPut_sansRings s i e)).trans (State.sansRings_blFrom s))
@[simp] theorem State.ringPut_qps (s : State) (i : Nat) (e : RingEntry) : (s.ringPut i e).qps = s.qps := 
  (State.sansRings_qps _).symm.trans ((congrArg State.qps (State.ringPut_sansRings s i e)).trans (State.sansRings_qps s))
@[simp] theorem State.ringPut_hchs (s : State) (i : Nat) (e : RingEntry) : (s.ringPut i e).hchs = s.hchs := 
  (State.sansRings_hchs _).symm.trans ((congrArg State.hchs (State.ringPut_sansRings s i e)).trans (State.sansRings_hchs s))
@[simp] theorem State.ringPut_hgrant (s : State) (i : Nat) (e : RingEntry) : (s.ringPut i e).hgrant = s.hgrant := 
  (State.sansRings_hgrant _).symm.trans ((congrArg State.hgrant (State.ringPut_sansRings s i e)).trans (State.sansRings_hgrant s))
@[simp] theorem State.ringPut_ptpPos (s : State) (i : Nat) (e : RingEntry) : (s.ringPut i e).ptpPos = s.ptpPos := 
  (State.sansRings_ptpPos _).symm.trans ((congrArg State.ptpPos (State.ringPut_sansRings s i e)).trans (State.sansRings_ptpPos s))
@[simp] theorem State.ringPut_cps (s : State) (i : Nat) (e : RingEntry) : (s.ringPut i e).cps = s.cps := 
  (State.sansRings_cps _).symm.trans ((congrArg State.cps (State.ringPut_sansRings s i e)).trans (State.sansRings_cps s))
@[simp] theorem State.ringPut_push (s : State) (i : Nat) (e : RingEntry) : (s.ringPut i e).push = s.push := 
  (State.sansRings_push _).symm.trans ((congrArg State.push (State.ringPut_sansRings s i e)).trans (State.sansRings_push s))
@[simp] theorem State.ringPut_bank0 (s : State) (i : Nat) (e : RingEntry) : (s.ringPut i e).bank0 = s.bank0 := 
  (State.sansRings_bank0 _).symm.trans ((congrArg State.bank0 (State.ringPut_sansRings s i e)).trans (State.sansRings_bank0 s))
@[simp] theorem State.ringPut_bank1 (s : State) (i : Nat) (e : RingEntry) : (s.ringPut i e).bank1 = s.bank1 := 
  (State.sansRings_bank1 _).symm.trans ((congrArg State.bank1 (State.ringPut_sansRings s i e)).trans (State.sansRings_bank1 s))
@[simp] theorem State.ringPut_sleep (s : State) (i : Nat) (e : RingEntry) : (s.ringPut i e).sleep = s.sleep := 
  (State.sansRings_sleep _).symm.trans ((congrArg State.sleep (State.ringPut_sansRings s i e)).trans (State.sansRings_sleep s))
@[simp] theorem State.ringPut_swap (s : State) (i : Nat) (e : RingEntry) : (s.ringPut i e).swap = s.swap := 
  (State.sansRings_swap _).symm.trans ((congrArg State.swap (State.ringPut_sansRings s i e)).trans (State.sansRings_swap s))
@[simp] theorem State.ringPut_resetReq (s : State) (i : Nat) (e : RingEntry) : (s.ringPut i e).resetReq = s.resetReq := 
  (State.sansRings_resetReq _).symm.trans ((congrArg State.resetReq (State.ringPut_sansRings s i e)).trans (State.sansRings_resetReq s))
@[simp] theorem State.ringPut_wakeN (s : State) (i : Nat) (e : RingEntry) : (s.ringPut i e).wakeN = s.wakeN := 
  (State.sansRings_wakeN _).symm.trans ((congrArg State.wakeN (State.ringPut_sansRings s i e)).trans (State.sansRings_wakeN s))
@[simp] theorem State.ringPut_rails (s : State) (i : Nat) (e : RingEntry) : (s.ringPut i e).rails = s.rails := 
  (State.sansRings_rails _).symm.trans ((congrArg State.rails (State.ringPut_sansRings s i e)).trans (State.sansRings_rails s))
@[simp] theorem State.ringPut_railF (s : State) (i : Nat) (e : RingEntry) : (s.ringPut i e).railF = s.railF := 
  (State.sansRings_railF _).symm.trans ((congrArg State.railF (State.ringPut_sansRings s i e)).trans (State.sansRings_railF s))
@[simp] theorem State.ringPut_avsAgain (s : State) (i : Nat) (e : RingEntry) : (s.ringPut i e).avsAgain = s.avsAgain := 
  (State.sansRings_avsAgain _).symm.trans ((congrArg State.avsAgain (State.ringPut_sansRings s i e)).trans (State.sansRings_avsAgain s))
@[simp] theorem State.ringPut_voutExp (s : State) (i : Nat) (e : RingEntry) : (s.ringPut i e).voutExp = s.voutExp := 
  (State.sansRings_voutExp _).symm.trans ((congrArg State.voutExp (State.ringPut_sansRings s i e)).trans (State.sansRings_voutExp s))
@[simp] theorem State.ringPut_straps (s : State) (i : Nat) (e : RingEntry) : (s.ringPut i e).straps = s.straps := 
  (State.sansRings_straps _).symm.trans ((congrArg State.straps (State.ringPut_sansRings s i e)).trans (State.sansRings_straps s))
@[simp] theorem State.ringPut_strm (s : State) (i : Nat) (e : RingEntry) (k : Nat) : (s.ringPut i e).strm k = s.strm k := 
  (State.sansRings_strm _ k).symm.trans ((congrArg (fun s => State.strm s k) (State.ringPut_sansRings s i e)).trans (State.sansRings_strm s k))
@[simp] theorem State.ringPut_gen (s : State) (i : Nat) (e : RingEntry) (k : Nat) : (s.ringPut i e).gen k = s.gen k := 
  (State.sansRings_gen _ k).symm.trans ((congrArg (fun s => State.gen s k) (State.ringPut_sansRings s i e)).trans (State.sansRings_gen s k))
@[simp] theorem State.ringPut_feed (s : State) (i : Nat) (e : RingEntry) (k : Nat) : (s.ringPut i e).feed k = s.feed k := 
  (State.sansRings_feed _ k).symm.trans ((congrArg (fun s => State.feed s k) (State.ringPut_sansRings s i e)).trans (State.sansRings_feed s k))
@[simp] theorem State.ringPut_crew (s : State) (i : Nat) (e : RingEntry) (k : Nat) : (s.ringPut i e).crew k = s.crew k := 
  (State.sansRings_crew _ k).symm.trans ((congrArg (fun s => State.crew s k) (State.ringPut_sansRings s i e)).trans (State.sansRings_crew s k))
@[simp] theorem State.ringPut_run (s : State) (i : Nat) (e : RingEntry) (k : Nat) : (s.ringPut i e).run k = s.run k := 
  (State.sansRings_run _ k).symm.trans ((congrArg (fun s => State.run s k) (State.ringPut_sansRings s i e)).trans (State.sansRings_run s k))
@[simp] theorem State.ringPut_tallySrc (s : State) (i : Nat) (e : RingEntry) (k : Nat) : (s.ringPut i e).tallySrc k = s.tallySrc k := 
  (State.sansRings_tallySrc _ k).symm.trans ((congrArg (fun s => State.tallySrc s k) (State.ringPut_sansRings s i e)).trans (State.sansRings_tallySrc s k))
@[simp] theorem State.ringPut_cp (s : State) (i : Nat) (e : RingEntry) (k : Nat) : (s.ringPut i e).cp k = s.cp k := 
  (State.sansRings_cp _ k).symm.trans ((congrArg (fun s => State.cp s k) (State.ringPut_sansRings s i e)).trans (State.sansRings_cp s k))
@[simp] theorem State.ringPut_slotPicOf (s : State) (i : Nat) (e : RingEntry) (k : Nat) : (s.ringPut i e).slotPicOf k = s.slotPicOf k := 
  (State.sansRings_slotPicOf _ k).symm.trans ((congrArg (fun s => State.slotPicOf s k) (State.ringPut_sansRings s i e)).trans (State.sansRings_slotPicOf s k))
@[simp] theorem State.ringPut_window (s : State) (i : Nat) (e : RingEntry) (k : Nat) : (s.ringPut i e).window k = s.window k := 
  (State.sansRings_window _ k).symm.trans ((congrArg (fun s => State.window s k) (State.ringPut_sansRings s i e)).trans (State.sansRings_window s k))
@[simp] theorem State.ringPut_frames (s : State) (i : Nat) (e : RingEntry) (k : Nat) : (s.ringPut i e).frames k = s.frames k := 
  (State.sansRings_frames _ k).symm.trans ((congrArg (fun s => State.frames s k) (State.ringPut_sansRings s i e)).trans (State.sansRings_frames s k))
@[simp] theorem State.ringPut_sub (s : State) (i : Nat) (e : RingEntry) (k : Nat) : (s.ringPut i e).sub k = s.sub k := 
  (State.sansRings_sub _ k).symm.trans ((congrArg (fun s => State.sub s k) (State.ringPut_sansRings s i e)).trans (State.sansRings_sub s k))
@[simp] theorem State.ringPut_stack (s : State) (i : Nat) (e : RingEntry) (k : Nat) : (s.ringPut i e).stack k = s.stack k := 
  (State.sansRings_stack _ k).symm.trans ((congrArg (fun s => State.stack s k) (State.ringPut_sansRings s i e)).trans (State.sansRings_stack s k))
@[simp] theorem State.ringPut_seq (s : State) (i : Nat) (e : RingEntry) (k : Nat) : (s.ringPut i e).seq k = s.seq k := 
  (State.sansRings_seq _ k).symm.trans ((congrArg (fun s => State.seq s k) (State.ringPut_sansRings s i e)).trans (State.sansRings_seq s k))
@[simp] theorem State.ringPut_hch (s : State) (i : Nat) (e : RingEntry) (k : Nat) : (s.ringPut i e).hch k = s.hch k := 
  (State.sansRings_hch _ k).symm.trans ((congrArg (fun s => State.hch s k) (State.ringPut_sansRings s i e)).trans (State.sansRings_hch s k))
@[simp] theorem State.ringPut_qp (s : State) (i : Nat) (e : RingEntry) (k : Nat) : (s.ringPut i e).qp k = s.qp k := 
  (State.sansRings_qp _ k).symm.trans ((congrArg (fun s => State.qp s k) (State.ringPut_sansRings s i e)).trans (State.sansRings_qp s k))

/-! ### eventRecord -/

@[simp] theorem State.eventRecord_pending (s : State) (i : Nat) (mk : Nat → RingEntry) : (s.eventRecord i mk).pending = s.pending := 
  (State.sansRings_pending _).symm.trans ((congrArg State.pending (State.eventRecord_sansRings s i mk)).trans (State.sansRings_pending s))
@[simp] theorem State.eventRecord_part (s : State) (i : Nat) (mk : Nat → RingEntry) : (s.eventRecord i mk).part = s.part := 
  (State.sansRings_part _).symm.trans ((congrArg State.part (State.eventRecord_sansRings s i mk)).trans (State.sansRings_part s))
@[simp] theorem State.eventRecord_rst (s : State) (i : Nat) (mk : Nat → RingEntry) : (s.eventRecord i mk).rst = s.rst := 
  (State.sansRings_rst _).symm.trans ((congrArg State.rst (State.eventRecord_sansRings s i mk)).trans (State.sansRings_rst s))
@[simp] theorem State.eventRecord_now (s : State) (i : Nat) (mk : Nat → RingEntry) : (s.eventRecord i mk).now = s.now := 
  (State.sansRings_now _).symm.trans ((congrArg State.now (State.eventRecord_sansRings s i mk)).trans (State.sansRings_now s))
@[simp] theorem State.eventRecord_prev (s : State) (i : Nat) (mk : Nat → RingEntry) : (s.eventRecord i mk).prev = s.prev := 
  (State.sansRings_prev _).symm.trans ((congrArg State.prev (State.eventRecord_sansRings s i mk)).trans (State.sansRings_prev s))
@[simp] theorem State.eventRecord_cyc (s : State) (i : Nat) (mk : Nat → RingEntry) : (s.eventRecord i mk).cyc = s.cyc := 
  (State.sansRings_cyc _).symm.trans ((congrArg State.cyc (State.eventRecord_sansRings s i mk)).trans (State.sansRings_cyc s))
@[simp] theorem State.eventRecord_fired (s : State) (i : Nat) (mk : Nat → RingEntry) : (s.eventRecord i mk).fired = s.fired := 
  (State.sansRings_fired _).symm.trans ((congrArg State.fired (State.eventRecord_sansRings s i mk)).trans (State.sansRings_fired s))
@[simp] theorem State.eventRecord_freed (s : State) (i : Nat) (mk : Nat → RingEntry) : (s.eventRecord i mk).freed = s.freed := 
  (State.sansRings_freed _).symm.trans ((congrArg State.freed (State.eventRecord_sansRings s i mk)).trans (State.sansRings_freed s))
@[simp] theorem State.eventRecord_waitDue (s : State) (i : Nat) (mk : Nat → RingEntry) : (s.eventRecord i mk).waitDue = s.waitDue := 
  (State.sansRings_waitDue _).symm.trans ((congrArg State.waitDue (State.eventRecord_sansRings s i mk)).trans (State.sansRings_waitDue s))
@[simp] theorem State.eventRecord_turns (s : State) (i : Nat) (mk : Nat → RingEntry) : (s.eventRecord i mk).turns = s.turns := 
  (State.sansRings_turns _).symm.trans ((congrArg State.turns (State.eventRecord_sansRings s i mk)).trans (State.sansRings_turns s))
@[simp] theorem State.eventRecord_rate (s : State) (i : Nat) (mk : Nat → RingEntry) : (s.eventRecord i mk).rate = s.rate := 
  (State.sansRings_rate _).symm.trans ((congrArg State.rate (State.eventRecord_sansRings s i mk)).trans (State.sansRings_rate s))
@[simp] theorem State.eventRecord_ppsNs (s : State) (i : Nat) (mk : Nat → RingEntry) : (s.eventRecord i mk).ppsNs = s.ppsNs := 
  (State.sansRings_ppsNs _).symm.trans ((congrArg State.ppsNs (State.eventRecord_sansRings s i mk)).trans (State.sansRings_ppsNs s))
@[simp] theorem State.eventRecord_ppsHigh (s : State) (i : Nat) (mk : Nat → RingEntry) : (s.eventRecord i mk).ppsHigh = s.ppsHigh := 
  (State.sansRings_ppsHigh _).symm.trans ((congrArg State.ppsHigh (State.eventRecord_sansRings s i mk)).trans (State.sansRings_ppsHigh s))
@[simp] theorem State.eventRecord_relock (s : State) (i : Nat) (mk : Nat → RingEntry) : (s.eventRecord i mk).relock = s.relock := 
  (State.sansRings_relock _).symm.trans ((congrArg State.relock (State.eventRecord_sansRings s i mk)).trans (State.sansRings_relock s))
@[simp] theorem State.eventRecord_gens (s : State) (i : Nat) (mk : Nat → RingEntry) : (s.eventRecord i mk).gens = s.gens := 
  (State.sansRings_gens _).symm.trans ((congrArg State.gens (State.eventRecord_sansRings s i mk)).trans (State.sansRings_gens s))
@[simp] theorem State.eventRecord_freeCtr (s : State) (i : Nat) (mk : Nat → RingEntry) : (s.eventRecord i mk).freeCtr = s.freeCtr := 
  (State.sansRings_freeCtr _).symm.trans ((congrArg State.freeCtr (State.eventRecord_sansRings s i mk)).trans (State.sansRings_freeCtr s))
@[simp] theorem State.eventRecord_tsrc (s : State) (i : Nat) (mk : Nat → RingEntry) : (s.eventRecord i mk).tsrc = s.tsrc := 
  (State.sansRings_tsrc _).symm.trans ((congrArg State.tsrc (State.eventRecord_sansRings s i mk)).trans (State.sansRings_tsrc s))
@[simp] theorem State.eventRecord_twin (s : State) (i : Nat) (mk : Nat → RingEntry) : (s.eventRecord i mk).twin = s.twin := 
  (State.sansRings_twin _).symm.trans ((congrArg State.twin (State.eventRecord_sansRings s i mk)).trans (State.sansRings_twin s))
@[simp] theorem State.eventRecord_gath (s : State) (i : Nat) (mk : Nat → RingEntry) : (s.eventRecord i mk).gath = s.gath := 
  (State.sansRings_gath _).symm.trans ((congrArg State.gath (State.eventRecord_sansRings s i mk)).trans (State.sansRings_gath s))
@[simp] theorem State.eventRecord_claimed (s : State) (i : Nat) (mk : Nat → RingEntry) : (s.eventRecord i mk).claimed = s.claimed := 
  (State.sansRings_claimed _).symm.trans ((congrArg State.claimed (State.eventRecord_sansRings s i mk)).trans (State.sansRings_claimed s))
@[simp] theorem State.eventRecord_tgtDef (s : State) (i : Nat) (mk : Nat → RingEntry) : (s.eventRecord i mk).tgtDef = s.tgtDef := 
  (State.sansRings_tgtDef _).symm.trans ((congrArg State.tgtDef (State.eventRecord_sansRings s i mk)).trans (State.sansRings_tgtDef s))
@[simp] theorem State.eventRecord_holdOff (s : State) (i : Nat) (mk : Nat → RingEntry) : (s.eventRecord i mk).holdOff = s.holdOff := 
  (State.sansRings_holdOff _).symm.trans ((congrArg State.holdOff (State.eventRecord_sansRings s i mk)).trans (State.sansRings_holdOff s))
@[simp] theorem State.eventRecord_pins (s : State) (i : Nat) (mk : Nat → RingEntry) : (s.eventRecord i mk).pins = s.pins := 
  (State.sansRings_pins _).symm.trans ((congrArg State.pins (State.eventRecord_sansRings s i mk)).trans (State.sansRings_pins s))
@[simp] theorem State.eventRecord_looked (s : State) (i : Nat) (mk : Nat → RingEntry) : (s.eventRecord i mk).looked = s.looked := 
  (State.sansRings_looked _).symm.trans ((congrArg State.looked (State.eventRecord_sansRings s i mk)).trans (State.sansRings_looked s))
@[simp] theorem State.eventRecord_preempt (s : State) (i : Nat) (mk : Nat → RingEntry) : (s.eventRecord i mk).preempt = s.preempt := 
  (State.sansRings_preempt _).symm.trans ((congrArg State.preempt (State.eventRecord_sansRings s i mk)).trans (State.sansRings_preempt s))
@[simp] theorem State.eventRecord_lifted (s : State) (i : Nat) (mk : Nat → RingEntry) : (s.eventRecord i mk).lifted = s.lifted := 
  (State.sansRings_lifted _).symm.trans ((congrArg State.lifted (State.eventRecord_sansRings s i mk)).trans (State.sansRings_lifted s))
@[simp] theorem State.eventRecord_streams (s : State) (i : Nat) (mk : Nat → RingEntry) : (s.eventRecord i mk).streams = s.streams := 
  (State.sansRings_streams _).symm.trans ((congrArg State.streams (State.eventRecord_sansRings s i mk)).trans (State.sansRings_streams s))
@[simp] theorem State.eventRecord_feeds (s : State) (i : Nat) (mk : Nat → RingEntry) : (s.eventRecord i mk).feeds = s.feeds := 
  (State.sansRings_feeds _).symm.trans ((congrArg State.feeds (State.eventRecord_sansRings s i mk)).trans (State.sansRings_feeds s))
@[simp] theorem State.eventRecord_crews (s : State) (i : Nat) (mk : Nat → RingEntry) : (s.eventRecord i mk).crews = s.crews := 
  (State.sansRings_crews _).symm.trans ((congrArg State.crews (State.eventRecord_sansRings s i mk)).trans (State.sansRings_crews s))
@[simp] theorem State.eventRecord_runs (s : State) (i : Nat) (mk : Nat → RingEntry) : (s.eventRecord i mk).runs = s.runs := 
  (State.sansRings_runs _).symm.trans ((congrArg State.runs (State.eventRecord_sansRings s i mk)).trans (State.sansRings_runs s))
@[simp] theorem State.eventRecord_ended (s : State) (i : Nat) (mk : Nat → RingEntry) : (s.eventRecord i mk).ended = s.ended := 
  (State.sansRings_ended _).symm.trans ((congrArg State.ended (State.eventRecord_sansRings s i mk)).trans (State.sansRings_ended s))
@[simp] theorem State.eventRecord_seqs (s : State) (i : Nat) (mk : Nat → RingEntry) : (s.eventRecord i mk).seqs = s.seqs := 
  (State.sansRings_seqs _).symm.trans ((congrArg State.seqs (State.eventRecord_sansRings s i mk)).trans (State.sansRings_seqs s))
@[simp] theorem State.eventRecord_therm (s : State) (i : Nat) (mk : Nat → RingEntry) : (s.eventRecord i mk).therm = s.therm := 
  (State.sansRings_therm _).symm.trans ((congrArg State.therm (State.eventRecord_sansRings s i mk)).trans (State.sansRings_therm s))
@[simp] theorem State.eventRecord_progs (s : State) (i : Nat) (mk : Nat → RingEntry) : (s.eventRecord i mk).progs = s.progs := 
  (State.sansRings_progs _).symm.trans ((congrArg State.progs (State.eventRecord_sansRings s i mk)).trans (State.sansRings_progs s))
@[simp] theorem State.eventRecord_scache (s : State) (i : Nat) (mk : Nat → RingEntry) : (s.eventRecord i mk).scache = s.scache := 
  (State.sansRings_scache _).symm.trans ((congrArg State.scache (State.eventRecord_sansRings s i mk)).trans (State.sansRings_scache s))
@[simp] theorem State.eventRecord_slotPic (s : State) (i : Nat) (mk : Nat → RingEntry) : (s.eventRecord i mk).slotPic = s.slotPic := 
  (State.sansRings_slotPic _).symm.trans ((congrArg State.slotPic (State.eventRecord_sansRings s i mk)).trans (State.sansRings_slotPic s))
@[simp] theorem State.eventRecord_slotSz (s : State) (i : Nat) (mk : Nat → RingEntry) : (s.eventRecord i mk).slotSz = s.slotSz := 
  (State.sansRings_slotSz _).symm.trans ((congrArg State.slotSz (State.eventRecord_sansRings s i mk)).trans (State.sansRings_slotSz s))
@[simp] theorem State.eventRecord_slotNref (s : State) (i : Nat) (mk : Nat → RingEntry) : (s.eventRecord i mk).slotNref = s.slotNref := 
  (State.sansRings_slotNref _).symm.trans ((congrArg State.slotNref (State.eventRecord_sansRings s i mk)).trans (State.sansRings_slotNref s))
@[simp] theorem State.eventRecord_slotC (s : State) (i : Nat) (mk : Nat → RingEntry) : (s.eventRecord i mk).slotC = s.slotC := 
  (State.sansRings_slotC _).symm.trans ((congrArg State.slotC (State.eventRecord_sansRings s i mk)).trans (State.sansRings_slotC s))
@[simp] theorem State.eventRecord_retPend (s : State) (i : Nat) (mk : Nat → RingEntry) : (s.eventRecord i mk).retPend = s.retPend := 
  (State.sansRings_retPend _).symm.trans ((congrArg State.retPend (State.eventRecord_sansRings s i mk)).trans (State.sansRings_retPend s))
@[simp] theorem State.eventRecord_egr (s : State) (i : Nat) (mk : Nat → RingEntry) : (s.eventRecord i mk).egr = s.egr := 
  (State.sansRings_egr _).symm.trans ((congrArg State.egr (State.eventRecord_sansRings s i mk)).trans (State.sansRings_egr s))
@[simp] theorem State.eventRecord_txFree (s : State) (i : Nat) (mk : Nat → RingEntry) : (s.eventRecord i mk).txFree = s.txFree := 
  (State.sansRings_txFree _).symm.trans ((congrArg State.txFree (State.eventRecord_sansRings s i mk)).trans (State.sansRings_txFree s))
@[simp] theorem State.eventRecord_frameNo (s : State) (i : Nat) (mk : Nat → RingEntry) : (s.eventRecord i mk).frameNo = s.frameNo := 
  (State.sansRings_frameNo _).symm.trans ((congrArg State.frameNo (State.eventRecord_sansRings s i mk)).trans (State.sansRings_frameNo s))
@[simp] theorem State.eventRecord_rtpSeq (s : State) (i : Nat) (mk : Nat → RingEntry) : (s.eventRecord i mk).rtpSeq = s.rtpSeq := 
  (State.sansRings_rtpSeq _).symm.trans ((congrArg State.rtpSeq (State.eventRecord_sansRings s i mk)).trans (State.sansRings_rtpSeq s))
@[simp] theorem State.eventRecord_subs (s : State) (i : Nat) (mk : Nat → RingEntry) : (s.eventRecord i mk).subs = s.subs := 
  (State.sansRings_subs _).symm.trans ((congrArg State.subs (State.eventRecord_sansRings s i mk)).trans (State.sansRings_subs s))
@[simp] theorem State.eventRecord_shapers (s : State) (i : Nat) (mk : Nat → RingEntry) : (s.eventRecord i mk).shapers = s.shapers := 
  (State.sansRings_shapers _).symm.trans ((congrArg State.shapers (State.eventRecord_sansRings s i mk)).trans (State.sansRings_shapers s))
@[simp] theorem State.eventRecord_gates (s : State) (i : Nat) (mk : Nat → RingEntry) : (s.eventRecord i mk).gates = s.gates := 
  (State.sansRings_gates _).symm.trans ((congrArg State.gates (State.eventRecord_sansRings s i mk)).trans (State.sansRings_gates s))
@[simp] theorem State.eventRecord_ptpRx (s : State) (i : Nat) (mk : Nat → RingEntry) : (s.eventRecord i mk).ptpRx = s.ptpRx := 
  (State.sansRings_ptpRx _).symm.trans ((congrArg State.ptpRx (State.eventRecord_sansRings s i mk)).trans (State.sansRings_ptpRx s))
@[simp] theorem State.eventRecord_tsb (s : State) (i : Nat) (mk : Nat → RingEntry) : (s.eventRecord i mk).tsb = s.tsb := 
  (State.sansRings_tsb _).symm.trans ((congrArg State.tsb (State.eventRecord_sansRings s i mk)).trans (State.sansRings_tsb s))
@[simp] theorem State.eventRecord_ptpServo (s : State) (i : Nat) (mk : Nat → RingEntry) : (s.eventRecord i mk).ptpServo = s.ptpServo := 
  (State.sansRings_ptpServo _).symm.trans ((congrArg State.ptpServo (State.eventRecord_sansRings s i mk)).trans (State.sansRings_ptpServo s))
@[simp] theorem State.eventRecord_mem (s : State) (i : Nat) (mk : Nat → RingEntry) : (s.eventRecord i mk).mem = s.mem := 
  (State.sansRings_mem _).symm.trans ((congrArg State.mem (State.eventRecord_sansRings s i mk)).trans (State.sansRings_mem s))
@[simp] theorem State.eventRecord_injRecs (s : State) (i : Nat) (mk : Nat → RingEntry) : (s.eventRecord i mk).injRecs = s.injRecs := 
  (State.sansRings_injRecs _).symm.trans ((congrArg State.injRecs (State.eventRecord_sansRings s i mk)).trans (State.sansRings_injRecs s))
@[simp] theorem State.eventRecord_filled (s : State) (i : Nat) (mk : Nat → RingEntry) : (s.eventRecord i mk).filled = s.filled := 
  (State.sansRings_filled _).symm.trans ((congrArg State.filled (State.eventRecord_sansRings s i mk)).trans (State.sansRings_filled s))
@[simp] theorem State.eventRecord_images (s : State) (i : Nat) (mk : Nat → RingEntry) : (s.eventRecord i mk).images = s.images := 
  (State.sansRings_images _).symm.trans ((congrArg State.images (State.eventRecord_sansRings s i mk)).trans (State.sansRings_images s))
@[simp] theorem State.eventRecord_chkLeft (s : State) (i : Nat) (mk : Nat → RingEntry) : (s.eventRecord i mk).chkLeft = s.chkLeft := 
  (State.sansRings_chkLeft _).symm.trans ((congrArg State.chkLeft (State.eventRecord_sansRings s i mk)).trans (State.sansRings_chkLeft s))
@[simp] theorem State.eventRecord_badRows (s : State) (i : Nat) (mk : Nat → RingEntry) : (s.eventRecord i mk).badRows = s.badRows := 
  (State.sansRings_badRows _).symm.trans ((congrArg State.badRows (State.eventRecord_sansRings s i mk)).trans (State.sansRings_badRows s))
@[simp] theorem State.eventRecord_lost (s : State) (i : Nat) (mk : Nat → RingEntry) : (s.eventRecord i mk).lost = s.lost := 
  (State.sansRings_lost _).symm.trans ((congrArg State.lost (State.eventRecord_sansRings s i mk)).trans (State.sansRings_lost s))
@[simp] theorem State.eventRecord_celCe (s : State) (i : Nat) (mk : Nat → RingEntry) : (s.eventRecord i mk).celCe = s.celCe := 
  (State.sansRings_celCe _).symm.trans ((congrArg State.celCe (State.eventRecord_sansRings s i mk)).trans (State.sansRings_celCe s))
@[simp] theorem State.eventRecord_celDly (s : State) (i : Nat) (mk : Nat → RingEntry) : (s.eventRecord i mk).celDly = s.celDly := 
  (State.sansRings_celDly _).symm.trans ((congrArg State.celDly (State.eventRecord_sansRings s i mk)).trans (State.sansRings_celDly s))
@[simp] theorem State.eventRecord_celVref (s : State) (i : Nat) (mk : Nat → RingEntry) : (s.eventRecord i mk).celVref = s.celVref := 
  (State.sansRings_celVref _).symm.trans ((congrArg State.celVref (State.eventRecord_sansRings s i mk)).trans (State.sansRings_celVref s))
@[simp] theorem State.eventRecord_pcs (s : State) (i : Nat) (mk : Nat → RingEntry) : (s.eventRecord i mk).pcs = s.pcs := 
  (State.sansRings_pcs _).symm.trans ((congrArg State.pcs (State.eventRecord_sansRings s i mk)).trans (State.sansRings_pcs s))
@[simp] theorem State.eventRecord_stackTab (s : State) (i : Nat) (mk : Nat → RingEntry) : (s.eventRecord i mk).stackTab = s.stackTab := 
  (State.sansRings_stackTab _).symm.trans ((congrArg State.stackTab (State.eventRecord_sansRings s i mk)).trans (State.sansRings_stackTab s))
@[simp] theorem State.eventRecord_ldrCol (s : State) (i : Nat) (mk : Nat → RingEntry) : (s.eventRecord i mk).ldrCol = s.ldrCol := 
  (State.sansRings_ldrCol _).symm.trans ((congrArg State.ldrCol (State.eventRecord_sansRings s i mk)).trans (State.sansRings_ldrCol s))
@[simp] theorem State.eventRecord_training (s : State) (i : Nat) (mk : Nat → RingEntry) : (s.eventRecord i mk).training = s.training := 
  (State.sansRings_training _).symm.trans ((congrArg State.training (State.eventRecord_sansRings s i mk)).trans (State.sansRings_training s))
@[simp] theorem State.eventRecord_adapting (s : State) (i : Nat) (mk : Nat → RingEntry) : (s.eventRecord i mk).adapting = s.adapting := 
  (State.sansRings_adapting _).symm.trans ((congrArg State.adapting (State.eventRecord_sansRings s i mk)).trans (State.sansRings_adapting s))
@[simp] theorem State.eventRecord_laneSet (s : State) (i : Nat) (mk : Nat → RingEntry) : (s.eventRecord i mk).laneSet = s.laneSet := 
  (State.sansRings_laneSet _).symm.trans ((congrArg State.laneSet (State.eventRecord_sansRings s i mk)).trans (State.sansRings_laneSet s))
@[simp] theorem State.eventRecord_blFrom (s : State) (i : Nat) (mk : Nat → RingEntry) : (s.eventRecord i mk).blFrom = s.blFrom := 
  (State.sansRings_blFrom _).symm.trans ((congrArg State.blFrom (State.eventRecord_sansRings s i mk)).trans (State.sansRings_blFrom s))
@[simp] theorem State.eventRecord_qps (s : State) (i : Nat) (mk : Nat → RingEntry) : (s.eventRecord i mk).qps = s.qps := 
  (State.sansRings_qps _).symm.trans ((congrArg State.qps (State.eventRecord_sansRings s i mk)).trans (State.sansRings_qps s))
@[simp] theorem State.eventRecord_hchs (s : State) (i : Nat) (mk : Nat → RingEntry) : (s.eventRecord i mk).hchs = s.hchs := 
  (State.sansRings_hchs _).symm.trans ((congrArg State.hchs (State.eventRecord_sansRings s i mk)).trans (State.sansRings_hchs s))
@[simp] theorem State.eventRecord_hgrant (s : State) (i : Nat) (mk : Nat → RingEntry) : (s.eventRecord i mk).hgrant = s.hgrant := 
  (State.sansRings_hgrant _).symm.trans ((congrArg State.hgrant (State.eventRecord_sansRings s i mk)).trans (State.sansRings_hgrant s))
@[simp] theorem State.eventRecord_ptpPos (s : State) (i : Nat) (mk : Nat → RingEntry) : (s.eventRecord i mk).ptpPos = s.ptpPos := 
  (State.sansRings_ptpPos _).symm.trans ((congrArg State.ptpPos (State.eventRecord_sansRings s i mk)).trans (State.sansRings_ptpPos s))
@[simp] theorem State.eventRecord_cps (s : State) (i : Nat) (mk : Nat → RingEntry) : (s.eventRecord i mk).cps = s.cps := 
  (State.sansRings_cps _).symm.trans ((congrArg State.cps (State.eventRecord_sansRings s i mk)).trans (State.sansRings_cps s))
@[simp] theorem State.eventRecord_push (s : State) (i : Nat) (mk : Nat → RingEntry) : (s.eventRecord i mk).push = s.push := 
  (State.sansRings_push _).symm.trans ((congrArg State.push (State.eventRecord_sansRings s i mk)).trans (State.sansRings_push s))
@[simp] theorem State.eventRecord_bank0 (s : State) (i : Nat) (mk : Nat → RingEntry) : (s.eventRecord i mk).bank0 = s.bank0 := 
  (State.sansRings_bank0 _).symm.trans ((congrArg State.bank0 (State.eventRecord_sansRings s i mk)).trans (State.sansRings_bank0 s))
@[simp] theorem State.eventRecord_bank1 (s : State) (i : Nat) (mk : Nat → RingEntry) : (s.eventRecord i mk).bank1 = s.bank1 := 
  (State.sansRings_bank1 _).symm.trans ((congrArg State.bank1 (State.eventRecord_sansRings s i mk)).trans (State.sansRings_bank1 s))
@[simp] theorem State.eventRecord_sleep (s : State) (i : Nat) (mk : Nat → RingEntry) : (s.eventRecord i mk).sleep = s.sleep := 
  (State.sansRings_sleep _).symm.trans ((congrArg State.sleep (State.eventRecord_sansRings s i mk)).trans (State.sansRings_sleep s))
@[simp] theorem State.eventRecord_swap (s : State) (i : Nat) (mk : Nat → RingEntry) : (s.eventRecord i mk).swap = s.swap := 
  (State.sansRings_swap _).symm.trans ((congrArg State.swap (State.eventRecord_sansRings s i mk)).trans (State.sansRings_swap s))
@[simp] theorem State.eventRecord_resetReq (s : State) (i : Nat) (mk : Nat → RingEntry) : (s.eventRecord i mk).resetReq = s.resetReq := 
  (State.sansRings_resetReq _).symm.trans ((congrArg State.resetReq (State.eventRecord_sansRings s i mk)).trans (State.sansRings_resetReq s))
@[simp] theorem State.eventRecord_wakeN (s : State) (i : Nat) (mk : Nat → RingEntry) : (s.eventRecord i mk).wakeN = s.wakeN := 
  (State.sansRings_wakeN _).symm.trans ((congrArg State.wakeN (State.eventRecord_sansRings s i mk)).trans (State.sansRings_wakeN s))
@[simp] theorem State.eventRecord_rails (s : State) (i : Nat) (mk : Nat → RingEntry) : (s.eventRecord i mk).rails = s.rails := 
  (State.sansRings_rails _).symm.trans ((congrArg State.rails (State.eventRecord_sansRings s i mk)).trans (State.sansRings_rails s))
@[simp] theorem State.eventRecord_railF (s : State) (i : Nat) (mk : Nat → RingEntry) : (s.eventRecord i mk).railF = s.railF := 
  (State.sansRings_railF _).symm.trans ((congrArg State.railF (State.eventRecord_sansRings s i mk)).trans (State.sansRings_railF s))
@[simp] theorem State.eventRecord_avsAgain (s : State) (i : Nat) (mk : Nat → RingEntry) : (s.eventRecord i mk).avsAgain = s.avsAgain := 
  (State.sansRings_avsAgain _).symm.trans ((congrArg State.avsAgain (State.eventRecord_sansRings s i mk)).trans (State.sansRings_avsAgain s))
@[simp] theorem State.eventRecord_voutExp (s : State) (i : Nat) (mk : Nat → RingEntry) : (s.eventRecord i mk).voutExp = s.voutExp := 
  (State.sansRings_voutExp _).symm.trans ((congrArg State.voutExp (State.eventRecord_sansRings s i mk)).trans (State.sansRings_voutExp s))
@[simp] theorem State.eventRecord_straps (s : State) (i : Nat) (mk : Nat → RingEntry) : (s.eventRecord i mk).straps = s.straps := 
  (State.sansRings_straps _).symm.trans ((congrArg State.straps (State.eventRecord_sansRings s i mk)).trans (State.sansRings_straps s))
@[simp] theorem State.eventRecord_strm (s : State) (i : Nat) (mk : Nat → RingEntry) (k : Nat) : (s.eventRecord i mk).strm k = s.strm k := 
  (State.sansRings_strm _ k).symm.trans ((congrArg (fun s => State.strm s k) (State.eventRecord_sansRings s i mk)).trans (State.sansRings_strm s k))
@[simp] theorem State.eventRecord_gen (s : State) (i : Nat) (mk : Nat → RingEntry) (k : Nat) : (s.eventRecord i mk).gen k = s.gen k := 
  (State.sansRings_gen _ k).symm.trans ((congrArg (fun s => State.gen s k) (State.eventRecord_sansRings s i mk)).trans (State.sansRings_gen s k))
@[simp] theorem State.eventRecord_feed (s : State) (i : Nat) (mk : Nat → RingEntry) (k : Nat) : (s.eventRecord i mk).feed k = s.feed k := 
  (State.sansRings_feed _ k).symm.trans ((congrArg (fun s => State.feed s k) (State.eventRecord_sansRings s i mk)).trans (State.sansRings_feed s k))
@[simp] theorem State.eventRecord_crew (s : State) (i : Nat) (mk : Nat → RingEntry) (k : Nat) : (s.eventRecord i mk).crew k = s.crew k := 
  (State.sansRings_crew _ k).symm.trans ((congrArg (fun s => State.crew s k) (State.eventRecord_sansRings s i mk)).trans (State.sansRings_crew s k))
@[simp] theorem State.eventRecord_run (s : State) (i : Nat) (mk : Nat → RingEntry) (k : Nat) : (s.eventRecord i mk).run k = s.run k := 
  (State.sansRings_run _ k).symm.trans ((congrArg (fun s => State.run s k) (State.eventRecord_sansRings s i mk)).trans (State.sansRings_run s k))
@[simp] theorem State.eventRecord_tallySrc (s : State) (i : Nat) (mk : Nat → RingEntry) (k : Nat) : (s.eventRecord i mk).tallySrc k = s.tallySrc k := 
  (State.sansRings_tallySrc _ k).symm.trans ((congrArg (fun s => State.tallySrc s k) (State.eventRecord_sansRings s i mk)).trans (State.sansRings_tallySrc s k))
@[simp] theorem State.eventRecord_cp (s : State) (i : Nat) (mk : Nat → RingEntry) (k : Nat) : (s.eventRecord i mk).cp k = s.cp k := 
  (State.sansRings_cp _ k).symm.trans ((congrArg (fun s => State.cp s k) (State.eventRecord_sansRings s i mk)).trans (State.sansRings_cp s k))
@[simp] theorem State.eventRecord_slotPicOf (s : State) (i : Nat) (mk : Nat → RingEntry) (k : Nat) : (s.eventRecord i mk).slotPicOf k = s.slotPicOf k := 
  (State.sansRings_slotPicOf _ k).symm.trans ((congrArg (fun s => State.slotPicOf s k) (State.eventRecord_sansRings s i mk)).trans (State.sansRings_slotPicOf s k))
@[simp] theorem State.eventRecord_window (s : State) (i : Nat) (mk : Nat → RingEntry) (k : Nat) : (s.eventRecord i mk).window k = s.window k := 
  (State.sansRings_window _ k).symm.trans ((congrArg (fun s => State.window s k) (State.eventRecord_sansRings s i mk)).trans (State.sansRings_window s k))
@[simp] theorem State.eventRecord_frames (s : State) (i : Nat) (mk : Nat → RingEntry) (k : Nat) : (s.eventRecord i mk).frames k = s.frames k := 
  (State.sansRings_frames _ k).symm.trans ((congrArg (fun s => State.frames s k) (State.eventRecord_sansRings s i mk)).trans (State.sansRings_frames s k))
@[simp] theorem State.eventRecord_sub (s : State) (i : Nat) (mk : Nat → RingEntry) (k : Nat) : (s.eventRecord i mk).sub k = s.sub k := 
  (State.sansRings_sub _ k).symm.trans ((congrArg (fun s => State.sub s k) (State.eventRecord_sansRings s i mk)).trans (State.sansRings_sub s k))
@[simp] theorem State.eventRecord_stack (s : State) (i : Nat) (mk : Nat → RingEntry) (k : Nat) : (s.eventRecord i mk).stack k = s.stack k := 
  (State.sansRings_stack _ k).symm.trans ((congrArg (fun s => State.stack s k) (State.eventRecord_sansRings s i mk)).trans (State.sansRings_stack s k))
@[simp] theorem State.eventRecord_seq (s : State) (i : Nat) (mk : Nat → RingEntry) (k : Nat) : (s.eventRecord i mk).seq k = s.seq k := 
  (State.sansRings_seq _ k).symm.trans ((congrArg (fun s => State.seq s k) (State.eventRecord_sansRings s i mk)).trans (State.sansRings_seq s k))
@[simp] theorem State.eventRecord_hch (s : State) (i : Nat) (mk : Nat → RingEntry) (k : Nat) : (s.eventRecord i mk).hch k = s.hch k := 
  (State.sansRings_hch _ k).symm.trans ((congrArg (fun s => State.hch s k) (State.eventRecord_sansRings s i mk)).trans (State.sansRings_hch s k))
@[simp] theorem State.eventRecord_qp (s : State) (i : Nat) (mk : Nat → RingEntry) (k : Nat) : (s.eventRecord i mk).qp k = s.qp k := 
  (State.sansRings_qp _ k).symm.trans ((congrArg (fun s => State.qp s k) (State.eventRecord_sansRings s i mk)).trans (State.sansRings_qp s k))

/-! ### complete -/

@[simp] theorem State.complete_pending (s : State) (o : Owed) (status data : Nat) : (s.complete o status data).pending = s.pending := 
  (State.sansRings_pending _).symm.trans ((congrArg State.pending (State.complete_sansRings s o status data)).trans (State.sansRings_pending s))
@[simp] theorem State.complete_part (s : State) (o : Owed) (status data : Nat) : (s.complete o status data).part = s.part := 
  (State.sansRings_part _).symm.trans ((congrArg State.part (State.complete_sansRings s o status data)).trans (State.sansRings_part s))
@[simp] theorem State.complete_rst (s : State) (o : Owed) (status data : Nat) : (s.complete o status data).rst = s.rst := 
  (State.sansRings_rst _).symm.trans ((congrArg State.rst (State.complete_sansRings s o status data)).trans (State.sansRings_rst s))
@[simp] theorem State.complete_now (s : State) (o : Owed) (status data : Nat) : (s.complete o status data).now = s.now := 
  (State.sansRings_now _).symm.trans ((congrArg State.now (State.complete_sansRings s o status data)).trans (State.sansRings_now s))
@[simp] theorem State.complete_prev (s : State) (o : Owed) (status data : Nat) : (s.complete o status data).prev = s.prev := 
  (State.sansRings_prev _).symm.trans ((congrArg State.prev (State.complete_sansRings s o status data)).trans (State.sansRings_prev s))
@[simp] theorem State.complete_cyc (s : State) (o : Owed) (status data : Nat) : (s.complete o status data).cyc = s.cyc := 
  (State.sansRings_cyc _).symm.trans ((congrArg State.cyc (State.complete_sansRings s o status data)).trans (State.sansRings_cyc s))
@[simp] theorem State.complete_fired (s : State) (o : Owed) (status data : Nat) : (s.complete o status data).fired = s.fired := 
  (State.sansRings_fired _).symm.trans ((congrArg State.fired (State.complete_sansRings s o status data)).trans (State.sansRings_fired s))
@[simp] theorem State.complete_freed (s : State) (o : Owed) (status data : Nat) : (s.complete o status data).freed = s.freed := 
  (State.sansRings_freed _).symm.trans ((congrArg State.freed (State.complete_sansRings s o status data)).trans (State.sansRings_freed s))
@[simp] theorem State.complete_waitDue (s : State) (o : Owed) (status data : Nat) : (s.complete o status data).waitDue = s.waitDue := 
  (State.sansRings_waitDue _).symm.trans ((congrArg State.waitDue (State.complete_sansRings s o status data)).trans (State.sansRings_waitDue s))
@[simp] theorem State.complete_turns (s : State) (o : Owed) (status data : Nat) : (s.complete o status data).turns = s.turns := 
  (State.sansRings_turns _).symm.trans ((congrArg State.turns (State.complete_sansRings s o status data)).trans (State.sansRings_turns s))
@[simp] theorem State.complete_rate (s : State) (o : Owed) (status data : Nat) : (s.complete o status data).rate = s.rate := 
  (State.sansRings_rate _).symm.trans ((congrArg State.rate (State.complete_sansRings s o status data)).trans (State.sansRings_rate s))
@[simp] theorem State.complete_ppsNs (s : State) (o : Owed) (status data : Nat) : (s.complete o status data).ppsNs = s.ppsNs := 
  (State.sansRings_ppsNs _).symm.trans ((congrArg State.ppsNs (State.complete_sansRings s o status data)).trans (State.sansRings_ppsNs s))
@[simp] theorem State.complete_ppsHigh (s : State) (o : Owed) (status data : Nat) : (s.complete o status data).ppsHigh = s.ppsHigh := 
  (State.sansRings_ppsHigh _).symm.trans ((congrArg State.ppsHigh (State.complete_sansRings s o status data)).trans (State.sansRings_ppsHigh s))
@[simp] theorem State.complete_relock (s : State) (o : Owed) (status data : Nat) : (s.complete o status data).relock = s.relock := 
  (State.sansRings_relock _).symm.trans ((congrArg State.relock (State.complete_sansRings s o status data)).trans (State.sansRings_relock s))
@[simp] theorem State.complete_gens (s : State) (o : Owed) (status data : Nat) : (s.complete o status data).gens = s.gens := 
  (State.sansRings_gens _).symm.trans ((congrArg State.gens (State.complete_sansRings s o status data)).trans (State.sansRings_gens s))
@[simp] theorem State.complete_freeCtr (s : State) (o : Owed) (status data : Nat) : (s.complete o status data).freeCtr = s.freeCtr := 
  (State.sansRings_freeCtr _).symm.trans ((congrArg State.freeCtr (State.complete_sansRings s o status data)).trans (State.sansRings_freeCtr s))
@[simp] theorem State.complete_tsrc (s : State) (o : Owed) (status data : Nat) : (s.complete o status data).tsrc = s.tsrc := 
  (State.sansRings_tsrc _).symm.trans ((congrArg State.tsrc (State.complete_sansRings s o status data)).trans (State.sansRings_tsrc s))
@[simp] theorem State.complete_twin (s : State) (o : Owed) (status data : Nat) : (s.complete o status data).twin = s.twin := 
  (State.sansRings_twin _).symm.trans ((congrArg State.twin (State.complete_sansRings s o status data)).trans (State.sansRings_twin s))
@[simp] theorem State.complete_gath (s : State) (o : Owed) (status data : Nat) : (s.complete o status data).gath = s.gath := 
  (State.sansRings_gath _).symm.trans ((congrArg State.gath (State.complete_sansRings s o status data)).trans (State.sansRings_gath s))
@[simp] theorem State.complete_claimed (s : State) (o : Owed) (status data : Nat) : (s.complete o status data).claimed = s.claimed := 
  (State.sansRings_claimed _).symm.trans ((congrArg State.claimed (State.complete_sansRings s o status data)).trans (State.sansRings_claimed s))
@[simp] theorem State.complete_tgtDef (s : State) (o : Owed) (status data : Nat) : (s.complete o status data).tgtDef = s.tgtDef := 
  (State.sansRings_tgtDef _).symm.trans ((congrArg State.tgtDef (State.complete_sansRings s o status data)).trans (State.sansRings_tgtDef s))
@[simp] theorem State.complete_holdOff (s : State) (o : Owed) (status data : Nat) : (s.complete o status data).holdOff = s.holdOff := 
  (State.sansRings_holdOff _).symm.trans ((congrArg State.holdOff (State.complete_sansRings s o status data)).trans (State.sansRings_holdOff s))
@[simp] theorem State.complete_pins (s : State) (o : Owed) (status data : Nat) : (s.complete o status data).pins = s.pins := 
  (State.sansRings_pins _).symm.trans ((congrArg State.pins (State.complete_sansRings s o status data)).trans (State.sansRings_pins s))
@[simp] theorem State.complete_looked (s : State) (o : Owed) (status data : Nat) : (s.complete o status data).looked = s.looked := 
  (State.sansRings_looked _).symm.trans ((congrArg State.looked (State.complete_sansRings s o status data)).trans (State.sansRings_looked s))
@[simp] theorem State.complete_preempt (s : State) (o : Owed) (status data : Nat) : (s.complete o status data).preempt = s.preempt := 
  (State.sansRings_preempt _).symm.trans ((congrArg State.preempt (State.complete_sansRings s o status data)).trans (State.sansRings_preempt s))
@[simp] theorem State.complete_lifted (s : State) (o : Owed) (status data : Nat) : (s.complete o status data).lifted = s.lifted := 
  (State.sansRings_lifted _).symm.trans ((congrArg State.lifted (State.complete_sansRings s o status data)).trans (State.sansRings_lifted s))
@[simp] theorem State.complete_streams (s : State) (o : Owed) (status data : Nat) : (s.complete o status data).streams = s.streams := 
  (State.sansRings_streams _).symm.trans ((congrArg State.streams (State.complete_sansRings s o status data)).trans (State.sansRings_streams s))
@[simp] theorem State.complete_feeds (s : State) (o : Owed) (status data : Nat) : (s.complete o status data).feeds = s.feeds := 
  (State.sansRings_feeds _).symm.trans ((congrArg State.feeds (State.complete_sansRings s o status data)).trans (State.sansRings_feeds s))
@[simp] theorem State.complete_crews (s : State) (o : Owed) (status data : Nat) : (s.complete o status data).crews = s.crews := 
  (State.sansRings_crews _).symm.trans ((congrArg State.crews (State.complete_sansRings s o status data)).trans (State.sansRings_crews s))
@[simp] theorem State.complete_runs (s : State) (o : Owed) (status data : Nat) : (s.complete o status data).runs = s.runs := 
  (State.sansRings_runs _).symm.trans ((congrArg State.runs (State.complete_sansRings s o status data)).trans (State.sansRings_runs s))
@[simp] theorem State.complete_ended (s : State) (o : Owed) (status data : Nat) : (s.complete o status data).ended = s.ended := 
  (State.sansRings_ended _).symm.trans ((congrArg State.ended (State.complete_sansRings s o status data)).trans (State.sansRings_ended s))
@[simp] theorem State.complete_seqs (s : State) (o : Owed) (status data : Nat) : (s.complete o status data).seqs = s.seqs := 
  (State.sansRings_seqs _).symm.trans ((congrArg State.seqs (State.complete_sansRings s o status data)).trans (State.sansRings_seqs s))
@[simp] theorem State.complete_therm (s : State) (o : Owed) (status data : Nat) : (s.complete o status data).therm = s.therm := 
  (State.sansRings_therm _).symm.trans ((congrArg State.therm (State.complete_sansRings s o status data)).trans (State.sansRings_therm s))
@[simp] theorem State.complete_progs (s : State) (o : Owed) (status data : Nat) : (s.complete o status data).progs = s.progs := 
  (State.sansRings_progs _).symm.trans ((congrArg State.progs (State.complete_sansRings s o status data)).trans (State.sansRings_progs s))
@[simp] theorem State.complete_scache (s : State) (o : Owed) (status data : Nat) : (s.complete o status data).scache = s.scache := 
  (State.sansRings_scache _).symm.trans ((congrArg State.scache (State.complete_sansRings s o status data)).trans (State.sansRings_scache s))
@[simp] theorem State.complete_slotPic (s : State) (o : Owed) (status data : Nat) : (s.complete o status data).slotPic = s.slotPic := 
  (State.sansRings_slotPic _).symm.trans ((congrArg State.slotPic (State.complete_sansRings s o status data)).trans (State.sansRings_slotPic s))
@[simp] theorem State.complete_slotSz (s : State) (o : Owed) (status data : Nat) : (s.complete o status data).slotSz = s.slotSz := 
  (State.sansRings_slotSz _).symm.trans ((congrArg State.slotSz (State.complete_sansRings s o status data)).trans (State.sansRings_slotSz s))
@[simp] theorem State.complete_slotNref (s : State) (o : Owed) (status data : Nat) : (s.complete o status data).slotNref = s.slotNref := 
  (State.sansRings_slotNref _).symm.trans ((congrArg State.slotNref (State.complete_sansRings s o status data)).trans (State.sansRings_slotNref s))
@[simp] theorem State.complete_slotC (s : State) (o : Owed) (status data : Nat) : (s.complete o status data).slotC = s.slotC := 
  (State.sansRings_slotC _).symm.trans ((congrArg State.slotC (State.complete_sansRings s o status data)).trans (State.sansRings_slotC s))
@[simp] theorem State.complete_retPend (s : State) (o : Owed) (status data : Nat) : (s.complete o status data).retPend = s.retPend := 
  (State.sansRings_retPend _).symm.trans ((congrArg State.retPend (State.complete_sansRings s o status data)).trans (State.sansRings_retPend s))
@[simp] theorem State.complete_egr (s : State) (o : Owed) (status data : Nat) : (s.complete o status data).egr = s.egr := 
  (State.sansRings_egr _).symm.trans ((congrArg State.egr (State.complete_sansRings s o status data)).trans (State.sansRings_egr s))
@[simp] theorem State.complete_txFree (s : State) (o : Owed) (status data : Nat) : (s.complete o status data).txFree = s.txFree := 
  (State.sansRings_txFree _).symm.trans ((congrArg State.txFree (State.complete_sansRings s o status data)).trans (State.sansRings_txFree s))
@[simp] theorem State.complete_frameNo (s : State) (o : Owed) (status data : Nat) : (s.complete o status data).frameNo = s.frameNo := 
  (State.sansRings_frameNo _).symm.trans ((congrArg State.frameNo (State.complete_sansRings s o status data)).trans (State.sansRings_frameNo s))
@[simp] theorem State.complete_rtpSeq (s : State) (o : Owed) (status data : Nat) : (s.complete o status data).rtpSeq = s.rtpSeq := 
  (State.sansRings_rtpSeq _).symm.trans ((congrArg State.rtpSeq (State.complete_sansRings s o status data)).trans (State.sansRings_rtpSeq s))
@[simp] theorem State.complete_subs (s : State) (o : Owed) (status data : Nat) : (s.complete o status data).subs = s.subs := 
  (State.sansRings_subs _).symm.trans ((congrArg State.subs (State.complete_sansRings s o status data)).trans (State.sansRings_subs s))
@[simp] theorem State.complete_shapers (s : State) (o : Owed) (status data : Nat) : (s.complete o status data).shapers = s.shapers := 
  (State.sansRings_shapers _).symm.trans ((congrArg State.shapers (State.complete_sansRings s o status data)).trans (State.sansRings_shapers s))
@[simp] theorem State.complete_gates (s : State) (o : Owed) (status data : Nat) : (s.complete o status data).gates = s.gates := 
  (State.sansRings_gates _).symm.trans ((congrArg State.gates (State.complete_sansRings s o status data)).trans (State.sansRings_gates s))
@[simp] theorem State.complete_ptpRx (s : State) (o : Owed) (status data : Nat) : (s.complete o status data).ptpRx = s.ptpRx := 
  (State.sansRings_ptpRx _).symm.trans ((congrArg State.ptpRx (State.complete_sansRings s o status data)).trans (State.sansRings_ptpRx s))
@[simp] theorem State.complete_tsb (s : State) (o : Owed) (status data : Nat) : (s.complete o status data).tsb = s.tsb := 
  (State.sansRings_tsb _).symm.trans ((congrArg State.tsb (State.complete_sansRings s o status data)).trans (State.sansRings_tsb s))
@[simp] theorem State.complete_ptpServo (s : State) (o : Owed) (status data : Nat) : (s.complete o status data).ptpServo = s.ptpServo := 
  (State.sansRings_ptpServo _).symm.trans ((congrArg State.ptpServo (State.complete_sansRings s o status data)).trans (State.sansRings_ptpServo s))
@[simp] theorem State.complete_mem (s : State) (o : Owed) (status data : Nat) : (s.complete o status data).mem = s.mem := 
  (State.sansRings_mem _).symm.trans ((congrArg State.mem (State.complete_sansRings s o status data)).trans (State.sansRings_mem s))
@[simp] theorem State.complete_injRecs (s : State) (o : Owed) (status data : Nat) : (s.complete o status data).injRecs = s.injRecs := 
  (State.sansRings_injRecs _).symm.trans ((congrArg State.injRecs (State.complete_sansRings s o status data)).trans (State.sansRings_injRecs s))
@[simp] theorem State.complete_filled (s : State) (o : Owed) (status data : Nat) : (s.complete o status data).filled = s.filled := 
  (State.sansRings_filled _).symm.trans ((congrArg State.filled (State.complete_sansRings s o status data)).trans (State.sansRings_filled s))
@[simp] theorem State.complete_images (s : State) (o : Owed) (status data : Nat) : (s.complete o status data).images = s.images := 
  (State.sansRings_images _).symm.trans ((congrArg State.images (State.complete_sansRings s o status data)).trans (State.sansRings_images s))
@[simp] theorem State.complete_chkLeft (s : State) (o : Owed) (status data : Nat) : (s.complete o status data).chkLeft = s.chkLeft := 
  (State.sansRings_chkLeft _).symm.trans ((congrArg State.chkLeft (State.complete_sansRings s o status data)).trans (State.sansRings_chkLeft s))
@[simp] theorem State.complete_badRows (s : State) (o : Owed) (status data : Nat) : (s.complete o status data).badRows = s.badRows := 
  (State.sansRings_badRows _).symm.trans ((congrArg State.badRows (State.complete_sansRings s o status data)).trans (State.sansRings_badRows s))
@[simp] theorem State.complete_lost (s : State) (o : Owed) (status data : Nat) : (s.complete o status data).lost = s.lost := 
  (State.sansRings_lost _).symm.trans ((congrArg State.lost (State.complete_sansRings s o status data)).trans (State.sansRings_lost s))
@[simp] theorem State.complete_celCe (s : State) (o : Owed) (status data : Nat) : (s.complete o status data).celCe = s.celCe := 
  (State.sansRings_celCe _).symm.trans ((congrArg State.celCe (State.complete_sansRings s o status data)).trans (State.sansRings_celCe s))
@[simp] theorem State.complete_celDly (s : State) (o : Owed) (status data : Nat) : (s.complete o status data).celDly = s.celDly := 
  (State.sansRings_celDly _).symm.trans ((congrArg State.celDly (State.complete_sansRings s o status data)).trans (State.sansRings_celDly s))
@[simp] theorem State.complete_celVref (s : State) (o : Owed) (status data : Nat) : (s.complete o status data).celVref = s.celVref := 
  (State.sansRings_celVref _).symm.trans ((congrArg State.celVref (State.complete_sansRings s o status data)).trans (State.sansRings_celVref s))
@[simp] theorem State.complete_pcs (s : State) (o : Owed) (status data : Nat) : (s.complete o status data).pcs = s.pcs := 
  (State.sansRings_pcs _).symm.trans ((congrArg State.pcs (State.complete_sansRings s o status data)).trans (State.sansRings_pcs s))
@[simp] theorem State.complete_stackTab (s : State) (o : Owed) (status data : Nat) : (s.complete o status data).stackTab = s.stackTab := 
  (State.sansRings_stackTab _).symm.trans ((congrArg State.stackTab (State.complete_sansRings s o status data)).trans (State.sansRings_stackTab s))
@[simp] theorem State.complete_ldrCol (s : State) (o : Owed) (status data : Nat) : (s.complete o status data).ldrCol = s.ldrCol := 
  (State.sansRings_ldrCol _).symm.trans ((congrArg State.ldrCol (State.complete_sansRings s o status data)).trans (State.sansRings_ldrCol s))
@[simp] theorem State.complete_training (s : State) (o : Owed) (status data : Nat) : (s.complete o status data).training = s.training := 
  (State.sansRings_training _).symm.trans ((congrArg State.training (State.complete_sansRings s o status data)).trans (State.sansRings_training s))
@[simp] theorem State.complete_adapting (s : State) (o : Owed) (status data : Nat) : (s.complete o status data).adapting = s.adapting := 
  (State.sansRings_adapting _).symm.trans ((congrArg State.adapting (State.complete_sansRings s o status data)).trans (State.sansRings_adapting s))
@[simp] theorem State.complete_laneSet (s : State) (o : Owed) (status data : Nat) : (s.complete o status data).laneSet = s.laneSet := 
  (State.sansRings_laneSet _).symm.trans ((congrArg State.laneSet (State.complete_sansRings s o status data)).trans (State.sansRings_laneSet s))
@[simp] theorem State.complete_blFrom (s : State) (o : Owed) (status data : Nat) : (s.complete o status data).blFrom = s.blFrom := 
  (State.sansRings_blFrom _).symm.trans ((congrArg State.blFrom (State.complete_sansRings s o status data)).trans (State.sansRings_blFrom s))
@[simp] theorem State.complete_qps (s : State) (o : Owed) (status data : Nat) : (s.complete o status data).qps = s.qps := 
  (State.sansRings_qps _).symm.trans ((congrArg State.qps (State.complete_sansRings s o status data)).trans (State.sansRings_qps s))
@[simp] theorem State.complete_hchs (s : State) (o : Owed) (status data : Nat) : (s.complete o status data).hchs = s.hchs := 
  (State.sansRings_hchs _).symm.trans ((congrArg State.hchs (State.complete_sansRings s o status data)).trans (State.sansRings_hchs s))
@[simp] theorem State.complete_hgrant (s : State) (o : Owed) (status data : Nat) : (s.complete o status data).hgrant = s.hgrant := 
  (State.sansRings_hgrant _).symm.trans ((congrArg State.hgrant (State.complete_sansRings s o status data)).trans (State.sansRings_hgrant s))
@[simp] theorem State.complete_ptpPos (s : State) (o : Owed) (status data : Nat) : (s.complete o status data).ptpPos = s.ptpPos := 
  (State.sansRings_ptpPos _).symm.trans ((congrArg State.ptpPos (State.complete_sansRings s o status data)).trans (State.sansRings_ptpPos s))
@[simp] theorem State.complete_cps (s : State) (o : Owed) (status data : Nat) : (s.complete o status data).cps = s.cps := 
  (State.sansRings_cps _).symm.trans ((congrArg State.cps (State.complete_sansRings s o status data)).trans (State.sansRings_cps s))
@[simp] theorem State.complete_push (s : State) (o : Owed) (status data : Nat) : (s.complete o status data).push = s.push := 
  (State.sansRings_push _).symm.trans ((congrArg State.push (State.complete_sansRings s o status data)).trans (State.sansRings_push s))
@[simp] theorem State.complete_bank0 (s : State) (o : Owed) (status data : Nat) : (s.complete o status data).bank0 = s.bank0 := 
  (State.sansRings_bank0 _).symm.trans ((congrArg State.bank0 (State.complete_sansRings s o status data)).trans (State.sansRings_bank0 s))
@[simp] theorem State.complete_bank1 (s : State) (o : Owed) (status data : Nat) : (s.complete o status data).bank1 = s.bank1 := 
  (State.sansRings_bank1 _).symm.trans ((congrArg State.bank1 (State.complete_sansRings s o status data)).trans (State.sansRings_bank1 s))
@[simp] theorem State.complete_sleep (s : State) (o : Owed) (status data : Nat) : (s.complete o status data).sleep = s.sleep := 
  (State.sansRings_sleep _).symm.trans ((congrArg State.sleep (State.complete_sansRings s o status data)).trans (State.sansRings_sleep s))
@[simp] theorem State.complete_swap (s : State) (o : Owed) (status data : Nat) : (s.complete o status data).swap = s.swap := 
  (State.sansRings_swap _).symm.trans ((congrArg State.swap (State.complete_sansRings s o status data)).trans (State.sansRings_swap s))
@[simp] theorem State.complete_resetReq (s : State) (o : Owed) (status data : Nat) : (s.complete o status data).resetReq = s.resetReq := 
  (State.sansRings_resetReq _).symm.trans ((congrArg State.resetReq (State.complete_sansRings s o status data)).trans (State.sansRings_resetReq s))
@[simp] theorem State.complete_wakeN (s : State) (o : Owed) (status data : Nat) : (s.complete o status data).wakeN = s.wakeN := 
  (State.sansRings_wakeN _).symm.trans ((congrArg State.wakeN (State.complete_sansRings s o status data)).trans (State.sansRings_wakeN s))
@[simp] theorem State.complete_rails (s : State) (o : Owed) (status data : Nat) : (s.complete o status data).rails = s.rails := 
  (State.sansRings_rails _).symm.trans ((congrArg State.rails (State.complete_sansRings s o status data)).trans (State.sansRings_rails s))
@[simp] theorem State.complete_railF (s : State) (o : Owed) (status data : Nat) : (s.complete o status data).railF = s.railF := 
  (State.sansRings_railF _).symm.trans ((congrArg State.railF (State.complete_sansRings s o status data)).trans (State.sansRings_railF s))
@[simp] theorem State.complete_avsAgain (s : State) (o : Owed) (status data : Nat) : (s.complete o status data).avsAgain = s.avsAgain := 
  (State.sansRings_avsAgain _).symm.trans ((congrArg State.avsAgain (State.complete_sansRings s o status data)).trans (State.sansRings_avsAgain s))
@[simp] theorem State.complete_voutExp (s : State) (o : Owed) (status data : Nat) : (s.complete o status data).voutExp = s.voutExp := 
  (State.sansRings_voutExp _).symm.trans ((congrArg State.voutExp (State.complete_sansRings s o status data)).trans (State.sansRings_voutExp s))
@[simp] theorem State.complete_straps (s : State) (o : Owed) (status data : Nat) : (s.complete o status data).straps = s.straps := 
  (State.sansRings_straps _).symm.trans ((congrArg State.straps (State.complete_sansRings s o status data)).trans (State.sansRings_straps s))
@[simp] theorem State.complete_strm (s : State) (o : Owed) (status data : Nat) (k : Nat) : (s.complete o status data).strm k = s.strm k := 
  (State.sansRings_strm _ k).symm.trans ((congrArg (fun s => State.strm s k) (State.complete_sansRings s o status data)).trans (State.sansRings_strm s k))
@[simp] theorem State.complete_gen (s : State) (o : Owed) (status data : Nat) (k : Nat) : (s.complete o status data).gen k = s.gen k := 
  (State.sansRings_gen _ k).symm.trans ((congrArg (fun s => State.gen s k) (State.complete_sansRings s o status data)).trans (State.sansRings_gen s k))
@[simp] theorem State.complete_feed (s : State) (o : Owed) (status data : Nat) (k : Nat) : (s.complete o status data).feed k = s.feed k := 
  (State.sansRings_feed _ k).symm.trans ((congrArg (fun s => State.feed s k) (State.complete_sansRings s o status data)).trans (State.sansRings_feed s k))
@[simp] theorem State.complete_crew (s : State) (o : Owed) (status data : Nat) (k : Nat) : (s.complete o status data).crew k = s.crew k := 
  (State.sansRings_crew _ k).symm.trans ((congrArg (fun s => State.crew s k) (State.complete_sansRings s o status data)).trans (State.sansRings_crew s k))
@[simp] theorem State.complete_run (s : State) (o : Owed) (status data : Nat) (k : Nat) : (s.complete o status data).run k = s.run k := 
  (State.sansRings_run _ k).symm.trans ((congrArg (fun s => State.run s k) (State.complete_sansRings s o status data)).trans (State.sansRings_run s k))
@[simp] theorem State.complete_tallySrc (s : State) (o : Owed) (status data : Nat) (k : Nat) : (s.complete o status data).tallySrc k = s.tallySrc k := 
  (State.sansRings_tallySrc _ k).symm.trans ((congrArg (fun s => State.tallySrc s k) (State.complete_sansRings s o status data)).trans (State.sansRings_tallySrc s k))
@[simp] theorem State.complete_cp (s : State) (o : Owed) (status data : Nat) (k : Nat) : (s.complete o status data).cp k = s.cp k := 
  (State.sansRings_cp _ k).symm.trans ((congrArg (fun s => State.cp s k) (State.complete_sansRings s o status data)).trans (State.sansRings_cp s k))
@[simp] theorem State.complete_slotPicOf (s : State) (o : Owed) (status data : Nat) (k : Nat) : (s.complete o status data).slotPicOf k = s.slotPicOf k := 
  (State.sansRings_slotPicOf _ k).symm.trans ((congrArg (fun s => State.slotPicOf s k) (State.complete_sansRings s o status data)).trans (State.sansRings_slotPicOf s k))
@[simp] theorem State.complete_window (s : State) (o : Owed) (status data : Nat) (k : Nat) : (s.complete o status data).window k = s.window k := 
  (State.sansRings_window _ k).symm.trans ((congrArg (fun s => State.window s k) (State.complete_sansRings s o status data)).trans (State.sansRings_window s k))
@[simp] theorem State.complete_frames (s : State) (o : Owed) (status data : Nat) (k : Nat) : (s.complete o status data).frames k = s.frames k := 
  (State.sansRings_frames _ k).symm.trans ((congrArg (fun s => State.frames s k) (State.complete_sansRings s o status data)).trans (State.sansRings_frames s k))
@[simp] theorem State.complete_sub (s : State) (o : Owed) (status data : Nat) (k : Nat) : (s.complete o status data).sub k = s.sub k := 
  (State.sansRings_sub _ k).symm.trans ((congrArg (fun s => State.sub s k) (State.complete_sansRings s o status data)).trans (State.sansRings_sub s k))
@[simp] theorem State.complete_stack (s : State) (o : Owed) (status data : Nat) (k : Nat) : (s.complete o status data).stack k = s.stack k := 
  (State.sansRings_stack _ k).symm.trans ((congrArg (fun s => State.stack s k) (State.complete_sansRings s o status data)).trans (State.sansRings_stack s k))
@[simp] theorem State.complete_seq (s : State) (o : Owed) (status data : Nat) (k : Nat) : (s.complete o status data).seq k = s.seq k := 
  (State.sansRings_seq _ k).symm.trans ((congrArg (fun s => State.seq s k) (State.complete_sansRings s o status data)).trans (State.sansRings_seq s k))
@[simp] theorem State.complete_hch (s : State) (o : Owed) (status data : Nat) (k : Nat) : (s.complete o status data).hch k = s.hch k := 
  (State.sansRings_hch _ k).symm.trans ((congrArg (fun s => State.hch s k) (State.complete_sansRings s o status data)).trans (State.sansRings_hch s k))
@[simp] theorem State.complete_qp (s : State) (o : Owed) (status data : Nat) (k : Nat) : (s.complete o status data).qp k = s.qp k := 
  (State.sansRings_qp _ k).symm.trans ((congrArg (fun s => State.qp s k) (State.complete_sansRings s o status data)).trans (State.sansRings_qp s k))

/-! ### settle -/

@[simp] theorem State.settle_pending (s : State) (w : Await) (status data : Nat) : (s.settle w status data).pending = s.pending := 
  (State.sansRings_pending _).symm.trans ((congrArg State.pending (State.settle_sansRings s w status data)).trans (State.sansRings_pending s))
@[simp] theorem State.settle_part (s : State) (w : Await) (status data : Nat) : (s.settle w status data).part = s.part := 
  (State.sansRings_part _).symm.trans ((congrArg State.part (State.settle_sansRings s w status data)).trans (State.sansRings_part s))
@[simp] theorem State.settle_rst (s : State) (w : Await) (status data : Nat) : (s.settle w status data).rst = s.rst := 
  (State.sansRings_rst _).symm.trans ((congrArg State.rst (State.settle_sansRings s w status data)).trans (State.sansRings_rst s))
@[simp] theorem State.settle_now (s : State) (w : Await) (status data : Nat) : (s.settle w status data).now = s.now := 
  (State.sansRings_now _).symm.trans ((congrArg State.now (State.settle_sansRings s w status data)).trans (State.sansRings_now s))
@[simp] theorem State.settle_prev (s : State) (w : Await) (status data : Nat) : (s.settle w status data).prev = s.prev := 
  (State.sansRings_prev _).symm.trans ((congrArg State.prev (State.settle_sansRings s w status data)).trans (State.sansRings_prev s))
@[simp] theorem State.settle_cyc (s : State) (w : Await) (status data : Nat) : (s.settle w status data).cyc = s.cyc := 
  (State.sansRings_cyc _).symm.trans ((congrArg State.cyc (State.settle_sansRings s w status data)).trans (State.sansRings_cyc s))
@[simp] theorem State.settle_fired (s : State) (w : Await) (status data : Nat) : (s.settle w status data).fired = s.fired := 
  (State.sansRings_fired _).symm.trans ((congrArg State.fired (State.settle_sansRings s w status data)).trans (State.sansRings_fired s))
@[simp] theorem State.settle_freed (s : State) (w : Await) (status data : Nat) : (s.settle w status data).freed = s.freed := 
  (State.sansRings_freed _).symm.trans ((congrArg State.freed (State.settle_sansRings s w status data)).trans (State.sansRings_freed s))
@[simp] theorem State.settle_waitDue (s : State) (w : Await) (status data : Nat) : (s.settle w status data).waitDue = s.waitDue := 
  (State.sansRings_waitDue _).symm.trans ((congrArg State.waitDue (State.settle_sansRings s w status data)).trans (State.sansRings_waitDue s))
@[simp] theorem State.settle_turns (s : State) (w : Await) (status data : Nat) : (s.settle w status data).turns = s.turns := 
  (State.sansRings_turns _).symm.trans ((congrArg State.turns (State.settle_sansRings s w status data)).trans (State.sansRings_turns s))
@[simp] theorem State.settle_rate (s : State) (w : Await) (status data : Nat) : (s.settle w status data).rate = s.rate := 
  (State.sansRings_rate _).symm.trans ((congrArg State.rate (State.settle_sansRings s w status data)).trans (State.sansRings_rate s))
@[simp] theorem State.settle_ppsNs (s : State) (w : Await) (status data : Nat) : (s.settle w status data).ppsNs = s.ppsNs := 
  (State.sansRings_ppsNs _).symm.trans ((congrArg State.ppsNs (State.settle_sansRings s w status data)).trans (State.sansRings_ppsNs s))
@[simp] theorem State.settle_ppsHigh (s : State) (w : Await) (status data : Nat) : (s.settle w status data).ppsHigh = s.ppsHigh := 
  (State.sansRings_ppsHigh _).symm.trans ((congrArg State.ppsHigh (State.settle_sansRings s w status data)).trans (State.sansRings_ppsHigh s))
@[simp] theorem State.settle_relock (s : State) (w : Await) (status data : Nat) : (s.settle w status data).relock = s.relock := 
  (State.sansRings_relock _).symm.trans ((congrArg State.relock (State.settle_sansRings s w status data)).trans (State.sansRings_relock s))
@[simp] theorem State.settle_gens (s : State) (w : Await) (status data : Nat) : (s.settle w status data).gens = s.gens := 
  (State.sansRings_gens _).symm.trans ((congrArg State.gens (State.settle_sansRings s w status data)).trans (State.sansRings_gens s))
@[simp] theorem State.settle_freeCtr (s : State) (w : Await) (status data : Nat) : (s.settle w status data).freeCtr = s.freeCtr := 
  (State.sansRings_freeCtr _).symm.trans ((congrArg State.freeCtr (State.settle_sansRings s w status data)).trans (State.sansRings_freeCtr s))
@[simp] theorem State.settle_tsrc (s : State) (w : Await) (status data : Nat) : (s.settle w status data).tsrc = s.tsrc := 
  (State.sansRings_tsrc _).symm.trans ((congrArg State.tsrc (State.settle_sansRings s w status data)).trans (State.sansRings_tsrc s))
@[simp] theorem State.settle_twin (s : State) (w : Await) (status data : Nat) : (s.settle w status data).twin = s.twin := 
  (State.sansRings_twin _).symm.trans ((congrArg State.twin (State.settle_sansRings s w status data)).trans (State.sansRings_twin s))
@[simp] theorem State.settle_gath (s : State) (w : Await) (status data : Nat) : (s.settle w status data).gath = s.gath := 
  (State.sansRings_gath _).symm.trans ((congrArg State.gath (State.settle_sansRings s w status data)).trans (State.sansRings_gath s))
@[simp] theorem State.settle_claimed (s : State) (w : Await) (status data : Nat) : (s.settle w status data).claimed = s.claimed := 
  (State.sansRings_claimed _).symm.trans ((congrArg State.claimed (State.settle_sansRings s w status data)).trans (State.sansRings_claimed s))
@[simp] theorem State.settle_tgtDef (s : State) (w : Await) (status data : Nat) : (s.settle w status data).tgtDef = s.tgtDef := 
  (State.sansRings_tgtDef _).symm.trans ((congrArg State.tgtDef (State.settle_sansRings s w status data)).trans (State.sansRings_tgtDef s))
@[simp] theorem State.settle_holdOff (s : State) (w : Await) (status data : Nat) : (s.settle w status data).holdOff = s.holdOff := 
  (State.sansRings_holdOff _).symm.trans ((congrArg State.holdOff (State.settle_sansRings s w status data)).trans (State.sansRings_holdOff s))
@[simp] theorem State.settle_pins (s : State) (w : Await) (status data : Nat) : (s.settle w status data).pins = s.pins := 
  (State.sansRings_pins _).symm.trans ((congrArg State.pins (State.settle_sansRings s w status data)).trans (State.sansRings_pins s))
@[simp] theorem State.settle_looked (s : State) (w : Await) (status data : Nat) : (s.settle w status data).looked = s.looked := 
  (State.sansRings_looked _).symm.trans ((congrArg State.looked (State.settle_sansRings s w status data)).trans (State.sansRings_looked s))
@[simp] theorem State.settle_preempt (s : State) (w : Await) (status data : Nat) : (s.settle w status data).preempt = s.preempt := 
  (State.sansRings_preempt _).symm.trans ((congrArg State.preempt (State.settle_sansRings s w status data)).trans (State.sansRings_preempt s))
@[simp] theorem State.settle_lifted (s : State) (w : Await) (status data : Nat) : (s.settle w status data).lifted = s.lifted := 
  (State.sansRings_lifted _).symm.trans ((congrArg State.lifted (State.settle_sansRings s w status data)).trans (State.sansRings_lifted s))
@[simp] theorem State.settle_streams (s : State) (w : Await) (status data : Nat) : (s.settle w status data).streams = s.streams := 
  (State.sansRings_streams _).symm.trans ((congrArg State.streams (State.settle_sansRings s w status data)).trans (State.sansRings_streams s))
@[simp] theorem State.settle_feeds (s : State) (w : Await) (status data : Nat) : (s.settle w status data).feeds = s.feeds := 
  (State.sansRings_feeds _).symm.trans ((congrArg State.feeds (State.settle_sansRings s w status data)).trans (State.sansRings_feeds s))
@[simp] theorem State.settle_crews (s : State) (w : Await) (status data : Nat) : (s.settle w status data).crews = s.crews := 
  (State.sansRings_crews _).symm.trans ((congrArg State.crews (State.settle_sansRings s w status data)).trans (State.sansRings_crews s))
@[simp] theorem State.settle_runs (s : State) (w : Await) (status data : Nat) : (s.settle w status data).runs = s.runs := 
  (State.sansRings_runs _).symm.trans ((congrArg State.runs (State.settle_sansRings s w status data)).trans (State.sansRings_runs s))
@[simp] theorem State.settle_ended (s : State) (w : Await) (status data : Nat) : (s.settle w status data).ended = s.ended := 
  (State.sansRings_ended _).symm.trans ((congrArg State.ended (State.settle_sansRings s w status data)).trans (State.sansRings_ended s))
@[simp] theorem State.settle_seqs (s : State) (w : Await) (status data : Nat) : (s.settle w status data).seqs = s.seqs := 
  (State.sansRings_seqs _).symm.trans ((congrArg State.seqs (State.settle_sansRings s w status data)).trans (State.sansRings_seqs s))
@[simp] theorem State.settle_therm (s : State) (w : Await) (status data : Nat) : (s.settle w status data).therm = s.therm := 
  (State.sansRings_therm _).symm.trans ((congrArg State.therm (State.settle_sansRings s w status data)).trans (State.sansRings_therm s))
@[simp] theorem State.settle_progs (s : State) (w : Await) (status data : Nat) : (s.settle w status data).progs = s.progs := 
  (State.sansRings_progs _).symm.trans ((congrArg State.progs (State.settle_sansRings s w status data)).trans (State.sansRings_progs s))
@[simp] theorem State.settle_scache (s : State) (w : Await) (status data : Nat) : (s.settle w status data).scache = s.scache := 
  (State.sansRings_scache _).symm.trans ((congrArg State.scache (State.settle_sansRings s w status data)).trans (State.sansRings_scache s))
@[simp] theorem State.settle_slotPic (s : State) (w : Await) (status data : Nat) : (s.settle w status data).slotPic = s.slotPic := 
  (State.sansRings_slotPic _).symm.trans ((congrArg State.slotPic (State.settle_sansRings s w status data)).trans (State.sansRings_slotPic s))
@[simp] theorem State.settle_slotSz (s : State) (w : Await) (status data : Nat) : (s.settle w status data).slotSz = s.slotSz := 
  (State.sansRings_slotSz _).symm.trans ((congrArg State.slotSz (State.settle_sansRings s w status data)).trans (State.sansRings_slotSz s))
@[simp] theorem State.settle_slotNref (s : State) (w : Await) (status data : Nat) : (s.settle w status data).slotNref = s.slotNref := 
  (State.sansRings_slotNref _).symm.trans ((congrArg State.slotNref (State.settle_sansRings s w status data)).trans (State.sansRings_slotNref s))
@[simp] theorem State.settle_slotC (s : State) (w : Await) (status data : Nat) : (s.settle w status data).slotC = s.slotC := 
  (State.sansRings_slotC _).symm.trans ((congrArg State.slotC (State.settle_sansRings s w status data)).trans (State.sansRings_slotC s))
@[simp] theorem State.settle_retPend (s : State) (w : Await) (status data : Nat) : (s.settle w status data).retPend = s.retPend := 
  (State.sansRings_retPend _).symm.trans ((congrArg State.retPend (State.settle_sansRings s w status data)).trans (State.sansRings_retPend s))
@[simp] theorem State.settle_egr (s : State) (w : Await) (status data : Nat) : (s.settle w status data).egr = s.egr := 
  (State.sansRings_egr _).symm.trans ((congrArg State.egr (State.settle_sansRings s w status data)).trans (State.sansRings_egr s))
@[simp] theorem State.settle_txFree (s : State) (w : Await) (status data : Nat) : (s.settle w status data).txFree = s.txFree := 
  (State.sansRings_txFree _).symm.trans ((congrArg State.txFree (State.settle_sansRings s w status data)).trans (State.sansRings_txFree s))
@[simp] theorem State.settle_frameNo (s : State) (w : Await) (status data : Nat) : (s.settle w status data).frameNo = s.frameNo := 
  (State.sansRings_frameNo _).symm.trans ((congrArg State.frameNo (State.settle_sansRings s w status data)).trans (State.sansRings_frameNo s))
@[simp] theorem State.settle_rtpSeq (s : State) (w : Await) (status data : Nat) : (s.settle w status data).rtpSeq = s.rtpSeq := 
  (State.sansRings_rtpSeq _).symm.trans ((congrArg State.rtpSeq (State.settle_sansRings s w status data)).trans (State.sansRings_rtpSeq s))
@[simp] theorem State.settle_subs (s : State) (w : Await) (status data : Nat) : (s.settle w status data).subs = s.subs := 
  (State.sansRings_subs _).symm.trans ((congrArg State.subs (State.settle_sansRings s w status data)).trans (State.sansRings_subs s))
@[simp] theorem State.settle_shapers (s : State) (w : Await) (status data : Nat) : (s.settle w status data).shapers = s.shapers := 
  (State.sansRings_shapers _).symm.trans ((congrArg State.shapers (State.settle_sansRings s w status data)).trans (State.sansRings_shapers s))
@[simp] theorem State.settle_gates (s : State) (w : Await) (status data : Nat) : (s.settle w status data).gates = s.gates := 
  (State.sansRings_gates _).symm.trans ((congrArg State.gates (State.settle_sansRings s w status data)).trans (State.sansRings_gates s))
@[simp] theorem State.settle_ptpRx (s : State) (w : Await) (status data : Nat) : (s.settle w status data).ptpRx = s.ptpRx := 
  (State.sansRings_ptpRx _).symm.trans ((congrArg State.ptpRx (State.settle_sansRings s w status data)).trans (State.sansRings_ptpRx s))
@[simp] theorem State.settle_tsb (s : State) (w : Await) (status data : Nat) : (s.settle w status data).tsb = s.tsb := 
  (State.sansRings_tsb _).symm.trans ((congrArg State.tsb (State.settle_sansRings s w status data)).trans (State.sansRings_tsb s))
@[simp] theorem State.settle_ptpServo (s : State) (w : Await) (status data : Nat) : (s.settle w status data).ptpServo = s.ptpServo := 
  (State.sansRings_ptpServo _).symm.trans ((congrArg State.ptpServo (State.settle_sansRings s w status data)).trans (State.sansRings_ptpServo s))
@[simp] theorem State.settle_mem (s : State) (w : Await) (status data : Nat) : (s.settle w status data).mem = s.mem := 
  (State.sansRings_mem _).symm.trans ((congrArg State.mem (State.settle_sansRings s w status data)).trans (State.sansRings_mem s))
@[simp] theorem State.settle_injRecs (s : State) (w : Await) (status data : Nat) : (s.settle w status data).injRecs = s.injRecs := 
  (State.sansRings_injRecs _).symm.trans ((congrArg State.injRecs (State.settle_sansRings s w status data)).trans (State.sansRings_injRecs s))
@[simp] theorem State.settle_filled (s : State) (w : Await) (status data : Nat) : (s.settle w status data).filled = s.filled := 
  (State.sansRings_filled _).symm.trans ((congrArg State.filled (State.settle_sansRings s w status data)).trans (State.sansRings_filled s))
@[simp] theorem State.settle_images (s : State) (w : Await) (status data : Nat) : (s.settle w status data).images = s.images := 
  (State.sansRings_images _).symm.trans ((congrArg State.images (State.settle_sansRings s w status data)).trans (State.sansRings_images s))
@[simp] theorem State.settle_chkLeft (s : State) (w : Await) (status data : Nat) : (s.settle w status data).chkLeft = s.chkLeft := 
  (State.sansRings_chkLeft _).symm.trans ((congrArg State.chkLeft (State.settle_sansRings s w status data)).trans (State.sansRings_chkLeft s))
@[simp] theorem State.settle_badRows (s : State) (w : Await) (status data : Nat) : (s.settle w status data).badRows = s.badRows := 
  (State.sansRings_badRows _).symm.trans ((congrArg State.badRows (State.settle_sansRings s w status data)).trans (State.sansRings_badRows s))
@[simp] theorem State.settle_lost (s : State) (w : Await) (status data : Nat) : (s.settle w status data).lost = s.lost := 
  (State.sansRings_lost _).symm.trans ((congrArg State.lost (State.settle_sansRings s w status data)).trans (State.sansRings_lost s))
@[simp] theorem State.settle_celCe (s : State) (w : Await) (status data : Nat) : (s.settle w status data).celCe = s.celCe := 
  (State.sansRings_celCe _).symm.trans ((congrArg State.celCe (State.settle_sansRings s w status data)).trans (State.sansRings_celCe s))
@[simp] theorem State.settle_celDly (s : State) (w : Await) (status data : Nat) : (s.settle w status data).celDly = s.celDly := 
  (State.sansRings_celDly _).symm.trans ((congrArg State.celDly (State.settle_sansRings s w status data)).trans (State.sansRings_celDly s))
@[simp] theorem State.settle_celVref (s : State) (w : Await) (status data : Nat) : (s.settle w status data).celVref = s.celVref := 
  (State.sansRings_celVref _).symm.trans ((congrArg State.celVref (State.settle_sansRings s w status data)).trans (State.sansRings_celVref s))
@[simp] theorem State.settle_pcs (s : State) (w : Await) (status data : Nat) : (s.settle w status data).pcs = s.pcs := 
  (State.sansRings_pcs _).symm.trans ((congrArg State.pcs (State.settle_sansRings s w status data)).trans (State.sansRings_pcs s))
@[simp] theorem State.settle_stackTab (s : State) (w : Await) (status data : Nat) : (s.settle w status data).stackTab = s.stackTab := 
  (State.sansRings_stackTab _).symm.trans ((congrArg State.stackTab (State.settle_sansRings s w status data)).trans (State.sansRings_stackTab s))
@[simp] theorem State.settle_ldrCol (s : State) (w : Await) (status data : Nat) : (s.settle w status data).ldrCol = s.ldrCol := 
  (State.sansRings_ldrCol _).symm.trans ((congrArg State.ldrCol (State.settle_sansRings s w status data)).trans (State.sansRings_ldrCol s))
@[simp] theorem State.settle_training (s : State) (w : Await) (status data : Nat) : (s.settle w status data).training = s.training := 
  (State.sansRings_training _).symm.trans ((congrArg State.training (State.settle_sansRings s w status data)).trans (State.sansRings_training s))
@[simp] theorem State.settle_adapting (s : State) (w : Await) (status data : Nat) : (s.settle w status data).adapting = s.adapting := 
  (State.sansRings_adapting _).symm.trans ((congrArg State.adapting (State.settle_sansRings s w status data)).trans (State.sansRings_adapting s))
@[simp] theorem State.settle_laneSet (s : State) (w : Await) (status data : Nat) : (s.settle w status data).laneSet = s.laneSet := 
  (State.sansRings_laneSet _).symm.trans ((congrArg State.laneSet (State.settle_sansRings s w status data)).trans (State.sansRings_laneSet s))
@[simp] theorem State.settle_blFrom (s : State) (w : Await) (status data : Nat) : (s.settle w status data).blFrom = s.blFrom := 
  (State.sansRings_blFrom _).symm.trans ((congrArg State.blFrom (State.settle_sansRings s w status data)).trans (State.sansRings_blFrom s))
@[simp] theorem State.settle_qps (s : State) (w : Await) (status data : Nat) : (s.settle w status data).qps = s.qps := 
  (State.sansRings_qps _).symm.trans ((congrArg State.qps (State.settle_sansRings s w status data)).trans (State.sansRings_qps s))
@[simp] theorem State.settle_hchs (s : State) (w : Await) (status data : Nat) : (s.settle w status data).hchs = s.hchs := 
  (State.sansRings_hchs _).symm.trans ((congrArg State.hchs (State.settle_sansRings s w status data)).trans (State.sansRings_hchs s))
@[simp] theorem State.settle_hgrant (s : State) (w : Await) (status data : Nat) : (s.settle w status data).hgrant = s.hgrant := 
  (State.sansRings_hgrant _).symm.trans ((congrArg State.hgrant (State.settle_sansRings s w status data)).trans (State.sansRings_hgrant s))
@[simp] theorem State.settle_ptpPos (s : State) (w : Await) (status data : Nat) : (s.settle w status data).ptpPos = s.ptpPos := 
  (State.sansRings_ptpPos _).symm.trans ((congrArg State.ptpPos (State.settle_sansRings s w status data)).trans (State.sansRings_ptpPos s))
@[simp] theorem State.settle_cps (s : State) (w : Await) (status data : Nat) : (s.settle w status data).cps = s.cps := 
  (State.sansRings_cps _).symm.trans ((congrArg State.cps (State.settle_sansRings s w status data)).trans (State.sansRings_cps s))
@[simp] theorem State.settle_push (s : State) (w : Await) (status data : Nat) : (s.settle w status data).push = s.push := 
  (State.sansRings_push _).symm.trans ((congrArg State.push (State.settle_sansRings s w status data)).trans (State.sansRings_push s))
@[simp] theorem State.settle_bank0 (s : State) (w : Await) (status data : Nat) : (s.settle w status data).bank0 = s.bank0 := 
  (State.sansRings_bank0 _).symm.trans ((congrArg State.bank0 (State.settle_sansRings s w status data)).trans (State.sansRings_bank0 s))
@[simp] theorem State.settle_bank1 (s : State) (w : Await) (status data : Nat) : (s.settle w status data).bank1 = s.bank1 := 
  (State.sansRings_bank1 _).symm.trans ((congrArg State.bank1 (State.settle_sansRings s w status data)).trans (State.sansRings_bank1 s))
@[simp] theorem State.settle_sleep (s : State) (w : Await) (status data : Nat) : (s.settle w status data).sleep = s.sleep := 
  (State.sansRings_sleep _).symm.trans ((congrArg State.sleep (State.settle_sansRings s w status data)).trans (State.sansRings_sleep s))
@[simp] theorem State.settle_swap (s : State) (w : Await) (status data : Nat) : (s.settle w status data).swap = s.swap := 
  (State.sansRings_swap _).symm.trans ((congrArg State.swap (State.settle_sansRings s w status data)).trans (State.sansRings_swap s))
@[simp] theorem State.settle_resetReq (s : State) (w : Await) (status data : Nat) : (s.settle w status data).resetReq = s.resetReq := 
  (State.sansRings_resetReq _).symm.trans ((congrArg State.resetReq (State.settle_sansRings s w status data)).trans (State.sansRings_resetReq s))
@[simp] theorem State.settle_wakeN (s : State) (w : Await) (status data : Nat) : (s.settle w status data).wakeN = s.wakeN := 
  (State.sansRings_wakeN _).symm.trans ((congrArg State.wakeN (State.settle_sansRings s w status data)).trans (State.sansRings_wakeN s))
@[simp] theorem State.settle_rails (s : State) (w : Await) (status data : Nat) : (s.settle w status data).rails = s.rails := 
  (State.sansRings_rails _).symm.trans ((congrArg State.rails (State.settle_sansRings s w status data)).trans (State.sansRings_rails s))
@[simp] theorem State.settle_railF (s : State) (w : Await) (status data : Nat) : (s.settle w status data).railF = s.railF := 
  (State.sansRings_railF _).symm.trans ((congrArg State.railF (State.settle_sansRings s w status data)).trans (State.sansRings_railF s))
@[simp] theorem State.settle_avsAgain (s : State) (w : Await) (status data : Nat) : (s.settle w status data).avsAgain = s.avsAgain := 
  (State.sansRings_avsAgain _).symm.trans ((congrArg State.avsAgain (State.settle_sansRings s w status data)).trans (State.sansRings_avsAgain s))
@[simp] theorem State.settle_voutExp (s : State) (w : Await) (status data : Nat) : (s.settle w status data).voutExp = s.voutExp := 
  (State.sansRings_voutExp _).symm.trans ((congrArg State.voutExp (State.settle_sansRings s w status data)).trans (State.sansRings_voutExp s))
@[simp] theorem State.settle_straps (s : State) (w : Await) (status data : Nat) : (s.settle w status data).straps = s.straps := 
  (State.sansRings_straps _).symm.trans ((congrArg State.straps (State.settle_sansRings s w status data)).trans (State.sansRings_straps s))
@[simp] theorem State.settle_strm (s : State) (w : Await) (status data : Nat) (k : Nat) : (s.settle w status data).strm k = s.strm k := 
  (State.sansRings_strm _ k).symm.trans ((congrArg (fun s => State.strm s k) (State.settle_sansRings s w status data)).trans (State.sansRings_strm s k))
@[simp] theorem State.settle_gen (s : State) (w : Await) (status data : Nat) (k : Nat) : (s.settle w status data).gen k = s.gen k := 
  (State.sansRings_gen _ k).symm.trans ((congrArg (fun s => State.gen s k) (State.settle_sansRings s w status data)).trans (State.sansRings_gen s k))
@[simp] theorem State.settle_feed (s : State) (w : Await) (status data : Nat) (k : Nat) : (s.settle w status data).feed k = s.feed k := 
  (State.sansRings_feed _ k).symm.trans ((congrArg (fun s => State.feed s k) (State.settle_sansRings s w status data)).trans (State.sansRings_feed s k))
@[simp] theorem State.settle_crew (s : State) (w : Await) (status data : Nat) (k : Nat) : (s.settle w status data).crew k = s.crew k := 
  (State.sansRings_crew _ k).symm.trans ((congrArg (fun s => State.crew s k) (State.settle_sansRings s w status data)).trans (State.sansRings_crew s k))
@[simp] theorem State.settle_run (s : State) (w : Await) (status data : Nat) (k : Nat) : (s.settle w status data).run k = s.run k := 
  (State.sansRings_run _ k).symm.trans ((congrArg (fun s => State.run s k) (State.settle_sansRings s w status data)).trans (State.sansRings_run s k))
@[simp] theorem State.settle_tallySrc (s : State) (w : Await) (status data : Nat) (k : Nat) : (s.settle w status data).tallySrc k = s.tallySrc k := 
  (State.sansRings_tallySrc _ k).symm.trans ((congrArg (fun s => State.tallySrc s k) (State.settle_sansRings s w status data)).trans (State.sansRings_tallySrc s k))
@[simp] theorem State.settle_cp (s : State) (w : Await) (status data : Nat) (k : Nat) : (s.settle w status data).cp k = s.cp k := 
  (State.sansRings_cp _ k).symm.trans ((congrArg (fun s => State.cp s k) (State.settle_sansRings s w status data)).trans (State.sansRings_cp s k))
@[simp] theorem State.settle_slotPicOf (s : State) (w : Await) (status data : Nat) (k : Nat) : (s.settle w status data).slotPicOf k = s.slotPicOf k := 
  (State.sansRings_slotPicOf _ k).symm.trans ((congrArg (fun s => State.slotPicOf s k) (State.settle_sansRings s w status data)).trans (State.sansRings_slotPicOf s k))
@[simp] theorem State.settle_window (s : State) (w : Await) (status data : Nat) (k : Nat) : (s.settle w status data).window k = s.window k := 
  (State.sansRings_window _ k).symm.trans ((congrArg (fun s => State.window s k) (State.settle_sansRings s w status data)).trans (State.sansRings_window s k))
@[simp] theorem State.settle_frames (s : State) (w : Await) (status data : Nat) (k : Nat) : (s.settle w status data).frames k = s.frames k := 
  (State.sansRings_frames _ k).symm.trans ((congrArg (fun s => State.frames s k) (State.settle_sansRings s w status data)).trans (State.sansRings_frames s k))
@[simp] theorem State.settle_sub (s : State) (w : Await) (status data : Nat) (k : Nat) : (s.settle w status data).sub k = s.sub k := 
  (State.sansRings_sub _ k).symm.trans ((congrArg (fun s => State.sub s k) (State.settle_sansRings s w status data)).trans (State.sansRings_sub s k))
@[simp] theorem State.settle_stack (s : State) (w : Await) (status data : Nat) (k : Nat) : (s.settle w status data).stack k = s.stack k := 
  (State.sansRings_stack _ k).symm.trans ((congrArg (fun s => State.stack s k) (State.settle_sansRings s w status data)).trans (State.sansRings_stack s k))
@[simp] theorem State.settle_seq (s : State) (w : Await) (status data : Nat) (k : Nat) : (s.settle w status data).seq k = s.seq k := 
  (State.sansRings_seq _ k).symm.trans ((congrArg (fun s => State.seq s k) (State.settle_sansRings s w status data)).trans (State.sansRings_seq s k))
@[simp] theorem State.settle_hch (s : State) (w : Await) (status data : Nat) (k : Nat) : (s.settle w status data).hch k = s.hch k := 
  (State.sansRings_hch _ k).symm.trans ((congrArg (fun s => State.hch s k) (State.settle_sansRings s w status data)).trans (State.sansRings_hch s k))
@[simp] theorem State.settle_qp (s : State) (w : Await) (status data : Nat) (k : Nat) : (s.settle w status data).qp k = s.qp k := 
  (State.sansRings_qp _ k).symm.trans ((congrArg (fun s => State.qp s k) (State.settle_sansRings s w status data)).trans (State.sansRings_qp s k))

/-! ### takeFetched -/

@[simp] theorem State.takeFetched_pending (s : State) (c : Cmd) : (s.takeFetched c).pending = s.pending := 
  (State.sansRings_pending _).symm.trans ((congrArg State.pending (State.takeFetched_sansRings s c)).trans (State.sansRings_pending s))
@[simp] theorem State.takeFetched_part (s : State) (c : Cmd) : (s.takeFetched c).part = s.part := 
  (State.sansRings_part _).symm.trans ((congrArg State.part (State.takeFetched_sansRings s c)).trans (State.sansRings_part s))
@[simp] theorem State.takeFetched_rst (s : State) (c : Cmd) : (s.takeFetched c).rst = s.rst := 
  (State.sansRings_rst _).symm.trans ((congrArg State.rst (State.takeFetched_sansRings s c)).trans (State.sansRings_rst s))
@[simp] theorem State.takeFetched_now (s : State) (c : Cmd) : (s.takeFetched c).now = s.now := 
  (State.sansRings_now _).symm.trans ((congrArg State.now (State.takeFetched_sansRings s c)).trans (State.sansRings_now s))
@[simp] theorem State.takeFetched_prev (s : State) (c : Cmd) : (s.takeFetched c).prev = s.prev := 
  (State.sansRings_prev _).symm.trans ((congrArg State.prev (State.takeFetched_sansRings s c)).trans (State.sansRings_prev s))
@[simp] theorem State.takeFetched_cyc (s : State) (c : Cmd) : (s.takeFetched c).cyc = s.cyc := 
  (State.sansRings_cyc _).symm.trans ((congrArg State.cyc (State.takeFetched_sansRings s c)).trans (State.sansRings_cyc s))
@[simp] theorem State.takeFetched_fired (s : State) (c : Cmd) : (s.takeFetched c).fired = s.fired := 
  (State.sansRings_fired _).symm.trans ((congrArg State.fired (State.takeFetched_sansRings s c)).trans (State.sansRings_fired s))
@[simp] theorem State.takeFetched_freed (s : State) (c : Cmd) : (s.takeFetched c).freed = s.freed := 
  (State.sansRings_freed _).symm.trans ((congrArg State.freed (State.takeFetched_sansRings s c)).trans (State.sansRings_freed s))
@[simp] theorem State.takeFetched_waitDue (s : State) (c : Cmd) : (s.takeFetched c).waitDue = s.waitDue := 
  (State.sansRings_waitDue _).symm.trans ((congrArg State.waitDue (State.takeFetched_sansRings s c)).trans (State.sansRings_waitDue s))
@[simp] theorem State.takeFetched_turns (s : State) (c : Cmd) : (s.takeFetched c).turns = s.turns := 
  (State.sansRings_turns _).symm.trans ((congrArg State.turns (State.takeFetched_sansRings s c)).trans (State.sansRings_turns s))
@[simp] theorem State.takeFetched_rate (s : State) (c : Cmd) : (s.takeFetched c).rate = s.rate := 
  (State.sansRings_rate _).symm.trans ((congrArg State.rate (State.takeFetched_sansRings s c)).trans (State.sansRings_rate s))
@[simp] theorem State.takeFetched_ppsNs (s : State) (c : Cmd) : (s.takeFetched c).ppsNs = s.ppsNs := 
  (State.sansRings_ppsNs _).symm.trans ((congrArg State.ppsNs (State.takeFetched_sansRings s c)).trans (State.sansRings_ppsNs s))
@[simp] theorem State.takeFetched_ppsHigh (s : State) (c : Cmd) : (s.takeFetched c).ppsHigh = s.ppsHigh := 
  (State.sansRings_ppsHigh _).symm.trans ((congrArg State.ppsHigh (State.takeFetched_sansRings s c)).trans (State.sansRings_ppsHigh s))
@[simp] theorem State.takeFetched_relock (s : State) (c : Cmd) : (s.takeFetched c).relock = s.relock := 
  (State.sansRings_relock _).symm.trans ((congrArg State.relock (State.takeFetched_sansRings s c)).trans (State.sansRings_relock s))
@[simp] theorem State.takeFetched_gens (s : State) (c : Cmd) : (s.takeFetched c).gens = s.gens := 
  (State.sansRings_gens _).symm.trans ((congrArg State.gens (State.takeFetched_sansRings s c)).trans (State.sansRings_gens s))
@[simp] theorem State.takeFetched_freeCtr (s : State) (c : Cmd) : (s.takeFetched c).freeCtr = s.freeCtr := 
  (State.sansRings_freeCtr _).symm.trans ((congrArg State.freeCtr (State.takeFetched_sansRings s c)).trans (State.sansRings_freeCtr s))
@[simp] theorem State.takeFetched_tsrc (s : State) (c : Cmd) : (s.takeFetched c).tsrc = s.tsrc := 
  (State.sansRings_tsrc _).symm.trans ((congrArg State.tsrc (State.takeFetched_sansRings s c)).trans (State.sansRings_tsrc s))
@[simp] theorem State.takeFetched_twin (s : State) (c : Cmd) : (s.takeFetched c).twin = s.twin := 
  (State.sansRings_twin _).symm.trans ((congrArg State.twin (State.takeFetched_sansRings s c)).trans (State.sansRings_twin s))
@[simp] theorem State.takeFetched_gath (s : State) (c : Cmd) : (s.takeFetched c).gath = s.gath := 
  (State.sansRings_gath _).symm.trans ((congrArg State.gath (State.takeFetched_sansRings s c)).trans (State.sansRings_gath s))
@[simp] theorem State.takeFetched_claimed (s : State) (c : Cmd) : (s.takeFetched c).claimed = s.claimed := 
  (State.sansRings_claimed _).symm.trans ((congrArg State.claimed (State.takeFetched_sansRings s c)).trans (State.sansRings_claimed s))
@[simp] theorem State.takeFetched_tgtDef (s : State) (c : Cmd) : (s.takeFetched c).tgtDef = s.tgtDef := 
  (State.sansRings_tgtDef _).symm.trans ((congrArg State.tgtDef (State.takeFetched_sansRings s c)).trans (State.sansRings_tgtDef s))
@[simp] theorem State.takeFetched_holdOff (s : State) (c : Cmd) : (s.takeFetched c).holdOff = s.holdOff := 
  (State.sansRings_holdOff _).symm.trans ((congrArg State.holdOff (State.takeFetched_sansRings s c)).trans (State.sansRings_holdOff s))
@[simp] theorem State.takeFetched_pins (s : State) (c : Cmd) : (s.takeFetched c).pins = s.pins := 
  (State.sansRings_pins _).symm.trans ((congrArg State.pins (State.takeFetched_sansRings s c)).trans (State.sansRings_pins s))
@[simp] theorem State.takeFetched_looked (s : State) (c : Cmd) : (s.takeFetched c).looked = s.looked := 
  (State.sansRings_looked _).symm.trans ((congrArg State.looked (State.takeFetched_sansRings s c)).trans (State.sansRings_looked s))
@[simp] theorem State.takeFetched_preempt (s : State) (c : Cmd) : (s.takeFetched c).preempt = s.preempt := 
  (State.sansRings_preempt _).symm.trans ((congrArg State.preempt (State.takeFetched_sansRings s c)).trans (State.sansRings_preempt s))
@[simp] theorem State.takeFetched_lifted (s : State) (c : Cmd) : (s.takeFetched c).lifted = s.lifted := 
  (State.sansRings_lifted _).symm.trans ((congrArg State.lifted (State.takeFetched_sansRings s c)).trans (State.sansRings_lifted s))
@[simp] theorem State.takeFetched_streams (s : State) (c : Cmd) : (s.takeFetched c).streams = s.streams := 
  (State.sansRings_streams _).symm.trans ((congrArg State.streams (State.takeFetched_sansRings s c)).trans (State.sansRings_streams s))
@[simp] theorem State.takeFetched_feeds (s : State) (c : Cmd) : (s.takeFetched c).feeds = s.feeds := 
  (State.sansRings_feeds _).symm.trans ((congrArg State.feeds (State.takeFetched_sansRings s c)).trans (State.sansRings_feeds s))
@[simp] theorem State.takeFetched_crews (s : State) (c : Cmd) : (s.takeFetched c).crews = s.crews := 
  (State.sansRings_crews _).symm.trans ((congrArg State.crews (State.takeFetched_sansRings s c)).trans (State.sansRings_crews s))
@[simp] theorem State.takeFetched_runs (s : State) (c : Cmd) : (s.takeFetched c).runs = s.runs := 
  (State.sansRings_runs _).symm.trans ((congrArg State.runs (State.takeFetched_sansRings s c)).trans (State.sansRings_runs s))
@[simp] theorem State.takeFetched_ended (s : State) (c : Cmd) : (s.takeFetched c).ended = s.ended := 
  (State.sansRings_ended _).symm.trans ((congrArg State.ended (State.takeFetched_sansRings s c)).trans (State.sansRings_ended s))
@[simp] theorem State.takeFetched_seqs (s : State) (c : Cmd) : (s.takeFetched c).seqs = s.seqs := 
  (State.sansRings_seqs _).symm.trans ((congrArg State.seqs (State.takeFetched_sansRings s c)).trans (State.sansRings_seqs s))
@[simp] theorem State.takeFetched_therm (s : State) (c : Cmd) : (s.takeFetched c).therm = s.therm := 
  (State.sansRings_therm _).symm.trans ((congrArg State.therm (State.takeFetched_sansRings s c)).trans (State.sansRings_therm s))
@[simp] theorem State.takeFetched_progs (s : State) (c : Cmd) : (s.takeFetched c).progs = s.progs := 
  (State.sansRings_progs _).symm.trans ((congrArg State.progs (State.takeFetched_sansRings s c)).trans (State.sansRings_progs s))
@[simp] theorem State.takeFetched_scache (s : State) (c : Cmd) : (s.takeFetched c).scache = s.scache := 
  (State.sansRings_scache _).symm.trans ((congrArg State.scache (State.takeFetched_sansRings s c)).trans (State.sansRings_scache s))
@[simp] theorem State.takeFetched_slotPic (s : State) (c : Cmd) : (s.takeFetched c).slotPic = s.slotPic := 
  (State.sansRings_slotPic _).symm.trans ((congrArg State.slotPic (State.takeFetched_sansRings s c)).trans (State.sansRings_slotPic s))
@[simp] theorem State.takeFetched_slotSz (s : State) (c : Cmd) : (s.takeFetched c).slotSz = s.slotSz := 
  (State.sansRings_slotSz _).symm.trans ((congrArg State.slotSz (State.takeFetched_sansRings s c)).trans (State.sansRings_slotSz s))
@[simp] theorem State.takeFetched_slotNref (s : State) (c : Cmd) : (s.takeFetched c).slotNref = s.slotNref := 
  (State.sansRings_slotNref _).symm.trans ((congrArg State.slotNref (State.takeFetched_sansRings s c)).trans (State.sansRings_slotNref s))
@[simp] theorem State.takeFetched_slotC (s : State) (c : Cmd) : (s.takeFetched c).slotC = s.slotC := 
  (State.sansRings_slotC _).symm.trans ((congrArg State.slotC (State.takeFetched_sansRings s c)).trans (State.sansRings_slotC s))
@[simp] theorem State.takeFetched_retPend (s : State) (c : Cmd) : (s.takeFetched c).retPend = s.retPend := 
  (State.sansRings_retPend _).symm.trans ((congrArg State.retPend (State.takeFetched_sansRings s c)).trans (State.sansRings_retPend s))
@[simp] theorem State.takeFetched_egr (s : State) (c : Cmd) : (s.takeFetched c).egr = s.egr := 
  (State.sansRings_egr _).symm.trans ((congrArg State.egr (State.takeFetched_sansRings s c)).trans (State.sansRings_egr s))
@[simp] theorem State.takeFetched_txFree (s : State) (c : Cmd) : (s.takeFetched c).txFree = s.txFree := 
  (State.sansRings_txFree _).symm.trans ((congrArg State.txFree (State.takeFetched_sansRings s c)).trans (State.sansRings_txFree s))
@[simp] theorem State.takeFetched_frameNo (s : State) (c : Cmd) : (s.takeFetched c).frameNo = s.frameNo := 
  (State.sansRings_frameNo _).symm.trans ((congrArg State.frameNo (State.takeFetched_sansRings s c)).trans (State.sansRings_frameNo s))
@[simp] theorem State.takeFetched_rtpSeq (s : State) (c : Cmd) : (s.takeFetched c).rtpSeq = s.rtpSeq := 
  (State.sansRings_rtpSeq _).symm.trans ((congrArg State.rtpSeq (State.takeFetched_sansRings s c)).trans (State.sansRings_rtpSeq s))
@[simp] theorem State.takeFetched_subs (s : State) (c : Cmd) : (s.takeFetched c).subs = s.subs := 
  (State.sansRings_subs _).symm.trans ((congrArg State.subs (State.takeFetched_sansRings s c)).trans (State.sansRings_subs s))
@[simp] theorem State.takeFetched_shapers (s : State) (c : Cmd) : (s.takeFetched c).shapers = s.shapers := 
  (State.sansRings_shapers _).symm.trans ((congrArg State.shapers (State.takeFetched_sansRings s c)).trans (State.sansRings_shapers s))
@[simp] theorem State.takeFetched_gates (s : State) (c : Cmd) : (s.takeFetched c).gates = s.gates := 
  (State.sansRings_gates _).symm.trans ((congrArg State.gates (State.takeFetched_sansRings s c)).trans (State.sansRings_gates s))
@[simp] theorem State.takeFetched_ptpRx (s : State) (c : Cmd) : (s.takeFetched c).ptpRx = s.ptpRx := 
  (State.sansRings_ptpRx _).symm.trans ((congrArg State.ptpRx (State.takeFetched_sansRings s c)).trans (State.sansRings_ptpRx s))
@[simp] theorem State.takeFetched_tsb (s : State) (c : Cmd) : (s.takeFetched c).tsb = s.tsb := 
  (State.sansRings_tsb _).symm.trans ((congrArg State.tsb (State.takeFetched_sansRings s c)).trans (State.sansRings_tsb s))
@[simp] theorem State.takeFetched_ptpServo (s : State) (c : Cmd) : (s.takeFetched c).ptpServo = s.ptpServo := 
  (State.sansRings_ptpServo _).symm.trans ((congrArg State.ptpServo (State.takeFetched_sansRings s c)).trans (State.sansRings_ptpServo s))
@[simp] theorem State.takeFetched_mem (s : State) (c : Cmd) : (s.takeFetched c).mem = s.mem := 
  (State.sansRings_mem _).symm.trans ((congrArg State.mem (State.takeFetched_sansRings s c)).trans (State.sansRings_mem s))
@[simp] theorem State.takeFetched_injRecs (s : State) (c : Cmd) : (s.takeFetched c).injRecs = s.injRecs := 
  (State.sansRings_injRecs _).symm.trans ((congrArg State.injRecs (State.takeFetched_sansRings s c)).trans (State.sansRings_injRecs s))
@[simp] theorem State.takeFetched_filled (s : State) (c : Cmd) : (s.takeFetched c).filled = s.filled := 
  (State.sansRings_filled _).symm.trans ((congrArg State.filled (State.takeFetched_sansRings s c)).trans (State.sansRings_filled s))
@[simp] theorem State.takeFetched_images (s : State) (c : Cmd) : (s.takeFetched c).images = s.images := 
  (State.sansRings_images _).symm.trans ((congrArg State.images (State.takeFetched_sansRings s c)).trans (State.sansRings_images s))
@[simp] theorem State.takeFetched_chkLeft (s : State) (c : Cmd) : (s.takeFetched c).chkLeft = s.chkLeft := 
  (State.sansRings_chkLeft _).symm.trans ((congrArg State.chkLeft (State.takeFetched_sansRings s c)).trans (State.sansRings_chkLeft s))
@[simp] theorem State.takeFetched_badRows (s : State) (c : Cmd) : (s.takeFetched c).badRows = s.badRows := 
  (State.sansRings_badRows _).symm.trans ((congrArg State.badRows (State.takeFetched_sansRings s c)).trans (State.sansRings_badRows s))
@[simp] theorem State.takeFetched_lost (s : State) (c : Cmd) : (s.takeFetched c).lost = s.lost := 
  (State.sansRings_lost _).symm.trans ((congrArg State.lost (State.takeFetched_sansRings s c)).trans (State.sansRings_lost s))
@[simp] theorem State.takeFetched_celCe (s : State) (c : Cmd) : (s.takeFetched c).celCe = s.celCe := 
  (State.sansRings_celCe _).symm.trans ((congrArg State.celCe (State.takeFetched_sansRings s c)).trans (State.sansRings_celCe s))
@[simp] theorem State.takeFetched_celDly (s : State) (c : Cmd) : (s.takeFetched c).celDly = s.celDly := 
  (State.sansRings_celDly _).symm.trans ((congrArg State.celDly (State.takeFetched_sansRings s c)).trans (State.sansRings_celDly s))
@[simp] theorem State.takeFetched_celVref (s : State) (c : Cmd) : (s.takeFetched c).celVref = s.celVref := 
  (State.sansRings_celVref _).symm.trans ((congrArg State.celVref (State.takeFetched_sansRings s c)).trans (State.sansRings_celVref s))
@[simp] theorem State.takeFetched_pcs (s : State) (c : Cmd) : (s.takeFetched c).pcs = s.pcs := 
  (State.sansRings_pcs _).symm.trans ((congrArg State.pcs (State.takeFetched_sansRings s c)).trans (State.sansRings_pcs s))
@[simp] theorem State.takeFetched_stackTab (s : State) (c : Cmd) : (s.takeFetched c).stackTab = s.stackTab := 
  (State.sansRings_stackTab _).symm.trans ((congrArg State.stackTab (State.takeFetched_sansRings s c)).trans (State.sansRings_stackTab s))
@[simp] theorem State.takeFetched_ldrCol (s : State) (c : Cmd) : (s.takeFetched c).ldrCol = s.ldrCol := 
  (State.sansRings_ldrCol _).symm.trans ((congrArg State.ldrCol (State.takeFetched_sansRings s c)).trans (State.sansRings_ldrCol s))
@[simp] theorem State.takeFetched_training (s : State) (c : Cmd) : (s.takeFetched c).training = s.training := 
  (State.sansRings_training _).symm.trans ((congrArg State.training (State.takeFetched_sansRings s c)).trans (State.sansRings_training s))
@[simp] theorem State.takeFetched_adapting (s : State) (c : Cmd) : (s.takeFetched c).adapting = s.adapting := 
  (State.sansRings_adapting _).symm.trans ((congrArg State.adapting (State.takeFetched_sansRings s c)).trans (State.sansRings_adapting s))
@[simp] theorem State.takeFetched_laneSet (s : State) (c : Cmd) : (s.takeFetched c).laneSet = s.laneSet := 
  (State.sansRings_laneSet _).symm.trans ((congrArg State.laneSet (State.takeFetched_sansRings s c)).trans (State.sansRings_laneSet s))
@[simp] theorem State.takeFetched_blFrom (s : State) (c : Cmd) : (s.takeFetched c).blFrom = s.blFrom := 
  (State.sansRings_blFrom _).symm.trans ((congrArg State.blFrom (State.takeFetched_sansRings s c)).trans (State.sansRings_blFrom s))
@[simp] theorem State.takeFetched_qps (s : State) (c : Cmd) : (s.takeFetched c).qps = s.qps := 
  (State.sansRings_qps _).symm.trans ((congrArg State.qps (State.takeFetched_sansRings s c)).trans (State.sansRings_qps s))
@[simp] theorem State.takeFetched_hchs (s : State) (c : Cmd) : (s.takeFetched c).hchs = s.hchs := 
  (State.sansRings_hchs _).symm.trans ((congrArg State.hchs (State.takeFetched_sansRings s c)).trans (State.sansRings_hchs s))
@[simp] theorem State.takeFetched_hgrant (s : State) (c : Cmd) : (s.takeFetched c).hgrant = s.hgrant := 
  (State.sansRings_hgrant _).symm.trans ((congrArg State.hgrant (State.takeFetched_sansRings s c)).trans (State.sansRings_hgrant s))
@[simp] theorem State.takeFetched_ptpPos (s : State) (c : Cmd) : (s.takeFetched c).ptpPos = s.ptpPos := 
  (State.sansRings_ptpPos _).symm.trans ((congrArg State.ptpPos (State.takeFetched_sansRings s c)).trans (State.sansRings_ptpPos s))
@[simp] theorem State.takeFetched_cps (s : State) (c : Cmd) : (s.takeFetched c).cps = s.cps := 
  (State.sansRings_cps _).symm.trans ((congrArg State.cps (State.takeFetched_sansRings s c)).trans (State.sansRings_cps s))
@[simp] theorem State.takeFetched_push (s : State) (c : Cmd) : (s.takeFetched c).push = s.push := 
  (State.sansRings_push _).symm.trans ((congrArg State.push (State.takeFetched_sansRings s c)).trans (State.sansRings_push s))
@[simp] theorem State.takeFetched_bank0 (s : State) (c : Cmd) : (s.takeFetched c).bank0 = s.bank0 := 
  (State.sansRings_bank0 _).symm.trans ((congrArg State.bank0 (State.takeFetched_sansRings s c)).trans (State.sansRings_bank0 s))
@[simp] theorem State.takeFetched_bank1 (s : State) (c : Cmd) : (s.takeFetched c).bank1 = s.bank1 := 
  (State.sansRings_bank1 _).symm.trans ((congrArg State.bank1 (State.takeFetched_sansRings s c)).trans (State.sansRings_bank1 s))
@[simp] theorem State.takeFetched_sleep (s : State) (c : Cmd) : (s.takeFetched c).sleep = s.sleep := 
  (State.sansRings_sleep _).symm.trans ((congrArg State.sleep (State.takeFetched_sansRings s c)).trans (State.sansRings_sleep s))
@[simp] theorem State.takeFetched_swap (s : State) (c : Cmd) : (s.takeFetched c).swap = s.swap := 
  (State.sansRings_swap _).symm.trans ((congrArg State.swap (State.takeFetched_sansRings s c)).trans (State.sansRings_swap s))
@[simp] theorem State.takeFetched_resetReq (s : State) (c : Cmd) : (s.takeFetched c).resetReq = s.resetReq := 
  (State.sansRings_resetReq _).symm.trans ((congrArg State.resetReq (State.takeFetched_sansRings s c)).trans (State.sansRings_resetReq s))
@[simp] theorem State.takeFetched_wakeN (s : State) (c : Cmd) : (s.takeFetched c).wakeN = s.wakeN := 
  (State.sansRings_wakeN _).symm.trans ((congrArg State.wakeN (State.takeFetched_sansRings s c)).trans (State.sansRings_wakeN s))
@[simp] theorem State.takeFetched_rails (s : State) (c : Cmd) : (s.takeFetched c).rails = s.rails := 
  (State.sansRings_rails _).symm.trans ((congrArg State.rails (State.takeFetched_sansRings s c)).trans (State.sansRings_rails s))
@[simp] theorem State.takeFetched_railF (s : State) (c : Cmd) : (s.takeFetched c).railF = s.railF := 
  (State.sansRings_railF _).symm.trans ((congrArg State.railF (State.takeFetched_sansRings s c)).trans (State.sansRings_railF s))
@[simp] theorem State.takeFetched_avsAgain (s : State) (c : Cmd) : (s.takeFetched c).avsAgain = s.avsAgain := 
  (State.sansRings_avsAgain _).symm.trans ((congrArg State.avsAgain (State.takeFetched_sansRings s c)).trans (State.sansRings_avsAgain s))
@[simp] theorem State.takeFetched_voutExp (s : State) (c : Cmd) : (s.takeFetched c).voutExp = s.voutExp := 
  (State.sansRings_voutExp _).symm.trans ((congrArg State.voutExp (State.takeFetched_sansRings s c)).trans (State.sansRings_voutExp s))
@[simp] theorem State.takeFetched_straps (s : State) (c : Cmd) : (s.takeFetched c).straps = s.straps := 
  (State.sansRings_straps _).symm.trans ((congrArg State.straps (State.takeFetched_sansRings s c)).trans (State.sansRings_straps s))
@[simp] theorem State.takeFetched_strm (s : State) (c : Cmd) (k : Nat) : (s.takeFetched c).strm k = s.strm k := 
  (State.sansRings_strm _ k).symm.trans ((congrArg (fun s => State.strm s k) (State.takeFetched_sansRings s c)).trans (State.sansRings_strm s k))
@[simp] theorem State.takeFetched_gen (s : State) (c : Cmd) (k : Nat) : (s.takeFetched c).gen k = s.gen k := 
  (State.sansRings_gen _ k).symm.trans ((congrArg (fun s => State.gen s k) (State.takeFetched_sansRings s c)).trans (State.sansRings_gen s k))
@[simp] theorem State.takeFetched_feed (s : State) (c : Cmd) (k : Nat) : (s.takeFetched c).feed k = s.feed k := 
  (State.sansRings_feed _ k).symm.trans ((congrArg (fun s => State.feed s k) (State.takeFetched_sansRings s c)).trans (State.sansRings_feed s k))
@[simp] theorem State.takeFetched_crew (s : State) (c : Cmd) (k : Nat) : (s.takeFetched c).crew k = s.crew k := 
  (State.sansRings_crew _ k).symm.trans ((congrArg (fun s => State.crew s k) (State.takeFetched_sansRings s c)).trans (State.sansRings_crew s k))
@[simp] theorem State.takeFetched_run (s : State) (c : Cmd) (k : Nat) : (s.takeFetched c).run k = s.run k := 
  (State.sansRings_run _ k).symm.trans ((congrArg (fun s => State.run s k) (State.takeFetched_sansRings s c)).trans (State.sansRings_run s k))
@[simp] theorem State.takeFetched_tallySrc (s : State) (c : Cmd) (k : Nat) : (s.takeFetched c).tallySrc k = s.tallySrc k := 
  (State.sansRings_tallySrc _ k).symm.trans ((congrArg (fun s => State.tallySrc s k) (State.takeFetched_sansRings s c)).trans (State.sansRings_tallySrc s k))
@[simp] theorem State.takeFetched_cp (s : State) (c : Cmd) (k : Nat) : (s.takeFetched c).cp k = s.cp k := 
  (State.sansRings_cp _ k).symm.trans ((congrArg (fun s => State.cp s k) (State.takeFetched_sansRings s c)).trans (State.sansRings_cp s k))
@[simp] theorem State.takeFetched_slotPicOf (s : State) (c : Cmd) (k : Nat) : (s.takeFetched c).slotPicOf k = s.slotPicOf k := 
  (State.sansRings_slotPicOf _ k).symm.trans ((congrArg (fun s => State.slotPicOf s k) (State.takeFetched_sansRings s c)).trans (State.sansRings_slotPicOf s k))
@[simp] theorem State.takeFetched_window (s : State) (c : Cmd) (k : Nat) : (s.takeFetched c).window k = s.window k := 
  (State.sansRings_window _ k).symm.trans ((congrArg (fun s => State.window s k) (State.takeFetched_sansRings s c)).trans (State.sansRings_window s k))
@[simp] theorem State.takeFetched_frames (s : State) (c : Cmd) (k : Nat) : (s.takeFetched c).frames k = s.frames k := 
  (State.sansRings_frames _ k).symm.trans ((congrArg (fun s => State.frames s k) (State.takeFetched_sansRings s c)).trans (State.sansRings_frames s k))
@[simp] theorem State.takeFetched_sub (s : State) (c : Cmd) (k : Nat) : (s.takeFetched c).sub k = s.sub k := 
  (State.sansRings_sub _ k).symm.trans ((congrArg (fun s => State.sub s k) (State.takeFetched_sansRings s c)).trans (State.sansRings_sub s k))
@[simp] theorem State.takeFetched_stack (s : State) (c : Cmd) (k : Nat) : (s.takeFetched c).stack k = s.stack k := 
  (State.sansRings_stack _ k).symm.trans ((congrArg (fun s => State.stack s k) (State.takeFetched_sansRings s c)).trans (State.sansRings_stack s k))
@[simp] theorem State.takeFetched_seq (s : State) (c : Cmd) (k : Nat) : (s.takeFetched c).seq k = s.seq k := 
  (State.sansRings_seq _ k).symm.trans ((congrArg (fun s => State.seq s k) (State.takeFetched_sansRings s c)).trans (State.sansRings_seq s k))
@[simp] theorem State.takeFetched_hch (s : State) (c : Cmd) (k : Nat) : (s.takeFetched c).hch k = s.hch k := 
  (State.sansRings_hch _ k).symm.trans ((congrArg (fun s => State.hch s k) (State.takeFetched_sansRings s c)).trans (State.sansRings_hch s k))
@[simp] theorem State.takeFetched_qp (s : State) (c : Cmd) (k : Nat) : (s.takeFetched c).qp k = s.qp k := 
  (State.sansRings_qp _ k).symm.trans ((congrArg (fun s => State.qp s k) (State.takeFetched_sansRings s c)).trans (State.sansRings_qp s k))

/-! ### request -/

@[simp] theorem State.request_pending (s : State) (kind i : Nat) (enable : Bool) : (s.request kind i enable).1.pending = s.pending := 
  (State.sansRings_pending _).symm.trans ((congrArg State.pending (State.request_sansRings s kind i enable)).trans (State.sansRings_pending s))
@[simp] theorem State.request_part (s : State) (kind i : Nat) (enable : Bool) : (s.request kind i enable).1.part = s.part := 
  (State.sansRings_part _).symm.trans ((congrArg State.part (State.request_sansRings s kind i enable)).trans (State.sansRings_part s))
@[simp] theorem State.request_rst (s : State) (kind i : Nat) (enable : Bool) : (s.request kind i enable).1.rst = s.rst := 
  (State.sansRings_rst _).symm.trans ((congrArg State.rst (State.request_sansRings s kind i enable)).trans (State.sansRings_rst s))
@[simp] theorem State.request_now (s : State) (kind i : Nat) (enable : Bool) : (s.request kind i enable).1.now = s.now := 
  (State.sansRings_now _).symm.trans ((congrArg State.now (State.request_sansRings s kind i enable)).trans (State.sansRings_now s))
@[simp] theorem State.request_prev (s : State) (kind i : Nat) (enable : Bool) : (s.request kind i enable).1.prev = s.prev := 
  (State.sansRings_prev _).symm.trans ((congrArg State.prev (State.request_sansRings s kind i enable)).trans (State.sansRings_prev s))
@[simp] theorem State.request_cyc (s : State) (kind i : Nat) (enable : Bool) : (s.request kind i enable).1.cyc = s.cyc := 
  (State.sansRings_cyc _).symm.trans ((congrArg State.cyc (State.request_sansRings s kind i enable)).trans (State.sansRings_cyc s))
@[simp] theorem State.request_fired (s : State) (kind i : Nat) (enable : Bool) : (s.request kind i enable).1.fired = s.fired := 
  (State.sansRings_fired _).symm.trans ((congrArg State.fired (State.request_sansRings s kind i enable)).trans (State.sansRings_fired s))
@[simp] theorem State.request_freed (s : State) (kind i : Nat) (enable : Bool) : (s.request kind i enable).1.freed = s.freed := 
  (State.sansRings_freed _).symm.trans ((congrArg State.freed (State.request_sansRings s kind i enable)).trans (State.sansRings_freed s))
@[simp] theorem State.request_waitDue (s : State) (kind i : Nat) (enable : Bool) : (s.request kind i enable).1.waitDue = s.waitDue := 
  (State.sansRings_waitDue _).symm.trans ((congrArg State.waitDue (State.request_sansRings s kind i enable)).trans (State.sansRings_waitDue s))
@[simp] theorem State.request_turns (s : State) (kind i : Nat) (enable : Bool) : (s.request kind i enable).1.turns = s.turns := 
  (State.sansRings_turns _).symm.trans ((congrArg State.turns (State.request_sansRings s kind i enable)).trans (State.sansRings_turns s))
@[simp] theorem State.request_rate (s : State) (kind i : Nat) (enable : Bool) : (s.request kind i enable).1.rate = s.rate := 
  (State.sansRings_rate _).symm.trans ((congrArg State.rate (State.request_sansRings s kind i enable)).trans (State.sansRings_rate s))
@[simp] theorem State.request_ppsNs (s : State) (kind i : Nat) (enable : Bool) : (s.request kind i enable).1.ppsNs = s.ppsNs := 
  (State.sansRings_ppsNs _).symm.trans ((congrArg State.ppsNs (State.request_sansRings s kind i enable)).trans (State.sansRings_ppsNs s))
@[simp] theorem State.request_ppsHigh (s : State) (kind i : Nat) (enable : Bool) : (s.request kind i enable).1.ppsHigh = s.ppsHigh := 
  (State.sansRings_ppsHigh _).symm.trans ((congrArg State.ppsHigh (State.request_sansRings s kind i enable)).trans (State.sansRings_ppsHigh s))
@[simp] theorem State.request_relock (s : State) (kind i : Nat) (enable : Bool) : (s.request kind i enable).1.relock = s.relock := 
  (State.sansRings_relock _).symm.trans ((congrArg State.relock (State.request_sansRings s kind i enable)).trans (State.sansRings_relock s))
@[simp] theorem State.request_gens (s : State) (kind i : Nat) (enable : Bool) : (s.request kind i enable).1.gens = s.gens := 
  (State.sansRings_gens _).symm.trans ((congrArg State.gens (State.request_sansRings s kind i enable)).trans (State.sansRings_gens s))
@[simp] theorem State.request_freeCtr (s : State) (kind i : Nat) (enable : Bool) : (s.request kind i enable).1.freeCtr = s.freeCtr := 
  (State.sansRings_freeCtr _).symm.trans ((congrArg State.freeCtr (State.request_sansRings s kind i enable)).trans (State.sansRings_freeCtr s))
@[simp] theorem State.request_tsrc (s : State) (kind i : Nat) (enable : Bool) : (s.request kind i enable).1.tsrc = s.tsrc := 
  (State.sansRings_tsrc _).symm.trans ((congrArg State.tsrc (State.request_sansRings s kind i enable)).trans (State.sansRings_tsrc s))
@[simp] theorem State.request_twin (s : State) (kind i : Nat) (enable : Bool) : (s.request kind i enable).1.twin = s.twin := 
  (State.sansRings_twin _).symm.trans ((congrArg State.twin (State.request_sansRings s kind i enable)).trans (State.sansRings_twin s))
@[simp] theorem State.request_gath (s : State) (kind i : Nat) (enable : Bool) : (s.request kind i enable).1.gath = s.gath := 
  (State.sansRings_gath _).symm.trans ((congrArg State.gath (State.request_sansRings s kind i enable)).trans (State.sansRings_gath s))
@[simp] theorem State.request_claimed (s : State) (kind i : Nat) (enable : Bool) : (s.request kind i enable).1.claimed = s.claimed := 
  (State.sansRings_claimed _).symm.trans ((congrArg State.claimed (State.request_sansRings s kind i enable)).trans (State.sansRings_claimed s))
@[simp] theorem State.request_tgtDef (s : State) (kind i : Nat) (enable : Bool) : (s.request kind i enable).1.tgtDef = s.tgtDef := 
  (State.sansRings_tgtDef _).symm.trans ((congrArg State.tgtDef (State.request_sansRings s kind i enable)).trans (State.sansRings_tgtDef s))
@[simp] theorem State.request_holdOff (s : State) (kind i : Nat) (enable : Bool) : (s.request kind i enable).1.holdOff = s.holdOff := 
  (State.sansRings_holdOff _).symm.trans ((congrArg State.holdOff (State.request_sansRings s kind i enable)).trans (State.sansRings_holdOff s))
@[simp] theorem State.request_pins (s : State) (kind i : Nat) (enable : Bool) : (s.request kind i enable).1.pins = s.pins := 
  (State.sansRings_pins _).symm.trans ((congrArg State.pins (State.request_sansRings s kind i enable)).trans (State.sansRings_pins s))
@[simp] theorem State.request_looked (s : State) (kind i : Nat) (enable : Bool) : (s.request kind i enable).1.looked = s.looked := 
  (State.sansRings_looked _).symm.trans ((congrArg State.looked (State.request_sansRings s kind i enable)).trans (State.sansRings_looked s))
@[simp] theorem State.request_preempt (s : State) (kind i : Nat) (enable : Bool) : (s.request kind i enable).1.preempt = s.preempt := 
  (State.sansRings_preempt _).symm.trans ((congrArg State.preempt (State.request_sansRings s kind i enable)).trans (State.sansRings_preempt s))
@[simp] theorem State.request_lifted (s : State) (kind i : Nat) (enable : Bool) : (s.request kind i enable).1.lifted = s.lifted := 
  (State.sansRings_lifted _).symm.trans ((congrArg State.lifted (State.request_sansRings s kind i enable)).trans (State.sansRings_lifted s))
@[simp] theorem State.request_streams (s : State) (kind i : Nat) (enable : Bool) : (s.request kind i enable).1.streams = s.streams := 
  (State.sansRings_streams _).symm.trans ((congrArg State.streams (State.request_sansRings s kind i enable)).trans (State.sansRings_streams s))
@[simp] theorem State.request_feeds (s : State) (kind i : Nat) (enable : Bool) : (s.request kind i enable).1.feeds = s.feeds := 
  (State.sansRings_feeds _).symm.trans ((congrArg State.feeds (State.request_sansRings s kind i enable)).trans (State.sansRings_feeds s))
@[simp] theorem State.request_crews (s : State) (kind i : Nat) (enable : Bool) : (s.request kind i enable).1.crews = s.crews := 
  (State.sansRings_crews _).symm.trans ((congrArg State.crews (State.request_sansRings s kind i enable)).trans (State.sansRings_crews s))
@[simp] theorem State.request_runs (s : State) (kind i : Nat) (enable : Bool) : (s.request kind i enable).1.runs = s.runs := 
  (State.sansRings_runs _).symm.trans ((congrArg State.runs (State.request_sansRings s kind i enable)).trans (State.sansRings_runs s))
@[simp] theorem State.request_ended (s : State) (kind i : Nat) (enable : Bool) : (s.request kind i enable).1.ended = s.ended := 
  (State.sansRings_ended _).symm.trans ((congrArg State.ended (State.request_sansRings s kind i enable)).trans (State.sansRings_ended s))
@[simp] theorem State.request_seqs (s : State) (kind i : Nat) (enable : Bool) : (s.request kind i enable).1.seqs = s.seqs := 
  (State.sansRings_seqs _).symm.trans ((congrArg State.seqs (State.request_sansRings s kind i enable)).trans (State.sansRings_seqs s))
@[simp] theorem State.request_therm (s : State) (kind i : Nat) (enable : Bool) : (s.request kind i enable).1.therm = s.therm := 
  (State.sansRings_therm _).symm.trans ((congrArg State.therm (State.request_sansRings s kind i enable)).trans (State.sansRings_therm s))
@[simp] theorem State.request_progs (s : State) (kind i : Nat) (enable : Bool) : (s.request kind i enable).1.progs = s.progs := 
  (State.sansRings_progs _).symm.trans ((congrArg State.progs (State.request_sansRings s kind i enable)).trans (State.sansRings_progs s))
@[simp] theorem State.request_scache (s : State) (kind i : Nat) (enable : Bool) : (s.request kind i enable).1.scache = s.scache := 
  (State.sansRings_scache _).symm.trans ((congrArg State.scache (State.request_sansRings s kind i enable)).trans (State.sansRings_scache s))
@[simp] theorem State.request_slotPic (s : State) (kind i : Nat) (enable : Bool) : (s.request kind i enable).1.slotPic = s.slotPic := 
  (State.sansRings_slotPic _).symm.trans ((congrArg State.slotPic (State.request_sansRings s kind i enable)).trans (State.sansRings_slotPic s))
@[simp] theorem State.request_slotSz (s : State) (kind i : Nat) (enable : Bool) : (s.request kind i enable).1.slotSz = s.slotSz := 
  (State.sansRings_slotSz _).symm.trans ((congrArg State.slotSz (State.request_sansRings s kind i enable)).trans (State.sansRings_slotSz s))
@[simp] theorem State.request_slotNref (s : State) (kind i : Nat) (enable : Bool) : (s.request kind i enable).1.slotNref = s.slotNref := 
  (State.sansRings_slotNref _).symm.trans ((congrArg State.slotNref (State.request_sansRings s kind i enable)).trans (State.sansRings_slotNref s))
@[simp] theorem State.request_slotC (s : State) (kind i : Nat) (enable : Bool) : (s.request kind i enable).1.slotC = s.slotC := 
  (State.sansRings_slotC _).symm.trans ((congrArg State.slotC (State.request_sansRings s kind i enable)).trans (State.sansRings_slotC s))
@[simp] theorem State.request_retPend (s : State) (kind i : Nat) (enable : Bool) : (s.request kind i enable).1.retPend = s.retPend := 
  (State.sansRings_retPend _).symm.trans ((congrArg State.retPend (State.request_sansRings s kind i enable)).trans (State.sansRings_retPend s))
@[simp] theorem State.request_egr (s : State) (kind i : Nat) (enable : Bool) : (s.request kind i enable).1.egr = s.egr := 
  (State.sansRings_egr _).symm.trans ((congrArg State.egr (State.request_sansRings s kind i enable)).trans (State.sansRings_egr s))
@[simp] theorem State.request_txFree (s : State) (kind i : Nat) (enable : Bool) : (s.request kind i enable).1.txFree = s.txFree := 
  (State.sansRings_txFree _).symm.trans ((congrArg State.txFree (State.request_sansRings s kind i enable)).trans (State.sansRings_txFree s))
@[simp] theorem State.request_frameNo (s : State) (kind i : Nat) (enable : Bool) : (s.request kind i enable).1.frameNo = s.frameNo := 
  (State.sansRings_frameNo _).symm.trans ((congrArg State.frameNo (State.request_sansRings s kind i enable)).trans (State.sansRings_frameNo s))
@[simp] theorem State.request_rtpSeq (s : State) (kind i : Nat) (enable : Bool) : (s.request kind i enable).1.rtpSeq = s.rtpSeq := 
  (State.sansRings_rtpSeq _).symm.trans ((congrArg State.rtpSeq (State.request_sansRings s kind i enable)).trans (State.sansRings_rtpSeq s))
@[simp] theorem State.request_subs (s : State) (kind i : Nat) (enable : Bool) : (s.request kind i enable).1.subs = s.subs := 
  (State.sansRings_subs _).symm.trans ((congrArg State.subs (State.request_sansRings s kind i enable)).trans (State.sansRings_subs s))
@[simp] theorem State.request_shapers (s : State) (kind i : Nat) (enable : Bool) : (s.request kind i enable).1.shapers = s.shapers := 
  (State.sansRings_shapers _).symm.trans ((congrArg State.shapers (State.request_sansRings s kind i enable)).trans (State.sansRings_shapers s))
@[simp] theorem State.request_gates (s : State) (kind i : Nat) (enable : Bool) : (s.request kind i enable).1.gates = s.gates := 
  (State.sansRings_gates _).symm.trans ((congrArg State.gates (State.request_sansRings s kind i enable)).trans (State.sansRings_gates s))
@[simp] theorem State.request_ptpRx (s : State) (kind i : Nat) (enable : Bool) : (s.request kind i enable).1.ptpRx = s.ptpRx := 
  (State.sansRings_ptpRx _).symm.trans ((congrArg State.ptpRx (State.request_sansRings s kind i enable)).trans (State.sansRings_ptpRx s))
@[simp] theorem State.request_tsb (s : State) (kind i : Nat) (enable : Bool) : (s.request kind i enable).1.tsb = s.tsb := 
  (State.sansRings_tsb _).symm.trans ((congrArg State.tsb (State.request_sansRings s kind i enable)).trans (State.sansRings_tsb s))
@[simp] theorem State.request_ptpServo (s : State) (kind i : Nat) (enable : Bool) : (s.request kind i enable).1.ptpServo = s.ptpServo := 
  (State.sansRings_ptpServo _).symm.trans ((congrArg State.ptpServo (State.request_sansRings s kind i enable)).trans (State.sansRings_ptpServo s))
@[simp] theorem State.request_mem (s : State) (kind i : Nat) (enable : Bool) : (s.request kind i enable).1.mem = s.mem := 
  (State.sansRings_mem _).symm.trans ((congrArg State.mem (State.request_sansRings s kind i enable)).trans (State.sansRings_mem s))
@[simp] theorem State.request_injRecs (s : State) (kind i : Nat) (enable : Bool) : (s.request kind i enable).1.injRecs = s.injRecs := 
  (State.sansRings_injRecs _).symm.trans ((congrArg State.injRecs (State.request_sansRings s kind i enable)).trans (State.sansRings_injRecs s))
@[simp] theorem State.request_filled (s : State) (kind i : Nat) (enable : Bool) : (s.request kind i enable).1.filled = s.filled := 
  (State.sansRings_filled _).symm.trans ((congrArg State.filled (State.request_sansRings s kind i enable)).trans (State.sansRings_filled s))
@[simp] theorem State.request_images (s : State) (kind i : Nat) (enable : Bool) : (s.request kind i enable).1.images = s.images := 
  (State.sansRings_images _).symm.trans ((congrArg State.images (State.request_sansRings s kind i enable)).trans (State.sansRings_images s))
@[simp] theorem State.request_chkLeft (s : State) (kind i : Nat) (enable : Bool) : (s.request kind i enable).1.chkLeft = s.chkLeft := 
  (State.sansRings_chkLeft _).symm.trans ((congrArg State.chkLeft (State.request_sansRings s kind i enable)).trans (State.sansRings_chkLeft s))
@[simp] theorem State.request_badRows (s : State) (kind i : Nat) (enable : Bool) : (s.request kind i enable).1.badRows = s.badRows := 
  (State.sansRings_badRows _).symm.trans ((congrArg State.badRows (State.request_sansRings s kind i enable)).trans (State.sansRings_badRows s))
@[simp] theorem State.request_lost (s : State) (kind i : Nat) (enable : Bool) : (s.request kind i enable).1.lost = s.lost := 
  (State.sansRings_lost _).symm.trans ((congrArg State.lost (State.request_sansRings s kind i enable)).trans (State.sansRings_lost s))
@[simp] theorem State.request_celCe (s : State) (kind i : Nat) (enable : Bool) : (s.request kind i enable).1.celCe = s.celCe := 
  (State.sansRings_celCe _).symm.trans ((congrArg State.celCe (State.request_sansRings s kind i enable)).trans (State.sansRings_celCe s))
@[simp] theorem State.request_celDly (s : State) (kind i : Nat) (enable : Bool) : (s.request kind i enable).1.celDly = s.celDly := 
  (State.sansRings_celDly _).symm.trans ((congrArg State.celDly (State.request_sansRings s kind i enable)).trans (State.sansRings_celDly s))
@[simp] theorem State.request_celVref (s : State) (kind i : Nat) (enable : Bool) : (s.request kind i enable).1.celVref = s.celVref := 
  (State.sansRings_celVref _).symm.trans ((congrArg State.celVref (State.request_sansRings s kind i enable)).trans (State.sansRings_celVref s))
@[simp] theorem State.request_pcs (s : State) (kind i : Nat) (enable : Bool) : (s.request kind i enable).1.pcs = s.pcs := 
  (State.sansRings_pcs _).symm.trans ((congrArg State.pcs (State.request_sansRings s kind i enable)).trans (State.sansRings_pcs s))
@[simp] theorem State.request_stackTab (s : State) (kind i : Nat) (enable : Bool) : (s.request kind i enable).1.stackTab = s.stackTab := 
  (State.sansRings_stackTab _).symm.trans ((congrArg State.stackTab (State.request_sansRings s kind i enable)).trans (State.sansRings_stackTab s))
@[simp] theorem State.request_ldrCol (s : State) (kind i : Nat) (enable : Bool) : (s.request kind i enable).1.ldrCol = s.ldrCol := 
  (State.sansRings_ldrCol _).symm.trans ((congrArg State.ldrCol (State.request_sansRings s kind i enable)).trans (State.sansRings_ldrCol s))
@[simp] theorem State.request_training (s : State) (kind i : Nat) (enable : Bool) : (s.request kind i enable).1.training = s.training := 
  (State.sansRings_training _).symm.trans ((congrArg State.training (State.request_sansRings s kind i enable)).trans (State.sansRings_training s))
@[simp] theorem State.request_adapting (s : State) (kind i : Nat) (enable : Bool) : (s.request kind i enable).1.adapting = s.adapting := 
  (State.sansRings_adapting _).symm.trans ((congrArg State.adapting (State.request_sansRings s kind i enable)).trans (State.sansRings_adapting s))
@[simp] theorem State.request_laneSet (s : State) (kind i : Nat) (enable : Bool) : (s.request kind i enable).1.laneSet = s.laneSet := 
  (State.sansRings_laneSet _).symm.trans ((congrArg State.laneSet (State.request_sansRings s kind i enable)).trans (State.sansRings_laneSet s))
@[simp] theorem State.request_blFrom (s : State) (kind i : Nat) (enable : Bool) : (s.request kind i enable).1.blFrom = s.blFrom := 
  (State.sansRings_blFrom _).symm.trans ((congrArg State.blFrom (State.request_sansRings s kind i enable)).trans (State.sansRings_blFrom s))
@[simp] theorem State.request_qps (s : State) (kind i : Nat) (enable : Bool) : (s.request kind i enable).1.qps = s.qps := 
  (State.sansRings_qps _).symm.trans ((congrArg State.qps (State.request_sansRings s kind i enable)).trans (State.sansRings_qps s))
@[simp] theorem State.request_hchs (s : State) (kind i : Nat) (enable : Bool) : (s.request kind i enable).1.hchs = s.hchs := 
  (State.sansRings_hchs _).symm.trans ((congrArg State.hchs (State.request_sansRings s kind i enable)).trans (State.sansRings_hchs s))
@[simp] theorem State.request_hgrant (s : State) (kind i : Nat) (enable : Bool) : (s.request kind i enable).1.hgrant = s.hgrant := 
  (State.sansRings_hgrant _).symm.trans ((congrArg State.hgrant (State.request_sansRings s kind i enable)).trans (State.sansRings_hgrant s))
@[simp] theorem State.request_ptpPos (s : State) (kind i : Nat) (enable : Bool) : (s.request kind i enable).1.ptpPos = s.ptpPos := 
  (State.sansRings_ptpPos _).symm.trans ((congrArg State.ptpPos (State.request_sansRings s kind i enable)).trans (State.sansRings_ptpPos s))
@[simp] theorem State.request_cps (s : State) (kind i : Nat) (enable : Bool) : (s.request kind i enable).1.cps = s.cps := 
  (State.sansRings_cps _).symm.trans ((congrArg State.cps (State.request_sansRings s kind i enable)).trans (State.sansRings_cps s))
@[simp] theorem State.request_push (s : State) (kind i : Nat) (enable : Bool) : (s.request kind i enable).1.push = s.push := 
  (State.sansRings_push _).symm.trans ((congrArg State.push (State.request_sansRings s kind i enable)).trans (State.sansRings_push s))
@[simp] theorem State.request_bank0 (s : State) (kind i : Nat) (enable : Bool) : (s.request kind i enable).1.bank0 = s.bank0 := 
  (State.sansRings_bank0 _).symm.trans ((congrArg State.bank0 (State.request_sansRings s kind i enable)).trans (State.sansRings_bank0 s))
@[simp] theorem State.request_bank1 (s : State) (kind i : Nat) (enable : Bool) : (s.request kind i enable).1.bank1 = s.bank1 := 
  (State.sansRings_bank1 _).symm.trans ((congrArg State.bank1 (State.request_sansRings s kind i enable)).trans (State.sansRings_bank1 s))
@[simp] theorem State.request_sleep (s : State) (kind i : Nat) (enable : Bool) : (s.request kind i enable).1.sleep = s.sleep := 
  (State.sansRings_sleep _).symm.trans ((congrArg State.sleep (State.request_sansRings s kind i enable)).trans (State.sansRings_sleep s))
@[simp] theorem State.request_swap (s : State) (kind i : Nat) (enable : Bool) : (s.request kind i enable).1.swap = s.swap := 
  (State.sansRings_swap _).symm.trans ((congrArg State.swap (State.request_sansRings s kind i enable)).trans (State.sansRings_swap s))
@[simp] theorem State.request_resetReq (s : State) (kind i : Nat) (enable : Bool) : (s.request kind i enable).1.resetReq = s.resetReq := 
  (State.sansRings_resetReq _).symm.trans ((congrArg State.resetReq (State.request_sansRings s kind i enable)).trans (State.sansRings_resetReq s))
@[simp] theorem State.request_wakeN (s : State) (kind i : Nat) (enable : Bool) : (s.request kind i enable).1.wakeN = s.wakeN := 
  (State.sansRings_wakeN _).symm.trans ((congrArg State.wakeN (State.request_sansRings s kind i enable)).trans (State.sansRings_wakeN s))
@[simp] theorem State.request_rails (s : State) (kind i : Nat) (enable : Bool) : (s.request kind i enable).1.rails = s.rails := 
  (State.sansRings_rails _).symm.trans ((congrArg State.rails (State.request_sansRings s kind i enable)).trans (State.sansRings_rails s))
@[simp] theorem State.request_railF (s : State) (kind i : Nat) (enable : Bool) : (s.request kind i enable).1.railF = s.railF := 
  (State.sansRings_railF _).symm.trans ((congrArg State.railF (State.request_sansRings s kind i enable)).trans (State.sansRings_railF s))
@[simp] theorem State.request_avsAgain (s : State) (kind i : Nat) (enable : Bool) : (s.request kind i enable).1.avsAgain = s.avsAgain := 
  (State.sansRings_avsAgain _).symm.trans ((congrArg State.avsAgain (State.request_sansRings s kind i enable)).trans (State.sansRings_avsAgain s))
@[simp] theorem State.request_voutExp (s : State) (kind i : Nat) (enable : Bool) : (s.request kind i enable).1.voutExp = s.voutExp := 
  (State.sansRings_voutExp _).symm.trans ((congrArg State.voutExp (State.request_sansRings s kind i enable)).trans (State.sansRings_voutExp s))
@[simp] theorem State.request_straps (s : State) (kind i : Nat) (enable : Bool) : (s.request kind i enable).1.straps = s.straps := 
  (State.sansRings_straps _).symm.trans ((congrArg State.straps (State.request_sansRings s kind i enable)).trans (State.sansRings_straps s))
@[simp] theorem State.request_strm (s : State) (kind i : Nat) (enable : Bool) (k : Nat) : (s.request kind i enable).1.strm k = s.strm k := 
  (State.sansRings_strm _ k).symm.trans ((congrArg (fun s => State.strm s k) (State.request_sansRings s kind i enable)).trans (State.sansRings_strm s k))
@[simp] theorem State.request_gen (s : State) (kind i : Nat) (enable : Bool) (k : Nat) : (s.request kind i enable).1.gen k = s.gen k := 
  (State.sansRings_gen _ k).symm.trans ((congrArg (fun s => State.gen s k) (State.request_sansRings s kind i enable)).trans (State.sansRings_gen s k))
@[simp] theorem State.request_feed (s : State) (kind i : Nat) (enable : Bool) (k : Nat) : (s.request kind i enable).1.feed k = s.feed k := 
  (State.sansRings_feed _ k).symm.trans ((congrArg (fun s => State.feed s k) (State.request_sansRings s kind i enable)).trans (State.sansRings_feed s k))
@[simp] theorem State.request_crew (s : State) (kind i : Nat) (enable : Bool) (k : Nat) : (s.request kind i enable).1.crew k = s.crew k := 
  (State.sansRings_crew _ k).symm.trans ((congrArg (fun s => State.crew s k) (State.request_sansRings s kind i enable)).trans (State.sansRings_crew s k))
@[simp] theorem State.request_run (s : State) (kind i : Nat) (enable : Bool) (k : Nat) : (s.request kind i enable).1.run k = s.run k := 
  (State.sansRings_run _ k).symm.trans ((congrArg (fun s => State.run s k) (State.request_sansRings s kind i enable)).trans (State.sansRings_run s k))
@[simp] theorem State.request_tallySrc (s : State) (kind i : Nat) (enable : Bool) (k : Nat) : (s.request kind i enable).1.tallySrc k = s.tallySrc k := 
  (State.sansRings_tallySrc _ k).symm.trans ((congrArg (fun s => State.tallySrc s k) (State.request_sansRings s kind i enable)).trans (State.sansRings_tallySrc s k))
@[simp] theorem State.request_cp (s : State) (kind i : Nat) (enable : Bool) (k : Nat) : (s.request kind i enable).1.cp k = s.cp k := 
  (State.sansRings_cp _ k).symm.trans ((congrArg (fun s => State.cp s k) (State.request_sansRings s kind i enable)).trans (State.sansRings_cp s k))
@[simp] theorem State.request_slotPicOf (s : State) (kind i : Nat) (enable : Bool) (k : Nat) : (s.request kind i enable).1.slotPicOf k = s.slotPicOf k := 
  (State.sansRings_slotPicOf _ k).symm.trans ((congrArg (fun s => State.slotPicOf s k) (State.request_sansRings s kind i enable)).trans (State.sansRings_slotPicOf s k))
@[simp] theorem State.request_window (s : State) (kind i : Nat) (enable : Bool) (k : Nat) : (s.request kind i enable).1.window k = s.window k := 
  (State.sansRings_window _ k).symm.trans ((congrArg (fun s => State.window s k) (State.request_sansRings s kind i enable)).trans (State.sansRings_window s k))
@[simp] theorem State.request_frames (s : State) (kind i : Nat) (enable : Bool) (k : Nat) : (s.request kind i enable).1.frames k = s.frames k := 
  (State.sansRings_frames _ k).symm.trans ((congrArg (fun s => State.frames s k) (State.request_sansRings s kind i enable)).trans (State.sansRings_frames s k))
@[simp] theorem State.request_sub (s : State) (kind i : Nat) (enable : Bool) (k : Nat) : (s.request kind i enable).1.sub k = s.sub k := 
  (State.sansRings_sub _ k).symm.trans ((congrArg (fun s => State.sub s k) (State.request_sansRings s kind i enable)).trans (State.sansRings_sub s k))
@[simp] theorem State.request_stack (s : State) (kind i : Nat) (enable : Bool) (k : Nat) : (s.request kind i enable).1.stack k = s.stack k := 
  (State.sansRings_stack _ k).symm.trans ((congrArg (fun s => State.stack s k) (State.request_sansRings s kind i enable)).trans (State.sansRings_stack s k))
@[simp] theorem State.request_seq (s : State) (kind i : Nat) (enable : Bool) (k : Nat) : (s.request kind i enable).1.seq k = s.seq k := 
  (State.sansRings_seq _ k).symm.trans ((congrArg (fun s => State.seq s k) (State.request_sansRings s kind i enable)).trans (State.sansRings_seq s k))
@[simp] theorem State.request_hch (s : State) (kind i : Nat) (enable : Bool) (k : Nat) : (s.request kind i enable).1.hch k = s.hch k := 
  (State.sansRings_hch _ k).symm.trans ((congrArg (fun s => State.hch s k) (State.request_sansRings s kind i enable)).trans (State.sansRings_hch s k))
@[simp] theorem State.request_qp (s : State) (kind i : Nat) (enable : Bool) (k : Nat) : (s.request kind i enable).1.qp k = s.qp k := 
  (State.sansRings_qp _ k).symm.trans ((congrArg (fun s => State.qp s k) (State.request_sansRings s kind i enable)).trans (State.sansRings_qp s k))

/-! ### requestCmd -/

@[simp] theorem State.requestCmd_pending (s : State) (o : Owed) (kind i : Nat) (enable : Bool) (data : Nat) : (s.requestCmd o kind i enable data).pending = s.pending := 
  (State.sansRings_pending _).symm.trans ((congrArg State.pending (State.requestCmd_sansRings s o kind i enable data)).trans (State.sansRings_pending s))
@[simp] theorem State.requestCmd_part (s : State) (o : Owed) (kind i : Nat) (enable : Bool) (data : Nat) : (s.requestCmd o kind i enable data).part = s.part := 
  (State.sansRings_part _).symm.trans ((congrArg State.part (State.requestCmd_sansRings s o kind i enable data)).trans (State.sansRings_part s))
@[simp] theorem State.requestCmd_rst (s : State) (o : Owed) (kind i : Nat) (enable : Bool) (data : Nat) : (s.requestCmd o kind i enable data).rst = s.rst := 
  (State.sansRings_rst _).symm.trans ((congrArg State.rst (State.requestCmd_sansRings s o kind i enable data)).trans (State.sansRings_rst s))
@[simp] theorem State.requestCmd_now (s : State) (o : Owed) (kind i : Nat) (enable : Bool) (data : Nat) : (s.requestCmd o kind i enable data).now = s.now := 
  (State.sansRings_now _).symm.trans ((congrArg State.now (State.requestCmd_sansRings s o kind i enable data)).trans (State.sansRings_now s))
@[simp] theorem State.requestCmd_prev (s : State) (o : Owed) (kind i : Nat) (enable : Bool) (data : Nat) : (s.requestCmd o kind i enable data).prev = s.prev := 
  (State.sansRings_prev _).symm.trans ((congrArg State.prev (State.requestCmd_sansRings s o kind i enable data)).trans (State.sansRings_prev s))
@[simp] theorem State.requestCmd_cyc (s : State) (o : Owed) (kind i : Nat) (enable : Bool) (data : Nat) : (s.requestCmd o kind i enable data).cyc = s.cyc := 
  (State.sansRings_cyc _).symm.trans ((congrArg State.cyc (State.requestCmd_sansRings s o kind i enable data)).trans (State.sansRings_cyc s))
@[simp] theorem State.requestCmd_fired (s : State) (o : Owed) (kind i : Nat) (enable : Bool) (data : Nat) : (s.requestCmd o kind i enable data).fired = s.fired := 
  (State.sansRings_fired _).symm.trans ((congrArg State.fired (State.requestCmd_sansRings s o kind i enable data)).trans (State.sansRings_fired s))
@[simp] theorem State.requestCmd_freed (s : State) (o : Owed) (kind i : Nat) (enable : Bool) (data : Nat) : (s.requestCmd o kind i enable data).freed = s.freed := 
  (State.sansRings_freed _).symm.trans ((congrArg State.freed (State.requestCmd_sansRings s o kind i enable data)).trans (State.sansRings_freed s))
@[simp] theorem State.requestCmd_waitDue (s : State) (o : Owed) (kind i : Nat) (enable : Bool) (data : Nat) : (s.requestCmd o kind i enable data).waitDue = s.waitDue := 
  (State.sansRings_waitDue _).symm.trans ((congrArg State.waitDue (State.requestCmd_sansRings s o kind i enable data)).trans (State.sansRings_waitDue s))
@[simp] theorem State.requestCmd_turns (s : State) (o : Owed) (kind i : Nat) (enable : Bool) (data : Nat) : (s.requestCmd o kind i enable data).turns = s.turns := 
  (State.sansRings_turns _).symm.trans ((congrArg State.turns (State.requestCmd_sansRings s o kind i enable data)).trans (State.sansRings_turns s))
@[simp] theorem State.requestCmd_rate (s : State) (o : Owed) (kind i : Nat) (enable : Bool) (data : Nat) : (s.requestCmd o kind i enable data).rate = s.rate := 
  (State.sansRings_rate _).symm.trans ((congrArg State.rate (State.requestCmd_sansRings s o kind i enable data)).trans (State.sansRings_rate s))
@[simp] theorem State.requestCmd_ppsNs (s : State) (o : Owed) (kind i : Nat) (enable : Bool) (data : Nat) : (s.requestCmd o kind i enable data).ppsNs = s.ppsNs := 
  (State.sansRings_ppsNs _).symm.trans ((congrArg State.ppsNs (State.requestCmd_sansRings s o kind i enable data)).trans (State.sansRings_ppsNs s))
@[simp] theorem State.requestCmd_ppsHigh (s : State) (o : Owed) (kind i : Nat) (enable : Bool) (data : Nat) : (s.requestCmd o kind i enable data).ppsHigh = s.ppsHigh := 
  (State.sansRings_ppsHigh _).symm.trans ((congrArg State.ppsHigh (State.requestCmd_sansRings s o kind i enable data)).trans (State.sansRings_ppsHigh s))
@[simp] theorem State.requestCmd_relock (s : State) (o : Owed) (kind i : Nat) (enable : Bool) (data : Nat) : (s.requestCmd o kind i enable data).relock = s.relock := 
  (State.sansRings_relock _).symm.trans ((congrArg State.relock (State.requestCmd_sansRings s o kind i enable data)).trans (State.sansRings_relock s))
@[simp] theorem State.requestCmd_gens (s : State) (o : Owed) (kind i : Nat) (enable : Bool) (data : Nat) : (s.requestCmd o kind i enable data).gens = s.gens := 
  (State.sansRings_gens _).symm.trans ((congrArg State.gens (State.requestCmd_sansRings s o kind i enable data)).trans (State.sansRings_gens s))
@[simp] theorem State.requestCmd_freeCtr (s : State) (o : Owed) (kind i : Nat) (enable : Bool) (data : Nat) : (s.requestCmd o kind i enable data).freeCtr = s.freeCtr := 
  (State.sansRings_freeCtr _).symm.trans ((congrArg State.freeCtr (State.requestCmd_sansRings s o kind i enable data)).trans (State.sansRings_freeCtr s))
@[simp] theorem State.requestCmd_tsrc (s : State) (o : Owed) (kind i : Nat) (enable : Bool) (data : Nat) : (s.requestCmd o kind i enable data).tsrc = s.tsrc := 
  (State.sansRings_tsrc _).symm.trans ((congrArg State.tsrc (State.requestCmd_sansRings s o kind i enable data)).trans (State.sansRings_tsrc s))
@[simp] theorem State.requestCmd_twin (s : State) (o : Owed) (kind i : Nat) (enable : Bool) (data : Nat) : (s.requestCmd o kind i enable data).twin = s.twin := 
  (State.sansRings_twin _).symm.trans ((congrArg State.twin (State.requestCmd_sansRings s o kind i enable data)).trans (State.sansRings_twin s))
@[simp] theorem State.requestCmd_gath (s : State) (o : Owed) (kind i : Nat) (enable : Bool) (data : Nat) : (s.requestCmd o kind i enable data).gath = s.gath := 
  (State.sansRings_gath _).symm.trans ((congrArg State.gath (State.requestCmd_sansRings s o kind i enable data)).trans (State.sansRings_gath s))
@[simp] theorem State.requestCmd_claimed (s : State) (o : Owed) (kind i : Nat) (enable : Bool) (data : Nat) : (s.requestCmd o kind i enable data).claimed = s.claimed := 
  (State.sansRings_claimed _).symm.trans ((congrArg State.claimed (State.requestCmd_sansRings s o kind i enable data)).trans (State.sansRings_claimed s))
@[simp] theorem State.requestCmd_tgtDef (s : State) (o : Owed) (kind i : Nat) (enable : Bool) (data : Nat) : (s.requestCmd o kind i enable data).tgtDef = s.tgtDef := 
  (State.sansRings_tgtDef _).symm.trans ((congrArg State.tgtDef (State.requestCmd_sansRings s o kind i enable data)).trans (State.sansRings_tgtDef s))
@[simp] theorem State.requestCmd_holdOff (s : State) (o : Owed) (kind i : Nat) (enable : Bool) (data : Nat) : (s.requestCmd o kind i enable data).holdOff = s.holdOff := 
  (State.sansRings_holdOff _).symm.trans ((congrArg State.holdOff (State.requestCmd_sansRings s o kind i enable data)).trans (State.sansRings_holdOff s))
@[simp] theorem State.requestCmd_pins (s : State) (o : Owed) (kind i : Nat) (enable : Bool) (data : Nat) : (s.requestCmd o kind i enable data).pins = s.pins := 
  (State.sansRings_pins _).symm.trans ((congrArg State.pins (State.requestCmd_sansRings s o kind i enable data)).trans (State.sansRings_pins s))
@[simp] theorem State.requestCmd_looked (s : State) (o : Owed) (kind i : Nat) (enable : Bool) (data : Nat) : (s.requestCmd o kind i enable data).looked = s.looked := 
  (State.sansRings_looked _).symm.trans ((congrArg State.looked (State.requestCmd_sansRings s o kind i enable data)).trans (State.sansRings_looked s))
@[simp] theorem State.requestCmd_preempt (s : State) (o : Owed) (kind i : Nat) (enable : Bool) (data : Nat) : (s.requestCmd o kind i enable data).preempt = s.preempt := 
  (State.sansRings_preempt _).symm.trans ((congrArg State.preempt (State.requestCmd_sansRings s o kind i enable data)).trans (State.sansRings_preempt s))
@[simp] theorem State.requestCmd_lifted (s : State) (o : Owed) (kind i : Nat) (enable : Bool) (data : Nat) : (s.requestCmd o kind i enable data).lifted = s.lifted := 
  (State.sansRings_lifted _).symm.trans ((congrArg State.lifted (State.requestCmd_sansRings s o kind i enable data)).trans (State.sansRings_lifted s))
@[simp] theorem State.requestCmd_streams (s : State) (o : Owed) (kind i : Nat) (enable : Bool) (data : Nat) : (s.requestCmd o kind i enable data).streams = s.streams := 
  (State.sansRings_streams _).symm.trans ((congrArg State.streams (State.requestCmd_sansRings s o kind i enable data)).trans (State.sansRings_streams s))
@[simp] theorem State.requestCmd_feeds (s : State) (o : Owed) (kind i : Nat) (enable : Bool) (data : Nat) : (s.requestCmd o kind i enable data).feeds = s.feeds := 
  (State.sansRings_feeds _).symm.trans ((congrArg State.feeds (State.requestCmd_sansRings s o kind i enable data)).trans (State.sansRings_feeds s))
@[simp] theorem State.requestCmd_crews (s : State) (o : Owed) (kind i : Nat) (enable : Bool) (data : Nat) : (s.requestCmd o kind i enable data).crews = s.crews := 
  (State.sansRings_crews _).symm.trans ((congrArg State.crews (State.requestCmd_sansRings s o kind i enable data)).trans (State.sansRings_crews s))
@[simp] theorem State.requestCmd_runs (s : State) (o : Owed) (kind i : Nat) (enable : Bool) (data : Nat) : (s.requestCmd o kind i enable data).runs = s.runs := 
  (State.sansRings_runs _).symm.trans ((congrArg State.runs (State.requestCmd_sansRings s o kind i enable data)).trans (State.sansRings_runs s))
@[simp] theorem State.requestCmd_ended (s : State) (o : Owed) (kind i : Nat) (enable : Bool) (data : Nat) : (s.requestCmd o kind i enable data).ended = s.ended := 
  (State.sansRings_ended _).symm.trans ((congrArg State.ended (State.requestCmd_sansRings s o kind i enable data)).trans (State.sansRings_ended s))
@[simp] theorem State.requestCmd_seqs (s : State) (o : Owed) (kind i : Nat) (enable : Bool) (data : Nat) : (s.requestCmd o kind i enable data).seqs = s.seqs := 
  (State.sansRings_seqs _).symm.trans ((congrArg State.seqs (State.requestCmd_sansRings s o kind i enable data)).trans (State.sansRings_seqs s))
@[simp] theorem State.requestCmd_therm (s : State) (o : Owed) (kind i : Nat) (enable : Bool) (data : Nat) : (s.requestCmd o kind i enable data).therm = s.therm := 
  (State.sansRings_therm _).symm.trans ((congrArg State.therm (State.requestCmd_sansRings s o kind i enable data)).trans (State.sansRings_therm s))
@[simp] theorem State.requestCmd_progs (s : State) (o : Owed) (kind i : Nat) (enable : Bool) (data : Nat) : (s.requestCmd o kind i enable data).progs = s.progs := 
  (State.sansRings_progs _).symm.trans ((congrArg State.progs (State.requestCmd_sansRings s o kind i enable data)).trans (State.sansRings_progs s))
@[simp] theorem State.requestCmd_scache (s : State) (o : Owed) (kind i : Nat) (enable : Bool) (data : Nat) : (s.requestCmd o kind i enable data).scache = s.scache := 
  (State.sansRings_scache _).symm.trans ((congrArg State.scache (State.requestCmd_sansRings s o kind i enable data)).trans (State.sansRings_scache s))
@[simp] theorem State.requestCmd_slotPic (s : State) (o : Owed) (kind i : Nat) (enable : Bool) (data : Nat) : (s.requestCmd o kind i enable data).slotPic = s.slotPic := 
  (State.sansRings_slotPic _).symm.trans ((congrArg State.slotPic (State.requestCmd_sansRings s o kind i enable data)).trans (State.sansRings_slotPic s))
@[simp] theorem State.requestCmd_slotSz (s : State) (o : Owed) (kind i : Nat) (enable : Bool) (data : Nat) : (s.requestCmd o kind i enable data).slotSz = s.slotSz := 
  (State.sansRings_slotSz _).symm.trans ((congrArg State.slotSz (State.requestCmd_sansRings s o kind i enable data)).trans (State.sansRings_slotSz s))
@[simp] theorem State.requestCmd_slotNref (s : State) (o : Owed) (kind i : Nat) (enable : Bool) (data : Nat) : (s.requestCmd o kind i enable data).slotNref = s.slotNref := 
  (State.sansRings_slotNref _).symm.trans ((congrArg State.slotNref (State.requestCmd_sansRings s o kind i enable data)).trans (State.sansRings_slotNref s))
@[simp] theorem State.requestCmd_slotC (s : State) (o : Owed) (kind i : Nat) (enable : Bool) (data : Nat) : (s.requestCmd o kind i enable data).slotC = s.slotC := 
  (State.sansRings_slotC _).symm.trans ((congrArg State.slotC (State.requestCmd_sansRings s o kind i enable data)).trans (State.sansRings_slotC s))
@[simp] theorem State.requestCmd_retPend (s : State) (o : Owed) (kind i : Nat) (enable : Bool) (data : Nat) : (s.requestCmd o kind i enable data).retPend = s.retPend := 
  (State.sansRings_retPend _).symm.trans ((congrArg State.retPend (State.requestCmd_sansRings s o kind i enable data)).trans (State.sansRings_retPend s))
@[simp] theorem State.requestCmd_egr (s : State) (o : Owed) (kind i : Nat) (enable : Bool) (data : Nat) : (s.requestCmd o kind i enable data).egr = s.egr := 
  (State.sansRings_egr _).symm.trans ((congrArg State.egr (State.requestCmd_sansRings s o kind i enable data)).trans (State.sansRings_egr s))
@[simp] theorem State.requestCmd_txFree (s : State) (o : Owed) (kind i : Nat) (enable : Bool) (data : Nat) : (s.requestCmd o kind i enable data).txFree = s.txFree := 
  (State.sansRings_txFree _).symm.trans ((congrArg State.txFree (State.requestCmd_sansRings s o kind i enable data)).trans (State.sansRings_txFree s))
@[simp] theorem State.requestCmd_frameNo (s : State) (o : Owed) (kind i : Nat) (enable : Bool) (data : Nat) : (s.requestCmd o kind i enable data).frameNo = s.frameNo := 
  (State.sansRings_frameNo _).symm.trans ((congrArg State.frameNo (State.requestCmd_sansRings s o kind i enable data)).trans (State.sansRings_frameNo s))
@[simp] theorem State.requestCmd_rtpSeq (s : State) (o : Owed) (kind i : Nat) (enable : Bool) (data : Nat) : (s.requestCmd o kind i enable data).rtpSeq = s.rtpSeq := 
  (State.sansRings_rtpSeq _).symm.trans ((congrArg State.rtpSeq (State.requestCmd_sansRings s o kind i enable data)).trans (State.sansRings_rtpSeq s))
@[simp] theorem State.requestCmd_subs (s : State) (o : Owed) (kind i : Nat) (enable : Bool) (data : Nat) : (s.requestCmd o kind i enable data).subs = s.subs := 
  (State.sansRings_subs _).symm.trans ((congrArg State.subs (State.requestCmd_sansRings s o kind i enable data)).trans (State.sansRings_subs s))
@[simp] theorem State.requestCmd_shapers (s : State) (o : Owed) (kind i : Nat) (enable : Bool) (data : Nat) : (s.requestCmd o kind i enable data).shapers = s.shapers := 
  (State.sansRings_shapers _).symm.trans ((congrArg State.shapers (State.requestCmd_sansRings s o kind i enable data)).trans (State.sansRings_shapers s))
@[simp] theorem State.requestCmd_gates (s : State) (o : Owed) (kind i : Nat) (enable : Bool) (data : Nat) : (s.requestCmd o kind i enable data).gates = s.gates := 
  (State.sansRings_gates _).symm.trans ((congrArg State.gates (State.requestCmd_sansRings s o kind i enable data)).trans (State.sansRings_gates s))
@[simp] theorem State.requestCmd_ptpRx (s : State) (o : Owed) (kind i : Nat) (enable : Bool) (data : Nat) : (s.requestCmd o kind i enable data).ptpRx = s.ptpRx := 
  (State.sansRings_ptpRx _).symm.trans ((congrArg State.ptpRx (State.requestCmd_sansRings s o kind i enable data)).trans (State.sansRings_ptpRx s))
@[simp] theorem State.requestCmd_tsb (s : State) (o : Owed) (kind i : Nat) (enable : Bool) (data : Nat) : (s.requestCmd o kind i enable data).tsb = s.tsb := 
  (State.sansRings_tsb _).symm.trans ((congrArg State.tsb (State.requestCmd_sansRings s o kind i enable data)).trans (State.sansRings_tsb s))
@[simp] theorem State.requestCmd_ptpServo (s : State) (o : Owed) (kind i : Nat) (enable : Bool) (data : Nat) : (s.requestCmd o kind i enable data).ptpServo = s.ptpServo := 
  (State.sansRings_ptpServo _).symm.trans ((congrArg State.ptpServo (State.requestCmd_sansRings s o kind i enable data)).trans (State.sansRings_ptpServo s))
@[simp] theorem State.requestCmd_mem (s : State) (o : Owed) (kind i : Nat) (enable : Bool) (data : Nat) : (s.requestCmd o kind i enable data).mem = s.mem := 
  (State.sansRings_mem _).symm.trans ((congrArg State.mem (State.requestCmd_sansRings s o kind i enable data)).trans (State.sansRings_mem s))
@[simp] theorem State.requestCmd_injRecs (s : State) (o : Owed) (kind i : Nat) (enable : Bool) (data : Nat) : (s.requestCmd o kind i enable data).injRecs = s.injRecs := 
  (State.sansRings_injRecs _).symm.trans ((congrArg State.injRecs (State.requestCmd_sansRings s o kind i enable data)).trans (State.sansRings_injRecs s))
@[simp] theorem State.requestCmd_filled (s : State) (o : Owed) (kind i : Nat) (enable : Bool) (data : Nat) : (s.requestCmd o kind i enable data).filled = s.filled := 
  (State.sansRings_filled _).symm.trans ((congrArg State.filled (State.requestCmd_sansRings s o kind i enable data)).trans (State.sansRings_filled s))
@[simp] theorem State.requestCmd_images (s : State) (o : Owed) (kind i : Nat) (enable : Bool) (data : Nat) : (s.requestCmd o kind i enable data).images = s.images := 
  (State.sansRings_images _).symm.trans ((congrArg State.images (State.requestCmd_sansRings s o kind i enable data)).trans (State.sansRings_images s))
@[simp] theorem State.requestCmd_chkLeft (s : State) (o : Owed) (kind i : Nat) (enable : Bool) (data : Nat) : (s.requestCmd o kind i enable data).chkLeft = s.chkLeft := 
  (State.sansRings_chkLeft _).symm.trans ((congrArg State.chkLeft (State.requestCmd_sansRings s o kind i enable data)).trans (State.sansRings_chkLeft s))
@[simp] theorem State.requestCmd_badRows (s : State) (o : Owed) (kind i : Nat) (enable : Bool) (data : Nat) : (s.requestCmd o kind i enable data).badRows = s.badRows := 
  (State.sansRings_badRows _).symm.trans ((congrArg State.badRows (State.requestCmd_sansRings s o kind i enable data)).trans (State.sansRings_badRows s))
@[simp] theorem State.requestCmd_lost (s : State) (o : Owed) (kind i : Nat) (enable : Bool) (data : Nat) : (s.requestCmd o kind i enable data).lost = s.lost := 
  (State.sansRings_lost _).symm.trans ((congrArg State.lost (State.requestCmd_sansRings s o kind i enable data)).trans (State.sansRings_lost s))
@[simp] theorem State.requestCmd_celCe (s : State) (o : Owed) (kind i : Nat) (enable : Bool) (data : Nat) : (s.requestCmd o kind i enable data).celCe = s.celCe := 
  (State.sansRings_celCe _).symm.trans ((congrArg State.celCe (State.requestCmd_sansRings s o kind i enable data)).trans (State.sansRings_celCe s))
@[simp] theorem State.requestCmd_celDly (s : State) (o : Owed) (kind i : Nat) (enable : Bool) (data : Nat) : (s.requestCmd o kind i enable data).celDly = s.celDly := 
  (State.sansRings_celDly _).symm.trans ((congrArg State.celDly (State.requestCmd_sansRings s o kind i enable data)).trans (State.sansRings_celDly s))
@[simp] theorem State.requestCmd_celVref (s : State) (o : Owed) (kind i : Nat) (enable : Bool) (data : Nat) : (s.requestCmd o kind i enable data).celVref = s.celVref := 
  (State.sansRings_celVref _).symm.trans ((congrArg State.celVref (State.requestCmd_sansRings s o kind i enable data)).trans (State.sansRings_celVref s))
@[simp] theorem State.requestCmd_pcs (s : State) (o : Owed) (kind i : Nat) (enable : Bool) (data : Nat) : (s.requestCmd o kind i enable data).pcs = s.pcs := 
  (State.sansRings_pcs _).symm.trans ((congrArg State.pcs (State.requestCmd_sansRings s o kind i enable data)).trans (State.sansRings_pcs s))
@[simp] theorem State.requestCmd_stackTab (s : State) (o : Owed) (kind i : Nat) (enable : Bool) (data : Nat) : (s.requestCmd o kind i enable data).stackTab = s.stackTab := 
  (State.sansRings_stackTab _).symm.trans ((congrArg State.stackTab (State.requestCmd_sansRings s o kind i enable data)).trans (State.sansRings_stackTab s))
@[simp] theorem State.requestCmd_ldrCol (s : State) (o : Owed) (kind i : Nat) (enable : Bool) (data : Nat) : (s.requestCmd o kind i enable data).ldrCol = s.ldrCol := 
  (State.sansRings_ldrCol _).symm.trans ((congrArg State.ldrCol (State.requestCmd_sansRings s o kind i enable data)).trans (State.sansRings_ldrCol s))
@[simp] theorem State.requestCmd_training (s : State) (o : Owed) (kind i : Nat) (enable : Bool) (data : Nat) : (s.requestCmd o kind i enable data).training = s.training := 
  (State.sansRings_training _).symm.trans ((congrArg State.training (State.requestCmd_sansRings s o kind i enable data)).trans (State.sansRings_training s))
@[simp] theorem State.requestCmd_adapting (s : State) (o : Owed) (kind i : Nat) (enable : Bool) (data : Nat) : (s.requestCmd o kind i enable data).adapting = s.adapting := 
  (State.sansRings_adapting _).symm.trans ((congrArg State.adapting (State.requestCmd_sansRings s o kind i enable data)).trans (State.sansRings_adapting s))
@[simp] theorem State.requestCmd_laneSet (s : State) (o : Owed) (kind i : Nat) (enable : Bool) (data : Nat) : (s.requestCmd o kind i enable data).laneSet = s.laneSet := 
  (State.sansRings_laneSet _).symm.trans ((congrArg State.laneSet (State.requestCmd_sansRings s o kind i enable data)).trans (State.sansRings_laneSet s))
@[simp] theorem State.requestCmd_blFrom (s : State) (o : Owed) (kind i : Nat) (enable : Bool) (data : Nat) : (s.requestCmd o kind i enable data).blFrom = s.blFrom := 
  (State.sansRings_blFrom _).symm.trans ((congrArg State.blFrom (State.requestCmd_sansRings s o kind i enable data)).trans (State.sansRings_blFrom s))
@[simp] theorem State.requestCmd_qps (s : State) (o : Owed) (kind i : Nat) (enable : Bool) (data : Nat) : (s.requestCmd o kind i enable data).qps = s.qps := 
  (State.sansRings_qps _).symm.trans ((congrArg State.qps (State.requestCmd_sansRings s o kind i enable data)).trans (State.sansRings_qps s))
@[simp] theorem State.requestCmd_hchs (s : State) (o : Owed) (kind i : Nat) (enable : Bool) (data : Nat) : (s.requestCmd o kind i enable data).hchs = s.hchs := 
  (State.sansRings_hchs _).symm.trans ((congrArg State.hchs (State.requestCmd_sansRings s o kind i enable data)).trans (State.sansRings_hchs s))
@[simp] theorem State.requestCmd_hgrant (s : State) (o : Owed) (kind i : Nat) (enable : Bool) (data : Nat) : (s.requestCmd o kind i enable data).hgrant = s.hgrant := 
  (State.sansRings_hgrant _).symm.trans ((congrArg State.hgrant (State.requestCmd_sansRings s o kind i enable data)).trans (State.sansRings_hgrant s))
@[simp] theorem State.requestCmd_ptpPos (s : State) (o : Owed) (kind i : Nat) (enable : Bool) (data : Nat) : (s.requestCmd o kind i enable data).ptpPos = s.ptpPos := 
  (State.sansRings_ptpPos _).symm.trans ((congrArg State.ptpPos (State.requestCmd_sansRings s o kind i enable data)).trans (State.sansRings_ptpPos s))
@[simp] theorem State.requestCmd_cps (s : State) (o : Owed) (kind i : Nat) (enable : Bool) (data : Nat) : (s.requestCmd o kind i enable data).cps = s.cps := 
  (State.sansRings_cps _).symm.trans ((congrArg State.cps (State.requestCmd_sansRings s o kind i enable data)).trans (State.sansRings_cps s))
@[simp] theorem State.requestCmd_push (s : State) (o : Owed) (kind i : Nat) (enable : Bool) (data : Nat) : (s.requestCmd o kind i enable data).push = s.push := 
  (State.sansRings_push _).symm.trans ((congrArg State.push (State.requestCmd_sansRings s o kind i enable data)).trans (State.sansRings_push s))
@[simp] theorem State.requestCmd_bank0 (s : State) (o : Owed) (kind i : Nat) (enable : Bool) (data : Nat) : (s.requestCmd o kind i enable data).bank0 = s.bank0 := 
  (State.sansRings_bank0 _).symm.trans ((congrArg State.bank0 (State.requestCmd_sansRings s o kind i enable data)).trans (State.sansRings_bank0 s))
@[simp] theorem State.requestCmd_bank1 (s : State) (o : Owed) (kind i : Nat) (enable : Bool) (data : Nat) : (s.requestCmd o kind i enable data).bank1 = s.bank1 := 
  (State.sansRings_bank1 _).symm.trans ((congrArg State.bank1 (State.requestCmd_sansRings s o kind i enable data)).trans (State.sansRings_bank1 s))
@[simp] theorem State.requestCmd_sleep (s : State) (o : Owed) (kind i : Nat) (enable : Bool) (data : Nat) : (s.requestCmd o kind i enable data).sleep = s.sleep := 
  (State.sansRings_sleep _).symm.trans ((congrArg State.sleep (State.requestCmd_sansRings s o kind i enable data)).trans (State.sansRings_sleep s))
@[simp] theorem State.requestCmd_swap (s : State) (o : Owed) (kind i : Nat) (enable : Bool) (data : Nat) : (s.requestCmd o kind i enable data).swap = s.swap := 
  (State.sansRings_swap _).symm.trans ((congrArg State.swap (State.requestCmd_sansRings s o kind i enable data)).trans (State.sansRings_swap s))
@[simp] theorem State.requestCmd_resetReq (s : State) (o : Owed) (kind i : Nat) (enable : Bool) (data : Nat) : (s.requestCmd o kind i enable data).resetReq = s.resetReq := 
  (State.sansRings_resetReq _).symm.trans ((congrArg State.resetReq (State.requestCmd_sansRings s o kind i enable data)).trans (State.sansRings_resetReq s))
@[simp] theorem State.requestCmd_wakeN (s : State) (o : Owed) (kind i : Nat) (enable : Bool) (data : Nat) : (s.requestCmd o kind i enable data).wakeN = s.wakeN := 
  (State.sansRings_wakeN _).symm.trans ((congrArg State.wakeN (State.requestCmd_sansRings s o kind i enable data)).trans (State.sansRings_wakeN s))
@[simp] theorem State.requestCmd_rails (s : State) (o : Owed) (kind i : Nat) (enable : Bool) (data : Nat) : (s.requestCmd o kind i enable data).rails = s.rails := 
  (State.sansRings_rails _).symm.trans ((congrArg State.rails (State.requestCmd_sansRings s o kind i enable data)).trans (State.sansRings_rails s))
@[simp] theorem State.requestCmd_railF (s : State) (o : Owed) (kind i : Nat) (enable : Bool) (data : Nat) : (s.requestCmd o kind i enable data).railF = s.railF := 
  (State.sansRings_railF _).symm.trans ((congrArg State.railF (State.requestCmd_sansRings s o kind i enable data)).trans (State.sansRings_railF s))
@[simp] theorem State.requestCmd_avsAgain (s : State) (o : Owed) (kind i : Nat) (enable : Bool) (data : Nat) : (s.requestCmd o kind i enable data).avsAgain = s.avsAgain := 
  (State.sansRings_avsAgain _).symm.trans ((congrArg State.avsAgain (State.requestCmd_sansRings s o kind i enable data)).trans (State.sansRings_avsAgain s))
@[simp] theorem State.requestCmd_voutExp (s : State) (o : Owed) (kind i : Nat) (enable : Bool) (data : Nat) : (s.requestCmd o kind i enable data).voutExp = s.voutExp := 
  (State.sansRings_voutExp _).symm.trans ((congrArg State.voutExp (State.requestCmd_sansRings s o kind i enable data)).trans (State.sansRings_voutExp s))
@[simp] theorem State.requestCmd_straps (s : State) (o : Owed) (kind i : Nat) (enable : Bool) (data : Nat) : (s.requestCmd o kind i enable data).straps = s.straps := 
  (State.sansRings_straps _).symm.trans ((congrArg State.straps (State.requestCmd_sansRings s o kind i enable data)).trans (State.sansRings_straps s))
@[simp] theorem State.requestCmd_strm (s : State) (o : Owed) (kind i : Nat) (enable : Bool) (data : Nat) (k : Nat) : (s.requestCmd o kind i enable data).strm k = s.strm k := 
  (State.sansRings_strm _ k).symm.trans ((congrArg (fun s => State.strm s k) (State.requestCmd_sansRings s o kind i enable data)).trans (State.sansRings_strm s k))
@[simp] theorem State.requestCmd_gen (s : State) (o : Owed) (kind i : Nat) (enable : Bool) (data : Nat) (k : Nat) : (s.requestCmd o kind i enable data).gen k = s.gen k := 
  (State.sansRings_gen _ k).symm.trans ((congrArg (fun s => State.gen s k) (State.requestCmd_sansRings s o kind i enable data)).trans (State.sansRings_gen s k))
@[simp] theorem State.requestCmd_feed (s : State) (o : Owed) (kind i : Nat) (enable : Bool) (data : Nat) (k : Nat) : (s.requestCmd o kind i enable data).feed k = s.feed k := 
  (State.sansRings_feed _ k).symm.trans ((congrArg (fun s => State.feed s k) (State.requestCmd_sansRings s o kind i enable data)).trans (State.sansRings_feed s k))
@[simp] theorem State.requestCmd_crew (s : State) (o : Owed) (kind i : Nat) (enable : Bool) (data : Nat) (k : Nat) : (s.requestCmd o kind i enable data).crew k = s.crew k := 
  (State.sansRings_crew _ k).symm.trans ((congrArg (fun s => State.crew s k) (State.requestCmd_sansRings s o kind i enable data)).trans (State.sansRings_crew s k))
@[simp] theorem State.requestCmd_run (s : State) (o : Owed) (kind i : Nat) (enable : Bool) (data : Nat) (k : Nat) : (s.requestCmd o kind i enable data).run k = s.run k := 
  (State.sansRings_run _ k).symm.trans ((congrArg (fun s => State.run s k) (State.requestCmd_sansRings s o kind i enable data)).trans (State.sansRings_run s k))
@[simp] theorem State.requestCmd_tallySrc (s : State) (o : Owed) (kind i : Nat) (enable : Bool) (data : Nat) (k : Nat) : (s.requestCmd o kind i enable data).tallySrc k = s.tallySrc k := 
  (State.sansRings_tallySrc _ k).symm.trans ((congrArg (fun s => State.tallySrc s k) (State.requestCmd_sansRings s o kind i enable data)).trans (State.sansRings_tallySrc s k))
@[simp] theorem State.requestCmd_cp (s : State) (o : Owed) (kind i : Nat) (enable : Bool) (data : Nat) (k : Nat) : (s.requestCmd o kind i enable data).cp k = s.cp k := 
  (State.sansRings_cp _ k).symm.trans ((congrArg (fun s => State.cp s k) (State.requestCmd_sansRings s o kind i enable data)).trans (State.sansRings_cp s k))
@[simp] theorem State.requestCmd_slotPicOf (s : State) (o : Owed) (kind i : Nat) (enable : Bool) (data : Nat) (k : Nat) : (s.requestCmd o kind i enable data).slotPicOf k = s.slotPicOf k := 
  (State.sansRings_slotPicOf _ k).symm.trans ((congrArg (fun s => State.slotPicOf s k) (State.requestCmd_sansRings s o kind i enable data)).trans (State.sansRings_slotPicOf s k))
@[simp] theorem State.requestCmd_window (s : State) (o : Owed) (kind i : Nat) (enable : Bool) (data : Nat) (k : Nat) : (s.requestCmd o kind i enable data).window k = s.window k := 
  (State.sansRings_window _ k).symm.trans ((congrArg (fun s => State.window s k) (State.requestCmd_sansRings s o kind i enable data)).trans (State.sansRings_window s k))
@[simp] theorem State.requestCmd_frames (s : State) (o : Owed) (kind i : Nat) (enable : Bool) (data : Nat) (k : Nat) : (s.requestCmd o kind i enable data).frames k = s.frames k := 
  (State.sansRings_frames _ k).symm.trans ((congrArg (fun s => State.frames s k) (State.requestCmd_sansRings s o kind i enable data)).trans (State.sansRings_frames s k))
@[simp] theorem State.requestCmd_sub (s : State) (o : Owed) (kind i : Nat) (enable : Bool) (data : Nat) (k : Nat) : (s.requestCmd o kind i enable data).sub k = s.sub k := 
  (State.sansRings_sub _ k).symm.trans ((congrArg (fun s => State.sub s k) (State.requestCmd_sansRings s o kind i enable data)).trans (State.sansRings_sub s k))
@[simp] theorem State.requestCmd_stack (s : State) (o : Owed) (kind i : Nat) (enable : Bool) (data : Nat) (k : Nat) : (s.requestCmd o kind i enable data).stack k = s.stack k := 
  (State.sansRings_stack _ k).symm.trans ((congrArg (fun s => State.stack s k) (State.requestCmd_sansRings s o kind i enable data)).trans (State.sansRings_stack s k))
@[simp] theorem State.requestCmd_seq (s : State) (o : Owed) (kind i : Nat) (enable : Bool) (data : Nat) (k : Nat) : (s.requestCmd o kind i enable data).seq k = s.seq k := 
  (State.sansRings_seq _ k).symm.trans ((congrArg (fun s => State.seq s k) (State.requestCmd_sansRings s o kind i enable data)).trans (State.sansRings_seq s k))
@[simp] theorem State.requestCmd_hch (s : State) (o : Owed) (kind i : Nat) (enable : Bool) (data : Nat) (k : Nat) : (s.requestCmd o kind i enable data).hch k = s.hch k := 
  (State.sansRings_hch _ k).symm.trans ((congrArg (fun s => State.hch s k) (State.requestCmd_sansRings s o kind i enable data)).trans (State.sansRings_hch s k))
@[simp] theorem State.requestCmd_qp (s : State) (o : Owed) (kind i : Nat) (enable : Bool) (data : Nat) (k : Nat) : (s.requestCmd o kind i enable data).qp k = s.qp k := 
  (State.sansRings_qp _ k).symm.trans ((congrArg (fun s => State.qp s k) (State.requestCmd_sansRings s o kind i enable data)).trans (State.sansRings_qp s k))

/-! ### reachOn -/

@[simp] theorem State.reachOn_pending (s : State) (kind i data : Nat) : (s.reachOn kind i data).pending = s.pending := 
  (State.sansRings_pending _).symm.trans ((congrArg State.pending (State.reachOn_sansRings s kind i data)).trans (State.sansRings_pending s))
@[simp] theorem State.reachOn_part (s : State) (kind i data : Nat) : (s.reachOn kind i data).part = s.part := 
  (State.sansRings_part _).symm.trans ((congrArg State.part (State.reachOn_sansRings s kind i data)).trans (State.sansRings_part s))
@[simp] theorem State.reachOn_rst (s : State) (kind i data : Nat) : (s.reachOn kind i data).rst = s.rst := 
  (State.sansRings_rst _).symm.trans ((congrArg State.rst (State.reachOn_sansRings s kind i data)).trans (State.sansRings_rst s))
@[simp] theorem State.reachOn_now (s : State) (kind i data : Nat) : (s.reachOn kind i data).now = s.now := 
  (State.sansRings_now _).symm.trans ((congrArg State.now (State.reachOn_sansRings s kind i data)).trans (State.sansRings_now s))
@[simp] theorem State.reachOn_prev (s : State) (kind i data : Nat) : (s.reachOn kind i data).prev = s.prev := 
  (State.sansRings_prev _).symm.trans ((congrArg State.prev (State.reachOn_sansRings s kind i data)).trans (State.sansRings_prev s))
@[simp] theorem State.reachOn_cyc (s : State) (kind i data : Nat) : (s.reachOn kind i data).cyc = s.cyc := 
  (State.sansRings_cyc _).symm.trans ((congrArg State.cyc (State.reachOn_sansRings s kind i data)).trans (State.sansRings_cyc s))
@[simp] theorem State.reachOn_fired (s : State) (kind i data : Nat) : (s.reachOn kind i data).fired = s.fired := 
  (State.sansRings_fired _).symm.trans ((congrArg State.fired (State.reachOn_sansRings s kind i data)).trans (State.sansRings_fired s))
@[simp] theorem State.reachOn_freed (s : State) (kind i data : Nat) : (s.reachOn kind i data).freed = s.freed := 
  (State.sansRings_freed _).symm.trans ((congrArg State.freed (State.reachOn_sansRings s kind i data)).trans (State.sansRings_freed s))
@[simp] theorem State.reachOn_waitDue (s : State) (kind i data : Nat) : (s.reachOn kind i data).waitDue = s.waitDue := 
  (State.sansRings_waitDue _).symm.trans ((congrArg State.waitDue (State.reachOn_sansRings s kind i data)).trans (State.sansRings_waitDue s))
@[simp] theorem State.reachOn_turns (s : State) (kind i data : Nat) : (s.reachOn kind i data).turns = s.turns := 
  (State.sansRings_turns _).symm.trans ((congrArg State.turns (State.reachOn_sansRings s kind i data)).trans (State.sansRings_turns s))
@[simp] theorem State.reachOn_rate (s : State) (kind i data : Nat) : (s.reachOn kind i data).rate = s.rate := 
  (State.sansRings_rate _).symm.trans ((congrArg State.rate (State.reachOn_sansRings s kind i data)).trans (State.sansRings_rate s))
@[simp] theorem State.reachOn_ppsNs (s : State) (kind i data : Nat) : (s.reachOn kind i data).ppsNs = s.ppsNs := 
  (State.sansRings_ppsNs _).symm.trans ((congrArg State.ppsNs (State.reachOn_sansRings s kind i data)).trans (State.sansRings_ppsNs s))
@[simp] theorem State.reachOn_ppsHigh (s : State) (kind i data : Nat) : (s.reachOn kind i data).ppsHigh = s.ppsHigh := 
  (State.sansRings_ppsHigh _).symm.trans ((congrArg State.ppsHigh (State.reachOn_sansRings s kind i data)).trans (State.sansRings_ppsHigh s))
@[simp] theorem State.reachOn_relock (s : State) (kind i data : Nat) : (s.reachOn kind i data).relock = s.relock := 
  (State.sansRings_relock _).symm.trans ((congrArg State.relock (State.reachOn_sansRings s kind i data)).trans (State.sansRings_relock s))
@[simp] theorem State.reachOn_gens (s : State) (kind i data : Nat) : (s.reachOn kind i data).gens = s.gens := 
  (State.sansRings_gens _).symm.trans ((congrArg State.gens (State.reachOn_sansRings s kind i data)).trans (State.sansRings_gens s))
@[simp] theorem State.reachOn_freeCtr (s : State) (kind i data : Nat) : (s.reachOn kind i data).freeCtr = s.freeCtr := 
  (State.sansRings_freeCtr _).symm.trans ((congrArg State.freeCtr (State.reachOn_sansRings s kind i data)).trans (State.sansRings_freeCtr s))
@[simp] theorem State.reachOn_tsrc (s : State) (kind i data : Nat) : (s.reachOn kind i data).tsrc = s.tsrc := 
  (State.sansRings_tsrc _).symm.trans ((congrArg State.tsrc (State.reachOn_sansRings s kind i data)).trans (State.sansRings_tsrc s))
@[simp] theorem State.reachOn_twin (s : State) (kind i data : Nat) : (s.reachOn kind i data).twin = s.twin := 
  (State.sansRings_twin _).symm.trans ((congrArg State.twin (State.reachOn_sansRings s kind i data)).trans (State.sansRings_twin s))
@[simp] theorem State.reachOn_gath (s : State) (kind i data : Nat) : (s.reachOn kind i data).gath = s.gath := 
  (State.sansRings_gath _).symm.trans ((congrArg State.gath (State.reachOn_sansRings s kind i data)).trans (State.sansRings_gath s))
@[simp] theorem State.reachOn_claimed (s : State) (kind i data : Nat) : (s.reachOn kind i data).claimed = s.claimed := 
  (State.sansRings_claimed _).symm.trans ((congrArg State.claimed (State.reachOn_sansRings s kind i data)).trans (State.sansRings_claimed s))
@[simp] theorem State.reachOn_tgtDef (s : State) (kind i data : Nat) : (s.reachOn kind i data).tgtDef = s.tgtDef := 
  (State.sansRings_tgtDef _).symm.trans ((congrArg State.tgtDef (State.reachOn_sansRings s kind i data)).trans (State.sansRings_tgtDef s))
@[simp] theorem State.reachOn_holdOff (s : State) (kind i data : Nat) : (s.reachOn kind i data).holdOff = s.holdOff := 
  (State.sansRings_holdOff _).symm.trans ((congrArg State.holdOff (State.reachOn_sansRings s kind i data)).trans (State.sansRings_holdOff s))
@[simp] theorem State.reachOn_pins (s : State) (kind i data : Nat) : (s.reachOn kind i data).pins = s.pins := 
  (State.sansRings_pins _).symm.trans ((congrArg State.pins (State.reachOn_sansRings s kind i data)).trans (State.sansRings_pins s))
@[simp] theorem State.reachOn_looked (s : State) (kind i data : Nat) : (s.reachOn kind i data).looked = s.looked := 
  (State.sansRings_looked _).symm.trans ((congrArg State.looked (State.reachOn_sansRings s kind i data)).trans (State.sansRings_looked s))
@[simp] theorem State.reachOn_preempt (s : State) (kind i data : Nat) : (s.reachOn kind i data).preempt = s.preempt := 
  (State.sansRings_preempt _).symm.trans ((congrArg State.preempt (State.reachOn_sansRings s kind i data)).trans (State.sansRings_preempt s))
@[simp] theorem State.reachOn_lifted (s : State) (kind i data : Nat) : (s.reachOn kind i data).lifted = s.lifted := 
  (State.sansRings_lifted _).symm.trans ((congrArg State.lifted (State.reachOn_sansRings s kind i data)).trans (State.sansRings_lifted s))
@[simp] theorem State.reachOn_streams (s : State) (kind i data : Nat) : (s.reachOn kind i data).streams = s.streams := 
  (State.sansRings_streams _).symm.trans ((congrArg State.streams (State.reachOn_sansRings s kind i data)).trans (State.sansRings_streams s))
@[simp] theorem State.reachOn_feeds (s : State) (kind i data : Nat) : (s.reachOn kind i data).feeds = s.feeds := 
  (State.sansRings_feeds _).symm.trans ((congrArg State.feeds (State.reachOn_sansRings s kind i data)).trans (State.sansRings_feeds s))
@[simp] theorem State.reachOn_crews (s : State) (kind i data : Nat) : (s.reachOn kind i data).crews = s.crews := 
  (State.sansRings_crews _).symm.trans ((congrArg State.crews (State.reachOn_sansRings s kind i data)).trans (State.sansRings_crews s))
@[simp] theorem State.reachOn_runs (s : State) (kind i data : Nat) : (s.reachOn kind i data).runs = s.runs := 
  (State.sansRings_runs _).symm.trans ((congrArg State.runs (State.reachOn_sansRings s kind i data)).trans (State.sansRings_runs s))
@[simp] theorem State.reachOn_ended (s : State) (kind i data : Nat) : (s.reachOn kind i data).ended = s.ended := 
  (State.sansRings_ended _).symm.trans ((congrArg State.ended (State.reachOn_sansRings s kind i data)).trans (State.sansRings_ended s))
@[simp] theorem State.reachOn_seqs (s : State) (kind i data : Nat) : (s.reachOn kind i data).seqs = s.seqs := 
  (State.sansRings_seqs _).symm.trans ((congrArg State.seqs (State.reachOn_sansRings s kind i data)).trans (State.sansRings_seqs s))
@[simp] theorem State.reachOn_therm (s : State) (kind i data : Nat) : (s.reachOn kind i data).therm = s.therm := 
  (State.sansRings_therm _).symm.trans ((congrArg State.therm (State.reachOn_sansRings s kind i data)).trans (State.sansRings_therm s))
@[simp] theorem State.reachOn_progs (s : State) (kind i data : Nat) : (s.reachOn kind i data).progs = s.progs := 
  (State.sansRings_progs _).symm.trans ((congrArg State.progs (State.reachOn_sansRings s kind i data)).trans (State.sansRings_progs s))
@[simp] theorem State.reachOn_scache (s : State) (kind i data : Nat) : (s.reachOn kind i data).scache = s.scache := 
  (State.sansRings_scache _).symm.trans ((congrArg State.scache (State.reachOn_sansRings s kind i data)).trans (State.sansRings_scache s))
@[simp] theorem State.reachOn_slotPic (s : State) (kind i data : Nat) : (s.reachOn kind i data).slotPic = s.slotPic := 
  (State.sansRings_slotPic _).symm.trans ((congrArg State.slotPic (State.reachOn_sansRings s kind i data)).trans (State.sansRings_slotPic s))
@[simp] theorem State.reachOn_slotSz (s : State) (kind i data : Nat) : (s.reachOn kind i data).slotSz = s.slotSz := 
  (State.sansRings_slotSz _).symm.trans ((congrArg State.slotSz (State.reachOn_sansRings s kind i data)).trans (State.sansRings_slotSz s))
@[simp] theorem State.reachOn_slotNref (s : State) (kind i data : Nat) : (s.reachOn kind i data).slotNref = s.slotNref := 
  (State.sansRings_slotNref _).symm.trans ((congrArg State.slotNref (State.reachOn_sansRings s kind i data)).trans (State.sansRings_slotNref s))
@[simp] theorem State.reachOn_slotC (s : State) (kind i data : Nat) : (s.reachOn kind i data).slotC = s.slotC := 
  (State.sansRings_slotC _).symm.trans ((congrArg State.slotC (State.reachOn_sansRings s kind i data)).trans (State.sansRings_slotC s))
@[simp] theorem State.reachOn_retPend (s : State) (kind i data : Nat) : (s.reachOn kind i data).retPend = s.retPend := 
  (State.sansRings_retPend _).symm.trans ((congrArg State.retPend (State.reachOn_sansRings s kind i data)).trans (State.sansRings_retPend s))
@[simp] theorem State.reachOn_egr (s : State) (kind i data : Nat) : (s.reachOn kind i data).egr = s.egr := 
  (State.sansRings_egr _).symm.trans ((congrArg State.egr (State.reachOn_sansRings s kind i data)).trans (State.sansRings_egr s))
@[simp] theorem State.reachOn_txFree (s : State) (kind i data : Nat) : (s.reachOn kind i data).txFree = s.txFree := 
  (State.sansRings_txFree _).symm.trans ((congrArg State.txFree (State.reachOn_sansRings s kind i data)).trans (State.sansRings_txFree s))
@[simp] theorem State.reachOn_frameNo (s : State) (kind i data : Nat) : (s.reachOn kind i data).frameNo = s.frameNo := 
  (State.sansRings_frameNo _).symm.trans ((congrArg State.frameNo (State.reachOn_sansRings s kind i data)).trans (State.sansRings_frameNo s))
@[simp] theorem State.reachOn_rtpSeq (s : State) (kind i data : Nat) : (s.reachOn kind i data).rtpSeq = s.rtpSeq := 
  (State.sansRings_rtpSeq _).symm.trans ((congrArg State.rtpSeq (State.reachOn_sansRings s kind i data)).trans (State.sansRings_rtpSeq s))
@[simp] theorem State.reachOn_subs (s : State) (kind i data : Nat) : (s.reachOn kind i data).subs = s.subs := 
  (State.sansRings_subs _).symm.trans ((congrArg State.subs (State.reachOn_sansRings s kind i data)).trans (State.sansRings_subs s))
@[simp] theorem State.reachOn_shapers (s : State) (kind i data : Nat) : (s.reachOn kind i data).shapers = s.shapers := 
  (State.sansRings_shapers _).symm.trans ((congrArg State.shapers (State.reachOn_sansRings s kind i data)).trans (State.sansRings_shapers s))
@[simp] theorem State.reachOn_gates (s : State) (kind i data : Nat) : (s.reachOn kind i data).gates = s.gates := 
  (State.sansRings_gates _).symm.trans ((congrArg State.gates (State.reachOn_sansRings s kind i data)).trans (State.sansRings_gates s))
@[simp] theorem State.reachOn_ptpRx (s : State) (kind i data : Nat) : (s.reachOn kind i data).ptpRx = s.ptpRx := 
  (State.sansRings_ptpRx _).symm.trans ((congrArg State.ptpRx (State.reachOn_sansRings s kind i data)).trans (State.sansRings_ptpRx s))
@[simp] theorem State.reachOn_tsb (s : State) (kind i data : Nat) : (s.reachOn kind i data).tsb = s.tsb := 
  (State.sansRings_tsb _).symm.trans ((congrArg State.tsb (State.reachOn_sansRings s kind i data)).trans (State.sansRings_tsb s))
@[simp] theorem State.reachOn_ptpServo (s : State) (kind i data : Nat) : (s.reachOn kind i data).ptpServo = s.ptpServo := 
  (State.sansRings_ptpServo _).symm.trans ((congrArg State.ptpServo (State.reachOn_sansRings s kind i data)).trans (State.sansRings_ptpServo s))
@[simp] theorem State.reachOn_mem (s : State) (kind i data : Nat) : (s.reachOn kind i data).mem = s.mem := 
  (State.sansRings_mem _).symm.trans ((congrArg State.mem (State.reachOn_sansRings s kind i data)).trans (State.sansRings_mem s))
@[simp] theorem State.reachOn_injRecs (s : State) (kind i data : Nat) : (s.reachOn kind i data).injRecs = s.injRecs := 
  (State.sansRings_injRecs _).symm.trans ((congrArg State.injRecs (State.reachOn_sansRings s kind i data)).trans (State.sansRings_injRecs s))
@[simp] theorem State.reachOn_filled (s : State) (kind i data : Nat) : (s.reachOn kind i data).filled = s.filled := 
  (State.sansRings_filled _).symm.trans ((congrArg State.filled (State.reachOn_sansRings s kind i data)).trans (State.sansRings_filled s))
@[simp] theorem State.reachOn_images (s : State) (kind i data : Nat) : (s.reachOn kind i data).images = s.images := 
  (State.sansRings_images _).symm.trans ((congrArg State.images (State.reachOn_sansRings s kind i data)).trans (State.sansRings_images s))
@[simp] theorem State.reachOn_chkLeft (s : State) (kind i data : Nat) : (s.reachOn kind i data).chkLeft = s.chkLeft := 
  (State.sansRings_chkLeft _).symm.trans ((congrArg State.chkLeft (State.reachOn_sansRings s kind i data)).trans (State.sansRings_chkLeft s))
@[simp] theorem State.reachOn_badRows (s : State) (kind i data : Nat) : (s.reachOn kind i data).badRows = s.badRows := 
  (State.sansRings_badRows _).symm.trans ((congrArg State.badRows (State.reachOn_sansRings s kind i data)).trans (State.sansRings_badRows s))
@[simp] theorem State.reachOn_lost (s : State) (kind i data : Nat) : (s.reachOn kind i data).lost = s.lost := 
  (State.sansRings_lost _).symm.trans ((congrArg State.lost (State.reachOn_sansRings s kind i data)).trans (State.sansRings_lost s))
@[simp] theorem State.reachOn_celCe (s : State) (kind i data : Nat) : (s.reachOn kind i data).celCe = s.celCe := 
  (State.sansRings_celCe _).symm.trans ((congrArg State.celCe (State.reachOn_sansRings s kind i data)).trans (State.sansRings_celCe s))
@[simp] theorem State.reachOn_celDly (s : State) (kind i data : Nat) : (s.reachOn kind i data).celDly = s.celDly := 
  (State.sansRings_celDly _).symm.trans ((congrArg State.celDly (State.reachOn_sansRings s kind i data)).trans (State.sansRings_celDly s))
@[simp] theorem State.reachOn_celVref (s : State) (kind i data : Nat) : (s.reachOn kind i data).celVref = s.celVref := 
  (State.sansRings_celVref _).symm.trans ((congrArg State.celVref (State.reachOn_sansRings s kind i data)).trans (State.sansRings_celVref s))
@[simp] theorem State.reachOn_pcs (s : State) (kind i data : Nat) : (s.reachOn kind i data).pcs = s.pcs := 
  (State.sansRings_pcs _).symm.trans ((congrArg State.pcs (State.reachOn_sansRings s kind i data)).trans (State.sansRings_pcs s))
@[simp] theorem State.reachOn_stackTab (s : State) (kind i data : Nat) : (s.reachOn kind i data).stackTab = s.stackTab := 
  (State.sansRings_stackTab _).symm.trans ((congrArg State.stackTab (State.reachOn_sansRings s kind i data)).trans (State.sansRings_stackTab s))
@[simp] theorem State.reachOn_ldrCol (s : State) (kind i data : Nat) : (s.reachOn kind i data).ldrCol = s.ldrCol := 
  (State.sansRings_ldrCol _).symm.trans ((congrArg State.ldrCol (State.reachOn_sansRings s kind i data)).trans (State.sansRings_ldrCol s))
@[simp] theorem State.reachOn_training (s : State) (kind i data : Nat) : (s.reachOn kind i data).training = s.training := 
  (State.sansRings_training _).symm.trans ((congrArg State.training (State.reachOn_sansRings s kind i data)).trans (State.sansRings_training s))
@[simp] theorem State.reachOn_adapting (s : State) (kind i data : Nat) : (s.reachOn kind i data).adapting = s.adapting := 
  (State.sansRings_adapting _).symm.trans ((congrArg State.adapting (State.reachOn_sansRings s kind i data)).trans (State.sansRings_adapting s))
@[simp] theorem State.reachOn_laneSet (s : State) (kind i data : Nat) : (s.reachOn kind i data).laneSet = s.laneSet := 
  (State.sansRings_laneSet _).symm.trans ((congrArg State.laneSet (State.reachOn_sansRings s kind i data)).trans (State.sansRings_laneSet s))
@[simp] theorem State.reachOn_blFrom (s : State) (kind i data : Nat) : (s.reachOn kind i data).blFrom = s.blFrom := 
  (State.sansRings_blFrom _).symm.trans ((congrArg State.blFrom (State.reachOn_sansRings s kind i data)).trans (State.sansRings_blFrom s))
@[simp] theorem State.reachOn_qps (s : State) (kind i data : Nat) : (s.reachOn kind i data).qps = s.qps := 
  (State.sansRings_qps _).symm.trans ((congrArg State.qps (State.reachOn_sansRings s kind i data)).trans (State.sansRings_qps s))
@[simp] theorem State.reachOn_hchs (s : State) (kind i data : Nat) : (s.reachOn kind i data).hchs = s.hchs := 
  (State.sansRings_hchs _).symm.trans ((congrArg State.hchs (State.reachOn_sansRings s kind i data)).trans (State.sansRings_hchs s))
@[simp] theorem State.reachOn_hgrant (s : State) (kind i data : Nat) : (s.reachOn kind i data).hgrant = s.hgrant := 
  (State.sansRings_hgrant _).symm.trans ((congrArg State.hgrant (State.reachOn_sansRings s kind i data)).trans (State.sansRings_hgrant s))
@[simp] theorem State.reachOn_ptpPos (s : State) (kind i data : Nat) : (s.reachOn kind i data).ptpPos = s.ptpPos := 
  (State.sansRings_ptpPos _).symm.trans ((congrArg State.ptpPos (State.reachOn_sansRings s kind i data)).trans (State.sansRings_ptpPos s))
@[simp] theorem State.reachOn_cps (s : State) (kind i data : Nat) : (s.reachOn kind i data).cps = s.cps := 
  (State.sansRings_cps _).symm.trans ((congrArg State.cps (State.reachOn_sansRings s kind i data)).trans (State.sansRings_cps s))
@[simp] theorem State.reachOn_push (s : State) (kind i data : Nat) : (s.reachOn kind i data).push = s.push := 
  (State.sansRings_push _).symm.trans ((congrArg State.push (State.reachOn_sansRings s kind i data)).trans (State.sansRings_push s))
@[simp] theorem State.reachOn_bank0 (s : State) (kind i data : Nat) : (s.reachOn kind i data).bank0 = s.bank0 := 
  (State.sansRings_bank0 _).symm.trans ((congrArg State.bank0 (State.reachOn_sansRings s kind i data)).trans (State.sansRings_bank0 s))
@[simp] theorem State.reachOn_bank1 (s : State) (kind i data : Nat) : (s.reachOn kind i data).bank1 = s.bank1 := 
  (State.sansRings_bank1 _).symm.trans ((congrArg State.bank1 (State.reachOn_sansRings s kind i data)).trans (State.sansRings_bank1 s))
@[simp] theorem State.reachOn_sleep (s : State) (kind i data : Nat) : (s.reachOn kind i data).sleep = s.sleep := 
  (State.sansRings_sleep _).symm.trans ((congrArg State.sleep (State.reachOn_sansRings s kind i data)).trans (State.sansRings_sleep s))
@[simp] theorem State.reachOn_swap (s : State) (kind i data : Nat) : (s.reachOn kind i data).swap = s.swap := 
  (State.sansRings_swap _).symm.trans ((congrArg State.swap (State.reachOn_sansRings s kind i data)).trans (State.sansRings_swap s))
@[simp] theorem State.reachOn_resetReq (s : State) (kind i data : Nat) : (s.reachOn kind i data).resetReq = s.resetReq := 
  (State.sansRings_resetReq _).symm.trans ((congrArg State.resetReq (State.reachOn_sansRings s kind i data)).trans (State.sansRings_resetReq s))
@[simp] theorem State.reachOn_wakeN (s : State) (kind i data : Nat) : (s.reachOn kind i data).wakeN = s.wakeN := 
  (State.sansRings_wakeN _).symm.trans ((congrArg State.wakeN (State.reachOn_sansRings s kind i data)).trans (State.sansRings_wakeN s))
@[simp] theorem State.reachOn_rails (s : State) (kind i data : Nat) : (s.reachOn kind i data).rails = s.rails := 
  (State.sansRings_rails _).symm.trans ((congrArg State.rails (State.reachOn_sansRings s kind i data)).trans (State.sansRings_rails s))
@[simp] theorem State.reachOn_railF (s : State) (kind i data : Nat) : (s.reachOn kind i data).railF = s.railF := 
  (State.sansRings_railF _).symm.trans ((congrArg State.railF (State.reachOn_sansRings s kind i data)).trans (State.sansRings_railF s))
@[simp] theorem State.reachOn_avsAgain (s : State) (kind i data : Nat) : (s.reachOn kind i data).avsAgain = s.avsAgain := 
  (State.sansRings_avsAgain _).symm.trans ((congrArg State.avsAgain (State.reachOn_sansRings s kind i data)).trans (State.sansRings_avsAgain s))
@[simp] theorem State.reachOn_voutExp (s : State) (kind i data : Nat) : (s.reachOn kind i data).voutExp = s.voutExp := 
  (State.sansRings_voutExp _).symm.trans ((congrArg State.voutExp (State.reachOn_sansRings s kind i data)).trans (State.sansRings_voutExp s))
@[simp] theorem State.reachOn_straps (s : State) (kind i data : Nat) : (s.reachOn kind i data).straps = s.straps := 
  (State.sansRings_straps _).symm.trans ((congrArg State.straps (State.reachOn_sansRings s kind i data)).trans (State.sansRings_straps s))
@[simp] theorem State.reachOn_strm (s : State) (kind i data : Nat) (k : Nat) : (s.reachOn kind i data).strm k = s.strm k := 
  (State.sansRings_strm _ k).symm.trans ((congrArg (fun s => State.strm s k) (State.reachOn_sansRings s kind i data)).trans (State.sansRings_strm s k))
@[simp] theorem State.reachOn_gen (s : State) (kind i data : Nat) (k : Nat) : (s.reachOn kind i data).gen k = s.gen k := 
  (State.sansRings_gen _ k).symm.trans ((congrArg (fun s => State.gen s k) (State.reachOn_sansRings s kind i data)).trans (State.sansRings_gen s k))
@[simp] theorem State.reachOn_feed (s : State) (kind i data : Nat) (k : Nat) : (s.reachOn kind i data).feed k = s.feed k := 
  (State.sansRings_feed _ k).symm.trans ((congrArg (fun s => State.feed s k) (State.reachOn_sansRings s kind i data)).trans (State.sansRings_feed s k))
@[simp] theorem State.reachOn_crew (s : State) (kind i data : Nat) (k : Nat) : (s.reachOn kind i data).crew k = s.crew k := 
  (State.sansRings_crew _ k).symm.trans ((congrArg (fun s => State.crew s k) (State.reachOn_sansRings s kind i data)).trans (State.sansRings_crew s k))
@[simp] theorem State.reachOn_run (s : State) (kind i data : Nat) (k : Nat) : (s.reachOn kind i data).run k = s.run k := 
  (State.sansRings_run _ k).symm.trans ((congrArg (fun s => State.run s k) (State.reachOn_sansRings s kind i data)).trans (State.sansRings_run s k))
@[simp] theorem State.reachOn_tallySrc (s : State) (kind i data : Nat) (k : Nat) : (s.reachOn kind i data).tallySrc k = s.tallySrc k := 
  (State.sansRings_tallySrc _ k).symm.trans ((congrArg (fun s => State.tallySrc s k) (State.reachOn_sansRings s kind i data)).trans (State.sansRings_tallySrc s k))
@[simp] theorem State.reachOn_cp (s : State) (kind i data : Nat) (k : Nat) : (s.reachOn kind i data).cp k = s.cp k := 
  (State.sansRings_cp _ k).symm.trans ((congrArg (fun s => State.cp s k) (State.reachOn_sansRings s kind i data)).trans (State.sansRings_cp s k))
@[simp] theorem State.reachOn_slotPicOf (s : State) (kind i data : Nat) (k : Nat) : (s.reachOn kind i data).slotPicOf k = s.slotPicOf k := 
  (State.sansRings_slotPicOf _ k).symm.trans ((congrArg (fun s => State.slotPicOf s k) (State.reachOn_sansRings s kind i data)).trans (State.sansRings_slotPicOf s k))
@[simp] theorem State.reachOn_window (s : State) (kind i data : Nat) (k : Nat) : (s.reachOn kind i data).window k = s.window k := 
  (State.sansRings_window _ k).symm.trans ((congrArg (fun s => State.window s k) (State.reachOn_sansRings s kind i data)).trans (State.sansRings_window s k))
@[simp] theorem State.reachOn_frames (s : State) (kind i data : Nat) (k : Nat) : (s.reachOn kind i data).frames k = s.frames k := 
  (State.sansRings_frames _ k).symm.trans ((congrArg (fun s => State.frames s k) (State.reachOn_sansRings s kind i data)).trans (State.sansRings_frames s k))
@[simp] theorem State.reachOn_sub (s : State) (kind i data : Nat) (k : Nat) : (s.reachOn kind i data).sub k = s.sub k := 
  (State.sansRings_sub _ k).symm.trans ((congrArg (fun s => State.sub s k) (State.reachOn_sansRings s kind i data)).trans (State.sansRings_sub s k))
@[simp] theorem State.reachOn_stack (s : State) (kind i data : Nat) (k : Nat) : (s.reachOn kind i data).stack k = s.stack k := 
  (State.sansRings_stack _ k).symm.trans ((congrArg (fun s => State.stack s k) (State.reachOn_sansRings s kind i data)).trans (State.sansRings_stack s k))
@[simp] theorem State.reachOn_seq (s : State) (kind i data : Nat) (k : Nat) : (s.reachOn kind i data).seq k = s.seq k := 
  (State.sansRings_seq _ k).symm.trans ((congrArg (fun s => State.seq s k) (State.reachOn_sansRings s kind i data)).trans (State.sansRings_seq s k))
@[simp] theorem State.reachOn_hch (s : State) (kind i data : Nat) (k : Nat) : (s.reachOn kind i data).hch k = s.hch k := 
  (State.sansRings_hch _ k).symm.trans ((congrArg (fun s => State.hch s k) (State.reachOn_sansRings s kind i data)).trans (State.sansRings_hch s k))
@[simp] theorem State.reachOn_qp (s : State) (kind i data : Nat) (k : Nat) : (s.reachOn kind i data).qp k = s.qp k := 
  (State.sansRings_qp _ k).symm.trans ((congrArg (fun s => State.qp s k) (State.reachOn_sansRings s kind i data)).trans (State.sansRings_qp s k))

/-! ### reachOff -/

@[simp] theorem State.reachOff_pending (s : State) (kind i : Nat) (check : Option Nat) (data : Nat) : (s.reachOff kind i check data).pending = s.pending := 
  (State.sansRings_pending _).symm.trans ((congrArg State.pending (State.reachOff_sansRings s kind i check data)).trans (State.sansRings_pending s))
@[simp] theorem State.reachOff_part (s : State) (kind i : Nat) (check : Option Nat) (data : Nat) : (s.reachOff kind i check data).part = s.part := 
  (State.sansRings_part _).symm.trans ((congrArg State.part (State.reachOff_sansRings s kind i check data)).trans (State.sansRings_part s))
@[simp] theorem State.reachOff_rst (s : State) (kind i : Nat) (check : Option Nat) (data : Nat) : (s.reachOff kind i check data).rst = s.rst := 
  (State.sansRings_rst _).symm.trans ((congrArg State.rst (State.reachOff_sansRings s kind i check data)).trans (State.sansRings_rst s))
@[simp] theorem State.reachOff_now (s : State) (kind i : Nat) (check : Option Nat) (data : Nat) : (s.reachOff kind i check data).now = s.now := 
  (State.sansRings_now _).symm.trans ((congrArg State.now (State.reachOff_sansRings s kind i check data)).trans (State.sansRings_now s))
@[simp] theorem State.reachOff_prev (s : State) (kind i : Nat) (check : Option Nat) (data : Nat) : (s.reachOff kind i check data).prev = s.prev := 
  (State.sansRings_prev _).symm.trans ((congrArg State.prev (State.reachOff_sansRings s kind i check data)).trans (State.sansRings_prev s))
@[simp] theorem State.reachOff_cyc (s : State) (kind i : Nat) (check : Option Nat) (data : Nat) : (s.reachOff kind i check data).cyc = s.cyc := 
  (State.sansRings_cyc _).symm.trans ((congrArg State.cyc (State.reachOff_sansRings s kind i check data)).trans (State.sansRings_cyc s))
@[simp] theorem State.reachOff_fired (s : State) (kind i : Nat) (check : Option Nat) (data : Nat) : (s.reachOff kind i check data).fired = s.fired := 
  (State.sansRings_fired _).symm.trans ((congrArg State.fired (State.reachOff_sansRings s kind i check data)).trans (State.sansRings_fired s))
@[simp] theorem State.reachOff_freed (s : State) (kind i : Nat) (check : Option Nat) (data : Nat) : (s.reachOff kind i check data).freed = s.freed := 
  (State.sansRings_freed _).symm.trans ((congrArg State.freed (State.reachOff_sansRings s kind i check data)).trans (State.sansRings_freed s))
@[simp] theorem State.reachOff_waitDue (s : State) (kind i : Nat) (check : Option Nat) (data : Nat) : (s.reachOff kind i check data).waitDue = s.waitDue := 
  (State.sansRings_waitDue _).symm.trans ((congrArg State.waitDue (State.reachOff_sansRings s kind i check data)).trans (State.sansRings_waitDue s))
@[simp] theorem State.reachOff_turns (s : State) (kind i : Nat) (check : Option Nat) (data : Nat) : (s.reachOff kind i check data).turns = s.turns := 
  (State.sansRings_turns _).symm.trans ((congrArg State.turns (State.reachOff_sansRings s kind i check data)).trans (State.sansRings_turns s))
@[simp] theorem State.reachOff_rate (s : State) (kind i : Nat) (check : Option Nat) (data : Nat) : (s.reachOff kind i check data).rate = s.rate := 
  (State.sansRings_rate _).symm.trans ((congrArg State.rate (State.reachOff_sansRings s kind i check data)).trans (State.sansRings_rate s))
@[simp] theorem State.reachOff_ppsNs (s : State) (kind i : Nat) (check : Option Nat) (data : Nat) : (s.reachOff kind i check data).ppsNs = s.ppsNs := 
  (State.sansRings_ppsNs _).symm.trans ((congrArg State.ppsNs (State.reachOff_sansRings s kind i check data)).trans (State.sansRings_ppsNs s))
@[simp] theorem State.reachOff_ppsHigh (s : State) (kind i : Nat) (check : Option Nat) (data : Nat) : (s.reachOff kind i check data).ppsHigh = s.ppsHigh := 
  (State.sansRings_ppsHigh _).symm.trans ((congrArg State.ppsHigh (State.reachOff_sansRings s kind i check data)).trans (State.sansRings_ppsHigh s))
@[simp] theorem State.reachOff_relock (s : State) (kind i : Nat) (check : Option Nat) (data : Nat) : (s.reachOff kind i check data).relock = s.relock := 
  (State.sansRings_relock _).symm.trans ((congrArg State.relock (State.reachOff_sansRings s kind i check data)).trans (State.sansRings_relock s))
@[simp] theorem State.reachOff_gens (s : State) (kind i : Nat) (check : Option Nat) (data : Nat) : (s.reachOff kind i check data).gens = s.gens := 
  (State.sansRings_gens _).symm.trans ((congrArg State.gens (State.reachOff_sansRings s kind i check data)).trans (State.sansRings_gens s))
@[simp] theorem State.reachOff_freeCtr (s : State) (kind i : Nat) (check : Option Nat) (data : Nat) : (s.reachOff kind i check data).freeCtr = s.freeCtr := 
  (State.sansRings_freeCtr _).symm.trans ((congrArg State.freeCtr (State.reachOff_sansRings s kind i check data)).trans (State.sansRings_freeCtr s))
@[simp] theorem State.reachOff_tsrc (s : State) (kind i : Nat) (check : Option Nat) (data : Nat) : (s.reachOff kind i check data).tsrc = s.tsrc := 
  (State.sansRings_tsrc _).symm.trans ((congrArg State.tsrc (State.reachOff_sansRings s kind i check data)).trans (State.sansRings_tsrc s))
@[simp] theorem State.reachOff_twin (s : State) (kind i : Nat) (check : Option Nat) (data : Nat) : (s.reachOff kind i check data).twin = s.twin := 
  (State.sansRings_twin _).symm.trans ((congrArg State.twin (State.reachOff_sansRings s kind i check data)).trans (State.sansRings_twin s))
@[simp] theorem State.reachOff_gath (s : State) (kind i : Nat) (check : Option Nat) (data : Nat) : (s.reachOff kind i check data).gath = s.gath := 
  (State.sansRings_gath _).symm.trans ((congrArg State.gath (State.reachOff_sansRings s kind i check data)).trans (State.sansRings_gath s))
@[simp] theorem State.reachOff_claimed (s : State) (kind i : Nat) (check : Option Nat) (data : Nat) : (s.reachOff kind i check data).claimed = s.claimed := 
  (State.sansRings_claimed _).symm.trans ((congrArg State.claimed (State.reachOff_sansRings s kind i check data)).trans (State.sansRings_claimed s))
@[simp] theorem State.reachOff_tgtDef (s : State) (kind i : Nat) (check : Option Nat) (data : Nat) : (s.reachOff kind i check data).tgtDef = s.tgtDef := 
  (State.sansRings_tgtDef _).symm.trans ((congrArg State.tgtDef (State.reachOff_sansRings s kind i check data)).trans (State.sansRings_tgtDef s))
@[simp] theorem State.reachOff_holdOff (s : State) (kind i : Nat) (check : Option Nat) (data : Nat) : (s.reachOff kind i check data).holdOff = s.holdOff := 
  (State.sansRings_holdOff _).symm.trans ((congrArg State.holdOff (State.reachOff_sansRings s kind i check data)).trans (State.sansRings_holdOff s))
@[simp] theorem State.reachOff_pins (s : State) (kind i : Nat) (check : Option Nat) (data : Nat) : (s.reachOff kind i check data).pins = s.pins := 
  (State.sansRings_pins _).symm.trans ((congrArg State.pins (State.reachOff_sansRings s kind i check data)).trans (State.sansRings_pins s))
@[simp] theorem State.reachOff_looked (s : State) (kind i : Nat) (check : Option Nat) (data : Nat) : (s.reachOff kind i check data).looked = s.looked := 
  (State.sansRings_looked _).symm.trans ((congrArg State.looked (State.reachOff_sansRings s kind i check data)).trans (State.sansRings_looked s))
@[simp] theorem State.reachOff_preempt (s : State) (kind i : Nat) (check : Option Nat) (data : Nat) : (s.reachOff kind i check data).preempt = s.preempt := 
  (State.sansRings_preempt _).symm.trans ((congrArg State.preempt (State.reachOff_sansRings s kind i check data)).trans (State.sansRings_preempt s))
@[simp] theorem State.reachOff_lifted (s : State) (kind i : Nat) (check : Option Nat) (data : Nat) : (s.reachOff kind i check data).lifted = s.lifted := 
  (State.sansRings_lifted _).symm.trans ((congrArg State.lifted (State.reachOff_sansRings s kind i check data)).trans (State.sansRings_lifted s))
@[simp] theorem State.reachOff_streams (s : State) (kind i : Nat) (check : Option Nat) (data : Nat) : (s.reachOff kind i check data).streams = s.streams := 
  (State.sansRings_streams _).symm.trans ((congrArg State.streams (State.reachOff_sansRings s kind i check data)).trans (State.sansRings_streams s))
@[simp] theorem State.reachOff_feeds (s : State) (kind i : Nat) (check : Option Nat) (data : Nat) : (s.reachOff kind i check data).feeds = s.feeds := 
  (State.sansRings_feeds _).symm.trans ((congrArg State.feeds (State.reachOff_sansRings s kind i check data)).trans (State.sansRings_feeds s))
@[simp] theorem State.reachOff_crews (s : State) (kind i : Nat) (check : Option Nat) (data : Nat) : (s.reachOff kind i check data).crews = s.crews := 
  (State.sansRings_crews _).symm.trans ((congrArg State.crews (State.reachOff_sansRings s kind i check data)).trans (State.sansRings_crews s))
@[simp] theorem State.reachOff_runs (s : State) (kind i : Nat) (check : Option Nat) (data : Nat) : (s.reachOff kind i check data).runs = s.runs := 
  (State.sansRings_runs _).symm.trans ((congrArg State.runs (State.reachOff_sansRings s kind i check data)).trans (State.sansRings_runs s))
@[simp] theorem State.reachOff_ended (s : State) (kind i : Nat) (check : Option Nat) (data : Nat) : (s.reachOff kind i check data).ended = s.ended := 
  (State.sansRings_ended _).symm.trans ((congrArg State.ended (State.reachOff_sansRings s kind i check data)).trans (State.sansRings_ended s))
@[simp] theorem State.reachOff_seqs (s : State) (kind i : Nat) (check : Option Nat) (data : Nat) : (s.reachOff kind i check data).seqs = s.seqs := 
  (State.sansRings_seqs _).symm.trans ((congrArg State.seqs (State.reachOff_sansRings s kind i check data)).trans (State.sansRings_seqs s))
@[simp] theorem State.reachOff_therm (s : State) (kind i : Nat) (check : Option Nat) (data : Nat) : (s.reachOff kind i check data).therm = s.therm := 
  (State.sansRings_therm _).symm.trans ((congrArg State.therm (State.reachOff_sansRings s kind i check data)).trans (State.sansRings_therm s))
@[simp] theorem State.reachOff_progs (s : State) (kind i : Nat) (check : Option Nat) (data : Nat) : (s.reachOff kind i check data).progs = s.progs := 
  (State.sansRings_progs _).symm.trans ((congrArg State.progs (State.reachOff_sansRings s kind i check data)).trans (State.sansRings_progs s))
@[simp] theorem State.reachOff_scache (s : State) (kind i : Nat) (check : Option Nat) (data : Nat) : (s.reachOff kind i check data).scache = s.scache := 
  (State.sansRings_scache _).symm.trans ((congrArg State.scache (State.reachOff_sansRings s kind i check data)).trans (State.sansRings_scache s))
@[simp] theorem State.reachOff_slotPic (s : State) (kind i : Nat) (check : Option Nat) (data : Nat) : (s.reachOff kind i check data).slotPic = s.slotPic := 
  (State.sansRings_slotPic _).symm.trans ((congrArg State.slotPic (State.reachOff_sansRings s kind i check data)).trans (State.sansRings_slotPic s))
@[simp] theorem State.reachOff_slotSz (s : State) (kind i : Nat) (check : Option Nat) (data : Nat) : (s.reachOff kind i check data).slotSz = s.slotSz := 
  (State.sansRings_slotSz _).symm.trans ((congrArg State.slotSz (State.reachOff_sansRings s kind i check data)).trans (State.sansRings_slotSz s))
@[simp] theorem State.reachOff_slotNref (s : State) (kind i : Nat) (check : Option Nat) (data : Nat) : (s.reachOff kind i check data).slotNref = s.slotNref := 
  (State.sansRings_slotNref _).symm.trans ((congrArg State.slotNref (State.reachOff_sansRings s kind i check data)).trans (State.sansRings_slotNref s))
@[simp] theorem State.reachOff_slotC (s : State) (kind i : Nat) (check : Option Nat) (data : Nat) : (s.reachOff kind i check data).slotC = s.slotC := 
  (State.sansRings_slotC _).symm.trans ((congrArg State.slotC (State.reachOff_sansRings s kind i check data)).trans (State.sansRings_slotC s))
@[simp] theorem State.reachOff_retPend (s : State) (kind i : Nat) (check : Option Nat) (data : Nat) : (s.reachOff kind i check data).retPend = s.retPend := 
  (State.sansRings_retPend _).symm.trans ((congrArg State.retPend (State.reachOff_sansRings s kind i check data)).trans (State.sansRings_retPend s))
@[simp] theorem State.reachOff_egr (s : State) (kind i : Nat) (check : Option Nat) (data : Nat) : (s.reachOff kind i check data).egr = s.egr := 
  (State.sansRings_egr _).symm.trans ((congrArg State.egr (State.reachOff_sansRings s kind i check data)).trans (State.sansRings_egr s))
@[simp] theorem State.reachOff_txFree (s : State) (kind i : Nat) (check : Option Nat) (data : Nat) : (s.reachOff kind i check data).txFree = s.txFree := 
  (State.sansRings_txFree _).symm.trans ((congrArg State.txFree (State.reachOff_sansRings s kind i check data)).trans (State.sansRings_txFree s))
@[simp] theorem State.reachOff_frameNo (s : State) (kind i : Nat) (check : Option Nat) (data : Nat) : (s.reachOff kind i check data).frameNo = s.frameNo := 
  (State.sansRings_frameNo _).symm.trans ((congrArg State.frameNo (State.reachOff_sansRings s kind i check data)).trans (State.sansRings_frameNo s))
@[simp] theorem State.reachOff_rtpSeq (s : State) (kind i : Nat) (check : Option Nat) (data : Nat) : (s.reachOff kind i check data).rtpSeq = s.rtpSeq := 
  (State.sansRings_rtpSeq _).symm.trans ((congrArg State.rtpSeq (State.reachOff_sansRings s kind i check data)).trans (State.sansRings_rtpSeq s))
@[simp] theorem State.reachOff_subs (s : State) (kind i : Nat) (check : Option Nat) (data : Nat) : (s.reachOff kind i check data).subs = s.subs := 
  (State.sansRings_subs _).symm.trans ((congrArg State.subs (State.reachOff_sansRings s kind i check data)).trans (State.sansRings_subs s))
@[simp] theorem State.reachOff_shapers (s : State) (kind i : Nat) (check : Option Nat) (data : Nat) : (s.reachOff kind i check data).shapers = s.shapers := 
  (State.sansRings_shapers _).symm.trans ((congrArg State.shapers (State.reachOff_sansRings s kind i check data)).trans (State.sansRings_shapers s))
@[simp] theorem State.reachOff_gates (s : State) (kind i : Nat) (check : Option Nat) (data : Nat) : (s.reachOff kind i check data).gates = s.gates := 
  (State.sansRings_gates _).symm.trans ((congrArg State.gates (State.reachOff_sansRings s kind i check data)).trans (State.sansRings_gates s))
@[simp] theorem State.reachOff_ptpRx (s : State) (kind i : Nat) (check : Option Nat) (data : Nat) : (s.reachOff kind i check data).ptpRx = s.ptpRx := 
  (State.sansRings_ptpRx _).symm.trans ((congrArg State.ptpRx (State.reachOff_sansRings s kind i check data)).trans (State.sansRings_ptpRx s))
@[simp] theorem State.reachOff_tsb (s : State) (kind i : Nat) (check : Option Nat) (data : Nat) : (s.reachOff kind i check data).tsb = s.tsb := 
  (State.sansRings_tsb _).symm.trans ((congrArg State.tsb (State.reachOff_sansRings s kind i check data)).trans (State.sansRings_tsb s))
@[simp] theorem State.reachOff_ptpServo (s : State) (kind i : Nat) (check : Option Nat) (data : Nat) : (s.reachOff kind i check data).ptpServo = s.ptpServo := 
  (State.sansRings_ptpServo _).symm.trans ((congrArg State.ptpServo (State.reachOff_sansRings s kind i check data)).trans (State.sansRings_ptpServo s))
@[simp] theorem State.reachOff_mem (s : State) (kind i : Nat) (check : Option Nat) (data : Nat) : (s.reachOff kind i check data).mem = s.mem := 
  (State.sansRings_mem _).symm.trans ((congrArg State.mem (State.reachOff_sansRings s kind i check data)).trans (State.sansRings_mem s))
@[simp] theorem State.reachOff_injRecs (s : State) (kind i : Nat) (check : Option Nat) (data : Nat) : (s.reachOff kind i check data).injRecs = s.injRecs := 
  (State.sansRings_injRecs _).symm.trans ((congrArg State.injRecs (State.reachOff_sansRings s kind i check data)).trans (State.sansRings_injRecs s))
@[simp] theorem State.reachOff_filled (s : State) (kind i : Nat) (check : Option Nat) (data : Nat) : (s.reachOff kind i check data).filled = s.filled := 
  (State.sansRings_filled _).symm.trans ((congrArg State.filled (State.reachOff_sansRings s kind i check data)).trans (State.sansRings_filled s))
@[simp] theorem State.reachOff_images (s : State) (kind i : Nat) (check : Option Nat) (data : Nat) : (s.reachOff kind i check data).images = s.images := 
  (State.sansRings_images _).symm.trans ((congrArg State.images (State.reachOff_sansRings s kind i check data)).trans (State.sansRings_images s))
@[simp] theorem State.reachOff_chkLeft (s : State) (kind i : Nat) (check : Option Nat) (data : Nat) : (s.reachOff kind i check data).chkLeft = s.chkLeft := 
  (State.sansRings_chkLeft _).symm.trans ((congrArg State.chkLeft (State.reachOff_sansRings s kind i check data)).trans (State.sansRings_chkLeft s))
@[simp] theorem State.reachOff_badRows (s : State) (kind i : Nat) (check : Option Nat) (data : Nat) : (s.reachOff kind i check data).badRows = s.badRows := 
  (State.sansRings_badRows _).symm.trans ((congrArg State.badRows (State.reachOff_sansRings s kind i check data)).trans (State.sansRings_badRows s))
@[simp] theorem State.reachOff_lost (s : State) (kind i : Nat) (check : Option Nat) (data : Nat) : (s.reachOff kind i check data).lost = s.lost := 
  (State.sansRings_lost _).symm.trans ((congrArg State.lost (State.reachOff_sansRings s kind i check data)).trans (State.sansRings_lost s))
@[simp] theorem State.reachOff_celCe (s : State) (kind i : Nat) (check : Option Nat) (data : Nat) : (s.reachOff kind i check data).celCe = s.celCe := 
  (State.sansRings_celCe _).symm.trans ((congrArg State.celCe (State.reachOff_sansRings s kind i check data)).trans (State.sansRings_celCe s))
@[simp] theorem State.reachOff_celDly (s : State) (kind i : Nat) (check : Option Nat) (data : Nat) : (s.reachOff kind i check data).celDly = s.celDly := 
  (State.sansRings_celDly _).symm.trans ((congrArg State.celDly (State.reachOff_sansRings s kind i check data)).trans (State.sansRings_celDly s))
@[simp] theorem State.reachOff_celVref (s : State) (kind i : Nat) (check : Option Nat) (data : Nat) : (s.reachOff kind i check data).celVref = s.celVref := 
  (State.sansRings_celVref _).symm.trans ((congrArg State.celVref (State.reachOff_sansRings s kind i check data)).trans (State.sansRings_celVref s))
@[simp] theorem State.reachOff_pcs (s : State) (kind i : Nat) (check : Option Nat) (data : Nat) : (s.reachOff kind i check data).pcs = s.pcs := 
  (State.sansRings_pcs _).symm.trans ((congrArg State.pcs (State.reachOff_sansRings s kind i check data)).trans (State.sansRings_pcs s))
@[simp] theorem State.reachOff_stackTab (s : State) (kind i : Nat) (check : Option Nat) (data : Nat) : (s.reachOff kind i check data).stackTab = s.stackTab := 
  (State.sansRings_stackTab _).symm.trans ((congrArg State.stackTab (State.reachOff_sansRings s kind i check data)).trans (State.sansRings_stackTab s))
@[simp] theorem State.reachOff_ldrCol (s : State) (kind i : Nat) (check : Option Nat) (data : Nat) : (s.reachOff kind i check data).ldrCol = s.ldrCol := 
  (State.sansRings_ldrCol _).symm.trans ((congrArg State.ldrCol (State.reachOff_sansRings s kind i check data)).trans (State.sansRings_ldrCol s))
@[simp] theorem State.reachOff_training (s : State) (kind i : Nat) (check : Option Nat) (data : Nat) : (s.reachOff kind i check data).training = s.training := 
  (State.sansRings_training _).symm.trans ((congrArg State.training (State.reachOff_sansRings s kind i check data)).trans (State.sansRings_training s))
@[simp] theorem State.reachOff_adapting (s : State) (kind i : Nat) (check : Option Nat) (data : Nat) : (s.reachOff kind i check data).adapting = s.adapting := 
  (State.sansRings_adapting _).symm.trans ((congrArg State.adapting (State.reachOff_sansRings s kind i check data)).trans (State.sansRings_adapting s))
@[simp] theorem State.reachOff_laneSet (s : State) (kind i : Nat) (check : Option Nat) (data : Nat) : (s.reachOff kind i check data).laneSet = s.laneSet := 
  (State.sansRings_laneSet _).symm.trans ((congrArg State.laneSet (State.reachOff_sansRings s kind i check data)).trans (State.sansRings_laneSet s))
@[simp] theorem State.reachOff_blFrom (s : State) (kind i : Nat) (check : Option Nat) (data : Nat) : (s.reachOff kind i check data).blFrom = s.blFrom := 
  (State.sansRings_blFrom _).symm.trans ((congrArg State.blFrom (State.reachOff_sansRings s kind i check data)).trans (State.sansRings_blFrom s))
@[simp] theorem State.reachOff_qps (s : State) (kind i : Nat) (check : Option Nat) (data : Nat) : (s.reachOff kind i check data).qps = s.qps := 
  (State.sansRings_qps _).symm.trans ((congrArg State.qps (State.reachOff_sansRings s kind i check data)).trans (State.sansRings_qps s))
@[simp] theorem State.reachOff_hchs (s : State) (kind i : Nat) (check : Option Nat) (data : Nat) : (s.reachOff kind i check data).hchs = s.hchs := 
  (State.sansRings_hchs _).symm.trans ((congrArg State.hchs (State.reachOff_sansRings s kind i check data)).trans (State.sansRings_hchs s))
@[simp] theorem State.reachOff_hgrant (s : State) (kind i : Nat) (check : Option Nat) (data : Nat) : (s.reachOff kind i check data).hgrant = s.hgrant := 
  (State.sansRings_hgrant _).symm.trans ((congrArg State.hgrant (State.reachOff_sansRings s kind i check data)).trans (State.sansRings_hgrant s))
@[simp] theorem State.reachOff_ptpPos (s : State) (kind i : Nat) (check : Option Nat) (data : Nat) : (s.reachOff kind i check data).ptpPos = s.ptpPos := 
  (State.sansRings_ptpPos _).symm.trans ((congrArg State.ptpPos (State.reachOff_sansRings s kind i check data)).trans (State.sansRings_ptpPos s))
@[simp] theorem State.reachOff_cps (s : State) (kind i : Nat) (check : Option Nat) (data : Nat) : (s.reachOff kind i check data).cps = s.cps := 
  (State.sansRings_cps _).symm.trans ((congrArg State.cps (State.reachOff_sansRings s kind i check data)).trans (State.sansRings_cps s))
@[simp] theorem State.reachOff_push (s : State) (kind i : Nat) (check : Option Nat) (data : Nat) : (s.reachOff kind i check data).push = s.push := 
  (State.sansRings_push _).symm.trans ((congrArg State.push (State.reachOff_sansRings s kind i check data)).trans (State.sansRings_push s))
@[simp] theorem State.reachOff_bank0 (s : State) (kind i : Nat) (check : Option Nat) (data : Nat) : (s.reachOff kind i check data).bank0 = s.bank0 := 
  (State.sansRings_bank0 _).symm.trans ((congrArg State.bank0 (State.reachOff_sansRings s kind i check data)).trans (State.sansRings_bank0 s))
@[simp] theorem State.reachOff_bank1 (s : State) (kind i : Nat) (check : Option Nat) (data : Nat) : (s.reachOff kind i check data).bank1 = s.bank1 := 
  (State.sansRings_bank1 _).symm.trans ((congrArg State.bank1 (State.reachOff_sansRings s kind i check data)).trans (State.sansRings_bank1 s))
@[simp] theorem State.reachOff_sleep (s : State) (kind i : Nat) (check : Option Nat) (data : Nat) : (s.reachOff kind i check data).sleep = s.sleep := 
  (State.sansRings_sleep _).symm.trans ((congrArg State.sleep (State.reachOff_sansRings s kind i check data)).trans (State.sansRings_sleep s))
@[simp] theorem State.reachOff_swap (s : State) (kind i : Nat) (check : Option Nat) (data : Nat) : (s.reachOff kind i check data).swap = s.swap := 
  (State.sansRings_swap _).symm.trans ((congrArg State.swap (State.reachOff_sansRings s kind i check data)).trans (State.sansRings_swap s))
@[simp] theorem State.reachOff_resetReq (s : State) (kind i : Nat) (check : Option Nat) (data : Nat) : (s.reachOff kind i check data).resetReq = s.resetReq := 
  (State.sansRings_resetReq _).symm.trans ((congrArg State.resetReq (State.reachOff_sansRings s kind i check data)).trans (State.sansRings_resetReq s))
@[simp] theorem State.reachOff_wakeN (s : State) (kind i : Nat) (check : Option Nat) (data : Nat) : (s.reachOff kind i check data).wakeN = s.wakeN := 
  (State.sansRings_wakeN _).symm.trans ((congrArg State.wakeN (State.reachOff_sansRings s kind i check data)).trans (State.sansRings_wakeN s))
@[simp] theorem State.reachOff_rails (s : State) (kind i : Nat) (check : Option Nat) (data : Nat) : (s.reachOff kind i check data).rails = s.rails := 
  (State.sansRings_rails _).symm.trans ((congrArg State.rails (State.reachOff_sansRings s kind i check data)).trans (State.sansRings_rails s))
@[simp] theorem State.reachOff_railF (s : State) (kind i : Nat) (check : Option Nat) (data : Nat) : (s.reachOff kind i check data).railF = s.railF := 
  (State.sansRings_railF _).symm.trans ((congrArg State.railF (State.reachOff_sansRings s kind i check data)).trans (State.sansRings_railF s))
@[simp] theorem State.reachOff_avsAgain (s : State) (kind i : Nat) (check : Option Nat) (data : Nat) : (s.reachOff kind i check data).avsAgain = s.avsAgain := 
  (State.sansRings_avsAgain _).symm.trans ((congrArg State.avsAgain (State.reachOff_sansRings s kind i check data)).trans (State.sansRings_avsAgain s))
@[simp] theorem State.reachOff_voutExp (s : State) (kind i : Nat) (check : Option Nat) (data : Nat) : (s.reachOff kind i check data).voutExp = s.voutExp := 
  (State.sansRings_voutExp _).symm.trans ((congrArg State.voutExp (State.reachOff_sansRings s kind i check data)).trans (State.sansRings_voutExp s))
@[simp] theorem State.reachOff_straps (s : State) (kind i : Nat) (check : Option Nat) (data : Nat) : (s.reachOff kind i check data).straps = s.straps := 
  (State.sansRings_straps _).symm.trans ((congrArg State.straps (State.reachOff_sansRings s kind i check data)).trans (State.sansRings_straps s))
@[simp] theorem State.reachOff_strm (s : State) (kind i : Nat) (check : Option Nat) (data : Nat) (k : Nat) : (s.reachOff kind i check data).strm k = s.strm k := 
  (State.sansRings_strm _ k).symm.trans ((congrArg (fun s => State.strm s k) (State.reachOff_sansRings s kind i check data)).trans (State.sansRings_strm s k))
@[simp] theorem State.reachOff_gen (s : State) (kind i : Nat) (check : Option Nat) (data : Nat) (k : Nat) : (s.reachOff kind i check data).gen k = s.gen k := 
  (State.sansRings_gen _ k).symm.trans ((congrArg (fun s => State.gen s k) (State.reachOff_sansRings s kind i check data)).trans (State.sansRings_gen s k))
@[simp] theorem State.reachOff_feed (s : State) (kind i : Nat) (check : Option Nat) (data : Nat) (k : Nat) : (s.reachOff kind i check data).feed k = s.feed k := 
  (State.sansRings_feed _ k).symm.trans ((congrArg (fun s => State.feed s k) (State.reachOff_sansRings s kind i check data)).trans (State.sansRings_feed s k))
@[simp] theorem State.reachOff_crew (s : State) (kind i : Nat) (check : Option Nat) (data : Nat) (k : Nat) : (s.reachOff kind i check data).crew k = s.crew k := 
  (State.sansRings_crew _ k).symm.trans ((congrArg (fun s => State.crew s k) (State.reachOff_sansRings s kind i check data)).trans (State.sansRings_crew s k))
@[simp] theorem State.reachOff_run (s : State) (kind i : Nat) (check : Option Nat) (data : Nat) (k : Nat) : (s.reachOff kind i check data).run k = s.run k := 
  (State.sansRings_run _ k).symm.trans ((congrArg (fun s => State.run s k) (State.reachOff_sansRings s kind i check data)).trans (State.sansRings_run s k))
@[simp] theorem State.reachOff_tallySrc (s : State) (kind i : Nat) (check : Option Nat) (data : Nat) (k : Nat) : (s.reachOff kind i check data).tallySrc k = s.tallySrc k := 
  (State.sansRings_tallySrc _ k).symm.trans ((congrArg (fun s => State.tallySrc s k) (State.reachOff_sansRings s kind i check data)).trans (State.sansRings_tallySrc s k))
@[simp] theorem State.reachOff_cp (s : State) (kind i : Nat) (check : Option Nat) (data : Nat) (k : Nat) : (s.reachOff kind i check data).cp k = s.cp k := 
  (State.sansRings_cp _ k).symm.trans ((congrArg (fun s => State.cp s k) (State.reachOff_sansRings s kind i check data)).trans (State.sansRings_cp s k))
@[simp] theorem State.reachOff_slotPicOf (s : State) (kind i : Nat) (check : Option Nat) (data : Nat) (k : Nat) : (s.reachOff kind i check data).slotPicOf k = s.slotPicOf k := 
  (State.sansRings_slotPicOf _ k).symm.trans ((congrArg (fun s => State.slotPicOf s k) (State.reachOff_sansRings s kind i check data)).trans (State.sansRings_slotPicOf s k))
@[simp] theorem State.reachOff_window (s : State) (kind i : Nat) (check : Option Nat) (data : Nat) (k : Nat) : (s.reachOff kind i check data).window k = s.window k := 
  (State.sansRings_window _ k).symm.trans ((congrArg (fun s => State.window s k) (State.reachOff_sansRings s kind i check data)).trans (State.sansRings_window s k))
@[simp] theorem State.reachOff_frames (s : State) (kind i : Nat) (check : Option Nat) (data : Nat) (k : Nat) : (s.reachOff kind i check data).frames k = s.frames k := 
  (State.sansRings_frames _ k).symm.trans ((congrArg (fun s => State.frames s k) (State.reachOff_sansRings s kind i check data)).trans (State.sansRings_frames s k))
@[simp] theorem State.reachOff_sub (s : State) (kind i : Nat) (check : Option Nat) (data : Nat) (k : Nat) : (s.reachOff kind i check data).sub k = s.sub k := 
  (State.sansRings_sub _ k).symm.trans ((congrArg (fun s => State.sub s k) (State.reachOff_sansRings s kind i check data)).trans (State.sansRings_sub s k))
@[simp] theorem State.reachOff_stack (s : State) (kind i : Nat) (check : Option Nat) (data : Nat) (k : Nat) : (s.reachOff kind i check data).stack k = s.stack k := 
  (State.sansRings_stack _ k).symm.trans ((congrArg (fun s => State.stack s k) (State.reachOff_sansRings s kind i check data)).trans (State.sansRings_stack s k))
@[simp] theorem State.reachOff_seq (s : State) (kind i : Nat) (check : Option Nat) (data : Nat) (k : Nat) : (s.reachOff kind i check data).seq k = s.seq k := 
  (State.sansRings_seq _ k).symm.trans ((congrArg (fun s => State.seq s k) (State.reachOff_sansRings s kind i check data)).trans (State.sansRings_seq s k))
@[simp] theorem State.reachOff_hch (s : State) (kind i : Nat) (check : Option Nat) (data : Nat) (k : Nat) : (s.reachOff kind i check data).hch k = s.hch k := 
  (State.sansRings_hch _ k).symm.trans ((congrArg (fun s => State.hch s k) (State.reachOff_sansRings s kind i check data)).trans (State.sansRings_hch s k))
@[simp] theorem State.reachOff_qp (s : State) (kind i : Nat) (check : Option Nat) (data : Nat) (k : Nat) : (s.reachOff kind i check data).qp k = s.qp k := 
  (State.sansRings_qp _ k).symm.trans ((congrArg (fun s => State.qp s k) (State.reachOff_sansRings s kind i check data)).trans (State.sansRings_qp s k))
@[simp] theorem State.takeFetched_regs (s : State) (c : Cmd) : (s.takeFetched c).regs = s.regs := by rfl
@[simp] theorem State.takeFetched_hot (s : State) (c : Cmd) : (s.takeFetched c).hot = s.hot := by rfl
@[simp] theorem State.takeFetched_held (s : State) (c : Cmd) : (s.takeFetched c).held = s.held := by rfl
@[simp] theorem State.takeFetched_heldWait (s : State) (c : Cmd) : (s.takeFetched c).heldWait = s.heldWait := by rfl
@[simp] theorem State.takeFetched_rings (s : State) (c : Cmd) : (s.takeFetched c).rings = s.rings := by rfl
@[simp] theorem State.takeFetched_owed (s : State) (c : Cmd) : (s.takeFetched c).owed = s.owed := by rfl
@[simp] theorem State.takeFetched_outbox (s : State) (c : Cmd) : (s.takeFetched c).outbox = s.outbox := by rfl
@[simp] theorem State.takeFetched_get (s : State) (c : Cmd) (k : RF) : (s.takeFetched c).get k = s.get k := by
  simp [State.get, State.get, State.reg]
@[simp] theorem State.takeFetched_flag (s : State) (c : Cmd) (k : RF) : (s.takeFetched c).flag k = s.flag k := by
  simp [State.flag, State.flag, State.get, State.reg]
@[simp] theorem State.takeFetched_reg (s : State) (c : Cmd) (k : Nat) : (s.takeFetched c).reg k = s.reg k := by
  simp [State.reg, State.get, State.reg]
@[simp] theorem State.takeFetched_ring (s : State) (c : Cmd) (k : Nat) : (s.takeFetched c).ring k = s.ring k := by simp [State.ring]

end Sys2Proof.Machine
end

