-- ==== Sys2Proof/WellFormed.lean ====
section
/-!
DEFINITION. The operands of a command that its spec's own ranges bound, beyond what their types say. `exec` is total on every
operand; these checks name the terms that no event of the part can carry.
-/
namespace Sys2Proof

/-- The command's operands lie in the ranges of its rule. -/
def Instr.wellFormed (i : Instr) : Bool :=
  match i with
  | .rdmaDoorbell _ _ _ data => decide (data.length ≤ 4096)
  | .commandFetchReturn _ entries => (match entries with | none => true | some l => decide (1 ≤ l.length) && decide (l.length ≤ 64))
  | .ringWriteAck _ n _ => decide (1 ≤ n) && decide (n ≤ 64)
  | .ucodeLoad _ img => (match img with | none => true | some b => b.length == 73920)
  | .trainDone _ pre main post => decide (pre ≤ 8) && decide (post ≤ 12) && decide (8 ≤ main) && decide (main ≤ 32) && decide (pre + main + post ≤ 32) &&
      decide (pre + post + 8 ≤ main)
  | .binPtr _ bin => decide (bin ≤ 3)
  | .ptpTxBinWrite _ data => decide (16 ≤ data.length) && decide (data.length ≤ 256)
  | .hoistEntryFetch _ _ e => decide (e.length ≤ 16)
  | .hoistBurstStart _ _ data => decide (data.length ≤ 4096)
  | .cellarRequestIssue _ _ arr => arr.all (fun r => decide (r.addr < 2 ^ 48))
  | .arrayReadReturn _ addr _ => decide (addr < 2 ^ 48)
  | .cellarTempReading _ t => decide (-128 ≤ t) && decide (t ≤ 127)
  | .trnDone _ errs => errs.length == 38 && errs.all (fun v => decide (v < 2 ^ 32))
  | .repairWrite _ _ ca i _ => !ca || decide (i.val < 16)
  | .walkerRead _ addr => decide (addr < 2 ^ 48)
  | .thermalSample temps => temps.length == 48 && temps.all (fun t => decide (-128 ≤ t) && decide (t ≤ 127))
  | .railSample mv => mv.length == 12 && mv.all (fun v => decide (v < 4096))
  | .avsLoop counts => counts.length == 36 && counts.all (fun v => decide (v < 65536))
  | .timeInit .. | .timeStepGo .. | .timeRateLoad .. | .clksrcWrite .. | .pllRelock .. | .timeinLost ..
  | .ppsInCapture .. | .ppsOutRise .. | .ppsOutFall .. | .stroke .. | .strokeEnable .. | .strokeDisable ..
  | .timeNowRead .. | .ppsSecRead .. | .strokeIdxRead .. | .streamOpen .. | .allocationEnd .. | .streamClose ..
  | .streamOff .. | .slotFree .. | .feedCut .. | .mediaFrameRx .. | .queueWaitEnter .. | .jobTake .. | .jobComplete ..
  | .pictureRecordStage .. | .crewCeiling .. | .rowDeadline .. | .seatWrite .. | .crewOn .. | .crewOff ..
  | .admissionRerun .. | .leaseRequest .. | .ctuCharge .. | .rackSlotTake .. | .slotRetire .. | .shelfRefill ..
  | .decodeJobRelease .. | .decodeInputCut .. | .bowAheadDecode .. | .uCont .. | .uGoto .. | .uCase .. | .uCall ..
  | .uRet .. | .uLoop .. | .uCtu .. | .uEndj .. | .uAbort .. | .uMret .. | .uIdle .. | .trapEntry .. | .ucWaitTo ..
  | .preemptArrive .. | .residueVerdict .. | .ucsCeWriteback .. | .ucsWordRepair .. | .selfTestStart ..
  | .ucsAddrWrite .. | .ucsData4Write .. | .ucsData4Read .. | .runWrite .. | .tmodeWrite .. | .sumGo .. | .sumDone ..
  | .ustartGo .. | .clxRead .. | .clxWrite .. | .clxBlockWrite .. | .fwPush .. | .fwVerifyDone .. | .clxDoorbell ..
  | .clxWake .. | .resetReq .. | .clxPing .. | .cpArpReply .. | .pfcFrameRx .. | .qpCtlWrite .. | .qpAckTimeout ..
  | .qpNak .. | .rocePacketRx .. | .cnpReceive .. | .dcqcnRateTimer .. | .hwinCtlWrite .. | .ringCtlWrite ..
  | .commandFetch .. | .feedSetAdd .. | .feedSetChange .. | .feedSetRemove .. | .rateSet .. | .keyReq ..
  | .seiInsert .. | .prioSet .. | .hold .. | .release .. | .subOpen .. | .subClose .. | .subOff .. | .svcSet ..
  | .hoistCopy .. | .hoistFill .. | .timeStep .. | .timeStepInit .. | .strokeSet .. | .strokeSetDisable .. | .ptpSet ..
  | .unitEnable .. | .unitDisable .. | .celLaneRepairSet .. | .celRecalSet .. | .celRepairThresholdSet ..
  | .scrubRateSet .. | .scrubEnSet .. | .gateEntrySet .. | .gateListSet .. | .gateArmSet .. | .gateCancel ..
  | .laneTapsSet .. | .laneAdaptSet .. | .laneAdaptRestart .. | .tallyWinSet .. | .tallyNsevSet .. | .ucodeLoadDone ..
  | .sleep .. | .laneEnableReq .. | .laneDisableReq .. | .laneOn .. | .laneOff .. | .qmodeWrite .. | .laneCfgWrite ..
  | .blModeWrite .. | .loopbackSet .. | .anDone .. | .blockLock .. | .laneBlLoss .. | .slip .. | .laneLos ..
  | .losDeassert .. | .laneLol .. | .lolDeassert .. | .fecUcw .. | .txDoze .. | .txWake .. | .rxDoze .. | .rxWake ..
  | .dozeTransitionDone .. | .txeqWrite .. | .adaptRestart .. | .adaptDone .. | .prbsCtlWrite .. | .prbsInj ..
  | .prbsChkLock .. | .portEnableReq .. | .portDisableReq .. | .portOn .. | .portOff .. | .ptpRxBinRead ..
  | .tsbIdRead .. | .egressFrameStart .. | .frameStale .. | .shaperRefill .. | .gateEntry .. | .gateTakeover ..
  | .gateArm .. | .hoistChEnableReq .. | .hoistChDisableReq .. | .hoistChOn .. | .hoistChOff .. | .hoistGo ..
  | .hoistBurstDone .. | .hoistBuserr .. | .hoistTargetTimeout .. | .hoistPoison .. | .hoistResume ..
  | .hoistFwResume .. | .cellarRefresh .. | .cellarPowerDown .. | .cellarPdWake .. | .rowCloseTimeout .. | .trnGo ..
  | .mrwGo .. | .trafficEnWrite .. | .celPll .. | .scrubCtlWrite .. | .scrubRead .. | .flipArm .. | .flipClr ..
  | .chkInjArm .. | .ldrDataWrite .. | .ldrDataRead .. | .slideCrc .. | .queuePar .. | .tallyMessage ..
  | .tallyWindowStart .. | .tallyAck .. | .tallySevClear .. | .thermSecond .. | .evcClaim .. | .evcClaimRead ..
  | .evcDoneWrite .. | .evcTimer .. | .evtInFilter .. | .evtInCfgWrite .. | .holdOffExpiry .. | .evcPreemptWrite ..
  | .evcPendClear .. | .evcTgtWrite .. | .pdEnableReq .. | .pdDisableReq .. | .pdOn .. | .pdOff .. | .poreset ..
  | .resetN .. | .clxReset .. | .ready .. | .swapStart .. | .swapRevert .. | .sleepCommit .. | .mooredReached ..
  | .wakeNFall .. | .ptpAlarm .. | .wakeReady .. | .pmbAlert .. | .handWrite .. | .mgmtRegisterWrite ..
  | .poresetNRelease .. | .warmResetEnd .. | .wakeNRelease .. | .swapResume .. | .recalibrationRound ..
  | .tallySweepEnd .. => true

end Sys2Proof
end

