-- ==== Sys2Proof/Tests/Slice0.lean ====
section
/-!
SUPPORT. The model's own tests: what WellFormed refuses, values that the specification works out, a few steps, and for every statement of
Obligations.lean concrete states and operands that meet the premises of each of its clauses.
-/
set_option Elab.async false

namespace Sys2Proof.Tests
open Sys2Proof.Machine

/-! ## Small states and commands -/

/-- The state after reset with some register fields set. -/
def st (l : List (RF × Nat)) (s : State := State.reset) : State := l.foldl (fun s e => s.set e.1 e.2) s
/-- A descriptor: opcode, SUB, KIND, index, then fields as a byte offset and a value. -/
def mk (op sub kind idx : Nat) (fs : List (Nat × Nat) := []) (ep : Nat := 0) (ring : Fin 32 := 0) : Cmd :=
  ⟨ring, BitVec.ofNat 512 (op + sub * 2 ^ 8 + (idx + kind * 4096) * 2 ^ 16 + ep * 2 ^ 32 + fs.foldl (fun a f => a + f.2 * 2 ^ (8 * f.1)) 0)⟩
/-- A parameter block of 256 bytes with fields set. -/
def blk (fs : List (Nat × Nat)) (len : Nat := 256) : HostRead := some (leBytes len (fs.foldl (fun a f => a + f.2 * 2 ^ (8 * f.1)) 0))
def strm (n : Nat) (v : StreamS) (s : State) : State := s.setStrm n v
def ring0 : List (RF × Nat) := [(R.RINGi_CTL_EN 0, 1), (R.RINGi_CTL_EN 0x20, 1), (R.RINGi_CTL_LOG2SIZE 0x20, 12), (R.DEV_HEALTH_DSTATE, 2)]
def gen0 : List (RF × Nat) := [(R.STRKg_PNUM_PNUM 0, 4000000), (R.STRKg_PDEN_PDEN 0, 1), (R.STRKg_CTL_EN 0, 1)]
def win0 : List (RF × Nat) := [(R.HWINw_CTL_EN 0, 1), (R.HWINw_SIZE_SIZE 0, 1), (R.QPq_STAT_STATE 0, 1)]
def cel01 : List (RF × Nat) := [(R.CEL_CTL_TRAFFIC_EN 0, 1), (R.CEL_CTL_TRAFFIC_EN 1, 1)]

/-- Registers whose reset value is the part's own (eFuse) hold a word. -/
def raw (l : List (Nat × Word)) (s : State) : State :=
  { s with regs := l.foldl (fun r e => insertBy (fun x y => decide (x.1 < y.1)) e (r.filter (fun x => x.1 != e.1))) s.regs }

/-! ## How a witness is shown -/

theorem acc {s : State} {c : Cmd} {o k : Nat} {f : Option Nat}
    (h : (dOpc c.desc = o ∧ s.mayBegin c = true ∧ dKind c.desc = k ∧ s.unitExists k (dIdx c.desc) = true ∧
      (k = 0 ∨ dEpoch c.desc = s.unitEpoch k (dIdx c.desc)) ∧ s.get ⟨A.DEV_HAND, f.getD 0, 1⟩ = 0)) : s.accepts c o k f :=
  ⟨h.1, h.2.1, h.2.2.1, h.2.2.2.1, h.2.2.2.2.1, fun b hb => by subst hb; exact h.2.2.2.2.2⟩

theorem exe {s : State} {u w : Nat} {c : UCond}
    (h : ((s.seq u).on = true ∧ (s.seq u).raised = 0 ∧ s.uFetch u (s.seq u).upc = (s, { word := w }) ∧
      uIllegal w (s.flag (R.UCTL_TMODE u)) (s.seq u).stack.length (s.inTrap u) (s.seq u).hold = false ∧
      (uWait w = 0 ∨ natBit (s.uConds u w c.conds) (uWait w) = true) ∧ (s.seq u).refused w c = [] ∧ uBowOp w ≠ 3)) : s.executes u w c :=
  ⟨h.1, h.2.1, h.2.2.1, h.2.2.2.1, h.2.2.2.2.1, h.2.2.2.2.2.1, fun x => absurd x h.2.2.2.2.2.2⟩

theorem someE {α : Type} {o : Option α} (h : o.isSome = true) : ∃ x, o = some x := ⟨o.get h, by simp⟩
theorem someW {α : Type} {o : Option α} {P : α → Prop} (h : o.isSome = true) (hp : P (o.get h)) : ∃ x, o = some x ∧ P x :=
  ⟨o.get h, by simp, hp⟩
theorem allSome {α : Type} {o : Option α} {P : α → Prop} [DecidablePred P]
    (h : (match o with | none => true | some x => decide (P x)) = true) : ∀ x, o = some x → P x := by
  intro x hx; subst hx; exact of_decide_eq_true h

theorem okW {α ε : Type} {o : Except ε α} {P : α → Prop} (h : o.toOption.isSome = true) (hp : P (o.toOption.get h)) :
    ∃ x, o = .ok x ∧ P x := by
  cases o with
  | error e => exact absurd h (by simp [Except.toOption])
  | ok x => exact ⟨x, rfl, hp⟩
theorem nilAll {α : Type} {l : List α} {P : α → Prop} (h : l.isEmpty = true) : ∀ x, x ∈ l → P x := by
  intro x hx; cases l with
  | nil => cases hx
  | cons y r => cases h
theorem ltAll {n : Nat} {P : Nat → Prop} [DecidablePred P] (h : (List.range n).all (fun i => decide (P i)) = true) : ∀ i, i < n → P i := by
  intro i hi
  exact of_decide_eq_true (List.all_eq_true.mp h i (List.mem_range.mpr hi))
theorem errE {α ε : Type} {o : Except ε α} (h : o.toOption.isNone = true) : ∃ e, o = .error e := by
  cases o with
  | error e => exact ⟨e, rfl⟩
  | ok x => cases h
/-! ## WellFormed refuses what no event carries -/

theorem test_wf_rdma_doorbell : (Instr.rdmaDoorbell 0 0 0 (List.replicate 4097 0)).wellFormed = false := by decide +kernel
theorem test_wf_command_fetch : (Instr.commandFetchReturn 0 (some [])).wellFormed = false := by decide
theorem test_wf_ring_write_ack : (Instr.ringWriteAck 0 65 true).wellFormed = false := by decide
theorem test_wf_ucode_load : (Instr.ucodeLoad (mk 0x60 0 0 0) (some [0])).wellFormed = false := by decide
theorem test_wf_train_done : (Instr.trainDone 0 8 16 12).wellFormed = false := by decide
theorem test_wf_bin_ptr : (Instr.binPtr 0 4).wellFormed = false := by decide
theorem test_wf_ptp_tx : (Instr.ptpTxBinWrite 0 (List.replicate 15 0)).wellFormed = false := by decide
theorem test_wf_hoist_entry : (Instr.hoistEntryFetch 0 0 (List.replicate 17 0)).wellFormed = false := by decide
theorem test_wf_hoist_burst : (Instr.hoistBurstStart 0 [] (List.replicate 4097 0)).wellFormed = false := by decide +kernel
theorem test_wf_cellar_request :
    (Instr.cellarRequestIssue 0 0 [{ addr := 2 ^ 48, write := false, clsA := false, hint := false, data := 0 }]).wellFormed = false := by decide
theorem test_wf_array_read : (Instr.arrayReadReturn 0 (2 ^ 48) .plain).wellFormed = false := by decide
theorem test_wf_walker : (Instr.walkerRead 0 (2 ^ 48)).wellFormed = false := by decide
theorem test_wf_cellar_temp : (Instr.cellarTempReading 0 128).wellFormed = false := by decide
theorem test_wf_trn_done : (Instr.trnDone 0 []).wellFormed = false := by decide
theorem test_wf_repair : (Instr.repairWrite (.host 0) 0 true 16 0).wellFormed = false := by decide
theorem test_wf_thermal : (Instr.thermalSample [0]).wellFormed = false := by decide
theorem test_wf_rail : (Instr.railSample (List.replicate 12 4096)).wellFormed = false := by decide
theorem test_wf_avs : (Instr.avsLoop (List.replicate 35 0)).wellFormed = false := by decide

/-! ## Values that the specification works out -/

/-- R520: the columns of Cellar data bits 0 to 5. -/
theorem test_keel_columns : (keelCols 8 64).take 6 = [0x07, 0x0B, 0x0D, 0x0E, 0x13, 0x15] := by decide +kernel
/-- The double flip of bits 3 and 5 of 17_data_protection.md: syndrome 0x1B, uncorrectable; the flip of bit 5: corrected. -/
theorem test_double_flip : syndrome 0 0x100000 0 (0x28, keelCheck 0 0x100000 0 0) = 0x1B ∧ syndOf 0 0x1B = .bad := by decide +kernel
theorem test_single_flip : syndOf 0 (syndrome 0 0x100040 2 (0x20, keelCheck 0 0x100040 2 0)) = .dataBit 5 := by decide +kernel
/-- The Cellar address of 16_cellar.md lies in stack A, PC 24, at offset 0x0101_0800. -/
theorem test_cellar_place : (st []).celPlace 0x40423000 = (0, 24, 0x01010800) := by decide +kernel
/-- The generator of 02_stroke_and_time.md: the first Stroke after 0 is reached in the cycle of 8,341,668 ns, not before; with two cycles a
tick of 2 ns. -/
theorem test_stroke_cycle :
    let s (t : Nat) : State := { st [(R.STRKg_PNUM_PNUM 1, 100100000), (R.STRKg_PDEN_PDEN 1, 12)] with now := t * unitsPerNs }
    (s 8341666).reached ((s 0).strokeAt 1 1) = false ∧ (s 8341668).reached ((s 0).strokeAt 1 1) = true := by decide +kernel
/-- The Attic of 03_canvases_and_streams.md: a 32768 x 16384 canvas takes 480 crates, a 4K frame-mode stream 19 and a loft of 62,668,800 bytes. -/
theorem test_crates :
    ({ typ := 3, w := 32768, h := 16384, chroma := 1, bits10 := true, delay := 4 } : Params).crates = 480 ∧
    ({ typ := 0, frame := true, w := 3840, h := 2160, chroma := 1, bits10 := true, delay := 1 } : Params).crates = 19 ∧
    ({ typ := 0, frame := true, w := 3840, h := 2160, chroma := 1, bits10 := true, delay := 1 } : Params).loft = 62668800 := by decide +kernel

/-- The digest of "abc" that FIPS 180-4 works out for SHA-256, the hash R289 names; and the base point of FIPS 186's P-384 (R298) lies on its
curve. -/
theorem test_sha256 : beNat (digest256 [97, 98, 99]) = 0xba7816bf8f01cfea414140de5dae2223b00361a396177a9cb410ff61f20015ad := by decide +kernel
theorem test_p384 : p384On p384G = true := by decide +kernel

/-! ## Steps -/

/-- The front command runs first, and the rest waits (the queue is first in, first out). -/
theorem test_step_front :
    (match step { State.reset with pending := [.pllRelock, .ppsOutFall], relock := some 1 } with
     | .next t => decide (t.relock = none ∧ t.pending.length = 1)
     | _ => false) = true := by decide +kernel
/-- An empty queue: one cycle of CK_TIME, two nanoseconds at RATE 0. -/
theorem test_step_idle :
    (match step State.reset with
     | .next t => decide (t.now = 2 * unitsPerNs ∧ t.cyc = 1)
     | _ => false) = true := by decide +kernel
/-- A step of device time below zero wraps (log entry 30). -/
theorem test_step_wraps :
    (match exec (.timeStepGo (.cox 0) 0x80000000) (st [(R.TIME_STEP_SECL_SECL, 2 ^ 32 - 1), (R.TIME_STEP_SECH_SECH, 2 ^ 32 - 1)]) with
     | .next t => decide (t.now = timeWrap - 10 ^ 9 * unitsPerNs)
     | _ => false) = true := by decide +kernel

/-! ## What the statements assume can be met: one theorem a statement, one witness a clause -/

/-- The premises of StepKeepsCanonical. -/
theorem witness_canonical : ∃ s t : State, s.wf ∧ step s = .next t :=
  ⟨{ st [(R.STRMn_STATE_STATE 5, 2)] with pending := [.ppsOutFall] }, _, by unfold State.wf; decide +kernel, rfl⟩

namespace DescriptorChecks
def c0 : Cmd := mk 0x40 0 3 999
def c1 : Cmd := mk 0x40 0 3 7 [] 5
def s0 : State := st (ring0 ++ [(R.DEV_HAND_UCODE, 1)])
/-- States and operands that meet the premises of each clause of DescriptorChecks. -/
theorem witness :
  (∃ (c : Cmd), dOpc c.desc ≠ 0x40 ∧ opcListed (dOpc c.desc) = true) ∧
  (∃ (s : State) (c : Cmd), s.mayBegin c = false) ∧
  (∃ (s : State) (c : Cmd), s.mayBegin c = true ∧ opcListed (dOpc c.desc) = false) ∧
  (∃ (s : State) (c : Cmd), s.mayBegin c = true ∧ opcListed (dOpc c.desc) = false) ∧
  (∃ (s : State) (c : Cmd), s.mayBegin c = true ∧ dOpc c.desc = 0x40 ∧ (dSub c.desc ≠ 0 ∨ dClean c.desc [] = false ∨ dKind c.desc ∉ [3, 4, 5])) ∧
  (∃ (s : State) (c : Cmd), s.mayBegin c = true ∧ dOpc c.desc = 0x40 ∧ dSub c.desc = 0 ∧ dClean c.desc [] = true ∧ dKind c.desc ∈ [3, 4, 5] ∧
      (s.unitExists (dKind c.desc) (dIdx c.desc) = false ∨ s.unitThere c.desc = false)) ∧
  (∃ (s : State) (c : Cmd), s.mayBegin c = true ∧ dOpc c.desc = 0x40 ∧ dSub c.desc = 0 ∧ dClean c.desc [] = true ∧ dKind c.desc ∈ [3, 4, 5] ∧
      s.unitExists (dKind c.desc) (dIdx c.desc) = true ∧ s.unitThere c.desc = true ∧ dEpoch c.desc ≠ s.unitEpoch (dKind c.desc) (dIdx c.desc)) ∧
  (∃ (s : State) (c : Cmd), s.mayBegin c = true ∧ dOpc c.desc = 0x60 ∧ dSub c.desc = 0 ∧ dClean c.desc [(16, 0, 64), (24, 0, 32)] = true ∧
      dKind c.desc = 0 ∧ s.unitExists 0 (dIdx c.desc) = true ∧ s.get R.DEV_HAND_UCODE = 1) :=
  ⟨⟨mk 0x41 0 3 7, by decide +kernel⟩,
  ⟨st [], mk 0x40 0 3 7, by decide +kernel⟩,
  ⟨st ring0, mk 0xEE 0 3 7, by decide +kernel⟩,
  ⟨st ring0, mk 0xEE 0 3 7, by decide +kernel⟩,
  ⟨st ring0, mk 0x40 1 3 7, by decide +kernel⟩,
  ⟨st ring0, c0, by decide +kernel⟩,
  ⟨st ring0, c1, by decide +kernel⟩,
  ⟨s0, mk 0x60 0 0 0, by decide +kernel⟩⟩
end DescriptorChecks

namespace ManagementWrites
/-- States and operands that meet the premises of each clause of ManagementWrites. -/
theorem witness :
  (∃ (s : State) (w : Who) (d : Word) (a : BitVec 32), s.gate w a.toNat d = false) ∧
  (∃ (s : State) (w : Who) (d : Word) (a : Nat) (p : Fin 64) (c : Fin 8) (r : Fin 12), a ∈ [A.TALLY_CTL, A.TALLY_NSEVc c, A.TALLY_WINc c,
      A.MON_RAILr_CFG r, A.EGRp_RATE p, A.EGRp_CLS p, A.PORTp_CFG p, A.RACK_CTL, A.LANEl_STAT p, A.CHK_INJ_SEL] ∧ s.gate w a d = true) ∧
  (∃ (s : State) (w : Who) (d : Word), s.gate w A.DEV_HAND d = true) ∧
  (∃ (s : State) (w : Who) (d : Word), s.gate w A.DEV_HAND d = false) :=
  ⟨⟨st [], Who.host 0, 0x0#32, 0x0#32, by decide +kernel⟩,
  ⟨st [], Who.host 0, 0x0#32, A.TALLY_CTL, 0, 7, 11, by decide +kernel⟩,
  ⟨st [], Who.host 0, 0x0#32, by decide +kernel⟩,
  ⟨st [], Who.cox 0, 0x0#32, by decide +kernel⟩⟩
end ManagementWrites

namespace OneEffectOfAWrite
/-- States and operands that meet the premises of each clause of OneEffectOfAWrite. -/
theorem witness :
  (∃ (d : Word), wordGet d 4 2 = 1) ∧
  (∃ (d : Word), wordGet d 4 2 = 1) ∧
  (∃ (d : Word), wordGet d 4 2 = 1) ∧
  (∃ (d : Word), wordGet d 0 1 = 1) :=
  ⟨⟨0x11, by decide +kernel⟩,
  ⟨0x11, by decide +kernel⟩,
  ⟨0x11, by decide +kernel⟩,
  ⟨0x11, by decide +kernel⟩⟩
end OneEffectOfAWrite

namespace PllLossStopsTraffic
def s0 : State := st [(R.CEL_CTL_TRAFFIC_EN 1, 1), (R.CEL_STAT_PLL_LOCK 1, 1)]
/-- States and operands that meet the premises of each clause of PllLossStopsTraffic. -/
theorem witness :
  (∃ (s : State) (k : Fin 2), s.get (R.CEL_CTL_TRAFFIC_EN k) = 1 ∧ s.get (R.CEL_STAT_PLL_LOCK k) = 1) :=
  ⟨s0, 1, by decide +kernel⟩
end PllLossStopsTraffic

namespace SwapReverts
def s0 : State := { st [] with swap := some ⟨1, 0, none, true, 4⟩, cyc := 10000005 }
/-- States and operands that meet the premises of each clause of SwapReverts. -/
theorem witness :
  (∃ (s : State) (x : SwapS), s.swap = some x ∧ (x.running = true ∧ x.start + 10000000 < s.cyc ∧ x.bank < 2 ∧ s.strokeNow x.gen = true)) :=
  ⟨s0, someW (by decide +kernel) (by decide +kernel)⟩
end SwapReverts

namespace RateLoads
def s0 : State := st [(R.TIME_RATE_L_RATE_L, 77)]
/-- States and operands that meet the premises of each clause of RateLoads. -/
theorem witness :
  (∃ (s : State) (w : Who) (d : Word), s.gate w A.TIME_RATE_H d = true ∧
      let r : BitVec 40 := BitVec.ofNat 40 (wordGet d 0 8 * 2 ^ 32 + s.get R.TIME_RATE_L_RATE_L); (isHost w = true ∨ s.streamsLive = false ∨ rateBound r = true)) :=
  ⟨s0, Who.cox 0, 0x80, by decide +kernel, by dsimp only; decide +kernel⟩
end RateLoads

namespace PartIdentity
def s0 : State := { st [] with part := .ha }
/-- States and operands that meet the premises of each clause of PartIdentity. -/
theorem witness :
  (∃ (s : State), s.part = .ha) ∧
  (∃ (s : State), s.part = .fa) :=
  ⟨⟨s0, by decide +kernel⟩,
  ⟨st [], by decide +kernel⟩⟩
end PartIdentity

namespace DeviceTime
def s0 : State := { st [(R.TIME_CTL_CLKSRC, 1), (R.TIME_STAT_CLKSRC_ACT, 0)] with relock := none }
def s1 : State := st [(R.STRMn_STATE_STATE 3, 2)]
def s2 : State := st [(R.TIME_STAT_STEP_AVAIL, 0)]
def s3 : State := { st [(R.TIME_CTL_PPSO_EN, 1), (R.TIME_PPSO_WIDTH_WIDTH, 7)] with now := 10 ^ 9 * 2 ^ 48 + 5, prev := 10 ^ 9 * 2 ^ 48 - 5, relock := some 1 }
def s4 : State := { st [(R.TIME_STAT_CLKSRC_ACT, 1), (R.TIME_CTL_FALLBACK, 1)] with now := 5000 * 2 ^ 48 }
def s5 : State := { st [] with ppsHigh := some 100, now := 100, prev := 3, relock := some 0 }
def s6 : State := { st [] with ppsHigh := some 100, now := 99, prev := 3 }
/-- States and operands that meet the premises of each clause of DeviceTime. -/
theorem witness :
  (∃ (s : State) (w : Who) (d : Word), s.gate w A.TIME_CTL d = true ∧ wordGet d 0 1 = 1 ∧ s.streamsLive = false) ∧
  (∃ (s : State) (w : Who) (d : Word), s.gate w A.TIME_CTL d = true ∧ wordGet d 0 1 = 1 ∧ s.streamsLive = true) ∧
  (∃ (d : Word), wordGet d 0 1 = 0) ∧
  (∃ (s : State) (w : Who) (d : Word), s.gate w A.TIME_STEP_NS d = true ∧ wordGet d 31 1 = 1 ∧ s.streamsLive = false ∧
      s.get R.TIME_STAT_STEP_AVAIL = 1) ∧
  (∃ (s : State) (w : Who) (d : Word), s.gate w A.TIME_STEP_NS d = true ∧ wordGet d 31 1 = 1 ∧ s.streamsLive = false ∧
      s.get R.TIME_STAT_STEP_AVAIL = 0) ∧
  (∃ (s : State) (w : Who) (d : Word), s.gate w A.TIME_STEP_NS d = true ∧ wordGet d 31 1 = 1 ∧ s.streamsLive = true) ∧
  (∃ (s : State) (w : Who) (d : Word), s.gate w A.TIME_RATE_H d = true ∧
      (isHost w = true ∨ s.streamsLive = false ∨ rateBound (BitVec.ofNat 40 (wordGet d 0 8 * 2 ^ 32 + s.get R.TIME_RATE_L_RATE_L)) = true)) ∧
  (∃ (s : State) (w : Who) (d : Word), isHost w = false ∧ s.streamsLive = true ∧
      rateBound (BitVec.ofNat 40 (wordGet d 0 8 * 2 ^ 32 + s.get R.TIME_RATE_L_RATE_L)) = false) ∧
  (∃ (s : State) (r : _), r < 2 ∧ s.relock = some r) ∧
  (∃ (s : State), s.relock = none) ∧
  (∃ (s : State) (w : Who) (d : Word), s.gate w A.TIME_CTL d = true ∧ wordGet d 0 1 = 0 ∧ wordGet d 1 1 ≠ s.get R.TIME_CTL_CLKSRC) ∧
  (∃ (s : State), s.get R.TIME_STAT_CLKSRC_ACT = 1) ∧
  (∃ (s : State), s.get R.TIME_STAT_CLKSRC_ACT = 0 ∧ s.relock ≠ some 1 ∧ s.get R.TIME_CTL_CLKSRC = 1) ∧
  (∃ (s : State), s.get R.TIME_STAT_CLKSRC_ACT = 0 ∧ s.relock ≠ some 1 ∧ s.get R.TIME_CTL_CLKSRC = 0) ∧
  (∃ (s : State), s.get R.TIME_CTL_PPSO_EN = 1 ∧ s.crossed (10 ^ 9) = true) ∧
  (∃ (s : State), s.get R.TIME_CTL_PPSO_EN = 0) ∧
  (∃ (s : State) (e : _), s.ppsHigh = some e ∧ (e ≤ s.now ∧ s.steady = true)) ∧
  (∃ (s : State) (e : _), s.ppsHigh = some e ∧ (s.now < e)) :=
  ⟨⟨s0, Who.cox 0, 0x7F, by decide +kernel⟩,
  ⟨s1, Who.cox 0, 0x7F, by decide +kernel⟩,
  ⟨0x0, by decide +kernel⟩,
  ⟨s0, Who.cox 0, 0x8000_0005, by decide +kernel⟩,
  ⟨s2, Who.cox 0, 0x8000_0005, by decide +kernel⟩,
  ⟨s1, Who.cox 0, 0x8000_0005, by decide +kernel⟩,
  ⟨s0, Who.cox 0, 0x7F, by decide +kernel⟩,
  ⟨s1, Who.cox 0, 0x7F, by decide +kernel⟩,
  ⟨s3, 1, by decide +kernel⟩,
  ⟨s0, by decide +kernel⟩,
  ⟨s0, Who.cox 0, 0x0, by decide +kernel⟩,
  ⟨s4, by decide +kernel⟩,
  ⟨s0, by decide +kernel⟩,
  ⟨st [], by decide +kernel⟩,
  ⟨s3, by decide +kernel⟩,
  ⟨s0, by decide +kernel⟩,
  ⟨s5, someW (by decide +kernel) (by decide +kernel)⟩,
  ⟨s6, someW (by decide +kernel) (by decide +kernel)⟩⟩
end DeviceTime

namespace StrokeGenerators
def s0 : State := st [(R.STRKg_PNUM_PNUM 3, 0)]
def s1 : State := st [(R.STRKg_PNUM_PNUM 3, 4000000), (R.STRKg_PDEN_PDEN 3, 1), (R.STRKg_CTL_EN 3, 1)]
def s2 : State := { st [(R.STRKg_PNUM_PNUM 3, 4000000), (R.STRKg_PDEN_PDEN 3, 1), (R.STRKg_CTL_EN 3, 1), (R.STRKg_CTL_BOUND 3, 1)] with now := 77000000 * 2 ^ 48, gens := [(3, {next := 3})] }
/-- States and operands that meet the premises of each clause of StrokeGenerators. -/
theorem witness :
  (∃ (s : State) (w : Who) (g : Fin 4) (d : Word), s.gate w (A.STRKg_CTL g) d = true ∧ wordGet d 0 1 = 1 ∧ s.get (R.STRKg_CTL_EN g) = 0 ∧
      strokeLegal (s.get (R.STRKg_PNUM_PNUM g)) (s.get (R.STRKg_PDEN_PDEN g)) (s.get (R.STRKg_PHASE_PHASE g)) = true) ∧
  (∃ (s : State) (w : Who) (g : Fin 4) (d : Word), s.gate w (A.STRKg_CTL g) d = true ∧ wordGet d 0 1 = 1 ∧ s.get (R.STRKg_CTL_EN g) = 0 ∧
      strokeLegal (s.get (R.STRKg_PNUM_PNUM g)) (s.get (R.STRKg_PDEN_PDEN g)) (s.get (R.STRKg_PHASE_PHASE g)) = false) ∧
  (∃ (s : State) (w : Who) (g : Fin 4) (d : Word), s.gate w (A.STRKg_CTL g) d = true ∧ wordGet d 0 1 = 0 ∧ s.get (R.STRKg_CTL_EN g) = 1 ∧
      s.get (R.STRKg_CTL_BOUND g) = 0) ∧
  (∃ (s : State) (w : Who) (g : Fin 4) (d : Word), s.gate w (A.STRKg_CTL g) d = true ∧ wordGet d 0 1 = 0 ∧ s.get (R.STRKg_CTL_EN g) = 1 ∧
      s.get (R.STRKg_CTL_BOUND g) ≠ 0) ∧
  (∃ (s : State) (g : Fin 4), s.get (R.STRKg_CTL_EN g) = 1 ∧ s.reached (s.strokeAt g (s.gen g).next) = true) ∧
  (∃ (s : State) (g : Fin 4), (s.get (R.STRKg_CTL_EN g) = 0 ∨ s.reached (s.strokeAt g (s.gen g).next) = false)) :=
  ⟨⟨st [], Who.cox 0, 0, 1, by decide +kernel⟩,
  ⟨s0, Who.cox 0, 3, 1, by decide +kernel⟩,
  ⟨s1, Who.cox 0, 3, 0, by decide +kernel⟩,
  ⟨s2, Who.cox 0, 3, 0, by decide +kernel⟩,
  ⟨s1, 3, by decide +kernel⟩,
  ⟨st [], 0, by decide +kernel⟩⟩
end StrokeGenerators

namespace TimeCommands
def s0 : State := st (ring0 ++ [(R.STRMn_STATE_STATE 3, 2)])
def c0 : Cmd := mk 0x30 0 0 0 [(16, 2 ^ 64 - 7), (24, 999999999)]
def s1 : State := st (ring0 ++ [(R.TIME_STAT_STEP_AVAIL, 0)])
def s2 : State := st (ring0 ++ [(R.LANEl_QMODE_QMODE 0, 1)])
def s3 : State := st (ring0 ++ gen0)
def c1 : Cmd := mk 0x31 0 0 0 [(16, 0), (20, 4000000), (24, 1), (28, 5)]
def c2 : Cmd := mk 0x31 0 0 0 [(16, 3), (20, 3), (24, 1), (28, 5)]
def s4 : State := st (ring0 ++ gen0 ++ [(R.STRKg_CTL_BOUND 0, 1)])
def c3 : Cmd := mk 0x31 1 0 0 [(16, 0)]
def c4 : Cmd := mk 0x32 0 0 0 [(16, 9), (24, 5)]
def c5 : Cmd := mk 0x32 0 0 0 [(16, 9)]
/-- States and operands that meet the premises of each clause of TimeCommands. -/
theorem witness :
  (∃ (s : State) (c : Cmd), s.accepts c 0x30 0 (some 0) ∧ (dSub c.desc = 0 ∧ dClean c.desc [(16, 0, 64), (24, 0, 32)] true = true ∧
      dget c.desc 24 0 32 < 10 ^ 9 ∧ s.streamsLive = true)) ∧
  (∃ (s : State) (c : Cmd), s.accepts c 0x30 0 (some 0) ∧ (dSub c.desc = 0 ∧ dClean c.desc [(16, 0, 64), (24, 0, 32)] true = true ∧
      dget c.desc 24 0 32 < 10 ^ 9 ∧ s.streamsLive = false ∧ s.get R.TIME_STAT_STEP_AVAIL = 0)) ∧
  (∃ (s : State) (c : Cmd), s.accepts c 0x30 0 (some 0) ∧ (dSub c.desc = 0 ∧ dClean c.desc [(16, 0, 64), (24, 0, 32)] true = true ∧
      dget c.desc 24 0 32 < 10 ^ 9 ∧ s.streamsLive = false ∧ s.get R.TIME_STAT_STEP_AVAIL = 1)) ∧
  (∃ (s : State) (c : Cmd), s.accepts c 0x30 0 (some 0) ∧ (dSub c.desc = 1 ∧ dClean c.desc [] true = true ∧ s.streamsLive = false)) ∧
  (∃ (s : State) (c : Cmd), s.accepts c 0x31 0 (some 1) ∧ (dSub c.desc = 0 ∧
      dClean c.desc [(16, 0, 2), (20, 0, 32), (24, 0, 16), (28, 0, 32)] true = true) ∧ ∃ g, g = dget c.desc 16 0 2 ∧ s.get (R.STRKg_CTL_EN g) = 1) ∧
  (∃ (s : State) (c : Cmd), s.accepts c 0x31 0 (some 1) ∧ (dSub c.desc = 0 ∧
      dClean c.desc [(16, 0, 2), (20, 0, 32), (24, 0, 16), (28, 0, 32)] true = true) ∧ ∃ g, g = dget c.desc 16 0 2 ∧ s.get (R.STRKg_CTL_EN g) = 0 ∧
      strokeLegal (dget c.desc 20 0 32) (dget c.desc 24 0 16) (dget c.desc 28 0 32) = false) ∧
  (∃ (s : State) (c : Cmd), s.accepts c 0x31 0 (some 1) ∧ (dSub c.desc = 0 ∧
      dClean c.desc [(16, 0, 2), (20, 0, 32), (24, 0, 16), (28, 0, 32)] true = true) ∧ ∃ g, g = dget c.desc 16 0 2 ∧ s.get (R.STRKg_CTL_EN g) = 0 ∧
      strokeLegal (dget c.desc 20 0 32) (dget c.desc 24 0 16) (dget c.desc 28 0 32) = true) ∧
  (∃ (s : State) (c : Cmd), s.accepts c 0x31 0 (some 1) ∧ (dSub c.desc = 1 ∧
      dClean c.desc [(16, 0, 2), (20, 0, 32), (24, 0, 16), (28, 0, 32)] true = true) ∧ ∃ g, g = dget c.desc 16 0 2 ∧
      s.get (R.STRKg_CTL_BOUND g) ≠ 0) ∧
  (∃ (s : State) (c : Cmd), s.accepts c 0x31 0 (some 1) ∧ (dSub c.desc = 1 ∧
      dClean c.desc [(16, 0, 2), (20, 0, 32), (24, 0, 16), (28, 0, 32)] true = true) ∧ ∃ g, g = dget c.desc 16 0 2 ∧
      s.get (R.STRKg_CTL_BOUND g) = 0) ∧
  (∃ (s : State) (c : Cmd), s.accepts c 0x32 0 (some 0) ∧ (dSub c.desc = 0 ∧
      dClean c.desc [(16, 0, 8), (17, 0, 8), (18, 0, 8), (19, 0, 3), (24, 0, 64), (32, 0, 2)] = true) ∧ ∃ p, p < 64 ∧
      natBit (dget c.desc 24 0 64) p = true ∧ s.portExists p = false) ∧
  (∃ (s : State) (c : Cmd), s.accepts c 0x32 0 (some 0) ∧ (dSub c.desc = 0 ∧
      dClean c.desc [(16, 0, 8), (17, 0, 8), (18, 0, 8), (19, 0, 3), (24, 0, 64), (32, 0, 2)] = true ∧ dget c.desc 24 0 64 = 0 ∧
      dget c.desc 32 0 2 = 0)) ∧
  (∃ (s : State) (c : Cmd), s.accepts c 0x32 0 (some 0) ∧ (dSub c.desc = 0 ∧
      dClean c.desc [(16, 0, 8), (17, 0, 8), (18, 0, 8), (19, 0, 3), (24, 0, 64), (32, 0, 2)] = true ∧
      (dget c.desc 24 0 64 ≠ 0 ∨ dget c.desc 32 0 2 ≠ 0)) ∧ (∀ p, p < 64 → natBit (dget c.desc 24 0 64) p = true → s.portExists p = true)) :=
  ⟨⟨s0, c0, acc (by decide +kernel), by decide +kernel⟩,
  ⟨s1, c0, acc (by decide +kernel), by decide +kernel⟩,
  ⟨s2, c0, acc (by decide +kernel), by decide +kernel⟩,
  ⟨s2, mk 0x30 1 0 0, acc (by decide +kernel), by decide +kernel⟩,
  ⟨s3, c1, acc (by decide +kernel), by decide +kernel, _, rfl, by decide +kernel⟩,
  ⟨s2, c2, acc (by decide +kernel), by decide +kernel, _, rfl, by decide +kernel⟩,
  ⟨s2, c1, acc (by decide +kernel), by decide +kernel, _, rfl, by decide +kernel⟩,
  ⟨s4, c3, acc (by decide +kernel), by decide +kernel, _, rfl, by decide +kernel⟩,
  ⟨s2, c3, acc (by decide +kernel), by decide +kernel, _, rfl, by decide +kernel⟩,
  ⟨s2, c4, acc (by decide +kernel), by decide +kernel, 2, by decide +kernel⟩,
  ⟨s2, c5, acc (by decide +kernel), by decide +kernel⟩,
  ⟨st ring0, c4, acc (by decide +kernel), by decide +kernel, ltAll (by decide +kernel)⟩⟩
end TimeCommands

namespace EventService
def s0 : State := { st [(pendRF 8, 1), (R.EVC_TGTn_TGT 8, 1)] with now := 77, holdOff := [(0, some 5)] }
def s1 : State := st [(R.EVC_INSVt_VALID 1, 1), (R.EVC_INSVt_SOURCE 1, 8), (R.EVC_CLAIMt_VALID 1, 1), (actRF 8, 1), (pendRF 40, 1), (R.EVC_TGTn_TGT 40, 0)]
def s2 : State := { st [(R.EVC_TMRi_EN 3, 1), (R.EVC_TMRi_PERIOD 3, 1), (R.EVC_INCFGi_MODE 15, 2), (R.EVC_INCFGi_MODE 0, 1)] with prev := 999 * 2 ^ 48, now := 1001 * 2 ^ 48, pins := [(15, {settled := true})] }
/-- States and operands that meet the premises of each clause of EventService. -/
theorem witness :
  (∃ (s : State) (t : Fin 8) (n : _), s.get (R.EVC_INSVt_VALID t) = 0 ∧ s.candidate t = some n ∧
      (t.val < 4 ∨ s.ringRoom (0x40 + (t.val - 4)) = true) ∧ claimKey t ∉ s.fired) ∧
  (∃ (s : State) (t : Fin 8), (s.get (R.EVC_INSVt_VALID t) = 1 ∨ s.candidate t = none ∨ claimKey t ∈ s.fired)) ∧
  (∃ (s : State) (w : Who) (t : Fin 4) (d : Word), s.gate w (A.EVC_DONEt t) d = true ∧ s.get (R.EVC_INSVt_VALID t) = 1 ∧
      s.get (R.EVC_INSVt_SOURCE t) = wordGet d 0 10) ∧
  (∃ (s : State) (w : Who) (t : Fin 4) (d : Word), s.gate w (A.EVC_DONEt t) d = true ∧ s.get (R.EVC_INSVt_VALID t) = 1 ∧
      s.get (R.EVC_INSVt_SOURCE t) ≠ wordGet d 0 10) ∧
  (∃ (s : State) (g : Fin 64) (t : Fin 8) (e : _), tabGet none s.holdOff (8 * g.val + t.val) = some e ∧ (e ≤ s.now ∧ s.steady = true)) ∧
  (∃ (s : State) (i : Fin 4), s.get (R.EVC_TMRi_EN i) = 1 ∧ s.crossed (s.get (R.EVC_TMRi_PERIOD i) * 1000) = true ∧ 100 + i.val ∉ s.fired) ∧
  (∃ (s : State) (i : Fin 4), (s.get (R.EVC_TMRi_EN i) = 0 ∨ s.crossed (s.get (R.EVC_TMRi_PERIOD i) * 1000) = false)) ∧
  (∃ (s : State) (w : Who) (d : Word) (i : Fin 16), s.gate w (A.EVC_INCFGi i) d = true ∧
      (wordGet d 0 10 ≠ s.get (R.EVC_INCFGi_GF_CYC i) ∨ wordGet d 10 2 ≠ s.get (R.EVC_INCFGi_MODE i))) ∧
  (∃ (s : State) (w : Who) (d : Word), s.gate w A.EVC_PREEMPT d = true ∧ tabGet none s.preempt (wordGet d 0 8) = none) ∧
  (∃ (s : State) (w : Who) (d : Word) (i : Fin 32), s.gate w (A.EVC_PENDi i) d = true) ∧
  (∃ (s : State) (w : Who) (d : Word) (n : Fin 1024), s.gate w (A.EVC_TGTn n) d = true) :=
  ⟨⟨s0, 1, 8, by decide +kernel⟩,
  ⟨st [], 0, by decide +kernel⟩,
  ⟨s1, Who.cox 0, 1, 8, by decide +kernel⟩,
  ⟨s1, Who.cox 0, 1, 0, by decide +kernel⟩,
  ⟨s0, 0, 0, someW (by decide +kernel) (by decide +kernel)⟩,
  ⟨s2, 3, by decide +kernel⟩,
  ⟨st [], 0, by decide +kernel⟩,
  ⟨st [], Who.host 0, 8, 0, by decide +kernel⟩,
  ⟨st [], Who.cox 0, 0, by decide +kernel⟩,
  ⟨st [], Who.host 0, 0, 0, by decide +kernel⟩,
  ⟨st [], Who.host 0, 8, 8, by decide +kernel⟩⟩
end EventService

namespace StreamLives
def opn := mk 0x01 0 1 5 [(16, 0x800000000000), (24, 256)]
def s0 : State := st (ring0 ++ gen0 ++ win0 ++ cel01)
def s1 : State := st (ring0 ++ gen0 ++ win0 ++ [(R.STRMn_STATE_STATE 5, 2)])
def s2 : State := st (ring0 ++ gen0 ++ win0)
def s3 : State := st (ring0 ++ gen0 ++ win0 ++ [(R.STRMn_STATE_STATE 5, 1), (R.CREWc_STATE_STATE 0, 2)])
def s4 : State := strm 5 {allocEnd := some 3, p := {typ := 2}} (st (ring0 ++ gen0 ++ win0 ++ [(R.STRMn_STATE_STATE 5, 3), (R.STRKg_CTL_BOUND 0, 1)]))
/-- States and operands that meet the premises of each clause of StreamLives. -/
theorem witness :
  (∃ (s : State) (c : Cmd) (n : Nat), n = dIdx c.desc ∧ dSub c.desc = 0 ∧ ∃ (blk : HostRead), s.accepts c 0x01 1 none ∧
      dClean c.desc [(16, 0, 64), (24, 0, 16)] = true ∧ ∃ e, (s.takeFetched c).openBlock c.desc blk = .error e) ∧
  (∃ (s : State) (c : Cmd) (n : Nat), n = dIdx c.desc ∧ dSub c.desc = 0 ∧ ∃ (blk : HostRead), s.accepts c 0x01 1 none ∧
      dClean c.desc [(16, 0, 64), (24, 0, 16)] = true ∧ ∃ p, (s.takeFetched c).openBlock c.desc blk = .ok p ∧ (s.get (R.STRMn_STATE_STATE n) = 2)) ∧
  (∃ (s : State) (c : Cmd) (n : Nat), n = dIdx c.desc ∧ dSub c.desc = 0 ∧ ∃ (blk : HostRead) (h : Homes), s.accepts c 0x01 1 none ∧
      dClean c.desc [(16, 0, 64), (24, 0, 16)] = true ∧ ∃ p, (s.takeFetched c).openBlock c.desc blk = .ok p ∧
      (∃ e, s.get (R.STRMn_STATE_STATE n) = 0 ∧ (s.takeFetched c).openCheck n p h (s.expert 4) = some e ∧ e ≠ 0)) ∧
  (∃ (s : State) (c : Cmd) (n : Nat), n = dIdx c.desc ∧ dSub c.desc = 0 ∧ ∃ (blk : HostRead) (h : Homes), s.accepts c 0x01 1 none ∧
      dClean c.desc [(16, 0, 64), (24, 0, 16)] = true ∧ ∃ p, (s.takeFetched c).openBlock c.desc blk = .ok p ∧ (s.get (R.STRMn_STATE_STATE n) = 0 ∧
      (s.takeFetched c).openCheck n p h (s.expert 4) = none)) ∧
  (∃ (s : State) (c : Cmd) (n : Nat), n = dIdx c.desc ∧ dSub c.desc = 0 ∧ s.accepts c 0x02 1 none ∧ (dClean c.desc [] = true ∧
      s.get (R.STRMn_STATE_STATE n) = 0)) ∧
  (∃ (s : State) (c : Cmd) (n : Nat), n = dIdx c.desc ∧ dSub c.desc = 0 ∧ s.accepts c 0x02 1 none ∧ (dClean c.desc [] = true ∧
      s.get (R.STRMn_STATE_STATE n) = 1)) ∧
  (∃ (s : State) (c : Cmd) (n : Nat), n = dIdx c.desc ∧ dSub c.desc = 0 ∧ s.accepts c 0x02 1 none ∧ (dClean c.desc [] = true ∧
      s.get (R.STRMn_STATE_STATE n) = 2)) ∧
  (∃ (s : State) (n : Fin 128), s.get (R.STRMn_STATE_STATE n) = 1 ∧ (s.strm n).allocEnd = none) ∧
  (∃ (s : State) (n : Fin 128), (s.get (R.STRMn_STATE_STATE n) ≠ 1 ∨ (s.strm n).allocEnd.isSome = true)) ∧
  (∃ (s : State) (n : Fin 128), s.get (R.STRMn_STATE_STATE n) = 3 ∧ s.drained n = true ∧ s.get (R.STRMn_STATE_PEND n) = 0) ∧
  (∃ (s : State) (n : Fin 128), (s.get (R.STRMn_STATE_STATE n) ≠ 3 ∨ s.drained n = false)) :=
  ⟨⟨s0, opn, _, rfl, by decide +kernel, none, acc (by decide +kernel), by decide +kernel, errE (by decide +kernel)⟩,
  ⟨s1, opn, _, rfl, by decide +kernel, blk [(0, 2)], acc (by decide +kernel), by decide +kernel, okW (by decide +kernel) (by decide +kernel)⟩,
  ⟨s2, opn, _, rfl, by decide +kernel, blk [(0, 2)], ⟨0, 1, 4, []⟩, acc (by decide +kernel), by decide +kernel, okW (by decide +kernel) ⟨St.cellarFull, by decide +kernel⟩⟩,
  ⟨s0, opn, _, rfl, by decide +kernel, blk [(0, 2)], ⟨0, 1, 4, []⟩, acc (by decide +kernel), by decide +kernel, okW (by decide +kernel) (by decide +kernel)⟩,
  ⟨s0, mk 0x02 0 1 5, _, rfl, by decide +kernel, acc (by decide +kernel), by decide +kernel⟩,
  ⟨s3, mk 0x02 0 1 5, _, rfl, by decide +kernel, acc (by decide +kernel), by decide +kernel⟩,
  ⟨s1, mk 0x02 0 1 5, _, rfl, by decide +kernel, acc (by decide +kernel), by decide +kernel⟩,
  ⟨s3, 5, by decide +kernel⟩,
  ⟨s0, 5, by decide +kernel⟩,
  ⟨s4, 5, by decide +kernel⟩,
  ⟨s0, 5, by decide +kernel⟩⟩
end StreamLives

namespace StreamOrders
def fd (f : Nat) := [(16, f), (20, 0), (22, 0), (24, 64), (26, 64)]
def can5 : StreamS := {p := {typ := 3, w := 1024, h := 1024, keySrc := 7}}
def on5 : List (RF × Nat) := ring0 ++ gen0 ++ win0 ++ [(R.STRMn_STATE_STATE 5, 2)]
def s0 : State := strm 5 can5 (st (on5 ++ [(R.LANEl_QMODE_QMODE 0, 1)]))
def c0 : Cmd := mk 0x03 0 1 5 (fd 7 ++ [(32, 1), (33, 255)])
def i0 : Instr := .feedSetAdd (mk 0x03 0 1 5 (fd 7 ++ [(32, 1), (33, 255)]))
def c1 : Cmd := mk 0x03 0 1 5 (fd 7)
def i1 : Instr := .feedSetAdd (mk 0x03 0 1 5 (fd 7))
def s1 : State := (strm 5 can5 (st on5)).setFeed 7 {stream := some 5, p := {feed := 7, w := 64, h := 64}}
def c2 : Cmd := mk 0x04 0 1 5 [(16, 1), (20, 48000000)]
def s2 : State := strm 5 {p := {typ := 0, w := 128, h := 64, brMax := 48000000, repay := 1, bufUs := 1000000}} (st (on5 ++ [(R.STRKg_PNUM_PNUM 0, 1000000000), (R.RRCn_QP_QP_MIN 5, 10), (R.RRCn_QP_QP_MAX 5, 20)]))
def c3 : Cmd := mk 0x07 0 1 5 [(16, 9)]
def s3 : State := strm 5 {can5 with p := {can5.p with keySrc := 6}, sei := [⟨0, 99, 1, []⟩, ⟨0, 99, 1, []⟩, ⟨0, 99, 1, []⟩, ⟨0, 99, 1, []⟩]} (st on5)
def c4 : Cmd := mk 0x06 0 1 5 [(16, 0x700000000000), (24, 2), (26, 1), (32, 0)]
def c5 : Cmd := mk 0x06 0 1 5 [(16, 0x800000000000), (24, 2), (26, 1), (32, 0)]
def c6 : Cmd := mk 0x06 0 1 5 [(16, 0x800000000000), (24, 2), (26, 5), (32, 97)]
def sR : State := strm 5 {p := {typ := 0, w := 128, h := 64, brMax := 48000000, repay := 1, bufUs := 1000000}} (st (on5 ++ [(R.STRKg_PNUM_PNUM 0, 1000000000), (R.RRCn_QP_QP_MIN 5, 10), (R.RRCn_QP_QP_MAX 5, 20)]))
def cR : Cmd := mk 0x04 0 1 5 [(16, 1), (20, 48000000)]
def par : Params := (sR.takeFetched cR).rateSum 5 ((sR.takeFetched cR).rateOf cR.desc)
theorem jobs : par.jobs = [(0, 0)] := by decide +kernel
theorem ovh : par.ovhMax ≤ 8 * 5 * 65540 := by
  have v : par.vvc = false := by decide +kernel
  have f : par.vuiFlags = 0 := by decide +kernel
  simp [Params.ovhMax, Params.headNals, Params.nalsBytes, Params.nalBytes, v, f, natBit]
  omega
theorem ok : par.feasible 48000000 par.margin 1 par.cSlice par.ovhMax 1000000000 1 = true := by
  have c : par.cSlice ≤ 2 ^ 15 + 64 := by unfold Params.cSlice; omega
  have o := ovh
  have f : par.frame = false := by decide +kernel
  have k : par.fast = 4 := by decide +kernel
  have h : ∀ j, j < 4 → par.rowFloor { swift := true, sweepJ := j, colS := sweepStart 4 par.wCtu j, colE := sweepEnd 4 par.wCtu j } 0 ≤ 10000 := by
    decide +kernel
  have g : par.rowFloor { irap := true } 0 ≤ 10000 := by decide +kernel
  have n : rrcN 48000000 1000000000 1 = 2 ^ 16 * 48000000000 := by decide +kernel
  have m : par.margin ≤ 1000000 := by decide +kernel
  unfold Params.feasible
  have e : ∀ r, par.picFloor r par.cSlice = par.rowFloor r 0 + par.cSlice := by
    intro r; simp [Params.picFloor, jobs]
  have z : par.wideFloor par.cSlice ≤ 10000 + par.cSlice := by
    have h0 := h 0 (by decide); have h1 := h 1 (by decide); have h2 := h 2 (by decide); have h3 := h 3 (by decide)
    have l : List.range 4 = [0, 1, 2, 3] := by decide
    simp only [Params.wideFloor, Params.fastFloor, k, e, l, List.foldl_cons, List.foldl_nil]
    omega
  simp only [e, n, Bool.and_eq_true, decide_eq_true_eq]
  rw [f]; simp only [Bool.false_eq_true, if_false]
  generalize par.wideFloor par.cSlice = a at z ⊢
  generalize par.rowFloor { irap := true } 0 = b at g ⊢
  generalize par.cSlice = d at c z ⊢
  generalize par.ovhMax = x at o ⊢
  generalize par.margin = y at m ⊢
  constructor <;> omega
theorem rate_ok : (sR.takeFetched cR).rateOk 5 par = true := by
  unfold State.rateOk
  rw [Bool.and_eq_true]
  refine ⟨by decide +kernel, ?_⟩
  have h : par.feasible par.br par.margin par.repay par.cSlice par.ovhMax ((sR.takeFetched cR).pnum par.gen) ((sR.takeFetched cR).pden par.gen) =
      par.feasible 48000000 par.margin 1 par.cSlice par.ovhMax 1000000000 1 := by
    have h1 : par.br = 48000000 := by decide +kernel
    have h3 : par.repay = 1 := by decide +kernel
    have h4 : (sR.takeFetched cR).pnum par.gen = 1000000000 := by decide +kernel
    have h5 : (sR.takeFetched cR).pden par.gen = 1 := by decide +kernel
    rw [h1, h3, h4, h5]
  exact h.trans ok
/-- States and operands that meet the premises of each clause of StreamOrders. -/
theorem witness :
  (∃ (s : State) (c : Cmd) (n : Nat), n = dIdx c.desc ∧ ∃ (i : Instr) (f : FeedP), s.accepts c 0x03 1 none ∧ dClean c.desc feedFields true = true ∧
      ∃ sub, sub = dSub c.desc ∧ (i = .feedSetAdd c ∧ sub = 0 ∧ feedClean (feedBody c.desc) 0 = true ∧
      f = feedAt (feedBody c.desc) 0 ∨ i = .feedSetChange c ∧ sub = 1 ∧ feedClean (feedBody c.desc) 0 = true ∧
      f = feedAt (feedBody c.desc) 0 ∨ i = .feedSetRemove c ∧ sub = 2 ∧ feedBare (feedBody c.desc) 0 = true ∧ f = { feed := dget c.desc 16 0 8 }) ∧
      sub ≠ 2 ∧ s.portsThere (feedPorts c.desc) = false) ∧
  (∃ (s : State) (c : Cmd) (n : Nat), n = dIdx c.desc ∧ ∃ (i : Instr) (f : FeedP), s.accepts c 0x03 1 none ∧ dClean c.desc feedFields true = true ∧
      ∃ sub, sub = dSub c.desc ∧ (i = .feedSetAdd c ∧ sub = 0 ∧ feedClean (feedBody c.desc) 0 = true ∧
      f = feedAt (feedBody c.desc) 0 ∨ i = .feedSetChange c ∧ sub = 1 ∧ feedClean (feedBody c.desc) 0 = true ∧
      f = feedAt (feedBody c.desc) 0 ∨ i = .feedSetRemove c ∧ sub = 2 ∧ feedBare (feedBody c.desc) 0 = true ∧ f = { feed := dget c.desc 16 0 8 }) ∧
      (sub = 2 ∨ s.portsThere (feedPorts c.desc) = true) ∧ s.get (R.STRMn_STATE_STATE n) ≠ 0 ∧ (s.strm n).p.typ ≠ 3) ∧
  (∃ (s : State) (c : Cmd) (n : Nat), n = dIdx c.desc ∧ ∃ (i : Instr) (f : FeedP), s.accepts c 0x03 1 none ∧ dClean c.desc feedFields true = true ∧
      ∃ sub, sub = dSub c.desc ∧ (i = .feedSetAdd c ∧ sub = 0 ∧ feedClean (feedBody c.desc) 0 = true ∧
      f = feedAt (feedBody c.desc) 0 ∨ i = .feedSetChange c ∧ sub = 1 ∧ feedClean (feedBody c.desc) 0 = true ∧
      f = feedAt (feedBody c.desc) 0 ∨ i = .feedSetRemove c ∧ sub = 2 ∧ feedBare (feedBody c.desc) 0 = true ∧ f = { feed := dget c.desc 16 0 8 }) ∧
      (sub = 2 ∨ s.portsThere (feedPorts c.desc) = true) ∧ (s.get (R.STRMn_STATE_STATE n) = 0 ∨ s.get (R.STRMn_STATE_STATE n) = 3 ∧
      (s.strm n).p.typ = 3)) ∧
  (∃ (s : State) (c : Cmd) (n : Nat), n = dIdx c.desc ∧ ∃ (i : Instr) (f : FeedP), s.accepts c 0x03 1 none ∧ dClean c.desc feedFields true = true ∧
      ∃ sub, sub = dSub c.desc ∧ (i = .feedSetAdd c ∧ sub = 0 ∧ feedClean (feedBody c.desc) 0 = true ∧
      f = feedAt (feedBody c.desc) 0 ∨ i = .feedSetChange c ∧ sub = 1 ∧ feedClean (feedBody c.desc) 0 = true ∧
      f = feedAt (feedBody c.desc) 0 ∨ i = .feedSetRemove c ∧ sub = 2 ∧ feedBare (feedBody c.desc) 0 = true ∧ f = { feed := dget c.desc 16 0 8 }) ∧
      (sub = 2 ∨ s.portsThere (feedPorts c.desc) = true) ∧ (s.get (R.STRMn_STATE_STATE n) = 1 ∨ s.get (R.STRMn_STATE_STATE n) = 2) ∧
      (s.strm n).p.typ = 3 ∧ ((sub = 0 ∧ (s.takeFetched c).feedUsed f.feed = false ∧
      (s.strm n).p.feedsOk ((s.takeFetched c).feedsNext n ++ [f]) = true) ∨ (sub = 1 ∧
      ((s.takeFetched c).feedsNext n).any (fun x => x.feed == f.feed) = true ∧
      (s.strm n).p.feedsOk (((s.takeFetched c).feedsNext n).map (fun x => if x.feed = f.feed then f else x)) = true) ∨ (sub = 2 ∧
      ((s.takeFetched c).feedsNext n).any (fun x => x.feed == f.feed) = true))) ∧
  (∃ (s : State) (c : Cmd) (n : Nat), n = dIdx c.desc ∧ ∃ (i : Instr) (f : FeedP), s.accepts c 0x03 1 none ∧ dClean c.desc feedFields true = true ∧
      ∃ sub, sub = dSub c.desc ∧ (i = .feedSetAdd c ∧ sub = 0 ∧ feedClean (feedBody c.desc) 0 = true ∧
      f = feedAt (feedBody c.desc) 0 ∨ i = .feedSetChange c ∧ sub = 1 ∧ feedClean (feedBody c.desc) 0 = true ∧
      f = feedAt (feedBody c.desc) 0 ∨ i = .feedSetRemove c ∧ sub = 2 ∧ feedBare (feedBody c.desc) 0 = true ∧ f = { feed := dget c.desc 16 0 8 }) ∧
      (sub = 2 ∨ s.portsThere (feedPorts c.desc) = true) ∧ (s.get (R.STRMn_STATE_STATE n) = 1 ∨ s.get (R.STRMn_STATE_STATE n) = 2) ∧
      (s.strm n).p.typ = 3 ∧ sub = 0 ∧ (s.takeFetched c).feedUsed f.feed = true) ∧
  (∃ (s : State) (c : Cmd) (n : Nat), n = dIdx c.desc ∧ s.accepts c 0x04 1 none ∧ (dSub c.desc = 0 ∧
      dClean c.desc [(16, 0, 4), (17, 0, 8), (18, 0, 8), (20, 0, 32), (24, 0, 32)] = true ∧ dget c.desc 16 0 4 ≠ 0) ∧
      ∃ e, s.codedOpen n false = some e) ∧
  (∃ (s : State) (c : Cmd) (n : Nat), n = dIdx c.desc ∧ s.accepts c 0x04 1 none ∧ (dSub c.desc = 0 ∧
      dClean c.desc [(16, 0, 4), (17, 0, 8), (18, 0, 8), (20, 0, 32), (24, 0, 32)] = true ∧ dget c.desc 16 0 4 ≠ 0 ∧ s.codedOpen n false = none ∧
      (s.takeFetched c).rateOk n ((s.takeFetched c).rateSum n ((s.takeFetched c).rateOf c.desc)) = false)) ∧
  (∃ (s : State) (c : Cmd) (n : Nat), n = dIdx c.desc ∧ s.accepts c 0x04 1 none ∧ (dSub c.desc = 0 ∧
      dClean c.desc [(16, 0, 4), (17, 0, 8), (18, 0, 8), (20, 0, 32), (24, 0, 32)] = true ∧ dget c.desc 16 0 4 ≠ 0 ∧ s.codedOpen n false = none ∧
      (s.takeFetched c).rateOk n ((s.takeFetched c).rateSum n ((s.takeFetched c).rateOf c.desc)) = true)) ∧
  (∃ (s : State) (c : Cmd) (n : Nat), n = dIdx c.desc ∧ s.accepts c 0x07 1 (some 4) ∧ (dSub c.desc = 0 ∧ dClean c.desc [(16, 0, 4)] = true ∧
      s.get (R.STRMn_STATE_STATE n) = 0)) ∧
  (∃ (s : State) (c : Cmd) (n : Nat), n = dIdx c.desc ∧ s.accepts c 0x07 1 (some 4) ∧ (dSub c.desc = 0 ∧ dClean c.desc [(16, 0, 4)] = true ∧
      s.get (R.STRMn_STATE_STATE n) ≠ 0)) ∧
  (∃ (s : State) (c : Cmd) (n : Nat), n = dIdx c.desc ∧ dSub c.desc = 0 ∧ s.accepts c 0x05 1 none ∧ dClean c.desc [] = true ∧
      ∃ e, s.codedOpen n true = some e) ∧
  (∃ (s : State) (c : Cmd) (n : Nat), n = dIdx c.desc ∧ dSub c.desc = 0 ∧ s.accepts c 0x05 1 none ∧ (dClean c.desc [] = true ∧
      s.codedOpen n true = none ∧ natBit (s.strm n).p.keySrc 0 = false)) ∧
  (∃ (s : State) (c : Cmd) (n : Nat), n = dIdx c.desc ∧ dSub c.desc = 0 ∧ s.accepts c 0x05 1 none ∧ (dClean c.desc [] = true ∧
      s.codedOpen n true = none ∧ natBit (s.strm n).p.keySrc 0 = true)) ∧
  (∃ (s : State) (c : Cmd) (n : Nat), n = dIdx c.desc ∧ dSub c.desc = 0 ∧ s.accepts c 0x06 1 none ∧
      dClean c.desc [(16, 0, 64), (24, 0, 16), (26, 0, 16), (32, 0, 64)] = true ∧ ∃ len, len = dget c.desc 24 0 16 ∧ (2 ≤ len ∧ len ≤ 1024 ∧
      1 ≤ dget c.desc 26 0 16) ∧ ∃ used, used = max (dget c.desc 32 0 64) ((s.takeFetched c).effPic n) ∧
      ∃ last, last = dget c.desc 32 0 64 + dget c.desc 26 0 16 - 1 ∧ ∃ e, s.codedOpen n false = some e) ∧
  (∃ (s : State) (c : Cmd) (n : Nat), n = dIdx c.desc ∧ dSub c.desc = 0 ∧ s.accepts c 0x06 1 none ∧
      dClean c.desc [(16, 0, 64), (24, 0, 16), (26, 0, 16), (32, 0, 64)] = true ∧ ∃ len, len = dget c.desc 24 0 16 ∧ (2 ≤ len ∧ len ≤ 1024 ∧
      1 ≤ dget c.desc 26 0 16) ∧ ∃ used, used = max (dget c.desc 32 0 64) ((s.takeFetched c).effPic n) ∧
      ∃ last, last = dget c.desc 32 0 64 + dget c.desc 26 0 16 - 1 ∧ s.codedOpen n false = none ∧
      (s.takeFetched c).reachQp (dget c.desc 16 0 64) len = none) ∧
  (∃ (s : State) (c : Cmd) (n : Nat), n = dIdx c.desc ∧ dSub c.desc = 0 ∧ ∃ (pay : HostRead) (bs : List Byte), s.accepts c 0x06 1 none ∧
      dClean c.desc [(16, 0, 64), (24, 0, 16), (26, 0, 16), (32, 0, 64)] = true ∧ ∃ len, len = dget c.desc 24 0 16 ∧ (2 ≤ len ∧ len ≤ 1024 ∧
      1 ≤ dget c.desc 26 0 16) ∧ ∃ used, used = max (dget c.desc 32 0 64) ((s.takeFetched c).effPic n) ∧
      ∃ last, last = dget c.desc 32 0 64 + dget c.desc 26 0 16 - 1 ∧ s.codedOpen n false = none ∧
      ((s.takeFetched c).reachQp (dget c.desc 16 0 64) len).isSome = true ∧ pay = some bs ∧ len ≤ bs.length ∧ last < used) ∧
  (∃ (s : State) (c : Cmd) (n : Nat), n = dIdx c.desc ∧ dSub c.desc = 0 ∧ ∃ (pay : HostRead) (bs : List Byte), s.accepts c 0x06 1 none ∧
      dClean c.desc [(16, 0, 64), (24, 0, 16), (26, 0, 16), (32, 0, 64)] = true ∧ ∃ len, len = dget c.desc 24 0 16 ∧ (2 ≤ len ∧ len ≤ 1024 ∧
      1 ≤ dget c.desc 26 0 16) ∧ ∃ used, used = max (dget c.desc 32 0 64) ((s.takeFetched c).effPic n) ∧
      ∃ last, last = dget c.desc 32 0 64 + dget c.desc 26 0 16 - 1 ∧ s.codedOpen n false = none ∧
      ((s.takeFetched c).reachQp (dget c.desc 16 0 64) len).isSome = true ∧ pay = some bs ∧ len ≤ bs.length ∧ used ≤ last ∧
      (4 ≤ ((s.strm n).sei.filter (fun i => decide ((s.strm n).nextPic ≤ i.last))).length)) ∧
  (∃ (s : State) (c : Cmd) (n : Nat), n = dIdx c.desc ∧ dSub c.desc = 0 ∧ ∃ (pay : HostRead) (bs : List Byte), s.accepts c 0x06 1 none ∧
      dClean c.desc [(16, 0, 64), (24, 0, 16), (26, 0, 16), (32, 0, 64)] = true ∧ ∃ len, len = dget c.desc 24 0 16 ∧ (2 ≤ len ∧ len ≤ 1024 ∧
      1 ≤ dget c.desc 26 0 16) ∧ ∃ used, used = max (dget c.desc 32 0 64) ((s.takeFetched c).effPic n) ∧
      ∃ last, last = dget c.desc 32 0 64 + dget c.desc 26 0 16 - 1 ∧ s.codedOpen n false = none ∧
      ((s.takeFetched c).reachQp (dget c.desc 16 0 64) len).isSome = true ∧ pay = some bs ∧ len ≤ bs.length ∧ used ≤ last ∧
      (((s.strm n).sei.filter (fun i => decide ((s.strm n).nextPic ≤ i.last))).length < 4)) :=
  ⟨⟨s0, c0, _, rfl, i0, feedAt (feedBody (mk 0x03 0 1 5 (fd 7 ++ [(32, 1), (33, 255)])).desc) 0, acc (by decide +kernel), by decide +kernel, _, rfl, by decide +kernel⟩,
  ⟨st on5, c0, _, rfl, i0, feedAt (feedBody (mk 0x03 0 1 5 (fd 7 ++ [(32, 1), (33, 255)])).desc) 0, acc (by decide +kernel), by decide +kernel, _, rfl, by decide +kernel⟩,
  ⟨st ring0, c0, _, rfl, i0, feedAt (feedBody (mk 0x03 0 1 5 (fd 7 ++ [(32, 1), (33, 255)])).desc) 0, acc (by decide +kernel), by decide +kernel, _, rfl, by decide +kernel⟩,
  ⟨s0, c1, _, rfl, i1, feedAt (feedBody (mk 0x03 0 1 5 (fd 7)).desc) 0, acc (by decide +kernel), by decide +kernel, _, rfl, by decide +kernel⟩,
  ⟨s1, c0, _, rfl, i0, feedAt (feedBody (mk 0x03 0 1 5 (fd 7 ++ [(32, 1), (33, 255)])).desc) 0, acc (by decide +kernel), by decide +kernel, _, rfl, by decide +kernel⟩,
  ⟨st ring0, c2, _, rfl, acc (by decide +kernel), by decide +kernel, someE (by decide +kernel)⟩,
  ⟨s0, c2, _, rfl, acc (by decide +kernel), by decide +kernel⟩,
  ⟨sR, cR, 5, by decide +kernel, acc (by decide +kernel), by decide +kernel, by decide +kernel, by decide +kernel, by decide +kernel, rate_ok⟩,
  ⟨st ring0, c3, _, rfl, acc (by decide +kernel), by decide +kernel⟩,
  ⟨s0, c3, _, rfl, acc (by decide +kernel), by decide +kernel⟩,
  ⟨st ring0, mk 0x05 0 1 5, _, rfl, by decide +kernel, acc (by decide +kernel), by decide +kernel, someE (by decide +kernel)⟩,
  ⟨s3, mk 0x05 0 1 5, _, rfl, by decide +kernel, acc (by decide +kernel), by decide +kernel⟩,
  ⟨s0, mk 0x05 0 1 5, _, rfl, by decide +kernel, acc (by decide +kernel), by decide +kernel⟩,
  ⟨st ring0, c4, _, rfl, by decide +kernel, acc (by decide +kernel), by decide +kernel, _, rfl, by decide +kernel, _, rfl, _, rfl, someE (by decide +kernel)⟩,
  ⟨s0, c4, _, rfl, by decide +kernel, acc (by decide +kernel), by decide +kernel, _, rfl, by decide +kernel, _, rfl, _, rfl, by decide +kernel⟩,
  ⟨s0, c5, _, rfl, by decide +kernel, some [1, 2], [1, 2], acc (by decide +kernel), by decide +kernel, _, rfl, by decide +kernel, _, rfl, _, rfl, by decide +kernel⟩,
  ⟨s3, c6, _, rfl, by decide +kernel, some [1, 2], [1, 2], acc (by decide +kernel), by decide +kernel, _, rfl, by decide +kernel, _, rfl, _, rfl, by decide +kernel⟩,
  ⟨s0, c6, _, rfl, by decide +kernel, some [1, 2], [1, 2], acc (by decide +kernel), by decide +kernel, _, rfl, by decide +kernel, _, rfl, _, rfl, by decide +kernel⟩⟩
end StreamOrders

namespace BandInput
def enc5 : StreamS := {p := {typ := 0, w := 128, h := 128}}
def s0 : State := strm 5 enc5 (st (gen0 ++ [(R.STRMn_STATE_STATE 5, 2)]))
def s1 : State := strm 5 {enc5 with slotFree := [(0, 1)]} (st (gen0 ++ [(R.STRMn_STATE_STATE 5, 2)]))
def s2 : State := { strm 5 enc5 (st (gen0 ++ [(R.STRMn_STATE_STATE 5, 2)])) with now := 77000000 * 2 ^ 48 }
/-- States and operands that meet the premises of each clause of BandInput. -/
theorem witness :
  (∃ (s : State) (n : Fin 128) (pic : Nat) (b : Nat), (s.rawLive n pic = true ∧ b < (s.strm n).p.nRows ∧ (pic, b) ∉ (s.strm n).slotFree ∧
      (s.strm n).complete pic = false) ∧ (∀ g d, g = (s.strm n).p.bandNo pic b →
      d = (if (s.strm n).p.frame then (s.strm n).p.nh else (s.strm n).p.nb) →
      g < d ∨ s.bandRead n ((g - d) / (s.strm n).p.nRows) ((g - d) % (s.strm n).p.nRows) = true) ∧ ((s.strm n).p.frame = true →
      s.picIn n pic = true ∧ ∀ g, g = (s.strm n).p.bandNo pic b → g ≠ 0 →
      ((g - 1) / (s.strm n).p.nRows,
      (g - 1) % (s.strm n).p.nRows) ∈ (s.strm n).slotFree ∨ (s.strm n).complete ((g - 1) / (s.strm n).p.nRows) = true)) ∧
  (∃ (s : State) (n : Fin 128) (pic : Nat) (b : Nat), (pic, b) ∈ (s.strm n).slotFree) ∧
  (∃ (s : State) (n : Fin 128) (pic : Nat) (b : Nat), s.rawLive n pic = true ∧ b < (s.strm n).p.nRows ∧ (pic, b) ∉ (s.strm n).cutDone ∧
      (s.strm n).complete pic = false ∧ s.bandCut n pic b = true) ∧
  (∃ (s : State) (n : Fin 128) (pic : Nat) (b : Nat), s.bandCut n pic b = false) :=
  ⟨⟨s0, 5, 0, 0, by decide +kernel, fun g d hg hd => by subst hg; subst hd; decide +kernel, fun x => absurd x (by decide +kernel)⟩,
  ⟨s1, 5, 0, 1, by decide +kernel⟩,
  ⟨s2, 5, 0, 0, by decide +kernel⟩,
  ⟨s0, 5, 0, 0, by decide +kernel⟩⟩
end BandInput

namespace JobQueues
def enc5 : StreamS := {p := {typ := 0, w := 128, h := 128}, nextPic := 1, pics := [{n := 0, k := 0, t := {}, jobsLeft := 2}], eff := {home := 0}}
def job5 : Job := {stream := 5, pic := 0, row := 0, reg := 0, nCtu := 2}
def on5 : List (RF × Nat) := gen0 ++ [(R.STRMn_STATE_STATE 5, 2), (R.CREWc_STATE_STATE 0, 2), (R.CREWc_STATE_STATE 1, 2), (R.UCTL_RUN 0, 1), (R.UCTL_RUN 36, 1), (R.CREWc_CTL_STEAL_EN 0, 1)]
def run5 : RunS := {job := job5, home := 0, charged := 2}
def s0 : State := (strm 5 {enc5 with eff := {home := 1, sh0 := 0}} (st (on5 ++ [(R.UCTL_RUN 36, 0)]))).setCrew 1 {queue := [job5], wait := [{job5 with row := 1}, {job5 with row := 1, again := true}]}
def s1 : State := { (strm 5 enc5 (st on5)).setCrew 0 {queue := [job5]} with turns := [(1, 5, 200)] }
def s2 : State := (strm 5 enc5 (st on5)).setCrew 0 {queue := [job5]}
def s3 : State := { strm 5 enc5 (st on5) with ended := [(0, [run5]), (143, [{run5 with charged := 1}])], progs := [{stream := 5, pic := 0, row := 0, reg := 0, recon := 2, done := false}], now := 77000000 * 2 ^ 48 }
/-- States and operands that meet the premises of each clause of JobQueues. -/
theorem witness :
  (∃ (s : State) (c : Fin 4) (j : _) (r : _), (s.crew c).wait = j :: r ∧ (s.crew c).queue.length < 1024) ∧
  (∃ (s : State) (c : Fin 4), ((s.crew c).wait = [] ∨ 1024 ≤ (s.crew c).queue.length)) ∧
  (∃ (s : State) (u : Fin 144) (v : _) (j : _), s.idle u = true ∧ s.takeChoice (u.val / 36) = some (v, j) ∧ s.winsTake u v = true ∧
      s.inTurn 1 j.stream u = true) ∧
  (∃ (s : State) (u : Fin 144) (v : _) (j : _), s.takeChoice (u.val / 36) = some (v, j) ∧ s.inTurn 1 j.stream u = false) ∧
  (∃ (s : State) (u : Fin 144), (s.idle u = false ∨ s.takeChoice (u.val / 36) = none)) ∧
  (∃ (s : State) (u : Fin 144) (r : _) (rest : _) (bytes : _), tabGet [] s.ended u = r :: rest ∧ (r.job.dec = true ∨ (r.job.nCtu ≤ r.charged ∧
      8 * bytes ≤ r.bits + s.get (R.RRCn_SLICE_BITS r.job.stream)))) ∧
  (∃ (s : State) (u : Fin 144) (r : _) (rest : _) (bytes : _), tabGet [] s.ended u = r :: rest ∧ r.job.dec = false ∧
      (r.charged < r.job.nCtu ∨ r.bits + s.get (R.RRCn_SLICE_BITS r.job.stream) < 8 * bytes)) ∧
  (∃ (s : State) (u : Fin 144), tabGet [] s.ended u = []) ∧
  (∃ (s : State) (n : Fin 128) (pic : _) (row : _), (s.strm n).p.typ ≠ 2 ∧ 2 ≤ s.get (R.STRMn_STATE_STATE n) ∧ pic < (s.strm n).nextPic ∧
      (s.strm n).nextPic ≤ pic + 64 ∧ row < (s.strm n).p.nRows ∧ (pic, row) ∉ (s.strm n).dlDone ∧
      s.reached (s.rowDl (s.strm n).p (s.strokeOf n pic) row) = true ∧ ((s.strm n).p.typ = 1 → (s.pic n pic).isSome = true)) ∧
  (∃ (s : State) (n : Fin 128) (pic : _) (row : _), ((pic,
      row) ∈ (s.strm n).dlDone ∨ s.reached (s.rowDl (s.strm n).p (s.strokeOf n pic) row) = false)) :=
  ⟨⟨s0, 1, {job5 with row := 1}, [{job5 with row := 1, again := true}], by decide +kernel⟩,
  ⟨s1, 0, by decide +kernel⟩,
  ⟨s2, 0, 0, job5, by decide +kernel⟩,
  ⟨s1, 0, 0, job5, by decide +kernel⟩,
  ⟨s1, 143, by decide +kernel⟩,
  ⟨s3, 0, run5, [], 0, by decide +kernel⟩,
  ⟨s3, 0, run5, [], 1, by decide +kernel⟩,
  ⟨s1, 0, by decide +kernel⟩,
  ⟨s3, 5, 0, 0, by decide +kernel⟩,
  ⟨s1, 5, 0, 0, by decide +kernel⟩⟩
end JobQueues

namespace RecordStaging
def enc5 : StreamS := {p := {typ := 0, w := 128, h := 128}, nextPic := 1, keyWait := [1, 9], pics := [{n := 0, k := 0, t := {}, jobsLeft := 2}], eff := {home := 0}}
def s0 : State := strm 5 enc5 (st (gen0 ++ [(R.STRMn_STATE_STATE 5, 2)]))
/-- States and operands that meet the premises of each clause of RecordStaging. -/
theorem witness :
  (∃ (s : State) (n : Fin 128), (s.strm n).p.typ ≠ 2 ∧ 2 ≤ s.get (R.STRMn_STATE_STATE n) ∧ (s.strm n).nextPic ≠ 0 ∧
      (s.strm n).past (s.strm n).nextPic = false ∧ ((s.strm n).pics.any (fun q => decide (q.n + 32 ≤ (s.strm n).nextPic) && q.fin.isNone) = false)) ∧
  (∃ (s : State) (n : Fin 128), ((s.strm n).p.typ = 2 ∨ s.get (R.STRMn_STATE_STATE n) < 2 ∨ (s.strm n).nextPic = 0)) :=
  ⟨⟨s0, 5, by decide +kernel⟩,
  ⟨st [], 5, by decide +kernel⟩⟩
end RecordStaging

namespace CrewRecords
def s0 : State := st [(R.CREWc_STATE_STATE 3, 1)]
def s1 : State := st [(R.CREWc_STATE_STATE 3, 3), (R.DEV_HAND_ADMIT, 1)]
/-- States and operands that meet the premises of each clause of CrewRecords. -/
theorem witness :
  (∃ (s : State) (c : Fin 4) (w : Who) (j : Fin 32) (d : Word), s.gate w (A.CREWc_SEATj c j) d = true ∧ (∀ i, i < 32 → i ≠ j.val →
      s.seatHolds c i (wordGet d 0 6) = false)) ∧
  (∃ (s : State) (c : Fin 4) (w : Who) (j : Fin 32) (d : Word), s.gate w (A.CREWc_SEATj c j) d = true ∧ ∃ i, i < 32 ∧ i ≠ j.val ∧
      s.seatHolds c i (wordGet d 0 6) = true ∧ wordGet d 7 1 = 1) ∧
  (∃ (s : State) (c : Fin 4), s.crewPresent c = true ∧ s.get (R.CREWc_STATE_STATE c) = 1 ∧ s.get (R.CREWc_STATE_PEND c) ≠ 2 ∧
      (s.crew c).began.2 = false) ∧
  (∃ (s : State) (c : Fin 4), (s.crewPresent c = false ∨ s.get (R.CREWc_STATE_STATE c) ≠ 1)) ∧
  (∃ (s : State) (c : Fin 4), (s.get (R.CREWc_STATE_STATE c) = 3 ∧ s.get (R.CREWc_STATE_PEND c) = 0) ∧ (∀ q, q < 36 → s.run (36 * c + q) = none ∧
      tabGet [] s.ended (36 * c + q) = [])) ∧
  (∃ (s : State) (c : Fin 4), s.get (R.CREWc_STATE_STATE c) ≠ 3) ∧
  (∃ (s : State), s.expert 4 = false) ∧
  (∃ (s : State), s.expert 4 = true) :=
  ⟨⟨st [], 0, Who.cox 0, 0, 0x80, by decide +kernel, ltAll (by decide +kernel)⟩,
  ⟨st [], 0, Who.cox 0, 31, 0x80, by decide +kernel, 0, by decide +kernel⟩,
  ⟨s0, 3, by decide +kernel⟩,
  ⟨st [], 0, by decide +kernel⟩,
  ⟨s1, 3, by decide +kernel, ltAll (by decide +kernel)⟩,
  ⟨st [], 0, by decide +kernel⟩,
  ⟨st [], by decide +kernel⟩,
  ⟨s1, by decide +kernel⟩⟩
end CrewRecords

namespace Leases
def pic5 : Pic := {n := 0, k := 0, t := {}, jobsLeft := 2, bPic := 5000, reserve := 100}
def job5 : Job := {stream := 5, pic := 0, row := 0, reg := 0, nCtu := 2}
def run5 : RunS := {job := job5, home := 0}
def strm5 (p : Pic) : StreamS := {p := {typ := 0, w := 128, h := 128}, nextPic := 1, pics := [p]}
def s0 : State := (strm 5 (strm5 {pic5 with floor := true}) (st [])).setRun 0 (some run5)
def s1 : State := (strm 5 (strm5 {pic5 with bPic := 50}) (st [])).setRun 0 (some run5)
def s2 : State := (strm 5 (strm5 pic5) (st [])).setRun 0 (some run5)
def s3 : State := { (strm 5 (strm5 pic5) (st [])).setRun 0 (some run5) with turns := [(0, 5, 300)] }
def s4 : State := (strm 5 (strm5 pic5) (st [])).setRun 0 (some {run5 with sent := 1, leases := [(0, 77, 32)]})
def s5 : State := (strm 5 (strm5 pic5) (st [])).setRun 0 (some {run5 with sent := 1})
/-- States and operands that meet the premises of each clause of Leases. -/
theorem witness :
  (∃ (s : State) (u : Fin 144) (r : RunS) (p : Pic), (r.job.dec = false ∧ s.pic r.job.stream r.job.pic = some p ∧ s.run u = some r ∧
      (∀ l, l ∈ r.leases → l.1 ≠ r.x) ∧ s.inTurn 0 r.job.stream (144 + u) = true ∧ max r.sent r.charged ≤ r.x ∧ (s.seq u).stage < 5) ∧
      ∃ (ctx : _) (byp : _) (n : _), n = r.job.stream ∧ ∃ ra, ra = { r with asked := some r.x } ∧
      ∃ fc, fc = (s.strm n).p.floorCost p.record r.job.reg r.x ∧ ∃ ub, ub = leaseUB ctx byp fc ∧ (p.floor = true ∨ p.record.startup = true)) ∧
  (∃ (s : State) (u : Fin 144) (r : RunS) (p : Pic), (r.job.dec = false ∧ s.pic r.job.stream r.job.pic = some p ∧ s.run u = some r ∧
      (∀ l, l ∈ r.leases → l.1 ≠ r.x) ∧ s.inTurn 0 r.job.stream (144 + u) = true ∧ max r.sent r.charged ≤ r.x ∧ (s.seq u).stage < 5) ∧
      ∃ (ctx : _) (byp : _) (n : _), n = r.job.stream ∧ ∃ ra, ra = { r with asked := some r.x } ∧
      ∃ fc, fc = (s.strm n).p.floorCost p.record r.job.reg r.x ∧ ∃ ub, ub = leaseUB ctx byp fc ∧ p.floor = false ∧ p.record.startup = false ∧
      p.free - ((ub : Int) - fc) < 0) ∧
  (∃ (s : State) (u : Fin 144) (r : RunS) (p : Pic), (r.job.dec = false ∧ s.pic r.job.stream r.job.pic = some p ∧ s.run u = some r ∧
      (∀ l, l ∈ r.leases → l.1 ≠ r.x) ∧ s.inTurn 0 r.job.stream (144 + u) = true ∧ max r.sent r.charged ≤ r.x ∧ (s.seq u).stage < 5) ∧
      ∃ (ctx : _) (byp : _) (n : _), n = r.job.stream ∧ ∃ ra, ra = { r with asked := some r.x } ∧
      ∃ fc, fc = (s.strm n).p.floorCost p.record r.job.reg r.x ∧ ∃ ub, ub = leaseUB ctx byp fc ∧ p.floor = false ∧ p.record.startup = false ∧
      0 ≤ p.free - ((ub : Int) - fc)) ∧
  (∃ (s : State) (u : Fin 144) (r : RunS) (p : Pic), r.job.dec = false ∧ s.pic r.job.stream r.job.pic = some p ∧ s.run u = some r ∧
      (s.inTurn 0 r.job.stream (144 + u) = false ∨ r.x < max r.sent r.charged ∨ 5 ≤ (s.seq u).stage)) ∧
  (∃ (s : State) (u : Fin 144) (r : RunS) (p : Pic), r.job.dec = false ∧ s.pic r.job.stream r.job.pic = some p ∧ s.run u = some r ∧
      (∀ e, e ∈ tabGet [] s.ended u → e.job.nCtu ≤ e.charged) ∧ (r.sent ≤ r.charged ∨ s.bowServes u r.job.dl = false)) ∧
  (∃ (s : State) (u : Fin 144) (r : RunS) (p : Pic), (r.job.dec = false ∧ s.pic r.job.stream r.job.pic = some p ∧ s.run u = some r ∧
      (∀ e, e ∈ tabGet [] s.ended u → e.job.nCtu ≤ e.charged) ∧ r.charged < r.sent ∧ s.bowServes u r.job.dl = true ∧
      s.inTurn 0 r.job.stream u = true) ∧ ∃ n, n = r.job.stream ∧ ∃ fc, fc = (s.strm n).p.floorCost p.record r.job.reg r.charged ∧
      ∃ l, r.leases.find? (fun l => l.1 == r.charged) = some l) ∧
  (∃ (s : State) (u : Fin 144) (r : RunS) (p : Pic), (r.job.dec = false ∧ s.pic r.job.stream r.job.pic = some p ∧ s.run u = some r ∧
      (∀ e, e ∈ tabGet [] s.ended u → e.job.nCtu ≤ e.charged) ∧ r.charged < r.sent ∧ s.bowServes u r.job.dl = true ∧
      s.inTurn 0 r.job.stream u = true) ∧ ∃ n, n = r.job.stream ∧ ∃ fc, fc = (s.strm n).p.floorCost p.record r.job.reg r.charged ∧
      (r.leases.find? (fun l => l.1 == r.charged) = none)) :=
  ⟨⟨s0, 0, run5, {pic5 with floor := true}, by decide +kernel, 0, 0, _, rfl, _, rfl, _, rfl, _, rfl, by decide +kernel⟩,
  ⟨s1, 0, run5, {pic5 with bPic := 50}, by decide +kernel, 0, 0, _, rfl, _, rfl, _, rfl, _, rfl, by decide +kernel⟩,
  ⟨s2, 0, run5, pic5, by decide +kernel, 0, 0, _, rfl, _, rfl, _, rfl, _, rfl, by decide +kernel⟩,
  ⟨s3, 0, run5, pic5, by decide +kernel⟩,
  ⟨s3, 0, run5, pic5, by decide +kernel⟩,
  ⟨s4, 0, {run5 with sent := 1, leases := [(0, 77, 32)]}, pic5, by decide +kernel, _, rfl, _, rfl, someE (by decide +kernel)⟩,
  ⟨s5, 0, {run5 with sent := 1}, pic5, by decide +kernel, _, rfl, _, rfl, by decide +kernel⟩⟩
end Leases

namespace RackWork
def strm5 (w : Bool) : StreamS := {p := {typ := 0, w := 128, h := 128, shelfN := 3}, nextPic := 1, pics := [{n := 0, k := 0, t := {}, waiting := w}]}
def shelf : List (RF × Nat) := [(R.SLOTs_MARK_SHELVED 7, 1), (R.SLOTs_MARK_STREAM 7, 5), (R.SHLFn_CFG_N 5, 1), (R.STRMn_STATE_STATE 5, 2)]
def s0 : State := strm 5 (strm5 true) (st (ring0 ++ shelf ++ [(R.SHLFn_HOLD_SPARE 5, 1)]))
def s1 : State := strm 5 (strm5 false) (st (ring0 ++ shelf ++ [(R.STRMn_STATE_TYPE 5, 2)]))
def s2 : State := { strm 5 (strm5 false) (st (ring0 ++ shelf ++ [(R.SHLFn_HOLD_SPARE 5, 1), (R.SLOTs_MARK_HOST_HOLD 8, 1), (R.SLOTs_MARK_REF_SHORT 7, 1)])) with slotPic := [(7, some 0)], retPend := [8, 9] }
def c0 : Cmd := mk 0x08 0 1 5 [(16, 0)]
def s3 : State := { strm 5 (strm5 false) (st (ring0 ++ shelf ++ [(R.SHLFn_HOLD_SPARE 5, 1), (R.SHLFn_HOLD_HOLDS 5, 1), (R.SLOTs_MARK_HOST_HOLD 7, 1), (R.SLOTs_MARK_CODING 7, 1)])) with slotPic := [(7, some 0)] }
def c1 : Cmd := mk 0x08 0 1 5 [(16, 1)]
def c2 : Cmd := mk 0x09 0 0 0 [(16, 7)]
def c3 : Cmd := mk 0x09 0 0 0 [(16, 8)]
/-- States and operands that meet the premises of each clause of RackWork. -/
theorem witness :
  (∃ (s : State) (n : Fin 128) (p : _) (i : _), ((s.strm n).pics.find? (fun p => p.waiting) = some p) ∧ s.freeSlot n = some i) ∧
  (∃ (s : State) (n : Fin 128), ((s.strm n).pics.find? (fun p => p.waiting) = none ∨ s.freeSlot n = none)) ∧
  (∃ (s : State) (i : Fin 4096), i.val ∈ s.retPend ∧ s.get ⟨A.SLOTs_MARK i, 0, 6⟩ = 0) ∧
  (∃ (s : State) (i : Fin 4096), (i.val ∉ s.retPend ∨ s.get ⟨A.SLOTs_MARK i, 0, 6⟩ ≠ 0)) ∧
  (∃ (s : State) (n : Fin 128) (slots : List (Fin 4096)) (full : _),
      full = (if (s.strm n).p.shelfN = 0 then s.get (R.SHLFn_CFG_NMIN n) else (s.strm n).p.shelfN) ∧ (s.get (R.STRMn_STATE_STATE n) ≠ 0 ∧
      s.get (R.SHLFn_CFG_N n) < full) ∧
      ∃ add, add = (((slots.map Fin.val ++ List.range s.maxSlots).filter (fun i => s.unassigned i)).eraseDups).take (min (full - s.get (R.SHLFn_CFG_N n)) (s.cellarFits (s.get (R.SHLFn_SLOTSZ_UNITS n))))) ∧
  (∃ (s : State) (n : Fin 128), s.get (R.STRMn_STATE_STATE n) = 0) ∧
  (∃ (s : State) (c : Cmd), dSub c.desc = 0 ∧ s.accepts c 0x08 1 none ∧ dClean c.desc [(16, 0, 64)] = true ∧ ∃ n, n = dIdx c.desc ∧
      ∃ pic, pic = dget c.desc 16 0 64 ∧ s.get (R.STRMn_STATE_TYPE n) = 2) ∧
  (∃ (s : State) (c : Cmd), dSub c.desc = 0 ∧ s.accepts c 0x08 1 none ∧ dClean c.desc [(16, 0, 64)] = true ∧ ∃ n, n = dIdx c.desc ∧
      ∃ pic, pic = dget c.desc 16 0 64 ∧ s.get (R.STRMn_STATE_TYPE n) ≠ 2 ∧ s.get (R.SHLFn_HOLD_SPARE n) ≤ s.holdCount n) ∧
  (∃ (s : State) (c : Cmd), dSub c.desc = 0 ∧ s.accepts c 0x08 1 none ∧ dClean c.desc [(16, 0, 64)] = true ∧ ∃ n, n = dIdx c.desc ∧
      ∃ pic, pic = dget c.desc 16 0 64 ∧ s.get (R.STRMn_STATE_TYPE n) ≠ 2 ∧ s.holdCount n < s.get (R.SHLFn_HOLD_SPARE n) ∧ (s.strm n).nextPic ≤ pic) ∧
  (∃ (s : State) (c : Cmd), dSub c.desc = 0 ∧ s.accepts c 0x08 1 none ∧ dClean c.desc [(16, 0, 64)] = true ∧ ∃ n, n = dIdx c.desc ∧
      ∃ pic, pic = dget c.desc 16 0 64 ∧ s.get (R.STRMn_STATE_TYPE n) ≠ 2 ∧ s.holdCount n < s.get (R.SHLFn_HOLD_SPARE n) ∧ pic < (s.strm n).nextPic ∧
      ((s.strm n).pics.any (fun p => p.n = pic ∧ p.waiting) = true)) ∧
  (∃ (s : State) (c : Cmd), dSub c.desc = 0 ∧ s.accepts c 0x08 1 none ∧ dClean c.desc [(16, 0, 64)] = true ∧ ∃ n, n = dIdx c.desc ∧
      ∃ pic, pic = dget c.desc 16 0 64 ∧ (s.get (R.STRMn_STATE_TYPE n) ≠ 2 ∧ s.holdCount n < s.get (R.SHLFn_HOLD_SPARE n)) ∧
      ∃ i, pic < (s.strm n).nextPic ∧ ((s.strm n).pics.any (fun p => p.n = pic ∧ p.waiting) = false) ∧
      ((s.shelf n).find? (fun i => s.slotPicOf i == some pic && (decide (s.get ⟨A.SLOTs_MARK i, 0, 6⟩ ≠ 0) || decide (i ∈ s.freed))) = some i)) ∧
  (∃ (s : State) (c : Cmd), dSub c.desc = 0 ∧ s.accepts c 0x09 0 none ∧ dClean c.desc [(16, 0, 16)] = true ∧ ∃ i, i = dget c.desc 16 0 16 ∧
      i < 4096 ∧ s.get (R.SLOTs_MARK_HOST_HOLD i) = 0) ∧
  (∃ (s : State) (c : Cmd), dSub c.desc = 0 ∧ s.accepts c 0x09 0 none ∧ dClean c.desc [(16, 0, 16)] = true ∧ ∃ i, i = dget c.desc 16 0 16 ∧
      (i < 4096 ∧ s.get (R.SLOTs_MARK_HOST_HOLD i) = 1 ∧ s.get (R.SLOTs_MARK_SHELVED i) = 1) ∧ (∀ o, o ∈ s.owed → ∀ m q, o.wait ≠ .hold m q)) ∧
  (∃ (s : State) (c : Cmd), dSub c.desc = 0 ∧ s.accepts c 0x09 0 none ∧ dClean c.desc [(16, 0, 16)] = true ∧ ∃ i, i = dget c.desc 16 0 16 ∧
      i < 4096 ∧ s.get (R.SLOTs_MARK_HOST_HOLD i) = 1 ∧ s.get (R.SLOTs_MARK_SHELVED i) = 0) :=
  ⟨⟨s0, 5, {n := 0, k := 0, t := {}, waiting := true}, 7, by decide +kernel⟩,
  ⟨s1, 5, by decide +kernel⟩,
  ⟨s2, 9, by decide +kernel⟩,
  ⟨s1, 7, by decide +kernel⟩,
  ⟨s1, 5, [], _, rfl, by decide +kernel, _, rfl⟩,
  ⟨s1, 6, by decide +kernel⟩,
  ⟨s1, c0, by decide +kernel, acc (by decide +kernel), by decide +kernel, _, rfl, _, rfl, by decide +kernel⟩,
  ⟨s3, c0, by decide +kernel, acc (by decide +kernel), by decide +kernel, _, rfl, _, rfl, by decide +kernel⟩,
  ⟨s0, c1, by decide +kernel, acc (by decide +kernel), by decide +kernel, _, rfl, _, rfl, by decide +kernel⟩,
  ⟨s0, c0, by decide +kernel, acc (by decide +kernel), by decide +kernel, _, rfl, _, rfl, by decide +kernel⟩,
  ⟨s2, c0, by decide +kernel, acc (by decide +kernel), by decide +kernel, _, rfl, _, rfl, by decide +kernel, 7, by decide +kernel⟩,
  ⟨s1, c2, by decide +kernel, acc (by decide +kernel), by decide +kernel, _, rfl, by decide +kernel⟩,
  ⟨s3, c2, by decide +kernel, acc (by decide +kernel), by decide +kernel, _, rfl, by decide +kernel, nilAll (by decide +kernel)⟩,
  ⟨s2, c3, by decide +kernel, acc (by decide +kernel), by decide +kernel, _, rfl, by decide +kernel⟩⟩
end RackWork

namespace DecodeInput
def dec5 : StreamS := {p := {typ := 1, w := 128, h := 128}, nextPic := 1, pics := [{n := 0, k := 0, t := {}, jobsLeft := 2, headDone := true}], dec := {inputs := [(0, 1, 0)], staged := 50}}
def s0 : State := strm 5 {dec5 with dec := {inputs := [(0, 0, 0)], staged := 50, synStage := 10}} (st (gen0 ++ [(R.STRMn_STATE_STATE 5, 2), (R.STRMn_DCTL_AHEAD 5, 1)]))
def s1 : State := { strm 5 dec5 (st (gen0 ++ [(R.STRMn_STATE_STATE 5, 2)])) with now := 77000000 * 2 ^ 48 }
def s2 : State := strm 5 {dec5 with dec := {cut := [(0, 0, 0)]}} (st (gen0 ++ [(R.STRMn_STATE_STATE 5, 2)]))
/-- States and operands that meet the premises of each clause of DecodeInput. -/
theorem witness :
  (∃ (s : State) (n : Fin 128) (pic : _) (row : _) (reg : _), s.decJob n pic row reg = true ∧
      s.reached (s.rowInst (s.strm n).p (s.strokeOf n pic) row 0) = true ∧ ((s.headNow n pic).strm n).complete pic = false) ∧
  (∃ (s : State) (n : Fin 128) (pic : _) (row : _) (reg : _), s.decJob n pic row reg = true ∧
      s.reached (s.rowInst (s.strm n).p (s.strokeOf n pic) row 0) = false) ∧
  (∃ (s : State) (n : Fin 128) (pic : _) (row : _) (reg : _), (s.decJob n pic row reg = true ∧ (pic, row, reg) ∉ (s.strm n).dec.cut ∧
      (s.strm n).nextPic ≤ pic + 64 ∧ s.reached (s.cutInst (s.strm n).p (s.strokeOf n pic) ((s.picP n pic).lastBand row reg)) = true) ∧
      (∀ p, s.pic n pic = some p → p.headDone = true)) ∧
  (∃ (s : State) (n : Fin 128) (pic : _) (row : _) (reg : _), (pic, row, reg) ∈ (s.strm n).dec.cut) ∧
  (∃ (s : State) (n : Fin 128) (bytes : _) (recs : _) (jobs : _), (s.strm n).p.typ = 1 ∧ s.get (R.STRMn_DCTL_AHEAD n) = 1 ∧
      2 ≤ s.get (R.STRMn_STATE_STATE n) ∧ s.aheadTurn n = true ∧ bytes ≤ (s.strm n).dec.staged ∧
      (s.strm n).dec.synUsed + recs ≤ (s.strm n).dec.synStage ∧ jobs = (s.aheadNext n).take jobs.length ∧ (∀ k, k ∈ jobs →
      k ∈ (s.strm n).dec.inputs)) ∧
  (∃ (s : State) (n : Fin 128) (bytes : _) (recs : _) (jobs : _),
      (s.get (R.STRMn_DCTL_AHEAD n) = 0 ∨ (s.strm n).dec.staged < bytes ∨ (s.strm n).dec.synStage < (s.strm n).dec.synUsed + recs ∨ jobs ≠ (s.aheadNext n).take jobs.length)) :=
  ⟨⟨s0, 5, 0, 0, 0, by decide +kernel⟩,
  ⟨s0, 5, 0, 1, 0, by decide +kernel⟩,
  ⟨s1, 5, 0, 0, 0, by decide +kernel, allSome (by decide +kernel)⟩,
  ⟨s2, 5, 0, 0, 0, by decide +kernel⟩,
  ⟨s0, 5, 0, 0, [(0, 0, 0)], by decide +kernel⟩,
  ⟨s0, 5, 0, 0, [(0, 1, 0), (0, 2, 0)], by decide +kernel⟩⟩
end DecodeInput

namespace Microwords
def ust (w : Nat) (q : SeqS := {}) (l : List (RF × Nat) := []) : State :=
  { st l with seqs := [(0, { q with on := true, upc := 5 })], mem := [(famKey 4 5, some [(w, keelCheck 4 5 0 w)])] }
def run5 : RunS := {job := {stream := 5, pic := 0, row := 0, reg := 0, nCtu := 2}, home := 0, charged := 2}
def s0 : State := ust 4 {stack := [9]}
def s1 : State := ust 133 {lc0 := 2}
def s2 : State := (ust 7).setRun 0 (some run5)
def s3 : State := (ust 8).setRun 0 (some run5)
def s4 : State := ust 9 {} [(R.USTAT_INTRAP 0, 1), (R.UTRAP_CAUSE_CAUSE 0, 4), (R.UTRAP_UPC_UPC 0, 77)]
def s5 : State := (ust 9 {} [(R.USTAT_INTRAP 0, 1), (R.UTRAP_CAUSE_CAUSE 0, 1)]).setRun 0 (some run5)
/-- States and operands that meet the premises of each clause of Microwords. -/
theorem witness :
  (∃ (s : State) (u : Fin 144) (c : UCond) (w : Nat), s.executes u w c ∧ ∃ nx, nx = ((s.seq u).upc + 1) % 2 ^ 12 ∧ uNxt w = 0) ∧
  (∃ (s : State) (u : Fin 144) (c : UCond) (w : Nat), s.executes u w c ∧ ∃ nx, nx = ((s.seq u).upc + 1) % 2 ^ 12 ∧ uNxt w = 1) ∧
  (∃ (s : State) (u : Fin 144) (c : UCond) (w : Nat), s.executes u w c ∧ ∃ nx, nx = ((s.seq u).upc + 1) % 2 ^ 12 ∧ uNxt w = 2) ∧
  (∃ (s : State) (u : Fin 144) (c : UCond) (w : Nat), s.executes u w c ∧ ∃ nx, nx = ((s.seq u).upc + 1) % 2 ^ 12 ∧ uNxt w = 3) ∧
  (∃ (s : State) (u : Fin 144) (c : UCond) (w : Nat), s.executes u w c ∧ ∃ nx, nx = ((s.seq u).upc + 1) % 2 ^ 12 ∧ ∃ (a : _) (l : _), uNxt w = 4 ∧
      (s.seq u).stack = a :: l) ∧
  (∃ (s : State) (u : Fin 144) (c : UCond) (w : Nat), s.executes u w c ∧ ∃ nx, nx = ((s.seq u).upc + 1) % 2 ^ 12 ∧ uNxt w = 5 ∧
      (s.seq u).lc (uLoopSel w) = 0) ∧
  (∃ (s : State) (u : Fin 144) (c : UCond) (w : Nat), s.executes u w c ∧ ∃ nx, nx = ((s.seq u).upc + 1) % 2 ^ 12 ∧ uNxt w = 5 ∧
      (s.seq u).lc (uLoopSel w) ≠ 0) ∧
  (∃ (s : State) (u : Fin 144) (c : UCond) (w : Nat), s.executes u w c ∧ ∃ nx, nx = ((s.seq u).upc + 1) % 2 ^ 12 ∧ uNxt w ≠ 0 ∧ uNxt w < 11) ∧
  (∃ (s : State) (u : Fin 144) (c : UCond) (w : Nat), s.executes u w c ∧ ∃ nx, nx = ((s.seq u).upc + 1) % 2 ^ 12 ∧ uNxt w ≠ 1 ∧ uNxt w < 11) ∧
  (∃ (s : State) (u : Fin 144) (c : UCond) (w : Nat), s.executes u w c ∧ (uNxt w = 6 ∧ s.get (R.USTAT_RETRY u) = 0)) ∧
  (∃ (s : State) (u : Fin 144) (c : UCond) (w : Nat), s.executes u w c ∧ ∃ r, uNxt w = 7 ∧ s.run u = some r) ∧
  (∃ (s : State) (u : Fin 144) (c : UCond) (w : Nat), s.executes u w c ∧ ∃ r, uNxt w = 8 ∧ s.run u = some r) ∧
  (∃ (s : State) (u : Fin 144) (c : UCond) (w : Nat), s.executes u w c ∧ (uNxt w = 9 ∧ 2 < s.get (R.UTRAP_CAUSE_CAUSE u))) ∧
  (∃ (s : State) (u : Fin 144) (c : UCond) (w : Nat), s.executes u w c ∧ ∃ r, uNxt w = 9 ∧ s.get (R.UTRAP_CAUSE_CAUSE u) ≤ 2 ∧ s.run u = some r) ∧
  (∃ (s : State) (u : Fin 144) (c : UCond) (w : Nat), s.executes u w c ∧ uNxt w = 10) :=
  ⟨⟨ust 0, 0, {conds := 0, refuse := 0}, 0, exe (by decide +kernel), _, rfl, by decide +kernel⟩,
  ⟨ust 129, 0, {conds := 0, refuse := 0}, 129, exe (by decide +kernel), _, rfl, by decide +kernel⟩,
  ⟨ust 258, 0, {conds := 0, refuse := 0}, 258, exe (by decide +kernel), _, rfl, by decide +kernel⟩,
  ⟨ust 131, 0, {conds := 0, refuse := 0}, 131, exe (by decide +kernel), _, rfl, by decide +kernel⟩,
  ⟨s0, 0, {conds := 0, refuse := 0}, 4, exe (by decide +kernel), _, rfl, 9, [], by decide +kernel⟩,
  ⟨ust 133, 0, {conds := 0, refuse := 0}, 133, exe (by decide +kernel), _, rfl, by decide +kernel⟩,
  ⟨s1, 0, {conds := 0, refuse := 0}, 133, exe (by decide +kernel), _, rfl, by decide +kernel⟩,
  ⟨ust 129, 0, {conds := 0, refuse := 0}, 129, exe (by decide +kernel), _, rfl, by decide +kernel⟩,
  ⟨ust 0, 0, {conds := 0, refuse := 0}, 0, exe (by decide +kernel), _, rfl, by decide +kernel⟩,
  ⟨ust 134, 0, {conds := 0, refuse := 0}, 134, exe (by decide +kernel), by decide +kernel⟩,
  ⟨s2, 0, {conds := 0, refuse := 0}, 7, exe (by decide +kernel), run5, by decide +kernel⟩,
  ⟨s3, 0, {conds := 0, refuse := 0}, 8, exe (by decide +kernel), run5, by decide +kernel⟩,
  ⟨s4, 0, {conds := 0, refuse := 0}, 9, exe (by decide +kernel), by decide +kernel⟩,
  ⟨s5, 0, {conds := 0, refuse := 0}, 9, exe (by decide +kernel), run5, by decide +kernel⟩,
  ⟨ust 10, 0, {conds := 0, refuse := 0}, 10, exe (by decide +kernel), by decide +kernel⟩⟩
end Microwords

namespace Traps
def run5 : RunS := {job := {stream := 5, pic := 0, row := 0, reg := 0, nCtu := 2}, home := 0, charged := 2}
def s0 : State := { st [] with seqs := [(7, {on := true, raised := 5, upc := 77})] }
def s1 : State := { st [] with seqs := [(7, {on := true, wait := some 1})], now := 10 ^ 12 * 2 ^ 48, cyc := 10 ^ 12, mem := [(famKey 4 28672, some [(0, keelCheck 4 28672 0 0)])] }
def s2 : State := { st [] with seqs := [(7, {on := true, wait := some 1, stuck := true, res := some 1})], now := 10 ^ 12 * 2 ^ 48, cyc := 10 ^ 12, preempt := [(7, some {level := 2})], runs := [(7, some run5)] }
def s3 : State := { st [] with preempt := [(7, some {level := 2})] }
def s4 : State := { st [(R.USTAT_RES1 7, 1)] with seqs := [(7, {on := true, res := some 1})], cyc := 10 ^ 6, now := 10 ^ 12 * 2 ^ 48, runs := [(7, some run5)] }
theorem bit0 : natBit (s1.uConds (7 : Fin 144) 0 0#64) 0 = true := by
  have r : s1.run (7 : Fin 144) = none := by decide +kernel
  have l : s1.uLines (7 : Fin 144) = [] := by decide +kernel
  have q : (s1.seq (7 : Fin 144)).lc0 = 0 ∧ (s1.seq (7 : Fin 144)).lc1 = 0 ∧ (s1.seq (7 : Fin 144)).lc2 = 0 ∧ (s1.seq (7 : Fin 144)).rd = false ∧ (s1.seq (7 : Fin 144)).wr = false ∧
    (s1.seq (7 : Fin 144)).less = false ∧ s1.inTrap (7 : Fin 144) = false := by decide +kernel
  have e : List.range 20 = [0, 1, 2, 3, 4, 5, 6, 7, 8, 9, 10, 11, 12, 13, 14, 15, 16, 17, 18, 19] := by decide
  unfold State.uConds
  cases h : (s1.seq (7 : Fin 144)).takes (uRecord 0) <;>
    simp only [e, List.foldl_cons, List.foldl_nil, r, l, q, h, List.all_nil, Bool.false_and, b2n] <;> decide
theorem word0 : (s1.uFetch (7 : Fin 144) (s1.seq (7 : Fin 144)).upc).2.word = 0 := by decide +kernel
/-- States and operands that meet the premises of each clause of Traps. -/
theorem witness :
  (∃ (s : State) (u : Fin 144) (q : SeqS), q = s.seq u ∧ q.on = true ∧ q.raised ≠ 0 ∧ q.raised < 8) ∧
  (∃ (s : State) (u : Fin 144) (q : SeqS), q = s.seq u ∧ (q.on = false ∨ q.raised = 0)) ∧
  (∃ (s : State) (u : Fin 144) (q : SeqS), q = s.seq u ∧ ∃ b, (q.on = true ∧ q.wait = some b ∧ s.get (R.UCTL_TMODE u) = 0 ∧
      s.get (R.UCTL_WTO u) * 1024 * 5 ≤ (s.lt - b) * 3) ∧ ∃ w, w = (s.uFetch u q.upc).2.word ∧ q.stuck = false ∧
      natBit (s.uConds u w 0#64) (uWait w) = true) ∧
  (∃ (s : State) (u : Fin 144) (q : SeqS), q = s.seq u ∧ ∃ b, (q.on = true ∧ q.wait = some b ∧ s.get (R.UCTL_TMODE u) = 0 ∧
      s.get (R.UCTL_WTO u) * 1024 * 5 ≤ (s.lt - b) * 3) ∧ ∃ w, w = (s.uFetch u q.upc).2.word ∧
      (q.stuck = true ∨ natBit (s.uConds u w 0#64) (uWait w) = false) ∧ s.get (R.USTAT_INTRAP u) = 0 ∧ q.raised = 0) ∧
  (∃ (s : State) (u : Fin 144) (q : SeqS), q = s.seq u ∧ q.wait = none) ∧
  (∃ (s : State) (u : Fin 144) (q : SeqS), q = s.seq u ∧ ∃ (p : _) (r : _), tabGet none s.preempt u = some p ∧ q.on = true ∧ s.run u = some r ∧
      q.pre = none ∧ s.get (R.USTAT_INTRAP u) = 0 ∧ q.raised = 0) ∧
  (∃ (s : State) (u : Fin 144) (q : SeqS), q = s.seq u ∧ ∃ p, tabGet none s.preempt u = some p ∧ (q.on = false)) ∧
  (∃ (s : State) (u : Fin 144) (q : SeqS), q = s.seq u ∧ tabGet none s.preempt u = none) ∧
  (∃ (s : State) (u : Fin 144) (q : SeqS), q = s.seq u ∧ ∃ b, q.on = true ∧ s.get R.CHK_INJ_CTL_ARM = 0 ∧ q.res = some b ∧ 16 * 5 ≤ (s.lt - b) * 3 ∧
      s.get (R.USTAT_RES1 u) = 0 ∧ s.get (R.USTAT_INTRAP u) = 0 ∧ q.raised = 0) ∧
  (∃ (s : State) (u : Fin 144) (q : SeqS), q = s.seq u ∧ ∃ b, q.on = true ∧ s.get R.CHK_INJ_CTL_ARM = 0 ∧ q.res = some b ∧ 16 * 5 ≤ (s.lt - b) * 3 ∧
      s.get (R.USTAT_RES1 u) = 1) ∧
  (∃ (s : State) (u : Fin 144) (q : SeqS), q = s.seq u ∧ ∃ b, q.on = true ∧ s.get R.CHK_INJ_CTL_ARM = 0 ∧ q.res = some b ∧ 16 * 5 ≤ (s.lt - b) * 3) ∧
  (∃ (s : State) (u : Fin 144) (q : SeqS), q = s.seq u ∧ (q.on = false ∨ q.res = none)) :=
  ⟨⟨s0, 7, _, rfl, by decide +kernel⟩,
  ⟨st [], 7, _, rfl, by decide +kernel⟩,
  ⟨s1, 7, _, rfl, 1, by decide +kernel, _, rfl, by decide +kernel, by
    have h : natBit (s1.uConds (7 : Fin 144) (s1.uFetch (7 : Fin 144) (s1.seq (7 : Fin 144)).upc).2.word 0#64) (uWait (s1.uFetch (7 : Fin 144) (s1.seq (7 : Fin 144)).upc).2.word) = true := by
      rw [word0]; exact bit0
    exact h⟩,
  ⟨s2, 7, _, rfl, 1, by decide +kernel, _, rfl, by decide +kernel⟩,
  ⟨st [], 7, _, rfl, by decide +kernel⟩,
  ⟨s2, 7, _, rfl, {level := 2}, run5, by decide +kernel⟩,
  ⟨s3, 7, _, rfl, someW (by decide +kernel) (by decide +kernel)⟩,
  ⟨st [], 7, _, rfl, by decide +kernel⟩,
  ⟨s2, 7, _, rfl, 1, by decide +kernel⟩,
  ⟨s4, 7, _, rfl, 1, by decide +kernel⟩,
  ⟨s2, 7, _, rfl, 1, by decide +kernel⟩,
  ⟨st [], 7, _, rfl, by decide +kernel⟩⟩
end Traps

namespace SequencerRegisters
def gr (w c : Nat) (l : List (RF × Nat)) : State := { st l with mem := [(famKey 4 (7 * 4096 + 5), some [(w, Nat.xor c (keelCheck 4 (7 * 4096 + 5) 0 w))])] }
def on1 : List (RF × Nat) := [(R.CLKPWR_PDn_STATE 1, 2)]
def s0 : State := gr 9 0 (on1 ++ [(R.UCS_ADDR_ADDR 7, 5), (R.UCS_ADDR_AUTOINC 7, 1), (R.UCS_BADADDR_ADDR 7, 5), (R.USTAT_UCS_BAD 7, 1)])
def s1 : State := gr 9 1 (on1 ++ [(R.UCTL_RUN 7, 1), (R.UCS_ADDR_ADDR 7, 4095)])
def s2 : State := gr 9 1 (on1 ++ [(R.USTAT_BUSY 7, 1), (R.UCTL_RUN 7, 1), (R.CREWc_SCULLq_STATE 0 7, 1)])
/-- States and operands that meet the premises of each clause of SequencerRegisters. -/
theorem witness :
  (∃ (s : State) (w : Who) (u : Fin 144) (d : Word), s.gate w (A.UCS_ADDR u) d = true ∧ s.ucsOpen u = true) ∧
  (∃ (s : State) (w : Who) (u : Fin 144) (d : Word), s.gate w (A.UCS_ADDR u) d = true ∧ s.ucsOpen u = false) ∧
  (∃ (s : State) (w : Who) (u : Fin 144) (d : Word), s.gate w (A.UCS_DATA4 u) d = true ∧ s.ucsOpen u = true) ∧
  (∃ (s : State) (w : Who) (u : Fin 144) (d : Word), s.gate w (A.UCS_DATA4 u) d = true ∧ s.ucsOpen u = false) ∧
  (∃ (s : State) (u : Fin 144), s.absent (A.UCS_DATA4 u) = false ∧ s.domainOn (A.UCS_DATA4 u) = true ∧ s.ucsOpen u = true) ∧
  (∃ (s : State) (u : Fin 144), s.absent (A.UCS_DATA4 u) = false ∧ s.domainOn (A.UCS_DATA4 u) = true ∧ s.ucsOpen u = false) ∧
  (∃ (s : State) (u : Fin 144) (a : BitVec 12) (g : _), g = ((s.gran 4 (u * 2 ^ 12 + a.toNat))[0]?).getD (0, 0) ∧
      ∃ y, y = syndOf 4 (syndrome 4 (u * 2 ^ 12 + a.toNat) 0 g) ∧ y.fixed = true) ∧
  (∃ (s : State) (u : Fin 144) (a : BitVec 12) (g : _), g = ((s.gran 4 (u * 2 ^ 12 + a.toNat))[0]?).getD (0, 0) ∧
      ∃ y, y = syndOf 4 (syndrome 4 (u * 2 ^ 12 + a.toNat) 0 g) ∧ y.fixed = false) ∧
  (∃ (s : State) (u : Fin 144), s.get (R.USTAT_UCS_BAD u) = 1 ∧ s.expert 9 = false) ∧
  (∃ (s : State) (u : Fin 144), (s.get (R.USTAT_UCS_BAD u) = 0 ∨ s.expert 9 = true)) ∧
  (∃ (s : State) (u : Fin 144), s.get (R.USTAT_SUM_BUSY u) = 0) ∧
  (∃ (s : State) (w : Who) (u : Fin 144) (d : Word), s.gate w (A.UCTL u) d = true ∧ wordGet d 1 1 = s.get (R.UCTL_TMODE u) ∧ wordGet d 2 1 = 0) ∧
  (∃ (s : State) (w : Who) (u : Fin 144) (d : Word), s.gate w (A.UCTL u) d = true ∧ wordGet d 1 1 ≠ s.get (R.UCTL_TMODE u) ∧ wordGet d 2 1 = 0) ∧
  (∃ (s : State) (w : Who) (u : Fin 144) (d : Word), s.gate w (A.UCTL u) d = true ∧ wordGet d 2 1 = 1) ∧
  (∃ (d : Word), wordGet d 2 1 = 0) ∧
  (∃ (s : State) (w : Who) (u : Fin 144) (d : Word), s.gate w (A.USTART u) d = true ∧ wordGet d 31 1 = 1 ∧ s.get (R.UCTL_RUN u) = 0 ∧
      s.get (R.USTAT_BUSY u) = 0) ∧
  (∃ (s : State) (w : Who) (u : Fin 144) (d : Word), s.gate w (A.USTART u) d = true ∧ wordGet d 31 1 = 1 ∧
      (s.get (R.UCTL_RUN u) = 1 ∨ s.get (R.USTAT_BUSY u) = 1)) ∧
  (∃ (s : State) (u : Fin 144), s.crewPresent (u / 36) = true ∧ s.sculState u = 1 ∧ s.get (R.UCTL_RUN u) = 1 ∧ (s.seq u).on = false ∧
      s.run u = none) ∧
  (∃ (s : State) (u : Fin 144), (s.sculState u ≠ 1 ∨ s.get (R.UCTL_RUN u) = 0 ∨ (s.seq u).on = true)) :=
  ⟨⟨s0, Who.cox 0, 7, 0, by decide +kernel⟩,
  ⟨s1, Who.cox 0, 7, 0, by decide +kernel⟩,
  ⟨s0, Who.cox 0, 7, 0, by decide +kernel⟩,
  ⟨s1, Who.cox 0, 7, 0, by decide +kernel⟩,
  ⟨s0, 7, by decide +kernel⟩,
  ⟨s1, 7, by decide +kernel⟩,
  ⟨s1, 7, 5, _, rfl, _, rfl, by decide +kernel⟩,
  ⟨s0, 7, 5, _, rfl, _, rfl, by decide +kernel⟩,
  ⟨s0, 7, by decide +kernel⟩,
  ⟨s1, 7, by decide +kernel⟩,
  ⟨s0, 7, by decide +kernel⟩,
  ⟨s0, Who.cox 0, 7, 0x00070000, by decide +kernel⟩,
  ⟨s0, Who.cox 0, 7, 0x00070002, by decide +kernel⟩,
  ⟨s0, Who.cox 0, 7, 0x00070005, by decide +kernel⟩,
  ⟨0, by decide +kernel⟩,
  ⟨s0, Who.cox 0, 7, 0x80000005, by decide +kernel⟩,
  ⟨s1, Who.cox 0, 7, 0x80000005, by decide +kernel⟩,
  ⟨s2, 7, by decide +kernel⟩,
  ⟨s0, 7, by decide +kernel⟩⟩
theorem witness_sum : ∃ (s : State) (u : Fin 144), s.get (R.USTAT_SUM_BUSY u) = 1 := ⟨st [(R.USTAT_SUM_BUSY 0, 1)], 0, by decide +kernel⟩
end SequencerRegisters

namespace ClexiaRequests
def rq (opc : Nat) (body : List Byte) (seq : Nat := 1) (tag : BitVec 128 := 0) : ClxReq :=
  {port := 0, path := ⟨0, none, 0x88B5, none⟩, ver := 1, opc := BitVec.ofNat 8 opc, len := BitVec.ofNat 16 body.length, seq := BitVec.ofNat 32 seq, tag := tag, body := body}
def opn : List (RF × Nat) := [(R.DEV_STRAP_MGMT_OPEN, 1), (R.HOST_CTL_CLX_RAW_EN, 1), (R.DEV_HEALTH_DSTATE, 2)]
def s0 : State := { st opn with rst := .warmPin }
def q0 : ClxReq := rq 0x3F [1, 2] 1 1
def i0 : Instr := .clxPing (rq 0x3F [1, 2] 1 1)
def s1 : State := st (opn ++ [(R.DEV_STRAP_MGMT_OPEN, 0)])
def s2 : State := { st (opn ++ [(seqRF 0, 100), (initRF 0, 1)]) with sleep := some {} }
def s3 : State := { st (opn ++ [(seqRF 0, 1), (initRF 0, 1)]) with cps := [(0, {resp := some {opc := 3, seq := 1, path := ⟨0, none, 0x88B5, none⟩, payload := [4]}})] }
def s4 : State := { st (opn ++ ring0) with turns := [(2, 0, 5)] }
def q1 : ClxReq := { rq 0x3F [1, 2] with ver := 2 }
def i1 : Instr := .clxPing { rq 0x3F [1, 2] with ver := 2 }
def q2 : ClxReq := rq 0x01 [0, 0, 0, 0, 0, 3, 0, 0]
def q3 : ClxReq := rq 0x01 [0, 0, 0, 1, 0, 3, 0, 0]
def q4 : ClxReq := rq 0x02 [0, 0, 0, 0, 0, 3, 0, 0]
def s5 : State := st (opn ++ [(R.DEV_HEALTH_DSTATE, 1)])
def q5 : ClxReq := rq 0x03 [0, 0, 0, 0, 0, 1, 0, 0, 1, 2, 3, 4]
def s6 : State := st (opn ++ ring0)
def q6 : ClxReq := rq 0x20 [0, 0, 0, 0, 0, 0, 0, 1]
def q7 : ClxReq := rq 0x31 [0, 0, 0, 1]
def q8 : ClxReq := rq 0x3F (List.replicate 65 7)
def closed : State := st (opn ++ [(R.DEV_STRAP_MGMT_OPEN, 0)])
theorem bad_tag (t : BitVec 128) (h : closed.clxAuth (rq 0x3F [1, 2] 1 t) = false) : closed.clxRes (rq 0x3F [1, 2] 1 t) = .badTag := by
  have a : closed.cpServes 0 = true := by decide +kernel
  have b : closed.clxArrives 0 ⟨0, none, 0x88B5, none⟩ = true := by decide +kernel
  have c : ¬ ([1, 2] : List Byte).length < (BitVec.ofNat 16 2).toNat := by decide +kernel
  unfold State.clxRes
  rw [if_neg (by rintro (x | x | x); · exact absurd (a.symm.trans x) (by decide)
                 · exact absurd (b.symm.trans x) (by decide)
                 · exact c x), if_pos h]
theorem tagged : ∃ t, closed.clxAuth (rq 0x3F [1, 2] 1 t) = false := by
  have a : closed.clxOpen = false := by decide +kernel
  by_cases h : clexiaTag (clxHead 1 63 2 1 ++ [1, 2]) = 0
  · exact ⟨1, by show (closed.clxOpen || decide ((1 : BitVec 128) = clexiaTag (clxHead 1 63 2 1 ++ [1, 2]))) = false; rw [a, h]; decide⟩
  · exact ⟨0, by show (closed.clxOpen || decide ((0 : BitVec 128) = clexiaTag (clxHead 1 63 2 1 ++ [1, 2]))) = false; rw [a]; simpa using fun x => h x.symm⟩
/-- States and operands that meet the premises of each clause of ClexiaRequests. -/
theorem witness :
  (∃ (s : State) (r : ClxReq) (i : Instr) (o : Nat), (i, o) ∈ [(Instr.clxRead r, 0x01), (.clxWrite r, 0x02), (.clxBlockWrite r, 0x03), (.fwPush r,
      0x10), (.clxDoorbell r, 0x20), (.clxWake r, 0x30), (.resetReq r, 0x31), (.clxPing r, 0x3F)] ∧ r.opc.toNat = o ∧ (o = 0x20 →
      s.inTurn 2 0 (dbTurn r.port true) = true) ∧ s.clxRes r = .dropped) ∧
  (∃ (s : State) (r : ClxReq) (i : Instr) (o : Nat), (i, o) ∈ [(Instr.clxRead r, 0x01), (.clxWrite r, 0x02), (.clxBlockWrite r, 0x03), (.fwPush r,
      0x10), (.clxDoorbell r, 0x20), (.clxWake r, 0x30), (.resetReq r, 0x31), (.clxPing r, 0x3F)] ∧ r.opc.toNat = o ∧ (o = 0x20 →
      s.inTurn 2 0 (dbTurn r.port true) = true) ∧ s.clxRes r = .badTag) ∧
  (∃ (s : State) (r : ClxReq) (i : Instr) (o : Nat), (i, o) ∈ [(Instr.clxRead r, 0x01), (.clxWrite r, 0x02), (.clxBlockWrite r, 0x03), (.fwPush r,
      0x10), (.clxDoorbell r, 0x20), (.clxWake r, 0x30), (.resetReq r, 0x31), (.clxPing r, 0x3F)] ∧ r.opc.toNat = o ∧ (o = 0x20 →
      s.inTurn 2 0 (dbTurn r.port true) = true) ∧ s.clxRes r = .behind) ∧
  (∃ (s : State) (r : ClxReq) (i : Instr) (o : Nat), ((i, o) ∈ [(Instr.clxRead r, 0x01), (.clxWrite r, 0x02), (.clxBlockWrite r, 0x03), (.fwPush r,
      0x10), (.clxDoorbell r, 0x20), (.clxWake r, 0x30), (.resetReq r, 0x31), (.clxPing r, 0x3F)] ∧ r.opc.toNat = o ∧ (o = 0x20 →
      s.inTurn 2 0 (dbTurn r.port true) = true)) ∧ ∃ x, s.clxRes r = .again ∧ (s.cp r.port).resp = some x) ∧
  (∃ (s : State) (r : ClxReq) (i : Instr) (o : Nat), (i, o) ∈ [(Instr.clxRead r, 0x01), (.clxWrite r, 0x02), (.clxBlockWrite r, 0x03), (.fwPush r,
      0x10), (.clxDoorbell r, 0x20), (.clxWake r, 0x30), (.resetReq r, 0x31), (.clxPing r, 0x3F)] ∧ r.opc.toNat = o ∧ (o = 0x20 →
      s.inTurn 2 0 (dbTurn r.port true) = true) ∧ s.clxRes r = .accepted ∧ r.ver ≠ 1) ∧
  (∃ (s : State) (r : ClxReq), (s.clxRes r = .accepted ∧ r.ver = 1) ∧ ∃ b, b = r.body.take r.len.toNat ∧ ∃ s1, s1 = s.clxTaken r ∧ (r.opc = 0x01 ∧
      b.length = 8 ∧ 1 ≤ pBe b 4 2 ∧ pBe b 4 2 ≤ 256 ∧ pBe b 0 4 % 4 = 0 ∧ pBe b 6 2 = 0) ∧
      ∃ v, v = s1.clxReads (.host r.port) (pBe b 0 4) (pBe b 4 2)) ∧
  (∃ (s : State) (r : ClxReq), (s.clxRes r = .accepted ∧ r.ver = 1) ∧ ∃ b, b = r.body.take r.len.toNat ∧ ∃ s1, s1 = s.clxTaken r ∧ r.opc = 0x01 ∧
      b.length = 8 ∧ 1 ≤ pBe b 4 2 ∧ pBe b 4 2 ≤ 256 ∧ pBe b 0 4 % 4 ≠ 0) ∧
  (∃ (s : State) (r : ClxReq), (s.clxRes r = .accepted ∧ r.ver = 1) ∧ ∃ b, b = r.body.take r.len.toNat ∧ ∃ s1, s1 = s.clxTaken r ∧ r.opc = 0x02 ∧
      b.length = 8 ∧ pBe b 0 4 % 4 = 0 ∧ s1.clxReady = true) ∧
  (∃ (s : State) (r : ClxReq), (s.clxRes r = .accepted ∧ r.ver = 1) ∧ ∃ b, b = r.body.take r.len.toNat ∧ ∃ s1, s1 = s.clxTaken r ∧ r.opc = 0x02 ∧
      b.length = 8 ∧ pBe b 0 4 % 4 = 0 ∧ s1.clxReady = false) ∧
  (∃ (s : State) (r : ClxReq), (s.clxRes r = .accepted ∧ r.ver = 1) ∧ ∃ b, b = r.body.take r.len.toNat ∧ ∃ s1, s1 = s.clxTaken r ∧ r.opc = 0x03 ∧
      8 ≤ b.length ∧ b.length = 8 + 4 * pBe b 4 2 ∧ 1 ≤ pBe b 4 2 ∧ pBe b 4 2 ≤ 256 ∧ pBe b 0 4 % 4 = 0 ∧ pBe b 6 2 = 0 ∧ s1.clxReady = true) ∧
  (∃ (s : State) (r : ClxReq), (s.clxRes r = .accepted ∧ r.ver = 1) ∧ ∃ b, b = r.body.take r.len.toNat ∧ ∃ s1, s1 = s.clxTaken r ∧
      ∃ k, k = dbTurn r.port true ∧ ∃ s2, s2 = s1.turn_ 2 0 k ∧ r.opc = 0x20 ∧ s.inTurn 2 0 k = true ∧ b.length = 8 ∧ s1.clxReady = true) ∧
  (∃ (s : State) (r : ClxReq), (s.clxRes r = .accepted ∧ r.ver = 1) ∧ ∃ b, b = r.body.take r.len.toNat ∧ ∃ s1, s1 = s.clxTaken r ∧
      s.inTurn 2 0 (dbTurn r.port true) = false) ∧
  (∃ (s : State) (r : ClxReq), (s.clxRes r = .accepted ∧ r.ver = 1) ∧ ∃ b, b = r.body.take r.len.toNat ∧ ∃ s1, s1 = s.clxTaken r ∧ r.opc = 0x30 ∧
      b.length = 0 ∧ s1.clxReady = true) ∧
  (∃ (s : State) (r : ClxReq), (s.clxRes r = .accepted ∧ r.ver = 1) ∧ ∃ b, b = r.body.take r.len.toNat ∧ ∃ s1, s1 = s.clxTaken r ∧ r.opc = 0x31 ∧
      b.length = 4 ∧ pBe b 0 4 = 1) ∧
  (∃ (s : State) (r : ClxReq), (s.clxRes r = .accepted ∧ r.ver = 1) ∧ ∃ b, b = r.body.take r.len.toNat ∧ ∃ s1, s1 = s.clxTaken r ∧ r.opc = 0x3F ∧
      b.length ≤ 64) ∧
  (∃ (s : State) (r : ClxReq), (s.clxRes r = .accepted ∧ r.ver = 1) ∧ ∃ b, b = r.body.take r.len.toNat ∧ ∃ s1, s1 = s.clxTaken r ∧ r.opc = 0x3F ∧
      64 < b.length) :=
  ⟨⟨s0, q0, i0, 0x3F, by decide +kernel⟩,
  by
    obtain ⟨t, ht⟩ := tagged
    exact ⟨closed, rq 0x3F [1, 2] 1 t, .clxPing (rq 0x3F [1, 2] 1 t), 0x3F, by simp, rfl, fun x => absurd x (by decide), bad_tag t ht⟩,
  ⟨s2, q0, i0, 0x3F, by decide +kernel⟩,
  ⟨s3, q0, i0, 0x3F, by decide +kernel, {opc := 3, seq := 1, path := ⟨0, none, 0x88B5, none⟩, payload := [4]}, by decide +kernel⟩,
  ⟨s4, q1, i1, 0x3F, by decide +kernel⟩,
  ⟨s4, q2, by decide +kernel, _, rfl, _, rfl, by decide +kernel, _, rfl⟩,
  ⟨s4, q3, by decide +kernel, _, rfl, _, rfl, by decide +kernel⟩,
  ⟨s4, q4, by decide +kernel, _, rfl, _, rfl, by decide +kernel⟩,
  ⟨s5, q4, by decide +kernel, _, rfl, _, rfl, by decide +kernel⟩,
  ⟨s4, q5, by decide +kernel, _, rfl, _, rfl, by decide +kernel⟩,
  ⟨s6, q6, by decide +kernel, _, rfl, _, rfl, _, rfl, _, rfl, by decide +kernel⟩,
  ⟨s4, q0, by decide +kernel, _, rfl, _, rfl, by decide +kernel⟩,
  ⟨s4, rq 0x30 [], by decide +kernel, _, rfl, _, rfl, by decide +kernel⟩,
  ⟨s4, q7, by decide +kernel, _, rfl, _, rfl, by decide +kernel⟩,
  ⟨s4, q0, by decide +kernel, _, rfl, _, rfl, by decide +kernel⟩,
  ⟨s4, q8, by decide +kernel, _, rfl, _, rfl, by decide +kernel⟩⟩
end ClexiaRequests

namespace FirmwarePush
def rq (body : List Byte) : ClxReq :=
  {port := 0, path := ⟨0, none, 0x88B5, none⟩, ver := 1, opc := 0x10, len := BitVec.ofNat 16 body.length, seq := 1, tag := 0, body := body}
def opn : List (RF × Nat) := [(R.DEV_STRAP_MGMT_OPEN, 1), (R.HOST_CTL_CLX_RAW_EN, 1)]
def body (off tot last : Nat) : List Byte := beBytes 4 off ++ beBytes 4 tot ++ beBytes 4 last ++ [1, 2, 3, 4]
def s0 : State := st (opn ++ [(R.CLKPWR_SWAP_BUSY, 1)])
def q0 : ClxReq := rq (body 0 8 0)
def s1 : State := { st opn with push := some {bytes := [1, 2, 3, 4]} }
def q1 : ClxReq := rq (body 4 8 1)
def s2 : State := { st (opn ++ [(R.DEV_HEALTH_DSTATE, 2)]) with push := some {bytes := [1, 2, 3, 4], last := some (0, ⟨144, 1, ⟨0, none, 0x88B5, none⟩, []⟩)} }
/-- States and operands that meet the premises of each clause of FirmwarePush. -/
theorem witness :
  (∃ (s : State) (r : ClxReq), (s.clxRes r = .accepted ∧ r.ver = 1 ∧ r.opc = 0x10) ∧ ∃ b, b = r.body.take r.len.toNat ∧ ∃ s1, s1 = s.clxTaken r ∧
      (12 ≤ b.length ∧ b.length ≤ 1436 ∧ b.length % 4 = 0) ∧ ∃ off, off = pBe b 0 4 ∧ ∃ tot, tot = pBe b 4 4 ∧ pBe b 8 4 < 2 ∧ s1.pushBusy = true) ∧
  (∃ (s : State) (r : ClxReq), (s.clxRes r = .accepted ∧ r.ver = 1 ∧ r.opc = 0x10) ∧ ∃ b, b = r.body.take r.len.toNat ∧ ∃ s1, s1 = s.clxTaken r ∧
      (12 ≤ b.length ∧ b.length ≤ 1436 ∧ b.length % 4 = 0) ∧ ∃ off, off = pBe b 0 4 ∧ ∃ tot, tot = pBe b 4 4 ∧ s1.pushBusy = false ∧ tot ≤ 4194304 ∧
      tot % 4 = 0 ∧ s1.pushOrder off tot (b.length - 12) false = true ∧ pBe b 8 4 = 0) ∧
  (∃ (s : State) (r : ClxReq), (s.clxRes r = .accepted ∧ r.ver = 1 ∧ r.opc = 0x10) ∧ ∃ b, b = r.body.take r.len.toNat ∧ ∃ s1, s1 = s.clxTaken r ∧
      (12 ≤ b.length ∧ b.length ≤ 1436 ∧ b.length % 4 = 0) ∧ ∃ off, off = pBe b 0 4 ∧ ∃ tot, tot = pBe b 4 4 ∧ s1.pushBusy = false ∧ tot ≤ 4194304 ∧
      tot % 4 = 0 ∧ s1.pushOrder off tot (b.length - 12) true = true ∧ pBe b 8 4 = 1) ∧
  (∃ (s : State) (q : _) (p : _) (x : _), s.push = some q ∧ q.last = some (p, x)) ∧
  (∃ (s : State), s.push = none) :=
  ⟨⟨s0, q0, by decide +kernel, _, rfl, _, rfl, by decide +kernel, _, rfl, _, rfl, by decide +kernel⟩,
  ⟨st opn, q0, by decide +kernel, _, rfl, _, rfl, by decide +kernel, _, rfl, _, rfl, by decide +kernel⟩,
  ⟨s1, q1, by decide +kernel, _, rfl, _, rfl, by decide +kernel, _, rfl, _, rfl, by decide +kernel⟩,
  ⟨s2, {bytes := [1, 2, 3, 4], last := some (0, ⟨144, 1, ⟨0, none, 0x88B5, none⟩, []⟩)}, 0, ⟨144, 1, ⟨0, none, 0x88B5, none⟩, []⟩, by decide +kernel⟩,
  ⟨st opn, by decide +kernel⟩⟩
end FirmwarePush

namespace QueuePairs
def rts : List (RF × Nat) := [(R.QPq_CTL_EN 63, 1), (R.QPq_STAT_STATE 63, 1), (R.QPq_CTL_RETRY 63, 3), (R.HOST_CTL_ECN_EN, 1), (R.HOST_CTL_PFC_EN, 1)]
def hostOn : List (RF × Nat) := [(R.CLKPWR_PDn_STATE 66, 2)]
def s0 : State := { st (hostOn ++ rts) with turns := [(2, 0, 9999)], cps := [(0, {paused := true})] }
def s1 : State := { st (hostOn ++ rts ++ win0 ++ ring0 ++ [(R.HWINw_CTL_QP 0, 63)]) with rings := [(0x20, {base := 0x800000000000, unack := [.compl 0 0 0 0 0 0]})], qps := [(63, {rate := 200000})], cyc := 10 ^ 9 }
def s2 : State := { st (hostOn ++ rts ++ win0 ++ ring0 ++ [(R.HWINw_CTL_QP 0, 63), (R.QPq_CTL_RETRY 63, 0)]) with rings := [(0x20, {base := 0x800000000000, unack := [.compl 0 0 0 0 0 0]})], cyc := 10 ^ 9 }
def s3 : State := { st (hostOn ++ rts) with turns := [(2, 0, 9999)] }
def k0 : RocePkt := ⟨0, 0, 0, 0, [], false⟩
def k1 : RocePkt := ⟨0, 0xFFFFFF, 0, 0, [], false⟩
def k2 : RocePkt := ⟨0, 5, 0, 0, [], false⟩
def k3 : RocePkt := ⟨1, 0, 0, 0, [], false⟩
def k4 : RocePkt := ⟨3, 0, 0, 0, [], false⟩
def k5 : RocePkt := ⟨4, 0, 0, 0, [], false⟩
/-- States and operands that meet the premises of each clause of QueuePairs. -/
theorem witness :
  (∃ (s : State) (q : Fin 64) (w : Who) (d : Word), s.gate w (A.QPq_CTL q) d = true ∧ s.get (R.QPq_CTL_EN q) = 0 ∧ wordGet d 0 1 = 1) ∧
  (∃ (s : State) (q : Fin 64) (w : Who) (d : Word), s.gate w (A.QPq_CTL q) d = true ∧ s.get (R.QPq_CTL_EN q) = 1 ∧ wordGet d 0 1 = 1) ∧
  (∃ (s : State) (q : Fin 64) (w : Who) (d : Word), s.gate w (A.QPq_CTL q) d = true ∧ s.get (R.QPq_CTL_EN q) = 1 ∧ wordGet d 0 1 = 0) ∧
  (∃ (s : State) (q : Fin 64) (due : _),
      due = (s.qpSince q).any (fun a => decide (max a (s.qp q).ackAt + 2048 * 2 ^ s.get (R.QPq_CTL_TIMEOUT q) ≤ s.cyc)) ∧ s.rts q = true ∧
      due = true ∧ (s.qp q).tries < s.get (R.QPq_CTL_RETRY q) ∧ s.qpPaused q = false) ∧
  (∃ (s : State) (q : Fin 64) (due : _),
      due = (s.qpSince q).any (fun a => decide (max a (s.qp q).ackAt + 2048 * 2 ^ s.get (R.QPq_CTL_TIMEOUT q) ≤ s.cyc)) ∧ s.rts q = true ∧
      due = true ∧ s.get (R.QPq_CTL_RETRY q) ≤ (s.qp q).tries) ∧
  (∃ (s : State) (q : Fin 64) (due : _),
      due = (s.qpSince q).any (fun a => decide (max a (s.qp q).ackAt + 2048 * 2 ^ s.get (R.QPq_CTL_TIMEOUT q) ≤ s.cyc)) ∧
      (s.rts q = false ∨ due = false)) ∧
  (∃ (s : State) (q : Fin 64), s.rts q = true) ∧
  (∃ (s : State) (q : Fin 64), s.rts q = false) ∧
  (∃ (s : State) (q : Fin 64) (k : RocePkt), (s.rts q = true ∧ k.ce = false ∧ s.qpPaused q = false) ∧
      ∃ x, x = dbTurn (s.get (R.QPq_CTL_PORT q)) false ∧ ∃ ts, ts = (2, 0, x) :: s.turns ∧ k.kind = 0 ∧ s.inTurn 2 0 x = false) ∧
  (∃ (s : State) (q : Fin 64) (k : RocePkt), (s.rts q = true ∧ k.ce = false ∧ s.qpPaused q = false) ∧
      ∃ x, x = dbTurn (s.get (R.QPq_CTL_PORT q)) false ∧ ∃ ts, ts = (2, 0, x) :: s.turns ∧ k.kind = 0 ∧ s.inTurn 2 0 x = true ∧
      (k.psn.toNat + 2 ^ 24 - (s.qp q).psnE) % 2 ^ 24 = 0 ∧ s.get R.HOST_DB_RKEY_RKEY = 0) ∧
  (∃ (s : State) (q : Fin 64) (k : RocePkt), (s.rts q = true ∧ k.ce = false ∧ s.qpPaused q = false) ∧
      ∃ x, x = dbTurn (s.get (R.QPq_CTL_PORT q)) false ∧ ∃ ts, ts = (2, 0, x) :: s.turns ∧ k.kind = 0 ∧ s.inTurn 2 0 x = true ∧
      2 ^ 23 ≤ (k.psn.toNat + 2 ^ 24 - (s.qp q).psnE) % 2 ^ 24) ∧
  (∃ (s : State) (q : Fin 64) (k : RocePkt), (s.rts q = true ∧ k.ce = false ∧ s.qpPaused q = false) ∧
      ∃ x, x = dbTurn (s.get (R.QPq_CTL_PORT q)) false ∧ ∃ ts, ts = (2, 0, x) :: s.turns ∧ k.kind = 0 ∧ s.inTurn 2 0 x = true ∧
      (k.psn.toNat + 2 ^ 24 - (s.qp q).psnE) % 2 ^ 24 ≠ 0 ∧ (k.psn.toNat + 2 ^ 24 - (s.qp q).psnE) % 2 ^ 24 < 2 ^ 23) ∧
  (∃ (s : State) (q : Fin 64) (k : RocePkt), (s.rts q = true ∧ k.ce = false ∧ s.qpPaused q = false) ∧
      ∃ x, x = dbTurn (s.get (R.QPq_CTL_PORT q)) false ∧ ∃ ts, ts = (2, 0, x) :: s.turns ∧ (k.kind = 1 ∨ k.kind = 2)) ∧
  (∃ (s : State) (q : Fin 64) (k : RocePkt), (s.rts q = true ∧ k.ce = false ∧ s.qpPaused q = false) ∧
      ∃ x, x = dbTurn (s.get (R.QPq_CTL_PORT q)) false ∧ ∃ ts, ts = (2, 0, x) :: s.turns ∧ k.kind = 3 ∧ (s.qp q).tries < s.get (R.QPq_CTL_RETRY q)) ∧
  (∃ (s : State) (q : Fin 64) (k : RocePkt), (s.rts q = true ∧ k.ce = false ∧ s.qpPaused q = false) ∧
      ∃ x, x = dbTurn (s.get (R.QPq_CTL_PORT q)) false ∧ ∃ ts, ts = (2, 0, x) :: s.turns ∧ k.kind = 4) ∧
  (∃ (s : State) (q : Fin 64), s.rts q = false) ∧
  (∃ (s : State) (q : Fin 64), s.rts q = true ∧ s.get R.HOST_CTL_ECN_EN = 1) ∧
  (∃ (s : State) (q : Fin 64), (s.rts q = false ∨ s.get R.HOST_CTL_ECN_EN = 0)) ∧
  (∃ (s : State) (q : Fin 64), s.rts q = true ∧ s.get R.HOST_CTL_ECN_EN = 1 ∧ (s.qp q).rate < lineRate ∧ (s.qp q).rateAt + 27500 ≤ s.cyc) ∧
  (∃ (s : State) (q : Fin 64), (s.rts q = false ∨ s.get R.HOST_CTL_ECN_EN = 0 ∨ lineRate ≤ (s.qp q).rate ∨ s.cyc < (s.qp q).rateAt + 27500)) ∧
  (∃ (s : State) (prio : Fin 8), s.get R.HOST_CTL_PFC_EN = 1 ∧ prio.val = s.get R.HOST_CTL_ROCE_PRIO) ∧
  (∃ (s : State) (prio : Fin 8), s.get R.HOST_CTL_PFC_EN = 1 ∧ prio.val = s.get R.HOST_CTL_ROCE_PRIO) ∧
  (∃ (s : State) (q : Fin 64), s.qpPaused q = false) ∧
  (∃ (s : State) (q : Fin 64), s.qpPaused q = false) ∧
  (∃ (s : State) (q : Fin 64) (c : _), c = s.get (R.QPq_CTL_PORT q) ∧ s.qpPaused q = true) ∧
  (∃ (s : State) (q : Fin 64) (c : _), c = s.get (R.QPq_CTL_PORT q) ∧ s.qpPaused q = true) ∧
  (∃ (s : State) (q : Fin 64), (s.qp q).psnS < 2 ^ 24) ∧
  (∃ (s : State) (prio : Fin 8), (s.get R.HOST_CTL_PFC_EN = 0 ∨ prio.val ≠ s.get R.HOST_CTL_ROCE_PRIO)) ∧
  (∃ (s : State) (p : Fin 2) (target : BitVec 32), s.cpServes p = true ∧ target.toNat = s.cpIp p) ∧
  (∃ (s : State) (p : Fin 2) (target : BitVec 32), (s.cpServes p = false ∨ target.toNat ≠ s.cpIp p)) :=
  ⟨⟨st hostOn, 63, Who.host 0, 0xE9, by decide +kernel⟩,
  ⟨s0, 63, Who.host 0, 0xE9, by decide +kernel⟩,
  ⟨s0, 63, Who.host 0, 0xE8, by decide +kernel⟩,
  ⟨s1, 63, _, rfl, by decide +kernel⟩,
  ⟨s2, 63, _, rfl, by decide +kernel⟩,
  ⟨s0, 63, _, rfl, by decide +kernel⟩,
  ⟨s0, 63, by decide +kernel⟩,
  ⟨st hostOn, 63, by decide +kernel⟩,
  ⟨s3, 63, k0, by decide +kernel, _, rfl, _, rfl, by decide +kernel⟩,
  ⟨s1, 63, k0, by decide +kernel, _, rfl, _, rfl, by decide +kernel⟩,
  ⟨s1, 63, k1, by decide +kernel, _, rfl, _, rfl, by decide +kernel⟩,
  ⟨s1, 63, k2, by decide +kernel, _, rfl, _, rfl, by decide +kernel⟩,
  ⟨s3, 63, k3, by decide +kernel, _, rfl, _, rfl, by decide +kernel⟩,
  ⟨s3, 63, k4, by decide +kernel, _, rfl, _, rfl, by decide +kernel⟩,
  ⟨s3, 63, k5, by decide +kernel, _, rfl, _, rfl, by decide +kernel⟩,
  ⟨st hostOn, 63, by decide +kernel⟩,
  ⟨s0, 63, by decide +kernel⟩,
  ⟨st hostOn, 63, by decide +kernel⟩,
  ⟨s1, 63, by decide +kernel⟩,
  ⟨s0, 63, by decide +kernel⟩,
  ⟨s0, 3, by decide +kernel⟩,
  ⟨s0, 3, by decide +kernel⟩,
  ⟨s3, 63, by decide +kernel⟩,
  ⟨s3, 63, by decide +kernel⟩,
  ⟨s0, 63, _, rfl, by decide +kernel⟩,
  ⟨s0, 63, _, rfl, by decide +kernel⟩,
  ⟨s0, 63, by decide +kernel⟩,
  ⟨s0, 0, by decide +kernel⟩,
  ⟨s0, 0, 0, by decide +kernel⟩,
  ⟨s0, 0, 7, by decide +kernel⟩⟩
end QueuePairs

namespace WindowsAndRings
def hostOn : List (RF × Nat) := [(R.CLKPWR_PDn_STATE 66, 2), (R.HWINw_SIZE_SIZE 63, 1)]
def rts : List (RF × Nat) := [(R.QPq_STAT_STATE 63, 1), (R.HOST_DB_RKEY_RKEY, 9)]
def s0 : State := st (hostOn ++ win0 ++ [(R.HWINw_CTL_EN 0, 0), (R.HWINw_CTL_EN 63, 1), (R.HWINw_SIZE_SIZE 63, 1), (R.HWINw_BASE_BASE 63, 1), (R.RINGi_ADDR_H_ADDR 0, 0x8000), (R.RINGi_ADDR_L_ADDR 0, 0x10)])
def s1 : State := { st (hostOn ++ win0 ++ [(R.RINGi_CTL_EN 0, 1), (R.RINGi_CTL_EN 0x5F, 1)]) with fetched := [⟨0, 0, 1⟩] }
def s2 : State := st (hostOn ++ win0)
def s3 : State := st (hostOn ++ rts)
def s4 : State := st (hostOn ++ rts ++ [(R.RINGi_CTL_EN 0, 1), (R.RINGi_CTL_LOG2SIZE 0, 4), (R.RINGi_EPOCH_EPOCH 0, 7), (R.RINGi_CTL_EN 0x20, 1), (R.RINGi_CTL_LOG2SIZE 0x20, 4), (R.RINGi_PI_INDEX 0x20, 9)])
/-- States and operands that meet the premises of each clause of WindowsAndRings. -/
theorem witness :
  (∃ (s : State) (w : Who) (d : Word) (x : Fin 64), s.gate w (A.HWINw_CTL x) d = true ∧ s.get (R.HWINw_CTL_EN x) = 0 ∧ wordGet d 0 1 = 1 ∧
      s.winFree x = true) ∧
  (∃ (s : State) (w : Who) (d : Word) (x : Fin 64), s.gate w (A.HWINw_CTL x) d = true ∧ s.get (R.HWINw_CTL_EN x) = 0 ∧ wordGet d 0 1 = 1 ∧
      s.winFree x = false) ∧
  (∃ (s : State) (w : Who) (d : Word) (x : Fin 64), s.gate w (A.HWINw_CTL x) d = true ∧ wordGet d 0 1 = 0) ∧
  (∃ (s : State) (w : Who) (d : Word) (i : Fin 256), s.gate w (A.RINGi_CTL i) d = true ∧ s.get (R.RINGi_CTL_EN i) = 0 ∧ wordGet d 0 1 = 1 ∧
      s.inWindow (s.ringBase i) (2 ^ wordGet (ringWord i d) 2 5 * entryBytes i) = true) ∧
  (∃ (s : State) (w : Who) (d : Word) (i : Fin 256), s.gate w (A.RINGi_CTL i) d = true ∧ s.get (R.RINGi_CTL_EN i) = 0 ∧ wordGet d 0 1 = 1 ∧
      s.inWindow (s.ringBase i) (2 ^ wordGet (ringWord i d) 2 5 * entryBytes i) = false) ∧
  (∃ (s : State) (w : Who) (d : Word) (i : Fin 256), s.gate w (A.RINGi_CTL i) d = true ∧ s.get (R.RINGi_CTL_EN i) = 1 ∧ wordGet d 0 1 = 0 ∧
      (i.val < 0x40 ∨ 0x43 < i.val)) ∧
  (∃ (s : State) (q : Fin 64) (k : _), k = dbTurn (s.get (R.QPq_CTL_PORT q)) false ∧ ∃ ts, ts = (2, 0, k) :: s.turns ∧ s.qpPaused q = false ∧
      ∃ ack, ack = s.outbox ++ [.roce q (s.roceHead q) .ack] ∧ ∃ nak, nak = s.outbox ++ [.roce q (s.roceHead q) (.nak 2)] ∧
      (s.rts q = false ∨ s.inTurn 2 0 k = false)) ∧
  (∃ (s : State) (q : Fin 64) (va : BitVec 64) (rkey : BitVec 32) (k : _), k = dbTurn (s.get (R.QPq_CTL_PORT q)) false ∧
      ∃ ts, ts = (2, 0, k) :: s.turns ∧ s.qpPaused q = false ∧ ∃ ack, ack = s.outbox ++ [.roce q (s.roceHead q) .ack] ∧
      ∃ nak, nak = s.outbox ++ [.roce q (s.roceHead q) (.nak 2)] ∧ s.inTurn 2 0 k = true ∧ s.rts q = true ∧
      (s.get R.HOST_DB_RKEY_RKEY = 0 ∨ rkey.toNat ≠ s.get R.HOST_DB_RKEY_RKEY ∨ 4096 ≤ va.toNat)) ∧
  (∃ (s : State) (q : Fin 64) (va : BitVec 64) (rkey : BitVec 32) (data : List Byte) (k : _), k = dbTurn (s.get (R.QPq_CTL_PORT q)) false ∧
      ∃ ts, ts = (2, 0, k) :: s.turns ∧ s.qpPaused q = false ∧ ∃ ack, ack = s.outbox ++ [.roce q (s.roceHead q) .ack] ∧
      ∃ nak, nak = s.outbox ++ [.roce q (s.roceHead q) (.nak 2)] ∧ s.inTurn 2 0 k = true ∧ s.rts q = true ∧ rkey.toNat = s.get R.HOST_DB_RKEY_RKEY ∧
      s.get R.HOST_DB_RKEY_RKEY ≠ 0 ∧ va.toNat < 4096 ∧ (va.toNat % 8 ≠ 0 ∨ data.length % 8 ≠ 0 ∨ data.length = 0 ∨ 4096 < va.toNat + data.length)) ∧
  (∃ (s : State) (q : Fin 64) (va : BitVec 64) (rkey : BitVec 32) (data : List Byte) (k : _), k = dbTurn (s.get (R.QPq_CTL_PORT q)) false ∧
      ∃ ts, ts = (2, 0, k) :: s.turns ∧ s.qpPaused q = false ∧ ∃ ack, ack = s.outbox ++ [.roce q (s.roceHead q) .ack] ∧
      ∃ nak, nak = s.outbox ++ [.roce q (s.roceHead q) (.nak 2)] ∧ (s.inTurn 2 0 k = true ∧ s.rts q = true ∧ rkey.toNat = s.get R.HOST_DB_RKEY_RKEY ∧
      s.get R.HOST_DB_RKEY_RKEY ≠ 0 ∧ va.toNat + data.length ≤ 4096 ∧ va.toNat % 8 = 0 ∧ data.length = 8) ∧ ∃ r, r = leNat (slice data 0 1) ∧
      ∃ x, x = leNat (slice data 1 3) ∧ ∃ e, e = leNat (slice data 4 4) ∧ r < 0x20 ∧ s.get (R.RINGi_CTL_EN r) = 1 ∧
      e = s.get (R.RINGi_EPOCH_EPOCH r) ∧ s.ringFill r < (x + 2 ^ 24 - s.get (R.RINGi_CI_INDEX r)) % 2 ^ 24 ∧
      (x + 2 ^ 24 - s.get (R.RINGi_CI_INDEX r)) % 2 ^ 24 ≤ s.ringSize r ∧ x ≠ s.get (R.RINGi_PI_INDEX r)) ∧
  (∃ (s : State) (q : Fin 64) (va : BitVec 64) (rkey : BitVec 32) (data : List Byte) (k : _), k = dbTurn (s.get (R.QPq_CTL_PORT q)) false ∧
      ∃ ts, ts = (2, 0, k) :: s.turns ∧ s.qpPaused q = false ∧ ∃ ack, ack = s.outbox ++ [.roce q (s.roceHead q) .ack] ∧
      ∃ nak, nak = s.outbox ++ [.roce q (s.roceHead q) (.nak 2)] ∧ (s.inTurn 2 0 k = true ∧ s.rts q = true ∧ rkey.toNat = s.get R.HOST_DB_RKEY_RKEY ∧
      s.get R.HOST_DB_RKEY_RKEY ≠ 0 ∧ va.toNat + data.length ≤ 4096 ∧ va.toNat % 8 = 0 ∧ data.length = 8) ∧ ∃ r, r = leNat (slice data 0 1) ∧
      ∃ x, x = leNat (slice data 1 3) ∧ ∃ e, e = leNat (slice data 4 4) ∧ 0x20 ≤ r ∧ ringListed r = true ∧ s.get (R.RINGi_CTL_EN r) = 1 ∧
      e = s.get (R.RINGi_EPOCH_EPOCH r) ∧ (x + 2 ^ 24 - s.get (R.RINGi_CI_INDEX r)) % 2 ^ 24 ≤ s.ringFill r) ∧
  (∃ (s : State) (q : Fin 64) (va : BitVec 64) (rkey : BitVec 32) (data : List Byte) (k : _), k = dbTurn (s.get (R.QPq_CTL_PORT q)) false ∧
      ∃ ts, ts = (2, 0, k) :: s.turns ∧ s.qpPaused q = false ∧ ∃ ack, ack = s.outbox ++ [.roce q (s.roceHead q) .ack] ∧
      ∃ nak, nak = s.outbox ++ [.roce q (s.roceHead q) (.nak 2)] ∧ (s.inTurn 2 0 k = true ∧ s.rts q = true ∧ rkey.toNat = s.get R.HOST_DB_RKEY_RKEY ∧
      s.get R.HOST_DB_RKEY_RKEY ≠ 0 ∧ va.toNat + data.length ≤ 4096 ∧ va.toNat % 8 = 0 ∧ data.length = 8) ∧ ∃ r, r = leNat (slice data 0 1) ∧
      ∃ x, x = leNat (slice data 1 3) ∧ ∃ e, e = leNat (slice data 4 4) ∧ ringListed r = true ∧
      (s.get (R.RINGi_CTL_EN r) = 0 ∨ e ≠ s.get (R.RINGi_EPOCH_EPOCH r))) ∧
  (∃ (s : State) (q : Fin 64) (va : BitVec 64) (rkey : BitVec 32) (data : List Byte) (k : _), k = dbTurn (s.get (R.QPq_CTL_PORT q)) false ∧
      ∃ ts, ts = (2, 0, k) :: s.turns ∧ s.qpPaused q = false ∧ ∃ ack, ack = s.outbox ++ [.roce q (s.roceHead q) .ack] ∧
      ∃ nak, nak = s.outbox ++ [.roce q (s.roceHead q) (.nak 2)] ∧ (s.inTurn 2 0 k = true ∧ s.rts q = true ∧ rkey.toNat = s.get R.HOST_DB_RKEY_RKEY ∧
      s.get R.HOST_DB_RKEY_RKEY ≠ 0 ∧ va.toNat + data.length ≤ 4096 ∧ va.toNat % 8 = 0 ∧ data.length = 8) ∧ ∃ r, r = leNat (slice data 0 1) ∧
      ∃ x, x = leNat (slice data 1 3) ∧ ∃ e, e = leNat (slice data 4 4) ∧ ringListed r = false ∧ (r < 0xE0 ∨ 0xE3 < r)) :=
  ⟨⟨st hostOn, Who.host 0, 1, 63, by decide +kernel⟩,
  ⟨st hostOn, Who.host 0, 1, 0, by decide +kernel⟩,
  ⟨st hostOn, Who.host 0, 0, 0, by decide +kernel⟩,
  ⟨s0, Who.host 0, 0x19, 0, by decide +kernel⟩,
  ⟨st hostOn, Who.host 0, 0x19, 0, by decide +kernel⟩,
  ⟨s1, Who.host 0, 0x18, 0, by decide +kernel⟩,
  ⟨st hostOn, 0, _, rfl, _, rfl, by decide +kernel, _, rfl, _, rfl, by decide +kernel⟩,
  ⟨s2, 0, 4, 0, _, rfl, _, rfl, by decide +kernel, _, rfl, _, rfl, by decide +kernel⟩,
  ⟨s3, 63, 4, 9, [0, 5, 0, 0, 7, 0, 0, 0], _, rfl, _, rfl, by decide +kernel, _, rfl, _, rfl, by decide +kernel⟩,
  ⟨s4, 63, 8, 9, [0, 5, 0, 0, 7, 0, 0, 0], _, rfl, _, rfl, by decide +kernel, _, rfl, _, rfl, by decide +kernel, _, rfl, _, rfl, _, rfl, by decide +kernel⟩,
  ⟨s4, 63, 8, 9, [0x20, 5, 0, 0, 0, 0, 0, 0], _, rfl, _, rfl, by decide +kernel, _, rfl, _, rfl, by decide +kernel, _, rfl, _, rfl, _, rfl, by decide +kernel⟩,
  ⟨s3, 63, 8, 9, [0, 5, 0, 0, 7, 0, 0, 0], _, rfl, _, rfl, by decide +kernel, _, rfl, _, rfl, by decide +kernel, _, rfl, _, rfl, _, rfl, by decide +kernel⟩,
  ⟨s3, 63, 8, 9, [0x77, 5, 0, 0, 0, 0, 0, 0], _, rfl, _, rfl, by decide +kernel, _, rfl, _, rfl, by decide +kernel, _, rfl, _, rfl, _, rfl, by decide +kernel⟩⟩
end WindowsAndRings

namespace RingTraffic
def live : List (RF × Nat) := win0 ++ [(R.RINGi_CTL_EN 0, 1), (R.RINGi_CTL_LOG2SIZE 0, 4), (R.RINGi_PI_INDEX 0, 5), (R.RINGi_CTL_EN 0x20, 1), (R.RINGi_CTL_LOG2SIZE 0x20, 4), (R.DEV_HEALTH_DSTATE, 2), (R.QPq_STAT_STATE 0, 1)]
def b : Nat := 0x800000000000
def s0 : State := { st live with rings := [(0, {base := b, shad := b}), (0x20, {base := b, shad := b})] }
def s1 : State := { st (live ++ (List.range 16).map (fun i => (R.RINGi_CTL_CQ (i+1), 1))) with rings := [(0, {base := b, shad := b})] ++ (List.range 16).map (fun i => (i + 1, {base := b, shad := b, asked := 1})) ++ [(0x20, {base := b, shad := b})] }
def s2 : State := { st live with rings := [(0, {base := 5, shad := b}), (0x20, {base := 7, shad := b, unack := [.compl 0 0 0 0 0 0]})] }
def s3 : State := { st live with rings := [(0, {base := b, shad := b, asked := 2}), (0x20, {base := b, shad := b, unack := [.compl 0 0 0 0 0 0]})] }
/-- States and operands that meet the premises of each clause of RingTraffic. -/
theorem witness :
  (∃ (s : State) (i : Fin 32) (n : _),
      n = min (min (s.ringFill i) 64) (min (s.complRoom (s.get (R.RINGi_CTL_CQ i))) (s.ringSize i - s.get (R.RINGi_CI_INDEX i) % s.ringSize i)) ∧
      (s.ringLive i = true ∧ s.fetching = true ∧ (s.ring i).asked = 0 ∧ n ≠ 0) ∧
      ∃ at_, at_ = (s.ring i).base + s.get (R.RINGi_CI_INDEX i) % s.ringSize i * entryBytes i ∧ ∃ len, len = n * entryBytes i ∧
      ∃ q, s.ringReach i = some q ∧ (s.qpReads q < 16 ∧ ∃ w, s.window1 at_ len = some w ∧ (∃ p, p = s.get (R.HWINw_CTL_QP w) ∧
      s.qpPaused p = false))) ∧
  (∃ (s : State) (i : Fin 32) (n : _),
      n = min (min (s.ringFill i) 64) (min (s.complRoom (s.get (R.RINGi_CTL_CQ i))) (s.ringSize i - s.get (R.RINGi_CI_INDEX i) % s.ringSize i)) ∧
      (s.ringLive i = true ∧ s.fetching = true ∧ (s.ring i).asked = 0 ∧ n ≠ 0) ∧
      ∃ at_, at_ = (s.ring i).base + s.get (R.RINGi_CI_INDEX i) % s.ringSize i * entryBytes i ∧ ∃ len, len = n * entryBytes i ∧
      ∃ q, s.ringReach i = some q ∧ (16 ≤ s.qpReads q)) ∧
  (∃ (s : State) (i : Fin 32) (n : _),
      n = min (min (s.ringFill i) 64) (min (s.complRoom (s.get (R.RINGi_CTL_CQ i))) (s.ringSize i - s.get (R.RINGi_CI_INDEX i) % s.ringSize i)) ∧
      (s.ringLive i = true ∧ s.fetching = true ∧ (s.ring i).asked = 0 ∧ n ≠ 0) ∧
      ∃ at_, at_ = (s.ring i).base + s.get (R.RINGi_CI_INDEX i) % s.ringSize i * entryBytes i ∧ ∃ len, len = n * entryBytes i ∧
      s.ringReach i = none) ∧
  (∃ (s : State) (i : Fin 32), (s.ringLive i = false ∨ s.fetching = false ∨ (s.ring i).asked ≠ 0)) ∧
  (∃ (s : State) (i : Fin 32) (l : List Desc), ((s.ring i).asked ≠ 0 ∧ l.length = (s.ring i).asked ∧ (s.reachQp (s.ring i).shad 4).isSome = true) ∧
      ∃ w, s.window1 (s.ring i).shad 4 = some w ∧ (∃ p, p = s.get (R.HWINw_CTL_QP w) ∧ s.qpPaused p = false)) ∧
  (∃ (s : State) (i : Fin 32), (s.ring i).asked ≠ 0) ∧
  (∃ (s : State) (i : Fin 32), (s.ring i).asked = 0) ∧
  (∃ (s : State) (i : Fin 256) (n : _), (n ≠ 0 ∧ n ≤ 64 ∧ n ≤ (s.ring i).unack.length) ∧
      ∃ first, first = (s.get (R.RINGi_PI_INDEX i) + 2 ^ 24 - (s.ring i).unack.length) % 2 ^ 24 ∧ first % s.ringSize i + n ≤ s.ringSize i ∧
      ∃ q, s.ringReach i = some q ∧ ((s.reachQp (s.ring i).shad 4).isSome = true ∧ ∃ bs, bs = ((s.ring i).unack.take n).flatMap RingEntry.bytes ∧
      ∃ at_, at_ = (s.ring i).base + first % s.ringSize i * entryBytes i ∧ ∃ w, s.window1 at_ bs.length = some w ∧
      (∃ v, s.window1 (s.ring i).shad 4 = some v ∧ (∃ p, p = s.get (R.HWINw_CTL_QP w) ∧ ∃ x, x = s.get (R.HWINw_CTL_QP v) ∧ s.qpPaused p = false ∧
      s.qpPaused x = false)))) ∧
  (∃ (s : State) (i : Fin 256) (n : _), (n ≠ 0 ∧ n ≤ 64 ∧ n ≤ (s.ring i).unack.length) ∧
      ∃ first, first = (s.get (R.RINGi_PI_INDEX i) + 2 ^ 24 - (s.ring i).unack.length) % 2 ^ 24 ∧ first % s.ringSize i + n ≤ s.ringSize i ∧
      ∃ q, s.ringReach i = some q) ∧
  (∃ (s : State) (i : Fin 256) (n : _), (n ≠ 0 ∧ n ≤ 64 ∧ n ≤ (s.ring i).unack.length) ∧
      ∃ first, first = (s.get (R.RINGi_PI_INDEX i) + 2 ^ 24 - (s.ring i).unack.length) % 2 ^ 24 ∧ first % s.ringSize i + n ≤ s.ringSize i ∧
      s.ringReach i = none) ∧
  (∃ (s : State) (i : Fin 256) (n : _), (n = 0 ∨ 64 < n ∨ (s.ring i).unack.length < n)) :=
  ⟨⟨s0, 0, _, rfl, by decide +kernel, _, rfl, _, rfl, someW (by decide +kernel) ⟨by decide +kernel, someW (by decide +kernel) ⟨_, rfl, by decide +kernel⟩⟩⟩,
  ⟨s1, 0, _, rfl, by decide +kernel, _, rfl, _, rfl, someW (by decide +kernel) (by decide +kernel)⟩,
  ⟨s2, 0, _, rfl, by decide +kernel, _, rfl, _, rfl, by decide +kernel⟩,
  ⟨s3, 0, by decide +kernel⟩,
  ⟨s3, 0, [1, 2], by decide +kernel, someW (by decide +kernel) ⟨_, rfl, by decide +kernel⟩⟩,
  ⟨s3, 0, by decide +kernel⟩,
  ⟨s1, 0, by decide +kernel⟩,
  ⟨s3, 0x20, 1, by decide +kernel, _, rfl, by decide +kernel, someW (by decide +kernel) ⟨by decide +kernel, _, rfl, _, rfl, someW (by decide +kernel) (someW (by decide +kernel) ⟨_, rfl, _, rfl, by decide +kernel⟩)⟩⟩,
  ⟨s3, 0x20, 1, by decide +kernel, _, rfl, by decide +kernel, someE (by decide +kernel)⟩,
  ⟨s2, 0x20, 1, by decide +kernel, _, rfl, by decide +kernel⟩,
  ⟨s1, 0x20, 0, by decide +kernel⟩⟩
end RingTraffic

namespace Subscribers
def can : StreamS := {p := {typ := 3, w := 1024, h := 1024, regs := [{x := 0, y := 0, w := 16, h := 16}]}, outPic := 5}
def on5 : List (RF × Nat) := ring0 ++ gen0 ++ [(R.STRMn_STATE_STATE 5, 2)]
def sb : SubS := {canvas := 5, svc := 0, ids := [0], ip := 0, udp := 0, pt := 0, ssrc := 0, subbr := 0}
def ow0 : Owed := {wait := .ucode, ring := 0, cq := 0, opc := 0x12, tag := 7, kind := 2, idx := 4095}
def ow : Owed := {ow0 with wait := .svc (4 * 4095 + 2) [63, 255, 3, 1, 5, 6]}
def ow2 : Owed := {ow0 with tag := 9, wait := .svc (4 * 4095 + 2) [4, 5, 2, 0, 7, 8]}
def s0 : State := { strm 5 can (st (on5 ++ [(R.EGR_SUBs_STATE_STATE 4095, 2)])) with subs := [(4095, some sb)] }
def c0 : Cmd := mk 0x10 0 2 4095 [(16, 5), (17, 1), (20, 0)]
def s1 : State := strm 5 can (st on5)
def c1 : Cmd := mk 0x10 0 2 4095 [(16, 5), (17, 1), (20, 9)]
def c2 : Cmd := mk 0x11 0 2 4095
def s2 : State := st (on5 ++ [(R.LANEl_QMODE_QMODE 60, 1), (R.LANEl_QMODE_QMODE 62, 1)])
def c3 : Cmd := mk 0x12 0 2 4095 [(16, 2), (17, 63), (18, 255), (19, 3), (20, 5), (24, 6), (28, 1)]
def c4 : Cmd := mk 0x12 0 2 4095 [(16, 2), (17, 64), (18, 255), (19, 3), (20, 5), (24, 6), (28, 1)]
def s3 : State := { st on5 with owed := [ow, ow2], prev := 0, now := 3000 * unitsPerNs }
def s4 : State := { strm 5 can (st (on5 ++ [(R.EGR_SUBs_STATE_STATE 4095, 3)])) with subs := [(4095, some {sb with last := some 2})] }
/-- States and operands that meet the premises of each clause of Subscribers. -/
theorem witness :
  (∃ (s : State) (c : Cmd) (i : Nat), i = dIdx c.desc ∧ dSub c.desc = 0 ∧ s.accepts c 0x10 2 none ∧ (dClean c.desc (subFields c.desc) = true ∧
      1 ≤ dget c.desc 17 0 8 ∧ dget c.desc 17 0 8 ≤ 16) ∧ ∃ n, n = dget c.desc 16 0 7 ∧ s.get (R.EGR_SUBs_STATE_STATE i) ≠ 0) ∧
  (∃ (s : State) (c : Cmd) (i : Nat), i = dIdx c.desc ∧ dSub c.desc = 0 ∧ s.accepts c 0x10 2 none ∧ (dClean c.desc (subFields c.desc) = true ∧
      1 ≤ dget c.desc 17 0 8 ∧ dget c.desc 17 0 8 ≤ 16) ∧ ∃ n, n = dget c.desc 16 0 7 ∧ s.get (R.EGR_SUBs_STATE_STATE i) = 0 ∧
      s.get (R.EGR_SUBs_STATE_PEND i) = 0 ∧ s.get (R.STRMn_STATE_STATE n) ≠ 0 ∧ (s.strm n).p.typ ≠ 3) ∧
  (∃ (s : State) (c : Cmd) (i : Nat), i = dIdx c.desc ∧ dSub c.desc = 0 ∧ s.accepts c 0x10 2 none ∧ (dClean c.desc (subFields c.desc) = true ∧
      1 ≤ dget c.desc 17 0 8 ∧ dget c.desc 17 0 8 ≤ 16) ∧ ∃ n, n = dget c.desc 16 0 7 ∧ s.get (R.EGR_SUBs_STATE_STATE i) = 0 ∧
      s.get (R.EGR_SUBs_STATE_PEND i) = 0 ∧ s.get (R.STRMn_STATE_STATE n) = 0) ∧
  (∃ (s : State) (c : Cmd) (i : Nat), i = dIdx c.desc ∧ dSub c.desc = 0 ∧ s.accepts c 0x10 2 none ∧ (dClean c.desc (subFields c.desc) = true ∧
      1 ≤ dget c.desc 17 0 8 ∧ dget c.desc 17 0 8 ≤ 16) ∧ ∃ n, n = dget c.desc 16 0 7 ∧ s.get (R.EGR_SUBs_STATE_STATE i) = 0 ∧
      s.get (R.EGR_SUBs_STATE_PEND i) = 0 ∧ (s.get (R.STRMn_STATE_STATE n) = 1 ∨ s.get (R.STRMn_STATE_STATE n) = 2) ∧ (s.strm n).p.typ = 3 ∧
      (s.strm n).p.subsOk (subIds c.desc) = false) ∧
  (∃ (s : State) (c : Cmd) (i : Nat), i = dIdx c.desc ∧ dSub c.desc = 0 ∧ s.accepts c 0x10 2 none ∧ (dClean c.desc (subFields c.desc) = true ∧
      1 ≤ dget c.desc 17 0 8 ∧ dget c.desc 17 0 8 ≤ 16) ∧ ∃ n, n = dget c.desc 16 0 7 ∧ s.get (R.EGR_SUBs_STATE_STATE i) = 0 ∧
      s.get (R.EGR_SUBs_STATE_PEND i) = 0 ∧ (s.get (R.STRMn_STATE_STATE n) = 1 ∨ s.get (R.STRMn_STATE_STATE n) = 2) ∧ (s.strm n).p.typ = 3 ∧
      (s.strm n).p.subsOk (subIds c.desc) = true) ∧
  (∃ (s : State) (c : Cmd) (i : Nat), i = dIdx c.desc ∧ dSub c.desc = 0 ∧ ∃ b, s.accepts c 0x11 2 none ∧ (dClean c.desc [] = true ∧
      s.get (R.EGR_SUBs_STATE_STATE i) = 2 ∧ s.sub i = some b)) ∧
  (∃ (s : State) (c : Cmd) (i : Nat), i = dIdx c.desc ∧ dSub c.desc = 0 ∧ s.accepts c 0x12 2 none ∧
      dClean c.desc [(16, 0, 2), (17, 0, 8), (18, 0, 8), (19, 0, 3), (20, 0, 32), (24, 0, 32), (28, 0, 1)] = true ∧ ∃ v, v = dget c.desc 16 0 2 ∧
      ∃ pa, pa = dget c.desc 17 0 8 ∧ ∃ pb, pb = dget c.desc 18 0 8 ∧ ∃ rate, rate = dget c.desc 20 0 32 ∧ ∃ burst, burst = dget c.desc 24 0 32 ∧
      ∃ en, en = dget c.desc 28 0 1 ∧ ((pa ≤ 63 ∧ s.portExists pa = false) ∨ (pb ≤ 63 ∧ s.portExists pb = false))) ∧
  (∃ (s : State) (c : Cmd) (i : Nat), i = dIdx c.desc ∧ dSub c.desc = 0 ∧ s.accepts c 0x12 2 none ∧
      dClean c.desc [(16, 0, 2), (17, 0, 8), (18, 0, 8), (19, 0, 3), (20, 0, 32), (24, 0, 32), (28, 0, 1)] = true ∧ ∃ v, v = dget c.desc 16 0 2 ∧
      ∃ pa, pa = dget c.desc 17 0 8 ∧ ∃ pb, pb = dget c.desc 18 0 8 ∧ ∃ rate, rate = dget c.desc 20 0 32 ∧ ∃ burst, burst = dget c.desc 24 0 32 ∧
      ∃ en, en = dget c.desc 28 0 1 ∧ (pa ≤ 63 → s.portExists pa = true) ∧ (pb ≤ 63 → s.portExists pb = true) ∧ (63 < pa ∨ (63 < pb ∧
      pb ≠ 255) ∨ (en = 1 ∧ (rate = 0 ∨ burst = 0)))) ∧
  (∃ (s : State) (c : Cmd) (i : Nat), i = dIdx c.desc ∧ dSub c.desc = 0 ∧ s.accepts c 0x12 2 none ∧
      dClean c.desc [(16, 0, 2), (17, 0, 8), (18, 0, 8), (19, 0, 3), (20, 0, 32), (24, 0, 32), (28, 0, 1)] = true ∧ ∃ v, v = dget c.desc 16 0 2 ∧
      ∃ pa, pa = dget c.desc 17 0 8 ∧ ∃ pb, pb = dget c.desc 18 0 8 ∧ ∃ rate, rate = dget c.desc 20 0 32 ∧ ∃ burst, burst = dget c.desc 24 0 32 ∧
      ∃ en, en = dget c.desc 28 0 1 ∧ (pa ≤ 63 → s.portExists pa = true) ∧ (pb ≤ 63 → s.portExists pb = true) ∧ pa ≤ 63 ∧ (pb ≤ 63 ∨ pb = 255) ∧
      (en = 1 → rate ≠ 0 ∧ burst ≠ 0)) ∧
  (∃ (s : State) (c : Cmd) (i : Nat), i = dIdx c.desc ∧ dSub c.desc = 0 ∧
      ∃ (l : List Owed) (r : List Owed) (o : Owed) (v : Fin 4) (pa : Fin 256) (pb : Fin 256) (cl : Fin 8) (en : Fin 2) (rate : Word) (burst : Word),
      (r.all (fun x => match x.wait with | .svc q _ => q != 4 * i + v.val | _ => true) = true) ∧ i < 4096 ∧
      s.owed = l ++ { o with wait := .svc (4 * i + v.val) [pa.val, pb.val, cl.val, en.val, rate.toNat, burst.toNat] } :: r ∧ s.crossed 2000 = true ∧
      300 ∉ s.fired) ∧
  (∃ (s : State) (c : Cmd) (i : Nat), i = dIdx c.desc ∧ dSub c.desc = 0 ∧ ∃ (j : Fin 4096) (b : _), s.sub j = some b ∧
      (s.get (R.EGR_SUBs_STATE_STATE j) = 3 ∧ s.get (R.EGR_SUBs_STATE_PEND j) = 0 ∧ s.subDrained j b = true)) ∧
  (∃ (s : State) (c : Cmd) (i : Nat), i = dIdx c.desc ∧ dSub c.desc = 0 ∧
      ∃ (j : Fin 4096), (s.get (R.EGR_SUBs_STATE_STATE j) ≠ 3 ∨ s.sub j = none)) :=
  ⟨⟨s0, c0, _, rfl, by decide +kernel, acc (by decide +kernel), by decide +kernel, _, rfl, by decide +kernel⟩,
  ⟨st on5, c0, _, rfl, by decide +kernel, acc (by decide +kernel), by decide +kernel, _, rfl, by decide +kernel⟩,
  ⟨st ring0, c0, _, rfl, by decide +kernel, acc (by decide +kernel), by decide +kernel, _, rfl, by decide +kernel⟩,
  ⟨s1, c1, _, rfl, by decide +kernel, acc (by decide +kernel), by decide +kernel, _, rfl, by decide +kernel⟩,
  ⟨s1, c0, _, rfl, by decide +kernel, acc (by decide +kernel), by decide +kernel, _, rfl, by decide +kernel⟩,
  ⟨s0, c2, _, rfl, by decide +kernel, sb, acc (by decide +kernel), by decide +kernel⟩,
  ⟨s2, c3, _, rfl, by decide +kernel, acc (by decide +kernel), by decide +kernel, _, rfl, _, rfl, _, rfl, _, rfl, _, rfl, _, rfl, by decide +kernel⟩,
  ⟨st on5, c4, _, rfl, by decide +kernel, acc (by decide +kernel), by decide +kernel, _, rfl, _, rfl, _, rfl, _, rfl, _, rfl, _, rfl, by decide +kernel⟩,
  ⟨st on5, c3, _, rfl, by decide +kernel, acc (by decide +kernel), by decide +kernel, _, rfl, _, rfl, _, rfl, _, rfl, _, rfl, _, rfl, by decide +kernel⟩,
  ⟨s3, c0, _, rfl, by decide +kernel, [ow], [], {ow0 with tag := 9}, 2, 4, 5, 2, 0, 7, 8, by decide +kernel⟩,
  ⟨s4, c0, _, rfl, by decide +kernel, 4095, someW (by decide +kernel) (by decide +kernel)⟩,
  ⟨st on5, c0, _, rfl, by decide +kernel, 4095, by decide +kernel⟩⟩
end Subscribers

namespace HoistControl
def ch (l : List (RF × Nat)) : List (RF × Nat) := [(R.CLKPWR_PDn_STATE 67, 2), (R.CLKPWR_PDn_STATE 69, 2), (R.CLKPWR_PDn_STATE 70, 2)] ++ win0 ++ ring0 ++ l
def s0 : State := { st (ch [(R.HOISTh_CHc_STATE_STATE 2 63, 1), (R.HOISTh_CHc_STATE_STATE 3 63, 1)]) with hchs := [(191, {todo := some ({at_ := 5, len := 7}, {at_ := 6, len := 7}), cmd := true})] }
def s1 : State := { st (ch [(R.HOISTh_CHc_STATE_STATE 2 63, 2), (R.HOISTh_STAT_STOPPED 2, 1)]) with hchs := [(190, {cmd := true}), (191, {todo := some ({at_ := 5, len := 7}, {at_ := 6, len := 7}), cmd := true})] }
def s2 : State := st (ch [(R.HOISTh_CHc_STATE_STATE 2 63, 3), (R.HOISTh_CHc_STAT_RUN 2 63, 1)])
def s3 : State := st (ch [(R.HOISTh_CHc_STATE_STATE 2 63, 2), (R.HOISTh_CHc_LIST_L_ADDR 2 63, 77)])
def c0 : Cmd := mk 0x20 0 0 0 [(16, 7), (24, 0x800000000100), (32, 4096), (36, 1)]
def c1 : Cmd := mk 0x20 0 0 0 [(16, 0x1000000000000), (24, 0x800000000100), (32, 64)]
def c2 : Cmd := mk 0x20 0 0 0 [(16, 7), (24, 0x1000000000000), (32, 64)]
def s4 : State := { st (ch [(R.HOISTh_CHc_STATE_STATE 2 63, 2), (R.SLOTs_MARK_HOST_HOLD 7, 1)]) with slotC := [(7, {w := 8, h := 4})] }
def c3 : Cmd := mk 0x20 0 0 0 [(16, 0x800000000000), (24, 0x800000000100), (32, 64)]
def c4 : Cmd := mk 0x21 0 0 0 [(16, 0x800000000000), (24, 0x1000000000000), (32, 64)]
def c5 : Cmd := mk 0x21 0 0 0 [(16, 0x800000000000), (24, 0x800000000100), (32, 64)]
/-- States and operands that meet the premises of each clause of HoistControl. -/
theorem witness :
  (∃ (s : State) (w : Who) (h : Fin 4) (c : Fin 64) (d : Word) (g : Nat), g = 64 * h.val + c.val ∧ s.gate w (A.HOISTh_CHc_STATE h c) d = true ∧
      wordGet d 4 2 = 1) ∧
  (∃ (s : State) (w : Who) (h : Fin 4) (c : Fin 64) (d : Word) (g : Nat), g = 64 * h.val + c.val ∧ s.gate w (A.HOISTh_CHc_STATE h c) d = true ∧
      wordGet d 4 2 = 2) ∧
  (∃ (s : State) (h : Fin 4) (c : Fin 64) (g : Nat), g = 64 * h.val + c.val ∧ s.get (R.HOISTh_CHc_STATE_STATE h c) = 1 ∧
      s.get (R.HOISTh_CHc_STATE_PEND h c) ≠ 2 ∧ (s.hch g).todo = none) ∧
  (∃ (s : State) (h : Fin 4) (c : Fin 64) (g : Nat), g = 64 * h.val + c.val ∧ ∃ e, (s.hch g).todo = some e ∧
      (s.get (R.HOISTh_CHc_STATE_STATE h c) = 1 ∧ s.get (R.HOISTh_CHc_STATE_PEND h c) ≠ 2 ∧ s.hRun g = false ∧ s.hStopped h = false)) ∧
  (∃ (s : State) (h : Fin 4) (c : Fin 64) (g : Nat), g = 64 * h.val + c.val ∧ s.get (R.HOISTh_CHc_STATE_STATE h c) ≠ 1) ∧
  (∃ (s : State) (h : Fin 4) (c : Fin 64) (g : Nat), g = 64 * h.val + c.val ∧ s.get (R.HOISTh_CHc_STATE_STATE h c) = 3 ∧
      s.get (R.HOISTh_CHc_STATE_PEND h c) = 0 ∧ (s.hch g).burst = none) ∧
  (∃ (s : State) (h : Fin 4) (c : Fin 64) (g : Nat), g = 64 * h.val + c.val ∧
      (s.get (R.HOISTh_CHc_STATE_STATE h c) ≠ 3 ∨ (s.hch g).burst.isSome = true)) ∧
  (∃ (s : State) (w : Who) (h : Fin 4) (c : Fin 64) (d : Word) (g : Nat), g = 64 * h.val + c.val ∧ s.gate w (A.HOISTh_CHc_CTL h c) d = true ∧
      wordGet d 0 1 = 1 ∧ s.hReady g = true) ∧
  (∃ (s : State) (w : Who) (h : Fin 4) (c : Fin 64) (d : Word) (g : Nat), g = 64 * h.val + c.val ∧ s.gate w (A.HOISTh_CHc_CTL h c) d = true ∧
      wordGet d 0 1 = 1 ∧ s.hReady g = false) ∧
  (∃ (s : State) (w : Who) (h : Fin 4) (c : Fin 64) (d : Word) (g : Nat), g = 64 * h.val + c.val ∧ s.gate w (A.HOISTh_CTL h) d = true ∧
      wordGet d 0 1 = 1) ∧
  (∃ (s : State) (h : Fin 4) (c : Fin 64) (g : Nat), g = 64 * h.val + c.val ∧ s.get (R.HOISTh_STAT_STOPPED h) = 1 ∧
      (h.val ≠ 3 ∨ s.expert 8 = false)) ∧
  (∃ (s : State) (h : Fin 4) (c : Fin 64) (g : Nat), g = 64 * h.val + c.val ∧ s.get (R.HOISTh_STAT_STOPPED h) = 0) ∧
  (∃ (s : State) (c : Cmd) (g : Fin 192) (src : _), src = dget c.desc 16 0 64 ∧ ∃ dst, dst = dget c.desc 24 0 64 ∧ ∃ len, len = dget c.desc 32 0 32 ∧
      dSub c.desc = 0 ∧ len ≠ 0 ∧ s.cmdChan g = false) ∧
  (∃ (s : State) (c : Cmd) (g : Fin 192) (src : _), src = dget c.desc 16 0 64 ∧ ∃ dst, dst = dget c.desc 24 0 64 ∧ ∃ len, len = dget c.desc 32 0 32 ∧
      dSub c.desc = 0 ∧ len ≠ 0 ∧ s.cmdChan g = false) ∧
  (∃ (s : State) (c : Cmd) (g : Fin 192) (src : _), src = dget c.desc 16 0 64 ∧ ∃ dst, dst = dget c.desc 24 0 64 ∧ ∃ len, len = dget c.desc 32 0 32 ∧
      (dSub c.desc = 0 ∧ len ≠ 0 ∧ s.cmdChan g = true) ∧ s.accepts c 0x20 0 none ∧
      (dClean c.desc [(16, 0, 64), (24, 0, 64), (32, 0, 32), (36, 0, 1)] = true ∧ dget c.desc 36 0 1 = 0 ∧ 2 ^ 48 ≤ src)) ∧
  (∃ (s : State) (c : Cmd) (g : Fin 192) (src : _), src = dget c.desc 16 0 64 ∧ ∃ dst, dst = dget c.desc 24 0 64 ∧ ∃ len, len = dget c.desc 32 0 32 ∧
      (dSub c.desc = 0 ∧ len ≠ 0 ∧ s.cmdChan g = true) ∧ s.accepts c 0x20 0 none ∧
      (dClean c.desc [(16, 0, 64), (24, 0, 64), (32, 0, 32), (36, 0, 1)] = true ∧ 2 ^ 48 ≤ dst ∧ src < 4096)) ∧
  (∃ (s : State) (c : Cmd) (g : Fin 192) (src : _), src = dget c.desc 16 0 64 ∧ ∃ dst, dst = dget c.desc 24 0 64 ∧ ∃ len, len = dget c.desc 32 0 32 ∧
      (dSub c.desc = 0 ∧ len ≠ 0 ∧ s.cmdChan g = true) ∧ s.accepts c 0x20 0 none ∧
      (dClean c.desc [(16, 0, 64), (24, 0, 64), (32, 0, 32), (36, 0, 1)] = true ∧ dget c.desc 36 0 1 = 1 ∧ src < 4096 ∧ s.slotHeld src = true ∧
      dst < 2 ^ 48 ∧ (s.takeFetched c).inWindows 64 dst len = true ∧ s.slotBytes src < len)) ∧
  (∃ (s : State) (c : Cmd) (g : Fin 192) (src : _), src = dget c.desc 16 0 64 ∧ ∃ dst, dst = dget c.desc 24 0 64 ∧ ∃ len, len = dget c.desc 32 0 32 ∧
      (dSub c.desc = 0 ∧ len ≠ 0 ∧ s.cmdChan g = true) ∧ s.accepts c 0x20 0 none ∧
      (dClean c.desc [(16, 0, 64), (24, 0, 64), (32, 0, 32), (36, 0, 1)] = true ∧ dget c.desc 36 0 1 = 0 ∧ src < 2 ^ 48 ∧
      (s.takeFetched c).inWindows 64 src len = true ∧ dst < 2 ^ 48 ∧ (s.takeFetched c).inWindows 64 dst len = true ∧ s.hReady g = true)) ∧
  (∃ (s : State) (c : Cmd) (g : Fin 192) (src : _), src = dget c.desc 16 0 64 ∧ ∃ dst, dst = dget c.desc 24 0 64 ∧ ∃ len, len = dget c.desc 32 0 32 ∧
      (dSub c.desc = 0 ∧ len ≠ 0 ∧ s.cmdChan g = true) ∧ s.accepts c 0x21 0 none ∧ (dClean c.desc [(16, 0, 64), (24, 0, 64), (32, 0, 32)] = true ∧
      len % 8 = 0 ∧ 2 ^ 48 ≤ dst)) ∧
  (∃ (s : State) (c : Cmd) (g : Fin 192) (src : _), src = dget c.desc 16 0 64 ∧ ∃ dst, dst = dget c.desc 24 0 64 ∧ ∃ len, len = dget c.desc 32 0 32 ∧
      (dSub c.desc = 0 ∧ len ≠ 0 ∧ s.cmdChan g = true) ∧ s.accepts c 0x21 0 none ∧ (dClean c.desc [(16, 0, 64), (24, 0, 64), (32, 0, 32)] = true ∧
      len % 8 = 0 ∧ dst < 2 ^ 48 ∧ (s.takeFetched c).inWindows 64 dst len = true ∧ s.hReady g = true)) :=
  ⟨⟨s0, Who.cox 0, 2, 63, 16, _, rfl, by decide +kernel⟩,
  ⟨s0, Who.cox 0, 2, 63, 32, _, rfl, by decide +kernel⟩,
  ⟨s0, 3, 63, _, rfl, by decide +kernel⟩,
  ⟨s0, 2, 63, _, rfl, someW (by decide +kernel) (by decide +kernel)⟩,
  ⟨s1, 2, 63, _, rfl, by decide +kernel⟩,
  ⟨s2, 2, 63, _, rfl, by decide +kernel⟩,
  ⟨s0, 2, 63, _, rfl, by decide +kernel⟩,
  ⟨s3, Who.cox 0, 2, 63, 1, _, rfl, by decide +kernel⟩,
  ⟨s0, Who.cox 0, 2, 63, 1, _, rfl, by decide +kernel⟩,
  ⟨s0, Who.cox 0, 2, 63, 0x201, _, rfl, by decide +kernel⟩,
  ⟨s1, 2, 63, _, rfl, by decide +kernel⟩,
  ⟨s0, 2, 63, _, rfl, by decide +kernel⟩,
  ⟨s0, c0, 191, _, rfl, _, rfl, _, rfl, by decide +kernel⟩,
  ⟨s0, c0, 191, _, rfl, _, rfl, _, rfl, by decide +kernel⟩,
  ⟨st (ch []), c1, 191, _, rfl, _, rfl, _, rfl, by decide +kernel, acc (by decide +kernel), by decide +kernel⟩,
  ⟨st (ch []), c2, 191, _, rfl, _, rfl, _, rfl, by decide +kernel, acc (by decide +kernel), by decide +kernel⟩,
  ⟨s4, c0, 191, _, rfl, _, rfl, _, rfl, by decide +kernel, acc (by decide +kernel), by decide +kernel⟩,
  ⟨s3, c3, 191, _, rfl, _, rfl, _, rfl, by decide +kernel, acc (by decide +kernel), by decide +kernel⟩,
  ⟨st (ch []), c4, 191, _, rfl, _, rfl, _, rfl, by decide +kernel, acc (by decide +kernel), by decide +kernel⟩,
  ⟨s3, c5, 191, _, rfl, _, rfl, _, rfl, by decide +kernel, acc (by decide +kernel), by decide +kernel⟩⟩
end HoistControl

namespace HoistBursts
def run (c : HchS) (l : List (RF × Nat) := []) : State :=
  { st ([(R.CLKPWR_PDn_STATE 69, 2), (R.HOISTh_CHc_STATE_STATE 2 63, 2), (R.HOISTh_CHc_STAT_RUN 2 63, 1), (R.QPq_STAT_STATE 0, 1)] ++ win0 ++ l) with hchs := [(191, c)] }
def b : Nat := 0x800000000000
def ent (a len fl : Nat) : List Byte := leBytes 8 a ++ leBytes 4 len ++ leBytes 4 fl
def src : HEnt := {at_ := b, len := 64}
def dst : HEnt := {at_ := b + 256, len := 64}
def bad : HEnt := {at_ := 2 ^ 47 - 99, len := 64}
def s0 : State := run {next := b}
def s1 : State := { run {next := b, burst := some {src := some b, dst := b + 256, data := [1, 2], dead := true}} [(R.HOST_CTL_PFC_EN, 1)] with cps := [(0, {paused := true})] }
def s2 : State := run {next := b, srcs := [src], dsts := [dst]}
def s3 : State := run {next := b, srcs := [src], dsts := [bad]}
def s4 : State := { run {next := b, burst := some {src := some b, dst := b + 256, data := [1, 2]}} [(R.HOST_CTL_PFC_EN, 1)] with cps := [(0, {paused := true})] }
def s5 : State := { run {next := 0x10} with mem := [(famKey 0 0, some ((List.range 4).map (fun i => (1, Nat.xor (keelCheck 0 0 i 1) 127))))], cyc := 10 ^ 9 }
def i0 : Instr := .hoistTargetTimeout 2 63 0x10
def s6 : State := run {next := b} [(R.HOISTh_STAT_STOPPED 2, 1)]
def s7 : State := run {next := b, burst := some {src := some b, dst := b + 256, data := [1, 2], poison := some 64}}
/-- States and operands that meet the premises of each clause of HoistBursts. -/
theorem witness :
  (∃ (s : State) (h : Fin 4) (c : Fin 64) (g : Nat), g = 64 * h.val + c.val ∧ ∃ (e : List Byte), (s.hFetches g = true ∧ s.sleep = none) ∧
      ∃ s1, s1 = (s.entryRead g e).1 ∧ ∃ b, (s.entryRead g e).2 = some b ∧ (∃ at_, at_ = leNat (slice b 0 8) ∧ ∃ len, len = leNat (slice b 8 4) ∧
      ∃ fl, fl = leNat (slice b 12 4) ∧ badEntry at_ len fl = true)) ∧
  (∃ (s : State) (h : Fin 4) (c : Fin 64) (g : Nat), g = 64 * h.val + c.val ∧ ∃ (e : List Byte), (s.hFetches g = true ∧ s.sleep = none) ∧
      ∃ s1, s1 = (s.entryRead g e).1 ∧ ∃ b, (s.entryRead g e).2 = some b ∧ (∃ at_, at_ = leNat (slice b 0 8) ∧ ∃ len, len = leNat (slice b 8 4) ∧
      ∃ fl, fl = leNat (slice b 12 4) ∧ badEntry at_ len fl = false ∧ natBit fl 3 = false ∧ natBit fl 5 = false ∧ natBit fl 0 = false ∧
      natBit fl 1 = false ∧ s1.get (R.HOISTh_CHc_DCOUNT_COUNT h c) + 1 < s1.get (R.HOISTh_CHc_DMAX_DESC_MAX h c))) ∧
  (∃ (s : State) (h : Fin 4) (c : Fin 64) (g : Nat), g = 64 * h.val + c.val ∧ (s.hFetches g = false ∨ s.sleep.isSome = true)) ∧
  (∃ (s : State) (h : Fin 4) (c : Fin 64) (g : Nat), g = 64 * h.val + c.val ∧
      ∃ (req : _) (data : List Byte) (src : _) (dst : _) (rs : _) (rd : _), (s.hStopped h = false ∧ s.pdOn (67 + h.val) = true ∧ s.sleep = none ∧
      (((List.range 64).filter (fun c => (s.hch (64 * h + c)).burst.isSome)).length < 32) ∧ s.hGrant h req = some c.val ∧
      (s.hch g).srcs = src :: rs ∧ (s.hch g).dsts = dst :: rd) ∧ ∃ n, n = s.hSize g src dst ∧ src.slot = false ∧ n ≤ data.length ∧
      (src.fill = true ∨ (s.hTgt h (src.at_ + src.used) n false).fails = false) ∧ (src.fill = true ∨ ∀ q, s.reachQp (src.at_ + src.used) 1 = some q →
      s.qpReads q < 16) ∧ (s.hTgt h (dst.at_ + dst.used) n true).fails = false) ∧
  (∃ (s : State) (h : Fin 4) (c : Fin 64) (g : Nat), g = 64 * h.val + c.val ∧
      ∃ (req : _) (data : List Byte) (src : _) (dst : _) (rs : _) (rd : _), (s.hStopped h = false ∧ s.pdOn (67 + h.val) = true ∧ s.sleep = none ∧
      (((List.range 64).filter (fun c => (s.hch (64 * h + c)).burst.isSome)).length < 32) ∧ s.hGrant h req = some c.val ∧
      (s.hch g).srcs = src :: rs ∧ (s.hch g).dsts = dst :: rd) ∧ ∃ n, n = s.hSize g src dst ∧ src.slot = false ∧ n ≤ data.length ∧
      (src.fill = true ∨ (s.hTgt h (src.at_ + src.used) n false).fails = false) ∧ (src.fill = true ∨ ∀ q, s.reachQp (src.at_ + src.used) 1 = some q →
      s.qpReads q < 16) ∧ (s.hTgt h (dst.at_ + dst.used) n true).fails = true) ∧
  (∃ (s : State) (h : Fin 4) (c : Fin 64) (g : Nat), g = 64 * h.val + c.val ∧
      ∃ req, (s.hStopped h = true ∨ s.sleep.isSome = true ∨ s.hGrant h req = none)) ∧
  (∃ (s : State) (h : Fin 4) (c : Fin 64) (g : Nat), g = 64 * h.val + c.val ∧ ∃ b, (s.hch g).burst = some b ∧
      (∃ w, s.window1 b.dst b.data.length = some w ∧ ((b.poison = none ∧ b.dead = false ∧ s.hRun g = true ∧
      s.hTgt h b.dst b.data.length true = .host) ∧
      ∃ u, u = s.roce (s.get (R.HWINw_CTL_QP w)) (.write (s.winVa w b.dst) (s.get (R.HWINw_RKEY_RKEY w)) b.data)))) ∧
  (∃ (s : State) (h : Fin 4) (c : Fin 64) (g : Nat), g = 64 * h.val + c.val ∧
      ((s.hch g).burst.all (fun b => b.dead || b.poison.isSome) = true ∨ s.hRun g = false)) ∧
  (∃ (s : State) (h : Fin 4) (c : Fin 64) (addr : BitVec 48) (g : Nat), g = 64 * h.val + c.val ∧
      ∃ (i : Instr) (k : Fin 8), ((i = .hoistBuserr h c k addr ∧ k.val ≠ 2 ∧
      s.hFails g k addr.toNat = true ∨ (i = .hoistTargetTimeout h c addr ∨ i = .hoistBuserr h c k addr) ∧ k.val = 2 ∧ s.hLate g addr.toNat = true) ∧
      s.hStopped h = false ∧ s.hRun g = true) ∧ (∀ v, v < 64 → (s.hch (64 * h + v)).burst = none)) ∧
  (∃ (s : State) (h : Fin 4) (c : Fin 64) (g : Nat), g = 64 * h.val + c.val ∧ (s.hStopped h = true ∨ s.hRun g = false)) ∧
  (∃ (s : State) (h : Fin 4) (c : Fin 64) (g : Nat), g = 64 * h.val + c.val ∧ (s.hStopped h = true ∨ s.hRun g = false)) ∧
  (∃ (s : State) (h : Fin 4) (c : Fin 64) (addr : BitVec 48) (g : Nat), g = 64 * h.val + c.val ∧ ∃ (b : _) (p : _), s.hRun g = true ∧
      (s.hch g).burst = some b ∧ b.poison = some p ∧ holds p 32 addr.toNat = true) ∧
  (∃ (s : State) (h : Fin 4) (c : Fin 64) (addr : BitVec 48) (g : Nat), g = 64 * h.val + c.val ∧ ∃ (f : _) (p : _), s.hFetches g = true ∧
      s.hTgt h (s.hch g).next 16 false = .array f ∧ (s.arrBytes f (s.hch g).next 16).2.2 = some p ∧ holds p (granSpan f) addr.toNat = true) ∧
  (∃ (s : State) (h : Fin 4) (c : Fin 64) (g : Nat), g = 64 * h.val + c.val ∧ s.hRun g = false) :=
  ⟨⟨s0, 2, 63, _, rfl, ent b 0 0, by decide +kernel, _, rfl, someW (by decide +kernel) ⟨_, rfl, _, rfl, _, rfl, by decide +kernel⟩⟩,
  ⟨s0, 2, 63, _, rfl, ent b 64 0, by decide +kernel, _, rfl, someW (by decide +kernel) ⟨_, rfl, _, rfl, _, rfl, by decide +kernel⟩⟩,
  ⟨s1, 2, 63, _, rfl, by decide +kernel⟩,
  ⟨s2, 2, 63, _, rfl, [63], List.replicate 64 7, src, dst, [], [], by decide +kernel, _, rfl, by decide +kernel⟩,
  ⟨s3, 2, 63, _, rfl, [63], List.replicate 64 7, src, bad, [], [], by decide +kernel, _, rfl, by decide +kernel⟩,
  ⟨s1, 2, 63, _, rfl, [63], by decide +kernel⟩,
  ⟨s4, 2, 63, _, rfl, someW (by decide +kernel) (someW (by decide +kernel) ⟨by decide +kernel, _, rfl⟩)⟩,
  ⟨s1, 2, 63, _, rfl, by decide +kernel⟩,
  ⟨s5, 2, 63, 0x10, _, rfl, i0, 2, by decide +kernel, ltAll (by decide +kernel)⟩,
  ⟨s6, 2, 63, _, rfl, by decide +kernel⟩,
  ⟨s6, 2, 63, _, rfl, by decide +kernel⟩,
  ⟨s7, 2, 63, 64, _, rfl, {src := some b, dst := b + 256, data := [1, 2], poison := some 64}, 64, by decide +kernel⟩,
  ⟨s5, 2, 63, 0x10, _, rfl, 0, 0, by decide +kernel⟩,
  ⟨st [], 2, 63, _, rfl, by decide +kernel⟩⟩
end HoistBursts

namespace UnitOrders
def o : Owed := {wait := .ucode, ring := 0, cq := 0, opc := 0x60, tag := 0, kind := 0, idx := 0}
def s0 : State := st (ring0 ++ [(R.PORTp_STATE_STATE 63, 2), (R.CREWc_STATE_STATE 3, 2)])
def s1 : State := strm 5 {eff := {home := 3}} (st (ring0 ++ [(R.STRMn_STATE_STATE 5, 2), (R.CREWc_STATE_STATE 3, 2)]))
def s2 : State := st (ring0 ++ [(R.PORTp_STATE_STATE 63, 1), (R.CREWc_STATE_STATE 3, 1)])
def c0 : Cmd := mk 0x60 0 0 0 [(16, 0), (24, 9)]
def s3 : State := { st ring0 with owed := [o] }
def c1 : Cmd := mk 0x60 0 0 0 [(16, 0x800000000000), (24, 73920)]
def s4 : State := st (ring0 ++ [(R.HWINw_CTL_EN 0, 1), (R.HWINw_SIZE_SIZE 0, 2), (R.QPq_STAT_STATE 0, 1)])
/-- States and operands that meet the premises of each clause of UnitOrders. -/
theorem witness :
  (∃ (s : State) (c : Cmd) (k : Nat), (k = 3 ∨ k = 5) ∧ ∃ i, i = dIdx c.desc ∧ (dSub c.desc = 0 ∧ dClean c.desc [] = true ∧
      s.unitThere c.desc = true) ∧ s.accepts c 0x40 k none ∧ s.get (urec k i).state ≠ 2) ∧
  (∃ (s : State) (c : Cmd) (k : Nat), (k = 3 ∨ k = 5) ∧ ∃ i, i = dIdx c.desc ∧ (dSub c.desc = 0 ∧ dClean c.desc [] = true ∧
      s.unitThere c.desc = true) ∧ s.accepts c 0x40 k none ∧ s.get (urec k i).state = 2) ∧
  (∃ (s : State) (c : Cmd) (k : Nat), (k = 3 ∨ k = 5) ∧ ∃ i, i = dIdx c.desc ∧ (dSub c.desc = 0 ∧ dClean c.desc [] = true ∧
      s.unitThere c.desc = true) ∧ s.accepts c 0x41 k none ∧ (s.takeFetched c).unitBusy k i = true) ∧
  (∃ (s : State) (c : Cmd) (k : Nat), (k = 3 ∨ k = 5) ∧ ∃ i, i = dIdx c.desc ∧ (dSub c.desc = 0 ∧ dClean c.desc [] = true ∧
      s.unitThere c.desc = true) ∧ s.accepts c 0x41 k none ∧ ((s.takeFetched c).unitBusy k i = false ∧ s.get (urec k i).state ≠ 0)) ∧
  (∃ (s : State) (c : Cmd) (k : Nat), (k = 3 ∨ k = 5) ∧ ∃ i, i = dIdx c.desc ∧ (dSub c.desc = 0 ∧ dClean c.desc [] = true ∧
      s.unitThere c.desc = true) ∧ s.accepts c 0x41 k none ∧ ((s.takeFetched c).unitBusy k i = false ∧ s.get (urec k i).state = 0)) ∧
  (∃ (s : State) (c : Cmd), s.accepts c 0x60 0 (some 9) ∧ (dSub c.desc = 0 ∧ dClean c.desc [(16, 0, 64), (24, 0, 32)] = true ∧
      dget c.desc 24 0 32 ≠ ucodeLen)) ∧
  (∃ (s : State) (c : Cmd), s.accepts c 0x60 0 (some 9) ∧ (dSub c.desc = 0 ∧ dClean c.desc [(16, 0, 64), (24, 0, 32)] = true ∧
      dget c.desc 24 0 32 = ucodeLen ∧ s.ucodeBusy = true)) ∧
  (∃ (s : State), s.ucodeBusy = true) ∧
  (∃ (s : State), s.ucodeBusy = false) :=
  ⟨⟨st ring0, mk 0x40 0 3 63, 3, by decide +kernel, _, rfl, by decide +kernel, acc (by decide +kernel), by decide +kernel⟩,
  ⟨s0, mk 0x40 0 3 63, 3, by decide +kernel, _, rfl, by decide +kernel, acc (by decide +kernel), by decide +kernel⟩,
  ⟨s1, mk 0x41 0 5 3, 5, by decide +kernel, _, rfl, by decide +kernel, acc (by decide +kernel), by decide +kernel⟩,
  ⟨s2, mk 0x41 0 3 63, 3, by decide +kernel, _, rfl, by decide +kernel, acc (by decide +kernel), by decide +kernel⟩,
  ⟨st ring0, mk 0x41 0 3 63, 3, by decide +kernel, _, rfl, by decide +kernel, acc (by decide +kernel), by decide +kernel⟩,
  ⟨st ring0, c0, acc (by decide +kernel), by decide +kernel⟩,
  ⟨s3, c1, acc (by decide +kernel), by decide +kernel⟩,
  ⟨s3, by decide +kernel⟩,
  ⟨st ring0, by decide +kernel⟩⟩
/-- Any 73,920 bytes can be the image that is read, whatever its signature is worth (the key hash of eFuse is a free value). -/
theorem witness_image (b : List Byte) (h : b.length = ucodeLen) : ∃ (s : State) (c : Cmd) (img : HostRead), s.accepts c 0x60 0 (some 9) ∧
    (dSub c.desc = 0 ∧ dClean c.desc [(16, 0, 64), (24, 0, 32)] = true ∧ dget c.desc 24 0 32 = ucodeLen ∧ s.ucodeBusy = false) ∧
    (s.takeFetched c).ucodeRead (dget c.desc 16 0 64) img = (s.takeFetched c, .inl b) := by
  refine ⟨s4, c1, some b, acc (by decide +kernel), by decide +kernel, ?_⟩
  have e : (s4.takeFetched c1).hTgt 0 (dget c1.desc 16 0 64) ucodeLen false = .host := by decide +kernel
  unfold State.ucodeRead
  rw [e]
  simp [h]
end UnitOrders

namespace LaneRecords
def ow (u : Bool) (l : Nat) : Owed := {wait := if u then .unitOn 4 l else .unitOff 4 l, ring := 0, cq := 0, opc := 0x40, tag := 7, kind := 4, idx := l}
def s0 : State := st [(R.LANEl_STATE_STATE 5, 1), (R.LANEl_STATE_STATE 64, 1), (R.CLKPWR_PDn_STATE 47, 2)]
def s1 : State := { st (ring0 ++ [(R.LANEl_STATE_STATE 5, 1), (R.LANEl_STATE_STATE 64, 1), (R.LANEl_STATE_STATE 65, 3), (R.LANEl_STATE_STATE 0, 2), (R.CLKPWR_PDn_STATE 46, 2), (R.CLKPWR_PDn_STATE 47, 2)]) with owed := [ow true 5, ow false 5, ow true 64] }
/-- States and operands that meet the premises of each clause of LaneRecords. -/
theorem witness :
  (∃ (s : State) (w : Who) (l : Fin 66) (d : Word), s.gate w (A.LANEl_STATE l) d = true ∧ l.val < 64 ∧ s.quad1 l = false ∧ wordGet d 4 2 = 1) ∧
  (∃ (s : State) (w : Who) (l : Fin 66) (d : Word), s.gate w (A.LANEl_STATE l) d = true ∧ l.val < 64 ∧ s.quad1 l = false ∧ wordGet d 4 2 = 2) ∧
  (∃ (s : State) (w : Who) (l : Fin 66) (d : Word), s.gate w (A.LANEl_STATE l) d = true ∧ 64 ≤ l.val ∧ wordGet d 4 2 = 1) ∧
  (∃ (s : State) (w : Who) (l : Fin 66) (d : Word), s.gate w (A.LANEl_STATE l) d = true ∧ 64 ≤ l.val ∧ wordGet d 4 2 = 2) ∧
  (∃ (s : State) (l : Fin 66), s.get (R.LANEl_STATE_STATE l) = 1 ∧ s.get (R.LANEl_STATE_PEND l) ≠ 2 ∧ (l.val < 64 → s.pdOn (46 + l / 4) = true)) ∧
  (∃ (s : State) (l : Fin 66), l.val < 64 ∧ (s.get (R.LANEl_STATE_STATE l) ≠ 1 ∨ s.pdOn (46 + l / 4) = false)) ∧
  (∃ (s : State) (l : Fin 66), s.get (R.LANEl_STATE_STATE l) = 3 ∧ s.get (R.LANEl_STATE_PEND l) = 0) ∧
  (∃ (s : State) (l : Fin 66), s.get (R.LANEl_STATE_STATE l) ≠ 3) :=
  ⟨⟨st [], Who.host 0, 0, 0x10#32, by decide +kernel⟩,
  ⟨st [], Who.host 0, 0, 0x20#32, by decide +kernel⟩,
  ⟨st [], Who.host 0, 64, 0x10#32, by decide +kernel⟩,
  ⟨st [], Who.host 0, 64, 0x20#32, by decide +kernel⟩,
  ⟨s0, 5, by decide +kernel⟩,
  ⟨st [], 0, by decide +kernel⟩,
  ⟨s1, 65, by decide +kernel⟩,
  ⟨st [], 0, by decide +kernel⟩⟩
end LaneRecords

namespace LaneSettings
def s0 : State := st [(R.LANEl_STATE_STATE 5, 1), (R.LANEl_STATE_STATE 4, 2), (R.LANEl_STATE_STATE 6, 1), (R.LANEl_STATE_STATE 7, 3)]
def i0 : Instr := .laneCfgWrite (.host 0) 64 0x22#32
def i1 : Instr := .laneCfgWrite (.host 0) 5 0x38#32
def s1 : State := strm 3 {p := {typ := 2, inFlow := {portA := 5}, outFlow := {portA := 4}}} (st (ring0 ++ [(R.STRMn_STATE_STATE 3, 2), (R.LANEl_CFG_LB 5, 1), (R.LANEl_STAT_BLOCK_LOCK 5, 1), (R.LANEl_STAT_LINK 5, 1)]))
def i2 : Instr := .blModeWrite (.host 0) 5 0x220#32
def i3 : Instr := .laneCfgWrite (.host 0) 5 0x438#32
def s2 : State := st (ring0 ++ [(R.LANEl_STATE_STATE 5, 2), (R.LANEl_CFG_BL_MODE 5, 2), (R.LANEl_PRBS_CTL_GEN 5, 1), (R.LANEl_PRBS_CTL_CHK 5, 1), (R.LANEl_RXEQ_ADAPT 5, 1), (R.LANEl_STAT_FEC_ACT 5, 2)])
def c0 : Cmd := mk 0x50 0 0 0 [(16, 7), (19, 5), (18, 1), (24, 0x3F00)]
def c1 : Cmd := mk 0x50 0 0 0 [(16, 7), (19, 5), (18, 1), (24, 0x2000)]
def c2 : Cmd := mk 0x50 0 0 0 [(16, 7), (19, 5), (18, 2), (24, 3)]
def c3 : Cmd := mk 0x50 0 0 0 [(16, 7), (19, 5), (18, 2), (24, 0)]
def c4 : Cmd := mk 0x50 0 0 0 [(16, 7), (19, 5), (18, 3), (24, 2)]
def c5 : Cmd := mk 0x50 0 0 0 [(16, 7), (19, 5), (18, 3), (24, 0)]
/-- States and operands that meet the premises of each clause of LaneSettings. -/
theorem witness :
  (∃ (s : State) (w : Who) (l : Fin 66) (d : Word), s.gate w (A.LANEl_QMODE l) d = true ∧ (∀ i, i < 4 → s.get (R.LANEl_STATE_STATE (l + i)) = 0)) ∧
  (∃ (s : State) (w : Who) (l : Fin 66) (d : Word), s.gate w (A.LANEl_QMODE l) d = true ∧ ∃ i, i < 4 ∧ s.get (R.LANEl_STATE_STATE (l + i)) ≠ 0 ∧
      wordGet d 0 1 ≠ s.get (R.LANEl_QMODE_QMODE l)) ∧
  (∃ (s : State) (w : Who) (l : Fin 66) (d : Word) (i : Instr), (i = .laneCfgWrite w l d ∨ i = .blModeWrite w l d ∨ i = .loopbackSet w l d) ∧
      s.gate w (A.LANEl_CFG l) d = true ∧ s.cfgReserved l d = true) ∧
  (∃ (s : State) (w : Who) (l : Fin 66) (d : Word) (i : Instr), (i = .laneCfgWrite w l d ∨ i = .blModeWrite w l d ∨ i = .loopbackSet w l d) ∧
      s.gate w (A.LANEl_CFG l) d = true ∧ s.cfgReserved l d = false ∧ s.get (R.LANEl_STATE_STATE l) = 0 ∧ s.laneBusy l = false) ∧
  (∃ (s : State) (w : Who) (l : Fin 66) (d : Word) (i : Instr), (i = .laneCfgWrite w l d ∨ i = .blModeWrite w l d ∨ i = .loopbackSet w l d) ∧
      s.gate w (A.LANEl_CFG l) d = true ∧ s.cfgReserved l d = false ∧ s.laneBusy l = true ∧ l.val < 64 ∧ s.get (R.LANEl_CFG_BL_MODE l) ≠ 2 ∧
      wordGet d 8 2 = 2) ∧
  (∃ (s : State) (w : Who) (l : Fin 66) (d : Word) (i : Instr), (i = .laneCfgWrite w l d ∨ i = .blModeWrite w l d ∨ i = .loopbackSet w l d) ∧
      s.gate w (A.LANEl_CFG l) d = true ∧ s.cfgReserved l d = false ∧ s.laneBusy l = true ∧ l.val < 64 ∧ wordGet d 10 2 ≠ 0) ∧
  (∃ (s : State) (w : Who) (l : Fin 66) (d : Word), s.gate w (A.LANEl_PRBS_CTL l) d = true ∧ ∃ pat, pat = (if s.raw66 l = true ∧
      s.get (R.LANEl_STATE_STATE l) = 2 ∧ s.get (R.LANEl_DOZE_TX_PWR l) < 2 then [Out.pattern l (wordGet d 0 3)] else []) ∧ wordGet d 8 1 = 0) ∧
  (∃ (s : State) (w : Who) (l : Fin 66) (d : Word), s.gate w (A.LANEl_PRBS_CTL l) d = true ∧ ∃ pat, pat = (if s.raw66 l = true ∧
      s.get (R.LANEl_STATE_STATE l) = 2 ∧ s.get (R.LANEl_DOZE_TX_PWR l) < 2 then [Out.pattern l (wordGet d 0 3)] else []) ∧ wordGet d 8 1 = 1 ∧
      s.raw66 l = true ∧ s.laneUp l = true ∧ wordGet d 0 3 ≠ 0) ∧
  (∃ (s : State) (l : Fin 66), s.raw66 l = true ∧ s.cdrOn l = true ∧ s.get (R.LANEl_PRBS_CTL_CHK l) ≠ 0) ∧
  (∃ (s : State) (l : Fin 66), (s.raw66 l = false ∨ s.cdrOn l = false)) ∧
  (∃ (s : State) (c : Cmd), s.accepts c 0x50 0 (some 7) ∧ (dSub c.desc = 0 ∧ dget c.desc 16 0 8 = 7) ∧ ∃ code, code = dget c.desc 18 0 8 ∧
      ∃ l, l = dUnit8 c.desc ∧ l ≤ 65 ∧ ∃ v, v = dValue c.desc ∧ (dClean c.desc [(16, 0, 8), (18, 0, 16), (24, 0, 64)] = true ∧ code = 1) ∧
      ∃ (pre : _) (main : _) (post : _), pre < 16 ∧ main < 64 ∧ post < 32 ∧ v = pre + main * 2 ^ 8 + post * 2 ^ 16 ∧
      tapsLegal pre main post = false) ∧
  (∃ (s : State) (c : Cmd), s.accepts c 0x50 0 (some 7) ∧ (dSub c.desc = 0 ∧ dget c.desc 16 0 8 = 7) ∧ ∃ code, code = dget c.desc 18 0 8 ∧
      ∃ l, l = dUnit8 c.desc ∧ l ≤ 65 ∧ ∃ v, v = dValue c.desc ∧ (dClean c.desc [(16, 0, 8), (18, 0, 16), (24, 0, 64)] = true ∧ code = 1) ∧
      ∃ (pre : _) (main : _) (post : _), pre < 16 ∧ main < 64 ∧ post < 32 ∧ v = pre + main * 2 ^ 8 + post * 2 ^ 16 ∧ tapsLegal pre main post = true ∧
      l ∉ s.training) ∧
  (∃ (s : State) (c : Cmd), s.accepts c 0x50 0 (some 7) ∧ (dSub c.desc = 0 ∧ dget c.desc 16 0 8 = 7) ∧ ∃ code, code = dget c.desc 18 0 8 ∧
      ∃ l, l = dUnit8 c.desc ∧ l ≤ 65 ∧ ∃ v, v = dValue c.desc ∧ dClean c.desc [(16, 0, 8), (18, 0, 16), (24, 0, 64)] = true ∧ code = 2 ∧ 2 < v) ∧
  (∃ (s : State) (c : Cmd), s.accepts c 0x50 0 (some 7) ∧ (dSub c.desc = 0 ∧ dget c.desc 16 0 8 = 7) ∧ ∃ code, code = dget c.desc 18 0 8 ∧
      ∃ l, l = dUnit8 c.desc ∧ l ≤ 65 ∧ ∃ v, v = dValue c.desc ∧ dClean c.desc [(16, 0, 8), (18, 0, 16), (24, 0, 64)] = true ∧ code = 2 ∧ v ≤ 2) ∧
  (∃ (s : State) (c : Cmd), s.accepts c 0x50 0 (some 7) ∧ (dSub c.desc = 0 ∧ dget c.desc 16 0 8 = 7) ∧ ∃ code, code = dget c.desc 18 0 8 ∧
      ∃ l, l = dUnit8 c.desc ∧ l ≤ 65 ∧ ∃ v, v = dValue c.desc ∧ dClean c.desc [(16, 0, 8), (18, 0, 16), (24, 0, 64)] = true ∧ code = 3 ∧ v ≠ 0) ∧
  (∃ (s : State) (c : Cmd), s.accepts c 0x50 0 (some 7) ∧ (dSub c.desc = 0 ∧ dget c.desc 16 0 8 = 7) ∧ ∃ code, code = dget c.desc 18 0 8 ∧
      ∃ l, l = dUnit8 c.desc ∧ l ≤ 65 ∧ ∃ v, v = dValue c.desc ∧ dClean c.desc [(16, 0, 8), (18, 0, 16), (24, 0, 64)] = true ∧ code = 3 ∧ v = 0) :=
  ⟨⟨st [], Who.host 0, 0, 0x38#32, by decide +kernel, ltAll (by decide +kernel)⟩,
  ⟨s0, Who.host 0, 4, 0x1#32, by decide +kernel, 0, by decide +kernel⟩,
  ⟨st [], Who.host 0, 64, 0x22#32, i0, by decide +kernel⟩,
  ⟨st [], Who.host 0, 5, 0x38#32, i1, by decide +kernel⟩,
  ⟨s1, Who.host 0, 5, 0x220#32, i2, by decide +kernel⟩,
  ⟨s1, Who.host 0, 5, 0x438#32, i3, by decide +kernel⟩,
  ⟨st [], Who.host 0, 0, 0x38#32, by decide +kernel, _, rfl, by decide +kernel⟩,
  ⟨s2, Who.host 0, 5, 0x111#32, by decide +kernel, _, rfl, by decide +kernel⟩,
  ⟨s2, 5, by decide +kernel⟩,
  ⟨st [], 0, by decide +kernel⟩,
  ⟨s1, c0, acc (by decide +kernel), by decide +kernel, _, rfl, _, rfl, by decide +kernel, _, rfl, by decide +kernel, 0, 63, 0, by decide +kernel⟩,
  ⟨s1, c1, acc (by decide +kernel), by decide +kernel, _, rfl, _, rfl, by decide +kernel, _, rfl, by decide +kernel, 0, 32, 0, by decide +kernel⟩,
  ⟨s1, c2, acc (by decide +kernel), by decide +kernel, _, rfl, _, rfl, by decide +kernel, _, rfl, by decide +kernel⟩,
  ⟨s1, c3, acc (by decide +kernel), by decide +kernel, _, rfl, _, rfl, by decide +kernel, _, rfl, by decide +kernel⟩,
  ⟨s1, c4, acc (by decide +kernel), by decide +kernel, _, rfl, _, rfl, by decide +kernel, _, rfl, by decide +kernel⟩,
  ⟨s1, c5, acc (by decide +kernel), by decide +kernel, _, rfl, _, rfl, by decide +kernel, _, rfl, by decide +kernel⟩⟩
end LaneSettings

namespace LaneLine
def s0 : State := st [(R.LANEl_STATE_STATE 5, 2), (R.LANEl_STATE_STATE 64, 2), (R.LANEl_STAT_LOS 5, 1)]
def s1 : State := { st [(R.LANEl_STATE_STATE 5, 2), (R.LANEl_STATE_STATE 4, 1), (R.LANEl_STAT_LOS 5, 0), (R.LANEl_STAT_LOL 5, 0), (R.LANEl_STAT_BLOCK_LOCK 5, 1),  (R.LANEl_STAT_LINK 5, 1), (R.LANEl_RXEQ_ADAPT 5, 1), (R.LANEl_STAT_AN_DONE 5, 1)] with training := [5, 0], adapting := [5] }
/-- States and operands that meet the premises of each clause of LaneLine. -/
theorem witness :
  (∃ (s : State) (l : Fin 66) (fec : Fin 3), s.get (R.LANEl_STATE_STATE l) = 2 ∧ s.quad1 l = false ∧ s.negotiates l = true ∧
      s.get (R.LANEl_STAT_AN_DONE l) = 0 ∧ fec.val ∈ fecOffer (s.get (R.LANEl_CFG_PMD l)) (s.get (R.LANEl_CFG_FEC l))) ∧
  (∃ (s : State) (l : Fin 66), (s.get (R.LANEl_STATE_STATE l) ≠ 2 ∨ s.get (R.LANEl_STAT_AN_DONE l) = 1)) ∧
  (∃ (s : State) (l : Fin 66) (pre : _) (main : _) (post : _), l.val ∈ s.training ∧ tapsLegal pre main post = true) ∧
  (∃ (s : State) (l : Fin 66), l.val ∉ s.training) ∧
  (∃ (s : State) (l : Fin 66), s.cdrOn l = true ∧ s.raw66 l = false ∧ s.get (R.LANEl_STAT_BLOCK_LOCK l) = 0) ∧
  (∃ (s : State) (l : Fin 66), (s.cdrOn l = false ∨ s.get (R.LANEl_STAT_BLOCK_LOCK l) = 1)) ∧
  (∃ (s : State) (l : Fin 66), s.cdrOn l = true ∧ s.raw66 l = false ∧ s.get (R.LANEl_STAT_BLOCK_LOCK l) = 1) ∧
  (∃ (s : State) (l : Fin 66), s.get (R.LANEl_STAT_BLOCK_LOCK l) = 0) ∧
  (∃ (s : State) (l : Fin 66), s.laneUp l = true ∧ s.get (R.LANEl_STAT_LOS l) = 0) ∧
  (∃ (s : State) (l : Fin 66), s.laneUp l = true ∧ s.get (R.LANEl_STAT_LOS l) = 1) ∧
  (∃ (s : State) (l : Fin 66), s.cdrOn l = true ∧ s.get (R.LANEl_STAT_LOL l) = 0) ∧
  (∃ (s : State) (l : Fin 66), s.cdrOn l = true ∧ s.get (R.LANEl_STAT_LOL l) = 1) ∧
  (∃ (s : State) (l : Fin 66), s.laneUp l = false) ∧
  (∃ (s : State) (l : Fin 66), s.laneUp l = false) ∧
  (∃ (s : State) (l : Fin 66), s.laneUp l = false) ∧
  (∃ (s : State) (l : Fin 66), s.laneUp l = false) :=
  ⟨⟨s0, 5, 0, by decide +kernel⟩,
  ⟨st [], 0, by decide +kernel⟩,
  ⟨s1, 0, 0, 24, 0, by decide +kernel⟩,
  ⟨st [], 0, by decide +kernel⟩,
  ⟨s0, 5, by decide +kernel⟩,
  ⟨st [], 0, by decide +kernel⟩,
  ⟨s1, 5, by decide +kernel⟩,
  ⟨st [], 0, by decide +kernel⟩,
  ⟨s1, 5, by decide +kernel⟩,
  ⟨s0, 5, by decide +kernel⟩,
  ⟨s1, 5, by decide +kernel⟩,
  ⟨s0, 5, by decide +kernel⟩,
  ⟨st [], 0, by decide +kernel⟩,
  ⟨st [], 0, by decide +kernel⟩,
  ⟨st [], 0, by decide +kernel⟩,
  ⟨st [], 0, by decide +kernel⟩⟩
end LaneLine

namespace LaneControl
def s0 : State := st [(R.LANEl_STATE_STATE 5, 2), (R.LANEl_STAT_FEC_ACT 5, 2), (R.LANEl_DOZE_TX_PWR 5, 2), (R.LANEl_FEC_CORR_COUNT 5, 2^32 - 1)]
def s1 : State := st [(R.LANEl_STATE_STATE 5, 2), (R.LANEl_STATE_STATE 64, 2), (R.LANEl_CFG_BL_MODE 5, 1)]
def s2 : State := st [(R.LANEl_STATE_STATE 5, 2), (R.LANEl_STAT_FEC_ACT 5, 2), (R.LANEl_DOZE_RX_PWR 5, 2), (R.LANEl_DOZE_TX_PWR 5, 3)]
def s3 : State := { st [(R.LANEl_STATE_STATE 5, 2), (R.LANEl_DOZE_RX_PWR 5, 1), (R.LANEl_DOZE_TX_PWR 5, 1), (R.LANEl_EQ_STAT_BUSY 5, 1)] with adapting := [5] }
/-- States and operands that meet the premises of each clause of LaneControl. -/
theorem witness :
  (∃ (s : State) (l : Fin 66), s.cdrOn l = true ∧ s.raw66 l = false ∧ s.get (R.LANEl_STAT_FEC_ACT l) ≠ 0 ∧ s.leadLane l = l.val) ∧
  (∃ (s : State) (l : Fin 66), (s.cdrOn l = false ∨ s.get (R.LANEl_STAT_FEC_ACT l) = 0)) ∧
  (∃ (s : State) (w : Who) (l : Fin 66) (d : Word), s.gate w (A.LANEl_BL_CTL l) d = true ∧ wordGet d 0 1 = 1 ∧ s.get (R.LANEl_CFG_BL_MODE l) = 0) ∧
  (∃ (s : State) (w : Who) (l : Fin 66) (d : Word), s.gate w (A.LANEl_BL_CTL l) d = true ∧ wordGet d 0 1 = 1 ∧ s.get (R.LANEl_CFG_BL_MODE l) ≠ 0 ∧
      s.laneUp l = true) ∧
  (∃ (s : State) (w : Who) (l : Fin 66) (d : Word), s.gate w (A.LANEl_DOZE l) d = true ∧ s.get (R.LANEl_STATE_STATE l) = 2 ∧ s.laneBusy l = false ∧
      wordGet d 0 1 = 1 ∧ wordGet d 1 1 = 0 ∧ wordGet d 2 1 = 0 ∧ wordGet d 3 1 = 0 ∧ s.get (R.LANEl_DOZE_TX_PWR l) = 0) ∧
  (∃ (s : State) (w : Who) (l : Fin 66) (d : Word), s.gate w (A.LANEl_DOZE l) d = true ∧ s.get (R.LANEl_STATE_STATE l) = 2 ∧ s.laneBusy l = false ∧
      wordGet d 1 1 = 1 ∧ wordGet d 0 1 = 0 ∧ wordGet d 2 1 = 0 ∧ wordGet d 3 1 = 0 ∧ s.get (R.LANEl_DOZE_TX_PWR l) = 2) ∧
  (∃ (s : State) (w : Who) (l : Fin 66) (d : Word), s.gate w (A.LANEl_DOZE l) d = true ∧ s.get (R.LANEl_STATE_STATE l) = 2 ∧ s.laneBusy l = false ∧
      wordGet d 2 1 = 1 ∧ wordGet d 3 1 = 0 ∧ wordGet d 0 1 = 0 ∧ wordGet d 1 1 = 0 ∧ s.get (R.LANEl_DOZE_RX_PWR l) = 0) ∧
  (∃ (s : State) (w : Who) (l : Fin 66) (d : Word), s.gate w (A.LANEl_DOZE l) d = true ∧ s.get (R.LANEl_STATE_STATE l) = 2 ∧ s.laneBusy l = false ∧
      wordGet d 3 1 = 1 ∧ wordGet d 2 1 = 0 ∧ wordGet d 0 1 = 0 ∧ wordGet d 1 1 = 0 ∧ s.get (R.LANEl_DOZE_RX_PWR l) = 2) ∧
  (∃ (s : State) (w : Who) (l : Fin 66) (d : Word), s.gate w (A.LANEl_DOZE l) d = true ∧ s.laneBusy l = true ∧ wordGet d 0 1 = 1) ∧
  (∃ (s : State) (l : Fin 66) (rx : Bool) (u : _), u = urec (if rx then 9 else 8) l ∧ s.get u.state = 1 ∧ s.get u.pend = 0) ∧
  (∃ (s : State) (l : Fin 66) (rx : Bool) (u : _), u = urec (if rx then 9 else 8) l ∧ s.get u.state = 3 ∧ s.get u.pend = 0) ∧
  (∃ (s : State) (l : Fin 66) (rx : Bool) (u : _), u = urec (if rx then 9 else 8) l ∧ (s.get u.state = 0 ∨ s.get u.state = 2)) ∧
  (∃ (s : State) (w : Who) (l : Fin 66) (d : Word), s.gate w (A.LANEl_TXEQ l) d = true ∧ s.get (R.LANEl_EQ_STAT_BUSY l) = 0) ∧
  (∃ (s : State) (w : Who) (l : Fin 66) (d : Word), s.gate w (A.LANEl_TXEQ l) d = true ∧ s.get (R.LANEl_EQ_STAT_BUSY l) = 1) ∧
  (∃ (s : State) (w : Who) (l : Fin 66) (d : Word), s.gate w (A.LANEl_RXEQ l) d = true ∧ wordGet d 2 1 = 1 ∧ wordGet d 0 2 = 1) ∧
  (∃ (s : State) (l : Fin 66), l.val ∈ s.adapting) ∧
  (∃ (s : State) (l : Fin 66), l.val ∉ s.adapting) :=
  ⟨⟨s0, 5, by decide +kernel⟩,
  ⟨st [], 0, by decide +kernel⟩,
  ⟨st [], Who.host 0, 0, 0x1#32, by decide +kernel⟩,
  ⟨s1, Who.host 0, 5, 0x1#32, by decide +kernel⟩,
  ⟨s1, Who.host 0, 5, 0x1#32, by decide +kernel⟩,
  ⟨s0, Who.host 0, 5, 0x2#32, by decide +kernel⟩,
  ⟨s1, Who.host 0, 5, 0x4#32, by decide +kernel⟩,
  ⟨s2, Who.host 0, 5, 0x8#32, by decide +kernel⟩,
  ⟨st [], Who.host 0, 64, 0x1#32, by decide +kernel⟩,
  ⟨s3, 5, false, _, rfl, by decide +kernel⟩,
  ⟨s2, 5, false, _, rfl, by decide +kernel⟩,
  ⟨st [], 0, false, _, rfl, by decide +kernel⟩,
  ⟨st [], Who.cox 0, 0, 0x2000#32, by decide +kernel⟩,
  ⟨s3, Who.cox 0, 5, 0x2000#32, by decide +kernel⟩,
  ⟨st [], Who.cox 0, 0, 0x5#32, by decide +kernel⟩,
  ⟨s3, 5, by decide +kernel⟩,
  ⟨st [], 0, by decide +kernel⟩⟩
end LaneControl

namespace PortRecord
def ow (u : Bool) (l : Nat) : Owed := {wait := if u then .unitOn 3 l else .unitOff 3 l, ring := 0, cq := 0, opc := 0x40, tag := 7, kind := 3, idx := l}
def s0 : State := { st (ring0 ++ [(R.PORTp_STATE_STATE 5, 1), (R.PORTp_STATE_STATE 63, 3)]) with ptpRx := [(5, [[1], [2]])], tsb := [(5, [(1,2,3,4)])], owed := [ow true 5, ow false 5, ow false 63] }
/-- States and operands that meet the premises of each clause of PortRecord. -/
theorem witness :
  (∃ (s : State) (w : Who) (p : Fin 64) (d : Word), s.gate w (A.PORTp_STATE p) d = true ∧ wordGet d 4 2 = 1) ∧
  (∃ (s : State) (w : Who) (p : Fin 64) (d : Word), s.gate w (A.PORTp_STATE p) d = true ∧ wordGet d 4 2 = 2) ∧
  (∃ (s : State) (p : Fin 64), s.get (R.PORTp_STATE_STATE p) = 1 ∧ s.get (R.PORTp_STATE_PEND p) ≠ 2) ∧
  (∃ (s : State) (p : Fin 64), s.get (R.PORTp_STATE_STATE p) ≠ 1) ∧
  (∃ (s : State) (p : Fin 64), s.get (R.PORTp_STATE_STATE p) = 3 ∧ s.get (R.PORTp_STATE_PEND p) = 0 ∧ tabGet 0 s.txFree p ≤ s.now) ∧
  (∃ (s : State) (p : Fin 64), (s.get (R.PORTp_STATE_STATE p) ≠ 3 ∨ s.now < tabGet 0 s.txFree p)) :=
  ⟨⟨st [], Who.host 0, 0, 0x10#32, by decide +kernel⟩,
  ⟨st [], Who.host 0, 0, 0x20#32, by decide +kernel⟩,
  ⟨s0, 5, by decide +kernel⟩,
  ⟨st [], 0, by decide +kernel⟩,
  ⟨s0, 63, by decide +kernel⟩,
  ⟨st [], 0, by decide +kernel⟩⟩
end PortRecord

namespace FramesReceived
def eth (et : Nat) (rest : List Byte) (dst : Nat := 2 ^ 48 - 1) : List Byte := beBytes 6 dst ++ beBytes 6 9 ++ beBytes 2 et ++ rest
def ipv4 (src dst proto : Nat) (rest : List Byte) : List Byte :=
  let h := fun (c : Nat) => [0x45#8, 0#8] ++ beBytes 2 (20 + rest.length) ++ [0, 0, 0, 0, 64, BitVec.ofNat 8 proto] ++ beBytes 2 c ++ beBytes 4 src ++ beBytes 4 dst
  h (0xFFFF - onesSum (h 0)) ++ rest
def udp (sport dport : Nat) (d : List Byte) : List Byte := beBytes 2 sport ++ beBytes 2 dport ++ beBytes 2 (8 + d.length) ++ [0, 0] ++ d
def rtp (pt seq : Nat) : List Byte := [0x80#8, BitVec.ofNat 8 pt] ++ beBytes 2 seq ++ beBytes 4 0 ++ beBytes 4 0 ++ [1, 2, 3]
def arp (target : Nat) : List Byte := eth 0x0806 (beBytes 2 1 ++ beBytes 2 0x800 ++ [6, 4] ++ beBytes 2 1 ++ beBytes 6 77 ++ beBytes 4 0x0A000009 ++ beBytes 6 0 ++ beBytes 4 target)
def toUdp (d : List Byte) (dport : Nat := 5000) : RxFrame := {data := eth 0x0800 (ipv4 0x0A000009 0x0A000001 17 (udp 5000 dport d))}
def pas : StreamS := {p := {typ := 2, inFlow := {portA := 5, pt := 96, udpA := 5000, ipA := 0x0A000001}, outFlow := {portA := 4, udpA := 5002}}}
def pas2 : StreamS := {p := {typ := 2, inFlow := {portA := 5, portB := 4, pt := 96, udpA := 5000, ipA := 0x0A000001, udpB := 5000, ipB := 0x0A000001}, outFlow := {portA := 4, udpA := 5002}}, merge := [(259, {seen := [(7, 5, false)], newest := some 7})]}
def ponL : List (RF × Nat) := [(R.PORTp_STATE_STATE 5, 2), (R.PORTp_IP_ADDR 5, 0xA000001), (R.PORTp_PTP_PTP_EN 5, 1), (R.STRMn_STATE_STATE 3, 2), (R.LANEl_STAT_LINK 5, 1), (R.LANEl_STATE_STATE 5, 2)]
def pon (l : List (RF × Nat) := []) : State := let b := st (ponL ++ l); { b with regs := insertBy (fun x y => decide (x.1 < y.1)) (A.PORTp_MAC_L 5, 7#32) (insertBy (fun x y => decide (x.1 < y.1)) (A.PORTp_MAC_H 5, 1#32) b.regs) }
def ptpm : List Byte := [0#8, 2, 0, 44, 0] ++ List.replicate 39 1
def f0 : RxFrame := {data := eth 0x1234 [1], cp := some 1}
def f1 : RxFrame := {data := eth 0x0806 [1]}
def f2 : RxFrame := {data := eth 0x1234 [1], fcsOk := false}
def f3 : RxFrame := {data := arp 0x0A000001}
def f4 : RxFrame := {data := arp 0x0A000002}
def f5 : RxFrame := {data := eth 0x88F7 ptpm}
def s0 : State := { strm 3 pas pon with ptpRx := [(4, [[1]]), (5, (List.range 64).map (fun n => [BitVec.ofNat 8 n]))] }
def f6 : RxFrame := toUdp (rtp 97 7)
def s1 : State := { strm 3 pas2 (pon [(R.PORTp_CFG_MFS 5, 64)]) with ptpRx := [(5, [[1]])] }
def f7 : RxFrame := toUdp (rtp 96 7)
def f8 : RxFrame := {data := eth 0x1234 [1]}
/-- States and operands that meet the premises of each clause of FramesReceived. -/
theorem witness :
  (∃ (f : RxFrame) (c : _), f.cp = some c ∧ ((f.fcsOk = false ∨ ptpIn (ethIn f.data) = none ∨ f.sync = none))) ∧
  (∃ (s : State) (p : Fin 64) (f : RxFrame), f.cp = none ∧ (s.portHears p = false ∨ s.portNear p = true)) ∧
  (∃ (s : State) (p : Fin 64) (f : RxFrame), (f.cp = none ∧ s.portHears p = true ∧ s.portNear p = false) ∧ ∃ s1, s1 = (if s.portFar p = true ∧
      s.portLit p = true then { s with outbox := s.outbox ++ [.echo p f.data] } else s) ∧ s.rxAccept p f = false) ∧
  (∃ (s : State) (p : Fin 64) (f : RxFrame), (f.cp = none ∧ s.portHears p = true ∧ s.portNear p = false) ∧ ∃ s1, s1 = (if s.portFar p = true ∧
      s.portLit p = true then { s with outbox := s.outbox ++ [.echo p f.data] } else s) ∧ let e := ethIn f.data; s.rxAccept p f = true ∧
      ∃ a, arpIn e = some a ∧ (a.1 = s.get (R.PORTp_IP_ADDR p))) ∧
  (∃ (s : State) (p : Fin 64) (f : RxFrame), (f.cp = none ∧ s.portHears p = true ∧ s.portNear p = false) ∧ ∃ s1, s1 = (if s.portFar p = true ∧
      s.portLit p = true then { s with outbox := s.outbox ++ [.echo p f.data] } else s) ∧ let e := ethIn f.data; s.rxAccept p f = true ∧
      ∃ a, arpIn e = some a ∧ (a.1 ≠ s.get (R.PORTp_IP_ADDR p))) ∧
  (∃ (s : State) (p : Fin 64) (f : RxFrame), (f.cp = none ∧ s.portHears p = true ∧ s.portNear p = false) ∧ ∃ s1, s1 = (if s.portFar p = true ∧
      s.portLit p = true then { s with outbox := s.outbox ++ [.echo p f.data] } else s) ∧ let e := ethIn f.data; s.rxAccept p f = true ∧
      ∃ m, ptpIn e = some m ∧ (s.flag (R.PORTp_PTP_PTP_EN p) = true ∧ f.sync = none ∧ (s.ptpBin p).length < 64)) ∧
  (∃ (s : State) (p : Fin 64) (f : RxFrame), (f.cp = none ∧ s.portHears p = true ∧ s.portNear p = false) ∧ ∃ s1, s1 = (if s.portFar p = true ∧
      s.portLit p = true then { s with outbox := s.outbox ++ [.echo p f.data] } else s) ∧ let e := ethIn f.data; s.rxAccept p f = true ∧
      ∃ m, ptpIn e = some m ∧ ((s.flag (R.PORTp_PTP_PTP_EN p) = true ∧ f.sync = none) ∧ ∃ (x : _) (r : _), s.ptpBin p = x :: r ∧ r.length = 63)) ∧
  (∃ (s : State) (p : Fin 64) (f : RxFrame), (f.cp = none ∧ s.portHears p = true ∧ s.portNear p = false) ∧ ∃ s1, s1 = (if s.portFar p = true ∧
      s.portLit p = true then { s with outbox := s.outbox ++ [.echo p f.data] } else s) ∧ let e := ethIn f.data; s.rxAccept p f = true ∧
      ∃ u, udpIn e = some u ∧ ((ptpIn e = none ∨ s.flag (R.PORTp_PTP_PTP_EN p) = false) ∧ let fl := s.rxFlows p u.dstIp u.dport; fl ≠ [] ∧
      (u.sumOk = false ∨ rtpIn u.data = none))) ∧
  (∃ (s : State) (p : Fin 64) (f : RxFrame), (f.cp = none ∧ s.portHears p = true ∧ s.portNear p = false) ∧ ∃ s1, s1 = (if s.portFar p = true ∧
      s.portLit p = true then { s with outbox := s.outbox ++ [.echo p f.data] } else s) ∧ let e := ethIn f.data; s.rxAccept p f = true ∧
      ∃ u, udpIn e = some u ∧ ((ptpIn e = none ∨ s.flag (R.PORTp_PTP_PTP_EN p) = false) ∧
      let fl := s.rxFlows p u.dstIp u.dport; ∃ r, rtpIn u.data = some r ∧ (u.sumOk = true ∧ fl ≠ [] ∧ (∀ x ∈ fl, x.2.2.pt ≠ r.pt ∨ (x.2.2.ssrc ≠ 0 ∧
      x.2.2.ssrc ≠ r.ssrc))))) ∧
  (∃ (s : State) (p : Fin 64) (f : RxFrame), (f.cp = none ∧ s.portHears p = true ∧ s.portNear p = false) ∧ ∃ s1, s1 = (if s.portFar p = true ∧
      s.portLit p = true then { s with outbox := s.outbox ++ [.echo p f.data] } else s) ∧ let e := ethIn f.data; s.rxAccept p f = true ∧
      ∃ u, udpIn e = some u ∧ ((ptpIn e = none ∨ s.flag (R.PORTp_PTP_PTP_EN p) = false) ∧
      let fl := s.rxFlows p u.dstIp u.dport; ∃ r, rtpIn u.data = some r ∧ (u.sumOk = true ∧ ∃ (n : _) (i : _) (g : Flow) (m : _), fl = [(n, i, g)] ∧
      g.pt = r.pt ∧ (g.ssrc = 0 ∨ g.ssrc = r.ssrc) ∧ g.portB ≠ 255 ∧ (s.strm n).p.typ = 2 ∧
      ((s.strm n).merge.find? (fun x => x.1 == i) = some (i, m)) ∧ (m.seen.any (fun x => x.1 == r.seq) = true)))) ∧
  (∃ (s : State) (p : Fin 64) (f : RxFrame), (f.cp = none ∧ s.portHears p = true ∧ s.portNear p = false) ∧ ∃ s1, s1 = (if s.portFar p = true ∧
      s.portLit p = true then { s with outbox := s.outbox ++ [.echo p f.data] } else s) ∧ let e := ethIn f.data; s.rxAccept p f = true ∧
      ∃ u, udpIn e = some u ∧ ((ptpIn e = none ∨ s.flag (R.PORTp_PTP_PTP_EN p) = false) ∧ let fl := s.rxFlows p u.dstIp u.dport; fl = [] ∧
      (u.dstIp ≠ s.get (R.PORTp_IP_ADDR p) ∨ s.rtcpOf p u.dport = []))) ∧
  (∃ (s : State) (p : Fin 64) (f : RxFrame), (f.cp = none ∧ s.portHears p = true ∧ s.portNear p = false) ∧ ∃ s1, s1 = (if s.portFar p = true ∧
      s.portLit p = true then { s with outbox := s.outbox ++ [.echo p f.data] } else s) ∧ let e := ethIn f.data; s.rxAccept p f = true ∧
      e.et ≠ 0x0806 ∧ udpIn e = none ∧ igmpIn e = none ∧ ptpIn e = none) :=
  ⟨⟨f0, someW (by decide +kernel) (by decide +kernel)⟩,
  ⟨st [], 0, f1, by decide +kernel⟩,
  ⟨pon, 5, f2, by decide +kernel, _, rfl, by decide +kernel⟩,
  ⟨pon, 5, f3, by decide +kernel, _, rfl, by decide +kernel, someW (by decide +kernel) (by decide +kernel)⟩,
  ⟨pon, 5, f4, by decide +kernel, _, rfl, by decide +kernel, someW (by decide +kernel) (by decide +kernel)⟩,
  ⟨pon, 5, f5, by decide +kernel, _, rfl, by decide +kernel, someW (by decide +kernel) (by decide +kernel)⟩,
  ⟨s0, 5, f5, by decide +kernel, _, rfl, by decide +kernel, someW (by decide +kernel) ⟨by decide +kernel, [0#8], ((List.range 64).map (fun n => [BitVec.ofNat 8 n])).drop 1, by decide +kernel⟩⟩,
  ⟨s0, 5, toUdp [1, 2], by decide +kernel, _, rfl, by decide +kernel, someW (by decide +kernel) ⟨by decide +kernel, by dsimp only; decide +kernel⟩⟩,
  ⟨s0, 5, f6, by decide +kernel, _, rfl, by decide +kernel, someW (by decide +kernel) ⟨by decide +kernel, someW (by decide +kernel) (by decide +kernel)⟩⟩,
  ⟨s1, 5, f7, by decide +kernel, _, rfl, by decide +kernel, someW (by decide +kernel) ⟨by decide +kernel, someW (by decide +kernel) ⟨by decide +kernel, 3, 259, pas2.p.inFlow, {seen := [(7, 5, false)], newest := some 7}, by decide +kernel⟩⟩⟩,
  ⟨pon, 5, f7, by decide +kernel, _, rfl, by decide +kernel, someW (by decide +kernel) ⟨by decide +kernel, by dsimp only; decide +kernel⟩⟩,
  ⟨pon, 5, f8, by decide +kernel, _, rfl, by dsimp only; decide +kernel⟩⟩
end FramesReceived

namespace PortBins
def tf : Frame := {kind := 2, wire := 84, elig := nowInst 0, bytes := List.replicate 60 0, flags := 1}
def s0 : State := { st [(R.PORTp_PTP_LOST_COUNT 5, 2^32-1)] with ptpRx := [(5, [[1], [2]])], tsb := [(5, [(1,2^33+2,3,4),(2,3,4,5)])], egr := [(5, [tf, {tf with kind := 0}, tf])], ptpPos := [(5, 4)] }
/-- States and operands that meet the premises of each clause of PortBins. -/
theorem witness :
  (∃ (s : State) (p : Fin 64) (data : _), s.portExists p = true ∧ leNat (slice data 1 1) % 4 ≤ 2 ∧ 60 ≤ leNat (slice data 0 1) ∧
      leNat (slice data 0 1) ≤ 240 ∧ (data.drop 16).length = leNat (slice data 0 1) ∧ (s.ptpTx p).length < 16) ∧
  (∃ (s : State) (p : Fin 64) (data : _), s.portExists p = true ∧
      (2 < leNat (slice data 1 1) % 4 ∨ leNat (slice data 0 1) < 60 ∨ 240 < leNat (slice data 0 1))) ∧
  (∃ (s : State) (p : Fin 64), s.portExists p = true ∧ ∃ (e : _) (r : _), s.tsBin p = e :: r) ∧
  (∃ (s : State) (p : Fin 64), s.portExists p = true ∧ s.tsBin p = []) ∧
  (∃ (s : State) (p : Fin 64), s.portExists p = true ∧ ∃ b, (b = 0 ∨ b = 1 ∨ b = 2 ∨ b = 3)) :=
  ⟨⟨st [], 0, leBytes 16 (60 + 256) ++ List.replicate 60 7, by decide +kernel⟩,
  ⟨st [], 0, leBytes 16 (60 + 256 * 3) ++ List.replicate 60 7, by decide +kernel⟩,
  ⟨s0, 5, by decide +kernel, (1,2^33+2,3,4), [(2,3,4,5)], by decide +kernel⟩,
  ⟨st [], 0, by decide +kernel⟩,
  ⟨st [], 0, by decide +kernel, 0, by decide +kernel⟩⟩
end PortBins

namespace FramesSent
def fv (n : Nat) (pri : Nat := 0) : Frame := {kind := 0, key := n, wire := 1300 + pri, elig := ⟨1000, 1⟩, seen := true, stream := some n}
def f1 : Frame := {kind := 1, key := 4097, wire := 500, elig := ⟨1000, 1⟩, seen := true}
def f2 : Frame := {kind := 2, key := 0, wire := 84, elig := ⟨1000, 1⟩, seen := true, flags := 1, bytes := List.replicate 12 0 ++ [0x88, 0xF7, 0, 2] ++ List.replicate 60 0}
def lit (l : List (RF × Nat)) : State := st ([(R.PORTp_STATE_STATE 5, 2), (R.EGRp_RATE_KBPS 5, 8000), (R.LANEl_STATE_STATE 5, 2), (R.LANEl_STAT_LINK 5, 1)] ++ l)
def po : List (RF × Nat) := [(R.PORTp_STATE_STATE 5, 2), (R.EGRp_RATE_KBPS 5, 8000)]
def s0 : State := { strm 3 {} (lit []) with egr := [(5, [fv 3])], now := 2000 * unitsPerNs, shapers := [(shPort 5, {credit := 2000 * 2^16, on := true}), (shSvc 4097, {credit := 2000 * 2 ^ 16, on := true}), (shSub 1024, {credit := 5000 * 2 ^ 16, on := true})] }
/-- States and operands that meet the premises of each clause of FramesSent. -/
theorem witness :
  (∃ (s : State) (p : Fin 64), (s.portExists p = false ∨ s.portOn p = false ∨ s.portRaw p = true ∨ s.now < tabGet 0 s.txFree p)) ∧
  (∃ (s : State) (p : Fin 64) (f : _), (s.portExists p = true ∧ s.portOn p = true ∧ s.portRaw p = false ∧ tabGet 0 s.txFree p ≤ s.now ∧
      (∀ g ∈ s.frames p, g.seen = true) ∧ (∀ g ∈ s.frames p, s.reached (g.elig.addNs (s.get (R.EGRp_CLS_STALE_US p) * 1000)) = false)) ∧
      let ok := (queueHeads (s.frames p) []).filter (fun f => s.reached f.elig && s.gateFits p (s.classOf p f) f.wire && s.shaped p f); f ∈ ok ∧
      (∀ g ∈ ok, g ≠ f → f.first (s.classOf p f) (s.classOf p g) g = true ∧ g.first (s.classOf p g) (s.classOf p f) f = false) ∧ s.pcrDue p = s) ∧
  (∃ (s : State), (s.crossed 1000 = false ∨ 300 ∈ s.fired)) ∧
  (∃ (s : State), s.crossed 1000 = true ∧ 300 ∉ s.fired) :=
  ⟨⟨s0, 0, by decide +kernel⟩,
  ⟨s0, 5, fv 3, by decide +kernel, by dsimp only; decide +kernel⟩,
  ⟨st [], by decide +kernel⟩,
  ⟨s0, by decide +kernel⟩⟩
end FramesSent

namespace Gates
def og : Owed := {wait := .gate 5, ring := 0, cq := 0, opc := 0x50, tag := 7, kind := 0, idx := 0}
def s0 : State := { st (ring0 ++ [(R.EGRp_GCTL_ARM 5, 1), (R.EGRp_GCTL_PLEN 5, 3), (R.EGRp_GCLb_i_GATES 5 1 0, 0x7F), (R.EGRp_TAKE_L_NS 5, 100)]) with gates := [(5, {ends := some 1000, armAt := 5, len := 3})], now := 200 * unitsPerNs, owed := [og] }
def c0 : Cmd := mk 0x50 0 0 0 [(16, 6), (18, 1), (19, 5), (24, 0x3F00007F02)]
def c1 : Cmd := mk 0x50 0 0 0 [(16, 6), (18, 1), (19, 5), (24, 0x4000007F02)]
def c2 : Cmd := mk 0x50 0 0 0 [(16, 6), (18, 2), (19, 5), (24, 0x1011)]
def c3 : Cmd := mk 0x50 0 0 0 [(16, 6), (18, 2), (19, 5), (24, 0x104)]
def c4 : Cmd := mk 0x50 0 0 0 [(16, 6), (18, 3), (19, 5), (24, 0)]
def c5 : Cmd := mk 0x50 0 0 0 [(16, 6), (18, 3), (19, 5), (24, 0x100000001)]
def c6 : Cmd := mk 0x50 0 0 0 [(16, 6), (18, 4), (19, 5), (24, 1)]
def c7 : Cmd := mk 0x50 0 0 0 [(16, 6), (18, 4), (19, 5), (24, 0)]
/-- States and operands that meet the premises of each clause of Gates. -/
theorem witness :
  (∃ (s : State) (p : Fin 64) (e : _), (tabGet {} s.gates p : GateS).ends = some e ∧ (e ≤ s.now)) ∧
  (∃ (s : State) (p : Fin 64), (∀ e, (tabGet {} s.gates p : GateS).ends = some e → s.now < e)) ∧
  (∃ (s : State) (p : Fin 64) (e : _), s.takeAt p = some e ∧ (s.flag (R.EGRp_GCTL_PMODE p) = false ∧ e ≤ s.now ∧ s.steady = true)) ∧
  (∃ (s : State) (p : Fin 64), (∀ e, s.takeAt p = some e → s.now < e)) ∧
  (∃ (s : State) (w : Who) (p : Fin 64) (d : Word), s.gate w (A.EGRp_GCTL p) d = true ∧ wordGet d 1 1 = 1 ∧ 4 ≤ p.val) ∧
  (∃ (s : State) (w : Who) (p : Fin 64) (d : Word), s.gate w (A.EGRp_GCTL p) d = true ∧ (wordGet d 1 1 = 0 ∨ p.val < 4) ∧
      s.get (R.EGRp_GCTL_ARM p) = 0 ∧ wordGet d 0 1 = 0) ∧
  (∃ (s : State) (w : Who) (p : Fin 64) (d : Word), s.gate w (A.EGRp_GCTL p) d = true ∧ (wordGet d 1 1 = 0 ∨ p.val < 4) ∧
      s.get (R.EGRp_GCTL_ARM p) = 0 ∧ wordGet d 0 1 = 1 ∧ s.takeEarly p (wordGet d 1 1) = false) ∧
  (∃ (s : State) (w : Who) (p : Fin 64) (d : Word), s.gate w (A.EGRp_GCTL p) d = true ∧ (wordGet d 1 1 = 0 ∨ p.val < 4) ∧
      s.get (R.EGRp_GCTL_ARM p) = 0 ∧ wordGet d 0 1 = 1 ∧ s.takeEarly p (wordGet d 1 1) = true) ∧
  (∃ (s : State) (w : Who) (p : Fin 64) (d : Word), s.gate w (A.EGRp_GCTL p) d = true ∧ (wordGet d 1 1 = 0 ∨ p.val < 4) ∧
      s.get (R.EGRp_GCTL_ARM p) = 1 ∧ wordGet d 0 1 = 0 ∧ wordGet d 1 12 = wordGet (s.reg (A.EGRp_GCTL p)) 1 12) ∧
  (∃ (s : State) (w : Who) (p : Fin 64) (d : Word), s.gate w (A.EGRp_GCTL p) d = true ∧ (wordGet d 1 1 = 0 ∨ p.val < 4) ∧
      s.get (R.EGRp_GCTL_ARM p) = 1 ∧ wordGet d 0 1 = 1 ∧ wordGet d 1 12 ≠ wordGet (s.reg (A.EGRp_GCTL p)) 1 12) ∧
  (∃ (s : State) (c : Cmd) (p : Nat) (v : Nat) (code : Nat), s.accepts c 0x50 0 (some 6) ∧ (dSub c.desc = 0 ∧ dget c.desc 16 0 8 = 6 ∧
      dget c.desc 18 0 8 = code ∧ p = dUnit8 c.desc ∧ p ≤ 63 ∧ s.portExists p = true ∧ v = dValue c.desc ∧
      dClean c.desc [(16, 0, 8), (18, 0, 16), (24, 0, 64)] = true ∧ code = 1 ∧ (v / 2 ^ 32 < 64 ∨ v / 2 ^ 16 % 2 ^ 16 ≠ 0))) ∧
  (∃ (s : State) (c : Cmd) (p : Nat) (v : Nat) (code : Nat), s.accepts c 0x50 0 (some 6) ∧ (dSub c.desc = 0 ∧ dget c.desc 16 0 8 = 6 ∧
      dget c.desc 18 0 8 = code ∧ p = dUnit8 c.desc ∧ p ≤ 63 ∧ s.portExists p = true ∧ v = dValue c.desc ∧
      dClean c.desc [(16, 0, 8), (18, 0, 16), (24, 0, 64)] = true ∧ code = 1 ∧ 64 ≤ v / 2 ^ 32 ∧ v / 2 ^ 16 % 2 ^ 16 = 0 ∧
      s.get (R.EGRp_GCTL_ARM p) = 1)) ∧
  (∃ (s : State) (c : Cmd) (p : Nat) (v : Nat) (code : Nat), s.accepts c 0x50 0 (some 6) ∧ (dSub c.desc = 0 ∧ dget c.desc 16 0 8 = 6 ∧
      dget c.desc 18 0 8 = code ∧ p = dUnit8 c.desc ∧ p ≤ 63 ∧ s.portExists p = true ∧ v = dValue c.desc ∧
      dClean c.desc [(16, 0, 8), (18, 0, 16), (24, 0, 64)] = true ∧ code = 1 ∧ 64 ≤ v / 2 ^ 32 ∧ v / 2 ^ 16 % 2 ^ 16 = 0 ∧
      s.get (R.EGRp_GCTL_ARM p) = 0)) ∧
  (∃ (s : State) (c : Cmd) (p : Nat) (v : Nat) (code : Nat), s.accepts c 0x50 0 (some 6) ∧ (dSub c.desc = 0 ∧ dget c.desc 16 0 8 = 6 ∧
      dget c.desc 18 0 8 = code ∧ p = dUnit8 c.desc ∧ p ≤ 63 ∧ s.portExists p = true ∧ v = dValue c.desc ∧
      dClean c.desc [(16, 0, 8), (18, 0, 16), (24, 0, 64)] = true ∧ code = 2 ∧ (2 ^ 13 ≤ v ∨ natBit v 3 = true ∨ (v % 2 = 1 ∧
      4 ≤ p) ∨ v / 16 % 512 = 0 ∨ 256 < v / 16 % 512))) ∧
  (∃ (s : State) (c : Cmd) (p : Nat) (v : Nat) (code : Nat), s.accepts c 0x50 0 (some 6) ∧ (dSub c.desc = 0 ∧ dget c.desc 16 0 8 = 6 ∧
      dget c.desc 18 0 8 = code ∧ p = dUnit8 c.desc ∧ p ≤ 63 ∧ s.portExists p = true ∧ v = dValue c.desc ∧
      dClean c.desc [(16, 0, 8), (18, 0, 16), (24, 0, 64)] = true ∧ code = 2 ∧ v < 2 ^ 13 ∧ natBit v 3 = false ∧ (v % 2 = 0 ∨ p < 4) ∧
      1 ≤ v / 16 % 512 ∧ v / 16 % 512 ≤ 256 ∧ s.get (R.EGRp_GCTL_ARM p) = 1)) ∧
  (∃ (s : State) (c : Cmd) (p : Nat) (v : Nat) (code : Nat), s.accepts c 0x50 0 (some 6) ∧ (dSub c.desc = 0 ∧ dget c.desc 16 0 8 = 6 ∧
      dget c.desc 18 0 8 = code ∧ p = dUnit8 c.desc ∧ p ≤ 63 ∧ s.portExists p = true ∧ v = dValue c.desc ∧
      dClean c.desc [(16, 0, 8), (18, 0, 16), (24, 0, 64)] = true ∧ code = 2 ∧ v < 2 ^ 13 ∧ natBit v 3 = false ∧ (v % 2 = 0 ∨ p < 4) ∧
      1 ≤ v / 16 % 512 ∧ v / 16 % 512 ≤ 256 ∧ s.get (R.EGRp_GCTL_ARM p) = 0)) ∧
  (∃ (s : State) (c : Cmd) (p : Nat) (v : Nat) (code : Nat), s.accepts c 0x50 0 (some 6) ∧ (dSub c.desc = 0 ∧ dget c.desc 16 0 8 = 6 ∧
      dget c.desc 18 0 8 = code ∧ p = dUnit8 c.desc ∧ p ≤ 63 ∧ s.portExists p = true ∧ v = dValue c.desc ∧
      dClean c.desc [(16, 0, 8), (18, 0, 16), (24, 0, 64)] = true ∧ code = 3) ∧
      let bad := if s.flag (R.EGRp_GCTL_PMODE p) then v ≠ 0 else v * unitsPerNs < s.now + 10000 * unitsPerNs; bad) ∧
  (∃ (s : State) (c : Cmd) (p : Nat) (v : Nat) (code : Nat), s.accepts c 0x50 0 (some 6) ∧ (dSub c.desc = 0 ∧ dget c.desc 16 0 8 = 6 ∧
      dget c.desc 18 0 8 = code ∧ p = dUnit8 c.desc ∧ p ≤ 63 ∧ s.portExists p = true ∧ v = dValue c.desc ∧
      dClean c.desc [(16, 0, 8), (18, 0, 16), (24, 0, 64)] = true ∧ code = 3) ∧
      let bad := if s.flag (R.EGRp_GCTL_PMODE p) then v ≠ 0 else v * unitsPerNs < s.now + 10000 * unitsPerNs; ¬ bad ∧ s.get (R.EGRp_GCTL_ARM p) = 1) ∧
  (∃ (s : State) (c : Cmd) (p : Nat) (v : Nat) (code : Nat), s.accepts c 0x50 0 (some 6) ∧ (dSub c.desc = 0 ∧ dget c.desc 16 0 8 = 6 ∧
      dget c.desc 18 0 8 = code ∧ p = dUnit8 c.desc ∧ p ≤ 63 ∧ s.portExists p = true ∧ v = dValue c.desc ∧
      dClean c.desc [(16, 0, 8), (18, 0, 16), (24, 0, 64)] = true ∧ code = 3) ∧
      let bad := if s.flag (R.EGRp_GCTL_PMODE p) then v ≠ 0 else v * unitsPerNs < s.now + 10000 * unitsPerNs; ¬ bad ∧ s.get (R.EGRp_GCTL_ARM p) = 0) ∧
  (∃ (s : State) (c : Cmd) (p : Nat) (v : Nat) (code : Nat), s.accepts c 0x50 0 (some 6) ∧ (dSub c.desc = 0 ∧ dget c.desc 16 0 8 = 6 ∧
      dget c.desc 18 0 8 = code ∧ p = dUnit8 c.desc ∧ p ≤ 63 ∧ s.portExists p = true ∧ v = dValue c.desc ∧
      dClean c.desc [(16, 0, 8), (18, 0, 16), (24, 0, 64)] = true ∧ code = 4 ∧ v ≠ 0)) ∧
  (∃ (s : State) (c : Cmd) (p : Nat) (v : Nat) (code : Nat), s.accepts c 0x50 0 (some 6) ∧ (dSub c.desc = 0 ∧ dget c.desc 16 0 8 = 6 ∧
      dget c.desc 18 0 8 = code ∧ p = dUnit8 c.desc ∧ p ≤ 63 ∧ s.portExists p = true ∧ v = dValue c.desc ∧
      dClean c.desc [(16, 0, 8), (18, 0, 16), (24, 0, 64)] = true ∧ code = 4 ∧ v = 0)) :=
  ⟨⟨s0, 5, someW (by decide +kernel) (by decide +kernel)⟩,
  ⟨st ring0, 0, allSome (by decide +kernel)⟩,
  ⟨s0, 5, someW (by decide +kernel) (by decide +kernel)⟩,
  ⟨st ring0, 0, allSome (by decide +kernel)⟩,
  ⟨st ring0, Who.cox 0, 5, 0x13#32, by decide +kernel⟩,
  ⟨st ring0, Who.cox 0, 0, 0x10#32, by decide +kernel⟩,
  ⟨st ring0, Who.cox 0, 0, 0x13#32, by decide +kernel⟩,
  ⟨st ring0, Who.cox 0, 0, 0x11#32, by decide +kernel⟩,
  ⟨s0, Who.cox 0, 5, 0x30#32, by decide +kernel⟩,
  ⟨s0, Who.cox 0, 5, 0x11#32, by decide +kernel⟩,
  ⟨st ring0, c0, 5, 0x3F00007F02, 1, acc (by decide +kernel), by decide +kernel⟩,
  ⟨s0, c1, 5, 0x4000007F02, 1, acc (by decide +kernel), by decide +kernel⟩,
  ⟨st ring0, c1, 5, 0x4000007F02, 1, acc (by decide +kernel), by decide +kernel⟩,
  ⟨st ring0, c2, 5, 0x1011, 2, acc (by decide +kernel), by decide +kernel⟩,
  ⟨s0, c3, 5, 0x104, 2, acc (by decide +kernel), by decide +kernel⟩,
  ⟨st ring0, c3, 5, 0x104, 2, acc (by decide +kernel), by decide +kernel⟩,
  ⟨st ring0, c4, 5, 0, 3, acc (by decide +kernel), by decide +kernel, by dsimp only; decide +kernel⟩,
  ⟨s0, c5, 5, 0x100000001, 3, acc (by decide +kernel), by decide +kernel, by dsimp only; decide +kernel⟩,
  ⟨st ring0, c5, 5, 0x100000001, 3, acc (by decide +kernel), by decide +kernel, by dsimp only; decide +kernel⟩,
  ⟨st ring0, c6, 5, 1, 4, acc (by decide +kernel), by decide +kernel⟩,
  ⟨st ring0, c7, 5, 0, 4, acc (by decide +kernel), by decide +kernel⟩⟩
end Gates

namespace CellarQueues
def rd (a : Nat) : CelReq := {addr := a, write := false, clsA := false, hint := true, data := 5}
def wr (a : Nat) : CelReq := {addr := a, write := true, clsA := true, hint := true, data := BitVec.ofNat 256 (2^192*7+9)}
def qq (r : CelReq) (t : Nat := 0) : QReq := {req := r, at_ := t, no := 0}
def srv : List (RF × Nat) := [(R.CEL_CTL_TRAFFIC_EN 0, 1), (R.CEL_STAT_PLL_LOCK 0, 1), (R.CEL_STAT_SREF 0, 0)]
def s0 : State := { st [] with pcs := [(2, {reads := List.replicate 32 (qq (rd 0x220)), writes := [qq (wr 0x200)]})] }
def s1 : State := { st srv with pcs := [(2, {reads := [qq (rd 0x200)]})], cyc := 100 }
def s2 : State := { st srv with pcs := [(2, {writes := [qq (wr 0x200) 4], rows := [(0, 3), (1, 399)]})], cyc := 100 }
def s3 : State := { st srv with pcs := [(2, {idle := 1})], cyc := 100000 }
def s4 : State := { st srv with pcs := [(2, {writes := [qq (wr 0x200) 4], down := true})], cyc := 100 }
/-- States and operands that meet the premises of each clause of CellarQueues. -/
theorem witness :
  (∃ (s : State) (k : Fin 2) (p : Fin 32) (c : PcS), c = s.pc k p ∧ ∃ (r : CelReq), s.stackServes k = false ∧ r.addr < s.cellarSize ∧
      (s.celPlace r.addr).1 = k.val ∧ (s.celPlace r.addr).2.1 = p.val ∧ r.write = false ∧ c.reads.length < 32) ∧
  (∃ (s : State) (k : Fin 2) (p : Fin 32) (c : PcS), c = s.pc k p ∧ ∃ (r : CelReq), (s.stackServes k = false ∧ r.addr < s.cellarSize ∧
      (s.celPlace r.addr).1 = k.val ∧ (s.celPlace r.addr).2.1 = p.val) ∧
      let q : QReq := { req := { r with addr := r.addr / 32 * 32 }, at_ := s.lt, no := c.seq }; r.write = true ∧
      (c.writes.any (fun w => w.req.addr == q.req.addr) = false) ∧ c.writes.length < 64) ∧
  (∃ (s : State) (k : Fin 2) (p : Fin 32) (c : PcS), c = s.pc k p ∧ ∃ (r : CelReq), (s.stackServes k = false ∧ r.addr < s.cellarSize ∧
      (s.celPlace r.addr).1 = k.val ∧ (s.celPlace r.addr).2.1 = p.val) ∧
      let q : QReq := { req := { r with addr := r.addr / 32 * 32 }, at_ := s.lt, no := c.seq }; r.write = true ∧
      (c.writes.any (fun w => w.req.addr == q.req.addr) = true)) ∧
  (∃ (s : State) (k : Fin 2) (p : Fin 32) (c : PcS), c = s.pc k p ∧ ∃ (r : CelReq), (s.stackServes k = false ∧ r.addr < s.cellarSize ∧
      (s.celPlace r.addr).1 = k.val ∧ (s.celPlace r.addr).2.1 = p.val) ∧
      let q : QReq := { req := { r with addr := r.addr / 32 * 32 }, at_ := s.lt, no := c.seq }; ((r.write = false ∧
      32 ≤ c.reads.length) ∨ (r.write = true ∧ 64 ≤ c.writes.length ∧ c.writes.any (fun w => w.req.addr == q.req.addr) = false))) ∧
  (∃ (s : State) (k : Fin 2) (p : Fin 32) (c : PcS), c = s.pc k p ∧ ∃ q, s.stackServes k = true ∧ c.down = false ∧ c.ready ≤ s.lt ∧ c.held = [] ∧
      c.drain = false ∧ c.writes.length < 48 ∧ s.pcPick k p = some q ∧ q.req.write = false) ∧
  (∃ (s : State) (k : Fin 2) (p : Fin 32) (c : PcS), c = s.pc k p ∧ ∃ q, s.stackServes k = true ∧ c.down = false ∧ c.ready ≤ s.lt ∧ c.held = [] ∧
      c.drain = false ∧ c.writes.length < 48 ∧ s.pcPick k p = some q ∧ q.req.write = true ∧
      s.fenced (s.celPlace q.req.addr).1 (s.celPlace q.req.addr).2.1 = false ∧ s.flag (R.ECC_FLIPf_CTL_ARM 0) = false) ∧
  (∃ (s : State) (k : Fin 2) (p : Fin 32) (c : PcS), c = s.pc k p ∧ let n := s.get (R.CEL_PD_IDLE_CYC k); c.reads = [] ∧ c.writes = [] ∧
      c.rows = [] ∧ n ≠ 0 ∧ c.idle + 2 * n ≤ s.lt) ∧
  (∃ (s : State) (k : Fin 2) (p : Fin 32) (c : PcS), c = s.pc k p ∧
      let n := s.get (R.CEL_PD_IDLE_CYC k); (c.reads ≠ [] ∨ c.writes ≠ [] ∨ c.rows ≠ [] ∨ n = 0 ∨ s.lt < c.idle + 2 * n)) ∧
  (∃ (s : State) (k : Fin 2) (p : Fin 32) (c : PcS), c = s.pc k p ∧ c.down = true ∧ (c.reads ≠ [] ∨ c.writes ≠ [])) ∧
  (∃ (s : State) (k : Fin 2) (p : Fin 32) (c : PcS), c = s.pc k p ∧ c.down = false) ∧
  (∃ (s : State) (k : Fin 2) (p : Fin 32) (c : PcS), c = s.pc k p) :=
  ⟨⟨st [], 0, 2, _, rfl, rd 0x21F, by decide +kernel⟩,
  ⟨st [], 0, 2, _, rfl, wr 0x200, by decide +kernel, by dsimp only; decide +kernel⟩,
  ⟨s0, 0, 2, _, rfl, wr 0x200, by decide +kernel, by dsimp only; decide +kernel⟩,
  ⟨s0, 0, 2, _, rfl, rd 0x21F, by decide +kernel, by dsimp only; decide +kernel⟩,
  ⟨s1, 0, 2, _, rfl, qq (rd 0x200), by decide +kernel⟩,
  ⟨s2, 0, 2, _, rfl, qq (wr 0x200) 4, by decide +kernel⟩,
  ⟨s3, 0, 0, _, rfl, by dsimp only; decide +kernel⟩,
  ⟨s1, 0, 0, _, rfl, by dsimp only; decide +kernel⟩,
  ⟨s4, 0, 2, _, rfl, by decide +kernel⟩,
  ⟨s1, 0, 0, _, rfl, by decide +kernel⟩,
  ⟨s1, 0, 0, _, rfl⟩⟩
end CellarQueues

namespace CellarRefreshes
def s0 : State := { st (cel01 ++ [(R.CEL_CTL_RECAL_EN 0, 1), (R.CEL_CTL_RECAL_EN 1, 1), (R.CEL_STAT_PLL_LOCK 0, 1)]) with cyc := 1000, stackTab := [(0, {refNext := some 0, band := 1}), (1, {refNext := some 4000, band := 0})], pcs := [(3, {rows := [(1, 2)]}), (35, {rows := [(1, 2)]})] }
def s1 : State := { st (cel01 ++ [(R.CEL_STAT_REP_PEND 0, 1), (R.CEL_STAT_REP_PEND 1, 1), (R.CEL_STAT_PLL_LOCK 1, 1), (R.CEL_REPAIRp_SP0_EN 0 3, 1), (R.CEL_REPAIRp_SP1_EN 0 3, 1)]) with cyc := 1000, stackTab := [(0, {refNext := some 0, band := 2, repair := [(false, 3, 4), (true, 1, 2)]}), (1, {refNext := some 3000, band := 0})], pcs := [(3, {rows := [(1, 2)]}), (35, {rows := [(1, 2)]})] }
def s2 : State := { st (cel01 ++ [(R.CEL_CTL_RECAL_EN 0, 1)]) with stackTab := [(0, {refNext := some 100, recal := some 3})] }
/-- States and operands that meet the premises of each clause of CellarRefreshes. -/
theorem witness :
  (∃ (s : State) (k : Fin 2) (r : _), (s.stack k).refNext = some r ∧ (r ≤ s.lt ∧ (s.stack k).recal = none ∧ s.get (R.CEL_STAT_REP_PEND k) = 0)) ∧
  (∃ (s : State) (k : Fin 2) (r : _), (s.stack k).refNext = some r ∧ (r ≤ s.lt ∧ (s.stack k).recal = none ∧ s.get (R.CEL_STAT_REP_PEND k) = 1)) ∧
  (∃ (s : State) (k : Fin 2), (∀ r, (s.stack k).refNext = some r → s.lt < r)) ∧
  (∃ (s : State) (k : Fin 2), (s.part = .fa ∨ k.val = 0)) ∧
  (∃ (s : State) (k : Fin 2), s.get (R.CEL_CTL_RECAL_EN k) = 1 ∧ (s.stack k).recal = none ∧ (s.stack k).refNext ≠ none) ∧
  (∃ (s : State) (k : Fin 2), (s.get (R.CEL_CTL_RECAL_EN k) = 0 ∨ (s.stack k).recal ≠ none)) ∧
  (∃ (s : State) (k : Fin 2), s.get (R.CEL_CTL_TRAFFIC_EN k) = 1 ∧ s.get (R.CEL_STAT_PLL_LOCK k) = 1) ∧
  (∃ (s : State) (k : Fin 2), (s.get (R.CEL_CTL_TRAFFIC_EN k) = 0 ∨ s.get (R.CEL_STAT_PLL_LOCK k) = 0)) :=
  ⟨⟨s0, 0, someW (by decide +kernel) (by decide +kernel)⟩,
  ⟨s1, 0, someW (by decide +kernel) (by decide +kernel)⟩,
  ⟨st [], 0, allSome (by decide +kernel)⟩,
  ⟨st [], 0, by decide +kernel⟩,
  ⟨s0, 0, by decide +kernel⟩,
  ⟨s2, 0, by decide +kernel⟩,
  ⟨s0, 0, by decide +kernel⟩,
  ⟨st [], 0, by decide +kernel⟩⟩
end CellarRefreshes

namespace CellarControl
def s0 : State := st (ring0 ++ [(R.CEL_CTL_TRAFFIC_EN 0, 1), (R.CEL_REPAIRp_SP0_EN 0 5, 1), (R.CEL_REPAIRp_SP0_LANE 0 5, 9), (R.CEL_CAREPc_EN 0 5, 1)])
def s1 : State := st (ring0 ++ [(R.CEL_TRN_STAT_BUSY 0, 1), (R.CEL_TRN_CTL_TGT 0, 2), (R.CEL_TRN_ERRd_COUNT 1 37, 9)])
def s2 : State := st (ring0 ++ [(R.CEL_CTL_TRAFFIC_EN 0, 1), (R.CEL_REPAIRp_SP0_EN 0 5, 1), (R.CEL_REPAIRp_SP0_LANE 0 5, 9), (R.CEL_REPAIRp_SP1_EN 0 5, 1), (R.CEL_CTL_TRAFFIC_EN 1, 1), (R.STRMn_STATE_STATE 5, 2)])
def c0 : Cmd := mk 0x50 0 0 0 [(16, 2), (18, 1), (19, 0), (24, 0x800)]
def c1 : Cmd := mk 0x50 0 0 0 [(16, 2), (18, 1), (19, 0), (24, 0x125)]
def c2 : Cmd := mk 0x50 0 0 0 [(16, 2), (18, 2), (19, 1), (24, 2)]
def c3 : Cmd := mk 0x50 0 0 0 [(16, 2), (18, 2), (19, 0), (24, 1)]
def c4 : Cmd := mk 0x50 0 0 0 [(16, 2), (18, 3), (19, 1), (24, 65536)]
def c5 : Cmd := mk 0x50 0 0 0 [(16, 2), (18, 3), (19, 1), (24, 65535)]
/-- States and operands that meet the premises of each clause of CellarControl. -/
theorem witness :
  (∃ (s : State) (w : Who) (k : Fin 2) (d : Word), s.gate w (A.CEL_TRN_CTL k) d = true ∧ wordGet d 0 1 = 1 ∧ s.get (R.CEL_CTL_TRAFFIC_EN k) = 0 ∧
      s.get (R.CEL_TRN_STAT_BUSY k) = 0) ∧
  (∃ (s : State) (w : Who) (k : Fin 2) (d : Word), s.gate w (A.CEL_TRN_CTL k) d = true ∧ wordGet d 0 1 = 1 ∧
      (s.get (R.CEL_CTL_TRAFFIC_EN k) = 1 ∨ s.get (R.CEL_TRN_STAT_BUSY k) = 1)) ∧
  (∃ (s : State) (k : Fin 2), s.get (R.CEL_TRN_STAT_BUSY k) = 1) ∧
  (∃ (s : State) (k : Fin 2), s.get (R.CEL_TRN_STAT_BUSY k) = 0) ∧
  (∃ (s : State) (w : Who) (k : Fin 2) (d : Word), s.gate w (A.CEL_MRW k) d = true ∧ wordGet d 31 1 = 1 ∧ s.get (R.CEL_CTL_TRAFFIC_EN k) = 0) ∧
  (∃ (s : State) (w : Who) (k : Fin 2) (d : Word), s.gate w (A.CEL_MRW k) d = true ∧ wordGet d 31 1 = 1 ∧ s.get (R.CEL_CTL_TRAFFIC_EN k) = 1) ∧
  (∃ (s : State) (w : Who) (k : Fin 2) (d : Word) (i : Fin 32), s.gate w (A.CEL_REPAIRp k i) d = true ∧ s.repairBad k i d = true) ∧
  (∃ (s : State) (w : Who) (k : Fin 2) (d : Word) (i : Fin 32), s.gate w (A.CEL_REPAIRp k i) d = true ∧ s.repairBad k i d = false) ∧
  (∃ (s : State) (w : Who) (k : Fin 2) (d : Word) (i : Fin 32), i.val < 16 ∧ s.gate w (A.CEL_CAREPc k i) d = true ∧ s.get (R.CEL_CAREPc_EN k i) = 1 ∧
      wordGet d 5 1 = 0) ∧
  (∃ (s : State) (w : Who) (k : Fin 2) (d : Word) (i : Fin 32), i.val < 16 ∧ s.gate w (A.CEL_CAREPc k i) d = true ∧
      (s.get (R.CEL_CAREPc_EN k i) = 0 ∨ wordGet d 5 1 = 1)) ∧
  (∃ (s : State) (w : Who) (k : Fin 2) (d : Word), s.gate w (A.CEL_CTL k) d = true ∧ wordGet d 0 1 = 0 ∧ s.get (R.CEL_CTL_TRAFFIC_EN k) = 1 ∧
      s.streamsLive = true) ∧
  (∃ (s : State) (w : Who) (k : Fin 2) (d : Word), s.gate w (A.CEL_CTL k) d = true ∧
      (wordGet d 0 1 = 1 ∨ s.get (R.CEL_CTL_TRAFFIC_EN k) = 0 ∨ s.streamsLive = false)) ∧
  (∃ (s : State) (c : Cmd) (k : Nat) (v : Nat) (code : Nat), s.accepts c 0x50 0 (some 2) ∧ (dSub c.desc = 0 ∧ dget c.desc 16 0 8 = 2 ∧
      dget c.desc 18 0 8 = code ∧ k = dUnit8 c.desc ∧ k ≤ 1 ∧ s.celUnit c = true ∧ v = dValue c.desc ∧
      dClean c.desc [(16, 0, 8), (18, 0, 16), (24, 0, 64)] = true) ∧ let p := v % 32; let lane := v / 32 % 64; code = 1 ∧
      (2 ^ 11 ≤ v ∨ 35 < lane ∨ s.freeSpare k p = none)) ∧
  (∃ (s : State) (c : Cmd) (k : Nat) (v : Nat) (code : Nat), s.accepts c 0x50 0 (some 2) ∧ (dSub c.desc = 0 ∧ dget c.desc 16 0 8 = 2 ∧
      dget c.desc 18 0 8 = code ∧ k = dUnit8 c.desc ∧ k ≤ 1 ∧ s.celUnit c = true ∧ v = dValue c.desc ∧
      dClean c.desc [(16, 0, 8), (18, 0, 16), (24, 0, 64)] = true) ∧ let p := v % 32; let lane := v / 32 % 64; code = 1 ∧ ∃ i, v < 2 ^ 11 ∧
      lane ≤ 35 ∧ s.freeSpare k p = some i ∧ s.laneReplaced k p lane = false) ∧
  (∃ (s : State) (c : Cmd) (k : Nat) (v : Nat) (code : Nat), s.accepts c 0x50 0 (some 2) ∧ (dSub c.desc = 0 ∧ dget c.desc 16 0 8 = 2 ∧
      dget c.desc 18 0 8 = code ∧ k = dUnit8 c.desc ∧ k ≤ 1 ∧ s.celUnit c = true ∧ v = dValue c.desc ∧
      dClean c.desc [(16, 0, 8), (18, 0, 16), (24, 0, 64)] = true) ∧ let p := v % 32; let lane := v / 32 % 64; code = 1 ∧ ∃ i, v < 2 ^ 11 ∧
      lane ≤ 35 ∧ s.freeSpare k p = some i ∧ s.laneReplaced k p lane = true) ∧
  (∃ (s : State) (c : Cmd) (k : Nat) (v : Nat) (code : Nat), s.accepts c 0x50 0 (some 2) ∧ (dSub c.desc = 0 ∧ dget c.desc 16 0 8 = 2 ∧
      dget c.desc 18 0 8 = code ∧ k = dUnit8 c.desc ∧ k ≤ 1 ∧ s.celUnit c = true ∧ v = dValue c.desc ∧
      dClean c.desc [(16, 0, 8), (18, 0, 16), (24, 0, 64)] = true ∧ code = 2 ∧ 1 < v)) ∧
  (∃ (s : State) (c : Cmd) (k : Nat) (v : Nat) (code : Nat), s.accepts c 0x50 0 (some 2) ∧ (dSub c.desc = 0 ∧ dget c.desc 16 0 8 = 2 ∧
      dget c.desc 18 0 8 = code ∧ k = dUnit8 c.desc ∧ k ≤ 1 ∧ s.celUnit c = true ∧ v = dValue c.desc ∧
      dClean c.desc [(16, 0, 8), (18, 0, 16), (24, 0, 64)] = true ∧ code = 2 ∧ v ≤ 1)) ∧
  (∃ (s : State) (c : Cmd) (k : Nat) (v : Nat) (code : Nat), s.accepts c 0x50 0 (some 2) ∧ (dSub c.desc = 0 ∧ dget c.desc 16 0 8 = 2 ∧
      dget c.desc 18 0 8 = code ∧ k = dUnit8 c.desc ∧ k ≤ 1 ∧ s.celUnit c = true ∧ v = dValue c.desc ∧
      dClean c.desc [(16, 0, 8), (18, 0, 16), (24, 0, 64)] = true ∧ code = 3 ∧ (v = 0 ∨ 65535 < v))) ∧
  (∃ (s : State) (c : Cmd) (k : Nat) (v : Nat) (code : Nat), s.accepts c 0x50 0 (some 2) ∧ (dSub c.desc = 0 ∧ dget c.desc 16 0 8 = 2 ∧
      dget c.desc 18 0 8 = code ∧ k = dUnit8 c.desc ∧ k ≤ 1 ∧ s.celUnit c = true ∧ v = dValue c.desc ∧
      dClean c.desc [(16, 0, 8), (18, 0, 16), (24, 0, 64)] = true ∧ code = 3 ∧ 1 ≤ v ∧ v ≤ 65535)) :=
  ⟨⟨st ring0, Who.cox 0, 0, 0x1#32, by decide +kernel⟩,
  ⟨s0, Who.cox 0, 0, 0x1#32, by decide +kernel⟩,
  ⟨s1, 0, by decide +kernel⟩,
  ⟨st ring0, 0, by decide +kernel⟩,
  ⟨st ring0, Who.cox 0, 0, 0x80010203#32, by decide +kernel⟩,
  ⟨s0, Who.cox 0, 0, 0x80010203#32, by decide +kernel⟩,
  ⟨st ring0, Who.cox 0, 0, 0x4949#32, 0, by decide +kernel⟩,
  ⟨st ring0, Who.cox 0, 0, 0x0#32, 0, by decide +kernel⟩,
  ⟨s0, Who.cox 0, 0, 0x0#32, 5, by decide +kernel⟩,
  ⟨st ring0, Who.cox 0, 0, 0x0#32, 0, by decide +kernel⟩,
  ⟨s2, Who.cox 0, 0, 0x0#32, by decide +kernel⟩,
  ⟨st ring0, Who.cox 0, 0, 0x0#32, by decide +kernel⟩,
  ⟨st ring0, c0, 0, 0x800, 1, acc (by decide +kernel), by decide +kernel, by dsimp only; decide +kernel⟩,
  ⟨st ring0, c1, 0, 0x125, 1, acc (by decide +kernel), by decide +kernel, by decide +kernel, 0, by decide +kernel⟩,
  ⟨s0, c1, 0, 0x125, 1, acc (by decide +kernel), by decide +kernel, by decide +kernel, 1, by decide +kernel⟩,
  ⟨st ring0, c2, 1, 2, 2, acc (by decide +kernel), by decide +kernel⟩,
  ⟨st ring0, c3, 0, 1, 2, acc (by decide +kernel), by decide +kernel⟩,
  ⟨st ring0, c4, 1, 65536, 3, acc (by decide +kernel), by decide +kernel⟩,
  ⟨st ring0, c5, 1, 65535, 3, acc (by decide +kernel), by decide +kernel⟩⟩
end CellarControl

namespace ArrayReads
def kc (f a c d : Nat) : Nat := keelCheck f a c d
def run5 : RunS := {job := {stream := 5, pic := 0, row := 0, reg := 0, nCtu := 2}, home := 0, charged := 2}
def busy1 : List (RF × Nat) := [(R.SCRUB_STAT_BUSY, 1), (R.SCRUB_CTL_EN, 1), (R.SCRUB_RNGr_BASE_UNITS 0, 2^21), (R.SCRUB_RNGr_SIZE_UNITS 0, 1), (R.SCRUB_POS_L_VALUE, 16), (R.SCRUB_POS_H_VALUE, 32)]
def aA : Nat := 2^37 + 16
def ldr : List (RF × Nat) := [(R.CREWc_LDR_SLOTs_USED 0 0, 1)]
def s0 : State := { st busy1 with mem := [(famKey 1 aA, some [(5, kc 1 aA 0 5)])] }
def s1 : State := { st ldr with mem := [(famKey 2 32, some [(4, kc 2 32 0 5)])], runs := [(7, some run5)] }
def s2 : State := { st busy1 with mem := [(famKey 1 aA, some [(5, Nat.xor (kc 1 aA 0 5) 2)])] }
def s3 : State := { st busy1 with mem := [(famKey 1 aA, some [(5, Nat.xor (kc 1 aA 0 5) 3)])] }
def s4 : State := { st busy1 with mem := [(famKey 1 aA, some [(5, Nat.xor (kc 1 aA 0 5) 0x1FF)])] }
def s5 : State := { st ldr with mem := [(famKey 2 32, some [(5, Nat.xor (kc 2 32 0 5) 0x1FF)])], runs := [(7, some run5)] }
/-- States and operands that meet the premises of each clause of ArrayReads. -/
theorem witness :
  (∃ (s : State) (fam : Fin 5) (addr : Nat) (a : Nat), a = addr / granSpan fam * granSpan fam ∧ (s.arrHolds fam a = true ∧
      (∀ r ∈ s.injRecs, r.fam ≠ fam.val ∨ r.addr ≠ a) ∧ (fam.val = 0 → s.fenced (s.celPlace a).1 (s.celPlace a).2.1 = false) ∧
      (∀ e ∈ (s.gran fam a).zip (List.range (keelN fam)), syndrome fam a e.2 e.1 = 0)) ∧ ∃ (r : Reader), r ≠ .scrub) ∧
  (∃ (s : State) (fam : Fin 5) (addr : Nat) (a : Nat), a = addr / granSpan fam * granSpan fam ∧ s.arrHolds fam a = true ∧
      (∀ r ∈ s.injRecs, r.fam ≠ fam.val ∨ r.addr ≠ a) ∧ (fam.val = 0 → s.fenced (s.celPlace a).1 (s.celPlace a).2.1 = false) ∧
      (∀ e ∈ (s.gran fam a).zip (List.range (keelN fam)), syndrome fam a e.2 e.1 = 0)) ∧
  (∃ (s : State) (fam : Fin 5) (addr : Nat) (a : Nat), a = addr / granSpan fam * granSpan fam ∧ s.arrHolds fam a = true ∧
      (∀ r ∈ s.injRecs, r.fam ≠ fam.val ∨ r.addr ≠ a) ∧ (fam.val = 0 → s.fenced (s.celPlace a).1 (s.celPlace a).2.1 = false) ∧
      (∀ e ∈ (s.gran fam a).zip (List.range (keelN fam)), syndrome fam a e.2 e.1 = 0) ∧ s.get R.SCRUB_STAT_BUSY = 1 ∧ a = s.scrubPos ∧
      fam.val = s.scrubFam a ∧ s.get R.SCRUB_STAT_RANGE < 8 ∧
      a + granSpan fam < (s.scrubRange (s.get R.SCRUB_STAT_RANGE)).1 + (s.scrubRange (s.get R.SCRUB_STAT_RANGE)).2) ∧
  (∃ (s : State) (fam : Fin 5) (addr : Nat) (a : Nat), a = addr / granSpan fam * granSpan fam ∧ s.arrHolds fam a = true ∧
      (∀ r ∈ s.injRecs, r.fam ≠ fam.val ∨ r.addr ≠ a) ∧ (fam.val = 0 → s.fenced (s.celPlace a).1 (s.celPlace a).2.1 = false) ∧
      s.get R.SCRUB_STAT_BUSY = 0) ∧
  (∃ (s : State) (fam : Fin 5) (addr : Nat) (a : Nat), a = addr / granSpan fam * granSpan fam ∧ (s.arrHolds fam a = true ∧
      (∀ r ∈ s.injRecs, r.fam ≠ fam.val ∨ r.addr ≠ a) ∧ (fam.val = 0 → s.fenced (s.celPlace a).1 (s.celPlace a).2.1 = false)) ∧
      ∃ (d : _) (c : _), (fam.val ≠ 0 ∧ s.gran fam a = [(d, c)]) ∧ let y := syndOf fam (syndrome fam a 0 (d, c)); y.fixed = true) ∧
  (∃ (s : State) (fam : Fin 5) (addr : Nat) (a : Nat), a = addr / granSpan fam * granSpan fam ∧ (s.arrHolds fam a = true ∧
      (∀ r ∈ s.injRecs, r.fam ≠ fam.val ∨ r.addr ≠ a) ∧ (fam.val = 0 → s.fenced (s.celPlace a).1 (s.celPlace a).2.1 = false)) ∧
      ∃ (d : _) (c : _), (fam.val ≠ 0 ∧ s.gran fam a = [(d, c)]) ∧ let y := syndOf fam (syndrome fam a 0 (d, c)); y = .bad) ∧
  (∃ (s : State) (fam : Fin 5) (addr : Nat) (a : Nat), a = addr / granSpan fam * granSpan fam ∧ (s.arrHolds fam a = true ∧
      (∀ r ∈ s.injRecs, r.fam ≠ fam.val ∨ r.addr ≠ a) ∧ (fam.val = 0 → s.fenced (s.celPlace a).1 (s.celPlace a).2.1 = false)) ∧
      ∃ (d : _) (c : _), (fam.val ≠ 0 ∧ s.gran fam a = [(d, c)]) ∧ let y := syndOf fam (syndrome fam a 0 (d, c)); y = .poison) ∧
  (∃ (s : State) (fam : Fin 5) (addr : Nat) (a : Nat), a = addr / granSpan fam * granSpan fam ∧ (s.arrHolds fam a = true ∧
      (∀ r ∈ s.injRecs, r.fam ≠ fam.val ∨ r.addr ≠ a) ∧ (fam.val = 0 → s.fenced (s.celPlace a).1 (s.celPlace a).2.1 = false)) ∧
      ∃ (d : _) (c : _), (fam.val ≠ 0 ∧ s.gran fam a = [(d, c)]) ∧
      let y := syndOf fam (syndrome fam a 0 (d, c)); ∃ (u : Fin 144) (r : _), y = .poison ∧ s.run u = some r) ∧
  (∃ (s : State) (fam : Fin 5) (addr : Nat) (a : Nat), a = addr / granSpan fam * granSpan fam ∧ (s.arrHolds fam a = true ∧
      (∀ r ∈ s.injRecs, r.fam ≠ fam.val ∨ r.addr ≠ a) ∧ (fam.val = 0 → s.fenced (s.celPlace a).1 (s.celPlace a).2.1 = false)) ∧
      ∃ (d : _) (c : _), (fam.val ≠ 0 ∧ s.gran fam a = [(d, c)]) ∧ let y := syndOf fam (syndrome fam a 0 (d, c)); y.fixed = true ∧ fam.val = 2 ∧
      s.flag (R.CREWc_LDR_SLOTs_USED (a / 2 ^ 20) (a % 2 ^ 20 / 16384)) = true) :=
  ⟨⟨s0, 1, aA, _, rfl, by decide +kernel, .plain, by decide +kernel⟩,
  ⟨s0, 1, aA, _, rfl, by decide +kernel⟩,
  ⟨s0, 1, aA, _, rfl, by decide +kernel⟩,
  ⟨s1, 0, 33, _, rfl, by decide +kernel⟩,
  ⟨s2, 1, aA, _, rfl, by decide +kernel, 5, Nat.xor (kc 1 aA 0 5) 2, by decide +kernel, by dsimp only; decide +kernel⟩,
  ⟨s3, 1, aA, _, rfl, by decide +kernel, 5, Nat.xor (kc 1 aA 0 5) 3, by decide +kernel, by dsimp only; decide +kernel⟩,
  ⟨s4, 1, aA, _, rfl, by decide +kernel, 5, Nat.xor (kc 1 aA 0 5) 0x1FF, by decide +kernel, by dsimp only; decide +kernel⟩,
  ⟨s5, 2, 33, _, rfl, by decide +kernel, 5, Nat.xor (kc 2 32 0 5) 0x1FF, by decide +kernel, 7, run5, by decide +kernel⟩,
  ⟨s1, 2, 33, _, rfl, by decide +kernel, 4, Nat.xor (kc 1 aA 0 5) 3, by decide +kernel, by dsimp only; decide +kernel⟩⟩
end ArrayReads

namespace Scrubber
def s0 : State := st (ring0 ++ [(R.SCRUB_RNGr_BASE_UNITS 0, 2^21-1), (R.SCRUB_RNGr_SIZE_UNITS 0, 1)])
def s1 : State := st (ring0 ++ [(R.SCRUB_CTL_EN, 1), (R.SCRUB_RNGr_BASE_UNITS 1, 2^21), (R.SCRUB_RNGr_SIZE_UNITS 1, 1)])
def c0 : Cmd := mk 0x50 0 0 0 [(16, 3), (18, 1), (24, 63)]
def c1 : Cmd := mk 0x50 0 0 0 [(16, 3), (18, 1), (24, 1000000)]
def c2 : Cmd := mk 0x50 0 0 0 [(16, 3), (18, 2), (24, 2)]
def c3 : Cmd := mk 0x50 0 0 0 [(16, 3), (18, 2), (24, 1)]
/-- States and operands that meet the premises of each clause of Scrubber. -/
theorem witness :
  (∃ (s : State) (w : Who) (d : Word), s.gate w A.SCRUB_CTL d = true ∧ wordGet d 0 1 = 0) ∧
  (∃ (s : State) (w : Who) (d : Word), s.gate w A.SCRUB_CTL d = true ∧ wordGet d 0 1 = 1 ∧ s.get R.SCRUB_CTL_EN = 0 ∧ s.scrubLegal = false) ∧
  (∃ (s : State) (w : Who) (d : Word), s.gate w A.SCRUB_CTL d = true ∧ wordGet d 0 1 = 1 ∧ s.get R.SCRUB_CTL_EN = 0 ∧ s.scrubLegal = true) ∧
  (∃ (s : State) (w : Who) (d : Word), s.gate w A.SCRUB_CTL d = true ∧ wordGet d 0 1 = 1 ∧ s.get R.SCRUB_CTL_EN = 1) ∧
  (∃ (s : State), s.get R.SCRUB_CTL_EN = 1 ∧ s.get R.CLKPWR_SLEEP_SCRUB_HOLD = 0 ∧ s.scrubFrom 0 ≠ none) ∧
  (∃ (s : State), (s.get R.SCRUB_CTL_EN = 0 ∨ s.get R.CLKPWR_SLEEP_SCRUB_HOLD = 1)) ∧
  (∃ (s : State) (c : Cmd) (v : Nat) (code : Nat), s.accepts c 0x50 0 (some 3) ∧ (dSub c.desc = 0 ∧ dget c.desc 16 0 8 = 3 ∧
      dget c.desc 18 0 8 = code ∧ dUnit8 c.desc = 0 ∧ v = dValue c.desc ∧ dClean c.desc [(16, 0, 8), (18, 0, 16), (24, 0, 64)] = true ∧ code = 1 ∧
      (v < 64 ∨ 1000000 < v))) ∧
  (∃ (s : State) (c : Cmd) (v : Nat) (code : Nat), s.accepts c 0x50 0 (some 3) ∧ (dSub c.desc = 0 ∧ dget c.desc 16 0 8 = 3 ∧
      dget c.desc 18 0 8 = code ∧ dUnit8 c.desc = 0 ∧ v = dValue c.desc ∧ dClean c.desc [(16, 0, 8), (18, 0, 16), (24, 0, 64)] = true ∧ code = 1 ∧
      64 ≤ v ∧ v ≤ 1000000)) ∧
  (∃ (s : State) (c : Cmd) (v : Nat) (code : Nat), s.accepts c 0x50 0 (some 3) ∧ (dSub c.desc = 0 ∧ dget c.desc 16 0 8 = 3 ∧
      dget c.desc 18 0 8 = code ∧ dUnit8 c.desc = 0 ∧ v = dValue c.desc ∧ dClean c.desc [(16, 0, 8), (18, 0, 16), (24, 0, 64)] = true ∧ code = 2 ∧
      1 < v)) ∧
  (∃ (s : State) (c : Cmd) (v : Nat) (code : Nat), s.accepts c 0x50 0 (some 3) ∧ (dSub c.desc = 0 ∧ dget c.desc 16 0 8 = 3 ∧
      dget c.desc 18 0 8 = code ∧ dUnit8 c.desc = 0 ∧ v = dValue c.desc ∧ dClean c.desc [(16, 0, 8), (18, 0, 16), (24, 0, 64)] = true ∧ code = 2 ∧
      v ≤ 1)) :=
  ⟨⟨st ring0, Who.cox 0, 0#32, by decide +kernel⟩,
  ⟨s0, Who.cox 0, 1#32, by decide +kernel⟩,
  ⟨st ring0, Who.cox 0, 1#32, by decide +kernel⟩,
  ⟨s1, Who.cox 0, 1#32, by decide +kernel⟩,
  ⟨s1, by decide +kernel⟩,
  ⟨st ring0, by decide +kernel⟩,
  ⟨st ring0, c0, 63, 1, acc (by decide +kernel), by decide +kernel⟩,
  ⟨st ring0, c1, 1000000, 1, acc (by decide +kernel), by decide +kernel⟩,
  ⟨st ring0, c2, 2, 2, acc (by decide +kernel), by decide +kernel⟩,
  ⟨st ring0, c3, 1, 2, acc (by decide +kernel), by decide +kernel⟩⟩
end Scrubber

namespace Protection
def s0 : State := { st [(R.CREWc_LDR_ADDR_ADDR 0, 13)] with mem := [(famKey 2 0, some [(5 * 2^96, keelCheck 2 0 0 (5*2^96))])] }
def s1 : State := { st [(R.CHK_INJ_CTL_ARM, 1), (R.CHK_INJ_SEL_GROUP, 2), (R.CHK_INJ_SEL_UNIT, 49), (R.ECC_FLIPf_CTL_RECS 0, 8), (R.ECC_FLIPf_CTL_ARM 4, 1)] with chkLeft := 1, injRecs := [{fam := 4, addr := 5, cw := 0, syn := 3}] }
def s2 : State := { st [(R.CREWc_LDR_ADDR_ADDR 0, 12)] with ldrCol := [(0, some {base := 0, words := [1, 2, 3]})] }
def s3 : State := { st [(R.CREWc_LDR_ADDR_ADDR 3, 32), (R.CHK_INJ_CTL_ARM, 1), (R.CHK_INJ_SEL_GROUP, 2), (R.CHK_INJ_SEL_UNIT, 0)] with part := .ha, chkLeft := 3 }
/-- States and operands that meet the premises of each clause of Protection. -/
theorem witness :
  (∃ (s : State) (w : Who) (d : Word) (f : Fin 5), s.gate w (A.ECC_FLIPf_CTL f) d = true ∧ wordGet d 0 1 = 1 ∧ wordGet d 4 1 = 0 ∧
      s.get (R.ECC_FLIPf_CTL_RECS f) < 8) ∧
  (∃ (s : State) (w : Who) (d : Word) (f : Fin 5), s.gate w (A.ECC_FLIPf_CTL f) d = true ∧ wordGet d 0 1 = 1 ∧ wordGet d 4 1 = 0 ∧
      8 ≤ s.get (R.ECC_FLIPf_CTL_RECS f)) ∧
  (∃ (s : State) (w : Who) (d : Word) (f : Fin 5), s.gate w (A.ECC_FLIPf_CTL f) d = true ∧ wordGet d 4 1 = 1) ∧
  (∃ (s : State) (w : Who) (d : Word), s.gate w A.CHK_INJ_CTL d = true) ∧
  (∃ (s : State) (l : Fin 50) (real : Bool), s.part = .fa ∧ s.get R.CHK_INJ_CTL_ARM = 0 ∧ real = true ∧
      (s.held.all (fun m => m.src != 0x500 + l.val) = true)) ∧
  (∃ (s : State) (real : Bool), s.part = .fa ∧ s.get R.CHK_INJ_CTL_ARM = 0 ∧ real = true) ∧
  (∃ (s : State) (real : Bool), s.part = .fa ∧ s.get R.CHK_INJ_CTL_ARM = 0 ∧ real = false) ∧
  (∃ (s : State) (l : Fin 50), s.part = .fa ∧ s.get R.CHK_INJ_CTL_ARM = 1 ∧ s.get R.CHK_INJ_SEL_GROUP = 2 ∧ s.get R.CHK_INJ_SEL_UNIT = l.val ∧
      (s.held.all (fun m => m.src != 0x500 + l.val) = true)) ∧
  (∃ (s : State), s.get R.CHK_INJ_CTL_ARM = 0) ∧
  (∃ (s : State), s.get R.CHK_INJ_CTL_ARM = 0) ∧
  (∃ (s : State) (w : Who) (c : Fin 4) (d : Word) (o : Nat), o = s.get (R.CREWc_LDR_ADDR_ADDR c) / 4 * 4 ∧ o < 0xC0000 ∧
      s.gate w (A.CREWc_LDR_DATA c) d = true ∧ tabGet none s.ldrCol c = none ∧ o % 16 = 0) ∧
  (∃ (s : State) (w : Who) (c : Fin 4) (d : Word) (o : Nat), o = s.get (R.CREWc_LDR_ADDR_ADDR c) / 4 * 4 ∧ (o < 0xC0000 ∧
      s.gate w (A.CREWc_LDR_DATA c) d = true) ∧
      ∃ (x : _) (y : _) (z : _) (base : _), tabGet none s.ldrCol c = some { base := base, words := [x, y, z] } ∧ o = base + 12 ∧ base % 16 = 0 ∧
      s.get (R.ECC_FLIPf_CTL_ARM 2) = 0) ∧
  (∃ (s : State) (c : Fin 4) (o : Nat), o = s.get (R.CREWc_LDR_ADDR_ADDR c) / 4 * 4 ∧ o < 0xC0000 ∧ ∃ v, (s.absent (A.CREWc_LDR_DATA c) = false ∧
      tabGet none s.ldrCol c = none) ∧ let g := c * 2 ^ 20 + o / 16 * 16; s.gran 2 g = [(v, keelCheck 2 g 0 v)] ∧ v < 2 ^ 128 ∧
      (∀ r ∈ s.injRecs, r.fam ≠ 2 ∨ r.addr ≠ g)) ∧
  (∃ (s : State) (c : Fin 4) (o : Nat), o = s.get (R.CREWc_LDR_ADDR_ADDR c) / 4 * 4 ∧ o < 0xC0000 ∧ s.absent (A.CREWc_LDR_DATA c) = true) :=
  ⟨⟨s0, Who.host 0, 1#32, 0, by decide +kernel⟩,
  ⟨s1, Who.host 0, 1#32, 0, by decide +kernel⟩,
  ⟨s0, Who.host 0, 0x11#32, 0, by decide +kernel⟩,
  ⟨s0, Who.host 0, 1#32, by decide +kernel⟩,
  ⟨s0, 0, true, by decide +kernel⟩,
  ⟨s0, true, by decide +kernel⟩,
  ⟨s0, false, by decide +kernel⟩,
  ⟨s1, 49, by decide +kernel⟩,
  ⟨s0, by decide +kernel⟩,
  ⟨s0, by decide +kernel⟩,
  ⟨s0, Who.cox 0, 3, 0#32, _, rfl, by decide +kernel⟩,
  ⟨s2, Who.cox 0, 0, 0#32, _, rfl, by decide +kernel, 1#32, 2#32, 3#32, 0, by decide +kernel⟩,
  ⟨s0, 0, _, rfl, by decide +kernel, 5 * 2^96, by decide +kernel, by dsimp only; decide +kernel⟩,
  ⟨s3, 3, _, rfl, by decide +kernel⟩⟩
end Protection

namespace TallyWork
def m0 : Msg := {src := 0x20, kind := 0x11, lvl := 0}
def m1 : Msg := {src := 0x20, kind := 0x10, lvl := 1}
def s0 : State := { st ring0 with held := [m0, {m1 with src := 0x21}] }
def s1 : State := { st ring0 with held := [m0], tsrc := [(0x20, {count := 3, streak := 2})] }
def s2 : State := { st (ring0 ++ [(R.TALLY_UNACK_UNACK, 0x181), (⟨A.TALLY_UNACK_LVL, 0, 3⟩, 3), (R.TALLY_WINc_SECONDS 0, 60)]) with tsrc := [(0x20, {count := 3, streak := 2}), (0x100, {count := 7, reached := true, streak := 3})], now := 5000 * unitsPerSec }
def s3 : State := { st (ring0 ++ [(R.TALLY_THERM_S_SECONDS, 86400)]) with therm := 1, prev := unitsPerSec - 1, now := unitsPerSec + 5 }
def c0 : Cmd := mk 0x50 0 0 0 [(16, 10), (18, 1), (19, 0), (24, 0)]
def c1 : Cmd := mk 0x50 0 0 0 [(16, 10), (18, 1), (19, 7), (24, 86400)]
def c2 : Cmd := mk 0x50 0 0 0 [(16, 10), (18, 2), (19, 7), (24, 65536)]
def c3 : Cmd := mk 0x50 0 0 0 [(16, 10), (18, 2), (19, 7), (24, 65535)]
/-- States and operands that meet the premises of each clause of TallyWork. -/
theorem witness :
  (∃ (s : State), s.held = []) ∧
  (∃ (s : State) (m : _) (r : _) (h : _) (n : _) (cls : _), (s.held = m :: r ∧ (∀ x ∈ s.heldWait, x.src ≠ m.src) ∧ homeClass m.src = some h ∧ h < 8 ∧
      s.sec < (s.window h).stop ∧ s.get R.TALLY_CTL_FWD_EN = 0 ∧ cls = m.kind / 16 ∧ cls < 8 ∧ m.inj = false ∧ m.merged = 0 ∧ m.mergedInj = 0 ∧
      m.lvl ≤ 1 ∧ natBit (s.get R.TALLY_UNACK_UNACK) cls = false ∧ s.escLvl cls = 0 ∧ n = min ((s.tallySrc m.src).count + 1) 65535) ∧
      let severe := ((s.window h).nsev ≠ 0 ∧ (s.window h).nsev ≤ n) ∨ s.get (sevRF m.src) = 1; ¬ severe) ∧
  (∃ (s : State) (m : _) (r : _) (h : _) (n : _) (cls : _), (s.held = m :: r ∧ (∀ x ∈ s.heldWait, x.src ≠ m.src) ∧ homeClass m.src = some h ∧ h < 8 ∧
      s.sec < (s.window h).stop ∧ s.get R.TALLY_CTL_FWD_EN = 0 ∧ cls = m.kind / 16 ∧ cls < 8 ∧ m.inj = false ∧ m.merged = 0 ∧ m.mergedInj = 0 ∧
      m.lvl ≤ 1 ∧ natBit (s.get R.TALLY_UNACK_UNACK) cls = false ∧ s.escLvl cls = 0 ∧ n = min ((s.tallySrc m.src).count + 1) 65535) ∧
      let severe := ((s.window h).nsev ≠ 0 ∧ (s.window h).nsev ≤ n) ∨ s.get (sevRF m.src) = 1; severe ∧ m.lvl = 0) ∧
  (∃ (s : State) (c : Fin 8), (tabWf (fun _ => {}) s.tsrc = true) ∧ (s.window c).stop ≤ s.sec ∧ 1 ≤ s.get (R.TALLY_WINc_SECONDS c)) ∧
  (∃ (s : State) (c : Fin 8), s.sec < (s.window c).stop) ∧
  (∃ (s : State) (w : Who) (d : Word), s.gate w A.TALLY_UNACK d = true) ∧
  (∃ (s : State) (w : Who) (i : Fin 128) (d : Word), s.gate w (A.TALLY_SEVi i) d = true) ∧
  (∃ (s : State), (s.therm = 0 ∨ s.crossed (10 ^ 9) = false ∨ 400 ∈ s.fired)) ∧
  (∃ (s : State), s.therm ≠ 0 ∧ s.crossed (10 ^ 9) = true ∧ 400 ∉ s.fired) ∧
  (∃ (s : State) (c : Cmd) (v : Nat) (code : Nat), s.accepts c 0x50 0 (some 10) ∧ (dSub c.desc = 0 ∧ dget c.desc 16 0 8 = 10 ∧
      dget c.desc 18 0 8 = code ∧ dUnit8 c.desc ≤ 7 ∧ v = dValue c.desc ∧ dClean c.desc [(16, 0, 8), (18, 0, 16), (24, 0, 64)] = true ∧ code = 1 ∧
      (v = 0 ∨ 86400 < v))) ∧
  (∃ (s : State) (c : Cmd) (v : Nat) (code : Nat), s.accepts c 0x50 0 (some 10) ∧ (dSub c.desc = 0 ∧ dget c.desc 16 0 8 = 10 ∧
      dget c.desc 18 0 8 = code ∧ dUnit8 c.desc ≤ 7 ∧ v = dValue c.desc ∧ dClean c.desc [(16, 0, 8), (18, 0, 16), (24, 0, 64)] = true ∧ code = 1 ∧
      1 ≤ v ∧ v ≤ 86400)) ∧
  (∃ (s : State) (c : Cmd) (v : Nat) (code : Nat), s.accepts c 0x50 0 (some 10) ∧ (dSub c.desc = 0 ∧ dget c.desc 16 0 8 = 10 ∧
      dget c.desc 18 0 8 = code ∧ dUnit8 c.desc ≤ 7 ∧ v = dValue c.desc ∧ dClean c.desc [(16, 0, 8), (18, 0, 16), (24, 0, 64)] = true ∧ code = 2 ∧
      65535 < v)) ∧
  (∃ (s : State) (c : Cmd) (v : Nat) (code : Nat), s.accepts c 0x50 0 (some 10) ∧ (dSub c.desc = 0 ∧ dget c.desc 16 0 8 = 10 ∧
      dget c.desc 18 0 8 = code ∧ dUnit8 c.desc ≤ 7 ∧ v = dValue c.desc ∧ dClean c.desc [(16, 0, 8), (18, 0, 16), (24, 0, 64)] = true ∧ code = 2 ∧
      v ≤ 65535)) :=
  ⟨⟨st ring0, by decide +kernel⟩,
  ⟨s0, m0, [{m1 with src := 0x21}], 1, 1, 1, by decide +kernel, by dsimp only; decide +kernel⟩,
  ⟨s1, m0, [], 1, 4, 1, by decide +kernel, by dsimp only; decide +kernel⟩,
  ⟨s2, 0, by decide +kernel⟩,
  ⟨st ring0, 0, by decide +kernel⟩,
  ⟨st ring0, Who.host 0, 0#32, by decide +kernel⟩,
  ⟨st ring0, Who.host 0, 0, 0#32, by decide +kernel⟩,
  ⟨st ring0, by decide +kernel⟩,
  ⟨s3, by decide +kernel⟩,
  ⟨st ring0, c0, 0, 1, acc (by decide +kernel), by decide +kernel⟩,
  ⟨st ring0, c1, 86400, 1, acc (by decide +kernel), by decide +kernel⟩,
  ⟨st ring0, c2, 65536, 2, acc (by decide +kernel), by decide +kernel⟩,
  ⟨st ring0, c3, 65535, 2, acc (by decide +kernel), by decide +kernel⟩⟩
end TallyWork

namespace PowerDomains
def s0 : State := st [(R.CLKPWR_PDn_STATE 0, 1), (R.CLKPWR_PDn_STATE 1, 1), (R.CLKPWR_PDn_STATE 2, 1), (R.CLKPWR_PDn_STATE 3, 1), (R.CLKPWR_PDn_PEND 40, 1), (R.CLKPWR_PDn_PEND 41, 1)]
def s1 : State := st [(R.CLKPWR_PDn_STATE 45, 3), (R.CLKPWR_PDn_STATE 40, 3), (R.CLKPWR_PDn_PEND 40, 2), (R.CLKPWR_PDn_STATE 0, 3), (R.CLKPWR_PDn_PEND 0, 1), (R.USTAT_RES1 1, 1)]
/-- States and operands that meet the premises of each clause of PowerDomains. -/
theorem witness :
  (∃ (s : State) (w : Who) (n : Fin 72) (d : Word), s.gate w (A.CLKPWR_PDn n) d = true ∧ ((46 ≤ n.val ∧ n.val ≤ 61) ∨ n.val = 66) ∧
      wordGet d 4 2 = 1) ∧
  (∃ (s : State) (w : Who) (n : Fin 72) (d : Word), s.gate w (A.CLKPWR_PDn n) d = true ∧ ((46 ≤ n.val ∧ n.val ≤ 61) ∨ n.val = 66) ∧
      wordGet d 4 2 = 2) ∧
  (∃ (s : State) (w : Who) (n : Fin 72) (d : Word), s.gate w (A.CLKPWR_PDn n) d = true ∧ ¬ ((46 ≤ n.val ∧ n.val ≤ 61) ∨ n.val = 66) ∧
      s.pdExists n = true ∧ wordGet d 4 2 = 1 ∧ s.get (R.CLKPWR_PDn_STATE n) = 0) ∧
  (∃ (s : State) (w : Who) (n : Fin 72) (d : Word), s.gate w (A.CLKPWR_PDn n) d = true ∧ ¬ ((46 ≤ n.val ∧ n.val ≤ 61) ∨ n.val = 66) ∧
      s.pdExists n = true ∧ wordGet d 4 2 = 1 ∧ s.get (R.CLKPWR_PDn_STATE n) ≠ 0) ∧
  (∃ (s : State) (w : Who) (n : Fin 72) (d : Word), s.gate w (A.CLKPWR_PDn n) d = true ∧ ¬ ((46 ≤ n.val ∧ n.val ≤ 61) ∨ n.val = 66) ∧
      s.pdExists n = true ∧ wordGet d 4 2 = 2 ∧ s.get (R.CLKPWR_PDn_STATE n) = 0) ∧
  (∃ (s : State) (w : Who) (n : Fin 72) (d : Word), s.gate w (A.CLKPWR_PDn n) d = true ∧ ¬ ((46 ≤ n.val ∧ n.val ≤ 61) ∨ n.val = 66) ∧
      s.pdExists n = true ∧ wordGet d 4 2 = 2 ∧ s.get (R.CLKPWR_PDn_STATE n) ≠ 0) ∧
  (∃ (s : State) (n : Fin 72), s.get (R.CLKPWR_PDn_STATE n) = 1 ∧ s.get (R.CLKPWR_PDn_PEND n) ≠ 2 ∧ s.pdStarting ≤ 4) ∧
  (∃ (s : State) (n : Fin 72), s.get (R.CLKPWR_PDn_STATE n) ≠ 1) ∧
  (∃ (s : State) (n : Fin 72), s.get (R.CLKPWR_PDn_STATE n) = 3 ∧ s.get (R.CLKPWR_PDn_PEND n) ≠ 1) ∧
  (∃ (s : State) (n : Fin 72), s.get (R.CLKPWR_PDn_STATE n) ≠ 3) :=
  ⟨⟨st ring0, Who.cox 0, 46, 0x10#32, by decide +kernel⟩,
  ⟨st ring0, Who.cox 0, 46, 0x20#32, by decide +kernel⟩,
  ⟨st ring0, Who.cox 0, 0, 0x10#32, by decide +kernel⟩,
  ⟨s0, Who.cox 0, 0, 0x10#32, by decide +kernel⟩,
  ⟨st ring0, Who.cox 0, 0, 0x20#32, by decide +kernel⟩,
  ⟨s0, Who.cox 0, 0, 0x20#32, by decide +kernel⟩,
  ⟨s0, 0, by decide +kernel⟩,
  ⟨st ring0, 0, by decide +kernel⟩,
  ⟨s1, 40, by decide +kernel⟩,
  ⟨st ring0, 0, by decide +kernel⟩⟩
end PowerDomains

namespace Resets
def s0 : State := { st (ring0 ++ [(R.SLOTs_MARK_RETIRED 5, 1), (R.DEV_HAND_UCODE, 1)]) with rst := .poreset, pending := [.poreset] }
def s1 : State := { st (ring0 ++ [(R.SLOTs_MARK_RETIRED 5, 1), (R.DEV_HAND_UCODE, 1), (R.CREWc_SCULLq_STATE 0 7, 2), (R.CREWc_SCULLq_STATE 0 8, 1)]) with resetReq := some 5, cyc := 50005, tsrc := [(3, {count := 3}), (5, {count := 3, streak := 2})], celCe := [(4, 5)], lost := [65536], pending := [.poreset], straps := 5 }
def s2 : State := { st ring0 with rst := .warmReq, cyc := 5000 }
/-- States and operands that meet the premises of each clause of Resets. -/
theorem witness :
  (∃ (s : State), s.rst = .poreset) ∧
  (∃ (s : State), s.rst ≠ .poreset) ∧
  (∃ (s : State), Registers.wf s.regs = true ∧ (tabWf (fun _ => {}) s.tsrc = true) ∧ s.rst ≠ .poreset) ∧
  (∃ (s : State), (Registers.wf s.regs = true ∧ (tabWf (fun _ => {}) s.tsrc = true)) ∧ ∃ c, s.resetReq = some c ∧ (c + 50000 ≤ s.cyc)) ∧
  (∃ (s : State), s.rst = .poreset) ∧
  (∃ (s : State), (∀ c, s.resetReq = some c → s.cyc < c + 50000)) ∧
  (∃ (s : State), (s.rst = .warmPin ∨ (s.rst = .warmReq ∧ 5000 ≤ s.cyc))) ∧
  (∃ (s : State), (s.rst = .run ∨ s.rst = .poreset ∨ (s.rst = .warmReq ∧ s.cyc < 5000))) :=
  ⟨⟨s0, by decide +kernel⟩,
  ⟨st ring0, by decide +kernel⟩,
  ⟨st ring0, by decide +kernel⟩,
  ⟨s1, by decide +kernel, someW (by decide +kernel) (by decide +kernel)⟩,
  ⟨s0, by decide +kernel⟩,
  ⟨st ring0, allSome (by decide +kernel)⟩,
  ⟨s2, by decide +kernel⟩,
  ⟨st ring0, by decide +kernel⟩⟩
end Resets

namespace Boot
def s0 : State := st [(R.DEV_HEALTH_DSTATE, 1)]
def s1 : State := { st [(R.DEV_HEALTH_DSTATE, 1), (R.DEV_STRAP_BOOT_WAIT, 1)] with rst := .warmPin }
/-- States and operands that meet the premises of each clause of Boot. -/
theorem witness :
  (∃ (s : State), s.rst = .run ∧ s.get R.DEV_HEALTH_DSTATE = 1) ∧
  (∃ (s : State), (s.rst ≠ .run ∨ s.get R.DEV_HEALTH_DSTATE ≠ 1)) :=
  ⟨⟨s0, by decide +kernel⟩,
  ⟨s1, by decide +kernel⟩⟩
end Boot

namespace Sleep
def osl : Owed := {wait := .sleep, ring := 0, cq := 0, opc := 0x70, tag := 7, kind := 0, idx := 0}
def s0 : State := st (ring0 ++ [(R.STRMn_STATE_STATE 3, 2)])
def c0 : Cmd := mk 0x70 0 0 0 [(16, 0)]
def s1 : State := st (ring0 ++ [(R.CLKPWR_SWAP_BUSY, 1)])
def c1 : Cmd := mk 0x70 0 0 0 [(16, 3)]
def s2 : State := { st (ring0 ++ [(R.CLKPWR_SLEEP_WAKE_EN, 7), (R.CLKPWR_SLEEP_ABORTS, 65535), (R.DEV_HEALTH_DSTATE, 2)]) with sleep := some {alarm := 0}, owed := [osl] }
def s3 : State := { st (ring0 ++ [(R.CLKPWR_SLEEP_WAKE_EN, 6), (R.DEV_HEALTH_DSTATE, 2)]) with sleep := some {alarm := 10}, owed := [osl] }
def s4 : State := { st (ring0 ++ [(R.CLKPWR_SLEEP_WAKE_EN, 7), (R.DEV_HEALTH_DSTATE, 2), (R.PORTp_STATE_STATE 5, 2), (R.LANEl_STATE_STATE 5, 2), (R.LANEl_STATE_STATE 6, 1), (R.CLKPWR_PDn_STATE 66, 2), (R.CLKPWR_PDn_STATE 3, 2), (R.CLKPWR_PDn_STATE 44, 2), (R.CLKPWR_PDn_STATE 47, 2), (R.CLKPWR_PDn_STATE 0, 2), (R.CEL_CTL_TRAFFIC_EN 0, 1)]) with sleep := some {alarm := 0, commit := true, src := 1} }
def s5 : State := { st (ring0 ++ [(R.CLKPWR_SLEEP_WAKE_EN, 7), (R.DEV_HEALTH_DSTATE, 3), (R.CEL_CTL_TRAFFIC_EN 0, 1), (R.CEL_STAT_SREF 0, 1)]) with sleep := some {alarm := 0, commit := true, src := 0} }
def s6 : State := { st (ring0 ++ [(R.CLKPWR_SLEEP_WAKE_EN, 7), (R.DEV_HEALTH_DSTATE, 3), (R.CEL_CTL_TRAFFIC_EN 0, 1), (R.CEL_STAT_SREF 0, 1)]) with sleep := some {alarm := 0, commit := true, src := 2, waking := true, lanes := [5], ports := [5, 63], doms := [0, 1, 44, 47]}, swap := some {bank := 1} }
/-- States and operands that meet the premises of each clause of Sleep. -/
theorem witness :
  (∃ (s : State) (c : Cmd) (w : Nat) (alarm : Nat), s.accepts c 0x70 0 none ∧ (dSub c.desc = 0 ∧
      dClean c.desc [(16, 0, 3), (24, 0, 64), (32, 0, 30)] = true ∧ w = dget c.desc 16 0 3 ∧
      alarm = dget c.desc 24 0 64 * 10 ^ 9 + dget c.desc 32 0 30 ∧ s.streamsLive = true)) ∧
  (∃ (s : State) (c : Cmd) (w : Nat) (alarm : Nat), s.accepts c 0x70 0 none ∧ (dSub c.desc = 0 ∧
      dClean c.desc [(16, 0, 3), (24, 0, 64), (32, 0, 30)] = true ∧ w = dget c.desc 16 0 3 ∧
      alarm = dget c.desc 24 0 64 * 10 ^ 9 + dget c.desc 32 0 30 ∧ s.streamsLive = false ∧ s.get R.CLKPWR_SWAP_BUSY = 1)) ∧
  (∃ (s : State) (c : Cmd) (w : Nat) (alarm : Nat), s.accepts c 0x70 0 none ∧ (dSub c.desc = 0 ∧
      dClean c.desc [(16, 0, 3), (24, 0, 64), (32, 0, 30)] = true ∧ w = dget c.desc 16 0 3 ∧
      alarm = dget c.desc 24 0 64 * 10 ^ 9 + dget c.desc 32 0 30 ∧ s.streamsLive = false ∧ s.get R.CLKPWR_SWAP_BUSY = 0 ∧ s.sleep = none ∧
      (w = 0 ∨ (natBit w 2 = true ∧ alarm * unitsPerNs ≤ s.now)))) ∧
  (∃ (s : State) (c : Cmd) (w : Nat) (alarm : Nat), s.accepts c 0x70 0 none ∧ (dSub c.desc = 0 ∧
      dClean c.desc [(16, 0, 3), (24, 0, 64), (32, 0, 30)] = true ∧ w = dget c.desc 16 0 3 ∧
      alarm = dget c.desc 24 0 64 * 10 ^ 9 + dget c.desc 32 0 30 ∧ s.streamsLive = false ∧ s.get R.CLKPWR_SWAP_BUSY = 0 ∧ s.sleep = none ∧ w ≠ 0 ∧
      (natBit w 2 = false ∨ s.now < alarm * unitsPerNs))) ∧
  (∃ (s : State) (z : _), s.sleep = some z ∧ (z.commit = false ∧
      let src := Nat.land (s.get R.CLKPWR_SLEEP_WAKE_EN) (b2n z.wake + 2 * b2n s.wakeN + 4 * b2n (decide (z.alarm * unitsPerNs ≤ s.now))); src ≠ 0)) ∧
  (∃ (s : State) (z : _), s.sleep = some z ∧ (z.commit = false ∧
      let src := Nat.land (s.get R.CLKPWR_SLEEP_WAKE_EN) (b2n z.wake + 2 * b2n s.wakeN + 4 * b2n (decide (z.alarm * unitsPerNs ≤ s.now))); src = 0)) ∧
  (∃ (s : State) (z : _), s.sleep = some z ∧ (z.commit = true)) ∧
  (∃ (s : State) (z : _), s.sleep = some z ∧ (z.commit = true ∧ s.get R.DEV_HEALTH_DSTATE = 2)) ∧
  (∃ (s : State), (s.sleep = none ∨ s.get R.DEV_HEALTH_DSTATE ≠ 2)) ∧
  (∃ (s : State) (i : Instr) (b : Nat) (z : _), ((i = .wakeNFall ∧ b = 1) ∨ (i = .ptpAlarm ∧ b = 2 ∧ z.alarm * unitsPerNs ≤ s.now)) ∧
      s.sleep = some z ∧ z.commit = true ∧ z.waking = false ∧ natBit (s.get R.CLKPWR_SLEEP_WAKE_EN) b = true ∧ z.src < 8 ∧
      s.get R.DEV_HEALTH_DSTATE = 3) ∧
  (∃ (s : State) (i : Instr) (b : Nat) (z : _), ((i = .wakeNFall ∧ b = 1) ∨ (i = .ptpAlarm ∧ b = 2 ∧ z.alarm * unitsPerNs ≤ s.now)) ∧
      s.sleep = some z ∧ z.commit = true ∧ z.waking = false ∧ natBit (s.get R.CLKPWR_SLEEP_WAKE_EN) b = true ∧ z.src < 8 ∧
      s.get R.DEV_HEALTH_DSTATE ≠ 3) ∧
  (∃ (s : State), s.sleep = none) ∧
  (∃ (s : State), s.sleep = none) ∧
  (∃ (s : State) (z : _), s.sleep = some z ∧ (z.waking = true)) ∧
  (∃ (s : State), (∀ z, s.sleep = some z → z.waking = false)) :=
  ⟨⟨s0, c0, 0, 0, acc (by decide +kernel), by decide +kernel⟩,
  ⟨s1, c0, 0, 0, acc (by decide +kernel), by decide +kernel⟩,
  ⟨st ring0, c0, 0, 0, acc (by decide +kernel), by decide +kernel⟩,
  ⟨st ring0, c1, 3, 0, acc (by decide +kernel), by decide +kernel⟩,
  ⟨s2, someW (by decide +kernel) ⟨by decide +kernel, by dsimp only; decide +kernel⟩⟩,
  ⟨s3, someW (by decide +kernel) ⟨by decide +kernel, by dsimp only; decide +kernel⟩⟩,
  ⟨s4, someW (by decide +kernel) (by decide +kernel)⟩,
  ⟨s4, someW (by decide +kernel) (by decide +kernel)⟩,
  ⟨st ring0, by decide +kernel⟩,
  ⟨s5, .wakeNFall, 1, {alarm := 0, commit := true, src := 0}, by decide +kernel⟩,
  ⟨s4, .wakeNFall, 1, {alarm := 0, commit := true, src := 1}, by decide +kernel⟩,
  ⟨st ring0, by decide +kernel⟩,
  ⟨st ring0, by decide +kernel⟩,
  ⟨s6, someW (by decide +kernel) (by decide +kernel)⟩,
  ⟨st ring0, allSome (by decide +kernel)⟩⟩
end Sleep

namespace FirmwareSwaps
def s0 : State := { st [] with swap := some {bank := 1, after := 5}, cyc := 5 }
def s1 : State := { st [] with swap := some {bank := 1, after := 5}, cyc := 4 }
def s2 : State := { st gen0 with swap := some {bank := 1, after := 5, running := true, gen := some 0, start := 5}, cyc := 10000005 }
def s3 : State := { st gen0 with swap := some {bank := 1, after := 5, running := true, gen := some 0, start := 5}, cyc := 10000006, fired := [200] }
def s4 : State := { st gen0 with swap := some {bank := 1, after := 5, running := true, gen := some 0, start := 5}, cyc := 10000006 }
/-- States and operands that meet the premises of each clause of FirmwareSwaps. -/
theorem witness :
  (∃ (s : State) (x : _), s.swap = some x ∧ (x.running = false ∧ s.sleep = none ∧ x.after ≤ s.cyc ∧ s.strokeNow s.swapGen = true)) ∧
  (∃ (s : State) (x : _), s.swap = some x ∧ ((x.running = true ∨ s.sleep ≠ none ∨ s.cyc < x.after ∨ s.strokeNow s.swapGen = false))) ∧
  (∃ (s : State) (x : _), s.swap = some x ∧ (x.running = true ∧ s.cyc ≤ x.start + 10000000)) ∧
  (∃ (s : State) (x : _), s.swap = some x ∧ (x.running = true ∧ x.start + 10000000 < s.cyc ∧ x.bank < 2 ∧ s.strokeNow x.gen = true)) ∧
  (∃ (s : State) (x : _), s.swap = some x ∧ (x.running = true ∧ x.start + 10000000 < s.cyc ∧ x.bank < 2 ∧ s.strokeNow x.gen = false)) ∧
  (∃ (s : State) (x : _), s.swap = some x ∧ (x.running = true ∧ x.start + 10000000 < s.cyc ∧ x.bank < 2)) ∧
  (∃ (s : State) (x : _), s.swap = some x ∧ (x.running = true ∧ s.cyc ≤ x.start + 10000000)) ∧
  (∃ (s : State), s.swap = none) ∧
  (∃ (s : State), s.swap = none) ∧
  (∃ (s : State), s.swap = none) :=
  ⟨⟨s0, someW (by decide +kernel) (by decide +kernel)⟩,
  ⟨s1, someW (by decide +kernel) (by decide +kernel)⟩,
  ⟨s2, someW (by decide +kernel) (by decide +kernel)⟩,
  ⟨s3, someW (by decide +kernel) (by decide +kernel)⟩,
  ⟨s4, someW (by decide +kernel) (by decide +kernel)⟩,
  ⟨s3, someW (by decide +kernel) (by decide +kernel)⟩,
  ⟨s2, someW (by decide +kernel) (by decide +kernel)⟩,
  ⟨st [], by decide +kernel⟩,
  ⟨st [], by decide +kernel⟩,
  ⟨st [], by decide +kernel⟩⟩
end FirmwareSwaps

namespace Monitors
def s0 : State := raw [(A.MON_AVS_TGT, 0x50064#32)] (st [(R.CLKPWR_PDn_STATE 0, 2), (R.CLKPWR_PDn_STATE 44, 2), (R.CLKPWR_PDn_STATE 50, 2), (R.MON_AVS_CTL_EN, 1), (R.CLKPWR_PDn_STATE 7, 2)])
def s1 : State := raw [(A.MON_AVS_TGT, 0x80064#32)] { st [(R.CLKPWR_PDn_STATE 0, 2), (R.MON_AVS_CTL_EN, 1), (R.MON_AVS_STAT_MV, 800)] with rails := [(0, 9), (3, 9), (11, 9)], therm := 3 }
def s2 : State := raw [(A.MON_AVS_TGT, 0xA#32)] { st [(R.CLKPWR_PDn_STATE 0, 2), (R.MON_AVS_CTL_EN, 1), (R.MON_AVS_STAT_MV, 650), (R.MON_AVS_STAT_LIMIT, 1)] with rails := [(0, 9), (3, 9), (11, 8)], railF := [0, 11], therm := 2, avsAgain := true }
/-- States and operands that meet the premises of each clause of Monitors. -/
theorem witness :
  (∃ (temps : List Int), temps.length = 48) ∧
  (∃ (mv : List Nat), mv.length = 12) ∧
  (∃ (s : State) (l : List Nat) (f : Nat), (l.length = 36 ∧ s.get R.MON_AVS_CTL_EN = 1 ∧ f < 36 ∧ s.pdOn f = true) ∧ let n : Nat →
      Nat := fun i => ((l[i]?).getD 0) % 2 ^ 16; let mv := s.get R.MON_AVS_STAT_MV; let tgt := s.get R.MON_AVS_TGT_COUNT; (∀ i, i < 36 →
      s.pdOn i = true → n f < n i ∨ (n f = n i ∧ f ≤ i)) ∧ (n f < tgt ∧ mv < 800)) ∧
  (∃ (s : State) (l : List Nat) (f : Nat), (l.length = 36 ∧ s.get R.MON_AVS_CTL_EN = 1 ∧ f < 36 ∧ s.pdOn f = true) ∧ let n : Nat →
      Nat := fun i => ((l[i]?).getD 0) % 2 ^ 16; let mv := s.get R.MON_AVS_STAT_MV; let tgt := s.get R.MON_AVS_TGT_COUNT; (∀ i, i < 36 →
      s.pdOn i = true → n f < n i ∨ (n f = n i ∧ f ≤ i)) ∧ (n f < tgt ∧ 800 ≤ mv)) ∧
  (∃ (s : State) (l : List Nat) (f : Nat), (l.length = 36 ∧ s.get R.MON_AVS_CTL_EN = 1 ∧ f < 36 ∧ s.pdOn f = true) ∧ let n : Nat →
      Nat := fun i => ((l[i]?).getD 0) % 2 ^ 16; let mv := s.get R.MON_AVS_STAT_MV; let tgt := s.get R.MON_AVS_TGT_COUNT; (∀ i, i < 36 →
      s.pdOn i = true → n f < n i ∨ (n f = n i ∧ f ≤ i)) ∧ (tgt + s.get R.MON_AVS_TGT_HYST < n f ∧ 650 < mv)) ∧
  (∃ (s : State) (l : List Nat) (f : Nat), (l.length = 36 ∧ s.get R.MON_AVS_CTL_EN = 1 ∧ f < 36 ∧ s.pdOn f = true) ∧ let n : Nat →
      Nat := fun i => ((l[i]?).getD 0) % 2 ^ 16; let mv := s.get R.MON_AVS_STAT_MV; let tgt := s.get R.MON_AVS_TGT_COUNT; (∀ i, i < 36 →
      s.pdOn i = true → n f < n i ∨ (n f = n i ∧ f ≤ i)) ∧ (tgt + s.get R.MON_AVS_TGT_HYST < n f ∧ mv ≤ 650)) ∧
  (∃ (s : State) (l : List Nat) (f : Nat), (l.length = 36 ∧ s.get R.MON_AVS_CTL_EN = 1 ∧ f < 36 ∧ s.pdOn f = true) ∧ let n : Nat →
      Nat := fun i => ((l[i]?).getD 0) % 2 ^ 16; let tgt := s.get R.MON_AVS_TGT_COUNT; (∀ i, i < 36 → s.pdOn i = true → n f < n i ∨ (n f = n i ∧
      f ≤ i)) ∧ (tgt ≤ n f ∧ n f ≤ tgt + s.get R.MON_AVS_TGT_HYST)) ∧
  (∃ (s : State), s.get R.MON_AVS_CTL_EN = 0) :=
  ⟨⟨List.replicate 48 20, by decide +kernel⟩,
  ⟨List.replicate 12 4095, by decide +kernel⟩,
  ⟨s0, List.replicate 36 99, 0, by decide +kernel, ltAll (by decide +kernel), by decide +kernel⟩,
  ⟨s1, List.replicate 36 99, 0, by decide +kernel, ltAll (by decide +kernel), by decide +kernel⟩,
  ⟨s0, List.replicate 36 200, 0, by decide +kernel, ltAll (by decide +kernel), by decide +kernel⟩,
  ⟨s2, List.replicate 36 99, 0, by decide +kernel, ltAll (by decide +kernel), by decide +kernel⟩,
  ⟨s0, List.replicate 36 100, 0, by decide +kernel, ltAll (by decide +kernel), by decide +kernel⟩,
  ⟨st [], by decide +kernel⟩⟩
end Monitors

end Sys2Proof.Tests
end

