-- ==== Sys2Proof/Proofs/PartIdentity.lean ====
section
/-!
PROOFS. A management read in the block DEV (R615, R625): nothing of that block is ever missing, so a read goes to its register, and
DEV_ID is answered by the part (R1).
-/
namespace Sys2Proof.Machine

/-! ## The block DEV is always there -/

section DevBlock
variable (s : State) {a : Nat} (ha : a < 0x10000)
include ha

theorem State.absent_of_dev : s.absent a = false := by
  have h : ¬ 0x120000 ≤ a ∧ ¬ 0x248000 ≤ a ∧ ¬ 0xB0000 ≤ a := by omega
  simp [State.absent, h]

theorem reservedReg_of_dev : reservedReg a = false := by
  have h : ¬ 0x41000 ≤ a ∧ ¬ 0x64000 ≤ a ∧ ¬ 0x400000 ≤ a := by omega
  simp [reservedReg, h]

theorem State.portGone_of_dev : s.portGone a = false := by
  have h : ¬ 0x500000 ≤ a := by omega
  simp [State.portGone, h]

theorem holdDomain_of_dev : holdDomain a = none := by
  have h : ¬ 0x60000 ≤ a ∧ ¬ 0x80000 ≤ a ∧ ¬ 0x200000 ≤ a ∧ ¬ 0x700000 ≤ a := by omega
  simp [holdDomain, h]

theorem State.domainOn_of_dev : s.domainOn a = true := by
  simp [State.domainOn, holdDomain_of_dev ha]

theorem State.otherType_of_dev : s.otherType a = false := by
  have h : ¬ 0x300000 ≤ a ∧ ¬ 0x320000 ≤ a := by omega
  simp [State.otherType, h]

/-- A read of a register of DEV reaches the register: its block, its domain and its register are there (R588, R618). -/
theorem State.mgmtRead_of_dev (w : Who) {t : RegT} {i j k : Nat} (hr : regInfo a = some (t, i, j, k)) :
    s.mgmtRead w a = s.readLow w t.base i a := by
  have hlow : a < 0x100000 := by omega
  simp [State.mgmtRead, hr, hlow, s.absent_of_dev ha, reservedReg_of_dev ha, s.portGone_of_dev ha, s.domainOn_of_dev ha,
    s.otherType_of_dev ha]

end DevBlock

/-! ## DEV_ID -/

/-- The register map has a template that begins at DEV_ID. -/
theorem regInfo_devId : ∃ t i j k, regInfo A.DEV_ID = some (t, i, j, k) ∧ t.base = A.DEV_ID :=
  ⟨_, _, _, _, rfl, rfl⟩

theorem State.readLow_devId (s : State) (w : Who) (i a : Nat) : s.readLow w A.DEV_ID i a = (s, s.devId) := by
  simp [State.readLow]

/-- A read of DEV_ID changes nothing and returns the part's identity, whoever reads. -/
theorem State.mgmtRead_devId (s : State) (w : Who) : s.mgmtRead w A.DEV_ID = (s, s.devId) := by
  obtain ⟨t, i, j, k, hr, hbase⟩ := regInfo_devId
  rw [s.mgmtRead_of_dev (by decide) w hr, hbase, s.readLow_devId]

theorem State.devId_of_ha {s : State} (h : s.part = .ha) : s.devId = 0x0B320051 := by
  simp [State.devId, h]

theorem State.devId_of_fa {s : State} (h : s.part = .fa) : s.devId = 0x0B640051 := by
  simp [State.devId, h]

/-- Settles O13: a read of DEV_ID is answered by the part alone. -/
theorem partIdentity : Obligations.PartIdentity := by
  intro s w
  rw [s.mgmtRead_devId w]
  constructor
  · intro hha
    rw [State.devId_of_ha hha]
  · intro hfa
    rw [State.devId_of_fa hfa]

end Sys2Proof.Machine
end

