-- ==== Sys2Proof/Proofs/StaleFrames.lean ====
section
/-!
PROOFS. Frames past their stale limit (R442). The frames and the count follow from what FRAME_STALE writes first; that the ends of output
which a discarded frame may bring (R202, R246, R365) leave both alone is the one thing to show, and `State.egressView` says it.
-/
namespace Sys2Proof.Machine

/-! ## What the end of a picture's output leaves alone -/

/-- The state without the frames of the ports and without what the end of a picture's output may change. -/
def State.sansEgress (s : State) : State := { s with regs := [], rings := [], streams := [], freed := [], progs := [], egr := [] }

/-- What the end of a picture's output leaves alone: also the frames and the stale counters of the ports. -/
def State.egressView (s : State) : State × Tab (List Frame) × (Nat → Word) :=
  (s.sansEgress, s.egr, fun p => s.reg (A.EGRp_STALE p))

/-- A state that differs in what `State.sansEgress` leaves out differs there alone. -/
theorem State.eq_of_sansEgress {s t : State} (hs : t.sansEgress = s.sansEgress) :
    t = { s with regs := t.regs, rings := t.rings, streams := t.streams, freed := t.freed, progs := t.progs, egr := t.egr } := by
  cases s; cases t
  simp only [State.sansEgress, State.mk.injEq, true_and] at hs ⊢
  exact hs

@[simp] theorem State.setFrames_sansEgress (s : State) (p : Nat) (l : List Frame) : (s.setFrames p l).sansEgress = s.sansEgress := rfl

@[simp] theorem State.addSat_sansEgress (s : State) (f : RF) (n : Nat) : (s.addSat f n).sansEgress = s.sansEgress := rfl

section Kept
variable {s t : State} (hv : t.egressView = s.egressView)
include hv

theorem State.sansEgress_of_egressView : t.sansEgress = s.sansEgress := congrArg Prod.fst hv

theorem State.frames_of_egressView (q : Nat) : t.frames q = s.frames q :=
  congrArg (fun v : State × Tab (List Frame) × (Nat → Word) => tabGet [] v.2.1 q) hv

theorem State.staleCount_of_egressView (p : Nat) : t.get (R.EGRp_STALE_COUNT p) = s.get (R.EGRp_STALE_COUNT p) :=
  congrArg (fun v : State × Tab (List Frame) × (Nat → Word) => wordGet (v.2.2 p) 0 32) hv

end Kept

section Addresses
variable (p : Nat)

theorem egrpStale_ne_pi (i : Nat) : A.EGRp_STALE p ≠ A.RINGi_PI i := by unfold A.EGRp_STALE A.RINGi_PI; omega

theorem egrpStale_ne_stLost : A.EGRp_STALE p ≠ A.HOST_STLOST := by unfold A.EGRp_STALE A.HOST_STLOST; omega

theorem egrpStale_ne_dstat (n : Nat) : A.EGRp_STALE p ≠ A.STRMn_DSTAT n := by unfold A.EGRp_STALE A.STRMn_DSTAT; omega

theorem egrpStale_ne_dconc (n : Nat) : A.EGRp_STALE p ≠ A.STRMn_DCONC n := by unfold A.EGRp_STALE A.STRMn_DCONC; omega

/-- The marks of the part's 4,096 slots lie below the registers of the ports. -/
theorem egrpStale_ne_mark {i : Nat} (hi : i < 4096) : A.EGRp_STALE p ≠ A.SLOTs_MARK i := by
  unfold A.EGRp_STALE A.SLOTs_MARK; omega

end Addresses

theorem State.set_egressView (s : State) (f : RF) (x : Nat) (hf : ∀ p, A.EGRp_STALE p ≠ f.addr) :
    (s.set f x).egressView = s.egressView :=
  Prod.ext rfl (Prod.ext rfl (funext fun p => s.reg_set_other f x _ (hf p)))

theorem State.bump_egressView (s : State) (f : RF) (hf : ∀ p, A.EGRp_STALE p ≠ f.addr) : (s.bump f).egressView = s.egressView :=
  s.set_egressView f _ hf

@[simp] theorem State.updStrm_egressView (s : State) (n : Nat) (f : StreamS → StreamS) :
    (s.updStrm n f).egressView = s.egressView := rfl

@[simp] theorem State.updPic_egressView (s : State) (n pic : Nat) (f : Pic → Pic) : (s.updPic n pic f).egressView = s.egressView := rfl

@[simp] theorem State.noteFreed_egressView (s old : State) (n : Nat) : (s.noteFreed old n).egressView = s.egressView := rfl

@[simp] theorem State.setRing_egressView (s : State) (i : Nat) (v : RingS) : (s.setRing i v).egressView = s.egressView := rfl

@[simp] theorem State.ringPut_egressView (s : State) (i : Nat) (e : RingEntry) : (s.ringPut i e).egressView = s.egressView := by
  unfold State.ringPut
  rw [State.setRing_egressView]
  exact s.set_egressView _ _ (egrpStale_ne_pi · i)

@[simp] theorem State.statRecord_egressView (s : State) (i body : Nat) : (s.statRecord i body).egressView = s.egressView := by
  unfold State.statRecord
  split
  · exact s.ringPut_egressView i _
  · exact s.bump_egressView _ egrpStale_ne_stLost

@[simp] theorem State.statOut_egressView (s : State) (n body : Nat) : (s.statOut n body).egressView = s.egressView := by
  unfold State.statOut
  dsimp only
  split
  · exact s.statRecord_egressView _ _
  · rfl

/-- A walk whose every step keeps the view keeps it. -/
theorem foldl_egressView {α : Type} (f : State → α → State) (hf : ∀ s a, (f s a).egressView = s.egressView) (l : List α) (s : State) :
    (l.foldl f s).egressView = s.egressView := by
  induction l generalizing s with
  | nil => rfl
  | cons a l ih => rw [List.foldl_cons, ih, hf]

@[simp] theorem State.popDone_egressView (s : State) (n : Nat) : (s.popDone n).egressView = s.egressView := by
  unfold State.popDone
  refine (foldl_egressView _ (fun s p => ?_) _ _).trans rfl
  split
  · rfl
  · exact (State.statOut_egressView _ n _).trans rfl

/-- A shelf holds slots of the part alone. -/
theorem State.slotOf_lt {s : State} {n pic i : Nat} (hi : s.slotOf n pic = some i) : i < 4096 := by
  have hmem : i ∈ s.shelf n := List.mem_of_find?_eq_some hi
  obtain ⟨e, -, he⟩ := List.mem_filterMap.1 hmem
  split at he
  · rename_i haddr
    have : (e.1 - 0x318000) / 8 = i := Option.some.inj he
    omega
  · cases he

@[simp] theorem State.outputDone_egressView (s : State) (n pic : Nat) : (s.outputDone n pic).egressView = s.egressView := by
  unfold State.outputDone
  split
  · rfl
  · split
    · rfl
    · dsimp only
      rw [State.popDone_egressView, State.statOut_egressView, State.noteFreed_egressView, apply_ite State.egressView,
        State.bump_egressView _ _ (egrpStale_ne_dconc · n), ite_self, State.set_egressView _ _ _ (egrpStale_ne_dstat · n),
        State.updPic_egressView]
      split
      · rename_i i hi
        exact s.set_egressView _ _ (egrpStale_ne_mark · (State.slotOf_lt hi))
      · rfl

@[simp] theorem State.frameGone_egressView (s : State) (f : Frame) : (s.frameGone f).egressView = s.egressView := by
  unfold State.frameGone
  split
  · split
    · exact s.outputDone_egressView _ _
    · rfl
  · rfl

/-! ## FRAME_STALE -/

/-- A frame of a port has reached its stale limit (R442). -/
def State.stale (s : State) (p : Nat) (f : Frame) : Bool := s.reached (f.elig.addNs (s.get (R.EGRp_CLS_STALE_US p) * 1000))

/-- The stale frames of a port leave its queues and are counted. -/
def State.discardStale (s : State) (p : Nat) : State :=
  (s.setFrames p ((s.frames p).filter (fun f => !s.stale p f))).addSat (R.EGRp_STALE_COUNT p) ((s.frames p).filter (s.stale p)).length

theorem State.dropStale_egressView (s : State) (p : Nat) : (s.dropStale p).egressView = (s.discardStale p).egressView :=
  foldl_egressView _ State.frameGone_egressView _ _

theorem State.dropStale_frames_same (s : State) (p : Nat) : (s.dropStale p).frames p = (s.frames p).filter (fun f => !s.stale p f) := by
  rw [State.frames_of_egressView (s.dropStale_egressView p), State.discardStale, State.addSat_frames, State.setFrames_same]

theorem State.dropStale_frames_other (s : State) (p q : Nat) (hq : q ≠ p) : (s.dropStale p).frames q = s.frames q := by
  rw [State.frames_of_egressView (s.dropStale_egressView p), State.discardStale, State.addSat_frames, s.setFrames_other _ _ _ hq]

/-- A counter counted up saturates at its largest value. -/
theorem State.get_addSat_same (s : State) (f : RF) (n : Nat) (hf : f.lo + f.w ≤ 32) :
    (s.addSat f n).get f = min (s.get f + n) (2 ^ f.w - 1) := by
  have := Nat.two_pow_pos f.w
  rw [State.addSat, State.get_set_same _ _ _ hf, Nat.mod_eq_of_lt (by omega)]

theorem State.dropStale_staleCount (s : State) (p : Nat) : (s.dropStale p).get (R.EGRp_STALE_COUNT p) =
    min (s.get (R.EGRp_STALE_COUNT p) + ((s.frames p).filter (s.stale p)).length) (2 ^ 32 - 1) := by
  rw [State.staleCount_of_egressView (s.dropStale_egressView p), State.discardStale,
    State.get_addSat_same _ (R.EGRp_STALE_COUNT p) _ (Nat.le_refl 32), State.setFrames_get]

/-- What a discard of stale frames may change: the frames, and what the end of a decoded picture's output changes. -/
theorem State.dropStale_frame (s : State) (p : Nat) :
    s.dropStale p = { s with regs := (s.dropStale p).regs, rings := (s.dropStale p).rings, streams := (s.dropStale p).streams,
                             freed := (s.dropStale p).freed, progs := (s.dropStale p).progs, egr := (s.dropStale p).egr } := by
  apply State.eq_of_sansEgress
  rw [State.sansEgress_of_egressView (s.dropStale_egressView p), State.discardStale, State.addSat_sansEgress, State.setFrames_sansEgress]

/-- FRAME_STALE discards the stale frames of its port in every state. -/
theorem exec_frameStale (p : Fin 64) (s : State) : exec (.frameStale p) s = .next (s.dropStale p) := by rfl

/-- Settles O12: the frames that stay are those not stale, the others are counted, and nothing after the discard touches either. -/
theorem staleFrames : Obligations.StaleFrames := by
  intro s p
  refine ⟨s.dropStale p, exec_frameStale p s, fun f => ?_, ?_, ?_, ?_⟩
  · rw [s.dropStale_frames_same p, List.mem_filter, Bool.not_eq_true']
    rfl
  · exact s.dropStale_staleCount p
  · exact s.dropStale_frames_other p
  · exact s.dropStale_frame p

end Sys2Proof.Machine
end

