-- ==== Sys2Proof/Proofs/PllLoss.lean ====
section
/-!
PROOFS. A PHY PLL that loses lock (R515). First what a Tally message leaves alone and what the Tally then holds (R546, R551), for every
source and kind; then the loss itself, which is one register field cleared and one such message.
-/
namespace Sys2Proof.Machine

/-! ## A message to the Tally -/

theorem mem_insertBy_self {α : Type} (lt : α → α → Bool) (x : α) (l : List α) : x ∈ insertBy lt x l := by
  induction l with
  | nil => exact List.mem_singleton_self x
  | cons y r ih =>
    rw [insertBy]
    split
    · exact List.mem_cons_self
    · exact List.mem_cons_of_mem y ih

/-- A message to a source that holds none is held as it came. -/
theorem State.mem_held_holdMsg (s : State) (m : Msg) (hfree : s.held.all (fun h => h.src != m.src) = true) : m ∈ (s.holdMsg m).held := by
  have hnone : s.held.find? (fun h => h.src == m.src) = none := by
    simpa [List.find?_eq_none] using hfree
  simp only [State.holdMsg, hnone]
  exact mem_insertBy_self _ _ _

/-- A message from a source of the Tally, at its kind's base level, tells the Tally of it. -/
theorem State.tells_send (s : State) (src kind addr detail : Nat) (inj : Bool) (hsrc : homeClass src ≠ none) :
    s.tells (s.send src kind addr detail inj) src kind := by
  intro hfree
  rw [State.send, if_neg hsrc]
  exact ⟨_, s.mem_held_holdMsg _ hfree, rfl, rfl, rfl⟩

/-- Of the registers, a message reaches the count of merged ones alone (R551). -/
theorem State.reg_holdMsg_other (s : State) (m : Msg) {a : Nat} (ha : a ≠ A.TALLY_MERGED) : (s.holdMsg m).reg a = s.reg a := by
  unfold State.holdMsg
  split
  · rfl
  · split
    · rfl
    · exact State.reg_set_other _ R.TALLY_MERGED_COUNT _ a ha

theorem State.reg_send_other (s : State) (src kind addr detail : Nat) (inj : Bool) (lvl : Option Nat) {a : Nat} (ha : a ≠ A.TALLY_MERGED) :
    (s.send src kind addr detail inj lvl).reg a = s.reg a := by
  unfold State.send
  split
  · rfl
  · exact s.reg_holdMsg_other _ ha

theorem State.get_send_other (s : State) (src kind addr detail : Nat) (inj : Bool) (lvl : Option Nat) (f : RF)
    (hf : f.addr ≠ A.TALLY_MERGED) : (s.send src kind addr detail inj lvl).get f = s.get f := by
  rw [State.get, State.get, s.reg_send_other _ _ _ _ _ _ hf]

/-! ## CEL_PLL -/

/-- The loss of a stack's PHY PLL: PLL_LOCK falls, and the stack's controller sends CEL_PLL. -/
def State.losePll (s : State) (k : Fin 2) : State := (s.set (R.CEL_STAT_PLL_LOCK k) 0).send (0x140 + k) 0x0A

/-- A PLL in lock under traffic loses its lock by CEL_PLL. -/
theorem exec_celPll_of_lock {s : State} {k : Fin 2} (htraffic : s.get (R.CEL_CTL_TRAFFIC_EN k) = 1)
    (hlock : s.get (R.CEL_STAT_PLL_LOCK k) = 1) : exec (.celPll k) s = .next (s.losePll k) := by
  have hboth : s.flag (R.CEL_CTL_TRAFFIC_EN k) = true ∧ s.flag (R.CEL_STAT_PLL_LOCK k) = true := by
    simp [State.flag, htraffic, hlock]
  change execCelPll k s = _
  rw [execCelPll, if_pos hboth, State.losePll]

/-- The controllers of both stacks are sources of the Tally. -/
theorem homeClass_celController : ∀ k : Fin 2, homeClass (0x140 + k) ≠ none := by decide

theorem baseLevel_celPll : baseLevel 0x0A = 4 := by decide

theorem celStat_ne_tallyMerged (k : Nat) : A.CEL_STAT k ≠ A.TALLY_MERGED := by unfold A.CEL_STAT A.TALLY_MERGED; omega

theorem State.losePll_pllLock (s : State) (k : Fin 2) : (s.losePll k).get (R.CEL_STAT_PLL_LOCK k) = 0 := by
  rw [State.losePll, State.get_send_other _ _ _ _ _ _ _ _ (celStat_ne_tallyMerged k)]
  exact s.get_set_same (R.CEL_STAT_PLL_LOCK k) 0 (by simp)

/-- A stack without its PLL serves no request, whatever else holds of it. -/
theorem State.stackServes_of_noLock {s : State} {k : Nat} (h : s.get (R.CEL_STAT_PLL_LOCK k) = 0) : s.stackServes k = false := by
  have hflag : s.flag (R.CEL_STAT_PLL_LOCK k) = false := by rw [State.flag, h]; rfl
  simp [State.stackServes, hflag]

theorem State.losePll_tells (s : State) (k : Fin 2) : s.tells (s.losePll k) (0x140 + k) 0x0A := by
  have h := (s.set (R.CEL_STAT_PLL_LOCK k) 0).tells_send (0x140 + k) 0x0A 0 0 false (homeClass_celController k)
  rwa [State.tells, State.set_held] at h

theorem State.losePll_onlyReports (s : State) (k : Fin 2) : s.onlyReports (s.losePll k) :=
  State.onlyReports_of (by rw [State.losePll, State.send_sansReports, State.set_sansReports])

/-- Settles O9: a stack without PLL_LOCK does not serve, and CEL_PLL's base level is Fatal. -/
theorem pllLossStopsTraffic : Obligations.PllLossStopsTraffic := by
  intro s k htraffic hlock
  refine ⟨s.losePll k, exec_celPll_of_lock htraffic hlock, State.stackServes_of_noLock (s.losePll_pllLock k), fun hfree => ?_,
    s.losePll_onlyReports k⟩
  obtain ⟨m, hheld, hsrc, hkind, hlvl⟩ := s.losePll_tells k hfree
  exact ⟨m, hheld, hsrc, by rw [hkind], by rw [hkind], hlvl.trans baseLevel_celPll⟩

end Sys2Proof.Machine
end

