-- ==== Sys2Proof/Proofs/SwapRevert.lean ====
section
/-!
PROOFS. The revert of a firmware swap (R601). First the rules of a W1C bit that an event raises and of changes of the register file alone;
then the revert itself, which clears one bit of HOST_STAT, writes two of CLKPWR_SWAP and ends the swap.
-/
namespace Sys2Proof.Machine

/-! ## A W1C bit raised by an event -/

theorem State.reg_raise_other (s : State) (f : RF) {a : Nat} (ha : a ≠ f.addr) : (s.raise f).reg a = s.reg a :=
  s.reg_set_other f 1 a ha

theorem State.get_raise_same (s : State) (f : RF) (hf : f.lo + f.w ≤ 32) (hw : 0 < f.w) : (s.raise f).get f = 1 :=
  (s.get_set_same f 1 hf).trans (Nat.mod_eq_of_lt (Nat.one_lt_two_pow (Nat.ne_of_gt hw)))

/-! ## Changes of the register file alone, one after another -/

theorem State.onlyRegs_iff {s t : State} : s.onlyRegs t ↔ ∃ regs hot, t = { s with regs := regs, hot := hot } := by
  constructor
  · exact fun h => ⟨_, _, h⟩
  · rintro ⟨regs, hot, rfl⟩
    rfl

theorem State.onlyRegs_set (s : State) (f : RF) (x : Nat) : s.onlyRegs (s.set f x) := by rfl

theorem State.onlyRegs_raise (s : State) (f : RF) : s.onlyRegs (s.raise f) := by rfl

theorem State.onlyRegs_trans {s t u : State} (hst : s.onlyRegs t) (htu : t.onlyRegs u) : s.onlyRegs u := by
  obtain ⟨r, h, rfl⟩ := State.onlyRegs_iff.mp hst
  obtain ⟨r', h', rfl⟩ := State.onlyRegs_iff.mp htu
  exact State.onlyRegs_iff.mpr ⟨r', h', rfl⟩

/-! ## The registers of a revert -/

theorem hostStat_ne_clkpwrSwap : A.HOST_STAT ≠ A.CLKPWR_SWAP := by decide

theorem strmState_ne_hostStat (n : Nat) : A.STRMn_STATE n ≠ A.HOST_STAT := by unfold A.STRMn_STATE A.HOST_STAT; omega

theorem strmState_ne_clkpwrSwap (n : Nat) : A.STRMn_STATE n ≠ A.CLKPWR_SWAP := by unfold A.STRMn_STATE A.CLKPWR_SWAP; omega

theorem not_mem_hostStat_clkpwrSwap {a : Nat} : a ∉ [A.HOST_STAT, A.CLKPWR_SWAP] ↔ a ≠ A.HOST_STAT ∧ a ≠ A.CLKPWR_SWAP := by
  simp only [List.mem_cons, List.not_mem_nil, or_false, not_or, ne_eq]

/-- The VALID bits of both banks lie within HOST_STAT. -/
theorem bankValid_fits {b : Nat} (hb : b < 2) : 4 + b + 1 ≤ 32 := by omega

/-- What a revert writes: bank `b` is marked invalid, REVERTED is set and BUSY falls. -/
def State.markReverted (s : State) (b : Nat) : State :=
  ((s.bankValid b false).raise R.CLKPWR_SWAP_REVERTED).set R.CLKPWR_SWAP_BUSY 0

/-- Outside CLKPWR_SWAP a revert writes the bank's VALID bit alone. -/
theorem State.markReverted_reg (s : State) (b : Nat) {a : Nat} (ha : a ≠ A.CLKPWR_SWAP) :
    (s.markReverted b).reg a = (s.bankValid b false).reg a := by
  rw [State.markReverted, State.reg_set_other _ _ _ _ ha, State.reg_raise_other _ _ ha]

theorem State.markReverted_get (s : State) (b : Nat) (f : RF) (hf : f.addr ≠ A.CLKPWR_SWAP) :
    (s.markReverted b).get f = (s.bankValid b false).get f := by
  rw [State.get, State.get, s.markReverted_reg b hf]

theorem State.markReverted_reverted (s : State) (b : Nat) : (s.markReverted b).get R.CLKPWR_SWAP_REVERTED = 1 := by
  rw [State.markReverted, State.get_set_apart _ R.CLKPWR_SWAP_BUSY R.CLKPWR_SWAP_REVERTED _ (by decide) rfl (by decide),
    State.get_raise_same _ _ (by decide) (by decide)]

/-- ACT_BANK lies below the VALID bits. -/
theorem State.markReverted_actBank (s : State) {b : Nat} (hb : b < 2) :
    (s.markReverted b).get R.HOST_STAT_ACT_BANK = s.get R.HOST_STAT_ACT_BANK := by
  rw [s.markReverted_get b R.HOST_STAT_ACT_BANK hostStat_ne_clkpwrSwap, State.bankValid]
  exact s.get_set_apart ⟨A.HOST_STAT, 4 + b, 1⟩ R.HOST_STAT_ACT_BANK _ (bankValid_fits hb) rfl
    (Or.inr (Nat.le_add_right 4 b))

theorem State.markReverted_valid (s : State) {b : Nat} (hb : b < 2) : (s.markReverted b).get ⟨A.HOST_STAT, 4 + b, 1⟩ = 0 := by
  rw [s.markReverted_get b ⟨A.HOST_STAT, 4 + b, 1⟩ hostStat_ne_clkpwrSwap, State.bankValid,
    State.get_set_same _ _ _ (bankValid_fits hb)]
  rfl

theorem State.markReverted_regsBut (s : State) (b : Nat) : s.regsBut (s.markReverted b) [A.HOST_STAT, A.CLKPWR_SWAP] := by
  intro a ha
  obtain ⟨hhost, hpwr⟩ := not_mem_hostStat_clkpwrSwap.mp ha
  rw [s.markReverted_reg b hpwr, State.bankValid, State.reg_set_other _ _ _ _ hhost]

/-- No stream's STATE register is HOST_STAT or CLKPWR_SWAP: a revert closes none. -/
theorem State.markReverted_streamState (s : State) (b n : Nat) :
    (s.markReverted b).get (R.STRMn_STATE_STATE n) = s.get (R.STRMn_STATE_STATE n) := by
  have hout : A.STRMn_STATE n ∉ [A.HOST_STAT, A.CLKPWR_SWAP] :=
    not_mem_hostStat_clkpwrSwap.mpr ⟨strmState_ne_hostStat n, strmState_ne_clkpwrSwap n⟩
  rw [State.get, State.get, s.markReverted_regsBut b (A.STRMn_STATE n) hout]

theorem State.markReverted_onlyRegs (s : State) (b : Nat) : s.onlyRegs (s.markReverted b) :=
  State.onlyRegs_trans (s.onlyRegs_set _ _) (State.onlyRegs_trans (State.onlyRegs_raise _ _) (State.onlyRegs_set _ _ _))

/-! ## The revert -/

/-- The old bank restarts: the registers show it, and no swap is in hand. -/
def State.revertSwap (s : State) (b : Nat) : State := { s.markReverted b with swap := none }

@[simp] theorem State.revertSwap_reg (s : State) (b a : Nat) : (s.revertSwap b).reg a = (s.markReverted b).reg a := by rfl
@[simp] theorem State.revertSwap_get (s : State) (b : Nat) (f : RF) : (s.revertSwap b).get f = (s.markReverted b).get f := by rfl

/-- Beside the registers a revert ends the swap and touches nothing: no stream, no picture. -/
theorem State.revertSwap_frame (s : State) (b : Nat) :
    s.revertSwap b = { s with regs := (s.revertSwap b).regs, hot := (s.revertSwap b).hot, swap := (s.revertSwap b).swap } := by
  obtain ⟨regs, hot, h⟩ := State.onlyRegs_iff.mp (s.markReverted_onlyRegs b)
  rw [State.revertSwap, h]

theorem State.revertSwap_streams (s : State) (b : Nat) : (s.revertSwap b).streams = s.streams := by rw [s.revertSwap_frame b]
theorem State.revertSwap_slotPic (s : State) (b : Nat) : (s.revertSwap b).slotPic = s.slotPic := by rw [s.revertSwap_frame b]

/-- A running swap past its 20 ms is reverted by SWAP_REVERT in the cycle of its generator's Stroke. -/
theorem exec_swapRevert_of_late {s : State} {x : SwapS} (hswap : s.swap = some x) (hrun : x.running = true)
    (hlate : x.start + 10000000 < s.cyc) (hstroke : s.strokeNow x.gen = true) : exec .swapRevert s = .next (s.revertSwap x.bank) := by
  have hgo : ¬ (¬ x.running = true ∨ s.cyc ≤ x.start + 10000000 ∨ s.strokeNow x.gen = false) := by
    rintro (hidle | hsoon | hnone)
    · exact hidle hrun
    · exact absurd hlate (Nat.not_lt.mpr hsoon)
    · exact Bool.noConfusion (hstroke.symm.trans hnone)
  change execSwapRevert s = _
  simp only [execSwapRevert, hswap, if_neg hgo, State.revertSwap, State.markReverted]

/-- Settles O10: a revert reaches HOST_STAT and CLKPWR_SWAP alone, and of HOST_STAT the new bank's VALID bit alone. -/
theorem swapReverts : Obligations.SwapReverts := by
  intro s x hswap hrun hlate hbank hstroke
  refine ⟨s.revertSwap x.bank, exec_swapRevert_of_late hswap hrun hlate hstroke, ?_⟩
  simp only [State.regsBut, State.revertSwap_get, State.revertSwap_reg]
  exact ⟨rfl, s.markReverted_actBank hbank, s.markReverted_valid hbank, s.markReverted_reverted x.bank,
    s.markReverted_streamState x.bank, s.revertSwap_streams x.bank, s.revertSwap_slotPic x.bank, s.revertSwap_frame x.bank,
    s.markReverted_regsBut x.bank⟩

end Sys2Proof.Machine
end
